-- ==== Sys2Proof/Word.lean ====
section
/-!
DEFINITION. The word of the register space (R10) and the byte of the addressed memories (R11).
-/

namespace Sys2Proof

/-- A register word: every register is 32 bits wide (R10). -/
abbrev Word := BitVec 32

/-- A byte of an addressed memory (R11). -/
abbrev Byte := BitVec 8

end Sys2Proof
end

