-- ==== Sys2Proof/Syntax.lean ====
section
/-!
DEFINITION. The syntax of the commands: one constructor of `Instr` per row of spec/opcode_table.json.
-/

namespace Sys2Proof

/-- Where a register access goes: a BAR0 address (R25), or CSR `num` of hart `h` of die `d` (R332). -/
inductive RegPlace where
  | bar (a : Nat)
  | csr (d h num : Nat)
  deriving DecidableEq, Repr

/-- The AMO operations of the A extension (R325). -/
inductive AmoOp where
  | swap | add | xor | and | or | min | max | minu | maxu
  deriving DecidableEq, Repr

/-- What a hart asks of memory (R325, R328). -/
inductive AccKind where
  | fetch | load | store | lr | sc
  | amo (op : AmoOp)
  deriving DecidableEq, Repr

/-- A memory access of a hart: its hart address, size in bytes, data of a store, SC or AMO, destination register of the result (an
integer or a floating-point one, sign-extended or not), and the address of its instruction; and what comes from outside: whether the
caches of R330 hold the line, and what the ECC finds (0 nothing, 1 a single, 2 a double error). -/
structure HartAcc where
  kind : AccKind
  addr : Nat
  size : Nat := 4
  val : Word := 0
  rd : Nat := 0
  signed : Bool := false
  fp : Bool := false
  pc : Nat := 0
  hit : Bool := false
  ecc : Nat := 0
  deriving DecidableEq, Repr

/-- Which pairs of an incremental interface read one level on both wires (A, B, Z as bits 0 to 2), and for how many ticks those that did
not before have done so (R155). -/
structure WireEvent where
  mask : Nat
  ago : Nat
  deriving DecidableEq, Repr

/-- Which of the two comparators of a Pj input an event is about (the upper one or not), and the voltage at the ball in 2^-10 mV (R173). -/
structure CmpEvent where
  up : Bool
  x : Int
  deriving DecidableEq, Repr

/-- The commands of the block, one constructor per row of the opcode table, in its order. The operands name the item the
command is about (`d` the die, `n` the axis within the pair site) and carry what comes from outside the block with it. -/
inductive Instr where
  /-- REGISTER_WRITE (R8): A write to a register field that has no step of its own sets the field under its access code. -/
  | registerWrite (m : Nat) (f : Nat) (p : RegPlace) (wr : Bool) (size : Nat) (v : Word) (ecc : Nat)
  /-- FORWARDED_WRITE (R26): A per-axis write forwarded over the pair bridge is applied by the mate in the order the active mate sets. -/
  | forwardedWrite (d : Nat)
  /-- SPINE_LINK_FAIL (R20): A spine link fails, traffic goes the other way round the ring, and spine-link is raised. -/
  | spineLinkFail (l : Nat)
  /-- SPINE_LINK_RETURN (R20): A failed spine link returns, and spine-link is raised. -/
  | spineLinkReturn (l : Nat)
  /-- CLOCK_MONITOR_WINDOW (R42): At the end of each 1,000-cycle watch window, the clock monitor judges REFCLK, the root clock and the watch oscillator. -/
  | clockMonitorWindow (d : Nat) (ref : Bool) (count : Nat)
  /-- REFCLK_RETURN (R42): REFCLK returns during holdover, and the root PLL starts to relock by frequency slewing. -/
  | refclkReturn (d : Nat)
  /-- ROOT_RELOCK_COMPLETE (R42): The root PLL completes its relock, and HOLDOVER is cleared. -/
  | rootRelockComplete (d : Nat)
  /-- HOLDOVER_TIMEOUT (R42): A holdover that lasts longer than 10 ms raises root-fail. -/
  | holdoverTimeout (d : Nat)
  /-- SPINE_TIME_EXCHANGE (R45): A spine delay measurement aligns PT64 of a die to the package time master. -/
  | spineTimeExchange (d : Nat) (skew : Int)
  /-- CONVERT_STROBE (R46): On a multiple of 250 tk, every converter and excitation DAC of the package samples or updates, and the per-sample work of each die runs. -/
  | convertStrobe (codes : List Int)
  /-- SLEW_TICK (R47): On an announced slew tick, PT64 holds or advances by 2 on every die, and the slew remainder moves toward 0. -/
  | slewTick
  /-- CLK_DOSTEP (R47): A write of DOSTEP requests a package-wide step of PT64 to CLK_PTSTEP.VALUE. -/
  | clkDostep (d : Nat) (v : Word)
  /-- PT_STEP_TICK (R47): At the announced tick, PT64 is loaded on all dies, or the step is refused and added to the slew remainder. -/
  | ptStepTick
  /-- CLK_PTADJ_SLEW_WRITE (R48): A write of CLK_PTADJ.SLEW sets the slew remainder, or is refused while FABLOCK = 1. -/
  | clkPtadjSlewWrite (d : Nat) (v : Word)
  /-- POWER_ON_RESET (R50): A rail below its reset threshold, or the first rise of power, resets the die. -/
  | powerOnReset (d : Nat)
  /-- RSTN_RESET (R50): RSTn held low for at least 1 µs resets all dies and restarts PT64 at 0. -/
  | rstnReset
  /-- WATCHDOG_EXPIRY (R50): Expiry of the watchdog resets the die, with a handover first under R52. -/
  | watchdogExpiry (d : Nat)
  /-- GLB_SWRST_SELF (R52): A keyed write of GLB_SWRST.SELF resets the die, with a handover first if the mate is a ready standby. -/
  | glbSwrstSelf (d : Nat) (m : Nat) (v : Word)
  /-- GLB_SWRST_MATE (R54): A keyed write of GLB_SWRST.MATE resets the mate, or is refused as an access fault. -/
  | glbSwrstMate (d : Nat) (m : Nat) (v : Word)
  /-- RESET_EXIT (R51): The die leaves reset once no source requests it, and it restarts its bring-up. -/
  | resetExit (d : Nat) (rails : Bool) (rstn : Bool)
  /-- PT_REALIGN (R55): A die out of reset realigns its PT64 to the master and sets PTALIGNED. -/
  | ptRealign (d : Nat)
  /-- PCIE_PERST (R56): PERST# from the host resets only the PCIe endpoint of the die, with its rings and doorbell state. -/
  | pciePerst (d : Nat)
  /-- ROOT_PLL_LOCK (R57): The root PLL locks, the derived clocks run, and PHASE becomes 1. -/
  | rootPllLock (d : Nat)
  /-- ROOT_LOCK_RETRY (R58): A root PLL not locked by 1 ms raises root-fail and retries the lock every 1 ms. -/
  | rootLockRetry (d : Nat)
  /-- OPTION_AREA_LOAD (R462): The option area and calibration row are loaded and checked, and the flash marker pairs are classed. -/
  | optionAreaLoad (d : Nat) (ea : Bool) (eb : Bool) (ec : Bool)
  /-- SPINE_TRAINED (R57): The spine is trained, PT64 is aligned or started, and the boot ROM starts measured start. -/
  | spineTrained (d : Nat)
  /-- READING_COPY_START (R60): The reading-copy excitation starts on every axis, and PHASE becomes 2. -/
  | readingCopyStart (d : Nat)
  /-- PHASE3_STEP (R57): At the 2.0 ms step PHASE becomes 3, and becomes 4 as well if measured start has completed. -/
  | phase3Step (d : Nat)
  /-- RC_TRACKER_UPDATE (R60): The hardwired reading-copy tracker updates angle, validity and emulation at 10 kHz. -/
  | rcTrackerUpdate (d : Nat)
  /-- MEASURED_START_COMPLETE (R475): The boot ROM completes measured start, the harts are released, and the CFG unit begins phase 4. -/
  | measuredStartComplete (d : Nat)
  /-- BASE_IMAGE_APPLY (R361): The CFG unit applies the base image and the initial mode, and reports completion for E0. -/
  | baseImageApply (d : Nat)
  /-- FULL_SERVICE_ENTRY (R361): At tick E0 every die enters phase 5, presets its full trackers and hands every axis to the full signal chain. -/
  | fullServiceEntry
  /-- WATCHDOG_ENABLE (R50): A write of GLB_WDT.EN = 1 starts the watchdog and fixes its settings. -/
  | watchdogEnable (d : Nat) (v : Word)
  /-- WATCHDOG_KICK (R50): A write of KICK restarts the watchdog count with key 0xC3, or raises watchdog-key otherwise. -/
  | watchdogKick (d : Nat) (key : Nat)
  /-- EXC_WRITE (R66): A write to EXC_CTRL, EXC_FINC or EXC_AMP is held pending until an apply boundary. -/
  | excWrite (d : Nat) (n : Nat) (r : Nat) (v : Word)
  /-- EXC_APPLY_BOUNDARY (R66): On a multiple of 25,000 tk, pending excitation changes take effect and the mates exchange accumulators. -/
  | excApplyBoundary
  /-- EXC_OVERLOAD_ONSET (R75): The EXC driver enters current limit, and OVLD reads 1. -/
  | excOverloadOnset (d : Nat) (n : Nat)
  /-- EXC_OVERLOAD_TIMEOUT (R75): Current limiting that lasts 100 µs without a break raises exc-overload. -/
  | excOverloadTimeout (d : Nat) (n : Nat)
  /-- CARRIER_PERIOD_END (R83): At each accumulator wrap, the per-period clip record, amplitude and pilot-jump measures are formed. -/
  | carrierPeriodEnd (d : Nat) (n : Nat)
  /-- INPUT_CLIP (R83): LIMIT consecutive carrier periods with a clipped sample raise input-clip once. -/
  | inputClip (d : Nat) (n : Nat)
  /-- PILOT_ACQ_TIMEOUT (R85): After 20 ms of acquisition, the pilot locks if the amplitude suffices and narrows to PILOTBW. -/
  | pilotAcqTimeout (d : Nat) (n : Nat)
  /-- PILOT_AMPLITUDE_LOSS (R85): A pilot amplitude below 0.15 V for 1 ms clears LOCK and holds the phase. -/
  | pilotAmplitudeLoss (d : Nat) (n : Nat)
  /-- TRACKER_UPDATE (R89): On a multiple of 1,000 tk, the tracker forms its error, advances its loop states and publishes the set of that update. -/
  | trackerUpdate (d : Nat) (n : Nat) (ecc : Nat)
  /-- TRACK_LOCK_QUALIFIED (R94): After 256 consecutive updates with a small error, LOCK becomes 1 and ANGVALID follows. -/
  | trackLockQualified (d : Nat) (n : Nat)
  /-- TRACK_OVERSPEED (R93): A speed beyond the range for 8 updates saturates w, declares a loss with cause overspeed and forces the safe state. -/
  | trackOverspeed (d : Nat) (n : Nat)
  /-- AMPLITUDE_WINDOW_LOSS (R103): mag outside the window for QUAL carrier periods declares a loss with cause amplitude low or high. -/
  | amplitudeWindowLoss (d : Nat) (n : Nat)
  /-- FREEZE_LOSS (R104): SIN and COS codes unchanged for CNT strobes declare a loss with cause freeze. -/
  | freezeLoss (d : Nat) (n : Nat)
  /-- PILOT_JUMP_LOSS (R105): A projection phase off the pilot phase for 2 carrier periods declares a loss with cause jump. -/
  | pilotJumpLoss (d : Nat) (n : Nat)
  /-- COAST_EXPIRY (R108): The coast time runs out, HOLD is set or kept, the axis goes safe, and coast-expired is raised. -/
  | coastExpiry (d : Nat) (n : Nat)
  /-- ACQUISITION_COMPLETE (R109): After 4 good carrier periods, the tracker presets angle and speed and tracks again. -/
  | acquisitionComplete (d : Nat) (n : Nat)
  /-- COAST_RESUME (R110): Good carrier periods completed within the coast end the coast without the safe state. -/
  | coastResume (d : Nat) (n : Nat)
  /-- TRK_CTRL_WRITE (R92): A write that changes TYPE, BW or PPM1 is held for a later tracker update. -/
  | trkCtrlWrite (d : Nat) (n : Nat) (v : Word)
  /-- TRK_CTRL_APPLY (R92): The held TYPE, BW or PPM1 change takes effect at the first update at least 5,000 tk after the write. -/
  | trkCtrlApply (d : Nat) (n : Nat)
  /-- TRK_SECTOR_WRITE (R99): A write of TRK_SECTOR sets SECTOR, MTURNS and MECHVALID at the next update. -/
  | trkSectorWrite (d : Nat) (n : Nat) (v : Word)
  /-- TRK_XREQ (R100): A write of the high word of TRK_XREQ requests the angle at a stated tick. -/
  | trkXreq (d : Nat) (n : Nat) (v : Word)
  /-- TRK_REARM (R111): A write of REARM while ANGVALID = 1 releases the tracker's HOLD. -/
  | trkRearm (d : Nat) (n : Nat)
  /-- TRK_ANG_READ (R95): A read of the low word of TRK_ANG latches the whole published set of one update. -/
  | trkAngRead (d : Nat) (n : Nat)
  /-- TABLE_INDEX_WRAP (R138): A wrap of a table's index fraction closes a learning revolution and takes up pending MAP and UNMAP changes. -/
  | tableIndexWrap (d : Nat) (n : Nat) (t : Nat) (fwd : Bool)
  /-- TBL_LOAD (R134): The LOAD command fills a free or held page from its library image. -/
  | tblLoad (d : Nat) (pa : Nat)
  /-- TBL_STORE (R134): The STORE command copies a page to its library image. -/
  | tblStore (d : Nat) (pa : Nat)
  /-- TBL_MAP (R134): The MAP command makes held pages pending for a table until its next index wrap. -/
  | tblMap (d : Nat) (pa : Nat) (pb : Nat) (n : Nat) (t : Nat)
  /-- TBL_UNMAP (R134): The UNMAP command returns a table's active pages to held at the next index wrap. -/
  | tblUnmap (d : Nat) (n : Nat) (t : Nat)
  /-- TBL_CANCEL (R134): The CANCEL command returns a pending table's pages to held at once. -/
  | tblCancel (d : Nat) (n : Nat) (t : Nat)
  /-- TBL_FREE (R134): The FREE command makes a held page free. -/
  | tblFree (d : Nat) (pa : Nat)
  /-- TBL_ALLOC (R134): The ALLOC command makes a free page held. -/
  | tblAlloc (d : Nat) (pa : Nat)
  /-- TBL_CMD_BAD_CODE (R134): A TBL_CMD write with an undefined OP ends with ERR 0x2. -/
  | tblCmdBadCode (d : Nat) (op : Nat)
  /-- TBL_CMD_COMPLETE (R136): A LOAD or STORE completes, or fails on a DRAM error, and DONE is set. -/
  | tblCmdComplete (d : Nat) (bad : Bool)
  /-- TBL_DESC_WRITE (R140): A write to TBL_DESC is refused for an active or pending table, or clears the coarse copy on a change of SRC or ROLE. -/
  | tblDescWrite (d : Nat) (n : Nat) (t : Nat) (v : Word)
  /-- CARREL_WINDOW_ACCESS (R132): An access through the carrel window is served or refused according to the page state. -/
  | carrelWindowAccess (m : Nat) (d : Nat) (o : Nat) (wr : Bool) (v : Word) (ecc : Nat)
  /-- EMU_OVERRATE (R146): The rate limiter active for 10 µs without a break raises emu-overrate. -/
  | emuOverrate (d : Nat) (n : Nat)
  /-- EMU_REBASE (R150): At the tracker update after a change of LINES, SRC or MODE, the emulator sets e nearest q with the pin state kept. -/
  | emuRebase (d : Nat) (n : Nat)
  /-- EMU_PASSTHROUGH_CHANGE (R152): A change from emulation to pass-through takes effect at the next tracker update. -/
  | emuPassthroughChange (d : Nat) (n : Nat)
  /-- ENC_EDGE_ACCEPT (R158): A filtered encoder transition is accepted with its stamp and decoded into the raw and reported counts. -/
  | encEdgeAccept (d : Nat) (n : Nat) (a : Bool) (b : Bool) (z : Bool) (ago : Nat)
  /-- ENC_WIRE_DISAGREE (R155): Both wires of a pair at one level for more than WIRET samples raise enc-wire. -/
  | encWireDisagree (d : Nat) (n : Nat) (w : WireEvent)
  /-- ENC_INDEX (R163): A recognised index forms diff, checks it, and resets the count as the index mode requires. -/
  | encIndex (d : Nat) (n : Nat) (ago : Nat)
  /-- PROBE_EDGE (R167): An accepted probe edge latches the counts, the stamp and the angle at the stamp. -/
  | probeEdge (d : Nat) (n : Nat) (rise : Bool) (ago : Nat)
  /-- ENC_RAW_WRITE (R159): A write of ENC_RAW sets the raw and reported counts, with dir := +1 and held := 0. -/
  | encRawWrite (d : Nat) (n : Nat) (v : Word)
  /-- ENC_IDX_WRITE (R164): A write that changes the index MODE clears ARMED and sets FIRST. -/
  | encIdxWrite (d : Nat) (n : Nat) (v : Word)
  /-- ENC_IDX_ARM (R164): A write of ARM arms the reset-once index mode. -/
  | encIdxArm (d : Nat) (n : Nat)
  /-- PRB_STAT_WRITE (R168): A write to PRB_STAT clears FULL and OVR and re-arms the probe latch. -/
  | prbStatWrite (d : Nat) (n : Nat) (v : Word)
  /-- ENC_SPEED_WINDOW_END (R161): At each count-mode window end, the encoder speed is formed and the speed mode judged. -/
  | encSpeedWindowEnd (d : Nat) (n : Nat)
  /-- ENC_STOP_TIMEOUT (R161): No count for STOP µs sets the speed to 0 and STOPPED to 1. -/
  | encStopTimeout (d : Nat) (n : Nat)
  /-- ACQ_MUX_WRITE (R171): A change of a converter's input select is accepted in the allowed states or refused with acq-config. -/
  | acqMuxWrite (d : Nat) (c : Nat) (v : Word)
  /-- FIL_SLOT_RESTART (R182): At its restart strobe, a filter slot delivers one output, clears its history and applies its new settings. -/
  | filSlotRestart (d : Nat) (c : Nat)
  /-- COMPARATOR_ASSERT (R174): A window comparator output asserts and acts according to its FUNC. -/
  | comparatorAssert (d : Nat) (n : Nat) (j : Nat) (e : CmpEvent)
  /-- COMPARATOR_DEASSERT (R173): A window comparator output falls once the input passes the threshold with its hysteresis. -/
  | comparatorDeassert (d : Nat) (n : Nat) (j : Nat) (e : CmpEvent)
  /-- ACQ_CMP_WRITE (R174): A write to ACQ_CMPU or ACQ_CMPL sets threshold, hysteresis and FUNC under the limits of R174 and R176. -/
  | acqCmpWrite (d : Nat) (n : Nat) (j : Nat) (up : Bool) (v : Word)
  /-- FIL_APPLY (R185): A write of APPLY captures a slot's pending settings for a restart at least 2,500 tk later. -/
  | filApply (d : Nat) (c : Nat)
  /-- FIL_SYNC_GO (R186): A write of GO arms a synchronising reset for the first strobe at or after FIL_SYNCPT. -/
  | filSyncGo (d : Nat)
  /-- FIL_SYNC_RESET (R186): At the armed strobe, every masked slot restarts with its pending values. -/
  | filSyncReset (d : Nat)
  /-- DET_WINDOW_END (R189): A detector window closes, its results and stamps are formed, and DONE is set. -/
  | detWindowEnd (d : Nat) (x : Nat)
  /-- DET_CFG_WRITE (R192): A write to DET_CFG or DET_N discards the partial window. -/
  | detCfgWrite (d : Nat) (x : Nat) (r : Nat) (v : Word)
  /-- LPT_UPDATE (R194): Every 10 µs, the line-phase tracker updates phase, frequency and amplitude from the line samples. -/
  | lptUpdate (d : Nat)
  /-- LPT_LOCK (R195): Conditions met for 20 ms set the line-phase tracker's LOCK. -/
  | lptLock (d : Nat)
  /-- LPT_UNLOCK (R195): Low amplitude, a large vq or a clamped frequency held for its time clears LOCK and raises line-unlock. -/
  | lptUnlock (d : Nat)
  /-- LPT_CTRL_WRITE (R195): Enabling the line-phase tracker, or changing SET, CONN or NOM, restarts its acquisition. -/
  | lptCtrlWrite (d : Nat) (v : Word)
  /-- LPT_PHASE_READ (R196): A read of LPT_PHASE latches the frequency, status and stamp of the same update. -/
  | lptPhaseRead (d : Nat)
  /-- LAW_START (R205): A write of RUN from 0 to 1 checks the program and arms its start, or reports VERR. -/
  | lawStart (d : Nat) (n : Nat) (len : Nat)
  /-- LAW_RELEASE (R208): An axis is released at its scheduled strobe, and its run is queued. -/
  | lawRelease (d : Nat) (n : Nat)
  /-- LAW_RUN (R210): A released run starts and evaluates all its slots in order without interruption. -/
  | lawRun (d : Nat) (n : Nat) (bad : List Nat) (par : List Nat) (mem : List (Nat × Nat)) (ecc : List (Nat × Nat))
  /-- LAW_RUN_END (R210): A run completes, and the work that follows each run takes place. -/
  | lawRunEnd (d : Nat) (n : Nat)
  /-- LAW_STOP (R207): A write of RUN := 0 stops the program at the end of the run in progress. -/
  | lawStop (d : Nat) (n : Nat) (len : Nat)
  /-- PROGMEM_ACCESS (R211): An access to law program memory is served in an idle engine cycle or by a steal. -/
  | progmemAccess (m : Nat) (d : Nat) (o : Nat) (wr : Bool) (v : Word) (steal : Bool) (ecc : Nat)
  /-- LAW_BANK_REQ (R218): A write of LAW_BANK.REQ requests a bank swap with a fade, or queues it. -/
  | lawBankReq (d : Nat) (n : Nat) (target : Nat) (len : Nat)
  /-- LAW_HEADER_READ (R201): A read of a slot's output header latches the mantissa words of the same evaluation. -/
  | lawHeaderRead (d : Nat) (n : Nat) (x : Nat)
  /-- PWM_PERIOD_START (R255): A PWM timer starts a period at tick S and places the edges of its legs. -/
  | pwmPeriodStart (d : Nat) (n : Nat)
  /-- PWM_UPDATE_POINT (R257): At an update point, the shadow duties become active and the unplaced edges are recomputed. -/
  | pwmUpdatePoint (d : Nat) (n : Nat)
  /-- PWM_DUTY_WRITE (R257): A duty write goes to the shadow register, or takes effect at once under UPD = 0b11. -/
  | pwmDutyWrite (d : Nat) (n : Nat) (j : Nat) (v : Word)
  /-- DEAD_TIME_EXPIRY (R259): After DT, the other switch of a leg is turned on. -/
  | deadTimeExpiry (d : Nat) (n : Nat) (j : Nat)
  /-- BAND_MINP_EXPIRY (R264): After MINP, a waiting band demand is acted on if the exact path still demands it. -/
  | bandMinpExpiry (d : Nat) (n : Nat) (j : Nat)
  /-- BAND_LOCK_QUALIFIED (R266): Eight consecutive band writes within ±2 % of the target frequency set LOCKED. -/
  | bandLockQualified (d : Nat) (n : Nat) (j : Nat)
  /-- BAND_LIMIT (R266): A half-band held at a clamp limit for 16 band writes sets HBLIM and raises band-limit. -/
  | bandLimit (d : Nat) (n : Nat) (j : Nat)
  /-- SAFE_STATE_EXIT (R270): When the last cause has cleared, the axis leaves its safe state at the next period start or strobe. -/
  | safeStateExit (d : Nat) (n : Nat)
  /-- PWM_SAFE_WRITE (R268): A write to PWM_SAFE is refused if it is unsafe, or applied at once in safe order while the axis is safe. -/
  | pwmSafeWrite (d : Nat) (n : Nat) (v : Word)
  /-- PWM_CTRL_WRITE (R254): A write to PWM_CTRL sets EN and, while EN = 0, the timer settings. -/
  | pwmCtrlWrite (d : Nat) (n : Nat) (v : Word)
  /-- TUNE_START (R274): A write of START begins a tune, or is refused with CAUSE 0x8. -/
  | tuneStart (d : Nat) (n : Nat)
  /-- TUNE_ABORT (R275): A write of ABORT ends a tune with CAUSE 0x7. -/
  | tuneAbort (d : Nat) (n : Nat)
  /-- TUNE_TIMEOUT (R275): TMAX ms after START, a tune that has not finished fails with CAUSE 0x1. -/
  | tuneTimeout (d : Nat) (n : Nat)
  /-- TRC_RUN_WRITE (R279): A write of TRC_CTRL.RUN starts capture and arms the trigger, or stops capture. -/
  | trcRunWrite (d : Nat) (run : Bool)
  /-- TRC_ARM (R283): A write of ARM re-arms the trace trigger. -/
  | trcArm (d : Nat)
  /-- TRC_FIRE (R283): A write of FIRE fires the trigger when SRC = 0b01. -/
  | trcFire (d : Nat)
  /-- TRACE_MOVE_ON (R282): The deferrable task moves trace records from the on-chip buffer to DRAM or the stacks. -/
  | traceMoveOn (d : Nat)
  /-- FAULT_MESSAGE (R289): The collector stamps and orders a message and applies the source's sticky bit, reaction and notification. -/
  | faultMessage (d : Nat) (extra : List (Nat × Nat × Nat))
  /-- PACKAGE_SAFE_LINE (R292): The package safe-state line asserts or releases, and every die enters or leaves the package safe state. -/
  | packageSafeLine
  /-- QUIET_TIMER_EXPIRY (R295): LIVE = 0 for the quiet time auto-recovers a reaction and counts RCNT. -/
  | quietTimerExpiry (d : Nat) (k : Nat)
  /-- FLT_REL (R295): A write of REL releases a held, quiet or latched reaction with LIVE = 0. -/
  | fltRel (d : Nat) (k : Nat)
  /-- FLT_CLR (R295): A write of CLR sets RCNT and OCC to 0. -/
  | fltClr (d : Nat) (k : Nat)
  /-- FLT_STICKY_CLEAR (R298): A write of 1 to STICKY clears it only while LIVE = 0. -/
  | fltStickyClear (d : Nat) (k : Nat)
  /-- FLT_MREL (R294): A write of MREL releases the held mate safe states when their mate is unreachable. -/
  | fltMrel (d : Nat)
  /-- FLT_FIRST_CLEAR (R302): A write to FLT_FIRST clears VALID and FIRSTCNT. -/
  | fltFirstClear (d : Nat)
  /-- PKGFIRST_MESSAGE (R303): A fault assertion received over the spine competes for the package first error. -/
  | pkgfirstMessage (d : Nat)
  /-- FLT_PKGFIRST_CLEAR (R303): A write to FLT_PKGFIRST announces a tick at which every copy is cleared. -/
  | fltPkgfirstClear (d : Nat)
  /-- PKGFIRST_CLEAR_TICK (R303): At the announced tick, every package first-error copy is cleared. -/
  | pkgfirstClearTick
  /-- EVT_POP (R305): A write of POP removes the head descriptor of the event queue. -/
  | evtPop (d : Nat)
  /-- FLT_INJ_GO (R306): A write of GO feeds inverted check bits to the selected checker for its next N checks. -/
  | fltInjGo (d : Nat) (v : Word)
  /-- LEDGER_RECORD_WRITE (R308): The serving die writes a queued ledger record with its package sequence number. -/
  | ledgerRecordWrite (d : Nat)
  /-- LEDGER_SEGMENT_CLOSE (R311): A full ledger segment closes and its digest goes to the next segment. -/
  | ledgerSegmentClose
  /-- LEDG_CLOSE (R311): A write of CLOSE closes the open ledger segment. -/
  | ledgClose (d : Nat)
  /-- COMPARATOR_SELFTEST (R322): After 1,024 checkpoints or 1 ms, the checkpoint comparator tests itself with inverted bits. -/
  | comparatorSelftest (d : Nat) (dead : Nat)
  /-- HART_MEMORY_ACCESS (R328): A hart load, store or fetch is served or raises an access-fault exception. -/
  | hartMemoryAccess (d : Nat) (h : Nat) (a : HartAcc)
  /-- LR_RESERVATION_TIMEOUT (R325): A reservation is lost 256 cycles after its LR. -/
  | lrReservationTimeout (d : Nat) (h : Nat)
  /-- MTIMER_COMPARE (R331): PT64 reaching MPTCMP sets MTIP. -/
  | mtimerCompare (d : Nat) (h : Nat)
  /-- MPTCMPH_WRITE (R331): A write of MPTCMPH clears MTIP and applies the new compare value. -/
  | mptcmphWrite (d : Nat) (h : Nat) (v : Word)
  /-- MSWI_SET (R331): A write of MSWI.SET sets MSIP of the other hart. -/
  | mswiSet (d : Nat) (h : Nat)
  /-- MSWI_CLR (R331): A write of MSWI.CLR clears MSIP of this hart. -/
  | mswiClr (d : Nat) (h : Nat)
  /-- MEVTPOP (R332): A write of MEVTPOP removes the head event descriptor. -/
  | mevtpop (d : Nat) (h : Nat)
  /-- MLAWDATA_ACCESS (R333): An access to MLAWDATA stalls the hart until law program memory serves it. -/
  | mlawdataAccess (d : Nat) (h : Nat) (wr : Bool) (v : Word) (steal : Bool) (ecc : Nat)
  /-- MLAWIRQ_ACK (R331): A write of MLAWIRQ.ACK clears interrupt line 21. -/
  | mlawirqAck (d : Nat) (h : Nat)
  /-- MSEM_ACQUIRE (R333): A read of an MSEM CSR acquires the semaphore if it is free. -/
  | msemAcquire (d : Nat) (h : Nat) (k : Nat)
  /-- MSEMREL (R333): A write of MSEMREL releases the semaphores this hart holds. -/
  | msemrel (d : Nat) (h : Nat) (v : Word)
  /-- HEARTBEAT_A_SEND (R339): Every 1 µs each die sends a beat frame over the pair bridge. -/
  | heartbeatASend (d : Nat)
  /-- HEARTBEAT_A_RECEIVE (R339): A valid path-A beat resets the miss count and updates the mate's role and readiness. -/
  | heartbeatAReceive (d : Nat) (crc : Bool)
  /-- HEARTBEAT_A_MISS (R341): A beat not received 500 ns after its slot counts as missed, and four misses lose path A. -/
  | heartbeatAMiss (d : Nat)
  /-- HEARTBEAT_B_SEND (R340): Every 100 watch cycles a die sends a path-B frame if its root domain is live. -/
  | heartbeatBSend (d : Nat)
  /-- HEARTBEAT_B_RECEIVE (R340): A valid path-B frame resets the path-B miss count. -/
  | heartbeatBReceive (d : Nat) (crc : Bool)
  /-- HEARTBEAT_B_MISS (R341): A path-B frame overdue by the watch-cycle limit counts as missed, and four misses lose path B. -/
  | heartbeatBMiss (d : Nat)
  /-- STARTWAIT_EXPIRY (R337): d(2k+1) with no beat from d(2k) for STARTWAIT ms runs the loopback test. -/
  | startwaitExpiry (d : Nat)
  /-- LOOPBACK_TEST (R344): A standby that has lost both paths routes a test pattern through its own receivers. -/
  | loopbackTest (d : Nat)
  /-- LOOPBACK_RESULT (R344): The loopback test passes, allowing a seize, or fails with pair-rx-fail. -/
  | loopbackResult (d : Nat) (ok : Bool)
  /-- LOOPBACK_RETRY (R344): After a failed loopback, the test is repeated every 1 ms while both paths stay lost. -/
  | loopbackRetry (d : Nat)
  /-- SEIZE_RECEIVED (R345): A seize from the mate forces this die's shared balls to high impedance, and the die becomes a degraded standby. -/
  | seizeReceived (d : Nat)
  /-- MATE_DRIVING_SEEN (R347): An active die that sees its mate's DRIVING line releases its pads as if seized. -/
  | mateDrivingSeen (d : Nat)
  /-- MATE_RELEASED_SEEN (R349): A ready standby that sees RELEASED asserted takes the pads in full drive and becomes active. -/
  | mateReleasedSeen (d : Nat)
  /-- HANDOVER_DRIVING_CHECK (R350): With no DRIVING by Ts + 16 ns, the releasing die drives safe levels or takes its pads back, and raises pair-handover-fail. -/
  | handoverDrivingCheck (d : Nat)
  /-- SWAP_DUE (R351): The swap interval elapses, and a role swap falls due or waits for the governor. -/
  | swapDue (d : Nat)
  /-- PAIR_SWAPNOW (R351): A write of SWAPNOW makes a role swap due at once on the active die. -/
  | pairSwapnow (d : Nat)
  /-- SWAP_TS (R351): At Ts, the active die releases its pads for the role swap. -/
  | swapTs (d : Nat)
  /-- SWAP_LATE (R353): A swap deferred by more than one interval raises pair-swap-late once. -/
  | swapLate (d : Nat)
  /-- SNAPSHOT_REQUEST (R354): A not-ready standby in full service requests the resynchronisation snapshot. -/
  | snapshotRequest (d : Nat)
  /-- PAIR_SNAPSHOT_ITEM (R355): A snapshot item received over the pair bridge is applied by the standby. -/
  | pairSnapshotItem (d : Nat) (k : Nat) (n : Nat) (crc : Bool)
  /-- RESYNC_TIMEOUT (R354): A snapshot not complete within 50 ms fails and raises pair-resync-fail. -/
  | resyncTimeout (d : Nat)
  /-- RESYNC_RETRY (R354): 100 ms after a failure, the standby requests the snapshot again. -/
  | resyncRetry (d : Nat)
  /-- SHADOW_COMPARE (R358): A value sent by the active die is compared with the standby's own within its tolerance. -/
  | shadowCompare (d : Nat) (k : Nat) (n : Nat) (j : Nat)
  /-- SHADOW_TIME_EXPIRY (R358): TIME ms without an exceedance makes the standby ready, raises pair-ready and releases the seize. -/
  | shadowTimeExpiry (d : Nat)
  /-- CFG_STAGE_GO (R366): A write of GO starts staging the mode's folios on every named die. -/
  | cfgStageGo (d : Nat) (v : Word)
  /-- STAGING_COMPLETE (R367): A die finishes staging and validating its folios and reports staged or stage failed. -/
  | stagingComplete (d : Nat)
  /-- STAGED_REPORT (R367): A staged report received from another die over the spine is recorded. -/
  | stagedReport (d : Nat) (e : Nat)
  /-- CFG_COMMIT (R368): A write of COMMIT commits the staged mode for epoch T, or is refused. -/
  | cfgCommit (d : Nat) (v : Word)
  /-- CFG_ABORT (R374): A write of ABORT before T withdraws the epoch on every named die. -/
  | cfgAbort (d : Nat)
  /-- EPOCH_DIE_BOUNDARY (R368): At the first strobe at or after T, the die-common and FILSYNC entries are applied. -/
  | epochDieBoundary (d : Nat)
  /-- EPOCH_AXIS_BOUNDARY (R368): At the axis's first period start at or after T, its per-axis entries are applied. -/
  | epochAxisBoundary (d : Nat) (n : Nat)
  /-- EPOCH_SKEW_CHECK (R372): At T + SKEW, the epoch master checks staging and closes, reverts or applies late. -/
  | epochSkewCheck (d : Nat)
  /-- EPOCH_REVERT (R373): At Tr, each die that applied writes back its recorded previous values. -/
  | epochRevert (d : Nat) (part : Nat)
  /-- PCIE_LINK_TRAINING (R378): The PCIe endpoint trains its link and reports the rate and width. -/
  | pcieLinkTraining (d : Nat) (gen : Nat) (width : Nat)
  /-- DOORBELL (R385): A doorbell write to BAR2 moves a ring's host index or halts the ring. -/
  | doorbell (d : Nat) (off : Nat) (size : Nat) (v : Nat)
  /-- RING_ENABLE (R387): A write of EN := 1 starts a ring or is refused with ERR 0x1 or 0x6. -/
  | ringEnable (d : Nat) (r : Nat) (v : Word)
  /-- RING_DISABLE (R387): A write of EN := 0 lets the command in execution complete and turns the ring off. -/
  | ringDisable (d : Nat) (r : Nat)
  /-- DESCRIPTOR_FETCH (R384): The device reads descriptors from a host-to-device ring into its queue share. -/
  | descriptorFetch (d : Nat) (r : Nat) (ok : Bool) (bs : List Byte)
  /-- HIF_NOP (R389): The NOP command completes with RESULT0 = 0. -/
  | hifNop (d : Nat) (r : Nat)
  /-- HIF_RDREG (R389): The RDREG command reads COUNT words from BAR0 into a host buffer. -/
  | hifRdreg (d : Nat) (r : Nat)
  /-- HIF_WRREG (R389): The WRREG command writes COUNT words from a host buffer into BAR0. -/
  | hifWrreg (d : Nat) (r : Nat) (ok : Bool) (bs : List Byte)
  /-- HIF_WR1 (R389): The WR1 command writes one word to BAR0. -/
  | hifWr1 (d : Nat) (r : Nat)
  /-- HIF_MASK (R389): The MASK command makes an atomic read-modify-write of one register. -/
  | hifMask (d : Nat) (r : Nat)
  /-- HIF_DMAW (R389): The DMAW command copies host memory to DRAM, or is refused to protect the ledger. -/
  | hifDmaw (d : Nat) (r : Nat) (ok : Bool) (bs : List Byte)
  /-- HIF_DMAR (R389): The DMAR command copies DRAM to host memory. -/
  | hifDmar (d : Nat) (r : Nat) (ecc : Nat)
  /-- HIF_COLOPH (R389): The COLOPH command produces a colophon for the host's nonce. -/
  | hifColoph (d : Nat) (r : Nat) (ok : Bool) (bs : List Byte)
  /-- HIF_UNDEFINED_OPCODE (R389): A command with an undefined opcode completes with STATUS 0x01. -/
  | hifUndefinedOpcode (d : Nat) (r : Nat)
  /-- FW_POP (R391): A write of FWCTL.POP removes the head firmware descriptor and advances the ring's device index. -/
  | fwPop (d : Nat)
  /-- FW_POST (R391): A write of FWCTL.POST posts HIF_FWCPL as a completion to the named ring's CPL ring. -/
  | fwPost (d : Nat)
  /-- ARC_READ (R394): The ARC READ request copies whole stacks records in time order into a host buffer. -/
  | arcRead (d : Nat) (r : Nat)
  /-- ARC_PROTECT (R394): The ARC PROTECT request adds a protected window to a namespace. -/
  | arcProtect (d : Nat) (r : Nat)
  /-- ARC_UNPROTECT (R394): The ARC UNPROTECT request removes protected windows that lie wholly within its range. -/
  | arcUnprotect (d : Nat) (r : Nat)
  /-- ARC_SPAN (R394): The ARC SPAN request returns the earliest and latest ticks held in a namespace. -/
  | arcSpan (d : Nat) (r : Nat)
  /-- ARC_UNDEFINED_OP (R394): An ARC descriptor with an undefined OP completes with STATUS 0x01. -/
  | arcUndefinedOp (d : Nat) (r : Nat)
  /-- QUEUE_SHARE_DRAIN (R395): Room on a device-to-host ring lets descriptors waiting in its queue share be written. -/
  | queueShareDrain (d : Nat) (r : Nat)
  /-- MSIX_MODERATION_TIMEOUT (R396): TIME µs after the first unsignalled descriptor, the ring's MSI-X message is sent. -/
  | msixModerationTimeout (d : Nat) (r : Nat)
  /-- MSIX_UNMASK (R382): Unmasking a vector sends its pending message. -/
  | msixUnmask (d : Nat) (v : Nat) (on : Bool)
  /-- FUNCTION_LOST (R398): A hot reset, link disable, FLR or link down loses the function and turns its rings off. -/
  | functionLost (d : Nat) (cause : Nat)
  /-- D3HOT_CHANGE (R379): The function enters or leaves D3hot, stopping or resuming device requests. -/
  | d3hotChange (d : Nat) (on : Bool)
  /-- TERAM_TRAINING_COMPLETE (R402): A Teram port completes training at gen1, gen2 or x1. -/
  | teramTrainingComplete (d : Nat) (x1 : Bool)
  /-- TERAM_LINK_LOSS (R403): Loss of block lock, or 50 µs without a valid frame, takes the port down. -/
  | teramLinkLoss (d : Nat)
  /-- TERAM_RETRAIN (R403): Every 10 ms a down port retrains. -/
  | teramRetrain (d : Nat)
  /-- BEAT_KEEP_SEND (R403): Each end sends a BEAT KEEP at least every 10 µs. -/
  | beatKeepSend (d : Nat)
  /-- HELLO_RECEIVE (R402): A received HELLO sets the link partner and the rate negotiation. -/
  | helloReceive (d : Nat) (f : List Byte)
  /-- ANNOUNCE_ORIGINATE (R408): Every 10 ms the time master die originates an ANNOUNCE. -/
  | announceOriginate
  /-- ANNOUNCE_RECEIVE (R408): A first-seen ANNOUNCE updates the known-package table and is flooded onward. -/
  | announceReceive (d : Nat) (f : List Byte)
  /-- KNOWN_PACKAGE_EXPIRY (R409): A known-package entry not refreshed for 50 ms is removed. -/
  | knownPackageExpiry (d : Nat) (id : Nat)
  /-- FRAME_FORWARD (R410): A received frame is checked and delivered, routed by the catalogue, or dropped. -/
  | frameForward (d : Nat) (f : List Byte)
  /-- TIME_SYNC_SEND (R414): Every 10 µs each link end sends a TIME SYNC with its departure stamp. -/
  | timeSyncSend (d : Nat) (frac : Nat)
  /-- TIME_SYNC_RECEIVE (R414): A received TIME SYNC is answered with a TIME REPLY carrying t2 and t3. -/
  | timeSyncReceive (d : Nat) (f : List Byte) (frac : Nat)
  /-- TIME_REPLY_RECEIVE (R414): A TIME REPLY yields the link delay and, on the upstream link, the offset. -/
  | timeReplyReceive (d : Nat) (f : List Byte) (frac : Nat)
  /-- FABRIC_OFFSET_MESSAGE (R415): The package time master steps or slews PT64 from the fabric offset and updates FABLOCK. -/
  | fabricOffsetMessage (d : Nat)
  /-- ANGLE_RECEIVE (R417): A received ANGLE sample is judged newer, kept, forwarded or dropped. -/
  | angleReceive (d : Nat)
  /-- ANGLE_CHANNEL_TIMEOUT (R418): A channel with no sample within TOUT loses validity and raises trm-angle-lost. -/
  | angleChannelTimeout (d : Nat) (c : Nat)
  /-- EPOCH_COMMIT_RECEIVE (R420): A received EPOCH COMMIT commits the epoch on all dies, or is refused. -/
  | epochCommitReceive (d : Nat)
  /-- EPOCH_REVERT_RECEIVE (R420): A received EPOCH REVERT makes the package revert at the stated Tr. -/
  | epochRevertReceive (d : Nat)
  /-- EPOCH_APPLY_LATE_RECEIVE (R420): A received EPOCH APPLY-LATE keeps the new mode and lets late dies apply. -/
  | epochApplyLateReceive (d : Nat)
  /-- EPOCH_REFUSE_RECEIVE (R420): A received EPOCH REFUSE makes the origin treat that package as late. -/
  | epochRefuseReceive (d : Nat)
  /-- EPOCH_ABORT_RECEIVE (R420): A received EPOCH ABORT withdraws the epoch in the receiving package. -/
  | epochAbortReceive (d : Nat)
  /-- EVENT_FRAME_RECEIVE (R421): A received EVENT is queued in the remote event queue and trm-remote-event is raised. -/
  | eventFrameReceive (d : Nat)
  /-- ACCESS_RD (R422): A remote RD request reads COUNT words and is answered with a response. -/
  | accessRd (d : Nat)
  /-- ACCESS_WR (R422): A remote WR request writes COUNT words and is answered with a response. -/
  | accessWr (d : Nat)
  /-- ACCESS_MASK (R422): A remote MASK request makes read-modify-writes and is answered with a response. -/
  | accessMask (d : Nat)
  /-- ACCESS_COLOPH (R422): A remote COLOPH request is answered with the colophon in fragments. -/
  | accessColoph (d : Nat)
  /-- ACCESS_MSG (R422): A received MSG enters the receive mailbox and sets line 19, or is answered queue full. -/
  | accessMsg (d : Nat)
  /-- ACCESS_RESPONSE_RECEIVE (R422): A response to a hart's request enters the receive mailbox, or is dropped when it is full. -/
  | accessResponseReceive (d : Nat)
  /-- TRM_SEND (R422): A write of SEND transmits the frame in TRM_TXBUF. -/
  | trmSend (d : Nat)
  /-- TRM_POP (R422): A write of POP removes the head frame of the receive mailbox. -/
  | trmPop (d : Nat)
  /-- TRM_EPOP (R421): A write of EPOP removes the head remote event. -/
  | trmEpop (d : Nat)
  /-- DDR_TRAINING (R426): The DDR5 channel trains in phase 1, or fails and raises mem-down. -/
  | ddrTraining (d : Nat) (ok : Bool) (size : Nat)
  /-- MEM_CHANNEL_LOSS (R425): Loss of the serving channel moves DRAM service to the other p0 die and raises mem-failover. -/
  | memChannelLoss (d : Nat)
  /-- MIRROR_COPY (R425): The deferrable task copies the serving channel into the mirror channel. -/
  | mirrorCopy (n : Nat)
  /-- MIRROR_COPY_COMPLETE (R425): The mirror copy finishes, and MSYNC becomes 1. -/
  | mirrorCopyComplete
  /-- DRAM_ACCESS (R427): A DRAM access is served, or reports a range or ECC error. -/
  | dramAccess (a : Nat) (k : Nat) (wr : Bool) (bs : List Byte) (ecc : Nat)
  /-- PATROL_SCRUB (R428): The patrol scrub reads the whole DRAM once in every 24 h. -/
  | patrolScrub (d : Nat) (found : List (Nat × Nat))
  /-- NVME_COMMAND_TIMEOUT (R432): An NVMe command not done within 1 s resets the controller, and three resets make it not ready. -/
  | nvmeCommandTimeout (d : Nat)
  /-- STACKS_FRAME (R434): At every APER-th strobe, a stream-0 frame of slot values is added to a record. -/
  | stacksFrame (d : Nat)
  /-- STACKS_RECORD_CLOSE (R435): A stacks record closes when its next item does not fit, or 100 ms after its first item. -/
  | stacksRecordClose (d : Nat) (st : Nat)
  /-- STACKS_RECORD_WRITE (R433): The deferrable task writes a staged record to the drive, or drops it when staging is full. -/
  | stacksRecordWrite (d : Nat)
  /-- STACKS_SEGMENT_CLOSE (R436): A full ring segment closes, its digest enters the next header, and Flush is issued. -/
  | stacksSegmentClose (k : Nat)
  /-- STACKS_INDEX_REBUILD (R440): A serving die that starts serving the stacks rebuilds its index from the segment headers. -/
  | stacksIndexRebuild
  /-- STACKS_INDEX_DONE (R440): The index rebuild completes, the newest segment is closed, and ARC service starts. -/
  | stacksIndexDone
  /-- RAIL_WARNING_CROSSING (R447): A rail below its warning threshold for 100 ns starts a dip. -/
  | railWarningCrossing (d : Nat) (r : Nat)
  /-- RAIL_WARNING_RETURN (R448): The last rail back above warning starts the 100 µs resumption timer. -/
  | railWarningReturn (d : Nat) (r : Nat)
  /-- DIP_END (R448): 100 µs after the return, normal running resumes, flash resumes and pwr-brownout is deasserted. -/
  | dipEnd (d : Nat)
  /-- RAIL_HIGH_CROSSING (R444): A rail above its high threshold sets HIGH and raises pwr-high. -/
  | railHighCrossing (d : Nat) (r : Nat)
  /-- RAIL_RESET_CROSSING (R446): A rail below its reset threshold for 1 µs puts the die into power-on reset. -/
  | railResetCrossing (d : Nat) (r : Nat)
  /-- TEMP_SENSOR_READ (R449): Every 1 ms the junction sensors are read and judged, and Tj and the thermal thresholds updated. -/
  | tempSensorRead (d : Nat) (ts : List Int)
  /-- GOVERNOR_STEP (R453): Every 100 µs the governor updates its tokens and the admission of firm and deferrable tasks. -/
  | governorStep (d : Nat) (p : Nat) (mv : List Nat)
  /-- GOV_DEFICIT (R453): TOK held at 0 for 100 steps asserts gov-deficit. -/
  | govDeficit (d : Nat)
  /-- PACKAGE_GOVERNOR_STEP (R455): Every 1 ms the package time master sets and sends each die's power share. -/
  | packageGovernorStep
  /-- SHARE_RECEIVE (R455): A die receives its power share from the master. -/
  | shareReceive (d : Nat)
  /-- SHARE_TIMEOUT (R455): A die with no share for 3 ms uses PKGBUD ÷ N. -/
  | shareTimeout (d : Nat)
  /-- NVF_PROG (R464): The PROG command programs one erased 16-byte unit. -/
  | nvfProg (d : Nat) (a : Nat)
  /-- NVF_ERASE (R467): The ERASE command erases a sector through its marker steps. -/
  | nvfErase (d : Nat) (a : Nat)
  /-- NVF_BLANK (R464): The BLANK command checks whether a sector is erased. -/
  | nvfBlank (d : Nat) (a : Nat)
  /-- NVF_UNLOCK (R473): The UNLOCK command compares the password and lifts protection, or counts a failure. -/
  | nvfUnlock (d : Nat)
  /-- NVF_RELOCK (R473): The RELOCK command restores protection. -/
  | nvfRelock (d : Nat)
  /-- NVF_CMD_COMPLETE (R466): A flash command ends, DONE is set and interrupt line 22 is raised. -/
  | nvfCmdComplete (d : Nat)
  /-- NVF_MARK_SELECT (R467): A write of the low word of NVF_MARK selects a sector and latches its marker pair. -/
  | nvfMarkSelect (d : Nat) (v : Word)
  /-- MSR_EXTEND (R476): A write of MSR_EXT.GO extends slot 6 or 7 with MSR_EXTDATA. -/
  | msrExtend (d : Nat) (h : Nat) (k : Nat)
  /-- MSR_LOCK (R476): A write of MSR_EXT.LOCK locks slot 6 or 7 until the next reset. -/
  | msrLock (d : Nat) (h : Nat) (k : Nat)
  /-- MSR_CREQ (R479): A write of MSR_CREQ.GO requests a colophon into the report window. -/
  | msrCreq (d : Nat)
  /-- COLOPHON_SIGNED (R478): The signer completes a colophon and delivers it to its requester. -/
  | colophonSigned (d : Nat)
  /-- EXC_OVERLOAD_CLEAR (R75): The EXC driver leaves current limit when the overload clears, and OVLD returns to 0. -/
  | excOverloadClear (d : Nat) (n : Nat)
  /-- RAIL_HIGH_RETURN (R444): A rail that has stayed below its high threshold for 100 ns counts as returned, and its HIGH bit clears. -/
  | railHighReturn (d : Nat) (r : Nat)
  /-- MEM_CHANNEL_RETURN (R425): A lost DDR5 channel returns, becomes the mirror and starts being copied. -/
  | memChannelReturn (d : Nat)
  /-- NVME_CONTROLLER_READY (R424): The NVMe controller of a p0 die becomes ready after link training and initialisation, sets RDY and may become the stacks-serving die. -/
  | nvmeControllerReady (d : Nat) (gen : Nat) (width : Nat) (caps : List Nat)
  /-- PCIE_COMPLETION_TIMEOUT (R397): A memory read by the device that receives no completion within the Completion Timeout halts the ring or ends the command with STATUS 0x04 and raises hif-dma-err. -/
  | pcieCompletionTimeout (d : Nat) (r : Nat) (data : Bool)
  deriving DecidableEq, Repr

end Sys2Proof
end

