-- ==== Sys2Proof/Decode.lean ====
section
/-!
DEFINITION. The decoder of the block: no row of the opcode table gives a command any bits, so no word spells a command.
-/

namespace Sys2Proof

/-- The command that a word of `nbits` bits spells: none, because no row of the table has an encoding. -/
def decodeTableWord (_nbits _w : Nat) : Option Instr := none

end Sys2Proof
end

