-- ==== Sys2Proof/Config.lean ====
section
/-!
DEFINITION. What the spec leaves open: constants without a body, so that no proof can see their value.
-/

namespace Sys2Proof

/-- A free value: what the spec leaves undefined, drawn by number (log entry 4). -/
opaque Config.freeValue : Nat → Nat

/-- Loop gains of the tracker for a type (false 2, true 3), a bandwidth code and a gain number: 1 in both types, 2 in type 3 (R89: fixed
for each setting and not exposed; R90 fixes the others; log entry 12). -/
opaque Config.trkGain : Bool → Nat → Nat → Rat

/-- Share of a step that each of the two smoothing poles of the tracker's loop filter passes in one update, for a type and a bandwidth
code (R89; log entry 12). -/
opaque Config.trkPole : Bool → Nat → Bool → Rat

/-- Bandwidth of the line-phase tracker for a code, against the nominal one: the part that R194 leaves free within ±10 % (log entry 12).
-/
opaque Config.lptBand : Nat → Rat

/-- Loop gains of the reading-copy tracker: angle (false) and speed (true) (R60 gives its bandwidth alone; log entry 12). -/
opaque Config.rcGain : Bool → Rat

/-- Ticks of slew that the fabric time servo sets for an offset in ps (R415 gives its bandwidth alone; log entry 12). -/
opaque Config.fabServo : Int → Int

/-- The header of a base image, from the 4,096 bytes at its start (R360 names its contents, no chapter their places; log entry 14):
empty where the header fails its checks, else the length of the header, offset and length of the register entries, of the folio library
and of the mode table, and the initial mode, in that order. -/
opaque Config.imageHead : List Byte → List Nat

/-- Where folio `f` begins in the folio library of the base image with that header (R360; log entry 14). -/
opaque Config.imagePlace : List Byte → Nat → Nat

/-- The signature of a colophon by the key of die `d`: r and s, from the bytes signed and the die's random value k (R478). -/
opaque Config.signature : Nat → List Byte → Nat → Nat × Nat

/-- Identity CSRs of a hart by number, which the spec leaves to the implementation (mvendorid, marchid, mimpid; log entry 16). -/
opaque Config.csrIdent : Nat → Nat

end Sys2Proof
end

