-- ==== Sys2Proof/Machine/Regs.lean ====
section
/-!
DEFINITION. The register fields of the die window, one constant per field of the spec's register tables: where its
register lies in the window, its strides, its lowest bit and its width (R10, R25; each field is defined in the chapter
of its block and listed with its access and reset value in INVENTORY.md).
-/

namespace Sys2Proof.Machine

/-- A register field: the offset of its register in the die window, the stride of the register's first index (the axis,
slot, ring, source, ...), the stride of its second index, the field's lowest bit (counted through the words of a register
wider than 32 bits, low word first, R10) and its width. -/
structure Fld where
  off : Nat
  ax : Nat
  ix : Nat
  lo : Nat
  w : Nat
  deriving DecidableEq, Repr

/-! GLB_ID -/
def GLB_ID.DIE : Fld := ⟨0x8000, 0x0, 0x0, 0, 3⟩
def GLB_ID.MEMBER : Fld := ⟨0x8000, 0x0, 0x0, 4, 2⟩
def GLB_ID.GRADE : Fld := ⟨0x8000, 0x0, 0x0, 6, 1⟩
def GLB_ID.PAIRMODE : Fld := ⟨0x8000, 0x0, 0x0, 7, 1⟩
def GLB_ID.STEP : Fld := ⟨0x8000, 0x0, 0x0, 8, 8⟩
def GLB_ID.PART : Fld := ⟨0x8000, 0x0, 0x0, 16, 16⟩
/-! GLB_RSTCAUSE -/
def GLB_RSTCAUSE.POR : Fld := ⟨0x8004, 0x0, 0x0, 0, 1⟩
def GLB_RSTCAUSE.PIN : Fld := ⟨0x8004, 0x0, 0x0, 1, 1⟩
def GLB_RSTCAUSE.WDT : Fld := ⟨0x8004, 0x0, 0x0, 2, 1⟩
def GLB_RSTCAUSE.SEV7 : Fld := ⟨0x8004, 0x0, 0x0, 3, 1⟩
def GLB_RSTCAUSE.SWR : Fld := ⟨0x8004, 0x0, 0x0, 4, 1⟩
def GLB_RSTCAUSE.MATE : Fld := ⟨0x8004, 0x0, 0x0, 5, 1⟩
def GLB_RSTCAUSE.PTRESTART : Fld := ⟨0x8004, 0x0, 0x0, 6, 1⟩
/-! GLB_SWRST -/
def GLB_SWRST.SELF : Fld := ⟨0x8008, 0x0, 0x0, 0, 1⟩
def GLB_SWRST.MATE : Fld := ⟨0x8008, 0x0, 0x0, 1, 1⟩
def GLB_SWRST.KEY : Fld := ⟨0x8008, 0x0, 0x0, 8, 8⟩
/-! GLB_PHASE -/
def GLB_PHASE.PHASE : Fld := ⟨0x800c, 0x0, 0x0, 0, 3⟩
def GLB_PHASE.RCVALID : Fld := ⟨0x800c, 0x0, 0x0, 8, 8⟩
def GLB_PHASE.FULL : Fld := ⟨0x800c, 0x0, 0x0, 16, 8⟩
/-! GLB_WDT -/
def GLB_WDT.TIMEOUT : Fld := ⟨0x8010, 0x0, 0x0, 0, 16⟩
def GLB_WDT.EN : Fld := ⟨0x8010, 0x0, 0x0, 16, 1⟩
def GLB_WDT.LOCK : Fld := ⟨0x8010, 0x0, 0x0, 17, 1⟩
def GLB_WDT.KICK : Fld := ⟨0x8010, 0x0, 0x0, 24, 8⟩
/-! CLK_STAT -/
def CLK_STAT.REFOK : Fld := ⟨0x18000, 0x0, 0x0, 0, 1⟩
def CLK_STAT.ROOTLOCK : Fld := ⟨0x18000, 0x0, 0x0, 1, 1⟩
def CLK_STAT.HOLDOVER : Fld := ⟨0x18000, 0x0, 0x0, 2, 1⟩
def CLK_STAT.WATCHOK : Fld := ⟨0x18000, 0x0, 0x0, 3, 1⟩
def CLK_STAT.PTALIGNED : Fld := ⟨0x18000, 0x0, 0x0, 4, 1⟩
def CLK_STAT.PTMASTER : Fld := ⟨0x18000, 0x0, 0x0, 5, 1⟩
def CLK_STAT.FABLOCK : Fld := ⟨0x18000, 0x0, 0x0, 6, 1⟩
/-! CLK_PT -/
def CLK_PT.PT : Fld := ⟨0x18008, 0x0, 0x0, 0, 64⟩
/-! CLK_PTSTEP -/
def CLK_PTSTEP.VALUE : Fld := ⟨0x18010, 0x0, 0x0, 0, 64⟩
/-! CLK_PTADJ -/
def CLK_PTADJ.SLEW : Fld := ⟨0x18018, 0x0, 0x0, 0, 16⟩
def CLK_PTADJ.DOSTEP : Fld := ⟨0x18018, 0x0, 0x0, 16, 1⟩
def CLK_PTADJ.STEPREF : Fld := ⟨0x18018, 0x0, 0x0, 17, 1⟩
def CLK_PTADJ.REMSAT : Fld := ⟨0x18018, 0x0, 0x0, 18, 1⟩
/-! CLK_SKEW -/
def CLK_SKEW.SKEW : Fld := ⟨0x18020, 0x0, 0x0, 0, 16⟩
def CLK_SKEW.MAXSKEW : Fld := ⟨0x18020, 0x0, 0x0, 16, 16⟩
/-! CLK_PTREM -/
def CLK_PTREM.REM : Fld := ⟨0x18028, 0x0, 0x0, 0, 48⟩
def CLK_PTREM.SIGN : Fld := ⟨0x18028, 0x0, 0x0, 48, 16⟩
/-! EXC_CTRL -/
def EXC_CTRL.EN : Fld := ⟨0x50000, 0x1000, 0x0, 0, 1⟩
def EXC_CTRL.DRIVE : Fld := ⟨0x50000, 0x1000, 0x0, 1, 1⟩
def EXC_CTRL.GROUP : Fld := ⟨0x50000, 0x1000, 0x0, 4, 3⟩
def EXC_CTRL.PILOTBW : Fld := ⟨0x50000, 0x1000, 0x0, 8, 2⟩
def EXC_CTRL.PEND : Fld := ⟨0x50000, 0x1000, 0x0, 16, 1⟩
def EXC_CTRL.LEAD : Fld := ⟨0x50000, 0x1000, 0x0, 20, 3⟩
def EXC_CTRL.OVLD : Fld := ⟨0x50000, 0x1000, 0x0, 24, 1⟩
def EXC_CTRL.CLAMP : Fld := ⟨0x50000, 0x1000, 0x0, 25, 1⟩
/-! EXC_FINC -/
def EXC_FINC.FINC : Fld := ⟨0x50004, 0x1000, 0x0, 0, 32⟩
/-! EXC_AMP -/
def EXC_AMP.AMP : Fld := ⟨0x50008, 0x1000, 0x0, 0, 15⟩
def EXC_AMP.AMPNOW : Fld := ⟨0x50008, 0x1000, 0x0, 16, 15⟩
/-! EXC_PHNOM -/
def EXC_PHNOM.PHNOM : Fld := ⟨0x5000c, 0x1000, 0x0, 0, 16⟩
/-! EXC_PILOT -/
def EXC_PILOT.PHASE : Fld := ⟨0x50010, 0x1000, 0x0, 0, 16⟩
def EXC_PILOT.AMPL : Fld := ⟨0x50010, 0x1000, 0x0, 16, 15⟩
def EXC_PILOT.LOCK : Fld := ⟨0x50010, 0x1000, 0x0, 31, 1⟩
/-! EXC_STRIM -/
def EXC_STRIM.GAIN : Fld := ⟨0x50014, 0x1000, 0x0, 0, 16⟩
def EXC_STRIM.OFS : Fld := ⟨0x50014, 0x1000, 0x0, 16, 12⟩
/-! EXC_CTRIM -/
def EXC_CTRIM.GAIN : Fld := ⟨0x50018, 0x1000, 0x0, 0, 16⟩
def EXC_CTRIM.OFS : Fld := ⟨0x50018, 0x1000, 0x0, 16, 12⟩
/-! EXC_CLIP -/
def EXC_CLIP.COUNT : Fld := ⟨0x5001c, 0x1000, 0x0, 0, 16⟩
def EXC_CLIP.LIMIT : Fld := ⟨0x5001c, 0x1000, 0x0, 16, 8⟩
def EXC_CLIP.SCLIP : Fld := ⟨0x5001c, 0x1000, 0x0, 24, 1⟩
def EXC_CLIP.CCLIP : Fld := ⟨0x5001c, 0x1000, 0x0, 25, 1⟩
/-! EXC_STAT -/
def EXC_STAT.PEND : Fld := ⟨0x58000, 0x0, 0x0, 0, 8⟩
def EXC_STAT.NCOMIS : Fld := ⟨0x58000, 0x0, 0x0, 8, 8⟩
def EXC_STAT.CALVER : Fld := ⟨0x58000, 0x0, 0x0, 16, 16⟩
/-! TRK_CTRL -/
def TRK_CTRL.TYPE : Fld := ⟨0x60000, 0x1000, 0x0, 0, 1⟩
def TRK_CTRL.BW : Fld := ⟨0x60000, 0x1000, 0x0, 4, 4⟩
def TRK_CTRL.PPM1 : Fld := ⟨0x60000, 0x1000, 0x0, 8, 4⟩
def TRK_CTRL.COASTOK : Fld := ⟨0x60000, 0x1000, 0x0, 16, 1⟩
def TRK_CTRL.REARM : Fld := ⟨0x60000, 0x1000, 0x0, 17, 1⟩
def TRK_CTRL.COAST : Fld := ⟨0x60000, 0x1000, 0x0, 24, 8⟩
/-! TRK_STAT -/
def TRK_STAT.ANGVALID : Fld := ⟨0x60004, 0x1000, 0x0, 0, 1⟩
def TRK_STAT.LOCK : Fld := ⟨0x60004, 0x1000, 0x0, 1, 1⟩
def TRK_STAT.COASTING : Fld := ⟨0x60004, 0x1000, 0x0, 2, 1⟩
def TRK_STAT.HOLD : Fld := ⟨0x60004, 0x1000, 0x0, 3, 1⟩
def TRK_STAT.ACQ : Fld := ⟨0x60004, 0x1000, 0x0, 4, 1⟩
def TRK_STAT.MECHVALID : Fld := ⟨0x60004, 0x1000, 0x0, 5, 1⟩
def TRK_STAT.BWCLAMP : Fld := ⟨0x60004, 0x1000, 0x0, 6, 1⟩
def TRK_STAT.OVERSPD : Fld := ⟨0x60004, 0x1000, 0x0, 7, 1⟩
def TRK_STAT.CAUSE : Fld := ⟨0x60004, 0x1000, 0x0, 8, 3⟩
def TRK_STAT.CLIP : Fld := ⟨0x60004, 0x1000, 0x0, 11, 1⟩
def TRK_STAT.SUPPLY : Fld := ⟨0x60004, 0x1000, 0x0, 12, 1⟩
/-! TRK_ANG -/
def TRK_ANG.FRAC : Fld := ⟨0x60008, 0x1000, 0x0, 0, 32⟩
def TRK_ANG.TURNS : Fld := ⟨0x60008, 0x1000, 0x0, 32, 16⟩
/-! TRK_STAMP -/
def TRK_STAMP.PT : Fld := ⟨0x60010, 0x1000, 0x0, 0, 64⟩
/-! TRK_SPD -/
def TRK_SPD.SPD : Fld := ⟨0x60018, 0x1000, 0x0, 0, 32⟩
/-! TRK_ACC -/
def TRK_ACC.ACC : Fld := ⟨0x6001c, 0x1000, 0x0, 0, 32⟩
/-! TRK_MECH -/
def TRK_MECH.FRAC : Fld := ⟨0x60020, 0x1000, 0x0, 0, 16⟩
def TRK_MECH.TURNS : Fld := ⟨0x60020, 0x1000, 0x0, 16, 16⟩
/-! TRK_SECTOR -/
def TRK_SECTOR.SECTOR : Fld := ⟨0x60024, 0x1000, 0x0, 0, 4⟩
def TRK_SECTOR.MTURNS : Fld := ⟨0x60024, 0x1000, 0x0, 16, 16⟩
/-! TRK_AMPNOM -/
def TRK_AMPNOM.NOM : Fld := ⟨0x60028, 0x1000, 0x0, 0, 15⟩
/-! TRK_AMPWIN -/
def TRK_AMPWIN.LO : Fld := ⟨0x6002c, 0x1000, 0x0, 0, 8⟩
def TRK_AMPWIN.HI : Fld := ⟨0x6002c, 0x1000, 0x0, 8, 8⟩
def TRK_AMPWIN.QUAL : Fld := ⟨0x6002c, 0x1000, 0x0, 16, 4⟩
/-! TRK_MAG -/
def TRK_MAG.MAG : Fld := ⟨0x60030, 0x1000, 0x0, 0, 12⟩
/-! TRK_FRZ -/
def TRK_FRZ.CNT : Fld := ⟨0x60034, 0x1000, 0x0, 0, 8⟩
def TRK_FRZ.JUMP : Fld := ⟨0x60034, 0x1000, 0x0, 8, 8⟩
def TRK_FRZ.FEN : Fld := ⟨0x60034, 0x1000, 0x0, 16, 1⟩
/-! TRK_XREQ -/
def TRK_XREQ.PT : Fld := ⟨0x60038, 0x1000, 0x0, 0, 64⟩
/-! TRK_XANG -/
def TRK_XANG.FRAC : Fld := ⟨0x60040, 0x1000, 0x0, 0, 32⟩
def TRK_XANG.TURNS : Fld := ⟨0x60040, 0x1000, 0x0, 32, 16⟩
/-! TRK_XSTAT -/
def TRK_XSTAT.DONE : Fld := ⟨0x60048, 0x1000, 0x0, 0, 1⟩
def TRK_XSTAT.VALID : Fld := ⟨0x60048, 0x1000, 0x0, 1, 1⟩
def TRK_XSTAT.FUTCLAMP : Fld := ⟨0x60048, 0x1000, 0x0, 2, 1⟩
def TRK_XSTAT.HISTCLAMP : Fld := ⟨0x60048, 0x1000, 0x0, 3, 1⟩
/-! TRK_LOSS -/
def TRK_LOSS.LOSS : Fld := ⟨0x68000, 0x0, 0x0, 0, 8⟩
def TRK_LOSS.EXPIRED : Fld := ⟨0x68000, 0x0, 0x0, 8, 8⟩
/-! TBL_STEADY -/
def TBL_STEADY.BAND : Fld := ⟨0x70000, 0x1000, 0x0, 0, 8⟩
/-! TBL_SPDWIN -/
def TBL_SPDWIN.MIN : Fld := ⟨0x70004, 0x1000, 0x0, 0, 16⟩
def TBL_SPDWIN.MAX : Fld := ⟨0x70004, 0x1000, 0x0, 16, 16⟩
/-! TBL_LSTAT -/
def TBL_LSTAT.ACCEPT : Fld := ⟨0x70008, 0x1000, 0x0, 0, 16⟩
def TBL_LSTAT.REJECT : Fld := ⟨0x70008, 0x1000, 0x0, 16, 16⟩
/-! TBL_DESC -/
def TBL_DESC.ROLE : Fld := ⟨0x70010, 0x1000, 0x10, 0, 2⟩
def TBL_DESC.SRC : Fld := ⟨0x70010, 0x1000, 0x10, 2, 2⟩
def TBL_DESC.BINS : Fld := ⟨0x70010, 0x1000, 0x10, 4, 3⟩
def TBL_DESC.APPLY : Fld := ⟨0x70010, 0x1000, 0x10, 8, 1⟩
def TBL_DESC.LEARN : Fld := ⟨0x70010, 0x1000, 0x10, 9, 1⟩
def TBL_DESC.LEAD : Fld := ⟨0x70010, 0x1000, 0x10, 16, 6⟩
def TBL_DESC.EXP : Fld := ⟨0x70010, 0x1000, 0x10, 24, 6⟩
/-! TBL_LAW -/
def TBL_LAW.GAIN : Fld := ⟨0x70014, 0x1000, 0x10, 0, 16⟩
def TBL_LAW.FORGET : Fld := ⟨0x70014, 0x1000, 0x10, 16, 16⟩
/-! TBL_RES -/
def TBL_RES.PAGE0 : Fld := ⟨0x70018, 0x1000, 0x10, 0, 5⟩
def TBL_RES.PAGE1 : Fld := ⟨0x70018, 0x1000, 0x10, 8, 5⟩
def TBL_RES.ACTIVE : Fld := ⟨0x70018, 0x1000, 0x10, 16, 1⟩
def TBL_RES.PEND : Fld := ⟨0x70018, 0x1000, 0x10, 17, 1⟩
def TBL_RES.MISS : Fld := ⟨0x70018, 0x1000, 0x10, 18, 1⟩
def TBL_RES.LEARNING : Fld := ⟨0x70018, 0x1000, 0x10, 19, 1⟩
def TBL_RES.SHED : Fld := ⟨0x70018, 0x1000, 0x10, 20, 1⟩
def TBL_RES.SAT : Fld := ⟨0x70018, 0x1000, 0x10, 21, 1⟩
/-! TBL_MISSCNT -/
def TBL_MISSCNT.COUNT : Fld := ⟨0x7001c, 0x1000, 0x10, 0, 16⟩
def TBL_MISSCNT.ECC : Fld := ⟨0x7001c, 0x1000, 0x10, 16, 16⟩
/-! TBL_LIBBASE -/
def TBL_LIBBASE.BASE : Fld := ⟨0x78000, 0x0, 0x0, 12, 23⟩
/-! TBL_CMD -/
def TBL_CMD.OP : Fld := ⟨0x78008, 0x0, 0x0, 0, 4⟩
def TBL_CMD.PAGEA : Fld := ⟨0x78008, 0x0, 0x0, 4, 5⟩
def TBL_CMD.PAGEB : Fld := ⟨0x78008, 0x0, 0x0, 9, 5⟩
def TBL_CMD.AXIS : Fld := ⟨0x78008, 0x0, 0x0, 16, 3⟩
def TBL_CMD.TABLE : Fld := ⟨0x78008, 0x0, 0x0, 20, 2⟩
/-! TBL_CMDOFS -/
def TBL_CMDOFS.OFS : Fld := ⟨0x7800c, 0x0, 0x0, 0, 23⟩
/-! TBL_CMDSTAT -/
def TBL_CMDSTAT.BUSY : Fld := ⟨0x78010, 0x0, 0x0, 0, 1⟩
def TBL_CMDSTAT.DONE : Fld := ⟨0x78010, 0x0, 0x0, 1, 1⟩
def TBL_CMDSTAT.MATEERR : Fld := ⟨0x78010, 0x0, 0x0, 2, 1⟩
def TBL_CMDSTAT.ERR : Fld := ⟨0x78010, 0x0, 0x0, 4, 4⟩
def TBL_CMDSTAT.LASTOP : Fld := ⟨0x78010, 0x0, 0x0, 8, 4⟩
/-! TBL_MISS -/
def TBL_MISS.MISS : Fld := ⟨0x78014, 0x0, 0x0, 0, 32⟩
/-! TBL_PAGE -/
def TBL_PAGE.STATE : Fld := ⟨0x78100, 0x4, 0x0, 0, 3⟩
def TBL_PAGE.AXIS : Fld := ⟨0x78100, 0x4, 0x0, 4, 3⟩
def TBL_PAGE.TABLE : Fld := ⟨0x78100, 0x4, 0x0, 8, 2⟩
def TBL_PAGE.HALF : Fld := ⟨0x78100, 0x4, 0x0, 10, 1⟩
/-! EMU_CTRL -/
def EMU_CTRL.MODE : Fld := ⟨0x80000, 0x1000, 0x0, 0, 2⟩
def EMU_CTRL.SRC : Fld := ⟨0x80000, 0x1000, 0x0, 2, 1⟩
def EMU_CTRL.ZW : Fld := ⟨0x80000, 0x1000, 0x0, 3, 1⟩
def EMU_CTRL.INV : Fld := ⟨0x80000, 0x1000, 0x0, 4, 1⟩
def EMU_CTRL.DRIVE : Fld := ⟨0x80000, 0x1000, 0x0, 5, 1⟩
def EMU_CTRL.SAFE : Fld := ⟨0x80000, 0x1000, 0x0, 6, 2⟩
def EMU_CTRL.RATE : Fld := ⟨0x80000, 0x1000, 0x0, 8, 6⟩
def EMU_CTRL.LEAD : Fld := ⟨0x80000, 0x1000, 0x0, 16, 16⟩
/-! EMU_LINES -/
def EMU_LINES.LINES : Fld := ⟨0x80004, 0x1000, 0x0, 0, 17⟩
/-! EMU_ZPOS -/
def EMU_ZPOS.ZPOS : Fld := ⟨0x80008, 0x1000, 0x0, 0, 18⟩
/-! EMU_STAT -/
def EMU_STAT.LIMIT : Fld := ⟨0x8000c, 0x1000, 0x0, 0, 1⟩
def EMU_STAT.HOLDING : Fld := ⟨0x8000c, 0x1000, 0x0, 1, 1⟩
def EMU_STAT.ZSUP : Fld := ⟨0x8000c, 0x1000, 0x0, 2, 1⟩
def EMU_STAT.PASS : Fld := ⟨0x8000c, 0x1000, 0x0, 3, 1⟩
def EMU_STAT.BACKLOG : Fld := ⟨0x8000c, 0x1000, 0x0, 16, 16⟩
/-! EMU_POS -/
def EMU_POS.POS : Fld := ⟨0x80010, 0x1000, 0x0, 0, 32⟩
/-! ENC_CFG -/
def ENC_CFG.FILT : Fld := ⟨0x80020, 0x1000, 0x0, 0, 8⟩
def ENC_CFG.WIRET : Fld := ⟨0x80020, 0x1000, 0x0, 8, 8⟩
def ENC_CFG.INV : Fld := ⟨0x80020, 0x1000, 0x0, 16, 1⟩
def ENC_CFG.ZINV : Fld := ⟨0x80020, 0x1000, 0x0, 17, 1⟩
/-! ENC_RAW -/
def ENC_RAW.COUNT : Fld := ⟨0x80024, 0x1000, 0x0, 0, 32⟩
/-! ENC_REP -/
def ENC_REP.COUNT : Fld := ⟨0x80028, 0x1000, 0x0, 0, 32⟩
/-! ENC_STAT -/
def ENC_STAT.ABZ : Fld := ⟨0x8002c, 0x1000, 0x0, 0, 3⟩
def ENC_STAT.DIR : Fld := ⟨0x8002c, 0x1000, 0x0, 3, 1⟩
def ENC_STAT.HELD : Fld := ⟨0x8002c, 0x1000, 0x0, 4, 1⟩
def ENC_STAT.SMODE : Fld := ⟨0x8002c, 0x1000, 0x0, 5, 1⟩
def ENC_STAT.STOPPED : Fld := ⟨0x8002c, 0x1000, 0x0, 6, 1⟩
def ENC_STAT.WIRE : Fld := ⟨0x8002c, 0x1000, 0x0, 8, 3⟩
def ENC_STAT.ILLCNT : Fld := ⟨0x8002c, 0x1000, 0x0, 16, 8⟩
/-! ENC_SPD -/
def ENC_SPD.SPD : Fld := ⟨0x80030, 0x1000, 0x0, 0, 32⟩
/-! ENC_SPDCFG -/
def ENC_SPDCFG.WIN : Fld := ⟨0x80034, 0x1000, 0x0, 0, 16⟩
def ENC_SPDCFG.STOP : Fld := ⟨0x80034, 0x1000, 0x0, 16, 16⟩
/-! ENC_THR -/
def ENC_THR.THR : Fld := ⟨0x80038, 0x1000, 0x0, 0, 32⟩
/-! ENC_IDX -/
def ENC_IDX.MODE : Fld := ⟨0x8003c, 0x1000, 0x0, 0, 2⟩
def ENC_IDX.ARM : Fld := ⟨0x8003c, 0x1000, 0x0, 2, 1⟩
def ENC_IDX.ARMED : Fld := ⟨0x8003c, 0x1000, 0x0, 3, 1⟩
def ENC_IDX.FIRST : Fld := ⟨0x8003c, 0x1000, 0x0, 4, 1⟩
def ENC_IDX.SECEN : Fld := ⟨0x8003c, 0x1000, 0x0, 5, 1⟩
def ENC_IDX.TOL : Fld := ⟨0x8003c, 0x1000, 0x0, 8, 8⟩
def ENC_IDX.SECVAL : Fld := ⟨0x8003c, 0x1000, 0x0, 16, 4⟩
def ENC_IDX.RWID : Fld := ⟨0x8003c, 0x1000, 0x0, 20, 4⟩
def ENC_IDX.SEEN : Fld := ⟨0x8003c, 0x1000, 0x0, 24, 1⟩
/-! ENC_RESV -/
def ENC_RESV.RESV : Fld := ⟨0x80040, 0x1000, 0x0, 0, 32⟩
/-! ENC_CPR -/
def ENC_CPR.CPR : Fld := ⟨0x80044, 0x1000, 0x0, 0, 19⟩
/-! ENC_IDXDIFF -/
def ENC_IDXDIFF.DIFF : Fld := ⟨0x80048, 0x1000, 0x0, 0, 32⟩
/-! ENC_SECT -/
def ENC_SECT.XIDX : Fld := ⟨0x8004c, 0x1000, 0x0, 0, 16⟩
def ENC_SECT.SECD : Fld := ⟨0x8004c, 0x1000, 0x0, 16, 16⟩
/-! PRB_CTRL -/
def PRB_CTRL.EDGE : Fld := ⟨0x80060, 0x1000, 0x0, 0, 2⟩
def PRB_CTRL.FILT : Fld := ⟨0x80060, 0x1000, 0x0, 8, 8⟩
/-! PRB_STAT -/
def PRB_STAT.FULL : Fld := ⟨0x80064, 0x1000, 0x0, 0, 1⟩
def PRB_STAT.ANGV : Fld := ⟨0x80064, 0x1000, 0x0, 1, 1⟩
def PRB_STAT.RISE : Fld := ⟨0x80064, 0x1000, 0x0, 2, 1⟩
def PRB_STAT.OVR : Fld := ⟨0x80064, 0x1000, 0x0, 8, 8⟩
/-! PRB_RAW -/
def PRB_RAW.COUNT : Fld := ⟨0x80068, 0x1000, 0x0, 0, 32⟩
/-! PRB_REP -/
def PRB_REP.COUNT : Fld := ⟨0x8006c, 0x1000, 0x0, 0, 32⟩
/-! PRB_ANG -/
def PRB_ANG.FRAC : Fld := ⟨0x80070, 0x1000, 0x0, 0, 32⟩
def PRB_ANG.TURNS : Fld := ⟨0x80070, 0x1000, 0x0, 32, 16⟩
/-! PRB_PT -/
def PRB_PT.PT : Fld := ⟨0x80078, 0x1000, 0x0, 0, 64⟩
/-! ENC_FAULT -/
def ENC_FAULT.WIRE : Fld := ⟨0x88000, 0x0, 0x0, 0, 8⟩
def ENC_FAULT.ILL : Fld := ⟨0x88000, 0x0, 0x0, 8, 8⟩
def ENC_FAULT.IDXMIS : Fld := ⟨0x88000, 0x0, 0x0, 16, 8⟩
def ENC_FAULT.OVERRATE : Fld := ⟨0x88000, 0x0, 0x0, 24, 8⟩
/-! ACQ_PTRIM -/
def ACQ_PTRIM.GAIN : Fld := ⟨0x90000, 0x1000, 0x4, 0, 16⟩
def ACQ_PTRIM.OFS : Fld := ⟨0x90000, 0x1000, 0x4, 16, 12⟩
def ACQ_PTRIM.MUX : Fld := ⟨0x90000, 0x1000, 0x4, 28, 2⟩
/-! ACQ_CMPU -/
def ACQ_CMPU.THR : Fld := ⟨0x90010, 0x1000, 0x8, 0, 12⟩
def ACQ_CMPU.HYS : Fld := ⟨0x90010, 0x1000, 0x8, 12, 2⟩
def ACQ_CMPU.FUNC : Fld := ⟨0x90010, 0x1000, 0x8, 16, 2⟩
/-! ACQ_CMPL -/
def ACQ_CMPL.THR : Fld := ⟨0x90014, 0x1000, 0x8, 0, 12⟩
def ACQ_CMPL.HYS : Fld := ⟨0x90014, 0x1000, 0x8, 12, 2⟩
def ACQ_CMPL.FUNC : Fld := ⟨0x90014, 0x1000, 0x8, 16, 2⟩
/-! ACQ_PSTAT -/
def ACQ_PSTAT.CLIP : Fld := ⟨0x90030, 0x1000, 0x0, 0, 4⟩
def ACQ_PSTAT.OUTU : Fld := ⟨0x90030, 0x1000, 0x0, 4, 4⟩
def ACQ_PSTAT.OUTL : Fld := ⟨0x90030, 0x1000, 0x0, 8, 4⟩
def ACQ_PSTAT.CROSSU : Fld := ⟨0x90030, 0x1000, 0x0, 12, 4⟩
def ACQ_PSTAT.CROSSL : Fld := ⟨0x90030, 0x1000, 0x0, 16, 4⟩
/-! ACQ_LTRIM -/
def ACQ_LTRIM.GAIN : Fld := ⟨0x98000, 0x4, 0x0, 0, 16⟩
def ACQ_LTRIM.OFS : Fld := ⟨0x98000, 0x4, 0x0, 16, 12⟩
def ACQ_LTRIM.MUX : Fld := ⟨0x98000, 0x4, 0x0, 28, 2⟩
/-! ACQ_LSTAT -/
def ACQ_LSTAT.CLIP : Fld := ⟨0x98018, 0x0, 0x0, 0, 6⟩
/-! ACQ_TRIPU -/
def ACQ_TRIPU.TRIP : Fld := ⟨0x98020, 0x0, 0x0, 0, 32⟩
/-! ACQ_TRIPL -/
def ACQ_TRIPL.TRIP : Fld := ⟨0x98024, 0x0, 0x0, 0, 32⟩
/-! FIL_LEN -/
def FIL_LEN.L1 : Fld := ⟨0xa8000, 0x20, 0x0, 0, 12⟩
def FIL_LEN.L2 : Fld := ⟨0xa8000, 0x20, 0x0, 16, 12⟩
/-! FIL_CFG -/
def FIL_CFG.L3 : Fld := ⟨0xa8004, 0x20, 0x0, 0, 12⟩
def FIL_CFG.STAGES : Fld := ⟨0xa8004, 0x20, 0x0, 12, 2⟩
def FIL_CFG.APPLY : Fld := ⟨0xa8004, 0x20, 0x0, 14, 1⟩
def FIL_CFG.PEND : Fld := ⟨0xa8004, 0x20, 0x0, 15, 1⟩
def FIL_CFG.REMAIN : Fld := ⟨0xa8004, 0x20, 0x0, 16, 16⟩
/-! FIL_DEC -/
def FIL_DEC.DM1 : Fld := ⟨0xa8008, 0x20, 0x0, 0, 16⟩
/-! FIL_OUT -/
def FIL_OUT.VALUE : Fld := ⟨0xa800c, 0x20, 0x0, 0, 24⟩
def FIL_OUT.UNS : Fld := ⟨0xa800c, 0x20, 0x0, 24, 1⟩
def FIL_OUT.CLIP : Fld := ⟨0xa800c, 0x20, 0x0, 25, 1⟩
def FIL_OUT.SUPPLY : Fld := ⟨0xa800c, 0x20, 0x0, 26, 1⟩
def FIL_OUT.NV : Fld := ⟨0xa800c, 0x20, 0x0, 27, 1⟩
/-! FIL_OSTAMP -/
def FIL_OSTAMP.PT : Fld := ⟨0xa8010, 0x20, 0x0, 0, 64⟩
/-! FIL_SYNCPT -/
def FIL_SYNCPT.PT : Fld := ⟨0xa8800, 0x0, 0x0, 0, 64⟩
/-! FIL_SYNCMASK -/
def FIL_SYNCMASK.MASK : Fld := ⟨0xa8808, 0x0, 0x0, 0, 64⟩
/-! FIL_SYNCCTL -/
def FIL_SYNCCTL.GO : Fld := ⟨0xa8810, 0x0, 0x0, 0, 1⟩
def FIL_SYNCCTL.PEND : Fld := ⟨0xa8810, 0x0, 0x0, 1, 1⟩
def FIL_SYNCCTL.LATE : Fld := ⟨0xa8810, 0x0, 0x0, 2, 1⟩
/-! DET_CFG -/
def DET_CFG.SRC : Fld := ⟨0xa9000, 0x40, 0x0, 0, 6⟩
def DET_CFG.TAP : Fld := ⟨0xa9000, 0x40, 0x0, 6, 1⟩
def DET_CFG.KIND : Fld := ⟨0xa9000, 0x40, 0x0, 8, 2⟩
def DET_CFG.WMODE : Fld := ⟨0xa9000, 0x40, 0x0, 10, 1⟩
/-! DET_N -/
def DET_N.N : Fld := ⟨0xa9004, 0x40, 0x0, 0, 24⟩
/-! DET_ATK -/
def DET_ATK.TAU : Fld := ⟨0xa9008, 0x40, 0x0, 0, 20⟩
/-! DET_DCY -/
def DET_DCY.TAU : Fld := ⟨0xa900c, 0x40, 0x0, 0, 20⟩
/-! DET_LIM -/
def DET_LIM.LIM : Fld := ⟨0xa9010, 0x40, 0x0, 0, 24⟩
def DET_LIM.LEN : Fld := ⟨0xa9010, 0x40, 0x0, 24, 1⟩
/-! DET_A -/
def DET_A.VALUE : Fld := ⟨0xa9014, 0x40, 0x0, 0, 24⟩
/-! DET_B -/
def DET_B.VALUE : Fld := ⟨0xa9018, 0x40, 0x0, 0, 24⟩
/-! DET_STAT -/
def DET_STAT.DONE : Fld := ⟨0xa901c, 0x40, 0x0, 0, 1⟩
def DET_STAT.OVF : Fld := ⟨0xa901c, 0x40, 0x0, 1, 1⟩
def DET_STAT.STALE : Fld := ⟨0xa901c, 0x40, 0x0, 2, 1⟩
def DET_STAT.SHED : Fld := ⟨0xa901c, 0x40, 0x0, 3, 1⟩
def DET_STAT.UNS : Fld := ⟨0xa901c, 0x40, 0x0, 4, 1⟩
def DET_STAT.CLIP : Fld := ⟨0xa901c, 0x40, 0x0, 5, 1⟩
def DET_STAT.SUPPLY : Fld := ⟨0xa901c, 0x40, 0x0, 6, 1⟩
def DET_STAT.NV : Fld := ⟨0xa901c, 0x40, 0x0, 7, 1⟩
def DET_STAT.WCNT : Fld := ⟨0xa901c, 0x40, 0x0, 16, 16⟩
/-! DET_STAMP -/
def DET_STAMP.PT : Fld := ⟨0xa9020, 0x40, 0x0, 0, 64⟩
/-! DET_PKSTAMP -/
def DET_PKSTAMP.PT : Fld := ⟨0xa9028, 0x40, 0x0, 0, 64⟩
/-! LPT_CTRL -/
def LPT_CTRL.EN : Fld := ⟨0xaa000, 0x0, 0x0, 0, 1⟩
def LPT_CTRL.SET : Fld := ⟨0xaa000, 0x0, 0x0, 1, 1⟩
def LPT_CTRL.CONN : Fld := ⟨0xaa000, 0x0, 0x0, 2, 1⟩
def LPT_CTRL.NOM : Fld := ⟨0xaa000, 0x0, 0x0, 3, 1⟩
def LPT_CTRL.BW : Fld := ⟨0xaa000, 0x0, 0x0, 4, 2⟩
def LPT_CTRL.ALO : Fld := ⟨0xaa000, 0x0, 0x0, 16, 16⟩
/-! LPT_STAT -/
def LPT_STAT.LOCK : Fld := ⟨0xaa004, 0x0, 0x0, 0, 1⟩
def LPT_STAT.FCLAMP : Fld := ⟨0xaa004, 0x0, 0x0, 1, 1⟩
def LPT_STAT.ALOW : Fld := ⟨0xaa004, 0x0, 0x0, 2, 1⟩
def LPT_STAT.AMPL : Fld := ⟨0xaa004, 0x0, 0x0, 16, 16⟩
/-! LPT_PHASE -/
def LPT_PHASE.PHASE : Fld := ⟨0xaa008, 0x0, 0x0, 0, 32⟩
/-! LPT_FREQ -/
def LPT_FREQ.FREQ : Fld := ⟨0xaa00c, 0x0, 0x0, 0, 32⟩
/-! LPT_STAMP -/
def LPT_STAMP.PT : Fld := ⟨0xaa010, 0x0, 0x0, 0, 64⟩
/-! LAW_CTRL -/
def LAW_CTRL.RUN : Fld := ⟨0xb0000, 0x1000, 0x0, 0, 1⟩
def LAW_CTRL.LEN : Fld := ⟨0xb0000, 0x1000, 0x0, 8, 7⟩
/-! LAW_SCHED -/
def LAW_SCHED.PER : Fld := ⟨0xb0004, 0x1000, 0x0, 0, 11⟩
def LAW_SCHED.OFS : Fld := ⟨0xb0004, 0x1000, 0x0, 16, 11⟩
/-! LAW_BANK -/
def LAW_BANK.ACT : Fld := ⟨0xb0008, 0x1000, 0x0, 0, 1⟩
def LAW_BANK.FADING : Fld := ⟨0xb0008, 0x1000, 0x0, 1, 1⟩
def LAW_BANK.QUEUED : Fld := ⟨0xb0008, 0x1000, 0x0, 2, 1⟩
def LAW_BANK.QOVR : Fld := ⟨0xb0008, 0x1000, 0x0, 3, 1⟩
def LAW_BANK.QTGT : Fld := ⟨0xb0008, 0x1000, 0x0, 4, 1⟩
def LAW_BANK.TARGET : Fld := ⟨0xb0008, 0x1000, 0x0, 8, 1⟩
def LAW_BANK.REQ : Fld := ⟨0xb0008, 0x1000, 0x0, 9, 1⟩
def LAW_BANK.FADE : Fld := ⟨0xb0008, 0x1000, 0x0, 16, 16⟩
/-! LAW_FADE -/
def LAW_FADE.REMAIN : Fld := ⟨0xb000c, 0x1000, 0x0, 0, 16⟩
def LAW_FADE.QLEN : Fld := ⟨0xb000c, 0x1000, 0x0, 16, 16⟩
/-! LAW_AXSTAT -/
def LAW_AXSTAT.VERR : Fld := ⟨0xb0010, 0x1000, 0x0, 0, 4⟩
def LAW_AXSTAT.VSLOT : Fld := ⟨0xb0010, 0x1000, 0x0, 8, 7⟩
def LAW_AXSTAT.RUNNING : Fld := ⟨0xb0010, 0x1000, 0x0, 16, 1⟩
def LAW_AXSTAT.PEND : Fld := ⟨0xb0010, 0x1000, 0x0, 17, 1⟩
/-! LAW_RUNCNT -/
def LAW_RUNCNT.COUNT : Fld := ⟨0xb0014, 0x1000, 0x0, 0, 32⟩
/-! LAW_OVRCNT -/
def LAW_OVRCNT.COUNT : Fld := ⟨0xb0018, 0x1000, 0x0, 0, 16⟩
/-! LAW_TIME -/
def LAW_TIME.LAST : Fld := ⟨0xb001c, 0x1000, 0x0, 0, 16⟩
def LAW_TIME.WORST : Fld := ⟨0xb001c, 0x1000, 0x0, 16, 16⟩
/-! LAW_CFG -/
def LAW_CFG.MODE : Fld := ⟨0xb8000, 0x0, 0x0, 0, 1⟩
def LAW_CFG.SLOTMAX : Fld := ⟨0xb8000, 0x0, 0x0, 8, 8⟩
def LAW_CFG.ECEIL : Fld := ⟨0xb8000, 0x0, 0x0, 16, 6⟩
/-! LAW_LOAD -/
def LAW_LOAD.LOAD0 : Fld := ⟨0xb8004, 0x0, 0x0, 0, 16⟩
def LAW_LOAD.LOAD1 : Fld := ⟨0xb8004, 0x0, 0x0, 16, 16⟩
/-! LAW_FLAGS -/
def LAW_FLAGS.OVR : Fld := ⟨0xb8008, 0x0, 0x0, 0, 8⟩
def LAW_FLAGS.OVF : Fld := ⟨0xb8008, 0x0, 0x0, 8, 8⟩
/-! PWM_CTRL -/
def PWM_CTRL.EN : Fld := ⟨0xc0000, 0x1000, 0x0, 0, 1⟩
def PWM_CTRL.MODE : Fld := ⟨0xc0000, 0x1000, 0x0, 1, 1⟩
def PWM_CTRL.ALIGN : Fld := ⟨0xc0000, 0x1000, 0x0, 2, 1⟩
def PWM_CTRL.UPD : Fld := ⟨0xc0000, 0x1000, 0x0, 4, 2⟩
def PWM_CTRL.RUNNING : Fld := ⟨0xc0000, 0x1000, 0x0, 16, 1⟩
def PWM_CTRL.SAFE : Fld := ⟨0xc0000, 0x1000, 0x0, 17, 1⟩
/-! PWM_PER -/
def PWM_PER.PERIOD : Fld := ⟨0xc0004, 0x1000, 0x0, 0, 22⟩
/-! PWM_OFS -/
def PWM_OFS.OFS : Fld := ⟨0xc0008, 0x1000, 0x0, 0, 22⟩
/-! PWM_DT -/
def PWM_DT.DT : Fld := ⟨0xc000c, 0x1000, 0x0, 0, 12⟩
def PWM_DT.MINP : Fld := ⟨0xc000c, 0x1000, 0x0, 16, 12⟩
/-! PWM_DUTY -/
def PWM_DUTY.DUTY : Fld := ⟨0xc0010, 0x1000, 0x4, 0, 17⟩
/-! PWM_SAFE -/
def PWM_SAFE.LVL : Fld := ⟨0xc001c, 0x1000, 0x0, 0, 12⟩
def PWM_SAFE.ACTLOW : Fld := ⟨0xc001c, 0x1000, 0x0, 16, 6⟩
/-! PWM_STAT -/
def PWM_STAT.WHY : Fld := ⟨0xc0020, 0x1000, 0x0, 0, 5⟩
def PWM_STAT.LEG : Fld := ⟨0xc0020, 0x1000, 0x0, 8, 3⟩
def PWM_STAT.LATE : Fld := ⟨0xc0020, 0x1000, 0x0, 16, 16⟩
/-! PWM_SUPCNT -/
def PWM_SUPCNT.COUNT : Fld := ⟨0xc0024, 0x1000, 0x0, 0, 16⟩
def PWM_SUPCNT.CONF : Fld := ⟨0xc0024, 0x1000, 0x0, 16, 16⟩
/-! BND_CTRL -/
def BND_CTRL.PATH : Fld := ⟨0xc0040, 0x1000, 0x0, 0, 1⟩
def BND_CTRL.FLOCK : Fld := ⟨0xc0040, 0x1000, 0x0, 1, 1⟩
def BND_CTRL.SRCU : Fld := ⟨0xc0040, 0x1000, 0x0, 4, 2⟩
def BND_CTRL.SRCV : Fld := ⟨0xc0040, 0x1000, 0x0, 6, 2⟩
def BND_CTRL.SRCW : Fld := ⟨0xc0040, 0x1000, 0x0, 8, 2⟩
def BND_CTRL.POL : Fld := ⟨0xc0040, 0x1000, 0x0, 12, 3⟩
def BND_CTRL.GAIN : Fld := ⟨0xc0040, 0x1000, 0x0, 16, 3⟩
def BND_CTRL.NOFAST : Fld := ⟨0xc0040, 0x1000, 0x0, 24, 1⟩
/-! BND_FTGT -/
def BND_FTGT.FT : Fld := ⟨0xc0044, 0x1000, 0x0, 0, 17⟩
/-! BND_HBLIM -/
def BND_HBLIM.HBMIN : Fld := ⟨0xc0048, 0x1000, 0x0, 0, 16⟩
def BND_HBLIM.HBMAX : Fld := ⟨0xc0048, 0x1000, 0x0, 16, 16⟩
/-! BND_LEG -/
def BND_LEG.REF : Fld := ⟨0xc004c, 0x1000, 0x8, 0, 16⟩
def BND_LEG.HB : Fld := ⟨0xc004c, 0x1000, 0x8, 16, 16⟩
/-! BND_FMEAS -/
def BND_FMEAS.F : Fld := ⟨0xc0050, 0x1000, 0x8, 0, 17⟩
def BND_FMEAS.LOCKED : Fld := ⟨0xc0050, 0x1000, 0x8, 24, 1⟩
def BND_FMEAS.HBLIM : Fld := ⟨0xc0050, 0x1000, 0x8, 25, 1⟩
/-! PWM_FLAGS -/
def PWM_FLAGS.LATE : Fld := ⟨0xc8000, 0x0, 0x0, 0, 8⟩
def PWM_FLAGS.BANDLIM : Fld := ⟨0xc8000, 0x0, 0x0, 8, 8⟩
/-! TUNE_CTRL -/
def TUNE_CTRL.RSLOT : Fld := ⟨0x140000, 0x1000, 0x0, 0, 7⟩
def TUNE_CTRL.PSLOT : Fld := ⟨0x140000, 0x1000, 0x0, 8, 7⟩
def TUNE_CTRL.NCYC : Fld := ⟨0x140000, 0x1000, 0x0, 16, 4⟩
def TUNE_CTRL.START : Fld := ⟨0x140000, 0x1000, 0x0, 24, 1⟩
def TUNE_CTRL.ABORT : Fld := ⟨0x140000, 0x1000, 0x0, 25, 1⟩
def TUNE_CTRL.WRITE : Fld := ⟨0x140000, 0x1000, 0x0, 26, 1⟩
/-! TUNE_STAT -/
def TUNE_STAT.STATE : Fld := ⟨0x140004, 0x1000, 0x0, 0, 3⟩
def TUNE_STAT.CAUSE : Fld := ⟨0x140004, 0x1000, 0x0, 4, 4⟩
def TUNE_STAT.WRITTEN : Fld := ⟨0x140004, 0x1000, 0x0, 8, 1⟩
def TUNE_STAT.NOWR : Fld := ⟨0x140004, 0x1000, 0x0, 9, 1⟩
def TUNE_STAT.ACC : Fld := ⟨0x140004, 0x1000, 0x0, 16, 4⟩
/-! TUNE_LIMIT -/
def TUNE_LIMIT.TMAX : Fld := ⟨0x140008, 0x1000, 0x0, 0, 16⟩
def TUNE_LIMIT.ASYM : Fld := ⟨0x140008, 0x1000, 0x0, 16, 8⟩
/-! TUNE_RULE -/
def TUNE_RULE.KPF : Fld := ⟨0x14000c, 0x1000, 0x0, 0, 16⟩
def TUNE_RULE.TIF : Fld := ⟨0x14000c, 0x1000, 0x0, 16, 16⟩
/-! TUNE_KU -/
def TUNE_KU.WORD : Fld := ⟨0x140010, 0x1000, 0x0, 0, 32⟩
/-! TUNE_KP -/
def TUNE_KP.WORD : Fld := ⟨0x140018, 0x1000, 0x0, 0, 32⟩
/-! TUNE_KI -/
def TUNE_KI.WORD : Fld := ⟨0x14001c, 0x1000, 0x0, 0, 32⟩
/-! TUNE_TU -/
def TUNE_TU.TU : Fld := ⟨0x140014, 0x1000, 0x0, 0, 24⟩
/-! TRC_CTRL -/
def TRC_CTRL.DEST : Fld := ⟨0x148000, 0x0, 0x0, 0, 2⟩
def TRC_CTRL.FMT : Fld := ⟨0x148000, 0x0, 0x0, 2, 1⟩
def TRC_CTRL.RUN : Fld := ⟨0x148000, 0x0, 0x0, 8, 1⟩
def TRC_CTRL.CEXP : Fld := ⟨0x148000, 0x0, 0x0, 16, 6⟩
/-! TRC_CH -/
def TRC_CH.EN : Fld := ⟨0x148040, 0x4, 0x0, 0, 1⟩
def TRC_CH.AXIS : Fld := ⟨0x148040, 0x4, 0x0, 4, 3⟩
def TRC_CH.TAPID : Fld := ⟨0x148040, 0x4, 0x0, 8, 4⟩
def TRC_CH.DEC : Fld := ⟨0x148040, 0x4, 0x0, 16, 16⟩
/-! TRC_TRIG -/
def TRC_TRIG.SRC : Fld := ⟨0x148004, 0x0, 0x0, 0, 2⟩
def TRC_TRIG.EDGE : Fld := ⟨0x148004, 0x0, 0x0, 2, 1⟩
def TRC_TRIG.TCH : Fld := ⟨0x148004, 0x0, 0x0, 3, 3⟩
def TRC_TRIG.ARM : Fld := ⟨0x148004, 0x0, 0x0, 6, 1⟩
def TRC_TRIG.FIRE : Fld := ⟨0x148004, 0x0, 0x0, 7, 1⟩
def TRC_TRIG.PRE : Fld := ⟨0x148004, 0x0, 0x0, 8, 12⟩
def TRC_TRIG.POST : Fld := ⟨0x148004, 0x0, 0x0, 20, 12⟩
/-! TRC_LEVEL -/
def TRC_LEVEL.LEVEL : Fld := ⟨0x148008, 0x0, 0x0, 0, 22⟩
/-! TRC_EVSRC -/
def TRC_EVSRC.SOURCE : Fld := ⟨0x14800c, 0x0, 0x0, 0, 13⟩
/-! TRC_STAT -/
def TRC_STAT.ARMED : Fld := ⟨0x148010, 0x0, 0x0, 0, 1⟩
def TRC_STAT.TRIGD : Fld := ⟨0x148010, 0x0, 0x0, 1, 1⟩
def TRC_STAT.DONE : Fld := ⟨0x148010, 0x0, 0x0, 2, 1⟩
def TRC_STAT.DROP : Fld := ⟨0x148010, 0x0, 0x0, 16, 16⟩
/-! TRC_DBASE -/
def TRC_DBASE.BASE : Fld := ⟨0x148018, 0x0, 0x0, 12, 23⟩
/-! TRC_DSIZE -/
def TRC_DSIZE.SIZE : Fld := ⟨0x148020, 0x0, 0x0, 0, 32⟩
/-! TRC_WPTR -/
def TRC_WPTR.PTR : Fld := ⟨0x148024, 0x0, 0x0, 0, 32⟩
/-! TRC_RPTR -/
def TRC_RPTR.PTR : Fld := ⟨0x148028, 0x0, 0x0, 0, 32⟩
/-! FLT_SRCCFG -/
def FLT_SRCCFG.SEV : Fld := ⟨0x30000, 0x8, 0x0, 0, 3⟩
def FLT_SRCCFG.CLASS : Fld := ⟨0x30000, 0x8, 0x0, 3, 1⟩
def FLT_SRCCFG.PIN : Fld := ⟨0x30000, 0x8, 0x0, 4, 1⟩
def FLT_SRCCFG.AREN : Fld := ⟨0x30000, 0x8, 0x0, 5, 1⟩
def FLT_SRCCFG.HART : Fld := ⟨0x30000, 0x8, 0x0, 6, 2⟩
def FLT_SRCCFG.VEC : Fld := ⟨0x30000, 0x8, 0x0, 8, 6⟩
/-! FLT_SRCREC -/
def FLT_SRCREC.QUIET : Fld := ⟨0x30004, 0x8, 0x0, 0, 20⟩
def FLT_SRCREC.LIMIT : Fld := ⟨0x30004, 0x8, 0x0, 20, 8⟩
/-! FLT_SRCSTAT -/
def FLT_SRCSTAT.LIVE : Fld := ⟨0x32000, 0x4, 0x0, 0, 1⟩
def FLT_SRCSTAT.STICKY : Fld := ⟨0x32000, 0x4, 0x0, 1, 1⟩
def FLT_SRCSTAT.STATE : Fld := ⟨0x32000, 0x4, 0x0, 2, 2⟩
def FLT_SRCSTAT.REL : Fld := ⟨0x32000, 0x4, 0x0, 4, 1⟩
def FLT_SRCSTAT.CLR : Fld := ⟨0x32000, 0x4, 0x0, 5, 1⟩
def FLT_SRCSTAT.RCNT : Fld := ⟨0x32000, 0x4, 0x0, 8, 8⟩
def FLT_SRCSTAT.OCC : Fld := ⟨0x32000, 0x4, 0x0, 16, 16⟩
/-! FLT_PEND -/
def FLT_PEND.STICKY : Fld := ⟨0x33000, 0x4, 0x0, 0, 32⟩
/-! FLT_FIRST -/
def FLT_FIRST.SRC : Fld := ⟨0x38000, 0x0, 0x0, 0, 10⟩
def FLT_FIRST.KIND : Fld := ⟨0x38000, 0x0, 0x0, 10, 6⟩
def FLT_FIRST.SEV : Fld := ⟨0x38000, 0x0, 0x0, 16, 3⟩
def FLT_FIRST.VALID : Fld := ⟨0x38000, 0x0, 0x0, 24, 1⟩
/-! FLT_FIRSTCNT -/
def FLT_FIRSTCNT.COUNT : Fld := ⟨0x38004, 0x0, 0x0, 0, 16⟩
/-! FLT_FIRSTPT -/
def FLT_FIRSTPT.PT : Fld := ⟨0x38008, 0x0, 0x0, 0, 64⟩
/-! FLT_PKGFIRST -/
def FLT_PKGFIRST.SRC : Fld := ⟨0x38010, 0x0, 0x0, 0, 13⟩
def FLT_PKGFIRST.KIND : Fld := ⟨0x38010, 0x0, 0x0, 13, 6⟩
def FLT_PKGFIRST.SEV : Fld := ⟨0x38010, 0x0, 0x0, 19, 3⟩
def FLT_PKGFIRST.VALID : Fld := ⟨0x38010, 0x0, 0x0, 24, 1⟩
/-! FLT_PKGFIRSTPT -/
def FLT_PKGFIRSTPT.PT : Fld := ⟨0x38018, 0x0, 0x0, 0, 64⟩
/-! FLT_REACT -/
def FLT_REACT.AXSAFE : Fld := ⟨0x38020, 0x0, 0x0, 0, 8⟩
def FLT_REACT.MAXSAFE : Fld := ⟨0x38020, 0x0, 0x0, 8, 8⟩
def FLT_REACT.DIESAFE : Fld := ⟨0x38020, 0x0, 0x0, 16, 1⟩
def FLT_REACT.MDIESAFE : Fld := ⟨0x38020, 0x0, 0x0, 17, 1⟩
def FLT_REACT.PKGSAFE : Fld := ⟨0x38020, 0x0, 0x0, 18, 1⟩
def FLT_REACT.TAKEREQ : Fld := ⟨0x38020, 0x0, 0x0, 19, 1⟩
def FLT_REACT.FAULTN : Fld := ⟨0x38020, 0x0, 0x0, 24, 1⟩
def FLT_REACT.DRV : Fld := ⟨0x38020, 0x0, 0x0, 25, 1⟩
def FLT_REACT.MREL : Fld := ⟨0x38020, 0x0, 0x0, 26, 1⟩
/-! FLT_AFADDR -/
def FLT_AFADDR.ADDR : Fld := ⟨0x38030, 0x0, 0x0, 0, 32⟩
/-! FLT_AFINFO -/
def FLT_AFINFO.MASTER : Fld := ⟨0x38034, 0x0, 0x0, 0, 4⟩
def FLT_AFINFO.WR : Fld := ⟨0x38034, 0x0, 0x0, 4, 1⟩
def FLT_AFINFO.SIZE : Fld := ⟨0x38034, 0x0, 0x0, 5, 2⟩
def FLT_AFINFO.REASON : Fld := ⟨0x38034, 0x0, 0x0, 8, 4⟩
def FLT_AFINFO.VALID : Fld := ⟨0x38034, 0x0, 0x0, 16, 1⟩
def FLT_AFINFO.MORE : Fld := ⟨0x38034, 0x0, 0x0, 24, 8⟩
/-! FLT_AFPT -/
def FLT_AFPT.PT : Fld := ⟨0x38038, 0x0, 0x0, 0, 64⟩
/-! FLT_INJ -/
def FLT_INJ.CHK : Fld := ⟨0x38040, 0x0, 0x0, 0, 5⟩
def FLT_INJ.MUTE : Fld := ⟨0x38040, 0x0, 0x0, 8, 1⟩
def FLT_INJ.GO : Fld := ⟨0x38040, 0x0, 0x0, 9, 1⟩
def FLT_INJ.N : Fld := ⟨0x38040, 0x0, 0x0, 16, 16⟩
/-! FLT_INJSTAT -/
def FLT_INJSTAT.LEFT : Fld := ⟨0x38044, 0x0, 0x0, 0, 16⟩
def FLT_INJSTAT.BUSY : Fld := ⟨0x38044, 0x0, 0x0, 16, 1⟩
/-! EVT_STAT -/
def EVT_STAT.COUNT : Fld := ⟨0x48000, 0x0, 0x0, 0, 9⟩
def EVT_STAT.OVR : Fld := ⟨0x48000, 0x0, 0x0, 16, 16⟩
/-! EVT_POP -/
def EVT_POP.POP : Fld := ⟨0x48004, 0x0, 0x0, 0, 1⟩
/-! EVT_HEAD -/
def EVT_HEAD.DESC : Fld := ⟨0x48010, 0x0, 0x0, 0, 128⟩
/-! LEDG_BASE -/
def LEDG_BASE.BASE : Fld := ⟨0x48020, 0x0, 0x0, 20, 15⟩
/-! LEDG_SEGS -/
def LEDG_SEGS.SEGS : Fld := ⟨0x48028, 0x0, 0x0, 0, 13⟩
/-! LEDG_CTL -/
def LEDG_CTL.EN : Fld := ⟨0x4802c, 0x0, 0x0, 0, 1⟩
def LEDG_CTL.CLOSE : Fld := ⟨0x4802c, 0x0, 0x0, 1, 1⟩
/-! LEDG_STAT -/
def LEDG_STAT.SEG : Fld := ⟨0x48030, 0x0, 0x0, 0, 12⟩
def LEDG_STAT.BUSY : Fld := ⟨0x48030, 0x0, 0x0, 12, 1⟩
def LEDG_STAT.LOST : Fld := ⟨0x48030, 0x0, 0x0, 16, 16⟩
/-! LEDG_SEQ -/
def LEDG_SEQ.SEQ : Fld := ⟨0x48034, 0x0, 0x0, 0, 32⟩
/-! LEDG_DIGEST -/
def LEDG_DIGEST.DIGEST : Fld := ⟨0x48040, 0x0, 0x0, 0, 256⟩
/-! PAIR_CTRL -/
def PAIR_CTRL.SWINT : Fld := ⟨0xd8000, 0x0, 0x0, 0, 11⟩
def PAIR_CTRL.REFAX : Fld := ⟨0xd8000, 0x0, 0x0, 12, 3⟩
def PAIR_CTRL.SWAPNOW : Fld := ⟨0xd8000, 0x0, 0x0, 16, 1⟩
def PAIR_CTRL.STARTWAIT : Fld := ⟨0xd8000, 0x0, 0x0, 20, 4⟩
/-! PAIR_STAT -/
def PAIR_STAT.ROLE : Fld := ⟨0xd8004, 0x0, 0x0, 0, 3⟩
def PAIR_STAT.READY : Fld := ⟨0xd8004, 0x0, 0x0, 3, 1⟩
def PAIR_STAT.MREADY : Fld := ⟨0xd8004, 0x0, 0x0, 4, 1⟩
def PAIR_STAT.MATEOK : Fld := ⟨0xd8004, 0x0, 0x0, 5, 1⟩
def PAIR_STAT.PATHA : Fld := ⟨0xd8004, 0x0, 0x0, 6, 1⟩
def PAIR_STAT.PATHB : Fld := ⟨0xd8004, 0x0, 0x0, 7, 1⟩
def PAIR_STAT.SEIZING : Fld := ⟨0xd8004, 0x0, 0x0, 8, 1⟩
def PAIR_STAT.SEIZED : Fld := ⟨0xd8004, 0x0, 0x0, 9, 1⟩
def PAIR_STAT.RESYNC : Fld := ⟨0xd8004, 0x0, 0x0, 10, 3⟩
def PAIR_STAT.SWPEND : Fld := ⟨0xd8004, 0x0, 0x0, 13, 1⟩
def PAIR_STAT.LBFAIL : Fld := ⟨0xd8004, 0x0, 0x0, 16, 1⟩
/-! PAIR_HB -/
def PAIR_HB.MISSA : Fld := ⟨0xd8008, 0x0, 0x0, 0, 3⟩
def PAIR_HB.MISSB : Fld := ⟨0xd8008, 0x0, 0x0, 4, 3⟩
def PAIR_HB.LOSTA : Fld := ⟨0xd8008, 0x0, 0x0, 8, 8⟩
def PAIR_HB.LOSTB : Fld := ⟨0xd8008, 0x0, 0x0, 16, 8⟩
def PAIR_HB.CRCERR : Fld := ⟨0xd8008, 0x0, 0x0, 24, 8⟩
/-! PAIR_TOL -/
def PAIR_TOL.TANG : Fld := ⟨0xd800c, 0x0, 0x0, 0, 8⟩
def PAIR_TOL.TDUTY : Fld := ⟨0xd800c, 0x0, 0x0, 8, 8⟩
def PAIR_TOL.TBAND : Fld := ⟨0xd800c, 0x0, 0x0, 16, 8⟩
/-! PAIR_SHADOW -/
def PAIR_SHADOW.TIME : Fld := ⟨0xd8010, 0x0, 0x0, 0, 16⟩
/-! PAIR_CNT -/
def PAIR_CNT.TAKE : Fld := ⟨0xd8014, 0x0, 0x0, 0, 8⟩
def PAIR_CNT.SWAP : Fld := ⟨0xd8014, 0x0, 0x0, 8, 8⟩
def PAIR_CNT.DEFER : Fld := ⟨0xd8014, 0x0, 0x0, 16, 8⟩
def PAIR_CNT.SHMIS : Fld := ⟨0xd8014, 0x0, 0x0, 24, 8⟩
/-! PAIR_LAST -/
def PAIR_LAST.PT : Fld := ⟨0xd8018, 0x0, 0x0, 0, 64⟩
/-! PAIR_NEXT -/
def PAIR_NEXT.PT : Fld := ⟨0xd8020, 0x0, 0x0, 0, 64⟩
/-! CFG_CTRL -/
def CFG_CTRL.SRC : Fld := ⟨0xe8000, 0x0, 0x0, 0, 1⟩
def CFG_CTRL.SKEWACT : Fld := ⟨0xe8000, 0x0, 0x0, 1, 1⟩
/-! CFG_SKEW -/
def CFG_SKEW.SKEW : Fld := ⟨0xe8004, 0x0, 0x0, 0, 14⟩
def CFG_SKEW.REVLEAD : Fld := ⟨0xe8004, 0x0, 0x0, 16, 16⟩
/-! CFG_LIBBASE -/
def CFG_LIBBASE.BASE : Fld := ⟨0xe8008, 0x0, 0x0, 12, 23⟩
/-! CFG_MSET -/
def CFG_MSET.F : Fld := ⟨0xe8010, 0x0, 0x0, 0, 64⟩
/-! CFG_STAGE -/
def CFG_STAGE.GO : Fld := ⟨0xe8018, 0x0, 0x0, 0, 1⟩
def CFG_STAGE.USEMODE : Fld := ⟨0xe8018, 0x0, 0x0, 1, 1⟩
def CFG_STAGE.MODE : Fld := ⟨0xe8018, 0x0, 0x0, 8, 5⟩
/-! CFG_EPOCHT -/
def CFG_EPOCHT.T : Fld := ⟨0xe8020, 0x0, 0x0, 0, 64⟩
/-! CFG_COMMIT -/
def CFG_COMMIT.COMMIT : Fld := ⟨0xe8028, 0x0, 0x0, 0, 1⟩
def CFG_COMMIT.ABORT : Fld := ⟨0xe8028, 0x0, 0x0, 1, 1⟩
def CFG_COMMIT.FABRIC : Fld := ⟨0xe8028, 0x0, 0x0, 2, 1⟩
def CFG_COMMIT.DIES : Fld := ⟨0xe8028, 0x0, 0x0, 8, 8⟩
/-! CFG_STAT -/
def CFG_STAT.STATE : Fld := ⟨0xe802c, 0x0, 0x0, 0, 3⟩
def CFG_STAT.LATE : Fld := ⟨0xe802c, 0x0, 0x0, 3, 1⟩
def CFG_STAT.ERR : Fld := ⟨0xe802c, 0x0, 0x0, 4, 4⟩
def CFG_STAT.FOLIO : Fld := ⟨0xe802c, 0x0, 0x0, 8, 3⟩
def CFG_STAT.ID : Fld := ⟨0xe802c, 0x0, 0x0, 16, 16⟩
/-! CFG_APPLY -/
def CFG_APPLY.AXDONE : Fld := ⟨0xe8030, 0x0, 0x0, 0, 8⟩
def CFG_APPLY.REFUSED : Fld := ⟨0xe8030, 0x0, 0x0, 8, 16⟩
/-! CFG_STAGEPT -/
def CFG_STAGEPT.PT : Fld := ⟨0xe8038, 0x0, 0x0, 0, 64⟩
/-! CFG_CUR -/
def CFG_CUR.F : Fld := ⟨0xe8040, 0x0, 0x0, 0, 64⟩
/-! HIF_RBASE -/
def HIF_RBASE.BASE : Fld := ⟨0xf0000, 0x40, 0x0, 12, 52⟩
/-! HIF_RSHAD -/
def HIF_RSHAD.ADDR : Fld := ⟨0xf0008, 0x40, 0x0, 3, 61⟩
/-! HIF_RCFG -/
def HIF_RCFG.EN : Fld := ⟨0xf0010, 0x40, 0x0, 0, 1⟩
def HIF_RCFG.TYPE : Fld := ⟨0xf0010, 0x40, 0x0, 1, 3⟩
def HIF_RCFG.SIZE : Fld := ⟨0xf0010, 0x40, 0x0, 4, 4⟩
def HIF_RCFG.MODE : Fld := ⟨0xf0010, 0x40, 0x0, 8, 1⟩
def HIF_RCFG.FWDIE : Fld := ⟨0xf0010, 0x40, 0x0, 9, 3⟩
def HIF_RCFG.CPLR : Fld := ⟨0xf0010, 0x40, 0x0, 12, 6⟩
def HIF_RCFG.VEC : Fld := ⟨0xf0010, 0x40, 0x0, 18, 6⟩
def HIF_RCFG.IRQ : Fld := ⟨0xf0010, 0x40, 0x0, 24, 1⟩
/-! HIF_RPARM -/
def HIF_RPARM.PARM : Fld := ⟨0xf0014, 0x40, 0x0, 0, 16⟩
def HIF_RPARM.QSIZE : Fld := ⟨0xf0014, 0x40, 0x0, 16, 7⟩
/-! HIF_RAXMASK -/
def HIF_RAXMASK.MASK : Fld := ⟨0xf0018, 0x40, 0x0, 0, 32⟩
/-! HIF_RMOD -/
def HIF_RMOD.CNT : Fld := ⟨0xf001c, 0x40, 0x0, 0, 8⟩
def HIF_RMOD.TIME : Fld := ⟨0xf001c, 0x40, 0x0, 8, 16⟩
/-! HIF_RSTAT -/
def HIF_RSTAT.STATE : Fld := ⟨0xf0020, 0x40, 0x0, 0, 2⟩
def HIF_RSTAT.ERR : Fld := ⟨0xf0020, 0x40, 0x0, 4, 4⟩
def HIF_RSTAT.DROP : Fld := ⟨0xf0020, 0x40, 0x0, 16, 16⟩
/-! HIF_RIDX -/
def HIF_RIDX.HOST : Fld := ⟨0xf0024, 0x40, 0x0, 0, 16⟩
def HIF_RIDX.DEV : Fld := ⟨0xf0024, 0x40, 0x0, 16, 16⟩
/-! HIF_ID -/
def HIF_ID.BONDED : Fld := ⟨0xf8000, 0x0, 0x0, 0, 1⟩
def HIF_ID.ENABLED : Fld := ⟨0xf8000, 0x0, 0x0, 1, 1⟩
def HIF_ID.LINKUP : Fld := ⟨0xf8000, 0x0, 0x0, 2, 1⟩
def HIF_ID.D3 : Fld := ⟨0xf8000, 0x0, 0x0, 3, 1⟩
def HIF_ID.GEN : Fld := ⟨0xf8000, 0x0, 0x0, 4, 2⟩
def HIF_ID.MSIX : Fld := ⟨0xf8000, 0x0, 0x0, 6, 1⟩
def HIF_ID.WIDTH : Fld := ⟨0xf8000, 0x0, 0x0, 8, 4⟩
/-! HIF_LINKCNT -/
def HIF_LINKCNT.DOWN : Fld := ⟨0xf8004, 0x0, 0x0, 0, 8⟩
def HIF_LINKCNT.PERST : Fld := ⟨0xf8004, 0x0, 0x0, 8, 8⟩
def HIF_LINKCNT.FLR : Fld := ⟨0xf8004, 0x0, 0x0, 16, 8⟩
/-! HIF_QUSE -/
def HIF_QUSE.ALLOC : Fld := ⟨0xf8008, 0x0, 0x0, 0, 6⟩
def HIF_QUSE.PEAK : Fld := ⟨0xf8008, 0x0, 0x0, 16, 6⟩
/-! HIF_FWCMD -/
def HIF_FWCMD.DESC : Fld := ⟨0xf8100, 0x0, 0x0, 0, 256⟩
/-! HIF_FWCPL -/
def HIF_FWCPL.CPL : Fld := ⟨0xf8140, 0x0, 0x0, 0, 256⟩
/-! HIF_FWCTL -/
def HIF_FWCTL.RING : Fld := ⟨0xf8180, 0x0, 0x0, 0, 6⟩
def HIF_FWCTL.FUNC : Fld := ⟨0xf8180, 0x0, 0x0, 6, 1⟩
def HIF_FWCTL.POP : Fld := ⟨0xf8180, 0x0, 0x0, 8, 1⟩
def HIF_FWCTL.POST : Fld := ⟨0xf8180, 0x0, 0x0, 9, 1⟩
def HIF_FWCTL.COUNT : Fld := ⟨0xf8180, 0x0, 0x0, 16, 11⟩
/-! TRM_CTRL -/
def TRM_CTRL.GENMAX : Fld := ⟨0x108000, 0x0, 0x0, 0, 1⟩
def TRM_CTRL.TFOLLOW : Fld := ⟨0x108000, 0x0, 0x0, 1, 1⟩
def TRM_CTRL.RREN : Fld := ⟨0x108000, 0x0, 0x0, 2, 1⟩
def TRM_CTRL.RWEN : Fld := ⟨0x108000, 0x0, 0x0, 3, 1⟩
def TRM_CTRL.HOPMAX : Fld := ⟨0x108000, 0x0, 0x0, 8, 5⟩
def TRM_CTRL.PRIO : Fld := ⟨0x108000, 0x0, 0x0, 16, 8⟩
/-! TRM_IDSTAT -/
def TRM_IDSTAT.PKGID : Fld := ⟨0x108004, 0x0, 0x0, 0, 12⟩
def TRM_IDSTAT.AUTO : Fld := ⟨0x108004, 0x0, 0x0, 12, 1⟩
def TRM_IDSTAT.DUP : Fld := ⟨0x108004, 0x0, 0x0, 13, 1⟩
def TRM_IDSTAT.KNOWN : Fld := ⟨0x108004, 0x0, 0x0, 16, 13⟩
/-! TRM_PORT -/
def TRM_PORT.STATE : Fld := ⟨0x108008, 0x0, 0x0, 0, 2⟩
def TRM_PORT.GEN : Fld := ⟨0x108008, 0x0, 0x0, 2, 1⟩
def TRM_PORT.X1 : Fld := ⟨0x108008, 0x0, 0x0, 3, 1⟩
def TRM_PORT.FWDB : Fld := ⟨0x108008, 0x0, 0x0, 4, 1⟩
def TRM_PORT.PEER : Fld := ⟨0x108008, 0x0, 0x0, 16, 16⟩
/-! TRM_PERR -/
def TRM_PERR.BAD : Fld := ⟨0x10800c, 0x0, 0x0, 0, 16⟩
def TRM_PERR.DROP : Fld := ⟨0x10800c, 0x0, 0x0, 16, 16⟩
/-! TRM_LINKDLY -/
def TRM_LINKDLY.DLY : Fld := ⟨0x108010, 0x0, 0x0, 0, 32⟩
/-! TRM_TSTAT -/
def TRM_TSTAT.GMID : Fld := ⟨0x108014, 0x0, 0x0, 0, 12⟩
def TRM_TSTAT.HOPS : Fld := ⟨0x108014, 0x0, 0x0, 12, 5⟩
def TRM_TSTAT.UPDIE : Fld := ⟨0x108014, 0x0, 0x0, 17, 3⟩
def TRM_TSTAT.GMVALID : Fld := ⟨0x108014, 0x0, 0x0, 20, 1⟩
/-! TRM_TOFS -/
def TRM_TOFS.OFS : Fld := ⟨0x108018, 0x0, 0x0, 0, 32⟩
/-! TRM_EVDST -/
def TRM_EVDST.NODE : Fld := ⟨0x108020, 0x0, 0x0, 0, 15⟩
def TRM_EVDST.EN : Fld := ⟨0x108020, 0x0, 0x0, 15, 1⟩
def TRM_EVDST.SEVMIN : Fld := ⟨0x108020, 0x0, 0x0, 16, 3⟩
/-! TRM_ATXCFG -/
def TRM_ATXCFG.EN : Fld := ⟨0x108100, 0x10, 0x0, 0, 1⟩
def TRM_ATXCFG.BCAST : Fld := ⟨0x108100, 0x10, 0x0, 1, 1⟩
def TRM_ATXCFG.MECH : Fld := ⟨0x108100, 0x10, 0x0, 2, 1⟩
def TRM_ATXCFG.AXIS : Fld := ⟨0x108100, 0x10, 0x0, 4, 3⟩
def TRM_ATXCFG.CH : Fld := ⟨0x108100, 0x10, 0x0, 8, 6⟩
def TRM_ATXCFG.DIV : Fld := ⟨0x108100, 0x10, 0x0, 16, 16⟩
/-! TRM_ATXDST -/
def TRM_ATXDST.NODE : Fld := ⟨0x108104, 0x10, 0x0, 0, 15⟩
/-! TRM_ATXLAT -/
def TRM_ATXLAT.TLAT : Fld := ⟨0x108108, 0x10, 0x0, 0, 22⟩
/-! TRM_TXBUF -/
def TRM_TXBUF.DATA : Fld := ⟨0x108800, 0x4, 0x0, 0, 32⟩
/-! TRM_RXBUF -/
def TRM_RXBUF.DATA : Fld := ⟨0x108900, 0x4, 0x0, 0, 32⟩
/-! TRM_EVBUF -/
def TRM_EVBUF.DATA : Fld := ⟨0x108a00, 0x4, 0x0, 0, 32⟩
/-! TRM_ARXMASK -/
def TRM_ARXMASK.MASK : Fld := ⟨0x108180, 0x0, 0x0, 0, 64⟩
/-! TRM_ARXVALID -/
def TRM_ARXVALID.VALID : Fld := ⟨0x108188, 0x0, 0x0, 0, 64⟩
/-! TRM_ARXCFG -/
def TRM_ARXCFG.TOUT : Fld := ⟨0x108190, 0x0, 0x0, 0, 16⟩
/-! TRM_ASTAT -/
def TRM_ASTAT.LATE : Fld := ⟨0x108194, 0x0, 0x0, 0, 16⟩
def TRM_ASTAT.LOST : Fld := ⟨0x108194, 0x0, 0x0, 16, 16⟩
/-! TRM_MBOX -/
def TRM_MBOX.SEND : Fld := ⟨0x108300, 0x0, 0x0, 0, 1⟩
def TRM_MBOX.BUSY : Fld := ⟨0x108300, 0x0, 0x0, 1, 1⟩
def TRM_MBOX.POP : Fld := ⟨0x108300, 0x0, 0x0, 2, 1⟩
def TRM_MBOX.EPOP : Fld := ⟨0x108300, 0x0, 0x0, 3, 1⟩
def TRM_MBOX.RXCNT : Fld := ⟨0x108300, 0x0, 0x0, 8, 5⟩
def TRM_MBOX.EVCNT : Fld := ⟨0x108300, 0x0, 0x0, 16, 5⟩
/-! TRM_CAT -/
def TRM_CAT.VALID : Fld := ⟨0x109000, 0x8, 0x0, 0, 1⟩
def TRM_CAT.ACT : Fld := ⟨0x109000, 0x8, 0x0, 1, 2⟩
def TRM_CAT.TDIE : Fld := ⟨0x109000, 0x8, 0x0, 4, 3⟩
def TRM_CAT.EPOCH : Fld := ⟨0x109000, 0x8, 0x0, 7, 1⟩
def TRM_CAT.ID : Fld := ⟨0x109000, 0x8, 0x0, 8, 12⟩
def TRM_CAT.MASK : Fld := ⟨0x109000, 0x8, 0x0, 20, 12⟩
/-! MEM_CTRL -/
def MEM_CTRL.EN : Fld := ⟨0x118000, 0x0, 0x0, 0, 1⟩
def MEM_CTRL.MIRROR : Fld := ⟨0x118000, 0x0, 0x0, 1, 1⟩
def MEM_CTRL.BIN : Fld := ⟨0x118000, 0x0, 0x0, 4, 2⟩
/-! MEM_STAT -/
def MEM_STAT.UP : Fld := ⟨0x118004, 0x0, 0x0, 0, 1⟩
def MEM_STAT.MSYNC : Fld := ⟨0x118004, 0x0, 0x0, 1, 1⟩
def MEM_STAT.SRVOK : Fld := ⟨0x118004, 0x0, 0x0, 2, 1⟩
def MEM_STAT.SRVD : Fld := ⟨0x118004, 0x0, 0x0, 4, 3⟩
def MEM_STAT.SIZE : Fld := ⟨0x118004, 0x0, 0x0, 8, 8⟩
/-! MEM_ECC -/
def MEM_ECC.COR : Fld := ⟨0x118008, 0x0, 0x0, 0, 16⟩
def MEM_ECC.UNC : Fld := ⟨0x118008, 0x0, 0x0, 16, 16⟩
/-! MEM_ECCADDR -/
def MEM_ECCADDR.ADDR : Fld := ⟨0x118010, 0x0, 0x0, 0, 35⟩
/-! MEM_STGBASE -/
def MEM_STGBASE.BASE : Fld := ⟨0x118018, 0x0, 0x0, 12, 23⟩
/-! MEM_STGSIZE -/
def MEM_STGSIZE.SIZE : Fld := ⟨0x118020, 0x0, 0x0, 0, 32⟩
/-! STK_CTRL -/
def STK_CTRL.EN : Fld := ⟨0x118040, 0x0, 0x0, 0, 1⟩
def STK_CTRL.SMIRROR : Fld := ⟨0x118040, 0x0, 0x0, 1, 1⟩
/-! STK_STAT -/
def STK_STAT.RDY : Fld := ⟨0x118044, 0x0, 0x0, 0, 1⟩
def STK_STAT.SRVOK : Fld := ⟨0x118044, 0x0, 0x0, 1, 1⟩
def STK_STAT.IDX : Fld := ⟨0x118044, 0x0, 0x0, 2, 2⟩
def STK_STAT.SRVD : Fld := ⟨0x118044, 0x0, 0x0, 4, 3⟩
def STK_STAT.SHORT : Fld := ⟨0x118044, 0x0, 0x0, 7, 1⟩
def STK_STAT.GEN : Fld := ⟨0x118044, 0x0, 0x0, 8, 2⟩
def STK_STAT.WIDTH : Fld := ⟨0x118044, 0x0, 0x0, 10, 3⟩
/-! STK_NS -/
def STK_NS.SIZE : Fld := ⟨0x118080, 0x8, 0x0, 0, 23⟩
def STK_NS.MODE : Fld := ⟨0x118080, 0x8, 0x0, 24, 1⟩
def STK_NS.VALID : Fld := ⟨0x118080, 0x8, 0x0, 32, 1⟩
def STK_NS.FULL : Fld := ⟨0x118080, 0x8, 0x0, 33, 1⟩
def STK_NS.WIN : Fld := ⟨0x118080, 0x8, 0x0, 40, 7⟩
/-! STK_STREAM -/
def STK_STREAM.EN : Fld := ⟨0x1180c0, 0x4, 0x0, 0, 1⟩
def STK_STREAM.NS : Fld := ⟨0x1180c0, 0x4, 0x0, 4, 2⟩
/-! STK_SLOTMASK -/
def STK_SLOTMASK.MASK : Fld := ⟨0x1180d0, 0x0, 0x0, 0, 64⟩
/-! STK_SLOTCFG -/
def STK_SLOTCFG.APER : Fld := ⟨0x1180d8, 0x0, 0x0, 0, 16⟩
def STK_SLOTCFG.ASHIFT : Fld := ⟨0x1180d8, 0x0, 0x0, 16, 4⟩
/-! STK_TRIG -/
def STK_TRIG.EVSRC : Fld := ⟨0x1180e0, 0x0, 0x0, 0, 13⟩
def STK_TRIG.EN : Fld := ⟨0x1180e0, 0x0, 0x0, 13, 1⟩
def STK_TRIG.NS : Fld := ⟨0x1180e0, 0x0, 0x0, 14, 2⟩
/-! STK_TWIN -/
def STK_TWIN.PRE : Fld := ⟨0x1180e4, 0x0, 0x0, 0, 16⟩
def STK_TWIN.POST : Fld := ⟨0x1180e4, 0x0, 0x0, 16, 16⟩
/-! STK_CNT -/
def STK_CNT.DROP : Fld := ⟨0x1180f0, 0x0, 0x0, 0, 16⟩
def STK_CNT.CRC : Fld := ⟨0x1180f0, 0x0, 0x0, 16, 16⟩
/-! PWR_STAT -/
def PWR_STAT.WARN : Fld := ⟨0x28000, 0x0, 0x0, 0, 8⟩
def PWR_STAT.HIGH : Fld := ⟨0x28000, 0x0, 0x0, 8, 8⟩
def PWR_STAT.DIP : Fld := ⟨0x28000, 0x0, 0x0, 16, 1⟩
def PWR_STAT.FLSUSP : Fld := ⟨0x28000, 0x0, 0x0, 17, 1⟩
/-! PWR_BROWN -/
def PWR_BROWN.COUNT : Fld := ⟨0x28004, 0x0, 0x0, 0, 16⟩
def PWR_BROWN.RAIL : Fld := ⟨0x28004, 0x0, 0x0, 16, 3⟩
/-! PWR_LASTDIP -/
def PWR_LASTDIP.PT : Fld := ⟨0x28008, 0x0, 0x0, 0, 64⟩
/-! PWR_RAIL -/
def PWR_RAIL.MV : Fld := ⟨0x28010, 0x4, 0x0, 0, 16⟩
def PWR_RAIL.MIN : Fld := ⟨0x28010, 0x4, 0x0, 16, 16⟩
/-! PWR_TEMP -/
def PWR_TEMP.TJ : Fld := ⟨0x28030, 0x0, 0x0, 0, 16⟩
def PWR_TEMP.TMAX : Fld := ⟨0x28030, 0x0, 0x0, 16, 15⟩
def PWR_TEMP.FAULT : Fld := ⟨0x28030, 0x0, 0x0, 31, 1⟩
/-! PWR_TLIM -/
def PWR_TLIM.TWARN : Fld := ⟨0x28034, 0x0, 0x0, 0, 8⟩
def PWR_TLIM.TLIM : Fld := ⟨0x28034, 0x0, 0x0, 8, 8⟩
def PWR_TLIM.TSPAN : Fld := ⟨0x28034, 0x0, 0x0, 16, 8⟩
/-! PWR_PMEAS -/
def PWR_PMEAS.P : Fld := ⟨0x28038, 0x0, 0x0, 0, 16⟩
def PWR_PMEAS.PMAX : Fld := ⟨0x28038, 0x0, 0x0, 16, 16⟩
/-! PWR_BUDGET -/
def PWR_BUDGET.SHARE : Fld := ⟨0x28040, 0x0, 0x0, 0, 16⟩
def PWR_BUDGET.DIEMAX : Fld := ⟨0x28040, 0x0, 0x0, 16, 16⟩
/-! PWR_PKGBUD -/
def PWR_PKGBUD.PKG : Fld := ⟨0x28044, 0x0, 0x0, 0, 17⟩
/-! PWR_TOKEN -/
def PWR_TOKEN.TOK : Fld := ⟨0x28048, 0x0, 0x0, 0, 16⟩
def PWR_TOKEN.CAP : Fld := ⟨0x28048, 0x0, 0x0, 16, 16⟩
/-! PWR_LVLF -/
def PWR_LVLF.FOFF : Fld := ⟨0x2804c, 0x0, 0x0, 0, 16⟩
def PWR_LVLF.FON : Fld := ⟨0x2804c, 0x0, 0x0, 16, 16⟩
/-! PWR_LVLD -/
def PWR_LVLD.DOFF : Fld := ⟨0x28050, 0x0, 0x0, 0, 16⟩
def PWR_LVLD.DON : Fld := ⟨0x28050, 0x0, 0x0, 16, 16⟩
/-! PWR_ADMIT -/
def PWR_ADMIT.FIRM : Fld := ⟨0x28058, 0x0, 0x0, 0, 1⟩
def PWR_ADMIT.DEFER : Fld := ⟨0x28058, 0x0, 0x0, 1, 1⟩
def PWR_ADMIT.HOLDF : Fld := ⟨0x28058, 0x0, 0x0, 8, 1⟩
def PWR_ADMIT.HOLDD : Fld := ⟨0x28058, 0x0, 0x0, 9, 1⟩
def PWR_ADMIT.CHG : Fld := ⟨0x28058, 0x0, 0x0, 16, 1⟩
/-! PWR_SHEDCNT -/
def PWR_SHEDCNT.FIRM : Fld := ⟨0x2805c, 0x0, 0x0, 0, 16⟩
def PWR_SHEDCNT.DEFER : Fld := ⟨0x2805c, 0x0, 0x0, 16, 16⟩
/-! NVF_CMD -/
def NVF_CMD.OP : Fld := ⟨0x128000, 0x0, 0x0, 0, 4⟩
def NVF_CMD.AREA : Fld := ⟨0x128000, 0x0, 0x0, 4, 2⟩
/-! NVF_ADDR -/
def NVF_ADDR.ADDR : Fld := ⟨0x128004, 0x0, 0x0, 0, 24⟩
/-! NVF_DATA -/
def NVF_DATA.DATA : Fld := ⟨0x128008, 0x4, 0x0, 0, 32⟩
/-! NVF_STAT -/
def NVF_STAT.BUSY : Fld := ⟨0x128018, 0x0, 0x0, 0, 1⟩
def NVF_STAT.DONE : Fld := ⟨0x128018, 0x0, 0x0, 1, 1⟩
def NVF_STAT.SUSP : Fld := ⟨0x128018, 0x0, 0x0, 2, 1⟩
def NVF_STAT.WAIT : Fld := ⟨0x128018, 0x0, 0x0, 3, 1⟩
def NVF_STAT.ERR : Fld := ⟨0x128018, 0x0, 0x0, 4, 4⟩
def NVF_STAT.BLANK : Fld := ⟨0x128018, 0x0, 0x0, 8, 1⟩
def NVF_STAT.LASTOP : Fld := ⟨0x128018, 0x0, 0x0, 16, 4⟩
/-! NVF_PROT -/
def NVF_PROT.REGEN : Fld := ⟨0x12801c, 0x0, 0x0, 0, 16⟩
def NVF_PROT.OPTWP : Fld := ⟨0x12801c, 0x0, 0x0, 16, 1⟩
def NVF_PROT.UNLOCKED : Fld := ⟨0x12801c, 0x0, 0x0, 17, 1⟩
def NVF_PROT.NOPW : Fld := ⟨0x12801c, 0x0, 0x0, 18, 1⟩
def NVF_PROT.LOCKOUT : Fld := ⟨0x12801c, 0x0, 0x0, 19, 1⟩
def NVF_PROT.FAILS : Fld := ⟨0x12801c, 0x0, 0x0, 20, 4⟩
/-! NVF_KEY -/
def NVF_KEY.KEY : Fld := ⟨0x128020, 0x4, 0x0, 0, 32⟩
/-! NVF_ERRADDR -/
def NVF_ERRADDR.ADDR : Fld := ⟨0x128030, 0x0, 0x0, 0, 24⟩
/-! NVF_INTC -/
def NVF_INTC.INT : Fld := ⟨0x128040, 0x4, 0x0, 0, 32⟩
/-! NVF_INTD -/
def NVF_INTD.INT : Fld := ⟨0x128060, 0x4, 0x0, 0, 32⟩
/-! NVF_OPT -/
def NVF_OPT.COPY : Fld := ⟨0x128080, 0x0, 0x0, 0, 1⟩
def NVF_OPT.VALIDA : Fld := ⟨0x128080, 0x0, 0x0, 1, 1⟩
def NVF_OPT.VALIDB : Fld := ⟨0x128080, 0x0, 0x0, 2, 1⟩
def NVF_OPT.INTA : Fld := ⟨0x128080, 0x0, 0x0, 3, 1⟩
def NVF_OPT.INTB : Fld := ⟨0x128080, 0x0, 0x0, 4, 1⟩
/-! NVF_DSEL -/
def NVF_DSEL.SECTOR : Fld := ⟨0x128084, 0x0, 0x0, 0, 8⟩
/-! NVF_ECC -/
def NVF_ECC.COR : Fld := ⟨0x128088, 0x0, 0x0, 0, 16⟩
def NVF_ECC.UNC : Fld := ⟨0x128088, 0x0, 0x0, 16, 16⟩
/-! NVF_MARK -/
def NVF_MARK.INTENT : Fld := ⟨0x128090, 0x0, 0x0, 0, 128⟩
def NVF_MARK.DONE : Fld := ⟨0x128090, 0x0, 0x0, 128, 128⟩
/-! MSR_VALID -/
def MSR_VALID.VALID : Fld := ⟨0x138000, 0x0, 0x0, 0, 8⟩
def MSR_VALID.LOCK : Fld := ⟨0x138000, 0x0, 0x0, 8, 2⟩
def MSR_VALID.DONE : Fld := ⟨0x138000, 0x0, 0x0, 10, 1⟩
/-! MSR_EXTDATA -/
def MSR_EXTDATA.DATA : Fld := ⟨0x138040, 0x0, 0x0, 0, 384⟩
/-! MSR_EXT -/
def MSR_EXT.GO : Fld := ⟨0x138070, 0x0, 0x0, 0, 1⟩
def MSR_EXT.SLOT : Fld := ⟨0x138070, 0x0, 0x0, 1, 1⟩
def MSR_EXT.LOCK : Fld := ⟨0x138070, 0x0, 0x0, 2, 1⟩
/-! MSR_NONCE -/
def MSR_NONCE.NONCE : Fld := ⟨0x138080, 0x0, 0x0, 0, 256⟩
/-! MSR_CREQ -/
def MSR_CREQ.GO : Fld := ⟨0x1380a0, 0x0, 0x0, 0, 1⟩
/-! MSR_CSTAT -/
def MSR_CSTAT.BUSY : Fld := ⟨0x1380a4, 0x0, 0x0, 0, 1⟩
def MSR_CSTAT.DONE : Fld := ⟨0x1380a4, 0x0, 0x0, 1, 1⟩
def MSR_CSTAT.LEN : Fld := ⟨0x1380a4, 0x0, 0x0, 16, 16⟩
/-! MSR_SLOT -/
def MSR_SLOT.DIGEST : Fld := ⟨0x138100, 0x30, 0x0, 0, 384⟩

end Sys2Proof.Machine
end

