-- ==== Sys2Proof/Machine/RegMap.lean ====
section
/-!
DEFINITION. The register map of the die window (R481): one row per register with its place, its words, its reset value
and the bits a plain write sets or clears (R8). Values that depend on the member, the option area or the source number
are given by `rstWord` or written by the step that fixes them.
-/

namespace Sys2Proof.Machine

/-- One register (or one family of registers at two strides): offset, first stride and count, second stride and count,
number of 32-bit words, reset value of each word, what the reset value of word 0 grows by with the first index, and for
each word the bits with access rw, with access w1c and with access ws or wo (R8). -/
structure Row where
  off : Nat
  ax : Nat
  nax : Nat
  ix : Nat
  nix : Nat
  words : Nat
  rst : List Nat
  axk : Nat
  rw : List Nat
  w1c : List Nat
  act : List Nat
  deriving DecidableEq, Repr

/-- Registers of block GLB. -/
def rowsGlb : List Row := [
  ⟨0x8000, 0x0, 1, 0x0, 1, 1, [0x47c12100], 0x0, [0], [0], [0]⟩,
  ⟨0x8004, 0x0, 1, 0x0, 1, 1, [0x1], 0x0, [0], [0x7f], [0]⟩,
  ⟨0x8008, 0x0, 1, 0x0, 1, 1, [0], 0x0, [0], [0], [0xff03]⟩,
  ⟨0x800c, 0x0, 1, 0x0, 1, 1, [0], 0x0, [0], [0], [0]⟩,
  ⟨0x8010, 0x0, 1, 0x0, 1, 1, [0], 0x0, [0x1ffff], [0], [0xff000000]⟩]

/-- Registers of block CLK. -/
def rowsClk : List Row := [
  ⟨0x18000, 0x0, 1, 0x0, 1, 1, [0], 0x0, [0], [0], [0]⟩,
  ⟨0x18008, 0x0, 1, 0x0, 1, 2, [0, 0], 0x0, [0, 0], [0, 0], [0, 0]⟩,
  ⟨0x18010, 0x0, 1, 0x0, 1, 2, [0, 0], 0x0, [0xffffffff, 0xffffffff], [0, 0], [0, 0]⟩,
  ⟨0x18018, 0x0, 1, 0x0, 1, 1, [0], 0x0, [0xffff], [0x60000], [0x10000]⟩,
  ⟨0x18020, 0x0, 1, 0x0, 1, 1, [0], 0x0, [0], [0], [0]⟩,
  ⟨0x18028, 0x0, 1, 0x0, 1, 2, [0, 0], 0x0, [0, 0], [0, 0], [0, 0]⟩]

/-- Registers of block PWR. -/
def rowsPwr : List Row := [
  ⟨0x28000, 0x0, 1, 0x0, 1, 1, [0], 0x0, [0], [0], [0]⟩,
  ⟨0x28004, 0x0, 1, 0x0, 1, 1, [0], 0x0, [0], [0], [0]⟩,
  ⟨0x28008, 0x0, 1, 0x0, 1, 2, [0, 0], 0x0, [0, 0], [0, 0], [0, 0]⟩,
  ⟨0x28010, 0x4, 8, 0x0, 1, 1, [0], 0x0, [0], [0], [0]⟩,
  ⟨0x28030, 0x0, 1, 0x0, 1, 1, [0], 0x0, [0], [0], [0]⟩,
  ⟨0x28034, 0x0, 1, 0x0, 1, 1, [0x146e69], 0x0, [0xffffff], [0], [0]⟩,
  ⟨0x28038, 0x0, 1, 0x0, 1, 1, [0], 0x0, [0], [0], [0]⟩,
  ⟨0x28040, 0x0, 1, 0x0, 1, 1, [0x23280000], 0x0, [0xffff0000], [0], [0]⟩,
  ⟨0x28044, 0x0, 1, 0x0, 1, 1, [0], 0x0, [0x1ffff], [0], [0]⟩,
  ⟨0x28048, 0x0, 1, 0x0, 1, 1, [0x27102710], 0x0, [0xffff0000], [0], [0]⟩,
  ⟨0x2804c, 0x0, 1, 0x0, 1, 1, [0x7d003e8], 0x0, [0xffffffff], [0], [0]⟩,
  ⟨0x28050, 0x0, 1, 0x0, 1, 1, [0xfa007d0], 0x0, [0xffffffff], [0], [0]⟩,
  ⟨0x28058, 0x0, 1, 0x0, 1, 1, [0x3], 0x0, [0x300], [0], [0]⟩,
  ⟨0x2805c, 0x0, 1, 0x0, 1, 1, [0], 0x0, [0], [0], [0]⟩]

/-- Registers of block FLT. -/
def rowsFlt : List Row := [
  ⟨0x30000, 0x8, 1024, 0x0, 1, 1, [0x40], 0x0, [0x3fff], [0], [0]⟩,
  ⟨0x30004, 0x8, 1024, 0x0, 1, 1, [0x302710], 0x0, [0xfffffff], [0], [0]⟩,
  ⟨0x32000, 0x4, 1024, 0x0, 1, 1, [0], 0x0, [0], [0x2], [0x30]⟩,
  ⟨0x33000, 0x4, 32, 0x0, 1, 1, [0], 0x0, [0], [0], [0]⟩,
  ⟨0x38000, 0x0, 1, 0x0, 1, 1, [0], 0x0, [0], [0], [0]⟩,
  ⟨0x38004, 0x0, 1, 0x0, 1, 1, [0], 0x0, [0], [0], [0]⟩,
  ⟨0x38008, 0x0, 1, 0x0, 1, 2, [0, 0], 0x0, [0, 0], [0, 0], [0, 0]⟩,
  ⟨0x38010, 0x0, 1, 0x0, 1, 1, [0], 0x0, [0], [0], [0]⟩,
  ⟨0x38018, 0x0, 1, 0x0, 1, 2, [0, 0], 0x0, [0, 0], [0, 0], [0, 0]⟩,
  ⟨0x38020, 0x0, 1, 0x0, 1, 1, [0], 0x0, [0], [0], [0x4000000]⟩,
  ⟨0x38030, 0x0, 1, 0x0, 1, 1, [0], 0x0, [0], [0], [0]⟩,
  ⟨0x38034, 0x0, 1, 0x0, 1, 1, [0], 0x0, [0], [0], [0]⟩,
  ⟨0x38038, 0x0, 1, 0x0, 1, 2, [0, 0], 0x0, [0, 0], [0, 0], [0, 0]⟩,
  ⟨0x38040, 0x0, 1, 0x0, 1, 1, [0x10100], 0x0, [0xffff011f], [0], [0x200]⟩,
  ⟨0x38044, 0x0, 1, 0x0, 1, 1, [0], 0x0, [0], [0], [0]⟩]

/-- Registers of block EVT. -/
def rowsEvt : List Row := [
  ⟨0x48000, 0x0, 1, 0x0, 1, 1, [0], 0x0, [0], [0], [0]⟩,
  ⟨0x48004, 0x0, 1, 0x0, 1, 1, [0], 0x0, [0], [0], [0x1]⟩,
  ⟨0x48010, 0x0, 1, 0x0, 1, 4, [0, 0, 0, 0], 0x0, [0, 0, 0, 0], [0, 0, 0, 0], [0, 0, 0, 0]⟩,
  ⟨0x48020, 0x0, 1, 0x0, 1, 2, [0, 0], 0x0, [0xfff00000, 0x7], [0, 0], [0, 0]⟩,
  ⟨0x48028, 0x0, 1, 0x0, 1, 1, [0x40], 0x0, [0x1fff], [0], [0]⟩,
  ⟨0x4802c, 0x0, 1, 0x0, 1, 1, [0], 0x0, [0x1], [0], [0x2]⟩,
  ⟨0x48030, 0x0, 1, 0x0, 1, 1, [0], 0x0, [0], [0], [0]⟩,
  ⟨0x48034, 0x0, 1, 0x0, 1, 1, [0], 0x0, [0], [0], [0]⟩,
  ⟨0x48040, 0x0, 1, 0x0, 1, 8, [0, 0, 0, 0, 0, 0, 0, 0], 0x0, [0, 0, 0, 0, 0, 0, 0, 0], [0, 0, 0, 0, 0, 0, 0, 0], [0, 0, 0, 0, 0, 0, 0, 0]⟩]

/-- Registers of block EXC. -/
def rowsExc : List Row := [
  ⟨0x50000, 0x1000, 8, 0x0, 1, 1, [0x100], 0x100010, [0x373], [0x2000000], [0]⟩,
  ⟨0x50004, 0x1000, 8, 0x0, 1, 1, [0x418937], 0x0, [0xffffffff], [0], [0]⟩,
  ⟨0x50008, 0x1000, 8, 0x0, 1, 1, [0x4000], 0x0, [0x7fff], [0], [0]⟩,
  ⟨0x5000c, 0x1000, 8, 0x0, 1, 1, [0], 0x0, [0xffff], [0], [0]⟩,
  ⟨0x50010, 0x1000, 8, 0x0, 1, 1, [0], 0x0, [0], [0], [0]⟩,
  ⟨0x50014, 0x1000, 8, 0x0, 1, 1, [0], 0x0, [0xfffffff], [0], [0]⟩,
  ⟨0x50018, 0x1000, 8, 0x0, 1, 1, [0], 0x0, [0xfffffff], [0], [0]⟩,
  ⟨0x5001c, 0x1000, 8, 0x0, 1, 1, [0x100000], 0x0, [0xff0000], [0], [0]⟩,
  ⟨0x58000, 0x0, 1, 0x0, 1, 1, [0], 0x0, [0], [0xff00], [0]⟩]

/-- Registers of block TRK. -/
def rowsTrk : List Row := [
  ⟨0x60000, 0x1000, 8, 0x0, 1, 1, [0x28000060], 0x0, [0xff010ff1], [0], [0x20000]⟩,
  ⟨0x60004, 0x1000, 8, 0x0, 1, 1, [0], 0x0, [0], [0], [0]⟩,
  ⟨0x60008, 0x1000, 8, 0x0, 1, 2, [0, 0], 0x0, [0, 0], [0, 0], [0, 0]⟩,
  ⟨0x60010, 0x1000, 8, 0x0, 1, 2, [0, 0], 0x0, [0, 0], [0, 0], [0, 0]⟩,
  ⟨0x60018, 0x1000, 8, 0x0, 1, 1, [0], 0x0, [0], [0], [0]⟩,
  ⟨0x6001c, 0x1000, 8, 0x0, 1, 1, [0], 0x0, [0], [0], [0]⟩,
  ⟨0x60020, 0x1000, 8, 0x0, 1, 1, [0], 0x0, [0], [0], [0]⟩,
  ⟨0x60024, 0x1000, 8, 0x0, 1, 1, [0], 0x0, [0xffff000f], [0], [0]⟩,
  ⟨0x60028, 0x1000, 8, 0x0, 1, 1, [0x4000], 0x0, [0x7fff], [0], [0]⟩,
  ⟨0x6002c, 0x1000, 8, 0x0, 1, 1, [0x2c040], 0x0, [0xfffff], [0], [0]⟩,
  ⟨0x60030, 0x1000, 8, 0x0, 1, 1, [0], 0x0, [0], [0], [0]⟩,
  ⟨0x60034, 0x1000, 8, 0x0, 1, 1, [0x10620], 0x0, [0x1ffff], [0], [0]⟩,
  ⟨0x60038, 0x1000, 8, 0x0, 1, 2, [0, 0], 0x0, [0xffffffff, 0xffffffff], [0, 0], [0, 0]⟩,
  ⟨0x60040, 0x1000, 8, 0x0, 1, 2, [0, 0], 0x0, [0, 0], [0, 0], [0, 0]⟩,
  ⟨0x60048, 0x1000, 8, 0x0, 1, 1, [0], 0x0, [0], [0], [0]⟩,
  ⟨0x68000, 0x0, 1, 0x0, 1, 1, [0], 0x0, [0], [0xffff], [0]⟩]

/-- Registers of block TBL. -/
def rowsTbl : List Row := [
  ⟨0x70000, 0x1000, 8, 0x0, 1, 1, [0x10], 0x0, [0xff], [0], [0]⟩,
  ⟨0x70004, 0x1000, 8, 0x0, 1, 1, [0x13880032], 0x0, [0xffffffff], [0], [0]⟩,
  ⟨0x70008, 0x1000, 8, 0x0, 1, 1, [0], 0x0, [0], [0], [0]⟩,
  ⟨0x70010, 0x1000, 8, 0x10, 4, 1, [0], 0x0, [0x3f3f037f], [0], [0]⟩,
  ⟨0x70014, 0x1000, 8, 0x10, 4, 1, [0x100], 0x0, [0xffffffff], [0], [0]⟩,
  ⟨0x70018, 0x1000, 8, 0x10, 4, 1, [0], 0x0, [0], [0x200000], [0]⟩,
  ⟨0x7001c, 0x1000, 8, 0x10, 4, 1, [0], 0x0, [0], [0], [0]⟩,
  ⟨0x78000, 0x0, 1, 0x0, 1, 2, [0, 0], 0x0, [0xfffff000, 0x7], [0, 0], [0, 0]⟩,
  ⟨0x78008, 0x0, 1, 0x0, 1, 1, [0], 0x0, [0], [0], [0x373fff]⟩,
  ⟨0x7800c, 0x0, 1, 0x0, 1, 1, [0], 0x0, [0x7fffff], [0], [0]⟩,
  ⟨0x78010, 0x0, 1, 0x0, 1, 1, [0], 0x0, [0], [0x2], [0]⟩,
  ⟨0x78014, 0x0, 1, 0x0, 1, 1, [0], 0x0, [0], [0xffffffff], [0]⟩,
  ⟨0x78100, 0x4, 32, 0x0, 1, 1, [0], 0x0, [0], [0], [0]⟩]

/-- Registers of block ENC. -/
def rowsEnc : List Row := [
  ⟨0x80000, 0x1000, 8, 0x0, 1, 1, [0x2800], 0x0, [0xffff3fff], [0], [0]⟩,
  ⟨0x80004, 0x1000, 8, 0x0, 1, 1, [0x400], 0x0, [0x1ffff], [0], [0]⟩,
  ⟨0x80008, 0x1000, 8, 0x0, 1, 1, [0], 0x0, [0x3ffff], [0], [0]⟩,
  ⟨0x8000c, 0x1000, 8, 0x0, 1, 1, [0], 0x0, [0], [0], [0]⟩,
  ⟨0x80010, 0x1000, 8, 0x0, 1, 1, [0], 0x0, [0], [0], [0]⟩,
  ⟨0x80020, 0x1000, 8, 0x0, 1, 1, [0x402], 0x0, [0x3ffff], [0], [0]⟩,
  ⟨0x80024, 0x1000, 8, 0x0, 1, 1, [0], 0x0, [0xffffffff], [0], [0]⟩,
  ⟨0x80028, 0x1000, 8, 0x0, 1, 1, [0], 0x0, [0], [0], [0]⟩,
  ⟨0x8002c, 0x1000, 8, 0x0, 1, 1, [0x40], 0x0, [0], [0], [0]⟩,
  ⟨0x80030, 0x1000, 8, 0x0, 1, 1, [0], 0x0, [0], [0], [0]⟩,
  ⟨0x80034, 0x1000, 8, 0x0, 1, 1, [0x271003e8], 0x0, [0xffffffff], [0], [0]⟩,
  ⟨0x80038, 0x1000, 8, 0x0, 1, 1, [0x30d40], 0x0, [0xffffffff], [0], [0]⟩,
  ⟨0x8003c, 0x1000, 8, 0x0, 1, 1, [0x200], 0x0, [0xffff23], [0x1000000], [0x4]⟩,
  ⟨0x80040, 0x1000, 8, 0x0, 1, 1, [0], 0x0, [0xffffffff], [0], [0]⟩,
  ⟨0x80044, 0x1000, 8, 0x0, 1, 1, [0], 0x0, [0x7ffff], [0], [0]⟩,
  ⟨0x80048, 0x1000, 8, 0x0, 1, 1, [0], 0x0, [0], [0], [0]⟩,
  ⟨0x8004c, 0x1000, 8, 0x0, 1, 1, [0], 0x0, [0xffff], [0], [0]⟩,
  ⟨0x80060, 0x1000, 8, 0x0, 1, 1, [0x200], 0x0, [0xff03], [0], [0]⟩,
  ⟨0x80064, 0x1000, 8, 0x0, 1, 1, [0], 0x0, [0], [0], [0]⟩,
  ⟨0x80068, 0x1000, 8, 0x0, 1, 1, [0], 0x0, [0], [0], [0]⟩,
  ⟨0x8006c, 0x1000, 8, 0x0, 1, 1, [0], 0x0, [0], [0], [0]⟩,
  ⟨0x80070, 0x1000, 8, 0x0, 1, 2, [0, 0], 0x0, [0, 0], [0, 0], [0, 0]⟩,
  ⟨0x80078, 0x1000, 8, 0x0, 1, 2, [0, 0], 0x0, [0, 0], [0, 0], [0, 0]⟩,
  ⟨0x88000, 0x0, 1, 0x0, 1, 1, [0], 0x0, [0], [0xffffffff], [0]⟩]

/-- Registers of block ACQ. -/
def rowsAcq : List Row := [
  ⟨0x90000, 0x1000, 8, 0x4, 4, 1, [0], 0x0, [0x3fffffff], [0], [0]⟩,
  ⟨0x90010, 0x1000, 8, 0x8, 4, 1, [0x1800], 0x0, [0x33fff], [0], [0]⟩,
  ⟨0x90014, 0x1000, 8, 0x8, 4, 1, [0x1800], 0x0, [0x33fff], [0], [0]⟩,
  ⟨0x90030, 0x1000, 8, 0x0, 1, 1, [0], 0x0, [0], [0xff00f], [0]⟩,
  ⟨0x98000, 0x4, 6, 0x0, 1, 1, [0], 0x0, [0x3fffffff], [0], [0]⟩,
  ⟨0x98018, 0x0, 1, 0x0, 1, 1, [0], 0x0, [0], [0x3f], [0]⟩,
  ⟨0x98020, 0x0, 1, 0x0, 1, 1, [0], 0x0, [0], [0xffffffff], [0]⟩,
  ⟨0x98024, 0x0, 1, 0x0, 1, 1, [0], 0x0, [0], [0xffffffff], [0]⟩]

/-- Registers of block FIL. -/
def rowsFil : List Row := [
  ⟨0xa8000, 0x20, 64, 0x0, 1, 1, [0], 0x0, [0xfff0fff], [0], [0]⟩,
  ⟨0xa8004, 0x20, 64, 0x0, 1, 1, [0x1000], 0x0, [0x3fff], [0], [0x4000]⟩,
  ⟨0xa8008, 0x20, 64, 0x0, 1, 1, [0], 0x0, [0xffff], [0], [0]⟩,
  ⟨0xa800c, 0x20, 64, 0x0, 1, 1, [0], 0x0, [0], [0], [0]⟩,
  ⟨0xa8010, 0x20, 64, 0x0, 1, 2, [0, 0], 0x0, [0, 0], [0, 0], [0, 0]⟩,
  ⟨0xa8800, 0x0, 1, 0x0, 1, 2, [0, 0], 0x0, [0xffffffff, 0xffffffff], [0, 0], [0, 0]⟩,
  ⟨0xa8808, 0x0, 1, 0x0, 1, 2, [0, 0], 0x0, [0xffffffff, 0xffffffff], [0, 0], [0, 0]⟩,
  ⟨0xa8810, 0x0, 1, 0x0, 1, 1, [0], 0x0, [0], [0x4], [0x1]⟩,
  ⟨0xa9000, 0x40, 16, 0x0, 1, 1, [0], 0x0, [0x77f], [0], [0]⟩,
  ⟨0xa9004, 0x40, 16, 0x0, 1, 1, [0x2710], 0x0, [0xffffff], [0], [0]⟩,
  ⟨0xa9008, 0x40, 16, 0x0, 1, 1, [0xa], 0x0, [0xfffff], [0], [0]⟩,
  ⟨0xa900c, 0x40, 16, 0x0, 1, 1, [0x3e8], 0x0, [0xfffff], [0], [0]⟩,
  ⟨0xa9010, 0x40, 16, 0x0, 1, 1, [0xffffff], 0x0, [0x1ffffff], [0], [0]⟩,
  ⟨0xa9014, 0x40, 16, 0x0, 1, 1, [0], 0x0, [0], [0], [0]⟩,
  ⟨0xa9018, 0x40, 16, 0x0, 1, 1, [0], 0x0, [0], [0], [0]⟩,
  ⟨0xa901c, 0x40, 16, 0x0, 1, 1, [0], 0x0, [0], [0x3], [0]⟩,
  ⟨0xa9020, 0x40, 16, 0x0, 1, 2, [0, 0], 0x0, [0, 0], [0, 0], [0, 0]⟩,
  ⟨0xa9028, 0x40, 16, 0x0, 1, 2, [0, 0], 0x0, [0, 0], [0, 0], [0, 0]⟩,
  ⟨0xaa000, 0x0, 1, 0x0, 1, 1, [0x8000010], 0x0, [0xffff003f], [0], [0]⟩,
  ⟨0xaa004, 0x0, 1, 0x0, 1, 1, [0], 0x0, [0], [0], [0]⟩,
  ⟨0xaa008, 0x0, 1, 0x0, 1, 1, [0], 0x0, [0], [0], [0]⟩,
  ⟨0xaa00c, 0x0, 1, 0x0, 1, 1, [0], 0x0, [0], [0], [0]⟩,
  ⟨0xaa010, 0x0, 1, 0x0, 1, 2, [0, 0], 0x0, [0, 0], [0, 0], [0, 0]⟩]

/-- Registers of block LAW. -/
def rowsLaw : List Row := [
  ⟨0xb0000, 0x1000, 8, 0x0, 1, 1, [0], 0x0, [0x7f01], [0], [0]⟩,
  ⟨0xb0004, 0x1000, 8, 0x0, 1, 1, [0x1f4], 0x3e0000, [0x7ff07ff], [0], [0]⟩,
  ⟨0xb0008, 0x1000, 8, 0x0, 1, 1, [0], 0x0, [0], [0x8], [0xffff0300]⟩,
  ⟨0xb000c, 0x1000, 8, 0x0, 1, 1, [0], 0x0, [0], [0], [0]⟩,
  ⟨0xb0010, 0x1000, 8, 0x0, 1, 1, [0], 0x0, [0], [0], [0]⟩,
  ⟨0xb0014, 0x1000, 8, 0x0, 1, 1, [0], 0x0, [0], [0], [0]⟩,
  ⟨0xb0018, 0x1000, 8, 0x0, 1, 1, [0], 0x0, [0], [0], [0]⟩,
  ⟨0xb001c, 0x1000, 8, 0x0, 1, 1, [0], 0x0, [0], [0], [0]⟩,
  ⟨0xb8000, 0x0, 1, 0x0, 1, 1, [0x1c3000], 0x0, [0], [0], [0]⟩,
  ⟨0xb8004, 0x0, 1, 0x0, 1, 1, [0], 0x0, [0], [0], [0]⟩,
  ⟨0xb8008, 0x0, 1, 0x0, 1, 1, [0], 0x0, [0], [0xffff], [0]⟩]

/-- Registers of block PWM. -/
def rowsPwm : List Row := [
  ⟨0xc0000, 0x1000, 8, 0x0, 1, 1, [0x20000], 0x0, [0x37], [0], [0]⟩,
  ⟨0xc0004, 0x1000, 8, 0x0, 1, 1, [0x3d090], 0x0, [0x3fffff], [0], [0]⟩,
  ⟨0xc0008, 0x1000, 8, 0x0, 1, 1, [0], 0x0, [0x3fffff], [0], [0]⟩,
  ⟨0xc000c, 0x1000, 8, 0x0, 1, 1, [0xfa03e8], 0x0, [0xfff0fff], [0], [0]⟩,
  ⟨0xc0010, 0x1000, 8, 0x4, 3, 1, [0x8000], 0x0, [0x1ffff], [0], [0]⟩,
  ⟨0xc001c, 0x1000, 8, 0x0, 1, 1, [0xaaa], 0x0, [0x3f0fff], [0], [0]⟩,
  ⟨0xc0020, 0x1000, 8, 0x0, 1, 1, [0x3], 0x0, [0], [0], [0]⟩,
  ⟨0xc0024, 0x1000, 8, 0x0, 1, 1, [0], 0x0, [0], [0], [0]⟩,
  ⟨0xc0040, 0x1000, 8, 0x0, 1, 1, [0x240], 0x0, [0x773f3], [0], [0]⟩,
  ⟨0xc0044, 0x1000, 8, 0x0, 1, 1, [0x4e20], 0x0, [0x1ffff], [0], [0]⟩,
  ⟨0xc0048, 0x1000, 8, 0x0, 1, 1, [0x7fff0001], 0x0, [0xffffffff], [0], [0]⟩,
  ⟨0xc004c, 0x1000, 8, 0x8, 3, 1, [0], 0x0, [0], [0], [0]⟩,
  ⟨0xc0050, 0x1000, 8, 0x8, 3, 1, [0], 0x0, [0], [0], [0]⟩,
  ⟨0xc8000, 0x0, 1, 0x0, 1, 1, [0], 0x0, [0], [0xffff], [0]⟩]

/-- Registers of block PAIR. -/
def rowsPair : List Row := [
  ⟨0xd8000, 0x0, 1, 0x0, 1, 1, [0xa0003c], 0x0, [0xf077ff], [0], [0x10000]⟩,
  ⟨0xd8004, 0x0, 1, 0x0, 1, 1, [0], 0x0, [0], [0x10000], [0]⟩,
  ⟨0xd8008, 0x0, 1, 0x0, 1, 1, [0], 0x0, [0], [0], [0]⟩,
  ⟨0xd800c, 0x0, 1, 0x0, 1, 1, [0x104010], 0x0, [0xffffff], [0], [0]⟩,
  ⟨0xd8010, 0x0, 1, 0x0, 1, 1, [0x3e8], 0x0, [0xffff], [0], [0]⟩,
  ⟨0xd8014, 0x0, 1, 0x0, 1, 1, [0], 0x0, [0], [0], [0]⟩,
  ⟨0xd8018, 0x0, 1, 0x0, 1, 2, [0, 0], 0x0, [0, 0], [0, 0], [0, 0]⟩,
  ⟨0xd8020, 0x0, 1, 0x0, 1, 2, [0, 0], 0x0, [0, 0], [0, 0], [0, 0]⟩]

/-- Registers of block CFG. -/
def rowsCfg : List Row := [
  ⟨0xe8000, 0x0, 1, 0x0, 1, 1, [0], 0x0, [0x3], [0], [0]⟩,
  ⟨0xe8004, 0x0, 1, 0x0, 1, 1, [0x3e80064], 0x0, [0xffff3fff], [0], [0]⟩,
  ⟨0xe8008, 0x0, 1, 0x0, 1, 2, [0, 0], 0x0, [0xfffff000, 0x7], [0, 0], [0, 0]⟩,
  ⟨0xe8010, 0x0, 1, 0x0, 1, 2, [0xffffffff, 0xffffffff], 0x0, [0xffffffff, 0xffffffff], [0, 0], [0, 0]⟩,
  ⟨0xe8018, 0x0, 1, 0x0, 1, 1, [0], 0x0, [0x1f02], [0], [0x1]⟩,
  ⟨0xe8020, 0x0, 1, 0x0, 1, 2, [0, 0], 0x0, [0xffffffff, 0xffffffff], [0, 0], [0, 0]⟩,
  ⟨0xe8028, 0x0, 1, 0x0, 1, 1, [0xff00], 0x0, [0xff04], [0], [0x3]⟩,
  ⟨0xe802c, 0x0, 1, 0x0, 1, 1, [0], 0x0, [0], [0], [0]⟩,
  ⟨0xe8030, 0x0, 1, 0x0, 1, 1, [0], 0x0, [0], [0], [0]⟩,
  ⟨0xe8038, 0x0, 1, 0x0, 1, 2, [0, 0], 0x0, [0, 0], [0, 0], [0, 0]⟩,
  ⟨0xe8040, 0x0, 1, 0x0, 1, 2, [0, 0], 0x0, [0, 0], [0, 0], [0, 0]⟩]

/-- Registers of block HIF. -/
def rowsHif : List Row := [
  ⟨0xf0000, 0x40, 64, 0x0, 1, 2, [0, 0], 0x0, [0xfffff000, 0xffffffff], [0, 0], [0, 0]⟩,
  ⟨0xf0008, 0x40, 64, 0x0, 1, 2, [0, 0], 0x0, [0xfffffff8, 0xffffffff], [0, 0], [0, 0]⟩,
  ⟨0xf0010, 0x40, 64, 0x0, 1, 1, [0], 0x0, [0x1ffffff], [0], [0]⟩,
  ⟨0xf0014, 0x40, 64, 0x0, 1, 1, [0x40001], 0x0, [0x7fffff], [0], [0]⟩,
  ⟨0xf0018, 0x40, 64, 0x0, 1, 1, [0], 0x0, [0xffffffff], [0], [0]⟩,
  ⟨0xf001c, 0x40, 64, 0x0, 1, 1, [0x1], 0x0, [0xffffff], [0], [0]⟩,
  ⟨0xf0020, 0x40, 64, 0x0, 1, 1, [0], 0x0, [0], [0], [0]⟩,
  ⟨0xf0024, 0x40, 64, 0x0, 1, 1, [0], 0x0, [0], [0], [0]⟩,
  ⟨0xf8000, 0x0, 1, 0x0, 1, 1, [0], 0x0, [0], [0], [0]⟩,
  ⟨0xf8004, 0x0, 1, 0x0, 1, 1, [0], 0x0, [0], [0], [0]⟩,
  ⟨0xf8008, 0x0, 1, 0x0, 1, 1, [0], 0x0, [0], [0], [0]⟩,
  ⟨0xf8100, 0x0, 1, 0x0, 1, 8, [0, 0, 0, 0, 0, 0, 0, 0], 0x0, [0, 0, 0, 0, 0, 0, 0, 0], [0, 0, 0, 0, 0, 0, 0, 0], [0, 0, 0, 0, 0, 0, 0, 0]⟩,
  ⟨0xf8140, 0x0, 1, 0x0, 1, 8, [0, 0, 0, 0, 0, 0, 0, 0], 0x0, [0xffffffff, 0xffffffff, 0xffffffff, 0xffffffff, 0xffffffff, 0xffffffff, 0xffffffff, 0xffffffff], [0, 0, 0, 0, 0, 0, 0, 0], [0, 0, 0, 0, 0, 0, 0, 0]⟩,
  ⟨0xf8180, 0x0, 1, 0x0, 1, 1, [0], 0x0, [0], [0], [0x300]⟩]

/-- Registers of block TRM. -/
def rowsTrm : List Row := [
  ⟨0x108000, 0x0, 1, 0x0, 1, 1, [0x1003], 0x0, [0xff1f0f], [0], [0]⟩,
  ⟨0x108004, 0x0, 1, 0x0, 1, 1, [0], 0x0, [0], [0], [0]⟩,
  ⟨0x108008, 0x0, 1, 0x0, 1, 1, [0x10], 0x0, [0x10], [0], [0]⟩,
  ⟨0x10800c, 0x0, 1, 0x0, 1, 1, [0], 0x0, [0], [0], [0]⟩,
  ⟨0x108010, 0x0, 1, 0x0, 1, 1, [0], 0x0, [0], [0], [0]⟩,
  ⟨0x108014, 0x0, 1, 0x0, 1, 1, [0], 0x0, [0], [0], [0]⟩,
  ⟨0x108018, 0x0, 1, 0x0, 1, 1, [0], 0x0, [0], [0], [0]⟩,
  ⟨0x108020, 0x0, 1, 0x0, 1, 1, [0x20000], 0x0, [0x7ffff], [0], [0]⟩,
  ⟨0x108100, 0x10, 8, 0x0, 1, 1, [0x10000], 0x0, [0xffff3f77], [0], [0]⟩,
  ⟨0x108104, 0x10, 8, 0x0, 1, 1, [0], 0x0, [0x7fff], [0], [0]⟩,
  ⟨0x108108, 0x10, 8, 0x0, 1, 1, [0], 0x0, [0x3fffff], [0], [0]⟩,
  ⟨0x108180, 0x0, 1, 0x0, 1, 2, [0, 0], 0x0, [0xffffffff, 0xffffffff], [0, 0], [0, 0]⟩,
  ⟨0x108188, 0x0, 1, 0x0, 1, 2, [0, 0], 0x0, [0, 0], [0, 0], [0, 0]⟩,
  ⟨0x108190, 0x0, 1, 0x0, 1, 1, [0x64], 0x0, [0xffff], [0], [0]⟩,
  ⟨0x108194, 0x0, 1, 0x0, 1, 1, [0], 0x0, [0], [0], [0]⟩,
  ⟨0x108300, 0x0, 1, 0x0, 1, 1, [0], 0x0, [0], [0], [0xd]⟩,
  ⟨0x108800, 0x4, 64, 0x0, 1, 1, [0], 0x0, [0xffffffff], [0], [0]⟩,
  ⟨0x108900, 0x4, 64, 0x0, 1, 1, [0], 0x0, [0], [0], [0]⟩,
  ⟨0x108a00, 0x4, 8, 0x0, 1, 1, [0], 0x0, [0], [0], [0]⟩,
  ⟨0x109000, 0x8, 256, 0x0, 1, 2, [0, 0], 0x0, [0xfffffff7, 0], [0, 0], [0, 0]⟩]

/-- Registers of block MEM. -/
def rowsMem : List Row := [
  ⟨0x118000, 0x0, 1, 0x0, 1, 1, [0x30], 0x0, [0x33], [0], [0]⟩,
  ⟨0x118004, 0x0, 1, 0x0, 1, 1, [0], 0x0, [0], [0], [0]⟩,
  ⟨0x118008, 0x0, 1, 0x0, 1, 1, [0], 0x0, [0], [0], [0]⟩,
  ⟨0x118010, 0x0, 1, 0x0, 1, 2, [0, 0], 0x0, [0, 0], [0, 0], [0, 0]⟩,
  ⟨0x118018, 0x0, 1, 0x0, 1, 2, [0, 0], 0x0, [0xfffff000, 0x7], [0, 0], [0, 0]⟩,
  ⟨0x118020, 0x0, 1, 0x0, 1, 1, [0x1000000], 0x0, [0xffffffff], [0], [0]⟩,
  ⟨0x118040, 0x0, 1, 0x0, 1, 1, [0], 0x0, [0x3], [0], [0]⟩,
  ⟨0x118044, 0x0, 1, 0x0, 1, 1, [0], 0x0, [0], [0x80], [0]⟩,
  ⟨0x118080, 0x8, 4, 0x0, 1, 2, [0, 0], 0x0, [0x17fffff, 0], [0, 0], [0, 0]⟩,
  ⟨0x1180c0, 0x4, 3, 0x0, 1, 1, [0], 0x0, [0x31], [0], [0]⟩,
  ⟨0x1180d0, 0x0, 1, 0x0, 1, 2, [0, 0], 0x0, [0xffffffff, 0xffffffff], [0, 0], [0, 0]⟩,
  ⟨0x1180d8, 0x0, 1, 0x0, 1, 1, [0x80064], 0x0, [0xfffff], [0], [0]⟩,
  ⟨0x1180e0, 0x0, 1, 0x0, 1, 1, [0], 0x0, [0xffff], [0], [0]⟩,
  ⟨0x1180e4, 0x0, 1, 0x0, 1, 1, [0x3e803e8], 0x0, [0xffffffff], [0], [0]⟩,
  ⟨0x1180f0, 0x0, 1, 0x0, 1, 1, [0], 0x0, [0], [0], [0]⟩]

/-- Registers of block NVF. -/
def rowsNvf : List Row := [
  ⟨0x128000, 0x0, 1, 0x0, 1, 1, [0], 0x0, [0], [0], [0x3f]⟩,
  ⟨0x128004, 0x0, 1, 0x0, 1, 1, [0], 0x0, [0xffffff], [0], [0]⟩,
  ⟨0x128008, 0x4, 4, 0x0, 1, 1, [0xffffffff], 0x0, [0xffffffff], [0], [0]⟩,
  ⟨0x128018, 0x0, 1, 0x0, 1, 1, [0], 0x0, [0], [0x2], [0]⟩,
  ⟨0x12801c, 0x0, 1, 0x0, 1, 1, [0], 0x0, [0], [0], [0]⟩,
  ⟨0x128020, 0x4, 4, 0x0, 1, 1, [0], 0x0, [0], [0], [0xffffffff]⟩,
  ⟨0x128030, 0x0, 1, 0x0, 1, 1, [0], 0x0, [0], [0], [0]⟩,
  ⟨0x128040, 0x4, 8, 0x0, 1, 1, [0], 0x0, [0], [0], [0]⟩,
  ⟨0x128060, 0x4, 8, 0x0, 1, 1, [0], 0x0, [0], [0], [0]⟩,
  ⟨0x128080, 0x0, 1, 0x0, 1, 1, [0], 0x0, [0], [0], [0]⟩,
  ⟨0x128084, 0x0, 1, 0x0, 1, 1, [0], 0x0, [0xff], [0], [0]⟩,
  ⟨0x128088, 0x0, 1, 0x0, 1, 1, [0], 0x0, [0], [0], [0]⟩,
  ⟨0x128090, 0x0, 1, 0x0, 1, 8, [0, 0, 0, 0, 0, 0, 0, 0], 0x0, [0, 0, 0, 0, 0, 0, 0, 0], [0, 0, 0, 0, 0, 0, 0, 0], [0, 0, 0, 0, 0, 0, 0, 0]⟩]

/-- Registers of block MSR. -/
def rowsMsr : List Row := [
  ⟨0x138000, 0x0, 1, 0x0, 1, 1, [0], 0x0, [0], [0], [0]⟩,
  ⟨0x138040, 0x0, 1, 0x0, 1, 12, [0, 0, 0, 0, 0, 0, 0, 0, 0, 0, 0, 0], 0x0, [0xffffffff, 0xffffffff, 0xffffffff, 0xffffffff, 0xffffffff, 0xffffffff, 0xffffffff, 0xffffffff, 0xffffffff, 0xffffffff, 0xffffffff, 0xffffffff], [0, 0, 0, 0, 0, 0, 0, 0, 0, 0, 0, 0], [0, 0, 0, 0, 0, 0, 0, 0, 0, 0, 0, 0]⟩,
  ⟨0x138070, 0x0, 1, 0x0, 1, 1, [0], 0x0, [0], [0], [0x7]⟩,
  ⟨0x138080, 0x0, 1, 0x0, 1, 8, [0, 0, 0, 0, 0, 0, 0, 0], 0x0, [0xffffffff, 0xffffffff, 0xffffffff, 0xffffffff, 0xffffffff, 0xffffffff, 0xffffffff, 0xffffffff], [0, 0, 0, 0, 0, 0, 0, 0], [0, 0, 0, 0, 0, 0, 0, 0]⟩,
  ⟨0x1380a0, 0x0, 1, 0x0, 1, 1, [0], 0x0, [0], [0], [0x1]⟩,
  ⟨0x1380a4, 0x0, 1, 0x0, 1, 1, [0], 0x0, [0], [0x2], [0]⟩,
  ⟨0x138100, 0x30, 8, 0x0, 1, 12, [0, 0, 0, 0, 0, 0, 0, 0, 0, 0, 0, 0], 0x0, [0, 0, 0, 0, 0, 0, 0, 0, 0, 0, 0, 0], [0, 0, 0, 0, 0, 0, 0, 0, 0, 0, 0, 0], [0, 0, 0, 0, 0, 0, 0, 0, 0, 0, 0, 0]⟩]

/-- Registers of block TRC. -/
def rowsTrc : List Row := [
  ⟨0x140000, 0x1000, 8, 0x0, 1, 1, [0x40000], 0x0, [0x40f7f7f], [0], [0x3000000]⟩,
  ⟨0x140004, 0x1000, 8, 0x0, 1, 1, [0], 0x0, [0], [0], [0]⟩,
  ⟨0x140008, 0x1000, 8, 0x0, 1, 1, [0x1003e8], 0x0, [0xffffff], [0], [0]⟩,
  ⟨0x14000c, 0x1000, 8, 0x0, 1, 1, [0xd40073], 0x0, [0xffffffff], [0], [0]⟩,
  ⟨0x140010, 0x1000, 8, 0x0, 1, 1, [0], 0x0, [0], [0], [0]⟩,
  ⟨0x140014, 0x1000, 8, 0x0, 1, 1, [0], 0x0, [0], [0], [0]⟩,
  ⟨0x140018, 0x1000, 8, 0x0, 1, 1, [0], 0x0, [0], [0], [0]⟩,
  ⟨0x14001c, 0x1000, 8, 0x0, 1, 1, [0], 0x0, [0], [0], [0]⟩,
  ⟨0x148000, 0x0, 1, 0x0, 1, 1, [0], 0x0, [0x3f0107], [0], [0]⟩,
  ⟨0x148004, 0x0, 1, 0x0, 1, 1, [0x10010000], 0x0, [0xffffff3f], [0], [0xc0]⟩,
  ⟨0x148008, 0x0, 1, 0x0, 1, 1, [0], 0x0, [0x3fffff], [0], [0]⟩,
  ⟨0x14800c, 0x0, 1, 0x0, 1, 1, [0], 0x0, [0x1fff], [0], [0]⟩,
  ⟨0x148010, 0x0, 1, 0x0, 1, 1, [0], 0x0, [0], [0x2], [0]⟩,
  ⟨0x148018, 0x0, 1, 0x0, 1, 2, [0, 0], 0x0, [0xfffff000, 0x7], [0, 0], [0, 0]⟩,
  ⟨0x148020, 0x0, 1, 0x0, 1, 1, [0x100000], 0x0, [0xffffffff], [0], [0]⟩,
  ⟨0x148024, 0x0, 1, 0x0, 1, 1, [0], 0x0, [0], [0], [0]⟩,
  ⟨0x148028, 0x0, 1, 0x0, 1, 1, [0], 0x0, [0xffffffff], [0], [0]⟩,
  ⟨0x148040, 0x4, 8, 0x0, 1, 1, [0], 0x0, [0xffff0f71], [0], [0]⟩]

/-- The registers of the block at 64-KiB index b of the die window (R481). -/
def blockRows (b : Nat) : List Row :=
  match b with
  | 0 => rowsGlb
  | 1 => rowsClk
  | 2 => rowsPwr
  | 3 => rowsFlt
  | 4 => rowsEvt
  | 5 => rowsExc
  | 6 => rowsTrk
  | 7 => rowsTbl
  | 8 => rowsEnc
  | 9 => rowsAcq
  | 10 => rowsFil
  | 11 => rowsLaw
  | 12 => rowsPwm
  | 13 => rowsPair
  | 14 => rowsCfg
  | 15 => rowsHif
  | 16 => rowsTrm
  | 17 => rowsMem
  | 18 => rowsNvf
  | 19 => rowsMsr
  | 20 => rowsTrc
  | _ => []

/-- If the word at window offset `o` belongs to the row, its first index and its word number. -/
def Row.hit (r : Row) (o : Nat) : Option (Nat × Nat) :=
  if o < r.off then none else
  let rel := o - r.off
  let n := if r.ax = 0 then 0 else rel / r.ax
  let rel1 := if r.ax = 0 then rel else rel % r.ax
  let i := if r.ix = 0 then 0 else rel1 / r.ix
  let rel2 := if r.ix = 0 then rel1 else rel1 % r.ix
  if n < r.nax ∧ i < r.nix ∧ rel2 < 4 * r.words ∧ rel2 % 4 = 0 then some (n, rel2 / 4) else none

/-- The first row that holds the word at offset `o`, with the first index and the word number. -/
def findRow (o : Nat) : List Row → Option (Row × Nat × Nat)
  | [] => none
  | r :: rs => match r.hit o with
    | some (n, k) => some (r, n, k)
    | none => findRow o rs

/-- The register that holds the word at offset `o` of a die window. -/
def regAt (o : Nat) : Option (Row × Nat × Nat) := findRow o (blockRows (o / 0x10000))

/-- Default severity of local source `s` (R483, R484); reserved sources reset to 0 (R485). -/
def srcSev (s : Nat) : Nat :=
  if s < 224 then
    [1, 2, 3, 2, 2, 2, 1, 0, 1, 2, 0, 2, 2, 2, 1, 0, 0, 3, 1, 0, 2, 1, 0, 1, 1, 0, 1, 5].getD (s / 8) 0
  else
    (((256, 1) :: (272, 2) :: (273, 6) :: (274, 4) :: (275, 4) :: (276, 1) :: (277, 1) :: (278, 2) ::
      (288, 1) :: (289, 2) :: (290, 2) :: (291, 4) :: (292, 2) :: (293, 1) ::
      (304, 1) :: (305, 1) :: (306, 1) :: (320, 2) :: (336, 1) :: (368, 1) :: (400, 1) :: (401, 1) ::
      (416, 1) :: (417, 2) :: (432, 1) :: (433, 5) :: (434, 4) :: (435, 2) :: (436, 2) :: (448, 1) ::
      (464, 1) :: (465, 2) :: (466, 2) :: (467, 2) :: (468, 2) :: (469, 4) :: (470, 1) :: (471, 1) ::
      (480, 2) :: (481, 1) :: (482, 4) :: (483, 1) :: (496, 2) :: (497, 1) :: (498, 1) :: (499, 1) ::
      (512, 2) :: (513, 1) :: (514, 1) :: (515, 1) :: (516, 4) :: (517, 2) :: (518, 1) :: (519, 2) ::
      (520, 2) :: (521, 1) :: (522, 1) :: (528, 2) :: (529, 2) :: (530, 1) :: (531, 2) :: (532, 2) ::
      (533, 2) :: (534, 1) :: (535, 1) :: (544, 1) :: (545, 2) :: (546, 2) :: (547, 1) :: (548, 2) ::
      (549, 4) :: (550, 1) :: (551, 2) :: (552, 2) :: (592, 1) :: (593, 1) :: (608, 5) ::
      (List.range 16).map (fun i => (576 + i, 2))).lookup s).getD 0

/-- The local sources that exist (R483, R484); every other number is reserved (R485). -/
def srcExists (s : Nat) : Bool :=
  s < 224 || s == 256 || (272 ≤ s && s ≤ 278) || (288 ≤ s && s ≤ 293) || (304 ≤ s && s ≤ 307) ||
  s == 320 || s == 321 || s == 336 || s == 368 || s == 400 || s == 401 || s == 416 || s == 417 ||
  (432 ≤ s && s ≤ 436) || s == 448 || (464 ≤ s && s ≤ 472) || (480 ≤ s && s ≤ 484) ||
  (496 ≤ s && s ≤ 500) || (512 ≤ s && s ≤ 522) || (528 ≤ s && s ≤ 535) || (544 ≤ s && s ≤ 552) ||
  (576 ≤ s && s ≤ 591) || s == 592 || s == 593 || s == 608

/-- The sources marked plain, and every reserved source, have CLASS = 1 (R483, R485). -/
def srcPlain (s : Nat) : Bool :=
  !srcExists s || [7, 10, 15, 16, 19, 22, 25].elem (s / 8) && s < 224 ||
  [307, 321, 472, 484, 500, 521].elem s

/-- Reset value of FLT_SRCCFG of local source `s`: SEV, CLASS and PIN by source, HART 0b01 (R483 to R486). -/
def srcCfgRst (s : Nat) : Nat :=
  let pin := s == 305 || (!srcPlain s && 3 ≤ srcSev s)
  srcSev s + (if srcPlain s then 8 else 0) + (if pin then 16 else 0) + 64

/-- What the word at BAR0 address `a` resets to, for a member of `dies` dies (R8, R481, R487; GLB_ID and PWR_PKGBUD by
member and grade). Words of no register read 0. -/
def rstWord (dies grade a : Nat) : Nat :=
  let d := a / 0x2000000
  let o := a % 0x2000000
  if o = 0x8000 then
    d % 8 + (if dies = 2 then 1 else if dies = 4 then 2 else 3) * 16 + grade % 2 * 64 + 0x21 * 256 + 0x47C1 * 65536
  else if o = 0x28044 then (if dies = 2 then 0x4E20 else if dies = 4 then 0x9470 else 0x12110)
  else if o / 0x1000 = 0x30 ∨ o / 0x1000 = 0x31 then
    if o % 8 = 0 then srcCfgRst (o % 0x2000 / 8) else if o % 8 = 4 then 0x2710 + 3 * 0x100000 else 0
  else if 0x78100 ≤ o ∧ o < 0x78110 then 1
  else if o = 0xF8000 then (if d < 2 then 1 else 0)
  else match regAt o with
    | some (r, n, k) => r.rst.getD k 0 + (if k = 0 then r.axk * n else 0)
    | none => 0

end Sys2Proof.Machine
end

