-- ==== Sys2Proof/Machine/Store.lean ====
section
/-!
DEFINITION. A sparse table of values by number, in one canonical form: numbers strictly rising, and no entry equal to
what an unlisted number reads as. The registers, the memories and the per-axis, per-slot and per-source records of the
machine are such tables, so that equal contents are equal data.
-/

namespace Sys2Proof.Machine

/-- A sparse table: (number, value) pairs, numbers strictly rising, no value equal to its default. -/
abbrev Store (α : Type) := List (Nat × α)

/-- The value at number `k`, or `dflt` where the table lists none. -/
def Store.get {α : Type} (m : Store α) (k : Nat) (dflt : α) : α :=
  match m with
  | [] => dflt
  | (j, v) :: rest => if j = k then v else Store.get rest k dflt

/-- Every entry but those of number `k`. -/
def Store.erase {α : Type} (m : Store α) (k : Nat) : Store α :=
  m.filter fun e => e.1 != k

/-- Puts an entry at its place by number. -/
def Store.insert {α : Type} (m : Store α) (k : Nat) (v : α) : Store α :=
  match m with
  | [] => [(k, v)]
  | e :: rest => if k < e.1 then (k, v) :: e :: rest else e :: Store.insert rest k v

/-- Writes `v` at number `k`; writing what an unlisted number reads as removes the entry. -/
def Store.set {α : Type} [DecidableEq α] (m : Store α) (k : Nat) (v dflt : α) : Store α :=
  if v = dflt then m.erase k else (m.erase k).insert k v

/-- The entries whose number does not lie in [lo, hi). -/
def Store.drop {α : Type} (m : Store α) (lo hi : Nat) : Store α :=
  m.filter fun e => !(lo ≤ e.1 && e.1 < hi)

/-- The canonical form, with `dflt k` what number `k` reads as when it is not listed. -/
def Store.wf {α : Type} [DecidableEq α] (dflt : Nat → α) (m : Store α) : Bool :=
  match m with
  | [] => true
  | e :: rest => e.2 != dflt e.1 && rest.all (fun x => e.1 < x.1) && Store.wf dflt rest

end Sys2Proof.Machine
end

