-- ==== Sys2Proof/Machine/State.lean ====
section
/-!
DEFINITION. The state of the package as plain data: the register words, and every piece of state the spec gives the
machine that no register shows. Records are kept by number in sparse tables: an item of die d has a number that begins
with d, so that a reset of the die (R487) can drop what it does not keep.
-/

namespace Sys2Proof.Machine

/-- Why a step can stop. -/
inductive Fault where
  /-- Raised by a command that names a die, axis, slot, channel or other item the member does not have (R2). Safe: the
  spec gives such a command no meaning, and the machine stops where no hardware could go on. -/
  | noSuchItem
  deriving DecidableEq, Repr

/-- Why a command is refused. -/
inductive Refusal where
  /-- Raised by exec for a command whose meaning is not written yet. Safe: nothing is claimed of it. -/
  | notModelled (mnemonic : String)
  deriving DecidableEq, Repr

/-- A message of a block to its collector (R287, R288): source, kind, address, the INJ bit, and whether the injection
that caused it was muted (R307); the detail is what the ledger adds for access faults (R309). -/
structure Msg where
  src : Nat
  kind : Nat
  addr : Nat
  inj : Bool := false
  muted : Bool := false
  detail : Nat := 0
  deriving DecidableEq, Repr

/-- Sources that can reset a die, each with its bit of GLB_RSTCAUSE (R50). -/
inductive ResetCause where
  | por | pin | wdt | sev7 | swr | mate
  deriving DecidableEq, Repr

/-- A pad driver (R272). -/
inductive Drive where
  | off | soft | full
  deriving DecidableEq, Repr

/-- What a pin is driven to: low, high or high impedance (R268). -/
inductive Pin where
  | low | high | z
  deriving DecidableEq, Repr

/-- Control state of one die that no register shows. -/
structure Die where
  /-- The die is held in reset (R51). -/
  inReset : Bool := false
  /-- The die drove FAULTn when the reset was triggered and keeps driving it (R301). -/
  holdFaultN : Bool := false
  /-- The die took a severity-7 reaction and keeps the package safe-state line until it leaves reset (R292). -/
  holdSafeLine : Bool := false
  /-- The base image has been applied since the last power-on or RSTn: programmed safe states and keepers are in force
  (R53, R271). -/
  safeProg : Bool := false
  /-- The root PLL has locked since the die left reset (R57). -/
  locked : Bool := false
  /-- The option area has been loaded without an ECC failure (R57, R58). -/
  optOk : Bool := false
  /-- Option fields of the mates differ: nothing of the pair site is driven; this die has been reset since, with matching fields (R18). -/
  optMismatch : Bool := false
  optClean : Bool := false
  /-- Pair-site mode and split operation as the loaded option copy gives them (R18, R463). -/
  optMode : Bool := false
  optSplit : Bool := false
  /-- The root has not locked by 1 ms after power-good, or the option area has failed its check: every pad is at high impedance (R58). -/
  noPads : Bool := false
  /-- Root ticks at which the die was last reset, and between which its watchdog, running then, would have expired (R51). -/
  resetAt : Option Nat := none
  wdtEnd : Option (Nat × Nat) := none
  /-- Checked (false) or split (true) operation of the law engine (R198). -/
  split : Bool := false
  /-- Difference of this die's PT64 to the master's while it is not aligned (R45, R55). -/
  ptOff : Int := 0
  /-- Root ticks at which the present holdover began (R42). -/
  holdoverAt : Option Nat := none
  /-- REFCLK has returned and the root relocks; root-fail, watch-fail has been raised and its condition lasts (R42). -/
  relock : Bool := false
  rootOut : Bool := false
  watchBad : Bool := false
  /-- The die has joined package time since it left reset (R55); its spine has trained and it holds the identity in use (R57, R407). -/
  joined : Bool := false
  trained : Bool := false
  /-- PT tick at which the watchdog was last restarted (R50). -/
  wdtAt : Nat := 0
  /-- Measured start has completed (R57, R475). -/
  measured : Bool := false
  /-- Tick at which the reading copy's excitation started (R60). -/
  rcAt : Option Nat := none
  /-- The base image has been applied and completion reported for E0; its checks have failed (R361). -/
  imageDone : Bool := false
  imageBad : Bool := false
  /-- Root ticks at power-good or the end of the last reset (R57, R58). -/
  upAt : Nat := 0
  /-- Axes whose pads the die owned when it was reset and holds safe while it is in reset (R53). -/
  heldMask : Nat := 0
  deriving DecidableEq, Repr

/-- One leg of an axis (R256 to R266). -/
structure Leg where
  /-- Active duty in 2^-16 of the period (R256). -/
  duty : Nat := 32768
  /-- Leg state commanded: true is high (R259). -/
  st : Bool := false
  /-- High-side and low-side switches commanded on (R259). -/
  hiOn : Bool := false
  loOn : Bool := false
  /-- Time in 1/8 tk at which the pending turn-on takes place (R259). -/
  pend : Option Nat := none
  /-- Time in 1/8 tk of the turn-on edge of the present state (R263, R264). -/
  onAt : Nat := 0
  /-- Edges of this period still to come: (time in 1/8 tk from S, level it commands) (R256, R258). -/
  edges : List (Nat × Bool) := []
  /-- Duties on their way to the shadow register, oldest first: the PT tick at which each reaches the edge domain, and its value (R257). -/
  arrive : List (Nat × Nat) := []
  /-- Reference and half-band in force till the strobe at this PT tick, from which the written ones apply (R262). -/
  bandWas : Option (Nat × Int × Nat) := none
  /-- The leg has risen, and fallen, in this period (R258); levels whose on-interval has been suppressed in it (R260). -/
  rose : Bool := false
  fell : Bool := false
  sups : List Bool := []
  /-- Times in 1/8 tk at which the high-side and the low-side switch were last turned off (R268). -/
  hiOff : Nat := 0
  loOff : Nat := 0
  /-- Demand that waits for MINP (R264): the level demanded. -/
  wait : Option Bool := none
  /-- The next band write seeds the half-band (R265). -/
  seed : Bool := true
  /-- The leg meets the conditions of the fast path, and a band write has set its thresholds since (R263). -/
  able : Bool := false
  fast : Bool := false
  /-- Time in 1/8 tk of the last high-side turn-on edge, and of the exit from the safe state (R265). -/
  lastHi : Option Nat := none
  exitAt : Nat := 0
  /-- Switching cycles closed since the last band write: number and total duration in 1/8 tk (R265). -/
  cyc : Nat := 0
  cycDur : Nat := 0
  /-- Consecutive band writes within 2 % of the target, and held at a clamp (R266). -/
  lockRun : Nat := 0
  limRun : Nat := 0
  deriving DecidableEq, Repr

/-- PWM state of one axis that no register shows. -/
structure PwmAx where
  /-- Time in 1/8 tk of the current period's start and the DT, MINP taken at it (R255, R260). -/
  start : Nat := 0
  dt : Nat := 1000
  minp : Nat := 250
  /-- All causes have cleared; the axis leaves its safe state at the next S or strobe (R270). -/
  exiting : Bool := false
  /-- A direct trip holds the axis until its message is collected (R175, R253). -/
  trip : Bool := false
  /-- Levels of the six pins UH, UL, VH, VL, WH, WL as this die drives them when it owns them (R268, R269). -/
  pins : List Pin := [.z, .z, .z, .z, .z, .z]
  deriving DecidableEq, Repr

/-- Pair-bridge, heartbeat and handover state of one die that no register shows (R339 to R358). -/
structure PairRec where
  /-- Pad drivers of the three groups of R346. -/
  grp0 : Drive := .off
  grp1 : Drive := .off
  grp2 : Drive := .off
  /-- Status lines to the mate (R349). -/
  released : Bool := false
  /-- A release is in progress, with Ts (R350), and whether it serves a role swap. -/
  releasing : Option Nat := none
  swapping : Bool := false
  /-- The causes of the reset that waits for the release (R51, R52). -/
  resetAfter : List ResetCause := []
  /-- Pad-driver changes of a takeover: time in 1/8 tk, group, and the drive it passes to (R346). -/
  sched : List (Nat × Nat × Drive) := []
  /-- A severity-5 reaction is in force: the die stays not ready (R293). -/
  sev5 : Bool := false
  /-- The last beat sent on path A: role, ready flag, the sender's view of paths A and B as bits 0 and 1; the last frame sent on path B
  (R339, R340). -/
  txA : Option (Nat × Bool × Nat) := none
  txB : Option Nat := none
  /-- Sequence numbers of the beats sent and last received on paths A and B (R339, R340). -/
  seqA : Nat := 0
  lastA : Option Nat := none
  seqB : Nat := 0
  lastB : Option Nat := none
  /-- PT tick of the last valid beat on path A (R339); root tick of the last valid frame on path B (R340). -/
  goodA : Option Nat := none
  goodB : Option Nat := none
  /-- Consecutive valid beats while the path is lost (R341). -/
  okA : Nat := 0
  okB : Nat := 0
  /-- The root domain has toggled its liveness bit since the last path-B frame (R340). -/
  rootLive : Bool := false
  /-- The mate's last beats: role, ready, releasing (R339, R340). -/
  mateRole : Nat := 0
  mateReleasing : Bool := false
  /-- The mate's view of paths A and B, as its last beat gives it (R339). -/
  mateView : Nat := 0
  /-- A loopback test is running; PT tick at which the last one began; it has failed (R344). -/
  lbRun : Bool := false
  lbAt : Nat := 0
  lbBad : Bool := false
  /-- PT ticks at which the die entered full service, and from which it has waited for a beat of its mate (R337). -/
  fullAt : Option Nat := none
  startAt : Option Nat := none
  /-- Snapshot: PT tick of the request, of its failure, items applied so far (R354, R355). -/
  snapAt : Nat := 0
  failAt : Nat := 0
  items : List Nat := []
  /-- PT tick from which the shadow comparison has seen no exceedance (R358). -/
  shadowAt : Nat := 0
  /-- The waiting swap has been reported late (R353); PT tick at which it fell due; Ts of an admitted swap (R351). -/
  lateDone : Bool := false
  dueAt : Option Nat := none
  swapTs : Option Nat := none
  /-- PT tick from which the swap interval counts (R351). -/
  base : Nat := 0
  /-- The die that raised the held safe states has been reset or out of reach since (R294). -/
  heldLost : Bool := false
  deriving DecidableEq, Repr

/-- A per-axis write accepted by one mate that the other mate has still to apply (R26): BAR0 offset within the window and
value, and the tick at which the active mate accepted it, in the order set by the active mate; `run` is the run of the axis chosen for a coefficient write (R217). -/
structure Fwd where
  off : Nat
  val : Word
  tick : Nat
  run : Nat := 0
  deriving DecidableEq, Repr

/-- What the keepers of one axis's output balls hold (R271): the six switching balls, the emulation balls A, B, Z, and the EXC ball as
the DAC code of its level. -/
structure BallRec where
  sw : List Pin := [.z, .z, .z, .z, .z, .z]
  emu : List Pin := [.z, .z, .z]
  exc : Int := 0
  deriving DecidableEq, Repr

/-- The last sample of one converter: its trimmed code y, and its marks (R170, R172, R184). -/
structure Conv where
  raw : Int := 0
  y : Int := 0
  /-- Input select in force (R171). -/
  mux : Nat := 0
  clip : Bool := false
  supply : Bool := false
  /-- The upper, lower comparator of the input has asserted in trip use and not fallen since (R174). -/
  tripU : Bool := false
  tripL : Bool := false
  deriving DecidableEq, Repr

/-- Excitation, pilot and clip state of one axis's chain that no register shows (R63 to R85). -/
structure ExcAx where
  /-- Phase accumulator, 32 bits (R63). -/
  acc : Nat := 0
  /-- The accumulator of the axis's carrier group runs (R68, R69). -/
  runs : Bool := false
  /-- Settings in force; `group` none is the axis's own number (R66, R69). -/
  en : Bool := false
  drive : Bool := false
  group : Option Nat := none
  bw : Nat := 1
  finc : Nat := 0x418937
  amp : Nat := 0
  /-- Apply boundary B of a pending EXC_CTRL, EXC_FINC and EXC_AMP (R66). -/
  pendCtrl : Option Nat := none
  pendFinc : Option Nat := none
  pendAmp : Option Nat := none
  /-- Amplitude ramp: start value and strobes done, 1,000 when it has ended (R65). -/
  ampFrom : Rat := 0
  ampK : Nat := 1000
  /-- The accumulator takes the owner's value at the next boundary (R73). -/
  corr : Bool := false
  /-- DAC code of the last strobe (R64). -/
  code : Int := 0
  /-- PT tick of the present current limit (R75). -/
  ovldAt : Option Nat := none
  /-- A SIN, a COS sample of this carrier period was clipped (R83). -/
  sclip : Bool := false
  cclip : Bool := false
  /-- Tick of the strobe at which the accumulator last wrapped; the marks of the carrier period that it ended (R83). -/
  wrapAt : Option Nat := none
  closed : Option (Bool × Bool) := none
  /-- Consecutive carrier periods with a clipped sample, and input-clip raised for the run (R83). -/
  clipRun : Nat := 0
  clipDone : Bool := false
  /-- Pilot estimates in 2^-48 LSB (R84). -/
  pi : Int := 0
  pq : Int := 0
  /-- The candidate 180 degrees away is taken (R85). -/
  flip : Bool := false
  /-- End of the 64 Hz acquisition or of the window after a change of FINC; of the jump suppression (R85, R105). -/
  acqEnd : Option Nat := none
  wideEnd : Option Nat := none
  jumpEnd : Nat := 0
  /-- The held phase, not PHNOM, is the acquisition's reference (R85). -/
  held : Bool := false
  /-- PT tick since which the amplitude has been below 0.15 V (R85). -/
  lowAt : Option Nat := none
  deriving DecidableEq, Repr

/-- One strobe of the tracker's window: d × ref in 2^-60 LSB, usable (no clip flag), supply mark (R87, R88). -/
structure WinItem where
  prod : Int
  usable : Bool
  supply : Bool
  deriving DecidableEq, Repr

/-- A carrier period that has ended (R103 to R105): sums of s × ref and c × ref in 2^-30 LSB, of r × cos(pe) and r × sin(pe) in 2^-60 LSB,
its strobes, the ticks of its first strobe and of the wrap that ended it, and whether a freeze was detected in it. -/
structure PerRec where
  sS : Int := 0
  sC : Int := 0
  sI : Int := 0
  sQ : Int := 0
  n : Nat := 0
  from_ : Nat := 0
  to_ : Nat := 0
  frz : Bool := false
  deriving DecidableEq, Repr

/-- A published set (R95): update tick, loop angle and corrected angle in 2^-40 rev with the turn count, speed, and
acceleration, status word, mechanical angle word. -/
structure Pub where
  u : Nat := 0
  th : Int := 0
  ang : Int := 0
  w : Rat := 0
  a : Rat := 0
  stat : Nat := 0
  mech : Nat := 0
  spd : Int := 0
  deriving DecidableEq, Repr

/-- The tracker row of a snapshot, as the active die stood at update U (R355): its loop states, its published set, the published turn
count from which SECTOR and MTURNS go on, and the pilot's phase and amplitude. -/
structure TrkSnap where
  u : Nat := 0
  th : Int := 0
  w : Rat := 0
  a : Rat := 0
  af : Rat := 0
  pub : Pub := {}
  turns : Int := 0
  sect : Nat := 0
  mturns : Nat := 0
  mechv : Nat := 0
  pi : Int := 0
  pq : Int := 0
  flip : Bool := false
  deriving DecidableEq, Repr

/-- Tracker state of one axis that no register shows (R87 to R111). -/
structure TrkAx where
  /-- Loop angle in 2^-40 rev, turn count included; speed in rev/s; acceleration state and filtered acceleration (R89). -/
  th : Int := 0
  w : Rat := 0
  a : Rat := 0
  af : Rat := 0
  /-- The two smoothing poles of the loop filter, on the error (R89). -/
  sm1 : Rat := 0
  sm2 : Rat := 0
  /-- Settings in force: type 3, bandwidth code after and before the limit of R91, P − 1 (R92, R98). -/
  typ3 : Bool := false
  bw : Nat := 6
  code : Nat := 6
  ppm : Nat := 0
  /-- The last strobes, newest first, at most four (R88). -/
  win : List WinItem := []
  /-- The error of the last update, and whether it was measured (R88, R94). -/
  e : Rat := 0
  /-- Consecutive updates with a small error (R94), beyond the speed range (R93). -/
  lockRun : Nat := 0
  ovsRun : Nat := 0
  /-- Consecutive carrier periods outside the amplitude window, and on which side the last one lay (R103). -/
  ampRun : Nat := 0
  ampLow : Bool := false
  /-- Previous SIN and COS codes, strobes with identical codes and the tick of the first (R104). -/
  prev : Option (Int × Int) := none
  frzRun : Nat := 0
  frzAt : Nat := 0
  /-- A freeze has been detected in this carrier period (R109). -/
  frzSeen : Bool := false
  /-- Consecutive carrier periods whose projection phase was off, and the tick at which the first began (R105). -/
  jumpRun : Nat := 0
  jumpAt : Nat := 0
  /-- Tick at which this carrier period began; sums of s × ref and c × ref in 2^-30 LSB, of r × cos(pe) and r × sin(pe) in
  2^-60 LSB, and strobes (R103, R105). -/
  perAt : Nat := 0
  sumS : Int := 0
  sumC : Int := 0
  sumI : Int := 0
  sumQ : Int := 0
  sumN : Nat := 0
  /-- The carrier period that the last accumulator wrap ended, until it is judged (R103). -/
  per : Option PerRec := none
  /-- S and C of the last carrier period, in 2^-30 LSB (R109). -/
  lastS : Int := 0
  lastC : Int := 0
  /-- PT tick at which the coast time runs out (R108). -/
  coastEnd : Option Nat := none
  /-- Consecutive good carrier periods in a loss, and the tick at which the fourth ended (R109, R110). -/
  good : Nat := 0
  goodAt : Nat := 0
  /-- The preset has moved the angle: the next set moves no sector (R109). -/
  sectHold : Bool := false
  /-- Tick at which a REARM was last accepted (R111). -/
  rearmAt : Option Nat := none
  /-- The speed preset awaits the angles of the next carrier periods; those seen, with their ticks (R109). -/
  speedWait : Bool := false
  seen : List (Int × Nat) := []
  /-- LOCK will report a reacquisition (R109). -/
  reacq : Bool := false
  /-- A held TYPE, BW, PPM1 word with the tick from which it applies (R92), a held TRK_SECTOR word (R99). -/
  pendCtrl : Option (Word × Nat) := none
  pendSect : Option Word := none
  /-- The last 64 published sets, newest first (R101). -/
  hist : List Pub := []
  /-- The tracker row of the snapshot that waits for its update (R355). -/
  snap : Option TrkSnap := none
  deriving DecidableEq, Repr

/-- Learning and mapping state of one table slot (R122 to R141). -/
structure TblSlot where
  /-- Mean speed of the last two revolutions and whether each was clean (R122, R123). -/
  w1 : Option (Rat × Bool) := none
  w2 : Option (Rat × Bool) := none
  /-- Tick of the wrap that began this revolution, and the corrected angle at it (R124). -/
  u0 : Option Nat := none
  th0 : Int := 0
  wpred : Option Rat := none
  /-- Learn samples are taken in this revolution; a condition has failed in it; learning was not allowed in it. -/
  taking : Bool := false
  broken : Bool := false
  idle : Bool := false
  /-- Learn samples were taken from the wrap that began this revolution (R123). -/
  began : Bool := false
  /-- The index fraction has wrapped, forward or not, and the wrap is to be taken; the learn sample of that update: tick, loop angle,
  correction, speed and error (R122, R124, R138). -/
  wrap : Option Bool := none
  late : Option (Nat × Int × Int × Rat × Rat) := none
  /-- Whole turns of the line phase at the last wrap taken (R138). -/
  turn : Int := 0
  /-- Pages of a pending MAP, and a pending UNMAP (R134, R138). -/
  map : Option (Nat × Nat) := none
  unmap : Bool := false
  /-- The first coarse read since the full pages were last read has been reported; a coarse read in this revolution. -/
  missed : Bool := false
  missRev : Bool := false
  deriving DecidableEq, Repr

/-- The page command of a die (R134 to R137). -/
structure TblCmd where
  /-- A LOAD (true) or STORE (false) of this die runs, with its page and library offset. -/
  run : Option (Bool × Nat × Nat) := none
  /-- This die's part of the command is not finished; the command is executed by both mates (R137). -/
  own : Bool := false
  share : Bool := false
  deriving DecidableEq, Repr

/-- One CLK_FAB sample of the counter of an axis (R160). -/
structure EncSample where
  /-- Number of the sample. -/
  k : Nat := 0
  /-- Raw and reported counts, DIR and HELD. -/
  raw : Int := 0
  rep : Int := 0
  back : Bool := false
  held : Bool := false
  /-- The reference value an index reset the count to; ENC_RAW was written. -/
  reset : Option Int := none
  written : Bool := false
  deriving DecidableEq, Repr

/-- The encoder row of a snapshot (R355): the tick of update U, the counts taken, with what the standby has counted itself since; ARMED and
FIRST. -/
structure EncSnap where
  u : Nat := 0
  c : EncSample := {}
  armed : Bool := false
  first : Bool := false
  deriving DecidableEq, Repr

/-- Encoder paths of one axis that no register shows (R144 to R168), and the reading copy of the axis (R60, R61). -/
structure EncAx where
  /-- Emitted count e, 48 bits (R145). -/
  e : Int := 0
  /-- Target count q at the last planning, 48 bits, and the time of that planning in 1/8 tk (R145, R146). -/
  q : Int := 0
  at8 : Nat := 0
  /-- The published set that the target follows since then, the ticks by which the planning lay behind its stamp; for SRC = 1 the
  electrical turns of the mechanical angle less those of the set, and P (R98, R100). -/
  src : Option Pub := none
  ahead : Int := 0
  base : Int := 0
  den : Nat := 1
  /-- What q holds beyond the count of the angle's own turns, so that no wrap of a turn count moves it (R145). -/
  off : Int := 0
  /-- Time in 1/8 tk of the last transition emitted (R146). -/
  last8 : Option Nat := none
  /-- Settings in force: MODE, SRC, LINES (R150, R152). -/
  mode : Nat := 0
  mech : Bool := false
  lines : Nat := 1024
  /-- Time in 1/8 tk since which the backlog has not been 0, and emu-overrate raised for it (R146); a catch-up reported (R151). -/
  limAt : Option Nat := none
  limDone : Bool := false
  catching : Bool := false
  /-- Levels of the balls A, B, Z as this die drives them when it owns them (R144, R147, R154). -/
  pins : List Pin := [.z, .z, .z]
  /-- Direction and stamp of the last raw count, ticks between the last two in one direction (R161, R163). -/
  back : Bool := false
  stamp : Option Nat := none
  per : Option Nat := none
  /-- Sum of the transitions counted in this window (R161); the speed mode in force, which takes SMODE at each check (R162): count. -/
  sum : Int := 0
  counts : Bool := false
  /-- Levels of the A, B and Z receivers ahead of the edge filter, as bits 0 to 2, and of the filtered probe input (R152, R156, R166). -/
  rx : Nat := 0
  prb : Bool := false
  /-- The tick from which each of the pairs A, B, Z has disagreed, and the pairs past WIRET (R155). -/
  wireAt : List Nat := [0, 0, 0]
  wireUp : Nat := 0
  /-- The counts of the CLK_FAB sample in which an index action or a write of ENC_RAW fell, as they are ahead of these (R160). -/
  smp : Option EncSample := none
  /-- The encoder row of the snapshot that waits for its update (R355). -/
  snap : Option EncSnap := none
  /-- Reading copy: loop angle in 2^-40 rev, speed in rev/s, sums of this update's vector and its strobes, the last vector's
  angle, and the vectors received so far (R60). -/
  rcTh : Int := 0
  rcW : Rat := 0
  rcS : Int := 0
  rcC : Int := 0
  rcN : Nat := 0
  rcPrev : Int := 0
  rcSeen : Nat := 0
  /-- Target of the reading copy's emulation at its last update, in counts. -/
  rcV : Rat := 0
  /-- The reading-copy angle has been valid since the die left reset (R61). -/
  rcWas : Bool := false
  deriving DecidableEq, Repr

/-- Settings of a filter slot: stages in use, lengths less 1, decimation ratio less 1 (R180, R181). -/
structure FilSet where
  stages : Nat := 1
  l1 : Nat := 0
  l2 : Nat := 0
  l3 : Nat := 0
  dm1 : Nat := 0
  deriving DecidableEq, Repr

/-- A filter slot (R178 to R187). -/
structure FilSlot where
  /-- Settings in force. -/
  cur : FilSet := {}
  /-- Last inputs of the three stages since the restart, newest first, at most the stage's length. -/
  h1 : List Int := []
  h2 : List Int := []
  h3 : List Int := []
  /-- Strobes since the restart strobe E. -/
  k : Nat := 0
  /-- Strobes since the last sample with the mark CLIP, SUPPLY, NV: 0 is the latest sample. -/
  clip : Option Nat := none
  sup : Option Nat := none
  nv : Option Nat := none
  /-- Present input, cascade value and the stamp of its sample. -/
  x : Int := 0
  y : Int := 0
  at_ : Nat := 0
  /-- Restarts to come, oldest first: tick from which the first strobe is E, for each APPLY with the settings it captured, each change of
  MUX with the new select, and a PT64 step. -/
  applies : List (Nat × FilSet) := []
  muxes : List (Nat × Nat) := []
  stepAt : Option Nat := none
  /-- No strobe has been taken since the reset of the die (R182); strobe of the last restart. -/
  fresh : Bool := true
  restAt : Option Nat := none
  /-- A pending value was written after the last capture (R185). -/
  dirty : Bool := false
  deriving DecidableEq, Repr

/-- A detector's window or envelope (R189 to R193). -/
structure DetRec where
  /-- Samples in the partial window, largest and smallest, stamp of the first largest, sum of squares, stamp of the last. -/
  n : Nat := 0
  hi : Int := 0
  lo : Int := 0
  pk : Nat := 0
  sq : Nat := 0
  last : Nat := 0
  /-- Flags of the partial window, or of the latest envelope sample: bits 0 UNS, 1 CLIP, 2 SUPPLY, 3 NV. -/
  fl : Nat := 0
  /-- Envelope in 2^-32 of the source's LSB; the next sample starts it again (R190, R193). -/
  env : Int := 0
  fresh : Bool := false
  /-- The last result exceeded LIM (R191). -/
  above : Bool := false
  /-- Whole turns of the line phase at the latest sample, as a line-period window counts its wraps (R189). -/
  turn : Int := 0
  deriving DecidableEq, Repr

/-- The line-phase tracker (R194 to R196). -/
structure LptRec where
  /-- Sums of the three selected inputs since the last update, and their number. -/
  s0 : Int := 0
  s1 : Int := 0
  s2 : Int := 0
  n : Nat := 0
  /-- Loop phase at the middle of the last mean, in 2^-40 rev; frequency in Hz. -/
  th : Int := 0
  f : Rat := 0
  /-- Whole turns of the line phase up to LPT_STAMP: its wraps, forward less backward (R138, R189). -/
  turns : Int := 0
  /-- The next update presets the phase; the frequency is held after a loss of lock (R195). -/
  preset : Bool := true
  hold : Bool := false
  /-- PT ticks since which the lock conditions, a low amplitude, a large vq and a clamped frequency have lasted. -/
  okAt : Option Nat := none
  lowAt : Option Nat := none
  vqAt : Option Nat := none
  clAt : Option Nat := none
  /-- The last two updates, newest first: tick, frequency in 2^-16 Hz, LOCK (R179). -/
  hist : List (Nat × Int × Bool) := []
  /-- θ and f of the snapshot that wait for their update, with the tick at which they were taken (R355). -/
  snap : Option (Nat × Int × Rat) := none
  deriving DecidableEq, Repr

/-- What a PI of the run leaves for a SEL hand-over: its slot, the proportional terms, and its limits (R238). -/
structure PiRec where
  slot : Nat
  p : List Rat
  hi : Rat
  lo : Rat
  deriving DecidableEq, Repr

/-- A published result of a run (R247, DEST 0b10): the slot, the lane mantissas, exponent and flags. -/
structure TelRec where
  slot : Nat
  m : List Int
  e : Int
  fl : Nat
  deriving DecidableEq, Repr

/-- Scheduling, fade and run state of one axis of the law engine (R205 to R221). -/
structure LawAx where
  /-- A start awaits its release: the first one at or after this tick (R206). -/
  pendAt : Option Nat := none
  /-- The next run is the first after RUN changed to 1 (R203). -/
  first : Bool := false
  /-- Release tick of the run that waits; release and start tick of the run in progress (R210). -/
  waitAt : Option Nat := none
  run : Option (Nat × Nat) := none
  /-- Update point the run is based on, and whether a write after it counts as late (R225, R257). -/
  tu : Nat := 0
  tuLate : Bool := false
  /-- CLK_CORE cycles taken by accesses from the run in progress (R211). -/
  stolen : Nat := 0
  /-- RUN := 0 was written during the run in progress (R207). -/
  stop : Bool := false
  /-- Fade in progress: length (0 none), run of the fade, target (R219); it has been requested by an epoch or register. -/
  fadeLen : Nat := 0
  fadeK : Nat := 0
  target : Nat := 0
  /-- Number of the run at which the fade in progress starts (R219, R221). -/
  fadeFrom : Nat := 0
  /-- law-overflow and law-config have been raised in this run (R214, R216); a checkpoint of it has withheld its item (R319, R321). -/
  ovf : Bool := false
  cfg : Bool := false
  mis : Bool := false
  /-- PI terms and published results of this run. -/
  pis : List PiRec := []
  tel : List TelRec := []
  /-- Coefficient writes waiting for a run: run number, word of program memory, value (R217). -/
  wr : List (Nat × Nat × Word) := []
  deriving DecidableEq, Repr

/-- Engine and checkpoint state of one die (R210, R322). -/
structure LawDie where
  /-- Stream of the last run (R210). -/
  last : Nat := 0
  /-- Checkpoints and PT tick of the last comparator self-test; self-tests made (R322). -/
  cps : Nat := 0
  testAt : Nat := 0
  tests : Nat := 0
  /-- Failed self-tests (MCHKST); the last word compared (R508). -/
  fails : Nat := 0
  word : Nat := 0
  /-- Root ticks of the latest steals of 8 cycles, newest first (R211). -/
  steals : List Nat := []
  deriving DecidableEq, Repr

/-- The newest sample of a shared-angle channel (R417, R418). -/
structure ChanRec where
  /-- Source node the channel is locked to; last accepted sequence number and its PT tick; PT tick of the sample kept. -/
  node : Option Nat := none
  seq : Nat := 0
  accAt : Option Nat := none
  keptAt : Option Nat := none
  /-- Stated instant, angle in 2^-40 rev, speed in 2^-12 rev/s, acceleration in 2^-4 rev/s². -/
  ta : Nat := 0
  ang : Int := 0
  spd : Int := 0
  acc : Int := 0
  angv : Bool := false
  mech : Bool := false
  mechv : Bool := false
  /-- A run of late samples has been reported (R417). -/
  late : Bool := false
  deriving DecidableEq, Repr

/-- A tune unit (R275, R276): the slots named at START, the PT tick of START, rejections in succession, CYCLES at the last run
end with words 24 and 25 as they stood, and the sums over the accepted cycles. -/
structure TuneAx where
  rs : Nat := 0
  ps : Nat := 0
  startAt : Nat := 0
  rej : Nat := 0
  cyc : Nat := 0
  w24 : Nat := 0
  w25 : Nat := 0
  hp : Nat := 0
  hm : Nat := 0
  emax : Rat := 0
  emin : Rat := 0
  deriving DecidableEq, Repr

/-- A record in the on-chip trace buffer: its length, the destination it is captured for, its channel (R282); its tick, data
flags and TRIG for the stacks (R435). -/
structure TrcRec where
  /-- Where the record begins in the buffer, and its length. -/
  start : Nat := 0
  len : Nat
  dest : Nat
  ch : Nat
  tick : Nat := 0
  fl : Nat := 0
  trig : Bool := false
  /-- One of the PRE records before the trigger, which capture keeps (R283). -/
  keep : Bool := false
  deriving DecidableEq, Repr

/-- The capture unit of a die (R279 to R284). -/
structure TrcDie where
  /-- Captures of each channel since RUN := 1, and runs of its axis to leave out before the next. -/
  seq : List Nat := [0, 0, 0, 0, 0, 0, 0, 0]
  skip : List Nat := [0, 0, 0, 0, 0, 0, 0, 0]
  /-- Records in the buffer, oldest first; where the next one begins. -/
  recs : List TrcRec := []
  wp : Nat := 0
  /-- Channels whose next stored record carries GAP: at the buffer, at the DRAM ring. -/
  gap : Nat := 0
  gapD : Nat := 0
  /-- A run of drops has been reported: at the buffer, at the DRAM ring (R282). -/
  dropRun : Bool := false
  dropRunD : Bool := false
  /-- The next record stored carries TRIG (R283). -/
  mark : Bool := false
  /-- Records still to be captured after the trigger (R282). -/
  post : Option Nat := none
  /-- Lane 0 of channel TCH at its last capture (R283). -/
  level : Option Rat := none
  deriving DecidableEq, Repr

/-- A ring of a function that no register shows (R384 to R396). -/
structure RingRec where
  /-- Descriptors in the queue share: read ahead from the host, or waiting for room, oldest first. -/
  share : List (List Byte) := []
  /-- Sequence number of the next descriptor of an EVT or TEL ring; descriptors dropped just before it. -/
  seq : Nat := 0
  drops : Nat := 0
  dropRun : Bool := false
  /-- Descriptors written since the ring's last message, and the PT tick of the first of them (R396). -/
  unsig : Nat := 0
  unsigAt : Nat := 0
  /-- Runs of each package axis still to leave out (R393), axis and number. -/
  skip : List (Nat × Nat) := []
  /-- An index shadow waits for the function to send again (R379, R386). -/
  stale : Bool := false
  deriving DecidableEq, Repr

/-- MSI-X of a function (R382): enabled, function mask, masked vectors, pending vectors. -/
structure MsixRec where
  en : Bool := false
  fmask : Bool := false
  vmask : Nat := 18446744073709551615
  pend : Nat := 0
  deriving DecidableEq, Repr

/-- A descriptor in a firmware queue, with its function and ring (R391). -/
structure FwEnt where
  fn : Nat
  ring : Nat
  desc : List Byte
  deriving DecidableEq, Repr

/-- An announced step of package time (R47): its tick, the value loaded, and whether the same write set a slew (CLK_PTADJ). -/
structure PtStep where
  tick : Nat
  val : Nat
  cancel : Bool
  deriving DecidableEq, Repr

/-- The Teram identity in use: package ID, AUTO, PRIO and the package's lowest serial number (R406, R407). -/
structure Ident where
  id : Nat
  auto : Bool
  prio : Nat
  serial : Nat
  deriving DecidableEq, Repr

/-- A frame delivered to a die and not yet taken by its class (R410, R412): its bytes, and whether the die may still send it out
of its own port (R417). -/
structure RxFrame where
  bytes : List Byte
  out : Bool := false
  deriving DecidableEq, Repr

/-- An entry of the known-package table (R409): ID, serial number, PRIO, hop count, port of least hops, sequence number of the
last ANNOUNCE and the PT tick at which it came. -/
structure Known where
  id : Nat
  serial : Nat
  prio : Nat
  hops : Nat
  port : Nat
  seq : Nat
  at_ : Nat
  deriving DecidableEq, Repr

/-- Fabric state of one die that no register shows (R401 to R422). -/
structure TrmDie where
  known : List Known := []
  /-- ANNOUNCEs seen: origin ID, serial number, sequence number, tick (R408). -/
  seen : List (Nat × Nat × Nat × Nat) := []
  /-- Frames delivered and not yet taken; receive mailbox; remote event queue, head first (R421, R422). -/
  rxq : List RxFrame := []
  mbox : List (List Byte) := []
  evq : List (List Byte) := []
  /-- Sequence numbers: of HELLO and KEEP, of TIME SYNC, and of each channel sent (R408, R414, R416). -/
  beatSeq : Nat := 0
  syncSeq : Nat := 0
  chSeq : List (Nat × Nat) := []
  /-- Tracker updates since the last sample of each transmit slot (R416). -/
  upd : List (Nat × Nat) := []
  /-- Departure stamp of the TIME SYNC that waits for its REPLY, in 1/16 tk (R414). -/
  t1 : Option Nat := none
  /-- Offset o in ps on its way to the time master (R415). -/
  ofs : Option Int := none
  /-- As time master: consecutive exchanges within 400 ps, beyond 1.2 ns (R415). -/
  okRun : Nat := 0
  badRun : Nat := 0
  deriving DecidableEq, Repr

/-- A Teram port (R401 to R405): frames that wait with their priority, oldest first; the time in 1/5 tk at which the transmitter
is free; whether the partner's HELLO has arrived and advertises gen2; the last PT tick a port event began. -/
structure PortRec where
  q : List (Nat × List Byte) := []
  freeAt : Nat := 0
  gen2 : Option Bool := none
  downAt : Nat := 0
  /-- The frames that have left the port, oldest first. -/
  sent : List (List Byte) := []
  deriving DecidableEq, Repr

/-- A stacks record in progress (R435): items, ticks, flags of byte 36, settings, and payload. -/
structure StkRec where
  items : Nat := 0
  ts : Nat := 0
  te : Nat := 0
  fl : Nat := 0
  shift : Nat := 0
  aper : Nat := 0
  mask : Nat := 0
  payload : List Byte := []
  deriving DecidableEq, Repr

/-- A record in staging (R433): its 4-KiB slot, stream, namespace less 1, and tick range. -/
structure Staged where
  slot : Nat
  stream : Nat
  ns : Nat
  ts : Nat
  te : Nat
  deriving DecidableEq, Repr

/-- Stacks production of one die (R433 to R435): records in progress by stream, records in staging oldest first, the tick of the
next frame, streams whose next record carries GAP, and a run of drops already reported. -/
structure StkDie where
  rec0 : Option StkRec := none
  rec1 : Option StkRec := none
  rec2 : Option StkRec := none
  staged : List Staged := []
  frameAt : Option Nat := none
  gap : Nat := 0
  dropRun : Bool := false
  deriving DecidableEq, Repr

/-- A protected window (R438): its range, set by a trigger, a record has been written into it. -/
structure Win where
  ts : Nat
  te : Nat
  trig : Bool := false
  wrote : Bool := false
  deriving DecidableEq, Repr

/-- A namespace of a drive (R436, R437): the open segment with its ring index, its next free slot; number of the next segment;
next record number; digest of the last closed segment; ring index of the last one opened; protected windows. -/
structure NsRec where
  open_ : Option (Nat × Nat) := none
  num : Nat := 0
  recno : Nat := 0
  dig : List Byte := []
  last : Option Nat := none
  wins : List Win := []
  deriving DecidableEq, Repr

/-- A p0 die's memory services (R424 to R432): capacity of its DRAM in GiB, bytes copied into it as a mirror, trained before;
capacity of the drive's namespaces in segments, 0 where a namespace is not usable; ticks of controller resets. -/
structure MemRec where
  size : Nat := 0
  copied : Nat := 0
  was : Bool := false
  caps : List Nat := []
  resets : List Nat := []
  deriving DecidableEq, Repr

/-- The ledger as the serving die writes it (R308 to R312): open; ring segment and next slot; segment number; package-wide
sequence number; digest of the last closed segment. -/
structure LedgRec where
  open_ : Bool := false
  seg : Nat := 0
  slot : Nat := 2
  num : Nat := 0
  seq : Nat := 0
  dig : List Byte := []
  deriving DecidableEq, Repr

/-- A ledger record that waits in its die (R308, R309): stamp, message word, bytes 12 to 15, repeat count, detail. -/
structure LedgEnt where
  pt : Nat
  msg : Nat
  tail : Nat
  rep : Nat
  detail : Nat
  deriving DecidableEq, Repr

/-- A flash command that runs or waits (R464, R466, R471): its code, area, offset, data, and whether it has started. -/
structure NvfRun where
  op : Nat
  area : Nat
  addr : Nat
  data : List Byte := []
  started : Bool := false
  deriving DecidableEq, Repr

/-- The marker pair of a sector (R467, R468): intent and completion units as PT64 and erase count, none where erased; a unit with an
ECC error or wrong magic bytes; nvf-invalid has been raised for the sector (R469). -/
structure Marker where
  intent : Option (Nat × Nat) := none
  done : Option (Nat × Nat) := none
  bad : Bool := false
  told : Bool := false
  deriving DecidableEq, Repr

/-- A request to the signer (R479) and its report once its signing has begun: from a host command (ring, CID, address), a Teram frame,
or MSR_CREQ; or one whose function has been lost (R398). -/
inductive SignFor where
  | host (ring cid addr : Nat)
  | teram (frame : List Byte)
  | creq
  | gone
  deriving DecidableEq, Repr

/-- A waiting request to the signer, with its nonce, and the report from the start of its signing (R477 to R479). -/
structure SignReq where
  who : SignFor
  nonce : List Byte
  report : Option (List Byte) := none
  deriving DecidableEq, Repr

/-- Power state of one die that no register shows (R443 to R456): tokens in µJ, consecutive steps at 0, gov-deficit asserted; sum and
number of the step powers of this millisecond; tick of the last share and a share on its way; excluded sensors; therm-warn and
therm-crit asserted; tick of the return of the last rail. -/
structure PwrDie where
  tok : Rat := 10000
  zeros : Nat := 0
  deficit : Bool := false
  pSum : Nat := 0
  pN : Nat := 0
  shareAt : Nat := 0
  shareIn : Option Nat := none
  excl : List Bool := [false, false, false, false]
  warn : Bool := false
  crit : Bool := false
  retAt : Option Nat := none
  deriving DecidableEq, Repr

/-- The rails of one die as they physically stand, kept through its resets (R444): below warning, above high, one bit a rail. -/
structure RailRec where
  low : Nat := 0
  high : Nat := 0
  deriving DecidableEq, Repr

/-- Collector state of one source that no register shows (R295, R296, R307, R310): severity, AREN, QUIET and LIMIT of the reaction
in force; axes it holds safe, and whether it holds the die safe; PT tick from which LIVE is 0; kinds last recorded with their ticks;
repeats to be carried; the sticky bit holds FAULTn; FLT_SRCCFG as its last assertion took it (R296). -/
structure SrcRec where
  sev : Nat := 0
  aren : Bool := false
  quiet : Nat := 0
  limit : Nat := 0
  axes : Nat := 0
  dieSafe : Bool := false
  quietAt : Nat := 0
  recs : List (Nat × Nat) := []
  rep : Nat := 0
  pin : Bool := false
  cfg : Option Nat := none
  /-- Root tick at which LIVE went to 1 for one cycle of CLK_CORE (R288). -/
  liveAt : Option Nat := none
  deriving DecidableEq, Repr

/-- A fault assertion on its way to another die's copy of the package first error (R303). -/
structure PkgMsg where
  src : Nat
  kind : Nat
  sev : Nat
  stamp : Nat
  deriving DecidableEq, Repr

/-- Collector state of one die that no register shows: event queue, head first (R305); checker of the injection that runs (R306);
package first-error messages on their way; earliest stamp that competes (R303); the copy is to be taken after a reset (R487). -/
structure FltDie where
  evq : List (List Byte) := []
  chk : Nat := 0
  pkgIn : List PkgMsg := []
  pkgFrom : Nat := 0
  pkgTake : Bool := false
  deriving DecidableEq, Repr

/-- A hart (R325 to R333): released from reset; in the wait loop of the boot ROM; user mode; program counter; integer and
floating-point registers and CSRs by number; MPTCMP; reservation with the instant of its LR; semaphores it holds. -/
structure HartRec where
  run : Bool := false
  wait : Bool := false
  user : Bool := false
  pc : Nat := 0
  x : Store Word := []
  f : Store Word := []
  csr : Store Word := []
  cmp : Nat := 18446744073709551615
  resv : Option (Nat × Nat) := none
  sem : Nat := 0
  deriving DecidableEq, Repr

/-- A folio entry that a die has staged (R364, R367): type 1 WRITE, 2 MASK, 4 FILSYNC; target; data (WRITE), mask and data (MASK), slot
mask words (FILSYNC); its axis where it is per-axis; it targets LAW registers or program memory. -/
structure CfgEnt where
  ty : Nat
  tgt : Nat
  a : Nat
  b : Nat := 0
  ax : Option Nat := none
  law : Bool := false
  deriving DecidableEq, Repr

/-- An undo record (R369, R373): what the word held before, and what the entry wrote. -/
structure CfgUndo where
  tgt : Nat
  old : Nat
  new : Nat
  ax : Option Nat := none
  law : Bool := false
  deriving DecidableEq, Repr

/-- A committed epoch as a die holds it (R368, R375): T, ID, dies, folio numbers, origin package where it came over the fabric. -/
structure EpoRec where
  t : Nat
  id : Nat
  dies : Nat
  folios : Nat
  fabric : Bool := false
  org : Option Nat := none
  deriving DecidableEq, Repr

/-- Staging and epoch state of one die that no register shows (R366 to R376): entries staged; staging started since the last epoch
closed; dies that have reported staged; the epoch held; the die boundary applied; axes whose LAW entries wait for a run, with their
boundary ticks; undo record, newest first; slots restarted by FILSYNC; CFG_CUR before; Tr; parts reverted (bit 8 the die's); another package
has refused the epoch; the staging is to be discarded; the epoch master has checked. -/
structure EpoDie where
  ents : List CfgEnt := []
  opened : Bool := false
  seen : Nat := 0
  ep : Option EpoRec := none
  dieDone : Bool := false
  lawAt : List (Nat × Nat) := []
  undo : List CfgUndo := []
  fil : Nat := 0
  prev : Nat := 0
  tr : Option Nat := none
  rev : Nat := 0
  refd : Bool := false
  drop : Bool := false
  checked : Bool := false
  deriving DecidableEq, Repr


/-- The state of the whole package. -/
structure State where
  /-- Number of dies of the member: 2, 4 or 8 (R1). -/
  dies : Nat
  /-- Grade by bonding: 0 grade C, 1 grade I (R1, GLB_ID). -/
  grade : Nat
  /-- Root ticks that have passed since the model's start (R4). -/
  now : Nat
  /-- PT64 of the package time master, an unsigned 64-bit count (R5, R44). -/
  pt : Nat
  /-- The model's own counter of free values drawn so far; not the spec's. -/
  seed : Nat
  /-- The data of the last read access (register, window or CSR), the answer the reader received. -/
  readData : Nat
  /-- Commands that wait, first in, first out. -/
  pending : List Instr
  /-- Register words by BAR0 address; an unlisted word holds its reset value. -/
  regs : Store Word
  /-- Words latched by a read of a low word (R95, R196, CLK_PT, EVT_HEAD ...), by BAR0 address. -/
  latch : Store Word
  /-- Control state by die number. -/
  die : Store Die
  /-- Messages on their way to the collector of each die (R287, R289), oldest first. -/
  inbox : Store (List Msg)
  /-- Legs by (d·8 + n)·4 + j. -/
  legs : Store Leg
  /-- PWM state by d·8 + n. -/
  pwm : Store PwmAx
  /-- Pair state by die number. -/
  pair : Store PairRec
  /-- Keepers of the output balls by k·8 + n, pair site k and axis n (R271). -/
  balls : Store BallRec
  /-- Writes not yet applied by the mate of die d, oldest first (R26). -/
  fwd : Store (List Fwd)
  /-- Failed spine links: link l joins die l to the next die of the ring (R20). -/
  spineDown : Store Bool
  /-- Interrupt lines asserted toward hart h of die d, as a bit mask, by d·2 + h (R331). -/
  irq : Store Nat
  /-- Converters by d·64 + slot, slots 0 to 53 of R24. -/
  conv : Store Conv
  /-- Excitation chains by d·8 + n. -/
  exc : Store ExcAx
  /-- Trackers by d·8 + n. -/
  trk : Store TrkAx
  /-- Table slots by (d·8 + n)·4 + t. -/
  slots : Store TblSlot
  /-- Page command by die number. -/
  tcmd : Store TblCmd
  /-- Carrel entries by d·65,536 + page·2,048 + entry (R129). -/
  carrel : Store (BitVec 16)
  /-- DRAM bytes by channel·2^35 + address, channels 0 (d0) and 1 (d1) (R425). -/
  dram : Store Byte
  /-- Flash bytes by d·2^26 + area·2^24 + offset; areas 0 code, 1 data, 2 option, 3 calibration row (R459). -/
  flash : Store Byte
  /-- The p0 die that serves DRAM (R424, R425). -/
  dramSrv : Option Nat
  /-- The p0 die that serves the stacks (R424). -/
  stkSrv : Option Nat
  /-- Encoder paths by d·8 + n. -/
  encx : Store EncAx
  /-- Filter slots by d·64 + slot. -/
  fil : Store FilSlot
  /-- Detectors by d·16 + i. -/
  det : Store DetRec
  /-- Line-phase trackers by die number. -/
  lpt : Store LptRec
  /-- Armed synchronising reset of die d: its tick (R186). -/
  sync : Store (Option Nat)
  /-- Law program memory by d·16,384 + word (R200). -/
  progmem : Store Word
  /-- The second run's copies of the operator state words, in the transformed encoding, under the keys of `progmem` (R314). -/
  twin : Store Word
  /-- Law engine by d·8 + n. -/
  law : Store LawAx
  /-- Law engine by die number. -/
  lawd : Store LawDie
  /-- Shared-angle channels by d·64 + channel. -/
  chan : Store ChanRec
  /-- Tune units by d·8 + n. -/
  tune : Store TuneAx
  /-- Capture units by die number. -/
  trc : Store TrcDie
  /-- On-chip trace buffers by d·65,536 + offset (R282). -/
  trcbuf : Store Byte
  /-- Rings by function·64 + ring; function d is the endpoint of die d. -/
  ring : Store RingRec
  /-- MSI-X by function. -/
  msix : Store MsixRec
  /-- MSI-X messages sent, by function·64 + vector. -/
  msixSent : Store Nat
  /-- Host memory as the device has written it, by address (R383). -/
  hostmem : Store Byte
  /-- Firmware queues by die number. -/
  fwq : Store (List FwEnt)
  /-- The announced step of PT64 (R47). -/
  ptStep : Option PtStep
  /-- The first PT tick at which the next slew tick may fall (R47). -/
  slewFrom : Nat
  /-- PT64 as a slew tick left it just past a multiple of 250: the strobe of that multiple falls on this tick (R46). -/
  strobeAt : Option Nat
  /-- The model's own: one more than the PT tick at which a recurring step last took place, by kind·64 + d·8 + n (log entry 9). -/
  lastAt : Store Nat
  /-- The Teram identity in use, formed when package time starts (R406). -/
  ident : Option Ident
  /-- Fabric state by die number. -/
  trm : Store TrmDie
  /-- Teram ports by die number. -/
  port : Store PortRec
  /-- Sequence number of the package's last ANNOUNCE (R408). -/
  annSeq : Nat
  /-- Stacks production by die number. -/
  stk : Store StkDie
  /-- Namespaces by c·4 + k of the drive of die c. -/
  nsr : Store NsRec
  /-- Record slots of the drives, 4,096 bytes each, by ((c·4 + k)·2^23 + ring segment)·256 + slot. -/
  drive : Store (List Byte)
  /-- Memory services by die number. -/
  memr : Store MemRec
  /-- The ledger's writer (R308). -/
  ledg : LedgRec
  /-- Ledger records that wait, by die number. -/
  ledq : Store (List LedgEnt)
  /-- Ledger records lost since the last one stored, by die number (R312). -/
  ledlost : Store Nat
  /-- Flash command by die number. -/
  nvf : Store (Option NvfRun)
  /-- Marker pairs by (d·4 + area)·256 + sector. -/
  mark : Store Marker
  /-- Units programmed since their last erase, by flash byte number / 16 (R465). -/
  unitUsed : Store Bool
  /-- Requests to the signer of die d, in order of arrival. -/
  signq : Store (List SignReq)
  /-- Report window by d·4,096 + offset (R479). -/
  report : Store Byte
  /-- Governor and sensors by die number. -/
  gov : Store PwrDie
  /-- Rails by die number. -/
  rails : Store RailRec
  /-- Collector state by d·1,024 + source. -/
  src : Store SrcRec
  /-- Collector state by die number. -/
  flt : Store FltDie
  /-- The announced tick at which every copy of the package first error is cleared (R303). -/
  pkgClear : List Nat
  /-- Harts by d·2 + h. -/
  hart : Store HartRec
  /-- Tightly-coupled SRAM by (d·2 + h)·2^18 + offset (R327). -/
  tcm : Store Byte
  /-- Staging and epochs by die number. -/
  epo : Store EpoDie
  /-- Fabric epochs acted on: origin package and ID (R420). -/
  epoSeen : List (Nat × Nat)
  /-- Packages that this package's last fabric epoch was sent to (R420). -/
  epoSent : List Nat
  deriving DecidableEq, Repr

/-- The machine right after power-on (log entries 1 to 6): a Gulyr 8 of grade I, every register at its reset value, PT64
at 0, every memory as it reads when nothing has written it, and no command waiting. -/
def State.reset : State where
  dies := 8
  grade := 1
  now := 0
  pt := 0
  seed := 0
  readData := 0
  pending := []
  regs := []
  latch := []
  die := []
  inbox := []
  legs := []
  pwm := []
  pair := []
  balls := []
  fwd := []
  spineDown := []
  irq := []
  conv := []
  exc := []
  trk := []
  slots := []
  tcmd := []
  carrel := []
  dram := []
  flash := []
  dramSrv := none
  stkSrv := none
  encx := []
  fil := []
  det := []
  lpt := []
  sync := []
  progmem := []
  twin := []
  law := []
  lawd := []
  chan := []
  tune := []
  trc := []
  trcbuf := []
  ring := []
  msix := []
  msixSent := []
  hostmem := []
  fwq := []
  ptStep := none
  slewFrom := 0
  strobeAt := none
  lastAt := []
  ident := none
  trm := []
  port := []
  annSeq := 0
  stk := []
  nsr := []
  drive := []
  memr := []
  ledg := {}
  ledq := []
  ledlost := []
  nvf := []
  mark := []
  unitUsed := []
  signq := []
  report := []
  gov := []
  rails := []
  src := []
  flt := []
  pkgClear := []
  hart := []
  tcm := []
  epo := []
  epoSeen := []
  epoSent := []

end Sys2Proof.Machine
end

