-- ==== Sys2Proof/Machine/Ops.lean ====
section
/-!
DEFINITION. The named operations over the state: register words and fields, the records by number, time, free values,
messages to the collector, interrupt lines, and the pair-site questions (who is the mate, who owns an axis, who drives).
-/

namespace Sys2Proof.Machine

/-! Numbers and fields -/

/-- The low `w` bits of `v` read as a two's-complement number. -/
def sgn (w v : Nat) : Int :=
  let x := v % 2 ^ w
  if x < 2 ^ (w - 1) then (x : Int) else (x : Int) - (2 ^ w : Nat)

/-- The low `w` bits of the two's-complement form of `v`. -/
def enc (w : Nat) (v : Int) : Nat := (v % ((2 ^ w : Nat) : Int)).toNat

/-- `v` held in lo to hi. -/
def clampI (lo hi v : Int) : Int := if v < lo then lo else if hi < v then hi else v

/-- `v` held in lo to hi. -/
def clampN (lo hi v : Nat) : Nat := if v < lo then lo else if hi < v then hi else v

/-- Bit `k` of `v`. -/
def bitOf (v k : Nat) : Bool := v / 2 ^ k % 2 == 1

/-- `v` with bit `k` set to `b`. -/
def putBit (v k : Nat) (b : Bool) : Nat :=
  if bitOf v k == b then v else if b then v + 2 ^ k else v - 2 ^ k

/-- Bits [lo + w - 1 : lo] of `v`. -/
def bitsOf (v lo w : Nat) : Nat := v / 2 ^ lo % 2 ^ w

/-- A truth value as a bit. -/
def b2n (b : Bool) : Nat := if b then 1 else 0

/-- Size of a die window in BAR0 (R25). -/
def dieSpan : Nat := 0x2000000

/-- The BAR0 address of the first word of a field's register, for die `d` and indices `n`, `i` (R25). -/
def Fld.addr (f : Fld) (d n i : Nat) : Nat := d * dieSpan + f.off + n * f.ax + i * f.ix + 4 * (f.lo / 32)

/-- How many words the field touches. -/
def Fld.nw (f : Fld) : Nat := (f.lo % 32 + f.w + 31) / 32

/-- The mate of a die (R14). -/
def mateOf (d : Nat) : Nat := if d % 2 = 0 then d + 1 else d - 1

namespace State

/-- The reset value of the register word at BAR0 address `a` (R487). -/
def rstOf (s : State) (a : Nat) : Word := BitVec.ofNat 32 (rstWord s.dies s.grade a)

/-- The register word at BAR0 address `a`. -/
def reg (s : State) (a : Nat) : Word := s.regs.get a (s.rstOf a)

/-- Writes the register word at BAR0 address `a`. -/
def setReg (s : State) (a : Nat) (v : Word) : State := { s with regs := s.regs.set a v (s.rstOf a) }

/-- `k` words from address `a`, the low word first (R10). -/
def words (s : State) (a : Nat) : Nat → Nat
  | 0 => 0
  | k + 1 => (s.reg a).toNat + 2 ^ 32 * s.words (a + 4) k

/-- Writes `k` words at address `a`, the low word first (R10). -/
def setWords (s : State) (a v : Nat) : Nat → State
  | 0 => s
  | k + 1 => (s.setReg a (BitVec.ofNat 32 v)).setWords (a + 4) (v / 2 ^ 32) k

/-- The field `f` of die `d`, at indices `n` and `i`. -/
def rd (s : State) (d : Nat) (f : Fld) (n : Nat := 0) (i : Nat := 0) : Nat :=
  s.words (f.addr d n i) f.nw / 2 ^ (f.lo % 32) % 2 ^ f.w

/-- Sets the field `f` of die `d`, at indices `n` and `i`, to the low bits of `v`; every other bit stays. -/
def wr (s : State) (d : Nat) (f : Fld) (v : Nat) (n : Nat := 0) (i : Nat := 0) : State :=
  let a := f.addr d n i
  let x := s.words a f.nw
  let l := f.lo % 32
  s.setWords a (x / 2 ^ (l + f.w) * 2 ^ (l + f.w) + v % 2 ^ f.w * 2 ^ l + x % 2 ^ l) f.nw

/-- A one-bit field as a truth value. -/
def bit (s : State) (d : Nat) (f : Fld) (n : Nat := 0) (i : Nat := 0) : Bool := s.rd d f n i == 1

/-- The field as a two's-complement number. -/
def rdI (s : State) (d : Nat) (f : Fld) (n : Nat := 0) (i : Nat := 0) : Int := sgn f.w (s.rd d f n i)

/-- Sets the field to a two's-complement number. -/
def wrI (s : State) (d : Nat) (f : Fld) (v : Int) (n : Nat := 0) (i : Nat := 0) : State := s.wr d f (enc f.w v) n i

/-- Bit `k` of a field that holds one bit per item. -/
def bitAt (s : State) (d : Nat) (f : Fld) (k : Nat) : Bool := bitOf (s.rd d f) k

/-- Sets bit `k` of a field that holds one bit per item. -/
def wrBit (s : State) (d : Nat) (f : Fld) (k : Nat) (b : Bool) : State := s.wr d f (putBit (s.rd d f) k b)

/-- Adds `k` to a counter field that saturates at all ones. -/
def addSat (s : State) (d : Nat) (f : Fld) (k : Nat := 1) (n : Nat := 0) (i : Nat := 0) : State :=
  s.wr d f (min (s.rd d f n i + k) (2 ^ f.w - 1)) n i

/-- Adds 1 to a counter field that wraps. -/
def incWrap (s : State) (d : Nat) (f : Fld) (n : Nat := 0) (i : Nat := 0) : State :=
  s.wr d f (s.rd d f n i + 1) n i

/-! Records by number -/

/-- Control record of die `d`. -/
def getDie (s : State) (d : Nat) : Die := s.die.get (d) {}

/-- Changes the record `getDie` reads. -/
def modDie (s : State) (d : Nat) (f : Die → Die) : State :=
  { s with die := s.die.set (d) (f (s.die.get (d) {})) {} }

/-- Leg `j` of axis `n` of die `d`. -/
def getLeg (s : State) (d n j : Nat) : Leg := s.legs.get ((d * 8 + n) * 4 + j) {}

/-- Changes the record `getLeg` reads. -/
def modLeg (s : State) (d n j : Nat) (f : Leg → Leg) : State :=
  { s with legs := s.legs.set ((d * 8 + n) * 4 + j) (f (s.legs.get ((d * 8 + n) * 4 + j) {})) {} }

/-- PWM record of axis `n` of die `d`. -/
def getPwm (s : State) (d n : Nat) : PwmAx := s.pwm.get (d * 8 + n) {}

/-- Changes the record `getPwm` reads. -/
def modPwm (s : State) (d n : Nat) (f : PwmAx → PwmAx) : State :=
  { s with pwm := s.pwm.set (d * 8 + n) (f (s.pwm.get (d * 8 + n) {})) {} }

/-- Pair record of die `d`. -/
def getPair (s : State) (d : Nat) : PairRec := s.pair.get (d) {}

/-- Changes the record `getPair` reads. -/
def modPair (s : State) (d : Nat) (f : PairRec → PairRec) : State :=
  { s with pair := s.pair.set (d) (f (s.pair.get (d) {})) {} }

/-- Keepers of the balls of axis `n` of pair site `k` (R271). -/
def getBall (s : State) (k n : Nat) : BallRec := s.balls.get (k * 8 + n) {}

/-- Changes the record `getBall` reads. -/
def modBall (s : State) (k n : Nat) (f : BallRec → BallRec) : State :=
  { s with balls := s.balls.set (k * 8 + n) (f (s.balls.get (k * 8 + n) {})) {} }

/-- Writes die `d` has still to apply (R26). -/
def getFwd (s : State) (d : Nat) : List Fwd := s.fwd.get (d) []

/-- Changes the record `getFwd` reads. -/
def modFwd (s : State) (d : Nat) (f : List Fwd → List Fwd) : State :=
  { s with fwd := s.fwd.set (d) (f (s.fwd.get (d) [])) [] }

/-- Last sample of converter `c` of die `d`, numbered as its slot (R24). -/
def getConv (s : State) (d c : Nat) : Conv := s.conv.get (d * 64 + c) {}

/-- Changes the record `getConv` reads. -/
def modConv (s : State) (d c : Nat) (f : Conv → Conv) : State :=
  { s with conv := s.conv.set (d * 64 + c) (f (s.conv.get (d * 64 + c) {})) {} }

/-- Excitation chain of axis `n` on die `d`. -/
def getExc (s : State) (d n : Nat) : ExcAx := s.exc.get (d * 8 + n) {}

/-- Changes the record `getExc` reads. -/
def modExc (s : State) (d n : Nat) (f : ExcAx → ExcAx) : State :=
  { s with exc := s.exc.set (d * 8 + n) (f (s.exc.get (d * 8 + n) {})) {} }

/-- Tracker of axis `n` on die `d`. -/
def getTrk (s : State) (d n : Nat) : TrkAx := s.trk.get (d * 8 + n) {}

/-- Changes the record `getTrk` reads. -/
def modTrk (s : State) (d n : Nat) (f : TrkAx → TrkAx) : State :=
  { s with trk := s.trk.set (d * 8 + n) (f (s.trk.get (d * 8 + n) {})) {} }

/-- Table slot `t` of axis `n` on die `d`. -/
def getSlot (s : State) (d n t : Nat) : TblSlot := s.slots.get ((d * 8 + n) * 4 + t) {}

/-- Changes the record `getSlot` reads. -/
def modSlot (s : State) (d n t : Nat) (f : TblSlot → TblSlot) : State :=
  { s with slots := s.slots.set ((d * 8 + n) * 4 + t) (f (s.slots.get ((d * 8 + n) * 4 + t) {})) {} }

/-- Page command of die `d`. -/
def getTcmd (s : State) (d : Nat) : TblCmd := s.tcmd.get (d) {}

/-- Changes the record `getTcmd` reads. -/
def modTcmd (s : State) (d : Nat) (f : TblCmd → TblCmd) : State :=
  { s with tcmd := s.tcmd.set (d) (f (s.tcmd.get (d) {})) {} }

/-- Carrel entry `k` of die `d`: page·2,048 + entry (R129). -/
def getEntry (s : State) (d k : Nat) : BitVec 16 := s.carrel.get (d * 65536 + k) 0

/-- Changes the record `getEntry` reads. -/
def modEntry (s : State) (d k : Nat) (f : BitVec 16 → BitVec 16) : State :=
  { s with carrel := s.carrel.set (d * 65536 + k) (f (s.carrel.get (d * 65536 + k) 0)) 0 }

/-- Encoder paths of axis `n` on die `d`. -/
def getEnc (s : State) (d n : Nat) : EncAx := s.encx.get (d * 8 + n) {}

/-- Changes the record `getEnc` reads. -/
def modEnc (s : State) (d n : Nat) (f : EncAx → EncAx) : State :=
  { s with encx := s.encx.set (d * 8 + n) (f (s.encx.get (d * 8 + n) {})) {} }

/-- Filter slot `c` of die `d`. -/
def getFil (s : State) (d c : Nat) : FilSlot := s.fil.get (d * 64 + c) {}

/-- Changes the record `getFil` reads. -/
def modFil (s : State) (d c : Nat) (f : FilSlot → FilSlot) : State :=
  { s with fil := s.fil.set (d * 64 + c) (f (s.fil.get (d * 64 + c) {})) {} }

/-- Detector `i` of die `d`. -/
def getDet (s : State) (d i : Nat) : DetRec := s.det.get (d * 16 + i) {}

/-- Changes the record `getDet` reads. -/
def modDet (s : State) (d i : Nat) (f : DetRec → DetRec) : State :=
  { s with det := s.det.set (d * 16 + i) (f (s.det.get (d * 16 + i) {})) {} }

/-- Line-phase tracker of die `d`. -/
def getLpt (s : State) (d : Nat) : LptRec := s.lpt.get (d) {}

/-- Changes the record `getLpt` reads. -/
def modLpt (s : State) (d : Nat) (f : LptRec → LptRec) : State :=
  { s with lpt := s.lpt.set (d) (f (s.lpt.get (d) {})) {} }

/-- Armed synchronising reset of die `d`: its tick (R186). -/
def getSync (s : State) (d : Nat) : Option Nat := s.sync.get (d) none

/-- Changes the record `getSync` reads. -/
def modSync (s : State) (d : Nat) (f : Option Nat → Option Nat) : State :=
  { s with sync := s.sync.set (d) (f (s.sync.get (d) none)) none }

/-- Word `w` of the law program memory of die `d`. -/
def getPm (s : State) (d w : Nat) : Word := s.progmem.get (d * 16384 + w) 0

/-- Changes the record `getPm` reads. -/
def modPm (s : State) (d w : Nat) (f : Word → Word) : State :=
  { s with progmem := s.progmem.set (d * 16384 + w) (f (s.progmem.get (d * 16384 + w) 0)) 0 }

/-- The second run's copy of word `w` of the law program memory of die `d` (R314). -/
def getTwin (s : State) (d w : Nat) : Word := s.twin.get (d * 16384 + w) 0

/-- Changes the record `getTwin` reads. -/
def modTwin (s : State) (d w : Nat) (f : Word → Word) : State :=
  { s with twin := s.twin.set (d * 16384 + w) (f (s.twin.get (d * 16384 + w) 0)) 0 }

/-- Law engine state of axis `n` on die `d`. -/
def getLaw (s : State) (d n : Nat) : LawAx := s.law.get (d * 8 + n) {}

/-- Changes the record `getLaw` reads. -/
def modLaw (s : State) (d n : Nat) (f : LawAx → LawAx) : State :=
  { s with law := s.law.set (d * 8 + n) (f (s.law.get (d * 8 + n) {})) {} }

/-- Law engine state of die `d`. -/
def getLawDie (s : State) (d : Nat) : LawDie := s.lawd.get (d) {}

/-- Changes the record `getLawDie` reads. -/
def modLawDie (s : State) (d : Nat) (f : LawDie → LawDie) : State :=
  { s with lawd := s.lawd.set (d) (f (s.lawd.get (d) {})) {} }

/-- Shared-angle channel `c` of die `d`. -/
def getChan (s : State) (d c : Nat) : ChanRec := s.chan.get (d * 64 + c) {}

/-- Changes the record `getChan` reads. -/
def modChan (s : State) (d c : Nat) (f : ChanRec → ChanRec) : State :=
  { s with chan := s.chan.set (d * 64 + c) (f (s.chan.get (d * 64 + c) {})) {} }

/-- Tune unit of axis `n` on die `d`. -/
def getTune (s : State) (d n : Nat) : TuneAx := s.tune.get (d * 8 + n) {}

/-- Changes the record `getTune` reads. -/
def modTune (s : State) (d n : Nat) (f : TuneAx → TuneAx) : State :=
  { s with tune := s.tune.set (d * 8 + n) (f (s.tune.get (d * 8 + n) {})) {} }

/-- Capture unit of die `d`. -/
def getTrc (s : State) (d : Nat) : TrcDie := s.trc.get (d) {}

/-- Changes the record `getTrc` reads. -/
def modTrc (s : State) (d : Nat) (f : TrcDie → TrcDie) : State :=
  { s with trc := s.trc.set (d) (f (s.trc.get (d) {})) {} }

/-- Byte `o` of the trace buffer of die `d`. -/
def getTrcByte (s : State) (d o : Nat) : Byte := s.trcbuf.get (d * 65536 + o) 0

/-- Changes the record `getTrcByte` reads. -/
def modTrcByte (s : State) (d o : Nat) (f : Byte → Byte) : State :=
  { s with trcbuf := s.trcbuf.set (d * 65536 + o) (f (s.trcbuf.get (d * 65536 + o) 0)) 0 }

/-- Ring `r` of the function of die `d`. -/
def getRing (s : State) (d r : Nat) : RingRec := s.ring.get (d * 64 + r) {}

/-- Changes the record `getRing` reads. -/
def modRing (s : State) (d r : Nat) (f : RingRec → RingRec) : State :=
  { s with ring := s.ring.set (d * 64 + r) (f (s.ring.get (d * 64 + r) {})) {} }

/-- MSI-X of the function of die `d`. -/
def getMsix (s : State) (d : Nat) : MsixRec := s.msix.get (d) {}

/-- Changes the record `getMsix` reads. -/
def modMsix (s : State) (d : Nat) (f : MsixRec → MsixRec) : State :=
  { s with msix := s.msix.set (d) (f (s.msix.get (d) {})) {} }

/-- Firmware queue of die `d`. -/
def getFwq (s : State) (d : Nat) : List FwEnt := s.fwq.get (d) []

/-- Changes the record `getFwq` reads. -/
def modFwq (s : State) (d : Nat) (f : List FwEnt → List FwEnt) : State :=
  { s with fwq := s.fwq.set (d) (f (s.fwq.get (d) [])) [] }

/-- Fabric state of die `d`. -/
def getTrm (s : State) (d : Nat) : TrmDie := s.trm.get (d) {}

/-- Changes the record `getTrm` reads. -/
def modTrm (s : State) (d : Nat) (f : TrmDie → TrmDie) : State :=
  { s with trm := s.trm.set (d) (f (s.trm.get (d) {})) {} }

/-- Teram port of die `d`. -/
def getPort (s : State) (d : Nat) : PortRec := s.port.get (d) {}

/-- Changes the record `getPort` reads. -/
def modPort (s : State) (d : Nat) (f : PortRec → PortRec) : State :=
  { s with port := s.port.set (d) (f (s.port.get (d) {})) {} }

/-- Stacks production of die `d`. -/
def getStk (s : State) (d : Nat) : StkDie := s.stk.get (d) {}

/-- Changes the record `getStk` reads. -/
def modStk (s : State) (d : Nat) (f : StkDie → StkDie) : State :=
  { s with stk := s.stk.set (d) (f (s.stk.get (d) {})) {} }

/-- Namespace `k` + 1 of the drive of die `c`. -/
def getNsr (s : State) (c k : Nat) : NsRec := s.nsr.get (c * 4 + k) {}

/-- Changes the record `getNsr` reads. -/
def modNsr (s : State) (c k : Nat) (f : NsRec → NsRec) : State :=
  { s with nsr := s.nsr.set (c * 4 + k) (f (s.nsr.get (c * 4 + k) {})) {} }

/-- Memory services of die `d`. -/
def getMem (s : State) (d : Nat) : MemRec := s.memr.get (d) {}

/-- Changes the record `getMem` reads. -/
def modMem (s : State) (d : Nat) (f : MemRec → MemRec) : State :=
  { s with memr := s.memr.set (d) (f (s.memr.get (d) {})) {} }

/-- Ledger records that wait at die `d`. -/
def getLedq (s : State) (d : Nat) : List LedgEnt := s.ledq.get (d) []

/-- Changes the record `getLedq` reads. -/
def modLedq (s : State) (d : Nat) (f : List LedgEnt → List LedgEnt) : State :=
  { s with ledq := s.ledq.set (d) (f (s.ledq.get (d) [])) [] }

/-- Flash command of die `d`. -/
def getNvf (s : State) (d : Nat) : Option NvfRun := s.nvf.get (d) none

/-- Changes the record `getNvf` reads. -/
def modNvf (s : State) (d : Nat) (f : Option NvfRun → Option NvfRun) : State :=
  { s with nvf := s.nvf.set (d) (f (s.nvf.get (d) none)) none }

/-- Marker pair of sector `k` of area `a` of die `d`. -/
def getMark (s : State) (d a k : Nat) : Marker := s.mark.get ((d * 4 + a) * 256 + k) {}

/-- Changes the record `getMark` reads. -/
def modMark (s : State) (d a k : Nat) (f : Marker → Marker) : State :=
  { s with mark := s.mark.set ((d * 4 + a) * 256 + k) (f (s.mark.get ((d * 4 + a) * 256 + k) {})) {} }

/-- Requests to the signer of die `d`. -/
def getSignq (s : State) (d : Nat) : List SignReq := s.signq.get (d) []

/-- Changes the record `getSignq` reads. -/
def modSignq (s : State) (d : Nat) (f : List SignReq → List SignReq) : State :=
  { s with signq := s.signq.set (d) (f (s.signq.get (d) [])) [] }

/-- Byte `o` of the report window of die `d`. -/
def getRepByte (s : State) (d o : Nat) : Byte := s.report.get (d * 4096 + o) 0

/-- Changes the record `getRepByte` reads. -/
def modRepByte (s : State) (d o : Nat) (f : Byte → Byte) : State :=
  { s with report := s.report.set (d * 4096 + o) (f (s.report.get (d * 4096 + o) 0)) 0 }

/-- Governor of die `d`. -/
def getGov (s : State) (d : Nat) : PwrDie := s.gov.get (d) {}

/-- Changes the record `getGov` reads. -/
def modGov (s : State) (d : Nat) (f : PwrDie → PwrDie) : State :=
  { s with gov := s.gov.set (d) (f (s.gov.get (d) {})) {} }

/-- Rails of die `d`. -/
def getRails (s : State) (d : Nat) : RailRec := s.rails.get (d) {}

/-- Changes the record `getRails` reads. -/
def modRails (s : State) (d : Nat) (f : RailRec → RailRec) : State :=
  { s with rails := s.rails.set (d) (f (s.rails.get (d) {})) {} }

/-- Collector state of source `k` of die `d`. -/
def getSrc (s : State) (d k : Nat) : SrcRec := s.src.get (d * 1024 + k) {}

/-- Changes the record `getSrc` reads. -/
def modSrc (s : State) (d k : Nat) (f : SrcRec → SrcRec) : State :=
  { s with src := s.src.set (d * 1024 + k) (f (s.src.get (d * 1024 + k) {})) {} }

/-- Collector state of die `d`. -/
def getFlt (s : State) (d : Nat) : FltDie := s.flt.get (d) {}

/-- Changes the record `getFlt` reads. -/
def modFlt (s : State) (d : Nat) (f : FltDie → FltDie) : State :=
  { s with flt := s.flt.set (d) (f (s.flt.get (d) {})) {} }

/-- Hart `h` of die `d`. -/
def getHart (s : State) (d h : Nat) : HartRec := s.hart.get (d * 2 + h) {}

/-- Changes the record `getHart` reads. -/
def modHart (s : State) (d h : Nat) (f : HartRec → HartRec) : State :=
  { s with hart := s.hart.set (d * 2 + h) (f (s.hart.get (d * 2 + h) {})) {} }

/-- Byte `o` of the tightly-coupled SRAM of hart `h` of die `d`. -/
def getTcm (s : State) (d h o : Nat) : Byte := s.tcm.get ((d * 2 + h) * 262144 + o) 0

/-- Changes the record `getTcm` reads. -/
def modTcm (s : State) (d h o : Nat) (f : Byte → Byte) : State :=
  { s with tcm := s.tcm.set ((d * 2 + h) * 262144 + o) (f (s.tcm.get ((d * 2 + h) * 262144 + o) 0)) 0 }

/-- Staging and epochs of die `d`. -/
def getEpo (s : State) (d : Nat) : EpoDie := s.epo.get (d) {}

/-- Changes the record `getEpo` reads. -/
def modEpo (s : State) (d : Nat) (f : EpoDie → EpoDie) : State :=
  { s with epo := s.epo.set (d) (f (s.epo.get (d) {})) {} }

/-! Free values -/

/-- Draws a free value: a number nothing constrains (log entry 4). -/
def free (s : State) : Nat := Config.freeValue s.seed

/-- The state after a free value has been drawn. -/
def drew (s : State) : State := { s with seed := s.seed + 1 }

/-! Time -/

/-- PT64 as die `d` holds it (R44, R45). -/
def ptD (s : State) (d : Nat) : Nat := enc 64 ((s.pt : Int) + (s.getDie d).ptOff)

/-- `k` root ticks pass (R44). -/
def pass (s : State) (k : Nat) : State := { s with now := s.now + k, pt := (s.pt + k) % 2 ^ 64 }

/-- Time passes up to PT tick `t`, if it lies ahead. -/
def passTo (s : State) (t : Nat) : State := if s.pt < t then s.pass (t - s.pt) else s

/-- Time passes up to the next multiple of `g` ticks at or after the present. -/
def toGrid (s : State) (g : Nat) : State := s.pass ((g - s.pt % g) % g)

/-- The first PT tick on which recurring step `k` may fall: not the one on which it last took place (log entry 9). -/
def freshPt (s : State) (k : Nat) : Nat := if s.lastAt.get k 0 = s.pt + 1 then s.pt + 1 else s.pt

/-- Recurring step `k` takes place now. -/
def occurs (s : State) (k : Nat) : State := { s with lastAt := s.lastAt.set k (s.pt + 1) 0 }

/-- Time passes up to the next multiple of `g` ticks on which recurring step `k` falls, and it takes place. -/
def toNext (s : State) (k g : Nat) : State :=
  let t := s.freshPt k
  (s.pass (t - s.pt + (g - t % g) % g)).occurs k

/-- The number of recurring step `kind` of axis `n` of die `d`. -/
def stepNo (kind d n : Nat) : Nat := kind * 64 + d * 8 + n

/-- Latches `k` words from address `a` as a reader will see them (CLK_PT, TRK_ANG, EVT_HEAD ...). -/
def latchWords (s : State) (a : Nat) : Nat → State
  | 0 => s
  | k + 1 => ({ s with latch := s.latch.set a (s.reg a) 0 }).latchWords (a + 4) k

/-- A word latched by the last read of its low word. -/
def latched (s : State) (a : Nat) : Nat := (s.latch.get a 0).toNat

/-! Flash (R459, R461, R463) -/

/-- What flash byte `k` reads as when nothing has been programmed: erased 0xFF, and in the calibration row, which is
written at manufacture, a valid row of zero trims, version 1, serial number 0 and 100 MHz (log entry 7). -/
def flashDflt (k : Nat) : Byte :=
  if k / 2 ^ 24 % 4 = 3 then
    match k % 2 ^ 24 with
    | 0 => 0x43 | 1 => 0x41 | 2 => 0x4C | 3 => 0x52 | 4 => 1
    | 0x11 => 0xE1 | 0x12 => 0xF5 | 0x13 => 0x05
    | 0x200 => 1
    | 0x7FC => 0x75 | 0x7FD => 0xB3 | 0x7FE => 0x46 | 0x7FF => 0x12
    | _ => 0
  else 0xFF

/-- The number of a flash byte of die `d`. -/
def flashKey (d area o : Nat) : Nat := d * 2 ^ 26 + area * 2 ^ 24 + o

/-- A byte of flash. -/
def flashByte (s : State) (d area o : Nat) : Byte := s.flash.get (flashKey d area o) (flashDflt (flashKey d area o))

/-- `k` bytes of flash as a little-endian number (R11). -/
def flashLe (s : State) (d area o : Nat) : Nat → Nat
  | 0 => 0
  | k + 1 => (s.flashByte d area o).toNat + 256 * s.flashLe d area (o + 1) k

/-- Writes a byte of flash. -/
def setFlash (s : State) (d area o : Nat) (v : Byte) : State :=
  { s with flash := s.flash.set (flashKey d area o) v (flashDflt (flashKey d area o)) }

/-- A signed 16-bit field of the calibration row (R461). -/
def cal16 (s : State) (d o : Nat) : Int := sgn 16 (s.flashLe d 3 o 2)

/-- Offset of the option copy that the die has loaded: copy A at 0, copy B at 0x800 (R462). -/
def optBase (s : State) (d : Nat) : Nat := if s.bit d NVF_OPT.COPY then 0x800 else 0

/-- A field of the loaded option copy, little-endian (R463). -/
def opt (s : State) (d o k : Nat) : Nat := s.flashLe d 2 (s.optBase d + o) k

/-! Messages -/

/-- A block of die `d` reports to its collector (R287). -/
def send (s : State) (d : Nat) (m : Msg) : State :=
  { s with inbox := s.inbox.set d (s.inbox.get d [] ++ [m]) [] }

/-- A block reports message `m`; in divided mode a per-axis source only of an axis the die owns (R486). -/
def raiseMsg (s : State) (d : Nat) (m : Msg) : State :=
  if m.src < 224 ∧ s.bit d GLB_ID.PAIRMODE ∧ m.src % 8 / 4 ≠ d % 2 then s else s.send d m

/-- Raises local source `src` of die `d` with a kind of R288 and an address of R287. -/
def raise (s : State) (d src kind addr : Nat) : State := s.raiseMsg d { src := src, kind := kind, addr := addr % 65536 }

/-- Raises the per-axis source of type `t` for axis `n`, with n in ADDR [2:0] (R483, R486). -/
def raiseAx (s : State) (d n t kind : Nat) : State := s.raise d (8 * t + n) kind n

/-- An injection runs on checker `chk` of die `d` and is not muted (R306, R307). -/
def injLoud (s : State) (d chk : Nat) : Bool :=
  s.bit d FLT_INJSTAT.BUSY && (s.getFlt d).chk == chk && !s.bit d FLT_INJ.MUTE

/-- A check of checker `chk` of die `d`: with its injection running it reports a detection with INJ set, and LEFT counts down; at 0
inject-done is raised (R306). -/
def inject (s : State) (d chk src kind addr : Nat) : State :=
  if s.bit d FLT_INJSTAT.BUSY && (s.getFlt d).chk == chk then
    let s := s.raiseMsg d { src := src, kind := kind, addr := addr % 65536, inj := true, muted := s.bit d FLT_INJ.MUTE }
    let left := s.rd d FLT_INJSTAT.LEFT - 1
    let s := s.wr d FLT_INJSTAT.LEFT left
    if left = 0 then (s.wr d FLT_INJSTAT.BUSY 0).raise d 307 3 0 else s
  else s

/-- An access that does not take place (R304): the first is captured in FLT_AFADDR, FLT_AFINFO and FLT_AFPT of the die whose
window was addressed, later ones add to MORE; access-fault is raised, and the ledger detail names this access. `m` is the
master, `size` the code of FLT_AFINFO.SIZE, `addr` the BAR0 address. -/
def accessFault (s : State) (d m : Nat) (wr : Bool) (size reason addr : Nat) : State :=
  let info := m % 16 + 16 * b2n wr + 32 * (size % 4) + 256 * (reason % 16) + 65536
  let s :=
    if s.bit d FLT_AFINFO.VALID then s.addSat d FLT_AFINFO.MORE
    else
      let s := (s.wr d FLT_AFADDR.ADDR addr).wr d FLT_AFPT.PT (s.ptD d)
      let s := ((s.wr d FLT_AFINFO.MASTER m).wr d FLT_AFINFO.WR (b2n wr)).wr d FLT_AFINFO.SIZE size
      (s.wr d FLT_AFINFO.REASON reason).wr d FLT_AFINFO.VALID 1
  s.send d { src := 304, kind := 8, addr := s.rd d FLT_AFADDR.ADDR % 65536, detail := addr % 2 ^ 32 + 2 ^ 32 * info }

/-! Interrupt lines of the harts -/

/-- Asserts or releases interrupt line `l` toward hart `h` of die `d` (R331). -/
def setIrq (s : State) (d h l : Nat) (on : Bool) : State :=
  { s with irq := s.irq.set (d * 2 + h) (putBit (s.irq.get (d * 2 + h) 0) l on) 0 }

/-- Asserts or releases line `l` toward both harts of die `d`. -/
def setIrqs (s : State) (d l : Nat) (on : Bool) : State := (s.setIrq d 0 l on).setIrq d 1 l on

/-! Pair sites (R14, R17) -/

/-- The pair site runs in divided mode (R17). -/
def divided (s : State) (d : Nat) : Bool := s.bit d GLB_ID.PAIRMODE

/-- Die `d` holds the register set of axis `n` (R26, R27). -/
def holds (s : State) (d n : Nat) : Bool := !s.divided d || n / 4 == d % 2

/-- Die `d` answers on the pair bridge: out of reset and with path A alive (R26). -/
def bridgeUp (s : State) (d : Nat) : Bool :=
  !(s.getDie d).inReset && !(s.getDie (mateOf d)).inReset &&
    s.bit d PAIR_STAT.PATHA && s.bit (mateOf d) PAIR_STAT.PATHA

/-- The die of pair site of `d` that is active, d(2k) where none is (R17, R335). -/
def activeOf (s : State) (d : Nat) : Nat :=
  let e := d / 2 * 2
  let act := fun x => s.rd x PAIR_STAT.ROLE == 1 || s.rd x PAIR_STAT.ROLE == 4
  if act e then e else if act (e + 1) then e + 1 else e

/-- RELEASED of die `d`: its pads have let the shared balls go for a reason other than a seize (R349), in a release other than a swap's
from 2 ns after Ts on (R350). -/
def hasReleased (s : State) (d : Nat) : Bool :=
  let p := s.getPair d
  p.released || match p.releasing with
    | some ts => !p.swapping && decide (ts + 5 ≤ s.pt)
    | none => false

/-- Die `d` owns the output balls of axis `n`: in divided mode the axes of R17, in standby mode those of the active die;
before full service d(2k), unless its mate is active (R335, R337, R338); in reset those it owned when it was reset (R53). A die
whose mate asserts seize, or that has released its pads, owns none (R345, R349). -/
def owns (s : State) (d n : Nat) : Bool :=
  let m := mateOf d
  if s.bit m PAIR_STAT.SEIZING || s.hasReleased d || (s.getDie d).optMismatch then false
  else if (s.getDie d).inReset then bitOf (s.getDie d).heldMask n
  else if s.divided d then n / 4 == d % 2
  else match s.rd d PAIR_STAT.ROLE with
    | 0 =>
      d % 2 == 0 && s.rd d GLB_PHASE.PHASE < 5 && s.rd m PAIR_STAT.ROLE != 1 && s.rd m PAIR_STAT.ROLE != 4 &&
        !((s.getDie m).inReset && bitOf (s.getDie m).heldMask n)
    | 1 => true
    | 4 => true
    | _ => false

/-- The member has die `d`. -/
def hasDie (s : State) (d : Nat) : Bool := d < s.dies

/-- The dies of the member that are out of reset, in order. -/
def liveDies (s : State) : List Nat := (List.range s.dies).filter fun d => !(s.getDie d).inReset

/-! The spine (R20) -/

/-- Spine link `l`, which joins die l to the next die of the ring, is up. -/
def linkUp (s : State) (l : Nat) : Bool := !s.spineDown.get l false

/-- Going up from die `a`, die `b` is reached within `k` links: each link is up and each die passed is out of reset. -/
def reachUp (s : State) (b : Nat) : Nat → Nat → Bool
  | 0, _ => false
  | k + 1, a =>
    let a' := (a + 1) % s.dies
    s.linkUp a && !(s.getDie a').inReset && (a' == b || reachUp s b k a')

/-- Going down from die `a`. -/
def reachDown (s : State) (b : Nat) : Nat → Nat → Bool
  | 0, _ => false
  | k + 1, a =>
    let a' := (a + s.dies - 1) % s.dies
    s.linkUp a' && !(s.getDie a').inReset && (a' == b || reachDown s b k a')

/-- Dies `a` and `b` reach each other over the spine: one link between the dies of a Gulyr 2, else either way round the ring. -/
def reach (s : State) (a b : Nat) : Bool :=
  !(s.getDie a).inReset && !(s.getDie b).inReset &&
    (a == b || (if s.dies = 2 then s.linkUp 0 else s.reachUp b (s.dies - 1) a || s.reachDown b (s.dies - 1) a))

/-- The package time master: the lowest-numbered die that holds aligned package time (R45). -/
def master (s : State) : Option Nat := s.liveDies.find? fun d => s.bit d CLK_STAT.PTALIGNED

/-- Applies `f` for each number of the list, in order. -/
def forEach (s : State) (l : List Nat) (f : Nat → State → State) : State := l.foldl (fun t k => f k t) s

/-- The answer to a read. -/
def answer (s : State) (v : Nat) : State := { s with readData := v }

end State

/-! How a command reaches its die -/

/-- What a command leaves, `t` being its effect: the queue of waiting commands is the step's alone, and the member and its grade are
fixed by bonding (R1). -/
def State.commit (s t : State) : State := { t with pending := s.pending, dies := s.dies, grade := s.grade }

/-- The outcome of a command about the package. -/
def onPackage (s : State) (f : State → State) : Host.Outcome State Fault Refusal := .next (s.commit (f s))

/-- The outcome of a command about an item: its effect where the member has the item, else the named stop (R2). -/
def onItem (ok : Bool) (s : State) (f : State → State) : Host.Outcome State Fault Refusal :=
  if ok then onPackage s f else .fault .noSuchItem

/-- The outcome of a command about die `d`. -/
def onDie (d : Nat) (s : State) (f : State → State) : Host.Outcome State Fault Refusal :=
  onItem (s.hasDie d) s f

/-- The outcome of an event of die `d` that only a die out of reset can have: a die in reset takes no step (R51). -/
def onLive (d : Nat) (s : State) (f : State → State) : Host.Outcome State Fault Refusal :=
  onDie d s fun s => if (s.getDie d).inReset then s else f s

/-- The outcome of an event of axis `n` of die `d`, out of reset. -/
def onAxis (d n : Nat) (s : State) (f : State → State) : Host.Outcome State Fault Refusal :=
  onItem (s.hasDie d && n < 8) s fun s => if (s.getDie d).inReset then s else f s

/-- The outcome of an event of item `k` of `cnt` of die `d`, out of reset. -/
def onPart (d k cnt : Nat) (s : State) (f : State → State) : Host.Outcome State Fault Refusal :=
  onItem (s.hasDie d && k < cnt) s fun s => if (s.getDie d).inReset then s else f s

end Sys2Proof.Machine
end

