-- ==== Sys2Proof/Machine/Operands.lean ====
section
/-!
DEFINITION. Exact arithmetic of the spec: rounding half to even, saturation, and the number formats of R6.
-/

namespace Sys2Proof.Machine

/-- `a / b` rounded to the nearest whole number, ties to even; `b` positive. -/
def rheDiv (a : Int) (b : Nat) : Int :=
  let q := a / (b : Int)
  let r := a % (b : Int)
  if 2 * r < b then q else if (b : Int) < 2 * r then q + 1 else if q % 2 = 0 then q else q + 1

/-- A rational rounded to the nearest whole number, ties to even. -/
def rheQ (x : Rat) : Int := rheDiv x.num x.den

/-- A rational rounded down to a whole number. -/
def floorQ (x : Rat) : Int := x.num / (x.den : Int)

/-- A value held in the range of a `w`-bit two's-complement number. -/
def satI (w : Nat) (v : Int) : Int := clampI (-(2 ^ (w - 1) : Nat)) ((2 ^ (w - 1) : Nat) - 1) v

/-- The absolute value of a rational. -/
def absQ (x : Rat) : Rat := if x < 0 then -x else x

/-- `x` held in lo to hi. -/
def clampQ (lo hi x : Rat) : Rat := if x < lo then lo else if hi < x then hi else x

/-- 2 to the power of a signed exponent. -/
def pow2 (e : Int) : Rat := if 0 ≤ e then ((2 ^ e.toNat : Nat) : Rat) else 1 / ((2 ^ (-e).toNat : Nat) : Rat)

/-- The floor of the square root, by `k` halvings of the interval [0, 2^k). -/
def isqrtAux (n : Nat) : Nat → Nat → Nat
  | 0, r => r
  | k + 1, r => if (r + 2 ^ k) * (r + 2 ^ k) ≤ n then isqrtAux n k (r + 2 ^ k) else isqrtAux n k r

/-- The floor of the square root of `n`. -/
def isqrt (n : Nat) : Nat := isqrtAux n (n.log2 / 2 + 1) 0

/-- The square root of a whole number rounded to the nearest whole number (no tie can arise). -/
def sqrtRound (n : Nat) : Nat :=
  let r := isqrt n
  if r * r + r < n then r + 1 else r

/-- The difference of two angles in units of 2^-w rev, taken to [-1/2, 1/2) rev. -/
def wrapDiff (w : Nat) (a b : Int) : Int := sgn w (enc w (a - b))

/-! Angles: sine, cosine and arc tangent -/

/-- Pi, to 30 digits. -/
def piQ : Rat := 3141592653589793238462643383279 / 1000000000000000000000000000000

/-- The Taylor sum of the sine of `y`: `k` further terms, from the term `t` of order `n`. -/
def sinSum (y2 : Rat) : Nat → Nat → Rat → Rat
  | 0, _, t => t
  | k + 1, n, t => t + sinSum y2 k (n + 2) (-(t * y2) / (((n + 1) * (n + 2) : Nat) : Rat))

/-- The sine of a quarter-turn angle `r` / 2^40 rev, 0 to 1/4, in 2^-30. -/
def sinQuarter (r : Nat) : Int :=
  let y : Rat := ((r : Nat) : Rat) / 1099511627776 * 2 * piQ
  rheQ (sinSum (y * y) 8 1 y * 1073741824)

/-- The sine of the angle `th` in 2^-40 rev, in 2^-30. -/
def sin30 (th : Int) : Int :=
  let x := enc 40 th
  let r := x % 2 ^ 38
  match x / 2 ^ 38 with
  | 0 => sinQuarter r
  | 1 => sinQuarter (2 ^ 38 - r)
  | 2 => -sinQuarter r
  | _ => -sinQuarter (2 ^ 38 - r)

/-- The cosine of the angle `th` in 2^-40 rev, in 2^-30. -/
def cos30 (th : Int) : Int := sin30 (th + 2 ^ 38)

/-- Halving search for the angle, in 2^-40 rev below 1/4, whose tangent is y / x, for x, y not negative. -/
def atanAux (y x : Int) : Nat → Int → Int
  | 0, a => a
  | k + 1, a =>
    let a' := a + 2 ^ k
    if x * sin30 a' ≤ y * cos30 a' then atanAux y x k a' else atanAux y x k a

/-- The arc tangent of y / x in its quadrant, in 2^-40 rev, -1/2 to 1/2; 0 for the zero vector. -/
def atan40 (y x : Int) : Int :=
  if x = 0 ∧ y = 0 then 0
  else
    let a := atanAux (if y < 0 then -y else y) (if x < 0 then -x else x) 38 0
    let a := if x < 0 then 2 ^ 39 - a else a
    if y < 0 then -a else a

/-- A real number held to whole units where the spec fixes no rounding: itself where it is whole, else one of its two
neighbours, which one is free (log entry 11). -/
def State.near (s : State) (x : Rat) : Int × State :=
  if x.den = 1 then (x.num, s) else (floorQ x + ((s.free % 2 : Nat) : Int), s.drew)

end Sys2Proof.Machine
end

