-- ==== Sys2Proof/Machine/DramOps.lean ====
section
/-!
DEFINITION. Bytes of the package DRAM: the serving channel, the mirror, the capacity (R425, R427).
-/

namespace Sys2Proof.Machine

namespace State

/-- Every DRAM write goes to both channels: MIRROR = 1 on both p0 dies, and both channels trained (R425). -/
def mirrored (s : State) : Bool :=
  s.bit 0 MEM_CTRL.MIRROR && s.bit 1 MEM_CTRL.MIRROR && s.bit 0 MEM_STAT.UP && s.bit 1 MEM_STAT.UP

/-- The capacity addressed, in bytes: of the serving channel, or the smaller one with the mirror (R425, R427). -/
def dramCap (s : State) (ch : Nat) : Nat :=
  if s.mirrored then min (s.getMem 0).size (s.getMem 1).size * 2 ^ 30 else (s.getMem ch).size * 2 ^ 30

/-- A byte of channel `ch`; unlisted bytes read 0 (log entry 2). -/
def dramByte (s : State) (ch a : Nat) : Byte := s.dram.get (ch * 2 ^ 35 + a) 0

/-- Writes a byte of channel `ch`. -/
def setDramByte (s : State) (ch a : Nat) (v : Byte) : State :=
  { s with dram := s.dram.set (ch * 2 ^ 35 + a) v 0 }

/-- `k` bytes of the serving channel from address `a`; above the capacity bytes read 0 (R427). -/
def dramBytes (s : State) (ch a k : Nat) : List Byte :=
  (List.range k).map fun i => if a + i < s.dramCap ch then s.dramByte ch (a + i) else 0

/-- Writes bytes from address `a` to channel `ch`, and to the other one with the mirror; bytes above the capacity are
discarded (R425, R427). -/
def putDram (s : State) (ch a : Nat) (bs : List Byte) : State :=
  let cap := s.dramCap ch
  let mir := s.mirrored
  (bs.foldl (fun (p : State × Nat) b =>
    let t := p.1
    let i := p.2
    let t := if i < cap then
        let t := t.setDramByte ch i b
        if mir then t.setDramByte (1 - ch) i b else t
      else t
    (t, i + 1)) (s, a)).1

/-- An access of `k` bytes at `a` reaches above the capacity: mem-range is raised on the serving die, with the address bits
[34:19] in ADDR (R427). -/
def rangeCheck (s : State) (ch a k : Nat) : State :=
  if s.dramCap ch < a + k then s.raise ch 530 3 (a / 2 ^ 19) else s

/-- A read of `k` bytes of DRAM, or none where no die serves it. -/
def dramRead (s : State) (a k : Nat) : Option (List Byte) × State :=
  match s.dramSrv with
  | none => (none, s)
  | some ch => (some (s.dramBytes ch a k), s.rangeCheck ch a k)

/-- A write of bytes to DRAM; false where no die serves it. -/
def dramWrite (s : State) (a : Nat) (bs : List Byte) : Bool × State :=
  match s.dramSrv with
  | none => (false, s)
  | some ch => (true, (s.rangeCheck ch a bs.length).putDram ch a bs)

end State

/-- `k` bytes of a number, the low byte first (R11). -/
def leBytes (v : Nat) : Nat → List Byte
  | 0 => []
  | k + 1 => BitVec.ofNat 8 v :: leBytes (v / 256) k

/-- A number from its bytes, the low byte first (R11). -/
def leNum : List Byte → Nat
  | [] => 0
  | b :: bs => b.toNat + 256 * leNum bs

end Sys2Proof.Machine
end

