-- ==== Sys2Proof/Machine/Hash.lean ====
section
/-!
DEFINITION. The checks and digests the spec names: CRC-32C (R12), the CRC-8 of path B (R340), SHA-256 and SHA-384 of
FIPS 180-4 (R12).
-/

namespace Sys2Proof.Machine

/-! CRC -/

/-- One bit of the reflected CRC-32C: polynomial 0x1EDC6F41 reflected is 0x82F63B78 (R12). -/
def crcBits : Nat → Nat → Nat
  | 0, c => c
  | k + 1, c => crcBits k (if c % 2 = 1 then Nat.xor (c / 2) 0x82F63B78 else c / 2)

/-- CRC-32C of bytes: initial value and final XOR all ones (R12). -/
def crc32c (bs : List Byte) : Nat :=
  Nat.xor (bs.foldl (fun c b => crcBits 8 (Nat.xor c b.toNat)) 0xFFFFFFFF) 0xFFFFFFFF

/-- CRC-8 with polynomial 0x07 over one byte, as path B uses it (R340); start value 0 (log entry 13). -/
def crc8 (b : Nat) : Nat :=
  (List.range 8).foldl (fun c _ => if 128 ≤ c then Nat.xor (c * 2 % 256) 7 else c * 2 % 256) (b % 256)

/-! SHA-2 (FIPS 180-4): words of `w` bits, 32 or 64 -/

/-- The prime numbers the standard takes its constants from. -/
def shaPrimes : List Nat :=
  [2, 3, 5, 7, 11, 13, 17, 19, 23, 29, 31, 37, 41, 43, 47, 53, 59, 61, 67, 71, 73, 79, 83, 89, 97, 101, 103, 107, 109, 113,
   127, 131, 137, 139, 149, 151, 157, 163, 167, 173, 179, 181, 191, 193, 197, 199, 211, 223, 227, 229, 233, 239, 241, 251] ++
  [257, 263, 269, 271, 277, 281, 283, 293, 307, 311, 313, 317, 331, 337, 347, 349, 353, 359, 367, 373, 379, 383, 389, 397,
   401, 409]

/-- The largest `r` below 2^k with r³ at most `n`. -/
def cubeRoot (n : Nat) : Nat → Nat → Nat
  | 0, r => r
  | k + 1, r => if (r + 2 ^ k) ^ 3 ≤ n then cubeRoot n k (r + 2 ^ k) else cubeRoot n k r

/-- The round constants: the first `w` bits of the fractional parts of the cube roots of the primes. -/
def shaK (w p : Nat) : Nat := cubeRoot (p * 2 ^ (3 * w)) (w + 4) 0 % 2 ^ w

/-- The start values: the first `w` bits of the fractional parts of the square roots. -/
def shaH (w p : Nat) : Nat := isqrt (p * 2 ^ (2 * w)) % 2 ^ w

/-- Rotation right. -/
def rotr (w n x : Nat) : Nat := x / 2 ^ n + x % 2 ^ n * 2 ^ (w - n)

/-- The sigma functions: two rotations and a third rotation or a shift. -/
def shaSig (w a b c : Nat) (shift : Bool) (x : Nat) : Nat :=
  Nat.xor (Nat.xor (rotr w a x) (rotr w b x)) (if shift then x / 2 ^ c else rotr w c x)

/-- The message schedule, newest word first. -/
def shaSched (w : Nat) : Nat → List Nat → List Nat
  | 0, ws => ws
  | k + 1, ws =>
    let s0 := if w = 32 then shaSig w 7 18 3 true else shaSig w 1 8 7 true
    let s1 := if w = 32 then shaSig w 17 19 10 true else shaSig w 19 61 6 true
    let x := s1 (ws.getD 1 0) + ws.getD 6 0 + s0 (ws.getD 14 0) + ws.getD 15 0
    shaSched w k (x % 2 ^ w :: ws)

/-- One round. -/
def shaRound (w : Nat) (v : List Nat) (kw : Nat × Nat) : List Nat :=
  match v with
  | [a, b, c, d, e, f, g, h] =>
    let e1 := if w = 32 then shaSig w 6 11 25 false e else shaSig w 14 18 41 false e
    let a0 := if w = 32 then shaSig w 2 13 22 false a else shaSig w 28 34 39 false a
    let ch := Nat.xor (Nat.land e f) (Nat.land (2 ^ w - 1 - e) g)
    let maj := Nat.xor (Nat.xor (Nat.land a b) (Nat.land a c)) (Nat.land b c)
    let t1 := h + e1 + ch + kw.1 + kw.2
    [(t1 + a0 + maj) % 2 ^ w, a, b, c, (d + t1) % 2 ^ w, e, f, g]
  | _ => v

/-- A big-endian number from bytes. -/
def beNum (bs : List Byte) : Nat := bs.foldl (fun a b => a * 256 + b.toNat) 0

/-- `k` bytes of a number, the high byte first. -/
def beBytes (v k : Nat) : List Byte := (leBytes v k).reverse

/-- One block. -/
def shaBlock (w : Nat) (h : List Nat) (block : List Byte) : List Nat :=
  let ws := (List.range 16).foldl (fun a i => beNum ((block.drop (i * (w / 8))).take (w / 8)) :: a) []
  let n := if w = 32 then 64 else 80
  let sched := (shaSched w (n - 16) ws).reverse
  let v := (((shaPrimes.take n).map (shaK w)).zip sched).foldl (shaRound w) h
  (h.zip v).map fun x => (x.1 + x.2) % 2 ^ w

/-- The blocks of a padded message, at most `k`. -/
def shaBlocks (w : Nat) : Nat → List Nat → List Byte → List Nat
  | 0, h, _ => h
  | k + 1, h, bs => if bs = [] then h else shaBlocks w k (shaBlock w h (bs.take (2 * w))) (bs.drop (2 * w))

/-- The message padded to whole blocks of 2w bytes. -/
def shaPad (w : Nat) (bs : List Byte) : List Byte :=
  let n := bs.length
  let l := w / 4
  let z := (2 * w - (n + 1 + l) % (2 * w)) % (2 * w)
  bs ++ [0x80] ++ List.replicate z 0 ++ beBytes (8 * n) l

/-- SHA-256: 32 bytes. -/
def sha256 (bs : List Byte) : List Byte :=
  let p := shaPad 32 bs
  (shaBlocks 32 (p.length / 64) ((shaPrimes.take 8).map (shaH 32)) p).flatMap fun x => beBytes x 4

/-- SHA-384: 48 bytes. -/
def sha384 (bs : List Byte) : List Byte :=
  let p := shaPad 64 bs
  ((shaBlocks 64 (p.length / 128) (((shaPrimes.drop 8).take 8).map (shaH 64)) p).flatMap fun x => beBytes x 8).take 48

end Sys2Proof.Machine
end

