-- ==== Sys2Proof/Machine/PairOps.lean ====
section
/-!
DEFINITION. The forwarding of per-axis writes between the mates of a standby pair site (R26).
-/

namespace Sys2Proof.Machine

namespace State

/-- A per-axis write reaches the mate of die `d`: standby mode, the bridge up, and the mate neither waiting for its
service nor failed in resynchronisation (R26, R355). -/
def forwards (s : State) (d : Nat) : Bool :=
  let m := mateOf d
  !s.divided d && s.bridgeUp d && s.rd m PAIR_STAT.RESYNC != 1 && s.rd m PAIR_STAT.RESYNC != 4 &&
    s.rd d PAIR_STAT.RESYNC != 1 && s.rd d PAIR_STAT.RESYNC != 4

/-- In divided mode die `d` does not hold the register set that window offset `off` lies in (R27). -/
def notHeld (s : State) (d off : Nat) : Bool :=
  off / 0x10000 != 10 && decide (off % 0x10000 < 0x8000) && !s.holds d (off % 0x10000 / 0x1000)

end State

/-! Items of a snapshot (R354, R355) -/

/-- The items of a complete snapshot: 8 · row + axis, rows that are taken whole with axis 0; 56 the line-phase tracker's part of row 3. -/
def snapshotAll : List Nat := [0, 8, 40, 56] ++ (List.range 8).flatMap fun n => [16 + n, 24 + n, 32 + n, 48 + n]

/-- Item `i` of the snapshot is applied on die `d`. With the last one the filter slots restart and the shadow comparison begins. -/
def itemApplied (d i : Nat) (s : State) : State :=
  let s := s.modPair d fun p => { p with items := if p.items.contains i then p.items else p.items ++ [i] }
  if s.rd d PAIR_STAT.RESYNC = 2 ∧ (snapshotAll.all fun i => (s.getPair d).items.contains i) then
    let s := s.forEach (List.range 64) fun c s => s.modFil d c fun f => { f with stepAt := some s.pt }
    (s.wr d PAIR_STAT.RESYNC 3).modPair d fun p => { p with shadowAt := s.pt }
  else s

/-- A write to a per-axis register at window offset `off` through the window of die `d` (R26): in divided mode, or while
the mate is out of reach, it applies to die `d` alone; else the active mate applies it at once, which fixes its place in
the one order, and the other mate receives it as a forwarded write. A write into a register set the die does not hold is discarded as
an access fault (R27); which master made it is free. -/
def axisWrite (d off : Nat) (v : Word) (f : Nat → State → State) (s : State) : State :=
  if s.forwards d then
    let a := s.activeOf d
    (f a s).modFwd (mateOf a) fun q => q ++ [{ off := off, val := v, tick := s.pt }]
  else if s.notHeld d off then s.drew.accessFault d (s.free % 7) true 2 2 (d * dieSpan + off)
  else f d s

end Sys2Proof.Machine
end

