-- ==== Sys2Proof/Machine/Pads.lean ====
section
/-!
DEFINITION. Leg logic and pins: dead time and interlock, the safe state of an axis, its entry and the levels of its pins
(R253, R259, R268, R269, R271).
-/

namespace Sys2Proof.Machine

/-- The present time in 1/8 tk. -/
def State.now8 (s : State) : Nat := s.now * 8

/-- A change of leg state at time `t8`: the switch that was on is turned off at once, the other is turned on DT later; a
change during the dead time cancels the pending turn-on (R259). -/
def Leg.change (l : Leg) (lvl : Bool) (t8 dt : Nat) : Leg :=
  if l.st = lvl then l
  else { l with st := lvl, hiOn := false, loOn := false, pend := some (t8 + 8 * dt), wait := none,
                hiOff := if l.hiOn then t8 else l.hiOff, loOff := if l.loOn then t8 else l.loOff }

/-- The pending turn-on takes place at time `t8` (R259); a high-side turn-on edge closes a switching cycle (R265). -/
def Leg.turnOn (l : Leg) (t8 : Nat) : Leg :=
  if l.st then
    let l := match l.lastHi with
      | some h => { l with cyc := l.cyc + 1, cycDur := l.cycDur + (t8 - h) }
      | none => l
    { l with hiOn := true, loOn := false, pend := none, onAt := t8, lastHi := some t8 }
  else { l with hiOn := false, loOn := true, pend := none, onAt := t8 }

/-- The pending turn-on, if it falls at or before `t8`. -/
def Leg.due (l : Leg) (t8 : Nat) : Leg :=
  match l.pend with
  | some p => if p ≤ t8 then l.turnOn p else l
  | none => l

/-- The edges of the period and the pending turn-on that fall at or before `t8`, in order of time; `s8` is the period's
start (R256, R259). -/
def Leg.settle (s8 dt t8 : Nat) : List (Nat × Bool) → Leg → Leg
  | [], l => { l with edges := [] }.due t8
  | (e, lvl) :: es, l =>
    if s8 + e ≤ t8 then
      let l := l.due (s8 + e)
      Leg.settle s8 dt t8 es { l.change lvl (s8 + e) dt with rose := l.rose || lvl, fell := l.fell || !lvl }
    else { l with edges := (e, lvl) :: es }.due t8

/-- Leg `l` takes its safe levels at time `t8`, which turn its high-side (`hi`) or its low-side (`lo`) switch on, or neither: a switch that
they turn off goes off at once, and one that they turn on follows `dt8` after its complement was turned off (R268, R269). -/
def Leg.takeSafe (l : Leg) (hi lo : Bool) (t8 dt8 : Nat) : Leg :=
  let l := { l with edges := [], wait := none, hiOff := if l.hiOn && !hi then t8 else l.hiOff, loOff := if l.loOn && !lo then t8 else l.loOff }
  if hi then
    { l with loOn := false, st := true, pend := if l.hiOn then none else some (max t8 (l.loOff + dt8)) }
  else if lo then
    { l with hiOn := false, st := false, pend := if l.loOn then none else some (max t8 (l.hiOff + dt8)) }
  else { l with hiOn := false, loOn := false, pend := none }

/-! The timer and its waveform -/

/-- PERIOD as the timer takes it: the nearer bound of 5,000 to 2,500,000 tk (R255). -/
def State.period (s : State) (d n : Nat) : Nat := clampN 5000 2500000 (s.rd d PWM_PER.PERIOD n)

/-- Ticks from PT `t` to the next period start of axis `n`, 0 at a start: (PT64 - OFS) mod PERIOD = 0 (R255). -/
def State.toStart (s : State) (d n t : Nat) : Nat :=
  let p := s.period d n
  let o := s.rd d PWM_OFS.OFS n % p
  (p - (t + p - o) % p) % p

/-- The nominal high time of duty `duty`, in 1/8 tk, rounded half to even (R256). -/
def highTime (duty period : Nat) : Nat := (rheDiv ((duty * period * 8 : Nat) : Int) 65536).toNat

/-- Rise and fall of a leg within the period, in 1/8 tk from S (R256). -/
def riseFall (centre : Bool) (duty period : Nat) : Nat × Nat :=
  let h := highTime duty period
  if centre then
    let r := (rheDiv ((8 * period - h : Nat) : Int) 2).toNat
    (r, r + h)
  else (0, h)

/-- The levels of the period as intervals (start, end, level), empty ones left out (R256). -/
def waveform (centre : Bool) (duty period : Nat) : List (Nat × Nat × Bool) :=
  let p8 := 8 * period
  let (r, f) := riseFall centre duty period
  ([(0, r, false), (r, f, true), (f, p8, false)]).filter fun x => x.1 < x.2.1

/-- Judges the on-intervals that begin in the period: one longer than 0 and shorter than MINP after dead time is
suppressed, and the leg stays in its other state across it (R260). Answers the edges and the levels suppressed. -/
def placeEdges (dt8 minp8 : Nat) : Bool → List (Nat × Nat × Bool) → List (Nat × Bool) × List Bool
  | _, [] => ([], [])
  | prev, (a, b, lvl) :: rest =>
    if lvl = prev then placeEdges dt8 minp8 prev rest
    else if a + dt8 < b ∧ b - (a + dt8) < minp8 then
      let (es, k) := placeEdges dt8 minp8 prev rest
      (es, lvl :: k)
    else
      let (es, k) := placeEdges dt8 minp8 lvl rest
      ((a, lvl) :: es, k)

/-- The intervals that begin with the edges of a list, the last one ending at `p8` (R260). -/
def edgeSpans (p8 : Nat) : List (Nat × Bool) → List (Nat × Nat × Bool)
  | [] => []
  | (a, lvl) :: rest => (a, (match rest with | (b, _) :: _ => b | [] => p8), lvl) :: edgeSpans p8 rest

/-- The edges of a leg recomputed at an update point `rel` (1/8 tk from S) other than S: an edge that has been placed, or
is due within 29 tk, stands; the others follow the new duty, 29 tk ahead at the earliest; no second pulse (R258). The on-intervals that
begin with the new edges are judged as at S (R260); answers the number newly suppressed in the period too. -/
def Leg.recompute (l : Leg) (centre : Bool) (duty period rel dt8 minp8 : Nat) : Leg × Nat :=
  let near := rel + 29 * 8
  let stand := l.edges.filter fun e => e.1 < near
  let rose := l.rose || stand.any (fun e => e.2)
  let st := match stand.getLast? with | some e => e.2 | none => l.st
  let (r, f) := riseFall centre duty period
  let new :=
    if st then if r = f then [(near, false)] else if f < 8 * period then [(max f near, false)] else []
    else if rose ∨ max f near ≤ max r near then []
    else (max r near, true) :: (if f < 8 * period then [(max f near, false)] else [])
  let res := placeEdges dt8 minp8 st (edgeSpans (8 * period) new)
  ({ l with edges := stand ++ res.1, duty := duty, sups := l.sups ++ res.2 }, (res.2.filter fun b => !l.sups.contains b).length)

namespace State

/-- The causes that hold axis `n` of die `d` safe, as PWM_STAT.WHY shows them (R253). -/
def whyOf (s : State) (d n : Nat) : Nat :=
  b2n (!s.bit d PWM_CTRL.EN n) + 2 * b2n (!s.bitAt d GLB_PHASE.FULL n) + 4 * b2n (s.bit d TRK_STAT.HOLD n) +
    8 * b2n (s.getPwm d n).trip +
    16 * b2n (s.bitAt d FLT_REACT.AXSAFE n || s.bitAt d FLT_REACT.MAXSAFE n || s.bit d FLT_REACT.DIESAFE ||
      s.bit d FLT_REACT.MDIESAFE || s.bit d FLT_REACT.PKGSAFE || s.rd d PAIR_STAT.ROLE == 4)

/-- The safe level of pin `p` of axis `n`: high impedance until the base image has been applied (R53), then as PWM_SAFE
gives it (R268). A die without a lock or an option area keeps its pads at high impedance (R58). -/
def safeLevel (s : State) (d n p : Nat) : Pin :=
  if !(s.getDie d).safeProg || (s.getDie d).noPads then .z
  else match bitsOf (s.rd d PWM_SAFE.LVL n) (2 * p) 2 with
    | 0 => .low
    | 1 => .high
    | _ => .z

/-- The level that turns the switch of pin `p` on (R268). -/
def activeLevel (s : State) (d n p : Nat) : Pin := if bitOf (s.rd d PWM_SAFE.ACTLOW n) p then .low else .high

/-- The level that turns the switch of pin `p` off. -/
def offLevel (s : State) (d n p : Nat) : Pin := if bitOf (s.rd d PWM_SAFE.ACTLOW n) p then .high else .low

/-- The safe level of pin `p` turns its switch on. -/
def safeOn (s : State) (d n p : Nat) : Bool := s.safeLevel d n p == s.activeLevel d n p

/-- The level of pin `p` of axis `n`: in the safe state the safe level, but for a switch that the safe state turns on only
after its dead time (R269); else the level of its switch. -/
def pinLevel (s : State) (d n p : Nat) : Pin :=
  let l := s.getLeg d n (p / 2)
  let on := if p % 2 = 0 then l.hiOn else l.loOn
  if s.bit d PWM_CTRL.SAFE n then
    if s.safeOn d n p && !on then s.offLevel d n p else s.safeLevel d n p
  else if on then s.activeLevel d n p else s.offLevel d n p

/-- Brings the leg states shown and the pin levels of axis `n` in step with its legs. -/
def showLegs (s : State) (d n : Nat) : State :=
  let s := s.modPwm d n fun r => { r with pins := (List.range 6).map fun p => s.pinLevel d n p }
  s.wr d PWM_STAT.LEG (b2n (s.getLeg d n 0).st + 2 * b2n (s.getLeg d n 1).st + 4 * b2n (s.getLeg d n 2).st) n

/-- Applies a change to each leg of axis `n`. -/
def eachLeg (s : State) (d n : Nat) (f : Nat → Leg → Leg) : State :=
  ((s.modLeg d n 0 (f 0)).modLeg d n 1 (f 1)).modLeg d n 2 (f 2)

/-- Edges and turn-ons of axis `n` up to time `t8` take place (R256, R259). -/
def settleTo (s : State) (d n t8 : Nat) : State :=
  let r := s.getPwm d n
  s.eachLeg d n fun _ l => Leg.settle r.start r.dt t8 l.edges l

/-- The shadow duty of leg `j`. -/
def shadowDuty (s : State) (d n j : Nat) : Nat := min (s.rd d PWM_DUTY.DUTY n j) 65536

/-- The shadow duty of leg `j` becomes active within a period, at time `t8`, and the edges not yet placed are recomputed (R257, R258). -/
def takeDuty (s : State) (d n j t8 : Nat) : State :=
  let s := s.settleTo d n t8
  let r := s.getPwm d n
  let l := s.getLeg d n j
  if !s.bit d PWM_CTRL.SAFE n && !s.bit d PWM_CTRL.MODE n && s.bit d PWM_CTRL.RUNNING n then
    let x := l.recompute (s.bit d PWM_CTRL.ALIGN n) (s.shadowDuty d n j) (s.period d n) (t8 - r.start) (8 * r.dt) (8 * r.minp)
    (s.modLeg d n j fun _ => x.1).addSat d PWM_SUPCNT.COUNT x.2 n
  else s.modLeg d n j fun l => { l with duty := s.shadowDuty d n j }

/-- Duty `v` reaches the edge domain at PT tick `t`: it stands in the shadow register, and is taken at once under UPD 0b11 with the timer
running (R257). -/
def dutyArrives (s : State) (d n j t v : Nat) : State :=
  let s := s.wr d PWM_DUTY.DUTY v n j
  if s.rd d PWM_CTRL.UPD n = 3 ∧ s.bit d PWM_CTRL.RUNNING n then s.takeDuty d n j (s.now8 - 8 * (s.pt - t)) else s

/-- The duties of axis `n` that have reached the edge domain by now do so, each at its tick. -/
def dutiesArrive (s : State) (d n : Nat) : State :=
  s.forEach [0, 1, 2] fun j s =>
    let due := (s.getLeg d n j).arrive.filter fun e => decide (e.1 ≤ s.pt)
    if due.isEmpty then s
    else
      let s := s.modLeg d n j fun l => { l with arrive := l.arrive.filter fun e => decide (s.pt < e.1) }
      due.foldl (fun s e => s.dutyArrives d n j e.1 e.2) s

/-- Brings the legs of axis `n` up to the present: duties, edges and turn-ons that have fallen due (R256, R257, R259). -/
def settleAxis (s : State) (d n : Nat) : State :=
  let s := s.dutiesArrive d n
  (s.settleTo d n s.now8).showLegs d n

/-- The axis takes its safe levels, with the dead time in force (R260, R268, R269). -/
def takeSafe (s : State) (d n : Nat) : State :=
  let dt := (s.getPwm d n).dt
  (s.eachLeg d n fun j l => l.takeSafe (s.safeOn d n (2 * j)) (s.safeOn d n (2 * j + 1)) s.now8 (8 * dt)).showLegs d n

/-- Recomputes the safe-state causes of axis `n`. With a first cause the axis enters its safe state (R269); with none left
it waits for its exit (R270). -/
def refreshAxis (s : State) (d n : Nat) : State :=
  let why := s.whyOf d n
  let s := s.wr d PWM_STAT.WHY why n
  if why = 0 then s.modPwm d n fun r => { r with exiting := s.bit d PWM_CTRL.SAFE n }
  else
    let s := s.modPwm d n fun r => { r with exiting := false }
    if s.bit d PWM_CTRL.SAFE n then s
    else
      let s := s.settleAxis d n
      (s.wr d PWM_CTRL.SAFE 1 n).takeSafe d n

/-- Recomputes the safe-state causes of every axis of die `d`. -/
def refreshDie (s : State) (d : Nat) : State := s.forEach (List.range 8) fun n s => s.refreshAxis d n

/-! Pad drivers, keepers and balls (R15, R271, R272, R346) -/

/-- The drive of pad group `g` of die `d` at present: what it was set to, or what a takeover in progress has since passed it to
(R272, R346). -/
def padNow (s : State) (d g : Nat) : Drive :=
  let p := s.getPair d
  p.sched.foldl (fun v e => if e.2.1 = g ∧ e.1 ≤ s.now8 then e.2.2 else v)
    (match g with | 0 => p.grp0 | 1 => p.grp1 | _ => p.grp2)

/-- The drive of die `d` on the balls of group `g` of axis `n`: a die whose mate asserts seize lets go within 6 ns (R345); before full
service and in reset the pads it owns are in full drive (R53, R337). -/
def driveOf (s : State) (d n g : Nat) : Drive :=
  if s.bit (mateOf d) PAIR_STAT.SEIZING then s.padNow d g
  else if !s.owns d n then .off
  else if (s.getDie d).inReset || s.rd d PAIR_STAT.ROLE == 0 then .full
  else s.padNow d g

/-- The group of the switching balls of axis `n` (R346). -/
def padGroup (n : Nat) : Nat := if n < 4 then 0 else 1

/-- Die `d` drives the EXC ball of axis `n` with group 2: in the reading copy, and later with EN and DRIVE in force (R60, R72). -/
def excDrives (s : State) (d n : Nat) : Bool :=
  let ph := s.rd d GLB_PHASE.PHASE
  let x := s.getExc d n
  s.driveOf d n 2 != .off && !(s.getDie d).noPads && (if ph < 5 then 2 ≤ ph else x.en && x.drive)

/-- The keepers of die `d` are in force: off from power-on or RSTn until the base image has been applied (R271). -/
def keepsOn (s : State) (d : Nat) : Bool := (s.getDie d).safeProg && !(s.getDie d).noPads

/-- The keeper of die `d` at switching pin `p` of axis `n` is on: not in a high-impedance safe state (R271). -/
def keepsPin (s : State) (d n p : Nat) : Bool := s.keepsOn d && !(s.bit d PWM_CTRL.SAFE n && s.safeLevel d n p == .z)

/-- The die or the package is in a safe state (R154, R291). -/
def dieSafe (s : State) (d : Nat) : Bool := s.bit d FLT_REACT.DIESAFE || s.bit d FLT_REACT.MDIESAFE || s.bit d FLT_REACT.PKGSAFE

/-- The keepers of die `d` at the emulation balls of axis `n` are on. -/
def keepsEmu (s : State) (d n : Nat) : Bool := s.keepsOn d && !(s.dieSafe d && 2 ≤ s.rd d EMU_CTRL.SAFE n)

/-- The level of a ball from the drives and levels of its two drivers and what a keeper holds it at: a full driver prevails over a soft
one, and either over the keeper (R271, R272). -/
def ballOf (a b : Drive × Pin) (keeper : Pin) : Pin :=
  if a.1 = .full ∧ a.2 ≠ .z then a.2
  else if b.1 = .full ∧ b.2 ≠ .z then b.2
  else if a.1 = .soft ∧ a.2 ≠ .z then a.2
  else if b.1 = .soft ∧ b.2 ≠ .z then b.2
  else keeper

/-- The levels of the six switching balls of axis `n` of pair site `k`; high impedance where neither a driver nor a keeper acts (R15,
R271, R272). -/
def ballPins (s : State) (k n : Nat) : List Pin :=
  let a := s.driveOf (2 * k) n (padGroup n)
  let b := s.driveOf (2 * k + 1) n (padGroup n)
  (List.range 6).map fun p =>
    ballOf (a, (s.getPwm (2 * k) n).pins.getD p .z) (b, (s.getPwm (2 * k + 1) n).pins.getD p .z)
      (if s.keepsPin (2 * k) n p || s.keepsPin (2 * k + 1) n p then (s.getBall k n).sw.getD p .z else .z)

/-- The levels of the emulation balls A, B, Z. -/
def ballEmu (s : State) (k n : Nat) : List Pin :=
  let a := s.driveOf (2 * k) n 2
  let b := s.driveOf (2 * k + 1) n 2
  let keep := s.keepsEmu (2 * k) n || s.keepsEmu (2 * k + 1) n
  (List.range 3).map fun p =>
    ballOf (a, (s.getEnc (2 * k) n).pins.getD p .z) (b, (s.getEnc (2 * k + 1) n).pins.getD p .z)
      (if keep then (s.getBall k n).emu.getD p .z else .z)

/-- The level of the EXC ball as a DAC code, none at high impedance (R72, R74, R271). -/
def ballExc (s : State) (k n : Nat) : Option Int :=
  if s.excDrives (2 * k) n then some (s.getExc (2 * k) n).code
  else if s.excDrives (2 * k + 1) n then some (s.getExc (2 * k + 1) n).code
  else if s.keepsOn (2 * k) || s.keepsOn (2 * k + 1) then some (s.getBall k n).exc
  else none

/-- What a keeper takes at a ball that shows `b`: its level, or where nothing drives it the level of the external pull, which is free
(R271). -/
def keepLevel (b : Pin) (pull : Nat) : Pin := match b with | .z => if pull % 2 = 0 then .low else .high | b => b

/-- The keepers of pair site `k` take the levels at their balls, before a driver lets go or a keeper turns on (R271). -/
def holdBalls (s : State) (k : Nat) : State :=
  let v := s.free
  (List.range 8).foldl (fun t n =>
    t.modBall k n fun r =>
      { sw := (s.ballPins k n).mapIdx fun i b => keepLevel b (v / 2 ^ (16 * n + i)),
        emu := (s.ballEmu k n).mapIdx fun i b => keepLevel b (v / 2 ^ (16 * n + 6 + i)),
        exc := (s.ballExc k n).getD r.exc }) s.drew

end State

/-- Sets the pad drivers of all three groups of die `d` (R272, R346). -/
def setPads (d : Nat) (v : Drive) (s : State) : State :=
  s.modPair d fun p => { p with grp0 := v, grp1 := v, grp2 := v, sched := [] }

end Sys2Proof.Machine
end

