-- ==== Sys2Proof/Machine/Pwm.lean ====
section
/-!
DEFINITION. The PWM timers, the leg demands and the band unit (R253 to R270).
-/

namespace Sys2Proof.Machine

/-! The timer (R255 to R258) -/

/-- A period of axis `n` starts now (R255): the DT and MINP in force are taken (R260), with UPD 0b00 or 0b10 the shadow
duties become active (R257), and in PWM mode the edges of the legs are placed (R256). -/
def periodStart (d n : Nat) (s : State) : State :=
  let s := s.settleAxis d n
  let p := s.period d n
  let dt := s.rd d PWM_DT.DT n
  let minp := s.rd d PWM_DT.MINP n
  let s := s.modPwm d n fun r => { r with start := s.now8, dt := dt, minp := minp }
  let upd := s.rd d PWM_CTRL.UPD n
  let s := if upd = 0 ∨ upd = 2 then s.eachLeg d n fun j l => { l with duty := s.shadowDuty d n j } else s
  if s.bit d PWM_CTRL.SAFE n || s.bit d PWM_CTRL.MODE n then s
  else
    let centre := s.bit d PWM_CTRL.ALIGN n
    let res := fun l : Leg => placeEdges (8 * dt) (8 * minp) l.st (waveform centre l.duty p)
    let sup := ((res (s.getLeg d n 0)).2 ++ (res (s.getLeg d n 1)).2 ++ (res (s.getLeg d n 2)).2).length
    let s := s.eachLeg d n fun _ l => { l with edges := (res l).1, rose := false, fell := false, sups := (res l).2 }
    (s.addSat d PWM_SUPCNT.COUNT sup n).settleAxis d n

/-- The timer of axis `n` starts a period at tick S, while EN = 1 (R255). -/
def pwmPeriodStart (d n : Nat) (s : State) : State :=
  if s.bit d PWM_CTRL.EN n then
    let t := s.freshPt (State.stepNo 5 d n)
    periodStart d n ((s.pass (t - s.pt + s.toStart d n t)).occurs (State.stepNo 5 d n))
  else s

def execPwmPeriodStart (d n : Nat) (s : State) : Host.Outcome State Fault Refusal := onAxis d n s (pwmPeriodStart d n)

/-- The shadow duties become active within a period, and the edges not yet placed are recomputed (R257, R258). -/
def takeDuties (d n : Nat) (s : State) : State :=
  let s := s.settleAxis d n
  s.forEach [0, 1, 2] fun j s => s.takeDuty d n j s.now8

/-- The update point at S + floor(PERIOD / 2) of UPD 0b01 and 0b10; the one at S is part of the period's start, and under
0b11 each duty write is one (R257). -/
def pwmUpdatePoint (d n : Nat) (s : State) : State :=
  let upd := s.rd d PWM_CTRL.UPD n
  if s.bit d PWM_CTRL.EN n && (upd == 1 || upd == 2) then
    let p := s.period d n
    let t := s.freshPt (State.stepNo 6 d n)
    takeDuties d n ((s.pass (t - s.pt + s.toStart d n (t + (p - p / 2)))).occurs (State.stepNo 6 d n))
  else s

def execPwmUpdatePoint (d n : Nat) (s : State) : Host.Outcome State Fault Refusal := onAxis d n s (pwmUpdatePoint d n)

/-- A duty written to the shadow register of leg `j`, which reaches the edge domain at PT tick `t` (R257). -/
def dutyWrite (d n j v t : Nat) (s : State) : State :=
  let s := s.dutiesArrive d n
  if s.pt < t then s.modLeg d n j fun l => { l with arrive := l.arrive ++ [(t, min v 65536)] }
  else s.dutyArrives d n j s.pt (min v 65536)

/-- A write of PWM_DUTY of leg `j` with the word `v`: a value above 65,536 is taken as 65,536 (R257). -/
def pwmDutyReg (n j : Nat) (v : Word) (d : Nat) (s : State) : State := dutyWrite d n j (v.toNat % 2 ^ 17) s.pt s

def execPwmDutyWrite (d n j : Nat) (v : Word) (s : State) : Host.Outcome State Fault Refusal :=
  onItem (s.hasDie d && n < 8 && j < 3) s fun s =>
    if (s.getDie d).inReset then s
    else axisWrite d (PWM_DUTY.DUTY.addr 0 n j) v (pwmDutyReg n j v) s

/-- After DT, the other switch of leg `j` is turned on (R259): edges and time pass up to the pending turn-on. -/
def deadTimeExpiry (d n j : Nat) (s : State) : State :=
  let s := s.settleAxis d n
  match (s.getLeg d n j).pend with
  | some p => (s.pass ((p + 7) / 8 - s.now)).settleAxis d n
  | none => s

def execDeadTimeExpiry (d n j : Nat) (s : State) : Host.Outcome State Fault Refusal :=
  onPart d (n * 3 + j) 24 s fun s => if j < 3 then deadTimeExpiry d n j s else s

/-! The fast path and leg demands -/

/-- The input P0 to P3 that leg `j` names as its source (R261). -/
def State.bandSrc (s : State) (d n j : Nat) : Nat :=
  match j with
  | 0 => s.rd d BND_CTRL.SRCU n
  | 1 => s.rd d BND_CTRL.SRCV n
  | _ => s.rd d BND_CTRL.SRCW n

/-- Leg `j` meets the conditions of the fast path: PATH = 1, both comparators of its source input have FUNC = 0b10, and
the input is not the source of an earlier leg (R263). -/
def State.fastAble (s : State) (d n j : Nat) : Bool :=
  let c := s.bandSrc d n j
  s.bit d BND_CTRL.PATH n && s.rd d ACQ_CMPU.FUNC n c == 2 && s.rd d ACQ_CMPL.FUNC n c == 2 &&
    (List.range j).all fun i => s.bandSrc d n i != c

/-- Judges NOFAST afresh; `all` where a leg without the conditions loses the fast path even if it had none before (EN
becoming 1, PATH being set). pwm-config is raised for each leg that loses it (R263). -/
def judgeFast (d n : Nat) (all : Bool) (s : State) : State :=
  let path := s.bit d BND_CTRL.PATH n
  let s := s.forEach [0, 1, 2] fun j s =>
    let ok := s.fastAble d n j
    let had := (s.getLeg d n j).able
    let s := if path && !ok && (had || all) then s.raise d 448 3 n else s
    s.modLeg d n j fun l => { l with able := ok, fast := l.fast && ok }
  s.wr d BND_CTRL.NOFAST (b2n (path && [0, 1, 2].any fun j => !s.fastAble d n j)) n

/-- A demand on leg `j` in band mode: none that equals the present state; before the state has been held for MINP after its
turn-on edge it waits (R261, R264). -/
def demand (d n j : Nat) (lvl : Bool) (s : State) : State :=
  let r := s.getPwm d n
  let l := s.getLeg d n j
  if l.st = lvl then s.modLeg d n j fun l => { l with wait := none }
  else if l.pend.isSome ∨ s.now8 < l.onAt + 8 * r.minp then s.modLeg d n j fun l => { l with wait := some lvl }
  else (s.modLeg d n j fun l => l.change lvl s.now8 r.dt).showLegs d n

/-- Reference and half-band of leg `j` in force at the present strobe (R262). -/
def State.bandNow (s : State) (d n j : Nat) : Int × Nat :=
  match (s.getLeg d n j).bandWas with
  | some (t, ref, hb) => if s.pt < t then (ref, hb) else (s.rdI d BND_LEG.REF n j, s.rd d BND_LEG.HB n j)
  | none => (s.rdI d BND_LEG.REF n j, s.rd d BND_LEG.HB n j)

/-- What the exact path demands of leg `j` from its last sample (R261). -/
def exactDemand (s : State) (d n j : Nat) : Option Bool :=
  let y := (s.getConv d (6 * n + 2 + s.bandSrc d n j)).y
  let ref := (s.bandNow d n j).1
  let hb : Int := (s.bandNow d n j).2
  let pol := bitOf (s.rd d BND_CTRL.POL n) j
  if y > ref + hb then some pol else if y < ref - hb then some (!pol) else none

/-- What the fast path demands of leg `j`: its asserted comparator, none if both are asserted (R263). -/
def fastDemand (s : State) (d n j : Nat) : Option Bool :=
  let c := s.bandSrc d n j
  let up := bitOf (s.rd d ACQ_PSTAT.OUTU n) c
  let lo := bitOf (s.rd d ACQ_PSTAT.OUTL n) c
  let pol := bitOf (s.rd d BND_CTRL.POL n) j
  if !(s.getLeg d n j).fast then none
  else if up && !lo then some pol
  else if lo && !up then some (!pol)
  else none

/-- The axis is in band mode with its legs driven. -/
def State.bandRuns (s : State) (d n : Nat) : Bool := s.bit d PWM_CTRL.MODE n && !s.bit d PWM_CTRL.SAFE n

/-- The band unit of die `d` acts on its demands: a standby mate's does not (R267). -/
def State.bandActs (s : State) (d n : Nat) : Bool := s.bandRuns d n && (s.divided d || s.activeOf d == d)

/-- The convert strobe of the present tick has taken place. -/
def State.strobed (s : State) : Bool := s.lastAt.get 0 0 == s.pt + 1

/-- A demand of leg `j` that waited has seen MINP elapse: it waits no longer, and only the exact path acts (R264). -/
def demandRipe (d n j : Nat) (s : State) : State :=
  let m := 8 * (s.getPwm d n).minp
  s.modLeg d n j fun l => if l.wait.isSome && l.pend.isNone && decide (l.onAt + m ≤ s.now8) then { l with wait := none } else l

/-- The band compare of one convert strobe (R261, R264): the exact demand is taken; a fast demand for the opposite state in
the same cycle counts in CONF. -/
def bandCompare (d n : Nat) (s : State) : State :=
  if !s.bandActs d n then s
  else s.forEach [0, 1, 2] fun j s =>
    let s := demandRipe d n j s
    match exactDemand s d n j with
    | some e => demand d n j e (if fastDemand s d n j = some (!e) then s.addSat d PWM_SUPCNT.CONF 1 n else s)
    | none => s

/-- The comparators of input `c` have changed, or come to serve a leg: the leg that takes their demands turns over through the leg gate, or
the demand waits until the leg is armed (R263, R264). -/
def fastAct (d n c : Nat) (s : State) : State :=
  if !s.bandActs d n then s
  else s.forEach [0, 1, 2] fun j s =>
    if s.bandSrc d n j = c then
      match fastDemand s d n j with
      | some f => demand d n j f s
      | none => s
    else s

/-- After MINP, a waiting demand is acted on only if the exact path still demands it on the next strobe (R264): time passes up to that
strobe, and where its sample has not come yet the compare of the strobe decides. -/
def bandMinpExpiry (d n j : Nat) (s : State) : State :=
  let s := s.settleAxis d n
  let l := s.getLeg d n j
  match l.wait with
  | none => s
  | some w =>
    let due := (l.onAt + 8 * (s.getPwm d n).minp + 7) / 8
    let s := (s.pass (due - s.now)).toGrid 250
    if !s.strobed then s
    else
      let s := demandRipe d n j s
      if s.bandActs d n && exactDemand s d n j == some w then demand d n j w s else s

def execBandMinpExpiry (d n j : Nat) (s : State) : Host.Outcome State Fault Refusal :=
  onPart d (n * 3 + j) 24 s fun s => if j < 3 then bandMinpExpiry d n j s else s

/-! Band writes (R262 to R266) -/

/-- The thresholds that a band write gives the comparators of the leg's source (R263). -/
def fastThresholds (ref hb : Int) : Nat × Nat :=
  let u := (clampI 0 4095 (2048 + rheDiv (ref + hb) 16)).toNat
  let l := (clampI 0 4095 (2048 + rheDiv (ref - hb) 16)).toNat
  if u ≤ l then if 0 < u then (u, u - 1) else (1, 0) else (u, l)

/-- FT as the band takes it (R265). -/
def State.bandFt (s : State) (d n : Nat) : Nat := clampN 1000 100000 (s.rd d BND_FTGT.FT n)

/-- The switching frequency of leg `l` since its last band write, in Hz: closed cycles over their duration, or the inverse
of the time since the later of its last turn-on and its exit from the safe state, held to FT (R265). 1/8 tk is 50 ps. -/
def legFreq (l : Leg) (now8 ft : Nat) : Rat :=
  if 0 < l.cyc then (l.cyc : Rat) * 20000000000 / (max l.cycDur 1 : Nat)
  else
    let t := now8 - max (l.lastHi.getD 0) l.exitAt
    if t = 0 then (ft : Rat)
    else if (ft : Rat) ≤ 20000000000 / (t : Nat) then (ft : Rat) else 20000000000 / (t : Nat)

/-- A band write of leg `j` (R262, R263, R265, R266): reference, half-band with frequency lock, lock and limit counts, and
the fast-path thresholds. `ref` and `hb` are the HYST lanes; the write reaches the band unit at PT tick `t`, and the exact path takes the
new values from the first strobe at least 16 tk later. A leg in its safe state keeps its half-band under FLOCK. -/
def bandWrite (d n j t : Nat) (ref : Int) (hb : Nat) (s : State) : State :=
  let was := s.bandNow d n j
  let s := s.modLeg d n j fun l => { l with bandWas := some ((t + 265) / 250 * 250, was.1, was.2) }
  let s := s.wrI d BND_LEG.REF ref n j
  let l := s.getLeg d n j
  let ft := s.bandFt d n
  let f := legFreq l s.now8 ft
  let ratio := clampQ (1 / 2) 2 (f / ft)
  let hmin := max 1 (s.rd d BND_HBLIM.HBMIN n)
  let hmax := max hmin (s.rd d BND_HBLIM.HBMAX n)
  let gain := s.rd d BND_CTRL.GAIN n
  let s := s.wr d BND_FMEAS.F (min (rheQ f).toNat (2 ^ 17 - 1)) n j
  let free := fun s : State => (s.wr d BND_FMEAS.HBLIM 0 n j).modLeg d n j fun l => { l with limRun := 0 }
  let s :=
    if !s.bit d BND_CTRL.FLOCK n then free (s.wr d BND_LEG.HB hb n j)
    else if s.bit d PWM_CTRL.SAFE n then free s
    else if l.seed then free ((s.wr d BND_LEG.HB hb n j).modLeg d n j fun l => { l with seed := false })
    else
      let raw := rheQ ((s.rd d BND_LEG.HB n j : Rat) * (1 + pow2 (-(gain : Int)) * (ratio - 1)))
      let h := clampI hmin hmax raw
      let held := h != raw
      let run := if held && decide (1 / 16 < absQ (ratio - 1)) then l.limRun + 1 else 0
      let s := (s.wr d BND_LEG.HB h.toNat n j).modLeg d n j fun l => { l with limRun := run }
      if held then s else s.wr d BND_FMEAS.HBLIM 0 n j
  let near := decide (absQ (f / ft - 1) ≤ 1 / 50)
  let s := if near then s else s.wr d BND_FMEAS.LOCKED 0 n j
  let s := s.modLeg d n j fun l => { l with lockRun := if near then l.lockRun + 1 else 0, cyc := 0, cycDur := 0 }
  if (s.getLeg d n j).able then
    let c := s.bandSrc d n j
    let t := fastThresholds ref (s.rd d BND_LEG.HB n j)
    let s := (s.wr d ACQ_CMPU.THR t.1 n c).wr d ACQ_CMPL.THR t.2 n c
    fastAct d n c (s.modLeg d n j fun l => { l with fast := true })
  else s

/-- Eight consecutive band writes within 2 % of the target set LOCKED (R266). -/
def bandLockQualified (d n j : Nat) (s : State) : State :=
  if 8 ≤ (s.getLeg d n j).lockRun then s.wr d BND_FMEAS.LOCKED 1 n j else s

def execBandLockQualified (d n j : Nat) (s : State) : Host.Outcome State Fault Refusal :=
  onPart d (n * 3 + j) 24 s fun s => if j < 3 then bandLockQualified d n j s else s

/-- A half-band held at a clamp limit for 16 consecutive band writes sets HBLIM and raises band-limit (R266). -/
def bandLimit (d n j : Nat) (s : State) : State :=
  if 16 ≤ (s.getLeg d n j).limRun ∧ !s.bit d BND_FMEAS.HBLIM n j then
    ((s.wr d BND_FMEAS.HBLIM 1 n j).wrBit d PWM_FLAGS.BANDLIM n true).raiseAx d n 24 3
  else s

def execBandLimit (d n j : Nat) (s : State) : Host.Outcome State Fault Refusal :=
  onPart d (n * 3 + j) 24 s fun s => if j < 3 then bandLimit d n j s else s

/-! Leaving the safe state, and the writes with steps of their own -/

/-- The axis leaves its safe state in band mode, at a convert strobe whose sample has come: each leg starts high if y < ref, exchanged by
POL; a switch that turns on does so after DT (R270). -/
def bandExit (d n : Nat) (s : State) : State :=
  let s := s.settleAxis d n
  let s := (s.wr d PWM_CTRL.SAFE 0 n).modPwm d n fun r => { r with exiting := false }
  let dt := (s.getPwm d n).dt
  let s := s.eachLeg d n fun j l =>
    let y := (s.getConv d (6 * n + 2 + s.bandSrc d n j)).y
    let lvl := decide (y < (s.bandNow d n j).1) != bitOf (s.rd d BND_CTRL.POL n) j
    { l with st := lvl, seed := true, exitAt := s.now8, lastHi := none, cyc := 0, cycDur := 0,
             hiOn := l.hiOn && lvl, loOn := l.loOn && !lvl, hiOff := if l.hiOn && !lvl then s.now8 else l.hiOff,
             loOff := if l.loOn && lvl then s.now8 else l.loOff,
             pend := if (lvl && l.hiOn) || (!lvl && l.loOn) then none else some (s.now8 + 8 * dt) }
  s.showLegs d n

/-- The axis leaves its safe state in PWM mode, at a period's start S: a leg goes on from the switch that the safe state holds on, or with
none from low, and the period's edges follow; a switch that turns on does so after the DT taken at S (R260, R270). -/
def pwmExit (d n : Nat) (s : State) : State :=
  let s := s.settleAxis d n
  let s := (s.wr d PWM_CTRL.SAFE 0 n).modPwm d n fun r => { r with exiting := false }
  let dt := s.rd d PWM_DT.DT n
  let s := s.eachLeg d n fun _ l =>
    { l with st := l.hiOn, seed := true, exitAt := s.now8, lastHi := none, cyc := 0, cycDur := 0,
             pend := if l.hiOn || l.loOn then none else some (s.now8 + 8 * dt) }
  (periodStart d n s).showLegs d n

/-- The last cause has cleared: in PWM mode the axis leaves its safe state at the next S with the active duties, in band mode at the next
convert strobe; where the sample of that strobe has not come yet, its compare does it (R270). -/
def safeStateExit (d n : Nat) (s : State) : State :=
  let s := s.refreshAxis d n
  if !(s.getPwm d n).exiting then s
  else if s.bit d PWM_CTRL.MODE n then
    let s := s.toGrid 250
    if s.strobed then bandExit d n s else s
  else pwmExit d n ((s.pass (s.toStart d n s.pt)).occurs (State.stepNo 5 d n))

/-- The band unit of axis `n` at a convert strobe: it leaves the safe state if that is due, or compares (R261, R270). -/
def bandStrobe (d n : Nat) (s : State) : State :=
  if s.bit d PWM_CTRL.MODE n && (s.getPwm d n).exiting && s.bit d PWM_CTRL.SAFE n then bandExit d n s
  else if s.bandRuns d n then bandCompare d n (s.settleAxis d n)
  else s

def execSafeStateExit (d n : Nat) (s : State) : Host.Outcome State Fault Refusal := onAxis d n s (safeStateExit d n)

/-- A safe-state setting would leave both pins of a leg at their active level (R268). -/
def unsafeSetting (lvl act : Nat) : Bool :=
  [0, 1, 2].any fun j =>
    let on := fun p => bitsOf lvl (2 * p) 2 == (if bitOf act p then 0 else 1)
    on (2 * j) && on (2 * j + 1)

/-- A write of PWM_SAFE: refused with pwm-config if unsafe, else taken, and at once in safe order while the axis is in its
safe state (R268). -/
def pwmSafeWrite (n : Nat) (v : Word) (d : Nat) (s : State) : State :=
  let lvl := bitsOf v.toNat 0 12
  let act := bitsOf v.toNat 16 6
  if unsafeSetting lvl act then s.raise d 448 3 n
  else
    let s := (s.settleAxis d n).holdBalls (d / 2)
    let s := (s.wr d PWM_SAFE.LVL lvl n).wr d PWM_SAFE.ACTLOW act n
    if s.bit d PWM_CTRL.SAFE n then s.takeSafe d n else s.showLegs d n

def execPwmSafeWrite (d n : Nat) (v : Word) (s : State) : Host.Outcome State Fault Refusal :=
  onAxis d n s (axisWrite d (PWM_SAFE.LVL.addr 0 n 0) v (pwmSafeWrite n v))

/-- The write would change a setting that R254 fixes while EN = 1. -/
def pwmFixed (d n : Nat) (v : Word) (s : State) : Bool :=
  s.rd d PWM_CTRL.MODE n != bitsOf v.toNat 1 1 || s.rd d PWM_CTRL.ALIGN n != bitsOf v.toNat 2 1 ||
    s.rd d PWM_CTRL.UPD n != bitsOf v.toNat 4 2

/-- A write of PWM_CTRL (R253, R254): a change of MODE, ALIGN or UPD while EN = 1 discards the write and raises
pwm-config. EN starts or stops the timer and is a safe-state cause of its own. -/
def pwmCtrlWrite (n : Nat) (v : Word) (d : Nat) (s : State) : State :=
  let en := bitOf v.toNat 0
  if s.bit d PWM_CTRL.EN n && pwmFixed d n v s then s.raise d 448 3 n
  else
    let was := s.bit d PWM_CTRL.EN n
    let s := s.settleAxis d n
    let s := ((s.wr d PWM_CTRL.MODE (bitsOf v.toNat 1 1) n).wr d PWM_CTRL.ALIGN (bitsOf v.toNat 2 1) n).wr d PWM_CTRL.UPD
      (bitsOf v.toNat 4 2) n
    let s := (s.wr d PWM_CTRL.EN (b2n en) n).wr d PWM_CTRL.RUNNING (b2n en) n
    let s := if en && !was then judgeFast d n true s else s
    s.refreshAxis d n

def execPwmCtrlWrite (d n : Nat) (v : Word) (s : State) : Host.Outcome State Fault Refusal :=
  onAxis d n s (axisWrite d (PWM_CTRL.EN.addr 0 n 0) v (pwmCtrlWrite n v))

/-- A write of PWM_PER or PWM_OFS: refused with pwm-config while EN = 1 and it changes the value (R254). -/
def pwmFixedWrite (f : Fld) (n : Nat) (v : Word) (d : Nat) (s : State) : State :=
  let x := bitsOf v.toNat 0 f.w
  if s.bit d PWM_CTRL.EN n && s.rd d f n != x then s.raise d 448 3 n else s.wr d f x n

/-- A write of BND_CTRL: PATH being set and every change of a source judge the fast path afresh (R263); FLOCK changing to 1
lets the next band write seed the half-band (R265). -/
def bndCtrlWrite (n : Nat) (v : Word) (d : Nat) (s : State) : State :=
  let w := v.toNat
  let path := s.bit d BND_CTRL.PATH n
  let lock := s.bit d BND_CTRL.FLOCK n
  let src := fun s : State => [s.bandSrc d n 0, s.bandSrc d n 1, s.bandSrc d n 2]
  let old := src s
  let s := ((s.wr d BND_CTRL.PATH (bitsOf w 0 1) n).wr d BND_CTRL.FLOCK (bitsOf w 1 1) n).wr d BND_CTRL.SRCU (bitsOf w 4 2) n
  let s := ((s.wr d BND_CTRL.SRCV (bitsOf w 6 2) n).wr d BND_CTRL.SRCW (bitsOf w 8 2) n).wr d BND_CTRL.POL (bitsOf w 12 3) n
  let s := s.wr d BND_CTRL.GAIN (bitsOf w 16 3) n
  let s := if bitOf w 1 && !lock then s.eachLeg d n fun _ l => { l with seed := true } else s
  let moved := fun j => old.getD j 0 != s.bandSrc d n j
  let s := s.eachLeg d n fun j l => if moved j then { l with fast := false } else l
  if bitOf w 0 && !path then judgeFast d n true s
  else if (src s) != old || bitOf w 0 != path then judgeFast d n false s
  else s

/-- At a convert strobe, the standby mate's band unit takes the leg states and their timers from the active mate (R267). -/
def standbyLegCopy (d n : Nat) (s : State) : State :=
  let a := s.activeOf d
  if s.divided d || a == d || !s.bridgeUp d then s
  else
    let s := s.eachLeg d n fun j l =>
      let m := s.getLeg a n j
      { l with st := m.st, hiOn := m.hiOn, loOn := m.loOn, pend := m.pend, onAt := m.onAt }
    s.showLegs d n

/-- At a band write, the standby takes the active mate's half-bands (R267). -/
def standbyHbCopy (d n : Nat) (s : State) : State :=
  let a := s.activeOf d
  if s.divided d || a == d || !s.bridgeUp d then s
  else s.forEach [0, 1, 2] fun j s => s.wr d BND_LEG.HB (s.rd a BND_LEG.HB n j) n j

/-- The OUT write reaches the edge domain after the update point its run was based on: it counts as late (R257). -/
def pwmLate (d n : Nat) (s : State) : State :=
  ((s.addSat d PWM_STAT.LATE 1 n).wrBit d PWM_FLAGS.LATE n true).raiseAx d n 23 3

end Sys2Proof.Machine
end

