-- ==== Sys2Proof/Machine/Exc.lean ====
section
/-!
DEFINITION. Resolver excitation, the trims on every sample, and the pilot (R63 to R86).
-/

namespace Sys2Proof.Machine

/-- FINC held in the valid range (R63). -/
def clampFinc (f : Nat) : Nat := clampN 0xD1B71 0x10624DD f

/-- The first apply boundary at least 25,000 tk after tick `t` (R66). -/
def applyBoundary (t : Nat) : Nat := (t + 25000 + 24999) / 25000 * 25000

/-- The carrier group in force of axis `n` (R69). -/
def State.groupOf (s : State) (d n : Nat) : Nat := (s.getExc d n).group.getD n

/-- The leader of carrier group `g`: its lowest-numbered axis (R69). -/
def State.leaderOf (s : State) (d g : Nat) : Option Nat := (List.range 8).find? fun n => s.groupOf d n == g

/-- The die runs the reading copy: phases 2 to 4 (R60, R76). -/
def State.rcPhase (s : State) (d : Nat) : Bool := 2 ≤ s.rd d GLB_PHASE.PHASE && s.rd d GLB_PHASE.PHASE < 5

/-- The increment that drives the accumulator of axis `n`: the reading copy's before full service (R60, R76), then its
group leader's (R69). -/
def State.fincOf (s : State) (d n : Nat) : Nat :=
  if s.rcPhase d then clampFinc (s.opt d 0x1C 4)
  else match s.leaderOf d (s.groupOf d n) with
    | some l => (s.getExc d l).finc
    | none => (s.getExc d n).finc

/-- The present amplitude in DAC LSB (R65); the reading copy's is 1.25 V (R60). -/
def State.ampNow (s : State) (d n : Nat) : Rat :=
  if s.rcPhase d then 16384
  else
    let x := s.getExc d n
    x.ampFrom + ((x.amp : Rat) - x.ampFrom) * (min x.ampK 1000 : Nat) / 1000

/-- The DAC code of R64 for amplitude `amp`, accumulator `acc` and the calibration trims of axis `n`. -/
def dacCode (s : State) (d n : Nat) (amp : Rat) (acc : Nat) : Int :=
  let g := s.cal16 d (0xF8 + 4 * n + 2)
  let o := s.cal16 d (0xF8 + 4 * n)
  let sn : Rat := sin30 ((acc * 256 : Nat) : Int)
  satI 16 (rheQ (amp * (sn / 1073741824) * (1 + (g : Rat) / 65536)) + o)

/-- One strobe of the excitation chain of axis `n` (R63 to R65, R68, R69). An accumulator that wraps ends the carrier period, whose clip
marks are kept for its record (R83). -/
def excStrobe (d n : Nat) (s : State) : State :=
  let rc := s.rcPhase d
  let x := s.getExc d n
  let run := rc || x.runs
  let acc := if run then (x.acc + s.fincOf d n) % 2 ^ 32 else x.acc
  let s := s.modExc d n fun x => { x with acc := acc, ampK := min (x.ampK + 1) 1000 }
  let s :=
    if !rc && run && acc < x.acc then
      s.modExc d n fun x => { x with wrapAt := some s.pt, closed := some (x.sclip, x.cclip), sclip := false, cclip := false }
    else s
  let amp := s.ampNow d n
  let (shown, s) := s.near amp
  let on := rc || x.en
  let code := if on then dacCode s d n amp acc else 0
  (s.modExc d n fun x => { x with code := code }).wr d EXC_AMP.AMPNOW shown.toNat n

/-- A sample corrected by the calibration row and the integrator's trims, then saturated (R82, R170). -/
def trimmed (x ocal gcal oint gint : Int) : Int :=
  satI 16 (rheDiv ((x - ocal - oint) * (65536 + gcal) * (1048576 + gint)) 68719476736)

/-- Within 1/256 of full scale (R83). -/
def isClipped (y : Int) : Bool := y ≤ -32640 || 32640 ≤ y

/-! The pilot -/

/-- Pilot bandwidth in Hz: 64 Hz in acquisition and after a change of FINC, else PILOTBW (R84, R85). -/
def pilotBw (x : ExcAx) : Nat :=
  if x.acqEnd.isSome || x.wideEnd.isSome then 64 else [1, 4, 16, 64].getD x.bw 64

/-- The pilot's amplitude in LSB (R84). -/
def pilotAmpl (x : ExcAx) : Rat :=
  ((isqrt (4 * (x.pi * x.pi + x.pq * x.pq).toNat) : Nat) : Rat) / 281474976710656

/-- The pilot's phase in 2^-40 rev, on the candidate chosen (R84, R85). -/
def pilotPhase (x : ExcAx) : Int := atan40 (-x.pq) x.pi + (if x.flip then 2 ^ 39 else 0)

/-- The carrier reference of the tracker, in 2^-16 rev: the pilot phase in lock, else the held phase or PHNOM (R85, R87). -/
def State.carrierRef (s : State) (d n : Nat) : Int :=
  if s.bit d EXC_PILOT.LOCK n || (s.getExc d n).held then s.rdI d EXC_PILOT.PHASE n else s.rdI d EXC_PHNOM.PHNOM n

/-- Starts an acquisition of 20 ms at 64 Hz (R85). -/
def pilotAcquire (d n : Nat) (held : Bool) (s : State) : State :=
  (s.modExc d n fun x => { x with acqEnd := some (s.pt + 50000000), held := held, lowAt := none }).wr d EXC_PILOT.LOCK 0 n

/-- The pilot of axis `n` at one strobe: the projection of the samples `si`, `co` on the angle `th` updates the I/Q
estimate (R84); the amplitude's fall and return are watched (R85). -/
def pilotUpdate (d n : Nat) (si co th : Int) (s : State) : State :=
  let x := s.getExc d n
  let r := si * sin30 th + co * cos30 th
  let pe : Int := ((x.acc * 256 : Nat) : Int)
  let k : Rat := 2 * piQ * (pilotBw x : Nat) / 10000000
  let stepTo := fun (v : Int) (m : Int) => (v : Rat) + k * (((r * m : Int) : Rat) / 4096 - v)
  let (i, s) := s.near (stepTo x.pi (cos30 pe))
  let (q, s) := s.near (stepTo x.pq (sin30 pe))
  let x := { x with pi := i, pq := q }
  let locked := s.bit d EXC_PILOT.LOCK n
  let ref := s.carrierRef d n * 16777216
  let flip :=
    if locked then x.flip
    else
      let near := fun a : Int => (wrapDiff 40 a ref).natAbs
      near (atan40 (-q) i + 2 ^ 39) < near (atan40 (-q) i)
  let x := { x with flip := flip }
  let ampl := rheQ (pilotAmpl x)
  let low := ampl ≤ 2457
  let x := { x with lowAt := if low then some (x.lowAt.getD s.pt) else none }
  let s := (s.modExc d n fun _ => x).wr d EXC_PILOT.AMPL (min ampl.toNat 32767) n
  let lost := !locked && x.held && x.acqEnd.isNone
  let s := if !locked && x.held then s else s.wr d EXC_PILOT.PHASE (enc 16 (rheDiv (pilotPhase x) 16777216)) n
  if lost && decide (3277 ≤ ampl) then pilotAcquire d n true s else s

/-- After 20 ms of acquisition the pilot locks if the amplitude suffices, and narrows to PILOTBW; the wide window after a
change of FINC ends with LOCK unchanged (R85). A lock within such a window ends the window too: the row of the table that says the
pilot narrows prevails over the one that says 64 Hz for 20 ms (DESIGN CHOICE, log entry 43). -/
def pilotAcqTimeout (d n : Nat) (s : State) : State :=
  let x := s.getExc d n
  match x.acqEnd with
  | some t =>
    let s := s.passTo t
    if 3277 ≤ s.rd d EXC_PILOT.AMPL n then
      (s.modExc d n fun x => { x with acqEnd := none, wideEnd := none }).wr d EXC_PILOT.LOCK 1 n
    else s
  | none =>
    match x.wideEnd with
    | some t => (s.passTo t).modExc d n fun x => { x with wideEnd := none }
    | none => s

def execPilotAcqTimeout (d n : Nat) (s : State) : Host.Outcome State Fault Refusal := onAxis d n s (pilotAcqTimeout d n)

/-- An amplitude below 0.15 V for 1 ms clears LOCK and holds the phase (R85). -/
def pilotAmplitudeLoss (d n : Nat) (s : State) : State :=
  match (s.getExc d n).lowAt with
  | some t =>
    if s.bit d EXC_PILOT.LOCK n then
      ((s.passTo (t + 2500000)).wr d EXC_PILOT.LOCK 0 n).modExc d n fun x => { x with held := true, acqEnd := none }
    else s
  | none => s

def execPilotAmplitudeLoss (d n : Nat) (s : State) : Host.Outcome State Fault Refusal :=
  onAxis d n s (pilotAmplitudeLoss d n)

/-! Writes and apply boundaries -/

/-- A write to EXC_CTRL (r = 0), EXC_FINC (r = 1) or EXC_AMP (r = 2) accepted at tick `t`: the value waits for its own
boundary B; a FINC outside the range is clamped with CLAMP and exc-config (R63, R66, R67). -/
def excWrite (n r : Nat) (v : Word) (t d : Nat) (s : State) : State :=
  let w := v.toNat
  let b := applyBoundary t
  let s := match r with
    | 0 =>
      let s := ((s.wr d EXC_CTRL.EN (bitsOf w 0 1) n).wr d EXC_CTRL.DRIVE (bitsOf w 1 1) n).wr d EXC_CTRL.GROUP (bitsOf w 4 3) n
      let s := s.wr d EXC_CTRL.PILOTBW (bitsOf w 8 2) n
      let s := if bitOf w 25 then s.wr d EXC_CTRL.CLAMP 0 n else s
      s.modExc d n fun x => { x with pendCtrl := some b }
    | 1 =>
      let f := clampFinc w
      let s := (s.wr d EXC_FINC.FINC f n).modExc d n fun x => { x with pendFinc := some b }
      if f = w then s else (s.wr d EXC_CTRL.CLAMP 1 n).raise d 336 3 n
    | _ => (s.wr d EXC_AMP.AMP (bitsOf w 0 15) n).modExc d n fun x => { x with pendAmp := some b }
  (s.wr d EXC_CTRL.PEND 1 n).wrBit d EXC_STAT.PEND n true

/-- The register a write command names: EXC_CTRL, EXC_FINC or EXC_AMP. -/
def excReg (r : Nat) : Fld := match r with | 0 => EXC_CTRL.EN | 1 => EXC_FINC.FINC | _ => EXC_AMP.AMP

def execExcWrite (d n r : Nat) (v : Word) (s : State) : Host.Outcome State Fault Refusal :=
  onItem (s.hasDie d && n < 8 && r < 3) s fun s =>
    if (s.getDie d).inReset then s else axisWrite d ((excReg r).addr 0 n 0) v (excWrite n r v s.pt) s

/-- Pending settings of axis `n` that are due take effect (a driver that lets go leaves its ball to the keeper, R271): enable, drive, group, pilot bandwidth (R66, R85, R105), the
increment (R68) and the start of the amplitude ramp (R65). -/
def excTake (d n : Nat) (s : State) : State :=
  let x := s.getExc d n
  let due := fun o : Option Nat => match o with | some b => decide (b ≤ s.pt) | none => false
  let s :=
    if due x.pendCtrl then
      let en := s.bit d EXC_CTRL.EN n
      let g := s.rd d EXC_CTRL.GROUP n
      let jump := if g = s.groupOf d n then x.jumpEnd else s.pt + 50000000
      let s := if x.en && x.drive && !(en && s.bit d EXC_CTRL.DRIVE n) then s.holdBalls (d / 2) else s
      let s := s.modExc d n fun x => { x with en := en, drive := s.bit d EXC_CTRL.DRIVE n, group := some g,
                                              bw := s.rd d EXC_CTRL.PILOTBW n, pendCtrl := none, jumpEnd := jump }
      if en && !x.en then pilotAcquire d n false s else s
    else s
  let s :=
    if due x.pendFinc then
      let f := s.rd d EXC_FINC.FINC n
      s.modExc d n fun x => { x with pendFinc := none, finc := f }
    else s
  let s :=
    if due x.pendAmp then
      let now := s.ampNow d n
      s.modExc d n fun y => { y with pendAmp := none, ampFrom := now, amp := s.rd d EXC_AMP.AMP n, ampK := 0 }
    else s
  let x := s.getExc d n
  let waits := x.pendCtrl.isSome || x.pendFinc.isSome || x.pendAmp.isSome
  (s.wr d EXC_CTRL.PEND (b2n waits) n).wrBit d EXC_STAT.PEND n waits

/-- The groups after a boundary: an accumulator that starts runs from 0, a member that joins a running group takes the
group's value, and LEAD shows the leader (R68 to R70). `old` is the state before the settings changed. -/
def excGroups (d : Nat) (old s : State) : State :=
  let ran := fun g => (List.range 8).any fun n => old.groupOf d n == g && (old.getExc d n).en
  let runs := fun g => (List.range 8).any fun n => s.groupOf d n == g && (s.getExc d n).en
  let acc := fun g => match old.leaderOf d g with | some l => (old.getExc d l).acc | none => 0
  s.forEach (List.range 8) fun n s =>
    let g := s.groupOf d n
    let a := if runs g then if ran g then acc g else 0 else (s.getExc d n).acc
    (s.modExc d n fun x => { x with acc := a, runs := runs g }).wr d EXC_CTRL.LEAD ((s.leaderOf d g).getD n) n

/-- In divided mode the settings in force of an axis are mirrored into the chain of the die that does not own it (R72). -/
def excMirror (d n : Nat) (s : State) : State :=
  if s.divided d && !s.holds d n && s.bridgeUp d then
    let m := s.getExc (mateOf d) n
    s.modExc d n fun x => { x with en := m.en, drive := m.drive, group := some (m.group.getD n), bw := m.bw, finc := m.finc,
                                   amp := m.amp, ampFrom := m.ampFrom, ampK := m.ampK }
  else s

/-- Die `d` is the owner of axis `n` in R73: the die that owns it in divided mode, the active mate in standby mode. -/
def State.ncoOwner (s : State) (d n : Nat) : Bool := if s.divided d then n / 4 == d % 2 else s.activeOf d == d

/-- The mates compare accumulators: a non-owner that differs takes the owner's value at the next boundary, and reports
nco-mismatch (R73); in divided mode too, where R486 lets a die raise the sources of its own axes alone: what R73 says of this one source
prevails (DEDUCED, log entry 43). -/
def ncoExchange (d n : Nat) (s : State) : State :=
  if s.bridgeUp d && !s.ncoOwner d n then
    let m := (s.getExc (mateOf d) n).acc
    if (s.getExc d n).corr then s.modExc d n fun x => { x with acc := m, corr := false }
    else if (s.getExc d n).acc = m then s
    else ((s.modExc d n fun x => { x with corr := true }).wrBit d EXC_STAT.NCOMIS n true).send d { src := 8 + n, kind := 3, addr := n }
  else s

/-- TRK_CTRL.BW bandwidths in Hz (R90). -/
def bwHz (c : Nat) : Nat :=
  [200, 300, 400, 500, 600, 800, 1000, 1200, 1600, 2000, 2500, 3000, 4000, 5000, 6000, 8000].getD c 200

/-- The largest admissible bandwidth code at or below `c` for an increment `f`: f_BW at most fc / 5 (R91). -/
def bwLimit (f : Nat) : Nat → Nat
  | 0 => 0
  | c + 1 => if 5 * bwHz (c + 1) * 4294967296 ≤ f * 10000000 then c + 1 else bwLimit f c

/-- Recomputes the bandwidth limit of axis `n` for the written code: the code in force, BWCLAMP, and track-config for a code that has
just been `written`, or when the clamp sets (R91). -/
def bwClamp (d n : Nat) (code : Nat) (written : Bool) (s : State) : State :=
  let lim := bwLimit (s.fincOf d n) code
  let clamped := lim != code
  let s := s.modTrk d n fun t => { t with bw := lim, code := code }
  let s := if clamped && (written || !s.bit d TRK_STAT.BWCLAMP n) then s.raiseAx d n 6 3 else s
  s.wr d TRK_STAT.BWCLAMP (b2n clamped) n

/-- The carrier of axis `n` after a boundary: where its increment has changed since state `old`, the pilot runs at 64 Hz for 20 ms with
its jump output suppressed (R85), and the bandwidth limit is recomputed for the code in force, a written one that waits for its update
apart, as it is at the first boundary of full service (R91, R92). -/
def excCarrier (old : State) (d n : Nat) (s : State) : State :=
  let code := (s.getTrk d n).code
  if s.fincOf d n = old.fincOf d n then
    if (old.getExc d n).group = none then bwClamp d n code false s else s
  else
    bwClamp d n code false
      (s.modExc d n fun x => { x with wideEnd := some (s.pt + 50000000), jumpEnd := s.pt + 50000000 })

/-- Die `d` at an apply boundary: mirrored settings and the groups (R68 to R72), `old` being the state before the boundary. -/
def excBoundary (old : State) (d : Nat) (s : State) : State :=
  let s := s.forEach (List.range 8) fun n s => excMirror d n s
  let s := excGroups d old s
  s.forEach (List.range 8) fun n s => excCarrier old d n s

/-- On a multiple of 25,000 tk (R66): every die in full service takes its settings, then the chains follow, then the mates compare
accumulators (R73). -/
def excApplyBoundary (s : State) : State :=
  let s := s.toNext 64 25000
  let ds := s.liveDies.filter fun d => 5 ≤ s.rd d GLB_PHASE.PHASE
  let t := s.forEach ds fun d s => s.forEach (List.range 8) fun n s => excTake d n s
  let t := t.forEach ds (excBoundary s)
  t.forEach ds fun d s => s.forEach (List.range 8) fun n s => ncoExchange d n s

def execExcApplyBoundary (s : State) : Host.Outcome State Fault Refusal := onPackage s excApplyBoundary

/-! Driver overload and clipping -/

/-- The EXC driver enters current limit (R75). -/
def excOverloadOnset (d n : Nat) (s : State) : State :=
  (s.wr d EXC_CTRL.OVLD 1 n).modExc d n fun x => { x with ovldAt := some (x.ovldAt.getD s.pt) }

def execExcOverloadOnset (d n : Nat) (s : State) : Host.Outcome State Fault Refusal := onAxis d n s (excOverloadOnset d n)

/-- exc-overload of axis `n` stands: collected and live, or on its way to the collector. -/
def State.excOverRaised (s : State) (d n : Nat) : Bool :=
  s.bit d FLT_SRCSTAT.LIVE (16 + n) || (s.inbox.get d []).any fun m => m.src == 16 + n && m.kind == 1

/-- Limiting for 100 µs without a break raises exc-overload; the driver stays enabled (R75). -/
def excOverloadTimeout (d n : Nat) (s : State) : State :=
  match (s.getExc d n).ovldAt with
  | some t => let s := s.passTo (t + 250000); if s.excOverRaised d n then s else s.raiseAx d n 2 1
  | none => s

def execExcOverloadTimeout (d n : Nat) (s : State) : Host.Outcome State Fault Refusal :=
  onAxis d n s (excOverloadTimeout d n)

/-- The overload clears, and OVLD returns to 0; a raised exc-overload ends (R75, R288). -/
def excOverloadClear (d n : Nat) (s : State) : State :=
  let raised := s.excOverRaised d n
  let s := (s.wr d EXC_CTRL.OVLD 0 n).modExc d n fun x => { x with ovldAt := none }
  if raised then s.raiseAx d n 2 2 else s

def execExcOverloadClear (d n : Nat) (s : State) : Host.Outcome State Fault Refusal := onAxis d n s (excOverloadClear d n)

/-- The clip record of the carrier period that the last accumulator wrap ended (R83). -/
def clipPeriod (d n : Nat) (s : State) : State :=
  match (s.getExc d n).closed with
  | none => s
  | some (sin, cos) =>
    let any := sin || cos
    let s := (s.wr d EXC_CLIP.SCLIP (b2n sin) n).wr d EXC_CLIP.CCLIP (b2n cos) n
    let s := if any then s.addSat d EXC_CLIP.COUNT 1 n else s
    s.modExc d n fun x => { x with closed := none, clipRun := if any then x.clipRun + 1 else 0, clipDone := x.clipDone && any }

/-- LIMIT consecutive carrier periods with a clipped sample raise input-clip, once for the run (R83). -/
def inputClip (d n : Nat) (s : State) : State :=
  let x := s.getExc d n
  let lim := s.rd d EXC_CLIP.LIMIT n
  if 0 < lim ∧ lim ≤ x.clipRun ∧ !x.clipDone then
    (s.modExc d n fun x => { x with clipDone := true }).raiseAx d n 0 3
  else s

def execInputClip (d n : Nat) (s : State) : Host.Outcome State Fault Refusal := onAxis d n s (inputClip d n)

/-- A write of EXC_CLIP sets COUNT to 0 and writes LIMIT. -/
def excClipWrite (n : Nat) (v : Word) (d : Nat) (s : State) : State :=
  (s.wr d EXC_CLIP.COUNT 0 n).wr d EXC_CLIP.LIMIT (bitsOf v.toNat 16 8) n

end Sys2Proof.Machine
end

