-- ==== Sys2Proof/Machine/Tbl.lean ====
section
/-!
DEFINITION. Angle-indexed tables and the carrel (R113 to R143).
-/

namespace Sys2Proof.Machine

namespace State

/-! Where a table's entries lie -/

/-- Bins of a table (R115). -/
def tblBins (s : State) (d n t : Nat) : Nat := [256, 512, 1024, 2048, 4096].getD (s.rd d TBL_DESC.BINS n t) 256

/-- Bins of a coarse copy (R119). -/
def coarseBins (s : State) (d : Nat) : Nat := if s.divided d then 512 else 256

/-- The carrel entry of coarse bin `b`, none for an axis the die does not own in divided mode (R119). -/
def coarseEntry (s : State) (d n t b : Nat) : Option Nat :=
  if s.divided d then if n / 4 == d % 2 then some ((n % 4 * 4 + t) * 512 + b) else none
  else some ((n * 4 + t) * 256 + b)

/-- Page `p` is active and tagged as half `h` of the table (R133). -/
def pageIs (s : State) (d p n t h : Nat) : Bool :=
  s.rd d TBL_PAGE.STATE p == 5 && s.rd d TBL_PAGE.AXIS p == n && s.rd d TBL_PAGE.TABLE p == t && s.rd d TBL_PAGE.HALF p == h

/-- The table's full pages are active (R120, R130). -/
def fullActive (s : State) (d n t : Nat) : Bool :=
  s.bit d TBL_RES.ACTIVE n t && s.pageIs d (s.rd d TBL_RES.PAGE0 n t) n t 0 &&
    (s.tblBins d n t ≤ 2048 || s.pageIs d (s.rd d TBL_RES.PAGE1 n t) n t 1)

/-- The carrel entry of full bin `b` (R130). -/
def fullEntry (s : State) (d n t b : Nat) : Nat :=
  (if b < 2048 then s.rd d TBL_RES.PAGE0 n t else s.rd d TBL_RES.PAGE1 n t) * 2048 + b % 2048

/-- A carrel entry as a signed number. -/
def entryI (s : State) (d k : Nat) : Int := (s.getEntry d k).toInt

/-- The line phase of die `d` at tick `t` in turns, whole ones counted (R196). -/
def lineAt (s : State) (d : Nat) (t : Int) : Rat :=
  (s.getLpt d).turns + (s.rd d LPT_PHASE.PHASE : Rat) / 4294967296 +
    (s.getLpt d).f * ((t - s.rd d LPT_STAMP.PT : Int) : Rat) * 4 / 10000000000

/-- The line phase of die `d` at tick `t`, as a fraction of a turn (R196). -/
def linePhase (s : State) (d : Nat) (t : Int) : Rat := s.lineAt d t - floorQ (s.lineAt d t)

/-- The index fraction of a repetitive table, none where reads return 0 (R116, R117). -/
def tblIndex (s : State) (d n t : Nat) : Option Rat :=
  match s.rd d TBL_DESC.SRC n t with
  | 1 => if s.bit d TRK_STAT.MECHVALID n then some ((s.rd d TRK_MECH.FRAC n : Rat) / 65536) else none
  | 2 => if s.bit d LPT_STAT.LOCK then some (s.linePhase d s.pt) else none
  | _ => some ((s.rd d TRK_ANG.FRAC n : Rat) / 4294967296)

end State

/-- Interpolation between the two bins next to x, rounded half-even to the entry LSB (R116). -/
def interpolate (x : Rat) (n : Nat) (e : Nat → Int) : Int :=
  let p := x * (n : Rat)
  let b := (floorQ p).toNat % n
  let f := p - floorQ p
  rheQ ((e b : Rat) + ((e ((b + 1) % n) - e b : Int) : Rat) * f)

/-- A coarse read in place of absent full pages: MISS, and table-miss at the first one (R141). -/
def tblMiss (d n t : Nat) (s : State) : State :=
  let first := !(s.getSlot d n t).missed
  let s := (s.wr d TBL_RES.MISS 1 n t).modSlot d n t fun r => { r with missed := true, missRev := true }
  if first then (s.wrBit d TBL_MISS.MISS (4 * n + t) true).raise d (64 + n) 3 n else s

/-- ADDR of table-ecc for axis `n` and carrel entry `k`: the axis in [2:0] (R486), above it the byte offset of the entry read (R287;
DEDUCED: both rules hold at once, log entry 44). -/
def eccAddr (n k : Nat) : Nat := 2 * k / 8 * 8 + n

/-- A read of a table at index fraction `x` (R116, R120, R131, R133, R141), in entry LSB. `ecc` is what the carrel's code
finds in the words read: 0 nothing, 1 a corrected error, 2 an uncorrected one. Each read is a check for injection (R306). -/
def tblRead (d n t : Nat) (x : Rat) (ecc : Nat) (s : State) : Int × State :=
  let bins := s.tblBins d n t
  let cb := s.coarseBins d
  let s := if ecc = 1 then s.addSat d TBL_MISSCNT.ECC 1 n t else s
  let bin := fun k : Nat => (floorQ (x * (k : Rat))).toNat % k
  let coarse := fun (k bad : Nat) (s : State) =>
    match s.coarseEntry d n t 0 with
    | none => (0, s)
    | some base =>
      let a := eccAddr n (base + bin k)
      if bad = 2 then (0, s.raise d (72 + n) 5 a)
      else (interpolate x k fun b => s.entryI d (base + b), s.inject d 0 (72 + n) 5 a)
  if bins ≤ cb then coarse bins ecc (s.wr d TBL_RES.MISS 0 n t)
  else if s.fullActive d n t then
    let a := eccAddr n (s.fullEntry d n t (bin bins))
    if ecc = 2 then
      let s := s.raise d (72 + n) 5 a
      coarse cb 0 (tblMiss d n t s)
    else
      let v := interpolate x bins fun b => s.entryI d (s.fullEntry d n t b)
      let s := s.inject d 0 (72 + n) 5 a
      (v, (s.wr d TBL_RES.MISS 0 n t).modSlot d n t fun r => { r with missed := false })
  else coarse cb ecc (tblMiss d n t s)

/-- The correction of the angle `ang` (2^-40 rev), in 2^-24 rev: slot 0 in the correction role with APPLY = 1 (R97, R114). Its index is
the ANG48 fraction of the angle, of 24 significant bits (R6, R116). -/
def correction (d n : Nat) (ang : Int) (ecc : Nat) (s : State) : Int × State :=
  if s.rd d TBL_DESC.ROLE n 0 = 1 ∧ s.bit d TBL_DESC.APPLY n 0 then
    tblRead d n 0 (((enc 40 ang / 65536 : Nat) : Rat) / 16777216) ecc s
  else (0, s)

/-- The value a REP operator reads at index `x`, in entry LSB: 0 without the role, with APPLY = 0, or without its index (R113,
R117). -/
def repRead (d n t ecc : Nat) (x : Option Rat) (s : State) : Int × State :=
  if s.rd d TBL_DESC.ROLE n t = 2 ∧ s.bit d TBL_DESC.APPLY n t then
    match x with
    | some x => tblRead d n t x ecc s
    | none => (0, s)
  else (0, s)

/-! Learning -/

/-- The learning law (R127), and whether it saturated. -/
def learnLaw (entry : Int) (err : Rat) (g f : Nat) : Int × Bool :=
  let raw := rheQ (((entry * (65536 - (f : Int)) : Int) + (g : Rat) * err) / 65536)
  (satI 16 raw, decide (satI 16 raw ≠ raw))

/-- A learn write to carrel entry `k` of the table (R127, R128). -/
def learnWrite (d n t k : Nat) (err : Rat) (s : State) : State :=
  let (v, sat) := learnLaw (s.entryI d k) err (s.rd d TBL_LAW.GAIN n t) (s.rd d TBL_LAW.FORGET n t)
  let s := s.modEntry d k fun _ => BitVec.ofInt 16 v
  if sat then s.wr d TBL_RES.SAT 1 n t else s

/-- One error sample goes into full bin `b` where the full pages are active, and into coarse bin `c` (R121); a table that
lives in its coarse copy has that one alone (R120). -/
def learnBins (d n t b c : Nat) (err : Int) (s : State) : State :=
  let s := if s.coarseBins d < s.tblBins d n t ∧ s.fullActive d n t then learnWrite d n t (s.fullEntry d n t b) err s else s
  match s.coarseEntry d n t c with
  | some k => learnWrite d n t k err s
  | none => s

/-- Bins of the coarse copy as it is learned: N for a table that lives in it, else CB (R120, R121). -/
def State.coarseUsed (s : State) (d n t : Nat) : Nat := min (s.tblBins d n t) (s.coarseBins d)

/-- The learn sample of a correction table at tracker update `u` (R123 to R125); `th` the loop angle, `corr` its correction
and `w` the speed of the update, `e` its error. -/
def correctionLearn (d n u : Nat) (th corr : Int) (w e : Rat) (s : State) : State :=
  let r := s.getSlot d n 0
  if s.rd d TBL_DESC.ROLE n 0 ≠ 1 then s
  else
    let band := s.rd d TBL_STEADY.BAND n
    let st := s.rd d TRK_STAT.ANGVALID n == 1 && s.bit d TRK_STAT.LOCK n && !s.bit d TRK_STAT.CLIP n &&
      !s.bit d TRK_STAT.SUPPLY n
    let steady := match r.wpred with
      | some p => decide (absQ (w - p) * 16384 ≤ (band : Rat) * absQ p)
      | none => true
    let allowed := s.bit d TBL_DESC.LEARN n 0 && s.bit d PWR_ADMIT.FIRM
    let bad := !(st && steady)
    let taking := r.taking && !bad && allowed
    let s := s.modSlot d n 0 fun r => { r with taking := taking, broken := r.broken || bad, idle := r.idle || !allowed }
    let s := s.wr d TBL_RES.LEARNING (b2n taking) n 0
    match taking, r.wpred, r.u0 with
    | true, some p, some u0 =>
      let thm : Rat := (th : Rat) + (e / (2 * piQ)) * 1099511627776 - (corr : Rat) * 65536
      let ref : Rat := (r.th0 : Rat) + p * (((u : Int) - u0 : Int) : Rat) * 4 / 10000000000 * 1099511627776
      let df := thm - ref
      let dm := df - floorQ (df / 72057594037927936 + 1 / 2) * 72057594037927936
      let err := clampQ (-32767) 32767 (dm / 65536)
      let x := thm / 1099511627776 - floorQ (thm / 1099511627776)
      let bin := fun k : Nat => (rheQ (x * (k : Rat))).toNat % k
      let nb := s.tblBins d n 0
      let cu := s.coarseUsed d n 0
      let s := if bin nb ≠ 0 ∧ s.coarseBins d < nb ∧ s.fullActive d n 0 then
          learnWrite d n 0 (s.fullEntry d n 0 (bin nb)) err s else s
      match s.coarseEntry d n 0 0 with
      | some base => if bin cu ≠ 0 then learnWrite d n 0 (base + bin cu) err s else s
      | none => s
    | _, _, _ => s

/-- The learn sample of a repetitive table at index `x` with its REP operator's error `err`, in entry LSB (R117, R126, R142). -/
def repLearn (d n t : Nat) (err : Int) (x : Option Rat) (s : State) : State :=
  if s.rd d TBL_DESC.ROLE n t = 2 ∧ s.bit d TBL_DESC.LEARN n t ∧ s.bit d PWR_ADMIT.FIRM then
    match x with
    | some x =>
      let nb := s.tblBins d n t
      let cu := s.coarseUsed d n t
      let l := s.rd d TBL_DESC.LEAD n t
      let bin := ((rheQ (x * (nb : Rat))).toNat + nb - l % nb) % nb
      let cl := (rheDiv ((l * cu : Nat) : Int) nb).toNat
      let c := ((rheQ (x * (cu : Rat))).toNat + cu - cl % cu) % cu
      (learnBins d n t bin c err s).wr d TBL_RES.LEARNING 1 n t
    | none => s.wr d TBL_RES.LEARNING 0 n t
  else s.wr d TBL_RES.LEARNING 0 n t

/-! Index wraps -/

/-- The conditions of R123 that are checked at the wrap which starts revolution r: both predecessors clean and alike, the
predicted speed in its window, and one sign. Answers w_pred, whether samples may be taken, and whether the second row fails. -/
def wrapJudge (s : State) (d n : Nat) (w1 w2 : Option (Rat × Bool)) : Option Rat × Bool × Bool :=
  match w1, w2 with
  | some (a, ca), some (b, cb) =>
    let p := 2 * a - b
    let band := s.rd d TBL_STEADY.BAND n
    let near := decide (absQ (a - b) * 16384 ≤ (band : Rat) * absQ a)
    let inWin := decide ((s.rd d TBL_SPDWIN.MIN n : Rat) ≤ absQ p ∧ absQ p ≤ (s.rd d TBL_SPDWIN.MAX n : Rat))
    let oneSign := decide ((0 < a ∧ 0 < b ∧ 0 < p) ∨ (a < 0 ∧ b < 0 ∧ p < 0))
    (some p, ca && cb && near && inWin && oneSign, !(inWin && oneSign))
  | _, _ => (none, false, false)

/-- A wrap closes the learning revolution of a correction table and opens the next one at the update of the latest published set (R122,
R123). A revolution that starts outside its speed window, or with two signs, has a condition broken from the start; the first row alone
only suspends learning. -/
def closeRevolution (d n : Nat) (fwd : Bool) (s : State) : State :=
  let r := s.getSlot d n 0
  let u := s.rd d TRK_STAMP.PT n
  let allowed := s.bit d TBL_DESC.LEARN n 0 && s.bit d PWR_ADMIT.FIRM
  let w := match r.u0 with
    | some u0 => if u0 < u then some ((if fwd then 1 else -1) * 2500000000 / (((u - u0 : Nat) : Rat)), !r.broken) else none
    | none => none
  let s := if r.began then if r.taking then s.addSat d TBL_LSTAT.ACCEPT 1 n else s.addSat d TBL_LSTAT.REJECT 1 n else s
  let (p, ok, bad) := wrapJudge s d n w r.w1
  let take := ok && allowed
  let ang := match (s.getTrk d n).hist with | x :: _ => x.ang | [] => 0
  (s.modSlot d n 0 fun x =>
    { x with w1 := w, w2 := r.w1, u0 := some u, th0 := ang, wpred := p, taking := take, began := take, broken := bad,
             idle := !allowed }).wr
    d TBL_RES.LEARNING (b2n take) n 0

/-- Sets state and tag of a carrel page (R132). -/
def setPage (s : State) (d p st n t h : Nat) : State :=
  (((s.wr d TBL_PAGE.STATE st p).wr d TBL_PAGE.AXIS n p).wr d TBL_PAGE.TABLE t p).wr d TBL_PAGE.HALF h p

/-- The pages a table has active: one, or two for 4,096 bins (R130). -/
def activePages (s : State) (d n t : Nat) : List Nat :=
  if s.bit d TBL_RES.ACTIVE n t then
    if s.pageIs d (s.rd d TBL_RES.PAGE1 n t) n t 1 then [s.rd d TBL_RES.PAGE0 n t, s.rd d TBL_RES.PAGE1 n t]
    else [s.rd d TBL_RES.PAGE0 n t]
  else []

/-- Active pages become held (R132, R134). -/
def holdPages (s : State) (d : Nat) (ps : List Nat) : State := s.forEach ps fun p s => s.wr d TBL_PAGE.STATE 2 p

/-- A pending MAP or UNMAP takes effect at the wrap, with table-swap (R134, R138, R139). -/
def mapActivate (d n t : Nat) (s : State) : State :=
  let r := s.getSlot d n t
  match r.map with
  | some (p0, p1) =>
    let s := holdPages s d (activePages s d n t)
    let s := (s.wr d TBL_PAGE.STATE 5 p0).wr d TBL_RES.PAGE0 p0 n t
    let s := if s.tblBins d n t = 4096 then (s.wr d TBL_PAGE.STATE 5 p1).wr d TBL_RES.PAGE1 p1 n t else s
    let s := (s.wr d TBL_RES.ACTIVE 1 n t).wr d TBL_RES.PEND 0 n t
    (s.modSlot d n t fun x => { x with map := none }).raise d (80 + n) 3 n
  | none =>
    if r.unmap then
      let s := holdPages s d (activePages s d n t)
      let s := (s.wr d TBL_RES.ACTIVE 0 n t).wr d TBL_RES.PEND 0 n t
      (s.modSlot d n t fun x => { x with unmap := false }).raise d (80 + n) 3 n
    else s

/-- The direction in which the index fraction of slot `t` has wrapped, where the wrap is still to be taken (R138): of the tracker's
sources as its updates have found it, of the line phase as it stands against the last wrap taken. None occurs while the source returns
0. -/
def State.wrapDue (s : State) (d n t : Nat) : Option Bool :=
  if s.rd d TBL_DESC.ROLE n t = 2 ∧ s.rd d TBL_DESC.SRC n t = 2 then
    let k := floorQ (s.lineAt d s.pt) - (s.getSlot d n t).turn
    if !s.bit d LPT_STAT.LOCK || k == 0 then none else some (decide (0 < k))
  else if s.rd d TBL_DESC.ROLE n t = 2 ∧ (s.tblIndex d n t).isNone then none
  else (s.getSlot d n t).wrap

/-- A wrap of the table's index fraction is taken: the miss record of the revolution (R141), and a pending MAP or UNMAP (R138). -/
def wrapTake (d n t : Nat) (s : State) : State :=
  let s := if (s.getSlot d n t).missRev then s.addSat d TBL_MISSCNT.COUNT 1 n t else s
  let k := floorQ (s.lineAt d s.pt)
  mapActivate d n t (s.modSlot d n t fun x => { x with missRev := false, wrap := none, turn := k })

/-! Page commands -/

/-- ERR of a page command that is refused, 0 where its conditions are met (R134, R137). -/
def tblCheck (s : State) (d op pa pb n t : Nat) : Nat :=
  let st := fun p => s.rd d TBL_PAGE.STATE p
  let axisCmd := op == 3 || op == 4 || op == 5
  if op = 0 ∨ 7 < op then 2
  else if axisCmd && !s.holds d n then 6
  else match op with
    | 1 => if st pa = 0 ∨ st pa = 2 then 0 else 3
    | 2 => if st pa = 2 ∨ st pa = 4 ∨ st pa = 5 then 0 else 3
    | 3 =>
      let two := s.tblBins d n t == 4096
      if s.tblBins d n t ≤ s.coarseBins d then 5
      else if two && pa == pb then 5
      else if s.bit d TBL_RES.PEND n t then 4
      else if st pa = 2 ∧ (!two ∨ st pb = 2) then 0 else 3
    | 4 => if s.bit d TBL_RES.ACTIVE n t && !s.bit d TBL_RES.PEND n t then 0 else 4
    | 5 => if (s.getSlot d n t).map.isSome then 0 else 4
    | 6 => if st pa = 2 then 0 else 3
    | _ => if st pa = 0 then 0 else 3

/-- The effect of a page command whose conditions are met, as it is accepted (R134). -/
def tblEffect (d op pa pb n t : Nat) (s : State) : State :=
  let ofs := s.rd d TBL_CMDOFS.OFS
  match op with
  | 1 => (s.wr d TBL_PAGE.STATE 3 pa).modTcmd d fun c => { c with run := some (true, pa, ofs) }
  | 2 => s.modTcmd d fun c => { c with run := some (false, pa, ofs) }
  | 3 =>
    let two := s.tblBins d n t == 4096
    let s := setPage s d pa 4 n t 0
    let s := if two then setPage s d pb 4 n t 1 else s
    (s.wr d TBL_RES.PEND 1 n t).modSlot d n t fun x => { x with map := some (pa, pb) }
  | 4 => (s.wr d TBL_RES.PEND 1 n t).modSlot d n t fun x => { x with unmap := true }
  | 5 =>
    let s := match (s.getSlot d n t).map with
      | some (p0, p1) =>
        let s := s.wr d TBL_PAGE.STATE 2 p0
        if s.tblBins d n t = 4096 then s.wr d TBL_PAGE.STATE 2 p1 else s
      | none => s
    (s.wr d TBL_RES.PEND 0 n t).modSlot d n t fun x => { x with map := none }
  | 6 => s.wr d TBL_PAGE.STATE 0 pa
  | _ => s.wr d TBL_PAGE.STATE 2 pa

/-- Reports an error of die `d`: table-cmd, ERR as the first nonzero error, and MATEERR on the mate of a shared command
(R134, R137). -/
def tblError (d err : Nat) (s : State) : State :=
  let s := if s.rd d TBL_CMDSTAT.ERR = 0 then (s.wr d TBL_CMDSTAT.ERR err).wr d TBL_CMDSTAT.MATEERR 0 else s
  let m := mateOf d
  let s := if (s.getTcmd d).share ∧ s.rd m TBL_CMDSTAT.ERR = 0 then
      (s.wr m TBL_CMDSTAT.ERR err).wr m TBL_CMDSTAT.MATEERR 1 else s
  s.raise d 368 3 err

/-- Die `d` has finished its part: BUSY clears, DONE is set and line 17 rises once both mates have (R137, R331). -/
def tblFinish (d : Nat) (s : State) : State :=
  let s := s.modTcmd d fun c => { c with own := false, run := none }
  let close := fun (e : Nat) (s : State) =>
    (((s.wr e TBL_CMDSTAT.BUSY 0).wr e TBL_CMDSTAT.DONE 1).setIrqs e 17 true).modTcmd e fun c => { c with share := false }
  let m := mateOf d
  if (s.getTcmd d).share then if (s.getTcmd m).own then s else close m (close d s) else close d s

/-- Die `d` executes its part of a page command (R134, R137). -/
def tblStart (d op pa pb n t : Nat) (s : State) : State :=
  let err := tblCheck s d op pa pb n t
  if err ≠ 0 then tblFinish d (tblError d err s)
  else
    let s := tblEffect d op pa pb n t s
    if op = 1 ∨ op = 2 then s else tblFinish d s

/-- The word of TBL_CMD that gives a page command. -/
def tblWord (op pa pb n t : Nat) : Nat := op + pa * 16 + pb * 512 + n * 65536 + t * 1048576

/-- BUSY := 1, DONE and ERR cleared, LASTOP set, as a command is accepted on die `d`. -/
def tblAccept (d op : Nat) (share : Bool) (s : State) : State :=
  let s := ((s.wr d TBL_CMDSTAT.BUSY 1).wr d TBL_CMDSTAT.ERR 0).wr d TBL_CMDSTAT.MATEERR 0
  (s.wr d TBL_CMDSTAT.LASTOP op).modTcmd d fun c => { c with own := true, share := share }

/-- A write of TBL_CMD through the window of die `d`: discarded with ERR 0x1 while BUSY; in standby mode executed by both
mates, the active one first, with the offset of the window that was written (R134, R137). -/
def tblCmd (d op pa pb n t : Nat) (s : State) : State :=
  if s.bit d TBL_CMDSTAT.BUSY then ((s.wr d TBL_CMDSTAT.ERR 1).wr d TBL_CMDSTAT.MATEERR 0).raise d 368 3 1
  else if s.forwards d then
    let a := s.activeOf d
    let m := mateOf a
    let ofs := s.rd d TBL_CMDOFS.OFS
    let s := tblAccept m op true (tblAccept a op true s)
    let s := s.modFwd m fun q => q ++ [{ off := 0x7800C, val := BitVec.ofNat 32 ofs, tick := s.pt },
      { off := 0x78008, val := BitVec.ofNat 32 (tblWord op pa pb n t), tick := s.pt }]
    tblStart a op pa pb n t (s.wr a TBL_CMDOFS.OFS ofs)
  else tblStart d op pa pb n t (tblAccept d op false s)

/-- The pair bridge is lost while a shared command waits for the mate: each die finishes on its own (R26). -/
def tblUnshare (d : Nat) (s : State) : State :=
  if (s.getTcmd d).share then
    let s := s.modTcmd d fun c => { c with share := false }
    if (s.getTcmd d).own then s else tblFinish d s
  else s

/-- A page number, a table number and an axis number of a page command. -/
def tblNums (pa pb n t : Nat) : Bool := pa < 32 && pb < 32 && n < 8 && t < 4

def execTblLoad (d pa : Nat) (s : State) : Host.Outcome State Fault Refusal := onPart d pa 32 s (tblCmd d 1 pa 0 0 0)
def execTblStore (d pa : Nat) (s : State) : Host.Outcome State Fault Refusal := onPart d pa 32 s (tblCmd d 2 pa 0 0 0)
def execTblMap (d pa pb n t : Nat) (s : State) : Host.Outcome State Fault Refusal :=
  onItem (s.hasDie d && tblNums pa pb n t) s fun s => if (s.getDie d).inReset then s else tblCmd d 3 pa pb n t s
def execTblUnmap (d n t : Nat) (s : State) : Host.Outcome State Fault Refusal :=
  onItem (s.hasDie d && tblNums 0 0 n t) s fun s => if (s.getDie d).inReset then s else tblCmd d 4 0 0 n t s
def execTblCancel (d n t : Nat) (s : State) : Host.Outcome State Fault Refusal :=
  onItem (s.hasDie d && tblNums 0 0 n t) s fun s => if (s.getDie d).inReset then s else tblCmd d 5 0 0 n t s
def execTblFree (d pa : Nat) (s : State) : Host.Outcome State Fault Refusal := onPart d pa 32 s (tblCmd d 6 pa 0 0 0)
def execTblAlloc (d pa : Nat) (s : State) : Host.Outcome State Fault Refusal := onPart d pa 32 s (tblCmd d 7 pa 0 0 0)

/-- A TBL_CMD write with an undefined OP: 0 or 8 to 15 (R134). -/
def execTblCmdBadCode (d op : Nat) (s : State) : Host.Outcome State Fault Refusal :=
  onLive d s fun s => if op = 0 ∨ (7 < op ∧ op < 16) then tblCmd d op 0 0 0 0 s else s

/-- The 4 KiB of a carrel page as bytes, entries in order (R134, R135). -/
def pageBytes (s : State) (d p : Nat) : List Byte :=
  (List.range 2048).flatMap fun b => leBytes (s.getEntry d (p * 2048 + b)).toNat 2

/-- Fills a carrel page from 4 KiB of bytes. -/
def fillPage (s : State) (d p : Nat) (bs : List Byte) : State :=
  s.forEach (List.range 2048) fun b s =>
    s.modEntry d (p * 2048 + b) fun _ => BitVec.ofNat 16 ((bs.getD (2 * b) 0).toNat + 256 * (bs.getD (2 * b + 1) 0).toNat)

/-- A LOAD or STORE completes; `bad` is an uncorrectable DRAM error, which a package without a DRAM-serving die has too: it
ends with ERR 0x7, and a failed LOAD leaves its page free (R134 to R136). -/
def tblCmdComplete (d : Nat) (bad : Bool) (s : State) : State :=
  match (s.getTcmd d).run with
  | none => s
  | some (load, p, ofs) =>
    let a := (s.rd d TBL_LIBBASE.BASE + ofs) * 4096 % 2 ^ 35
    let s := match load, bad with
      | true, false =>
        match s.dramRead a 4096 with
        | (some bs, s) => (fillPage s d p bs).wr d TBL_PAGE.STATE 2 p
        | (none, s) => (tblError d 7 s).wr d TBL_PAGE.STATE 0 p
      | true, true => (tblError d 7 s).wr d TBL_PAGE.STATE 0 p
      | false, false =>
        match s.dramWrite a (pageBytes s d p) with
        | (true, s) => s
        | (false, s) => tblError d 7 s
      | false, true => tblError d 7 s
    tblFinish d s

def execTblCmdComplete (d : Nat) (bad : Bool) (s : State) : Host.Outcome State Fault Refusal :=
  onLive d s (tblCmdComplete d bad)

/-! Register writes and the carrel window -/

/-- Sets the coarse copy of a slot to 0 (R140). -/
def clearCoarse (s : State) (d n t : Nat) : State :=
  match s.coarseEntry d n t 0 with
  | some base => s.forEach (List.range (s.coarseBins d)) fun b s => s.modEntry d (base + b) fun _ => 0
  | none => s

/-- A write of TBL_DESC: ROLE 0b01 outside slot 0 and a source other than electrical for a correction table are refused
(R114); so is a change of BINS, SRC or ROLE of an active or pending table; a change of SRC or ROLE otherwise clears the
coarse copy (R140). APPLY becoming 1 enables the table (R141). -/
def tblDescWrite (n t : Nat) (v : Word) (d : Nat) (s : State) : State :=
  let w := v.toNat
  let oldRole := s.rd d TBL_DESC.ROLE n t
  let oldSrc := s.rd d TBL_DESC.SRC n t
  let oldBins := s.rd d TBL_DESC.BINS n t
  let fixed := s.bit d TBL_RES.ACTIVE n t || s.bit d TBL_RES.PEND n t
  let role0 := bitsOf w 0 2
  let roleBad := (role0 == 1 && t != 0) || (fixed && role0 != oldRole)
  let role := if roleBad then oldRole else role0
  let src0 := bitsOf w 2 2
  let srcBad := (role == 1 && (src0 == 1 || src0 == 2)) || (fixed && src0 != oldSrc)
  let src := if srcBad then oldSrc else src0
  let bins0 := bitsOf w 4 3
  let binsBad := fixed && bins0 != oldBins
  let enabled := !s.bit d TBL_DESC.APPLY n t && bitOf w 8
  let s := (s.wr d TBL_DESC.ROLE role n t).wr d TBL_DESC.SRC src n t
  let s := if binsBad then s else s.wr d TBL_DESC.BINS bins0 n t
  let s := ((s.wr d TBL_DESC.APPLY (bitsOf w 8 1) n t).wr d TBL_DESC.LEARN (bitsOf w 9 1) n t).wr d TBL_DESC.LEAD (bitsOf w 16 6) n t
  let s := s.wr d TBL_DESC.EXP (bitsOf w 24 6) n t
  let s := if role ≠ oldRole ∨ src ≠ oldSrc then clearCoarse s d n t else s
  let s :=
    if role ≠ oldRole ∨ src ≠ oldSrc then
      let k := floorQ (s.lineAt d s.pt)
      let s := if role ≠ oldRole then (s.wr d TBL_RES.MISS 0 n t).modSlot d n t fun _ => {} else s
      s.modSlot d n t fun x => { x with wrap := none, turn := k }
    else s
  let s := if enabled then s.modSlot d n t fun r => { r with missed := false } else s
  if roleBad || srcBad || binsBad then s.raise d 368 3 n else s

def execTblDescWrite (d n t : Nat) (v : Word) (s : State) : Host.Outcome State Fault Refusal :=
  onItem (s.hasDie d && n < 8 && t < 4) s fun s =>
    if (s.getDie d).inReset then s else axisWrite d (TBL_DESC.ROLE.addr 0 n t) v (tblDescWrite n t v) s

/-- The table a carrel page is tagged for, in the pending and active states. -/
def pageTag (s : State) (d p : Nat) : Option (Nat × Nat) :=
  if s.rd d TBL_PAGE.STATE p = 4 ∨ s.rd d TBL_PAGE.STATE p = 5 then
    some (s.rd d TBL_PAGE.AXIS p, s.rd d TBL_PAGE.TABLE p)
  else none

/-- The table to which carrel entry `k` belongs: in a fixed page the slot whose coarse copy holds it (R119), else the page's tag. -/
def entryOwner (s : State) (d k : Nat) : Option (Nat × Nat) :=
  if k < 8192 then
    let i := k / s.coarseBins d
    some (i / 4 + (if s.divided d then 4 * (d % 2) else 0), i % 4)
  else pageTag s d (k / 2048)

/-- A read of the word at byte offset `o` of the carrel window (R129, R131, R132): free and loading pages return 0. A corrected error
counts for its table; an uncorrected error raises table-ecc; the word then read is 0 in a fixed page and free elsewhere. -/
def carrelRead (d o ecc : Nat) (s : State) : State :=
  let p := o / 4096 % 32
  let st := s.rd d TBL_PAGE.STATE p
  let k := o / 4 % 32768 * 2
  if st = 0 ∨ st = 3 then s.answer 0
  else
    let who := entryOwner s d k
    let n := (who.getD (0, 0)).1
    let s := s.inject d 0 (72 + n) 5 (eccAddr n k)
    let s := match ecc, who with
      | 1, some (n, t) => s.addSat d TBL_MISSCNT.ECC 1 n t
      | _, _ => s
    if ecc = 2 then
      let s := s.raise d (72 + n) 5 (eccAddr n k)
      if st = 1 then s.answer 0 else (s.answer (s.free % 2 ^ 32)).drew
    else s.answer ((s.getEntry d k).toNat + 65536 * (s.getEntry d (k + 1)).toNat)

/-- A write of the word at byte offset `o` of the carrel window: discarded as an access fault in a free or loading page
(R132, R304); effective at once elsewhere. -/
def carrelWrite (m d o v : Nat) (s : State) : State :=
  let p := o / 4096 % 32
  let st := s.rd d TBL_PAGE.STATE p
  let k := o / 4 % 32768 * 2
  if st = 0 ∨ st = 3 then s.accessFault d m true 2 5 (d * dieSpan + 0x200000 + o % 131072)
  else (s.modEntry d k fun _ => BitVec.ofNat 16 v).modEntry d (k + 1) fun _ => BitVec.ofNat 16 (v / 65536)

/-- An access through the carrel window by master `m`: a word at byte offset `o`, `wr` a write of `v` (R132). -/
def execCarrelWindowAccess (m d o : Nat) (wr : Bool) (v : Word) (ecc : Nat) (s : State) : Host.Outcome State Fault Refusal :=
  onItem (s.hasDie d && o < 131072) s fun s =>
    if (s.getDie d).inReset then s
    else if o % 4 ≠ 0 then (s.answer 0).accessFault d m wr 2 3 (d * dieSpan + 0x200000 + o)
    else if wr then carrelWrite m d o v.toNat s else carrelRead d o ecc s

end Sys2Proof.Machine
end

