-- ==== Sys2Proof/Machine/Trk.lean ====
section
/-!
DEFINITION. The trackers: error detector, loop, published angle, angle at a stated instant, loss of signal, coast and
acquisition (R87 to R111).
-/

namespace Sys2Proof.Machine

/-- Ticks in 2^-40 rev at a speed of `w` rev/s: w × Δ (R100). -/
def advance (w : Rat) (dt : Int) : Rat := w * (dt : Rat) * 4 / 10000000000 * 1099511627776

/-- The carrier frequency of axis `n` in Hz (R63). -/
def State.carrierHz (s : State) (d n : Nat) : Rat := (s.fincOf d n : Rat) * 10000000 / 4294967296

/-! One strobe -/

/-- The excitation of the axis is present (R104). -/
def State.excPresent (s : State) (d n : Nat) : Bool :=
  (s.getExc d n).en && 4096 ≤ s.rd d EXC_AMP.AMPNOW n && !s.bit d EXC_CTRL.OVLD n

/-- CNT as the freeze detector takes it: values below 8 are taken as 8. -/
def State.frzCnt (s : State) (d n : Nat) : Nat := max 8 (s.rd d TRK_FRZ.CNT n)

/-- An accumulator wrap ends the carrier period before this strobe, whose sums wait for its judgement (R103). -/
def TrkAx.closePeriod (t : TrkAx) (now cnt : Nat) : TrkAx :=
  { t with per := some { sS := t.sumS, sC := t.sumC, sI := t.sumI, sQ := t.sumQ, n := t.sumN, from_ := t.perAt, to_ := now, frz := t.frzSeen },
           sumS := 0, sumC := 0, sumI := 0, sumQ := 0, sumN := 0, perAt := now, frzSeen := decide (cnt ≤ t.frzRun) }

/-- One strobe of the tracker of axis `n`: the product d × ref enters the window (R87, R88), the sums of the carrier period
grow (R103, R105), and the codes are compared with the previous ones (R104). -/
def trkStrobe (d n : Nat) (si co : Int) (clip supply : Bool) (s : State) : State :=
  let t := s.getTrk d n
  let u := s.rd d TRK_STAMP.PT n
  let th := t.th + rheQ (advance t.w ((s.pt : Int) - u))
  let pe : Int := ((s.getExc d n).acc * 256 : Nat)
  let ref := cos30 (pe + s.carrierRef d n * 16777216)
  let prod := (si * cos30 th - co * sin30 th) * ref
  let r := si * sin30 th + co * cos30 th
  let same := t.prev == some (si, co) && s.excPresent d n && s.bit d TRK_FRZ.FEN n
  let wraps := (s.getExc d n).wrapAt == some s.pt
  let cnt := s.frzCnt d n
  s.modTrk d n fun t =>
    let t := if wraps then t.closePeriod s.pt cnt else t
    let run := if same then t.frzRun + 1 else 0
    { t with win := ({ prod := prod, usable := !clip, supply := supply } :: t.win).take 4,
             sumS := t.sumS + si * ref, sumC := t.sumC + co * ref,
             sumI := t.sumI + r * cos30 pe, sumQ := t.sumQ + r * sin30 pe, sumN := t.sumN + 1,
             prev := some (si, co), frzRun := run, frzSeen := t.frzSeen || decide (cnt ≤ run),
             frzAt := if same then (if t.frzRun = 0 then s.pt else t.frzAt) else s.pt }

/-! The loop update -/

/-- The error of an update (R88): none where no strobe of the window is usable; a free value where the divisor is 0. -/
def trkError (d n : Nat) (s : State) : Option Rat × State :=
  let t := s.getTrk d n
  let us := t.win.filter fun x => x.usable
  let ampl : Rat := if s.bit d EXC_PILOT.LOCK n then pilotAmpl (s.getExc d n) else (max 1 (s.rd d TRK_AMPNOM.NOM n) : Nat)
  if us.isEmpty then (none, s)
  else if ampl = 0 then (some (s.free : Rat), s.drew)
  else
    let sum := us.foldl (fun (a : Int) x => a + x.prod) 0
    (some ((sum : Rat) / 1152921504606846976 * 2 / ((us.length : Rat) * ampl)), s)

/-- Bandwidth time constant τa of the filtered acceleration (R89). -/
def tauA (bw : Nat) : Rat := 1 / (2 * piQ * (bwHz bw : Rat))

/-- The gains k1, k2, k3 of R89 for an error in rad, as R88 forms it: an acceleration α lags by α / Ka rev in type 2, which fixes k2 there,
and a jerk J by J / Kj in type 3, which fixes k3 (R90); the others are not given (DEDUCED, log entry 12). -/
def trkGainOf (typ3 : Bool) (bw i : Nat) : Rat :=
  let f : Rat := bwHz bw
  let step : Rat := 4 / 10000000
  if i = 2 ∧ !typ3 then 94 / 10 * f * f * step / (2 * piQ)
  else if i = 3 then 14 * f * f * f * step / (2 * piQ)
  else Config.trkGain typ3 bw i

/-- A smoothing pole at `y` takes a step towards `x` (R89). -/
def poleStep (c y x : Rat) : Rat := if x = y then y else y + c * (x - y)

/-- One update of the loop states with error `e`, behind the two smoothing poles of the loop filter (R89). The lowpass of type 2's
acceleration, whose discrete form the spec leaves open, is a forward Euler step at each update (DESIGN CHOICE, log entry 12). -/
def trkLoop (d n : Nat) (e : Rat) (s : State) : State :=
  let t := s.getTrk d n
  let sm1 := poleStep (Config.trkPole t.typ3 t.bw false) t.sm1 e
  let sm2 := poleStep (Config.trkPole t.typ3 t.bw true) t.sm2 sm1
  let g := fun i => if sm2 = 0 then 0 else trkGainOf t.typ3 t.bw i * sm2
  let step : Rat := 4 / 10000000
  let a := if t.typ3 then t.a + g 3 else t.a
  let w := t.w + (if t.typ3 then a * step else 0) + g 2
  let af := if t.typ3 then t.af else t.af + ((w - t.w) / step - t.af) * (step / tauA t.bw)
  let (th, s) := s.near ((t.th : Rat) + (w * step + g 1) * 1099511627776)
  s.modTrk d n fun t => { t with th := sgn 56 (enc 56 th), w := w, a := a, af := af, sm1 := sm1, sm2 := sm2 }

/-- The loss state forces e to 0: coast, or an acquisition whose speed preset has not been made (R107, R109). -/
def State.forced (s : State) (d n : Nat) : Bool :=
  s.bit d TRK_STAT.COASTING n || s.bit d TRK_STAT.ACQ n

/-- A wrap of the published fraction by `k` turns moves SECTOR, and MTURNS through P (R98). -/
def sectorMove (d n : Nat) (k : Int) (s : State) : State :=
  if k = 0 then s
  else
    let p : Int := ((s.getTrk d n).ppm : Nat) + 1
    let x := (s.rd d TRK_SECTOR.SECTOR n : Int) + k
    (s.wr d TRK_SECTOR.SECTOR (x % p).toNat n).wrI d TRK_SECTOR.MTURNS (s.rdI d TRK_SECTOR.MTURNS n + x / p) n

/-- Publishes the set of update U, now: corrected angle, stamp, speed, acceleration, mechanical angle and status (R95, R97,
R98); the set joins the history (R101). -/
def trkPublish (d n : Nat) (corr : Int) (s : State) : State :=
  let t := s.getTrk d n
  let ang := sgn 56 (enc 56 (t.th - corr * 65536))
  let turns := ang / 1099511627776
  let k := wrapDiff 16 turns (s.rdI d TRK_ANG.TURNS n)
  let s := if t.hist.isEmpty || t.sectHold then s else sectorMove d n k s
  let frac24 := (ang % 1099511627776).toNat / 65536
  let s := ((s.wr d TRK_ANG.FRAC (frac24 * 256) n).wrI d TRK_ANG.TURNS turns n).wr d TRK_STAMP.PT s.pt n
  let (spd, s) := s.near (t.w * 4096)
  let a := if t.typ3 then t.a else t.af
  let (acc, s) := s.near (a * 16)
  let s := (s.wrI d TRK_SPD.SPD (satI 32 spd) n).wrI d TRK_ACC.ACC (satI 32 acc) n
  let p := t.ppm + 1
  let mf := (s.rd d TRK_SECTOR.SECTOR n * 16777216 + frac24) * 65536 / 16777216 / p
  let s := (s.wr d TRK_MECH.FRAC mf n).wr d TRK_MECH.TURNS (s.rd d TRK_SECTOR.MTURNS n) n
  let s := (s.wr d TRK_STAT.CLIP (b2n (t.win.any fun x => !x.usable)) n).wr d TRK_STAT.SUPPLY
    (b2n (t.win.any fun x => x.usable && x.supply)) n
  let pub : Pub := { u := s.pt, th := t.th, ang := ang, w := t.w, a := a,
                     stat := (s.reg (TRK_STAT.LOCK.addr d n 0)).toNat, mech := (s.reg (TRK_MECH.FRAC.addr d n 0)).toNat,
                     spd := s.rdI d TRK_SPD.SPD n }
  s.modTrk d n fun t => { t with hist := (pub :: t.hist).take 64, sectHold := false }

/-- Whole turns that the index of slot `t` has made between two published sets: a correction table's index follows the loop angle, a
repetitive one's the published or the mechanical angle (R116, R122, R138). -/
def indexTurns (s : State) (d n t : Nat) (x y : Pub) : Int :=
  if s.rd d TBL_DESC.ROLE n t = 1 then wrapDiff 16 (y.th / 1099511627776) (x.th / 1099511627776)
  else match s.rd d TBL_DESC.SRC n t with
    | 1 => if bitOf y.stat 5 then wrapDiff 16 (y.mech / 65536) (x.mech / 65536) else 0
    | 2 => 0
    | _ => wrapDiff 16 (y.ang / 1099511627776) (x.ang / 1099511627776)

/-- The wraps that the latest published set brings, against the one before it (R138). -/
def wrapMarks (d n : Nat) (s : State) : State :=
  match (s.getTrk d n).hist with
  | y :: x :: _ =>
    s.forEach (List.range 4) fun t s =>
      let k := indexTurns s d n t x y
      if k = 0 then s else s.modSlot d n t fun r => { r with wrap := some (decide (0 < k)) }
  | _ => s

/-- The pages that a wrap has activated are read for the set of that same update, which is published anew (R138). -/
def republish (d n : Nat) (s : State) : State :=
  if s.rd d TRK_STAMP.PT n ≠ s.pt then s
  else
    let (corr, s) := correction d n (s.getTrk d n).th 0 s
    trkPublish d n corr (s.modTrk d n fun t => { t with hist := t.hist.drop 1, sectHold := true })

/-- A wrap of a table's index fraction (R122, R138, R141): a pending MAP or UNMAP takes effect, for the set of the wrap's own update
too; the learning revolution closes and the next one opens at that update, with its sample (R124). -/
def tableIndexWrap (d n t : Nat) (s : State) : State :=
  match s.wrapDue d n t with
  | none => s
  | some fwd =>
    let corrects := decide (t = 0 ∧ s.rd d TBL_DESC.ROLE n 0 = 1)
    let swap := (s.getSlot d n t).map.isSome || (s.getSlot d n t).unmap
    let s := wrapTake d n t s
    if !corrects then s
    else
      let s := closeRevolution d n fwd (if swap then republish d n s else s)
      match (s.getSlot d n 0).late with
      | some (u, th, c, w, e) =>
        let corr := match (s.getTrk d n).hist with | p :: _ => if p.u = u then wrapDiff 40 p.th p.ang / 65536 else c | [] => c
        correctionLearn d n u th corr w e (s.modSlot d n 0 fun r => { r with late := none })
      | none => s

/-- `fwd` is the direction of the wrap. -/
def execTableIndexWrap (d n t : Nat) (fwd : Bool) (s : State) : Host.Outcome State Fault Refusal :=
  onPart d (n * 4 + t) 32 s fun s => if t < 4 ∧ s.wrapDue d n t = some fwd then tableIndexWrap d n t s else s

/-- `k` updates of the loop states with e = 0 (R107). -/
def coastOn (typ3 : Bool) (a : Rat) : Nat → Int × Rat → Int × Rat
  | 0, x => x
  | k + 1, (th, w) =>
    let w' := if typ3 then w + a * 4 / 10000000 else w
    coastOn typ3 a k (th + rheQ (w' * 4 / 10000000 * 1099511627776), w')

/-- The snapshot's tracker row with the sector, turns and MECHVALID of a write that takes effect at update `t` (R99, R355). -/
def TrkSnap.withSector (x : TrkSnap) (typ3 : Bool) (t sect mturns : Nat) : TrkSnap :=
  { x with sect := sect, mturns := mturns, mechv := 1, turns := (coastOn typ3 x.a ((t - x.u) / 1000) (x.th, x.w)).1 / 1099511627776 }

/-- The held TRK_SECTOR write takes effect: SECTOR modulo P, MTURNS, MECHVALID := 1 (R99). -/
def sectorTake (d n : Nat) (s : State) : State :=
  match (s.getTrk d n).pendSect with
  | none => s
  | some v =>
    let p := (s.getTrk d n).ppm + 1
    let s := (s.wr d TRK_SECTOR.SECTOR (bitsOf v.toNat 0 4 % p) n).wr d TRK_SECTOR.MTURNS (bitsOf v.toNat 16 16) n
    (s.wr d TRK_STAT.MECHVALID 1 n).modTrk d n fun t =>
      { t with pendSect := none, snap := t.snap.map fun x => x.withSector t.typ3 s.pt (bitsOf v.toNat 0 4 % p) (bitsOf v.toNat 16 16) }

/-- The tracker row of a snapshot is due at this update: U + 16, while the resynchronisation runs (R355). -/
def State.snapDue (s : State) (d n : Nat) : Option TrkSnap :=
  (s.getTrk d n).snap.filter fun x => decide (x.u + 16000 ≤ s.pt) && s.rd d PAIR_STAT.RESYNC == 2

/-- The standby takes the tracker row as a preset (R355): the states of U carried on with e = 0 to the update before this one, the pilot,
the sectors, and LOCK, ANGVALID, COASTING and ACQ at 0. -/
def trkSnapTake (d n : Nat) (x : TrkSnap) (s : State) : State :=
  let r := coastOn (s.getTrk d n).typ3 x.a ((s.pt - x.u) / 1000 - 1) (x.th, x.w)
  let s := s.modTrk d n fun t =>
    { t with th := sgn 56 (enc 56 r.1), w := r.2, a := x.a, af := x.af, lockRun := 0, ovsRun := 0, speedWait := false, seen := [],
             good := 0, reacq := false, coastEnd := none, hist := [x.pub], snap := none }
  let s := s.modExc d n fun e => { e with pi := x.pi, pq := x.pq, flip := x.flip }
  let s := ((s.wr d TRK_SECTOR.SECTOR x.sect n).wr d TRK_SECTOR.MTURNS x.mturns n).wr d TRK_STAT.MECHVALID x.mechv n
  let s := (s.wrI d TRK_ANG.TURNS x.turns n).wr d TRK_STAT.LOCK 0 n
  itemApplied d (24 + n) (((s.wr d TRK_STAT.ANGVALID 0 n).wr d TRK_STAT.COASTING 0 n).wr d TRK_STAT.ACQ 0 n)

/-- The update of axis `n` at a tick that is a multiple of 1,000 (R88, R89, R93 to R97); the published set's correction read
sees `ecc`. A wrap of an earlier update that has not been taken is taken first; where this update's index has wrapped, its learn sample
waits for the new revolution (R124, R138). A snapshot's tracker row that is due is carried on by this update with e = 0 (R355). -/
def trkUpdate (d n ecc : Nat) (s : State) : State :=
  let s := s.forEach (List.range 4) fun t s => if (s.getSlot d n t).wrap.isSome then tableIndexWrap d n t s else s
  let due := s.snapDue d n
  let s := match due with | some x => trkSnapTake d n x s | none => s
  let forced := due.isSome || s.forced d n
  let (e0, s) := if forced then (some 0, s) else trkError d n s
  let e := e0.getD 0
  let s := if forced then s.modTrk d n fun t => { t with sm1 := 0, sm2 := 0 } else s
  let s := trkLoop d n e s
  let small := decide (absQ e * 1024 < 2 * piQ)
  let t := s.getTrk d n
  let run := if forced then 0 else match e0 with
    | none => t.lockRun
    | some _ => if small then t.lockRun + 1 else 0
  let lim : Rat := if s.carrierHz d n / 2 < 5000 then s.carrierHz d n / 2 else 5000
  let beyond := decide (lim < absQ t.w)
  let ovs := if beyond then t.ovsRun + 1 else 0
  let s := s.modTrk d n fun t => { t with e := e, lockRun := run, ovsRun := ovs }
  let s := if run = 0 then s.wr d TRK_STAT.LOCK 0 n else s
  let s := if decide (absQ t.w < lim) then s.wr d TRK_STAT.OVERSPD 0 n else s
  let s := sectorTake d n s
  let th := (s.getTrk d n).th
  let (corr, s) := correction d n th ecc s
  let s := wrapMarks d n (trkPublish d n corr s)
  if s.rd d TBL_DESC.ROLE n 0 = 1 ∧ (s.getSlot d n 0).wrap.isSome then s.modSlot d n 0 fun r => { r with late := some (s.pt, th, corr, t.w, e) }
  else correctionLearn d n s.pt th corr t.w e s

/-! Angle at a stated instant -/

/-- What a request is answered with: angle in 2^-40 rev, status word, and the clamps (R100, R101). -/
structure AngleAt where
  ang : Int
  stat : Nat
  fut : Bool
  hist : Bool
  deriving DecidableEq, Repr

/-- The status of an answer between two held updates (R101); the bits that the rule does not name are those of the later one (DESIGN
CHOICE, log entry 21). -/
def mixStat (x y : Nat) : Nat :=
  [0, 5].foldl (fun v k => putBit v k (bitOf x k && bitOf y k))
    ([2, 3, 11, 12].foldl (fun v k => putBit v k (bitOf x k || bitOf y k)) y)

/-- The two held updates that bracket tick `t`, newest first in the list: (later, earlier). -/
def bracket (t : Nat) : List Pub → Option (Pub × Pub)
  | p :: q :: rest => if q.u ≤ t ∧ t ≤ p.u then some (p, q) else bracket t (q :: rest)
  | _ => none

/-- The electrical angle of axis `n` at tick `t` (R100, R101): extrapolated from the latest published update, interpolated
between held ones, clamped at 1 ms ahead and at the oldest one. Before any set has been published it is angle 0 with the present status
word and HISTCLAMP (DESIGN CHOICE, log entry 21). -/
def angleAt (d n t ecc : Nat) (s : State) : AngleAt × State :=
  let h := (s.getTrk d n).hist
  match h with
  | [] => ({ ang := 0, stat := (s.reg (TRK_STAT.LOCK.addr d n 0)).toNat, fut := false, hist := true }, s)
  | p :: _ =>
    if p.u ≤ t then
      let fut := decide (p.u + 2500000 < t)
      let dt : Int := ((min t (p.u + 2500000) : Nat) : Int) - p.u
      if dt = 0 then ({ ang := p.ang, stat := p.stat, fut := false, hist := false }, s)
      else
        let sec : Rat := (dt : Rat) * 4 / 10000000000
        let (raw, s) := s.near ((p.th : Rat) + advance p.w dt + p.a * sec * sec / 2 * 1099511627776)
        let (c, s) := correction d n raw ecc s
        ({ ang := sgn 56 (enc 56 (raw - c * 65536)), stat := p.stat, fut := fut, hist := false }, s)
    else match bracket t h with
      | some (a, b) =>
        if t = b.u then ({ ang := b.ang, stat := b.stat, fut := false, hist := false }, s)
        else
          let k := wrapDiff 56 a.ang b.ang
          let (x, s) := s.near ((b.ang : Rat) + (k : Rat) * ((t - b.u : Nat) : Rat) / ((a.u - b.u : Nat) : Rat))
          ({ ang := sgn 56 (enc 56 x), stat := mixStat b.stat a.stat, fut := false, hist := false }, s)
      | none =>
        let o := (h.getLast?).getD p
        ({ ang := o.ang, stat := o.stat, fut := false, hist := decide (t < o.u) }, s)

/-- An angle in 2^-40 rev as ANG48: the 24 significant bits of the fraction, [7:0] reading 0, and the turn count (R6). -/
def ang48 (a : Int) : Nat × Nat := ((a % 1099511627776).toNat / 65536 * 256, enc 16 (a / 1099511627776))

/-- A write of the high word of TRK_XREQ: the request for the full value clears TRK_XSTAT and is answered (R100, R101). -/
def trkXreq (n : Nat) (v : Word) (d : Nat) (s : State) : State :=
  let t := s.rd d TRK_XREQ.PT n % 2 ^ 32 + v.toNat * 2 ^ 32
  let s := s.wr d TRK_XREQ.PT t n
  let (r, s) := angleAt d n t 0 s
  let a := ang48 r.ang
  let s := (s.wr d TRK_XANG.FRAC a.1 n).wr d TRK_XANG.TURNS a.2 n
  let s := ((s.wr d TRK_XSTAT.DONE 1 n).wr d TRK_XSTAT.VALID (b2n (bitOf r.stat 0)) n)
  (s.wr d TRK_XSTAT.FUTCLAMP (b2n r.fut) n).wr d TRK_XSTAT.HISTCLAMP (b2n r.hist) n

def execTrkXreq (d n : Nat) (v : Word) (s : State) : Host.Outcome State Fault Refusal :=
  onAxis d n s (axisWrite d (TRK_XREQ.PT.addr 0 n 0 + 4) v (trkXreq n v))

/-- A read of the low word of TRK_ANG latches the high word, TRK_STAMP, TRK_SPD, TRK_ACC, TRK_MECH and TRK_STAT of one
update (R95). -/
def trkAngRead (d n : Nat) (s : State) : State :=
  let a := TRK_ANG.FRAC.addr d n 0
  let stat := match (s.getTrk d n).hist with
    | p :: _ => BitVec.ofNat 32 p.stat
    | [] => s.reg (a - 4)
  let s := s.latchWords (a + 4) 6
  let s := { s with latch := s.latch.set (a - 4) stat 0 }
  s.answer (s.reg a).toNat

/-- On a die that does not hold the axis's register set the read returns 0 as an access fault (R27); which master made it is free. -/
def execTrkAngRead (d n : Nat) (s : State) : Host.Outcome State Fault Refusal :=
  onAxis d n s fun s =>
    if s.holds d n then trkAngRead d n s
    else (s.drew.answer 0).accessFault d (s.free % 7) false 2 2 (TRK_ANG.FRAC.addr d n 0)

/-! Loss of signal -/

/-- COAST in ticks: 50 µs per unit, values above 200 taken as 200 (R108). -/
def State.coastTicks (s : State) (d n : Nat) : Nat := min (s.rd d TRK_CTRL.COAST n) 200 * 125000

/-- The coast ends: HOLD set or kept, the axis safe, coast-expired, and acquisition begins (R108, R109). -/
def coastEnds (d n : Nat) (s : State) : State :=
  let s := ((s.wr d TRK_STAT.COASTING 0 n).wr d TRK_STAT.HOLD 1 n).wr d TRK_STAT.ACQ 1 n
  let s := (s.modTrk d n fun t => { t with coastEnd := none, good := 0, seen := [], speedWait := false }).wrBit d TRK_LOSS.EXPIRED n true
  (s.raiseAx d n 4 3).refreshAxis d n

/-- The update in which tick `t` falls: the first one at or after it, by number (R88). -/
def updOf (t : Nat) : Nat := (t + 999) / 1000

/-- Rolls the states back to the held update at or before tick `t`, the oldest one if none is that old, and carries them on
to the present with e = 0 (R107). -/
def rollBack (d n t : Nat) (s : State) : State :=
  let x := s.getTrk d n
  match (x.hist.find? fun p => p.u ≤ t).orElse fun _ => x.hist.getLast? with
  | none => s
  | some p =>
    let k := (s.rd d TRK_STAMP.PT n - p.u) / 1000
    let r := coastOn x.typ3 p.a k (p.th, p.w)
    s.modTrk d n fun y => { y with th := sgn 56 (enc 56 r.1), w := r.2, a := if y.typ3 then p.a else y.a, af := if y.typ3 then y.af else p.a }

/-- A detector declares a loss (R106 to R108): its cause, the rollback for freeze and jump, the coast or, for overspeed, the
acquisition; with COASTOK = 0 and for overspeed the tracker's own safe-state action. A loss in force keeps its cause; a REARM accepted on
the same update is ignored (R111). -/
def trackLoss (d n cause : Nat) (back : Option Nat) (s : State) : State :=
  if s.bit d TRK_STAT.COASTING n || s.bit d TRK_STAT.ACQ n then s
  else
    let s := match (s.getTrk d n).rearmAt with
      | some t => if updOf t = updOf s.pt then ((s.modTrk d n fun t => { t with rearmAt := none }).wr d TRK_STAT.HOLD 1 n).refreshAxis d n else s
      | none => s
    let s := match back with | some t => rollBack d n t s | none => s
    let s := ((s.wr d TRK_STAT.CAUSE cause n).wr d TRK_STAT.ANGVALID 0 n).wr d TRK_STAT.LOCK 0 n
    let s := (s.wrBit d TRK_LOSS.LOSS n true).raiseAx d n 3 3
    let s := s.modTrk d n fun t => { t with lockRun := 0, good := 0, seen := [], speedWait := false, reacq := false, e := 0 }
    if cause = 5 then ((s.wr d TRK_STAT.HOLD 1 n).wr d TRK_STAT.ACQ 1 n).refreshAxis d n
    else
      let c := s.coastTicks d n
      let s := (s.wr d TRK_STAT.COASTING 1 n).modTrk d n fun t => { t with coastEnd := some (s.pt + c) }
      let s := if s.bit d TRK_CTRL.COASTOK n then s else (s.wr d TRK_STAT.HOLD 1 n).refreshAxis d n
      if c = 0 then coastEnds d n s else s

/-- After 256 consecutive updates with a small error LOCK becomes 1, and ANGVALID follows; after an acquisition
track-reacquired is raised (R94, R109, R110). -/
def trackLockQualified (d n : Nat) (s : State) : State :=
  let t := s.getTrk d n
  if 256 ≤ t.lockRun then
    let s := (s.wr d TRK_STAT.LOCK 1 n).wr d TRK_STAT.ANGVALID 1 n
    if t.reacq then (s.modTrk d n fun t => { t with reacq := false }).raiseAx d n 7 3 else s
  else s

def execTrackLockQualified (d n : Nat) (s : State) : Host.Outcome State Fault Refusal :=
  onAxis d n s (trackLockQualified d n)

/-- A speed beyond the range for 8 consecutive updates saturates w, raises track-overspeed and declares a loss with cause
overspeed (R93, R108). -/
def trackOverspeed (d n : Nat) (s : State) : State :=
  let t := s.getTrk d n
  if 8 ≤ t.ovsRun then
    let lim : Rat := if s.carrierHz d n / 2 < 5000 then s.carrierHz d n / 2 else 5000
    let s := s.modTrk d n fun t => { t with w := clampQ (-lim) lim t.w, ovsRun := 0 }
    trackLoss d n 5 none ((s.wr d TRK_STAT.OVERSPD 1 n).raiseAx d n 5 3)
  else s

def execTrackOverspeed (d n : Nat) (s : State) : Host.Outcome State Fault Refusal := onAxis d n s (trackOverspeed d n)

/-- mag outside the window for QUAL consecutive carrier periods (R103). -/
def amplitudeWindowLoss (d n : Nat) (s : State) : State :=
  let t := s.getTrk d n
  if max 1 (s.rd d TRK_AMPWIN.QUAL n) ≤ t.ampRun then trackLoss d n (if t.ampLow then 1 else 2) none s else s

def execAmplitudeWindowLoss (d n : Nat) (s : State) : Host.Outcome State Fault Refusal :=
  onAxis d n s (amplitudeWindowLoss d n)

/-- Both codes identical for CNT consecutive strobes (R104). -/
def freezeLoss (d n : Nat) (s : State) : State :=
  let t := s.getTrk d n
  if s.bit d TRK_FRZ.FEN n && decide (s.frzCnt d n ≤ t.frzRun) then trackLoss d n 3 (some t.frzAt) s else s

def execFreezeLoss (d n : Nat) (s : State) : Host.Outcome State Fault Refusal := onAxis d n s (freezeLoss d n)

/-- The projection's phase off the pilot phase for 2 consecutive carrier periods (R105). -/
def pilotJumpLoss (d n : Nat) (s : State) : State :=
  let t := s.getTrk d n
  if 2 ≤ t.jumpRun then trackLoss d n 4 (some t.jumpAt) s else s

def execPilotJumpLoss (d n : Nat) (s : State) : Host.Outcome State Fault Refusal := onAxis d n s (pilotJumpLoss d n)

/-- The fourth good carrier period has ended on an update before the one on which the coast time `e` expires (R110). -/
def TrkAx.resumes (t : TrkAx) (e : Nat) : Bool := decide (4 ≤ t.good ∧ updOf t.goodAt < updOf e)

/-- The coast time runs out (R108), unless the coast is to end by resumption (R110). -/
def coastExpiry (d n : Nat) (s : State) : State :=
  match (s.getTrk d n).coastEnd with
  | some t => if s.bit d TRK_STAT.COASTING n && !(s.getTrk d n).resumes t then coastEnds d n (s.passTo t) else s
  | none => s

def execCoastExpiry (d n : Nat) (s : State) : Host.Outcome State Fault Refusal := onAxis d n s (coastExpiry d n)

/-- Four good carrier periods completed before the coast time runs out end the coast: the tracker resumes from its coasted
states (R110). -/
def coastResume (d n : Nat) (s : State) : State :=
  let t := s.getTrk d n
  match t.coastEnd with
  | some e =>
    if s.bit d TRK_STAT.COASTING n && t.resumes e then
      (s.wr d TRK_STAT.COASTING 0 n).modTrk d n fun t => { t with coastEnd := none, good := 0, lockRun := 0 }
    else s
  | none => s

def execCoastResume (d n : Nat) (s : State) : Host.Outcome State Fault Refusal := onAxis d n s (coastResume d n)

/-- After four good carrier periods the tracker presets th from atan2(S, C) of the last one, on the turn nearest the coasted
angle, with SECTOR and MTURNS as they are and MECHVALID := 0; w follows from the next two periods, and it then tracks again, with
ACQ := 0 (R109). The spec does not say to which tick the mean angle of the period refers: it is taken as th at the stamp of the last
update (DESIGN CHOICE, log entry 21). -/
def acquisitionComplete (d n : Nat) (s : State) : State :=
  let t := s.getTrk d n
  if s.bit d TRK_STAT.ACQ n && decide (4 ≤ t.good) && !t.speedWait then
    let phi := atan40 t.lastS t.lastC
    let s := s.modTrk d n fun t =>
      { t with th := sgn 56 (enc 56 (t.th + wrapDiff 40 phi t.th)), speedWait := true, seen := [], good := 0, sectHold := true,
               reacq := true, lockRun := 0 }
    s.wr d TRK_STAT.MECHVALID 0 n
  else s

def execAcquisitionComplete (d n : Nat) (s : State) : Host.Outcome State Fault Refusal :=
  onAxis d n s (acquisitionComplete d n)

/-- The amplitude and the pilot-jump measures of a carrier period that has ended, from S, C and the projection (R103, R105), and
what an acquisition takes from it (R109). The speed preset sets the acceleration, the filtered one too, to 0, of which the rule says
nothing (DESIGN CHOICE, log entry 21). -/
def trkJudge (d n : Nat) (p : PerRec) (s : State) : State :=
  let t := s.getTrk d n
  let x := s.getExc d n
  let nn := max 1 p.n
  let nom := max 1 (s.rd d TRK_AMPNOM.NOM n)
  let m2 : Rat := ((p.sS * p.sS + p.sC * p.sC : Int) : Rat) * 4 / ((nn * nn : Nat) : Rat) / 1152921504606846976 / ((nom * nom : Nat) : Rat)
  let k := (floorQ (m2 * 1048576)).toNat
  let r := isqrt k
  let (mag, s) := if (m2 * 1048576).den = 1 ∧ r * r = k then (r, s) else (r + s.free % 2, s.drew)
  let s := s.wr d TRK_MAG.MAG (min mag 0xFFF) n
  let lo := s.rd d TRK_AMPWIN.LO n
  let hi := s.rd d TRK_AMPWIN.HI n
  let low := decide (m2 * 16384 < ((lo * lo : Nat) : Rat))
  let high := decide (((hi * hi : Nat) : Rat) < m2 * 16384)
  let off := wrapDiff 40 (atan40 (-p.sQ) p.sI + (if x.flip then 2 ^ 39 else 0)) (s.rdI d EXC_PILOT.PHASE n * 16777216)
  let jthr := s.rd d TRK_FRZ.JUMP n
  let jump := decide (0 < jthr) && decide (x.jumpEnd ≤ p.to_) && decide (jthr * 4294967296 < off.natAbs)
  let good := !(low || high) && !jump && !p.frz
  let s := s.modTrk d n fun t =>
    { t with ampRun := if low || high then t.ampRun + 1 else 0, ampLow := low,
             jumpRun := if jump then t.jumpRun + 1 else 0, jumpAt := if jump && t.jumpRun == 0 then p.from_ else t.jumpAt,
             lastS := p.sS, lastC := p.sC, per := none,
             good := if good then t.good + 1 else 0, goodAt := if good && t.good < 4 then p.to_ else t.goodAt }
  if t.speedWait then
    let now := (atan40 p.sS p.sC, p.to_)
    match t.seen with
    | (a, at0) :: _ =>
      let dt : Rat := (((p.to_ - at0 : Nat) : Rat)) * 4 / 10000000000
      let w := if dt = 0 then 0 else (wrapDiff 40 now.1 a : Rat) / 1099511627776 / dt
      (s.modTrk d n fun t => { t with w := w, a := 0, af := 0, speedWait := false, seen := [], lockRun := 0 }).wr d TRK_STAT.ACQ 0 n
    | [] => s.modTrk d n fun t => { t with seen := [now] }
  else s

/-- The carrier period that the last accumulator wrap ended is judged, once (R103). -/
def trkPeriod (d n : Nat) (s : State) : State :=
  match (s.getTrk d n).per with
  | some p => trkJudge d n p s
  | none => s

/-- At each accumulator wrap the per-period clip record, amplitude and pilot-jump measures are formed (R83, R103, R105). -/
def carrierPeriodEnd (d n : Nat) (s : State) : State := trkPeriod d n (clipPeriod d n s)

def execCarrierPeriodEnd (d n : Nat) (s : State) : Host.Outcome State Fault Refusal := onAxis d n s (carrierPeriodEnd d n)

/-! Writes -/

/-- REARM written while ANGVALID = 1 releases the tracker's HOLD (R111). -/
def trkRearm (d n : Nat) (s : State) : State :=
  if s.bit d TRK_STAT.ANGVALID n then
    let s := if s.bit d TRK_STAT.HOLD n then s.modTrk d n fun t => { t with rearmAt := some s.pt } else s
    (s.wr d TRK_STAT.HOLD 0 n).refreshAxis d n
  else s

/-- SECTOR, MTURNS and MECHVALID become 0 (R99). -/
def sectorClear (d n : Nat) (s : State) : State :=
  ((s.wr d TRK_SECTOR.SECTOR 0 n).wr d TRK_SECTOR.MTURNS 0 n).wr d TRK_STAT.MECHVALID 0 n

/-- TYPE, BW and PPM1 of the word `w` come into force: from type 2 to 3 the state a takes the filtered acceleration, from 3 to 2 the
filter starts from a; the bandwidth limit is recomputed; a change of P clears the sectors (R91, R92, R99). -/
def trkCtrlTake (d n w : Nat) (s : State) : State :=
  let typ := bitOf w 0
  let x := s.getTrk d n
  let s := s.modTrk d n fun x =>
    { x with typ3 := typ, a := if typ && !x.typ3 then x.af else x.a, af := if !typ && x.typ3 then x.a else x.af, ppm := bitsOf w 8 4 }
  let s := bwClamp d n (bitsOf w 4 4) true s
  if x.ppm = bitsOf w 8 4 then s else sectorClear d n s

/-- A write of TRK_CTRL accepted at tick `t` (R92, R108, R111): the fields hold the written value, COASTOK and COAST act at once, a
change of TYPE, BW or PPM1 waits for the first update at least 5,000 tk later, REARM does as it says. -/
def trkCtrlWrite (n : Nat) (v : Word) (t d : Nat) (s : State) : State :=
  let w := v.toNat
  let changes := s.rd d TRK_CTRL.TYPE n != bitsOf w 0 1 || s.rd d TRK_CTRL.BW n != bitsOf w 4 4 ||
    s.rd d TRK_CTRL.PPM1 n != bitsOf w 8 4
  let s := (s.wr d TRK_CTRL.COASTOK (bitsOf w 16 1) n).wr d TRK_CTRL.COAST (min (bitsOf w 24 8) 200) n
  let s := ((s.wr d TRK_CTRL.TYPE (bitsOf w 0 1) n).wr d TRK_CTRL.BW (bitsOf w 4 4) n).wr d TRK_CTRL.PPM1 (bitsOf w 8 4) n
  let s := if 200 < bitsOf w 24 8 then s.raiseAx d n 6 3 else s
  let s := if changes then s.modTrk d n fun x => { x with pendCtrl := some (v, t + 5000) } else s
  if bitOf w 17 then trkRearm d n s else s

def execTrkCtrlWrite (d n : Nat) (v : Word) (s : State) : Host.Outcome State Fault Refusal :=
  onAxis d n s fun s => axisWrite d (TRK_CTRL.TYPE.addr 0 n 0) v (trkCtrlWrite n v s.pt) s

/-- TRK_CTRL as it stands, with REARM set. -/
def rearmWord (s : State) (d n : Nat) : Word := BitVec.ofNat 32 (putBit (s.reg (TRK_CTRL.TYPE.addr d n 0)).toNat 17 true)

def execTrkRearm (d n : Nat) (s : State) : Host.Outcome State Fault Refusal :=
  onAxis d n s fun s => axisWrite d (TRK_CTRL.TYPE.addr 0 n 0) (rearmWord s d n) (fun e => trkRearm e n) s

/-- The held change takes effect at the first update at least 5,000 tk after the write (R92, R99). -/
def trkCtrlApply (d n : Nat) (s : State) : State :=
  match (s.getTrk d n).pendCtrl with
  | none => s
  | some (v, t) =>
    let s := (s.passTo t).toGrid 1000
    trkCtrlTake d n v.toNat (s.modTrk d n fun x => { x with pendCtrl := none })

def execTrkCtrlApply (d n : Nat) (s : State) : Host.Outcome State Fault Refusal := onAxis d n s (trkCtrlApply d n)

/-- A write of TRK_SECTOR, which takes effect at the next update (R99). -/
def trkSectorWrite (n : Nat) (v : Word) (d : Nat) (s : State) : State :=
  s.modTrk d n fun t => { t with pendSect := some v }

def execTrkSectorWrite (d n : Nat) (v : Word) (s : State) : Host.Outcome State Fault Refusal :=
  onAxis d n s (axisWrite d (TRK_SECTOR.SECTOR.addr 0 n 0) v (trkSectorWrite n v))

end Sys2Proof.Machine
end

