-- ==== Sys2Proof/Machine/Enc.lean ====
section
/-!
DEFINITION. Encoder emulation and incremental feedback inputs (R144 to R169).
-/

namespace Sys2Proof.Machine

/-! The emulator -/

/-- Levels (A, B) of emitted count `e` (R144). -/
def emuLevels (e : Int) (inv : Bool) : Bool × Bool :=
  let k := (e % 4).toNat
  match if inv && k % 2 == 1 then 4 - k else k with
  | 0 => (false, false)
  | 1 => (true, false)
  | 2 => (true, true)
  | _ => (false, true)

/-- The quadrature state whose levels are (a, b) (R144). -/
def quadState (a b inv : Bool) : Nat :=
  let k := if a then if b then 2 else 1 else if b then 3 else 0
  if inv && k % 2 == 1 then 4 - k else k

/-- LINES as the emulator takes it. -/
def State.emuLines (s : State) (d n : Nat) : Nat := clampN 1 65536 (s.rd d EMU_LINES.LINES n)

/-- MODE as the emulator takes it: 0b11 is off. -/
def State.emuMode (s : State) (d n : Nat) : Nat := if s.rd d EMU_CTRL.MODE n = 3 then 0 else s.rd d EMU_CTRL.MODE n

/-- RATE as the emulator takes it, in M transitions/s (R146). -/
def State.emuRate (s : State) (d n : Nat) : Nat :=
  let r := s.rd d EMU_CTRL.RATE n
  if r = 0 ∨ 40 < r then 40 else r

/-- Counts in one turn. -/
def emuTurn (x : EncAx) : Nat := 4 * x.lines

/-- The difference of two counts, which are held to 48 bits (R145). -/
def emuDiff (a b : Int) : Int := wrapDiff 48 a b

/-- Z is high (R147). -/
def emuZ (s : State) (d n : Nat) : Bool :=
  let x := s.getEnc d n
  let t : Int := (emuTurn x : Nat)
  let k := (x.e - (s.rd d EMU_ZPOS.ZPOS n : Nat)) % t
  let w : Int := if s.bit d EMU_CTRL.ZW n then 4 else 1
  decide (k < w) && !s.bit d EMU_STAT.ZSUP n

/-- A level as a pin. -/
def pinOf (b : Bool) : Pin := if b then .high else .low

/-- The levels that EMU_CTRL.SAFE gives the emulation balls, from the present ones (R154). -/
def emuSafePins (s : State) (d n : Nat) (now : List Pin) : List Pin :=
  match s.rd d EMU_CTRL.SAFE n with
  | 0 => now
  | 1 => [.low, .low, .low]
  | _ => [.z, .z, .z]

/-- The levels of the emulation balls of axis `n`: EMU_CTRL.SAFE in a die or package safe state, else by DRIVE and the mode
in force (R144, R147, R152, R154). In the reading copy they are driven, low until the first valid angle, with Z a quarter of a line
wide (R60, R61). -/
def emuPins (s : State) (d n : Nat) : List Pin :=
  let x := s.getEnc d n
  let rc := s.rcPhase d
  if (s.getDie d).noPads || (!rc && !s.bit d EMU_CTRL.DRIVE n) then [.z, .z, .z]
  else if s.dieSafe d then emuSafePins s d n x.pins
  else if rc then
    let (a, b) := emuLevels x.e false
    if x.rcWas then [pinOf a, pinOf b, pinOf (x.e % (emuTurn x : Nat) == 0)] else [.low, .low, .low]
  else match x.mode with
    | 0 => [.low, .low, .low]
    | 1 =>
      let (a, b) := emuLevels x.e (s.bit d EMU_CTRL.INV n)
      [pinOf a, pinOf b, pinOf (emuZ s d n)]
    | _ => [pinOf (bitOf x.rx 0), pinOf (bitOf x.rx 1), pinOf (bitOf x.rx 2)]

/-- Brings the emulation balls of axis `n` in step. -/
def emuShow (d n : Nat) (s : State) : State :=
  let p := emuPins s d n
  s.modEnc d n fun x => { x with pins := p }

/-- Brings every emulation ball of die `d` in step, as its safe states change (R154). -/
def emuShowAll (d : Nat) (s : State) : State := s.forEach (List.range 8) fun n s => emuShow d n s

/-- The angle that set `p` gives `k8` eighths of a tick after its stamp, in 2^-40 rev: R100, held at 1 ms ahead, less the correction at
that angle where it is enabled. -/
def emuAngle (s : State) (d n : Nat) (p : Pub) (k8 : Int) : Rat :=
  let k := min k8 20000000
  let sec : Rat := (k : Rat) / 20000000000
  let raw := (p.th : Rat) + advance p.w k / 8 + p.a * sec * sec / 2 * 1099511627776
  raw - ((correction d n (floorQ raw) 0 s).1 : Rat) * 65536

/-- Eighths of a tick from the stamp of the set that the target follows to time `t8` and LEAD. -/
def emuAhead (s : State) (d n : Nat) (x : EncAx) (t8 : Nat) : Int :=
  (t8 : Int) - x.at8 + 8 * (x.ahead + (s.rd d EMU_CTRL.LEAD n : Nat))

/-- x × 4 × LINES at time `t8`: of the electrical angle, or of the mechanical angle, a multiple of 2^-16 rev (R98, R145). -/
def emuCounts (s : State) (d n : Nat) (x : EncAx) (t8 : Nat) : Rat :=
  match x.src with
  | none => 0
  | some p =>
    let r := emuAngle s d n p (emuAhead s d n x t8) / 1099511627776
    (if x.mech then (floorQ ((x.base + r) * 65536 / (x.den : Nat)) : Rat) / 65536 else r) * (emuTurn x : Nat)

/-- The target count at time `t8` (R145). -/
def emuTarget (s : State) (d n : Nat) (x : EncAx) (t8 : Nat) : Int := floorQ (emuCounts s d n x t8) + x.off

/-- The emulator with the latest published set in force from the present instant on. -/
def emuSource (s : State) (d n : Nat) (x : EncAx) : EncAx :=
  let p := ((s.getTrk d n).hist).head?
  let turns : Int := match p with | some p => p.ang / 1099511627776 | none => 0
  let den := (s.getTrk d n).ppm + 1
  { x with src := p, ahead := (s.pt : Int) - (match p with | some p => p.u | none => s.pt), den := den, at8 := s.now8,
           base := s.rdI d TRK_SECTOR.MTURNS n * (den : Nat) + s.rd d TRK_SECTOR.SECTOR n - turns }

/-- The target takes the latest published set. A wrap of a turn count moves q by nothing (R145); after a sector set, `near`, and from
the first set of all the step goes the shorter way round one turn (R149, R150). -/
def emuPlan (d n : Nat) (near : Bool) (s : State) : State :=
  let x := s.getEnc d n
  let y := emuSource s d n x
  let m := if near || x.src.isNone then emuTurn x else emuTurn x * 65536
  let k := rheQ ((emuCounts s d n y s.now8 - emuCounts s d n x s.now8) / (m : Nat))
  let off := sgn 48 (enc 48 (x.off - k * (m : Nat)))
  s.modEnc d n fun _ => { y with off := off, q := sgn 48 (enc 48 (floorQ (emuCounts s d n y s.now8) + off)) }

/-- The emulator as it emits: e, the time in 1/8 tk of its last transition, and the time since which e has not been q. -/
structure EmuRun where
  e : Int
  last : Option Nat
  since : Option Nat
  deriving DecidableEq, Repr

/-- The earliest instant up to `hi` at which the target `v`, which is `e` at `lo` and not at `hi`, leaves it. -/
def firstOff (v : Nat → Int) (e : Int) : Nat → Nat → Nat → Nat
  | 0, _, hi => hi
  | k + 1, lo, hi =>
    if hi ≤ lo + 1 then hi
    else if emuDiff (v ((lo + hi) / 2)) e = 0 then firstOff v e k ((lo + hi) / 2) hi
    else firstOff v e k lo ((lo + hi) / 2)

/-- Emission from `lo` to `hi`, between which target `v` moves one way: each transition at the instant at which the target crosses the
boundary, none sooner than `gap` after the one before; what is later than `hi` stays as backlog (R146). Times are in 1/8 tk. -/
def emuRun (v : Nat → Int) (gap hi : Nat) : Nat → Nat → EmuRun → EmuRun
  | 0, _, r => r
  | k + 1, lo, r =>
    let on := decide (emuDiff (v lo) r.e = 0)
    if on && emuDiff (v hi) r.e == 0 then { r with since := none }
    else
      let c := if on then firstOff v r.e 64 lo hi else lo
      let since := if on then c else r.since.getD c
      let t := match r.last with | some l => max c (l + gap) | none => c
      if hi < t then { r with since := some since }
      else
        let df := emuDiff (v t) r.e
        if df = 0 then emuRun v gap hi k t { r with since := none }
        else
          let e := sgn 48 (enc 48 (if 0 < df then r.e + 1 else r.e - 1))
          emuRun v gap hi k t { e := e, last := some t, since := if emuDiff (v t) e = 0 then none else some since }

/-- The time at which the target turns back, where it does so between its planning and now. -/
def emuVertex (s : State) (d n : Nat) (x : EncAx) : Option Nat :=
  match x.src with
  | none => none
  | some p =>
    if p.a = 0 then none
    else
      let t : Int := floorQ (-p.w / p.a * 20000000000) - emuAhead s d n x x.at8 + x.at8
      if (x.at8 : Int) < t ∧ t < s.now8 then some t.toNat else none

/-- Transitions between `lo` and `hi` leave room for at most this many steps of `emuRun`. -/
def emuSteps (gap lo hi : Nat) : Nat := 2 * ((hi - lo) / gap) + 8

/-- Emission since the last planning, unless e is held or the mode in force is not emulation (R146, R149). -/
def emuGo (d n : Nat) (s : State) : State :=
  let x := s.getEnc d n
  if s.bit d EMU_STAT.HOLDING n || x.mode != 1 then s
  else
    let gap := (20000 + s.emuRate d n - 1) / s.emuRate d n
    let r : EmuRun := { e := x.e, last := x.last8, since := x.limAt }
    let v := emuTarget s d n x
    let r := match emuVertex s d n x with
      | some m => emuRun v gap s.now8 (emuSteps gap m s.now8) m (emuRun v gap m (emuSteps gap x.at8 m) x.at8 r)
      | none => emuRun v gap s.now8 (emuSteps gap x.at8 s.now8) x.at8 r
    s.modEnc d n fun x => { x with e := r.e, last8 := r.last, limAt := r.since }

/-- Shows backlog, limiter state and position after the emulator of axis `n` has run (R146, R151): `peak` is the largest catch-up that
it found. -/
def emuStatus (d n peak : Nat) (s : State) : State :=
  let x := s.getEnc d n
  let back := emuDiff x.q x.e
  let s := (s.wr d EMU_STAT.LIMIT (b2n (back != 0)) n).wrI d EMU_STAT.BACKLOG (clampI (-32767) 32767 back) n
  let s := s.wr d EMU_POS.POS (enc 32 x.e) n
  let big := !s.bit d EMU_STAT.HOLDING n && decide (4 < peak)
  let s := if big && !x.catching then s.raiseAx d n 15 3 else s
  let s := s.modEnc d n fun x =>
    { x with limAt := if back = 0 then none else some (x.limAt.getD s.now8), limDone := x.limDone && back != 0,
             catching := (x.catching || big) && back != 0 }
  emuShow d n s

/-- ZSUP shows whether Z is held low for want of MECHVALID (R147). -/
def emuZsup (d n : Nat) (s : State) : State :=
  s.wr d EMU_STAT.ZSUP (b2n ((s.getEnc d n).mech && !s.bit d TRK_STAT.MECHVALID n)) n

/-- e is held from an acquisition without coasting until the angle is valid again (R62, R149). -/
def emuHeld (s : State) (d n : Nat) : Bool :=
  !s.bit d TRK_STAT.COASTING n && (s.bit d TRK_STAT.ACQ n || (s.bit d EMU_STAT.HOLDING n && !s.bit d TRK_STAT.ANGVALID n))

/-- The emulator of axis `n` at the present tick, a sector just `set` or not: it emits what the target in force asked for, then follows
the set now published (R145 to R151). -/
def emuAdvance (d n : Nat) (set : Bool) (s : State) : State :=
  let s := emuGo d n (emuZsup d n s)
  let before := emuDiff (emuTarget s d n (s.getEnc d n) s.now8) (s.getEnc d n).e
  let s := emuPlan d n set (s.wr d EMU_STAT.HOLDING (b2n (emuHeld s d n)) n)
  let after := emuDiff (s.getEnc d n).q (s.getEnc d n).e
  let s := emuGo d n s
  if (s.getEnc d n).mode = 1 then emuStatus d n (max before.natAbs after.natAbs) s else emuShow d n s

/-- In standby mode the emulator of the standby mate copies the active mate's count, limiter state and Z (R153). -/
def emuCopy (d n : Nat) (s : State) : State :=
  let a := s.activeOf d
  if s.divided d || a == d || !s.bridgeUp d then s
  else
    let m := s.getEnc a n
    let s := s.modEnc d n fun x =>
      { x with e := m.e, q := m.q, at8 := m.at8, src := m.src, ahead := m.ahead, base := m.base, den := m.den, off := m.off,
               last8 := m.last8, limAt := m.limAt, limDone := m.limDone, catching := m.catching, lines := m.lines, mech := m.mech,
               mode := m.mode }
    let s := [EMU_STAT.LIMIT, EMU_STAT.HOLDING, EMU_STAT.ZSUP, EMU_STAT.PASS, EMU_STAT.BACKLOG, EMU_POS.POS].foldl
      (fun s f => s.wr d f (s.rd a f n) n) s
    emuShow d n s

/-- The limiter has been active for 10 µs without a break (R146). -/
def emuOverrate (d n : Nat) (s : State) : State :=
  let x := s.getEnc d n
  match x.limAt with
  | some t =>
    if x.limDone then s
    else
      let s := (s.pass (t / 8 + 25000 - s.now)).modEnc d n fun x => { x with limDone := true }
      (s.wrBit d ENC_FAULT.OVERRATE n true).raiseAx d n 14 3
  | none => s

def execEmuOverrate (d n : Nat) (s : State) : Host.Outcome State Fault Refusal := onAxis d n s (emuOverrate d n)

/-- Sets e to the count nearest q whose quadrature state is `k`; at equal distance the choice is free (R150). -/
def emuNearest (d n k : Nat) (s : State) : State :=
  let x := s.getEnc d n
  let c := ((k : Int) - x.q) % 4
  let (off, s) : Int × State :=
    if c = 2 then (if s.free % 2 = 0 then 2 else -2, s.drew) else if c = 3 then (-1, s) else (c, s)
  s.modEnc d n fun x => { x with e := sgn 48 (enc 48 (x.q + off)), last8 := x.last8 }

/-- The quadrature state now on the pins of axis `n`: the emitted count's, the input's in pass-through, 0 when off (R150). -/
def emuPinState (s : State) (d n : Nat) : Nat :=
  let x := s.getEnc d n
  match x.mode with
  | 0 => 0
  | 1 => (x.e % 4).toNat
  | _ => quadState (bitOf x.rx 0) (bitOf x.rx 1) (s.bit d EMU_CTRL.INV n)

/-- A change of LINES, SRC or of MODE to emulation waits for the next tracker update (R150). -/
def emuRebaseDue (s : State) (d n : Nat) : Bool :=
  let x := s.getEnc d n
  s.emuMode d n == 1 && (x.mode != 1 || x.lines != s.emuLines d n || x.mech != s.bit d EMU_CTRL.SRC n)

/-- A rebase: the emulator takes its settings, computes the new q and sets e nearest to it with quadrature state `k`, that on the pins,
kept (R150). -/
def emuRebaseFrom (d n k : Nat) (s : State) : State :=
  let s := s.modEnc d n fun x =>
    { x with lines := s.emuLines d n, mech := s.bit d EMU_CTRL.SRC n, mode := 1, src := none, off := 0, limAt := none, limDone := false,
             catching := false }
  let s := s.modEnc d n fun x => emuSource s d n x
  let s := s.modEnc d n fun x => { x with q := sgn 48 (enc 48 (emuTarget s d n x s.now8)) }
  emuStatus d n 0 (emuZsup d n ((emuNearest d n k s).wr d EMU_STAT.PASS 0 n))

/-- A rebase from the state that the pins of the mode in force show. -/
def emuRebaseNow (d n : Nat) (s : State) : State := emuRebaseFrom d n (emuPinState s d n) s

/-- At the tracker update after such a change the emulator is rebased (R150); in the reading copy its registers have no effect (R149). -/
def emuRebase (d n : Nat) (s : State) : State :=
  if 5 ≤ s.rd d GLB_PHASE.PHASE ∧ emuRebaseDue s d n then emuRebaseNow d n (emuGo d n (s.toGrid 1000)) else s

def execEmuRebase (d n : Nat) (s : State) : Host.Outcome State Fault Refusal := onAxis d n s (emuRebase d n)

/-- A change to pass-through takes effect at the next tracker update: the output takes the input's levels (R152). -/
def emuPassthroughChange (d n : Nat) (s : State) : State :=
  if 5 ≤ s.rd d GLB_PHASE.PHASE ∧ s.emuMode d n = 2 ∧ (s.getEnc d n).mode ≠ 2 then
    let s := s.toGrid 1000
    let s := s.modEnc d n fun x => { x with mode := 2, limAt := none, limDone := false, catching := false }
    let s := (s.wr d EMU_STAT.PASS 1 n).wr d EMU_STAT.LIMIT 0 n
    emuShow d n (s.wr d EMU_STAT.BACKLOG 0 n)
  else s

def execEmuPassthroughChange (d n : Nat) (s : State) : Host.Outcome State Fault Refusal :=
  onAxis d n s (emuPassthroughChange d n)

/-- A write of EMU_CTRL: MODE off acts at once; the other changes of MODE and SRC wait for a tracker update (R150, R152,
R154). -/
def emuCtrlWrite (n : Nat) (v : Word) (d : Nat) (s : State) : State :=
  let w := v.toNat
  let s := if 5 ≤ s.rd d GLB_PHASE.PHASE then s.holdBalls (d / 2) else s
  let s := ((s.wr d EMU_CTRL.MODE (bitsOf w 0 2) n).wr d EMU_CTRL.SRC (bitsOf w 2 1) n).wr d EMU_CTRL.ZW (bitsOf w 3 1) n
  let s := ((s.wr d EMU_CTRL.INV (bitsOf w 4 1) n).wr d EMU_CTRL.DRIVE (bitsOf w 5 1) n).wr d EMU_CTRL.SAFE (bitsOf w 6 2) n
  let s := (s.wr d EMU_CTRL.RATE (bitsOf w 8 6) n).wr d EMU_CTRL.LEAD (bitsOf w 16 16) n
  let s :=
    if s.emuMode d n = 0 ∧ 5 ≤ s.rd d GLB_PHASE.PHASE then
      let s := s.modEnc d n fun x => { x with mode := 0, limAt := none, limDone := false, catching := false }
      ((s.wr d EMU_STAT.PASS 0 n).wr d EMU_STAT.LIMIT 0 n).wr d EMU_STAT.BACKLOG 0 n
    else s
  if 5 ≤ s.rd d GLB_PHASE.PHASE then emuShow d n s else s

/-! Counting -/

/-- The present CLK_FAB sample: CLK_FAB has a period of 4 tk (R155). -/
def State.fabSample (s : State) (d : Nat) : Nat := s.ptD d / 4

/-- CLK_FAB samples from `ago` ticks back to the present (R156). -/
def State.fabSamples (s : State) (d ago : Nat) : Nat := s.ptD d / 4 + 1 - (s.ptD d - ago + 3) / 4

/-- The counts of axis `n` as the registers hold them. -/
def encRegs (s : State) (d n : Nat) : EncSample :=
  { k := s.fabSample d, raw := s.rdI d ENC_RAW.COUNT n, rep := s.rdI d ENC_REP.COUNT n, back := s.bit d ENC_STAT.DIR n,
    held := s.bit d ENC_STAT.HELD n }

/-- The counts of the present sample ahead of an index action or a write of ENC_RAW that fell in it (R160). -/
def encBefore (s : State) (d n : Nat) : EncSample :=
  match (s.getEnc d n).smp with
  | some m => if m.k = s.fabSample d then m else encRegs s d n
  | none => encRegs s d n

/-- Puts counts into the registers. -/
def encPut (d n : Nat) (c : EncSample) (s : State) : State :=
  (((s.wrI d ENC_RAW.COUNT c.raw n).wrI d ENC_REP.COUNT c.rep n).wr d ENC_STAT.DIR (b2n c.back) n).wr d ENC_STAT.HELD (b2n c.held) n

/-- One count of direction `fwd` in the raw and the reported count (R159). -/
def EncSample.count (c : EncSample) (fwd : Bool) : EncSample :=
  let v : Int := if fwd then 1 else -1
  if fwd != c.back then
    if c.held then { c with raw := c.raw + v, held := false } else { c with raw := c.raw + v, rep := c.rep + v }
  else if c.held then { c with raw := c.raw + v, rep := c.rep + v, back := !fwd, held := false }
  else { c with raw := c.raw + v, held := true }

/-- diff of a raw count against the reference (R163). -/
def indexDiff (raw ref : Int) (cpr : Nat) : Int :=
  let h : Int := (cpr / 2 : Nat)
  (raw - ref + h) % (cpr : Int) - h

/-- What the counter of axis `n` does is done to the counts of a snapshot that waits, too (R355). -/
def encSnap (d n : Nat) (f : EncSnap → EncSnap) (s : State) : State := s.modEnc d n fun x => { x with snap := x.snap.map f }

/-- An index with reference `ref` in the counts of a snapshot (R163, R164, R355). -/
def EncSnap.index (x : EncSnap) (mode : Nat) (ref : Int) : EncSnap :=
  if mode = 1 ∨ (mode = 2 ∧ x.armed) then
    { x with c := { x.c with raw := ref, rep := x.c.rep + ref - x.c.raw }, armed := x.armed && mode != 2, first := false }
  else { x with first := false }

/-- The encoder row of a snapshot is applied at update U + 16, with the transitions counted since U (R355). -/
def encSnapTake (d n : Nat) (s : State) : State :=
  match (s.getEnc d n).snap with
  | none => s
  | some x =>
    if s.pt < x.u + 16000 ∨ s.rd d PAIR_STAT.RESYNC ≠ 2 then s
    else
      let s := encPut d n x.c (s.modEnc d n fun x => { x with snap := none })
      itemApplied d (32 + n) ((s.wr d ENC_IDX.ARMED (b2n x.armed) n).wr d ENC_IDX.FIRST (b2n x.first) n)

/-- A counted transition enters both counts; in the sample of an index action it comes ahead of it, and a write of ENC_RAW in the same
sample absorbs it (R159, R160). -/
def encTally (d n : Nat) (fwd : Bool) (s : State) : State :=
  let s := encSnap d n (fun x => { x with c := x.c.count fwd }) s
  let c := (encBefore s d n).count fwd
  let keep := s.modEnc d n fun x => { x with smp := some c }
  if c.written then keep
  else match c.reset with
    | some r =>
      let t := encPut d n { c with raw := r, rep := c.rep + r - c.raw } keep
      if s.rd d ENC_CPR.CPR n = 0 then t else t.wrI d ENC_IDXDIFF.DIFF (indexDiff c.raw r (s.rd d ENC_CPR.CPR n)) n
    | none => encPut d n c s

/-- The mode change of R162 for a rate in counts/s; THR = 0 holds count mode, THR all ones holds period mode. -/
def speedMode (d n : Nat) (rate : Rat) (s : State) : State :=
  let thr := s.rd d ENC_THR.THR n
  let m := s.bit d ENC_STAT.SMODE n
  let m := if thr = 0 then true else if thr = 4294967295 then false
    else if m then !decide (rate * 8 < 7 * (thr : Rat)) else decide (9 * (thr : Rat) < rate * 8)
  s.wr d ENC_STAT.SMODE (b2n m) n

/-- Speed in counts/s as period mode gives it at tick `t` (R161): 0 before two counts in one direction. -/
def periodSpeed (x : EncAx) (t : Nat) : Rat :=
  match x.stamp, x.per with
  | some st, some p =>
    let q := max p (t - st)
    if q = 0 then 0 else (if x.back then -1 else 1) * 2500000000 / (q : Nat)
  | _, _ => 0

/-- Writes ENC_SPD, 2^-4 counts/s. -/
def setSpeed (d n : Nat) (v : Rat) (s : State) : State :=
  let (x, s) := s.near (v * 16)
  s.wrI d ENC_SPD.SPD (satI 32 x) n

/-- One legal transition of direction `fwd` stamped `st` (R158, R159, R161, R162). In period mode each count is a check, at which the
mode decided at the last one comes into force. -/
def encCount (d n : Nat) (fwd : Bool) (st : Nat) (s : State) : State :=
  let s := encTally d n fwd s
  let x := s.getEnc d n
  let per := match x.stamp with
    | some p => if x.back = !fwd then some (st - p) else none
    | none => none
  let mode := s.bit d ENC_STAT.SMODE n
  let s := s.modEnc d n fun x =>
    { x with back := !fwd, stamp := some st, per := per, sum := x.sum + (if fwd then 1 else -1), counts := mode }
  let s := s.wr d ENC_STAT.STOPPED 0 n
  if mode then s
  else if per = some 0 then
    let v := sgn 32 (s.free % 2 ^ 32)
    speedMode d n (absQ ((v : Rat) / 16)) ((s.wrI d ENC_SPD.SPD v n).drew)
  else
    let v := periodSpeed (s.getEnc d n) st
    speedMode d n (absQ v) (setSpeed d n v s)

/-- The reference value of the index: RESV forward, RESV + RWID in reverse (R163). -/
def indexRef (s : State) (d n : Nat) : Int :=
  (s.rdI d ENC_RESV.RESV n) + if (s.getEnc d n).back then (s.rd d ENC_IDX.RWID n : Int) else 0

/-- The sector that angle `x` (2^-40 rev) at an index gives the tracker, at its next update, with its distance from XIDX in SECD
(R165, R99). -/
def indexSet (d n : Nat) (x : Int) (s : State) : State :=
  let df := x - (s.rd d ENC_SECT.XIDX n : Int) * 16777216
  let w := wrapDiff 40 df 0
  let k := (df - w) / 1099511627776
  let p : Int := ((s.getTrk d n).ppm : Nat) + 1
  let sec := (((s.rd d ENC_IDX.SECVAL n : Int) + k) % p).toNat
  let sd := s.near ((w : Rat) / 16777216)
  let s := (sd.2.wrI d ENC_SECT.SECD sd.1 n).wr d ENC_IDX.SECEN 0 n
  s.modTrk d n fun t => { t with pendSect := some (BitVec.ofNat 32 (sec + s.rd d TRK_SECTOR.MTURNS n * 65536)) }

/-- The first valid index with SECEN = 1 sets the tracker's sector (R165). -/
def indexSector (d n st : Nat) (s : State) : State :=
  if s.bit d ENC_IDX.SECEN n && s.bit d TRK_STAT.ANGVALID n then
    indexSet d n (enc 40 (angleAt d n st 0 s).1.ang) (angleAt d n st 0 s).2
  else s

/-- Forms, shows and checks diff at an index (R163). -/
def indexCheck (d n : Nat) (diff : Int) (s : State) : State :=
  let mode := s.rd d ENC_IDX.MODE n
  let cpr := s.rd d ENC_CPR.CPR n
  let s := (s.wrI d ENC_IDXDIFF.DIFF (if cpr = 0 then 0 else diff) n).wr d ENC_IDX.SEEN 1 n
  let checked := decide (0 < cpr) &&
    (if mode = 1 then !s.bit d ENC_IDX.FIRST n else if mode = 2 then !s.bit d ENC_IDX.ARMED n else true)
  if checked && decide (s.rd d ENC_IDX.TOL n < diff.natAbs) then (s.wrBit d ENC_FAULT.IDXMIS n true).raiseAx d n 13 3 else s

/-- raw := ref, rep moved by the same amount; a write of ENC_RAW in the same sample prevails (R160, R163). -/
def indexReset (d n : Nat) (ref : Int) (s : State) : State :=
  let c := encBefore s d n
  let s := s.modEnc d n fun x => { x with smp := some { c with reset := some ref } }
  let s := if c.written then s else encPut d n { c with raw := ref, rep := c.rep + ref - c.raw } s
  if s.rd d ENC_IDX.MODE n = 2 then s.wr d ENC_IDX.ARMED 0 n else s

/-- The action of an index stamped `st` (R163 to R165). -/
def indexAct (d n st : Nat) (s : State) : State :=
  let mode := s.rd d ENC_IDX.MODE n
  let ref := indexRef s d n
  let s :=
    if mode = 0 then s
    else
      let s := indexCheck d n (indexDiff (encBefore s d n).raw ref (s.rd d ENC_CPR.CPR n)) s
      if mode = 1 ∨ (mode = 2 ∧ s.bit d ENC_IDX.ARMED n) then indexReset d n ref s else s
  indexSector d n st (encSnap d n (fun x => x.index mode ref) (s.wr d ENC_IDX.FIRST 0 n))

/-- The receivers of axis `n` show levels `v`; in pass-through the balls repeat them (R152). -/
def encReceive (d n v : Nat) (s : State) : State :=
  let s := s.modEnc d n fun x => { x with rx := v }
  if (s.getEnc d n).mode = 2 then emuShow d n s else s

/-- The transition from filtered levels `old` to (a, b) counts, or is illegal (R158). -/
def encDecode (d n old : Nat) (a b : Bool) (st : Nat) (s : State) : State :=
  let inv := s.bit d ENC_CFG.INV n
  match (quadState a b inv + 4 - quadState (bitOf old 0) (bitOf old 1) inv) % 4 with
  | 0 => s
  | 1 => encCount d n true st s
  | 3 => encCount d n false st s
  | _ => ((s.addSat d ENC_STAT.ILLCNT 1 n).wrBit d ENC_FAULT.ILL n true).raiseAx d n 12 3

/-- The receivers have shown levels (a, b, z) for `ago` ticks, since the transition that is the stamp: the filter accepts them after
FILT + 1 samples, and a rise of Z, or with ZINV = 1 a fall, is then an index (R156, R158, R163). -/
def encEdgeAccept (d n : Nat) (a b z : Bool) (ago : Nat) (s : State) : State :=
  let v := b2n a + 2 * b2n b + 4 * b2n z
  let s := encReceive d n v s
  if s.fabSamples d ago ≤ s.rd d ENC_CFG.FILT n then s
  else
    let old := s.rd d ENC_STAT.ABZ n
    let st := s.ptD d - ago
    let s := encDecode d n old a b st (s.wr d ENC_STAT.ABZ v n)
    if z != bitOf old 2 && z != s.bit d ENC_CFG.ZINV n then indexAct d n st s else s

def execEncEdgeAccept (d n : Nat) (a b z : Bool) (ago : Nat) (s : State) : Host.Outcome State Fault Refusal :=
  onAxis d n s (encEdgeAccept d n a b z ago)

/-- The two wires of the pairs `w` (A, B, Z as bits 0 to 2) read the same level now, those of them that did not before for `ago` ticks:
a pair whose count of samples passes WIRET raises enc-wire, which ends when no pair is past it (R155). -/
def encWireDisagree (d n w ago : Nat) (s : State) : State :=
  let x := s.getEnc d n
  let was := s.rd d ENC_STAT.WIRE n
  let since := (List.range 3).map fun i => if bitOf was i then x.wireAt.getD i 0 else s.ptD d - ago
  let past := fun i => bitOf w i && decide (s.rd d ENC_CFG.WIRET n < s.fabSamples d (s.ptD d - since.getD i 0))
  let up := b2n (past 0) + 2 * b2n (past 1) + 4 * b2n (past 2)
  let s := (s.wr d ENC_STAT.WIRE w n).modEnc d n fun x => { x with wireAt := since, wireUp := up }
  if (List.range 3).any fun i => past i && !bitOf x.wireUp i then (s.wrBit d ENC_FAULT.WIRE n true).raiseAx d n 11 1
  else if up = 0 ∧ x.wireUp ≠ 0 then s.raiseAx d n 11 2
  else s

def execEncWireDisagree (d n : Nat) (w : WireEvent) (s : State) : Host.Outcome State Fault Refusal :=
  onAxis d n s (encWireDisagree d n w.mask w.ago)

/-- A write of ENC_RAW sets both counts, with dir := +1 and held := 0 (R159); it prevails over every count and index of its sample
(R160). -/
def encRawWrite (n : Nat) (v : Word) (d : Nat) (s : State) : State :=
  let c := encBefore s d n
  let s := s.modEnc d n fun x => { x with smp := some { c with written := true } }
  let s := encSnap d n (fun x => { x with c := { raw := v.toInt, rep := v.toInt } }) s
  let s := (s.wr d ENC_RAW.COUNT v.toNat n).wr d ENC_REP.COUNT v.toNat n
  (s.wr d ENC_STAT.DIR 0 n).wr d ENC_STAT.HELD 0 n

def execEncRawWrite (d n : Nat) (v : Word) (s : State) : Host.Outcome State Fault Refusal :=
  onAxis d n s (axisWrite d (ENC_RAW.COUNT.addr 0 n 0) v (encRawWrite n v))

/-! Speed -/

/-- WIN and STOP as taken: 0 is 1 (R161). -/
def State.encWin (s : State) (d n : Nat) : Nat := max 1 (s.rd d ENC_SPDCFG.WIN n)
def State.encStop (s : State) (d n : Nat) : Nat := max 1 (s.rd d ENC_SPDCFG.STOP n)

/-- A count-mode window ends on a multiple of WIN × 2,500 tk: the check of count mode, at which the mode decided at the last one comes
into force (R161, R162). -/
def encSpeedWindowEnd (d n : Nat) (s : State) : State :=
  let w := s.encWin d n
  let s := s.toNext (State.stepNo 4 d n) (w * 2500)
  let v : Rat := ((s.getEnc d n).sum : Rat) * 1000000 / (w : Nat)
  let mode := s.bit d ENC_STAT.SMODE n
  let s := s.modEnc d n fun x => { x with sum := 0, counts := mode }
  if mode then
    let v := if s.bit d ENC_STAT.STOPPED n then 0 else v
    speedMode d n (absQ v) (setSpeed d n v s)
  else s

def execEncSpeedWindowEnd (d n : Nat) (s : State) : Host.Outcome State Fault Refusal := onAxis d n s (encSpeedWindowEnd d n)

/-- No count for STOP µs: speed 0 and STOPPED = 1 (R161). -/
def encStopTimeout (d n : Nat) (s : State) : State :=
  let s := match (s.getEnc d n).stamp with
    | some t => s.passTo (t + s.encStop d n * 2500)
    | none => s
  (s.wr d ENC_SPD.SPD 0 n).wr d ENC_STAT.STOPPED 1 n

def execEncStopTimeout (d n : Nat) (s : State) : Host.Outcome State Fault Refusal := onAxis d n s (encStopTimeout d n)

/-- ENC_SPD as a read finds it: in period mode the time since the last count takes the place of the period once it is longer
(R161). -/
def encSpeedNow (d n : Nat) (s : State) : State :=
  if (s.getEnc d n).counts || s.bit d ENC_STAT.STOPPED n then s
  else match (s.getEnc d n).stamp, (s.getEnc d n).per with
    | some st, some p => if p < s.ptD d - st then setSpeed d n (periodSpeed (s.getEnc d n) (s.ptD d)) s else s
    | _, _ => s

/-! Index -/

/-- Z has stood at its active level for `ago` ticks, after the other one: the filter accepts it after FILT + 1 samples and an index is
recognised (R156, R163). -/
def encIndex (d n ago : Nat) (s : State) : State :=
  let z := !s.bit d ENC_CFG.ZINV n
  let old := s.rd d ENC_STAT.ABZ n
  if bitOf old 2 = z then s
  else
    let s := encReceive d n (putBit (s.getEnc d n).rx 2 z) s
    if s.fabSamples d ago ≤ s.rd d ENC_CFG.FILT n then s
    else indexAct d n (s.ptD d - ago) (s.wr d ENC_STAT.ABZ (putBit old 2 z) n)

def execEncIndex (d n ago : Nat) (s : State) : Host.Outcome State Fault Refusal := onAxis d n s (encIndex d n ago)

/-- ARM arms the reset-once mode; ignored while ARMED = 1 (R164). -/
def encIdxArm (n d : Nat) (s : State) : State := encSnap d n (fun x => { x with armed := true }) (s.wr d ENC_IDX.ARMED 1 n)

/-- A write of ENC_IDX: a change of MODE clears ARMED and sets FIRST (R164). -/
def encIdxWrite (n : Nat) (v : Word) (d : Nat) (s : State) : State :=
  let w := v.toNat
  let s :=
    if s.rd d ENC_IDX.MODE n = bitsOf w 0 2 then s
    else encSnap d n (fun x => { x with armed := false, first := true }) ((s.wr d ENC_IDX.ARMED 0 n).wr d ENC_IDX.FIRST 1 n)
  let s := ((s.wr d ENC_IDX.MODE (bitsOf w 0 2) n).wr d ENC_IDX.SECEN (bitsOf w 5 1) n).wr d ENC_IDX.TOL (bitsOf w 8 8) n
  let s := (s.wr d ENC_IDX.SECVAL (bitsOf w 16 4) n).wr d ENC_IDX.RWID (bitsOf w 20 4) n
  let s := if bitOf w 24 then s.wr d ENC_IDX.SEEN 0 n else s
  if bitOf w 2 then encIdxArm n d s else s

def execEncIdxWrite (d n : Nat) (v : Word) (s : State) : Host.Outcome State Fault Refusal :=
  onAxis d n s (axisWrite d (ENC_IDX.MODE.addr 0 n 0) v (encIdxWrite n v))

/-- ENC_IDX as it stands, with ARM set. -/
def armWord (s : State) (d n : Nat) : Word :=
  BitVec.ofNat 32 (putBit (putBit (s.reg (ENC_IDX.MODE.addr d n 0)).toNat 24 false) 2 true)

def execEncIdxArm (d n : Nat) (s : State) : Host.Outcome State Fault Refusal :=
  onAxis d n s fun s => axisWrite d (ENC_IDX.MODE.addr 0 n 0) (armWord s d n) (encIdxArm n) s

/-! Probe -/

/-- An accepted probe edge stamped `st`: the counts ahead of an index or a write of the same sample, the stamp and the angle at the stamp
are latched (R160, R167, R168). -/
def probeLatch (d n : Nat) (rise : Bool) (st : Nat) (s : State) : State :=
  if s.bit d PRB_STAT.FULL n then (s.addSat d PRB_STAT.OVR 1 n).raiseAx d n 16 3
  else
    let c := encBefore s d n
    let s := ((s.wrI d PRB_RAW.COUNT c.raw n).wrI d PRB_REP.COUNT c.rep n).wr d PRB_PT.PT st n
    let (r, s) := angleAt d n st 0 s
    let a := ang48 r.ang
    let s := (s.wr d PRB_ANG.FRAC a.1 n).wr d PRB_ANG.TURNS a.2 n
    ((s.wr d PRB_STAT.FULL 1 n).wr d PRB_STAT.RISE (b2n rise) n).wr d PRB_STAT.ANGV (b2n (bitOf r.stat 0)) n

/-- The probe input has stood at the level after a rise, or a fall, for `ago` ticks: its filter accepts the edge after FILT + 1 samples,
and an edge that EDGE selects is latched (R166, R167). -/
def probeEdge (d n : Nat) (rise : Bool) (ago : Nat) (s : State) : State :=
  if (s.getEnc d n).prb = rise ∨ s.fabSamples d ago ≤ s.rd d PRB_CTRL.FILT n then s
  else
    let s := s.modEnc d n fun x => { x with prb := rise }
    if bitOf (s.rd d PRB_CTRL.EDGE n) (if rise then 0 else 1) then probeLatch d n rise (s.ptD d - ago) s else s

def execProbeEdge (d n : Nat) (rise : Bool) (ago : Nat) (s : State) : Host.Outcome State Fault Refusal :=
  onAxis d n s (probeEdge d n rise ago)

/-- A write of PRB_STAT clears FULL and OVR (R168). -/
def prbStatWrite (n d : Nat) (s : State) : State := (s.wr d PRB_STAT.FULL 0 n).wr d PRB_STAT.OVR 0 n

def execPrbStatWrite (d n : Nat) (v : Word) (s : State) : Host.Outcome State Fault Refusal :=
  onAxis d n s (axisWrite d (PRB_STAT.FULL.addr 0 n 0) v (prbStatWrite n))

end Sys2Proof.Machine
end

