-- ==== Sys2Proof/Machine/Acq.lean ====
section
/-!
DEFINITION. Phase and line converters, window comparators, the filter engine, the detectors and the line-phase tracker
(R170 to R197).
-/

namespace Sys2Proof.Machine

/-! Detectors (R189 to R193) -/

/-- The square root of sq / n rounded half to even (R189). -/
def rmsRound (sq n : Nat) : Nat :=
  let r := isqrt (sq / n)
  let m := n * (4 * r * r + 4 * r + 1)
  if m < 4 * sq then r + 1 else if 4 * sq = m then r + r % 2 else r

/-- Evaluates the limit of detector `i` on a result (R191). -/
def detLimit (d i : Nat) (res : Int) (s : State) : State :=
  if s.bit d DET_LIM.LEN i then
    let ov := decide ((s.rd d DET_LIM.LIM i : Int) < res)
    let s := if ov && !(s.getDet d i).above then s.raise d (576 + i) 3 i else s
    s.modDet d i fun r => { r with above := ov }
  else s

/-- Sets the four result flags of detector `i` (R191). -/
def detFlags (d i fl : Nat) (s : State) : State :=
  (((s.wr d DET_STAT.UNS fl i).wr d DET_STAT.CLIP (fl / 2) i).wr d DET_STAT.SUPPLY (fl / 4) i).wr d DET_STAT.NV (fl / 8) i

/-- The window of detector `i` closes: results, stamps, DONE, WCNT, the limit, and a new window (R189, R191). -/
def detClose (d i : Nat) (s : State) : State :=
  let r := s.getDet d i
  let peak := s.rd d DET_CFG.KIND i == 1
  let res : Int := if peak then max r.hi (-r.lo) else (rmsRound r.sq r.n : Nat)
  let s := if peak then
      ((s.wrI d DET_A.VALUE r.hi i).wrI d DET_B.VALUE r.lo i).wr d DET_PKSTAMP.PT r.pk i
    else s.wrI d DET_A.VALUE res i
  let s := ((s.wr d DET_STAMP.PT r.last i).wr d DET_STAT.DONE 1 i).addSat d DET_STAT.WCNT 1 i
  let s := if 16777215 ≤ r.n then s.wr d DET_STAT.OVF 1 i else s
  let s := (detFlags d i r.fl s).modDet d i fun r => { above := r.above, env := r.env, turn := r.turn }
  detLimit d i res s

/-- The window of detector `i` has reached its length, or in lock the line phase has wrapped forward in it, or it holds the most samples
(R189). -/
def State.detDue (s : State) (d i : Nat) : Bool :=
  let r := s.getDet d i
  0 < r.n &&
    (if s.bit d DET_CFG.WMODE i then
      decide (16777215 ≤ r.n) || (s.bit d LPT_STAT.LOCK && decide (r.turn < floorQ (s.lineAt d s.pt)))
    else decide (max 1 (s.rd d DET_N.N i) ≤ r.n))

/-- STALE of the detectors: a line-period window waits for lock (R189). -/
def detStale (d : Nat) (s : State) : State :=
  s.forEach (List.range 16) fun i s =>
    let win := s.rd d DET_CFG.KIND i == 1 || s.rd d DET_CFG.KIND i == 2
    s.wr d DET_STAT.STALE (b2n (win && s.bit d DET_CFG.WMODE i && !s.bit d LPT_STAT.LOCK)) i

/-- 1 - exp(-x) for 0 ≤ x ≤ 1, by the first terms of its series. -/
def oneMinusExp (x : Rat) : Nat → Nat → Rat → Rat
  | 0, _, _ => 0
  | k + 1, n, t => t + oneMinusExp x k (n + 1) (-(t * x) / ((n + 1 : Nat) : Rat))

/-- The factor k of R190 in 2^-32, for an interval of `dt` units of 100 ns and a time constant of `tau` µs. -/
def envFactor (dt tau : Nat) (s : State) : Int × State :=
  let t := clampN 1 1000000 tau * 10
  if t < dt then (4294967296, s)
  else
    let x : Rat := (dt : Rat) / (t : Nat)
    s.near (oneMinusExp x 14 1 x * 4294967296)

/-- One sample of the envelope (R190). -/
def detEnvelope (d i : Nat) (x : Int) (fl : Nat) (s : State) : State :=
  let r := s.getDet d i
  let dt := if s.bit d DET_CFG.TAP i then (s.getFil d (s.rd d DET_CFG.SRC i)).cur.dm1 + 1 else 1
  let a : Int := (x.natAbs : Int) * 4294967296
  let up := decide (r.env < a)
  let (k, s) := envFactor dt (if up then s.rd d DET_ATK.TAU i else s.rd d DET_DCY.TAU i) s
  let (env, s) :=
    if r.fresh then (a, s) else s.near ((r.env : Rat) + (k : Rat) / 4294967296 * ((a - r.env : Int) : Rat))
  let (v, s) := s.near ((env : Rat) / 4294967296)
  let s := (s.wrI d DET_A.VALUE v i).modDet d i fun r => { r with env := env, fresh := false, fl := fl }
  detLimit d i v (detFlags d i fl s)

/-- One sample of detector `i`: value, flags UNS, CLIP, SUPPLY, NV as bits 0 to 3, and stamp (R189, R193). -/
def detSample (d i : Nat) (x : Int) (fl st : Nat) (s : State) : State :=
  let kind := s.rd d DET_CFG.KIND i
  if kind = 0 ∨ s.bit d DET_STAT.SHED i then s
  else if kind = 3 then detEnvelope d i x fl s
  else
    let s := s.wr d DET_STAT.STALE (b2n (s.bit d DET_CFG.WMODE i && !s.bit d LPT_STAT.LOCK)) i
    let s := if s.detDue d i then detClose d i s else s
    let k := floorQ (s.lineAt d s.pt)
    s.modDet d i fun r =>
      { r with turn := k, n := r.n + 1, hi := if r.n = 0 ∨ r.hi < x then x else r.hi, lo := if r.n = 0 ∨ x < r.lo then x else r.lo,
               pk := if r.n = 0 ∨ r.hi < x then st else r.pk, sq := r.sq + x.natAbs * x.natAbs, last := st, fl := r.fl ||| fl }

/-- The window of detector `i` has reached its length, or the line phase has wrapped forward (R189). -/
def detWindowEnd (d i : Nat) (s : State) : State :=
  let kind := s.rd d DET_CFG.KIND i
  if (kind = 1 ∨ kind = 2) ∧ s.detDue d i ∧ !s.bit d DET_STAT.SHED i then detClose d i s else s

def execDetWindowEnd (d i : Nat) (s : State) : Host.Outcome State Fault Refusal := onPart d i 16 s (detWindowEnd d i)

/-- Discards the partial window of detector `i` (R192). -/
def detDiscard (d i : Nat) (s : State) : State := s.modDet d i fun r => { env := r.env, above := r.above, fresh := r.fresh }

/-- A write of DET_CFG (r = 0) or DET_N: the partial window is discarded; writing KIND = 0b11 sets env to 0 (R190, R192). -/
def detCfgWrite (i r : Nat) (v : Word) (d : Nat) (s : State) : State :=
  let w := v.toNat
  let s := detDiscard d i s
  if r = 0 then
    let s := ((s.wr d DET_CFG.SRC (bitsOf w 0 6) i).wr d DET_CFG.TAP (bitsOf w 6 1) i).wr d DET_CFG.KIND (bitsOf w 8 2) i
    let s := detStale d (s.wr d DET_CFG.WMODE (bitsOf w 10 1) i)
    if bitsOf w 8 2 = 3 then s.modDet d i fun r => { r with env := 0, fresh := false } else s
  else s.wr d DET_N.N (bitsOf w 0 24) i

def execDetCfgWrite (d i r : Nat) (v : Word) (s : State) : Host.Outcome State Fault Refusal :=
  onPart d i 16 s (axisWrite d ((if r = 0 then DET_CFG.SRC else DET_N.N).addr 0 i 0) v (detCfgWrite i r v))

/-! The filter engine (R178 to R188) -/

/-- Length of the support in samples: the sum of L - 1 over the stages in use, plus 1 (R182, R184). -/
def FilSet.support (f : FilSet) : Nat :=
  1 + (if 1 ≤ f.stages then f.l1 else 0) + (if 2 ≤ f.stages then f.l2 else 0) + (if 3 ≤ f.stages then f.l3 else 0)

/-- One stage of length `l`: the history with the new input, and its moving average (R180). -/
def avgStage (l : Nat) (h : List Int) (x : Int) : List Int × Int :=
  let h := (x :: h).take l
  (h, rheDiv (h.foldl (fun a b => a + b) 0) h.length)

/-- The cascade takes one input (R180, R184). -/
def FilSlot.take (f : FilSlot) (x : Int) (clip sup nv : Bool) (st : Nat) : FilSlot :=
  let c := f.cur
  let p1 := if 1 ≤ c.stages then avgStage (c.l1 + 1) f.h1 x else (f.h1, x)
  let p2 := if 2 ≤ c.stages then avgStage (c.l2 + 1) f.h2 p1.2 else (f.h2, p1.2)
  let p3 := if 3 ≤ c.stages then avgStage (c.l3 + 1) f.h3 p2.2 else (f.h3, p2.2)
  let age := fun (m : Bool) (o : Option Nat) => if m then some 0 else o.map (fun a => a + 1)
  { f with h1 := p1.1, h2 := p2.1, h3 := p3.1, k := f.k + 1, clip := age clip f.clip, sup := age sup f.sup,
           nv := age nv f.nv, x := x, y := p3.2, at_ := st }

/-- A mark lies in the support of the latest output (R184). -/
def FilSlot.marked (f : FilSlot) (o : Option Nat) : Bool :=
  match o with | some a => decide (a < f.cur.support) | none => false

/-- Delivers the slot's cascade value as an output: FIL_OUT, its stamp, the count of unsettled outputs, and the detectors
that tap the slot's output (R181, R182, R184). -/
def filDeliver (d c : Nat) (uns : Bool) (s : State) : State :=
  let f := s.getFil d c
  let cl := f.marked f.clip
  let su := f.marked f.sup
  let nv := f.marked f.nv
  let s := ((s.wrI d FIL_OUT.VALUE f.y c).wr d FIL_OUT.UNS (b2n uns) c).wr d FIL_OUT.CLIP (b2n cl) c
  let s := ((s.wr d FIL_OUT.SUPPLY (b2n su) c).wr d FIL_OUT.NV (b2n nv) c).wr d FIL_OSTAMP.PT f.at_ c
  let s := if uns then s.wr d FIL_CFG.REMAIN (s.rd d FIL_CFG.REMAIN c - 1) c else s
  let fl := b2n uns + 2 * b2n cl + 4 * b2n su + 8 * b2n nv
  s.forEach (List.range 16) fun i s =>
    if s.bit d DET_CFG.TAP i && s.rd d DET_CFG.SRC i == c then detSample d i f.y fl f.at_ s else s

/-- The first strobe at or after tick `t` (R46). -/
def strobeAt (t : Nat) : Nat := (t + 249) / 250 * 250

/-- The ticks of the slot's restarts to come. -/
def FilSlot.dues (f : FilSlot) : List Nat :=
  f.applies.map (fun e => e.1) ++ f.muxes.map (fun e => e.1) ++ (match f.stepAt with | some t => [t] | none => [])

/-- A restart of the slot falls on the strobe at tick `t`, which reaches or passes a multiple of 250 (R46, R182). -/
def FilSlot.restartsAt (f : FilSlot) (t : Nat) : Bool := f.dues.any fun u => strobeAt u == t / 250 * 250

/-- The armed synchronising reset restarts slot `c` at the strobe of tick `t` (R186). -/
def State.syncsAt (s : State) (d c t : Nat) : Bool := s.getSync d == some (t / 250 * 250) && s.bitAt d FIL_SYNCMASK.MASK c

/-- Slot `c` restarts at the present strobe with settings `new` (R182): the output of the strobe's sample is delivered as
unsettled, the histories are cleared, and the partial windows of the detectors on its output are discarded (R192). -/
def filRestart (d c : Nat) (new : FilSet) (s : State) : State :=
  let total := (new.support + new.dm1) / (new.dm1 + 1)
  let s := filDeliver d c true s
  let s := s.wr d FIL_CFG.REMAIN (total - 1) c
  let s := s.modFil d c fun f =>
    { f with cur := new, h1 := [], h2 := [], h3 := [], k := 0, clip := none, sup := none, nv := none,
             fresh := false, restAt := some s.pt }
  s.forEach (List.range 16) fun i s =>
    if s.bit d DET_CFG.TAP i && s.rd d DET_CFG.SRC i == c then detDiscard d i s else s

/-- One strobe of slot `c` with the value it enters and its marks (R179 to R182): its detectors of TAP 0, the cascade, and an
output on every D-th strobe; at a restart strobe the output is left to the restart, but for the restart at the end of a die reset, which
takes place here. -/
def filStrobe (d c : Nat) (x : Int) (clip sup nv : Bool) (s : State) : State :=
  let s := s.modFil d c fun f => f.take x clip sup nv s.pt
  let fl := 2 * b2n clip + 4 * b2n sup + 8 * b2n nv
  let s := s.forEach (List.range 16) fun i s =>
    if !s.bit d DET_CFG.TAP i && s.rd d DET_CFG.SRC i == c then detSample d i x fl s.pt s else s
  let f := s.getFil d c
  if f.restartsAt s.pt || s.syncsAt d c s.pt then s
  else if f.fresh then filRestart d c f.cur s
  else if f.k % (f.cur.dm1 + 1) = 0 then
    filDeliver d c (decide (f.k < f.cur.support)) s
  else s

/-- The values that FIL_LEN, FIL_CFG and FIL_DEC hold for slot `c`. -/
def filRegs (s : State) (d c : Nat) : FilSet :=
  { stages := s.rd d FIL_CFG.STAGES c, l1 := s.rd d FIL_LEN.L1 c, l2 := s.rd d FIL_LEN.L2 c, l3 := s.rd d FIL_CFG.L3 c,
    dm1 := s.rd d FIL_DEC.DM1 c }

/-- Converter and input of slot `c`: (axis, Pj) or line input k, as a trim register field with its indices (R24). -/
def muxField (c : Nat) : Fld × Nat × Nat := if c < 48 then (ACQ_PTRIM.MUX, c / 6, c % 6 - 2) else (ACQ_LTRIM.MUX, c - 48, 0)

/-- The causes of restart of slot `c` that fall on the present strobe are taken as one: settings captured by the last APPLY among them,
or else the pending values where a synchronising reset, `sync`, is one of them; and the new input select (R171, R182, R187). -/
def filTake (d c : Nat) (sync : Bool) (s : State) : State :=
  let f := s.getFil d c
  let due := fun t => decide (strobeAt t ≤ s.pt)
  let ap := f.applies.filter fun e => due e.1
  let mx := f.muxes.filter fun e => due e.1
  let new := match ap.getLast? with | some e => e.2 | none => if sync then filRegs s d c else f.cur
  let dirty := if ap.isEmpty then f.dirty && !sync else f.dirty
  let s := filRestart d c new s
  let s := match mx.getLast? with | some e => s.modConv d c fun x => { x with mux := e.2 } | none => s
  let s := s.modFil d c fun f =>
    { f with applies := f.applies.filter (fun e => !due e.1), muxes := f.muxes.filter (fun e => !due e.1), dirty := dirty,
             stepAt := match f.stepAt with | some t => if due t then none else some t | none => none }
  s.wr d FIL_CFG.PEND (b2n (dirty || !(s.getFil d c).applies.isEmpty)) c

/-- The restart strobe of slot `c` (R182). -/
def filSlotRestart (d c : Nat) (s : State) : State :=
  match (s.getFil d c).dues with
  | [] => s
  | t :: ts =>
    let s := (s.passTo (ts.foldl min t)).toGrid 250
    filTake d c (s.syncsAt d c s.pt) s

def execFilSlotRestart (d c : Nat) (s : State) : Host.Outcome State Fault Refusal := onPart d c 64 s (filSlotRestart d c)

/-- APPLY captures the pending settings for a restart at the first strobe at least 2,500 tk after tick `t` (R185). -/
def filApply (c t d : Nat) (s : State) : State :=
  s.modFil d c fun f => { f with applies := f.applies ++ [(t + 2500, filRegs s d c)], dirty := false }

/-- FIL_CFG as it stands, with APPLY set. -/
def applyWord (s : State) (d c : Nat) : Word := BitVec.ofNat 32 (putBit (s.reg (FIL_CFG.L3.addr d c 0)).toNat 14 true)

def execFilApply (d c : Nat) (s : State) : Host.Outcome State Fault Refusal :=
  onPart d c 64 s fun s =>
    axisWrite d (FIL_CFG.L3.addr 0 c 0) (applyWord s d c) (fun e u => filApply c s.pt e (u.wr e FIL_CFG.PEND 1 c)) s

/-- A write of FIL_LEN (r = 0), FIL_CFG (r = 1) or FIL_DEC (r = 2) accepted at tick `t`: values held as pending, and APPLY
(R185). -/
def filPendWrite (c r : Nat) (v : Word) (t d : Nat) (s : State) : State :=
  let w := v.toNat
  let s := match r with
    | 0 => (s.wr d FIL_LEN.L1 (bitsOf w 0 12) c).wr d FIL_LEN.L2 (bitsOf w 16 12) c
    | 1 => (s.wr d FIL_CFG.L3 (bitsOf w 0 12) c).wr d FIL_CFG.STAGES (bitsOf w 12 2) c
    | _ => s.wr d FIL_DEC.DM1 (bitsOf w 0 16) c
  let s := (s.wr d FIL_CFG.PEND 1 c).modFil d c fun f => { f with dirty := true }
  if r = 1 ∧ bitOf w 14 then filApply c t d s else s

/-- GO arms the synchronising reset for the first strobe at or after FIL_SYNCPT, or, too late for that, at least 2,500 tk
after tick `t` with LATE and fil-config (R186, R187). -/
def filSyncGo (t d : Nat) (s : State) : State :=
  let e := strobeAt (s.rd d FIL_SYNCPT.PT)
  let s := s.wr d FIL_SYNCCTL.PEND 1
  if e < t + 2500 then
    ((s.wr d FIL_SYNCCTL.LATE 1).raise d 416 3 0).modSync d fun _ => some (strobeAt (t + 2500))
  else s.modSync d fun _ => some e

def execFilSyncGo (d : Nat) (s : State) : Host.Outcome State Fault Refusal :=
  onLive d s fun s => axisWrite d (FIL_SYNCCTL.GO.addr 0 0 0) 1 (filSyncGo s.pt) s

/-- At the armed strobe every masked slot that has not already restarted there restarts with its pending values (R186, R187). -/
def filSyncReset (d : Nat) (s : State) : State :=
  match s.getSync d with
  | none => s
  | some e =>
    let s := (s.passTo e).toGrid 250
    let s := (s.modSync d fun _ => none).wr d FIL_SYNCCTL.PEND 0
    s.forEach (List.range 64) fun c s =>
      if s.bitAt d FIL_SYNCMASK.MASK c && (s.getFil d c).restAt != some s.pt then filTake d c true s else s

def execFilSyncReset (d : Nat) (s : State) : Host.Outcome State Fault Refusal := onLive d s (filSyncReset d)

/-! Converters (R170 to R172) -/

/-- MUX 0b11 is taken as 0b10 (R171). -/
def muxTaken (v : Nat) : Nat := if v = 3 then 2 else v

/-- A change of the input select of converter `c` is accepted in the present state (R171). -/
def muxAllowed (s : State) (d c : Nat) : Bool :=
  if c < 48 then s.bit d PWM_CTRL.SAFE (c / 6)
  else !s.bit d LPT_CTRL.EN || s.rd d LPT_CTRL.SET != (c - 48) / 3

/-- A write of the trim register of converter `c` (ACQ_PTRIM or ACQ_LTRIM) accepted at tick `t` (R171, R188). -/
def acqMuxWrite (c : Nat) (v : Word) (t d : Nat) (s : State) : State :=
  let w := v.toNat
  let m := muxField c
  let g : Fld := { m.1 with lo := 0, w := 16 }
  let o : Fld := { m.1 with lo := 16, w := 12 }
  let s := (s.wr d g (bitsOf w 0 16) m.2.1 m.2.2).wr d o (bitsOf w 16 12) m.2.1 m.2.2
  let new := bitsOf w 28 2
  let old := s.rd d m.1 m.2.1 m.2.2
  if muxTaken new = muxTaken old then s.wr d m.1 new m.2.1 m.2.2
  else if muxAllowed s d c then
    (s.wr d m.1 new m.2.1 m.2.2).modFil d c fun f => { f with muxes := f.muxes ++ [(t + 2500, new)] }
  else s.raise d 401 3 c

/-- The converter is a phase or a line input. -/
def hasMux (c : Nat) : Bool := if c < 48 then 2 ≤ c % 6 else c < 54

def execAcqMuxWrite (d c : Nat) (v : Word) (s : State) : Host.Outcome State Fault Refusal :=
  onItem (s.hasDie d && hasMux c) s fun s =>
    if (s.getDie d).inReset then s
    else axisWrite d ((muxField c).1.addr 0 (muxField c).2.1 (muxField c).2.2) v (acqMuxWrite c v s.pt) s

/-- A trimmed sample of a phase or line converter is kept with its marks; the first clipped one sets CLIP and raises acq-clip
(R170, R172). -/
def acqSample (d c : Nat) (raw : Int) (supply : Bool) (s : State) : State :=
  let m := muxField c
  let gint := sgn 16 (s.rd d { m.1 with lo := 0, w := 16 } m.2.1 m.2.2)
  let oint := sgn 12 (s.rd d { m.1 with lo := 16, w := 12 } m.2.1 m.2.2)
  let y := trimmed raw (s.cal16 d (0x20 + 4 * c)) (s.cal16 d (0x22 + 4 * c)) oint gint
  let clip := isClipped y
  let s := s.modConv d c fun x => { x with raw := raw, y := y, clip := clip, supply := supply }
  if clip then
    if c < 48 then
      let n := c / 6
      let j := c % 6 - 2
      if bitOf (s.rd d ACQ_PSTAT.CLIP n) j then s
      else (s.wr d ACQ_PSTAT.CLIP (putBit (s.rd d ACQ_PSTAT.CLIP n) j true) n).raiseAx d n 18 3
    else if s.bitAt d ACQ_LSTAT.CLIP (c - 48) then s
    else (s.wrBit d ACQ_LSTAT.CLIP (c - 48) true).raise d 400 3 (c - 48)
  else s

/-- The SPD32 of the latest tracker update at or before tick `t`, with its status word (R179). -/
def speedAt (s : State) (d n t : Nat) : Option (Int × Nat) :=
  ((s.getTrk d n).hist.find? fun p => decide (p.u ≤ t)).map fun p => (p.spd, p.stat)

/-- One round of the filter engine at the present strobe (R178, R179). -/
def filterRound (d : Nat) (s : State) : State :=
  let s := s.forEach (List.range 54) fun c s =>
    let x := s.getConv d c
    filStrobe d c (x.y * 256) x.clip x.supply (hasMux c && x.mux != 0) s
  let s := s.forEach (List.range 8) fun n s =>
    match speedAt s d n (s.pt - 1500) with
    | some (v, st) => filStrobe d (54 + n) (satI 24 (rheDiv v 16)) (bitOf st 11) (bitOf st 12) (!bitOf st 0) s
    | none => filStrobe d (54 + n) 0 false false true s
  let s :=
    match (s.getLpt d).hist.find? fun p => decide (p.1 ≤ s.pt - 5000) with
    | some (_, f, _) => filStrobe d 62 f false false (!s.bit d LPT_STAT.LOCK) s
    | none => filStrobe d 62 0 false false (!s.bit d LPT_STAT.LOCK) s
  filStrobe d 63 (s.rdI d PWR_TEMP.TJ) false false (s.bit d PWR_TEMP.FAULT) s

/-! Window comparators (R173 to R177) -/

/-- The comparator register of a side. -/
def cmpThr (up : Bool) : Fld := if up then ACQ_CMPU.THR else ACQ_CMPL.THR
def cmpFunc (up : Bool) : Fld := if up then ACQ_CMPU.FUNC else ACQ_CMPL.FUNC
def cmpOut (up : Bool) : Fld := if up then ACQ_PSTAT.OUTU else ACQ_PSTAT.OUTL

/-- A comparator of axis `n` that has asserted in trip use has not fallen since. -/
def anyTrip (s : State) (d n : Nat) : Bool :=
  (List.range 4).any fun j => (s.getConv d (6 * n + 2 + j)).tripU || (s.getConv d (6 * n + 2 + j)).tripL

/-- Marks the upper or lower comparator of Pj of axis `n` as asserted, or not, in trip use. -/
def setTrip (d n j : Nat) (up v : Bool) (s : State) : State :=
  s.modConv d (6 * n + 2 + j) fun x => if up then { x with tripU := v } else { x with tripL := v }

/-- Vth in 2^-10 mV, the unit of the comparators' input voltages (R173). -/
def cmpVth (s : State) (d n j : Nat) (up : Bool) : Int := ((s.rd d (cmpThr up) n j : Int) - 2048) * 1000

/-- Vh in 2^-10 mV: 0, 4, 8 or 16 mV (R173). -/
def cmpVh (s : State) (d n j : Nat) (up : Bool) : Int :=
  match s.rd d { cmpThr up with lo := 12, w := 2 } n j with | 0 => 0 | 1 => 4096 | 2 => 8192 | _ => 16384

/-- Input voltage `x` makes the comparator's output rise (R173). -/
def cmpRises (s : State) (d n j : Nat) (up : Bool) (x : Int) : Bool :=
  if up then decide (cmpVth s d n j up < x) else decide (x < cmpVth s d n j up)

/-- Input voltage `x` makes the comparator's output fall (R173). -/
def cmpFalls (s : State) (d n j : Nat) (up : Bool) (x : Int) : Bool :=
  if up then decide (x < cmpVth s d n j up - cmpVh s d n j up) else decide (cmpVth s d n j up + cmpVh s d n j up < x)

/-- What the rise of the output of a comparator does (R174, R175, R177, R263). -/
def comparatorRise (d n j : Nat) (up : Bool) (s : State) : State :=
  let func := s.rd d (cmpFunc up) n j
  let set := fun s : State => s.wr d (cmpOut up) (putBit (s.rd d (cmpOut up) n) j true) n
  match func with
  | 0 => s
  | 1 =>
    let f := if up then ACQ_PSTAT.CROSSU else ACQ_PSTAT.CROSSL
    ((set s).wr d f (putBit (s.rd d f n) j true) n).raiseAx d n 19 3
  | 2 => fastAct d n j (set (s.settleAxis d n))
  | _ =>
    let was := anyTrip s d n
    let s := (setTrip d n j up true (set s)).wrBit d (if up then ACQ_TRIPU.TRIP else ACQ_TRIPL.TRIP) (4 * n + j) true
    let s := if s.owns d n then (s.modPwm d n fun r => { r with trip := true }).refreshAxis d n else s
    if was then s else s.raiseAx d n 17 1

/-- The voltage at the ball of Pj of axis `n` is now `x`, in 2^-10 mV: where it passes the threshold of the upper or lower comparator,
whose output is low, the output rises (R173, R174). -/
def comparatorAssert (d n j : Nat) (up : Bool) (x : Int) (s : State) : State :=
  if bitOf (s.rd d (cmpOut up) n) j || !cmpRises s d n j up x then s else comparatorRise d n j up s

def execComparatorAssert (d n j : Nat) (e : CmpEvent) (s : State) : Host.Outcome State Fault Refusal :=
  onItem (s.hasDie d && n < 8 && j < 4) s fun s => if (s.getDie d).inReset then s else comparatorAssert d n j e.up e.x s

/-- The voltage is now `x`: where it is back past the hysteresis the output falls (R173); the fast path takes the demand that is then left
(R263), and the last trip comparator of the axis to fall ends acq-trip's condition (R288). -/
def comparatorDeassert (d n j : Nat) (up : Bool) (x : Int) (s : State) : State :=
  if !bitOf (s.rd d (cmpOut up) n) j || !cmpFalls s d n j up x then s
  else
    let was := anyTrip s d n
    let s := s.settleAxis d n
    let s := setTrip d n j up false (s.wr d (cmpOut up) (putBit (s.rd d (cmpOut up) n) j false) n)
    let s := if s.rd d (cmpFunc up) n j = 2 then fastAct d n j s else s
    if was && !anyTrip s d n then s.raiseAx d n 17 2 else s

def execComparatorDeassert (d n j : Nat) (e : CmpEvent) (s : State) : Host.Outcome State Fault Refusal :=
  onItem (s.hasDie d && n < 8 && j < 4) s fun s => if (s.getDie d).inReset then s else comparatorDeassert d n j e.up e.x s

/-- A write of ACQ_CMPU or ACQ_CMPL of Pj of axis `n` (R174, R176): under FUNC 0b10 the threshold is the band unit's; a
change into or out of 0b10 or 0b11 needs the axis safe; a refusal raises acq-config. -/
def acqCmpWrite (n j : Nat) (up : Bool) (v : Word) (d : Nat) (s : State) : State :=
  let w := v.toNat
  let old := s.rd d (cmpFunc up) n j
  let new := bitsOf w 16 2
  let thr := bitsOf w 0 12
  let hys := { cmpThr up with lo := 12, w := 2 }
  let was := anyTrip s d n
  let bandThr := old == 2 && s.rd d (cmpThr up) n j != thr
  let funcBad := old != new && (2 ≤ old || 2 ≤ new) && !s.bit d PWM_CTRL.SAFE n
  let s := if old = 2 then s else s.wr d (cmpThr up) thr n j
  let s := s.wr d hys (bitsOf w 12 2) n j
  let s :=
    if funcBad ∨ old = new then s
    else
      let s := setTrip d n j up false (s.wr d (cmpFunc up) new n j)
      let s := if new = 0 then s.wr d (cmpOut up) (putBit (s.rd d (cmpOut up) n) j false) n else s
      judgeFast d n false s
  let s := if was && !anyTrip s d n then s.raiseAx d n 17 2 else s
  if bandThr || funcBad then s.raise d 401 3 (n * 4 + j) else s

def execAcqCmpWrite (d n j : Nat) (up : Bool) (v : Word) (s : State) : Host.Outcome State Fault Refusal :=
  onItem (s.hasDie d && n < 8 && j < 4) s fun s =>
    if (s.getDie d).inReset then s else axisWrite d ((cmpThr up).addr 0 n j) v (acqCmpWrite n j up v) s

/-! The line-phase tracker (R194 to R196) -/

/-- The line samples of one strobe enter the means of the line-phase tracker (R194). -/
def lptSample (d : Nat) (s : State) : State :=
  if s.bit d LPT_CTRL.EN then
    let b := 48 + 3 * s.rd d LPT_CTRL.SET
    let y := fun k => (s.getConv d (b + k)).y
    s.modLpt d fun r => { r with s0 := r.s0 + y 0, s1 := r.s1 + y 1, s2 := r.s2 + y 2, n := r.n + 1 }
  else s

/-- 1 / √3, to 30 digits. -/
def invSqrt3 : Rat := 577350269189625764509148780502 / 1000000000000000000000000000000

/-- The vector of the three means (R194). -/
def lptVector (conn : Bool) (v0 v1 v2 : Rat) : Rat × Rat :=
  if conn then ((v0 - v2) / 3, v1 * invSqrt3) else ((2 * v0 - v1 - v2) / 3, (v1 - v2) * invSqrt3)

/-- The tick since which a condition has held. -/
def since (b : Bool) (o : Option Nat) (t : Nat) : Option Nat := if b then some (o.getD t) else none

/-- The bandwidth of the line-phase tracker in Hz for code `bw`: 5, 10, 20 or 40 Hz, within ±10 % (R194). -/
def lptHz (bw : Nat) : Rat := (5 * 2 ^ bw : Nat) * clampQ (9 / 10) (11 / 10) (Config.lptBand bw)

/-- Gains of the loop per unit of vq / A at each update: phase in turns, √2 ωn T / 2π, and frequency in Hz, ωn² T / 2π, where the damping
1 / √2 puts the -3 dB bandwidth at ωn √(2 + √5) (R194; the damping is a DESIGN CHOICE, log entry 12). -/
def lptKp (bw : Nat) : Rat := lptHz bw * 687121499 / 1000000000 / 100000
def lptKi (bw : Nat) : Rat := 2 * piQ * lptHz bw * lptHz bw * 236067977 / 1000000000 / 100000

/-- An update of the line-phase tracker at a multiple of 25,000 tk (R194, R195). -/
def lptUpdate (d : Nat) (s : State) : State :=
  let s := s.toNext (State.stepNo 3 d 0) 25000
  let r := s.getLpt d
  if !s.bit d LPT_CTRL.EN || r.n == 0 then s
  else
    let m := fun x : Int => (x : Rat) / (r.n : Nat)
    let (al, be) := lptVector (s.bit d LPT_CTRL.CONN) (m r.s0) (m r.s1) (m r.s2)
    let a2 := al * al + be * be
    let a : Rat := (isqrt (floorQ (a2 * 1099511627776)).toNat : Rat) / 1048576
    let bw := s.rd d LPT_CTRL.BW
    let tenUs : Rat := 1 / 100000
    let pre : Rat := (r.th : Rat) + r.f * tenUs * 1099511627776
    let vqAt := fun th : Int => (-(al * sin30 th) + be * cos30 th) / 1073741824
    let due := r.snap.filter fun x => decide (x.1 + 400000 ≤ s.pt) && s.rd d PAIR_STAT.RESYNC == 2
    let ((th, f), s) : (Int × Rat) × State :=
      if let some x := due then
        let (p, s) := s.near ((x.2.1 : Rat) + x.2.2 * ((s.pt - x.1 : Nat) : Rat) * 4 / 10000000000 * 1099511627776)
        ((p, x.2.2), s)
      else if r.preset then ((atan40 (rheQ (be * 1048576)) (rheQ (al * 1048576)), if s.bit d LPT_CTRL.NOM then 60 else 50), s)
      else
        let (p, s) := s.near pre
        if r.hold || a == 0 then ((p, r.f), s)
        else
          let e := vqAt p / a
          let (t, s) := s.near ((p : Rat) + lptKp bw * e * 1099511627776)
          ((t, clampQ 15 70 (r.f + lptKi bw * e)), s)
    let vq := vqAt th
    let clamped := f == 15 || f == 70
    let alo : Rat := s.rd d LPT_CTRL.ALO
    let low := decide (a2 < alo * alo)
    let ok := !low && decide (vq * vq * 2500 ≤ a2) && !clamped
    let s := s.modLpt d fun r =>
      { r with s0 := 0, s1 := 0, s2 := 0, n := 0, th := sgn 40 (enc 40 th), preset := false,
               snap := if due.isSome then none else r.snap,
               okAt := since ok r.okAt s.pt, lowAt := since low r.lowAt s.pt,
               vqAt := since (decide (a2 < vq * vq * 100)) r.vqAt s.pt, clAt := since clamped r.clAt s.pt }
    let (ph, s) := s.near (((th : Rat) + f * 495 / 100000000 * 1099511627776) / 256)
    let (fr, s) := s.near (f * 65536)
    let (am, s) := s.near a
    let k := rheQ (s.lineAt d s.pt - ((enc 32 ph : Nat) : Rat) / 4294967296)
    let s := s.modLpt d fun r => { r with f := f, turns := k }
    let s := ((s.wr d LPT_PHASE.PHASE (enc 32 ph)).wrI d LPT_FREQ.FREQ fr).wr d LPT_STAMP.PT s.pt
    let s := ((s.wr d LPT_STAT.FCLAMP (b2n clamped)).wr d LPT_STAT.ALOW (b2n low)).wr d LPT_STAT.AMPL (min am.toNat 65535)
    let s := s.modLpt d fun r => { r with hist := ((s.pt, fr, s.bit d LPT_STAT.LOCK) :: r.hist).take 2 }
  if due.isSome then itemApplied d 56 s else s

def execLptUpdate (d : Nat) (s : State) : Host.Outcome State Fault Refusal := onLive d s (lptUpdate d)

/-- The lock conditions have been met for 20 ms (R195). -/
def lptLock (d : Nat) (s : State) : State :=
  match (s.getLpt d).okAt with
  | some t =>
    if s.bit d LPT_CTRL.EN then
      detStale d (((s.passTo (t + 50000000)).wr d LPT_STAT.LOCK 1).modLpt d fun r => { r with hold := false })
    else s
  | none => s

def execLptLock (d : Nat) (s : State) : Host.Outcome State Fault Refusal := onLive d s (lptLock d)

/-- A low amplitude for 1 ms, a large vq for 5 ms or a clamped frequency for 20 ms: LOCK := 0, f held, line-unlock (R195). -/
def lptUnlock (d : Nat) (s : State) : State :=
  let r := s.getLpt d
  let add := fun (k : Nat) (o : Option Nat) => match o with | some t => [t + k] | none => []
  match add 2500000 r.lowAt ++ add 12500000 r.vqAt ++ add 50000000 r.clAt with
  | [] => s
  | t :: ts =>
    if s.bit d LPT_STAT.LOCK then
      let s := ((s.passTo (ts.foldl min t)).wr d LPT_STAT.LOCK 0).modLpt d fun r => { r with hold := true }
      (detStale d s).raise d 417 3 0
    else s

def execLptUnlock (d : Nat) (s : State) : Host.Outcome State Fault Refusal := onLive d s (lptUnlock d)

/-- A write of LPT_CTRL: EN from 0 to 1, or a change of SET, CONN or NOM while enabled, starts a new acquisition; until its first update
consumers read on from the latest one (R195, R196). -/
def lptCtrlWrite (v : Word) (d : Nat) (s : State) : State :=
  let w := v.toNat
  let key := fun s : State => (s.rd d LPT_CTRL.SET, s.rd d LPT_CTRL.CONN, s.rd d LPT_CTRL.NOM)
  let old := key s
  let en := s.bit d LPT_CTRL.EN
  let s := ((s.wr d LPT_CTRL.EN (bitsOf w 0 1)).wr d LPT_CTRL.SET (bitsOf w 1 1)).wr d LPT_CTRL.CONN (bitsOf w 2 1)
  let s := ((s.wr d LPT_CTRL.NOM (bitsOf w 3 1)).wr d LPT_CTRL.BW (bitsOf w 4 2)).wr d LPT_CTRL.ALO (bitsOf w 16 16)
  if bitOf w 0 && (!en || decide (key s ≠ old)) then
    detStale d ((s.wr d LPT_STAT.LOCK 0).modLpt d fun r => { f := r.f, turns := r.turns, hist := r.hist })
  else s

def execLptCtrlWrite (d : Nat) (v : Word) (s : State) : Host.Outcome State Fault Refusal :=
  onLive d s (axisWrite d (LPT_CTRL.EN.addr 0 0 0) v (lptCtrlWrite v))

/-- A read of LPT_PHASE latches LPT_FREQ, LPT_STAT and LPT_STAMP of the same update (R196). -/
def lptPhaseRead (d : Nat) (s : State) : State :=
  let a := LPT_PHASE.PHASE.addr d 0 0
  ((s.latchWords (a - 4) 1).latchWords (a + 4) 3).answer (s.reg a).toNat

def execLptPhaseRead (d : Nat) (s : State) : Host.Outcome State Fault Refusal := onLive d s (lptPhaseRead d)

end Sys2Proof.Machine
end

