-- ==== Sys2Proof/Machine/Strobe.lean ====
section
/-!
DEFINITION. The convert strobe: what every converter, DAC and per-sample unit of the package does on a multiple of 250 tk
(R46, R63 to R65, R79 to R88, R170 to R194, R261, R267, R294).
-/

namespace Sys2Proof.Machine

/-- A dip is in progress on the die: its samples carry the supply mark (R447, R448). -/
def State.supplyMark (s : State) (d : Nat) : Bool := s.bit d PWR_STAT.DIP

/-- The trimmed SIN or COS sample of converter `c` with its marks (R79, R82, R83). -/
def exSample (d c : Nat) (raw : Int) (s : State) : State :=
  let n := c / 6
  let sin := c % 6 = 0
  let g := if sin then s.rdI d EXC_STRIM.GAIN n else s.rdI d EXC_CTRIM.GAIN n
  let o := if sin then s.rdI d EXC_STRIM.OFS n else s.rdI d EXC_CTRIM.OFS n
  let y := trimmed raw (s.cal16 d (0x20 + 4 * c)) (s.cal16 d (0x22 + 4 * c)) o g
  let clip := isClipped y
  let s := s.modConv d c fun x => { x with raw := raw, y := y, clip := clip, supply := s.supplyMark d }
  s.modExc d n fun x => if sin then { x with sclip := x.sclip || clip } else { x with cclip := x.cclip || clip }

/-- The vector of the reading copy grows by one strobe, on the fixed carrier phase of the option area (R60, R61). -/
def rcStrobe (d n : Nat) (s : State) : State :=
  let pe : Int := ((s.getExc d n).acc * 256 : Nat)
  let ref := cos30 (pe + sgn 16 (s.opt d 0x22 2) * 16777216)
  let si := (s.getConv d (6 * n)).y
  let co := (s.getConv d (6 * n + 1)).y
  s.modEnc d n fun x => { x with rcS := x.rcS + si * ref, rcC := x.rcC + co * ref, rcN := x.rcN + 1 }

/-- One strobe of axis `n`'s excitation, resolver inputs, pilot and tracker. -/
def axisStrobe (d n : Nat) (code : Nat → Int) (s : State) : State :=
  let s := excStrobe d n s
  let s := exSample d (6 * n + 1) (code (6 * n + 1)) (exSample d (6 * n) (code (6 * n)) s)
  if s.rcPhase d then rcStrobe d n s
  else
    let si := s.getConv d (6 * n)
    let co := s.getConv d (6 * n + 1)
    let t := s.getTrk d n
    let th := t.th + rheQ (advance t.w ((s.pt : Int) - s.rd d TRK_STAMP.PT n))
    let s := pilotUpdate d n si.y co.y th s
    trkStrobe d n si.y co.y (si.clip || co.clip) (si.supply || co.supply) s

/-- The numbers of the phase and line converters (R24). -/
def muxConvs : List Nat := (List.range 54).filter hasMux

/-- The strobe on die `d`; `code c` is what converter `c` finds at its input. -/
def dieStrobe (d : Nat) (code : Nat → Int) (s : State) : State :=
  if s.rd d GLB_PHASE.PHASE < 2 then s
  else
    let s := s.forEach (List.range 8) fun n s => axisStrobe d n code s
    if s.rcPhase d then s
    else
      let s := s.forEach muxConvs fun c s => acqSample d c (code c) (s.supplyMark d) s
      let s := filterRound d (lptSample d s)
      s.forEach (List.range 8) fun n s => bandStrobe d n s

/-- The held safe states of the driving mate are refreshed on the other mate; a state the driver itself holds for its mate
ends when that mate releases it, unless the mate has been reset or out of reach (R294). -/
def safeRefresh (d : Nat) (s : State) : State :=
  if s.divided d then s
  else
    let m := mateOf d
    if !s.bridgeUp d then if s.activeOf d = d then s.modPair d fun p => { p with heldLost := true } else s
    else
      let ax := s.rd m FLT_REACT.AXSAFE
      let die := s.rd m FLT_REACT.DIESAFE
      let lost := (s.getPair d).heldLost
      let (a, b, lost) :=
        if s.activeOf d != d then (ax, die, false)
        else if lost then (s.rd d FLT_REACT.MAXSAFE, s.rd d FLT_REACT.MDIESAFE, true)
        else (s.rd d FLT_REACT.MAXSAFE &&& ax, min (s.rd d FLT_REACT.MDIESAFE) die, false)
      if s.rd d FLT_REACT.MAXSAFE = a ∧ s.rd d FLT_REACT.MDIESAFE = b then s.modPair d fun p => { p with heldLost := lost }
      else
        let s := (((s.holdBalls (d / 2)).wr d FLT_REACT.MAXSAFE a).wr d FLT_REACT.MDIESAFE b).modPair d fun p => { p with heldLost := lost }
        emuShowAll d (s.refreshDie d)

/-- The convert strobe at the next multiple of 250 tk, or on the tick at which a slew tick has passed one (R46). `codes` lists, for die d
and converter c, at d·54 + c, what the converter finds at its input; a code not listed is 0. -/
def convertStrobe (codes : List Int) (s : State) : State :=
  let s := if s.strobeAt = some s.pt then { s with strobeAt := none }.occurs 0 else s.toNext 0 250
  let s := s.forEach s.liveDies fun d s => dieStrobe d (fun c => satI 16 (codes.getD (d * 54 + c) 0)) s
  let s := s.forEach s.liveDies fun d s =>
    if 5 ≤ s.rd d GLB_PHASE.PHASE then s.forEach (List.range 8) fun n s => if s.bandRuns d n then standbyLegCopy d n s else s
    else s
  s.forEach s.liveDies fun d s => safeRefresh d s

def execConvertStrobe (codes : List Int) (s : State) : Host.Outcome State Fault Refusal := onPackage s (convertStrobe codes)

end Sys2Proof.Machine
end

