-- ==== Sys2Proof/Machine/LawOps.lean ====
section
/-!
DEFINITION. The law operators: block-floating vectors, slot records, coefficients in force, and what each operator computes
(R200 to R203, R213 to R217, R223 to R251).
-/

namespace Sys2Proof.Machine

/-! Block-floating vectors -/

/-- An operator output: mantissas, exponent, and flags as bits 0 OVF, 1 UNS, 2 CLIP, 3 SUPPLY, 4 NV (R213, R215). -/
structure Vec where
  m : List Int
  e : Int
  fl : Nat
  deriving DecidableEq, Repr

/-- The zero vector (R202). -/
def zeroVec : Vec := { m := [], e := -32, fl := 0 }

/-- Lane `j` of a vector as a number; a lane it does not have is 0 (R6, R224). -/
def Vec.lane (v : Vec) (j : Nat) : Rat := (v.m.getD j 0 : Rat) * pow2 (v.e - 15)

/-- Lane `j`, a 1-lane vector being broadcast. -/
def Vec.laneB (v : Vec) (j : Nat) : Rat := if v.m.length = 1 then v.lane 0 else v.lane j

/-- The four data flags: OVF is each operator's own (R215). -/
def Vec.data (v : Vec) : Nat := v.fl / 2 * 2

/-- Least mantissa and exponent ceiling of the mode (R213). -/
def mLeast (split : Bool) : Int := if split then -32768 else -32767
def eCeil (split : Bool) : Int := if split then 31 else 28

/-- Mantissas of the lanes at exponent `e` (R214). -/
def mantsAt (lanes : List Rat) (e : Int) : List Int := lanes.map fun r => rheQ (r * pow2 (15 - e))

/-- All mantissas fit the mode's range. -/
def fits (split : Bool) (ms : List Int) : Bool := ms.all fun m => mLeast split ≤ m && m ≤ 32767

/-- The smallest exponent from `e` on, of `k` further ones, at which all lanes fit (R214). -/
def smallestE (split : Bool) (lanes : List Rat) : Nat → Int → Option Int
  | 0, e => if fits split (mantsAt lanes e) then some e else none
  | k + 1, e => if fits split (mantsAt lanes e) then some e else smallestE split lanes k (e + 1)

/-- Lanes rounded once into an output (R214); `fixed` is the exponent of FIXE = 1. -/
def encodeVec (split : Bool) (fixed : Option Int) (lanes : List Rat) (fl : Nat) : Vec :=
  let ceil := eCeil split
  let sat := fun e : Int =>
    let ms := mantsAt lanes e
    { m := ms.map (clampI (mLeast split) 32767), e := e, fl := fl / 2 * 2 + b2n (!fits split ms) : Vec }
  match fixed with
  | some e => sat e
  | none => match smallestE split lanes (ceil + 32).toNat (-32) with
    | some e => { m := mantsAt lanes e, e := e, fl := fl / 2 * 2 }
    | none => sat ceil

/-! Slot records -/

namespace State

/-- Split mode of the die's engine (R198). -/
def lawSplit (s : State) (d : Nat) : Bool := s.bit d LAW_CFG.MODE

/-- Slots per axis (R200). -/
def lawSlots (s : State) (d : Nat) : Nat := if s.divided d then 96 else 48

/-- Word number of word `w` of slot `i` of axis `n` (R200). -/
def slotWord (s : State) (d n i w : Nat) : Nat := ((if s.divided d then n % 4 * 96 else n * 48) + i) * 32 + w

/-- Word `w` of slot `i` of axis `n`. -/
def sw (s : State) (d n i w : Nat) : Nat := (s.getPm d (s.slotWord d n i w)).toNat

/-- A word of two 16-bit lanes negated, and a word whose exponent field from bit `b` is raised by 3 (R314). -/
def negLanes (v : Nat) : Nat := enc 16 (-(sgn 16 v)) + 65536 * enc 16 (-(sgn 16 (v / 65536)))
def raiseE (b v : Nat) : Nat := v - bitsOf v b 6 * 2 ^ b + (bitsOf v b 6 + 3) % 64 * 2 ^ b

/-- State word `w` of an operator in the transformed encoding: mantissas negated and exponents raised by 3; flags and counts stay as they
are (R314, log entry 25). -/
def twinWord (op w v : Nat) : Nat :=
  match op with
  | 1 => if w = 20 then raiseE 0 v else if w < 25 then negLanes v else v
  | 3 | 4 => if w < 24 then enc 32 (-(sgn 32 v)) else if w = 24 then raiseE 0 v else v
  | 11 => if w = 20 then v else if w = 23 ∨ w = 26 then raiseE 0 v else negLanes v
  | 13 => if 24 ≤ w ∧ w < 26 then raiseE 16 (enc 16 (-(sgn 16 v)) + v / 65536 * 65536) else v
  | _ => v

/-- Brings the second run's copy of the word at index `x` of program memory to the first run's (R314, R319). -/
def twinPut (s : State) (d x : Nat) : State :=
  let w := x % 32
  if s.lawSplit d ∨ w < 20 ∨ 26 < w then s
  else s.modTwin d x fun _ => BitVec.ofNat 32 (twinWord ((s.getPm d (x - w)).toNat % 32) w (s.getPm d x).toNat)

/-- Writes word `w` of slot `i`; a state word is written in both runs' copies. -/
def setSw (s : State) (d n i w v : Nat) : State :=
  (s.modPm d (s.slotWord d n i w) fun _ => BitVec.ofNat 32 v).twinPut d (s.slotWord d n i w)

/-- Descriptor fields (R202). -/
def slotOp (s : State) (d n i : Nat) : Nat := s.sw d n i 0 % 32
def slotLanes (s : State) (d n i : Nat) : Nat := bitsOf (s.sw d n i 0) 8 3 + 1
def slotIn (s : State) (d n i k : Nat) : Nat := bitsOf (s.sw d n i 1) (8 * k) 8
def slotFixed (s : State) (d n i : Nat) : Option Int :=
  if bitOf (s.sw d n i 0) 12 then some (sgn 6 (bitsOf (s.sw d n i 0) 16 6)) else none

/-- Four mantissa words from word `w` on as mantissas. -/
def mantWords (s : State) (d n i w k : Nat) : List Int :=
  (List.range k).map fun j => sgn 16 (bitsOf (s.sw d n i (w + j / 2)) (16 * (j % 2)) 16)

/-- The output record of slot `i` (R223). -/
def slotOut (s : State) (d n i : Nat) : Vec :=
  let h := s.sw d n i 27
  { m := s.mantWords d n i 28 (bitsOf h 8 3 + 1), e := sgn 6 h, fl := bitsOf h 16 5 }

/-- Input `k` of slot `i` (R203, R224): of this run from an earlier slot, of the previous run from the slot itself or a later
one, a zero vector before the first run and for 0xFF. -/
def slotVec (s : State) (d n i k : Nat) : Vec :=
  let j := s.slotIn d n i k
  if j = 0xFF ∨ (i ≤ j ∧ (s.getLaw d n).first) then zeroVec else s.slotOut d n j

/-- Writes mantissas as two 16-bit lanes a word, from word `w` on, `k` words. -/
def putMants (s : State) (d n i w k : Nat) (m : List Int) : State :=
  s.forEach (List.range k) fun q s => s.setSw d n i (w + q) (enc 16 (m.getD (2 * q) 0) + 65536 * enc 16 (m.getD (2 * q + 1) 0))

/-- Writes a vector in the form of words 27 to 31, from word `w` on, with `k` mantissa words (R223). -/
def putVec (s : State) (d n i w k : Nat) (v : Vec) : State :=
  let h := enc 6 v.e + 256 * ((v.m.length - 1) % 8) + 65536 * (v.fl % 32) + 16777216 * (s.rd d LAW_RUNCNT.COUNT n % 256)
  (s.setSw d n i w h).putMants d n i (w + 1) k v.m

/-- law-config once in the run (R216, R237). -/
def lawConfig (s : State) (d n : Nat) : State :=
  if (s.getLaw d n).cfg then s else (s.modLaw d n fun x => { x with cfg := true }).raise d 432 3 n

/-- law-overflow once in the run, with LAW_FLAGS.OVF (R214). -/
def lawOverflow (s : State) (d n : Nat) : State :=
  let s := s.wrBit d LAW_FLAGS.OVF n true
  if (s.getLaw d n).ovf then s else (s.modLaw d n fun x => { x with ovf := true }).raiseAx d n 21 3

/-- Writes the output record of slot `i`. -/
def putOut (s : State) (d n i : Nat) (v : Vec) : State :=
  let s := s.putVec d n i 27 4 v
  if v.fl % 2 = 1 then s.lawOverflow d n else s

/-- Rounds lanes into the output of slot `i` (R214); `own` adds OVF of the operator's own (R226). -/
def emit (s : State) (d n i : Nat) (lanes : List Rat) (fl : Nat) (own : Bool := false) : State :=
  let v := encodeVec (s.lawSplit d) (s.slotFixed d n i) lanes fl
  s.putOut d n i { v with fl := v.fl ||| b2n own }

/-! Coefficients (R216, R217, R227) -/

/-- A BFV coefficient word: above the ceiling it saturates there, and in checked mode mantissa -32,768 is taken as -32,767;
either is told (R216). -/
def coefVal (split : Bool) (w : Nat) : Rat × Bool :=
  let m := sgn 16 w
  let e := sgn 6 (w / 65536)
  if eCeil split < e then
    ((if m = 0 then 0 else if 0 < m then (32767 : Rat) else (mLeast split : Rat)) * pow2 (eCeil split - 15), true)
  else if !split && m == -32768 then (-32767 * pow2 (e - 15), true)
  else ((m : Rat) * pow2 (e - 15), false)

/-- The words of coefficient `k` in force: of the bank named by ACT, and of the target bank in a fade (R217, R227). -/
def coefWords (s : State) (d n i k : Nat) : Nat × Option Nat :=
  let word := fun b : Nat => s.sw d n i (4 + 8 * b + k)
  let act := s.rd d LAW_BANK.ACT n
  let x := s.getLaw d n
  (word act, if 0 < x.fadeLen ∧ 0 < x.fadeK then some (word x.target) else none)

/-- The weight w of the new bank in a fade (R219). -/
def fadeW (x : LawAx) : Rat := (min x.fadeK x.fadeLen : Nat) / (x.fadeLen : Nat)

/-- Coefficient `k` of slot `i` as a number (R216, R227). -/
def coef (s : State) (d n i k : Nat) : Rat × State :=
  let sp := s.lawSplit d
  let x := s.getLaw d n
  match s.coefWords d n i k with
  | (a, none) =>
    let (v, bad) := coefVal sp a
    (v, if bad then s.lawConfig d n else s)
  | (a, some b) =>
    let (va, ba) := coefVal sp a
    let (vb, bb) := coefVal sp b
    let v := encodeVec sp none [va + fadeW x * (vb - va)] 0
    (v.lane 0, if ba || bb then s.lawConfig d n else s)

/-- Coefficient `k` as an integer: its new value from the first run of the fade with 2k at least FADE (R227). -/
def coefInt (s : State) (d n i k : Nat) : Nat :=
  let x := s.getLaw d n
  match s.coefWords d n i k with
  | (a, none) => a
  | (a, some b) => if x.fadeLen ≤ 2 * x.fadeK then b else a

/-- Coefficient `k` as an angle offset in 2^-32 rev (R227, R229). -/
def coefAngle (s : State) (d n i k : Nat) : Nat :=
  let x := s.getLaw d n
  match s.coefWords d n i k with
  | (a, none) => a
  | (a, some b) => enc 32 ((a : Int) + rheQ ((sgn 32 (enc 32 ((b : Int) - a)) : Rat) * fadeW x))

/-! Extended state words (R226) -/

/-- Lane `j` of the extended form in words 20 to 23 with its exponent in word 24. -/
def ext (s : State) (d n i j : Nat) : Rat := (sgn 32 (s.sw d n i (20 + j)) : Rat) * pow2 (sgn 6 (s.sw d n i 24) - 31)

end State

/-- Every value fits a 32-bit mantissa at exponent `e`, whichever neighbour it is kept to. -/
def extFits (vs : List Rat) (e : Int) : Bool :=
  vs.all fun v =>
    let x := v * pow2 (31 - e)
    decide (-2147483648 ≤ floorQ x ∧ x ≤ 2147483647)

/-- The smallest exponent from `e` on that holds every lane. -/
def extE (vs : List Rat) : Nat → Int → Option Int
  | 0, e => if extFits vs e then some e else none
  | k + 1, e => if extFits vs e then some e else extE vs k (e + 1)

/-- Stores up to four lanes in the extended form; true where a lane saturated (R226). -/
def extPut (d n i : Nat) (vs : List Rat) (s : State) : Bool × State :=
  let ceil := eCeil (s.lawSplit d)
  let (e, sat) := match extE vs (ceil + 32).toNat (-32) with | some e => (e, false) | none => (ceil, true)
  let s := s.setSw d n i 24 (enc 6 e)
  let s := (vs.foldl (fun (p : State × Nat) v =>
    let (m, t) := p.1.near (v * pow2 (31 - e))
    (t.setSw d n i (20 + p.2) (enc 32 (clampI (-2147483648) 2147483647 m)), p.2 + 1)) (s, 0)).1
  (sat, s)

/-- A result known to 32 significant bits: a free number that near to `r` (R214, R231; log entry 11). -/
def State.fuzz (s : State) (r : Rat) : Rat × State :=
  if r = 0 then (0, s)
  else (r * (1 + (((s.free % 1048577 : Nat) : Rat) - 524288) / 2251799813685248), s.drew)

/-- Every lane known to 32 significant bits. -/
def State.fuzzAll (s : State) (rs : List Rat) : List Rat × State :=
  rs.foldl (fun p r => let (x, t) := p.2.fuzz r; (p.1 ++ [x], t)) ([], s)

/-- Sine of `x` rev to 2^-40. -/
def sinRev (x : Rat) : Rat :=
  let th := rheQ ((x - floorQ x) * 1099511627776)
  let v := enc 40 th
  let r := v % 2 ^ 38
  let q := fun r : Nat =>
    let y : Rat := ((r : Nat) : Rat) / 1099511627776 * 2 * piQ
    (rheQ (sinSum (y * y) 10 1 y * 1099511627776) : Rat) / 1099511627776
  match v / 2 ^ 38 with
  | 0 => q r
  | 1 => q (2 ^ 38 - r)
  | 2 => -q r
  | _ => -q (2 ^ 38 - r)

/-- Cosine of `x` rev. -/
def cosRev (x : Rat) : Rat := sinRev (x + 1 / 4)

/-- Twice pi to 50 digits. -/
def twoPi : Rat := 628318530717958647692528676655900576839433879875021 / 100000000000000000000000000000000000000000000000000

/-- Sine of `x` rev, of a number of turns that is reduced to a quarter first, to 2^-100. -/
def sinFine (x : Rat) : Rat :=
  let r := x - floorQ x
  let q := fun (r : Rat) => let y := (rheQ (r * pow2 120) : Rat) * pow2 (-120) * twoPi; sinSum (y * y) 20 1 y
  if r ≤ 1 / 4 then q r else if r ≤ 3 / 4 then q (1 / 2 - r) else -(q (1 - r))

/-- Cosine of `x` rev, to the same. -/
def cosFine (x : Rat) : Rat := sinFine (x + 1 / 4)

/-- The square root of a number that is not negative, to 2^-200. -/
def rootFine (x : Rat) : Rat := (isqrt (floorQ (x * pow2 400)).toNat : Rat) * pow2 (-200)

/-- √3 to 30 digits. -/
def sqrt3 : Rat := 1732050807568877293527446341506 / 1000000000000000000000000000000

/-- The frame transforms of R231 before rounding; `l` are the lanes of IN0, `th` the angle in rev. -/
def transform (mode : Nat) (l : Nat → Rat) (th : Rat) : List Rat :=
  let clarke := ((2 * l 0 - l 1 - l 2) / 3, (l 1 - l 2) * invSqrt3)
  let back := fun (a b : Rat) => [a, -a / 2 + sqrt3 * b / 2, -a / 2 - sqrt3 * b / 2]
  let c := cosRev th
  let n := sinRev th
  let park := fun (a b : Rat) => [a * c + b * n, -(a * n) + b * c]
  let unpark := fun (p q : Rat) => (p * c - q * n, p * n + q * c)
  match mode with
  | 0 => [clarke.1, clarke.2]
  | 1 => back (l 0) (l 1)
  | 2 => park (l 0) (l 1)
  | 3 => [(unpark (l 0) (l 1)).1, (unpark (l 0) (l 1)).2]
  | 4 => park clarke.1 clarke.2
  | _ => back (unpark (l 0) (l 1)).1 (unpark (l 0) (l 1)).2

/-- Lanes 0 to `k` - 1 of a function. -/
def lanesOf (k : Nat) (f : Nat → Rat) : List Rat := (List.range k).map f

/-! Angles for the program -/

/-- The corrected electrical angle at tick `t`: its fraction in 2^-32 rev (24 significant bits, R6) and the status word. -/
def angleFrac (d n : Nat) (t : Int) (s : State) : (Nat × Nat) × State :=
  let (r, s) := angleAt d n t.toNat 0 s
  (((ang48 r.ang).1, r.stat), s)

/-- The mechanical position at tick `t` in revolutions from MTURNS, with the status word (R98). -/
def mechPos (d n : Nat) (t : Int) (s : State) : (Rat × Nat) × State :=
  let (r, s) := angleAt d n t.toNat 0 s
  let pub := match (s.getTrk d n).hist with | p :: _ => p.ang | [] => 0
  let p := (s.getTrk d n).ppm + 1
  let x : Rat := ((s.rd d TRK_SECTOR.SECTOR n : Rat) + ((enc 40 pub / 65536 : Nat) : Rat) / 16777216 +
    (wrapDiff 56 (r.ang / 65536 * 65536) (pub / 65536 * 65536) : Rat) / 1099511627776) / (p : Nat)
  ((x, r.stat), s)

/-- The mechanical fraction at tick `t` in 2^-16 rev, with the status word (R98). -/
def mechFrac (d n : Nat) (t : Int) (s : State) : (Nat × Nat) × State :=
  let (r, s) := mechPos d n t s
  (((floorQ ((r.1 - floorQ r.1) * 65536)).toNat, r.2), s)

/-- The answer of a shared-angle channel at tick `t`: fraction in 2^-32 rev and NV (R418). A channel that has never held a
sample answers a free angle. -/
def chanAngle (d c : Nat) (t : Int) (s : State) : (Nat × Bool) × State :=
  let r := s.getChan d c
  match r.keptAt with
  | none => ((s.free % 4294967296, true), s.drew)
  | some k =>
    let tout := max 1 (s.rd d TRM_ARXCFG.TOUT) * 2500
    let dt := t - r.ta
    let sec : Rat := (dt : Rat) * 4 / 10000000000
    let x : Rat := (r.ang : Rat) + ((r.spd : Rat) / 4096 * sec + (r.acc : Rat) / 16 * sec * sec / 2) * 1099511627776
    let nv := k + tout < s.pt || !r.angv || (r.mech && !r.mechv) || 2500000 < dt.natAbs
    let (v, s) := s.near x
    (((ang48 v).1, nv), s)

/-- The index of a repetitive table at tick `t` (R116, R117, R241). -/
def tableIndexAt (d n t : Nat) (at_ : Int) (s : State) : Option Rat × State :=
  match s.rd d TBL_DESC.SRC n t with
  | 1 =>
    if s.bit d TRK_STAT.MECHVALID n then
      let (r, s) := mechFrac d n at_ s
      (some ((r.1 : Rat) / 65536), s)
    else (none, s)
  | 2 => (if s.bit d LPT_STAT.LOCK then some (s.linePhase d at_) else none, s)
  | _ =>
    let (r, s) := angleFrac d n at_ s
    (some ((r.1 : Rat) / 4294967296), s)

/-! The operators -/

/-- T, the loop period in seconds (R208, R225). -/
def State.loopT (s : State) (d n : Nat) : Rat := (clampN 25 2000 (s.rd d LAW_SCHED.PER n) : Nat) / 10000000

/-- Flags of a tracker status word: CLIP, SUPPLY, and NV while ANGVALID = 0 (R228). -/
def trkFlags (st : Nat) : Nat := 4 * b2n (bitOf st 11) + 8 * b2n (bitOf st 12) + 16 * b2n (!bitOf st 0)

/-- An angle lane from a fraction in 2^-32 rev with the offset C1 (R229); -1/2 rev reads 2^-16 rev late in checked mode
(R315). -/
def angleVec (split : Bool) (frac off fl : Nat) : Vec :=
  let m := sgn 16 ((frac + off) / 65536)
  { m := [if !split && m == -32768 then -32767 else m], e := -1, fl := fl }

/-- The new sample of a SRC operator, before HOLD (R228, R229). -/
def srcSample (d n i : Nat) (s : State) : Vec × State :=
  let w2 := s.sw d n i 2
  let arg := bitsOf w2 8 6
  let k := s.slotLanes d n i
  let t : Int := ((s.getLaw d n).tu : Int) + sgn 32 (s.sw d n i 3)
  let sp := s.lawSplit d
  let fix := s.slotFixed d n i
  let one := fun (x : Rat) => lanesOf k fun j => if j = 0 then x else 0
  let off := s.coefAngle d n i 1
  match w2 % 16 with
  | 0 =>
    let (c0, s) := s.coef d n i 0
    let (c1, s) := s.coef d n i 1
    let fl := (List.range k).foldl (fun a j => a ||| bitsOf (s.reg (FIL_OUT.VALUE.addr d (arg + j) 0)).toNat 24 4 * 2) 0
    (encodeVec sp fix (lanesOf k fun j => (s.rdI d FIL_OUT.VALUE (arg + j) : Rat) * c0 + c1) fl, s)
  | 1 =>
    let (r, s) := angleFrac d n t s
    (angleVec sp r.1 off (trkFlags r.2), s)
  | 2 =>
    let (r, s) := mechFrac d n t s
    (angleVec sp (r.1 * 65536) off (trkFlags r.2 ||| 16 * b2n (!bitOf r.2 5)), s)
  | 3 =>
    let (c0, s) := s.coef d n i 0
    match (s.getTrk d n).hist with
    | p :: _ =>
      let dt : Rat := ((min (t - p.u) 2500000 : Int) : Rat) * 4 / 10000000000
      (encodeVec sp fix (one ((p.w + p.a * dt) * c0)) (trkFlags p.stat), s)
    | [] => (encodeVec sp fix (one 0) 16, s)
  | 4 =>
    let (c0, s) := s.coef d n i 0
    let s := encSpeedNow d n s
    (encodeVec sp fix (one ((s.rdI d ENC_SPD.SPD n : Rat) / 16 * c0)) 0, s)
  | 5 =>
    let (c0, s) := s.coef d n i 0
    let rep := s.rd d ENC_REP.COUNT n
    let df := if (s.getLaw d n).first then 0 else sgn 32 (enc 32 ((rep : Int) - s.sw d n i 25))
    (encodeVec sp fix (one ((df : Rat) * c0)) 0, s.setSw d n i 25 rep)
  | 6 =>
    let x := s.linePhase d t
    (angleVec sp (floorQ (x * 4294967296)).toNat off (16 * b2n (!s.bit d LPT_STAT.LOCK)), s)
  | 7 =>
    let p := (List.range k).foldl (fun (p : List Rat × State) j => let (c, t) := p.2.coef d n i j; (p.1 ++ [c], t)) ([], s)
    (encodeVec sp fix p.1 0, p.2)
  | 8 =>
    let (c0, s) := s.coef d n i 0
    (encodeVec sp fix (one ((s.rdI d DET_A.VALUE arg : Rat) * c0)) (bitsOf (s.reg (DET_STAT.DONE.addr d arg 0)).toNat 4 4 * 2), s)
  | _ =>
    let (r, s) := chanAngle d arg t s
    (angleVec sp r.1 off (16 * b2n r.2), s)

/-- SRC (R228 to R230). -/
def opSrc (d n i : Nat) (s : State) : State :=
  let (v, s) := srcSample d n i s
  if bitOf (s.sw d n i 2) 4 then
    if v.fl / 2 % 2 = 1 ∨ v.fl / 16 % 2 = 1 then
      let h := s.sw d n i 20
      let k := s.slotLanes d n i
      s.putOut d n i { m := s.mantWords d n i 21 k, e := sgn 6 h, fl := v.fl / 2 * 2 ||| bitsOf h 16 5 % 2 }
    else (s.putVec d n i 20 4 v).putOut d n i v
  else s.putOut d n i v

/-- XFM (R231). -/
def opXfm (d n i : Nat) (s : State) : State :=
  let a := s.slotVec d n i 0
  let mode := s.sw d n i 2 % 8
  let b := if 2 ≤ mode then s.slotVec d n i 1 else zeroVec
  let (ls, s) := s.fuzzAll (transform mode a.lane (b.lane 0))
  s.emit d n i ls (a.data ||| b.data)

/-- One ramp lane: the new value and its derivative (R233). -/
def rampStep (rmag : Bool) (c0 c1 t target v : Rat) : Rat × Rat :=
  let df := target - v
  let away := if rmag then decide ((0 ≤ v ∧ 0 < df) ∨ (v ≤ 0 ∧ df < 0)) else decide (0 < df)
  let r := absQ (if away then c0 else c1)
  let step := if r = 0 ∨ absQ df ≤ r * t then df else if df < 0 then -(r * t) else r * t
  let cross := rmag && decide ((0 < v ∧ v + step < 0) ∨ (v < 0 ∧ 0 < v + step))
  let step := if cross then -v else step
  (v + step, step / t)

/-- RAMP (R232, R233). -/
def opRamp (d n i : Nat) (s : State) : State :=
  let w2 := s.sw d n i 2
  let k := s.slotLanes d n i
  let dout := bitOf w2 0
  let rl := if dout then k / 2 else k
  let a := s.slotVec d n i 0
  let b := s.slotVec d n i 1
  let c := s.slotVec d n i 2
  let (c0, s) := s.coef d n i 0
  let (c1, s) := s.coef d n i 1
  let preset := (s.getLaw d n).first
  let track := s.slotIn d n i 2 != 0xFF && decide (0 < c.lane 0)
  let res := (List.range rl).map fun j =>
    let v := s.ext d n i j
    if preset then (if s.slotIn d n i 1 = 0xFF then v else b.lane j, (0 : Rat))
    else if track then (b.lane j, 0)
    else rampStep (bitOf w2 1) c0 c1 (s.loopT d n) (a.lane j) v
  let (sat, s) := if preset && s.slotIn d n i 1 == 0xFF then (false, s) else extPut d n i (res.map fun x => x.1) s
  let vs := lanesOf rl fun j => s.ext d n i j
  s.emit d n i (vs ++ if dout then res.map fun x => x.2 else []) (a.data ||| b.data ||| c.data) sat

/-- PI (R234, R235). -/
def opPi (d n i : Nat) (s : State) : State :=
  let k := s.slotLanes d n i
  let a := s.slotVec d n i 0
  let b := s.slotVec d n i 1
  let (kp, s) := s.coef d n i 0
  let (ki, s) := s.coef d n i 1
  let (hi, s) := s.coef d n i 2
  let (lo, s) := s.coef d n i 3
  let lo := if hi < lo then hi else lo
  let fl := a.data ||| b.data
  let frozen := bitOf (s.sw d n i 2) 0 && (bitOf fl 1 || bitOf fl 4)
  let e := fun j => a.lane j - b.lane j
  let t := s.loopT d n
  let is := lanesOf k fun j => if frozen then s.ext d n i j else clampQ lo hi (s.ext d n i j + ki * t * e j)
  let (sat, s) := if frozen then (false, s) else extPut d n i is s
  let iv := fun j => s.ext d n i j
  let raw := fun j => kp * e j + iv j
  let lim := (List.range k).foldl (fun x j => x + (if hi < raw j then 2 ^ j else 0) + (if raw j < lo then 2 ^ (4 + j) else 0)) 0
  let s := s.setSw d n i 25 lim
  let s := s.modLaw d n fun x =>
    { x with pis := { slot := i, p := lanesOf k fun j => kp * e j, hi := hi, lo := lo } :: x.pis.filter fun p => p.slot != i }
  s.emit d n i (lanesOf k fun j => clampQ lo hi (raw j)) fl sat

/-- Writes a vector of up to four lanes as two mantissa words and an exponent word, from word `w` on (R236). -/
def putShort (d n i w : Nat) (v : Vec) (s : State) : State := (s.putMants d n i w 2 v.m).setSw d n i (w + 2) (enc 6 v.e)

/-- Reads such a vector. -/
def getShort (s : State) (d n i w : Nat) : Vec := { m := s.mantWords d n i w 4, e := sgn 6 (s.sw d n i (w + 2)), fl := 0 }

/-- The hand-over of a SEL: corrections per lane and residue (R238). -/
def selHandover (d n i sel k : Nat) (yn : Nat → Rat) (s : State) : List Rat × List Rat × State :=
  let yo := getShort s d n i 21
  let df := lanesOf k fun j => yo.lane j - yn j
  let zero := lanesOf k fun _ => 0
  let p := bitsOf (s.sw d n i 3) (8 * sel) 8
  if p = 0xFF then (zero, df, s)
  else if s.slotOp d n p = 4 then
    match (s.getLaw d n).pis.find? fun r => r.slot == p with
    | some r =>
      let iv := fun j => s.ext d n p j
      let i' := lanesOf k fun j => clampQ r.lo r.hi (iv j + df.getD j 0)
      let u := fun (x : Rat) j => clampQ r.lo r.hi (r.p.getD j 0 + x)
      let corr := lanesOf k fun j => u (i'.getD j 0) j - u (iv j) j
      let (sat, s) := extPut d n p i' s
      let s := s.setSw d n p 25 (putBit (s.sw d n p 25) 8 true)
      (corr, lanesOf k fun j => df.getD j 0 - corr.getD j 0, if sat then s.lawOverflow d n else s)
    | none => (zero, df, s)
  else
    let rl := if bitOf (s.sw d n p 2) 0 then s.slotLanes d n p / 2 else s.slotLanes d n p
    let (sat, s) := extPut d n p (lanesOf rl yo.lane) s
    (zero, zero, if sat then s.lawOverflow d n else s)

/-- A vector passed on unchanged with the slot's own lanes: a lane it does not have is 0 (R213, R224, R236, R250). -/
def passVec (k : Nat) (v : Vec) : Vec := { v with m := (List.range k).map fun j => v.m.getD j 0 }

/-- The same, brought to the fixed exponent where the slot has FIXE = 1 (R214). -/
def passFixed (d n i : Nat) (v : Vec) (s : State) : Vec :=
  let k := s.slotLanes d n i
  match s.slotFixed d n i with
  | some e => encodeVec (s.lawSplit d) (some e) (lanesOf k v.lane) v.data
  | none => { passVec k v with fl := v.data }

/-- SEL (R236 to R239). RAMPK counts the runs since the hand-over, or since the start where none has been made. -/
def opSel (d n i : Nat) (s : State) : State :=
  let k := s.slotLanes d n i
  let want := min 3 (s.coefInt d n i 0)
  let hand := s.coefInt d n i 1 % 65536
  let st := s.sw d n i 20
  let first := (s.getLaw d n).first
  let missing := s.slotIn d n i want == 0xFF
  let cur := if first && !missing then want else st % 4
  let resid := bitOf st 8 && !first
  let s := if missing then s.lawConfig d n else s
  let sel := if missing then cur else want
  let y := s.slotVec d n i sel
  let fl := y.data
  let pass := passFixed d n i y s
  let kk := min 65535 (st / 65536 + 1)
  let keep := fun (v : Vec) (state : Nat) (s : State) => (putShort d n i 21 v (s.setSw d n i 20 state)).putOut d n i v
  if sel ≠ cur then
    let (corr, res, s) := selHandover d n i sel k y.lane s
    let v := encodeVec (s.lawSplit d) (s.slotFixed d n i) (lanesOf k fun j => y.lane j + corr.getD j 0 + res.getD j 0) fl
    let some_ := res.any fun r => r != 0
    let s := if some_ then (putShort d n i 24 (encodeVec (s.lawSplit d) none res 0) s).raiseAx d n 22 3 else s
    keep v (sel + 256 * b2n some_) s
  else if resid then
    if hand ≤ kk then keep pass (sel + 65536 * kk) s
    else
      let r := getShort s d n i 24
      let v := encodeVec (s.lawSplit d) (s.slotFixed d n i)
        (lanesOf k fun j => y.lane j + r.lane j * (1 - ((kk : Nat) : Rat) / (hand : Nat))) fl
      keep v (sel + 256 + 65536 * kk) s
  else keep pass (sel + (if first then 0 else kk * 65536)) s

/-- FF (R240). -/
def opFf (d n i : Nat) (s : State) : State :=
  let w2 := s.sw d n i 2
  let k := s.slotLanes d n i
  let (c0, s) := s.coef d n i 0
  if bitOf w2 0 then
    let (c1, s) := s.coef d n i 1
    let a := s.slotVec d n i 0
    let b := s.slotVec d n i 1
    s.emit d n i (lanesOf k fun j => c0 * a.lane (j + bitsOf w2 4 3) + c1 * b.lane j) (a.data ||| b.data)
  else if !s.bit d LPT_STAT.LOCK then s.putOut d n i { m := List.replicate k 0, e := -32, fl := 16 }
  else
    let th := s.linePhase d (((s.getLaw d n).tu : Int) + sgn 32 (s.sw d n i 3))
    let a : Rat := s.rd d LPT_STAT.AMPL
    let v := [a * cosFine th, a * sinFine th]
    let (ls, s) := if k = 2 then (v, s) else s.fuzzAll (transform 1 (fun j => v.getD j 0) 0)
    s.emit d n i (ls.map fun x => x * c0) 0

/-- REP (R241, R242); `ecc` is what the carrel's code finds, and `hold` withholds the learn sample (R317). -/
def opRep (d n i ecc : Nat) (hold : Bool) (s : State) : State :=
  let t := s.sw d n i 2 % 4
  let ex := s.rdI d TBL_DESC.EXP n t
  let (x, s) := tableIndexAt d n t (((s.getLaw d n).tu : Int) + sgn 32 (s.sw d n i 3)) s
  let (v, s) := repRead d n t ecc x s
  let a := s.slotVec d n i 0
  let b := s.slotVec d n i 1
  let gate := s.slotIn d n i 1 == 0xFF || decide (0 < b.lane 0)
  let err := clampI (-32767) 32767 (rheQ (a.lane 0 * pow2 (15 - ex)))
  let s := if gate && a.data == 0 && !hold then repLearn d n t err x s else s.wr d TBL_RES.LEARNING 0 n t
  s.emit d n i [(v : Rat) * pow2 (ex - 15)] (a.data ||| b.data ||| 16 * b2n x.isNone)

/-- LIM (R243). -/
def opLim (d n i : Nat) (s : State) : State :=
  let k := s.slotLanes d n i
  let a := s.slotVec d n i 0
  let b := s.slotVec d n i 1
  let (c0, s) := s.coef d n i 0
  if bitOf (s.sw d n i 2) 0 then
    let l := if s.slotIn d n i 1 = 0xFF then c0 else b.lane 0
    let sum := (lanesOf k fun j => a.lane j * a.lane j).foldl (fun x y => x + y) 0
    if l ≤ 0 then s.emit d n i (lanesOf k fun _ => 0) (a.data ||| b.data)
    else if sum ≤ l * l then s.emit d n i (lanesOf k a.lane) (a.data ||| b.data)
    else
      let root := rootFine sum
      s.emit d n i (lanesOf k fun j => a.lane j * l / root) (a.data ||| b.data)
  else
    let c := s.slotVec d n i 2
    let (c1, s) := s.coef d n i 1
    let hi := fun j => if s.slotIn d n i 1 = 0xFF then c0 else b.laneB j
    let lo := fun j => if s.slotIn d n i 2 = 0xFF then c1 else c.laneB j
    let y := fun j =>
      let m := if a.lane j < lo j then lo j else a.lane j
      if hi j < m then hi j else m
    s.emit d n i (lanesOf k y) (a.data ||| b.data ||| c.data)

/-- SUM (R244). -/
def opSum (d n i : Nat) (s : State) : State :=
  let k := s.slotLanes d n i
  let w2 := s.sw d n i 2
  let p := (List.range 4).foldl (fun (p : List Rat × Nat × State) q =>
    let (acc, fl, t) := p
    if t.slotIn d n i q = 0xFF then p
    else
      let (c, t) := t.coef d n i q
      let v := t.slotVec d n i q
      let sh := bitsOf w2 (4 * q) 3
      (lanesOf k fun j => acc.getD j 0 + if j < sh then 0 else c * v.lane (j - sh), fl ||| v.data, t)) (lanesOf k fun _ => 0, 0, s)
  p.2.2.emit d n i p.1 p.2.1

/-- MUL (R245). -/
def opMul (d n i : Nat) (s : State) : State :=
  let a := s.slotVec d n i 0
  let b := s.slotVec d n i 1
  let (c0, s) := s.coef d n i 0
  let y := fun j => if s.slotIn d n i 1 = 0xFF then 1 else b.laneB j
  s.emit d n i (lanesOf (s.slotLanes d n i) fun j => c0 * a.lane j * y j) (a.data ||| b.data)

/-- HYST (R246). -/
def opHyst (d n i : Nat) (s : State) : State :=
  let a := s.slotVec d n i 0
  let b := s.slotVec d n i 1
  let (c0, s) := s.coef d n i 0
  let (c1, s) := s.coef d n i 1
  let (c2, s) := s.coef d n i 2
  let hb := if s.slotIn d n i 1 = 0xFF then c0 else b.lane 0
  let ms := (List.range 3).map (fun j => rheQ (a.lane j * c1 + c2)) ++ [max 1 (rheQ (hb * c1))]
  let sat := ms.any fun m => m < -32767 || 32767 < m
  s.putOut d n i { m := ms.map (clampI (-32767) 32767), e := 15, fl := (a.data ||| b.data) + b2n sat }

/-- Leg `j` is named in LEGS of slot `i` (R247). -/
def legNamed (s : State) (d n i j : Nat) : Bool := bitOf (s.sw d n i 2) (4 + j)

/-- CLK_CORE cycles per slot (R198). -/
def State.lawCycles (s : State) (d : Nat) : Nat := if s.lawSplit d then 4 else 8

/-- The OUT write of slot `i` reaches the edge domain: 7 tk after the end of the slot, or in checked mode after its release,
which comes at most 4.0 ns after that end (R33, R317). -/
def outArrival (d n i : Nat) (s : State) : Nat × State :=
  let start := match (s.getLaw d n).run with | some (_, t) => t | none => s.pt
  let fin := start + (i + 1) * s.lawCycles d * 2 + 7
  if s.lawSplit d then (fin, s) else (fin + s.free % 11, s.drew)

/-- OUT (R247, R248, R257, R262); `hold` withholds the write (R317). -/
def opOut (d n i : Nat) (hold : Bool) (s : State) : State :=
  let a := s.slotVec d n i 0
  let w2 := s.sw d n i 2
  let mute := bitOf w2 8 && (bitOf a.fl 1 || bitOf a.fl 4)
  let legs := (List.range 3).filter fun j => bitOf w2 (4 + j)
  match w2 % 4 with
  | 0 =>
    let (c0, s) := s.coef d n i 0
    let (c1, s) := s.coef d n i 1
    let y := fun j => clampQ 0 1 (c0 * a.lane j + c1)
    let s := s.emit d n i (lanesOf (s.slotLanes d n i) y) a.data
    if mute || hold then s
    else
      let (t, s) := outArrival d n i s
      let x := s.getLaw d n
      let s := if x.tuLate && decide (x.tu < t) then pwmLate d n s else s
      s.forEach legs fun j s => dutyWrite d n j (rheQ (y j * 65536)).toNat t s
  | 1 =>
    let s := s.putOut d n i (passFixed d n i a s)
    if mute || hold then s
    else
      let (t, s) := outArrival d n i s
      standbyHbCopy d n (s.forEach legs fun j s => bandWrite d n j t (a.m.getD j 0) (a.m.getD 3 0).toNat s)
  | _ =>
    let v := encodeVec (s.lawSplit d) (s.slotFixed d n i) (lanesOf (s.slotLanes d n i) a.lane) a.data
    let s := s.putOut d n i v
    if mute || hold then s
    else s.modLaw d n fun x => { x with tel := x.tel ++ [{ slot := i, m := v.m, e := v.e, fl := v.fl }] }

/-- A lane's own mantissa and exponent as a coefficient word (R216). -/
def laneWord (v : Vec) : Nat := enc 16 (v.m.getD 0 0) + 65536 * enc 6 v.e

/-- The value of a coefficient word, read exactly. -/
def wordVal (w : Nat) : Rat := (sgn 16 w : Rat) * pow2 (sgn 6 (w / 65536) - 15)

/-- RELAY (R249). -/
def opRelay (d n i : Nat) (s : State) : State :=
  let a := s.slotVec d n i 0
  let b := s.slotVec d n i 1
  let c := s.slotVec d n i 2
  let (h, s) := s.coef d n i 0
  let (ep, s) := s.coef d n i 1
  let (bias, s) := s.coef d n i 2
  let st := s.sw d n i 20
  if s.slotIn d n i 1 = 0xFF ∨ 0 < b.lane 0 then
    let e := a.lane 0
    let start := !bitOf st 1 || (s.getLaw d n).first
    let was := bitOf st 0
    let up := if start then decide (0 ≤ e) else if ep < e then true else if e < -ep then false else was
    let turned := !start && up != was
    let cyc := if start then 0 else min 65535 (st / 65536 + b2n (turned && up))
    let runs := s.sw d n i 21 + 1
    let s :=
      if start then ((s.setSw d n i 21 0).setSw d n i 22 0).setSw d n i 23 0
      else if turned then (s.setSw d n i (if was then 22 else 23) runs).setSw d n i 21 0
      else s.setSw d n i 21 runs
    let fresh := start || (turned && up)
    let s := if fresh || decide (wordVal (s.sw d n i 24) < e) then s.setSw d n i 24 (laneWord a) else s
    let s := if fresh || decide (e < wordVal (s.sw d n i 25)) then s.setSw d n i 25 (laneWord a) else s
    let s := s.setSw d n i 20 (b2n up + 2 + 65536 * cyc)
    s.emit d n i [bias + if up then h else -h] (a.data ||| b.data)
  else
    let s := s.setSw d n i 20 (putBit st 1 false)
    if s.slotIn d n i 2 = 0xFF then s.emit d n i [bias] b.data else s.emit d n i [c.lane 0] c.data

/-- TAP (R250): mantissas, exponent and flags of IN0. -/
def opTap (d n i : Nat) (s : State) : State := s.putOut d n i (passVec (s.slotLanes d n i) (s.slotVec d n i 0))

/-- NOP (R202). -/
def opNop (d n i : Nat) (s : State) : State := s.putVec d n i 27 4 { zeroVec with m := List.replicate (s.slotLanes d n i) 0 }

/-- One slot is evaluated (R203); `hold` withholds the release of its checkpoint. -/
def evalSlot (d n i ecc : Nat) (hold : Bool) (s : State) : State :=
  match s.slotOp d n i with
  | 1 => opSrc d n i s
  | 2 => opXfm d n i s
  | 3 => opRamp d n i s
  | 4 => opPi d n i s
  | 5 => opHyst d n i s
  | 6 => opFf d n i s
  | 7 => opRep d n i ecc hold s
  | 8 => opLim d n i s
  | 9 => opSum d n i s
  | 10 => opMul d n i s
  | 11 => opSel d n i s
  | 12 => opOut d n i hold s
  | 13 => opRelay d n i s
  | 14 => opTap d n i s
  | _ => opNop d n i s

end Sys2Proof.Machine
end

