-- ==== Sys2Proof/Machine/Law.lean ====
section
/-!
DEFINITION. The law engine: program checks, starting and stopping, releases, coefficient banks and program memory
(R198 to R222, R251).
-/

namespace Sys2Proof.Machine

/-! Checks at start (R205, R251) -/

/-- The inputs that the operator of slot `i` reads (R224). -/
def readsOf (s : State) (d n i : Nat) : List Nat :=
  let w2 := s.sw d n i 2
  match s.slotOp d n i with
  | 2 => if 2 ≤ w2 % 8 then [0, 1] else [0]
  | 3 => [0, 1, 2]
  | 4 => [0, 1]
  | 5 => [0, 1]
  | 6 => if bitOf w2 0 then [0, 1] else []
  | 7 => [0, 1]
  | 8 => if bitOf w2 0 then [0, 1] else [0, 1, 2]
  | 9 => [0, 1, 2, 3]
  | 10 => [0, 1]
  | 11 => [0, 1, 2, 3]
  | 12 => [0]
  | 13 => [0, 1, 2]
  | 14 => [0]
  | _ => []

/-- An earlier slot satisfies a test. -/
def earlier (i : Nat) (f : Nat → Bool) : Bool := (List.range i).any f

/-- The operator's own check fails (R251). -/
def ownCheckFails (s : State) (d n i : Nat) : Bool :=
  let op := s.slotOp d n i
  let w2 := s.sw d n i 2
  let k := s.slotLanes d n i
  let in0 := s.slotIn d n i 0
  let noIn0 := in0 == 0xFF && op != 0 && op != 1 && op != 9
  noIn0 || match op with
  | 1 =>
    let kind := w2 % 16
    let arg := bitsOf w2 8 6
    9 < kind || (kind == 0 && 63 < arg + (k - 1)) || ([1, 2, 6, 9].contains kind && k != 1) || (kind == 8 && 15 < arg)
  | 2 =>
    let mode := w2 % 8
    6 ≤ mode || k != (if mode == 1 || mode == 5 then 3 else 2) || (2 ≤ mode && s.slotIn d n i 1 == 0xFF)
  | 3 =>
    let dout := bitOf w2 0
    4 < (if dout then k / 2 else k) || (dout && k % 2 == 1)
  | 4 => 4 < k
  | 11 =>
    4 < k || (List.range 4).any fun q =>
      let p := bitsOf (s.sw d n i 3) (8 * q) 8
      p != 0xFF && !(p < i && (s.slotOp d n p == 4 || s.slotOp d n p == 3) && s.slotLanes d n p == k)
  | 6 => !bitOf w2 0 && k != 2 && k != 3
  | 7 =>
    k != 1 || s.rd d TBL_DESC.ROLE n (w2 % 4) != 2 ||
      earlier i fun p => s.slotOp d n p == 7 && s.sw d n p 2 % 4 == w2 % 4
  | 9 => (List.range 4).all fun q => s.slotIn d n i q == 0xFF
  | 5 => k != 4
  | 12 =>
    let dest := w2 % 4
    dest == 3 || (dest == 0 && k != 3) || (dest == 1 && s.slotOp d n in0 != 5) ||
      (dest < 2 && earlier i fun p => s.slotOp d n p == 12 && s.sw d n p 2 % 4 == dest)
  | 13 => k != 1
  | 14 => earlier i fun p => s.slotOp d n p == 14 && s.sw d n p 2 % 16 == w2 % 16
  | _ => false

/-- VERR of slot `i` in a program of `len` slots, 0 where it passes (R205). -/
def slotCheck (s : State) (d n len i : Nat) : Nat :=
  let op := s.slotOp d n i
  let fixBad := match s.slotFixed d n i with | some e => decide (eCeil (s.lawSplit d) < e) | none => false
  if 14 < op then 2
  else if (readsOf s d n i).any fun k => s.slotIn d n i k != 0xFF && len ≤ s.slotIn d n i k then 3
  else if op == 6 && 2 ≤ (if s.divided d then n % 4 else n) then 4
  else if fixBad then 5
  else if ownCheckFails s d n i then 7
  else 0

/-- The schedule stream of an axis (R199). -/
def State.stream (s : State) (d n : Nat) : Nat :=
  if !s.lawSplit d then 0 else if s.divided d then n % 4 / 2 else n / 4

/-- Load of stream `q` in evaluations per strobe: LEN ÷ PER over its running axes (R209). -/
def streamLoad (s : State) (d q : Nat) : Rat :=
  (List.range 8).foldl (fun a n =>
    if s.bit d LAW_CTRL.RUN n && s.stream d n == q then
      a + (s.rd d LAW_CTRL.LEN n : Rat) / (clampN 25 2000 (s.rd d LAW_SCHED.PER n) : Nat)
    else a) 0

/-- The first failure of the start check with its slot, (0, 0) where the program passes (R205, R209). -/
def programCheck (s : State) (d n : Nat) : Nat × Nat :=
  let len := s.rd d LAW_CTRL.LEN n
  if len = 0 ∨ s.lawSlots d < len then (1, 0)
  else match (List.range len).find? fun i => slotCheck s d n len i != 0 with
    | some i => (slotCheck s d n len i, i)
    | none =>
      let add := (len : Rat) / (clampN 25 2000 (s.rd d LAW_SCHED.PER n) : Nat)
      if 1536 / 100 < streamLoad s d (s.stream d n) + add then (6, 0) else (0, 0)

/-- Brings LAW_LOAD in step: units of 0.1 M evaluations/s, rounded up (R209). -/
def showLoad (d : Nat) (s : State) : State :=
  let up := fun q => (-(floorQ (-(streamLoad s d q * 100)))).toNat
  (s.wr d LAW_LOAD.LOAD0 (up 0)).wr d LAW_LOAD.LOAD1 (if s.lawSplit d then up 1 else 0)

/-! Starting and stopping -/

/-- A coefficient write held for run number `w` is due at the run numbered `c`, or without a run (R217); run numbers wrap at 2^32. -/
def runDue (c : Option Nat) (w : Nat) : Bool := match c with | some c => decide ((c + 2 ^ 32 - w) % 2 ^ 32 < 2 ^ 31) | none => true

/-- The coefficient writes that wait for the run numbered `c`, or for any where none comes, are applied (R217). -/
def flushWrites (d n : Nat) (c : Option Nat) (s : State) : State :=
  let ws := (s.getLaw d n).wr
  let s := (ws.filter fun w => runDue c w.1).foldl (fun s w => s.modPm d w.2.1 fun _ => w.2.2) s
  s.modLaw d n fun x => { x with wr := x.wr.filter fun w => !runDue c w.1 }

/-- A fade in progress ends with ACT := target (R219, R221). -/
def fadeStop (d n : Nat) (s : State) : State :=
  let x := s.getLaw d n
  if x.fadeLen = 0 then s
  else
    let s := ((s.wr d LAW_BANK.ACT x.target n).wr d LAW_BANK.FADING 0 n).wr d LAW_FADE.REMAIN 0 n
    s.modLaw d n fun x => { x with fadeLen := 0, fadeK := 0 }

/-- A tune in progress on axis `n` fails with `cause` (R275). -/
def tuneFail (d n cause : Nat) (s : State) : State :=
  let st := s.rd d TUNE_STAT.STATE n
  if st = 1 ∨ st = 2 ∨ st = 3 then ((s.wr d TUNE_STAT.STATE 5 n).wr d TUNE_STAT.CAUSE cause n).raiseAx d n 26 3 else s

/-- The program of axis `n` has stopped (R207, R221); a tune of it fails (R275). -/
def lawStopped (d n : Nat) (s : State) : State :=
  let s := tuneFail d n 6 (flushWrites d n none (fadeStop d n s))
  let s := (s.wr d LAW_AXSTAT.RUNNING 0 n).wr d LAW_AXSTAT.PEND 0 n
  s.modLaw d n fun x => { x with pendAt := none, waitAt := none, run := none, stop := false }

/-- RUN changes to 0: the program has stopped (R207). -/
def lawHalt (d n : Nat) (s : State) : State := lawStopped d n (showLoad d (s.wr d LAW_CTRL.RUN 0 n))

/-- A write of LAW_CTRL accepted at tick `t` (R205 to R207): LEN fixed while RUN = 1, RUN from 0 to 1 checks and arms the
start, RUN := 0 stops at the end of the run in progress; until then RUN is 1, and a RUN := 1 changes nothing (log entry 25). -/
def lawCtrlWrite (n : Nat) (v : Word) (t d : Nat) (s : State) : State :=
  let w := v.toNat
  let len := bitsOf w 8 7
  let was := s.bit d LAW_CTRL.RUN n
  let s := if was then if len = s.rd d LAW_CTRL.LEN n then s else s.raise d 432 3 n else s.wr d LAW_CTRL.LEN len n
  if bitOf w 0 then
    if was then s
    else
      let (verr, slot) := programCheck s d n
      let s := (s.wr d LAW_AXSTAT.VERR verr n).wr d LAW_AXSTAT.VSLOT slot n
      if verr ≠ 0 then s.raise d 432 3 n
      else
        let s := (s.wr d LAW_CTRL.RUN 1 n).wr d LAW_AXSTAT.PEND 1 n
        showLoad d (s.modLaw d n fun x => { x with pendAt := some (t + 5000), stop := false })
  else if was then
    if (s.getLaw d n).run.isSome then s.modLaw d n fun x => { x with stop := true } else lawHalt d n s
  else s

def execLawStart (d n len : Nat) (s : State) : Host.Outcome State Fault Refusal :=
  onAxis d n s fun s =>
    axisWrite d (LAW_CTRL.RUN.addr 0 n 0) (BitVec.ofNat 32 (1 + len % 128 * 256))
      (lawCtrlWrite n (BitVec.ofNat 32 (1 + len % 128 * 256)) s.pt) s

def execLawStop (d n len : Nat) (s : State) : Host.Outcome State Fault Refusal :=
  onAxis d n s fun s =>
    axisWrite d (LAW_CTRL.RUN.addr 0 n 0) (BitVec.ofNat 32 (len % 128 * 256))
      (lawCtrlWrite n (BitVec.ofNat 32 (len % 128 * 256)) s.pt) s

/-- A write of LAW_SCHED: discarded with law-config while RUN = 1 (R208). -/
def lawSchedWrite (n : Nat) (v : Word) (d : Nat) (s : State) : State :=
  if s.bit d LAW_CTRL.RUN n then s.raise d 432 3 n
  else (s.wr d LAW_SCHED.PER (bitsOf v.toNat 0 11) n).wr d LAW_SCHED.OFS (bitsOf v.toNat 16 11) n

/-- Ticks from tick `t` to the next release of axis `n` (R208). -/
def State.toRelease (s : State) (d n t : Nat) : Nat :=
  let per := clampN 25 2000 (s.rd d LAW_SCHED.PER n)
  let p := per * 250
  let o := s.rd d LAW_SCHED.OFS n % per * 250
  (p - (t + p - o) % p) % p

/-- A strobe that falls on the present tick releases axis `n`: the tick may lie past the multiple of 250 that a slew tick has passed
(R46, R208). -/
def State.strobeReleases (s : State) (d n : Nat) : Bool :=
  (s.strobeAt == some s.pt || s.strobed) && s.toRelease d n (s.pt / 250 * 250) == 0

/-- Ticks to the release of axis `n` that comes next, none before a pending start may be made (R206, R208). -/
def State.nextRelease (s : State) (d n : Nat) : Nat :=
  let t := max (s.freshPt (State.stepNo 7 d n)) (((s.getLaw d n).pendAt).getD 0)
  if t = s.pt ∧ s.strobeReleases d n then 0 else t - s.pt + s.toRelease d n t

/-- t_u: the first update point of the axis's PWM timer after the release tick `r`, the release tick itself while the timer is
stopped or with UPD = 0b11; with it, whether a later write counts as late (R225, R257). -/
def updatePoint (s : State) (d n r : Nat) : Nat × Bool :=
  let upd := s.rd d PWM_CTRL.UPD n
  if !s.bit d PWM_CTRL.RUNNING n || upd == 3 then (r, false)
  else
    let p := s.period d n
    let st := r + 1 + s.toStart d n (r + 1)
    let mid := r + 1 + s.toStart d n (r + 1 + (p - p / 2))
    (if upd = 0 then st else if upd = 1 then mid else min st mid, true)

/-- A release of axis `n` (R206, R208, R212): it arms the pending start, queues the run, or finds the previous run unfinished
and counts an overrun. -/
def lawRelease (d n : Nat) (s : State) : State :=
  if !s.bit d LAW_CTRL.RUN n then s
  else
    let s := (s.pass (s.nextRelease d n)).occurs (State.stepNo 7 d n)
    let x := s.getLaw d n
    let (go, s) := match x.pendAt with
      | some t =>
        if s.pt < t then (false, s)
        else
          let s := ((s.wr d LAW_AXSTAT.PEND 0 n).wr d LAW_AXSTAT.RUNNING 1 n).wr d LAW_RUNCNT.COUNT 0 n
          (true, s.modLaw d n fun x => { x with pendAt := none, first := true })
      | none => (true, s)
    if !go then s
    else if x.waitAt.isSome || x.run.isSome then
      ((s.addSat d LAW_OVRCNT.COUNT 1 n).wrBit d LAW_FLAGS.OVR n true).raiseAx d n 20 3
    else s.modLaw d n fun x => { x with waitAt := some s.pt }

def execLawRelease (d n : Nat) (s : State) : Host.Outcome State Fault Refusal := onAxis d n s (lawRelease d n)

/-! Banks (R218 to R221) -/

/-- The number of the next run of axis `n` on die `d`: 1 while a start awaits its release (R206). -/
def State.runNext (s : State) (d n : Nat) : Nat :=
  if s.bit d LAW_AXSTAT.PEND n then 1 else (s.rd d LAW_RUNCNT.COUNT n + 1) % 2 ^ 32

/-- A swap request is taken: at once without a program or for the bank in force, else as a fade of `len` runs from run `from_` on. -/
def bankTake (d n target len from_ : Nat) (s : State) : State :=
  let len := max 1 len
  if s.rd d LAW_BANK.ACT n = target then s
  else if !s.bit d LAW_CTRL.RUN n then s.wr d LAW_BANK.ACT target n
  else
    let s := (s.wr d LAW_BANK.FADING 1 n).wr d LAW_FADE.REMAIN len n
    s.modLaw d n fun x => { x with fadeLen := len, fadeK := 0, target := target, fadeFrom := from_ }

/-- A write of LAW_BANK (R218 to R220): QOVR is cleared by a 1, and REQ requests a swap or queues it. -/
def lawBankWrite (n : Nat) (v : Word) (d : Nat) (s : State) : State :=
  let w := v.toNat
  let s := if bitOf w 3 then s.wr d LAW_BANK.QOVR 0 n else s
  if !bitOf w 9 then s
  else
    let target := bitsOf w 8 1
    let len := bitsOf w 16 16
    if s.bit d LAW_BANK.FADING n then
      let s := if s.bit d LAW_BANK.QUEUED n then s.wr d LAW_BANK.QOVR 1 n else s
      ((s.wr d LAW_BANK.QUEUED 1 n).wr d LAW_BANK.QTGT target n).wr d LAW_FADE.QLEN (max 1 len) n
    else bankTake d n target len (s.runNext d n) s

/-- A write of LAW_BANK as the active mate takes it before it is forwarded: where it starts a fade, the mate chooses its first run, one
that neither has begun (R221). -/
def bankShared (n : Nat) (v : Word) (d : Nat) (s : State) : State :=
  let t := lawBankWrite n v d s
  if s.bit d LAW_BANK.FADING n || !t.bit d LAW_BANK.FADING n || !t.forwards d then t
  else t.modLaw d n fun x => { x with fadeFrom := max (t.runNext d n) (t.runNext (mateOf d) n) }

/-- The forwarded write reaches the other mate, whose fade starts with the run chosen (R221). -/
def bankFollow (n : Nat) (v : Word) (d : Nat) (s : State) : State :=
  let t := lawBankWrite n v d s
  let e := t.activeOf d
  if s.bit d LAW_BANK.FADING n || !t.bit d LAW_BANK.FADING n || !t.bit e LAW_BANK.FADING n then t
  else t.modLaw d n fun x => { x with fadeFrom := (t.getLaw e n).fadeFrom }

/-- A queued request is taken as if written now, its fade to start with run `from_` (R220, R221). -/
def bankQueued (d n from_ : Nat) (s : State) : State :=
  if s.bit d LAW_BANK.QUEUED n then
    let t := s.rd d LAW_BANK.QTGT n
    let l := s.rd d LAW_FADE.QLEN n
    bankTake d n t l from_ (((s.wr d LAW_BANK.QUEUED 0 n).wr d LAW_BANK.QTGT 0 n).wr d LAW_FADE.QLEN 0 n)
  else s

def execLawBankReq (d n target len : Nat) (s : State) : Host.Outcome State Fault Refusal :=
  let v : Word := BitVec.ofNat 32 (target % 2 * 256 + 512 + len % 65536 * 65536)
  onAxis d n s (axisWrite d (LAW_BANK.ACT.addr 0 n 0) v (bankShared n v))

/-! Program memory (R200, R201, R204, R211, R217, R222) -/

/-- Offset of program memory in the die window. -/
def progBase : Nat := 0x300000

/-- The axis whose slot holds the word at byte offset `o`. -/
def progAxis (s : State) (d o : Nat) : Nat :=
  if s.divided d then o / 128 / 96 + 4 * (d % 2) else o / 128 / 48

/-- The bits of a coefficient word in use: a BFV scalar has [31:22] reserved, HANDRAMP [31:16]; an integer has all (R216). -/
def coefMask (op w2 c : Nat) : Nat :=
  let kind := w2 % 16
  let bfv := match op with
    | 1 => if kind = 7 then true else c = 0 && !([1, 2, 6, 9].contains kind) || c = 1 && kind == 0
    | 3 | 6 | 8 => c < 2
    | 4 | 9 => c < 4
    | 5 | 13 => c < 3
    | 10 => c = 0
    | 12 => c < 2 && w2 % 4 == 0
    | _ => false
  if bfv then 0x3FFFFF else if op = 11 ∧ c = 1 then 0xFFFF else 0xFFFFFFFF

/-- The bits of word `k` of a slot record that the slot's operator `op` does not leave reserved: a reserved field reads 0 (R9, R216, R226,
R228, R230, R234, R236, R249). -/
def wordMask (op w2 k : Nat) : Nat :=
  if 4 ≤ k ∧ k < 20 then coefMask op w2 ((k - 4) % 8)
  else match op, k with
    | 1, 2 => 0x3F1F
    | 1, 20 => if bitOf w2 4 then 0xFF1F073F else 0xFFFFFFFF
    | 3, 24 => 0x3F
    | 4, 24 => 0x3F
    | 4, 25 => 0x1FF
    | 13, 20 => 0xFFFF0003
    | 13, 24 => 0x3FFFFF
    | 13, 25 => 0x3FFFFF
    | _, _ => 0xFFFFFFFF

/-- What the word at index `x` of program memory reads as. -/
def pmRead (s : State) (d x : Nat) : Nat :=
  let b := x - x % 32
  (s.getPm d x).toNat &&& wordMask ((s.getPm d b).toNat % 32) (s.getPm d (b + 2)).toNat (x % 32)

/-- A write of a program-memory word takes effect on die `d`: a coefficient given a run waits for it (R217), and a state word is written
in both runs' copies (R314). -/
def progApply (o : Nat) (v : Word) (run d : Nat) (s : State) : State :=
  let k := o / 4 % 32
  let n := progAxis s d o
  if 4 ≤ k ∧ k < 20 ∧ 0 < run ∧ s.bit d LAW_CTRL.RUN n then
    s.modLaw d n fun x => { x with wr := x.wr ++ [(run % 2 ^ 32, o / 4, v)] }
  else if k = 0 then s.modPm d (o / 4) fun _ => v &&& 0x3F171F#32
  else if k < 27 then (s.modPm d (o / 4) fun _ => v).twinPut d (o / 4)
  else s

/-- A write by master `m` of the word at byte offset `o` of program memory through the window of die `d` (R200, R201, R204,
R217): in standby mode a coefficient write is applied by both mates at the start of one run, which the active mate chooses. -/
def progWrite (m d o : Nat) (v : Word) (s : State) : State :=
  let a := d * dieSpan + progBase + o
  let k := o / 4 % 32
  let n := progAxis s d o
  if 0xC000 ≤ o then s.accessFault d m true 2 4 a
  else if s.bit d LAW_CTRL.RUN n && (k < 4 || (20 ≤ k && k < 27)) then (s.accessFault d m true 2 5 a).raise d 432 3 n
  else if s.forwards d then
    let e := s.activeOf d
    let x := mateOf e
    let run := if s.bit e LAW_AXSTAT.PEND n then 1 else max (s.rd e LAW_RUNCNT.COUNT n) (s.rd x LAW_RUNCNT.COUNT n) + 1
    (progApply o v run e s).modFwd x fun q => q ++ [{ off := progBase + o, val := v, tick := s.pt, run := run }]
  else progApply o v 0 d s

/-- A read of the word at byte offset `o`: a header latches its four mantissa words, which read as latched (R201). -/
def progRead (m d o : Nat) (s : State) : State :=
  let a := d * dieSpan + progBase + o
  let k := o / 4 % 32
  if 0xC000 ≤ o then (s.answer 0).accessFault d m false 2 4 a
  else if k = 27 then
    let s := s.forEach [1, 2, 3, 4] fun q s => { s with latch := s.latch.set (a + 4 * q) (s.getPm d (o / 4 + q)) 0 }
    s.answer (s.getPm d (o / 4)).toNat
  else if 28 ≤ k then s.answer (s.latched a)
  else s.answer (pmRead s d (o / 4))

/-- The code of program memory finds an error at byte offset `o`: 1 corrected, 2 not corrected (R222); a check for injection (R306). -/
def progEcc (d o ecc : Nat) (s : State) : State :=
  let s := s.inject d 1 608 5 o
  if ecc = 1 then s.raise d 608 4 o else if ecc = 2 then s.raise d 608 5 o else s

/-- An access takes 8 cycles from the run in progress: steals number at most 9 in any 6,250 cycles and in one run; one beyond them waits
for idle cycles (R211). -/
def stealCycles (d : Nat) (s : State) : State :=
  let recent := (s.getLawDie d).steals.filter fun t => s.now < t + 12500
  let busy := (List.range 8).filter fun n => (s.getLaw d n).run.isSome && decide ((s.getLaw d n).stolen < 72)
  if busy = [] ∨ 9 ≤ recent.length then s
  else (s.forEach busy fun n s => s.modLaw d n fun x => { x with stolen := x.stolen + 8 }).modLawDie d fun l =>
    { l with steals := s.now :: recent }

/-- An access to program memory is served; `steal` where it has found no idle cycle within 400 cycles (R211). -/
def progmemAccess (m d o : Nat) (wr : Bool) (v : Word) (steal : Bool) (ecc : Nat) (s : State) : State :=
  let s := if steal then stealCycles d s else s
  if wr then progWrite m d o v s else progRead m d o (progEcc d o ecc s)

def execProgmemAccess (m d o : Nat) (wr : Bool) (v : Word) (steal : Bool) (ecc : Nat) (s : State) :
    Host.Outcome State Fault Refusal :=
  onItem (s.hasDie d && o < 65536) s fun s =>
    if (s.getDie d).inReset then s
    else if o % 4 ≠ 0 then (s.answer 0).accessFault d m wr 2 3 (d * dieSpan + progBase + o)
    else progmemAccess m d o wr v steal ecc s

/-- A read of a slot's output header (R201). -/
def execLawHeaderRead (d n i : Nat) (s : State) : Host.Outcome State Fault Refusal :=
  onItem (s.hasDie d && n < 8 && i < 96) s fun s =>
    if (s.getDie d).inReset || decide (s.lawSlots d ≤ i) || !s.holds d n then s else progRead 0 d (s.slotWord d n i 27 * 4) s

end Sys2Proof.Machine
end

