-- ==== Sys2Proof/Machine/Trace.lean ====
section
/-!
DEFINITION. Relay auto-tune and trace capture (R274 to R285).
-/

namespace Sys2Proof.Machine

/-! Auto-tune -/

/-- START is accepted (R274). -/
def tuneMay (s : State) (d n rs ps : Nat) : Bool :=
  let len := s.rd d LAW_CTRL.LEN n
  s.bit d LAW_CTRL.RUN n && rs < len && s.slotOp d n rs == 13 && ps < len && s.slotOp d n ps == 4

/-- A write of TUNE_CTRL (R274, R275): START begins a tune, is refused, or finds one in progress; ABORT ends it. -/
def tuneCtrlWrite (n : Nat) (v : Word) (d : Nat) (s : State) : State :=
  let w := v.toNat
  let s := ((s.wr d TUNE_CTRL.RSLOT (bitsOf w 0 7) n).wr d TUNE_CTRL.PSLOT (bitsOf w 8 7) n).wr d TUNE_CTRL.NCYC (bitsOf w 16 4) n
  let s := s.wr d TUNE_CTRL.WRITE (bitsOf w 26 1) n
  let s := if bitOf w 25 then tuneFail d n 7 s else s
  if !bitOf w 24 then s
  else
    let rs := bitsOf w 0 7
    let ps := bitsOf w 8 7
    let st := s.rd d TUNE_STAT.STATE n
    if !tuneMay s d n rs ps then ((s.wr d TUNE_STAT.STATE 5 n).wr d TUNE_STAT.CAUSE 8 n).raiseAx d n 26 3
    else if st = 1 ∨ st = 2 ∨ st = 3 then s
    else
      let s := (s.wr d TUNE_STAT.STATE 1 n).wr d TUNE_STAT.ACC 0 n
      s.modTune d n fun _ => { rs := rs, ps := ps, startAt := s.ptD d }

/-- The word a START or ABORT command writes: the other fields as they stand. -/
def tuneWord (s : State) (d n k : Nat) : Word :=
  BitVec.ofNat 32 (putBit (s.reg (TUNE_CTRL.RSLOT.addr d n 0)).toNat k true)

def execTuneStart (d n : Nat) (s : State) : Host.Outcome State Fault Refusal :=
  onAxis d n s fun s => axisWrite d (TUNE_CTRL.RSLOT.addr 0 n 0) (tuneWord s d n 24) (tuneCtrlWrite n (tuneWord s d n 24)) s

def execTuneAbort (d n : Nat) (s : State) : Host.Outcome State Fault Refusal :=
  onAxis d n s fun s => axisWrite d (TUNE_CTRL.RSLOT.addr 0 n 0) (tuneWord s d n 25) (tuneCtrlWrite n (tuneWord s d n 25)) s

/-- The PT tick at which the tune of axis `n` times out: TMAX ms after START (R275). -/
def tuneEnd (s : State) (d n : Nat) : Nat := (s.getTune d n).startAt + max 1 (s.rd d TUNE_LIMIT.TMAX n) * 2500000

/-- TMAX after START, a tune that has not finished fails (R275): time passes up to that instant. -/
def tuneTimeout (d n : Nat) (s : State) : State :=
  let st := s.rd d TUNE_STAT.STATE n
  if st = 1 ∨ st = 2 ∨ st = 3 then tuneFail d n 1 (s.pass (tuneEnd s d n - s.ptD d)) else s

def execTuneTimeout (d n : Nat) (s : State) : Host.Outcome State Fault Refusal := onAxis d n s (tuneTimeout d n)

/-- The square root of a positive rational, to more than 32 significant bits. -/
def sqrtQ (x : Rat) : Rat :=
  if x ≤ 0 then 0 else (isqrt (x.num.toNat * 2 ^ 320 / x.den) : Rat) / ((2 ^ 160 : Nat) : Rat)

/-- A number as a BFV coefficient word, with the exponent ceiling of the engine's mode (R276). -/
def bfvWord (split : Bool) (x : Rat) : Nat := laneWord (encodeVec split none [x] 0)

/-- The tune reaches done (R276, R277, R278): the results are formed from the means of `k` accepted cycles with amplitude
`a`, half-amplitude of the relay `h` and hysteresis `ep`; with WRITE = 1 the active mate writes them to bank B. -/
def tuneDone (d n k : Nat) (a h ep : Rat) (s : State) : State :=
  let u := s.getTune d n
  let sp := s.lawSplit d
  let runs := ((u.hp + u.hm : Nat) : Rat) / (k : Rat)
  let (ku, s) := s.fuzz (4 * h / (piQ * sqrtQ (a * a - ep * ep)))
  let (kp, s) := s.fuzz ((s.rd d TUNE_RULE.KPF n : Rat) / 256 * ku)
  let ti := ((max 1 (s.rd d TUNE_RULE.TIF n) : Nat) : Rat) / 256 * runs * s.loopT d n
  let (ki, s) := s.fuzz (if ti = 0 then 0 else kp / ti)
  let s := (s.wr d TUNE_KU.WORD (bfvWord sp ku) n).wr d TUNE_TU.TU (min (rheQ (runs * 16)).toNat 16777215) n
  let s := (s.wr d TUNE_KP.WORD (bfvWord sp kp) n).wr d TUNE_KI.WORD (bfvWord sp ki) n
  let s := ((s.wr d TUNE_STAT.STATE 4 n).wr d TUNE_STAT.WRITTEN 0 n).wr d TUNE_STAT.NOWR 0 n
  let standby := !s.divided d && s.activeOf d != d
  let s :=
    if standby || !s.bit d TUNE_CTRL.WRITE n then s.wr d TUNE_STAT.NOWR 1 n
    else if s.rd d LAW_BANK.ACT n = 0 ∧ s.rd d LAW_BANK.FADING n = 0 ∧ s.rd d LAW_BANK.QUEUED n = 0 then
      let o := s.slotWord d n u.ps 12 * 4
      let s := progWrite 0 d o (BitVec.ofNat 32 (bfvWord sp kp)) s
      (progWrite 0 d (o + 4) (BitVec.ofNat 32 (bfvWord sp ki)) s).wr d TUNE_STAT.WRITTEN 1 n
    else s.wr d TUNE_STAT.NOWR 1 n
  s.raiseAx d n 25 3

/-- What the tune unit does at the end of a run of its axis (R275, R276): of two causes the lower is recorded. The means are over the cycles
accepted. -/
def tuneStep (d n : Nat) (s : State) : State :=
  let st := s.rd d TUNE_STAT.STATE n
  if st = 0 ∨ 4 ≤ st then s
  else
    let u := s.getTune d n
    let w20 := s.sw d n u.rs 20
    let act := bitOf w20 1
    let cyc := w20 / 65536
    let fl := (s.slotOut d n u.rs).fl
    let c4 := 2 ≤ st && !act
    let c5 := act && (bitOf fl 1 || bitOf fl 4)
    let need := max 1 (s.rd d TUNE_CTRL.NCYC n)
    let ends := st == 3 && act && u.cyc < cyc
    let hp := s.sw d n u.rs 22
    let hm := s.sw d n u.rs 23
    let ok := (if hp < hm then hm - hp else hp - hm) * 256 ≤ s.rd d TUNE_LIMIT.ASYM n * (hp + hm)
    let s :=
      if !ends then s
      else if ok then
        (s.addSat d TUNE_STAT.ACC 1 n).modTune d n fun u =>
          { u with rej := 0, hp := u.hp + hp, hm := u.hm + hm, emax := u.emax + wordVal u.w24, emin := u.emin + wordVal u.w25 }
      else s.modTune d n fun u => { u with rej := u.rej + 1 }
    let v := s.getTune d n
    let s := s.modTune d n fun u => { u with cyc := cyc, w24 := s.sw d n u.rs 24, w25 := s.sw d n u.rs 25 }
    if tuneEnd s d n ≤ s.ptD d then tuneFail d n 1 s
    else if 8 ≤ v.rej then tuneFail d n 2 s
    else
      let k := s.rd d TUNE_STAT.ACC n
      let full := ends && ok && decide (need ≤ k)
      let (h, s) := s.coef d n u.rs 0
      let (ep, s) := s.coef d n u.rs 1
      let a := (v.emax - v.emin) / 2 / (k : Rat)
      if full && decide (a ≤ ep) then tuneFail d n 3 s
      else if c4 then tuneFail d n 4 s
      else if c5 then tuneFail d n 5 s
      else if full then tuneDone d n k a h ep s
      else if st = 1 ∧ act then s.wr d TUNE_STAT.STATE 2 n
      else if st = 2 ∧ 2 ≤ cyc then s.wr d TUNE_STAT.STATE 3 n
      else s

/-! Capture -/

/-- Size of the on-chip buffer (R282). -/
def trcSize : Nat := 65536

/-- Capture goes to the on-chip buffer (R282). -/
def trcOnChip (s : State) (d : Nat) : Bool := s.rd d TRC_CTRL.DEST == 0 || s.rd d TRC_CTRL.DEST == 3

/-- The trigger fires, once per arming (R283); `mark` where the next record stored carries TRIG. With POST = 0 the capture of the on-chip
buffer then stops at once. -/
def trcTrigger (d : Nat) (mark : Bool) (s : State) : State :=
  if s.bit d TRC_STAT.ARMED then
    let s := (s.wr d TRC_STAT.ARMED 0).wr d TRC_STAT.TRIGD 1
    if mark && trcOnChip s d && s.rd d TRC_TRIG.POST == 0 then s.wr d TRC_STAT.DONE 1
    else s.modTrc d fun t => { t with mark := t.mark || mark }
  else s

/-- Bytes the buffer holds: from the oldest record to where the next one begins. -/
def TrcDie.used (t : TrcDie) : Nat :=
  match t.recs with
  | [] => 0
  | r :: _ => if t.wp = r.start then trcSize else (t.wp + trcSize - r.start) % trcSize

/-- Drops the oldest records until `len` bytes fit, but none that waits to be moved on and none of the PRE records (R282, R283); `k` bounds
the number. -/
def TrcDie.makeRoom (t : TrcDie) (len : Nat) : Nat → TrcDie
  | 0 => t
  | k + 1 =>
    match t.recs with
    | [] => t
    | r :: rs =>
      if t.used + len ≤ trcSize ∨ r.dest ≠ 0 ∨ r.keep then t else { t with recs := rs }.makeRoom len k

/-- The trigger record of `len` bytes comes next: of the records before it the last PRE are kept, if PRE + POST records fit in the buffer;
a PRE larger than it holds is the largest that fits (R283). -/
def TrcDie.keepPre (t : TrcDie) (pre post len : Nat) : TrcDie :=
  let n := if trcSize < pre * len then (trcSize - post * len) / len else pre
  let old := t.recs.length - n
  { t with recs := (t.recs.take old).map (fun r => { r with keep := false }) ++
      (t.recs.drop old).map fun r => { r with keep := decide ((n + post) * len ≤ trcSize) } }

/-- A record is dropped: DROP counts it, and trace-drop is raised once for each run of drops (R282). -/
def trcDrop (d c : Nat) (s : State) : State :=
  let s := s.addSat d TRC_STAT.DROP
  let s := if (s.getTrc d).dropRun then s else s.raise d 593 3 0
  s.modTrc d fun t => { t with dropRun := true, gap := putBit t.gap c true }

/-- Stores the bytes of a record in the buffer. -/
def trcPut (d c dest : Nat) (r : TrcRec) (bs : List Byte) (s : State) : State :=
  let wp := (s.getTrc d).wp
  let s := (bs.foldl (fun (p : State × Nat) b => (p.1.modTrcByte d (p.2 % trcSize) fun _ => b, p.2 + 1)) (s, wp)).1
  let wp := (wp + bs.length) % trcSize
  let s := s.modTrc d fun t =>
    { t with recs := t.recs ++ [{ r with start := t.wp, len := bs.length, dest := dest, ch := c }], wp := wp, dropRun := false, gap := putBit t.gap c false }
  if dest = 0 then s.wr d TRC_WPTR.PTR wp else s

/-- A captured record of channel `c` reaches the buffer (R282, R283): `mk` gives its bytes for TRIG and GAP; `own` where it is
the record that fires the trigger. Capture on chip stops POST records after the trigger, of which the first after a FIRE or an event
carries TRIG, or earlier where the next would take the place of a PRE record. -/
def trcStore (d c tick fl : Nat) (own : Bool) (mk : Bool → Bool → List Byte) (s : State) : State :=
  let t := s.getTrc d
  let dest := s.rd d TRC_CTRL.DEST
  let dest := if dest = 3 then 0 else dest
  let trig := own || t.mark
  let bs := mk trig (bitOf t.gap c)
  let rec_ : TrcRec := { len := 0, dest := dest, ch := c, tick := tick, fl := fl, trig := trig }
  if dest ≠ 0 then
    if trcSize < t.used + bs.length then trcDrop d c s
    else trcPut d c dest rec_ bs (s.modTrc d fun t => { t with mark := false })
  else if s.bit d TRC_STAT.DONE then s
  else
    let free := decide (t.used + bs.length ≤ trcSize)
    let t := if trig then t.keepPre (s.rd d TRC_TRIG.PRE) (s.rd d TRC_TRIG.POST) bs.length else t
    let t := t.makeRoom bs.length (trcSize / 8)
    if !free && s.rd d TRC_TRIG.SRC == 0 then s.wr d TRC_STAT.DONE 1
    else if trcSize < t.used + bs.length then
      if t.recs.any fun r => r.keep then s.wr d TRC_STAT.DONE 1 else trcDrop d c s
    else
      let s := trcPut d c 0 rec_ bs (s.modTrc d fun _ => { t with mark := false })
      let post := if own then some (s.rd d TRC_TRIG.POST) else if trig then some (s.rd d TRC_TRIG.POST - 1) else t.post.map fun k => k - 1
      let s := s.modTrc d fun t => { t with post := post }
      if post = some 0 then s.wr d TRC_STAT.DONE 1 else s

/-- The native record of R280. -/
def nativeRec (c tick runlsb seq : Nat) (v : Vec) (trig gap : Bool) : List Byte :=
  let k := v.m.length
  leBytes tick 8 ++ [BitVec.ofNat 8 (c + 16 * (k - 1)), BitVec.ofNat 8 (enc 6 v.e),
    BitVec.ofNat 8 (v.fl % 32 + 32 * b2n trig + 64 * b2n gap), BitVec.ofNat 8 runlsb] ++ leBytes seq 4 ++
    (List.range (if k ≤ 4 then 4 else 8)).flatMap fun j => leBytes (enc 16 (v.m.getD j 0)) 2

/-- The Cegen record of R281. -/
def cegenRec (c tick seq : Nat) (cexp : Int) (v : Vec) (trig : Bool) : List Byte :=
  let x := rheQ (v.lane 0 * pow2 (15 - cexp))
  let y := satI 16 x
  leBytes (tick / 250) 4 ++ leBytes (enc 16 y) 2 ++
    [BitVec.ofNat 8 (c + 4 * b2n (x != y || bitOf v.fl 0) + 8 * b2n (decide (0 < v.data)) + 16 * b2n trig), BitVec.ofNat 8 seq]

/-- The TAP slot of axis `n` with TAPID `k` (R250, R279). -/
def tapSlot (s : State) (d n k : Nat) : Option Nat :=
  (List.range (s.rd d LAW_CTRL.LEN n)).find? fun i => s.slotOp d n i == 14 && s.sw d n i 2 % 16 == k

/-- The value LEVEL names (R216). -/
def trcLevel (s : State) (d : Nat) : Rat := (State.coefVal (s.lawSplit d) (s.rd d TRC_LEVEL.LEVEL)).1

/-- Channel `c` at the end of a run of axis `n` released at `tick` (R279 to R283). -/
def trcChannel (d n tick c : Nat) (s : State) : State :=
  let cegen := s.bit d TRC_CTRL.FMT
  if !(s.bit d TRC_CH.EN c && s.rd d TRC_CH.AXIS c == n) || (cegen && decide (4 ≤ c)) then s
  else
    let t := s.getTrc d
    let skip := t.skip.getD c 0
    if 0 < skip then s.modTrc d fun t => { t with skip := t.skip.set c (skip - 1) }
    else
      let s := s.modTrc d fun t => { t with skip := t.skip.set c (s.rd d TRC_CH.DEC c) }
      match tapSlot s d n (s.rd d TRC_CH.TAPID c) with
      | none => s
      | some i =>
        if s.bit d TRC_STAT.DONE && trcOnChip s d then s
        else
          let v := s.slotOut d n i
          let seq := t.seq.getD c 0
          let s := s.modTrc d fun t => { t with seq := t.seq.set c ((seq + 1) % 2 ^ 32) }
          let lvl := trcLevel s d
          let x := v.lane 0
          let watch := s.rd d TRC_TRIG.SRC == 2 && s.rd d TRC_TRIG.TCH == c
          let cross := watch && (match t.level with
            | some p => if s.bit d TRC_TRIG.EDGE then decide (lvl < p ∧ x ≤ lvl) else decide (p < lvl ∧ lvl ≤ x)
            | none => false)
          let s := if s.rd d TRC_TRIG.TCH = c then s.modTrc d fun t => { t with level := some x } else s
          let own := cross && s.bit d TRC_STAT.ARMED
          let s := if own then trcTrigger d false s else s
          let run := bitsOf (s.sw d n i 27) 24 8
          let cexp := sgn 6 (s.rd d TRC_CTRL.CEXP)
          trcStore d c tick (v.fl / 2 % 16) own (fun trig gap =>
            if cegen then cegenRec c tick seq cexp v trig else nativeRec c tick run seq v trig gap) s

/-- Capture at the end of a run (R279). -/
def trcCapture (d n tick : Nat) (s : State) : State :=
  if s.bit d TRC_CTRL.RUN then s.forEach (List.range 8) fun c s => trcChannel d n tick c s else s

/-- A record of package event source `src` in the die's collector fires the trigger with SRC = 0b11 (R283). -/
def trcEvent (d src : Nat) (s : State) : State :=
  if s.rd d TRC_TRIG.SRC = 3 ∧ s.rd d TRC_EVSRC.SOURCE = src then trcTrigger d true s else s

/-- A write of TRC_CTRL (R279, R283, R284). -/
def trcCtrlWrite (v : Word) (d : Nat) (s : State) : State :=
  let w := v.toNat
  let was := s.bit d TRC_CTRL.RUN
  let same := bitsOf w 0 2 == s.rd d TRC_CTRL.DEST && bitsOf w 2 1 == s.rd d TRC_CTRL.FMT && bitsOf w 16 6 == s.rd d TRC_CTRL.CEXP
  let s :=
    if was then if same then s else s.raise d 592 3 0
    else ((s.wr d TRC_CTRL.DEST (bitsOf w 0 2)).wr d TRC_CTRL.FMT (bitsOf w 2 1)).wr d TRC_CTRL.CEXP (bitsOf w 16 6)
  if bitOf w 8 && !was then
    let s := ((s.wr d TRC_CTRL.RUN 1).wr d TRC_STAT.ARMED 1).wr d TRC_STAT.DONE 0
    let s := s.modTrc d fun t =>
      let keep := t.recs.filter fun r => r.dest ≠ 0
      { recs := keep, wp := match keep.getLast? with | some r => (r.start + r.len) % trcSize | none => 0,
        gapD := t.gapD, dropRunD := t.dropRunD }
    if trcOnChip s d then s.wr d TRC_WPTR.PTR (s.getTrc d).wp else s
  else if !bitOf w 8 then s.wr d TRC_CTRL.RUN 0
  else s

/-- A write of TRC_TRIG: its settings stand while RUN = 1; ARM re-arms, FIRE fires with SRC = 0b01 (R283, R284). -/
def trcTrigWrite (v : Word) (d : Nat) (s : State) : State :=
  let w := v.toNat
  let x := (s.reg (TRC_TRIG.SRC.addr d 0 0)).toNat
  let set := fun y : Nat => y - bitsOf y 6 2 * 64
  let s :=
    if !s.bit d TRC_CTRL.RUN then s.setReg (TRC_TRIG.SRC.addr d 0 0) (BitVec.ofNat 32 (set w))
    else if set w = set x && bitsOf w 6 2 != 0 then s else s.raise d 592 3 0
  let s := if bitOf w 6 then s.wr d TRC_STAT.ARMED 1 else s
  if bitOf w 7 ∧ s.rd d TRC_TRIG.SRC = 1 then trcTrigger d true s else s

/-- A write of a channel register, discarded with trace-config while RUN = 1 (R284). -/
def trcChWrite (c : Nat) (v : Word) (d : Nat) (s : State) : State :=
  if s.bit d TRC_CTRL.RUN then s.raise d 592 3 0 else s.setReg (TRC_CH.EN.addr d c 0) (v &&& 0xFFFF0F71#32)

/-- The command writes RUN with the settings as they stand (R279). -/
def execTrcRunWrite (d : Nat) (run : Bool) (s : State) : Host.Outcome State Fault Refusal :=
  onLive d s fun s => trcCtrlWrite (BitVec.ofNat 32 (putBit (s.reg (TRC_CTRL.RUN.addr d 0 0)).toNat 8 run)) d s

def execTrcArm (d : Nat) (s : State) : Host.Outcome State Fault Refusal :=
  onLive d s fun s => trcTrigWrite (BitVec.ofNat 32 (putBit (s.reg (TRC_TRIG.SRC.addr d 0 0)).toNat 6 true)) d s

def execTrcFire (d : Nat) (s : State) : Host.Outcome State Fault Refusal :=
  onLive d s fun s => trcTrigWrite (BitVec.ofNat 32 (putBit (s.reg (TRC_TRIG.SRC.addr d 0 0)).toNat 7 true)) d s

end Sys2Proof.Machine
end

