-- ==== Sys2Proof/Machine/Pair.lean ====
section
/-!
DEFINITION. Pair standby: heartbeats, takeover, planned handovers, resynchronisation and the shadow comparison
(R335 to R358). The end of a release, which may be a reset, is in Reset.lean.
-/

namespace Sys2Proof.Machine

/-! Roles and pads -/

/-- The die's root runs: it has locked since its reset, and has not failed (R42, R57). -/
def State.rootRuns (s : State) (d : Nat) : Bool := !(s.getDie d).inReset && s.bit d CLK_STAT.ROOTLOCK

/-- Ticks of the swap interval, 0 where scheduled swaps are off (R351). -/
def State.swapInt (s : State) (d : Nat) : Nat := min (s.rd d PAIR_CTRL.SWINT) 1440 * 150000000000

/-- Brings PAIR_NEXT in step (R351). -/
def showNext (d : Nat) (s : State) : State :=
  if s.rd d PAIR_STAT.ROLE = 1 ∧ 0 < s.swapInt d then s.wr d PAIR_NEXT.PT ((s.getPair d).base + s.swapInt d)
  else s.wr d PAIR_NEXT.PT 0

/-- The die takes a role; its pads, its safe-state causes and its swap time follow. The keepers hold what the balls show (R271). -/
def setRole (d r : Nat) (s : State) : State :=
  let s := (s.holdBalls (d / 2)).wr d PAIR_STAT.ROLE r
  let s := setPads d (if r = 1 ∨ r = 4 ∨ r = 5 then .full else .off) s
  emuShowAll d (showNext d (s.refreshDie d))

/-- PAIR_LAST: the tick of a change of role by seize, release or swap. -/
def markLast (d : Nat) (s : State) : State := s.wr d PAIR_LAST.PT (s.ptD d)

/-- The die drives a shared ball: its DRIVING line (R349). -/
def State.drivingLine (s : State) (d : Nat) : Bool := !(s.getDie d).inReset && (List.range 8).any fun n => s.owns d n

/-- The die is no longer ready (R336), and its resynchronisation starts again (R354). -/
def unready (d : Nat) (s : State) : State := (s.wr d PAIR_STAT.READY 0).wr d PAIR_STAT.RESYNC 0

/-! Swaps (R351, R353) -/

/-- Ts: the first period start of axis REFAX at least 5,000 tk ahead, or with EN = 0 the first convert strobe. -/
def swapInstant (s : State) (d : Nat) : Nat :=
  let t := s.pt + 5000
  let n := s.rd d PAIR_CTRL.REFAX
  if s.bit d PWM_CTRL.EN n then t + s.toStart d n t else strobeAt t

/-- A due swap is admitted and its Ts fixed, or waits for the governor (R351, R353); `gov` false for the immediate swap of an
active, safe die. -/
def swapDue (d : Nat) (gov : Bool) (s : State) : State :=
  let p := s.getPair d
  if p.swapTs.isSome || p.released || !s.bit d PAIR_STAT.MREADY then s
  else if !gov || s.bit d PWR_ADMIT.FIRM then
    (s.wr d PAIR_STAT.SWPEND 0).modPair d fun p => { p with swapTs := some (swapInstant s d), dueAt := none, lateDone := false }
  else if s.bit d PAIR_STAT.SWPEND then s
  else
    ((s.wr d PAIR_STAT.SWPEND 1).addSat d PAIR_CNT.DEFER).modPair d fun p => { p with dueAt := some s.pt, lateDone := false }

/-- The swap interval elapses on the active die (R351), or a waiting swap is admitted (R353); an active, safe die swaps at once
with a mate that is ready. -/
def swapElapsed (d : Nat) (s : State) : State :=
  let r := s.rd d PAIR_STAT.ROLE
  if s.divided d then s
  else if r = 4 then swapDue d false s
  else if r ≠ 1 then s
  else if s.bit d PAIR_STAT.SWPEND then swapDue d true s
  else if s.rd d PAIR_NEXT.PT = 0 then s
  else swapDue d true (s.passTo (s.rd d PAIR_NEXT.PT))

def execSwapDue (d : Nat) (s : State) : Host.Outcome State Fault Refusal := onLive d s (swapElapsed d)

/-- A write of PAIR_CTRL (R351): SWINT above 1,440 is taken as 1,440; SWAPNOW makes a swap due on the active die. -/
def pairCtrlWrite (v : Word) (d : Nat) (s : State) : State :=
  let w := v.toNat
  let s := (s.wr d PAIR_CTRL.SWINT (min (bitsOf w 0 11) 1440)).wr d PAIR_CTRL.REFAX (bitsOf w 12 3)
  let s := showNext d (s.wr d PAIR_CTRL.STARTWAIT (bitsOf w 20 4))
  if bitOf w 16 && s.rd d PAIR_STAT.ROLE == 1 && !s.divided d then swapDue d true s else s

def execPairSwapnow (d : Nat) (s : State) : Host.Outcome State Fault Refusal :=
  onLive d s fun s => pairCtrlWrite (BitVec.ofNat 32 (putBit (s.reg (PAIR_CTRL.SWINT.addr d 0 0)).toNat 16 true)) d s

/-- A swap is not made: the active die keeps driving, and the next interval counts from here (R352). -/
def swapMissed (d : Nat) (s : State) : State :=
  let t := s.ptD d
  showNext d (s.modPair d fun p => { p with swapTs := none, swapping := false, releasing := none, released := false, base := t })

/-- At Ts the active die releases its pads for the swap (R350, R351), unless its mate is not ready or it is itself held
(R352). -/
def swapTs (d : Nat) (s : State) : State :=
  match (s.getPair d).swapTs with
  | none => s
  | some t =>
    let s := s.passTo t
    if !s.bit d PAIR_STAT.MREADY || s.bit d PAIR_STAT.SEIZED then swapMissed d s
    else
      let s := s.pass 5
      let s := setPads d .off (s.holdBalls (d / 2))
      s.modPair d fun p => { p with swapTs := none, releasing := some t, swapping := true, released := true }

def execSwapTs (d : Nat) (s : State) : Host.Outcome State Fault Refusal := onLive d s (swapTs d)

/-- A swap deferred by more than one interval is reported once (R353). -/
def swapLate (d : Nat) (s : State) : State :=
  let p := s.getPair d
  match p.dueAt with
  | none => s
  | some t =>
    if p.lateDone || !s.bit d PAIR_STAT.SWPEND || s.swapInt d == 0 then s
    else ((s.passTo (t + s.swapInt d + 1)).modPair d fun p => { p with lateDone := true }).raise d 470 3 0

def execSwapLate (d : Nat) (s : State) : Host.Outcome State Fault Refusal := onLive d s (swapLate d)

/-- A release for a reset or a severity-5 reaction begins: Ts = trigger + 64 tk, and the pads are off 2 ns later (R350); `after` lists the
causes of the reset. -/
def releaseStart (d : Nat) (after : List ResetCause) (s : State) : State :=
  let t := s.now8 + 8 * 69
  (s.holdBalls (d / 2)).modPair d fun p =>
    { p with releasing := some (s.pt + 64), swapping := false, swapTs := none, resetAfter := after,
             sched := p.sched ++ [(t, 0, .off), (t, 1, .off), (t, 2, .off)] }

/-- The die drives in standby mode and its mate's last beats report it ready (R52, R293, R349). -/
def State.mayRelease (s : State) (d : Nat) : Bool :=
  let r := s.rd d PAIR_STAT.ROLE
  !s.divided d && (r == 1 || r == 4) && s.bit d PAIR_STAT.MREADY && (s.getPair d).releasing == none

/-! Heartbeats (R339 to R342) -/

/-- Every 1 µs each die whose root runs sends a beat, and toggles its liveness bit (R339, R340). -/
def heartbeatASend (d : Nat) (s : State) : State :=
  let s := s.toNext (State.stepNo 8 d 0) 2500
  if s.rootRuns d then
    s.modPair d fun p =>
      { p with seqA := (p.seqA + 1) % 2 ^ 32, rootLive := true,
               txA := some (s.rd d PAIR_STAT.ROLE, s.bit d PAIR_STAT.READY, s.rd d PAIR_STAT.PATHA + 2 * s.rd d PAIR_STAT.PATHB) }
  else s

def execHeartbeatASend (d : Nat) (s : State) : Host.Outcome State Fault Refusal := onLive d s (heartbeatASend d)

/-- The 16-bit frame of path B: role, ready, releasing, sequence number, and the CRC-8 over these (R340). -/
def frameB (role : Nat) (ready rel : Bool) (seq : Nat) : Nat :=
  let b := role % 4 + 4 * b2n ready + 8 * b2n rel + seq % 16 * 16
  b + 256 * crc8 b

/-- Every 100 watch cycles a die whose root is live sends a frame (R340). -/
def heartbeatBSend (d : Nat) (s : State) : State :=
  let p := s.getPair d
  if p.rootLive && s.rootRuns d then
    s.modPair d fun p =>
      { p with seqB := (p.seqB + 1) % 16, rootLive := false,
               txB := some (frameB (s.rd d PAIR_STAT.ROLE) (s.bit d PAIR_STAT.READY) p.releasing.isSome (p.seqB + 1)) }
  else s

def execHeartbeatBSend (d : Nat) (s : State) : Host.Outcome State Fault Refusal := onLive d s (heartbeatBSend d)

/-- A path is alive again: its status and the mate's follow, and a failed loopback test is not repeated (R341, R344, PAIR_STAT). -/
def pathAlive (d : Nat) (a : Bool) (s : State) : State :=
  ((s.wr d (if a then PAIR_STAT.PATHA else PAIR_STAT.PATHB) 1).wr d PAIR_STAT.MATEOK 1).modPair d fun p => { p with lbBad := false }

/-- The mate's ready flag has arrived: the seize is released when it reports ready (R345), and an active, safe die swaps at once
(R353). -/
def mateReady (d : Nat) (ready : Bool) (s : State) : State :=
  let s := s.wr d PAIR_STAT.MREADY (b2n ready)
  if !ready then s
  else
    let s := if s.bit d PAIR_STAT.SEIZING then (s.wr d PAIR_STAT.SEIZING 0).wr (mateOf d) PAIR_STAT.SEIZED 0 else s
    if s.rd d PAIR_STAT.ROLE = 4 then swapDue d false s else s

/-- A die in full service that has waited for its mate sees a beat (R337): with the mate active it becomes standby, without a
snapshot where both entered full service at one tick. -/
def firstBeat (d r : Nat) (s : State) : State :=
  match (s.getPair d).startAt with
  | none => s
  | some _ =>
    if r = 1 ∨ r = 4 then
      let same := (s.getPair (mateOf d)).fullAt == (s.getPair d).fullAt
      let s := setRole d 2 (s.modPair d fun p => { p with startAt := none, shadowAt := s.pt })
      if same then s.wr d PAIR_STAT.RESYNC 3 else s
    else s.modPair d fun p => { p with startAt := some s.pt }

/-- What a beat from the mate says on either path: role, ready flag, sequence number, and whether its CRC is correct; path B gives the low
bits of the role (R339, R340). -/
def beatOf (m : PairRec) (a : Bool) : Option (Nat × Bool × Nat × Bool) :=
  if a then m.txA.map fun x => (x.1, x.2.1, m.seqA, true)
  else m.txB.map fun w => (w % 4, bitOf w 2, bitsOf w 4 4, w / 256 == crc8 (w % 256))

/-- The record of die `d` with a valid beat of its mate `m`, `ok` of them in succession (R339, R340). -/
def PairRec.heard (p m : PairRec) (a : Bool) (r seq ok pt now : Nat) : PairRec :=
  if a then { p with lastA := some seq, okA := ok, mateRole := r, mateView := (m.txA.map fun x => x.2.2).getD 0, goodA := some pt }
  else { p with lastB := some seq, okB := ok, mateReleasing := (m.txB.map fun w => bitOf w 3).getD false, goodB := some now }

/-- A frame arrives from the mate on path A (R339) or B (R340): rejected for its CRC, or by an injection that is not muted (R307), ignored as a repeat, or a valid beat. -/
def heartbeatReceive (d : Nat) (a crc : Bool) (s : State) : State :=
  let m := s.getPair (mateOf d)
  let p := s.getPair d
  match beatOf m a with
  | none => s
  | some (r, ready, seq, good) =>
    let chk := if a then 11 else 12
    let loud := s.injLoud d chk
    let s := s.inject d chk 464 7 (if a then 0 else 1)
    if !crc || !good || loud then s.addSat d PAIR_HB.CRCERR
    else if (if a then p.lastA else p.lastB) = some seq then s
    else
      let s := s.wr d (if a then PAIR_HB.MISSA else PAIR_HB.MISSB) 0
      let up := s.bit d (if a then PAIR_STAT.PATHA else PAIR_STAT.PATHB)
      let ok := if up then 0 else (if a then p.okA else p.okB) + 1
      let s := s.modPair d fun p => p.heard m a r seq ok s.pt s.now
      let s := if 16 ≤ ok then pathAlive d a s else s
      firstBeat d r (mateReady d ready s)

def execHeartbeatAReceive (d : Nat) (crc : Bool) (s : State) : Host.Outcome State Fault Refusal :=
  onLive d s (heartbeatReceive d true crc)

def execHeartbeatBReceive (d : Nat) (crc : Bool) (s : State) : Host.Outcome State Fault Refusal :=
  onLive d s (heartbeatReceive d false crc)

/-- A path is lost (R341, R342, R347): with the other one alive it is reported; with both, the mate is lost to the die that
drives. With path A the forwarding of what waits has failed (R26). -/
def pathLost (d : Nat) (a : Bool) (s : State) : State :=
  let s := (s.wr d (if a then PAIR_STAT.PATHA else PAIR_STAT.PATHB) 0).addSat d (if a then PAIR_HB.LOSTA else PAIR_HB.LOSTB)
  let s := if a then ((s.modPair d fun p => { p with heldLost := true }).modFwd d fun _ => []).modFwd (mateOf d) fun _ => [] else s
  if s.bit d (if a then PAIR_STAT.PATHB else PAIR_STAT.PATHA) then
    let s := s.raise d 464 7 (if a then 0 else 1)
    let r := s.rd d PAIR_STAT.ROLE
    if a && (r == 2 || r == 3) then unready d s else s
  else
    let s := (s.wr d PAIR_STAT.MATEOK 0).wr d PAIR_STAT.MREADY 0
    let r := s.rd d PAIR_STAT.ROLE
    if r = 1 ∨ r = 4 ∨ r = 5 then s.raise d 465 7 0 else s

/-- A beat is missed: four in succession lose the path (R341). -/
def heartbeatMiss (d : Nat) (a : Bool) (s : State) : State :=
  let f := if a then PAIR_HB.MISSA else PAIR_HB.MISSB
  let s := s.wr d f (min (s.rd d f + 1) 4)
  let s := s.modPair d fun p => if a then { p with okA := 0 } else { p with okB := 0 }
  if s.rd d f = 4 ∧ s.bit d (if a then PAIR_STAT.PATHA else PAIR_STAT.PATHB) then pathLost d a s else s

/-- The path-A slot is judged 500 ns after its tick (R339). -/
def beatSlot (d : Nat) (s : State) : State :=
  let t := s.freshPt (State.stepNo 9 d 0)
  (s.pass (t - s.pt + (3750 - t % 2500) % 2500)).occurs (State.stepNo 9 d 0)

/-- The slot judged at the present tick had a valid beat (R339). -/
def beatCame (d : Nat) (s : State) : Bool :=
  match (s.getPair d).goodA with
  | some t => decide (s.pt ≤ t + 1250)
  | none => false

/-- A slot without a valid beat counts as missed (R339). -/
def heartbeatAMiss (d : Nat) (s : State) : State :=
  let s := beatSlot d s
  if beatCame d s then s else heartbeatMiss d true s

def execHeartbeatAMiss (d : Nat) (s : State) : Host.Outcome State Fault Refusal := onLive d s (heartbeatAMiss d)

/-- The m-th frame of path B is missed 125 + 100 · m of the receiver's watch cycles after the last valid one, or after the die left reset;
its oscillator runs at 10 ns ±3 % a cycle, where in that range is free (R41, R340, R341). -/
def heartbeatBMiss (d : Nat) (s : State) : State :=
  let m := s.rd d PAIR_HB.MISSB
  if 4 ≤ m then s
  else
    let k := 125 + 100 * m
    let due := ((s.getPair d).goodB).getD (s.getDie d).upAt + k * 97 / 4 + s.free % (k * 3 / 2 + 1)
    heartbeatMiss d false ((s.pass (due - s.now)).drew)

def execHeartbeatBMiss (d : Nat) (s : State) : Host.Outcome State Fault Refusal := onLive d s (heartbeatBMiss d)

/-! Takeover (R343 to R348) -/

/-- Both paths are lost (R341). -/
def State.bothLost (s : State) (d : Nat) : Bool := !s.bit d PAIR_STAT.PATHA && !s.bit d PAIR_STAT.PATHB

/-- The die may seize once its loopback test has passed: as standby under R343, or at start-up under R337. -/
def State.maySeize (s : State) (d : Nat) : Bool :=
  let p := s.getPair d
  let r := s.rd d PAIR_STAT.ROLE
  !s.divided d && s.bothLost d && !s.hasReleased (mateOf d) && !s.bit d PAIR_STAT.SEIZED &&
    (r == 2 || (r == 0 && p.startAt.isSome))

/-- The loopback test begins (R344). -/
def loopbackTest (d : Nat) (s : State) : State :=
  if s.maySeize d && !(s.getPair d).lbRun then s.modPair d fun p => { p with lbRun := true, lbAt := s.pt, lbBad := false } else s

/-- With both paths lost the test begins; one that has failed is repeated by LOOPBACK_RETRY (R344). -/
def execLoopbackTest (d : Nat) (s : State) : Host.Outcome State Fault Refusal :=
  onLive d s fun s => if (s.getPair d).lbBad then s else loopbackTest d s

/-- The start-up wait of R337 ends without a beat: the loopback test begins. -/
def startwaitExpiry (d : Nat) (s : State) : State :=
  match (s.getPair d).startAt with
  | none => s
  | some t => loopbackTest d (s.passTo (t + max 1 (s.rd d PAIR_CTRL.STARTWAIT) * 2500000))

def execStartwaitExpiry (d : Nat) (s : State) : Host.Outcome State Fault Refusal := onLive d s (startwaitExpiry d)

/-- The pads of a takeover, from the assertion of seize at time `t` in 1/8 tk (R346): each group passes through soft drive for 2 ns. -/
def seizeSched (t : Nat) : List (Nat × Nat × Drive) :=
  [(t + 80, 0, .soft), (t + 120, 0, .full), (t + 300, 1, .soft), (t + 340, 1, .full), (t + 520, 2, .soft), (t + 560, 2, .full)]

/-- The mate's pads let go 4.0 to 6.0 ns after the assertion of seize; where in that range is free (R345, R346). -/
def letGo (m : Nat) (s : State) : State :=
  let on := fun g n => s.driveOf m n g
  let t := s.now8 + 80 + s.free % 41
  s.drew.modPair m fun p =>
    { p with grp0 := on 0 0, grp1 := on 1 4, grp2 := on 2 0, sched := [(t, 0, .off), (t, 1, .off), (t, 2, .off)] }

/-- The die seizes the pads (R343, R345, R346): the mate's balls go to high impedance within 6 ns, the three groups are in
full drive 28 ns after the assertion. -/
def seize (d : Nat) (s : State) : State :=
  let s := letGo (mateOf d) (s.holdBalls (d / 2))
  let ready := s.bit d PAIR_STAT.READY || s.rd d PAIR_STAT.ROLE == 0
  let s := ((s.wr d PAIR_STAT.SEIZING 1).wr d PAIR_STAT.RESYNC 0).addSat d PAIR_CNT.TAKE
  let s := (markLast d s).raise d 467 3 0
  let s := s.modPair d fun p => { p with base := s.ptD d, startAt := none }
  (setRole d (if ready then 1 else 4) s).modPair d fun p =>
    { p with grp0 := .off, grp1 := .off, grp2 := .off, sched := seizeSched s.now8 }

/-- The loopback test ends, within 400 ns (R344): passed, the die seizes; failed, it is reported and repeated. -/
def loopbackResult (d : Nat) (ok : Bool) (s : State) : State :=
  let p := s.getPair d
  if !p.lbRun then s
  else
    let s := s.modPair d fun p => { p with lbRun := false, lbBad := !ok }
    if !ok then (s.wr d PAIR_STAT.LBFAIL 1).raise d 466 3 0
    else if s.maySeize d then seize d s
    else s

def execLoopbackResult (d : Nat) (ok : Bool) (s : State) : Host.Outcome State Fault Refusal := onLive d s (loopbackResult d ok)

/-- A failed test is repeated every 1 ms while both paths stay lost (R344). -/
def loopbackRetry (d : Nat) (s : State) : State :=
  let p := s.getPair d
  if p.lbBad && !p.lbRun then loopbackTest d (s.passTo (p.lbAt + 2500000)) else s

def execLoopbackRetry (d : Nat) (s : State) : Host.Outcome State Fault Refusal := onLive d s (loopbackRetry d)

/-- The die's pads are held by its mate: it becomes a degraded standby (R345, R348). -/
def gotSeized (d : Nat) (s : State) : State :=
  let s := unready d ((s.wr d PAIR_STAT.SEIZED (s.rd (mateOf d) PAIR_STAT.SEIZING)).wr d PAIR_STAT.SWPEND 0)
  let s := s.modPair d fun p => { p with swapTs := none, dueAt := none, releasing := none, swapping := false }
  (setRole d 3 (markLast d s)).raise d 468 3 0

/-- A seize from the mate is seen (R345, R348). -/
def seizeReceived (d : Nat) (s : State) : State :=
  if s.bit (mateOf d) PAIR_STAT.SEIZING && !s.bit d PAIR_STAT.SEIZED then gotSeized d s else s

def execSeizeReceived (d : Nat) (s : State) : Host.Outcome State Fault Refusal := onLive d s (seizeReceived d)

/-- An active die that has not released sees its mate drive: it releases as if seized (R347). -/
def mateDrivingSeen (d : Nat) (s : State) : State :=
  let r := s.rd d PAIR_STAT.ROLE
  if !s.divided d && (r == 1 || r == 4) && !s.hasReleased d && s.drivingLine (mateOf d) then gotSeized d s else s

def execMateDrivingSeen (d : Nat) (s : State) : Host.Outcome State Fault Refusal := onLive d s (mateDrivingSeen d)

/-! Resynchronisation (R354 to R357) -/

/-- A standby that is not ready may request the snapshot (R293, R354). -/
def State.mayResync (s : State) (d : Nat) : Bool :=
  let r := s.rd d PAIR_STAT.ROLE
  !s.divided d && (r == 2 || r == 3) && !s.bit d PAIR_STAT.READY && !(s.getPair d).sev5 &&
    s.rd d GLB_PHASE.PHASE == 5 && s.bit d PAIR_STAT.PATHA && s.bit d PAIR_STAT.PATHB

/-- The snapshot is requested (R354); it carries what was still to be forwarded (R26, R355). -/
def snapshotStart (d : Nat) (s : State) : State :=
  if s.mayResync d then
    let s := ((s.wr d PAIR_STAT.RESYNC 2).modPair d fun p => { p with snapAt := s.pt, items := [] }).modFwd d fun _ => []
    let s := s.modLpt d fun x => { x with snap := none }
    s.forEach (List.range 8) fun n s => (s.modTrk d n fun x => { x with snap := none }).modEnc d n fun x => { x with snap := none }
  else s

/-- A not-ready standby in full service requests the snapshot, unless it runs one, compares, or waits after a failure. -/
def execSnapshotRequest (d : Nat) (s : State) : Host.Outcome State Fault Refusal :=
  onLive d s fun s => if 2 ≤ s.rd d PAIR_STAT.RESYNC then s else snapshotStart d s

/-- A snapshot fails (R354). -/
def snapshotFail (d : Nat) (s : State) : State :=
  ((s.wr d PAIR_STAT.RESYNC 4).modPair d fun p => { p with failAt := s.pt }).raise d 471 3 0

/-- A snapshot not complete within 50 ms fails (R354). -/
def resyncTimeout (d : Nat) (s : State) : State :=
  if s.rd d PAIR_STAT.RESYNC = 2 then snapshotFail d (s.passTo ((s.getPair d).snapAt + 125000000)) else s

def execResyncTimeout (d : Nat) (s : State) : Host.Outcome State Fault Refusal := onLive d s (resyncTimeout d)

/-- 100 ms after a failure the standby requests the snapshot again (R354). -/
def resyncRetry (d : Nat) (s : State) : State :=
  if s.rd d PAIR_STAT.RESYNC = 4 then snapshotStart d (s.passTo ((s.getPair d).failAt + 250000000)) else s

def execResyncRetry (d : Nat) (s : State) : Host.Outcome State Fault Refusal := onLive d s (resyncRetry d)

/-- Copies the bits `mask` of the register word at window offset `o` from die `a` to die `d`. -/
def copyWord (a d o : Nat) (mask : Word) (s : State) : State :=
  let x := s.reg (d * dieSpan + o)
  let y := s.reg (a * dieSpan + o)
  s.setReg (d * dieSpan + o) ((x &&& ~~~mask) ||| (y &&& mask))

/-- Copies the fields of access rw of the per-axis register sets (R355). -/
def copyAxisSets (a d : Nat) (s : State) : State :=
  s.forEach (List.range 21) fun b s =>
    (blockRows b).foldl (fun s r =>
      if r.nax = 8 ∧ r.ax = 0x1000 then
        s.forEach (List.range 8) fun n s => s.forEach (List.range r.nix) fun i s => s.forEach (List.range r.words) fun k s =>
          copyWord a d (r.off + n * r.ax + i * r.ix + 4 * k) (BitVec.ofNat 32 (r.rw.getD k 0)) s
      else s) s

/-- Settings in force and the law states that belong to the register sets (R355). -/
def copySettings (a d n : Nat) (s : State) : State :=
  let e := s.getExc a n
  let t := s.getTrk a n
  let c := s.getEnc a n
  let l := s.getLaw a n
  let s := s.modExc d n fun x =>
    { x with en := e.en, drive := e.drive, group := e.group, bw := e.bw, finc := e.finc, amp := e.amp, pendCtrl := e.pendCtrl,
             pendFinc := e.pendFinc, pendAmp := e.pendAmp, ampFrom := e.ampFrom, ampK := e.ampK }
  let s := s.modTrk d n fun x => { x with typ3 := t.typ3, bw := t.bw, code := t.code, ppm := t.ppm, pendCtrl := t.pendCtrl, pendSect := t.pendSect }
  let s := s.modEnc d n fun x => { x with mode := c.mode, mech := c.mech, lines := c.lines }
  let law := fun (f : Fld) (s : State) => copyWord a d (f.addr 0 n 0) 0xFFFFFFFF#32 s
  let s := law LAW_CTRL.RUN (law LAW_SCHED.PER (law LAW_BANK.ACT s))
  let s := s.wr d LAW_AXSTAT.PEND (b2n l.pendAt.isSome) n
  let s := s.wr d LAW_AXSTAT.RUNNING (b2n (s.bit d LAW_CTRL.RUN n && l.pendAt.isNone)) n
  s.modLaw d n fun x => { x with pendAt := l.pendAt }

/-- Copies words `lo` to `hi - 1` of every slot record of axis `n` (R355). -/
def copySlots (a d n lo hi : Nat) (s : State) : State :=
  s.forEach (List.range (s.lawSlots d)) fun i s => s.forEach ((List.range hi).drop lo) fun w s => s.setSw d n i w (s.sw a n i w)

/-- Fade position and queued request (R355). -/
def copyFade (a d n : Nat) (s : State) : State :=
  let l := s.getLaw a n
  let s := copyWord a d (LAW_BANK.ACT.addr 0 n 0) 0xFFFFFFFF#32 (copyWord a d (LAW_FADE.REMAIN.addr 0 n 0) 0xFFFFFFFF#32 s)
  let s := s.wr d LAW_RUNCNT.COUNT (s.rd a LAW_RUNCNT.COUNT n) n
  s.modLaw d n fun x => { x with fadeLen := l.fadeLen, fadeK := l.fadeK, target := l.target, fadeFrom := l.fadeFrom, first := l.first, wr := l.wr }

/-- The tracker row of R355, taken as the active die stands at its latest update: th, w and a; pilot phase and amplitude; SECTOR, MTURNS
and MECHVALID. The standby applies it at U + 16 (`trkSnapTake`). -/
def copyTracker (a d n : Nat) (s : State) : State :=
  let t := s.getTrk a n
  let e := s.getExc a n
  let p := (t.hist.head?).getD { u := s.pt / 1000 * 1000, th := t.th, ang := t.th, w := t.w, a := t.a }
  let y : TrkSnap :=
    { u := p.u, th := t.th, w := t.w, a := t.a, af := t.af, pub := p, turns := p.ang / 1099511627776,
      sect := s.rd a TRK_SECTOR.SECTOR n, mturns := s.rd a TRK_SECTOR.MTURNS n, mechv := s.rd a TRK_STAT.MECHVALID n,
      pi := e.pi, pq := e.pq, flip := e.flip }
  s.modTrk d n fun x => { x with snap := some y }

/-- The line-phase tracker's θ and f (R355), taken at its latest update; a tracker that is off holds them at once. -/
def copyLpt (a d : Nat) (s : State) : State :=
  let t := s.getLpt a
  match t.hist with
  | x :: _ =>
    if s.bit d LPT_CTRL.EN then s.modLpt d fun r => { r with snap := some (x.1, t.th, t.f) }
    else itemApplied d 56 (s.modLpt d fun r => { r with th := t.th, f := t.f })
  | [] => itemApplied d 56 (s.modLpt d fun r => { r with th := t.th, f := t.f })

/-- ENC raw and reported counts, DIR, HELD, ARMED and FIRST (R355), which wait for U + 16 (`encSnapTake`). -/
def copyEncoder (a d n : Nat) (s : State) : State :=
  let u := ((s.getTrk a n).hist.head?.map fun p => p.u).getD (s.pt / 1000 * 1000)
  let y : EncSnap := { u := u, c := encRegs s a n, armed := s.bit a ENC_IDX.ARMED n, first := s.bit a ENC_IDX.FIRST n }
  s.modEnc d n fun x => { x with snap := some y }

/-- The carrel: fixed, active and pending pages with their tags and map states, at the same page numbers (R355, R356). -/
def copyCarrel (a d : Nat) (s : State) : State :=
  let st := fun p => s.rd a TBL_PAGE.STATE p
  let pages := (List.range 32).filter fun p => st p = 1 || st p = 4 || st p = 5
  let s := s.forEach pages fun p s =>
    let old := d * 65536 + p * 2048
    let new := s.carrel.filter fun e => a * 65536 + p * 2048 ≤ e.1 && e.1 < a * 65536 + (p + 1) * 2048
    let s := { s with carrel := s.carrel.drop old (old + 2048) }
    let s := new.foldl (fun s e => s.modEntry d (e.1 - a * 65536) fun _ => e.2) s
    copyWord a d (TBL_PAGE.STATE.addr 0 p 0) 0xFFFFFFFF#32 s
  s.forEach (List.range 8) fun n s => s.forEach (List.range 4) fun t s =>
    let m := s.getSlot a n t
    let s := (s.wr d TBL_RES.PAGE0 (s.rd a TBL_RES.PAGE0 n t) n t).wr d TBL_RES.PAGE1 (s.rd a TBL_RES.PAGE1 n t) n t
    s.modSlot d n t fun x => { x with map := m.map, unmap := m.unmap }

/-- PWM active and shadow duties; band references, half-bands and lock states (R355). -/
def copyPwm (a d n : Nat) (s : State) : State :=
  s.forEach [0, 1, 2] fun j s =>
    let m := s.getLeg a n j
    let s := (s.wr d PWM_DUTY.DUTY (s.rd a PWM_DUTY.DUTY n j) n j).wr d BND_LEG.REF (s.rd a BND_LEG.REF n j) n j
    let s := (s.wr d BND_LEG.HB (s.rd a BND_LEG.HB n j) n j).wr d BND_FMEAS.LOCKED (s.rd a BND_FMEAS.LOCKED n j) n j
    s.modLeg d n j fun x => { x with duty := m.duty, arrive := m.arrive, bandWas := m.bandWas, lockRun := m.lockRun, limRun := m.limRun, seed := m.seed, able := m.able }

/-- Item of row `k` of the table of R355, for axis `n` where the row is taken axis by axis. -/
def snapshotItem (a d k n : Nat) (s : State) : State :=
  match k with
  | 0 => s.forEach (List.range 8) fun n s => copySettings a d n s
  | 1 => s.forEach (List.range 8) fun n s => copyFade a d n (copySlots a d n 0 20 s)
  | 2 => copySlots a d n 20 27 s
  | 3 => copyTracker a d n (if n = 0 then copyLpt a d s else s)
  | 4 => copyEncoder a d n s
  | 5 => copyCarrel a d s
  | _ => copyPwm a d n s

/-- A snapshot item arrives and is applied, or waits for its update, or meets a CRC error that cannot be retried (R354, R355). -/
def pairSnapshotItem (d k n : Nat) (crc : Bool) (s : State) : State :=
  let s := if s.bridgeUp d then s.inject d 8 464 7 2 else s
  if s.rd d PAIR_STAT.RESYNC ≠ 2 ∨ !s.bridgeUp d then s
  else if !crc then snapshotFail d s
  else
    let a := mateOf d
    let n := if k = 0 ∨ k = 1 ∨ k = 5 then 0 else n
    let s := if k = 0 then copyAxisSets a d s else s
    let s := snapshotItem a d k n s
    if k = 3 ∨ k = 4 then s else itemApplied d (8 * k + n) s

def execPairSnapshotItem (d k n : Nat) (crc : Bool) (s : State) : Host.Outcome State Fault Refusal :=
  onItem (s.hasDie d && k < 7 && n < 8) s fun s => if (s.getDie d).inReset then s else pairSnapshotItem d k n crc s

/-! Shadow comparison (R358) -/

/-- The value of row `k` of the table of R358 (axis `n`, leg `j`) exceeds its tolerance between the mates; angles are compared where both
have published the same update. -/
def shadowExceeds (s : State) (d k n j : Nat) : Bool :=
  let a := mateOf d
  let far := fun (x y : Int) (t : Nat) => decide ((t : Int) < x - y ∨ (t : Int) < y - x)
  match k with
  | 0 =>
    if s.bit a TRK_STAT.ANGVALID n && s.bit d TRK_STAT.ANGVALID n then
      match (s.getTrk a n).hist with
      | x :: _ =>
        match (s.getTrk d n).hist.find? fun y => y.u == x.u with
        | some y => far (wrapDiff 40 x.ang y.ang) 0 (s.rd d PAIR_TOL.TANG * 16777216)
        | none => false
      | [] => false
    else false
  | 1 =>
    s.bit a PWM_CTRL.EN n && !s.bit a PWM_CTRL.MODE n &&
      far (s.getLeg a n j).duty (s.getLeg d n j).duty (s.rd d PAIR_TOL.TDUTY)
  | 2 =>
    s.bit a PWM_CTRL.MODE n &&
      (far (s.rdI a BND_LEG.REF n j) (s.rdI d BND_LEG.REF n j) (s.rd d PAIR_TOL.TBAND) ||
        far (s.rd a BND_LEG.HB n j) (s.rd d BND_LEG.HB n j) (s.rd d PAIR_TOL.TBAND))
  | 3 => far (wrapDiff 32 (s.rd a ENC_RAW.COUNT n) (s.rd d ENC_RAW.COUNT n)) 0 1
  | _ =>
    s.rd a LAW_CTRL.RUN n != s.rd d LAW_CTRL.RUN n || s.rd a LAW_CTRL.LEN n != s.rd d LAW_CTRL.LEN n ||
      s.rd a LAW_BANK.ACT n != s.rd d LAW_BANK.ACT n

/-- The active die's value arrives and is compared (R358): an exceedance counts, restarts the comparison time, and makes a ready
standby not ready and resynchronise. -/
def shadowCompare (d k n j : Nat) (s : State) : State :=
  let r := s.rd d PAIR_STAT.ROLE
  let ready := s.bit d PAIR_STAT.READY
  if s.bridgeUp d && !s.divided d && (r == 2 || r == 3) && (ready || s.rd d PAIR_STAT.RESYNC == 3) && shadowExceeds s d k n j then
    let s := (s.addSat d PAIR_CNT.SHMIS).modPair d fun p => { p with shadowAt := s.pt }
    if ready then snapshotStart d (unready d s) else s
  else s

def execShadowCompare (d k n j : Nat) (s : State) : Host.Outcome State Fault Refusal :=
  onItem (s.hasDie d && k < 5 && n < 8 && j < 3) s fun s => if (s.getDie d).inReset then s else shadowCompare d k n j s

/-- The mates have measured different base images: slots 2, 3 and 4 (R362, R475). -/
def imagesDiffer (s : State) (d : Nat) : Bool :=
  (s.getDie d).measured && (s.getDie (mateOf d)).measured &&
    [2, 3, 4].any fun k => s.rd d MSR_SLOT.DIGEST k != s.rd (mateOf d) MSR_SLOT.DIGEST k

/-- TIME ms without an exceedance (R358): the standby declares itself ready, unless the base images differ (R362). -/
def shadowTimeExpiry (d : Nat) (s : State) : State :=
  if s.rd d PAIR_STAT.RESYNC = 3 then
    let s := s.passTo ((s.getPair d).shadowAt + max 1 (s.rd d PAIR_SHADOW.TIME) * 2500000)
    if imagesDiffer s d then s
    else
      let s := (s.wr d PAIR_STAT.READY 1).wr d PAIR_STAT.RESYNC 0
      let s := if s.rd d PAIR_STAT.ROLE = 3 then s.wr d PAIR_STAT.ROLE 2 else s
      s.raise d 472 3 0
  else s

def execShadowTimeExpiry (d : Nat) (s : State) : Host.Outcome State Fault Refusal := onLive d s (shadowTimeExpiry d)

end Sys2Proof.Machine
end

