-- ==== Sys2Proof/Machine/HostOps.lean ====
section
/-!
DEFINITION. The host interface: link, MSI-X, rings, doorbells, queue shares, event and telemetry rings, firmware queues
(R378 to R399). The commands of a ring are in Host.lean.
-/

namespace Sys2Proof.Machine

/-! Function and MSI-X (R378, R379, R382) -/

/-- The function of die `d` can send: bonded, enabled, link up, D0, die out of reset (R378, R379). -/
def State.fnUp (s : State) (d : Nat) : Bool :=
  s.bit d HIF_ID.BONDED && s.bit d HIF_ID.ENABLED && s.bit d HIF_ID.LINKUP && !s.bit d HIF_ID.D3 && !(s.getDie d).inReset

/-- The configuration header of a function (R378). -/
structure ConfigHeader where
  vendor : Nat
  device : Nat
  revision : Nat
  classCode : Nat
  subVendor : Nat
  subId : Nat
  serial : Nat
  deriving DecidableEq, Repr

/-- The configuration header of the function of die `d`: none where no endpoint is bonded. The serial number is that of the die's
calibration row in [31:0], with the die number in [34:32] (R378). -/
def State.configHeader (s : State) (d : Nat) : Option ConfigHeader :=
  if s.bit d HIF_ID.BONDED then
    some { vendor := 0x1D4B, device := 0x47C1, revision := s.rd d GLB_ID.STEP, classCode := 0x118000,
           subVendor := s.opt d 0x024 2, subId := s.opt d 0x026 2, serial := s.flashLe d 3 8 8 % 2 ^ 32 + d * 2 ^ 32 }
  else none

/-- Writes bytes to host memory from address `a`. -/
def putHost (s : State) (a : Nat) (bs : List Byte) : State :=
  (bs.foldl (fun (p : State × Nat) b =>
    ({ p.1 with hostmem := p.1.hostmem.set (p.2 % 2 ^ 64) b 0 }, p.2 + 1)) (s, a)).1

/-- Sends vector `v` of function `d`, or sets its pending bit while it is masked or the function is in D3hot (R379, R382). -/
def msixSend (d v : Nat) (s : State) : State :=
  let m := s.getMsix d
  if !m.en then s
  else if m.fmask || bitOf m.vmask v || !s.fnUp d then s.modMsix d fun m => { m with pend := putBit m.pend v true }
  else { s with msixSent := s.msixSent.set (d * 64 + v) (s.msixSent.get (d * 64 + v) 0 + 1) 0 }

/-- Pending vectors that may be sent now are sent (R382). -/
def msixFlush (d : Nat) (s : State) : State :=
  let m := s.getMsix d
  if !m.en || m.fmask || !s.fnUp d then s
  else s.forEach (List.range 64) fun v s =>
    if bitOf m.pend v && !bitOf m.vmask v then msixSend d v (s.modMsix d fun m => { m with pend := putBit m.pend v false }) else s

/-- HIF_ID.MSIX: enabled and not masked. -/
def showMsix (d : Nat) (s : State) : State :=
  let m := s.getMsix d
  s.wr d HIF_ID.MSIX (b2n (m.en && !m.fmask))

/-- The host unmasks or masks vector `v` of function `d`; `v` = 64 stands for the function: MSI-X Enable with Function Mask
clear, or Function Mask set (R382). -/
def msixUnmask (d v : Nat) (on : Bool) (s : State) : State :=
  let s := s.modMsix d fun m =>
    if v < 64 then { m with vmask := putBit m.vmask v (!on) }
    else if on then { m with en := true, fmask := false } else { m with fmask := true }
  msixFlush d (showMsix d s)

def execMsixUnmask (d v : Nat) (on : Bool) (s : State) : Host.Outcome State Fault Refusal :=
  onItem (d < 2 && s.hasDie d && v < 65) s fun s => if (s.getDie d).inReset then s else msixUnmask d v on s

/-! Rings (R383 to R387) -/

/-- Entries of ring `r`. -/
def ringSize (s : State) (d r : Nat) : Nat := 2 ^ (s.rd d HIF_RCFG.SIZE r + 6)

/-- The ring's share in descriptors (R395). -/
def ringShare (s : State) (d r : Nat) : Nat := max 1 (s.rd d HIF_RPARM.QSIZE r) * 128

/-- CMD and ARC rings are host-to-device (R383). -/
def toDevice (s : State) (d r : Nat) : Bool := s.rd d HIF_RCFG.TYPE r == 0 || s.rd d HIF_RCFG.TYPE r == 4

/-- Writes the index shadow of R386; while the function cannot send it waits (R379). -/
def ringShadow (d r : Nat) (s : State) : State :=
  if !s.fnUp d then s.modRing d r fun x => { x with stale := true }
  else
    let st := s.rd d HIF_RSTAT.STATE r + 16 * s.rd d HIF_RSTAT.ERR r
    putHost (s.modRing d r fun x => { x with stale := false }) (s.rd d HIF_RSHAD.ADDR r * 8)
      (leBytes (s.rd d HIF_RIDX.DEV r) 2 ++ leBytes st 2 ++ leBytes (s.ptD d % 2 ^ 32) 4)

/-- hif-ring-err with ADDR `a` (R385, R387). -/
def ringErr (d a : Nat) (s : State) : State := s.raise d 497 3 a

/-- A ring halts with an error code. -/
def ringHalt (d r err : Nat) (s : State) : State :=
  ringShadow d r ((s.wr d HIF_RSTAT.STATE 2 r).wr d HIF_RSTAT.ERR err r)

/-- QSIZE total of the enabled rings. -/
def ringAlloc (s : State) (d : Nat) : Nat :=
  ((List.range 64).map fun r => if s.bit d HIF_RCFG.EN r then max 1 (s.rd d HIF_RPARM.QSIZE r) else 0).sum

/-- HIF_QUSE in step: shares given, and the highest occupancy in 4 KiB. -/
def showShares (d : Nat) (s : State) : State :=
  let used := ((List.range 64).map fun r => (s.getRing d r).share.length).sum
  (s.wr d HIF_QUSE.ALLOC (ringAlloc s d)).wr d HIF_QUSE.PEAK (max (s.rd d HIF_QUSE.PEAK) ((used * 32 + 4095) / 4096))

/-- Why EN := 1 is refused, 0 where it is accepted (R387). -/
def ringRefuse (s : State) (d r : Nat) : Nat :=
  let ty := s.rd d HIF_RCFG.TYPE r
  let c := s.rd d HIF_RCFG.CPLR r
  if 4 < ty ∨ 10 < s.rd d HIF_RCFG.SIZE r then 1
  else if toDevice s d r && !(s.bit d HIF_RCFG.EN c && s.rd d HIF_RCFG.TYPE c == 1) then 1
  else if 56 < ringAlloc s d + max 1 (s.rd d HIF_RPARM.QSIZE r) then 1
  else if s.rd d GLB_PHASE.PHASE < 4 then 6
  else 0

/-- EN := 1 on a ring that is off (R387). -/
def ringEnable (d r : Nat) (s : State) : State :=
  let e := ringRefuse s d r
  if e ≠ 0 then ringErr d r (s.wr d HIF_RSTAT.ERR e r)
  else
    let s := ((s.wr d HIF_RCFG.EN 1 r).wr d HIF_RSTAT.STATE 1 r).wr d HIF_RSTAT.ERR 0 r
    let s := ((s.wr d HIF_RIDX.HOST 0 r).wr d HIF_RIDX.DEV 0 r).modRing d r fun _ => {}
    ringShadow d r (showShares d s)

/-- HIF_FWCTL.COUNT in step. -/
def showFw (f : Nat) (s : State) : State := s.wr f HIF_FWCTL.COUNT (s.getFwq f).length

/-- Descriptors of the firmware queues that do not satisfy `p` are discarded. -/
def keepFw (p : FwEnt → Bool) (s : State) : State :=
  s.forEach (List.range s.dies) fun f s => showFw f (s.modFwq f fun q => q.filter p)

/-- A COLOPH command of ring `r` is in execution: the die's signer holds its request (R388, R389). -/
def ringBusy (s : State) (d r : Nat) : Bool := (s.getSignq d).any fun q => match q.who with | .host k _ _ => k == r | _ => false

/-- A disabled ring goes off with its final shadow and its share is discarded; a CPL ring takes the CMD and ARC rings that name it with
it (R387). -/
def ringOff (d r : Nat) (s : State) : State :=
  let s := (s.wr d HIF_RSTAT.STATE 0 r).modRing d r fun x => { x with share := [] }
  let s := keepFw (fun f => !(f.fn == d && f.ring == r)) s
  let s := ringShadow d r s
  let s :=
    if s.rd d HIF_RCFG.TYPE r = 1 then
      s.forEach (List.range 64) fun q s =>
        if toDevice s d q && s.bit d HIF_RCFG.EN q && s.rd d HIF_RCFG.CPLR q == r then ringHalt d q 5 s else s
    else s
  showShares d s

/-- EN := 0 (R387): with a command in execution the ring is stopping until it has completed; then the ring goes off. -/
def ringDisable (d r : Nat) (s : State) : State :=
  let s := s.wr d HIF_RCFG.EN 0 r
  if s.rd d HIF_RSTAT.STATE r = 1 ∧ ringBusy s d r then
    showShares d (ringShadow d r ((s.wr d HIF_RSTAT.STATE 3 r).modRing d r fun x => { x with share := x.share.take 1 }))
  else ringOff d r s

/-- A write of HIF_RCFG by master `m` (R387). -/
def ringCfgWrite (m r : Nat) (v : Word) (d : Nat) (s : State) : State :=
  let a := HIF_RCFG.EN.addr d r 0
  let new := v.toNat % 2 ^ 25
  let old := (s.reg a).toNat % 2 ^ 25
  let off := s.rd d HIF_RSTAT.STATE r == 0
  if off then
    let s := s.setReg a (BitVec.ofNat 32 (new / 2 * 2))
    if bitOf new 0 then ringEnable d r s else s
  else if new / 2 ≠ old / 2 then s.accessFault d m true 2 5 a
  else if !bitOf new 0 && s.bit d HIF_RCFG.EN r then ringDisable d r s
  else s

/-- A write of a register that can be written only while the ring is off (R387). -/
def ringFixedWrite (m r a : Nat) (v : Word) (d : Nat) (s : State) : State :=
  if s.rd d HIF_RSTAT.STATE r = 0 then s.setReg a v else s.accessFault d m true 2 5 a

/-- The command writes HIF_RCFG with EN set, its other fields as `v` gives them. -/
def execRingEnable (d r : Nat) (v : Word) (s : State) : Host.Outcome State Fault Refusal :=
  onItem (d < 2 && s.hasDie d && r < 64) s fun s =>
    if (s.getDie d).inReset then s else ringCfgWrite d r (BitVec.ofNat 32 (putBit v.toNat 0 true)) d s

/-- The command writes HIF_RCFG with EN clear, its other fields as they stand. -/
def execRingDisable (d r : Nat) (s : State) : Host.Outcome State Fault Refusal :=
  onItem (d < 2 && s.hasDie d && r < 64) s fun s =>
    if (s.getDie d).inReset then s
    else ringCfgWrite d r (BitVec.ofNat 32 (putBit (s.reg (HIF_RCFG.EN.addr d r 0)).toNat 0 false)) d s

/-! Device-to-host rings (R384, R390 to R396) -/

/-- The ring has a free entry. -/
def ringFree (s : State) (d r : Nat) : Bool :=
  (s.rd d HIF_RIDX.DEV r + 1) % ringSize s d r != s.rd d HIF_RIDX.HOST r

/-- After a descriptor the ring's message is sent, or waits for CNT and TIME (R396). -/
def ringSignal (d r : Nat) (s : State) : State :=
  if !s.bit d HIF_RCFG.IRQ r then s
  else
    let x := s.getRing d r
    let n := x.unsig + 1
    if max 1 (s.rd d HIF_RMOD.CNT r) ≤ n ∨ s.rd d HIF_RMOD.TIME r = 0 then
      msixSend d (s.rd d HIF_RCFG.VEC r) (s.modRing d r fun x => { x with unsig := 0 })
    else s.modRing d r fun x => { x with unsig := n, unsigAt := if x.unsig = 0 then s.pt else x.unsigAt }

/-- Writes one descriptor to the ring, then the shadow, then the message (R396). -/
def ringPut (d r : Nat) (bs : List Byte) (s : State) : State :=
  let i := s.rd d HIF_RIDX.DEV r
  let s := putHost s (s.rd d HIF_RBASE.BASE r * 4096 + 32 * i) bs
  let s := s.wr d HIF_RIDX.DEV ((i + 1) % ringSize s d r) r
  ringSignal d r (ringShadow d r s)

/-- A descriptor for a device-to-host ring: written, waiting in the share, or dropped (R395). -/
def ringOffer (d r : Nat) (bs : List Byte) (s : State) : State :=
  let x := s.getRing d r
  if x.share = [] ∧ ringFree s d r ∧ s.fnUp d then
    (ringPut d r bs s).modRing d r fun x => { x with drops := 0, dropRun := false }
  else if x.share.length < ringShare s d r ∨ s.rd d HIF_RCFG.TYPE r = 1 then
    showShares d (s.modRing d r fun x => { x with share := x.share ++ [bs], drops := 0, dropRun := false })
  else
    let s := s.addSat d HIF_RSTAT.DROP 1 r
    let s := if x.dropRun then s else s.raise d 499 3 r
    s.modRing d r fun x => { x with drops := x.drops + 1, dropRun := true }

/-- Descriptors waiting in the share are written while there is room, at most `k` (R395). -/
def ringDrain (d r : Nat) : Nat → State → State
  | 0, s => s
  | k + 1, s =>
    match (s.getRing d r).share with
    | [] => s
    | b :: bs =>
      if ringFree s d r && s.fnUp d && s.rd d HIF_RSTAT.STATE r == 1 then
        ringDrain d r k (ringPut d r b (s.modRing d r fun x => { x with share := bs }))
      else s

def execQueueShareDrain (d r : Nat) (s : State) : Host.Outcome State Fault Refusal :=
  onItem (d < 2 && s.hasDie d && r < 64) s fun s =>
    if (s.getDie d).inReset || toDevice s d r then s else ringDrain d r (s.getRing d r).share.length s

/-- TIME µs after the first descriptor not yet signalled, the ring's message is sent (R396). -/
def moderation (d r : Nat) (s : State) : State :=
  let x := s.getRing d r
  if x.unsig = 0 then s
  else
    let s := s.passTo (x.unsigAt + s.rd d HIF_RMOD.TIME r * 2500)
    msixSend d (s.rd d HIF_RCFG.VEC r) (s.modRing d r fun x => { x with unsig := 0 })

def execMsixModerationTimeout (d r : Nat) (s : State) : Host.Outcome State Fault Refusal :=
  onItem (d < 2 && s.hasDie d && r < 64) s fun s => if (s.getDie d).inReset then s else moderation d r s

/-- The rings that serve type `ty` on function `d` now. -/
def ringsOf (s : State) (d ty : Nat) : List Nat :=
  (List.range 64).filter fun r => s.bit d HIF_RCFG.EN r && s.rd d HIF_RSTAT.STATE r == 1 && s.rd d HIF_RCFG.TYPE r == ty

/-- The functions that run. -/
def functions (s : State) : List Nat := [0, 1].filter fun d => s.hasDie d && s.bit d HIF_ID.BONDED && !(s.getDie d).inReset

/-- An event descriptor of die `src` is offered to the EVT rings (R392). -/
def evtOffer (src sev : Nat) (desc tail : List Byte) (s : State) : State :=
  s.forEach (functions s) fun d s => s.forEach (ringsOf s d 2) fun r s =>
    if s.rd d HIF_RPARM.PARM r % 8 ≤ sev then
      let x := s.getRing d r
      let bs := desc ++ leBytes x.seq 4 ++ leBytes (min x.drops 65535) 2 ++ leBytes src 2 ++ tail
      ringOffer d r bs (s.modRing d r fun x => { x with seq := (x.seq + 1) % 2 ^ 32 })
    else s

/-- Published results of a run, none or more, of axis `n` of die `d`, released at `tick`, are written to the TEL rings (R393). -/
def telOffer (d n tick runlsb : Nat) (outs : List TelRec) (s : State) : State :=
  if !s.divided d && s.activeOf d != d then s
  else
    let ax := 8 * (d / 2) + n
    s.forEach (functions s) fun f s => s.forEach (ringsOf s f 3) fun r s =>
      if !bitOf (s.rd f HIF_RAXMASK.MASK r) ax then s
      else
        let k := ((s.getRing f r).skip.lookup ax).getD 0
        let rest := (s.getRing f r).skip.filter fun e => e.1 ≠ ax
        if 0 < k then s.modRing f r fun x => { x with skip := (ax, k - 1) :: rest }
        else
          let s := s.modRing f r fun x => { x with skip := if s.rd f HIF_RPARM.PARM r = 0 then rest else (ax, s.rd f HIF_RPARM.PARM r) :: rest }
          outs.foldl (fun s o =>
            let bs := leBytes tick 8 ++ [BitVec.ofNat 8 ax, BitVec.ofNat 8 o.slot, BitVec.ofNat 8 (o.m.length - 1),
                BitVec.ofNat 8 (enc 6 o.e), BitVec.ofNat 8 (o.fl % 32), BitVec.ofNat 8 runlsb] ++
              leBytes (s.getRing f r).seq 2 ++ (List.range 8).flatMap fun j => leBytes (enc 16 (o.m.getD j 0)) 2
            ringOffer f r bs (s.modRing f r fun x => { x with seq := (x.seq + 1) % 65536 })) s

/-! Doorbells and descriptor fetch (R385, R384, R391) -/

/-- Line 18 of the harts of the die that serves a firmware ring follows its indices (R331, R391). -/
def fwLine (d r : Nat) (s : State) : State :=
  let f := s.rd d HIF_RCFG.FWDIE r
  if s.rd d HIF_RCFG.TYPE r = 0 ∧ s.bit d HIF_RCFG.MODE r then
    if s.hasDie f then s.setIrqs f 18 (s.rd d HIF_RIDX.HOST r != s.rd d HIF_RIDX.DEV r || s.getFwq f != []) else s
  else s

/-- A write of `size` bytes at offset `off` of BAR2 of function `d` (R385). -/
def doorbell (d off size v : Nat) (s : State) : State :=
  if off % 0x400 ≠ 0 ∨ size ≠ 4 then ringErr d off s
  else
    let r := off / 0x400 % 64
    let i := v % 65536
    let n := ringSize s d r
    let host := s.rd d HIF_RIDX.HOST r
    let dev := s.rd d HIF_RIDX.DEV r
    if s.rd d HIF_RSTAT.STATE r ≠ 1 then ringErr d r s
    else if n ≤ i then ringErr d r (ringHalt d r 2 s)
    else if !toDevice s d r && (dev + n - host) % n < (i + n - host) % n then ringErr d r (ringHalt d r 3 s)
    else fwLine d r (s.wr d HIF_RIDX.HOST i r)

def execDoorbell (d off size v : Nat) (s : State) : Host.Outcome State Fault Refusal :=
  onItem (d < 2 && s.hasDie d && off < 65536) s fun s =>
    if (s.getDie d).inReset || !s.bit d HIF_ID.LINKUP then s else doorbell d off size v s

/-- Descriptors of a firmware ring read but not yet popped (R391). -/
def fwHeld (s : State) (d r f : Nat) : Nat := ((s.getFwq f).filter fun e => e.fn == d && e.ring == r).length

/-- A descriptor of the ring can be read: the function sends, the ring runs, there is room for it, and an entry belongs to the device
(R384, R391, R395). -/
def fetchable (s : State) (d r : Nat) : Bool :=
  let fw := s.rd d HIF_RCFG.TYPE r == 0 && s.bit d HIF_RCFG.MODE r
  let f := s.rd d HIF_RCFG.FWDIE r
  let held := if fw then fwHeld s d r f else 0
  let room := if fw then decide ((s.getFwq f).length < 1024) && s.reach d f else decide ((s.getRing d r).share.length < ringShare s d r)
  s.fnUp d && toDevice s d r && s.rd d HIF_RSTAT.STATE r == 1 && room &&
    (s.rd d HIF_RIDX.DEV r + held) % ringSize s d r != s.rd d HIF_RIDX.HOST r

/-- One descriptor, as the read of host memory returns it, enters the device: the share of a hardware ring, whose device index
passes the entry, or the firmware queue of FWDIE (R384, R391, R395); `ok` false where the read fails (R397). -/
def descriptorFetch (d r : Nat) (ok : Bool) (bs : List Byte) (s : State) : State :=
  let fw := s.rd d HIF_RCFG.TYPE r == 0 && s.bit d HIF_RCFG.MODE r
  let f := s.rd d HIF_RCFG.FWDIE r
  let n := ringSize s d r
  let dev := s.rd d HIF_RIDX.DEV r
  if !fetchable s d r then s
  else if !ok then (ringHalt d r 4 s).raise d 498 3 r
  else
    let bs := (bs ++ List.replicate 32 0).take 32
    if fw then
      let s := s.modFwq f fun q => q ++ [{ fn := d, ring := r, desc := bs }]
      showFw f (s.setIrqs f 18 true)
    else
      let s := showShares d (s.modRing d r fun x => { x with share := x.share ++ [bs] })
      ringShadow d r (s.wr d HIF_RIDX.DEV ((dev + 1) % n) r)

def execDescriptorFetch (d r : Nat) (ok : Bool) (bs : List Byte) (s : State) : Host.Outcome State Fault Refusal :=
  onItem (d < 2 && s.hasDie d && r < 64) s fun s => if (s.getDie d).inReset then s else descriptorFetch d r ok bs s

/-! Completions (R390) and firmware rings (R391) -/

/-- Posts a completion of ring `r` of function `d`, if its CPL ring is enabled; the index named is that after the descriptor, and
descriptors of the share were read ahead. -/
def postCpl (d r : Nat) (cid : List Byte) (status r0 r1 : Nat) (s : State) : State :=
  let c := s.rd d HIF_RCFG.CPLR r
  if s.bit d HIF_RCFG.EN c && s.rd d HIF_RCFG.TYPE c == 1 && s.rd d HIF_RSTAT.STATE c == 1 then
    ringOffer d c (cid.take 2 ++ [BitVec.ofNat 8 (r % 64 + 64 * (d % 2)), BitVec.ofNat 8 status] ++
      leBytes ((s.rd d HIF_RIDX.DEV r + ringSize s d r - (s.getRing d r).share.length % ringSize s d r) % ringSize s d r) 2 ++
      leBytes 0 2 ++ leBytes r0 8 ++ leBytes r1 8 ++ leBytes (s.ptD d) 8) s
  else s

/-- HIF_FWCTL.POP: the head descriptor of the firmware queue is removed and its ring's device index advances (R391). -/
def fwPop (f : Nat) (s : State) : State :=
  match s.getFwq f with
  | [] => s
  | e :: q =>
    let s := s.modFwq f fun _ => q
    let s := s.wr e.fn HIF_RIDX.DEV ((s.rd e.fn HIF_RIDX.DEV e.ring + 1) % ringSize s e.fn e.ring) e.ring
    showFw f (fwLine e.fn e.ring (ringShadow e.fn e.ring s))

/-- HIF_FWCTL.POST: the completion in HIF_FWCPL is posted, or refused (R391). -/
def fwPost (f : Nat) (s : State) : State :=
  let c := s.rd f HIF_FWCPL.CPL
  let r := bitsOf c 16 6
  let d := bitsOf c 22 1
  if s.hasDie d && s.bit d HIF_RCFG.EN r && s.rd d HIF_RSTAT.STATE r == 1 && s.rd d HIF_RCFG.TYPE r == 0 && s.bit d HIF_RCFG.MODE r &&
      s.rd d HIF_RCFG.FWDIE r == f then
    postCpl d r (leBytes c 2) (bitsOf c 24 8) (bitsOf c 64 64) (bitsOf c 128 64) s
  else ringErr f r s

/-- A write of HIF_FWCTL. -/
def fwCtlWrite (v : Word) (f : Nat) (s : State) : State :=
  let s := if bitOf v.toNat 9 then fwPost f s else s
  if bitOf v.toNat 8 then fwPop f s else s

/-- A read of the low word of HIF_FWCMD latches the head descriptor with its ring and function (R391). -/
def fwCmdLatch (f : Nat) (s : State) : State :=
  let s := match s.getFwq f with
    | [] => s.wr f HIF_FWCMD.DESC 0
    | e :: _ => ((s.wr f HIF_FWCMD.DESC (leNum e.desc)).wr f HIF_FWCTL.RING e.ring).wr f HIF_FWCTL.FUNC e.fn
  s.latchWords (HIF_FWCMD.DESC.addr f 0 0) 8

/-- Firmware's writes of FWCTL act on dies whose HIF block is bonded; elsewhere they are access faults (R304). -/
def execFwPop (d : Nat) (s : State) : Host.Outcome State Fault Refusal :=
  onLive d s fun s =>
    if s.bit d HIF_ID.BONDED then fwCtlWrite 0x100#32 d s else s.accessFault d 2 true 2 4 (HIF_FWCTL.RING.addr d 0 0)

def execFwPost (d : Nat) (s : State) : Host.Outcome State Fault Refusal :=
  onLive d s fun s =>
    if s.bit d HIF_ID.BONDED then fwCtlWrite 0x200#32 d s else s.accessFault d 2 true 2 4 (HIF_FWCTL.RING.addr d 0 0)

/-! Link, loss and D3hot (R378, R379, R398) -/

/-- The endpoint trains its link at a rate (1 to 3) and a width (R378). -/
def linkTrained (d gen width : Nat) (s : State) : State :=
  if s.bit d HIF_ID.BONDED && s.bit d HIF_ID.ENABLED && decide (1 ≤ s.rd d GLB_PHASE.PHASE) then
    ((s.wr d HIF_ID.LINKUP 1).wr d HIF_ID.GEN gen).wr d HIF_ID.WIDTH width
  else s

/-- A link is found without a partner, or trains (R22, R378): `gen` 0 says that no partner answers. -/
def execPcieLinkTraining (d gen width : Nat) (s : State) : Host.Outcome State Fault Refusal :=
  onItem (d < 2 && s.hasDie d && gen < 4 && [1, 2, 4, 8].contains width) s fun s =>
    if (s.getDie d).inReset then s
    else if gen = 0 then (if s.bit d HIF_ID.ENABLED then (s.addSat d HIF_LINKCNT.DOWN).raise d 496 3 0 else s)
    else linkTrained d gen width s

/-- A loss of the function: every ring goes off with ERR 0x7, the shares are discarded, commands in execution are abandoned, and the
configuration space goes to its defaults (R398). -/
def functionOff (d : Nat) (s : State) : State :=
  let s := s.forEach (List.range 64) fun r s =>
    (((s.wr d HIF_RCFG.EN 0 r).wr d HIF_RSTAT.STATE 0 r).wr d HIF_RSTAT.ERR 7 r).modRing d r fun _ => {}
  let s := keepFw (fun f => f.fn != d) s
  let s := s.modSignq d fun q => q.map fun x => match x.who with | .host _ _ _ => { x with who := .gone } | _ => x
  showMsix d (showShares d ((s.modMsix d fun _ => {}).wr d HIF_ID.D3 0))

/-- Causes: 0 PERST#, 1 hot reset, 2 link disable, 3 Function Level Reset, 4 link down; all but PERST# need a link. -/
def functionLost (d cause : Nat) (s : State) : State :=
  if !(s.bit d HIF_ID.BONDED && s.bit d HIF_ID.ENABLED) || (cause != 0 && !s.bit d HIF_ID.LINKUP) then s
  else
    let s := functionOff d s
    let s := if cause = 4 then s else s.forEach (List.range 64) fun r s => (s.wr d HIF_RIDX.HOST 0 r).wr d HIF_RIDX.DEV 0 r
    let s := if cause = 3 then s else ((s.wr d HIF_ID.LINKUP 0).wr d HIF_ID.GEN 0).wr d HIF_ID.WIDTH 0
    let s :=
      if cause = 3 then s.addSat d HIF_LINKCNT.FLR
      else if cause < 2 then s.addSat d HIF_LINKCNT.PERST
      else s.addSat d HIF_LINKCNT.DOWN
    if cause = 2 ∨ cause = 4 then s.raise d 496 3 0 else s.raise d 500 3 0

def execFunctionLost (d cause : Nat) (s : State) : Host.Outcome State Fault Refusal :=
  onItem (d < 2 && s.hasDie d && 1 ≤ cause && cause < 5) s fun s => if (s.getDie d).inReset then s else functionLost d cause s

/-- PERST# resets the endpoint of the die alone (R56). -/
def execPciePerst (d : Nat) (s : State) : Host.Outcome State Fault Refusal :=
  onItem (d < 2 && s.hasDie d) s fun s => if (s.getDie d).inReset then s else functionLost d 0 s

/-- The function enters or leaves D3hot; on return the rings go on, with what waited (R379, R395). -/
def d3hotChange (d : Nat) (on : Bool) (s : State) : State :=
  let s := s.wr d HIF_ID.D3 (b2n on)
  if on then s
  else
    let s := s.forEach (List.range 64) fun r s =>
      if toDevice s d r || s.rd d HIF_RSTAT.STATE r != 1 then s else ringDrain d r (s.getRing d r).share.length s
    let s := s.forEach (List.range 64) fun r s => if (s.getRing d r).stale then ringShadow d r s else s
    msixFlush d s

def execD3hotChange (d : Nat) (on : Bool) (s : State) : Host.Outcome State Fault Refusal :=
  onItem (d < 2 && s.hasDie d) s fun s =>
    if (s.getDie d).inReset || !s.bit d HIF_ID.LINKUP then s else d3hotChange d on s

end Sys2Proof.Machine
end

