-- ==== Sys2Proof/Machine/Stacks.lean ====
section
/-!
DEFINITION. The stacks: records and their staging, drives, segments, protected windows, index, and the moving on of trace
records (R282, R430 to R441).
-/

namespace Sys2Proof.Machine

/-- Deferrable work is admitted on die `d` (PWR_ADMIT) and no dip is in force. -/
def State.deferOk (s : State) (d : Nat) : Bool := s.bit d PWR_ADMIT.DEFER && !s.bit d PWR_STAT.DIP

/-! Records (R433 to R435) -/

/-- A record's 4,096 bytes with its CRC (R435). -/
def stkBytes (stream die recno : Nat) (r : StkRec) : List Byte :=
  let head := [0x53, 0x54, 0x4B, 0x52] ++ leBytes 1 2 ++ [BitVec.ofNat 8 (stream % 4), BitVec.ofNat 8 (die % 8)] ++
    leBytes recno 8 ++ leBytes r.ts 8 ++ leBytes r.te 8 ++ leBytes r.payload.length 2 ++ leBytes r.items 2 ++
    [BitVec.ofNat 8 r.fl, BitVec.ofNat 8 r.shift] ++ leBytes r.aper 2 ++ leBytes r.mask 8 ++ leBytes 0 12
  let body := r.payload ++ List.replicate (4032 - r.payload.length) 0
  head ++ leBytes (crc32c (head ++ leBytes 0 4 ++ body)) 4 ++ body

/-- The record with its CRC formed again (R435). -/
def stkSeal (b : List Byte) : List Byte :=
  b.take 60 ++ leBytes (crc32c (b.take 60 ++ leBytes 0 4 ++ b.drop 64)) 4 ++ b.drop 64

/-- A staged record as it is written: record number, and bit 7 of byte 36 inside a protected window (R435). -/
def stkFinal (b : List Byte) (recno : Nat) (win : Bool) : List Byte :=
  let fl := (b.getD 36 0).toNat % 128 + 128 * b2n win
  stkSeal ((b.take 8 ++ leBytes recno 8 ++ b.drop 16).set 36 (BitVec.ofNat 8 fl))

/-- The bytes hold a record: its magic, and its stream is not a segment header's. -/
def isRecord (b : List Byte) : Bool := b.take 4 == [0x53, 0x54, 0x4B, 0x52] && (b.getD 6 0).toNat % 4 != 3

/-- The record passes its CRC (R435, R439). -/
def stkCrcOk (b : List Byte) : Bool := leNum ((b.drop 60).take 4) == crc32c (b.take 60 ++ leBytes 0 4 ++ b.drop 64)

/-- Ticks of a record. -/
def stkTs (b : List Byte) : Nat := leNum ((b.drop 16).take 8)
def stkTe (b : List Byte) : Nat := leNum ((b.drop 24).take 8)

/-- Two ranges overlap. -/
def overlaps (a b c e : Nat) : Bool := decide (a < e) && decide (c < b)

/-- The record in progress of a stream. -/
def StkDie.cur (x : StkDie) (st : Nat) : Option StkRec := match st with | 0 => x.rec0 | 1 => x.rec1 | _ => x.rec2

/-- Sets the record in progress of a stream. -/
def StkDie.put (x : StkDie) (st : Nat) (r : Option StkRec) : StkDie :=
  match st with | 0 => { x with rec0 := r } | 1 => { x with rec1 := r } | _ => { x with rec2 := r }

/-- Staging slots of die `d` (MEM_STGSIZE). -/
def stgSlots (s : State) (d : Nat) : Nat := max 1 (s.rd d MEM_STGSIZE.SIZE / 4096)

/-- The stacks die of namespace settings in force, and its settings for namespace `ns`. -/
def nsWindowed (s : State) (ns : Nat) : Bool := match s.stkSrv with | some c => s.bit c STK_NS.MODE ns | none => false

/-- A record is lost (R433, R437): counted on die `d`, and reported once for each run of drops. -/
def stkDrop (d st : Nat) (s : State) : State :=
  let s := s.addSat d STK_CNT.DROP
  let s := if (s.getStk d).dropRun then s else s.raise d 534 3 st
  s.modStk d fun x => { x with dropRun := true, gap := putBit x.gap st true }

/-- Where staging is full, the oldest windows-only record leaves it uncounted (R437). -/
def stgLeave (d : Nat) (s : State) : State :=
  if (s.getStk d).staged.length < stgSlots s d then s
  else s.modStk d fun x => { x with staged := x.staged.eraseP fun r => nsWindowed s r.ns }

/-- A closed record enters staging, or is dropped (R433). -/
def stage (d st : Nat) (r : StkRec) (s : State) : State :=
  let s := stgLeave d s
  let x := s.getStk d
  match s.dramSrv, (List.range (stgSlots s d)).find? fun k => !(x.staged.any fun y => y.slot == k) with
  | some ch, some k =>
    let r := { r with fl := r.fl + 32 * b2n (bitOf x.gap st) }
    let s := (s.rangeCheck ch (s.rd d MEM_STGBASE.BASE * 4096 + k * 4096) 4096).putDram ch (s.rd d MEM_STGBASE.BASE * 4096 + k * 4096)
      (stkBytes st d 0 r)
    s.modStk d fun x =>
      { x with staged := x.staged ++ [{ slot := k, stream := st, ns := s.rd d STK_STREAM.NS st, ts := r.ts, te := r.te }],
               dropRun := false, gap := putBit x.gap st false }
  | _, _ => stkDrop d st s

/-- The record in progress of a stream closes (R435). -/
def stkClose (d st : Nat) (s : State) : State :=
  match (s.getStk d).cur st with
  | none => s
  | some r => stage d st r (s.modStk d fun x => x.put st none)

/-- An item with its ticks and flags joins the record of its stream; the record closes first where the item does not fit or its
settings differ (R434, R435). -/
def stkAdd (d st ts te fl shift aper mask : Nat) (item : List Byte) (s : State) : State :=
  if !s.bit d STK_STREAM.EN st then s
  else
    let s := match (s.getStk d).cur st with
      | some r =>
        if 4032 < r.payload.length + item.length ∨ r.shift ≠ shift ∨ r.aper ≠ aper ∨ r.mask ≠ mask then stkClose d st s else s
      | none => s
    let r := ((s.getStk d).cur st).getD { ts := ts, shift := shift, aper := aper, mask := mask }
    s.modStk d fun x => x.put st (some { r with items := r.items + 1, te := te, fl := r.fl ||| fl, payload := r.payload ++ item })

/-- A value of stream 0 (R434): shifted, saturated, and whether it saturated. -/
def frameVal (s : State) (d c sh : Nat) : Int × Bool :=
  let v := s.rdI d FIL_OUT.VALUE c / ((2 ^ sh : Nat) : Int)
  (satI 16 v, satI 16 v != v)

/-- Every APER-th strobe a frame of the masked slots is taken (R434). -/
def stacksFrame (d : Nat) (s : State) : State :=
  if !s.bit d STK_STREAM.EN 0 then s.modStk d fun x => { x with frameAt := none }
  else
    let s := match (s.getStk d).frameAt with | some t => (s.passTo t).toGrid 250 | none => s.toGrid 250
    let sh := min (s.rd d STK_SLOTCFG.ASHIFT) 8
    let aper := max 1 (s.rd d STK_SLOTCFG.APER)
    let mask := s.rd d STK_SLOTMASK.MASK
    let cs := (List.range 64).filter fun c => bitOf mask c
    let vs := cs.map fun c => frameVal s d c sh
    let fl := cs.foldl (fun a c => a ||| bitsOf (s.reg (FIL_OUT.VALUE.addr d c 0)).toNat 24 4) 0
    let fl := fl + 16 * b2n (vs.any fun v => v.2)
    let s := stkAdd d 0 s.pt (s.pt + 1) fl sh aper mask (vs.flatMap fun v => leBytes (enc 16 v.1) 2) s
    s.modStk d fun x => { x with frameAt := some (s.pt + 250 * aper) }

def execStacksFrame (d : Nat) (s : State) : Host.Outcome State Fault Refusal := onLive d s (stacksFrame d)

/-- A record closes 100 ms after its first item (R435). -/
def execStacksRecordClose (d st : Nat) (s : State) : Host.Outcome State Fault Refusal :=
  onPart d st 3 s fun s =>
    match (s.getStk d).cur st with
    | none => s
    | some r => stkClose d st (s.passTo (r.ts + 250000000))

/-! Drives (R436, R437) -/

/-- The number of a record slot. -/
def driveKey (c k idx slot : Nat) : Nat := ((c * 4 + k) * 2 ^ 23 + idx) * 256 + slot

/-- A record slot of a drive; one never written holds no bytes. -/
def slotBytes (s : State) (c k idx slot : Nat) : List Byte := s.drive.get (driveKey c k idx slot) []

/-- Writes a record slot, and with STK_CTRL.SMIRROR the same one of the other drive where both controllers are ready (R441). -/
def putSlot (c k idx slot : Nat) (b : List Byte) (s : State) : State :=
  let s := { s with drive := s.drive.set (driveKey c k idx slot) b [] }
  if s.bit c STK_CTRL.SMIRROR && s.bit (1 - c) STK_STAT.RDY then
    { s with drive := s.drive.set (driveKey (1 - c) k idx slot) b [] }
  else s

/-- The written slots of a namespace: ring index, slot, bytes. -/
def nsSlots (s : State) (c k : Nat) : List (Nat × Nat × List Byte) :=
  s.drive.filterMap fun e =>
    if e.1 / 2 ^ 31 = c * 4 + k then some (e.1 / 256 % 2 ^ 23, e.1 % 256, e.2) else none

/-- The ring segments written: ring index and segment number, from their headers. -/
def nsSegs (s : State) (c k : Nat) : List (Nat × Nat) :=
  (nsSlots s c k).filterMap fun e => if e.2.1 = 0 then some (e.1, leNum ((e.2.2.drop 64).take 8)) else none

/-- The ticks a ring segment covers. -/
def segRange (s : State) (c k idx : Nat) : Option (Nat × Nat) :=
  ((nsSlots s c k).filter fun e => e.1 == idx && isRecord e.2.2).foldl
    (fun (a : Option (Nat × Nat)) e =>
      match a with
      | none => some (stkTs e.2.2, stkTe e.2.2)
      | some (x, y) => some (min x (stkTs e.2.2), max y (stkTe e.2.2))) none

/-- A ring segment overlaps a window of the list. -/
def segHeld (s : State) (c k idx : Nat) (wins : List Win) : Bool :=
  match segRange s c k idx with
  | some (a, b) => wins.any fun w => overlaps a b w.ts w.te
  | none => false

/-- SIZE of a namespace, as the die of its drive holds it. -/
def nsSize (s : State) (c k : Nat) : Nat := s.rd c STK_NS.SIZE k

/-- VALID of each namespace (R431): its capacity holds SIZE + 1 segments, and the sum of sizes stays within the bound. -/
def showNs (c : Nat) (s : State) : State :=
  s.forEach (List.range 4) fun k s =>
    let sum := ((List.range (k + 1)).map fun j => nsSize s c j).sum
    let ok := s.bit c STK_STAT.RDY && decide (nsSize s c k ≠ 0) && decide (nsSize s c k + 1 ≤ (s.getMem c).caps.getD k 0) &&
      decide (sum ≤ 7629394)
    (s.wr c STK_NS.VALID (b2n ok) k).wr c STK_NS.WIN (s.getNsr c k).wins.length k

/-- The ring segment the next one is written to: one not used yet, else the oldest that no window protects (R437). -/
def segPick (s : State) (c k : Nat) : Option Nat :=
  let segs := (nsSegs s c k).filter fun e => e.1 < nsSize s c k
  let start := ((s.getNsr c k).last.map fun i => i + 1).getD 0
  if segs.length < nsSize s c k then
    ((List.range (nsSize s c k - start)).map fun i => i + start).find? (fun i => !(segs.any fun e => e.1 == i)) <|>
      (List.range (nsSize s c k)).find? fun i => !(segs.any fun e => e.1 == i)
  else
    let free := segs.filter fun e => !segHeld s c k e.1 (s.getNsr c k).wins
    (free.foldl (fun (a : Option (Nat × Nat)) e =>
      match a with | none => some e | some x => if e.2 < x.2 then some e else some x) none).map fun e => e.1

/-- A new segment opens with its header (R436), or none can and the namespace is full (R437). -/
def segOpen (c k : Nat) (s : State) : State :=
  match segPick s c k with
  | none =>
    let s := s.modNsr c k fun x => { x with open_ := none }
    if s.bit c STK_NS.FULL k then s else (s.wr c STK_NS.FULL 1 k).raise c 533 3 k
  | some idx =>
    let s := s.wr c STK_NS.FULL 0 k
    let n := s.getNsr c k
    let dig := if n.dig = [] then List.replicate 32 0 else n.dig
    let pay := leBytes n.num 8 ++ [BitVec.ofNat 8 (k + 1)] ++ leBytes 0 7 ++ dig
    let s := { s with drive := s.drive.drop (driveKey c k idx 0) (driveKey c k idx 256) }
    let s := putSlot c k idx 0 (stkBytes 3 c n.recno { ts := s.pt, te := s.pt, payload := pay }) s
    s.modNsr c k fun x => { x with open_ := some (idx, 1), num := n.num + 1, last := some idx }

/-- Digest over the 1,048,576 bytes of a ring segment (R436). -/
def segDigest (s : State) (c k idx : Nat) : List Byte :=
  sha256 ((List.range 256).flatMap fun i =>
    let b := slotBytes s c k idx i
    b ++ List.replicate (4096 - b.length) 0)

/-- The open segment closes; its digest goes to the next one's header (R436). -/
def segClose (c k : Nat) (s : State) : State :=
  match (s.getNsr c k).open_ with
  | none => s
  | some (idx, _) => segOpen c k (s.modNsr c k fun x => { x with open_ := none, dig := segDigest s c k idx })

/-- The stacks-serving die, with its index ready. -/
def stkReady (s : State) : Option Nat := s.stkSrv.filter fun c => s.rd c STK_STAT.IDX == 2

/-- A full ring segment closes, and Flush is issued (R432, R436). -/
def stacksSegmentClose (k : Nat) (s : State) : State :=
  match stkReady s with
  | none => s
  | some c => match (s.getNsr c k).open_ with
    | some (_, 256) => segClose c k s
    | _ => s

def execStacksSegmentClose (k : Nat) (s : State) : Host.Outcome State Fault Refusal :=
  onItem (k < 4) s (stacksSegmentClose k)

/-- A record is written to the next slot of its namespace (R433, R436); in windows-only mode the first one of a trigger window that
begins late sets SHORT (R438). -/
def writeRec (c d : Nat) (r : Staged) (idx slot : Nat) (s : State) : State :=
  let n := s.getNsr c r.ns
  let inWin := n.wins.any fun w => overlaps r.ts r.te w.ts w.te
  let a := s.rd d MEM_STGBASE.BASE * 4096 + r.slot * 4096
  let b := match s.dramSrv with | some ch => s.dramBytes ch a 4096 | none => []
  let s := putSlot c r.ns idx slot (stkFinal b n.recno inWin) s
  let late := s.bit c STK_NS.MODE r.ns &&
    n.wins.any fun w => w.trig && !w.wrote && overlaps r.ts r.te w.ts w.te && decide (w.ts < r.ts)
  let s := if late then s.wr c STK_STAT.SHORT 1 else s
  s.modNsr c r.ns fun x =>
    { x with open_ := some (idx, slot + 1), recno := n.recno + 1,
             wins := x.wins.map fun w => if overlaps r.ts r.te w.ts w.te then { w with wrote := true } else w }

/-- A staged record may be written now: its namespace is in ring mode, or it overlaps a protected window (R437). -/
def recDue (s : State) (c : Nat) (r : Staged) : Bool :=
  !s.bit c STK_NS.MODE r.ns || (s.getNsr c r.ns).wins.any fun w => overlaps r.ts r.te w.ts w.te

/-- The deferrable task writes the oldest record of die `d` that is due (R433, R437); one whose namespace is not usable, or full, is
dropped. -/
def stacksRecordWrite (d : Nat) (s : State) : State :=
  match stkReady s with
  | none => s
  | some c =>
    if !s.deferOk c || !s.reach d c then s
    else match (s.getStk d).staged.find? (recDue s c) with
      | none => s
      | some r =>
        let gone := fun (s : State) => s.modStk d fun x => { x with staged := x.staged.filter fun y => y.slot != r.slot }
        if !s.bit c STK_NS.VALID r.ns then stkDrop d r.stream (gone s)
        else
          let s := if (s.getNsr c r.ns).open_.isNone then segOpen c r.ns s else s
          match (s.getNsr c r.ns).open_ with
          | none => stkDrop d r.stream (gone s)
          | some (idx, slot) => if 256 ≤ slot then s else gone (writeRec c d r idx slot s)

def execStacksRecordWrite (d : Nat) (s : State) : Host.Outcome State Fault Refusal := onLive d s (stacksRecordWrite d)

/-! Windows (R438) -/

/-- WIN of a namespace follows its table, which is kept in its header segment (R438), on both drives with SMIRROR (R441). -/
def showWin (c k : Nat) (s : State) : State :=
  let wins := (s.getNsr c k).wins
  let s :=
    if s.bit c STK_CTRL.SMIRROR && s.bit (1 - c) STK_STAT.RDY then
      (s.modNsr (1 - c) k fun x => { x with wins := wins }).wr (1 - c) STK_NS.WIN wins.length k
    else s
  s.wr c STK_NS.WIN wins.length k

/-- Segments a new window protects that no window protected before (R438). -/
def newlyHeld (s : State) (c k : Nat) (w : Win) : Nat :=
  ((nsSegs s c k).filter fun e => segHeld s c k e.1 [w] && !segHeld s c k e.1 (s.getNsr c k).wins).length

/-- A trigger window joins the table (R438): it merges with the trigger windows it overlaps or touches; a full table refuses it. -/
def winTrigger (c k ts te : Nat) (s : State) : State :=
  let wins := (s.getNsr c k).wins
  let near := wins.filter fun w => w.trig && decide (ts ≤ w.te) && decide (w.ts ≤ te)
  let rest := wins.filter fun w => !(w.trig && decide (ts ≤ w.te) && decide (w.ts ≤ te))
  if near.isEmpty && 64 ≤ wins.length then s.raise c 533 3 k
  else
    let w := near.foldl (fun (a : Win) x => { a with ts := min a.ts x.ts, te := max a.te x.te, wrote := a.wrote || x.wrote })
      { ts := ts, te := te, trig := true }
    showWin c k (s.modNsr c k fun n => { n with wins := rest ++ [w] })

/-- The ledger of die `c` records an assertion of package source `src` stamped `t` (R438). -/
def stkTrigger (m src t : Nat) (s : State) : State :=
  if s.bit m STK_TRIG.EN && s.rd m STK_TRIG.EVSRC == src then
    match s.stkSrv with
    | some c => winTrigger c (s.rd m STK_TRIG.NS) (t - s.rd m STK_TWIN.PRE * 25000000) (t + s.rd m STK_TWIN.POST * 25000000) s
    | none => s
  else s

/-! Service (R424, R432, R440, R441) -/

/-- The stacks-serving die in step with R424 on every die; a die that takes up service rebuilds its index (R440). -/
def stkChoose (s : State) : State :=
  let able := fun c => s.hasDie c && !(s.getDie c).inReset && s.bit c STK_STAT.RDY && s.bit c STK_CTRL.EN
  let new := [0, 1].find? able
  let s :=
    if new = s.stkSrv then s
    else
      let s := match s.stkSrv with | some c => s.wr c STK_STAT.IDX 0 | none => s
      match new with | some c => s.wr c STK_STAT.IDX 1 | none => s
  let s := { s with stkSrv := new }
  s.forEach (List.range s.dies) fun d s => (s.wr d STK_STAT.SRVOK (b2n new.isSome)).wr d STK_STAT.SRVD (new.getD 0)

/-- The NVMe controller of p0 die `d` is ready after training and initialisation (R424, R430); `caps` are the capacities of its
namespaces in segments, 0 for one that is not usable. A root port whose training finds no link partner, `gen` 0, raises stk-down and does
nothing else (R22). -/
def nvmeReady (d gen width : Nat) (caps : List Nat) (s : State) : State :=
  if gen = 0 then s.raise d 532 3 0 else
  let s := ((s.wr d STK_STAT.RDY 1).wr d STK_STAT.GEN gen).wr d STK_STAT.WIDTH width
  stkChoose (showNs d (s.modMem d fun m => { m with caps := caps, resets := [] }))

def execNvmeControllerReady (d gen width : Nat) (caps : List Nat) (s : State) : Host.Outcome State Fault Refusal :=
  onItem (d < 2 && s.hasDie d) s fun s => if (s.getDie d).inReset then s else nvmeReady d gen width caps s

/-- The controller is not ready any more. -/
def nvmeGone (d : Nat) (s : State) : State := stkChoose (showNs d (s.wr d STK_STAT.RDY 0))

/-- A command not done within 1 s resets the controller; three resets within 60 s make it not ready (R432). -/
def nvmeTimeout (d : Nat) (s : State) : State :=
  if !s.bit d STK_STAT.RDY then s
  else
    let rs := ((s.getMem d).resets.filter fun t => s.pt < t + 150000000000) ++ [s.pt]
    let s := s.modMem d fun m => { m with resets := rs }
    if 3 ≤ rs.length then (nvmeGone d s).raise d 532 3 0 else s

def execNvmeCommandTimeout (d : Nat) (s : State) : Host.Outcome State Fault Refusal :=
  onItem (d < 2 && s.hasDie d) s fun s => if (s.getDie d).inReset then s else nvmeTimeout d s

/-- The index of the serving die is built again: records wait meanwhile (R440). -/
def indexRebuild (s : State) : State := match s.stkSrv with | some c => s.wr c STK_STAT.IDX 1 | none => s

def execStacksIndexRebuild (s : State) : Host.Outcome State Fault Refusal := onPackage s indexRebuild

/-- What the index of a namespace yields (R440): a newest segment found partly written is closed as found, its unwritten and
CRC-failing slots zeroed; the next segment and record numbers follow. -/
def indexNs (c k : Nat) (s : State) : State :=
  let segs := nsSegs s c k
  let recno := (nsSlots s c k).foldl (fun a e => if isRecord e.2.2 then max a (leNum ((e.2.2.drop 8).take 8) + 1) else a) 0
  match segs.foldl (fun (a : Option (Nat × Nat)) e =>
      match a with | none => some e | some x => if x.2 < e.2 then some e else some x) none with
  | none => s.modNsr c k fun n => { n with open_ := none, num := 0, recno := 0, dig := [], last := none }
  | some (idx, num) =>
    let s := s.forEach ((List.range 255).map fun i => i + 1) fun i s =>
      let b := slotBytes s c k idx i
      if isRecord b && stkCrcOk b then s else putSlot c k idx i (List.replicate 4096 0) s
    s.modNsr c k fun n =>
      { n with open_ := none, num := num + 1, recno := recno, dig := segDigest s c k idx, last := some idx }

/-- The index is complete and service starts (R440). -/
def indexDone (s : State) : State :=
  match s.stkSrv with
  | none => s
  | some c =>
    if s.rd c STK_STAT.IDX = 1 then (s.forEach (List.range 4) fun k s => indexNs c k s).wr c STK_STAT.IDX 2 else s

def execStacksIndexDone (s : State) : Host.Outcome State Fault Refusal := onPackage s indexDone

/-! Trace records moved on (R282) -/

/-- Size of the DRAM ring (TRC_DSIZE). -/
def trcRing (s : State) (d : Nat) : Nat := max 4096 (s.rd d TRC_DSIZE.SIZE / 4096 * 4096)

/-- A trace record goes to the DRAM ring, or is dropped where it would reach TRC_RPTR (R282). -/
def trcToDram (d : Nat) (r : TrcRec) (bs : List Byte) (s : State) : State :=
  let n := trcRing s d
  let wp := s.rd d TRC_WPTR.PTR % n
  let room := (s.rd d TRC_RPTR.PTR + n - wp - 1) % n
  match s.dramSrv with
  | none => s
  | some ch =>
    if room < bs.length then
      let s := s.addSat d TRC_STAT.DROP
      let s := if (s.getTrc d).dropRunD then s else s.raise d 593 3 0
      s.modTrc d fun x => { x with dropRunD := true, gapD := putBit x.gapD r.ch true }
    else
      let gap := bitOf (s.getTrc d).gapD r.ch
      let bs := if gap && 8 < bs.length then bs.set 10 (BitVec.ofNat 8 (putBit (bs.getD 10 0).toNat 6 true)) else bs
      let base := s.rd d TRC_DBASE.BASE * 4096
      let s := s.forEach (List.range bs.length) fun i s => (s.rangeCheck ch (base + (wp + i) % n) 1).putDram ch (base + (wp + i) % n) [bs.getD i 0]
      (s.wr d TRC_WPTR.PTR ((wp + bs.length) % n)).modTrc d fun x => { x with gapD := putBit x.gapD r.ch false, dropRunD := false }

/-- The deferrable task moves the oldest record captured for DRAM or the stacks out of the buffer (R282). -/
def traceMoveOn (d : Nat) (s : State) : State :=
  let t := s.getTrc d
  match t.recs with
  | [] => s
  | r :: rs =>
    if r.dest = 0 ∨ !s.deferOk d then s
    else if r.dest = 1 ∧ s.dramSrv = none then s
    else
      let bs := (List.range r.len).map fun i => s.getTrcByte d ((r.start + i) % trcSize)
      let s := s.modTrc d fun x => { x with recs := rs }
      if r.dest = 1 then trcToDram d r bs s
      else stkAdd d 1 r.tick (r.tick + 1) (r.fl + 64 * b2n r.trig) 0 0 0 bs s

def execTraceMoveOn (d : Nat) (s : State) : Host.Outcome State Fault Refusal := onLive d s (traceMoveOn d)

end Sys2Proof.Machine
end

