-- ==== Sys2Proof/Machine/Mem.lean ====
section
/-!
DEFINITION. DRAM service: training, failover, mirror, ECC; and the ledger as the serving die writes it (R308 to R312, R424 to
R428).
-/

namespace Sys2Proof.Machine

/-! The ledger (R308, R309, R311) -/

/-- Segments of the ledger ring; 0 is taken as 1 (LEDG_SEGS). -/
def ledgSegs (s : State) (c : Nat) : Nat := max 1 (min (s.rd c LEDG_SEGS.SEGS) 4096)

/-- DRAM address of a slot of the ledger. -/
def ledgAddr (s : State) (c slot : Nat) : Nat := s.rd c LEDG_BASE.BASE * 2 ^ 20 + s.ledg.seg * 2 ^ 20 + slot * 32

/-- LEDG_STAT.SEG, LEDG_SEQ and LEDG_DIGEST of the serving die. -/
def showLedg (c : Nat) (s : State) : State :=
  let l := s.ledg
  ((s.wr c LEDG_STAT.SEG l.seg).wr c LEDG_SEQ.SEQ l.seq).wr c LEDG_DIGEST.DIGEST (leNum l.dig)

/-- Bytes written to DRAM at `a` by die `c`, the serving one. -/
def ledgPut (c a : Nat) (bs : List Byte) (s : State) : State := (s.rangeCheck c a bs.length).putDram c a bs

/-- A segment opens: header, and the digest of the previous one (R311). -/
def ledgOpen (c : Nat) (s : State) : State :=
  let l := s.ledg
  let head := leBytes 0x4C474450 4 ++ leBytes 1 2 ++ [BitVec.ofNat 8 c, 0] ++ leBytes l.num 8 ++ leBytes s.pt 8 ++ leBytes 0 8
  let dig := if l.dig = [] then List.replicate 32 0 else l.dig
  let s := ledgPut c (ledgAddr s c 0) (head ++ dig) s
  showLedg c { s with ledg := { l with open_ := true, slot := 2 } }

/-- Zeros over a range of the serving channel, and of its mirror. -/
def zeroDram (c a n : Nat) (s : State) : State :=
  let cut := fun (x : State) (ch : Nat) => { x with dram := x.dram.drop (ch * 2 ^ 35 + a) (ch * 2 ^ 35 + a + n) }
  let s' := cut s c
  if s.mirrored then cut s' (1 - c) else s'

/-- The open segment closes: unused slots are zeroed, its digest goes to the next one and to LEDG_DIGEST (R311). -/
def ledgClose (c : Nat) (s : State) : State :=
  if !s.ledg.open_ then s
  else
    let l := s.ledg
    let s := zeroDram c (ledgAddr s c l.slot) ((32768 - l.slot) * 32) s
    let dig := sha256 (s.dramBytes c (ledgAddr s c 0) 1048576)
    ledgOpen c { s with ledg := { l with dig := dig, num := l.num + 1, seg := (l.seg + 1) % ledgSegs s c } }

/-- The ledger takes records now: a serving die with EN = 1 and room in its open segment. -/
def ledgRoom (s : State) : Option Nat :=
  s.dramSrv.filter fun c => s.bit c LEDG_CTL.EN && s.ledg.open_ && decide (s.ledg.slot < 32768)

/-- The 32 bytes of a record (R309). -/
def ledgBytes (e : LedgEnt) (seq : Nat) : List Byte :=
  leBytes e.pt 8 ++ leBytes e.msg 4 ++ leBytes e.tail 4 ++ leBytes seq 4 ++ leBytes (min e.rep 65535) 2 ++ leBytes 0 2 ++
    leBytes e.detail 8

/-- A record is written with its package-wide sequence number, and joins stream 2 of the stacks (R308, R433). -/
def ledgWrite (c : Nat) (e : LedgEnt) (s : State) : State :=
  let l := s.ledg
  let bs := ledgBytes e l.seq
  let s := ledgPut c (ledgAddr s c l.slot) bs s
  let s := showLedg c { s with ledg := { l with slot := l.slot + 1, seq := (l.seq + 1) % 2 ^ 32 } }
  stkAdd c 2 e.pt (e.pt + 1) 0 0 0 0 bs s

/-- A record is lost (R312): counted in LEDG_STAT.LOST of the serving die, or of the p0 dies where none serves. -/
def ledgLose (d : Nat) (s : State) : State :=
  let s := { s with ledlost := s.ledlost.set d (s.ledlost.get d 0 + 1) 0 }
  match s.dramSrv with
  | some c => s.addSat c LEDG_STAT.LOST
  | none => s.forEach [0, 1] fun c s => if (s.getDie c).inReset then s else s.addSat c LEDG_STAT.LOST

/-- A record of die `d` waits for the ledger, or is lost where its queue of 512 is full, no die serves DRAM or EN = 0 (R308, R312). -/
def ledgQueue (d : Nat) (e : LedgEnt) (s : State) : State :=
  match s.dramSrv with
  | some c => if s.bit c LEDG_CTL.EN ∧ (s.getLedq d).length < 512 then s.modLedq d fun q => q ++ [e] else ledgLose d s
  | none => ledgLose d s

/-- A full segment closes (R311). -/
def ledgerSegmentClose (s : State) : State :=
  match s.dramSrv with
  | some c => if s.ledg.open_ && s.ledg.slot == 32768 then ledgClose c s else s
  | none => s

def execLedgerSegmentClose (s : State) : Host.Outcome State Fault Refusal := onPackage s ledgerSegmentClose

/-- A write of LEDG_CTL (R311): EN := 1 starts the ledger at segment 0 on the serving die; CLOSE closes the open segment. -/
def ledgCtlWrite (v : Word) (d : Nat) (s : State) : State :=
  let w := v.toNat
  let was := s.bit d LEDG_CTL.EN
  let s := s.wr d LEDG_CTL.EN (w % 2)
  if s.dramSrv ≠ some d then s
  else if bitOf w 0 && !was then ledgOpen d { s with ledg := { s.ledg with seg := 0, num := 0, dig := [] } }
  else if !bitOf w 0 then { s with ledg := { s.ledg with open_ := false } }
  else if bitOf w 1 then ledgClose d s
  else s

def execLedgClose (d : Nat) (s : State) : Host.Outcome State Fault Refusal :=
  onItem (d < 2 && s.hasDie d) s fun s =>
    if (s.getDie d).inReset then s
    else ledgCtlWrite (BitVec.ofNat 32 (s.rd d LEDG_CTL.EN + 2)) d s

/-! Service (R424, R425) -/

/-- The channel of p0 die `c` can serve. -/
def memAble (s : State) (c : Nat) : Bool :=
  s.hasDie c && !(s.getDie c).inReset && s.bit c MEM_STAT.UP && s.bit c MEM_CTRL.EN

/-- MEM_STAT in step on every die. -/
def showMem (s : State) : State :=
  let srv := s.dramSrv
  let size := match srv with | some c => s.dramCap c / 2 ^ 30 | none => 0
  s.forEach (List.range s.dies) fun d s =>
    ((s.wr d MEM_STAT.SRVOK (b2n srv.isSome)).wr d MEM_STAT.SRVD (srv.getD 0)).wr d MEM_STAT.SIZE size

/-- Mirror in sync, on both p0 dies. -/
def setSync (v : Bool) (s : State) : State := (s.wr 0 MEM_STAT.MSYNC (b2n v)).wr 1 MEM_STAT.MSYNC (b2n v)

/-- Die `c` begins to serve, with the ledger where it stood if the mirror was in sync, else in a new segment without a previous
digest (R425). -/
def memTake (c : Nat) (inSync : Bool) (s : State) : State :=
  let s := { s with dramSrv := some c }
  let s :=
    if inSync || !s.bit c LEDG_CTL.EN then { s with ledg := { s.ledg with open_ := s.ledg.open_ && s.bit c LEDG_CTL.EN } }
    else ledgOpen c { s with ledg := { s.ledg with seg := (s.ledg.seg + 1) % ledgSegs s c, num := s.ledg.num + 1, dig := [] } }
  showLedg c s

/-- The serving channel of die `d` is lost, or no longer offered: the other p0 die serves if it can (R424, R425). -/
def memFail (d : Nat) (s : State) : State :=
  if s.dramSrv ≠ some d then showMem (setSync false s)
  else
    let sync := s.bit d MEM_STAT.MSYNC
    let s := setSync false s
    let o := 1 - d
    if memAble s o then showMem ((memTake o sync s).raise o 531 3 d)
    else showMem { s with dramSrv := none, ledg := { s.ledg with open_ := false } }

/-- The channel of die `d` is up: it serves where none does, and on its first training d0 before d1; else it is the one that joined
last, the mirror to be copied (R424, R425). -/
def memJoin (d : Nat) (s : State) : State :=
  let first := !(s.getMem d).was
  let s := (s.wr d MEM_STAT.UP 1).modMem d fun m => { m with was := true, copied := 0 }
  let s := setSync false s
  if !memAble s d then showMem s
  else match s.dramSrv with
    | none => showMem (memTake d false s)
    | some _ => if first && d == 0 then showMem (memTake d false s) else showMem s

/-- Training of the channel (R426): within phase 1, on a p0 die that offers it. -/
def ddrTraining (d : Nat) (ok : Bool) (size : Nat) (s : State) : State :=
  if !s.bit d MEM_CTRL.EN || s.rd d GLB_PHASE.PHASE == 0 || s.bit d MEM_STAT.UP then s
  else if ok then memJoin d (s.modMem d fun m => { m with size := min size 32 })
  else (s.wr d MEM_STAT.UP 0).raise d 528 3 0

def execDdrTraining (d : Nat) (ok : Bool) (size : Nat) (s : State) : Host.Outcome State Fault Refusal :=
  onItem (d < 2 && s.hasDie d) s fun s => if (s.getDie d).inReset then s else ddrTraining d ok size s

/-- The channel is lost (R425). -/
def memChannelLoss (d : Nat) (s : State) : State :=
  if s.bit d MEM_STAT.UP then memFail d (s.wr d MEM_STAT.UP 0) else s

def execMemChannelLoss (d : Nat) (s : State) : Host.Outcome State Fault Refusal :=
  onItem (d < 2 && s.hasDie d) s (memChannelLoss d)

/-- A lost channel returns and does not take service back (R425). -/
def memChannelReturn (d : Nat) (s : State) : State :=
  if !s.bit d MEM_STAT.UP && (s.getMem d).was then memJoin d s else s

def execMemChannelReturn (d : Nat) (s : State) : Host.Outcome State Fault Refusal :=
  onItem (d < 2 && s.hasDie d) s fun s => if (s.getDie d).inReset then s else memChannelReturn d s

/-- A write of MEM_CTRL: EN offers the channel, MIRROR starts a mirror that is not in sync (R424, R425). -/
def memCtrlWrite (v : Word) (d : Nat) (s : State) : State :=
  let was := memAble s d
  let mir := s.mirrored
  let s := s.setReg (MEM_CTRL.EN.addr d 0 0) (v &&& 0x33#32)
  let s := if s.mirrored = mir then s else (setSync false s).modMem (if s.dramSrv = some 0 then 1 else 0) fun m => { m with copied := 0 }
  if was && !memAble s d then memFail d s
  else if !was && memAble s d && s.dramSrv.isNone then showMem (memTake d false s)
  else showMem s

/-! Mirror (R425) -/

/-- The channel that is copied into. -/
def mirrorOf (s : State) : Option Nat := if s.mirrored then s.dramSrv.map fun c => 1 - c else none

/-- Bytes [a, a + n) of channel `src` replace those of channel `dst`. -/
def copyDram (src dst a n : Nat) (s : State) : State :=
  let es := s.dram.filter fun e => decide (src * 2 ^ 35 + a ≤ e.1) && decide (e.1 < src * 2 ^ 35 + a + n)
  let s := { s with dram := s.dram.drop (dst * 2 ^ 35 + a) (dst * 2 ^ 35 + a + n) }
  es.foldl (fun s e => s.setDramByte dst (e.1 % 2 ^ 35) e.2) s

/-- The deferrable task copies the next `n` bytes, at up to 2 GB/s (R425). -/
def mirrorCopy (n : Nat) (s : State) : State :=
  match mirrorOf s with
  | none => s
  | some m =>
    let c := 1 - m
    if !s.deferOk c || s.bit c MEM_STAT.MSYNC then s
    else
      let a := (s.getMem m).copied
      let k := min n (s.dramCap c - a)
      (copyDram c m a k (s.pass ((k * 5 + 3) / 4))).modMem m fun x => { x with copied := a + k }

def execMirrorCopy (n : Nat) (s : State) : Host.Outcome State Fault Refusal := onPackage s (mirrorCopy n)

/-- The whole capacity is copied: MSYNC := 1 (R425). -/
def mirrorDone (s : State) : State :=
  match mirrorOf s with
  | some m => if s.dramCap m ≤ (s.getMem m).copied then setSync true s else s
  | none => s

def execMirrorCopyComplete (s : State) : Host.Outcome State Fault Refusal := onPackage s mirrorDone

/-! ECC (R427, R428) -/

/-- What a read of channel `c` at `a` finds (R428): 0 no error, 1 corrected, 2 uncorrected, 3 uncorrected but good on the mirror. -/
def eccRead (c a ecc : Nat) (s : State) : State :=
  let s := s.inject c 5 529 5 a
  if ecc = 1 ∨ (ecc = 3 ∧ s.bit c MEM_STAT.MSYNC) then s.addSat c MEM_ECC.COR
  else if ecc = 2 ∨ ecc = 3 then ((s.addSat c MEM_ECC.UNC).wr c MEM_ECCADDR.ADDR a).raise c 529 5 a
  else s

/-- A DRAM access of a master (R427, R428): `bs` is written where `wr`, else `k` bytes are read and answered. -/
def dramAccess (a k : Nat) (wr : Bool) (bs : List Byte) (ecc : Nat) (s : State) : State :=
  if wr then (s.dramWrite a bs).2
  else
    match s.dramSrv with
    | none => s.answer 0
    | some c =>
      let r := s.dramRead a k
      (eccRead c a ecc r.2).answer (leNum (r.1.getD []))

def execDramAccess (a k : Nat) (wr : Bool) (bs : List Byte) (ecc : Nat) (s : State) : Host.Outcome State Fault Refusal :=
  onPackage s (dramAccess (a % 2 ^ 35) k wr bs ecc)

/-- A patrol of the channel of die `d` finds the listed addresses with their ECC outcome (R428). -/
def patrolScrub (d : Nat) (found : List (Nat × Nat)) (s : State) : State :=
  if s.bit d MEM_STAT.UP then found.foldl (fun s e => eccRead d (e.1 % 2 ^ 35) e.2 s) s else s

def execPatrolScrub (d : Nat) (found : List (Nat × Nat)) (s : State) : Host.Outcome State Fault Refusal :=
  onItem (d < 2 && s.hasDie d) s fun s => if (s.getDie d).inReset then s else patrolScrub d found s

end Sys2Proof.Machine
end

