-- ==== Sys2Proof/Machine/Clock.lean ====
section
/-!
DEFINITION. Clocks and package time: the clock monitor, the spine links, the time master, slew and step (R20, R40 to R49).
-/

namespace Sys2Proof.Machine

/-! Clock monitor (R42) -/

/-- The root has failed: the event is raised once for as long as the condition lasts (R42). -/
def rootFail (d : Nat) (s : State) : State :=
  if (s.getDie d).rootOut then s else (s.modDie d fun x => { x with rootOut := true }).raise d 273 1 0

/-- The root is within ±1 % again. -/
def rootGood (d : Nat) (s : State) : State :=
  if (s.getDie d).rootOut then (s.modDie d fun x => { x with rootOut := false }).raise d 273 2 0 else s

/-- The watch oscillator is judged against a locked root (R42). -/
def watchJudge (d : Nat) (ok : Bool) (s : State) : State :=
  let s := s.wr d CLK_STAT.WATCHOK (b2n ok)
  let bad := (s.getDie d).watchBad
  let s := s.modDie d fun x => { x with watchBad := !ok }
  if !ok && !bad then s.raise d 274 1 0 else if ok && bad then s.raise d 274 2 0 else s

/-- A window of 1,000 watch cycles ends with `count` root÷16 cycles and with REFCLK seen or not (R42). A count more than 1 % off raises
root-fail; one more than 10 % off with REFCLK present and the root out of holdover raises watch-fail as well (DEDUCED: the monitor
cannot tell the two apart; log entry 42). Neither holdover nor root-fail clears ROOTLOCK (DESIGN CHOICE, log entry 42). -/
def clockWindow (d : Nat) (ref : Bool) (count : Nat) (s : State) : State :=
  let s := s.wr d CLK_STAT.REFOK (b2n ref)
  let s := if ref then s else s.modDie d fun x => { x with relock := false }
  if !s.bit d CLK_STAT.ROOTLOCK then s
  else
    let seen : Int := count * s.flashLe d 3 0x10 4
    let off := (seen - 156250000000).natAbs
    let locked := ref && !s.bit d CLK_STAT.HOLDOVER
    let s := if locked then watchJudge d (decide (off * 10 ≤ 156250000000)) s else s
    if 156250000000 < off * 100 then rootFail d s
    else
      let s := if (s.getDie d).holdoverAt.isSome then s else rootGood d s
      if !ref && !s.bit d CLK_STAT.HOLDOVER then
        ((s.wr d CLK_STAT.HOLDOVER 1).modDie d fun x => { x with holdoverAt := some s.now, relock := false }).raise d 272 1 0
      else s

def execClockMonitorWindow (d : Nat) (ref : Bool) (count : Nat) (s : State) : Host.Outcome State Fault Refusal :=
  onLive d s (clockWindow d ref count)

/-- REFCLK returns during holdover: the root relocks by frequency slewing (R42). -/
def refclkReturn (d : Nat) (s : State) : State :=
  if s.bit d CLK_STAT.HOLDOVER then (s.wr d CLK_STAT.REFOK 1).modDie d fun x => { x with relock := true } else s

def execRefclkReturn (d : Nat) (s : State) : Host.Outcome State Fault Refusal := onLive d s (refclkReturn d)

/-- The relock is complete: HOLDOVER := 0 (R42). -/
def rootRelocked (d : Nat) (s : State) : State :=
  if (s.getDie d).relock then
    let s := (s.wr d CLK_STAT.HOLDOVER 0).modDie d fun x => { x with relock := false, holdoverAt := none }
    rootGood d (s.raise d 272 2 0)
  else s

def execRootRelockComplete (d : Nat) (s : State) : Host.Outcome State Fault Refusal := onLive d s (rootRelocked d)

/-- Holdover longer than 10 ms (R42). -/
def holdoverTimeout (d : Nat) (s : State) : State :=
  match (s.getDie d).holdoverAt with
  | some t => rootFail d (s.pass (t + 25000001 - s.now))
  | none => s

def execHoldoverTimeout (d : Nat) (s : State) : Host.Outcome State Fault Refusal := onLive d s (holdoverTimeout d)

/-! Spine links (R20) -/

/-- The number of spine links (R20). -/
def State.links (s : State) : Nat := if s.dies = 2 then 1 else s.dies

/-- A spine link joins die `d` to a die that is out of reset. -/
def anyLink (s : State) (d : Nat) : Bool :=
  (s.linkUp d && d < s.links && !(s.getDie ((d + 1) % s.dies)).inReset) ||
    (let l := (d + s.dies - 1) % s.dies; s.linkUp l && l < s.links && !(s.getDie l).inReset)

/-- A die whose root PLL has not locked by 1 ms after power-good raises root-fail as soon as a spine link is up (R58). -/
def rootLate (d : Nat) (s : State) : State :=
  let x := s.getDie d
  if x.inReset || x.locked || !anyLink s d || decide (s.now < x.upAt + 2500000) then s else rootFail d s

/-- Link `l` goes down or comes up: the dies at its ends raise spine-link with the link in ADDR (R20, R484). -/
def spineLink (l : Nat) (up : Bool) (s : State) : State :=
  if s.linkUp l = up then s
  else
    let s := { s with spineDown := s.spineDown.set l (!up) false }
    let s := s.forEach [l, (l + 1) % s.dies] fun d s => if (s.getDie d).inReset then s else s.raise d 278 (if up then 2 else 1) l
    if up then s.forEach [l, (l + 1) % s.dies] rootLate else s

def execSpineLinkFail (l : Nat) (s : State) : Host.Outcome State Fault Refusal :=
  onItem (l < s.links) s (spineLink l false)

def execSpineLinkReturn (l : Nat) (s : State) : Host.Outcome State Fault Refusal :=
  onItem (l < s.links) s (spineLink l true)

/-! The time master (R45) -/

/-- PTMASTER in step with R45, on every die; CLK_SKEW.SKEW is 0 on the master. -/
def showMaster (s : State) : State :=
  let m := s.master
  s.forEach (List.range s.dies) fun d s =>
    let s := s.wr d CLK_STAT.PTMASTER (b2n (m == some d))
    if m == some d then s.wr d CLK_SKEW.SKEW 0 else s

/-- Raises a source on the time master. -/
def raiseMaster (src kind : Nat) (s : State) : State :=
  match s.master with
  | some m => s.raise m src kind 0
  | none => s

/-- Shows the remainder in CLK_PTREM and CLK_PTADJ.SLEW of the master (R48). -/
def showRem (m : Nat) (v : Int) (s : State) : State :=
  ((s.wrI m CLK_PTREM.REM v).wrI m CLK_PTREM.SIGN (if v < 0 then -1 else 0)).wrI m CLK_PTADJ.SLEW (satI 16 v)

/-- Package time passes from master `m` to the lower die `d` as it aligns: the remainder, and the fabric servo's runs, go with it
(R48, R415; DESIGN CHOICE, log entry 42). -/
def masterMoves (m d : Nat) (s : State) : State :=
  let v := s.rdI m CLK_PTREM.REM
  let t := s.getTrm m
  (showRem d v (showRem m 0 s)).modTrm d fun x => { x with okRun := t.okRun, badRun := t.badRun }

/-- Die `d` holds package time: its count is the master's (R45), and with it the lock to the fabric (R49). A die that had lost it by
its skew is within the bound again. -/
def alignTime (d : Nat) (s : State) : State :=
  let old := s.master
  let s := if (s.getDie d).joined && !s.bit d CLK_STAT.PTALIGNED then s.raise d 275 2 0 else s
  let s := (s.wr d CLK_STAT.PTALIGNED 1).modDie d fun x => { x with ptOff := 0 }
  let s := match old with
    | some m =>
      let s := s.wr d CLK_STAT.FABLOCK (s.rd m CLK_STAT.FABLOCK)
      if d < m then masterMoves m d s else s
    | none => s
  showMaster s

/-- A spine delay measurement of die `d` finds its root edge `skew` ps off the master's (R45): within the bound, which is wider
in holdover, it aligns; beyond it, it raises skew-exceeded. -/
def spineTime (d : Nat) (skew : Int) (s : State) : State :=
  match s.master with
  | none => s
  | some m =>
    if m = d ∨ !s.reach d m ∨ !s.bit d CLK_STAT.ROOTLOCK then s
    else
      let s := s.inject d 9 278 7 ((d + s.links - 1) % s.links)
      let s := (s.wrI d CLK_SKEW.SKEW (satI 16 skew)).wr d CLK_SKEW.MAXSKEW
        (max (s.rd d CLK_SKEW.MAXSKEW) (min skew.natAbs 65535))
      let bound := if s.bit d CLK_STAT.HOLDOVER || s.bit m CLK_STAT.HOLDOVER then 400 else 100
      if skew.natAbs ≤ bound then alignTime d s
      else if s.bit d CLK_STAT.PTALIGNED then showMaster ((s.wr d CLK_STAT.PTALIGNED 0).raise d 275 1 0)
      else s

/-- A die that has never joined package time aligns by SPINE_TRAINED or PT_REALIGN instead. -/
def execSpineTimeExchange (d : Nat) (skew : Int) (s : State) : Host.Outcome State Fault Refusal :=
  onLive d s fun s => if (s.getDie d).joined then spineTime d skew s else s

/-! Slew and step (R47 to R49) -/

/-- The slew remainder, held by the time master (R48). -/
def State.rem (s : State) : Int := match s.master with | some m => s.rdI m CLK_PTREM.REM | none => 0

/-- The remainder is set; beyond ±(2^47 − 1) tk it is held at that limit and reported (R48). The slew it causes is announced
2 µs ahead (R47). -/
def setRem (v : Int) (s : State) : State :=
  match s.master with
  | none => s
  | some m =>
    let c := clampI (-140737488355327) 140737488355327 v
    let s := { showRem m c s with slewFrom := max s.slewFrom (s.pt + 5000) }
    if c = v then s else (s.wr m CLK_PTADJ.REMSAT 1).raise m 276 3 0

/-- A step to `v` is requested; it takes place at the first announced tick, 2 µs ahead (R47). -/
def askStep (v : Nat) (cancel : Bool) (s : State) : State :=
  { s with ptStep := some { tick := s.pt + 5000, val := v % 2 ^ 64, cancel := cancel } }

/-- Package time is locked to the fabric (R49). -/
def State.fabLock (s : State) : Bool := match s.master with | some m => s.bit m CLK_STAT.FABLOCK | none => false

/-- A write of CLK_PTADJ through the window of die `d`, forwarded to the master (R47 to R49); a step goes to the CLK_PTSTEP of
the window written. -/
def ptAdjWrite (v : Word) (d : Nat) (s : State) : State :=
  let w := v.toNat
  match s.master with
  | none => s
  | some m =>
    let s := if bitOf w 17 then s.wr m CLK_PTADJ.STEPREF 0 else s
    let s := if bitOf w 18 then s.wr m CLK_PTADJ.REMSAT 0 else s
    if s.fabLock then s.raise m 276 3 0
    else
      let s := setRem (sgn 16 w) s
      if bitOf w 16 then askStep (s.rd d CLK_PTSTEP.VALUE) (w % 65536 != 0) s else s

def execClkDostep (d : Nat) (v : Word) (s : State) : Host.Outcome State Fault Refusal :=
  onLive d s (ptAdjWrite (BitVec.ofNat 32 (putBit v.toNat 16 true)) d)

def execClkPtadjSlewWrite (d : Nat) (v : Word) (s : State) : Host.Outcome State Fault Refusal :=
  onLive d s (ptAdjWrite (BitVec.ofNat 32 (putBit v.toNat 16 false)) d)

/-- One slew tick (R47, R48): the first one announced, and at most one in a strobe period. -/
def slewTick (s : State) : State :=
  let r := s.rem
  match s.master with
  | none => s
  | some m =>
    if r = 0 then s
    else
      let s := s.passTo s.slewFrom
      let s := { s with now := s.now + 1, pt := (if 0 < r then s.pt + 2 else s.pt) % 2 ^ 64 }
      let passed := decide (0 < r) && s.pt % 250 == 1
      { showRem m (if 0 < r then r - 1 else r + 1) s with
        slewFrom := (s.pt / 250 + 1) * 250, strobeAt := if passed then some s.pt else none }

def execSlewTick (s : State) : Host.Outcome State Fault Refusal := onPackage s slewTick

/-- A step is accepted below phase 5 on every die, or with every output safe (R47): the switching outputs, the only ones with a safe
state that an axis enters by itself (DESIGN CHOICE, log entry 42). -/
def State.stepAllowed (s : State) : Bool :=
  ((List.range s.dies).all fun d => s.rd d GLB_PHASE.PHASE < 5) ||
    s.liveDies.all fun d => (List.range 8).all fun n => s.bit d PWM_CTRL.SAFE n || !s.owns d n

/-- The step's tick (R47): every die loads PT64 (a forward step past a multiple of 250 fires no strobe on this tick: DESIGN CHOICE, log
entry 42), and every filter slot restarts at the first strobe (R182), the
stream-0 record in progress ends (R434); or the step is
refused and its difference is added to the remainder. -/
def ptStepTick (s : State) : State :=
  match s.ptStep with
  | none => s
  | some p =>
    let s := { s.passTo p.tick with ptStep := none }
    match s.master with
    | none => s
    | some m =>
      if s.stepAllowed then
        let was := s.pt
        let s := { s with pt := p.val, slewFrom := p.val + 5000, strobeAt := none, lastAt := [] }
        let s := if p.cancel then showRem m 0 s else s
        s.forEach s.liveDies fun d s =>
          let s := (stkClose d 0 s).modStk d fun x => { x with frameAt := none }
          s.forEach (List.range 64) fun c s => s.modFil d c fun f =>
            { f with stepAt := some p.val, applies := f.applies.map fun e => (e.1 + p.val - was, e.2),
                     muxes := f.muxes.map fun e => (e.1 + p.val - was, e.2) }
      else
        setRem (s.rem + (p.val : Int) - s.pt) ((s.wr m CLK_PTADJ.STEPREF 1).raise m 276 3 0)

def execPtStepTick (s : State) : Host.Outcome State Fault Refusal := onPackage s ptStepTick

end Sys2Proof.Machine
end

