-- ==== Sys2Proof/Machine/Teram.lean ====
section
/-!
DEFINITION. The Teram fabric: ports, frames, routing, discovery, fabric time, shared angles, events and messages (R401 to R422).
The remote register accesses are in Access.lean, the epoch frames in Epoch.lean.
-/

namespace Sys2Proof.Machine

/-! Frames (R404, R405) -/

/-- Byte `i` of a frame. -/
def fByte (f : List Byte) (i : Nat) : Nat := (f.getD i 0).toNat

/-- `k` bytes of a frame from byte `i`, as a little-endian number (R11). -/
def fNum (f : List Byte) (i k : Nat) : Nat := leNum ((f.drop i).take k)

/-- The class, the BCAST flag, the destination and source nodes, and the payload of a frame. -/
def fClass (f : List Byte) : Nat := fByte f 0 % 16
def fBcast (f : List Byte) : Bool := bitOf (fByte f 0) 4
def fDst (f : List Byte) : Nat := fNum f 2 2 % 32768
def fSrc (f : List Byte) : Nat := fNum f 4 2 % 32768
def fPayload (f : List Byte) : List Byte := (f.drop 8).take (f.length - 12)

/-- The priority of a class, 1 first (R405). -/
def classPrio (c : Nat) : Nat := match c with | 1 => 3 | 2 => 2 | 3 => 1 | n => n

/-- The class is in the table and `n` is its LEN (R405). -/
def classLen (c n : Nat) : Bool :=
  match c with
  | 1 => n == 32 | 2 => n == 32 | 3 => n == 36 | 4 => n == 48 | 5 => n == 40
  | 6 => 16 ≤ n && n ≤ 256 && n % 4 == 0
  | _ => false

/-- CRC-32C of a frame's header and payload, with byte 1 taken as 0 (R404). -/
def frameCrc (body : List Byte) : Nat := crc32c (body.set 1 0)

/-- A frame of `cls` with its header, payload and CRC (R404). -/
def mkFrame (cls : Nat) (bcast : Bool) (dst src : Nat) (payload : List Byte) : List Byte :=
  let body := BitVec.ofNat 8 (cls + 16 * b2n bcast) :: 0 :: leBytes dst 2 ++ leBytes src 2 ++
    leBytes (payload.length + 12) 2 ++ payload
  body ++ leBytes (frameCrc body) 4

/-- The frame with HOPS incremented (R404). -/
def hopUp (f : List Byte) : List Byte := f.set 1 (BitVec.ofNat 8 (fByte f 1 / 32 * 32 + (fByte f 1 + 1) % 32))

/-- HOPMAX of die `d`; 0 is taken as 1 (TRM_CTRL). -/
def State.hopMax (s : State) (d : Nat) : Nat := max 1 (s.rd d TRM_CTRL.HOPMAX)

/-- A received frame meets R405: class, LEN, CRC, and HOPS after the increment. -/
def frameOk (s : State) (d : Nat) (f : List Byte) : Bool :=
  classLen (fClass f) f.length && fNum f 6 2 == f.length && fNum f (f.length - 4) 4 == frameCrc (f.take (f.length - 4)) &&
    decide (fByte f 1 % 32 + 1 ≤ s.hopMax d)

/-- A frame is dropped under R405: counted in BAD and reported. -/
def frameBad (d a : Nat) (s : State) : State := (s.addSat d TRM_PERR.BAD).raise d 514 3 a

/-! Ports (R401 to R403, R405) -/

/-- Time of one byte on the line, in 1/5 tk: 2.5 bytes a tick at gen2 and 1 at gen1, half of it on one lane (R401). -/
def byteTime (s : State) (d : Nat) : Nat :=
  (if s.bit d TRM_PORT.GEN then 2 else 5) * (if s.bit d TRM_PORT.X1 then 2 else 1)

/-- The first frame of the highest priority present, and the rest. -/
def nextFrame (q : List (Nat × List Byte)) : Option ((Nat × List Byte) × List (Nat × List Byte)) :=
  let p := q.foldl (fun m x => min m x.1) 7
  (q.find? fun x => x.1 == p).map fun x => (x, q.eraseP fun y => y.1 == p)

/-- Frames whose transmission has begun by now leave the port, at most `k` (R405). -/
def portDrain (d : Nat) : Nat → State → State
  | 0, s => s
  | k + 1, s =>
    let p := s.getPort d
    if s.now * 5 < p.freeAt then s
    else match nextFrame p.q with
      | none => s
      | some (f, rest) =>
        portDrain d k (s.modPort d fun p =>
          { p with q := rest, freeAt := p.freeAt + f.2.length * byteTime s d, sent := p.sent ++ [f.2] })

/-- The port of die `d` carries class `cls`: up, and classes other than BEAT and TIME from phase 5 (R402). -/
def State.carries (s : State) (d cls : Nat) : Bool :=
  !(s.getDie d).inReset && s.rd d TRM_PORT.STATE == 2 && (cls == 1 || cls == 2 || s.rd d GLB_PHASE.PHASE == 5)

/-- A frame is handed to the egress port of die `d`: queued by priority; classes 4 to 6 are dropped where the 16 KiB queue is
full (R405). -/
def portSend (d : Nat) (f : List Byte) (s : State) : State :=
  if !s.carries d (fClass f) then s
  else
    let s := portDrain d (s.getPort d).q.length s
    let p := s.getPort d
    let used := (p.q.map fun x => if 4 ≤ x.1 then x.2.length else 0).sum
    if 4 ≤ fClass f ∧ 16384 < used + f.length then s.addSat d TRM_PERR.DROP
    else
      let s := s.modPort d fun p =>
        { p with freeAt := if p.q.isEmpty then max p.freeAt (s.now * 5) else p.freeAt, q := p.q ++ [(classPrio (fClass f), f)] }
      portDrain d (p.q.length + 1) s

/-- HOPS is counted on arrival: a frame is forwarded with it as it stands. -/
def State.ownId (s : State) (d : Nat) : Nat := s.rd d TRM_IDSTAT.PKGID

/-- The node of die `d`. -/
def State.node (s : State) (d : Nat) : Nat := s.ownId d + 4096 * d

/-! Delivery and routing (R410 to R412) -/

/-- A frame is delivered to die `e` and waits for its class. -/
def deliver (e : Nat) (f : List Byte) (out : Bool) (s : State) : State :=
  s.modTrm e fun t => { t with rxq := t.rxq ++ [{ bytes := f, out := out }] }

/-- No entry matches: the frame is dropped and reported with the destination ID (R410). -/
def noRoute (d id : Nat) (s : State) : State := s.raise d 515 3 id

/-- The first usable matching entry of the catalogue of die `d` (R410): 0 the own port, 1 + t the spine to die t, 9 drop. -/
def catalogue (s : State) (d id cls : Nat) : Option Nat :=
  (List.range 256).findSome? fun i =>
    if s.bit d TRM_CAT.VALID i && Nat.land (Nat.xor id (s.rd d TRM_CAT.ID i)) (s.rd d TRM_CAT.MASK i) == 0 then
      match s.rd d TRM_CAT.ACT i with
      | 0 => if s.carries d cls then some 0 else none
      | 1 =>
        let t := s.rd d TRM_CAT.TDIE i
        if s.hasDie t && s.reach d t && t != d then some (1 + t) else none
      | _ => some 9
    else none

/-- A frame for another package leaves die `d` by its catalogue; over the spine it crosses once (R410, R411). -/
def route (d : Nat) (f : List Byte) (s : State) : State :=
  let id := fDst f % 4096
  match catalogue s d id (fClass f) with
  | none => noRoute d id s
  | some 0 => portSend d f s
  | some 9 => s
  | some k =>
    let t := k - 1
    match catalogue s t id (fClass f) with
    | some 0 => portSend t f s
    | some 9 => s
    | _ => noRoute t id s

/-- Every die the frame reaches over the spine from die `d`, itself included. -/
def State.dieSet (s : State) (d : Nat) : List Nat := (List.range s.dies).filter fun e => s.reach d e

/-- A BCAST frame in this package (R412): delivered to every die, and sent out of every port that forwards BCAST but the one it
entered by, `by_`; ANGLE samples from outside are sent on only once they are judged newer (R417). -/
def broadcast (d : Nat) (by_ : Option Nat) (f : List Byte) (s : State) : State :=
  s.forEach (s.dieSet d) fun e s =>
    let may := by_ != some e
    let wait := by_.isSome && fClass f == 3
    let s := deliver e f (may && wait) s
    if may && !wait && s.bit e TRM_PORT.FWDB then portSend e f s else s

/-- A frame originated by die `d`: to its own package over the spine, to another one by the catalogue, or to all (R410, R412); a
package that has lost its ID originates BEAT alone (R409). -/
def originate (d cls : Nat) (bcast : Bool) (dst : Nat) (payload : List Byte) (s : State) : State :=
  if s.bit d TRM_IDSTAT.DUP then s
  else
    let f := mkFrame cls bcast dst (s.node d) payload
    if bcast then broadcast d none f s
    else if dst % 4096 = s.ownId d then
      let e := dst / 4096
      if s.hasDie e && s.reach d e then deliver e f false s else noRoute d (dst % 4096) s
    else route d f s

/-! Discovery (R402, R403, R406 to R409, R413) -/

/-- The BEAT payload of R408. -/
def beatPayload (s : State) (d sub seq : Nat) : List Byte :=
  let i := s.ident.getD { id := s.ownId d, auto := false, prio := 0, serial := 0 }
  [BitVec.ofNat 8 sub, BitVec.ofNat 8 (b2n (s.bit d TRM_CTRL.GENMAX) + 2 * b2n i.auto)] ++ leBytes (s.ownId d) 2 ++
    [BitVec.ofNat 8 (d + 16 * (s.dies - 1)), BitVec.ofNat 8 (s.rd d TRM_CTRL.PRIO)] ++ leBytes seq 2 ++
    leBytes i.serial 8 ++ leBytes 0 4

/-- A link-local BEAT of die `d`; HELLO goes out while the port trains. -/
def beatSend (d sub : Nat) (s : State) : State :=
  let t := s.getTrm d
  let f := mkFrame 1 false (s.rd d TRM_PORT.PEER) (s.node d) (beatPayload s d sub t.beatSeq)
  let s := s.modTrm d fun t => { t with beatSeq := (t.beatSeq + 1) % 65536 }
  if sub = 0 then s.modPort d fun p => { p with sent := p.sent ++ [f] } else portSend d f s

/-- The port begins to train: block lock at gen1, then HELLO once the ID in use is known (R402, R406). -/
def trainStart (d : Nat) (s : State) : State :=
  let s := (s.wr d TRM_PORT.STATE 1).modPort d fun p => { p with gen2 := none, downAt := s.pt }
  if (s.getDie d).trained then beatSend d 0 s else s

/-- The port has trained (R402): at gen2 where both HELLOs advertise it and GENMAX allows it, on one lane where one failed. -/
def trainingComplete (d : Nat) (x1 : Bool) (s : State) : State :=
  match (s.getPort d).gen2 with
  | none => s
  | some g =>
    if s.rd d TRM_PORT.STATE ≠ 1 then s
    else
      let s := (s.wr d TRM_PORT.STATE 2).wr d TRM_PORT.GEN (b2n (g && s.bit d TRM_CTRL.GENMAX))
      let s := (s.wr d TRM_PORT.X1 (b2n x1)).modPort d fun p => { p with freeAt := s.now * 5 }
      if x1 then s.raise d 513 3 d else s

def execTeramTrainingComplete (d : Nat) (x1 : Bool) (s : State) : Host.Outcome State Fault Refusal :=
  onLive d s (trainingComplete d x1)

/-- FABLOCK on every die (CLK_STAT). -/
def setFabLock (v : Bool) (s : State) : State :=
  s.forEach (List.range s.dies) fun d s => s.wr d CLK_STAT.FABLOCK (b2n v)

/-- Lock to the fabric time is lost: trm-time-lost (R415). -/
def timeLost (s : State) : State :=
  match s.master with
  | some m => if s.fabLock then ((setFabLock false s).modTrm m fun t => { t with okRun := 0, badRun := 0 }).raise m 517 3 0 else s
  | none => s

/-- The grandmaster as die `d` sees it (R413): the lowest PRIO below 255, then the lowest ID, with its ID, hops and port. -/
def grandmaster (s : State) (d : Nat) : Option (Nat × Nat × Option Nat) :=
  let self := (s.rd d TRM_CTRL.PRIO, s.ownId d, 0, (none : Option Nat))
  let all := self :: ((s.getTrm d).known.map fun k => (k.prio, k.id, k.hops, some k.port))
  let best := (all.filter fun c => c.1 < 255).foldl (fun (b : Option (Nat × Nat × Nat × Option Nat)) c =>
    match b with
    | none => some c
    | some x => if c.1 < x.1 ∨ (c.1 = x.1 ∧ c.2.1 < x.2.1) then some c else b) none
  best.map fun c => (c.2.1, c.2.2.1, c.2.2.2)

/-- TRM_TSTAT of die `d` in step with R413; a change of the grandmaster or upstream port of the time master loses lock (R415). -/
def gmShow (d : Nat) (s : State) : State :=
  let old := (s.rd d TRM_TSTAT.GMID, s.bit d TRM_TSTAT.GMVALID)
  let s := match grandmaster s d with
    | none => (((s.wr d TRM_TSTAT.GMVALID 0).wr d TRM_TSTAT.GMID 0).wr d TRM_TSTAT.HOPS 0).wr d TRM_TSTAT.UPDIE 0
    | some (id, hops, port) =>
      let up := if s.bit d TRM_CTRL.TFOLLOW then port.getD 0 else 0
      (((s.wr d TRM_TSTAT.GMVALID 1).wr d TRM_TSTAT.GMID id).wr d TRM_TSTAT.HOPS hops).wr d TRM_TSTAT.UPDIE up
  if s.master = some d ∧ old ≠ (s.rd d TRM_TSTAT.GMID, s.bit d TRM_TSTAT.GMVALID) then timeLost s else s

/-- The upstream port, where the package follows another grandmaster (R413), as the time master sees it. -/
def State.upstream (s : State) : Option Nat :=
  s.master.bind fun m =>
    if s.bit m TRM_CTRL.TFOLLOW then (grandmaster s m).bind fun g => g.2.2 else none

/-- The link is lost (R403): STATE := down, trm-link-down, and the frames that wait are dropped. -/
def linkLoss (d : Nat) (s : State) : State :=
  if s.rd d TRM_PORT.STATE ≠ 2 then s
  else
    let s := portDrain d (s.getPort d).q.length s
    let s := s.addSat d TRM_PERR.DROP (s.getPort d).q.length
    let s := (s.wr d TRM_PORT.STATE 0).modPort d fun p => { p with q := [], gen2 := none, downAt := s.pt }
    let s := s.raise d 512 7 d
    if s.upstream = some d then timeLost s else s

def execTeramLinkLoss (d : Nat) (s : State) : Host.Outcome State Fault Refusal := onLive d s (linkLoss d)

/-- A port that is not up retrains every 10 ms (R403). -/
def teramRetrain (d : Nat) (s : State) : State :=
  if s.rd d TRM_PORT.STATE ≠ 2 ∧ s.rd d GLB_PHASE.PHASE ≠ 0 ∧ (s.getDie d).optOk then
    trainStart d (s.passTo ((s.getPort d).downAt + 25000000))
  else s

def execTeramRetrain (d : Nat) (s : State) : Host.Outcome State Fault Refusal := onLive d s (teramRetrain d)

/-- Each end sends a KEEP at least every 10 µs (R403). -/
def beatKeepSend (d : Nat) (s : State) : State :=
  let s := s.toNext (State.stepNo 14 d 0) 25000
  if s.rd d TRM_PORT.STATE = 2 then beatSend d 1 s else s

def execBeatKeepSend (d : Nat) (s : State) : Host.Outcome State Fault Refusal := onLive d s (beatKeepSend d)

/-- A HELLO arrives (R402, R408): the link partner and its rate. -/
def helloReceive (d : Nat) (f : List Byte) (s : State) : State :=
  let p := fPayload f
  let s := s.wr d TRM_PORT.PEER (fNum p 2 2 % 4096 + 4096 * (fByte p 4 % 8))
  s.modPort d fun x => { x with gen2 := some (bitOf (fByte p 1) 0) }

/-- Entries of the seen list that may still come round (R409). -/
def seenNow (s : State) (l : List (Nat × Nat × Nat × Nat)) : List (Nat × Nat × Nat × Nat) :=
  l.filter fun x => s.pt < x.2.2.2 + 125000000

/-- The table of die `e` after an ANNOUNCE that came in by port `by_` after `hops` hops (R409): a newer one replaces the entry, a
copy of the same one with fewer hops, or the same on a lower die, moves the port. -/
def knownTake (s : State) (e by_ hops id serial prio seq : Nat) : List Known :=
  let k := (s.getTrm e).known
  let new : Known := { id := id, serial := serial, prio := prio, hops := hops, port := by_, seq := seq, at_ := s.pt }
  match k.find? fun x => x.id == id with
  | none => k ++ [new]
  | some o =>
    if o.serial < serial then k
    else if o.serial = serial ∧ o.seq = seq ∧ (o.hops < hops ∨ (o.hops = hops ∧ o.port ≤ by_)) then k
    else k.map fun x => if x.id == id then new else x

/-- The count of known packages and the grandmaster follow the table. -/
def knownShow (e : Nat) (s : State) : State := gmShow e (s.wr e TRM_IDSTAT.KNOWN (s.getTrm e).known.length)

/-- An ANNOUNCE enters by port `d` (R408, R409): a second package of this ID makes the one with the higher serial number silent;
the table takes it; the first copy floods out of every other up port. -/
def announceReceive (d : Nat) (f : List Byte) (s : State) : State :=
  let p := fPayload f
  let id := fNum p 2 2 % 4096
  let serial := fNum p 8 8
  let seq := fNum p 6 2
  let hops := fByte f 1 % 32
  let own := (s.ident.map fun i => i.serial).getD 0
  let first := !((seenNow s (s.getTrm d).seen).any fun x => x.1 == id && x.2.1 == serial && x.2.2.1 == seq)
  let all := s.dieSet d
  let s := s.forEach all fun e s =>
    let s := s.modTrm e fun t => { t with seen := (id, serial, seq, s.pt) :: seenNow s t.seen }
    if id = s.ownId e then
      if serial < own ∧ !s.bit e TRM_IDSTAT.DUP then (s.wr e TRM_IDSTAT.DUP 1).raise e 516 3 id else s
    else knownShow e (s.modTrm e fun t => { t with known := knownTake s e d hops id serial (fByte p 5) seq })
  if first && !(id == s.ownId d && serial == own) then
    s.forEach all fun e s => if e = d then s else portSend e f s
  else s

/-- A KEEP arrives: the link is alive, and nothing else follows (R403). -/
def beatReceive (d : Nat) (f : List Byte) (s : State) : State :=
  match fByte (fPayload f) 0 with
  | 0 => helloReceive d f s
  | 2 => announceReceive d f s
  | _ => s

/-- A frame arrives at the port of die `d` and is checked (R405); `g` takes it with HOPS incremented. -/
def arrive (d : Nat) (f : List Byte) (g : List Byte → State → State) (s : State) : State :=
  let s := s.inject d 10 514 7 (fClass f)
  if frameOk s d f then g (hopUp f) s else frameBad d (fClass f) s

/-- The port can receive: it is up, or trains (R402). -/
def State.hears (s : State) (d : Nat) : Bool := s.rd d TRM_PORT.STATE != 0

def execHelloReceive (d : Nat) (f : List Byte) (s : State) : Host.Outcome State Fault Refusal :=
  onLive d s fun s => if s.hears d then arrive d f (fun f s => if fClass f = 1 ∧ fByte (fPayload f) 0 = 0 then helloReceive d f s else s) s else s

def execAnnounceReceive (d : Nat) (f : List Byte) (s : State) : Host.Outcome State Fault Refusal :=
  onLive d s fun s => if s.rd d TRM_PORT.STATE = 2 then arrive d f (fun f s => if fClass f = 1 ∧ fByte (fPayload f) 0 = 2 then announceReceive d f s else s) s else s

/-- The time master originates an ANNOUNCE every 10 ms, out of every port that is up (R408). -/
def announceOriginate (s : State) : State :=
  let s := s.toNext (State.stepNo 15 0 0) 25000000
  match s.master with
  | none => s
  | some m =>
    let q := (s.annSeq + 1) % 65536
    let s := { s with annSeq := q }
    let f := mkFrame 1 false 0 (s.node m) (beatPayload s m 2 q)
    s.forEach (s.dieSet m) fun e s => portSend e f s

def execAnnounceOriginate (s : State) : Host.Outcome State Fault Refusal := onPackage s announceOriginate

/-- A known package not heard of for 50 ms is removed (R409). -/
def knownExpiry (d id : Nat) (s : State) : State :=
  match (s.getTrm d).known.find? fun x => x.id == id with
  | none => s
  | some k =>
    let s := s.passTo (k.at_ + 125000000)
    knownShow d (s.modTrm d fun t => { t with known := t.known.filter fun x => x.id != id })

def execKnownPackageExpiry (d id : Nat) (s : State) : Host.Outcome State Fault Refusal := onLive d s (knownExpiry d id)

/-! Fabric time (R414, R415) -/

/-- The stamp of a start block that passes `frac` sixteenths after the present tick, in 1/16 tk (R414). -/
def stamp16 (s : State) (frac : Nat) : Nat := s.pt * 16 + frac % 16

/-- The stamp of a TIME frame handed to the port now: it leaves at once where the port is idle; behind other frames its stamp is a
free value no earlier than now. -/
def departStamp (d frac : Nat) (s : State) : Nat × State :=
  let s := portDrain d (s.getPort d).q.length s
  let p := s.getPort d
  if p.q.isEmpty ∧ p.freeAt ≤ s.now * 5 then (stamp16 s frac, s) else (stamp16 s frac + s.free % 4096, s.drew)

/-- A TIME SYNC is sent every 10 µs (R414), but by a package that has lost its ID (R409). -/
def timeSyncSend (d frac : Nat) (s : State) : State :=
  let s := s.toNext (State.stepNo 16 d 0) 25000
  if s.rd d TRM_PORT.STATE ≠ 2 || s.bit d TRM_IDSTAT.DUP then s
  else
    let q := ((s.getTrm d).syncSeq + 1) % 65536
    let (t1, s) := departStamp d frac s
    let f := mkFrame 2 false (s.rd d TRM_PORT.PEER) (s.node d) ([1, 0] ++ leBytes q 2 ++ leBytes t1 8 ++ leBytes 0 8)
    portSend d f (s.modTrm d fun t => { t with syncSeq := q, t1 := some t1 })

def execTimeSyncSend (d frac : Nat) (s : State) : Host.Outcome State Fault Refusal := onLive d s (timeSyncSend d frac)

/-- A TIME SYNC is answered with a REPLY that carries t2 and t3 (R414). -/
def timeSync (d frac : Nat) (f : List Byte) (s : State) : State :=
  let t2 := stamp16 s frac
  let (t3, s) := departStamp d frac s
  let q := fNum (fPayload f) 2 2
  if s.bit d TRM_IDSTAT.DUP then s else
  portSend d (mkFrame 2 false (fSrc f) (s.node d) ([2, 0] ++ leBytes q 2 ++ leBytes t2 8 ++ leBytes t3 8)) s

/-- A TIME REPLY yields the link delay d, and on the upstream link the offset o, positive where this package is ahead (R414). A
delay above 10 µs is not accepted. -/
def timeReply (d frac : Nat) (f : List Byte) (s : State) : State :=
  let p := fPayload f
  let t := s.getTrm d
  match t.t1 with
  | none => s
  | some t1 =>
    if fNum p 2 2 ≠ t.syncSeq then s
    else
      let t2 := fNum p 4 8
      let t3 := fNum p 12 8
      let t4 := stamp16 s frac
      let s := s.modTrm d fun t => { t with t1 := none }
      let twice : Int := ((t4 : Int) - t1) - ((t3 : Int) - t2)
      let dly2 := twice * 25
      if dly2 < 0 ∨ 20000000 < dly2 then s
      else
        let (dly, s) := s.near ((dly2 : Rat) / 2)
        let s := s.wr d TRM_LINKDLY.DLY dly.toNat
        if s.upstream = some d then
          let o := (t1 : Int) * 25 + dly - (t2 : Int) * 25
          (s.wrI d TRM_TOFS.OFS (satI 32 o)).modTrm d fun t => { t with ofs := some o }
        else s

/-- A TIME frame on its link. -/
def timeReceive (d frac : Nat) (f : List Byte) (s : State) : State :=
  match fByte (fPayload f) 0 with
  | 1 => timeSync d frac f s
  | 2 => timeReply d frac f s
  | _ => s

def execTimeSyncReceive (d : Nat) (f : List Byte) (frac : Nat) (s : State) : Host.Outcome State Fault Refusal :=
  onLive d s fun s => if s.rd d TRM_PORT.STATE = 2 then arrive d f (fun f s => if fClass f = 2 ∧ fByte (fPayload f) 0 = 1 then timeSync d frac f s else s) s else s

def execTimeReplyReceive (d : Nat) (f : List Byte) (frac : Nat) (s : State) : Host.Outcome State Fault Refusal :=
  onLive d s fun s => if s.rd d TRM_PORT.STATE = 2 then arrive d f (fun f s => if fClass f = 2 ∧ fByte (fPayload f) 0 = 2 then timeReply d frac f s else s) s else s

/-- The offset reaches the time master, which steps or slews PT64 and judges FABLOCK (R415). -/
def fabricOffset (d : Nat) (s : State) : State :=
  match (s.getTrm d).ofs, s.master with
  | some o, some m =>
    if !s.reach d m then s
    else
      let s := s.modTrm d fun t => { t with ofs := none }
      let ok := if o.natAbs ≤ 400 then (s.getTrm m).okRun + 1 else 0
      let bad := if 1200 < o.natAbs then (s.getTrm m).badRun + 1 else 0
      let s := s.modTrm m fun t => { t with okRun := min ok 64, badRun := min bad 4 }
      let s :=
        if s.fabLock then setRem (Config.fabServo o) s
        else if 10000000 < o.natAbs && s.stepAllowed then askStep (((s.pt : Int) + 5000 - rheDiv o 400).toNat) false s
        else setRem (-(rheDiv o 400)) s
      if s.fabLock then (if 4 ≤ bad then timeLost s else s)
      else if 64 ≤ ok then setFabLock true s
      else s
  | _, _ => s

def execFabricOffsetMessage (d : Nat) (s : State) : Host.Outcome State Fault Refusal := onLive d s (fabricOffset d)

/-! Shared angles (R416 to R418) -/

/-- The ANGLE payload of transmit slot `j` for the update at tick `u` (R416). -/
def anglePayload (d j u seq : Nat) (s : State) : List Byte × State :=
  let n := s.rd d TRM_ATXCFG.AXIS j
  let ta := u + min (s.rd d TRM_ATXLAT.TLAT j) 2500000
  let mech := s.bit d TRM_ATXCFG.MECH j
  let p : Rat := (if mech then ((s.getTrk d n).ppm + 1 : Nat) else 1 : Nat)
  let pub := ((s.getTrk d n).hist.head?).getD {}
  let sec : Rat := ((ta - pub.u : Nat) : Rat) * 4 / 10000000000
  let (spd, s) := s.near ((pub.w + pub.a * sec) / p * 4096)
  let (acc, s) := s.near (pub.a / p * 16)
  let ((frac, turns, st), s) :=
    if mech then
      let (x, s) := mechPos d n ta s
      (((floorQ ((x.1 - floorQ x.1) * 65536)).toNat * 65536, enc 16 (floorQ x.1 + s.rdI d TRK_SECTOR.MTURNS n), x.2), s)
    else
      let (r, s) := angleAt d n ta 0 s
      (((ang48 r.ang).1, (ang48 r.ang).2, r.stat), s)
  let fl := b2n (bitOf st 0) + 2 * b2n (bitOf st 2) + 4 * b2n mech + 8 * b2n (bitOf st 5)
  ([BitVec.ofNat 8 (s.rd d TRM_ATXCFG.CH j), BitVec.ofNat 8 fl] ++ leBytes seq 2 ++ leBytes (ta % 2 ^ 32) 4 ++ leBytes frac 4 ++
    leBytes turns 2 ++ leBytes (enc 32 (satI 32 spd)) 4 ++ leBytes (enc 32 (satI 32 acc)) 4 ++ leBytes 0 2, s)

/-- Transmit slot `j` at an update of its axis: every DIV-th one is sent (R416). -/
def angleSlot (d j : Nat) (s : State) : State :=
  let k := ((s.getTrm d).upd.lookup j).getD 0 + 1
  let put := fun (v : Nat) (s : State) => s.modTrm d fun t => { t with upd := (j, v) :: t.upd.filter fun x => x.1 != j }
  if k < max 1 (s.rd d TRM_ATXCFG.DIV j) then put k s
  else
    let s := put 0 s
    let c := s.rd d TRM_ATXCFG.CH j
    let q := (((s.getTrm d).chSeq.lookup c).getD 0 + 1) % 65536
    let s := s.modTrm d fun t => { t with chSeq := (c, q) :: t.chSeq.filter fun x => x.1 != c }
    let (pl, s) := anglePayload d j s.pt q s
    originate d 3 (s.bit d TRM_ATXCFG.BCAST j) (s.rd d TRM_ATXDST.NODE j) pl s

/-- The transmit slots of axis `n` at its update (R416). -/
def angleSend (d n : Nat) (s : State) : State :=
  s.forEach (List.range 8) fun j s =>
    if s.bit d TRM_ATXCFG.EN j && s.rd d TRM_ATXCFG.AXIS j == n then angleSlot d j s else s

/-- TOUT in ticks; 0 is taken as 1 µs (TRM_ARXCFG). -/
def State.tout (s : State) (d : Nat) : Nat := max 1 (s.rd d TRM_ARXCFG.TOUT) * 2500

/-- The value nearest `now` whose low 32 bits are `lo` (R417). -/
def nearest32 (now lo : Nat) : Nat := ((now : Int) + sgn 32 (enc 32 ((lo : Int) - now))).toNat

/-- The first frame of class `cls` that waits at die `d`, taken from its queue. -/
def takeRx (d : Nat) (p : List Byte → Bool) (s : State) : Option RxFrame × State :=
  match (s.getTrm d).rxq.find? fun x => p x.bytes with
  | none => (none, s)
  | some x => (some x, s.modTrm d fun t => { t with rxq := t.rxq.eraseP fun y => p y.bytes })

/-- An ANGLE sample is judged (R417): newer for its channel, it is dropped where the mask keeps the channel and its source is not the one
it is locked to; else it is sent on, and kept where the mask says so. -/
def angleTake (d : Nat) (x : RxFrame) (s : State) : State :=
  let p := fPayload x.bytes
  let c := fByte p 0 % 64
  let r := s.getChan d c
  let seq := fNum p 2 2
  let live := match r.accAt with | some t => decide (s.pt ≤ t + s.tout d) | none => false
  let dist := (seq + 65536 - r.seq) % 65536
  let newer := !live || (1 ≤ dist && dist ≤ 32767)
  if !newer then s
  else
    let src := fSrc x.bytes
    let keep := s.bitAt d TRM_ARXMASK.MASK c
    let locked := if live then r.node else none
    let foreign := keep && locked.isSome && locked != some src
    if foreign then s.raise d 514 3 c
    else
      let s := if x.out && s.bit d TRM_PORT.FWDB then portSend d x.bytes s else s
      let s := s.modChan d c fun r => { r with seq := seq, accAt := some s.pt, node := if keep then some src else r.node }
      if !keep then s
      else
        let ta := nearest32 s.pt (fNum p 4 4)
        let late := decide (ta < s.pt)
        let s := if late then s.addSat d TRM_ASTAT.LATE else s
        let s := if late && !r.late then s.raise d 518 3 c else s
        let ang := sgn 16 (fNum p 12 2) * 1099511627776 + ((fNum p 8 4 * 256 : Nat) : Int)
        let fl := fByte p 1
        let s := s.modChan d c fun r =>
          { r with keptAt := some s.pt, ta := ta, ang := ang, spd := sgn 32 (fNum p 14 4), acc := sgn 32 (fNum p 18 4),
                   angv := bitOf fl 0, mech := bitOf fl 2, mechv := bitOf fl 3, late := late }
        s.wrBit d TRM_ARXVALID.VALID c true

/-- The next ANGLE frame delivered to die `d` is taken. -/
def angleReceive (d : Nat) (s : State) : State :=
  let (x, s) := takeRx d (fun f => fClass f == 3) s
  match x with
  | none => s
  | some x => angleTake d x s

def execAngleReceive (d : Nat) (s : State) : Host.Outcome State Fault Refusal := onLive d s (angleReceive d)

/-- TOUT runs out on a channel that held a sample (R418). -/
def angleTimeout (d c : Nat) (s : State) : State :=
  match (s.getChan d c).keptAt with
  | some t =>
    if s.bitAt d TRM_ARXVALID.VALID c then
      let s := s.passTo (t + s.tout d + 1)
      let s := ((s.wrBit d TRM_ARXVALID.VALID c false).addSat d TRM_ASTAT.LOST).modChan d c fun r => { r with node := none }
      s.raise d 519 3 c
    else s
  | none => s

def execAngleChannelTimeout (d c : Nat) (s : State) : Host.Outcome State Fault Refusal := onPart d c 64 s (angleTimeout d c)

/-- A write of TRM_ARXMASK: a channel whose bit is set anew locks to the source of its next sample (R417). -/
def arxMaskWrite (k : Nat) (v : Word) (d : Nat) (s : State) : State :=
  let old := s.rd d TRM_ARXMASK.MASK
  let s := s.setReg (TRM_ARXMASK.MASK.addr d 0 0 + 4 * k) v
  let new := s.rd d TRM_ARXMASK.MASK
  s.forEach (List.range 64) fun c s =>
    if bitOf new c && !bitOf old c then s.modChan d c fun r => { r with node := none } else s

/-! Events, messages and the mailbox (R421, R422) -/

/-- Shows a list of bytes in `k` words from address `a`, zeros after it. -/
def showBytes (a k : Nat) (bs : List Byte) (s : State) : State :=
  s.forEach (List.range k) fun i s => s.setReg (a + 4 * i) (BitVec.ofNat 32 (leNum ((bs.drop (4 * i)).take 4)))

/-- TRM_RXBUF, RXCNT and line 19 follow the receive mailbox; the head of the remote event queue and EVCNT follow theirs (TRM_MBOX). -/
def showMbox (d : Nat) (s : State) : State :=
  let t := s.getTrm d
  let s := showBytes (TRM_RXBUF.DATA.addr d 0 0) 64 ((t.mbox.head?).getD []) s
  let s := showBytes (TRM_EVBUF.DATA.addr d 0 0) 8 ((t.evq.head?).getD []) s
  ((s.wr d TRM_MBOX.RXCNT t.mbox.length).wr d TRM_MBOX.EVCNT t.evq.length).setIrqs d 19 (!t.mbox.isEmpty)

/-- A frame enters the receive mailbox, where there is room; false where it is full (R422). -/
def mboxPut (d : Nat) (f : List Byte) (s : State) : Bool × State :=
  if (s.getTrm d).mbox.length < 16 then (true, showMbox d (s.modTrm d fun t => { t with mbox := t.mbox ++ [f] })) else (false, s)

/-- The EVENT frame of a descriptor of severity `sev` (R421). -/
def eventSend (d sev : Nat) (desc : List Byte) (s : State) : State :=
  if s.bit d TRM_EVDST.EN && decide (s.rd d TRM_EVDST.SEVMIN ≤ sev) then
    originate d 5 false (s.rd d TRM_EVDST.NODE) (desc.take 16 ++ leBytes d 1 ++ leBytes 0 11) s
  else s

/-- A received EVENT enters the remote event queue, or is dropped where it is full (R421). -/
def eventFrameReceive (d : Nat) (s : State) : State :=
  let (x, s) := takeRx d (fun f => fClass f == 5) s
  match x with
  | none => s
  | some x =>
    if (s.getTrm d).evq.length < 16 then
      (showMbox d (s.modTrm d fun t => { t with evq := t.evq ++ [fPayload x.bytes] })).raise d 521 3 (fSrc x.bytes % 4096)
    else s.addSat d TRM_PERR.DROP

def execEventFrameReceive (d : Nat) (s : State) : Host.Outcome State Fault Refusal := onLive d s (eventFrameReceive d)

/-- OP of an ACCESS frame (R422). -/
def accOp (f : List Byte) : Nat := fByte (fPayload f) 0

/-- The answer to an ACCESS request (R422): OP | 0x80, the same TAG, COUNT and offset, a STATUS, and the data. -/
def accessAnswer (d : Nat) (f : List Byte) (status : Nat) (off : Nat) (data : List Byte) (s : State) : State :=
  let p := fPayload f
  originate d 6 false (fSrc f)
    ([BitVec.ofNat 8 (fByte p 0 % 128 + 128), p.getD 1 0, BitVec.ofNat 8 status, p.getD 3 0] ++ leBytes off 4 ++ data) s

/-- A MSG enters the receive mailbox, or is answered with STATUS 0x05 (R422). -/
def accessMsg (d : Nat) (s : State) : State :=
  let (x, s) := takeRx d (fun f => fClass f == 6 && accOp f == 5) s
  match x with
  | none => s
  | some x =>
    let r := mboxPut d x.bytes s
    if r.1 then r.2 else accessAnswer d x.bytes 5 (fNum (fPayload x.bytes) 4 4) [] s

def execAccessMsg (d : Nat) (s : State) : Host.Outcome State Fault Refusal := onLive d s (accessMsg d)

/-- A response enters the receive mailbox, or is dropped and counted (R422). -/
def accessResponse (d : Nat) (s : State) : State :=
  let (x, s) := takeRx d (fun f => fClass f == 6 && decide (128 ≤ accOp f)) s
  match x with
  | none => s
  | some x =>
    let r := mboxPut d x.bytes s
    if r.1 then r.2 else s.addSat d TRM_PERR.DROP

def execAccessResponseReceive (d : Nat) (s : State) : Host.Outcome State Fault Refusal := onLive d s (accessResponse d)

/-- SEND: the frame in TRM_TXBUF is sent with source node, HOPS and CRC filled in (R422); one whose class or LEN R405 does not know
is dropped under it. -/
def trmSend (d : Nat) (s : State) : State :=
  if s.bit d TRM_MBOX.BUSY then s
  else
    let bs := (List.range 64).flatMap fun i => leBytes (s.rd d TRM_TXBUF.DATA i) 4
    let n := fNum bs 6 2
    if !classLen (fClass bs) n then frameBad d (fClass bs) s
    else originate d (fClass bs) (fBcast bs) (fDst bs) ((bs.take (n - 4)).drop 8) s

def execTrmSend (d : Nat) (s : State) : Host.Outcome State Fault Refusal := onLive d s (trmSend d)

/-- POP removes the head receive frame (TRM_MBOX). -/
def trmPop (d : Nat) (s : State) : State := showMbox d (s.modTrm d fun t => { t with mbox := t.mbox.drop 1 })

def execTrmPop (d : Nat) (s : State) : Host.Outcome State Fault Refusal := onLive d s (trmPop d)

/-- EPOP removes the head remote event (TRM_MBOX). -/
def trmEpop (d : Nat) (s : State) : State := showMbox d (s.modTrm d fun t => { t with evq := t.evq.drop 1 })

def execTrmEpop (d : Nat) (s : State) : Host.Outcome State Fault Refusal := onLive d s (trmEpop d)

/-- A write of TRM_MBOX: SEND, POP and EPOP. -/
def mboxWrite (v : Word) (d : Nat) (s : State) : State :=
  let w := v.toNat
  let s := if bitOf w 0 then trmSend d s else s
  let s := if bitOf w 2 then trmPop d s else s
  if bitOf w 3 then trmEpop d s else s

/-! Frames at a port (R410) -/

/-- A checked frame that arrived at the port of die `d` is handed on: BEAT and TIME to their link, BCAST to every die, a frame for
this package to its die, any other by the catalogue. -/
def frameHand (d : Nat) (f : List Byte) (s : State) : State :=
  match fClass f with
  | 1 => beatReceive d f s
  | 2 => timeReceive d (s.free % 16) f s.drew
  | _ =>
    if s.rd d GLB_PHASE.PHASE ≠ 5 then s
    else if fBcast f then broadcast d (some d) f s
    else if fDst f % 4096 = s.ownId d then
      let e := fDst f / 4096
      if s.hasDie e && s.reach d e then deliver e f false s else noRoute d (fDst f % 4096) s
    else route d f s

def execFrameForward (d : Nat) (f : List Byte) (s : State) : Host.Outcome State Fault Refusal :=
  onLive d s fun s => if s.rd d TRM_PORT.STATE = 2 then arrive d f (frameHand d) s else s

/-! The tracker's update -/

/-- At a multiple of 1,000 tk the tracker of axis `n` updates and publishes (R89, R95), that of an axis the die does not own too (R16,
R119); rows of a snapshot that are due are applied (R355); the emulation and the transmit slots follow it. -/
def trackerUpdate (d n ecc : Nat) (s : State) : State :=
  let s := s.toNext (State.stepNo 2 d n) 1000
  if s.rd d GLB_PHASE.PHASE ≠ 5 then s
  else
    let sect := (s.getTrk d n).pendSect.isSome
    let s := encSnapTake d n (trkUpdate d n ecc s)
    if !s.holds d n then s else
    let s := emuAdvance d n sect s
    let s := emuCopy d n s
    angleSend d n s

def execTrackerUpdate (d n ecc : Nat) (s : State) : Host.Outcome State Fault Refusal := onAxis d n s (trackerUpdate d n ecc)

end Sys2Proof.Machine
end

