-- ==== Sys2Proof/Machine/Flash.lean ====
section
/-!
DEFINITION. Flash: areas, commands, erase markers, protection, and the load of the option area and calibration row (R459 to R473,
R18).
-/

namespace Sys2Proof.Machine

/-! Areas (R459) -/

/-- Size of an area in bytes. -/
def areaSize (a : Nat) : Nat := match a with | 0 => 16777216 | 1 => 1048576 | _ => 4096

/-- Size of a sector of an area. -/
def sectorSize (a : Nat) : Nat := match a with | 0 => 65536 | 1 => 4096 | _ => 2048

/-- Number of sectors of an area. -/
def sectors (a : Nat) : Nat := areaSize a / sectorSize a

/-- The sector is interrupted (R468). -/
def sectorInt (s : State) (d a k : Nat) : Bool :=
  match a with
  | 0 => bitOf (s.rd d NVF_INTC.INT (k / 32)) (k % 32)
  | 1 => bitOf (s.rd d NVF_INTD.INT (k / 32)) (k % 32)
  | _ => if k = 0 then s.bit d NVF_OPT.INTA else s.bit d NVF_OPT.INTB

/-- Sets or clears the bit of a sector (R468). -/
def setInt (d a k : Nat) (v : Bool) (s : State) : State :=
  match a with
  | 0 => s.wr d NVF_INTC.INT (putBit (s.rd d NVF_INTC.INT (k / 32)) (k % 32) v) (k / 32)
  | 1 => s.wr d NVF_INTD.INT (putBit (s.rd d NVF_INTD.INT (k / 32)) (k % 32) v) (k / 32)
  | _ => if k = 0 then s.wr d NVF_OPT.INTA (b2n v) else s.wr d NVF_OPT.INTB (b2n v)

/-- The area, or the code bank, is busy with a program or erase in progress or suspended (R460). -/
def flashBusy (s : State) (d a o : Nat) : Bool :=
  match s.getNvf d with
  | some r => r.started && (r.op == 1 || r.op == 2) && r.area == a && (a != 0 || r.addr / 8388608 == o / 8388608)
  | none => false

/-- `k` bytes of flash as read with ECC outcome `ecc` (0 none, 1 corrected, 2 uncorrected): a corrected error is reported, an
uncorrected one reads 0 (R459). -/
def flashRead (d a o k ecc : Nat) (s : State) : Nat × State :=
  let s := if a = 0 then s.inject d 3 545 5 o else if a = 1 then s.inject d 4 545 5 o else s
  if ecc = 1 then (s.flashLe d a o k, (s.addSat d NVF_ECC.COR).raise d 545 4 o)
  else if ecc = 2 then (0, (s.addSat d NVF_ECC.UNC).raise d 545 5 o)
  else (s.flashLe d a o k, s)

/-- A read by a master other than the harts (R460, R469): 0 and an access fault where busy, 0 with nvf-invalid once for each
interrupted sector; the password reads 0 (R463). -/
def flashWindow (m d a o ecc addr : Nat) (s : State) : Nat × State :=
  let k := o / sectorSize a
  if flashBusy s d a o then (0, s.accessFault d m false 2 5 addr)
  else if a < 3 ∧ sectorInt s d a k then
    let s := if (s.getMark d a k).told then s else (s.modMark d a k fun x => { x with told := true }).raise d 547 3 (a * 256 + k)
    (0, s)
  else if a = 2 ∧ 0x30 ≤ o % 2048 ∧ o % 2048 < 0x40 then (0, s)
  else flashRead d a o 4 ecc s

/-! Commands (R464 to R467) -/

/-- A unit has been programmed since its last erase (R465). -/
def unitUsed (s : State) (d a o : Nat) : Bool := s.unitUsed.get (State.flashKey d a o / 16) false

/-- The sector is protected (R472, R473). -/
def sectorProt (s : State) (d a k : Nat) : Bool :=
  if s.bit d NVF_PROT.UNLOCKED || !(s.getDie d).optOk then false
  else if a = 2 then s.bit d NVF_PROT.OPTWP
  else (List.range 16).any fun r =>
    let w := s.opt d (0x40 + 4 * r) 4
    bitOf w 17 && bitsOf w 16 1 == a && decide (bitsOf w 0 8 ≤ k) && decide (k ≤ bitsOf w 8 8)

/-- The password of the loaded copy (R463). -/
def password (s : State) (d : Nat) : Nat := s.opt d 0x30 16

/-- The key registers as one number (NVF_KEY). -/
def keyOf (s : State) (d : Nat) : Nat :=
  s.rd d NVF_KEY.KEY 0 + 2 ^ 32 * s.rd d NVF_KEY.KEY 1 + 2 ^ 64 * s.rd d NVF_KEY.KEY 2 + 2 ^ 96 * s.rd d NVF_KEY.KEY 3

/-- The refusal of a command, 0 where it is accepted, checked in the order of R464 (R465, R469, R472, R473). -/
def nvfRefuse (s : State) (d op a o : Nat) : Nat :=
  let k := o / sectorSize a
  if s.bit d NVF_STAT.BUSY then 1
  else if op = 0 ∨ 5 < op ∨ a = 3 then 2
  else if op < 4 ∧ (areaSize a ≤ o ∨ (op = 1 ∧ o % 16 ≠ 0)) then 3
  else if op < 3 && sectorProt s d a k then 4
  else if op == 1 && sectorInt s d a k then 6
  else if op == 1 && unitUsed s d a o then 5
  else if op == 4 && s.bit d NVF_PROT.LOCKOUT then 8
  else if op == 4 && !s.bit d NVF_PROT.NOPW && keyOf s d != password s d then 7
  else 0

/-- A command is refused: ERR, nvf-cmd (R464). -/
def nvfErr (d e : Nat) (s : State) : State := (s.wr d NVF_STAT.ERR e).raise d 544 3 e

/-- UNLOCK counts a wrong password; at the eighth the lock-out falls (R473). -/
def unlockFail (d : Nat) (s : State) : State :=
  let n := s.rd d NVF_PROT.FAILS + 1
  let s := s.wr d NVF_PROT.FAILS n
  if n = 8 then (s.wr d NVF_PROT.LOCKOUT 1).raise d 548 3 0 else s

/-- The key registers go to 0 (R473). -/
def clearKeys (d : Nat) (s : State) : State := s.forEach [0, 1, 2, 3] fun k s => s.wr d NVF_KEY.KEY 0 k

/-- A command starts: an ERASE erases the marker pair and programs the intent unit with PT64 and the erase count (R467); UNLOCK and
RELOCK act (R473). -/
def nvfStart (d : Nat) (s : State) : State :=
  match s.getNvf d with
  | none => s
  | some r =>
    let s := s.modNvf d fun _ => some { r with started := true }
    match r.op with
    | 2 =>
      s.modMark d r.area (r.addr / sectorSize r.area) fun x =>
        { x with intent := some (s.ptD d, ((x.done.map fun y => y.2 + 1).getD 1) % 2 ^ 32), done := none, bad := false }
    | 4 => (s.wr d NVF_PROT.UNLOCKED 1).wr d NVF_PROT.FAILS (if s.bit d NVF_PROT.NOPW then s.rd d NVF_PROT.FAILS else 0)
    | 5 => s.wr d NVF_PROT.UNLOCKED 0
    | _ => s

/-- A write of NVF_CMD (R464): refused by name, or accepted; during a dip it waits (R471). -/
def nvfCmd (op a d : Nat) (s : State) : State :=
  let o := s.rd d NVF_ADDR.ADDR
  let e := nvfRefuse s d op a o
  let s := if op = 4 ∧ e ≠ 1 ∧ e ≠ 2 then clearKeys d s else s
  if e ≠ 0 then nvfErr d e (if e = 7 then unlockFail d s else s)
  else
    let data := (List.range 4).flatMap fun k => leBytes (s.rd d NVF_DATA.DATA k) 4
    let s := ((s.wr d NVF_STAT.BUSY 1).wr d NVF_STAT.ERR 0).wr d NVF_STAT.LASTOP op
    let s := s.modNvf d fun _ => some { op := op, area := a, addr := o, data := data }
    if s.bit d PWR_STAT.DIP then s.wr d NVF_STAT.WAIT 1 else nvfStart d s

/-- The command writes NVF_CMD with its code and an area (R464). -/
def execNvfProg (d a : Nat) (s : State) : Host.Outcome State Fault Refusal := onLive d s (nvfCmd 1 (a % 4) d)
def execNvfErase (d a : Nat) (s : State) : Host.Outcome State Fault Refusal := onLive d s (nvfCmd 2 (a % 4) d)
def execNvfBlank (d a : Nat) (s : State) : Host.Outcome State Fault Refusal := onLive d s (nvfCmd 3 (a % 4) d)
def execNvfUnlock (d : Nat) (s : State) : Host.Outcome State Fault Refusal := onLive d s (nvfCmd 4 0 d)
def execNvfRelock (d : Nat) (s : State) : Host.Outcome State Fault Refusal := onLive d s (nvfCmd 5 0 d)

/-- Writes the 16 bytes of a unit. -/
def putUnit (d a o : Nat) (bs : List Byte) (s : State) : State :=
  let s := s.forEach (List.range 16) fun i s => s.setFlash d a (o + i) (bs.getD i 0xFF)
  { s with unitUsed := s.unitUsed.set (State.flashKey d a o / 16) true false }

/-- Erases a sector to 0xFF. -/
def eraseSector (d a k : Nat) (s : State) : State :=
  let lo := State.flashKey d a (k * sectorSize a)
  { s with flash := s.flash.drop lo (lo + sectorSize a), unitUsed := s.unitUsed.drop (lo / 16) ((lo + sectorSize a) / 16) }

/-- The command of die `d` ends (R466): what it programs or erases then stands, DONE := 1 and line 22. A suspended or waiting one
does not end. -/
def nvfComplete (d : Nat) (s : State) : State :=
  match s.getNvf d with
  | none => s
  | some r =>
    if !r.started || s.bit d NVF_STAT.SUSP then s
    else
      let k := r.addr / sectorSize r.area
      let s := match r.op with
        | 1 => putUnit d r.area r.addr r.data s
        | 2 =>
          let s := eraseSector d r.area k s
          let s := s.modMark d r.area k fun x => { x with done := (x.intent.map Prod.snd).map fun c => (s.ptD d, c), told := false }
          setInt d r.area k false s
        | 3 =>
          let units := (List.range (sectorSize r.area / 16)).map fun u => k * sectorSize r.area + 16 * u
          match units.find? fun o => unitUsed s d r.area o with
          | none => s.wr d NVF_STAT.BLANK 1
          | some o => (s.wr d NVF_STAT.BLANK 0).wr d NVF_ERRADDR.ADDR o
        | _ => s
      let s := s.modNvf d fun _ => none
      ((s.wr d NVF_STAT.BUSY 0).wr d NVF_STAT.DONE 1).setIrqs d 22 true

def execNvfCmdComplete (d : Nat) (s : State) : Host.Outcome State Fault Refusal := onLive d s (nvfComplete d)

/-- A dip suspends the operation in progress (R471). -/
def nvfSuspend (d : Nat) (s : State) : State :=
  match s.getNvf d with
  | some r => if r.started then (s.wr d NVF_STAT.SUSP 1).wr d PWR_STAT.FLSUSP 1 else s
  | none => s

/-- The dip ends: the suspended operation continues, a waiting command starts (R471). -/
def nvfResume (d : Nat) (s : State) : State :=
  let s := (s.wr d NVF_STAT.SUSP 0).wr d PWR_STAT.FLSUSP 0
  if s.bit d NVF_STAT.WAIT then nvfStart d (s.wr d NVF_STAT.WAIT 0) else s

/-- A reset of the die ends the operation at once (R470, R471): a unit being programmed holds undefined contents; an erase leaves its
sector with an intent and no completion. -/
def nvfAbort (d : Nat) (s : State) : State :=
  match s.getNvf d with
  | some r =>
    let s := s.modNvf d fun _ => none
    if r.started && r.op == 1 then
      let v := s.free
      putUnit d r.area r.addr ((List.range 16).map fun i => BitVec.ofNat 8 (v / 256 ^ i)) s.drew
    else s
  | none => s

/-- A unit of a marker pair as 16 bytes (R467): all ones where erased. -/
def markUnit (magic : Nat) (u : Option (Nat × Nat)) : Nat :=
  match u with
  | none => 2 ^ 128 - 1
  | some (pt, n) => magic + pt % 2 ^ 64 * 2 ^ 32 + n % 2 ^ 32 * 2 ^ 96

/-- A write of the low word of NVF_MARK latches the marker pair of a sector (NVF_MARK); a unit with bad bytes is free. -/
def markSelect (v : Word) (d : Nat) (s : State) : State :=
  let a := bitsOf v.toNat 8 2
  let x := s.getMark d a (bitsOf v.toNat 0 8)
  if x.bad then
    ((s.wr d NVF_MARK.INTENT s.free).wr d NVF_MARK.DONE (markUnit 0x454E4F44 x.done)).drew
  else (s.wr d NVF_MARK.INTENT (markUnit 0x54544E49 x.intent)).wr d NVF_MARK.DONE (markUnit 0x454E4F44 x.done)

def execNvfMarkSelect (d : Nat) (v : Word) (s : State) : Host.Outcome State Fault Refusal := onLive d s (markSelect v d)

/-! The load (R461 to R463, R468) -/

/-- The class of a marker pair (R468). -/
def Marker.interrupted (x : Marker) : Bool :=
  x.bad || match x.intent, x.done with
    | none, none => false
    | some i, some c => i.2 != c.2
    | some _, none => true
    | none, some _ => true

/-- The sectors of an area are classed; an interrupted one sets its bit and is reported (R468). -/
def classArea (d a : Nat) (s : State) : State :=
  s.forEach (List.range (sectors a)) fun k s =>
    let int := (s.getMark d a k).interrupted
    let s := (setInt d a k int s).modMark d a k fun x => { x with told := false }
    if int then s.raise d 546 3 (a * 256 + k) else s

/-- `k` bytes of flash from an offset. -/
def flashBytes (s : State) (d a o k : Nat) : List Byte := (List.range k).map fun i => s.flashByte d a (o + i)

/-- An option copy is valid (R462): magic, version, CRC, no ECC error, not interrupted. -/
def copyValid (s : State) (d c : Nat) (ecc : Bool) : Bool :=
  let b := c * 2048
  s.flashLe d 2 b 4 == 0x4E54504F && s.flashLe d 2 (b + 4) 2 == 1 && !ecc && !sectorInt s d 2 c &&
    s.flashLe d 2 (b + 0x7FC) 4 == crc32c (flashBytes s d 2 b 0x7FC)

/-- The calibration row passes its checks (R461). -/
def calOk (s : State) (d : Nat) (ecc : Bool) : Bool :=
  !ecc && s.flashLe d 3 0x7FC 4 == crc32c (flashBytes s d 3 0 0x7FC)

/-- The pair-site mode and checked or split operation in force on die `d` (R17, R198), with the slots per axis and the exponent ceiling
that follow from them (R200, R213). -/
def setMode (d : Nat) (divided split : Bool) (s : State) : State :=
  let s := (s.wr d GLB_ID.PAIRMODE (b2n divided)).wr d LAW_CFG.MODE (b2n split)
  let s := (s.wr d LAW_CFG.SLOTMAX (if divided then 0x60 else 0x30)).wr d LAW_CFG.ECEIL (if split then 0x1F else 0x1C)
  s.modDie d fun x => { x with split := split }

/-- What the loaded copy sets (R463). The mode that the mate runs in holds until both have been reset (R17). -/
def optApply (d : Nat) (s : State) : State :=
  let b0 := s.opt d 0x0C 1
  let b1 := s.opt d 0x0D 1
  let id := s.opt d 0x0E 2
  let s := s.modDie d fun x => { x with optMode := bitOf b0 0, optSplit := bitOf b0 1 }
  let m := mateOf d
  let s :=
    if !(s.getDie m).inReset && (s.getDie m).optOk then setMode d (s.divided m) (s.getDie m).split s
    else setMode d (bitOf b0 0) (bitOf b0 1) s
  let s := if d < 2 then ((s.wr d HIF_ID.ENABLED (bitsOf b1 0 1)).wr d MEM_CTRL.EN (bitsOf b1 1 1)).wr d STK_CTRL.EN (bitsOf b1 2 1) else s
  let s := (s.wr d TRM_IDSTAT.AUTO (bitsOf id 12 1)).wr d TRM_CTRL.PRIO (s.opt d 0x10 1)
  let en := (List.range 16).foldl (fun a r => a + (bitsOf (s.opt d (0x40 + 4 * r) 4) 17 1) * 2 ^ r) 0
  let s := (s.wr d NVF_PROT.REGEN en).wr d NVF_PROT.OPTWP (bitsOf b1 3 1)
  (s.wr d NVF_PROT.NOPW (b2n (password s d == 2 ^ 128 - 1))).wr d NVF_PROT.UNLOCKED 0

/-- The fields that the mates must hold alike, as each has loaded them (R18). -/
def optDiffers (s : State) (d e : Nat) : Bool :=
  (s.getDie d).optMode != (s.getDie e).optMode || (s.getDie d).optSplit != (s.getDie e).optSplit

/-- With the mate's options loaded too, the mates are compared (R18): a difference is reported by both, and neither drives until both
have been reset since and hold the same, which is then the mode of both. -/
def optCompare (d : Nat) (s : State) : State :=
  let e := mateOf d
  let x := s.getDie d
  let y := s.getDie e
  let mark := fun (bad clean : Bool) (d : Nat) (s : State) => s.modDie d fun z => { z with optMismatch := bad, optClean := clean }
  if y.inReset || !y.optOk then s
  else if optDiffers s d e then
    let s := mark true false e (mark true false d (s.holdBalls (d / 2)))
    (s.raise d 551 3 0).raise e 551 3 0
  else if y.optMismatch && !y.optClean then mark true true d s
  else if y.optMismatch then
    setMode e x.optMode x.optSplit (setMode d x.optMode x.optSplit (mark false false e (mark false false d s)))
  else s

/-- Every pad of die `d` goes to high impedance (R58). -/
def padsOff (d : Nat) (s : State) : State :=
  let s := (s.holdBalls (d / 2)).modDie d fun x => { x with noPads := true }
  emuShowAll d (s.forEach (List.range 8) fun n s => if s.bit d PWM_CTRL.SAFE n then s.takeSafe d n else s)

/-- The option area and calibration row are loaded and checked (R57, R58, R461, R462, R468); `ea`, `eb` and `ec` say that copy A, copy
B and the calibration row read with an uncorrected error. A die that fails keeps its pads at high impedance. -/
def optionLoad (d : Nat) (ea eb ec : Bool) (s : State) : State :=
  if s.rd d GLB_PHASE.PHASE ≠ 1 || (s.getDie d).optOk then s
  else
    let s := classArea d 2 (classArea d 1 (classArea d 0 s))
    let va := copyValid s d 0 ea
    let vb := copyValid s d 1 eb
    let pick := if va && vb then decide (s.flashLe d 2 8 4 < s.flashLe d 2 0x808 4) else vb
    let s := ((s.wr d NVF_OPT.VALIDA (b2n va)).wr d NVF_OPT.VALIDB (b2n vb)).wr d NVF_OPT.COPY (b2n pick)
    let s := if va != vb then s.raise d 550 3 (b2n pick) else s
    let cal := calOk s d ec
    let s := if cal then s.wr d EXC_STAT.CALVER (s.flashLe d 3 4 2) else s.raise d 549 3 0
    if !(va || vb) || !cal then padsOff d s
    else
      let s := (s.modDie d fun x => { x with noPads := false })
      let s := optApply d (s.modDie d fun x => { x with optOk := true })
      trainStart d (optCompare d s)

def execOptionAreaLoad (d : Nat) (ea eb ec : Bool) (s : State) : Host.Outcome State Fault Refusal :=
  onLive d s (optionLoad d ea eb ec)

end Sys2Proof.Machine
end

