-- ==== Sys2Proof/Machine/Power.lean ====
section
/-!
DEFINITION. Rails, dips, temperature and the power governor (R443 to R457). The power-on reset of R446 is in Reset.lean.
-/

namespace Sys2Proof.Machine

/-! Rails (R444, R447, R448) -/

/-- Rail `r` is monitored on die `d`: VDDQ on d0 and d1 only (R443). -/
def railOn (d r : Nat) : Bool := r < 8 && (r != 3 || d < 2)

/-- A warning crossing counts on a die that runs (R444, R447): a dip begins, or goes on without a break. -/
def dipStart (d r : Nat) (s : State) : State :=
  let was := s.bit d PWR_STAT.DIP
  let s := ((s.wr d PWR_STAT.DIP 1).wrBit d PWR_STAT.WARN r true).addSat d PWR_BROWN.COUNT
  let s := ((s.wr d PWR_BROWN.RAIL r).wr d PWR_LASTDIP.PT (s.ptD d)).modGov d fun g => { g with retAt := none }
  if was then s else nvfSuspend d (s.raise d 288 1 r)

/-- Rail `r` falls below its warning threshold for 100 ns. -/
def railWarning (d r : Nat) (s : State) : State :=
  if bitOf (s.getRails d).low r then s
  else
    let s := s.modRails d fun x => { x with low := putBit x.low r true }
    if (s.getDie d).inReset then s else dipStart d r s

def execRailWarningCrossing (d r : Nat) (s : State) : Host.Outcome State Fault Refusal :=
  onItem (s.hasDie d && railOn d r) s (railWarning d r)

/-- Rail `r` is back above its warning threshold for 100 ns; the last one starts the 100 µs (R448). -/
def railWarningReturn (d r : Nat) (s : State) : State :=
  let s := s.modRails d fun x => { x with low := putBit x.low r false }
  if (s.getDie d).inReset then s
  else
    let s := s.wrBit d PWR_STAT.WARN r false
    if s.rd d PWR_STAT.WARN = 0 ∧ s.bit d PWR_STAT.DIP ∧ (s.getGov d).retAt = none then
      s.modGov d fun g => { g with retAt := some s.pt }
    else s

def execRailWarningReturn (d r : Nat) (s : State) : Host.Outcome State Fault Refusal :=
  onItem (s.hasDie d && railOn d r) s (railWarningReturn d r)

/-- 100 µs after the last return normal running resumes (R448). -/
def dipEnd (d : Nat) (s : State) : State :=
  match (s.getGov d).retAt with
  | none => s
  | some t =>
    let s := (s.passTo (t + 250000)).modGov d fun g => { g with retAt := none }
    nvfResume d ((s.wr d PWR_STAT.DIP 0).raise d 288 2 (s.rd d PWR_BROWN.RAIL))

def execDipEnd (d : Nat) (s : State) : Host.Outcome State Fault Refusal := onLive d s (dipEnd d)

/-- The rail's HIGH bit is set and pwr-high raised (R444). -/
def highStart (d r : Nat) (s : State) : State := (s.wrBit d PWR_STAT.HIGH r true).raise d 289 1 r

/-- Rail `r` rises above its high threshold for 100 ns (R444). -/
def railHigh (d r : Nat) (s : State) : State :=
  if bitOf (s.getRails d).high r then s
  else
    let s := s.modRails d fun x => { x with high := putBit x.high r true }
    if (s.getDie d).inReset then s else highStart d r s

def execRailHighCrossing (d r : Nat) (s : State) : Host.Outcome State Fault Refusal :=
  onItem (s.hasDie d && railOn d r) s (railHigh d r)

/-- Rail `r` is back below its high threshold for 100 ns (R444). -/
def railHighReturn (d r : Nat) (s : State) : State :=
  let was := bitOf (s.getRails d).high r
  let s := s.modRails d fun x => { x with high := putBit x.high r false }
  if (s.getDie d).inReset || !was then s else (s.wrBit d PWR_STAT.HIGH r false).raise d 289 2 r

def execRailHighReturn (d r : Nat) (s : State) : Host.Outcome State Fault Refusal :=
  onItem (s.hasDie d && railOn d r) s (railHighReturn d r)

/-- A die leaves reset: a rail already beyond a threshold counts as crossing it (R444). -/
def railsAtExit (d : Nat) (s : State) : State :=
  s.forEach (List.range 8) fun r s =>
    let s := if railOn d r && bitOf (s.getRails d).low r then dipStart d r s else s
    if railOn d r && bitOf (s.getRails d).high r then highStart d r s else s

/-! Temperature (R449, R450) -/

/-- Which of the readings, in 2^-8 °C, are excluded (R449). -/
def excluded (ts : List Int) : List Bool :=
  let far := ts.map fun t => decide (t < -45 * 256 ∨ 130 * 256 < t)
  let rest := (ts.zip far).filter fun x => !x.2
  let sum := (rest.map fun x => x.1).foldl (fun (a : Int) t => a + t) 0
  let k : Int := rest.length
  (ts.zip far).map fun x =>
    x.2 || (decide (2 ≤ k) && decide (15 * 256 * (k - 1) < ((x.1 * (k - 1) - (sum - x.1)).natAbs : Int)))

/-- A thermal threshold with hysteresis (R450): asserted, deasserted. -/
def thermal (d src : Nat) (on : Bool) (rise fall : Int) (tj : Int) (s : State) : Bool × State :=
  if !on && decide (rise ≤ tj) then (true, s.raise d src 1 0)
  else if on && decide (tj ≤ fall) then (false, s.raise d src 2 0)
  else (on, s)

/-- Every 1 ms the four junction sensors are read, in 2^-8 °C, and Tj follows (R449, R450). -/
def tempRead (d : Nat) (ts : List Int) (s : State) : State :=
  let s := s.toNext (State.stepNo 10 d 0) 2500000
  let ts := (List.range 4).map fun i => ts.getD i 0
  let ex := excluded ts
  let old := (s.getGov d).excl
  let s := s.forEach (List.range 4) fun i s => if ex.getD i false && !old.getD i false then s.raise d 292 3 i else s
  let live := ((ts.zip ex).filter fun x => !x.2).map fun x => x.1
  let top := live.foldl max (-32768)
  let fault := live.length < 2
  let tj := if fault then max ((s.rd d PWR_TLIM.TLIM : Int) * 256) top else top
  let s := (s.wrI d PWR_TEMP.TJ (satI 16 tj)).wr d PWR_TEMP.FAULT (b2n fault)
  let s := s.wrI d PWR_TEMP.TMAX (max (s.rdI d PWR_TEMP.TMAX) (satI 15 (tj / 2)))
  let g := s.getGov d
  let tw : Int := clampN 60 115 (s.rd d PWR_TLIM.TWARN)
  let (w, s) := thermal d 290 g.warn (tw * 256) ((tw - 3) * 256) tj s
  let (c, s) := thermal d 291 g.crit (120 * 256) (110 * 256) tj s
  s.modGov d fun g => { g with excl := ex, warn := w, crit := c }

def execTempSensorRead (d : Nat) (ts : List Int) (s : State) : Host.Outcome State Fault Refusal := onLive d s (tempRead d ts)

/-! The governor (R452 to R457) -/

/-- Firm work is shed: detectors, and learning with the revolution in progress (R142, R193, R456). -/
def firmShed (d : Nat) (s : State) : State :=
  let s := s.forEach (List.range 16) fun i s => s.wr d DET_STAT.SHED 1 i
  s.forEach (List.range 8) fun n s => s.forEach (List.range 4) fun t s =>
    (s.wr d TBL_RES.SHED 1 n t).modSlot d n t fun x => { x with taking := false, idle := true }

/-- Firm work is admitted again: new windows, learning from the next wrap, a waiting swap at once (R142, R193, R353). -/
def firmBack (d : Nat) (s : State) : State :=
  let s := s.forEach (List.range 16) fun i s =>
    (detDiscard d i (s.wr d DET_STAT.SHED 0 i)).modDet d i fun r => { r with fresh := true }
  let s := s.forEach (List.range 8) fun n s => s.forEach (List.range 4) fun t s => s.wr d TBL_RES.SHED 0 n t
  if s.bit d PAIR_STAT.SWPEND then swapElapsed d s else s

/-- Admission of both classes at a governor step (R454): a withdrawal of firm admission withdraws deferrable admission too. -/
def admitTask (d : Nat) (tok : Rat) (s : State) : State :=
  let firm := s.bit d PWR_ADMIT.FIRM
  let dfr := s.bit d PWR_ADMIT.DEFER
  let foff := s.rd d PWR_LVLF.FOFF
  let fon := max foff (s.rd d PWR_LVLF.FON)
  let doff := s.rd d PWR_LVLD.DOFF
  let don := max doff (s.rd d PWR_LVLD.DON)
  let firm' := !(decide (tok < (foff : Rat)) || s.bit d PWR_ADMIT.HOLDF) && (firm || decide ((fon : Rat) ≤ tok))
  let dfr' := firm' && !(decide (tok < (doff : Rat)) || s.bit d PWR_ADMIT.HOLDD || s.bit d PWR_STAT.DIP) &&
    (dfr || decide ((don : Rat) ≤ tok))
  if firm' == firm && dfr' == dfr then s
  else
    let s := ((s.wr d PWR_ADMIT.FIRM (b2n firm')).wr d PWR_ADMIT.DEFER (b2n dfr')).wr d PWR_ADMIT.CHG 1
    let s := if firm && !firm' then s.addSat d PWR_SHEDCNT.FIRM else s
    let s := if dfr && !dfr' then s.addSat d PWR_SHEDCNT.DEFER else s
    let s := s.setIrqs d 23 true
    if firm && !firm' then firmShed d s else if !firm && firm' then firmBack d s else s

/-- The governor's step every 100 µs (R444, R452 to R454), with the die's power in mW averaged over the step and the rails in mV. -/
def governorStep (d p : Nat) (mv : List Nat) (s : State) : State :=
  let s := s.toNext (State.stepNo 11 d 0) 250000
  let s := s.forEach (List.range 8) fun r s =>
    if railOn d r then
      let v := min (mv.getD r 0) 65535
      (s.wr d PWR_RAIL.MV v r).wr d PWR_RAIL.MIN (min (s.rd d PWR_RAIL.MIN r) v) r
    else s
  let p := min p 65535
  let s := (s.wr d PWR_PMEAS.P p).wr d PWR_PMEAS.PMAX (max (s.rd d PWR_PMEAS.PMAX) p)
  let g := s.getGov d
  let tj : Rat := (s.rdI d PWR_TEMP.TJ : Rat) / 256
  let h := if s.bit d PWR_TEMP.FAULT then 0 else clampQ 0 1 (((s.rd d PWR_TLIM.TLIM : Rat) - tj) / ((max 1 (s.rd d PWR_TLIM.TSPAN) : Nat) : Rat))
  let def_ : Rat := (s.rd d PWR_BUDGET.SHARE : Rat) - (p : Rat)
  let cap : Rat := ((max 1 (s.rd d PWR_TOKEN.CAP) : Nat) : Rat)
  let tok := clampQ 0 cap (g.tok + (if 0 ≤ def_ then def_ / 10 * h else def_ / 10))
  let s := s.wr d PWR_TOKEN.TOK (floorQ tok).toNat
  let zeros := if tok = 0 then min (g.zeros + 1) 100 else 0
  let s := if g.deficit && tok != 0 then s.raise d 293 2 0 else s
  let s := s.modGov d fun g =>
    { g with tok := tok, zeros := zeros, deficit := g.deficit && tok == 0, pSum := g.pSum + p, pN := g.pN + 1 }
  admitTask d tok s

def execGovernorStep (d p : Nat) (mv : List Nat) (s : State) : Host.Outcome State Fault Refusal :=
  onLive d s (governorStep d p mv)

/-- TOK has stayed at 0 for 100 steps (R453). -/
def govDeficit (d : Nat) (s : State) : State :=
  let g := s.getGov d
  if 100 ≤ g.zeros ∧ !g.deficit then (s.modGov d fun g => { g with deficit := true }).raise d 293 1 0 else s

def execGovDeficit (d : Nat) (s : State) : Host.Outcome State Fault Refusal := onLive d s (govDeficit d)

/-- Every 1 ms the time master shares the package budget (R455): PKGBUD ÷ N stands for an unreachable die. -/
def packageGovernor (s : State) : State :=
  let s := s.toNext (State.stepNo 12 0 0) 2500000
  match s.master with
  | none => s
  | some m =>
    let n : Rat := ((s.dies : Nat) : Rat)
    let bud : Rat := (s.rd m PWR_PKGBUD.PKG : Rat)
    let pd := fun (d : Nat) => let g := s.getGov d; if g.pN = 0 then ((s.rd d PWR_PMEAS.P : Nat) : Rat) else (g.pSum : Rat) / (g.pN : Rat)
    let near := s.dieSet m
    let sum := (List.range s.dies).foldl (fun (a : Rat) d => a + (if near.elem d then pd d else bud / n)) 0
    let u := bud - sum
    near.foldl (fun s d =>
      let (v, s) := s.near (pd d + u / n)
      let share := min (s.rd d PWR_BUDGET.DIEMAX) v.toNat
      s.modGov d fun g => { g with shareIn := some share, pSum := 0, pN := 0 }) s

def execPackageGovernorStep (s : State) : Host.Outcome State Fault Refusal := onPackage s packageGovernor

/-- A die receives its share (R455). -/
def shareReceive (d : Nat) (s : State) : State :=
  match (s.getGov d).shareIn with
  | some v => (s.wr d PWR_BUDGET.SHARE v).modGov d fun g => { g with shareIn := none, shareAt := s.pt }
  | none => s

def execShareReceive (d : Nat) (s : State) : Host.Outcome State Fault Refusal := onLive d s (shareReceive d)

/-- A die without a share for 3 ms uses PKGBUD ÷ N (R455). -/
def shareTimeout (d : Nat) (s : State) : State :=
  let s := s.passTo ((s.getGov d).shareAt + 7500000)
  let r := s.near ((s.rd d PWR_PKGBUD.PKG : Rat) / ((s.dies : Nat) : Rat))
  r.2.wr d PWR_BUDGET.SHARE (min r.1.toNat 65535)

def execShareTimeout (d : Nat) (s : State) : Host.Outcome State Fault Refusal := onLive d s (shareTimeout d)

/-- A write of PWR_PKGBUD through the window of die `d` goes to the master and is applied package-wide (R455). -/
def pkgBudWrite (v : Word) (d : Nat) (s : State) : State :=
  s.forEach (s.dieSet d) fun e s => s.wr e PWR_PKGBUD.PKG (v.toNat % 131072)

end Sys2Proof.Machine
end

