-- ==== Sys2Proof/Machine/Reset.lean ====
section
/-!
DEFINITION. Reset of a die and of the package, the watchdog, and the end of a release, which may be a reset (R50 to R56, R300, R301,
R349, R350, R487).
-/

namespace Sys2Proof.Machine

/-! What a reset drops and keeps (R487) -/

/-- The entries of die `d` leave a table whose numbers give each die `k` places. -/
def offDie {α : Type} (d k : Nat) (m : Store α) : Store α := m.drop (d * k) ((d + 1) * k)

/-- Registers and records of die `d` take their reset values; flash, DRAM, drives, the ledger and what waits for it, rails, and frames
already sent stay. -/
def dropDie (d : Nat) (s : State) : State :=
  let sent := (s.getPort d).sent
  let s := { s with
    regs := offDie d dieSpan s.regs, latch := offDie d dieSpan s.latch, die := offDie d 1 s.die, inbox := offDie d 1 s.inbox,
    legs := offDie d 32 s.legs, pwm := offDie d 8 s.pwm, pair := offDie d 1 s.pair, fwd := offDie d 1 s.fwd,
    irq := offDie d 2 s.irq, conv := offDie d 64 s.conv, exc := offDie d 8 s.exc, trk := offDie d 8 s.trk,
    slots := offDie d 32 s.slots, tcmd := offDie d 1 s.tcmd, carrel := offDie d 65536 s.carrel, encx := offDie d 8 s.encx,
    fil := offDie d 64 s.fil, det := offDie d 16 s.det, lpt := offDie d 1 s.lpt, sync := offDie d 1 s.sync }
  let s := { s with
    progmem := offDie d 16384 s.progmem, twin := offDie d 16384 s.twin, law := offDie d 8 s.law, lawd := offDie d 1 s.lawd, chan := offDie d 64 s.chan,
    tune := offDie d 8 s.tune, trc := offDie d 1 s.trc, trcbuf := offDie d 65536 s.trcbuf, ring := offDie d 64 s.ring,
    msix := offDie d 1 s.msix, fwq := offDie d 1 s.fwq, trm := offDie d 1 s.trm, port := offDie d 1 s.port,
    stk := offDie d 1 s.stk, signq := offDie d 1 s.signq, report := offDie d 4096 s.report, gov := offDie d 1 s.gov,
    nvf := offDie d 1 s.nvf, src := offDie d 1024 s.src, flt := offDie d 1 s.flt, hart := offDie d 2 s.hart,
    tcm := offDie d 524288 s.tcm, epo := offDie d 1 s.epo }
  s.modPort d fun p => { p with sent := sent }

/-- Fields that a die reset keeps: PWM_SAFE and EMU_CTRL.SAFE of each axis (R487). -/
def keptFields : List (Fld × Nat) :=
  (List.range 8).flatMap fun n => [(PWM_SAFE.LVL, n), (PWM_SAFE.ACTLOW, n), (EMU_CTRL.SAFE, n)]

/-- The bit of GLB_RSTCAUSE of a cause (R50). -/
def causeFld : ResetCause → Fld
  | .por => GLB_RSTCAUSE.POR
  | .pin => GLB_RSTCAUSE.PIN
  | .wdt => GLB_RSTCAUSE.WDT
  | .sev7 => GLB_RSTCAUSE.SEV7
  | .swr => GLB_RSTCAUSE.SWR
  | .mate => GLB_RSTCAUSE.MATE

/-- Records of the sources of die `d` with a reaction in force (R291). -/
def inForce (s : State) (d : Nat) : List SrcRec :=
  (s.src.filter fun e => d * 1024 ≤ e.1 && e.1 < (d + 1) * 1024 && e.2.sev != 0).map fun e => e.2

/-- Power-on and RSTn; every other cause is a die reset (R487). -/
def isHard (c : ResetCause) : Bool := c == .por || c == .pin

/-! FAULTn (R299, R301) -/

/-- Die `d` drives FAULTn: a sticky bit with PIN = 1 holds it, or the die has kept it low through its reset. -/
def drivesFaultN (s : State) (d : Nat) : Bool :=
  (s.getDie d).holdFaultN || s.src.any fun e => e.2.pin && d * 1024 ≤ e.1 && e.1 < (d + 1) * 1024

/-- DRV and FAULTN in step on every die. -/
def showFaultN (s : State) : State :=
  let low := (List.range s.dies).any fun d => drivesFaultN s d
  s.forEach s.liveDies fun d s => (s.wr d FLT_REACT.DRV (b2n (drivesFaultN s d))).wr d FLT_REACT.FAULTN (b2n low)

/-! Entering reset -/

/-- The mate and the services see die `d` go: held safe states, its seize, DRAM, stacks, rings, reports of staging (R294, R345,
R374, R398, R424). -/
def leaveServices (d : Nat) (s : State) : State :=
  let m := mateOf d
  let s := s.modPair m fun p => { p with heldLost := true }
  let s := if s.bit d PAIR_STAT.SEIZING then s.wr m PAIR_STAT.SEIZED 0 else s
  let s := nvfAbort d s
  let s := s.forEach (List.range s.dies) fun e s => s.modEpo e fun x => { x with seen := putBit x.seen d false }
  if d < 2 then
    let s := if s.bit d HIF_ID.BONDED then functionOff d s else s
    let s := (s.modDie d fun x => { x with inReset := true }).wr d MEM_STAT.UP 0
    nvmeGone d (memFail d s)
  else s

/-- The pads of die `d` in reset: programmed safe states where the base image has set them since power-on or RSTn, else high
impedance (R53). -/
def holdPads (d : Nat) (s : State) : State :=
  s.forEach (List.range 8) fun n s =>
    let s := s.eachLeg d n fun j l =>
      let hi := s.safeOn d n (2 * j)
      { l with hiOn := hi, loOn := !hi && s.safeOn d n (2 * j + 1), st := hi }
    s.showLegs d n

/-- PTMASTER follows, and with no die left that holds package time nothing of it is announced (R45, R55). -/
def timeFollows (s : State) : State :=
  let s := showMaster s
  if s.master = none then { s with ident := none, ptStep := none, pkgClear := [] } else s

/-- The time within which the running watchdog of die `d` would expire, in root ticks: its oscillator is within ±3 % (R41, R50). -/
def wdtWindow (s : State) (d : Nat) : Option (Nat × Nat) :=
  let t := max 1 (s.rd d GLB_WDT.TIMEOUT)
  let a := (s.getDie d).wdtAt
  if s.bit d GLB_WDT.LOCK then some (a + t * 24250, a + t * 25750) else (s.getDie d).wdtEnd

/-- The pair-site mode that die `d` comes up in until it has loaded its option area: a die reset keeps it, and after a power-on of one
die alone it is the mode that its mate runs in (R17). -/
def heldMode (s : State) (d : Nat) (c : Bool) : Nat :=
  let m := mateOf d
  if !c then s.rd d GLB_ID.PAIRMODE
  else if (s.getDie m).inReset || !(s.getDie m).optOk then 0
  else s.rd m GLB_ID.PAIRMODE

/-- Die `d` is reset by the causes `cs` (R50 to R53, R300, R301, R487). NVF_PROT.FAILS and LOCKOUT outlast all but power-on. A die reset
keeps FAULTn low where the die drives it, and the package safe-state line where a severity-7 reaction is in force on it (R292). -/
def enterReset (d : Nat) (cs : List ResetCause) (s : State) : State :=
  let s := s.holdBalls (d / 2)
  let was := s.getDie d
  let wdt := wdtWindow s d
  let line := was.holdSafeLine || cs.contains .sev7 || (inForce s d).any fun x => x.sev == 7
  let mask := (List.range 8).foldl (fun k n => putBit k n (s.owns d n)) 0
  let low := drivesFaultN s d
  let causes := (s.reg (GLB_RSTCAUSE.POR.addr d 0 0)).toNat
  let kept := keptFields.map fun f => (f, s.rd d f.1 f.2)
  let mode := heldMode s d (cs.contains .por)
  let fails := (s.rd d NVF_PROT.FAILS, s.rd d NVF_PROT.LOCKOUT)
  let trained := (s.getMem d).was
  let emu := (List.range 8).map fun n => (s.getEnc d n).pins
  let s := dropDie d (leaveServices d s)
  let s := s.setReg (GLB_RSTCAUSE.POR.addr d 0 0) (BitVec.ofNat 32 (if cs.contains .por then 0 else causes))
  let s := cs.foldl (fun s c => s.wr d (causeFld c) 1) s
  let s := s.modDie d fun x => { x with inReset := true, heldMask := mask, resetAt := some s.now, wdtEnd := wdt }
  let s := if cs.contains .por then s else (s.wr d NVF_PROT.FAILS fails.1).wr d NVF_PROT.LOCKOUT fails.2
  let s :=
    if cs.any isHard then
      let s := if cs.contains .por then s.wr d GLB_ID.PAIRMODE mode else s
      s.modMem d fun _ => {}
    else
      let s := kept.foldl (fun s f => s.wr d f.1.1 f.2 f.1.2) (s.wr d GLB_ID.PAIRMODE mode)
      let s := s.modDie d fun x => { x with safeProg := was.safeProg, holdFaultN := low, holdSafeLine := line }
      let s := s.forEach (List.range 8) fun n s => s.modEnc d n fun x => { x with pins := emuSafePins s d n (emu.getD n [.z, .z, .z]) }
      (s.modFlt d fun f => { f with pkgTake := true }).modMem d fun _ => { was := trained }
  showFaultN (timeFollows (holdPads d s))

/-- A reset by watchdog, severity 7 or software (R52): an active die with a ready mate first releases its pads. A release already in
progress, that of a swap too, becomes one for this reset, and every cause that comes before the reset is recorded by it (R51). -/
def resetDie (d : Nat) (c : ResetCause) (s : State) : State :=
  if s.mayRelease d then releaseStart d [c] s
  else if (s.getPair d).releasing.isSome then
    s.modPair d fun p => { p with swapping := false, resetAfter := if p.resetAfter.contains c then p.resetAfter else p.resetAfter ++ [c] }
  else enterReset d [c] s

/-- A source that acts on a die reset at this same instant: the one reset records it too (R51). -/
def coincides (d : Nat) (c : ResetCause) (s : State) : State :=
  if (s.getDie d).resetAt = some s.now then s.wr d (causeFld c) 1 else s

def execPowerOnReset (d : Nat) (s : State) : Host.Outcome State Fault Refusal := onDie d s (enterReset d [.por])

/-- A rail stays below its reset threshold for 1 µs (R444, R446). -/
def execRailResetCrossing (d r : Nat) (s : State) : Host.Outcome State Fault Refusal :=
  onItem (s.hasDie d && railOn d r) s (enterReset d [.por])

/-- RSTn resets every die and restarts PT64 at 0 (R50). -/
def rstnReset (s : State) : State :=
  { s.forEach (List.range s.dies) fun d s => enterReset d [.pin] s with pt := 0, slewFrom := 0, strobeAt := none, lastAt := [] }

def execRstnReset (s : State) : Host.Outcome State Fault Refusal := onPackage s rstnReset

/-! Watchdog (R50, GLB_WDT) -/

/-- A write of GLB_WDT: while LOCK = 0 TIMEOUT and EN are taken, and EN = 1 starts the watchdog; while it runs only KICK counts. -/
def wdtWrite (v : Word) (d : Nat) (s : State) : State :=
  let w := v.toNat
  if s.bit d GLB_WDT.LOCK then
    if bitsOf w 24 8 = 0xC3 then s.modDie d fun x => { x with wdtAt := s.now } else s.raise d 256 3 0
  else
    let s := (s.wr d GLB_WDT.TIMEOUT w).wr d GLB_WDT.EN (w / 65536)
    if bitOf w 16 then (s.wr d GLB_WDT.LOCK 1).modDie d fun x => { x with wdtAt := s.now } else s

def execWatchdogEnable (d : Nat) (v : Word) (s : State) : Host.Outcome State Fault Refusal :=
  onLive d s (wdtWrite (BitVec.ofNat 32 (putBit v.toNat 16 true)) d)

def execWatchdogKick (d key : Nat) (s : State) : Host.Outcome State Fault Refusal :=
  onLive d s (wdtWrite (BitVec.ofNat 32 (key % 256 * 16777216 + (s.reg (GLB_WDT.TIMEOUT.addr d 0 0)).toNat % 16777216)) d)

/-- The watchdog expires: TIMEOUT × 1,000 watch cycles, 10 µs ± 3 % each, after its last restart; the oscillator's place within the
3 % is free (log entry 4). -/
def watchdogExpiry (d : Nat) (s : State) : State :=
  if s.bit d GLB_WDT.LOCK then
    let t := max 1 (s.rd d GLB_WDT.TIMEOUT)
    let due := (s.getDie d).wdtAt + t * 24250 + s.free % (t * 1500 + 1)
    resetDie d .wdt ((s.pass (due - s.now)).drew)
  else s

/-- On a die that another source has reset at this instant, within the time of the expiry, only the cause is recorded (R51). -/
def execWatchdogExpiry (d : Nat) (s : State) : Host.Outcome State Fault Refusal :=
  onDie d s fun s =>
    if (s.getDie d).inReset then
      match (s.getDie d).wdtEnd with
      | some (a, b) => if a ≤ s.now ∧ s.now ≤ b then coincides d .wdt s else s
      | none => s
    else watchdogExpiry d s

/-! Software resets (GLB_SWRST, R52, R54) -/

/-- A mate reset through the window of die `d`: refused where a standby that has not seized asks it of the active die (R54). -/
def mateReset (m d : Nat) (s : State) : State :=
  let e := mateOf d
  let r := s.rd e PAIR_STAT.ROLE
  if !s.divided d && (r == 1 || r == 4) && (s.rd d PAIR_STAT.ROLE == 2 || s.rd d PAIR_STAT.ROLE == 3) && !s.bit d PAIR_STAT.SEIZING then
    s.accessFault d m true 2 6 (GLB_SWRST.SELF.addr d 0 0)
  else resetDie e .mate s

/-- A write of GLB_SWRST by master `m`: with a wrong key it is an access fault (R304). -/
def swrstWrite (m : Nat) (v : Word) (d : Nat) (s : State) : State :=
  let w := v.toNat
  if bitsOf w 8 8 ≠ 0xA5 then s.accessFault d m true 2 5 (GLB_SWRST.SELF.addr d 0 0)
  else
    let s := if bitOf w 1 then mateReset m d s else s
    if bitOf w 0 then resetDie d .swr s else s

/-- A write issued in the cycle in which the die is reset makes one reset with it (R51). -/
def execGlbSwrstSelf (d m : Nat) (v : Word) (s : State) : Host.Outcome State Fault Refusal :=
  onDie d s fun s =>
    if (s.getDie d).inReset then if bitsOf v.toNat 8 8 = 0xA5 then coincides d .swr s else s
    else swrstWrite (m % 16) (BitVec.ofNat 32 (putBit v.toNat 0 true)) d s

def execGlbSwrstMate (d m : Nat) (v : Word) (s : State) : Host.Outcome State Fault Refusal :=
  onLive d s (swrstWrite (m % 16) (BitVec.ofNat 32 (putBit v.toNat 1 true)) d)

/-! Leaving reset (R51) -/

/-- The die leaves reset once its rails and RSTn are good: phase 0, its time not valid (R55), the safe-state line released (R292),
fault-reset raised where it held FAULTn (R301), rails already beyond a threshold reported (R444). Its spine links come up with it: a
neighbour without a lock reports it (R58). -/
def resetExit (d : Nat) (rails rstn : Bool) (s : State) : State :=
  let x := s.getDie d
  if !x.inReset || !rails || !rstn then s
  else
    let m := mateOf d
    let off : Int := s.free
    let s := s.drew.modDie d fun x =>
      { x with inReset := false, heldMask := 0, holdSafeLine := false, upAt := s.now, ptOff := off, resetAt := none, wdtEnd := none }
    let s := s.modLawDie d fun l => { l with testAt := s.pt }
    let s := s.wr d PAIR_STAT.SEIZED (s.rd m PAIR_STAT.SEIZING)
    let wait := !(s.getDie m).inReset && s.rd m GLB_PHASE.PHASE == 5 && !s.divided d && !s.divided m
    let s := if wait then s.wr d PAIR_STAT.RESYNC 1 else s
    let s := if x.holdFaultN then s.raise d 305 3 0 else s
    let s := s.forEach [(d + 1) % s.dies, (d + s.dies - 1) % s.dies] rootLate
    showFaultN (railsAtExit d (showMem s))

def execResetExit (d : Nat) (rails rstn : Bool) (s : State) : Host.Outcome State Fault Refusal := onDie d s (resetExit d rails rstn)

/-! The end of a release (R349, R350, R352) -/

/-- The ready standby `d` sees RELEASED: its mate's drivers went off at Ts, and it is in full drive by Ts + 8 ns (R349, R350). A swap
leaves both ready (R351); after a severity-5 release the other die is not ready and TAKEREQ is set (R293); a release for a reset ends
in it (R52). -/
def releasedSeen (d : Nat) (s : State) : State :=
  let m := mateOf d
  let p := s.getPair m
  match p.releasing with
  | none => s
  | some ts =>
    if s.divided d || s.rd d PAIR_STAT.ROLE != 2 || !s.bit d PAIR_STAT.READY || (p.swapping && !p.released) then s
    else
      let s := (s.passTo (ts + 4)).holdBalls (d / 2)
      let s := s.passTo (ts + 20)
      let s := s.modPair m fun p => { p with released := true, releasing := none, swapping := false, resetAfter := [], base := s.ptD m }
      let s := setRole m 2 (s.wr m PAIR_STAT.SWPEND 0)
      let s := s.modPair m fun p => { p with released := false }
      let s := s.modPair d fun p => { p with base := s.ptD d, startAt := none }
      let s := markLast m (markLast d (setRole d 1 s))
      if p.swapping then (s.addSat d PAIR_CNT.SWAP).wr m PAIR_STAT.READY 1
      else match p.resetAfter with
        | [] => unready m (s.wr m FLT_REACT.TAKEREQ 1)
        | cs => enterReset m cs s

def execMateReleasedSeen (d : Nat) (s : State) : Host.Outcome State Fault Refusal := onLive d s (releasedSeen d)

/-- No DRIVING by Ts + 16 ns (R350, R352): a swap is not made and the die takes its pads back; after another release it drives its safe
levels, and goes on into its reset where the release was for one. -/
def handoverCheck (d : Nat) (s : State) : State :=
  let p := s.getPair d
  match p.releasing with
  | none => s
  | some ts =>
    let s := ((s.passTo (ts + 4)).holdBalls (d / 2)).passTo (ts + 40)
    if s.drivingLine (mateOf d) then s
    else
      let s := s.raise d 469 3 0
      if p.swapping then setPads d .full (swapMissed d s)
      else
        let s := s.modPair d fun p => { p with releasing := none, released := false, resetAfter := [] }
        let s := setRole d 4 s
        match p.resetAfter with
        | [] => s
        | cs => enterReset d cs s

def execHandoverDrivingCheck (d : Nat) (s : State) : Host.Outcome State Fault Refusal := onLive d s (handoverCheck d)

end Sys2Proof.Machine
end

