-- ==== Sys2Proof/Machine/Faults.lean ====
section
/-!
DEFINITION. Fault collection and reaction: messages, severities, reactions, sticky bits, first errors, notification, injection, the
writing of ledger records, and the comparator self-test (R286 to R313, R322, R323).
-/

namespace Sys2Proof.Machine

/-! The configuration of a source (R286, R290, R296) -/

/-- FLT_SRCCFG of source `k` as written. -/
def cfgWritten (s : State) (d k : Nat) : Nat := (s.reg (FLT_SRCCFG.SEV.addr d k 0)).toNat

/-- FLT_SRCCFG of source `k` as its last assertion took it; a write takes effect at the next one (R296). -/
def srcCfg (s : State) (d k : Nat) : Nat := (s.getSrc d k).cfg.getD (cfgWritten s d k)

/-- CLASS of source `k`: a plain event. -/
def isPlain (s : State) (d k : Nat) : Bool := bitOf (srcCfg s d k) 3

/-- Severity of configuration `w`: 3 to 7 of a plain event is taken as 2 (R286). -/
def sevOf (w : Nat) : Nat := if bitOf w 3 then min (w % 8) 2 else w % 8

/-- Configured severity (R286). -/
def cfgSev (s : State) (d k : Nat) : Nat := sevOf (srcCfg s d k)

/-- Severity in force: that of the reaction in force, else the configured one (R296). -/
def sevNow (s : State) (d k : Nat) : Nat :=
  if s.rd d FLT_SRCSTAT.STATE k = 0 then cfgSev s d k else (s.getSrc d k).sev

/-- Severity of message `m` on its arrival among those in the inbox: an assertion takes the configuration as it stands, and so does the
deassertion that comes with it (R289, R296). -/
def sevMsg (s : State) (d : Nat) (m : Msg) : Nat :=
  let fresh := m.kind ≠ 2 ∨ (s.inbox.get d []).any fun x => x.src == m.src && x.kind != 2
  if fresh ∧ s.rd d FLT_SRCSTAT.STATE m.src = 0 then sevOf (cfgWritten s d m.src) else sevNow s d m.src

/-- LIVE of source `k`: its live state, or for one CLK_CORE cycle an assertion of kinds 0x03 to 0x08 (R288). -/
def liveNow (s : State) (d k : Nat) : Bool :=
  s.bit d FLT_SRCSTAT.LIVE k || match (s.getSrc d k).liveAt with | some t => decide (s.now < t + 2) | none => false

/-- A write of FLT_SRCCFG: acq-trip keeps CLASS = 0 and SEV of at least 3, fault-reset CLASS = 0 and PIN = 1 (R296). -/
def srcCfgWrite (k : Nat) (v : Word) (d : Nat) (s : State) : State :=
  let w := v.toNat % 16384
  let w := if 136 ≤ k ∧ k < 144 then let w := putBit w 3 false; if w % 8 < 3 then w / 8 * 8 + 3 else w else w
  let w := if k = 305 then putBit (putBit w 3 false) 4 true else w
  s.setReg (FLT_SRCCFG.SEV.addr d k 0) (BitVec.ofNat 32 w)

/-! What the reactions in force do (R291, R292) -/

/-- The package safe-state line: driven by a die with a severity-6 or 7 reaction in force, or kept through its reset (R292). -/
def safeLine (s : State) : Bool :=
  (List.range s.dies).any fun d => (s.getDie d).holdSafeLine || (inForce s d).any fun x => 6 ≤ x.sev

/-- FLT_REACT and the pads of die `d` follow the reactions in force; the die that drives the safe-state line acts on it at once. -/
def showReact (d : Nat) (s : State) : State :=
  let l := inForce s d
  let s := s.holdBalls (d / 2)
  let s := s.wr d FLT_REACT.AXSAFE (l.foldl (fun m x => m ||| x.axes) 0)
  let s := s.wr d FLT_REACT.DIESAFE (b2n (l.any fun x => x.dieSafe))
  let s := if l.any fun x => 6 ≤ x.sev then s.wr d FLT_REACT.PKGSAFE 1 else s
  emuShowAll d (s.refreshDie d)

/-- The safe-state line asserts or releases on every die (R292). -/
def packageSafe (s : State) : State :=
  let on := b2n (safeLine s)
  s.forEach s.liveDies fun d s => emuShowAll d (((s.holdBalls (d / 2)).wr d FLT_REACT.PKGSAFE on).refreshDie d)

def execPackageSafeLine (s : State) : Host.Outcome State Fault Refusal := onPackage s packageSafe

/-! Notification (R305, R308, R309) -/

/-- EVT_STAT.COUNT, EVT_HEAD and line 16 in step with the event queue. -/
def showEvt (d : Nat) (s : State) : State :=
  let q := (s.getFlt d).evq
  let s := (s.wr d EVT_STAT.COUNT q.length).wr d EVT_HEAD.DESC (leNum (q.headD []))
  if q = [] then s.setIrqs d 16 false else s

/-- A descriptor enters the event queue of die `d` and interrupts the harts of HART; where the queue holds 256 it is dropped (R305). -/
def evtPush (d hart : Nat) (bs : List Byte) (s : State) : State :=
  if 256 ≤ (s.getFlt d).evq.length then (s.addSat d EVT_STAT.OVR).raise d 321 3 0
  else
    let s := showEvt d (s.modFlt d fun f => { f with evq := f.evq ++ [bs] })
    let s := if hart % 2 = 1 then s.setIrq d 0 16 true else s
    if 2 ≤ hart % 4 then s.setIrq d 1 16 true else s

/-- What accompanies a message into the ledger and the event queue. -/
structure Tags where
  inj : Bool := false
  muted : Bool := false
  first : Bool := false
  taken : Bool := false
  detail : Nat := 0

/-- The message word of R287. -/
def msgWord (k kind addr : Nat) : Nat := k * 4194304 + kind % 64 * 65536 + addr % 65536

/-- Bytes 12 and 13 of a record or descriptor: package source number and severity in force. -/
def srcTail (d k sev : Nat) : Nat := (1024 * d + k) % 8192 + sev % 8 * 8192

/-- The descriptor of R305 goes to the event queue, the host event rings, a Teram node and, from severity 2, the host's MSI-X
vector VEC of every function (R290, R382, R392, R421). -/
def notify (d k kind addr stamp rep : Nat) (t : Tags) (s : State) : State :=
  let sev := sevNow s d k
  if sev = 0 then s
  else
    let fl := b2n (isPlain s d k) + 2 * b2n (liveNow s d k) + 4 * b2n t.first + 8 * b2n t.inj + 16 * b2n t.taken
    let bs := leBytes stamp 8 ++ leBytes (msgWord k kind addr) 4 ++ leBytes (srcTail d k sev) 2 ++ leBytes fl 1 ++ leBytes (min rep 255) 1
    let s := evtPush d (bitsOf (srcCfg s d k) 6 2) bs s
    let s := evtOffer d sev bs (leBytes t.detail 8) s
    let s := eventSend d sev bs s
    if 2 ≤ sev then s.forEach (functions s) fun f s => msixSend f (bitsOf (srcCfg s d k) 8 6) s else s

/-- A message, or a collector kind, of source `k` is recorded: ledger, trace trigger, notification; the repeats counted so far go with
it (R305, R308 to R310). -/
def record (d k kind addr stamp : Nat) (t : Tags) (s : State) : State :=
  let rep := (s.getSrc d k).rep
  let s := s.modSrc d k fun x => { x with rep := 0 }
  let fl := b2n (isPlain s d k) + 2 * b2n t.inj + 4 * b2n t.first + 8 * b2n t.taken + 16 * b2n t.muted
  let tail := srcTail d k (sevNow s d k) + 65536 * fl + 16777216 * s.rd d FLT_SRCSTAT.RCNT k
  let s := ledgQueue d { pt := stamp, msg := msgWord k kind addr, tail := tail, rep := rep, detail := t.detail } s
  trcEvent d ((1024 * d + k) % 8192) (notify d k kind addr stamp rep t s)

/-- The collector writes a kind of its own for source `k` (R288); a per-axis source carries its axis. -/
def ownKind (d k kind : Nat) (s : State) : State :=
  record d k kind (if k < 224 then k % 8 else 0) (s.ptD d) {} s

/-! First errors (R302, R303) -/

/-- A fault assertion competes for the package first error in the copy of die `d` (R303). -/
def compete (d : Nat) (m : PkgMsg) (s : State) : State :=
  let t := s.rd d FLT_PKGFIRSTPT.PT
  let v := s.rd d FLT_PKGFIRST.SEV
  let better := !s.bit d FLT_PKGFIRST.VALID || m.stamp < t ||
    (m.stamp == t && (v < m.sev || (v == m.sev && m.src < s.rd d FLT_PKGFIRST.SRC)))
  if m.stamp < (s.getFlt d).pkgFrom || !better then s
  else
    let s := ((s.wr d FLT_PKGFIRST.SRC m.src).wr d FLT_PKGFIRST.KIND m.kind).wr d FLT_PKGFIRST.SEV m.sev
    (s.wr d FLT_PKGFIRST.VALID 1).wr d FLT_PKGFIRSTPT.PT m.stamp

/-- A fault assertion is captured on its die (R302), and goes to every copy of the package first error (R303). -/
def firstError (d k kind stamp : Nat) (s : State) : Bool × State :=
  let sev := cfgSev s d k
  let first := !s.bit d FLT_FIRST.VALID
  let s :=
    if first then
      let s := ((s.wr d FLT_FIRST.SRC k).wr d FLT_FIRST.KIND kind).wr d FLT_FIRST.SEV sev
      (s.wr d FLT_FIRST.VALID 1).wr d FLT_FIRSTPT.PT stamp
    else s.addSat d FLT_FIRSTCNT.COUNT
  let m : PkgMsg := { src := 1024 * d + k, kind := kind, sev := sev, stamp := stamp }
  let s := compete d m s
  (first, s.forEach ((s.liveDies).filter fun e => e != d && s.reach d e) fun e s =>
    s.modFlt e fun f => { f with pkgIn := f.pkgIn ++ [m] })

/-- The copy of die `d` takes in the oldest assertion on its way to it (R303). -/
def pkgFirstMessage (d : Nat) (s : State) : State :=
  match (s.getFlt d).pkgIn with
  | [] => s
  | m :: q => compete d m (s.modFlt d fun f => { f with pkgIn := q })

def execPkgfirstMessage (d : Nat) (s : State) : Host.Outcome State Fault Refusal := onLive d s (pkgFirstMessage d)

/-- A write to FLT_FIRST (R302). -/
def firstClear (d : Nat) (s : State) : State := (s.wr d FLT_FIRST.VALID 0).wr d FLT_FIRSTCNT.COUNT 0

def execFltFirstClear (d : Nat) (s : State) : Host.Outcome State Fault Refusal := onLive d s (firstClear d)

/-- A write to FLT_PKGFIRST announces the tick, 2 µs ahead, at which every copy is cleared (R303). -/
def pkgClearAsk (s : State) : State := { s with pkgClear := s.pkgClear ++ [s.pt + 5000] }

def execFltPkgfirstClear (d : Nat) (s : State) : Host.Outcome State Fault Refusal := onLive d s pkgClearAsk

/-- The announced tick: every copy is cleared, and only assertions stamped at or after it compete (R303). -/
def pkgClearTick (s : State) : State :=
  match s.pkgClear with
  | [] => s
  | t :: q =>
    let s := { s.passTo t with pkgClear := q }
    s.forEach s.liveDies fun d s =>
      if s.bit d FLT_PKGFIRST.VALID && decide (t ≤ s.rd d FLT_PKGFIRSTPT.PT) then s.modFlt d fun f => { f with pkgFrom := t }
      else
      let s := ((s.wr d FLT_PKGFIRST.SRC 0).wr d FLT_PKGFIRST.KIND 0).wr d FLT_PKGFIRST.SEV 0
      ((s.wr d FLT_PKGFIRST.VALID 0).wr d FLT_PKGFIRSTPT.PT 0).modFlt d fun f => { f with pkgFrom := t }

def execPkgfirstClearTick (s : State) : Host.Outcome State Fault Refusal := onPackage s pkgClearTick

/-! Reactions (R290 to R297) -/

/-- The outcome of a severity-5 reaction on the pads of its die (R293): with a ready mate the die releases; a standby is not ready;
else the die safe state. -/
def takeover (d k : Nat) (s : State) : State :=
  let r := s.rd d PAIR_STAT.ROLE
  let s := s.modPair d fun p => { p with sev5 := true }
  if !s.divided d && (s.mayRelease d || (s.getPair d).releasing.isSome) then
    if s.mayRelease d then releaseStart d [] s else s
  else if !s.divided d && (r == 2 || r == 3) then unready d s
  else s.modSrc d k fun x => { x with dieSafe := true }

/-- A reaction is taken from clear, with the configuration of its source as it stands (R295, R296). -/
def takeReaction (d k : Nat) (s : State) : State :=
  let sev := cfgSev s d k
  let aren := bitOf (srcCfg s d k) 5 && sev ≤ 6
  let limit := max 1 (s.rd d FLT_SRCREC.LIMIT k)
  let mask := if k < 224 then 2 ^ (k % 8) else if s.divided d then (if d % 2 = 0 then 15 else 240) else 255
  let s := s.modSrc d k fun x =>
    { x with sev := sev, aren := aren, quiet := clampN 1 600000 (s.rd d FLT_SRCREC.QUIET k), limit := limit,
             axes := if sev = 3 then mask else 0, dieSafe := sev == 4 }
  let latched := aren && limit ≤ s.rd d FLT_SRCSTAT.RCNT k
  let s := s.wr d FLT_SRCSTAT.STATE (if latched then 3 else 1) k
  if sev = 5 then takeover d k s else s

/-- LIVE is 0 with a reaction held under auto-recovery: the quiet time runs from tick `t` (R295). -/
def goQuiet (d k t : Nat) (s : State) : State :=
  if s.rd d FLT_SRCSTAT.STATE k = 1 ∧ (s.getSrc d k).aren then
    (s.wr d FLT_SRCSTAT.STATE 2 k).modSrc d k fun x => { x with quietAt := t }
  else s

/-- A reaction ends: state clear, the pads follow, the collector's kind is recorded; a direct trip whose message is still on its way
stays (R295, R297, R293). -/
def endReaction (d k kind : Nat) (s : State) : State :=
  let was5 := (s.getSrc d k).sev == 5
  let s := s.modSrc d k fun x => { x with sev := 0, aren := false, axes := 0, dieSafe := false }
  let s := s.wr d FLT_SRCSTAT.STATE 0 k
  let s := if was5 && !((inForce s d).any fun x => x.sev == 5) then s.modPair d fun p => { p with sev5 := false } else s
  let more := (s.inbox.get d []).any fun m => m.src == k && m.kind % 32 == 1
  let s := if 136 ≤ k ∧ k < 144 ∧ !more then s.modPwm d (k - 136) fun r => { r with trip := false } else s
  showReact d (ownKind d k kind s)

/-! A message at the collector (R289) -/

/-- The flags of a source that asserts: LIVE, of a detection without a lasting condition for one cycle, OCC, and of one that is no plain event STICKY, with PIN the hold of FAULTn
(R288, R298, R301). -/
def assertFlags (d : Nat) (m : Msg) (s : State) : State :=
  let k := m.src
  let s := (if m.kind = 1 then s.wr d FLT_SRCSTAT.LIVE 1 k else s.modSrc d k fun x => { x with liveAt := some s.now }).addSat d FLT_SRCSTAT.OCC 1 k
  let s := if isPlain s d k then s else s.wr d FLT_SRCSTAT.STICKY 1 k
  let s := if !isPlain s d k && !m.muted then s.modSrc d k fun x => { x with pin := bitOf (srcCfg s d k) 4 } else s
  if k = 305 then s.modDie d fun x => { x with holdFaultN := false } else s

/-- An assertion is recorded, or counted as a repeat of a record of the last 10 µs (R310). -/
def assertRecord (d stamp : Nat) (m : Msg) (kind : Nat) (first take : Bool) (s : State) : State :=
  if (s.getSrc d m.src).recs.any fun e => e.1 == kind && stamp ≤ e.2 + 25000 then
    s.modSrc d m.src fun x => { x with rep := x.rep + 1 }
  else
    record d m.src kind m.addr stamp { inj := m.inj, muted := m.muted, first := first, taken := take, detail := m.detail }
      (s.modSrc d m.src fun x => { x with recs := (kind, stamp) :: x.recs.filter fun e => e.1 != kind })

/-- A source that asserts takes its reaction, or leaves its recovery (R295). -/
def assertReact (d : Nat) (m : Msg) (take : Bool) (s : State) : State :=
  let s := if take then takeReaction d m.src s else s
  if !isPlain s d m.src && !m.muted && s.rd d FLT_SRCSTAT.STATE m.src == 2 then s.wr d FLT_SRCSTAT.STATE 1 m.src else s

/-- What follows the record: a reaction that is at once a takeover has its own record, an event that is over goes quiet, the pads
follow (R293, R295). -/
def assertEnd (d stamp : Nat) (m : Msg) (take : Bool) (s : State) : State :=
  let s := if take && s.rd d FLT_SRCSTAT.STATE m.src == 3 then ownKind d m.src 11 s else s
  let s := if s.bit d FLT_SRCSTAT.LIVE m.src then s else goQuiet d m.src (stamp + 1) s
  if take then showReact d s else s

/-- The die takes reactions to source `k`: in the reading copy to root-fail and the rail monitors alone (R61). -/
def reacts (s : State) (d k : Nat) : Bool := !s.rcPhase d || k == 273 || k == 288 || k == 289

/-- An assertion of a source (R61, R288, R295, R298, R302, R307, R310): gives the new state and whether the die is to be reset. -/
def assertion (d stamp : Nat) (m : Msg) (s : State) : State × Bool :=
  let kind := m.kind % 32 + 32 * b2n m.inj
  let s := assertFlags d m (s.modSrc d m.src fun x => { x with cfg := some (cfgWritten s d m.src) })
  let f := if isPlain s d m.src then (false, s) else firstError d m.src kind stamp s
  let take := !isPlain s d m.src && !m.muted && f.2.rd d FLT_SRCSTAT.STATE m.src == 0 && 3 ≤ cfgSev f.2 d m.src && reacts s d m.src
  let s := assertEnd d stamp m take (assertRecord d stamp m kind f.1 take (assertReact d m take f.2))
  (s, take && (s.getSrc d m.src).sev == 7)

/-- A condition has cleared (R288, R295). -/
def deassertion (d stamp : Nat) (m : Msg) (s : State) : State :=
  let s := goQuiet d m.src stamp (s.wr d FLT_SRCSTAT.LIVE 0 m.src)
  record d m.src (2 + 32 * b2n m.inj) m.addr stamp { inj := m.inj, muted := m.muted } s

/-- Puts a message at its place among those of one cycle: higher severity first, then lower source number (R289). -/
def placeMsg (s : State) (d : Nat) (m : Msg) : List Msg → List Msg
  | [] => [m]
  | x :: q =>
    let a := sevMsg s d m
    let b := sevMsg s d x
    if b < a ∨ (a = b ∧ m.src < x.src) then m :: x :: q else x :: placeMsg s d m q

/-- The messages that have reached the collector are taken in, all with the stamp of their arrival, 12 ns after the detection at the
latest (R289). A severity-7 reaction resets the die after they are recorded (R50, R300). -/
def collect (d : Nat) (s : State) : State :=
  let q := (s.inbox.get d []).foldl (fun q m => placeMsg s d m q) []
  let s := { s with inbox := s.inbox.set d [] [] }
  let stamp := s.ptD d
  let (s, reset) := q.foldl (fun (p : State × Bool) m =>
    if m.kind = 2 then (deassertion d stamp m p.1, p.2)
    else let r := assertion d stamp m p.1; (r.1, p.2 || r.2)) (s, false)
  let s := showFaultN s
  if reset then resetDie d .sev7 s else s

/-- Messages from the blocks of die `d` reach the collector; `extra` lists detections that no other command makes, as source, kind and
ADDR. -/
def execFaultMessage (d : Nat) (extra : List (Nat × Nat × Nat)) (s : State) : Host.Outcome State Fault Refusal :=
  onLive d s fun s => collect d (extra.foldl (fun s m =>
    if srcExists m.1 ∧ 1 ≤ m.2.1 ∧ m.2.1 ≤ 8 then s.raise d m.1 m.2.1 m.2.2 else s) s)

/-! Release, recovery and acknowledgement (R294, R295, R298) -/

/-- The quiet time of source `k` ends (R295). -/
def quietExpiry (d k : Nat) (s : State) : State :=
  let x := s.getSrc d k
  if s.rd d FLT_SRCSTAT.STATE k = 2 then
    let s := s.passTo (x.quietAt + x.quiet * 250000)
    endReaction d k 9 (s.addSat d FLT_SRCSTAT.RCNT 1 k)
  else s

def execQuietTimerExpiry (d k : Nat) (s : State) : Host.Outcome State Fault Refusal := onPart d k 1024 s (quietExpiry d k)

/-- REL: ignored while LIVE = 1, while clear, and at severity 7 (R295). -/
def relSource (d k : Nat) (s : State) : State :=
  if s.rd d FLT_SRCSTAT.STATE k = 0 ∨ liveNow s d k ∨ (s.getSrc d k).sev = 7 then s else endReaction d k 10 s

def execFltRel (d k : Nat) (s : State) : Host.Outcome State Fault Refusal := onPart d k 1024 s (relSource d k)

/-- CLR: RCNT and OCC are set to 0 (R295). -/
def clrSource (d k : Nat) (s : State) : State := (s.wr d FLT_SRCSTAT.RCNT 0 k).wr d FLT_SRCSTAT.OCC 0 k

def execFltClr (d k : Nat) (s : State) : Host.Outcome State Fault Refusal := onPart d k 1024 s (clrSource d k)

/-- A 1 to STICKY clears it only while LIVE = 0 (R298); FAULTn follows (R299). -/
def stickyClear (d k : Nat) (s : State) : State :=
  if liveNow s d k then s
  else showFaultN ((s.wr d FLT_SRCSTAT.STICKY 0 k).modSrc d k fun x => { x with pin := false })

def execFltStickyClear (d k : Nat) (s : State) : Host.Outcome State Fault Refusal := onPart d k 1024 s (stickyClear d k)

/-- A write of FLT_SRCSTAT. -/
def srcStatWrite (k : Nat) (v : Word) (d : Nat) (s : State) : State :=
  let w := v.toNat
  let s := if bitOf w 1 then stickyClear d k s else s
  let s := if bitOf w 4 then relSource d k s else s
  if bitOf w 5 then clrSource d k s else s

/-- MREL: the held states of the mate are released, unless the mate that raised them is reachable (R294). -/
def mrel (d : Nat) (s : State) : State :=
  if s.bridgeUp d && !(s.getPair d).heldLost then s
  else
    let s := (((s.holdBalls (d / 2)).wr d FLT_REACT.MAXSAFE 0).wr d FLT_REACT.MDIESAFE 0).modPair d fun p => { p with heldLost := false }
    emuShowAll d (s.refreshDie d)

def execFltMrel (d : Nat) (s : State) : Host.Outcome State Fault Refusal := onLive d s (mrel d)

/-- EVT_POP.POP: the head descriptor is removed (R305). -/
def evtPop (d : Nat) (s : State) : State := showEvt d (s.modFlt d fun f => { f with evq := f.evq.drop 1 })

def execEvtPop (d : Nat) (s : State) : Host.Outcome State Fault Refusal := onLive d s (evtPop d)

/-! Injection (R306, R324) -/

/-- A write of FLT_INJ; GO starts the injection, or is ignored with flt-config. -/
def injWrite (v : Word) (d : Nat) (s : State) : State :=
  let w := v.toNat
  let chk := bitsOf w 0 5
  let n := bitsOf w 16 16
  let s := ((s.wr d FLT_INJ.CHK chk).wr d FLT_INJ.MUTE (bitsOf w 8 1)).wr d FLT_INJ.N n
  if !bitOf w 9 then s
  else if 12 < chk ∨ n = 0 ∨ s.bit d FLT_INJSTAT.BUSY ∨ (chk = 5 ∧ 2 ≤ d) ∨ ((chk = 6 ∨ chk = 7) ∧ (s.getDie d).split) then
    s.raise d 306 3 0
  else ((s.wr d FLT_INJSTAT.LEFT n).wr d FLT_INJSTAT.BUSY 1).modFlt d fun f => { f with chk := chk }

def execFltInjGo (d : Nat) (v : Word) (s : State) : Host.Outcome State Fault Refusal :=
  onLive d s (injWrite (BitVec.ofNat 32 (putBit v.toNat 9 true)) d)

/-! Ledger records (R308, R312, R438) -/

/-- The kind-0x0C record that precedes the first record stored after drops, and ledger-lost (R312). -/
def lostRecord (d c : Nat) (s : State) : State :=
  let n := s.ledlost.get d 0
  if n = 0 then s
  else
    let t := s.ptD d
    let s := { s with ledlost := s.ledlost.set d 0 0 }
    let s := ledgWrite c { pt := t, msg := msgWord 320 12 0, tail := srcTail d 320 (sevNow s d 320), rep := 0, detail := n } s
    (notify d 320 12 0 t 0 {} s).raise d 320 3 0

/-- The serving die writes the oldest waiting record of die `d` (R308); an assertion can open a protected window (R438). One that cannot
be written because no die serves DRAM any more is lost (R312). -/
def ledgerRecord (d : Nat) (s : State) : State :=
  if s.dramSrv = none && s.getLedq d != [] then ledgLose d (s.modLedq d fun q => q.drop 1)
  else match ledgRoom s, s.getLedq d with
  | some c, e :: q =>
    if !s.reach d c then s
    else
      let s := lostRecord d c s
      match ledgRoom s with
      | none => s
      | some _ =>
        let s := ledgWrite c e (s.modLedq d fun _ => q)
        let kind := e.msg / 65536 % 32
        if kind ≠ 2 ∧ kind ≤ 8 then stkTrigger c (e.tail % 8192) e.pt s else s
  | _, _ => s

def execLedgerRecordWrite (d : Nat) (s : State) : Host.Outcome State Fault Refusal := onLive d s (ledgerRecord d)

/-! The comparator self-test (R322, R323) -/

/-- The comparator: groups of 9 bits that report a difference between two words of 144 bits; `dead` masks groups that do not report
(R322, R508). -/
def compareWords (dead a b : Nat) : Nat :=
  (List.range 16).foldl (fun m g => putBit m g (bitsOf a (9 * g) 9 != bitsOf b (9 * g) 9 && !bitOf dead g)) 0

/-- Bit i mod 9 of every group of a word. -/
def testMask (i : Nat) : Nat := (List.range 16).foldl (fun m g => m + 2 ^ (9 * g + i % 9)) 0

/-- A self-test after 1,024 checkpoints or 1 ms, whichever is first (R322); a group that does not report is a failure (R323). -/
def selfTest (d dead : Nat) (s : State) : State :=
  if (s.getDie d).split then s
  else
    let l := s.getLawDie d
    let s := if 1024 ≤ l.cps then s else s.passTo (l.testAt + 2500000)
    let seen := compareWords dead l.word (l.word ^^^ testMask l.tests)
    let fail := 65535 - seen
    let s := s.modLawDie d fun l =>
      { l with cps := 0, testAt := s.pt, tests := l.tests + 1, fails := if fail = 0 then l.fails else min 255 (l.fails + 1) }
    if fail = 0 then s else s.raise d 434 6 fail

def execComparatorSelftest (d dead : Nat) (s : State) : Host.Outcome State Fault Refusal := onLive d s (selfTest d dead)

end Sys2Proof.Machine
end

