-- ==== Sys2Proof/Machine/Image.lean ====
section
/-!
DEFINITION. The base image and the folios: sections, entries, validation, and which die holds a target (R360, R363 to R367).
-/

namespace Sys2Proof.Machine

/-! The base image (R360) -/

/-- Code-flash offset of the base image (R463). -/
def biofs (s : State) (d : Nat) : Nat := s.opt d 0x18 4

/-- The bytes that hold the header (R360). -/
def headBytes (s : State) (d : Nat) : List Byte := flashBytes s d 0 (biofs s d) 4096

/-- The header of the base image of die `d` (R360). -/
structure ImageHead where
  hdr : Nat
  entO : Nat
  entL : Nat
  libO : Nat
  libL : Nat
  modO : Nat
  modL : Nat
  init : Nat
  deriving DecidableEq, Repr

/-- The header, where it passes its checks and its sections lie in code flash (R360, R361). -/
def imageHead (s : State) (d : Nat) : Option ImageHead :=
  match Config.imageHead (headBytes s d) with
  | [h, eo, el, lo, ll, mo, ml, i] =>
    if h ≤ 16777216 ∧ eo + el ≤ 16777216 ∧ lo + ll ≤ 16777216 ∧ mo + ml ≤ 16777216 ∧ i < 32 then some ⟨h, eo, el, lo, ll, mo, ml, i⟩
    else none
  | _ => none

/-- `k` words of code flash from an offset of the base image. -/
def imageWords (s : State) (d o k : Nat) : List Nat := (List.range k).map fun i => s.flashLe d 0 (biofs s d + o + 4 * i) 4

/-- The eight folio numbers of mode `m` of the mode table: eight bytes a mode (log entry 14). -/
def modeFolios (s : State) (d m : Nat) : Nat :=
  match imageHead s d with
  | some h => if 8 * (m + 1) ≤ h.modL then s.flashLe d 0 (biofs s d + h.modO + 8 * m) 8 else 2 ^ 64 - 1
  | none => 2 ^ 64 - 1

/-! Entries (R364) -/

/-- The words of a BLOCK as entries of type WRITE (R364). -/
def blockEnts : Nat → List Nat → List CfgEnt
  | _, [] => []
  | t, v :: vs => { ty := 1, tgt := t, a := v } :: blockEnts (t + 4) vs

/-- The entries in a list of words, of `k` entries at most; none where an entry runs past the end or has no type of R364. -/
def parseEnts : Nat → List Nat → Option (List CfgEnt)
  | 0, _ => some []
  | _ + 1, [] => some []
  | k + 1, w :: ws =>
    let t := w % 2 ^ 28
    match bitsOf w 28 4, ws with
    | 0, _ => some []
    | 1, v :: rest => (parseEnts k rest).map fun es => { ty := 1, tgt := t, a := v } :: es
    | 2, m :: v :: rest => (parseEnts k rest).map fun es => { ty := 2, tgt := t, a := m, b := v } :: es
    | 3, c :: rest =>
      let n := c % 1024
      if n = 0 ∨ 1000 < n ∨ rest.length < n then none
      else (parseEnts k (rest.drop n)).map fun es => blockEnts t (rest.take n) ++ es
    | 4, lo :: hi :: rest => (parseEnts k rest).map fun es => { ty := 4, tgt := t, a := lo + 2 ^ 32 * hi } :: es
    | _, _ => none

/-- Blocks with per-axis sets (R481). -/
def axisBlock (b : Nat) : Bool := [5, 6, 7, 8, 9, 0xB, 0xC, 0x14].elem b

/-- The window offset is a word of law program memory (R200). -/
def inProg (o : Nat) : Bool := 0x300000 ≤ o && o < 0x310000

/-- The axis whose per-axis set or slot record holds window offset `o` of die `d` (R200, R367). -/
def axisOf (s : State) (d o : Nat) : Option Nat :=
  if inProg o then (if o < 0x30C000 then some (progAxis s d (o - 0x300000)) else none)
  else if axisBlock (o / 0x10000) ∧ o % 0x10000 < 0x8000 then some (o % 0x10000 / 0x1000) else none

/-- The target of a folio entry is allowed (R364, R365): word-aligned, in no block or window of R365, no reserved offset; that of a
FILSYNC is the base of a FIL block. -/
def targetOk (e : CfgEnt) : Bool :=
  let o := e.tgt % dieSpan
  let b := o / 0x10000
  if e.ty = 4 then o == 0xA0000
  else
    e.tgt % 4 == 0 && !([0, 1, 0xE, 0xF, 0x10, 0x11, 0x12, 0x13].elem b) && !(0x200000 ≤ o && o < 0x220000) && o < 0x1000000 &&
      o != 0x78008 && o != 0x7800C &&
      ((regAt o).isSome || b == 0x15 || (inProg o && o < 0x30C000))

/-- The folio with number `f` in bytes from its place, validated (R363, R365). -/
def folioEnts (f : Nat) (bs : List Byte) : Option (List CfgEnt) :=
  let at_ := fun o k => leNum ((bs.drop o).take k)
  let len := at_ 8 2
  if at_ 0 4 ≠ 0x494C4F46 ∨ at_ 4 2 ≠ 1 ∨ at_ 6 1 ≠ f ∨ 64 ≤ f ∨ len < 32 ∨ 4096 < len ∨ len % 4 ≠ 0 ∨ bs.length < len then none
  else if at_ 28 4 ≠ crc32c (bs.take 28 ++ [0, 0, 0, 0] ++ (bs.take len).drop 32) then none
  else
    let ws := (List.range ((len - 32) / 4)).map fun i => at_ (32 + 4 * i) 4
    match parseEnts ws.length ws with
    | some es => if es.all targetOk then some es else none
    | none => none

/-- The bytes of folio `f` in the library of the base image, with what lies behind them to 4,096 bytes (R360). -/
def imageFolio (s : State) (d f : Nat) : List Byte :=
  match imageHead s d with
  | some h =>
    let o := Config.imagePlace (headBytes s d) f
    flashBytes s d 0 (biofs s d + h.libO + o) (min 4096 (h.libL - o))
  | none => []

/-! Who holds an entry (R367) -/

/-- Die `d` holds the target of an entry: in its own window, and in standby mode the per-axis targets in its mate's window; the entry
with its axis where it is per-axis. -/
def heldEnt (s : State) (d : Nat) (e : CfgEnt) : Option CfgEnt :=
  let w := e.tgt / dieSpan
  let o := e.tgt % dieSpan
  let ax := if e.ty = 4 then none else axisOf s d o
  let law := ax.isSome && (inProg o || o / 0x10000 == 0xB)
  if w = d ∨ (w = mateOf d ∧ !s.divided d ∧ ax.isSome) then some { e with ax := ax, law := law } else none

/-- The entries of a list that die `d` holds. -/
def heldEnts (s : State) (d : Nat) (es : List CfgEnt) : List CfgEnt := es.filterMap (heldEnt s d)

/-- The folios of a mode, given as eight numbers, read and validated by die `d` (R365, R366): the entries it keeps, or the place of the
first folio that fails. `src` is true where they are read from the library in DRAM, at `base`. -/
def readMode (d : Nat) (mset base : Nat) (src : Bool) (s : State) : Except Nat (List CfgEnt) × State :=
  (List.range 8).foldl (fun (p : Except Nat (List CfgEnt) × State) i =>
    match p.1 with
    | .error _ => p
    | .ok es =>
      let f := bitsOf mset (8 * i) 8
      if f = 0xFF then p
      else
        let r := if src then p.2.dramRead (base + f * 4096) 4096 else (some (imageFolio p.2 d f), p.2)
        match r.1.bind (folioEnts f) with
        | some fs => (.ok (es ++ heldEnts s d fs), r.2)
        | none => (.error i, r.2)) (.ok [], s)

end Sys2Proof.Machine
end

