-- ==== Sys2Proof/Machine/Cfg.lean ====
section
/-!
DEFINITION. Modes: staging, commit and abort, and the epoch frames of the fabric (R366 to R368, R374 to R376, R420). The application and
reversion of an epoch are in Epoch.lean.
-/

namespace Sys2Proof.Machine

/-! Forwarding of CFG writes (R366) -/

/-- The dies that a CFG write through the window of die `d` reaches: itself, and those of `mask` it reaches over the spine. -/
def cfgReach (s : State) (d mask : Nat) : List Nat := (List.range s.dies).filter fun e => s.reach d e && (e == d || bitOf mask e)

/-- A write of CFG_MSET or CFG_EPOCHT through the window of die `d` (R366): `off` is the window offset of the word. -/
def cfgSpread (off : Nat) (v : Word) (d : Nat) (s : State) : State :=
  s.forEach (cfgReach s d (s.rd d CFG_COMMIT.DIES)) fun e s => s.setReg (e * dieSpan + off) v

/-! Staging (R366, R367, R376) -/

/-- Die `e` starts staging the mode of its CFG_MSET; what it reported before no longer holds (R366, R376). -/
def stageMode (e : Nat) (s : State) : State :=
  let s := ((s.wr e CFG_STAT.STATE 1).wr e CFG_STAT.ERR 0).wr e CFG_STAT.FOLIO 0
  let s := s.modEpo e fun x => { x with ents := [], opened := true }
  s.forEach (List.range s.dies) fun f s => s.modEpo f fun x => { x with seen := putBit x.seen e false }

/-- Die `e` starts staging at GO, with CFG_MSET from the mode table under USEMODE; ignored in states Committed, Applied and Reverting
(CFG_STAGE). -/
def stageGo (e : Nat) (s : State) : State :=
  let st := s.rd e CFG_STAT.STATE
  if 3 ≤ st ∧ st ≤ 5 then s
  else stageMode e (if s.bit e CFG_STAGE.USEMODE then s.wr e CFG_MSET.F (modeFolios s e (s.rd e CFG_STAGE.MODE)) else s)

/-- A write of CFG_STAGE through the window of die `d`: USEMODE and MODE on every die it reaches, GO on those of DIES (R366). -/
def stageWrite (v : Word) (d : Nat) (s : State) : State :=
  let w := v.toNat
  let mask := s.rd d CFG_COMMIT.DIES
  s.forEach (cfgReach s d mask) fun e s =>
    let s := (s.wr e CFG_STAGE.USEMODE (w / 2)).wr e CFG_STAGE.MODE (w / 256)
    if bitOf w 0 && bitOf mask e then stageGo e s else s

def execCfgStageGo (d : Nat) (v : Word) (s : State) : Host.Outcome State Fault Refusal :=
  onLive d s (stageWrite (BitVec.ofNat 32 (putBit v.toNat 0 true)) d)

/-- Die `e` closes the epoch, or discards its staging: idle, its undo record gone (R372, R374). -/
def epochClose (e : Nat) (s : State) : State := (s.wr e CFG_STAT.STATE 0).modEpo e fun _ => {}

/-- Die `d` finishes staging (R365, R367, R371, R376): it holds the entries and has reported staged, or has failed; a staging that is to
be discarded is discarded (R372). Staging is a firm task and waits while it is not admitted. -/
def stagingComplete (d : Nat) (s : State) : State :=
  if s.rd d CFG_STAT.STATE ≠ 1 || !s.bit d PWR_ADMIT.FIRM then s
  else
    let r := readMode d (s.rd d CFG_MSET.F) (s.rd d CFG_LIBBASE.BASE * 4096) (s.bit d CFG_CTRL.SRC) s
    let s := r.2
    match r.1 with
    | .error i =>
      let s := s.raise d 481 3 i
      if (s.getEpo d).drop then epochClose d s
      else ((s.wr d CFG_STAT.STATE 6).wr d CFG_STAT.ERR 6).wr d CFG_STAT.FOLIO i
    | .ok es =>
      if (s.getEpo d).drop then epochClose d s
      else
        let s := (s.wr d CFG_STAGEPT.PT (s.ptD d)).modEpo d fun x => { x with ents := es, seen := putBit x.seen d true }
        s.wr d CFG_STAT.STATE (if (s.getEpo d).ep.isSome then 3 else 2)

def execStagingComplete (d : Nat) (s : State) : Host.Outcome State Fault Refusal := onLive d s (stagingComplete d)

/-- The report of die `e` that it has staged reaches die `d` (R367). -/
def stagedReport (d e : Nat) (s : State) : State :=
  if s.reach d e && bitOf (s.getEpo e).seen e then s.modEpo d fun x => { x with seen := putBit x.seen e true } else s

def execStagedReport (d e : Nat) (s : State) : Host.Outcome State Fault Refusal :=
  onItem (s.hasDie d && s.hasDie e) s fun s => if (s.getDie d).inReset then s else stagedReport d e s

/-! Epoch frames (R375, R420) -/

/-- The payload of an EPOCH frame (R420). -/
def epochPayload (sub act id org t folios tr : Nat) : List Byte :=
  [BitVec.ofNat 8 sub, BitVec.ofNat 8 act] ++ leBytes id 2 ++ leBytes org 2 ++ leBytes 0 2 ++ leBytes t 8 ++ leBytes folios 8 ++
    leBytes tr 8 ++ leBytes 0 4

/-- Packages of die `d`'s known-package table that an EPOCH entry of its catalogue matches (R420). -/
def epochTargets (s : State) (d : Nat) : List Nat :=
  ((s.getTrm d).known.map fun k => k.id).filter fun id =>
    (List.range 256).any fun i =>
      s.bit d TRM_CAT.VALID i && s.bit d TRM_CAT.EPOCH i &&
        Nat.land (Nat.xor id (s.rd d TRM_CAT.ID i)) (s.rd d TRM_CAT.MASK i) == 0

/-- Die `d` sends one EPOCH frame to each package of the list, to its die 0 (log entry 15). -/
def epochSend (d : Nat) (to_ : List Nat) (payload : List Byte) (s : State) : State :=
  s.forEach to_ fun id s => originate d 4 false id payload s

/-! Commit and abort (R368, R374) -/

/-- The epoch master: the lowest-numbered die of `dies` in reach of die `d` (R372). -/
def epochMaster (s : State) (d dies : Nat) : Option Nat := (List.range s.dies).find? fun e => bitOf dies e && s.reach d e

/-- Die `e` holds epoch `r` (R368, R376). -/
def commitDie (e : Nat) (r : EpoRec) (s : State) : State :=
  let cur := s.rd e CFG_CUR.F
  let s := ((s.wr e CFG_STAT.ID r.id).wr e CFG_STAT.LATE 0).wr e CFG_STAT.ERR (if s.rd e CFG_STAT.STATE = 6 then 6 else 0)
  let s := s.wr e CFG_APPLY.AXDONE 0
  let s := s.modEpo e fun x =>
    { x with ep := some { r with folios := s.rd e CFG_MSET.F }, dieDone := false, lawAt := [], undo := [], fil := 0, prev := cur,
             tr := none, rev := 0, refd := false, drop := false, checked := false }
  if s.rd e CFG_STAT.STATE = 2 then s.wr e CFG_STAT.STATE 3 else s

/-- The next 16-bit ID: one above the highest that any die in reach shows (R368; log entry 15). -/
def nextEpochId (s : State) (d : Nat) : Nat :=
  (((s.dieSet d).map fun e => s.rd e CFG_STAT.ID).foldl max 0 + 1) % 65536

/-- Why a commit on the dies `l` for epoch `t` is refused, 0 where it is accepted (R368). -/
def commitRefuse (s : State) (l : List Nat) (t : Nat) : Nat :=
  if l.any fun e => (s.getEpo e).ep.isSome || (3 ≤ s.rd e CFG_STAT.STATE && s.rd e CFG_STAT.STATE ≤ 5) then 1
  else if !l.any fun e => (s.getEpo e).opened then 2
  else if t < s.pt + 5000 then 3
  else 0

/-- COMMIT through the window of die `d` (R368, R375). -/
def commit (d : Nat) (s : State) : State :=
  let dies := s.rd d CFG_COMMIT.DIES
  let t := s.rd d CFG_EPOCHT.T
  let l := (cfgReach s d dies).filter fun e => bitOf dies e
  let why := commitRefuse s l t
  if why ≠ 0 then s.forEach (cfgReach s d dies) fun e s => s.wr e CFG_STAT.ERR why
  else
    let fab := s.bit d CFG_COMMIT.FABRIC
    let id := nextEpochId s d
    let s := s.forEach l fun e s => commitDie e { t := t, id := id, dies := dies, folios := 0, fabric := fab } s
    match epochMaster s d dies, fab with
    | some m, true =>
      let to_ := epochTargets s m
      epochSend m to_ (epochPayload 1 (s.rd m CFG_CTRL.SKEWACT) id (s.ownId m) t (s.rd m CFG_MSET.F) 0) { s with epoSent := to_ }
    | _, _ => s

/-- ABORT on the dies `l` (R374): before T the epoch is withdrawn and staging discarded; from T on it is refused; a die in stage failed
returns to idle (R376). -/
def abortDies (l : List Nat) (s : State) : State :=
  s.forEach l fun e s =>
    match (s.getEpo e).ep with
    | some r => if s.pt < r.t then epochClose e s else s.wr e CFG_STAT.ERR 5
    | none => if s.rd e CFG_STAT.STATE = 6 then epochClose e s else s

/-- ABORT through the window of die `d`; a fabric epoch is withdrawn in the other packages too (R420). -/
def abort (d : Nat) (s : State) : State :=
  let dies := s.rd d CFG_COMMIT.DIES
  let l := (cfgReach s d dies).filter fun e => bitOf dies e
  let held := (l.filterMap fun e => (s.getEpo e).ep).find? fun r => r.fabric && r.org.isNone && decide (s.pt < r.t)
  let s := abortDies l s
  match held, epochMaster s d dies with
  | some r, some m => epochSend m s.epoSent (epochPayload 5 0 r.id (s.ownId m) r.t r.folios 0) { s with epoSent := [] }
  | _, _ => s

/-- A write of CFG_COMMIT through the window of die `d` (R366, R368, R374). -/
def commitWrite (v : Word) (d : Nat) (s : State) : State :=
  let w := v.toNat
  let s := s.forEach (cfgReach s d (bitsOf w 8 8)) fun e s => (s.wr e CFG_COMMIT.FABRIC (w / 4)).wr e CFG_COMMIT.DIES (w / 256)
  let s := if bitOf w 1 then abort d s else s
  if bitOf w 0 then commit d s else s

def execCfgCommit (d : Nat) (v : Word) (s : State) : Host.Outcome State Fault Refusal :=
  onLive d s (commitWrite (BitVec.ofNat 32 (putBit v.toNat 0 true)) d)

def execCfgAbort (d : Nat) (s : State) : Host.Outcome State Fault Refusal :=
  onLive d s (commitWrite (BitVec.ofNat 32 ((s.reg (CFG_COMMIT.DIES.addr d 0 0)).toNat / 4 * 4 + 2)) d)

end Sys2Proof.Machine
end

