-- ==== Sys2Proof/Machine/Csr.lean ====
section
/-!
DEFINITION. The control and status registers of the supervisor harts: traps, the machine-mode CSRs of the privileged specification that
R12 and R325 name (log entry 16), and the vendor CSRs of R332 and R333.
-/

namespace Sys2Proof.Machine

/-! Storage -/

/-- What a CSR holds at reset: MPTCMP all ones (R332), the others 0 (log entry 3). -/
def csrDflt (num : Nat) : Word := if num = 0x7C0 ∨ num = 0x7C1 then 0xFFFFFFFF else 0

/-- The stored value of CSR `num` of hart `h` of die `d`. -/
def csrVal (s : State) (d h num : Nat) : Nat := ((s.getHart d h).csr.get num (csrDflt num)).toNat

/-- Stores a CSR. -/
def setCsr (s : State) (d h num v : Nat) : State :=
  s.modHart d h fun x => { x with csr := x.csr.set num (BitVec.ofNat 32 v) (csrDflt num) }

/-- Floating-point state of hart `h` is written: mstatus.FS := 3 and SD := 1 (log entry 16). -/
def fpDirty (d h : Nat) (s : State) : State := setCsr s d h 0x300 (Nat.lor (csrVal s d h 0x300) 0x80006000)

/-- The floating-point unit of hart `h` is off: mstatus.FS = 0 (log entry 16). -/
def fpOff (s : State) (d h : Nat) : Bool := bitsOf (csrVal s d h 0x300) 13 2 == 0

/-- The hart executes: its die is out of reset, measured start has released it, and it is not in the wait loop of the boot ROM
(R326, R474). -/
def State.hartRuns (s : State) (d h : Nat) : Bool :=
  !(s.getDie d).inReset && (s.getHart d h).run && !(s.getHart d h).wait

/-! Traps -/

/-- Hart `h` takes the exception `cause` at its instruction address `pc`: mepc, mcause and mtval are written, MPIE := MIE, MIE := 0,
MPP := the mode, machine mode, pc := the base of mtvec; the reservation is lost (R325; log entry 16). -/
def trap (d h cause tval pc : Nat) (s : State) : State :=
  let x := s.getHart d h
  let st := csrVal s d h 0x300
  let st := putBit (putBit st 7 (bitOf st 3)) 3 false
  let st := putBit (putBit st 11 (!x.user)) 12 (!x.user)
  let s := setCsr (setCsr (setCsr (setCsr s d h 0x341 pc) d h 0x342 cause) d h 0x343 tval) d h 0x300 st
  s.modHart d h fun x => { x with user := false, pc := csrVal s d h 0x305 / 4 * 4, resv := none }

/-- An illegal-instruction exception; what mtval holds is free (log entry 16). -/
def illegal (d h : Nat) (s : State) : State := trap d h 2 (s.free % 2 ^ 32) (s.getHart d h).pc s.drew

/-! Which CSRs there are -/

/-- The CSR is a vendor CSR of R332. -/
def vendorCsr (num : Nat) : Bool :=
  (0x7C0 ≤ num && num ≤ 0x7C8) || num == 0xFC0 || num == 0xFC1 || (0xFC4 ≤ num && num ≤ 0xFC8) || (0xFD0 ≤ num && num ≤ 0xFDF)

/-- The CSR exists: the vendor CSRs, the machine-mode CSRs with 8 PMP entries and the counters mcycle and minstret, and the
floating-point CSRs (R12, R325, R332). -/
def csrExists (num : Nat) : Bool :=
  vendorCsr num || (1 ≤ num && num ≤ 3) ||
    [0x300, 0x301, 0x304, 0x305, 0x340, 0x341, 0x342, 0x343, 0x344, 0x3A0, 0x3A1, 0xB00, 0xB02, 0xB80, 0xB82, 0xF11, 0xF12, 0xF13,
      0xF14].elem num || (0x3B0 ≤ num && num ≤ 0x3B7)

/-- An access to the CSR is legal for the hart: it exists, the mode reaches its number, and a write does not go to a read-only number;
floating-point CSRs need the unit on (R325, R332). -/
def csrOk (s : State) (d h num : Nat) (wr : Bool) : Bool :=
  csrExists num && (!(s.getHart d h).user || num / 256 % 4 == 0) && !(wr && num / 1024 == 3) &&
    !(num ≤ 3 && fpOff s d h)

/-! Semaphores (R333) -/

/-- A read of MSEM k acquires the semaphore unless the other hart holds it. -/
def semAcquire (d h k : Nat) (s : State) : State :=
  if bitOf (s.getHart d (1 - h)).sem k then s.answer 0
  else (s.modHart d h fun x => { x with sem := putBit x.sem k true }).answer 1

/-- MSEMREL releases the semaphores named that this hart holds. -/
def semRelease (d h v : Nat) (s : State) : State :=
  s.modHart d h fun x => { x with sem := (List.range 16).foldl (fun m k => if bitOf v k then putBit m k false else m) x.sem }

/-! Law program memory through MLAWADDR and MLAWDATA (R333) -/

/-- An access to MLAWDATA is served as an access of the hart, and WORD advances with INC = 1. -/
def lawData (d h : Nat) (wr : Bool) (v : Word) (steal : Bool) (ecc : Nat) (s : State) : State :=
  let a := csrVal s d h 0x7C4
  let w := a % 16384
  let s := progmemAccess (2 + h) d (4 * w) wr v steal ecc s
  if bitOf a 16 then setCsr s d h 0x7C4 (a / 16384 * 16384 + (w + 1) % 12288) else s

/-! Reads and writes -/

/-- The answer of a CSR read that the hart may make (R325, R331, R332). -/
def csrRead (d h num : Nat) (s : State) : State :=
  let st := csrVal s d h
  match num with
  | 1 => s.answer (st 3 % 32)
  | 2 => s.answer (bitsOf (st 3) 5 3)
  | 0x301 => s.answer 0x40101125
  | 0x344 => s.answer (s.irq.get (d * 2 + h) 0)
  | 0xB00 | 0xB02 | 0xB80 | 0xB82 => s.drew.answer (s.free % 2 ^ 32)
  | 0xF11 | 0xF12 | 0xF13 => s.answer (Config.csrIdent num % 2 ^ 32)
  | 0xF14 => s.answer (2 * d + h)
  | 0x7C2 | 0x7C3 | 0x7C8 => s.answer 0
  | 0x7C5 => lawData d h false 0 false 0 s
  | 0xFC0 =>
    let t := s.ptD d
    (setCsr s d h 0xFC1 (t / 2 ^ 32)).answer (t % 2 ^ 32)
  | 0xFC4 =>
    let s := s.forEach [1, 2, 3] fun k s => setCsr s d h (0xFC4 + k) (s.reg (EVT_HEAD.DESC.addr d 0 0 + 4 * k)).toNat
    s.answer (s.reg (EVT_HEAD.DESC.addr d 0 0)).toNat
  | 0xFC8 =>
    let l := s.getLawDie d
    s.answer (l.tests % 2 ^ 24 + 2 ^ 24 * min l.fails 255)
  | _ => if 0xFD0 ≤ num then semAcquire d h (num - 0xFD0) s else s.answer (st num)

/-- A PMP entry's configuration byte. -/
def pmpCfg (s : State) (d h k : Nat) : Nat := bitsOf (csrVal s d h (0x3A0 + k / 4)) (8 * (k % 4)) 8

/-- A write of pmpcfg: bytes of locked entries stay, bits 5 and 6 read 0. -/
def pmpCfgWrite (s : State) (d h num v : Nat) : Nat :=
  (List.range 4).foldl (fun w i =>
    let old := bitsOf (csrVal s d h num) (8 * i) 8
    let new := bitsOf v (8 * i) 8
    w + (if bitOf old 7 then old else new / 128 * 128 + new % 32) * 256 ^ i) 0

/-- A write of pmpaddr is ignored while its entry is locked, or the next one is locked in mode TOR. -/
def pmpLocked (s : State) (d h k : Nat) : Bool :=
  bitOf (pmpCfg s d h k) 7 || (k < 7 && bitOf (pmpCfg s d h (k + 1)) 7 && bitsOf (pmpCfg s d h (k + 1)) 3 2 == 1)

/-- A CSR write that the hart may make (R325, R331, R332): MPTCMPH clears MTIP and applies the compare value; MSWI sets MSIP of the
other hart or clears its own. -/
def csrWrite (d h num v : Nat) (s : State) : State :=
  match num with
  | 1 => fpDirty d h (setCsr s d h 3 (csrVal s d h 3 / 32 * 32 + v % 32))
  | 2 => fpDirty d h (setCsr s d h 3 (v % 8 * 32 + csrVal s d h 3 % 32))
  | 3 => fpDirty d h (setCsr s d h 3 (v % 256))
  | 0x300 =>
    let mpp := bitsOf v 11 2
    let keep := Nat.land v 0x00226088 + (if mpp = 3 then 0x1800 else 0)
    setCsr s d h 0x300 (keep + (if bitsOf v 13 2 = 3 then 2 ^ 31 else 0))
  | 0x301 => s
  | 0x304 => setCsr s d h num (Nat.land v 0x00FF0088)
  | 0x305 => setCsr s d h num (v / 4 * 4 + v % 2)
  | 0x341 => setCsr s d h num (v / 2 * 2)
  | 0x344 => s
  | 0x3A0 | 0x3A1 => setCsr s d h num (pmpCfgWrite s d h num v)
  | 0xB00 | 0xB02 | 0xB80 | 0xB82 => s
  | 0x7C1 =>
    let s := (setCsr s d h num v).setIrq d h 7 false
    s.modHart d h fun x => { x with cmp := csrVal s d h 0x7C0 + 2 ^ 32 * (v % 2 ^ 32) }
  | 0x7C2 =>
    let s := if bitOf v 0 then s.setIrq d (1 - h) 3 true else s
    if bitOf v 1 then s.setIrq d h 3 false else s
  | 0x7C3 => if bitOf v 0 then evtPop d s else s
  | 0x7C4 => setCsr s d h num (Nat.land v 0x13FFF)
  | 0x7C5 => lawData d h true (BitVec.ofNat 32 v) false 0 s
  | 0x7C6 => (if bitOf v 4 then s.setIrq d h 21 false else s) |> fun s => setCsr s d h num (v % 16)
  | 0x7C7 => setCsr s d h num (v % 16)
  | 0x7C8 => semRelease d h v s
  | _ =>
    if 0x3B0 ≤ num ∧ num ≤ 0x3B7 then (if pmpLocked s d h (num - 0x3B0) then s else setCsr s d h num v)
    else setCsr s d h num v

/-- An access to a CSR by a hart (R325, R332): an illegal one raises the illegal-instruction exception; a write leaves the answer as it
was. -/
def csrAccess (d h num : Nat) (wr : Bool) (v : Word) (s : State) : State :=
  if !s.hartRuns d h then s
  else if !csrOk s d h num wr then illegal d h s
  else if wr then csrWrite d h num v.toNat s else csrRead d h num s

/-- A command of hart `h` of die `d`. -/
def onHart (d h : Nat) (s : State) (f : State → State) : Host.Outcome State Fault Refusal :=
  onItem (s.hasDie d && h < 2) s fun s => if s.hartRuns d h then f s else s

def execMptcmphWrite (d h : Nat) (v : Word) (s : State) : Host.Outcome State Fault Refusal := onHart d h s (csrAccess d h 0x7C1 true v)
def execMswiSet (d h : Nat) (s : State) : Host.Outcome State Fault Refusal := onHart d h s (csrAccess d h 0x7C2 true 1)
def execMswiClr (d h : Nat) (s : State) : Host.Outcome State Fault Refusal := onHart d h s (csrAccess d h 0x7C2 true 2)
def execMevtpop (d h : Nat) (s : State) : Host.Outcome State Fault Refusal := onHart d h s (csrAccess d h 0x7C3 true 1)

/-- The word that a write of MLAWIRQ.ACK alone carries: the other fields as they stand. -/
def execMlawirqAck (d h : Nat) (s : State) : Host.Outcome State Fault Refusal :=
  onHart d h s fun s => csrAccess d h 0x7C6 true (BitVec.ofNat 32 (csrVal s d h 0x7C6 % 16 + 16)) s

def execMsemAcquire (d h k : Nat) (s : State) : Host.Outcome State Fault Refusal :=
  onItem (s.hasDie d && h < 2 && k < 16) s (csrAccess d h (0xFD0 + k) false 0)

def execMsemrel (d h : Nat) (v : Word) (s : State) : Host.Outcome State Fault Refusal := onHart d h s (csrAccess d h 0x7C8 true v)

def execMlawdataAccess (d h : Nat) (wr : Bool) (v : Word) (steal : Bool) (ecc : Nat) (s : State) : Host.Outcome State Fault Refusal :=
  onHart d h s fun s => if csrOk s d h 0x7C5 wr then lawData d h wr v steal ecc s else illegal d h s

/-- PT64 reaches MPTCMP: MTIP is set (R331). Time passes up to that instant. -/
def mtimerCompare (d h : Nat) (s : State) : State :=
  let t := (s.getHart d h).cmp
  let s := if s.ptD d < t then s.pass (t - s.ptD d) else s
  s.setIrq d h 7 true

def execMtimerCompare (d h : Nat) (s : State) : Host.Outcome State Fault Refusal := onHart d h s (mtimerCompare d h)

/-- A reservation is lost 256 cycles, 512 ticks, after its LR (R325). -/
def lrTimeout (d h : Nat) (s : State) : State :=
  match (s.getHart d h).resv with
  | none => s
  | some (_, at_) => (s.pass (at_ + 512 - s.now)).modHart d h fun x => { x with resv := none }

def execLrReservationTimeout (d h : Nat) (s : State) : Host.Outcome State Fault Refusal := onHart d h s (lrTimeout d h)

end Sys2Proof.Machine
end

