-- ==== Sys2Proof/Machine/Colophon.lean ====
section
/-!
DEFINITION. Measurement slots of the firmware, the colophon and its signer (R476 to R479).
-/

namespace Sys2Proof.Machine

/-! Extension of slots 6 and 7 (R476) -/

/-- Measurement slot `k` of die `d`, 48 bytes. -/
def msrSlot (s : State) (d k : Nat) : List Byte := leBytes (s.rd d MSR_SLOT.DIGEST k) 48

/-- Slot `k` is extended with MSR_EXTDATA, unless it is locked. -/
def msrExtend (d k : Nat) (s : State) : State :=
  if bitOf (s.rd d MSR_VALID.LOCK) (k - 6) then s
  else s.wr d MSR_SLOT.DIGEST (leNum (sha384 (msrSlot s d k ++ leBytes (s.rd d MSR_EXTDATA.DATA) 48))) k

/-- A write of MSR_EXT by a hart of the die: GO extends the slot named, LOCK locks it until the next reset. -/
def msrExtWrite (v : Word) (d : Nat) (s : State) : State :=
  let k := bitsOf v.toNat 1 1
  let s := if bitOf v.toNat 0 then msrExtend d (6 + k) s else s
  if bitOf v.toNat 2 then s.wrBit d MSR_VALID.LOCK k true else s

def execMsrExtend (d h k : Nat) (s : State) : Host.Outcome State Fault Refusal :=
  onHart d h s (msrExtWrite (BitVec.ofNat 32 (1 + k % 2 * 2)) d)

def execMsrLock (d h k : Nat) (s : State) : Host.Outcome State Fault Refusal :=
  onHart d h s (msrExtWrite (BitVec.ofNat 32 (4 + k % 2 * 2)) d)

/-! The colophon (R477) -/

/-- Length L of the certificate in the calibration row, and L rounded up to a multiple of 4 (R461, R477). -/
def certLen (s : State) (d : Nat) : Nat := min (s.flashLe d 3 0x200 2) 1530
def certPad (s : State) (d : Nat) : Nat := (certLen s d + 3) / 4 * 4

/-- Length of the colophon of die `d`. -/
def colophonLen (s : State) (d : Nat) : Nat := 554 + certPad s d

/-- Bytes 0 to 457 + L′ of the colophon, those that are signed. -/
def colophonBody (s : State) (d : Nat) (nonce : List Byte) : List Byte :=
  leBytes 0x4F4C4F43 4 ++ leBytes 1 2 ++ leBytes (colophonLen s d) 2 ++ leBytes (s.flashLe d 3 8 8) 8 ++ leBytes d 1 ++
    leBytes (s.rd d GLB_ID.MEMBER + 4 * s.rd d GLB_ID.GRADE) 1 ++ leBytes (s.rd d GLB_ID.STEP) 1 ++
    leBytes (b2n (s.getDie d).optMode + 2 * b2n (s.getDie d).optSplit) 1 ++ leBytes (s.ownId d % 4096) 2 ++
    leBytes (s.flashLe d 3 4 2) 2 ++ leBytes (s.ptD d) 8 ++ (nonce ++ List.replicate 32 0).take 32 ++
    leBytes (s.rd d MSR_VALID.VALID) 1 ++ leBytes (s.rd d MSR_VALID.LOCK) 1 ++ leBytes 0 6 ++
    (List.range 8).flatMap (msrSlot s d) ++ leBytes (certLen s d) 2 ++
    (flashBytes s d 3 0x202 (certLen s d) ++ List.replicate 3 0).take (certPad s d)

/-! The signer (R478, R479) -/

/-- The signer begins with the request at its head, once measured start is complete. -/
def signKick (d : Nat) (s : State) : State :=
  match s.getSignq d with
  | [] => s
  | q :: rest =>
    if q.report.isSome || !s.bit d MSR_VALID.DONE then s
    else s.modSignq d fun _ => { q with report := some (colophonBody s d q.nonce) } :: rest

/-- A request to the signer of die `d`, with its 32-byte nonce. -/
def signAsk (d : Nat) (who : SignFor) (nonce : List Byte) (s : State) : State :=
  signKick d (s.modSignq d fun q => q ++ [{ who := who, nonce := nonce }])

/-- A write of MSR_CREQ: GO asks for a colophon into the report window; ignored while one is asked for (R479). -/
def msrCreqWrite (v : Word) (d : Nat) (s : State) : State :=
  if !bitOf v.toNat 0 || s.bit d MSR_CSTAT.BUSY then s
  else signAsk d .creq (leBytes (s.rd d MSR_NONCE.NONCE) 32) (s.wr d MSR_CSTAT.BUSY 1)

def execMsrCreq (d : Nat) (s : State) : Host.Outcome State Fault Refusal := onLive d s (msrCreqWrite 1 d)

/-- The command at the head of a ring's share ends: it leaves the share, and its completion is posted unless it asked for none and ends
with STATUS 0x00 (R388, R390). -/
def cmdDone (d r status r0 r1 : Nat) (s : State) : State :=
  match (s.getRing d r).share with
  | [] => s
  | b :: rest =>
    let s := showShares d (s.modRing d r fun x => { x with share := rest })
    if bitOf (fByte b 1) 0 && status == 0 then s else postCpl d r (b.drop 2) status r0 r1 s

/-- The head of the ring's share is the COLOPH command with that CID, and the ring runs. -/
def colophWaits (s : State) (d r cid : Nat) : Bool :=
  (s.rd d HIF_RSTAT.STATE r == 1 || s.rd d HIF_RSTAT.STATE r == 3) && match (s.getRing d r).share with
    | b :: _ => fByte b 0 == 7 && fNum b 2 2 == cid
    | [] => false

/-- The fragments of a Teram answer, at most 128 bytes each, from offset `o` (R422). -/
def colophFrags (d : Nat) (f : List Byte) (len : Nat) : Nat → List Byte → Nat → State → State
  | 0, _, _, s => s
  | k + 1, bs, o, s =>
    if bs = [] then s
    else colophFrags d f len k (bs.drop 128) (o + 128) (accessAnswer d f 0 (o + 65536 * len) (bs.take 128) s)

/-- The finished colophon goes to the one who asked for it. -/
def colophDeliver (d : Nat) (who : SignFor) (bs : List Byte) (s : State) : State :=
  match who with
  | .host r cid a =>
    if s.fnUp d && colophWaits s d r cid then
      let s := cmdDone d r 0 bs.length 0 (putHost s a bs)
      if s.bit d HIF_RCFG.EN r then s else ringOff d r s
    else s
  | .teram f => colophFrags d f bs.length (bs.length / 128 + 1) bs 0 s
  | .creq =>
    let s := s.forEach (List.range bs.length) fun i s => s.modRepByte d i fun _ => bs.getD i 0
    ((s.wr d MSR_CSTAT.BUSY 0).wr d MSR_CSTAT.DONE 1).wr d MSR_CSTAT.LEN bs.length
  | .gone => s

/-- An answer to the host waits while the function is in D3hot (R379). -/
def signHeld (s : State) (d : Nat) (who : SignFor) : Bool :=
  match who with
  | .host _ _ _ => s.bit d HIF_ID.D3
  | _ => false

/-- The signer of die `d` ends a colophon, at most 3 ms after it began, and goes on to the next request; k is a value of the die's
random source, free here. -/
def colophonSigned (d : Nat) (s : State) : State :=
  match s.getSignq d with
  | q :: rest =>
    match q.report with
    | some b =>
      if signHeld s d q.who then s else
      let sg := Config.signature d b s.free
      let bs := b ++ beBytes sg.1 48 ++ beBytes sg.2 48
      signKick d (colophDeliver d q.who bs (s.drew.modSignq d fun _ => rest))
    | none => s
  | [] => s

def execColophonSigned (d : Nat) (s : State) : Host.Outcome State Fault Refusal := onLive d s (colophonSigned d)

end Sys2Proof.Machine
end

