-- ==== Sys2Proof/Machine/Bus.lean ====
section
/-!
DEFINITION. Accesses to the package's address space: which accesses take place (R3, R8 to R10, R25 to R27, R304, R381, R482), what a
write of each register does, what a read returns, and the windows of R481. The effects with rules of their own stand in the files of
their blocks.
-/

namespace Sys2Proof.Machine

/-! Writes -/

/-- A register word at BAR0 address `a` is written under its access codes (R8, R9): `rw` fields take the value, ones clear `w1c` bits,
everything else stays. -/
def plainWrite (a : Nat) (r : Row) (k : Nat) (v : Word) (s : State) : State :=
  let rw := BitVec.ofNat 32 (r.rw.getD k 0)
  let w1c := BitVec.ofNat 32 (r.w1c.getD k 0)
  s.setReg a ((s.reg a &&& ~~~rw &&& ~~~(w1c &&& v)) ||| (v &&& rw))

/-- Fields that a write of any value to their register sets to 0. -/
def anyClears : List Fld := [
  TBL_LSTAT.ACCEPT, TBL_LSTAT.REJECT, TBL_MISSCNT.COUNT, TBL_MISSCNT.ECC, ENC_STAT.ILLCNT, DET_STAT.WCNT, LAW_OVRCNT.COUNT,
  LAW_TIME.WORST, PWM_STAT.LATE, PWM_SUPCNT.COUNT, PWM_SUPCNT.CONF, PAIR_HB.LOSTA, PAIR_HB.LOSTB, PAIR_HB.CRCERR, PAIR_CNT.TAKE,
  PAIR_CNT.SWAP, PAIR_CNT.DEFER, PAIR_CNT.SHMIS, MEM_ECC.COR, MEM_ECC.UNC, STK_CNT.DROP, STK_CNT.CRC, NVF_ECC.COR, NVF_ECC.UNC,
  EVT_STAT.OVR, LEDG_STAT.LOST, FLT_AFINFO.VALID, FLT_AFINFO.MORE, CLK_SKEW.MAXSKEW, PWR_BROWN.COUNT, PWR_PMEAS.PMAX,
  PWR_SHEDCNT.FIRM, PWR_SHEDCNT.DEFER, TRM_ASTAT.LATE, TRM_ASTAT.LOST, TRM_PERR.BAD, TRM_PERR.DROP, HIF_RSTAT.DROP,
  HIF_LINKCNT.DOWN, HIF_LINKCNT.PERST, HIF_LINKCNT.FLR, HIF_QUSE.PEAK, TRC_STAT.DROP, CFG_APPLY.REFUSED]

/-- The plain write of the register at window offset `x` (that of index 0), and what a write of any value does to it. -/
def baseWrite (a : Nat) (r : Row) (n k : Nat) (v : Word) (d : Nat) (s : State) : State :=
  let x := r.off + 4 * k
  let s := (anyClears.filter fun f => f.off == x).foldl (fun s f => s.wr d f 0 n ((a % dieSpan - r.off - n * r.ax) / max 1 r.ix))
    (plainWrite a r k v s)
  if x = PWR_RAIL.MV.off then s.wr d PWR_RAIL.MIN (s.rd d PWR_RAIL.MV n) n
  else if x = PWR_TEMP.TJ.off then s.wr d PWR_TEMP.TMAX (s.rd d PWR_TEMP.TJ)
  else s

/-! The effect of a write on one die, block by block: `x` is the window offset of the register with all indices 0, `n` and `i` its
indices, `v` the word, `t` the tick at which the write was accepted, `p` the state after the plain write. -/

/-- GLB, CLK, PWR. -/
def writeRoot (m x : Nat) (v : Word) (d : Nat) (p s : State) : State :=
  if x = GLB_SWRST.SELF.off then swrstWrite m v d s
  else if x = GLB_WDT.TIMEOUT.off then wdtWrite v d s
  else if x = CLK_PTADJ.SLEW.off then ptAdjWrite v d s
  else if x = PWR_PKGBUD.PKG.off then pkgBudWrite v d s
  else p

/-- FLT and EVT. -/
def writeFlt (x n : Nat) (v : Word) (d : Nat) (p s : State) : State :=
  if x = FLT_SRCCFG.SEV.off then srcCfgWrite n v d s
  else if x = FLT_SRCSTAT.LIVE.off then srcStatWrite n v d s
  else if x = FLT_FIRST.SRC.off then firstClear d s
  else if x = FLT_PKGFIRST.SRC.off then pkgClearAsk s
  else if x = FLT_REACT.MREL.off then (if bitOf v.toNat 26 then mrel d s else s)
  else if x = FLT_INJ.CHK.off then injWrite v d s
  else if x = EVT_POP.POP.off then (if bitOf v.toNat 0 then evtPop d s else s)
  else if x = LEDG_SEGS.SEGS.off then (if s.bit d LEDG_CTL.EN then s else p)
  else if x = LEDG_CTL.EN.off then ledgCtlWrite v d s
  else p

/-- EXC and TRK. -/
def writeTrk (x n : Nat) (v : Word) (t d : Nat) (p s : State) : State :=
  if x = EXC_CTRL.EN.off then excWrite n 0 v t d s
  else if x = EXC_FINC.FINC.off then excWrite n 1 v t d s
  else if x = EXC_AMP.AMP.off then excWrite n 2 v t d s
  else if x = EXC_CLIP.COUNT.off then excClipWrite n v d s
  else if x = TRK_CTRL.TYPE.off then trkCtrlWrite n v t d s
  else if x = TRK_SECTOR.SECTOR.off then trkSectorWrite n v d s
  else if x = TRK_XREQ.PT.off + 4 then trkXreq n v d s
  else p

/-- TBL. -/
def writeTbl (x n i : Nat) (v : Word) (d : Nat) (p s : State) : State :=
  if x = TBL_DESC.ROLE.off then tblDescWrite n i v d s
  else if x = TBL_CMD.OP.off then
    let w := v.toNat
    tblCmd d (bitsOf w 0 4) (bitsOf w 4 5) (bitsOf w 9 5) (bitsOf w 16 3) (bitsOf w 20 2) s
  else if x = TBL_CMDSTAT.BUSY.off then (if bitOf v.toNat 1 then p.setIrqs d 17 false else p)
  else p

/-- ENC. -/
def writeEnc (x n : Nat) (v : Word) (d : Nat) (p s : State) : State :=
  if x = EMU_CTRL.MODE.off then emuCtrlWrite n v d s
  else if x = ENC_RAW.COUNT.off then encRawWrite n v d s
  else if x = ENC_IDX.MODE.off then encIdxWrite n v d s
  else if x = PRB_STAT.FULL.off then prbStatWrite n d s
  else if x = EMU_ZPOS.ZPOS.off then emuShow d n p
  else p

/-- ACQ and FIL. -/
def writeAcq (x n i : Nat) (v : Word) (t d : Nat) (p s : State) : State :=
  if x = ACQ_PTRIM.GAIN.off then acqMuxWrite (6 * n + 2 + i) v t d s
  else if x = ACQ_CMPU.THR.off then acqCmpWrite n i true v d s
  else if x = ACQ_CMPL.THR.off then acqCmpWrite n i false v d s
  else if x = ACQ_LTRIM.GAIN.off then acqMuxWrite (48 + n) v t d s
  else if x = FIL_LEN.L1.off then filPendWrite n 0 v t d s
  else if x = FIL_CFG.L3.off then filPendWrite n 1 v t d s
  else if x = FIL_DEC.DM1.off then filPendWrite n 2 v t d s
  else if x = FIL_SYNCCTL.GO.off then (if bitOf v.toNat 0 then filSyncGo t d p else p)
  else if x = DET_CFG.SRC.off then detCfgWrite n 0 v d s
  else if x = DET_N.N.off then detCfgWrite n 1 v d s
  else if x = LPT_CTRL.EN.off then lptCtrlWrite v d s
  else p

/-- LAW, PWM and BND. -/
def writeLaw (x n i : Nat) (v : Word) (t d : Nat) (p s : State) : State :=
  if x = LAW_CTRL.RUN.off then lawCtrlWrite n v t d s
  else if x = LAW_SCHED.PER.off then lawSchedWrite n v d s
  else if x = LAW_BANK.ACT.off then lawBankWrite n v d s
  else if x = PWM_CTRL.EN.off then pwmCtrlWrite n v d s
  else if x = PWM_PER.PERIOD.off then pwmFixedWrite PWM_PER.PERIOD n v d s
  else if x = PWM_OFS.OFS.off then pwmFixedWrite PWM_OFS.OFS n v d s
  else if x = PWM_DUTY.DUTY.off then dutyWrite d n i (v.toNat % 2 ^ 17) s.pt s
  else if x = PWM_SAFE.LVL.off then pwmSafeWrite n v d s
  else if x = BND_CTRL.PATH.off then bndCtrlWrite n v d s
  else p

/-- PAIR and CFG; `v` is masked to the fields that can be written, `w` is not. -/
def writeCfg (o x : Nat) (v w : Word) (d : Nat) (p s : State) : State :=
  if x = PAIR_CTRL.SWINT.off then pairCtrlWrite w d s
  else if x = CFG_MSET.F.off ∨ x = CFG_MSET.F.off + 4 ∨ x = CFG_EPOCHT.T.off ∨ x = CFG_EPOCHT.T.off + 4 then cfgSpread o v d s
  else if x = CFG_STAGE.GO.off then stageWrite w d s
  else if x = CFG_COMMIT.COMMIT.off then commitWrite w d s
  else p

/-- HIF; `a` is the BAR0 address. -/
def writeHif (m a x n : Nat) (v w : Word) (d : Nat) (p s : State) : State :=
  if x = HIF_RCFG.EN.off then ringCfgWrite m n v d s
  else if x < HIF_RCFG.EN.off ∨ x = HIF_RPARM.PARM.off ∨ x = HIF_RAXMASK.MASK.off then ringFixedWrite m n a v d s
  else if x = HIF_FWCTL.RING.off then fwCtlWrite w d s
  else p

/-- TRM and MEM. -/
def writeMem (x : Nat) (v : Word) (d : Nat) (p s : State) : State :=
  if x = TRM_CTRL.GENMAX.off then gmShow d p
  else if x = TRM_ARXMASK.MASK.off then arxMaskWrite 0 v d s
  else if x = TRM_ARXMASK.MASK.off + 4 then arxMaskWrite 1 v d s
  else if x = TRM_MBOX.SEND.off then mboxWrite v d s
  else if x = MEM_CTRL.EN.off then memCtrlWrite v d s
  else if x = STK_CTRL.EN.off then stkChoose p
  else if x = STK_NS.SIZE.off then showNs d p
  else if x = STK_SLOTCFG.APER.off then (if s.bit d STK_STREAM.EN then s else p)
  else p

/-- NVF and MSR. -/
def writeNvf (m a x : Nat) (v : Word) (d : Nat) (p s : State) : State :=
  if x = NVF_CMD.OP.off then nvfCmd (bitsOf v.toNat 0 4) (bitsOf v.toNat 4 2) d s
  else if x = NVF_KEY.KEY.off then s.setReg a v
  else if x = NVF_MARK.INTENT.off then markSelect v d s
  else if MSR_EXTDATA.DATA.off ≤ x ∧ x ≤ MSR_EXT.GO.off then
    if m = 2 ∨ m = 3 then (if x = MSR_EXT.GO.off then msrExtWrite v d s else p) else s.accessFault d m true 2 5 a
  else if x = MSR_CREQ.GO.off then msrCreqWrite v d s
  else p

/-- TUNE and TRC. -/
def writeTrc (x n : Nat) (v : Word) (d : Nat) (p s : State) : State :=
  if x = TUNE_CTRL.RSLOT.off then tuneCtrlWrite n v d s
  else if x = TRC_CTRL.DEST.off then trcCtrlWrite v d s
  else if x = TRC_TRIG.SRC.off then trcTrigWrite v d s
  else if x = TRC_CH.EN.off then trcChWrite n v d s
  else p

/-- What a write of the register word at window offset `o`, of row `r` with first index `n` and word `k`, does on die `d`. -/
def wordWrite (m o : Nat) (r : Row) (n k : Nat) (v : Word) (t d : Nat) (s : State) : State :=
  let a := d * dieSpan + o
  let x := r.off + 4 * k
  let i := (o - r.off - n * r.ax) / max 1 r.ix
  let p := baseWrite a r n k v d s
  let vm := v &&& BitVec.ofNat 32 (r.rw.getD k 0)
  match o / 0x10000 with
  | 0 => writeRoot m x v d p s
  | 1 => writeRoot m x v d p s
  | 2 => writeRoot m x v d p s
  | 3 => writeFlt x n v d p s
  | 4 => writeFlt x n v d p s
  | 5 => writeTrk x n v t d p s
  | 6 => writeTrk x n v t d p s
  | 7 => writeTbl x n i v d p s
  | 8 => writeEnc x n v d p s
  | 9 => writeAcq x n i v t d p s
  | 10 => writeAcq x n i v t d p s
  | 11 => writeLaw x n i v t d p s
  | 12 => writeLaw x n i v t d p s
  | 13 => writeCfg o x vm v d p s
  | 14 => writeCfg o x vm v d p s
  | 15 => writeHif m a x n vm v d p s
  | 16 => writeMem x v d p s
  | 17 => writeMem x v d p s
  | 18 => writeNvf m a x v d p s
  | 19 => writeNvf m a x v d p s
  | 20 => writeTrc x n v d p s
  | _ => p

/-- The writes at window offset `o` that reach both mates of a standby pair: the per-axis sets, and every register of ACQ, FIL and PWM
(R26, R188). -/
def forwardedAt (o : Nat) : Bool :=
  [9, 10, 12].elem (o / 0x10000) || (axisBlock (o / 0x10000) && o % 0x10000 < 0x8000)

/-- A write of `v` by master `m` at window offset `o` of die `d`, which takes place: a window of R481 that is only read ignores it. -/
def winWrite (m d o : Nat) (v : Word) (s : State) : State :=
  if 0x200000 ≤ o ∧ o < 0x220000 then carrelWrite m d (o - 0x200000) v.toNat s
  else if inProg o then progmemAccess m d (o - progBase) true v false 0 s
  else match regAt o with
    | some (r, n, k) =>
      if forwardedAt o then axisWrite d o v (fun e s' => if o = LAW_BANK.ACT.addr 0 n 0 then bankShared n v e s' else wordWrite m o r n k v s.pt e s') s
      else wordWrite m o r n k v s.pt d s
    | none => s

/-! Reads -/

/-- Words that return what the last read of another word latched (R95, R196; CLK_PT, CLK_PTREM, FIL_OUT, DET_A, EVT_HEAD, HIF_FWCMD). -/
def latchedAt (x : Nat) : Bool :=
  x == CLK_PT.PT.off + 4 || x == CLK_PTREM.REM.off + 4 || x == TRK_STAT.LOCK.off ||
    (TRK_ANG.FRAC.off < x && x ≤ TRK_MECH.FRAC.off) || x == FIL_OSTAMP.PT.off || x == FIL_OSTAMP.PT.off + 4 ||
    (DET_A.VALUE.off < x && x ≤ DET_PKSTAMP.PT.off + 4) || x == LPT_STAT.LOCK.off ||
    (LPT_PHASE.PHASE.off < x && x ≤ LPT_STAMP.PT.off + 4) || (EVT_HEAD.DESC.off < x && x < EVT_HEAD.DESC.off + 16) ||
    (HIF_FWCMD.DESC.off < x && x < HIF_FWCMD.DESC.off + 32)

/-- Registers that read as the time master's (CLK_PTADJ, CLK_PTREM, PWR_PKGBUD). -/
def mastersAt (x : Nat) : Bool := x == CLK_PTADJ.SLEW.off || x == CLK_PTREM.REM.off || x == PWR_PKGBUD.PKG.off

/-- The word of FLT_PEND at index `w`: STICKY of 32 sources. -/
def pendWord (s : State) (d w : Nat) : Nat :=
  ((List.range 32).map fun b => s.rd d FLT_SRCSTAT.STICKY (32 * w + b) * 2 ^ b).sum

/-- A read of the register word at window offset `o` of die `d`: `wo` and `ws` fields read 0 (R8). -/
def wordRead (o : Nat) (r : Row) (n k : Nat) (d : Nat) (s : State) : State :=
  let a := d * dieSpan + o
  let x := r.off + 4 * k
  let show_ := fun s : State => s.answer (s.reg a &&& ~~~(BitVec.ofNat 32 (r.act.getD k 0))).toNat
  if latchedAt x then s.answer (s.latched a)
  else if x = CLK_PT.PT.off then
    let t := s.ptD d
    { s with latch := s.latch.set (a + 4) (BitVec.ofNat 32 (t / 2 ^ 32)) 0 }.answer (t % 2 ^ 32)
  else if mastersAt x then
    let b := (s.master.getD d) * dieSpan + o
    let s := if x = CLK_PTREM.REM.off then { s with latch := s.latch.set (a + 4) (s.reg (b + 4)) 0 } else s
    s.answer (s.reg b &&& ~~~(BitVec.ofNat 32 (r.act.getD k 0))).toNat
  else if x = TRK_ANG.FRAC.off then trkAngRead d n s
  else if x = FIL_OUT.VALUE.off then show_ (s.latchWords (a + 4) 2)
  else if x = DET_A.VALUE.off then show_ (s.latchWords (a + 4) 7)
  else if x = LPT_PHASE.PHASE.off then lptPhaseRead d s
  else if x = EVT_HEAD.DESC.off then show_ (s.latchWords (a + 4) 3)
  else if x = HIF_FWCMD.DESC.off then show_ (fwCmdLatch d s)
  else if x = FLT_SRCSTAT.LIVE.off then s.answer (putBit (s.reg a &&& ~~~(BitVec.ofNat 32 (r.act.getD k 0))).toNat 0 (liveNow s d n))
  else if x = FLT_PEND.STICKY.off then s.answer (pendWord s d n)
  else if x = ENC_SPD.SPD.off then show_ (encSpeedNow d n s)
  else if x = PWM_DUTY.DUTY.off then show_ (s.dutiesArrive d n)
  else if x = PWR_ADMIT.FIRM.off then ((show_ s).wr d PWR_ADMIT.CHG 0).setIrqs d 23 false
  else if x = NVF_STAT.BUSY.off then (show_ s).setIrqs d 22 false
  else show_ s

/-- The area and offset that a flash window of R459 shows at window offset `o`. -/
def flashAt (s : State) (d o : Nat) : Option (Nat × Nat) :=
  if 0x1000000 ≤ o then some (0, o - 0x1000000)
  else if 0x121000 ≤ o ∧ o < 0x122000 then some (1, s.rd d NVF_DSEL.SECTOR * 4096 + (o - 0x121000))
  else if 0x122000 ≤ o ∧ o < 0x122800 then some (3, o - 0x122000)
  else if 0x123000 ≤ o ∧ o < 0x124000 then some (2, o - 0x123000)
  else none

/-- Four bytes as a word, from a function of the offset. -/
def word4 (f : Nat → Byte) (o : Nat) : Nat := leNum ((List.range 4).map fun i => f (o + i))

/-- A read by master `m` of the word at window offset `o` of die `d`, which takes place; `ecc` is what the code of a memory finds (0 none,
1 corrected, 2 uncorrected). -/
def winRead (m d o ecc : Nat) (s : State) : State :=
  if 0x200000 ≤ o ∧ o < 0x220000 then carrelRead d (o - 0x200000) ecc s
  else if inProg o then progmemAccess m d (o - progBase) false 0 false ecc s
  else if 0x150000 ≤ o ∧ o < 0x160000 then s.answer (word4 (s.getTrcByte d) (o - 0x150000))
  else if 0x131000 ≤ o ∧ o < 0x132000 then s.answer (word4 (s.getRepByte d) (o - 0x131000))
  else match flashAt s d o with
    | some (a, k) => let r := flashWindow m d a k ecc (d * dieSpan + o) s; r.2.answer r.1
    | none => match regAt o with
      | some (r, n, k) => wordRead o r n k d s
      | none => s.answer 0

/-! Which accesses take place -/

/-- Registers that act only on d0 and d1 (R304): the ledger's, and those of DRAM and the stacks that a drive or channel backs. -/
def onlyP0 (o : Nat) : Bool :=
  (0x48020 ≤ o && o < 0x48060) || o == MEM_CTRL.EN.off || o == MEM_ECC.COR.off || o == MEM_ECCADDR.ADDR.off ||
    o == MEM_ECCADDR.ADDR.off + 4 || o == STK_CTRL.EN.off || (STK_NS.SIZE.off ≤ o && o < STK_NS.SIZE.off + 32)

/-- Why an access at BAR0 address `a` through the function or hart of die `f` does not take place, with the die that records it (R3, R10,
R27, R304, R381, R482); `none` where it reaches its register or window. -/
def busFault (s : State) (f a size : Nat) : Option (Nat × Nat) :=
  let d := a / dieSpan
  let o := a % dieSpan
  let b := o / 0x10000
  if s.dies ≤ d then some (1, f)
  else if !s.reach f d then some (7, f)
  else if size ≠ 4 ∨ a % 4 ≠ 0 then some (3, d)
  else if b = 15 ∧ !s.bit d HIF_ID.BONDED then some (4, d)
  else if onlyP0 o ∧ 2 ≤ d then some (4, d)
  else if axisBlock b ∧ o % 0x10000 < 0x8000 ∧ !s.holds d (o % 0x10000 / 0x1000) then some (2, d)
  else if (0x200000 ≤ o ∧ o < 0x220000) ∨ inProg o ∨ b = 0x15 ∨ (0x131000 ≤ o ∧ o < 0x132000) ∨ (flashAt s d o).isSome ∨
      (regAt o).isSome then none
  else some (4, d)

/-- FLT_AFINFO.SIZE. -/
def sizeCode (size : Nat) : Nat := if size = 1 then 0 else if size = 2 then 1 else if size = 4 then 2 else 3

/-- The master as the addressed die records it: a hart of another die comes over the spine (FLT_AFINFO.MASTER). -/
def masterAt (m f d : Nat) : Nat := if (m = 2 ∨ m = 3) ∧ f ≠ d then 5 else m

/-- A write of `size` bytes by master `m`, through the function or hart of die `f`, at BAR0 address `a`. -/
def busWrite (f m a size : Nat) (v : Word) (s : State) : State :=
  let m' := masterAt m f (a / dieSpan)
  if (s.getDie f).inReset then s
  else match busFault s f a size with
    | some (c, e) => s.accessFault e (masterAt m f e) true (sizeCode size) c a
    | none => winWrite m' (a / dieSpan) (a % dieSpan) v s

/-- A read of `size` bytes; one that does not take place returns 0. -/
def busRead (f m a size ecc : Nat) (s : State) : State :=
  let m' := masterAt m f (a / dieSpan)
  if (s.getDie f).inReset then s.answer 0
  else match busFault s f a size with
    | some (c, e) => (s.answer 0).accessFault e (masterAt m f e) false (sizeCode size) c a
    | none => winRead m' (a / dieSpan) (a % dieSpan) ecc s

/-- Access faults on their way to the collectors. -/
def faultsSent (s : State) : Nat := (s.inbox.map fun e => (e.2.filter fun m => m.src == 304).length).sum

/-- The access that led from `s` to `t` took place (R304). -/
def tookPlace (s t : State) : Bool := faultsSent t == faultsSent s

/-- MASK: word := (old AND NOT mask) OR (data AND mask), one read-modify-write (R389, R422); the answer is the old word. -/
def busMask (f m a : Nat) (data mask : Word) (s : State) : State :=
  let s1 := busRead f m a 4 0 s
  if tookPlace s s1 then
    let old : Word := BitVec.ofNat 32 s1.readData
    (busWrite f m a 4 ((old &&& ~~~mask) ||| (data &&& mask)) s1).answer old.toNat
  else s1

/-! Commands -/

/-- An access to a register or window of BAR0 by master `m` through die `f`, or to a CSR by a hart: `wr` a write of `v`, else a read. -/
def execRegisterWrite (m f : Nat) (p : RegPlace) (wr : Bool) (size : Nat) (v : Word) (ecc : Nat) (s : State) :
    Host.Outcome State Fault Refusal :=
  match p with
  | .bar a =>
    onItem (m < 7 && s.hasDie f && a < 0x10000000) s fun s => if wr then busWrite f m a size v s else busRead f m a size ecc s
  | .csr d h num => onItem (s.hasDie d && h < 2 && num < 4096) s (csrAccess d h num wr v)

/-- The mate of the active die applies the next write forwarded to it (R26): the pair bridge's check takes place (R306). With the bridge
down the forwarding has failed. -/
def forwardedApply (d : Nat) (s : State) : State :=
  match s.getFwd d with
  | [] => s
  | w :: q =>
    if !s.bridgeUp d then s.modFwd d fun _ => [] else
    let s := (s.inject d 8 464 7 2).modFwd d fun _ => q
    if w.off = TBL_CMD.OP.off then
      let x := w.val.toNat
      tblStart d (bitsOf x 0 4) (bitsOf x 4 5) (bitsOf x 9 5) (bitsOf x 16 3) (bitsOf x 20 2) s
    else if inProg w.off then progApply (w.off - progBase) w.val w.run d s
    else match regAt w.off with
      | some (r, n, k) =>
        if w.off = LAW_BANK.ACT.addr 0 n 0 then bankFollow n w.val d s else wordWrite 4 w.off r n k w.val w.tick d s
      | none => s

/-- Every write that waits for a mate is applied there: a write with a completion completes only then (R26). -/
def fwdDrain (s : State) : State :=
  s.forEach (List.range s.dies) fun d s => s.forEach (List.range (s.getFwd d).length) fun _ s => forwardedApply d s

def execForwardedWrite (d : Nat) (s : State) : Host.Outcome State Fault Refusal := onLive d s (forwardedApply d)

end Sys2Proof.Machine
end

