-- ==== Sys2Proof/Machine/Host.lean ====
section
/-!
DEFINITION. The commands of the host's hardware rings and the requests of ARC rings (R388 to R390, R394, R397).
-/

namespace Sys2Proof.Machine

/-! Which command runs (R388, R395) -/

/-- COLOPH commands in execution on the function of die `d`. -/
def hostSigns (s : State) (d : Nat) : Nat :=
  ((s.getSignq d).filter fun q => match q.who with | .host _ _ _ => true | _ => false).length

/-- Ring `r` of function `d` may start its next descriptor: the function is up, the ring runs, none of its commands is in execution and
fewer than four are on the function (R388), and the share of its CPL ring is not full (R395). -/
def mayStart (s : State) (d r : Nat) : Bool :=
  let c := s.rd d HIF_RCFG.CPLR r
  s.fnUp d && s.bit d HIF_RCFG.EN r && s.rd d HIF_RSTAT.STATE r == 1 && !ringBusy s d r && decide (hostSigns s d < 4) &&
    decide ((s.getRing d c).share.length < ringShare s d c)

/-- The head descriptor of a hardware CMD ring, where it may start and its OP satisfies `p`. -/
def cmdHead (s : State) (d r : Nat) (p : Nat → Bool) : Option (List Byte) :=
  if mayStart s d r && s.rd d HIF_RCFG.TYPE r == 0 && !s.bit d HIF_RCFG.MODE r then
    ((s.getRing d r).share.head?).filter fun b => p (fByte b 0)
  else none

/-- The head descriptor of an ARC ring. ARC work waits while the deferrable tasks of the serving die are shed (R394). -/
def arcHead (s : State) (d r : Nat) (p : Nat → Bool) : Option (List Byte) :=
  let ok := match s.stkSrv with | some c => s.deferOk c | none => true
  if mayStart s d r && s.rd d HIF_RCFG.TYPE r == 4 && ok then ((s.getRing d r).share.head?).filter fun b => p (fByte b 0) else none

/-- Runs `f` on the head descriptor of a CMD ring, if there is one with that OP. -/
def onCmd (d r op : Nat) (s : State) (f : List Byte → State → State) : Host.Outcome State Fault Refusal :=
  onItem (d < 2 && s.hasDie d && r < 64) s fun s => match cmdHead s d r (· == op) with | some b => f b s | none => s

/-- Runs `f` on the head descriptor of an ARC ring, if there is one with that OP. -/
def onArc (d r op : Nat) (s : State) (f : List Byte → State → State) : Host.Outcome State Fault Refusal :=
  onItem (d < 2 && s.hasDie d && r < 64) s fun s => match arcHead s d r (· == op) with | some b => f b s | none => s

/-! Fields of a descriptor (R388) -/

def cmdCid (b : List Byte) : Nat := fNum b 2 2
def cmdA (b : List Byte) : Nat := fNum b 4 4
def cmdAddr (b : List Byte) : Nat := fNum b 8 8
def cmdB (b : List Byte) : Nat := fNum b 16 8

/-! Register commands (R389) -/

/-- What a command over several register words has done: words read, index of the first word that did not take place, the state. -/
structure WordRun where
  ws : List Nat
  bad : Option Nat
  s : State

/-- One more word: `t` is the state after its access. -/
def WordRun.add (x : WordRun) (w : Nat) (t : State) (i : Nat) : WordRun :=
  { ws := x.ws ++ [w], bad := if tookPlace x.s t then x.bad else x.bad <|> some i, s := t }

/-- `n` words from BAR0 address `a` are read by master `m` through die `f`. -/
def readWords (f m a n : Nat) (s : State) : WordRun :=
  (List.range n).foldl (fun x i => let t := busRead f m (a + 4 * i) 4 0 x.s; x.add t.readData t i) { ws := [], bad := none, s := s }

/-- The words of a write command have been applied by both mates before it completes (R26). -/
def WordRun.both (x : WordRun) : WordRun := { x with s := fwdDrain x.s }

/-- Words are written from BAR0 address `a` on. -/
def writeWords (f m a : Nat) (vs : List Nat) (s : State) : WordRun :=
  ((List.range vs.length).foldl (fun x i =>
    x.add 0 (busWrite f m (a + 4 * i) 4 (BitVec.ofNat 32 (vs.getD i 0)) x.s) i) ({ ws := [], bad := none, s := s } : WordRun)).both

/-- MASK on the words from BAR0 address `a` on; the words answered are the old ones. -/
def maskWords (f m a : Nat) (data mask : List Nat) (s : State) : WordRun :=
  ((List.range data.length).foldl (fun x i =>
    let t := busMask f m (a + 4 * i) (BitVec.ofNat 32 (data.getD i 0)) (BitVec.ofNat 32 (mask.getD i 0)) x.s
    x.add t.readData t i) ({ ws := [], bad := none, s := s } : WordRun)).both

/-- Words of a list of bytes. -/
def bytesWords (bs : List Byte) (n : Nat) : List Nat := (List.range n).map fun i => fNum bs (4 * i) 4

/-- The command ends, with STATUS 0x03 and the index of the first word that did not take place (R389). -/
def wordsDone (d r r0 : Nat) (x : WordRun) : State :=
  match x.bad with | some i => cmdDone d r 3 r0 i x.s | none => cmdDone d r 0 r0 0 x.s

/-- The BAR0 offset of a register command is word-aligned, and its `n` words lie in BAR0. -/
def barOk (a n : Nat) : Bool := a % 4 == 0 && decide (a + 4 * n ≤ 8 * dieSpan)

def execHifNop (d r : Nat) (s : State) : Host.Outcome State Fault Refusal := onCmd d r 0 s fun _ s => cmdDone d r 0 0 0 s

/-- RDREG. -/
def hifRdreg (d r : Nat) (b : List Byte) (s : State) : State :=
  let n := cmdB b % 1024 + 1
  if !barOk (cmdA b) n ∨ cmdAddr b % 4 ≠ 0 then cmdDone d r 2 0 0 s
  else
    let x := readWords d d (cmdA b) n s
    wordsDone d r n { x with s := putHost x.s (cmdAddr b) (x.ws.flatMap fun w => leBytes w 4) }

def execHifRdreg (d r : Nat) (s : State) : Host.Outcome State Fault Refusal := onCmd d r 1 s (hifRdreg d r)

/-- A read of a command's data from host memory fails (R397). -/
def hostDataFail (d r done : Nat) (s : State) : State := (cmdDone d r 4 done 0 s).raise d 498 3 r

/-- WRREG: `bs` is what the host buffer returns; with `ok` false it returns that much before it fails. -/
def hifWrreg (d r : Nat) (ok : Bool) (bs : List Byte) (b : List Byte) (s : State) : State :=
  let n := cmdB b % 1024 + 1
  if !barOk (cmdA b) n ∨ cmdAddr b % 4 ≠ 0 then cmdDone d r 2 0 0 s
  else
    let k := if ok then n else min n (bs.length / 4)
    let x := writeWords d d (cmdA b) (bytesWords bs k) s
    if ok then wordsDone d r n x else hostDataFail d r k x.s

def execHifWrreg (d r : Nat) (ok : Bool) (bs : List Byte) (s : State) : Host.Outcome State Fault Refusal :=
  onCmd d r 2 s (hifWrreg d r ok bs)

/-- WR1. -/
def hifWr1 (d r : Nat) (b : List Byte) (s : State) : State :=
  if !barOk (cmdA b) 1 then cmdDone d r 2 0 0 s else wordsDone d r 0 (writeWords d d (cmdA b) [cmdB b] s)

def execHifWr1 (d r : Nat) (s : State) : Host.Outcome State Fault Refusal := onCmd d r 3 s (hifWr1 d r)

/-- MASK: RESULT0 is the old word. -/
def hifMask (d r : Nat) (b : List Byte) (s : State) : State :=
  if !barOk (cmdA b) 1 then cmdDone d r 2 0 0 s
  else
    let x := maskWords d d (cmdA b) [cmdB b] [cmdB b / 2 ^ 32] s
    wordsDone d r (x.ws.getD 0 0) x

def execHifMask (d r : Nat) (s : State) : Host.Outcome State Fault Refusal := onCmd d r 4 s (hifMask d r)

/-! DMA (R389) -/

/-- Length, host address and DRAM address of a DMA command are in range and aligned. -/
def dmaOk (b : List Byte) : Bool :=
  let n := cmdA b
  64 ≤ n && n ≤ 16777216 && n % 64 == 0 && cmdAddr b % 64 == 0 && cmdB b % 64 == 0 && decide (cmdB b + n ≤ 2 ^ 35)

/-- The `n` bytes from DRAM address `a` overlap the ledger ring while LEDG_CTL.EN = 1 on the serving die `c`. -/
def hitsLedger (s : State) (c a n : Nat) : Bool :=
  let b := s.rd c LEDG_BASE.BASE * 2 ^ 20
  s.bit c LEDG_CTL.EN && overlaps a (a + n) b (b + ledgSegs s c * 2 ^ 20)

/-- DMAW: `bs` is what the host buffer returns; with `ok` false it returns that much before it fails. -/
def hifDmaw (d r : Nat) (ok : Bool) (bs : List Byte) (b : List Byte) (s : State) : State :=
  let n := cmdA b
  if !dmaOk b then cmdDone d r 2 0 0 s
  else match s.dramSrv with
    | none => cmdDone d r 5 0 0 s
    | some c =>
      if !s.reach d c then cmdDone d r 5 0 0 s
      else if hitsLedger s c (cmdB b) n then cmdDone d r 6 0 0 s
      else
        let k := if ok then n else min n bs.length
        let t := (s.dramWrite (cmdB b) ((List.range k).map fun i => bs.getD i 0)).2
        if ok then cmdDone d r 0 n 0 t else hostDataFail d r k t

def execHifDmaw (d r : Nat) (ok : Bool) (bs : List Byte) (s : State) : Host.Outcome State Fault Refusal :=
  onCmd d r 5 s (hifDmaw d r ok bs)

/-- DMAR: `ecc` is what the DRAM code finds in the range, an uncorrected error at its start. -/
def hifDmar (d r ecc : Nat) (b : List Byte) (s : State) : State :=
  let n := cmdA b
  if !dmaOk b then cmdDone d r 2 0 0 s
  else match s.dramSrv with
    | none => cmdDone d r 5 0 0 s
    | some c =>
      if !s.reach d c then cmdDone d r 5 0 0 s
      else
        let x := s.dramRead (cmdB b) n
        let t := eccRead c (cmdB b) ecc x.2
        if ecc = 2 ∨ (ecc = 3 ∧ !s.bit c MEM_STAT.MSYNC) then cmdDone d r 5 0 0 t
        else cmdDone d r 0 n 0 (putHost t (cmdAddr b) (x.1.getD []))

def execHifDmar (d r ecc : Nat) (s : State) : Host.Outcome State Fault Refusal := onCmd d r 6 s (hifDmar d r ecc)

/-! COLOPH (R389) and undefined opcodes -/

/-- COLOPH: the request goes to the signer; `bs` is the nonce read from the host buffer. -/
def hifColoph (d r : Nat) (ok : Bool) (bs : List Byte) (b : List Byte) (s : State) : State :=
  if cmdA b < colophonLen s d ∨ cmdAddr b % 64 ≠ 0 then cmdDone d r 2 0 0 s
  else if !ok then hostDataFail d r 0 s
  else signAsk d (.host r (cmdCid b) (cmdAddr b)) ((List.range 32).map fun i => bs.getD i 0) s

def execHifColoph (d r : Nat) (ok : Bool) (bs : List Byte) (s : State) : Host.Outcome State Fault Refusal :=
  onCmd d r 7 s (hifColoph d r ok bs)

/-- Every other opcode completes with STATUS 0x01. -/
def execHifUndefinedOpcode (d r : Nat) (s : State) : Host.Outcome State Fault Refusal :=
  onItem (d < 2 && s.hasDie d && r < 64) s fun s =>
    match cmdHead s d r (fun op => 7 < op) with | some _ => cmdDone d r 1 0 0 s | none => s

/-- A read of host memory receives no completion in time (R397): a descriptor fetch halts the ring; a command's data ends the command
with STATUS 0x04. -/
def completionTimeout (d r : Nat) (data : Bool) (s : State) : State :=
  if data then
    match cmdHead s d r fun op => op == 2 || op == 5 || op == 7 with
    | some _ => hostDataFail d r 0 s
    | none => s
  else if fetchable s d r then (ringHalt d r 4 s).raise d 498 3 r
  else s

def execPcieCompletionTimeout (d r : Nat) (data : Bool) (s : State) : Host.Outcome State Fault Refusal :=
  onItem (d < 2 && s.hasDie d && r < 64) s fun s => if (s.getDie d).inReset then s else completionTimeout d r data s

/-! Requests to the stacks (R394, R438, R439) -/

/-- The namespace number of a request, less one. -/
def arcNs (b : List Byte) : Nat := fByte b 1 % 4

/-- Runs `f` for the serving die of an ARC request; no serving die, or one that still rebuilds its index, ends it with STATUS 0x08, and
a namespace that does not exist with 0x02 (R394, R440). -/
def arcServe (d r : Nat) (b : List Byte) (s : State) (f : Nat → State → State) : State :=
  match stkReady s with
  | none => cmdDone d r 8 0 0 s
  | some c =>
    if !s.reach d c then cmdDone d r 8 0 0 s else if !s.bit c STK_NS.VALID (arcNs b) then cmdDone d r 2 0 0 s else f c s

/-- The records of a namespace that satisfy `p`, in time order. -/
def recsInTime (s : State) (c k : Nat) (p : List Byte → Bool) : List (List Byte) :=
  (((nsSlots s c k).map fun e => e.2.2).filter fun b => isRecord b && p b).mergeSort fun x y => decide (stkTs x ≤ stkTs y)

/-- READ: whole records overlapping ts … te - 1 that pass their CRC, up to MAXREC of them. -/
def arcRead (d r : Nat) (b : List Byte) (s : State) : State :=
  let ts := cmdAddr b
  let te := cmdB b
  let n := cmdA b
  arcServe d r b s fun c s =>
    if n = 0 ∨ 65536 < n ∨ te ≤ ts ∨ fNum b 24 8 % 4096 ≠ 0 then cmdDone d r 2 0 0 s
    else
      let all := recsInTime s c (arcNs b) fun x => overlaps (stkTs x) (stkTe x) ts te
      let good := all.filter stkCrcOk
      let next := (good.drop n).head?
      let seen := match next with | some x => (all.takeWhile fun y => y != x) | none => all
      let bad := (seen.filter fun x => !stkCrcOk x).length
      let s := if bad = 0 then s else (s.addSat c STK_CNT.CRC bad).forEach (List.range bad) fun _ s => s.raise c 535 3 (arcNs b)
      let out := good.take n
      let r1 := match next with | some x => stkTs x | none => 2 ^ 64 - 1
      cmdDone d r 0 out.length r1 (putHost s (fNum b 24 8) (out.flatMap fun x => x ++ List.replicate (4096 - x.length) 0))

def execArcRead (d r : Nat) (s : State) : Host.Outcome State Fault Refusal := onArc d r 1 s (arcRead d r)

/-- PROTECT adds a window; a full table refuses it. -/
def arcProtect (d r : Nat) (b : List Byte) (s : State) : State :=
  let k := arcNs b
  arcServe d r b s fun c s =>
    if cmdB b ≤ cmdAddr b ∨ 64 ≤ (s.getNsr c k).wins.length then cmdDone d r 2 0 0 s
    else
      let w : Win := { ts := cmdAddr b, te := cmdB b, trig := false }
      let n := newlyHeld s c k w
      cmdDone d r 0 n 0 (showWin c k (s.modNsr c k fun x => { x with wins := x.wins ++ [w] }))

def execArcProtect (d r : Nat) (s : State) : Host.Outcome State Fault Refusal := onArc d r 2 s (arcProtect d r)

/-- UNPROTECT removes every window that lies wholly within its range; FULL is released with the segments. -/
def arcUnprotect (d r : Nat) (b : List Byte) (s : State) : State :=
  let k := arcNs b
  arcServe d r b s fun c s =>
    if cmdB b ≤ cmdAddr b then cmdDone d r 2 0 0 s
    else
      let wins := (s.getNsr c k).wins
      let keep := wins.filter fun w => !(decide (cmdAddr b ≤ w.ts) && decide (w.te ≤ cmdB b))
      let s := showWin c k (s.modNsr c k fun x => { x with wins := keep })
      let s := if (segPick s c k).isSome then s.wr c STK_NS.FULL 0 k else s
      cmdDone d r 0 (wins.length - keep.length) 0 s

def execArcUnprotect (d r : Nat) (s : State) : Host.Outcome State Fault Refusal := onArc d r 3 s (arcUnprotect d r)

/-- SPAN: the earliest and latest ticks held; of a namespace that holds no record the spec states none, and both are free. -/
def arcSpan (d r : Nat) (b : List Byte) (s : State) : State :=
  arcServe d r b s fun c s =>
    match recsInTime s c (arcNs b) fun _ => true with
    | [] => cmdDone d r 0 (s.free % 2 ^ 64) (s.drew.free % 2 ^ 64) s.drew.drew
    | x :: xs => cmdDone d r 0 (stkTs x) ((xs.foldl (fun a y => max a (stkTe y)) (stkTe x)) - 1) s

def execArcSpan (d r : Nat) (s : State) : Host.Outcome State Fault Refusal := onArc d r 4 s (arcSpan d r)

/-- An undefined OP completes with STATUS 0x01. -/
def execArcUndefinedOp (d r : Nat) (s : State) : Host.Outcome State Fault Refusal :=
  onItem (d < 2 && s.hasDie d && r < 64) s fun s =>
    match arcHead s d r (fun op => op == 0 || 4 < op) with | some _ => cmdDone d r 1 0 0 s | none => s

end Sys2Proof.Machine
end

