-- ==== Sys2Proof/Machine/Access.lean ====
section
/-!
DEFINITION. ACCESS requests of the fabric that the hardware of the destination die serves (R422).
-/

namespace Sys2Proof.Machine

/-- Takes the oldest ACCESS frame at die `d` whose OP satisfies `p` and runs `f` on it. -/
def onAccess (d : Nat) (p : Nat → Bool) (f : List Byte → State → State) (s : State) : State :=
  let (x, s) := takeRx d (fun b => fClass b == 6 && p (accOp b)) s
  match x with | none => s | some x => f x.bytes s

/-- Its COUNT, BAR0 offset and data. -/
def accCount (b : List Byte) : Nat := fByte (fPayload b) 3
def accOff (b : List Byte) : Nat := fNum (fPayload b) 4 4
def accData (b : List Byte) : List Byte := (fPayload b).drop 8

/-- COUNT lies in 1 … `most`, and LEN is 20 bytes plus `k` bytes for each of COUNT. -/
def accOk (b : List Byte) (most k : Nat) : Bool :=
  1 ≤ accCount b && decide (accCount b ≤ most) && decide (b.length = 20 + k * accCount b)

/-- The answer to a request over words: STATUS 0x03 where one did not take place. -/
def accDone (d : Nat) (b : List Byte) (data : List Byte) (x : WordRun) : State :=
  accessAnswer d b (if x.bad.isSome then 3 else 0) (accOff b) data x.s

/-- RD; an undefined OP is answered with STATUS 0x01. -/
def accessRd (d : Nat) : State → State :=
  onAccess d (fun op => op < 128 && !(2 ≤ op && op ≤ 5)) fun b s =>
    if accOp b ≠ 1 then accessAnswer d b 1 (accOff b) [] s
    else if !s.bit d TRM_CTRL.RREN then accessAnswer d b 4 (accOff b) [] s
    else if !accOk b 32 0 then accessAnswer d b 2 (accOff b) [] s
    else
      let x := readWords d 6 (accOff b) (accCount b) s
      accDone d b (x.ws.flatMap fun w => leBytes w 4) x

def execAccessRd (d : Nat) (s : State) : Host.Outcome State Fault Refusal := onLive d s (accessRd d)

/-- WR. -/
def accessWr (d : Nat) : State → State :=
  onAccess d (· == 2) fun b s =>
    if !s.bit d TRM_CTRL.RWEN then accessAnswer d b 4 (accOff b) [] s
    else if !accOk b 32 4 then accessAnswer d b 2 (accOff b) [] s
    else accDone d b [] (writeWords d 6 (accOff b) (bytesWords (accData b) (accCount b)) s)

def execAccessWr (d : Nat) (s : State) : Host.Outcome State Fault Refusal := onLive d s (accessWr d)

/-- MASK: the data words, then the mask words. -/
def accessMask (d : Nat) : State → State :=
  onAccess d (· == 3) fun b s =>
    if !s.bit d TRM_CTRL.RWEN then accessAnswer d b 4 (accOff b) [] s
    else if !accOk b 16 8 then accessAnswer d b 2 (accOff b) [] s
    else
      let n := accCount b
      accDone d b [] (maskWords d 6 (accOff b) (bytesWords (accData b) n) (bytesWords ((accData b).drop (4 * n)) n) s)

def execAccessMask (d : Nat) (s : State) : Host.Outcome State Fault Refusal := onLive d s (accessMask d)

/-- Fabric requests that wait at the signer of die `d`, the one being signed apart (R479). -/
def teramSigns (s : State) (d : Nat) : Nat :=
  ((s.getSignq d).filter fun q => match q.who with | .teram _ => q.report.isNone | _ => false).length

/-- COLOPH: the request joins the signer's queue, which holds four of the fabric; a fifth is answered with STATUS 0x05. -/
def accessColoph (d : Nat) : State → State :=
  onAccess d (· == 4) fun b s =>
    if !s.bit d TRM_CTRL.RREN then accessAnswer d b 4 (accOff b) [] s
    else if b.length ≠ 52 then accessAnswer d b 2 (accOff b) [] s
    else if 4 ≤ teramSigns s d then accessAnswer d b 5 (accOff b) [] s
    else signAsk d (.teram b) (accData b) s

def execAccessColoph (d : Nat) (s : State) : Host.Outcome State Fault Refusal := onLive d s (accessColoph d)

end Sys2Proof.Machine
end

