-- ==== Sys2Proof/Machine/Start.lean ====
section
/-!
DEFINITION. From power-good to full service: clocks, package time and identity, the reading copy, measured start, the base image and the
entry to full service (R55 to R62, R337, R361, R362, R406, R407, R474, R475).
-/

namespace Sys2Proof.Machine

/-! Clocks and package time (R55, R57, R58) -/

/-- Die `d` starts package time at 0; the identity is formed anew (R55, R406). -/
def startTime (d : Nat) (s : State) : State :=
  let s := alignTime d { s with pt := 0, slewFrom := 0, strobeAt := none, lastAt := [], ptStep := none, ident := none }
  ((s.modDie d fun x => { x with joined := true }).wr d GLB_RSTCAUSE.PTRESTART 1).raise d 277 3 0

/-- A locked die that does not hold package time takes it from the master over the spine, or starts it where no die holds it (R55). One
that has lost it by its skew waits for a measurement within the bound (R45). -/
def ptAlign (d : Nat) (s : State) : State :=
  if !(s.getDie d).locked || s.bit d CLK_STAT.PTALIGNED then s
  else match s.master with
    | some m => if (s.getDie d).joined then s else if s.reach d m then (alignTime d s).modDie d fun x => { x with joined := true } else s
    | none => startTime d s

/-- The root PLL locks: the derived clocks run and PHASE becomes 1 (R57). -/
def rootPllLock (d : Nat) (s : State) : State :=
  if (s.getDie d).locked then s
  else
    let s := (s.modDie d fun x => { x with locked := true, noPads := false }).wr d CLK_STAT.ROOTLOCK 1
    let s := rootGood d (s.wr d GLB_PHASE.PHASE 1)
    if s.master.isNone then startTime d s else s

def execRootPllLock (d : Nat) (s : State) : Host.Outcome State Fault Refusal := onLive d s (rootPllLock d)

/-- The root PLL has not locked by the next whole 1 ms after power-good: every pad at high impedance, root-fail once a spine link is up,
and the lock is tried again (R58). -/
def rootRetry (d : Nat) (s : State) : State :=
  if (s.getDie d).locked then s
  else
    let gone := s.now - (s.getDie d).upAt
    rootLate d (padsOff d (s.pass (2500000 - gone % 2500000)))

def execRootLockRetry (d : Nat) (s : State) : Host.Outcome State Fault Refusal := onLive d s (rootRetry d)

def execPtRealign (d : Nat) (s : State) : Host.Outcome State Fault Refusal := onLive d s (ptAlign d)

/-! Identity (R406, R407) -/

/-- The identity formed from the option area of die `d`: with AUTO the low 12 bits of the lowest serial number among the dies in reach. -/
def formIdent (s : State) (d : Nat) : Ident :=
  let w := s.opt d 0xE 2
  let serials := (s.dieSet d).map fun e => s.flashLe e 3 8 8
  let low := serials.foldl min (s.flashLe d 3 8 8)
  { id := if bitOf w 12 then low % 4096 else w % 4096, auto := bitOf w 12, prio := s.opt d 0x10 1, serial := low }

/-- The option identity of die `d` differs from the one in use. -/
def identDiffers (s : State) (d : Nat) (i : Ident) : Bool :=
  let w := s.opt d 0xE 2
  bitOf w 12 != i.auto || s.opt d 0x10 1 != i.prio || (!i.auto && w % 4096 != i.id)

/-- Die `d` takes the identity in use, forming it if none is. -/
def identTake (d : Nat) (s : State) : State :=
  let own := match s.master with
    | some m => if (s.getDie m).optOk then m else d
    | none => d
  let i := s.ident.getD (formIdent s own)
  let s := { s with ident := some i }
  let s := (s.wr d TRM_IDSTAT.PKGID i.id).wr d TRM_IDSTAT.AUTO (b2n i.auto)
  if identDiffers s d i then (s.wr d TRM_CTRL.PRIO i.prio).raise d 522 3 0 else s

/-- After a die reset the package first error is taken from the lowest-numbered die in reach that holds one (R487). -/
def pkgFirstTake (d : Nat) (s : State) : State :=
  if !(s.getFlt d).pkgTake then s
  else
    let s := s.modFlt d fun f => { f with pkgTake := false }
    match (s.dieSet d).find? fun e => e != d && s.bit e FLT_PKGFIRST.VALID with
    | some e =>
      (s.setReg (FLT_PKGFIRST.SRC.addr d 0 0) (s.reg (FLT_PKGFIRST.SRC.addr e 0 0))).wr d FLT_PKGFIRSTPT.PT (s.rd e FLT_PKGFIRSTPT.PT)
    | none => s

/-- The spine is trained (R57): package time is aligned or started, the identity in use is held, and the boot ROM begins measured start. -/
def spineTrained (d : Nat) (s : State) : State :=
  let x := s.getDie d
  if !x.locked || !x.optOk || x.trained then s
  else
    let s := ptAlign d s
    if !s.bit d CLK_STAT.PTALIGNED then s
    else
      let s := identTake d (s.modDie d fun x => { x with trained := true })
      let s := if s.rd d TRM_PORT.STATE = 1 then beatSend d 0 s else s
      pkgFirstTake d (gmShow d s)

def execSpineTrained (d : Nat) (s : State) : Host.Outcome State Fault Refusal := onLive d s (spineTrained d)

/-! The reading copy (R60, R61) -/

/-- Line count of the reading copy's emulation: 0 is taken as 1, larger values as 4,096 (R463). -/
def rcLines (s : State) (d : Nat) : Nat := clampN 1 4096 (s.opt d 0x20 2)

/-- The reading-copy excitation starts on every axis; a driven emulation output shows low until the first valid angle. -/
def readingCopyStart (d : Nat) (s : State) : State :=
  if !(s.getDie d).trained || s.rd d GLB_PHASE.PHASE != 1 then s
  else
    let s := (s.wr d GLB_PHASE.PHASE 2).modDie d fun x => { x with rcAt := some s.pt }
    let s := s.forEach (List.range 8) fun n s =>
      s.modEnc d n fun x => { x with mode := 1, lines := rcLines s d, mech := false, rcS := 0, rcC := 0, rcN := 0, rcSeen := 0, rcWas := false }
    emuShowAll d s

def execReadingCopyStart (d : Nat) (s : State) : Host.Outcome State Fault Refusal := onLive d s (readingCopyStart d)

/-- At 2.0 ms PHASE becomes 3, and 4 where measured start has completed (R57). -/
def phase3Step (d : Nat) (s : State) : State :=
  if s.rd d GLB_PHASE.PHASE ≠ 2 then s
  else
    let s := s.pass ((s.getDie d).upAt + 5000000 - s.now)
    s.wr d GLB_PHASE.PHASE (if (s.getDie d).measured then 4 else 3)

def execPhase3Step (d : Nat) (s : State) : Host.Outcome State Fault Refusal := onLive d s (phase3Step d)

/-- The amplitude of the received vector lies within 0.5 to 4.0 Vpp (R60). -/
def rcInRange (x : EncAx) : Bool :=
  let k : Int := (x.rcN * 1073741824 : Nat)
  let m := 4 * (x.rcS * x.rcS + x.rcC * x.rcC)
  decide (0 < x.rcN) && decide ((4096 * k) * (4096 * k) ≤ m) && decide (m ≤ (32768 * k) * (32768 * k))

/-- The loop takes a vector's angle: the first two preset angle and speed, later ones correct it (R60; log entry 12). Beyond the range of
±2,400 rev/s, of which the spec says nothing, it goes on as within it (DESIGN CHOICE, log entry 43). -/
def rcLoop (x : EncAx) (v : Int) : EncAx :=
  match x.rcSeen with
  | 0 => { x with rcTh := v, rcPrev := v, rcSeen := 1 }
  | 1 => { x with rcTh := v, rcW := (wrapDiff 40 v x.rcPrev : Rat) / 1099511627776 * 10000, rcPrev := v, rcSeen := 2 }
  | _ =>
    let p := x.rcTh + rheQ (advance x.rcW 250000)
    let e : Rat := (wrapDiff 40 v p : Rat) / 1099511627776
    { x with rcTh := p + rheQ (Config.rcGain false * e * 1099511627776), rcW := x.rcW + Config.rcGain true * e, rcPrev := v }

/-- The emulation of the reading copy follows the loop's angle, before it is rounded to 12 bits (DESIGN CHOICE, log entry 43): nearest
count with the state on the pins at the first valid angle; then along the line from one update's angle to the next one's, no faster than
40 M transitions/s, whatever EMU_CTRL.RATE (R149); it holds while the angle is not valid (R60, R61). -/
def rcEmulate (d n : Nat) (s : State) : State :=
  let x := s.getEnc d n
  let v : Rat := (x.rcTh : Rat) / 1099511627776 * (emuTurn x : Nat)
  let q := sgn 48 (enc 48 (floorQ v))
  let s :=
    if x.rcSeen < 2 then s.modEnc d n fun x => { x with at8 := s.now8 }
    else if !x.rcWas then
      emuNearest d n 0 (s.modEnc d n fun x => { x with q := q, rcV := v, at8 := s.now8, rcWas := true })
    else
      let line := fun t8 : Nat => floorQ (x.rcV + (v - x.rcV) * ((t8 : Rat) - (x.at8 : Rat)) / ((s.now8 : Rat) - (x.at8 : Rat)))
      let r := emuRun line 500 s.now8 (emuSteps 500 x.at8 s.now8) x.at8 { e := x.e, last := x.last8, since := none }
      s.modEnc d n fun x => { x with e := r.e, last8 := r.last, q := q, rcV := v, at8 := s.now8 }
  let s := s.wr d EMU_POS.POS (enc 32 (s.getEnc d n).e) n
  emuShow d n s

/-- One update of the reading copy of axis `n`. -/
def rcAxis (d n : Nat) (s : State) : State :=
  let x := s.getEnc d n
  let ok := rcInRange x
  let s := s.modEnc d n fun x =>
    { (if ok then rcLoop x (atan40 x.rcS x.rcC) else { x with rcSeen := 0 }) with rcS := 0, rcC := 0, rcN := 0 }
  let x := s.getEnc d n
  let valid := decide (2 ≤ x.rcSeen)
  let s := s.wrBit d GLB_PHASE.RCVALID n valid
  let s :=
    if valid then
      let (a, s) := s.near ((x.rcTh : Rat) / 268435456)
      (s.wr d TRK_ANG.FRAC (enc 12 a * 1048576) n).wr d TRK_STAMP.PT s.pt n
    else s
  rcEmulate d n (s.wr d TRK_STAT.ANGVALID (b2n valid) n)

/-- The hardwired trackers update at 10 kHz from phase 2 until full service (R60). -/
def rcUpdate (d : Nat) (s : State) : State :=
  if s.rcPhase d then
    let s := s.toNext (State.stepNo 13 d 0) 250000
    s.forEach (List.range 8) fun n s => rcAxis d n s
  else s

def execRcTrackerUpdate (d : Nat) (s : State) : Host.Outcome State Fault Refusal := onLive d s (rcUpdate d)

/-! Measured start (R57, R474, R475) -/

/-- Code-flash offset of the firmware image (R463). -/
def fwofs (s : State) (d : Nat) : Nat := s.opt d 0x14 4

/-- The firmware image, if it is valid: its bytes and entry offset (R474). -/
def fwImage (s : State) (d : Nat) : Option (List Byte × Nat) :=
  let o := fwofs s d
  let le := fun k n => s.flashLe d 0 (o + k) n
  let len := le 8 4
  let ent := le 12 4
  if le 0 4 ≠ 0x4D524946 ∨ le 4 2 ≠ 1 ∨ le 6 2 ≠ 0 ∨ len < 64 ∨ 8388608 < len ∨ len % 16 ≠ 0 ∨ ent % 2 ≠ 0 ∨ len ≤ ent then none
  else if 16777216 < o + len ∨ o / 8388608 ≠ (o + len - 1) / 8388608 then none
  else if (List.range 256).any fun k => decide (k * 65536 < o + len ∧ o < (k + 1) * 65536) && sectorInt s d 0 k then none
  else
    let bs := flashBytes s d 0 o len
    if ((bs.drop 20).take 44).any fun b => b != 0 then none
    else if le 16 4 = crc32c (bs.take 16 ++ [0, 0, 0, 0] ++ bs.drop 20) then some (bs, ent) else none

/-- The entries in a list of words, each with its own words, at most `k` of them (R364). -/
def rawEnts : Nat → List Nat → List (List Nat)
  | 0, _ => []
  | _ + 1, [] => []
  | k + 1, w :: ws =>
    let n := match bitsOf w 28 4 with
      | 0 => 0
      | 1 => 2
      | 3 => 2 + (ws.headD 0) % 1024
      | _ => 3
    if n = 0 then [] else ((w :: ws).take n) :: rawEnts k ((w :: ws).drop n)

/-- The bytes of the register entries of the base image whose target lies, or does not lie, in law program memory (R475). -/
def entBytes (s : State) (d : Nat) (h : ImageHead) (law : Bool) : List Byte :=
  ((rawEnts h.entL (imageWords s d h.entO (h.entL / 4))).filter fun e => inProg (e.headD 0 % 2 ^ 28 % dieSpan) == law).flatMap fun e =>
    e.flatMap fun w => leBytes w 4

/-- The items measured, in the order of the slots (R475): none where an item cannot be read. -/
def measuredItems (s : State) (d : Nat) : List (Option (List Byte)) :=
  let o := s.optBase d
  let cut := fun a k => flashBytes s d 0 (biofs s d + a) k
  let img := imageHead s d
  [ some (flashBytes s d 2 o 0x30 ++ List.replicate 16 0 ++ flashBytes s d 2 (o + 0x40) 0x7C0),
    (fwImage s d).map fun x => x.1,
    img.map fun h => cut 0 h.hdr ++ entBytes s d h false ++ cut h.modO h.modL,
    img.map fun h => entBytes s d h true,
    img.map fun h => cut h.libO h.libL,
    some (flashBytes s d 3 0 2048) ]

/-- The slots and their VALID bits; slots 6 and 7 start as 48 bytes of 0. -/
def measure (d : Nat) (s : State) : State :=
  let items := measuredItems s d
  let s := s.forEach (List.range 6) fun k s =>
    match (items.getD k none) with
    | some bs => (s.wr d MSR_SLOT.DIGEST (leNum (sha384 bs)) k).wrBit d MSR_VALID.VALID k true
    | none => (s.wr d MSR_SLOT.DIGEST 0 k).wrBit d MSR_VALID.VALID k false
  (((s.wr d MSR_SLOT.DIGEST 0 6).wr d MSR_SLOT.DIGEST 0 7).wrBit d MSR_VALID.VALID 6 true).wrBit d MSR_VALID.VALID 7 true

/-- The harts start at the entry point, or wait in the boot ROM with fw-invalid (R326, R474). -/
def hartsStart (d : Nat) (s : State) : State :=
  match fwImage s d with
  | some (_, e) =>
    s.forEach [0, 1] fun h s =>
      s.modHart d h fun x => { x with run := true, wait := false, user := false, pc := 0x11000000 + fwofs s d + e }
  | none => (s.forEach [0, 1] fun h s => s.modHart d h fun x => { x with run := true, wait := true, user := false }).raise d 552 3 0

/-- Measured start completes: slots, harts, phase 4 if the 2.0 ms step is past; mates whose base images differ both raise cfg-image
(R57, R362). A colophon that waits is signed now (R479). -/
def measuredStart (d : Nat) (s : State) : State :=
  let x := s.getDie d
  if !x.trained || x.measured then s
  else
    let s := (measure d s).modDie d fun x => { x with measured := true }
    let s := hartsStart d (s.wr d MSR_VALID.DONE 1)
    let s := if s.rd d GLB_PHASE.PHASE = 3 then s.wr d GLB_PHASE.PHASE 4 else s
    let s := if !s.divided d && imagesDiffer s d then (s.raise d 482 3 0).raise (mateOf d) 482 3 0 else s
    signKick d s

def execMeasuredStartComplete (d : Nat) (s : State) : Host.Outcome State Fault Refusal := onLive d s (measuredStart d)

/-! Entries written by the CFG unit (R361, R369) -/

/-- The word that an entry's target holds, without the effects of a read. -/
def peekWord (s : State) (d o : Nat) : Nat :=
  if inProg o then (s.getPm d ((o - progBase) / 4)).toNat else (s.reg (d * dieSpan + o)).toNat

/-- The CFG unit of die `d` writes `v` at window offset `o`: each mate writes its own copy of a per-axis target, and any other register
takes an ordinary write. The spec gives the unit no master code: it is free. -/
def cfgWord (d o : Nat) (v : Word) (s : State) : State :=
  let m := s.free % 16
  let s := s.drew
  if inProg o then
    let k := (o - progBase) / 4 % 32
    if s.bit d LAW_CTRL.RUN (progAxis s d (o - progBase)) && (k < 4 || (20 ≤ k && k < 27)) then
      (s.accessFault d m true 2 5 (d * dieSpan + o)).raise d 432 3 (progAxis s d (o - progBase))
    else progApply (o - progBase) v 0 d s
  else if (axisOf s d o).isSome then
    if !s.holds d (o % 0x10000 / 0x1000) then s.accessFault d m true 2 2 (d * dieSpan + o)
    else match regAt o with
      | some (r, n, k) => wordWrite m o r n k v s.pt d s
      | none => s
  else winWrite m d o v s

/-- The word that an entry writes to a target that holds `old` (R364). -/
def entWord (e : CfgEnt) (old : Nat) : Word :=
  if e.ty = 1 then BitVec.ofNat 32 e.a
  else (BitVec.ofNat 32 old &&& ~~~(BitVec.ofNat 32 e.a)) ||| (BitVec.ofNat 32 e.b &&& BitVec.ofNat 32 e.a)

/-- The slots of a FILSYNC restart now with their pending values (R182, R364). -/
def filsync (d mask : Nat) (s : State) : State :=
  s.forEach (List.range 64) fun c s =>
    if bitOf mask c then filTake d c true s else s

/-- Die `d` applies one entry that it holds. -/
def cfgEntry (d : Nat) (e : CfgEnt) (s : State) : State :=
  let o := e.tgt % dieSpan
  if e.ty = 4 then filsync d e.a s else cfgWord d o (entWord e (peekWord s d o)) s

/-! The base image (R361) -/

/-- The target of a register entry of the base image is word-aligned, and that of a FILSYNC the base of a FIL block (R361, R364). -/
def imageTargetOk (e : CfgEnt) : Bool := if e.ty = 4 then e.tgt % dieSpan == 0xA0000 else e.tgt % 4 == 0

/-- The checked contents of the base image: the register entries that die `d` holds, then those of the initial mode's folios. -/
def imageEnts (s : State) (d : Nat) : Option (List CfgEnt × Nat) :=
  match imageHead s d with
  | none => none
  | some h =>
    match parseEnts (h.entL / 4) (imageWords s d h.entO (h.entL / 4)) with
    | none => none
    | some es =>
      let f := modeFolios s d h.init
      match (readMode d f 0 false s).1 with
      | .ok fs => if es.all imageTargetOk then some (heldEnts s d es ++ fs, f) else none
      | .error _ => none

/-- In phase 4 the base image is applied and completion reported for E0; the programmed safe states and the keepers are in force from
then on (R53, R271); one that fails its checks leaves the die in phase 4 with
cfg-image. -/
def baseImageApply (d : Nat) (s : State) : State :=
  let x := s.getDie d
  if s.rd d GLB_PHASE.PHASE ≠ 4 ∨ x.imageDone ∨ x.imageBad then s
  else match imageEnts s d with
    | none => (s.modDie d fun x => { x with imageBad := true }).raise d 482 3 0
    | some (es, f) =>
      let s := es.foldl (fun s e => cfgEntry d e s) s
      let s := ((s.holdBalls (d / 2)).wr d CFG_CUR.F f).modDie d fun x => { x with imageDone := true, safeProg := true }
      let s := s.forEach (List.range 8) fun n s => if s.bit d PWM_CTRL.SAFE n then s.takeSafe d n else s
      s.refreshDie d

def execBaseImageApply (d : Nat) (s : State) : Host.Outcome State Fault Refusal := onLive d s (baseImageApply d)

/-! Full service (R62, R76, R85, R337, R361) -/

/-- The dies that wait for E0 (R18, R361). -/
def waitE0 (s : State) : List Nat :=
  s.liveDies.filter fun d => s.rd d GLB_PHASE.PHASE == 4 && (s.getDie d).imageDone && !(s.getDie d).optMismatch

/-- The full tracker of axis `n` is preset from the reading copy, its angle carried on to this tick (R62). -/
def trkPreset (d n : Nat) (s : State) : State :=
  let x := s.getEnc d n
  let th := x.rcTh + rheQ (advance x.rcW ((s.pt : Int) - s.rd d TRK_STAMP.PT n))
  let s := s.modTrk d n fun t => { t with th := sgn 56 (enc 56 th), w := x.rcW, a := 0, af := 0, win := [], lockRun := 0, ovsRun := 0, perAt := s.pt }
  let p := correction d n (s.getTrk d n).th 0 ((s.wr d TRK_STAT.LOCK 0 n).wr d TRK_STAT.ANGVALID 0 n)
  trkPublish d n p.1 p.2

/-- The full tracker of axis `n` enters the acquisition (R62, R109). -/
def trkAcquire (d n : Nat) (s : State) : State :=
  let s := ((s.wr d TRK_STAT.ANGVALID 0 n).wr d TRK_STAT.LOCK 0 n).wr d TRK_STAT.ACQ 1 n
  let s := (s.wr d TRK_STAT.COASTING 0 n).wr d TRK_STAT.HOLD 0 n
  s.modTrk d n fun t => { t with reacq := true, good := 0, lockRun := 0, perAt := s.pt }

/-- The full tracker of axis `n` takes its settings, with its sectors at 0 (R99), and goes on from a valid angle of the reading copy, or
acquires (R62, R109). -/
def trkHandOver (d n : Nat) (s : State) : State :=
  let s := sectorClear d n (trkCtrlTake d n (s.reg (TRK_CTRL.TYPE.addr d n 0)).toNat s)
  if s.bitAt d GLB_PHASE.RCVALID n then trkPreset d n s else trkAcquire d n s

/-- The excitation chain goes on as it runs, and takes its registers at the first apply boundary; the pilot acquires (R76, R85). -/
def excHandOver (d n : Nat) (s : State) : State :=
  let b := some ((s.pt + 24999) / 25000 * 25000)
  let f := clampFinc (s.opt d 0x1C 4)
  let s := s.modExc d n fun x =>
    { x with runs := true, en := true, drive := true, group := none, finc := f, amp := 16384, ampFrom := 16384, ampK := 1000,
             pendCtrl := b, pendFinc := b, pendAmp := b }
  pilotAcquire d n false s

/-- The emulator is rebased onto the full tracker, or takes the mode of its register (R62, R150, R152). -/
def emuHandOver (d n : Nat) (s : State) : State :=
  match s.emuMode d n with
  | 1 =>
    let x := s.getEnc d n
    let (a, b) := emuLevels x.e false
    emuRebaseFrom d n (if x.rcWas then quadState a b (s.bit d EMU_CTRL.INV n) else 0)
      (s.wr d EMU_STAT.HOLDING (b2n (emuHeld s d n)) n)
  | m => emuShow d n ((s.modEnc d n fun x => { x with mode := m }).wr d EMU_STAT.PASS (if m = 2 then 1 else 0) n)

/-- Every axis of die `d` is handed to the full signal chain at E0. -/
def dieHandOver (d : Nat) (s : State) : State :=
  let s := ((s.holdBalls (d / 2)).wr d GLB_PHASE.PHASE 5).wr d GLB_PHASE.FULL 0xFF
  let s := s.modPair d fun p => { p with fullAt := some s.pt, base := s.ptD d }
  let s := s.forEach (List.range 8) fun n s => emuHandOver d n (trkHandOver d n (excHandOver d n s))
  s.refreshDie d

/-- The role a die takes as it enters full service, `w` the dies that enter with it (R335, R337, R338). -/
def firstRole (w : List Nat) (d : Nat) (s : State) : State :=
  let m := mateOf d
  let r := s.rd m PAIR_STAT.ROLE
  if s.divided d then setRole d 5 s
  else if s.bit d PAIR_STAT.SEIZED then setRole d 3 s
  else if d % 2 = 1 ∧ w.elem m then
    (setRole d 2 (s.modPair d fun p => { p with shadowAt := s.pt })).wr d PAIR_STAT.RESYNC 3
  else if (r = 1 ∨ r = 4) ∧ (s.bit d PAIR_STAT.PATHA || s.bit d PAIR_STAT.PATHB) then setRole d 2 s
  else if d % 2 = 0 ∧ r ≠ 1 ∧ r ≠ 4 then setRole d 1 s
  else s.modPair d fun p => { p with startAt := some s.pt }

/-- E0 (R361): announced at least 2 µs ahead once every die has finished, dies that have not being awaited until 150 ms after power-good, those of a site whose options differ not at all (R18);
every die that waits enters phase 5. -/
def fullServiceEntry (s : State) : State :=
  let w := waitE0 s
  if w = [] ∨ s.master.isNone then s
  else
    let done := (List.range s.dies).all fun d => w.elem d || 5 ≤ s.rd d GLB_PHASE.PHASE || (s.getDie d).optMismatch
    let late := (w.map fun d => (s.getDie d).upAt).foldl max 0 + 375000000
    let s := if done then s else s.pass (late - s.now)
    let s := s.pass 5000
    let s := s.forEach w dieHandOver
    s.forEach w (firstRole w)

def execFullServiceEntry (s : State) : Host.Outcome State Fault Refusal := onPackage s fullServiceEntry

end Sys2Proof.Machine
end

