-- ==== Sys2Proof/Machine/Epoch.lean ====
section
/-!
DEFINITION. The application and reversion of an epoch, within the package and over the fabric (R368 to R376, R420).
-/

namespace Sys2Proof.Machine

/-! Entries and their undo records (R369, R373) -/

/-- Sources by which a register says that it refuses a write, or that the write did not take place (R369). -/
def refusalSrcs : List Nat := [304, 306, 368, 401, 432, 448, 592]

/-- The write of `s` to `t` on die `d` was refused: its register has reported it. -/
def refusedBy (d : Nat) (s t : State) : Bool :=
  ((t.inbox.get d []).drop (s.inbox.get d []).length).any fun m => refusalSrcs.elem m.src

/-- A word of an epoch is written at window offset `o`; one that its register refuses is counted and raises cfg-refused (R369). -/
def epochWord (d o : Nat) (v : Word) (s : State) : Bool × State :=
  let t := cfgWord d o v s
  if refusedBy d s t then (true, (t.addSat d CFG_APPLY.REFUSED 1).raise d 483 3 o) else (false, t)

/-- Die `d` applies one entry, its previous value going to the undo record where anything is written (R369). -/
def epochEntry (d : Nat) (e : CfgEnt) (s : State) : State :=
  if e.ty = 4 then (filsync d e.a s).modEpo d fun x => { x with fil := Nat.lor x.fil e.a }
  else
    let o := e.tgt % dieSpan
    let old := peekWord s d o
    let v := entWord e old
    let r := epochWord d o v s
    if r.1 && peekWord r.2 d o == old then r.2
    else r.2.modEpo d fun x => { x with undo := { tgt := o, old := old, new := v.toNat, ax := e.ax, law := e.law } :: x.undo }

/-- The entries of an epoch for one axis, or the die-common ones, of LAW registers and program memory or of the rest (R368). -/
def epochPart (s : State) (d : Nat) (ax : Option Nat) (law : Bool) : List CfgEnt :=
  (s.getEpo d).ents.filter fun e => e.ax == ax && e.law == law

/-- Die `d` applies those entries in order. -/
def applyPart (d : Nat) (ax : Option Nat) (law : Bool) (s : State) : State :=
  (epochPart s d ax law).foldl (fun s e => epochEntry d e s) s

/-- The word that a reversion writes: the recorded value, ws and wo fields as the entry wrote them, and for LAW_BANK a request for the
bank recorded with the FADE of the entry (R373). -/
def undoWord (u : CfgUndo) : Word :=
  if inProg u.tgt then BitVec.ofNat 32 u.old
  else match regAt u.tgt with
    | none => BitVec.ofNat 32 u.old
    | some (r, _, k) =>
      if r.off = LAW_BANK.ACT.off then BitVec.ofNat 32 (u.old % 2 * 256 + 512 + u.new / 65536 * 65536)
      else
        let act := BitVec.ofNat 32 (r.act.getD k 0)
        (BitVec.ofNat 32 u.old &&& ~~~act) ||| (BitVec.ofNat 32 u.new &&& act)

/-- Die `d` writes back the recorded values of a part, newest first, and forgets them (R373). -/
def revertPart (d : Nat) (ax : Option Nat) (law : Bool) (s : State) : State :=
  let mine := fun u : CfgUndo => u.ax == ax && u.law == law
  let s := ((s.getEpo d).undo.filter mine).foldl (fun s u => (epochWord d u.tgt (undoWord u) s).2) s
  s.modEpo d fun x => { x with undo := x.undo.filter fun u => !mine u }

/-! The course of an epoch (R368, R370, R372, R376) -/

/-- The axes of die `d`. -/
def heldAxes (s : State) (d : Nat) : List Nat := (List.range 8).filter fun n => s.holds d n

/-- Die `e` takes part in epoch `r`. -/
def holdsEpoch (s : State) (r : EpoRec) (e : Nat) : Bool :=
  match (s.getEpo e).ep with | some q => q.id == r.id && q.org == r.org | none => false

/-- The dies that hold epoch `r`. -/
def epochDies (s : State) (r : EpoRec) : List Nat := s.liveDies.filter (holdsEpoch s r)

/-- Everything of the epoch has been applied on die `e`. -/
def allApplied (s : State) (e : Nat) : Bool :=
  let x := s.getEpo e
  s.rd e CFG_STAT.STATE == 4 && x.dieDone && x.lawAt == []

/-- The epoch closes once its master has checked and every die has applied all of it (R372). -/
def tryClose (r : EpoRec) (s : State) : State :=
  let l := epochDies s r
  if l.any (fun e => (s.getEpo e).checked) && l.all (fun e => allApplied s e && (s.getEpo e).tr.isNone) then
    s.forEach l epochClose
  else s

/-- Axis `n` of die `d` has applied (R369): with the last one the mode is in force. -/
def axisApplied (d n : Nat) (s : State) : State :=
  let s := s.wrBit d CFG_APPLY.AXDONE n true
  let done := (heldAxes s d).all fun k => bitOf (s.rd d CFG_APPLY.AXDONE) k
  match (s.getEpo d).ep with
  | some r =>
    if done && s.rd d CFG_STAT.STATE == 3 then
      tryClose r (((s.wr d CFG_CUR.F r.folios).wr d CFG_STAT.STATE 4).raise d 484 3 r.id)
    else s
  | none => s

/-- The axis or the die has reverted; with the last part the die goes idle with the mode before (R372, R373). -/
def partReverted (d part : Nat) (s : State) : State :=
  let s := s.modEpo d fun x => { x with rev := putBit x.rev part true }
  let s := if part < 8 then s.wrBit d CFG_APPLY.AXDONE part true else s
  if ((heldAxes s d) ++ [8]).all fun k => bitOf (s.getEpo d).rev k then epochClose d (s.wr d CFG_CUR.F (s.getEpo d).prev) else s

/-- The program of axis `n` runs, or a start awaits its release (R368). -/
def lawBusy (s : State) (d n : Nat) : Bool := s.bit d LAW_AXSTAT.RUNNING n || s.bit d LAW_AXSTAT.PEND n

/-- The LAW and program-memory part of axis `n` is applied or reverted now (R368, R373). -/
def epochLaw (d n : Nat) (s : State) : State :=
  let s := s.modEpo d fun x => { x with lawAt := x.lawAt.filter fun p => p.1 != n }
  if s.rd d CFG_STAT.STATE = 5 then partReverted d n (revertPart d (some n) true s) else axisApplied d n (applyPart d (some n) true s)

/-- The LAW part of axis `n` waits for a run, or is done at once where there is none or nothing to do; `some` law entries exist. -/
def epochLawWait (d n : Nat) (any : Bool) (s : State) : State :=
  if any && lawBusy s d n then s.modEpo d fun x => { x with lawAt := x.lawAt ++ [(n, s.pt)] } else epochLaw d n s

/-- Time passes to the first axis boundary at or after PT tick `t` (R368): a period start, or a convert strobe with EN = 0. -/
def toAxisBoundary (d n t : Nat) (s : State) : State :=
  let s := s.passTo t
  if s.bit d PWM_CTRL.EN n then s.pass (s.toStart d n s.pt) else s.toGrid 250

/-- The epoch master has checked the epoch that die `d` holds (R372). -/
def epochChecked (s : State) (d : Nat) : Bool :=
  match (s.getEpo d).ep with
  | some r => (epochDies s r).any fun e => (s.getEpo e).checked
  | none => false

/-- Die `d` has staged the epoch it holds, and neither reversion nor discard has been decided or has come due at PT tick `t`; a die that
was late at T + SKEW waits for the check (R371, R372). -/
def mayApply (s : State) (d : Nat) (t : Nat) : Bool :=
  let x := s.getEpo d
  let st := s.rd d CFG_STAT.STATE
  x.ep.isSome && (st == 3 || st == 4) && !x.drop && (bitOf x.seen d || epochChecked s d) && (match x.tr with | some tr => decide (t < tr) | none => true)

/-- Die `d` need not wait for its mate (R370): divided mode, a mate that takes no part, is not ready or cannot be heard, or one that
has reported staged. -/
def mateStaged (s : State) (d : Nat) (r : EpoRec) : Bool :=
  let m := mateOf d
  s.divided d || !bitOf r.dies m || !s.bridgeUp d ||
    !(s.bit d PAIR_STAT.READY || s.bit m PAIR_STAT.READY) || bitOf (s.getEpo d).seen m

/-- The die boundary: the die-common and FILSYNC entries are applied at the first strobe at or after T (R368). -/
def dieBoundary (d : Nat) (s : State) : State :=
  match (s.getEpo d).ep with
  | none => s
  | some r =>
    let t := (s.passTo r.t).toGrid 250
    if !mayApply s d t.pt || (s.getEpo d).dieDone then s
    else tryClose r ((applyPart d none false t).modEpo d fun x => { x with dieDone := true })

def execEpochDieBoundary (d : Nat) (s : State) : Host.Outcome State Fault Refusal := onLive d s (dieBoundary d)

/-- The boundary of axis `n`: its per-axis entries are applied; those of LAW registers and program memory wait for the first run
released at or after it (R368 to R370). An axis whose program has stopped since its boundary no longer waits. -/
def axisBoundary (d n : Nat) (s : State) : State :=
  match (s.getEpo d).ep with
  | none => s
  | some r =>
    if (s.getEpo d).lawAt.any (fun p => p.1 == n) then if lawBusy s d n then s else epochLaw d n s
    else
      let t := toAxisBoundary d n r.t s
      if !s.holds d n || !mayApply s d t.pt || bitOf (s.rd d CFG_APPLY.AXDONE) n || !mateStaged s d r then s
      else epochLawWait d n (epochPart s d (some n) true != []) (applyPart d (some n) false t)

def execEpochAxisBoundary (d n : Nat) (s : State) : Host.Outcome State Fault Refusal := onAxis d n s (axisBoundary d n)

/-! Outcomes (R371 to R373, R375, R420) -/

/-- Every die that holds the epoch learns that it reverts at `tr`: one that has applied, or may have, reverts; one still staging
discards its staging when that completes, and one that has failed, or whose staging came too late, at once. -/
def revertDies (r : EpoRec) (late tr : Nat) (s : State) : State :=
  s.forEach (epochDies s r) fun e s =>
    let s := s.modEpo e fun x => { x with checked := true }
    if (s.getEpo e).tr.isSome then s
    else match s.rd e CFG_STAT.STATE with
      | 1 => s.modEpo e fun x => { x with drop := true }
      | 6 => epochClose e s
      | _ =>
        let x := s.getEpo e
        if bitOf late e && !x.dieDone && x.undo == [] && s.rd e CFG_APPLY.AXDONE == 0 then epochClose e s
        else s.modEpo e fun x => { x with tr := some tr }

/-- An outcome of epoch `r` travels from die `d` (R420): from the origin to every package it sent the COMMIT, from any other package
to the origin. -/
def sendOutcome (d sub act tr : Nat) (r : EpoRec) (s : State) : State :=
  match r.org with
  | some o => epochSend d [o] (epochPayload sub act r.id o r.t r.folios tr) s
  | none => if r.fabric then epochSend d s.epoSent (epochPayload sub act r.id (s.ownId d) r.t r.folios tr) s else s

/-- The present dies of the epoch that have not reported staged to die `d`, as a mask (R372). -/
def lateDies (s : State) (d dies : Nat) : Nat :=
  (List.range s.dies).foldl (fun a e => if bitOf dies e && !bitOf (s.getEpo d).seen e then a + 2 ^ e else a) 0

/-- A late die (R371, R372): it shows LATE and, running, raises epoch-skew on itself; under SKEWACT = 1 a ready standby whose mate
applies alone becomes not ready (R370). -/
def lateDie (m act addr e : Nat) (s : State) : State :=
  if (s.getDie e).inReset then s
  else
    let s := s.wr e CFG_STAT.LATE 1
    let s := if e = m then s else s.raise e 480 3 addr
    if act = 1 && !s.divided e && s.rd e PAIR_STAT.ROLE == 2 && s.bit e PAIR_STAT.READY then unready e s else s

/-- At T + SKEW the epoch master `d` checks staging (R372); a package that has refused is late (R420). -/
def skewCheck (d : Nat) (s : State) : State :=
  match (s.getEpo d).ep with
  | none => s
  | some r =>
    if epochMaster s d r.dies ≠ some d ∨ (s.getEpo d).checked then s
    else
      let skew := clampN 1 10000 (s.rd d CFG_SKEW.SKEW)
      let s := (s.passTo (r.t + skew * 2500)).modEpo d fun x => { x with checked := true }
      let late := lateDies s d r.dies
      if late = 0 ∧ !(s.getEpo d).refd then tryClose r s
      else
        let low := ((List.range 8).find? fun e => bitOf late e).getD 0
        let addr := low + 256 * late
        let act := s.rd d CFG_CTRL.SKEWACT
        let s := s.raise d 480 3 addr
        let s := s.forEach ((List.range s.dies).filter fun e => bitOf late e) (lateDie d act addr)
        if act = 1 then tryClose r (sendOutcome d 3 1 0 r s)
        else
          let tr := r.t + (skew + max 10 (s.rd d CFG_SKEW.REVLEAD)) * 2500
          revertDies r late tr (sendOutcome d 2 0 tr r s)

def execEpochSkewCheck (d : Nat) (s : State) : Host.Outcome State Fault Refusal := onLive d s (skewCheck d)

/-- The first reversion of die `d`: state Reverting, AXDONE counting from there (R376). LAW parts that still waited to be applied are
dropped. -/
def revertStart (d : Nat) (s : State) : State :=
  if s.rd d CFG_STAT.STATE = 5 then s
  else ((s.wr d CFG_STAT.STATE 5).wr d CFG_APPLY.AXDONE 0).modEpo d fun x => { x with lawAt := [], rev := 0 }

/-- Die `d` reverts part `part`, an axis 0 to 7 or 8 for the die-common entries, at its first boundary at or after Tr (R373). -/
def epochRevert (d part : Nat) (s : State) : State :=
  let x := s.getEpo d
  match x.tr with
  | none => s
  | some tr =>
    if part < 8 && x.lawAt.any (fun p => p.1 == part) && s.rd d CFG_STAT.STATE == 5 then
      if lawBusy s d part then s else epochLaw d part s
    else if bitOf x.rev part || (part < 8 && !s.holds d part) then s
    else if part = 8 then
      let s := revertStart d ((s.passTo tr).toGrid 250)
      partReverted d 8 (filsync d x.fil (revertPart d none false s))
    else
      let s := revertStart d (toAxisBoundary d part tr s)
      let any := (s.getEpo d).undo.any fun u => u.ax == some part && u.law
      epochLawWait d part any (revertPart d (some part) false s)

def execEpochRevert (d part : Nat) (s : State) : Host.Outcome State Fault Refusal :=
  onItem (s.hasDie d && part < 9) s fun s => if (s.getDie d).inReset then s else epochRevert d part s

/-! Frames received (R375, R420) -/

/-- The EPOCH frame with sub-operation `sub` that waits at die `d`, its payload and source taken. -/
def takeEpoch (d sub : Nat) (s : State) : Option (List Byte × Nat) × State :=
  let r := takeRx d (fun f => fClass f == 4 && fByte (fPayload f) 0 == sub) s
  (r.1.map fun x => (fPayload x.bytes, fSrc x.bytes % 4096), r.2)

/-- The first die that holds the epoch a payload names, with its record, seen from die `d`: an origin's own epochs name no origin. -/
def findEpoch (s : State) (d : Nat) (p : List Byte) : Option EpoRec :=
  let org := fNum p 4 2 % 4096
  (s.liveDies.filterMap fun e => (s.getEpo e).ep).find? fun r =>
    r.id == fNum p 2 2 && (match r.org with | some o => o == org | none => org == s.ownId d)

/-- Die `e` takes up an epoch of the fabric: staged with its folio numbers, or staging from now on (R375). -/
def fabricStage (folios e : Nat) (s : State) : State :=
  if s.rd e CFG_STAT.STATE = 2 ∧ s.rd e CFG_MSET.F = folios then s else stageMode e (s.wr e CFG_MSET.F folios)

/-- A COMMIT arrives (R420): once for each origin and ID, it commits on all dies, or is refused where a die's state is neither idle nor
staged. One that arrives after T + SKEW finds every die late (R371). -/
def commitReceive (d : Nat) (s : State) : State :=
  let (x, s) := takeEpoch d 1 s
  match x with
  | none => s
  | some (p, _) =>
    let id := fNum p 2 2
    let org := fNum p 4 2 % 4096
    let t := fNum p 8 8
    let fol := fNum p 16 8
    if s.epoSeen.elem (org, id) then s
    else
      let s := { s with epoSeen := (org, id) :: s.epoSeen }
      let l := s.dieSet d
      if l.any fun e => s.rd e CFG_STAT.STATE != 0 && s.rd e CFG_STAT.STATE != 2 then
        (epochSend d [org] (epochPayload 4 0 id org t fol 0) s).raise d 520 3 org
      else
        let s := s.forEach l (fabricStage fol)
        let s := s.forEach l (commitDie · { t := t, id := id, dies := 0xFF, folios := fol, org := some org })
        if t + clampN 1 10000 (s.rd d CFG_SKEW.SKEW) * 2500 < s.pt then s.forEach l fun e s => s.modEpo e fun x => { x with seen := 0 }
        else s

def execEpochCommitReceive (d : Nat) (s : State) : Host.Outcome State Fault Refusal := onLive d s (commitReceive d)

/-- The origin of an epoch relays an outcome to every package it sent the COMMIT (R420). -/
def relayOutcome (d : Nat) (p : List Byte) (s : State) : State := if fNum p 4 2 % 4096 = s.ownId d then epochSend d s.epoSent p s else s

/-- A REVERT arrives: the dies that hold the epoch revert at its Tr, with no second epoch-skew (R373, R375). A die whose reversion is
decided already does not relay it again. -/
def revertReceive (d : Nat) (s : State) : State :=
  let (x, s) := takeEpoch d 2 s
  match x with
  | none => s
  | some (p, _) =>
    match findEpoch s d p with
    | none => s
    | some r =>
      let known := (epochDies s r).any fun e => (s.getEpo e).tr.isSome || (s.getEpo e).drop
      revertDies r 0 (fNum p 24 8) (if known then s else relayOutcome d p s)

def execEpochRevertReceive (d : Nat) (s : State) : Host.Outcome State Fault Refusal := onLive d s (revertReceive d)

/-- An APPLY-LATE arrives: the dies that applied keep the mode, so there is nothing to undo; the origin relays it (R372, R420). -/
def applyLateReceive (d : Nat) (s : State) : State :=
  let (x, s) := takeEpoch d 3 s
  match x with
  | none => s
  | some (p, _) => relayOutcome d p s

def execEpochApplyLateReceive (d : Nat) (s : State) : Host.Outcome State Fault Refusal := onLive d s (applyLateReceive d)

/-- A REFUSE arrives at the origin, which treats the package as late (R420). -/
def refuseReceive (d : Nat) (s : State) : State :=
  let (x, s) := takeEpoch d 4 s
  match x with
  | none => s
  | some (p, _) =>
    match findEpoch s d p with
    | some r => if r.org.isNone then s.forEach (epochDies s r) fun e s => s.modEpo e fun x => { x with refd := true } else s
    | none => s

def execEpochRefuseReceive (d : Nat) (s : State) : Host.Outcome State Fault Refusal := onLive d s (refuseReceive d)

/-- An ABORT arrives: the epoch is withdrawn on every die that holds it, unless T has come (R374, R420). -/
def abortReceive (d : Nat) (s : State) : State :=
  let (x, s) := takeEpoch d 5 s
  match x with
  | none => s
  | some (p, _) => match findEpoch s d p with | some r => abortDies (epochDies s r) s | none => s

def execEpochAbortReceive (d : Nat) (s : State) : Host.Outcome State Fault Refusal := onLive d s (abortReceive d)

end Sys2Proof.Machine
end

