-- ==== Sys2Proof/Machine/Harts.lean ====
section
/-!
DEFINITION. Memory accesses of the supervisor harts: their address map, physical memory protection, the tightly-coupled SRAM with its code
and reservations, the flash windows, the die windows and DRAM (R325 to R330, R460, R469). The rules of the RISC-V specifications that the
spec takes over by name are log entry 16.
-/

namespace Sys2Proof.Machine

/-! Physical memory protection (R325) -/

/-- Trailing ones of `v`, at most `k`. -/
def trailingOnes (v : Nat) : Nat → Nat
  | 0 => 0
  | k + 1 => if v % 2 = 1 then trailingOnes (v / 2) k + 1 else 0

/-- The addresses [lo, hi) of PMP entry `k` in its mode: TOR, NA4 or NAPOT. -/
def pmpRange (s : State) (d h k : Nat) : Option (Nat × Nat) :=
  let a := csrVal s d h (0x3B0 + k)
  match bitsOf (pmpCfg s d h k) 3 2 with
  | 0 => none
  | 1 => some ((if k = 0 then 0 else csrVal s d h (0x3B0 + k - 1)) * 4, a * 4)
  | 2 => some (a * 4, a * 4 + 4)
  | _ => let t := trailingOnes a 32; some (a / 2 ^ (t + 1) * 2 ^ (t + 1) * 4, (a / 2 ^ (t + 1) + 1) * 2 ^ (t + 1) * 4)

/-- The bytes [a, b) share an address with the range. -/
def pmpMeets (r : Option (Nat × Nat)) (a b : Nat) : Bool :=
  match r with
  | some (lo, hi) => decide (lo < b) && decide (a < hi)
  | none => false

/-- The range holds all the bytes [a, b). -/
def pmpHolds (r : Option (Nat × Nat)) (a b : Nat) : Bool :=
  match r with
  | some (lo, hi) => decide (lo ≤ a) && decide (b ≤ hi)
  | none => false

/-- The access of `n` bytes at `a` passes: the lowest-numbered entry that holds any of its bytes must hold all of them and grant every
permission of `need` (bit 0 read, 1 write, 2 execute) unless the mode is machine mode and the entry is not locked; with no such entry only
machine mode passes. -/
def pmpOk (s : State) (d h : Nat) (user : Bool) (a n need : Nat) : Bool :=
  match (List.range 8).find? fun k => pmpMeets (pmpRange s d h k) a (a + n) with
  | none => !user
  | some k =>
    let c := pmpCfg s d h k
    pmpHolds (pmpRange s d h k) a (a + n) && ((!user && !bitOf c 7) || (List.range 3).all fun i => !bitOf need i || bitOf c i)

/-- The mode that an access counts for: with MPRV a load or store of machine mode takes the mode of MPP. -/
def accUser (s : State) (d h : Nat) (k : AccKind) : Bool :=
  let st := csrVal s d h 0x300
  if k = .fetch then (s.getHart d h).user
  else if !(s.getHart d h).user && bitOf st 17 then bitsOf st 11 2 == 0
  else (s.getHart d h).user

/-- The permissions an access needs. -/
def accNeed (k : AccKind) : Nat :=
  match k with
  | .fetch => 4 | .load => 1 | .lr => 1 | .store => 2 | .sc => 2 | .amo _ => 3

/-! The map (R327) -/

/-- What lies at a hart address: tightly-coupled SRAM, the boot ROM, a BAR0 address, a DRAM address, or nothing. -/
inductive HartPlace where
  | tcm
  | rom
  | bus (a : Nat)
  | dram (a : Nat)
  | nothing
  deriving DecidableEq, Repr

def hartPlace (s : State) (d h a : Nat) : HartPlace :=
  if a < 0x80000 then .tcm
  else if a < 0x90000 then .rom
  else if 0x10000000 ≤ a ∧ a < 0x12000000 then .bus (d * dieSpan + (a - 0x10000000))
  else if 0x20000000 ≤ a ∧ a < 0x30000000 then .bus (a - 0x20000000)
  else if 0x80000000 ≤ a ∧ a < 0x100000000 then .dram ((csrVal s d h 0x7C7 % 16 * 2 ^ 31 + (a - 0x80000000)) % 2 ^ 35)
  else .nothing

/-- The access-fault exception of an access: fetch 1, load and LR 5, store, SC and AMO 7. -/
def accFault (k : AccKind) : Nat :=
  match k with
  | .fetch => 1 | .load => 5 | .lr => 5 | _ => 7

/-- The access stores. -/
def accStores (k : AccKind) : Bool :=
  match k with
  | .store => true | .sc => true | .amo _ => true | _ => false

/-! Tightly-coupled SRAM (R325, R327, R329) -/

/-- The hart whose SRAM hart `h` sees at address `a` below 512 KiB. -/
def tcmOwner (h a : Nat) : Nat := if a < 0x40000 then h else 1 - h

/-- The SRAM byte that hart `h` sees at `a`, numbered owner first. -/
def tcmAt (h a : Nat) : Nat := tcmOwner h a * 0x40000 + a % 0x40000

/-- `n` bytes that hart `h` of die `d` sees at `a`. -/
def tcmBytes (s : State) (d h a n : Nat) : List Byte := (List.range n).map fun i => s.getTcm d (tcmOwner h (a + i)) ((a + i) % 0x40000)

/-- Stores bytes; a store by the other hart to the word of a reservation loses it. -/
def tcmStore (d h a : Nat) (bs : List Byte) (s : State) : State :=
  let s := s.forEach (List.range bs.length) fun i s => s.modTcm d (tcmOwner h (a + i)) ((a + i) % 0x40000) fun _ => bs.getD i 0
  match (s.getHart d (1 - h)).resv with
  | some (w, _) =>
    if (List.range bs.length).any fun i => tcmAt h (a + i) / 4 == w / 4 then s.modHart d (1 - h) fun x => { x with resv := none } else s
  | none => s

/-- The code checks the word at `a`: injection (R306), and the error found. -/
def tcmCheck (d h a ecc : Nat) (s : State) : State :=
  let k := 435 + tcmOwner h a
  let s := s.inject d 2 k 5 (a % 0x40000)
  if ecc = 1 then s.raise d k 4 (a % 0x40000) else if ecc = 2 then s.raise d k 5 (a % 0x40000) else s

/-! Results -/

/-- Writes integer register `r`; x0 discards it. -/
def setX (d h r : Nat) (v : Word) (s : State) : State :=
  if r % 32 = 0 then s else s.modHart d h fun x => { x with x := x.x.set (r % 32) v 0 }

/-- The result of a load of `n` bytes enters its register, sign- or zero-extended; a floating-point one enters f. -/
def loadResult (d h : Nat) (a : HartAcc) (n v : Nat) (s : State) : State :=
  let s := s.answer v
  if a.fp then fpDirty d h (s.modHart d h fun x => { x with f := x.f.set (a.rd % 32) (BitVec.ofNat 32 v) 0 })
  else setX d h a.rd (if a.signed then BitVec.ofInt 32 (sgn (8 * n) v) else BitVec.ofNat 32 v) s

/-- A fetch answers its bytes, and the hart's program counter is its address. -/
def readResult (d h : Nat) (a : HartAcc) (n v : Nat) (s : State) : State :=
  if a.kind = .fetch then (s.answer v).modHart d h fun x => { x with pc := a.addr } else loadResult d h a n v s

/-- An AMO: the new word from the old one and the operand. -/
def amoOp (op : AmoOp) (x v : Word) : Word :=
  match op with
  | .swap => v
  | .add => x + v
  | .xor => x ^^^ v
  | .and => x &&& v
  | .or => x ||| v
  | .min => if x.toInt < v.toInt then x else v
  | .max => if x.toInt < v.toInt then v else x
  | .minu => if x.toNat < v.toNat then x else v
  | .maxu => if x.toNat < v.toNat then v else x

/-! Accesses by place -/

/-- An access to tightly-coupled SRAM (R325, R328, R329). -/
def tcmAccess (d h : Nat) (a : HartAcc) (n : Nat) (s : State) : State :=
  let fault := fun s => trap d h (accFault a.kind) a.addr a.pc s
  match a.kind with
  | .store =>
    if n < 4 ∨ a.addr % 4 ≠ 0 then
      let s := tcmCheck d h a.addr a.ecc s
      if a.ecc = 2 then fault s else tcmStore d h a.addr (leBytes a.val.toNat n) s
    else tcmStore d h a.addr (leBytes a.val.toNat 4) s
  | .sc =>
    let ok := match (s.getHart d h).resv with
      | some (w, t) => w == tcmAt h a.addr && decide (s.now < t + 512)
      | none => false
    let s := s.modHart d h fun x => { x with resv := none }
    if ok then setX d h a.rd 0 (tcmStore d h a.addr (leBytes a.val.toNat 4) s) else setX d h a.rd 1 s
  | .amo op =>
    let s := tcmCheck d h a.addr a.ecc s
    if a.ecc = 2 then fault s
    else
      let old : Word := BitVec.ofNat 32 (leNum (tcmBytes s d h a.addr 4))
      setX d h a.rd old (tcmStore d h a.addr (leBytes (amoOp op old a.val).toNat 4) s)
  | .lr =>
    let s := tcmCheck d h a.addr a.ecc s
    if a.ecc = 2 then fault s
    else
      let s := s.modHart d h fun x => { x with resv := some (tcmAt h a.addr, s.now) }
      loadResult d h { a with fp := false } 4 (leNum (tcmBytes s d h a.addr 4)) s
  | _ =>
    let s := tcmCheck d h a.addr a.ecc s
    if a.ecc = 2 then fault s else readResult d h a n (leNum (tcmBytes s d h a.addr n)) s

/-- A fetch or load of `n` bytes at offset `o` of the code flash of die `e` (R330, R460, R469). -/
def hartFlash (d h e : Nat) (a : HartAcc) (n o : Nat) (s : State) : State :=
  if sectorInt s e 0 (o / sectorSize 0) || (flashBusy s e 0 o && !a.hit) then trap d h (accFault a.kind) a.addr a.pc s
  else if a.hit then readResult d h a n (s.flashLe e 0 o n) s
  else let r := flashRead e 0 o n a.ecc s; readResult d h a n r.1 r.2

/-- An access in the die window or the package view at BAR0 address `b` (R328): without an exception, but for the flash read window,
stores to which fault, and busy or interrupted sectors. -/
def winAccess (d h b : Nat) (a : HartAcc) (n : Nat) (s : State) : State :=
  let e := b / dieSpan
  let o := b % dieSpan
  let code := 0x1000000 ≤ o && (busFault s d (b / 4 * 4) 4).isNone
  let shut := match flashAt s e o with
    | some (ar, k) => n == 4 && (busFault s d b 4).isNone && (flashBusy s e ar k || (ar < 3 && sectorInt s e ar (k / sectorSize ar)))
    | none => false
  match a.kind with
  | .store => if code then trap d h 7 a.addr a.pc s else busWrite d (2 + h) b n a.val s
  | _ =>
    if code then hartFlash d h e a n (o - 0x1000000) s
    else if shut then trap d h (accFault a.kind) a.addr a.pc s
    else
      let s := busRead d (2 + h) b n a.ecc s
      readResult d h a n s.readData s

/-- A DRAM access (R328, R428). -/
def dramHart (d h x : Nat) (a : HartAcc) (n : Nat) (s : State) : State :=
  match s.dramSrv with
  | none => trap d h (accFault a.kind) a.addr a.pc s
  | some c =>
    let bad := a.ecc == 2 || (a.ecc == 3 && !s.bit c MEM_STAT.MSYNC)
    match a.kind with
    | .store => dramAccess x n true (leBytes a.val.toNat n) a.ecc s
    | _ =>
      let s := dramAccess x n false [] a.ecc s
      if bad then trap d h (accFault a.kind) a.addr a.pc s else readResult d h a n s.readData s

/-- LR, SC and AMO reach tightly-coupled SRAM alone (R325). -/
def accAtomic (k : AccKind) : Bool :=
  match k with
  | .lr => true | .sc => true | .amo _ => true | _ => false

/-- The access is a floating-point load or store. -/
def accFp (a : HartAcc) : Bool :=
  a.fp && (match a.kind with | .load => true | .store => true | _ => false)

/-- A memory access of hart `h` of die `d` (R325, R328): served, or an exception; a floating-point one with the unit off is an illegal
instruction, and what mtval holds then is free (log entry 16). -/
def hartAccess (d h : Nat) (a : HartAcc) (s : State) : State :=
  let n := if accAtomic a.kind then 4 else a.size
  let fault := fun c => trap d h c a.addr (if a.kind = .fetch then a.addr else a.pc) s
  let a := if a.kind = .fetch then { a with pc := a.addr } else a
  let user := accUser s d h a.kind
  if accFp a && fpOff s d h then trap d h 2 (s.free % 2 ^ 32) a.pc s.drew
  else if accAtomic a.kind ∧ a.addr % 4 ≠ 0 then fault (if a.kind = .lr then 4 else 6)
  else if !pmpOk s d h user a.addr n (accNeed a.kind) then fault (accFault a.kind)
  else match hartPlace s d h a.addr with
    | .tcm => if a.addr + n ≤ 0x80000 then tcmAccess d h a n s else fault (accFault a.kind)
    | .nothing => fault (accFault a.kind)
    | .rom =>
      if accStores a.kind || accAtomic a.kind || user then fault (accFault a.kind)
      else readResult d h a n (s.free % 2 ^ (8 * n)) s.drew
    | .bus b => if accAtomic a.kind then fault (accFault a.kind) else winAccess d h b a n s
    | .dram x => if accAtomic a.kind then fault (accFault a.kind) else dramHart d h x a n s

/-- The access has a size of 1, 2 or 4 bytes and an address of 32 bits. -/
def execHartMemoryAccess (d h : Nat) (a : HartAcc) (s : State) : Host.Outcome State Fault Refusal :=
  onItem (s.hasDie d && h < 2 && [1, 2, 4].elem a.size && a.addr < 2 ^ 32) s fun s =>
    if s.hartRuns d h then hartAccess d h a s else s

end Sys2Proof.Machine
end

