-- ==== Sys2Proof/Machine/LawRun.lean ====
section
/-!
DEFINITION. Runs of the law engine: which run starts, what it evaluates, the checkpoints, and the work at its end (R203, R210, R212,
R217 to R222, R314 to R321, R331, R508).
-/

namespace Sys2Proof.Machine

/-! Which run starts (R210) -/

/-- The waiting runs of die `d` on stream `q`: release tick and axis, the one to start first. -/
def firstWaiting (s : State) (d q : Nat) : Option (Nat × Nat) :=
  (List.range 8).foldl (fun (a : Option (Nat × Nat)) n =>
    match (s.getLaw d n).waitAt with
    | none => a
    | some t => if s.stream d n ≠ q then a else match a with
      | none => some (t, n)
      | some b => if t < b.1 then some (t, n) else a) none

/-- The axis whose run starts next: in order of release tick, the lower axis first; the streams of split mode alternate. -/
def nextRun (s : State) (d : Nat) : Option Nat :=
  let a := firstWaiting s d 0
  let b := firstWaiting s d 1
  match a, b with
  | some x, some y => some (if (s.getLawDie d).last = 0 then y.2 else x.2)
  | some x, none => some x.2
  | none, some y => some y.2
  | none, none => none

/-- A run of the die is in progress. -/
def runs (s : State) (d : Nat) : Bool := (List.range 8).any fun n => (s.getLaw d n).run.isSome

/-! Checkpoints (R316, R317, R321, R508) -/

/-- The checkpoint type of slot `i`, if it has one in this evaluation: an OUT that writes, or the learn sample of a REP. -/
def checkpoint (s : State) (d n i : Nat) : Option Nat :=
  let w2 := s.sw d n i 2
  let a := s.slotVec d n i 0
  match s.slotOp d n i with
  | 12 => if bitOf w2 8 && (bitOf a.fl 1 || bitOf a.fl 4) then none else some (w2 % 4)
  | 7 => some 3
  | _ => none

/-- The compared word of a checkpoint of type `ty` (R508): `p` is the state before the slot's evaluation, `s` the one after. -/
def checkWord (p s : State) (d n i ty : Nat) : Nat :=
  let w2 := p.sw d n i 2
  let a := p.slotVec d n i 0
  let legs := bitsOf w2 4 3
  match ty with
  | 0 =>
    let c := fun k => (p.coef d n i k).1
    (List.range 3).foldl (fun x j =>
      if bitOf legs j then x + (rheQ (clampQ 0 1 (c 0 * a.lane j + c 1) * 65536)).toNat * 2 ^ (3 + 17 * j) else x) legs
  | 1 => (List.range 4).foldl (fun x j => x + enc 16 (a.m.getD j 0) * 2 ^ (3 + 16 * j)) legs
  | 2 =>
    let v := s.slotOut d n i
    (List.range 8).foldl (fun x j => x + enc 16 (v.m.getD j 0) * 2 ^ (9 + 16 * j)) (v.m.length - 1 + enc 6 v.e * 8 + v.fl % 32 * 2 ^ 137)
  | _ =>
    let b := p.slotVec d n i 1
    let on := (p.slotIn d n i 1 == 0xFF || decide (0 < b.lane 0)) && a.data == 0
    let ex := p.rdI d TBL_DESC.EXP n (w2 % 4)
    if on then 1 + 2 * enc 16 (clampI (-32767) 32767 (rheQ (a.lane 0 * pow2 (15 - ex)))) else 0

/-- The comparison at a checkpoint: `bad` where the two runs disagree, `par` where the parity of the delay register does (R317, R321). -/
def compareAt (d n i ty : Nat) (bad par : Bool) (s : State) : State :=
  let a := n + 8 * i + 1024 * ty
  let s := s.modLawDie d fun l => { l with cps := l.cps + 1 }
  let s := (s.inject d 7 (216 + n) 6 a).inject d 6 433 5 a
  let s := s.modLaw d n fun x => { x with mis := x.mis || bad || par }
  if bad then s.raise d (216 + n) 6 a
  else if par then s.raise d 433 5 a
  else s

/-- The second run of slot `i` has gone wrong: what it leaves in its copies of the slot's state words is free (R319). -/
def twinUpset (d n i : Nat) (s : State) : State :=
  s.forEach ((List.range 27).drop 20) fun w s => s.drew.modTwin d (s.slotWord d n i w) fun _ => BitVec.ofNat 32 s.free

/-- The engine copies the first run's state words of every slot of axis `n` into the second run's copies (R319). -/
def stateCopy (d n : Nat) (s : State) : State :=
  s.forEach (List.range (s.lawSlots d)) fun i s => s.forEach ((List.range 27).drop 20) fun w s => s.twinPut d (s.slotWord d n i w)

/-- One slot of a run (R203, R314 to R317): `bad` and `par` list the slots whose checkpoint finds a disagreement or a parity error, `mem`
the slots whose read of the carrel finds an error, with its code. -/
def runSlot (d n : Nat) (bad par : List Nat) (mem : List (Nat × Nat)) (i : Nat) (s : State) : State :=
  let s := s.inject d 1 608 5 (s.slotWord d n i 0 * 4)
  let code := (mem.lookup i).getD 0
  let cp := if s.lawSplit d then none else checkpoint s d n i
  match cp with
  | none => evalSlot d n i code false s
  | some ty =>
    let hold := bad.elem i || par.elem i
    let t := compareAt d n i ty (bad.elem i) (par.elem i) (evalSlot d n i code hold s)
    let t := if bad.elem i then twinUpset d n i t else t
    t.modLawDie d fun l => { l with word := checkWord s t d n i ty }

/-! The run -/

/-- The epoch's LAW entries of axis `n` are applied before the first run released at or after its boundary, one word per 16 tk from the
boundary on; the run waits for the last (R368, R369). -/
def epochAtRun (d n release : Nat) (s : State) : State :=
  match (s.getEpo d).lawAt.find? fun p => p.1 == n && decide (p.2 ≤ release) with
  | none => s
  | some p =>
    let k := if s.rd d CFG_STAT.STATE = 5 then ((s.getEpo d).undo.filter fun u => u.ax == some n && u.law).length
      else (epochPart s d (some n) true).length
    epochLaw d n (s.passTo (p.2 + 16 * k))

/-- What stands at the start of a run: its number, coefficient writes, the fade, t_u (R206, R217, R219, R221, R225). -/
def runBegin (d n release : Nat) (s : State) : State :=
  let c := (s.rd d LAW_RUNCNT.COUNT n + 1) % 2 ^ 32
  let s := flushWrites d n (some c) (s.wr d LAW_RUNCNT.COUNT c n)
  let s := if (s.getLaw d n).first && !s.bit d LAW_BANK.FADING n then bankQueued d n c s else s
  let u := updatePoint s d n release
  let s := s.modLaw d n fun x =>
    { x with waitAt := none, run := some (release, s.pt), stolen := 0, ovf := false, cfg := false, mis := false, pis := [],
             tel := [], tu := u.1, tuLate := u.2, fadeK := if 0 < x.fadeLen ∧ runDue (some c) x.fadeFrom then (c + 2 ^ 32 - x.fadeFrom) % 2 ^ 32 + 1 else 0 }
  s.modLawDie d fun l => { l with last := s.stream d n }

/-- The next waiting run of die `d` starts, if it is that of axis `n` and no run is in progress, and evaluates its slots in order (R203,
R210). `ecc` lists byte offsets of program memory where its code finds an error, with the code's finding (R222). -/
def lawRun (d n : Nat) (bad par : List Nat) (mem ecc : List (Nat × Nat)) (s : State) : State :=
  if runs s d || nextRun s d != some n then s
  else
    let release := ((s.getLaw d n).waitAt).getD s.pt
    let s := epochAtRun d n release s
    if (s.getLaw d n).waitAt.isNone then s
    else
      let s := runBegin d n release s
      let s := ecc.foldl (fun s e => progEcc d (e.1 % 65536) e.2 s) s
      let s := s.forEach (List.range (s.rd d LAW_CTRL.LEN n)) (runSlot d n bad par mem)
      telOffer d n release (s.rd d LAW_RUNCNT.COUNT n % 256) (s.getLaw d n).tel s

def execLawRun (d n : Nat) (bad par : List Nat) (mem ecc : List (Nat × Nat)) (s : State) : Host.Outcome State Fault Refusal :=
  onAxis d n s (lawRun d n bad par mem ecc)

/-- At the end of the last run of a fade, ACT takes the target and a queued request is taken (R219, R220). -/
def fadeStep (d n : Nat) (s : State) : State :=
  let x := s.getLaw d n
  if x.fadeLen = 0 ∨ x.fadeK = 0 then s
  else if x.fadeLen ≤ x.fadeK then bankQueued d n (s.runNext d n) (fadeStop d n s)
  else s.wr d LAW_FADE.REMAIN (x.fadeLen - x.fadeK) n

/-- Line 21 of each hart whose MLAWIRQ names the axis (R331). -/
def runEndIrq (d n : Nat) (s : State) : State :=
  s.forEach [0, 1] fun h s =>
    let v := csrVal s d h 0x7C6
    if bitOf v 3 && v % 8 == n then s.setIrq d h 21 true else s

/-- The run in progress of axis `n` ends: LEN slots and the cycles stolen from it after its start (R198, R211, R212). After a mismatch the
second run's state copies are renewed (R319). A program whose RUN
was cleared during the run stops (R207). -/
def lawRunEnd (d n : Nat) (s : State) : State :=
  match (s.getLaw d n).run with
  | none => s
  | some (release, start) =>
    let len := s.rd d LAW_CTRL.LEN n * s.lawCycles d + (s.getLaw d n).stolen
    let s := s.passTo (start + 2 * len)
    let last := min len 65535
    let s := (s.wr d LAW_TIME.LAST last n).wr d LAW_TIME.WORST (max last (s.rd d LAW_TIME.WORST n)) n
    let s := if (s.getLaw d n).mis then stateCopy d n s else s
    let s := fadeStep d n (s.modLaw d n fun x => { x with run := none, first := false })
    let s := runEndIrq d n (trcCapture d n release (tuneStep d n s))
    if (s.getLaw d n).stop then lawHalt d n s else s

def execLawRunEnd (d n : Nat) (s : State) : Host.Outcome State Fault Refusal := onAxis d n s (lawRunEnd d n)

end Sys2Proof.Machine
end

