-- ==== Sys2Proof/Machine/Dispatch.lean ====
section
/-!
DEFINITION. The meaning of every command: one arm per row of the opcode table, each one direct call of the command's
own meaning.
-/

namespace Sys2Proof.Machine

def exec (i : Instr) (s : State) : Host.Outcome State Fault Refusal :=
  match i with
  | .registerWrite m f p wr size v ecc => Sys2Proof.Machine.execRegisterWrite m f p wr size v ecc s
  | .forwardedWrite d => Sys2Proof.Machine.execForwardedWrite d s
  | .spineLinkFail l => Sys2Proof.Machine.execSpineLinkFail l s
  | .spineLinkReturn l => Sys2Proof.Machine.execSpineLinkReturn l s
  | .clockMonitorWindow d ref count => Sys2Proof.Machine.execClockMonitorWindow d ref count s
  | .refclkReturn d => Sys2Proof.Machine.execRefclkReturn d s
  | .rootRelockComplete d => Sys2Proof.Machine.execRootRelockComplete d s
  | .holdoverTimeout d => Sys2Proof.Machine.execHoldoverTimeout d s
  | .spineTimeExchange d skew => Sys2Proof.Machine.execSpineTimeExchange d skew s
  | .convertStrobe codes => Sys2Proof.Machine.execConvertStrobe codes s
  | .slewTick => Sys2Proof.Machine.execSlewTick s
  | .clkDostep d v => Sys2Proof.Machine.execClkDostep d v s
  | .ptStepTick => Sys2Proof.Machine.execPtStepTick s
  | .clkPtadjSlewWrite d v => Sys2Proof.Machine.execClkPtadjSlewWrite d v s
  | .powerOnReset d => Sys2Proof.Machine.execPowerOnReset d s
  | .rstnReset => Sys2Proof.Machine.execRstnReset s
  | .watchdogExpiry d => Sys2Proof.Machine.execWatchdogExpiry d s
  | .glbSwrstSelf d m v => Sys2Proof.Machine.execGlbSwrstSelf d m v s
  | .glbSwrstMate d m v => Sys2Proof.Machine.execGlbSwrstMate d m v s
  | .resetExit d rails rstn => Sys2Proof.Machine.execResetExit d rails rstn s
  | .ptRealign d => Sys2Proof.Machine.execPtRealign d s
  | .pciePerst d => Sys2Proof.Machine.execPciePerst d s
  | .rootPllLock d => Sys2Proof.Machine.execRootPllLock d s
  | .rootLockRetry d => Sys2Proof.Machine.execRootLockRetry d s
  | .optionAreaLoad d ea eb ec => Sys2Proof.Machine.execOptionAreaLoad d ea eb ec s
  | .spineTrained d => Sys2Proof.Machine.execSpineTrained d s
  | .readingCopyStart d => Sys2Proof.Machine.execReadingCopyStart d s
  | .phase3Step d => Sys2Proof.Machine.execPhase3Step d s
  | .rcTrackerUpdate d => Sys2Proof.Machine.execRcTrackerUpdate d s
  | .measuredStartComplete d => Sys2Proof.Machine.execMeasuredStartComplete d s
  | .baseImageApply d => Sys2Proof.Machine.execBaseImageApply d s
  | .fullServiceEntry => Sys2Proof.Machine.execFullServiceEntry s
  | .watchdogEnable d v => Sys2Proof.Machine.execWatchdogEnable d v s
  | .watchdogKick d key => Sys2Proof.Machine.execWatchdogKick d key s
  | .excWrite d n r v => Sys2Proof.Machine.execExcWrite d n r v s
  | .excApplyBoundary => Sys2Proof.Machine.execExcApplyBoundary s
  | .excOverloadOnset d n => Sys2Proof.Machine.execExcOverloadOnset d n s
  | .excOverloadTimeout d n => Sys2Proof.Machine.execExcOverloadTimeout d n s
  | .carrierPeriodEnd d n => Sys2Proof.Machine.execCarrierPeriodEnd d n s
  | .inputClip d n => Sys2Proof.Machine.execInputClip d n s
  | .pilotAcqTimeout d n => Sys2Proof.Machine.execPilotAcqTimeout d n s
  | .pilotAmplitudeLoss d n => Sys2Proof.Machine.execPilotAmplitudeLoss d n s
  | .trackerUpdate d n ecc => Sys2Proof.Machine.execTrackerUpdate d n ecc s
  | .trackLockQualified d n => Sys2Proof.Machine.execTrackLockQualified d n s
  | .trackOverspeed d n => Sys2Proof.Machine.execTrackOverspeed d n s
  | .amplitudeWindowLoss d n => Sys2Proof.Machine.execAmplitudeWindowLoss d n s
  | .freezeLoss d n => Sys2Proof.Machine.execFreezeLoss d n s
  | .pilotJumpLoss d n => Sys2Proof.Machine.execPilotJumpLoss d n s
  | .coastExpiry d n => Sys2Proof.Machine.execCoastExpiry d n s
  | .acquisitionComplete d n => Sys2Proof.Machine.execAcquisitionComplete d n s
  | .coastResume d n => Sys2Proof.Machine.execCoastResume d n s
  | .trkCtrlWrite d n v => Sys2Proof.Machine.execTrkCtrlWrite d n v s
  | .trkCtrlApply d n => Sys2Proof.Machine.execTrkCtrlApply d n s
  | .trkSectorWrite d n v => Sys2Proof.Machine.execTrkSectorWrite d n v s
  | .trkXreq d n v => Sys2Proof.Machine.execTrkXreq d n v s
  | .trkRearm d n => Sys2Proof.Machine.execTrkRearm d n s
  | .trkAngRead d n => Sys2Proof.Machine.execTrkAngRead d n s
  | .tableIndexWrap d n t fwd => Sys2Proof.Machine.execTableIndexWrap d n t fwd s
  | .tblLoad d pa => Sys2Proof.Machine.execTblLoad d pa s
  | .tblStore d pa => Sys2Proof.Machine.execTblStore d pa s
  | .tblMap d pa pb n t => Sys2Proof.Machine.execTblMap d pa pb n t s
  | .tblUnmap d n t => Sys2Proof.Machine.execTblUnmap d n t s
  | .tblCancel d n t => Sys2Proof.Machine.execTblCancel d n t s
  | .tblFree d pa => Sys2Proof.Machine.execTblFree d pa s
  | .tblAlloc d pa => Sys2Proof.Machine.execTblAlloc d pa s
  | .tblCmdBadCode d op => Sys2Proof.Machine.execTblCmdBadCode d op s
  | .tblCmdComplete d bad => Sys2Proof.Machine.execTblCmdComplete d bad s
  | .tblDescWrite d n t v => Sys2Proof.Machine.execTblDescWrite d n t v s
  | .carrelWindowAccess m d o wr v ecc => Sys2Proof.Machine.execCarrelWindowAccess m d o wr v ecc s
  | .emuOverrate d n => Sys2Proof.Machine.execEmuOverrate d n s
  | .emuRebase d n => Sys2Proof.Machine.execEmuRebase d n s
  | .emuPassthroughChange d n => Sys2Proof.Machine.execEmuPassthroughChange d n s
  | .encEdgeAccept d n a b z ago => Sys2Proof.Machine.execEncEdgeAccept d n a b z ago s
  | .encWireDisagree d n w => Sys2Proof.Machine.execEncWireDisagree d n w s
  | .encIndex d n ago => Sys2Proof.Machine.execEncIndex d n ago s
  | .probeEdge d n rise ago => Sys2Proof.Machine.execProbeEdge d n rise ago s
  | .encRawWrite d n v => Sys2Proof.Machine.execEncRawWrite d n v s
  | .encIdxWrite d n v => Sys2Proof.Machine.execEncIdxWrite d n v s
  | .encIdxArm d n => Sys2Proof.Machine.execEncIdxArm d n s
  | .prbStatWrite d n v => Sys2Proof.Machine.execPrbStatWrite d n v s
  | .encSpeedWindowEnd d n => Sys2Proof.Machine.execEncSpeedWindowEnd d n s
  | .encStopTimeout d n => Sys2Proof.Machine.execEncStopTimeout d n s
  | .acqMuxWrite d c v => Sys2Proof.Machine.execAcqMuxWrite d c v s
  | .filSlotRestart d c => Sys2Proof.Machine.execFilSlotRestart d c s
  | .comparatorAssert d n j e => Sys2Proof.Machine.execComparatorAssert d n j e s
  | .comparatorDeassert d n j e => Sys2Proof.Machine.execComparatorDeassert d n j e s
  | .acqCmpWrite d n j up v => Sys2Proof.Machine.execAcqCmpWrite d n j up v s
  | .filApply d c => Sys2Proof.Machine.execFilApply d c s
  | .filSyncGo d => Sys2Proof.Machine.execFilSyncGo d s
  | .filSyncReset d => Sys2Proof.Machine.execFilSyncReset d s
  | .detWindowEnd d x => Sys2Proof.Machine.execDetWindowEnd d x s
  | .detCfgWrite d x r v => Sys2Proof.Machine.execDetCfgWrite d x r v s
  | .lptUpdate d => Sys2Proof.Machine.execLptUpdate d s
  | .lptLock d => Sys2Proof.Machine.execLptLock d s
  | .lptUnlock d => Sys2Proof.Machine.execLptUnlock d s
  | .lptCtrlWrite d v => Sys2Proof.Machine.execLptCtrlWrite d v s
  | .lptPhaseRead d => Sys2Proof.Machine.execLptPhaseRead d s
  | .lawStart d n len => Sys2Proof.Machine.execLawStart d n len s
  | .lawRelease d n => Sys2Proof.Machine.execLawRelease d n s
  | .lawRun d n bad par mem ecc => Sys2Proof.Machine.execLawRun d n bad par mem ecc s
  | .lawRunEnd d n => Sys2Proof.Machine.execLawRunEnd d n s
  | .lawStop d n len => Sys2Proof.Machine.execLawStop d n len s
  | .progmemAccess m d o wr v steal ecc => Sys2Proof.Machine.execProgmemAccess m d o wr v steal ecc s
  | .lawBankReq d n target len => Sys2Proof.Machine.execLawBankReq d n target len s
  | .lawHeaderRead d n x => Sys2Proof.Machine.execLawHeaderRead d n x s
  | .pwmPeriodStart d n => Sys2Proof.Machine.execPwmPeriodStart d n s
  | .pwmUpdatePoint d n => Sys2Proof.Machine.execPwmUpdatePoint d n s
  | .pwmDutyWrite d n j v => Sys2Proof.Machine.execPwmDutyWrite d n j v s
  | .deadTimeExpiry d n j => Sys2Proof.Machine.execDeadTimeExpiry d n j s
  | .bandMinpExpiry d n j => Sys2Proof.Machine.execBandMinpExpiry d n j s
  | .bandLockQualified d n j => Sys2Proof.Machine.execBandLockQualified d n j s
  | .bandLimit d n j => Sys2Proof.Machine.execBandLimit d n j s
  | .safeStateExit d n => Sys2Proof.Machine.execSafeStateExit d n s
  | .pwmSafeWrite d n v => Sys2Proof.Machine.execPwmSafeWrite d n v s
  | .pwmCtrlWrite d n v => Sys2Proof.Machine.execPwmCtrlWrite d n v s
  | .tuneStart d n => Sys2Proof.Machine.execTuneStart d n s
  | .tuneAbort d n => Sys2Proof.Machine.execTuneAbort d n s
  | .tuneTimeout d n => Sys2Proof.Machine.execTuneTimeout d n s
  | .trcRunWrite d run => Sys2Proof.Machine.execTrcRunWrite d run s
  | .trcArm d => Sys2Proof.Machine.execTrcArm d s
  | .trcFire d => Sys2Proof.Machine.execTrcFire d s
  | .traceMoveOn d => Sys2Proof.Machine.execTraceMoveOn d s
  | .faultMessage d extra => Sys2Proof.Machine.execFaultMessage d extra s
  | .packageSafeLine => Sys2Proof.Machine.execPackageSafeLine s
  | .quietTimerExpiry d k => Sys2Proof.Machine.execQuietTimerExpiry d k s
  | .fltRel d k => Sys2Proof.Machine.execFltRel d k s
  | .fltClr d k => Sys2Proof.Machine.execFltClr d k s
  | .fltStickyClear d k => Sys2Proof.Machine.execFltStickyClear d k s
  | .fltMrel d => Sys2Proof.Machine.execFltMrel d s
  | .fltFirstClear d => Sys2Proof.Machine.execFltFirstClear d s
  | .pkgfirstMessage d => Sys2Proof.Machine.execPkgfirstMessage d s
  | .fltPkgfirstClear d => Sys2Proof.Machine.execFltPkgfirstClear d s
  | .pkgfirstClearTick => Sys2Proof.Machine.execPkgfirstClearTick s
  | .evtPop d => Sys2Proof.Machine.execEvtPop d s
  | .fltInjGo d v => Sys2Proof.Machine.execFltInjGo d v s
  | .ledgerRecordWrite d => Sys2Proof.Machine.execLedgerRecordWrite d s
  | .ledgerSegmentClose => Sys2Proof.Machine.execLedgerSegmentClose s
  | .ledgClose d => Sys2Proof.Machine.execLedgClose d s
  | .comparatorSelftest d dead => Sys2Proof.Machine.execComparatorSelftest d dead s
  | .hartMemoryAccess d h a => Sys2Proof.Machine.execHartMemoryAccess d h a s
  | .lrReservationTimeout d h => Sys2Proof.Machine.execLrReservationTimeout d h s
  | .mtimerCompare d h => Sys2Proof.Machine.execMtimerCompare d h s
  | .mptcmphWrite d h v => Sys2Proof.Machine.execMptcmphWrite d h v s
  | .mswiSet d h => Sys2Proof.Machine.execMswiSet d h s
  | .mswiClr d h => Sys2Proof.Machine.execMswiClr d h s
  | .mevtpop d h => Sys2Proof.Machine.execMevtpop d h s
  | .mlawdataAccess d h wr v steal ecc => Sys2Proof.Machine.execMlawdataAccess d h wr v steal ecc s
  | .mlawirqAck d h => Sys2Proof.Machine.execMlawirqAck d h s
  | .msemAcquire d h k => Sys2Proof.Machine.execMsemAcquire d h k s
  | .msemrel d h v => Sys2Proof.Machine.execMsemrel d h v s
  | .heartbeatASend d => Sys2Proof.Machine.execHeartbeatASend d s
  | .heartbeatAReceive d crc => Sys2Proof.Machine.execHeartbeatAReceive d crc s
  | .heartbeatAMiss d => Sys2Proof.Machine.execHeartbeatAMiss d s
  | .heartbeatBSend d => Sys2Proof.Machine.execHeartbeatBSend d s
  | .heartbeatBReceive d crc => Sys2Proof.Machine.execHeartbeatBReceive d crc s
  | .heartbeatBMiss d => Sys2Proof.Machine.execHeartbeatBMiss d s
  | .startwaitExpiry d => Sys2Proof.Machine.execStartwaitExpiry d s
  | .loopbackTest d => Sys2Proof.Machine.execLoopbackTest d s
  | .loopbackResult d ok => Sys2Proof.Machine.execLoopbackResult d ok s
  | .loopbackRetry d => Sys2Proof.Machine.execLoopbackRetry d s
  | .seizeReceived d => Sys2Proof.Machine.execSeizeReceived d s
  | .mateDrivingSeen d => Sys2Proof.Machine.execMateDrivingSeen d s
  | .mateReleasedSeen d => Sys2Proof.Machine.execMateReleasedSeen d s
  | .handoverDrivingCheck d => Sys2Proof.Machine.execHandoverDrivingCheck d s
  | .swapDue d => Sys2Proof.Machine.execSwapDue d s
  | .pairSwapnow d => Sys2Proof.Machine.execPairSwapnow d s
  | .swapTs d => Sys2Proof.Machine.execSwapTs d s
  | .swapLate d => Sys2Proof.Machine.execSwapLate d s
  | .snapshotRequest d => Sys2Proof.Machine.execSnapshotRequest d s
  | .pairSnapshotItem d k n crc => Sys2Proof.Machine.execPairSnapshotItem d k n crc s
  | .resyncTimeout d => Sys2Proof.Machine.execResyncTimeout d s
  | .resyncRetry d => Sys2Proof.Machine.execResyncRetry d s
  | .shadowCompare d k n j => Sys2Proof.Machine.execShadowCompare d k n j s
  | .shadowTimeExpiry d => Sys2Proof.Machine.execShadowTimeExpiry d s
  | .cfgStageGo d v => Sys2Proof.Machine.execCfgStageGo d v s
  | .stagingComplete d => Sys2Proof.Machine.execStagingComplete d s
  | .stagedReport d e => Sys2Proof.Machine.execStagedReport d e s
  | .cfgCommit d v => Sys2Proof.Machine.execCfgCommit d v s
  | .cfgAbort d => Sys2Proof.Machine.execCfgAbort d s
  | .epochDieBoundary d => Sys2Proof.Machine.execEpochDieBoundary d s
  | .epochAxisBoundary d n => Sys2Proof.Machine.execEpochAxisBoundary d n s
  | .epochSkewCheck d => Sys2Proof.Machine.execEpochSkewCheck d s
  | .epochRevert d part => Sys2Proof.Machine.execEpochRevert d part s
  | .pcieLinkTraining d gen width => Sys2Proof.Machine.execPcieLinkTraining d gen width s
  | .doorbell d off size v => Sys2Proof.Machine.execDoorbell d off size v s
  | .ringEnable d r v => Sys2Proof.Machine.execRingEnable d r v s
  | .ringDisable d r => Sys2Proof.Machine.execRingDisable d r s
  | .descriptorFetch d r ok bs => Sys2Proof.Machine.execDescriptorFetch d r ok bs s
  | .hifNop d r => Sys2Proof.Machine.execHifNop d r s
  | .hifRdreg d r => Sys2Proof.Machine.execHifRdreg d r s
  | .hifWrreg d r ok bs => Sys2Proof.Machine.execHifWrreg d r ok bs s
  | .hifWr1 d r => Sys2Proof.Machine.execHifWr1 d r s
  | .hifMask d r => Sys2Proof.Machine.execHifMask d r s
  | .hifDmaw d r ok bs => Sys2Proof.Machine.execHifDmaw d r ok bs s
  | .hifDmar d r ecc => Sys2Proof.Machine.execHifDmar d r ecc s
  | .hifColoph d r ok bs => Sys2Proof.Machine.execHifColoph d r ok bs s
  | .hifUndefinedOpcode d r => Sys2Proof.Machine.execHifUndefinedOpcode d r s
  | .fwPop d => Sys2Proof.Machine.execFwPop d s
  | .fwPost d => Sys2Proof.Machine.execFwPost d s
  | .arcRead d r => Sys2Proof.Machine.execArcRead d r s
  | .arcProtect d r => Sys2Proof.Machine.execArcProtect d r s
  | .arcUnprotect d r => Sys2Proof.Machine.execArcUnprotect d r s
  | .arcSpan d r => Sys2Proof.Machine.execArcSpan d r s
  | .arcUndefinedOp d r => Sys2Proof.Machine.execArcUndefinedOp d r s
  | .queueShareDrain d r => Sys2Proof.Machine.execQueueShareDrain d r s
  | .msixModerationTimeout d r => Sys2Proof.Machine.execMsixModerationTimeout d r s
  | .msixUnmask d v on => Sys2Proof.Machine.execMsixUnmask d v on s
  | .functionLost d cause => Sys2Proof.Machine.execFunctionLost d cause s
  | .d3hotChange d on => Sys2Proof.Machine.execD3hotChange d on s
  | .teramTrainingComplete d x1 => Sys2Proof.Machine.execTeramTrainingComplete d x1 s
  | .teramLinkLoss d => Sys2Proof.Machine.execTeramLinkLoss d s
  | .teramRetrain d => Sys2Proof.Machine.execTeramRetrain d s
  | .beatKeepSend d => Sys2Proof.Machine.execBeatKeepSend d s
  | .helloReceive d f => Sys2Proof.Machine.execHelloReceive d f s
  | .announceOriginate => Sys2Proof.Machine.execAnnounceOriginate s
  | .announceReceive d f => Sys2Proof.Machine.execAnnounceReceive d f s
  | .knownPackageExpiry d id => Sys2Proof.Machine.execKnownPackageExpiry d id s
  | .frameForward d f => Sys2Proof.Machine.execFrameForward d f s
  | .timeSyncSend d frac => Sys2Proof.Machine.execTimeSyncSend d frac s
  | .timeSyncReceive d f frac => Sys2Proof.Machine.execTimeSyncReceive d f frac s
  | .timeReplyReceive d f frac => Sys2Proof.Machine.execTimeReplyReceive d f frac s
  | .fabricOffsetMessage d => Sys2Proof.Machine.execFabricOffsetMessage d s
  | .angleReceive d => Sys2Proof.Machine.execAngleReceive d s
  | .angleChannelTimeout d c => Sys2Proof.Machine.execAngleChannelTimeout d c s
  | .epochCommitReceive d => Sys2Proof.Machine.execEpochCommitReceive d s
  | .epochRevertReceive d => Sys2Proof.Machine.execEpochRevertReceive d s
  | .epochApplyLateReceive d => Sys2Proof.Machine.execEpochApplyLateReceive d s
  | .epochRefuseReceive d => Sys2Proof.Machine.execEpochRefuseReceive d s
  | .epochAbortReceive d => Sys2Proof.Machine.execEpochAbortReceive d s
  | .eventFrameReceive d => Sys2Proof.Machine.execEventFrameReceive d s
  | .accessRd d => Sys2Proof.Machine.execAccessRd d s
  | .accessWr d => Sys2Proof.Machine.execAccessWr d s
  | .accessMask d => Sys2Proof.Machine.execAccessMask d s
  | .accessColoph d => Sys2Proof.Machine.execAccessColoph d s
  | .accessMsg d => Sys2Proof.Machine.execAccessMsg d s
  | .accessResponseReceive d => Sys2Proof.Machine.execAccessResponseReceive d s
  | .trmSend d => Sys2Proof.Machine.execTrmSend d s
  | .trmPop d => Sys2Proof.Machine.execTrmPop d s
  | .trmEpop d => Sys2Proof.Machine.execTrmEpop d s
  | .ddrTraining d ok size => Sys2Proof.Machine.execDdrTraining d ok size s
  | .memChannelLoss d => Sys2Proof.Machine.execMemChannelLoss d s
  | .mirrorCopy n => Sys2Proof.Machine.execMirrorCopy n s
  | .mirrorCopyComplete => Sys2Proof.Machine.execMirrorCopyComplete s
  | .dramAccess a k wr bs ecc => Sys2Proof.Machine.execDramAccess a k wr bs ecc s
  | .patrolScrub d found => Sys2Proof.Machine.execPatrolScrub d found s
  | .nvmeCommandTimeout d => Sys2Proof.Machine.execNvmeCommandTimeout d s
  | .stacksFrame d => Sys2Proof.Machine.execStacksFrame d s
  | .stacksRecordClose d st => Sys2Proof.Machine.execStacksRecordClose d st s
  | .stacksRecordWrite d => Sys2Proof.Machine.execStacksRecordWrite d s
  | .stacksSegmentClose k => Sys2Proof.Machine.execStacksSegmentClose k s
  | .stacksIndexRebuild => Sys2Proof.Machine.execStacksIndexRebuild s
  | .stacksIndexDone => Sys2Proof.Machine.execStacksIndexDone s
  | .railWarningCrossing d r => Sys2Proof.Machine.execRailWarningCrossing d r s
  | .railWarningReturn d r => Sys2Proof.Machine.execRailWarningReturn d r s
  | .dipEnd d => Sys2Proof.Machine.execDipEnd d s
  | .railHighCrossing d r => Sys2Proof.Machine.execRailHighCrossing d r s
  | .railResetCrossing d r => Sys2Proof.Machine.execRailResetCrossing d r s
  | .tempSensorRead d ts => Sys2Proof.Machine.execTempSensorRead d ts s
  | .governorStep d p mv => Sys2Proof.Machine.execGovernorStep d p mv s
  | .govDeficit d => Sys2Proof.Machine.execGovDeficit d s
  | .packageGovernorStep => Sys2Proof.Machine.execPackageGovernorStep s
  | .shareReceive d => Sys2Proof.Machine.execShareReceive d s
  | .shareTimeout d => Sys2Proof.Machine.execShareTimeout d s
  | .nvfProg d a => Sys2Proof.Machine.execNvfProg d a s
  | .nvfErase d a => Sys2Proof.Machine.execNvfErase d a s
  | .nvfBlank d a => Sys2Proof.Machine.execNvfBlank d a s
  | .nvfUnlock d => Sys2Proof.Machine.execNvfUnlock d s
  | .nvfRelock d => Sys2Proof.Machine.execNvfRelock d s
  | .nvfCmdComplete d => Sys2Proof.Machine.execNvfCmdComplete d s
  | .nvfMarkSelect d v => Sys2Proof.Machine.execNvfMarkSelect d v s
  | .msrExtend d h k => Sys2Proof.Machine.execMsrExtend d h k s
  | .msrLock d h k => Sys2Proof.Machine.execMsrLock d h k s
  | .msrCreq d => Sys2Proof.Machine.execMsrCreq d s
  | .colophonSigned d => Sys2Proof.Machine.execColophonSigned d s
  | .excOverloadClear d n => Sys2Proof.Machine.execExcOverloadClear d n s
  | .railHighReturn d r => Sys2Proof.Machine.execRailHighReturn d r s
  | .memChannelReturn d => Sys2Proof.Machine.execMemChannelReturn d s
  | .nvmeControllerReady d gen width caps => Sys2Proof.Machine.execNvmeControllerReady d gen width caps s
  | .pcieCompletionTimeout d r data => Sys2Proof.Machine.execPcieCompletionTimeout d r data s

end Sys2Proof.Machine
end

