-- ==== Sys2Proof/WellFormed.lean ====
section
/-!
DEFINITION. Well-formed commands: every number that names an item lies in the range the largest member has for it
(R2, R23, R24): dies 0 to 7, axes 0 to 7 of a pair site, filter slots 0 to 63, detectors 0 to 15, harts 0 and 1, legs
0 to 2, inputs P0 to P3, tables 0 to 3, rings 0 to 63, sources 0 to 1023, carrel pages 0 to 31, spine links 0 to 7,
rails 0 to 7, pair sites 0 to 3, masters 0 to 6, and so on for the items of single commands; and addresses and offsets lie in their spaces.
-/

namespace Sys2Proof

/-- A register access that has an address of BAR0, or a CSR of a hart of the largest member. -/
def RegPlace.wf (p : RegPlace) : Bool :=
  match p with
  | .bar a => decide (a < 0x10000000)
  | .csr d h num => decide (d < 8) && decide (h < 2) && decide (num < 4096)

/-- A memory access of a hart: 1, 2 or 4 bytes at a 32-bit address (R325). -/
def HartAcc.wf (a : HartAcc) : Bool := [1, 2, 4].elem a.size && decide (a.addr < 2 ^ 32)

/-- The numbers of the command name items that the largest member has; the master of a register access is one of the codes 0 to 6 of
FLT_AFINFO.MASTER. -/
def Instr.wf (i : Instr) : Bool :=
  match i with
  | .registerWrite m f p _ _ _ _ => decide (m < 7) && decide (f < 8) && p.wf
  | .forwardedWrite d => decide (d < 8)
  | .spineLinkFail l => decide (l < 8)
  | .spineLinkReturn l => decide (l < 8)
  | .clockMonitorWindow d _ _ => decide (d < 8)
  | .refclkReturn d => decide (d < 8)
  | .rootRelockComplete d => decide (d < 8)
  | .holdoverTimeout d => decide (d < 8)
  | .spineTimeExchange d _ => decide (d < 8)
  | .convertStrobe _ => true
  | .slewTick => true
  | .clkDostep d _ => decide (d < 8)
  | .ptStepTick => true
  | .clkPtadjSlewWrite d _ => decide (d < 8)
  | .powerOnReset d => decide (d < 8)
  | .rstnReset => true
  | .watchdogExpiry d => decide (d < 8)
  | .glbSwrstSelf d _ _ => decide (d < 8)
  | .glbSwrstMate d _ _ => decide (d < 8)
  | .resetExit d _ _ => decide (d < 8)
  | .ptRealign d => decide (d < 8)
  | .pciePerst d => decide (d < 2)
  | .rootPllLock d => decide (d < 8)
  | .rootLockRetry d => decide (d < 8)
  | .optionAreaLoad d _ _ _ => decide (d < 8)
  | .spineTrained d => decide (d < 8)
  | .readingCopyStart d => decide (d < 8)
  | .phase3Step d => decide (d < 8)
  | .rcTrackerUpdate d => decide (d < 8)
  | .measuredStartComplete d => decide (d < 8)
  | .baseImageApply d => decide (d < 8)
  | .fullServiceEntry => true
  | .watchdogEnable d _ => decide (d < 8)
  | .watchdogKick d _ => decide (d < 8)
  | .excWrite d n r _ => decide (d < 8) && decide (n < 8) && decide (r < 3)
  | .excApplyBoundary => true
  | .excOverloadOnset d n => decide (d < 8) && decide (n < 8)
  | .excOverloadTimeout d n => decide (d < 8) && decide (n < 8)
  | .carrierPeriodEnd d n => decide (d < 8) && decide (n < 8)
  | .inputClip d n => decide (d < 8) && decide (n < 8)
  | .pilotAcqTimeout d n => decide (d < 8) && decide (n < 8)
  | .pilotAmplitudeLoss d n => decide (d < 8) && decide (n < 8)
  | .trackerUpdate d n _ => decide (d < 8) && decide (n < 8)
  | .trackLockQualified d n => decide (d < 8) && decide (n < 8)
  | .trackOverspeed d n => decide (d < 8) && decide (n < 8)
  | .amplitudeWindowLoss d n => decide (d < 8) && decide (n < 8)
  | .freezeLoss d n => decide (d < 8) && decide (n < 8)
  | .pilotJumpLoss d n => decide (d < 8) && decide (n < 8)
  | .coastExpiry d n => decide (d < 8) && decide (n < 8)
  | .acquisitionComplete d n => decide (d < 8) && decide (n < 8)
  | .coastResume d n => decide (d < 8) && decide (n < 8)
  | .trkCtrlWrite d n _ => decide (d < 8) && decide (n < 8)
  | .trkCtrlApply d n => decide (d < 8) && decide (n < 8)
  | .trkSectorWrite d n _ => decide (d < 8) && decide (n < 8)
  | .trkXreq d n _ => decide (d < 8) && decide (n < 8)
  | .trkRearm d n => decide (d < 8) && decide (n < 8)
  | .trkAngRead d n => decide (d < 8) && decide (n < 8)
  | .tableIndexWrap d n t _ => decide (d < 8) && decide (n < 8) && decide (t < 4)
  | .tblLoad d pa => decide (d < 8) && decide (pa < 32)
  | .tblStore d pa => decide (d < 8) && decide (pa < 32)
  | .tblMap d pa pb n t => decide (d < 8) && decide (pa < 32) && decide (pb < 32) && decide (n < 8) && decide (t < 4)
  | .tblUnmap d n t => decide (d < 8) && decide (n < 8) && decide (t < 4)
  | .tblCancel d n t => decide (d < 8) && decide (n < 8) && decide (t < 4)
  | .tblFree d pa => decide (d < 8) && decide (pa < 32)
  | .tblAlloc d pa => decide (d < 8) && decide (pa < 32)
  | .tblCmdBadCode d _ => decide (d < 8)
  | .tblCmdComplete d _ => decide (d < 8)
  | .tblDescWrite d n t _ => decide (d < 8) && decide (n < 8) && decide (t < 4)
  | .carrelWindowAccess _ d o _ _ _ => decide (d < 8) && decide (o < 131072)
  | .emuOverrate d n => decide (d < 8) && decide (n < 8)
  | .emuRebase d n => decide (d < 8) && decide (n < 8)
  | .emuPassthroughChange d n => decide (d < 8) && decide (n < 8)
  | .encEdgeAccept d n _ _ _ _ => decide (d < 8) && decide (n < 8)
  | .encWireDisagree d n _ => decide (d < 8) && decide (n < 8)
  | .encIndex d n _ => decide (d < 8) && decide (n < 8)
  | .probeEdge d n _ _ => decide (d < 8) && decide (n < 8)
  | .encRawWrite d n _ => decide (d < 8) && decide (n < 8)
  | .encIdxWrite d n _ => decide (d < 8) && decide (n < 8)
  | .encIdxArm d n => decide (d < 8) && decide (n < 8)
  | .prbStatWrite d n _ => decide (d < 8) && decide (n < 8)
  | .encSpeedWindowEnd d n => decide (d < 8) && decide (n < 8)
  | .encStopTimeout d n => decide (d < 8) && decide (n < 8)
  | .acqMuxWrite d c _ => decide (d < 8) && decide (c < 54) && (decide (48 ≤ c) || decide (2 ≤ c % 6))
  | .filSlotRestart d c => decide (d < 8) && decide (c < 64)
  | .comparatorAssert d n j _ => decide (d < 8) && decide (n < 8) && decide (j < 4)
  | .comparatorDeassert d n j _ => decide (d < 8) && decide (n < 8) && decide (j < 4)
  | .acqCmpWrite d n j _ _ => decide (d < 8) && decide (n < 8) && decide (j < 4)
  | .filApply d c => decide (d < 8) && decide (c < 64)
  | .filSyncGo d => decide (d < 8)
  | .filSyncReset d => decide (d < 8)
  | .detWindowEnd d x => decide (d < 8) && decide (x < 16)
  | .detCfgWrite d x _ _ => decide (d < 8) && decide (x < 16)
  | .lptUpdate d => decide (d < 8)
  | .lptLock d => decide (d < 8)
  | .lptUnlock d => decide (d < 8)
  | .lptCtrlWrite d _ => decide (d < 8)
  | .lptPhaseRead d => decide (d < 8)
  | .lawStart d n _ => decide (d < 8) && decide (n < 8)
  | .lawRelease d n => decide (d < 8) && decide (n < 8)
  | .lawRun d n _ _ _ _ => decide (d < 8) && decide (n < 8)
  | .lawRunEnd d n => decide (d < 8) && decide (n < 8)
  | .lawStop d n _ => decide (d < 8) && decide (n < 8)
  | .progmemAccess _ d o _ _ _ _ => decide (d < 8) && decide (o < 65536)
  | .lawBankReq d n _ _ => decide (d < 8) && decide (n < 8)
  | .lawHeaderRead d n x => decide (d < 8) && decide (n < 8) && decide (x < 96)
  | .pwmPeriodStart d n => decide (d < 8) && decide (n < 8)
  | .pwmUpdatePoint d n => decide (d < 8) && decide (n < 8)
  | .pwmDutyWrite d n j _ => decide (d < 8) && decide (n < 8) && decide (j < 3)
  | .deadTimeExpiry d n j => decide (d < 8) && decide (n < 8) && decide (j < 3)
  | .bandMinpExpiry d n j => decide (d < 8) && decide (n < 8) && decide (j < 3)
  | .bandLockQualified d n j => decide (d < 8) && decide (n < 8) && decide (j < 3)
  | .bandLimit d n j => decide (d < 8) && decide (n < 8) && decide (j < 3)
  | .safeStateExit d n => decide (d < 8) && decide (n < 8)
  | .pwmSafeWrite d n _ => decide (d < 8) && decide (n < 8)
  | .pwmCtrlWrite d n _ => decide (d < 8) && decide (n < 8)
  | .tuneStart d n => decide (d < 8) && decide (n < 8)
  | .tuneAbort d n => decide (d < 8) && decide (n < 8)
  | .tuneTimeout d n => decide (d < 8) && decide (n < 8)
  | .trcRunWrite d _ => decide (d < 8)
  | .trcArm d => decide (d < 8)
  | .trcFire d => decide (d < 8)
  | .traceMoveOn d => decide (d < 8)
  | .faultMessage d _ => decide (d < 8)
  | .packageSafeLine => true
  | .quietTimerExpiry d k => decide (d < 8) && decide (k < 1024)
  | .fltRel d k => decide (d < 8) && decide (k < 1024)
  | .fltClr d k => decide (d < 8) && decide (k < 1024)
  | .fltStickyClear d k => decide (d < 8) && decide (k < 1024)
  | .fltMrel d => decide (d < 8)
  | .fltFirstClear d => decide (d < 8)
  | .pkgfirstMessage d => decide (d < 8)
  | .fltPkgfirstClear d => decide (d < 8)
  | .pkgfirstClearTick => true
  | .evtPop d => decide (d < 8)
  | .fltInjGo d _ => decide (d < 8)
  | .ledgerRecordWrite d => decide (d < 8)
  | .ledgerSegmentClose => true
  | .ledgClose d => decide (d < 2)
  | .comparatorSelftest d _ => decide (d < 8)
  | .hartMemoryAccess d h a => decide (d < 8) && decide (h < 2) && a.wf
  | .lrReservationTimeout d h => decide (d < 8) && decide (h < 2)
  | .mtimerCompare d h => decide (d < 8) && decide (h < 2)
  | .mptcmphWrite d h _ => decide (d < 8) && decide (h < 2)
  | .mswiSet d h => decide (d < 8) && decide (h < 2)
  | .mswiClr d h => decide (d < 8) && decide (h < 2)
  | .mevtpop d h => decide (d < 8) && decide (h < 2)
  | .mlawdataAccess d h _ _ _ _ => decide (d < 8) && decide (h < 2)
  | .mlawirqAck d h => decide (d < 8) && decide (h < 2)
  | .msemAcquire d h k => decide (d < 8) && decide (h < 2) && decide (k < 16)
  | .msemrel d h _ => decide (d < 8) && decide (h < 2)
  | .heartbeatASend d => decide (d < 8)
  | .heartbeatAReceive d _ => decide (d < 8)
  | .heartbeatAMiss d => decide (d < 8)
  | .heartbeatBSend d => decide (d < 8)
  | .heartbeatBReceive d _ => decide (d < 8)
  | .heartbeatBMiss d => decide (d < 8)
  | .startwaitExpiry d => decide (d < 8)
  | .loopbackTest d => decide (d < 8)
  | .loopbackResult d _ => decide (d < 8)
  | .loopbackRetry d => decide (d < 8)
  | .seizeReceived d => decide (d < 8)
  | .mateDrivingSeen d => decide (d < 8)
  | .mateReleasedSeen d => decide (d < 8)
  | .handoverDrivingCheck d => decide (d < 8)
  | .swapDue d => decide (d < 8)
  | .pairSwapnow d => decide (d < 8)
  | .swapTs d => decide (d < 8)
  | .swapLate d => decide (d < 8)
  | .snapshotRequest d => decide (d < 8)
  | .pairSnapshotItem d k n _ => decide (d < 8) && decide (k < 7) && decide (n < 8)
  | .resyncTimeout d => decide (d < 8)
  | .resyncRetry d => decide (d < 8)
  | .shadowCompare d k n j => decide (d < 8) && decide (k < 5) && decide (n < 8) && decide (j < 3)
  | .shadowTimeExpiry d => decide (d < 8)
  | .cfgStageGo d _ => decide (d < 8)
  | .stagingComplete d => decide (d < 8)
  | .stagedReport d e => decide (d < 8) && decide (e < 8)
  | .cfgCommit d _ => decide (d < 8)
  | .cfgAbort d => decide (d < 8)
  | .epochDieBoundary d => decide (d < 8)
  | .epochAxisBoundary d n => decide (d < 8) && decide (n < 8)
  | .epochSkewCheck d => decide (d < 8)
  | .epochRevert d part => decide (d < 8) && decide (part < 9)
  | .pcieLinkTraining d gen width => decide (d < 2) && decide (gen < 4) && [1, 2, 4, 8].contains width
  | .doorbell d off _ _ => decide (d < 2) && decide (off < 65536)
  | .ringEnable d r _ => decide (d < 2) && decide (r < 64)
  | .ringDisable d r => decide (d < 2) && decide (r < 64)
  | .descriptorFetch d r _ _ => decide (d < 2) && decide (r < 64)
  | .hifNop d r => decide (d < 2) && decide (r < 64)
  | .hifRdreg d r => decide (d < 2) && decide (r < 64)
  | .hifWrreg d r _ _ => decide (d < 2) && decide (r < 64)
  | .hifWr1 d r => decide (d < 2) && decide (r < 64)
  | .hifMask d r => decide (d < 2) && decide (r < 64)
  | .hifDmaw d r _ _ => decide (d < 2) && decide (r < 64)
  | .hifDmar d r _ => decide (d < 2) && decide (r < 64)
  | .hifColoph d r _ _ => decide (d < 2) && decide (r < 64)
  | .hifUndefinedOpcode d r => decide (d < 2) && decide (r < 64)
  | .fwPop d => decide (d < 8)
  | .fwPost d => decide (d < 8)
  | .arcRead d r => decide (d < 2) && decide (r < 64)
  | .arcProtect d r => decide (d < 2) && decide (r < 64)
  | .arcUnprotect d r => decide (d < 2) && decide (r < 64)
  | .arcSpan d r => decide (d < 2) && decide (r < 64)
  | .arcUndefinedOp d r => decide (d < 2) && decide (r < 64)
  | .queueShareDrain d r => decide (d < 2) && decide (r < 64)
  | .msixModerationTimeout d r => decide (d < 2) && decide (r < 64)
  | .msixUnmask d v _ => decide (d < 2) && decide (v < 65)
  | .functionLost d cause => decide (d < 2) && decide (1 ≤ cause) && decide (cause < 5)
  | .d3hotChange d _ => decide (d < 2)
  | .teramTrainingComplete d _ => decide (d < 8)
  | .teramLinkLoss d => decide (d < 8)
  | .teramRetrain d => decide (d < 8)
  | .beatKeepSend d => decide (d < 8)
  | .helloReceive d _ => decide (d < 8)
  | .announceOriginate => true
  | .announceReceive d _ => decide (d < 8)
  | .knownPackageExpiry d _ => decide (d < 8)
  | .frameForward d _ => decide (d < 8)
  | .timeSyncSend d _ => decide (d < 8)
  | .timeSyncReceive d _ _ => decide (d < 8)
  | .timeReplyReceive d _ _ => decide (d < 8)
  | .fabricOffsetMessage d => decide (d < 8)
  | .angleReceive d => decide (d < 8)
  | .angleChannelTimeout d c => decide (d < 8) && decide (c < 64)
  | .epochCommitReceive d => decide (d < 8)
  | .epochRevertReceive d => decide (d < 8)
  | .epochApplyLateReceive d => decide (d < 8)
  | .epochRefuseReceive d => decide (d < 8)
  | .epochAbortReceive d => decide (d < 8)
  | .eventFrameReceive d => decide (d < 8)
  | .accessRd d => decide (d < 8)
  | .accessWr d => decide (d < 8)
  | .accessMask d => decide (d < 8)
  | .accessColoph d => decide (d < 8)
  | .accessMsg d => decide (d < 8)
  | .accessResponseReceive d => decide (d < 8)
  | .trmSend d => decide (d < 8)
  | .trmPop d => decide (d < 8)
  | .trmEpop d => decide (d < 8)
  | .ddrTraining d _ _ => decide (d < 2)
  | .memChannelLoss d => decide (d < 2)
  | .mirrorCopy _ => true
  | .mirrorCopyComplete => true
  | .dramAccess _ _ _ _ _ => true
  | .patrolScrub d _ => decide (d < 2)
  | .nvmeCommandTimeout d => decide (d < 2)
  | .stacksFrame d => decide (d < 8)
  | .stacksRecordClose d st => decide (d < 8) && decide (st < 3)
  | .stacksRecordWrite d => decide (d < 8)
  | .stacksSegmentClose k => decide (k < 4)
  | .stacksIndexRebuild => true
  | .stacksIndexDone => true
  | .railWarningCrossing d r => decide (d < 8) && decide (r < 8) && (decide (r ≠ 3) || decide (d < 2))
  | .railWarningReturn d r => decide (d < 8) && decide (r < 8) && (decide (r ≠ 3) || decide (d < 2))
  | .dipEnd d => decide (d < 8)
  | .railHighCrossing d r => decide (d < 8) && decide (r < 8) && (decide (r ≠ 3) || decide (d < 2))
  | .railResetCrossing d r => decide (d < 8) && decide (r < 8) && (decide (r ≠ 3) || decide (d < 2))
  | .tempSensorRead d _ => decide (d < 8)
  | .governorStep d _ _ => decide (d < 8)
  | .govDeficit d => decide (d < 8)
  | .packageGovernorStep => true
  | .shareReceive d => decide (d < 8)
  | .shareTimeout d => decide (d < 8)
  | .nvfProg d _ => decide (d < 8)
  | .nvfErase d _ => decide (d < 8)
  | .nvfBlank d _ => decide (d < 8)
  | .nvfUnlock d => decide (d < 8)
  | .nvfRelock d => decide (d < 8)
  | .nvfCmdComplete d => decide (d < 8)
  | .nvfMarkSelect d _ => decide (d < 8)
  | .msrExtend d h _ => decide (d < 8) && decide (h < 2)
  | .msrLock d h _ => decide (d < 8) && decide (h < 2)
  | .msrCreq d => decide (d < 8)
  | .colophonSigned d => decide (d < 8)
  | .excOverloadClear d n => decide (d < 8) && decide (n < 8)
  | .railHighReturn d r => decide (d < 8) && decide (r < 8) && (decide (r ≠ 3) || decide (d < 2))
  | .memChannelReturn d => decide (d < 2)
  | .nvmeControllerReady d _ _ _ => decide (d < 2)
  | .pcieCompletionTimeout d r _ => decide (d < 2) && decide (r < 64)

end Sys2Proof
end

