-- ==== Sys2Proof/Safety.lean ====
section
/-!
DEFINITION. The terms that claims use: a die that runs, the legal member, canonical memories, and what a command leaves alone.
-/

namespace Sys2Proof.Machine

/-- Die `d` is one of the member's and out of reset. -/
abbrev State.Live (s : State) (d : Nat) : Prop := s.hasDie d = true ∧ (s.getDie d).inReset = false

/-- The register table and the byte memories are in their canonical form: addresses strictly rising, nothing listed that an unlisted
address reads as. -/
def State.canonical (s : State) : Bool :=
  Store.wf s.rstOf s.regs && Store.wf (fun _ => 0) s.dram && Store.wf flashDflt s.flash && Store.wf (fun _ => 0) s.hostmem &&
    Store.wf (fun _ => 0) s.progmem && Store.wf (fun _ => 0) s.trcbuf && Store.wf (fun _ => 0) s.tcm && Store.wf (fun _ => 0) s.report &&
    Store.wf (fun _ => []) s.drive

/-- The member is one of the family (R1), every waiting command names items that the largest member has, and the tables are in their
canonical form. -/
def State.Inv (s : State) : Prop :=
  (s.dies = 2 ∨ s.dies = 4 ∨ s.dies = 8) ∧ s.grade ≤ 1 ∧ (∀ c ∈ s.pending, c.wf = true) ∧ s.canonical = true

/-- The memories of the package: DRAM, flash, host memory as the device has written it, program memory, trace buffers,
tightly-coupled SRAM, report windows and drives. -/
inductive Mem where
  | dram | flash | hostmem | progmem | trcbuf | tcm | report | drive
  deriving DecidableEq, Repr

/-- Every byte of memory `k` is as it was. -/
def SameMem (k : Mem) (s t : State) : Prop :=
  match k with
  | .dram => t.dram = s.dram
  | .flash => t.flash = s.flash
  | .hostmem => t.hostmem = s.hostmem
  | .progmem => t.progmem = s.progmem
  | .trcbuf => t.trcbuf = s.trcbuf
  | .tcm => t.tcm = s.tcm
  | .report => t.report = s.report
  | .drive => t.drive = s.drive

/-- The memories that a command may change; a command not named here changes none. The accesses of a register can reach every unit, the
resets empty the on-chip ones. -/
def storesOf (c : Instr) : List Mem :=
  match c with
  | .ptStepTick .. | .tblCmdComplete .. | .traceMoveOn .. | .ledgerSegmentClose .. | .ledgClose .. | .ddrTraining .. |
    .memChannelLoss .. | .mirrorCopy .. | .dramAccess .. | .stacksFrame .. | .stacksRecordClose .. | .memChannelReturn .. => [.dram]
  | .lawStart .. | .lawStop .. | .progmemAccess .. | .mptcmphWrite .. | .mswiSet .. | .mswiClr .. | .mevtpop .. |
    .mlawdataAccess .. | .mlawirqAck .. | .msemAcquire .. | .msemrel .. | .pairSnapshotItem .. | .accessRd .. => [.progmem]
  | .quietTimerExpiry .. | .fltRel .. | .doorbell .. | .ringEnable .. | .ringDisable .. | .descriptorFetch .. | .hifNop .. |
    .hifDmar .. | .hifColoph .. | .hifUndefinedOpcode .. | .fwPop .. | .fwPost .. | .arcRead .. | .arcProtect .. |
    .arcUnprotect .. | .arcSpan .. | .arcUndefinedOp .. | .queueShareDrain .. | .d3hotChange .. | .pcieCompletionTimeout .. => [.hostmem]
  | .stacksRecordWrite .. | .stacksSegmentClose .. | .stacksIndexDone .. => [.drive]
  | .nvfCmdComplete .. => [.flash]
  | .lawRunEnd .. => [.progmem, .trcbuf]
  | .ledgerRecordWrite .. | .hifDmaw .. => [.dram, .hostmem]
  | .hifRdreg .. => [.hostmem, .progmem]
  | .colophonSigned .. => [.hostmem, .report]
  | .powerOnReset .. | .rstnReset .. | .watchdogExpiry .. | .glbSwrstSelf .. | .glbSwrstMate .. | .mateReleasedSeen .. |
    .handoverDrivingCheck .. | .railResetCrossing .. => [.dram, .flash, .progmem, .trcbuf, .tcm, .report]
  | .registerWrite .. | .forwardedWrite .. | .baseImageApply .. | .lawRun .. | .faultMessage .. | .hartMemoryAccess .. |
    .epochDieBoundary .. | .epochAxisBoundary .. | .epochRevert .. | .hifWrreg .. | .hifWr1 .. | .hifMask .. | .accessWr .. |
    .accessMask .. => [.dram, .flash, .hostmem, .progmem, .trcbuf, .tcm, .report]
  | _ => []

/-- The die that a command is about, where the command is an event or an access that only a die out of reset can have: a die in reset
takes no step (R51, R53). -/
def dieOf (c : Instr) : Option Nat :=
  match c with
  | .forwardedWrite d | .clockMonitorWindow d _ _ | .refclkReturn d | .rootRelockComplete d | .holdoverTimeout d |
    .spineTimeExchange d _ | .clkDostep d _ | .clkPtadjSlewWrite d _ | .glbSwrstMate d _ _ | .ptRealign d | .pciePerst d |
    .rootPllLock d | .rootLockRetry d | .optionAreaLoad d _ _ _ | .spineTrained d | .readingCopyStart d | .phase3Step d |
    .rcTrackerUpdate d | .measuredStartComplete d | .baseImageApply d | .watchdogEnable d _ | .watchdogKick d _ | .excWrite d
    _ _ _ | .excOverloadOnset d _ | .excOverloadTimeout d _ | .carrierPeriodEnd d _ | .inputClip d _ | .pilotAcqTimeout d _ |
    .pilotAmplitudeLoss d _ | .trackerUpdate d _ _ | .trackLockQualified d _ | .trackOverspeed d _ | .amplitudeWindowLoss d _
    | .freezeLoss d _ | .pilotJumpLoss d _ | .coastExpiry d _ | .acquisitionComplete d _ | .coastResume d _ | .trkCtrlWrite d
    _ _ | .trkCtrlApply d _ | .trkSectorWrite d _ _ | .trkXreq d _ _ | .trkRearm d _ | .trkAngRead d _ | .tableIndexWrap d _ _
    _ | .tblLoad d _ | .tblStore d _ | .tblMap d _ _ _ _ | .tblUnmap d _ _ | .tblCancel d _ _ | .tblFree d _ | .tblAlloc d _ |
    .tblCmdBadCode d _ | .tblCmdComplete d _ | .tblDescWrite d _ _ _ | .carrelWindowAccess _ d _ _ _ _ | .emuOverrate d _ |
    .emuRebase d _ | .emuPassthroughChange d _ | .encEdgeAccept d _ _ _ _ _ | .encWireDisagree d _ _ | .encIndex d _ _ |
    .probeEdge d _ _ _ | .encRawWrite d _ _ | .encIdxWrite d _ _ | .encIdxArm d _ | .prbStatWrite d _ _ | .encSpeedWindowEnd d
    _ | .encStopTimeout d _ | .acqMuxWrite d _ _ | .filSlotRestart d _ | .comparatorAssert d _ _ _ | .comparatorDeassert d _ _
    _ | .acqCmpWrite d _ _ _ _ | .filApply d _ | .filSyncGo d | .filSyncReset d | .detWindowEnd d _ | .detCfgWrite d _ _ _ |
    .lptUpdate d | .lptLock d | .lptUnlock d | .lptCtrlWrite d _ | .lptPhaseRead d | .lawStart d _ _ | .lawRelease d _ |
    .lawRun d _ _ _ _ _ | .lawRunEnd d _ | .lawStop d _ _ | .progmemAccess _ d _ _ _ _ _ | .lawBankReq d _ _ _ |
    .lawHeaderRead d _ _ | .pwmPeriodStart d _ | .pwmUpdatePoint d _ | .pwmDutyWrite d _ _ _ | .deadTimeExpiry d _ _ |
    .bandMinpExpiry d _ _ | .bandLockQualified d _ _ | .bandLimit d _ _ | .safeStateExit d _ | .pwmSafeWrite d _ _ |
    .pwmCtrlWrite d _ _ | .tuneStart d _ | .tuneAbort d _ | .tuneTimeout d _ | .trcRunWrite d _ | .trcArm d | .trcFire d |
    .traceMoveOn d | .faultMessage d _ | .quietTimerExpiry d _ | .fltRel d _ | .fltClr d _ | .fltStickyClear d _ | .fltMrel d
    | .fltFirstClear d | .pkgfirstMessage d | .fltPkgfirstClear d | .evtPop d | .fltInjGo d _ | .ledgerRecordWrite d |
    .ledgClose d | .comparatorSelftest d _ | .heartbeatASend d | .heartbeatAReceive d _ | .heartbeatAMiss d | .heartbeatBSend
    d | .heartbeatBReceive d _ | .heartbeatBMiss d | .startwaitExpiry d | .loopbackTest d | .loopbackResult d _ |
    .loopbackRetry d | .seizeReceived d | .mateDrivingSeen d | .mateReleasedSeen d | .handoverDrivingCheck d | .swapDue d |
    .pairSwapnow d | .swapTs d | .swapLate d | .snapshotRequest d | .pairSnapshotItem d _ _ _ | .resyncTimeout d |
    .resyncRetry d | .shadowCompare d _ _ _ | .shadowTimeExpiry d | .cfgStageGo d _ | .stagingComplete d | .cfgCommit d _ |
    .cfgAbort d | .epochDieBoundary d | .epochAxisBoundary d _ | .epochSkewCheck d | .epochRevert d _ | .pcieLinkTraining d _
    _ | .doorbell d _ _ _ | .ringEnable d _ _ | .ringDisable d _ | .descriptorFetch d _ _ _ | .fwPop d | .fwPost d |
    .queueShareDrain d _ | .msixModerationTimeout d _ | .msixUnmask d _ _ | .functionLost d _ | .d3hotChange d _ |
    .teramTrainingComplete d _ | .teramLinkLoss d | .teramRetrain d | .beatKeepSend d | .helloReceive d _ | .announceReceive d
    _ | .knownPackageExpiry d _ | .frameForward d _ | .timeSyncSend d _ | .timeSyncReceive d _ _ | .timeReplyReceive d _ _ |
    .fabricOffsetMessage d | .angleReceive d | .angleChannelTimeout d _ | .epochCommitReceive d | .epochRevertReceive d |
    .epochApplyLateReceive d | .epochRefuseReceive d | .epochAbortReceive d | .eventFrameReceive d | .accessRd d | .accessWr d
    | .accessMask d | .accessColoph d | .accessMsg d | .accessResponseReceive d | .trmSend d | .trmPop d | .trmEpop d |
    .ddrTraining d _ _ | .patrolScrub d _ | .nvmeCommandTimeout d | .stacksFrame d | .stacksRecordClose d _ |
    .stacksRecordWrite d | .dipEnd d | .tempSensorRead d _ | .governorStep d _ _ | .govDeficit d | .shareReceive d |
    .shareTimeout d | .nvfProg d _ | .nvfErase d _ | .nvfBlank d _ | .nvfUnlock d | .nvfRelock d | .nvfCmdComplete d |
    .nvfMarkSelect d _ | .msrCreq d | .colophonSigned d | .excOverloadClear d _ | .memChannelReturn d | .nvmeControllerReady d
    _ _ _ | .pcieCompletionTimeout d _ _ => some d
  | _ => none

end Sys2Proof.Machine
end

