-- ==== Sys2Proof/Certificates/Slice0/Obligations.lean ====
section
/-!
DEFINITION. The statements for the provers.
-/

open Sys2Proof Sys2Proof.Machine


/-- A write of the excitation registers (R63, R66, R67), its forwarding (R26), and a set that the die does not hold (R27). -/
def Obligations.ExcitationWriteWaitsForItsBoundary : Prop :=
  ∀ (s : State) (d n : Nat) (v : Word), s.Live d → n < 8 →
    (s.forwards d = false → s.holds d n = true → 0xD1B71 ≤ v.toNat → v.toNat ≤ 0x10624DD →
      exec (.excWrite d n 1 v) s = .next (s.commit
        ((((s.wr d EXC_FINC.FINC v.toNat n).modExc d n fun x => { x with pendFinc := some ((s.pt + 49999) / 25000 * 25000) }).wr d
          EXC_CTRL.PEND 1 n).wrBit d EXC_STAT.PEND n true))) ∧
    (s.forwards d = false → s.holds d n = true → ∀ f, (v.toNat < 0xD1B71 ∧ f = 0xD1B71 ∨ 0x10624DD < v.toNat ∧ f = 0x10624DD) →
      exec (.excWrite d n 1 v) s = .next (s.commit
        ((((((s.wr d EXC_FINC.FINC f n).modExc d n fun x => { x with pendFinc := some ((s.pt + 49999) / 25000 * 25000) }).wr d
          EXC_CTRL.CLAMP 1 n).raise d 336 3 n).wr d EXC_CTRL.PEND 1 n).wrBit d EXC_STAT.PEND n true))) ∧
    (s.forwards d = false → s.holds d n = true →
      exec (.excWrite d n 2 v) s = .next (s.commit
        ((((s.wr d EXC_AMP.AMP (v.toNat % 32768) n).modExc d n fun x => { x with pendAmp := some ((s.pt + 49999) / 25000 * 25000) }).wr d
          EXC_CTRL.PEND 1 n).wrBit d EXC_STAT.PEND n true))) ∧
    (s.forwards d = false → s.holds d n = true → ∀ u : State,
      u = ((((s.wr d EXC_CTRL.EN (bitsOf v.toNat 0 1) n).wr d EXC_CTRL.DRIVE (bitsOf v.toNat 1 1) n).wr d EXC_CTRL.GROUP
        (bitsOf v.toNat 4 3) n).wr d EXC_CTRL.PILOTBW (bitsOf v.toNat 8 2) n) →
      exec (.excWrite d n 0 v) s = .next (s.commit
        ((((if bitOf v.toNat 25 = true then u.wr d EXC_CTRL.CLAMP 0 n else u).modExc d n fun x =>
          { x with pendCtrl := some ((s.pt + 49999) / 25000 * 25000) }).wr d EXC_CTRL.PEND 1 n).wrBit d EXC_STAT.PEND n true))) ∧
    (s.forwards d = false → s.holds d n = false → ∀ r f, (r = 0 ∧ f = EXC_CTRL.EN ∨ r = 1 ∧ f = EXC_FINC.FINC ∨ r = 2 ∧ f = EXC_AMP.AMP) →
      exec (.excWrite d n r v) s = .next (s.commit
        (s.drew.accessFault d (s.free % 7) true 2 2 (d * dieSpan + f.addr 0 n 0)))) ∧
    (s.forwards d = true → ∀ r f, (r = 0 ∧ f = EXC_CTRL.EN ∨ r = 1 ∧ f = EXC_FINC.FINC ∨ r = 2 ∧ f = EXC_AMP.AMP) →
      exec (.excWrite d n r v) s = .next (s.commit
        ((excWrite n r v s.pt (s.activeOf d) s).modFwd (mateOf (s.activeOf d)) fun q =>
          q ++ [{ off := f.addr 0 n 0, val := v, tick := s.pt }])))

/-- Driver overload (R75, R288): onset, timeout, clear. -/
def Obligations.ExcitationOverloadIsTimed : Prop :=
  ∀ (s : State) (d n : Nat), s.Live d → n < 8 →
    exec (.excOverloadOnset d n) s = .next (s.commit
      ((s.wr d EXC_CTRL.OVLD 1 n).modExc d n fun x => { x with ovldAt := some (x.ovldAt.getD s.pt) })) ∧
    (∀ t, (s.getExc d n).ovldAt = some t → (s.passTo (t + 250000)).excOverRaised d n = false →
      exec (.excOverloadTimeout d n) s = .next (s.commit ((s.passTo (t + 250000)).raiseAx d n 2 1))) ∧
    (∀ t, (s.getExc d n).ovldAt = some t → (s.passTo (t + 250000)).excOverRaised d n = true →
      exec (.excOverloadTimeout d n) s = .next (s.commit (s.passTo (t + 250000)))) ∧
    (s.excOverRaised d n = true →
      exec (.excOverloadClear d n) s = .next (s.commit
        (((s.wr d EXC_CTRL.OVLD 0 n).modExc d n fun x => { x with ovldAt := none }).raiseAx d n 2 2))) ∧
    (s.excOverRaised d n = false →
      exec (.excOverloadClear d n) s = .next (s.commit ((s.wr d EXC_CTRL.OVLD 0 n).modExc d n fun x => { x with ovldAt := none }))) ∧
    ((s.getExc d n).ovldAt = none → exec (.excOverloadTimeout d n) s = .next (s.commit s))

/-- The pilot (R85). -/
def Obligations.PilotLocksAndHolds : Prop :=
  ∀ (s : State) (d n : Nat), s.Live d → n < 8 →
    (∀ t, (s.getExc d n).acqEnd = some t → 3277 ≤ (s.passTo t).rd d EXC_PILOT.AMPL n →
      exec (.pilotAcqTimeout d n) s = .next (s.commit
        (((s.passTo t).modExc d n fun x => { x with acqEnd := none, wideEnd := none }).wr d EXC_PILOT.LOCK 1 n))) ∧
    (∀ t, (s.getExc d n).acqEnd = some t → (s.passTo t).rd d EXC_PILOT.AMPL n < 3277 →
      exec (.pilotAcqTimeout d n) s = .next (s.commit (s.passTo t))) ∧
    (∀ t, (s.getExc d n).acqEnd = none → (s.getExc d n).wideEnd = some t →
      exec (.pilotAcqTimeout d n) s = .next (s.commit ((s.passTo t).modExc d n fun x => { x with wideEnd := none }))) ∧
    (∀ t, (s.getExc d n).lowAt = some t → s.bit d EXC_PILOT.LOCK n = true →
      exec (.pilotAmplitudeLoss d n) s = .next (s.commit
        (((s.passTo (t + 2500000)).wr d EXC_PILOT.LOCK 0 n).modExc d n fun x => { x with held := true, acqEnd := none }))) ∧
    (s.bit d EXC_PILOT.LOCK n = false → exec (.pilotAmplitudeLoss d n) s = .next (s.commit s))

/-- Clipping (R83): the record of the period that ends, and the report of a run. -/
def Obligations.InputClipIsRaisedOnceForARun : Prop :=
  ∀ (s : State) (d n : Nat), s.Live d → n < 8 →
    ((s.getExc d n).closed = some (false, false) →
      exec (.carrierPeriodEnd d n) s = .next (s.commit (trkPeriod d n
        (((s.wr d EXC_CLIP.SCLIP 0 n).wr d EXC_CLIP.CCLIP 0 n).modExc d n fun x =>
          { x with closed := none, clipRun := 0, clipDone := false })))) ∧
    (∀ a b, (s.getExc d n).closed = some (a, b) → (a || b) = true →
      exec (.carrierPeriodEnd d n) s = .next (s.commit (trkPeriod d n
        ((((s.wr d EXC_CLIP.SCLIP (b2n a) n).wr d EXC_CLIP.CCLIP (b2n b) n).addSat d EXC_CLIP.COUNT 1 n).modExc d n fun x =>
          { x with closed := none, clipRun := x.clipRun + 1 })))) ∧
    ((s.getExc d n).closed = none → exec (.carrierPeriodEnd d n) s = .next (s.commit (trkPeriod d n s))) ∧
    (0 < s.rd d EXC_CLIP.LIMIT n → s.rd d EXC_CLIP.LIMIT n ≤ (s.getExc d n).clipRun → (s.getExc d n).clipDone = false →
      exec (.inputClip d n) s = .next (s.commit ((s.modExc d n fun x => { x with clipDone := true }).raiseAx d n 0 3))) ∧
    (s.rd d EXC_CLIP.LIMIT n = 0 ∨ (s.getExc d n).clipRun < s.rd d EXC_CLIP.LIMIT n ∨ (s.getExc d n).clipDone = true →
      exec (.inputClip d n) s = .next (s.commit s))

/-- The loss detectors (R93, R103 to R105), and the declaration of a loss (R106 to R108). -/
def Obligations.TrackerLossesAreDeclaredByTheirDetectors : Prop :=
  ∀ (s : State) (d n : Nat), s.Live d → n < 8 →
    (∀ lim, lim = (if s.carrierHz d n / 2 < 5000 then s.carrierHz d n / 2 else 5000) → 8 ≤ (s.getTrk d n).ovsRun →
      exec (.trackOverspeed d n) s = .next (s.commit (trackLoss d n 5 none
        (((s.modTrk d n fun t => { t with w := clampQ (-lim) lim t.w, ovsRun := 0 }).wr d TRK_STAT.OVERSPD 1 n).raiseAx d n 5 3)))) ∧
    ((s.getTrk d n).ovsRun < 8 → exec (.trackOverspeed d n) s = .next (s.commit s)) ∧
    (max 1 (s.rd d TRK_AMPWIN.QUAL n) ≤ (s.getTrk d n).ampRun →
      exec (.amplitudeWindowLoss d n) s = .next (s.commit (trackLoss d n (if (s.getTrk d n).ampLow = true then 1 else 2) none s))) ∧
    ((s.getTrk d n).ampRun < max 1 (s.rd d TRK_AMPWIN.QUAL n) → exec (.amplitudeWindowLoss d n) s = .next (s.commit s)) ∧
    (s.bit d TRK_FRZ.FEN n = true → max 8 (s.rd d TRK_FRZ.CNT n) ≤ (s.getTrk d n).frzRun →
      exec (.freezeLoss d n) s = .next (s.commit (trackLoss d n 3 (some (s.getTrk d n).frzAt) s))) ∧
    (s.bit d TRK_FRZ.FEN n = false ∨ (s.getTrk d n).frzRun < max 8 (s.rd d TRK_FRZ.CNT n) →
      exec (.freezeLoss d n) s = .next (s.commit s)) ∧
    (2 ≤ (s.getTrk d n).jumpRun →
      exec (.pilotJumpLoss d n) s = .next (s.commit (trackLoss d n 4 (some (s.getTrk d n).jumpAt) s))) ∧
    ((s.getTrk d n).jumpRun < 2 → exec (.pilotJumpLoss d n) s = .next (s.commit s)) ∧
    (∀ (c : Nat) (b : Option Nat), s.bit d TRK_STAT.COASTING n = true ∨ s.bit d TRK_STAT.ACQ n = true → trackLoss d n c b s = s) ∧
    (s.bit d TRK_STAT.COASTING n = false → s.bit d TRK_STAT.ACQ n = false → (s.getTrk d n).rearmAt = none →
      ∀ (c : Nat) (b : Option Nat) (r u : State), r = (match b with | some t => rollBack d n t s | none => s) →
        u = ((((((r.wr d TRK_STAT.CAUSE c n).wr d TRK_STAT.ANGVALID 0 n).wr d TRK_STAT.LOCK 0 n).wrBit d TRK_LOSS.LOSS n true).raiseAx d n 3 3).modTrk
          d n fun t => { t with lockRun := 0, good := 0, seen := [], speedWait := false, reacq := false, e := 0 }) →
        (c = 5 → trackLoss d n c b s = ((u.wr d TRK_STAT.HOLD 1 n).wr d TRK_STAT.ACQ 1 n).refreshAxis d n) ∧
        (c ≠ 5 → ∀ k v w, k = u.coastTicks d n →
          v = ((u.wr d TRK_STAT.COASTING 1 n).modTrk d n fun t => { t with coastEnd := some (u.pt + k) }) →
          w = (if v.bit d TRK_CTRL.COASTOK n = true then v else (v.wr d TRK_STAT.HOLD 1 n).refreshAxis d n) →
          trackLoss d n c b s = if k = 0 then coastEnds d n w else w))

/-- Coast, acquisition, lock and update (R94, R108 to R110), and the encoder row of a snapshot (R355). -/
def Obligations.TrackerCoastsResumesAndAcquires : Prop :=
  ∀ (s : State) (d n : Nat), s.Live d → n < 8 →
    (∀ e, (s.getTrk d n).coastEnd = some e → s.bit d TRK_STAT.COASTING n = true →
      ¬ (4 ≤ (s.getTrk d n).good ∧ updOf (s.getTrk d n).goodAt < updOf e) →
      exec (.coastExpiry d n) s = .next (s.commit
        ((((((((s.passTo e).wr d TRK_STAT.COASTING 0 n).wr d TRK_STAT.HOLD 1 n).wr d TRK_STAT.ACQ 1 n).modTrk d n fun t =>
          { t with coastEnd := none, good := 0, seen := [], speedWait := false }).wrBit d TRK_LOSS.EXPIRED n true).raiseAx d n 4 3).refreshAxis
            d n))) ∧
    (∀ e, (s.getTrk d n).coastEnd = some e → s.bit d TRK_STAT.COASTING n = true → 4 ≤ (s.getTrk d n).good →
      updOf (s.getTrk d n).goodAt < updOf e →
      exec (.coastResume d n) s = .next (s.commit
        ((s.wr d TRK_STAT.COASTING 0 n).modTrk d n fun t => { t with coastEnd := none, good := 0, lockRun := 0 }))) ∧
    (s.bit d TRK_STAT.ACQ n = true → 4 ≤ (s.getTrk d n).good → (s.getTrk d n).speedWait = false →
      exec (.acquisitionComplete d n) s = .next (s.commit
        ((s.modTrk d n fun t =>
          { t with th := sgn 56 (enc 56 (t.th + wrapDiff 40 (atan40 (s.getTrk d n).lastS (s.getTrk d n).lastC) t.th)), speedWait := true,
                   seen := [], good := 0, sectHold := true, reacq := true, lockRun := 0 }).wr d TRK_STAT.MECHVALID 0 n))) ∧
    (∀ u, u = ((s.wr d TRK_STAT.LOCK 1 n).wr d TRK_STAT.ANGVALID 1 n) → 256 ≤ (s.getTrk d n).lockRun →
      exec (.trackLockQualified d n) s = .next (s.commit (if (s.getTrk d n).reacq = true then
        (u.modTrk d n fun t => { t with reacq := false }).raiseAx d n 7 3 else u))) ∧
    ((s.getTrk d n).lockRun < 256 → exec (.trackLockQualified d n) s = .next (s.commit s)) ∧
    (∀ ecc u v, u = s.toNext (State.stepNo 2 d n) 1000 → u.rd d GLB_PHASE.PHASE = 5 → v = encSnapTake d n (trkUpdate d n ecc u) →
      exec (.trackerUpdate d n ecc) s = .next (s.commit
        (if v.holds d n = true then angleSend d n (emuCopy d n (emuAdvance d n (u.getTrk d n).pendSect.isSome v)) else v))) ∧
    (∀ ecc u, u = s.toNext (State.stepNo 2 d n) 1000 → u.rd d GLB_PHASE.PHASE ≠ 5 →
      exec (.trackerUpdate d n ecc) s = .next (s.commit u)) ∧
    ((s.getEnc d n).snap = none → encSnapTake d n s = s) ∧
    (∀ x, (s.getEnc d n).snap = some x →
      (s.pt < x.u + 16000 ∨ s.rd d PAIR_STAT.RESYNC ≠ 2 → encSnapTake d n s = s) ∧
      (x.u + 16000 ≤ s.pt → s.rd d PAIR_STAT.RESYNC = 2 → encSnapTake d n s = itemApplied d (32 + n)
        (((encPut d n x.c (s.modEnc d n fun y => { y with snap := none })).wr d ENC_IDX.ARMED (b2n x.armed) n).wr d ENC_IDX.FIRST
          (b2n x.first) n))) ∧
    (∀ p u a at0 q, u = trkJudge d n p s → (s.getTrk d n).speedWait = true → (s.getTrk d n).seen = (a, at0) :: q → at0 < p.to_ →
      u.bit d TRK_STAT.ACQ n = false ∧ (u.getTrk d n).speedWait = false ∧
        (u.getTrk d n).w = (wrapDiff 40 (atan40 p.sS p.sC) a : Rat) / 1099511627776 / ((((p.to_ - at0 : Nat) : Rat)) * 4 / 10000000000))

/-- Writes and reads of a tracker (R91, R92, R95, R99, R100, R108, R111), and a set that is not held (R27). -/
def Obligations.TrackerRegistersAreWrittenAndRead : Prop :=
  ∀ (s : State) (d n : Nat) (v : Word), s.Live d → n < 8 →
    (s.forwards d = false → s.holds d n = true →
      (∀ u x y : State, u = (((((s.wr d TRK_CTRL.COASTOK (bitsOf v.toNat 16 1) n).wr d TRK_CTRL.COAST (min (bitsOf v.toNat 24 8) 200) n).wr d
          TRK_CTRL.TYPE (bitsOf v.toNat 0 1) n).wr d TRK_CTRL.BW (bitsOf v.toNat 4 4) n).wr d TRK_CTRL.PPM1 (bitsOf v.toNat 8 4) n) →
        x = (if 200 < bitsOf v.toNat 24 8 then u.raiseAx d n 6 3 else u) →
        y = (if s.rd d TRK_CTRL.TYPE n ≠ bitsOf v.toNat 0 1 ∨ s.rd d TRK_CTRL.BW n ≠ bitsOf v.toNat 4 4 ∨ s.rd d TRK_CTRL.PPM1 n ≠ bitsOf v.toNat 8 4
          then x.modTrk d n fun r => { r with pendCtrl := some (v, s.pt + 5000) } else x) →
        exec (.trkCtrlWrite d n v) s = .next (s.commit (if bitOf v.toNat 17 = true then trkRearm d n y else y))) ∧
      (s.bit d TRK_STAT.ANGVALID n = false → exec (.trkRearm d n) s = .next (s.commit s)) ∧
      (s.bit d TRK_STAT.ANGVALID n = true → s.bit d TRK_STAT.HOLD n = true → exec (.trkRearm d n) s = .next (s.commit
        (((s.modTrk d n fun t => { t with rearmAt := some s.pt }).wr d TRK_STAT.HOLD 0 n).refreshAxis d n))) ∧
      (s.bit d TRK_STAT.ANGVALID n = true → s.bit d TRK_STAT.HOLD n = false → exec (.trkRearm d n) s = .next (s.commit
        ((s.wr d TRK_STAT.HOLD 0 n).refreshAxis d n))) ∧
      exec (.trkSectorWrite d n v) s = .next (s.commit (s.modTrk d n fun t => { t with pendSect := some v })) ∧
      exec (.trkXreq d n v) s = .next (s.commit (
        let t := s.rd d TRK_XREQ.PT n % 2 ^ 32 + v.toNat * 2 ^ 32
        let r := angleAt d n t 0 (s.wr d TRK_XREQ.PT t n)
        (((((r.2.wr d TRK_XANG.FRAC (ang48 r.1.ang).1 n).wr d TRK_XANG.TURNS (ang48 r.1.ang).2 n).wr d TRK_XSTAT.DONE 1 n).wr d TRK_XSTAT.VALID
          (b2n (bitOf r.1.stat 0)) n).wr d TRK_XSTAT.FUTCLAMP (b2n r.1.fut) n).wr d TRK_XSTAT.HISTCLAMP (b2n r.1.hist) n))) ∧
    (s.holds d n = true → ∃ t, exec (.trkAngRead d n) s = .next t ∧ t.readData = (s.reg (TRK_ANG.FRAC.addr d n 0)).toNat ∧ t.regs = s.regs ∧
      (∀ k, k < 6 → t.latch.get (TRK_ANG.FRAC.addr d n 0 + 4 + 4 * k) 0 = s.reg (TRK_ANG.FRAC.addr d n 0 + 4 + 4 * k)) ∧
      (∀ p q, (s.getTrk d n).hist = p :: q → t.latch.get (TRK_ANG.FRAC.addr d n 0 - 4) 0 = BitVec.ofNat 32 p.stat)) ∧
    (s.holds d n = false → exec (.trkAngRead d n) s = .next (s.commit
      ((s.drew.answer 0).accessFault d (s.free % 7) false 2 2 (TRK_ANG.FRAC.addr d n 0)))) ∧
    (∀ w e u x, (s.getTrk d n).pendCtrl = some (w, e) → u = ((s.passTo e).toGrid 1000).modTrk d n (fun x => { x with pendCtrl := none }) →
      x = trkCtrlTake d n w.toNat u →
      exec (.trkCtrlApply d n) s = .next (s.commit x) ∧ (x.getTrk d n).typ3 = bitOf w.toNat 0 ∧ (x.getTrk d n).ppm = bitsOf w.toNat 8 4 ∧
        (x.getTrk d n).code = bitsOf w.toNat 4 4 ∧ (x.getTrk d n).bw = bwLimit (u.fincOf d n) (bitsOf w.toNat 4 4) ∧
        ((u.getTrk d n).ppm ≠ bitsOf w.toNat 8 4 → x.rd d TRK_SECTOR.SECTOR n = 0 ∧ x.rd d TRK_SECTOR.MTURNS n = 0 ∧
          x.bit d TRK_STAT.MECHVALID n = false)) ∧
    ((s.getTrk d n).pendCtrl = none → exec (.trkCtrlApply d n) s = .next (s.commit s))

/-- The page commands (R134, R136, R137): acceptance, refusals, effects, end, and their sharing by a pair. -/
def Obligations.PageCommandsHaveTheirEffect : Prop :=
  ∀ (s : State) (d pa pb n t b : Nat), s.Live d → pa < 32 → pb < 32 → n < 8 → t < 4 → (b = 0 ∨ 7 < b ∧ b < 16) →
    (∀ (i : Instr) (op p q m r : Nat), (i, op, p, q, m, r) ∈ [(Instr.tblLoad d pa, 1, pa, 0, 0, 0), (.tblStore d pa, 2, pa, 0, 0, 0),
        (.tblMap d pa pb n t, 3, pa, pb, n, t), (.tblUnmap d n t, 4, 0, 0, n, t), (.tblCancel d n t, 5, 0, 0, n, t),
        (.tblFree d pa, 6, pa, 0, 0, 0), (.tblAlloc d pa, 7, pa, 0, 0, 0), (.tblCmdBadCode d b, b, 0, 0, 0, 0)] →
      (s.bit d TBL_CMDSTAT.BUSY = true →
        exec i s = .next (s.commit (((s.wr d TBL_CMDSTAT.ERR 1).wr d TBL_CMDSTAT.MATEERR 0).raise d 368 3 1))) ∧
      (s.bit d TBL_CMDSTAT.BUSY = false → s.forwards d = false → ∀ u,
        u = (((((s.wr d TBL_CMDSTAT.BUSY 1).wr d TBL_CMDSTAT.ERR 0).wr d TBL_CMDSTAT.MATEERR 0).wr d TBL_CMDSTAT.LASTOP op).modTcmd d fun c =>
          { c with own := true, share := false }) →
        (tblCheck u d op p q m r ≠ 0 → exec i s = .next (s.commit (tblFinish d (tblError d (tblCheck u d op p q m r) u)))) ∧
        (tblCheck u d op p q m r = 0 → op = 1 ∨ op = 2 → exec i s = .next (s.commit (tblEffect d op p q m r u))) ∧
        (tblCheck u d op p q m r = 0 → op ≠ 1 → op ≠ 2 → exec i s = .next (s.commit (tblFinish d (tblEffect d op p q m r u))))) ∧
      (s.bit d TBL_CMDSTAT.BUSY = false → s.forwards d = true → ∀ a u, a = s.activeOf d →
        u = (tblAccept (mateOf a) op true (tblAccept a op true s)).modFwd (mateOf a) (fun w =>
          w ++ [{ off := 0x7800C, val := BitVec.ofNat 32 (s.rd d TBL_CMDOFS.OFS), tick := s.pt },
            { off := 0x78008, val := BitVec.ofNat 32 (op + p * 16 + q * 512 + m * 65536 + r * 1048576), tick := s.pt }]) →
        exec i s = .next (s.commit (tblStart a op p q m r (u.wr a TBL_CMDOFS.OFS (s.rd d TBL_CMDOFS.OFS)))))) ∧
    (∀ u : State, tblCheck u d b 0 0 0 0 = 2) ∧
    (∀ (u : State) (op : Nat), op = 3 ∨ op = 4 ∨ op = 5 → u.holds d n = false → tblCheck u d op pa pb n t = 6) ∧
    (∀ u : State, tblCheck u d 1 pa 0 0 0 = if u.rd d TBL_PAGE.STATE pa = 0 ∨ u.rd d TBL_PAGE.STATE pa = 2 then 0 else 3) ∧
    (∀ u : State, tblCheck u d 2 pa 0 0 0 =
      if u.rd d TBL_PAGE.STATE pa = 2 ∨ u.rd d TBL_PAGE.STATE pa = 4 ∨ u.rd d TBL_PAGE.STATE pa = 5 then 0 else 3) ∧
    (∀ u : State, u.holds d n = true → tblCheck u d 3 pa pb n t =
      if u.tblBins d n t ≤ u.coarseBins d then 5 else if u.tblBins d n t = 4096 ∧ pa = pb then 5
      else if u.bit d TBL_RES.PEND n t = true then 4
      else if u.rd d TBL_PAGE.STATE pa = 2 ∧ (u.tblBins d n t = 4096 → u.rd d TBL_PAGE.STATE pb = 2) then 0 else 3) ∧
    (∀ u : State, u.holds d n = true → tblCheck u d 4 0 0 n t =
      if u.bit d TBL_RES.ACTIVE n t = true ∧ u.bit d TBL_RES.PEND n t = false then 0 else 4) ∧
    (∀ u : State, u.holds d n = true → tblCheck u d 5 0 0 n t = if (u.getSlot d n t).map = none then 4 else 0) ∧
    (∀ u : State, tblCheck u d 6 pa 0 0 0 = if u.rd d TBL_PAGE.STATE pa = 2 then 0 else 3) ∧
    (∀ u : State, tblCheck u d 7 pa 0 0 0 = if u.rd d TBL_PAGE.STATE pa = 0 then 0 else 3) ∧
    (∀ u : State, tblEffect d 1 pa 0 0 0 u =
      (u.wr d TBL_PAGE.STATE 3 pa).modTcmd d fun c => { c with run := some (true, pa, u.rd d TBL_CMDOFS.OFS) }) ∧
    (∀ u : State, tblEffect d 2 pa 0 0 0 u = u.modTcmd d fun c => { c with run := some (false, pa, u.rd d TBL_CMDOFS.OFS) }) ∧
    (∀ u v : State, v = (if u.tblBins d n t = 4096 then setPage (setPage u d pa 4 n t 0) d pb 4 n t 1 else setPage u d pa 4 n t 0) →
      tblEffect d 3 pa pb n t u = (v.wr d TBL_RES.PEND 1 n t).modSlot d n t fun x => { x with map := some (pa, pb) }) ∧
    (∀ u : State, tblEffect d 4 0 0 n t u = (u.wr d TBL_RES.PEND 1 n t).modSlot d n t fun x => { x with unmap := true }) ∧
    (∀ (u v : State) (p q : Nat), (u.getSlot d n t).map = some (p, q) → v = u.wr d TBL_PAGE.STATE 2 p →
      tblEffect d 5 0 0 n t u =
        ((if v.tblBins d n t = 4096 then v.wr d TBL_PAGE.STATE 2 q else v).wr d TBL_RES.PEND 0 n t).modSlot d n t fun x => { x with map := none }) ∧
    (∀ u : State, tblEffect d 6 pa 0 0 0 u = u.wr d TBL_PAGE.STATE 0 pa) ∧
    (∀ u : State, tblEffect d 7 pa 0 0 0 u = u.wr d TBL_PAGE.STATE 2 pa) ∧
    (∀ (u : State) (e : Nat), u.rd d TBL_CMDSTAT.ERR = 0 → (u.getTcmd d).share = false →
      tblError d e u = ((u.wr d TBL_CMDSTAT.ERR e).wr d TBL_CMDSTAT.MATEERR 0).raise d 368 3 e) ∧
    (∀ u : State, (u.getTcmd d).share = false → tblFinish d u =
      ((((u.modTcmd d fun c => { c with own := false, run := none }).wr d TBL_CMDSTAT.BUSY 0).wr d TBL_CMDSTAT.DONE 1).setIrqs d 17
        true).modTcmd d fun c => { c with share := false })

/-- Tables and their pages (R114, R122, R123, R129, R132, R134, R136, R138, R140, R141). -/
def Obligations.TablesMapAtTheirWrapAndMoveByPages : Prop :=
  ∀ (s : State) (d n t : Nat), s.Live d → n < 8 → t < 4 →
    (∀ fwd, s.wrapDue d n t ≠ some fwd → exec (.tableIndexWrap d n t fwd) s = .next (s.commit s)) ∧
    (∀ fwd, s.wrapDue d n t = some fwd → ¬ (t = 0 ∧ s.rd d TBL_DESC.ROLE n 0 = 1) →
      exec (.tableIndexWrap d n t fwd) s = .next (s.commit (wrapTake d n t s))) ∧
    (∀ fwd x y, s.wrapDue d n t = some fwd → t = 0 → s.rd d TBL_DESC.ROLE n 0 = 1 → x = wrapTake d n t s →
      y = closeRevolution d n fwd (if (s.getSlot d n t).map.isSome = true ∨ (s.getSlot d n t).unmap = true then republish d n x else x) →
      ((y.getSlot d n 0).late = none → exec (.tableIndexWrap d n t fwd) s = .next (s.commit y)) ∧
      (∀ u th c w e, (y.getSlot d n 0).late = some (u, th, c, w, e) → ∃ corr, exec (.tableIndexWrap d n t fwd) s = .next (s.commit
        (correctionLearn d n u th corr w e (y.modSlot d n 0 fun r => { r with late := none }))))) ∧
    (∀ fwd, ((closeRevolution d n fwd s).getSlot d n 0).u0 = some (s.rd d TRK_STAMP.PT n) ∧
      ((closeRevolution d n fwd s).getSlot d n 0).w2 = (s.getSlot d n 0).w1) ∧
    (∀ u k, u = (if (s.getSlot d n t).missRev = true then s.addSat d TBL_MISSCNT.COUNT 1 n t else s) → k = floorQ (u.lineAt d u.pt) →
      wrapTake d n t s = mapActivate d n t (u.modSlot d n t fun x => { x with missRev := false, wrap := none, turn := k })) ∧
    ((s.getSlot d n t).map = none → (s.getSlot d n t).unmap = false → mapActivate d n t s = s) ∧
    ((s.getSlot d n t).map = none → (s.getSlot d n t).unmap = true → mapActivate d n t s =
      ((((holdPages s d (activePages s d n t)).wr d TBL_RES.ACTIVE 0 n t).wr d TBL_RES.PEND 0 n t).modSlot d n t fun x =>
        { x with unmap := false }).raise d (80 + n) 3 n) ∧
    (∀ p0 p1 u, (s.getSlot d n t).map = some (p0, p1) → u = ((holdPages s d (activePages s d n t)).wr d TBL_PAGE.STATE 5 p0).wr d TBL_RES.PAGE0 p0 n t →
      mapActivate d n t s = ((((if u.tblBins d n t = 4096 then (u.wr d TBL_PAGE.STATE 5 p1).wr d TBL_RES.PAGE1 p1 n t else u).wr d
        TBL_RES.ACTIVE 1 n t).wr d TBL_RES.PEND 0 n t).modSlot d n t fun x => { x with map := none }).raise d (80 + n) 3 n) ∧
    ((s.getTcmd d).run = none → ∀ bad, exec (.tblCmdComplete d bad) s = .next (s.commit s)) ∧
    (∀ p ofs a, (s.getTcmd d).run = some (true, p, ofs) → a = (s.rd d TBL_LIBBASE.BASE + ofs) * 4096 % 2 ^ 35 →
      (∀ bs u, s.dramRead a 4096 = (some bs, u) →
        exec (.tblCmdComplete d false) s = .next (s.commit (tblFinish d ((fillPage u d p bs).wr d TBL_PAGE.STATE 2 p)))) ∧
      (∀ u, s.dramRead a 4096 = (none, u) →
        exec (.tblCmdComplete d false) s = .next (s.commit (tblFinish d ((tblError d 7 u).wr d TBL_PAGE.STATE 0 p)))) ∧
      exec (.tblCmdComplete d true) s = .next (s.commit (tblFinish d ((tblError d 7 s).wr d TBL_PAGE.STATE 0 p)))) ∧
    (∀ p ofs a, (s.getTcmd d).run = some (false, p, ofs) → a = (s.rd d TBL_LIBBASE.BASE + ofs) * 4096 % 2 ^ 35 →
      (∀ u, s.dramWrite a (pageBytes s d p) = (true, u) → exec (.tblCmdComplete d false) s = .next (s.commit (tblFinish d u))) ∧
      (∀ u, s.dramWrite a (pageBytes s d p) = (false, u) → exec (.tblCmdComplete d false) s = .next (s.commit (tblFinish d (tblError d 7 u)))) ∧
      exec (.tblCmdComplete d true) s = .next (s.commit (tblFinish d (tblError d 7 s)))) ∧
    (∀ (v : Word) (fixed rb sb bb : Bool) (role src : Nat) (x y z : State), s.forwards d = false → s.holds d n = true →
      fixed = (s.bit d TBL_RES.ACTIVE n t || s.bit d TBL_RES.PEND n t) →
      rb = ((bitsOf v.toNat 0 2 == 1 && t != 0) || (fixed && bitsOf v.toNat 0 2 != s.rd d TBL_DESC.ROLE n t)) →
      role = (if rb = true then s.rd d TBL_DESC.ROLE n t else bitsOf v.toNat 0 2) →
      sb = ((role == 1 && (bitsOf v.toNat 2 2 == 1 || bitsOf v.toNat 2 2 == 2)) || (fixed && bitsOf v.toNat 2 2 != s.rd d TBL_DESC.SRC n t)) →
      src = (if sb = true then s.rd d TBL_DESC.SRC n t else bitsOf v.toNat 2 2) →
      bb = (fixed && bitsOf v.toNat 4 3 != s.rd d TBL_DESC.BINS n t) →
      x = (if bb = true then (s.wr d TBL_DESC.ROLE role n t).wr d TBL_DESC.SRC src n t
        else ((s.wr d TBL_DESC.ROLE role n t).wr d TBL_DESC.SRC src n t).wr d TBL_DESC.BINS (bitsOf v.toNat 4 3) n t) →
      y = (((x.wr d TBL_DESC.APPLY (bitsOf v.toNat 8 1) n t).wr d TBL_DESC.LEARN (bitsOf v.toNat 9 1) n t).wr d TBL_DESC.LEAD
        (bitsOf v.toNat 16 6) n t).wr d TBL_DESC.EXP (bitsOf v.toNat 24 6) n t →
      z = (if role ≠ s.rd d TBL_DESC.ROLE n t ∨ src ≠ s.rd d TBL_DESC.SRC n t then
        (if role ≠ s.rd d TBL_DESC.ROLE n t then ((clearCoarse y d n t).wr d TBL_RES.MISS 0 n t).modSlot d n t (fun _ => {})
          else clearCoarse y d n t).modSlot d n t fun r => { r with wrap := none, turn := floorQ ((clearCoarse y d n t).lineAt d (clearCoarse y d n t).pt) }
        else y) →
      exec (.tblDescWrite d n t v) s = .next (s.commit
        (if rb = true ∨ sb = true ∨ bb = true then
          (if s.bit d TBL_DESC.APPLY n t = false ∧ bitOf v.toNat 8 = true then z.modSlot d n t fun r => { r with missed := false } else z).raise d
            368 3 n
        else if s.bit d TBL_DESC.APPLY n t = false ∧ bitOf v.toNat 8 = true then z.modSlot d n t fun r => { r with missed := false } else z))) ∧
    (∀ m o wr (v : Word) ecc, o < 131072 → o % 4 ≠ 0 → exec (.carrelWindowAccess m d o wr v ecc) s = .next (s.commit
      ((s.answer 0).accessFault d m wr 2 3 (d * dieSpan + 0x200000 + o)))) ∧
    (∀ m o (v : Word) ecc st k, o < 131072 → o % 4 = 0 → st = s.rd d TBL_PAGE.STATE (o / 4096 % 32) → k = o / 4 % 32768 * 2 →
      (st = 0 ∨ st = 3 → exec (.carrelWindowAccess m d o true v ecc) s = .next (s.commit
        (s.accessFault d m true 2 5 (d * dieSpan + 0x200000 + o % 131072)))) ∧
      (st ≠ 0 → st ≠ 3 → exec (.carrelWindowAccess m d o true v ecc) s = .next (s.commit
        ((s.modEntry d k fun _ => BitVec.ofNat 16 v.toNat).modEntry d (k + 1) fun _ => BitVec.ofNat 16 (v.toNat / 65536)))) ∧
      (st = 0 ∨ st = 3 → exec (.carrelWindowAccess m d o false v ecc) s = .next (s.commit (s.answer 0))) ∧
      (st ≠ 0 → st ≠ 3 → ∀ w a u, w = entryOwner s d k → a = (w.getD (0, 0)).1 → u = s.inject d 0 (72 + a) 5 (eccAddr a k) →
        (ecc = 0 → exec (.carrelWindowAccess m d o false v ecc) s = .next (s.commit
          (u.answer ((u.getEntry d k).toNat + 65536 * (u.getEntry d (k + 1)).toNat)))) ∧
        (∀ b c x, ecc = 1 → w = some (b, c) → x = u.addSat d TBL_MISSCNT.ECC 1 b c →
          exec (.carrelWindowAccess m d o false v ecc) s = .next (s.commit
            (x.answer ((x.getEntry d k).toNat + 65536 * (x.getEntry d (k + 1)).toNat)))) ∧
        (∀ x, ecc = 2 → st = 1 → x = u.raise d (72 + a) 5 (eccAddr a k) →
          exec (.carrelWindowAccess m d o false v ecc) s = .next (s.commit (x.answer 0))) ∧
        (∀ x, ecc = 2 → st ≠ 1 → x = u.raise d (72 + a) 5 (eccAddr a k) →
          exec (.carrelWindowAccess m d o false v ecc) s = .next (s.commit (x.answer (x.free % 2 ^ 32)).drew))))

/-- Emulators and the wires of an encoder (R146, R149, R150, R152, R155, R156). -/
def Obligations.EmulatorsRebaseLimitAndPassThrough : Prop :=
  ∀ (s : State) (d n : Nat), s.Live d → n < 8 →
    (∀ t, (s.getEnc d n).limAt = some t → (s.getEnc d n).limDone = false →
      exec (.emuOverrate d n) s = .next (s.commit
        ((((s.pass (t / 8 + 25000 - s.now)).modEnc d n fun x => { x with limDone := true }).wrBit d ENC_FAULT.OVERRATE n true).raiseAx d n 14 3))) ∧
    ((s.getEnc d n).limAt = none ∨ (s.getEnc d n).limDone = true → exec (.emuOverrate d n) s = .next (s.commit s)) ∧
    (5 ≤ s.rd d GLB_PHASE.PHASE → s.emuMode d n = 1 →
      ((s.getEnc d n).mode ≠ 1 ∨ (s.getEnc d n).lines ≠ s.emuLines d n ∨ (s.getEnc d n).mech ≠ s.bit d EMU_CTRL.SRC n) →
      ∀ u, u = emuGo d n (s.toGrid 1000) →
        exec (.emuRebase d n) s = .next (s.commit (emuRebaseFrom d n (emuPinState u d n) u))) ∧
    (s.rd d GLB_PHASE.PHASE < 5 ∨ s.emuMode d n ≠ 1 ∨
        (s.getEnc d n).mode = 1 ∧ (s.getEnc d n).lines = s.emuLines d n ∧ (s.getEnc d n).mech = s.bit d EMU_CTRL.SRC n →
      exec (.emuRebase d n) s = .next (s.commit s)) ∧
    (∀ k x y z, x = s.modEnc d n (fun x => { x with lines := s.emuLines d n, mech := s.bit d EMU_CTRL.SRC n, mode := 1, src := none, off := 0, limAt := none, limDone := false, catching := false }) →
      y = x.modEnc d n (fun r => emuSource x d n r) → z = y.modEnc d n (fun r => { r with q := sgn 48 (enc 48 (emuTarget y d n r y.now8)) }) →
      emuRebaseFrom d n k s = emuStatus d n 0 (emuZsup d n ((emuNearest d n k z).wr d EMU_STAT.PASS 0 n))) ∧
    (∀ (k : Nat) (o : Int), (((k : Int) - (s.getEnc d n).q) % 4 = 0 ∧ o = 0 ∨ ((k : Int) - (s.getEnc d n).q) % 4 = 1 ∧ o = 1 ∨
        ((k : Int) - (s.getEnc d n).q) % 4 = 3 ∧ o = -1) →
      emuNearest d n k s = s.modEnc d n fun x => { x with e := sgn 48 (enc 48 (x.q + o)) }) ∧
    (∀ k : Nat, ((k : Int) - (s.getEnc d n).q) % 4 = 2 → emuNearest d n k s = s.drew.modEnc d n fun x =>
      { x with e := sgn 48 (enc 48 (x.q + if s.free % 2 = 0 then 2 else -2)) }) ∧
    (5 ≤ s.rd d GLB_PHASE.PHASE → s.emuMode d n = 2 → (s.getEnc d n).mode ≠ 2 →
      exec (.emuPassthroughChange d n) s = .next (s.commit (emuShow d n
        (((((s.toGrid 1000).modEnc d n fun x => { x with mode := 2, limAt := none, limDone := false, catching := false }).wr d
          EMU_STAT.PASS 1 n).wr d EMU_STAT.LIMIT 0 n).wr d EMU_STAT.BACKLOG 0 n)))) ∧
    (s.rd d GLB_PHASE.PHASE < 5 ∨ s.emuMode d n ≠ 2 ∨ (s.getEnc d n).mode = 2 →
      exec (.emuPassthroughChange d n) s = .next (s.commit s)) ∧
    (∀ (w ago : Nat) (since : List Nat) (past : Nat → Bool) (up : Nat) (u : State),
      since = (List.range 3).map (fun i => if bitOf (s.rd d ENC_STAT.WIRE n) i = true then (s.getEnc d n).wireAt.getD i 0 else s.ptD d - ago) →
      past = (fun i => bitOf w i && decide (s.rd d ENC_CFG.WIRET n < s.fabSamples d (s.ptD d - since.getD i 0))) →
      up = b2n (past 0) + 2 * b2n (past 1) + 4 * b2n (past 2) →
      u = (s.wr d ENC_STAT.WIRE w n).modEnc d n (fun x => { x with wireAt := since, wireUp := up }) →
      (((List.range 3).any fun i => past i && !bitOf (s.getEnc d n).wireUp i) = true →
        exec (.encWireDisagree d n ⟨w, ago⟩) s = .next (s.commit ((u.wrBit d ENC_FAULT.WIRE n true).raiseAx d n 11 1))) ∧
      (((List.range 3).any fun i => past i && !bitOf (s.getEnc d n).wireUp i) = false → up = 0 → (s.getEnc d n).wireUp ≠ 0 →
        exec (.encWireDisagree d n ⟨w, ago⟩) s = .next (s.commit (u.raiseAx d n 11 2))) ∧
      (((List.range 3).any fun i => past i && !bitOf (s.getEnc d n).wireUp i) = false → (up ≠ 0 ∨ (s.getEnc d n).wireUp = 0) →
        exec (.encWireDisagree d n ⟨w, ago⟩) s = .next (s.commit u)))

/-- An encoder input (R156, R158 to R164) and its probe (R166, R167). -/
def Obligations.EncoderCountsItsEdges : Prop :=
  ∀ (s : State) (d n ago : Nat), s.Live d → n < 8 →
    (∀ a b z v u, v = b2n a + 2 * b2n b + 4 * b2n z → u = encReceive d n v s →
      (u.fabSamples d ago ≤ u.rd d ENC_CFG.FILT n → exec (.encEdgeAccept d n a b z ago) s = .next (s.commit u)) ∧
      (u.rd d ENC_CFG.FILT n < u.fabSamples d ago → ∀ old st x, old = u.rd d ENC_STAT.ABZ n → st = u.ptD d - ago →
        x = encDecode d n old a b st (u.wr d ENC_STAT.ABZ v n) →
        (z ≠ bitOf old 2 → z ≠ x.bit d ENC_CFG.ZINV n →
          exec (.encEdgeAccept d n a b z ago) s = .next (s.commit (indexAct d n st x))) ∧
        (z = bitOf old 2 ∨ z = x.bit d ENC_CFG.ZINV n → exec (.encEdgeAccept d n a b z ago) s = .next (s.commit x)))) ∧
    (∀ old a b st k, k = (quadState a b (s.bit d ENC_CFG.INV n) + 4 - quadState (bitOf old 0) (bitOf old 1) (s.bit d ENC_CFG.INV n)) % 4 →
      (k = 0 → encDecode d n old a b st s = s) ∧ (k = 1 → encDecode d n old a b st s = encCount d n true st s) ∧
      (k = 3 → encDecode d n old a b st s = encCount d n false st s) ∧
      (k = 2 → encDecode d n old a b st s = ((s.addSat d ENC_STAT.ILLCNT 1 n).wrBit d ENC_FAULT.ILL n true).raiseAx d n 12 3)) ∧
    (∀ f, encSnap d n f s = s.modEnc d n fun x => { x with snap := x.snap.map f }) ∧
    (∀ fwd, (s.getEnc d n).smp = none → encTally d n fwd s =
      encPut d n ((encRegs s d n).count fwd) (encSnap d n (fun x => { x with c := x.c.count fwd }) s)) ∧
    (∀ (c : EncSample) (v : Int), v = (if c.back = true then -1 else 1) →
      (c.held = false → c.count (!c.back) = { c with raw := c.raw + v, rep := c.rep + v }) ∧
      (c.held = true → c.count (!c.back) = { c with raw := c.raw + v, held := false }) ∧
      (c.held = false → c.count c.back = { c with raw := c.raw - v, held := true }) ∧
      (c.held = true → c.count c.back = { c with raw := c.raw - v, rep := c.rep - v, back := !c.back, held := false })) ∧
    (∀ z old u, z = (!s.bit d ENC_CFG.ZINV n) → old = s.rd d ENC_STAT.ABZ n → u = encReceive d n (putBit (s.getEnc d n).rx 2 z) s →
      (bitOf old 2 = z → exec (.encIndex d n ago) s = .next (s.commit s)) ∧
      (bitOf old 2 ≠ z → u.fabSamples d ago ≤ u.rd d ENC_CFG.FILT n → exec (.encIndex d n ago) s = .next (s.commit u)) ∧
      (bitOf old 2 ≠ z → u.rd d ENC_CFG.FILT n < u.fabSamples d ago →
        exec (.encIndex d n ago) s = .next (s.commit (indexAct d n (u.ptD d - ago) (u.wr d ENC_STAT.ABZ (putBit old 2 z) n))))) ∧
    (∀ (x : EncSnap) (mode : Nat) (ref : Int), x.index mode ref = if mode = 1 ∨ mode = 2 ∧ x.armed = true then
        { x with c := { x.c with raw := ref, rep := x.c.rep + ref - x.c.raw }, armed := x.armed && mode != 2, first := false }
      else { x with first := false }) ∧
    (∀ st, (s.rd d ENC_IDX.MODE n = 0 → indexAct d n st s =
        indexSector d n st (encSnap d n (fun x => x.index 0 (indexRef s d n)) (s.wr d ENC_IDX.FIRST 0 n))) ∧
      (∀ x, s.rd d ENC_IDX.MODE n ≠ 0 → x = indexCheck d n (indexDiff (encBefore s d n).raw (indexRef s d n) (s.rd d ENC_CPR.CPR n)) s →
        indexAct d n st s = indexSector d n st (encSnap d n (fun x => x.index (s.rd d ENC_IDX.MODE n) (indexRef s d n))
          ((if s.rd d ENC_IDX.MODE n = 1 ∨ s.rd d ENC_IDX.MODE n = 2 ∧ x.bit d ENC_IDX.ARMED n = true then indexReset d n (indexRef s d n) x
            else x).wr d ENC_IDX.FIRST 0 n)))) ∧
    (∀ u x, u = s.toNext (State.stepNo 4 d n) (s.encWin d n * 2500) →
      x = (u.modEnc d n fun r => { r with sum := 0, counts := u.bit d ENC_STAT.SMODE n }) →
      (u.bit d ENC_STAT.SMODE n = false → exec (.encSpeedWindowEnd d n) s = .next (s.commit x)) ∧
      (∀ v, u.bit d ENC_STAT.SMODE n = true →
        v = (if x.bit d ENC_STAT.STOPPED n = true then 0 else ((u.getEnc d n).sum : Rat) * 1000000 / (s.encWin d n : Nat)) →
        exec (.encSpeedWindowEnd d n) s = .next (s.commit (speedMode d n (absQ v) (setSpeed d n v x))))) ∧
    (∀ t, (s.getEnc d n).stamp = some t →
      exec (.encStopTimeout d n) s = .next (s.commit (((s.passTo (t + s.encStop d n * 2500)).wr d ENC_SPD.SPD 0 n).wr d ENC_STAT.STOPPED 1 n))) ∧
    ((s.getEnc d n).stamp = none → exec (.encStopTimeout d n) s = .next (s.commit ((s.wr d ENC_SPD.SPD 0 n).wr d ENC_STAT.STOPPED 1 n))) ∧
    (∀ rise, (s.getEnc d n).prb = rise ∨ s.fabSamples d ago ≤ s.rd d PRB_CTRL.FILT n → exec (.probeEdge d n rise ago) s = .next (s.commit s)) ∧
    (∀ rise u, (s.getEnc d n).prb ≠ rise → s.rd d PRB_CTRL.FILT n < s.fabSamples d ago → u = s.modEnc d n (fun x => { x with prb := rise }) →
      (bitOf (u.rd d PRB_CTRL.EDGE n) (if rise = true then 0 else 1) = false → exec (.probeEdge d n rise ago) s = .next (s.commit u)) ∧
      (bitOf (u.rd d PRB_CTRL.EDGE n) (if rise = true then 0 else 1) = true → u.bit d PRB_STAT.FULL n = true →
        exec (.probeEdge d n rise ago) s = .next (s.commit ((u.addSat d PRB_STAT.OVR 1 n).raiseAx d n 16 3))) ∧
      (∀ c x r w, bitOf (u.rd d PRB_CTRL.EDGE n) (if rise = true then 0 else 1) = true → u.bit d PRB_STAT.FULL n = false → c = encBefore u d n →
        x = ((u.wrI d PRB_RAW.COUNT c.raw n).wrI d PRB_REP.COUNT c.rep n).wr d PRB_PT.PT (u.ptD d - ago) n →
        angleAt d n (u.ptD d - ago) 0 x = (r, w) →
        exec (.probeEdge d n rise ago) s = .next (s.commit
          (((((w.wr d PRB_ANG.FRAC (ang48 r.ang).1 n).wr d PRB_ANG.TURNS (ang48 r.ang).2 n).wr d PRB_STAT.FULL 1 n).wr d PRB_STAT.RISE
            (b2n rise) n).wr d PRB_STAT.ANGV (b2n (bitOf r.stat 0)) n))))

/-- Writes of an encoder's registers (R159, R160, R164, R168). -/
def Obligations.EncoderRegistersAreWritten : Prop :=
  ∀ (s : State) (d n : Nat) (v : Word), s.Live d → n < 8 → s.forwards d = false → s.holds d n = true →
    (∀ c q, c = encBefore s d n → q = encSnap d n (fun x => { x with c := { raw := v.toInt, rep := v.toInt } })
        (s.modEnc d n fun x => { x with smp := some { c with written := true } }) → exec (.encRawWrite d n v) s = .next (s.commit
      ((((q.wr d ENC_RAW.COUNT v.toNat n).wr d ENC_REP.COUNT v.toNat n).wr
        d ENC_STAT.DIR 0 n).wr d ENC_STAT.HELD 0 n))) ∧
    (∀ (fwd : Bool) (c : EncSample), (s.getEnc d n).smp = some c → c.k = s.fabSample d → c.written = true →
      encTally d n fwd s = (encSnap d n (fun x => { x with c := x.c.count fwd }) s).modEnc d n fun x => { x with smp := some (c.count fwd) }) ∧
    (∀ x y z, x = (if s.rd d ENC_IDX.MODE n = bitsOf v.toNat 0 2 then s
        else encSnap d n (fun x => { x with armed := false, first := true }) ((s.wr d ENC_IDX.ARMED 0 n).wr d ENC_IDX.FIRST 1 n)) →
      y = (((((x.wr d ENC_IDX.MODE (bitsOf v.toNat 0 2) n).wr d ENC_IDX.SECEN (bitsOf v.toNat 5 1) n).wr d ENC_IDX.TOL (bitsOf v.toNat 8 8) n).wr d
          ENC_IDX.SECVAL (bitsOf v.toNat 16 4) n).wr d ENC_IDX.RWID (bitsOf v.toNat 20 4) n) →
      z = (if bitOf v.toNat 24 = true then y.wr d ENC_IDX.SEEN 0 n else y) →
      exec (.encIdxWrite d n v) s = .next (s.commit (if bitOf v.toNat 2 = true then encSnap d n (fun x => { x with armed := true }) (z.wr d ENC_IDX.ARMED 1 n) else z))) ∧
    exec (.encIdxArm d n) s = .next (s.commit (encSnap d n (fun x => { x with armed := true }) (s.wr d ENC_IDX.ARMED 1 n))) ∧
    exec (.prbStatWrite d n v) s = .next (s.commit ((s.wr d PRB_STAT.FULL 0 n).wr d PRB_STAT.OVR 0 n))

/-- The filter slots and the multiplexers (R171, R182, R185 to R187). -/
def Obligations.FilterSlotsApplyRestartAndSynchronise : Prop :=
  ∀ (s : State) (d c : Nat) (v : Word), s.Live d → c < 64 →
    (s.forwards d = false → exec (.filApply d c) s = .next (s.commit
      ((s.wr d FIL_CFG.PEND 1 c).modFil d c fun f => { f with applies := f.applies ++ [(s.pt + 2500, filRegs (s.wr d FIL_CFG.PEND 1 c) d c)], dirty := false }))) ∧
    ((s.getFil d c).dues = [] → exec (.filSlotRestart d c) s = .next (s.commit s)) ∧
    (∀ t ts u, (s.getFil d c).dues = t :: ts → u = (s.passTo (ts.foldl min t)).toGrid 250 →
      exec (.filSlotRestart d c) s = .next (s.commit (filTake d c (u.syncsAt d c u.pt) u))) ∧
    (∀ (sync dirty : Bool) (new : FilSet) (due : Nat → Bool) (x y z : State), due = (fun t => decide (strobeAt t ≤ s.pt)) →
      new = (match ((s.getFil d c).applies.filter fun e => due e.1).getLast? with
        | some e => e.2 | none => if sync = true then filRegs s d c else (s.getFil d c).cur) →
      dirty = (if ((s.getFil d c).applies.filter fun e => due e.1).isEmpty = true then (s.getFil d c).dirty && !sync else (s.getFil d c).dirty) →
      x = filRestart d c new s →
      y = (match ((s.getFil d c).muxes.filter fun e => due e.1).getLast? with | some e => x.modConv d c fun r => { r with mux := e.2 } | none => x) →
      z = y.modFil d c (fun f => { f with applies := f.applies.filter (fun e => !due e.1), muxes := f.muxes.filter (fun e => !due e.1), dirty := dirty,
                                          stepAt := match f.stepAt with | some t => if due t = true then none else some t | none => none }) →
      filTake d c sync s = z.wr d FIL_CFG.PEND (b2n (dirty || !(z.getFil d c).applies.isEmpty)) c) ∧
    (∀ new x, x = (filRestart d c new s).getFil d c →
      x.cur = new ∧ x.h1 = [] ∧ x.h2 = [] ∧ x.h3 = [] ∧ x.k = 0 ∧ x.restAt = some s.pt) ∧
    (s.forwards d = false → ¬ strobeAt (s.rd d FIL_SYNCPT.PT) < s.pt + 2500 →
      exec (.filSyncGo d) s = .next (s.commit ((s.wr d FIL_SYNCCTL.PEND 1).modSync d fun _ => some (strobeAt (s.rd d FIL_SYNCPT.PT))))) ∧
    (s.forwards d = false → strobeAt (s.rd d FIL_SYNCPT.PT) < s.pt + 2500 →
      exec (.filSyncGo d) s = .next (s.commit ((((s.wr d FIL_SYNCCTL.PEND 1).wr d FIL_SYNCCTL.LATE 1).raise d 416 3 0).modSync d fun _ =>
        some (strobeAt (s.pt + 2500))))) ∧
    (s.getSync d = none → exec (.filSyncReset d) s = .next (s.commit s)) ∧
    (∀ e u, s.getSync d = some e → u = ((((s.passTo e).toGrid 250).modSync d fun _ => none).wr d FIL_SYNCCTL.PEND 0) →
      exec (.filSyncReset d) s = .next (s.commit (u.forEach (List.range 64) fun k w =>
        if (w.bitAt d FIL_SYNCMASK.MASK k && (w.getFil d k).restAt != some w.pt) = true then filTake d k true w else w))) ∧
    (∀ m u, s.forwards d = false → hasMux c = true → (c < 48 → s.holds d (c / 6) = true) → m = muxField c →
      u = ((s.wr d { m.1 with lo := 0, w := 16 } (bitsOf v.toNat 0 16) m.2.1 m.2.2).wr d { m.1 with lo := 16, w := 12 } (bitsOf v.toNat 16 12) m.2.1
        m.2.2) →
      (muxTaken (bitsOf v.toNat 28 2) = muxTaken (u.rd d m.1 m.2.1 m.2.2) →
        exec (.acqMuxWrite d c v) s = .next (s.commit (u.wr d m.1 (bitsOf v.toNat 28 2) m.2.1 m.2.2))) ∧
      (muxTaken (bitsOf v.toNat 28 2) ≠ muxTaken (u.rd d m.1 m.2.1 m.2.2) → muxAllowed u d c = false →
        exec (.acqMuxWrite d c v) s = .next (s.commit (u.raise d 401 3 c))) ∧
      (muxTaken (bitsOf v.toNat 28 2) ≠ muxTaken (u.rd d m.1 m.2.1 m.2.2) → muxAllowed u d c = true →
        exec (.acqMuxWrite d c v) s = .next (s.commit ((u.wr d m.1 (bitsOf v.toNat 28 2) m.2.1 m.2.2).modFil d c fun f =>
          { f with muxes := f.muxes ++ [(s.pt + 2500, bitsOf v.toNat 28 2)] })))) ∧
    (muxAllowed s d c = if c < 48 then s.bit d PWM_CTRL.SAFE (c / 6) else !s.bit d LPT_CTRL.EN || s.rd d LPT_CTRL.SET != (c - 48) / 3)

/-- The comparators (R173 to R177, R263). -/
def Obligations.ComparatorsCrossTripAndClear : Prop :=
  ∀ (s : State) (d n j : Nat) (up : Bool), s.Live d → n < 8 → j < 4 →
    (∀ x th, th = ((s.rd d (cmpThr up) n j : Int) - 2048) * 1000 →
      (bitOf (s.rd d (cmpOut up) n) j = true ∨ ¬ (if up = true then th < x else x < th) →
        exec (.comparatorAssert d n j ⟨up, x⟩) s = .next (s.commit s)) ∧
      (bitOf (s.rd d (cmpOut up) n) j = false → (if up = true then th < x else x < th) → ∀ u,
        u = s.wr d (cmpOut up) (putBit (s.rd d (cmpOut up) n) j true) n →
        (s.rd d (cmpFunc up) n j = 0 → exec (.comparatorAssert d n j ⟨up, x⟩) s = .next (s.commit s)) ∧
        (∀ f, f = (if up = true then ACQ_PSTAT.CROSSU else ACQ_PSTAT.CROSSL) → s.rd d (cmpFunc up) n j = 1 →
          exec (.comparatorAssert d n j ⟨up, x⟩) s = .next (s.commit ((u.wr d f (putBit (s.rd d f n) j true) n).raiseAx d n 19 3))) ∧
        (∀ w, s.rd d (cmpFunc up) n j = 2 → w = s.settleAxis d n →
          exec (.comparatorAssert d n j ⟨up, x⟩) s = .next (s.commit (fastAct d n j (w.wr d (cmpOut up) (putBit (w.rd d (cmpOut up) n) j true) n)))) ∧
        (∀ y z, s.rd d (cmpFunc up) n j = 3 →
          y = (setTrip d n j up true u).wrBit d (if up = true then ACQ_TRIPU.TRIP else ACQ_TRIPL.TRIP) (4 * n + j) true →
          z = (if y.owns d n = true then (y.modPwm d n fun r => { r with trip := true }).refreshAxis d n else y) →
          exec (.comparatorAssert d n j ⟨up, x⟩) s = .next (s.commit (if anyTrip s d n = true then z else z.raiseAx d n 17 1))))) ∧
    (∀ x th h, th = ((s.rd d (cmpThr up) n j : Int) - 2048) * 1000 → h = cmpVh s d n j up →
      (bitOf (s.rd d (cmpOut up) n) j = false ∨ ¬ (if up = true then x < th - h else th + h < x) →
        exec (.comparatorDeassert d n j ⟨up, x⟩) s = .next (s.commit s)) ∧
      (bitOf (s.rd d (cmpOut up) n) j = true → (if up = true then x < th - h else th + h < x) → ∀ w y z, w = s.settleAxis d n →
        y = setTrip d n j up false (w.wr d (cmpOut up) (putBit (w.rd d (cmpOut up) n) j false) n) →
        z = (if y.rd d (cmpFunc up) n j = 2 then fastAct d n j y else y) →
        exec (.comparatorDeassert d n j ⟨up, x⟩) s = .next (s.commit
          (if anyTrip s d n = true ∧ anyTrip z d n = false then z.raiseAx d n 17 2 else z)))) ∧
    (∀ (k h : Nat), (s.rd d { cmpThr up with lo := 12, w := 2 } n j = k) →
      (k = 0 ∧ h = 0 ∨ k = 1 ∧ h = 4096 ∨ k = 2 ∧ h = 8192 ∨ k = 3 ∧ h = 16384) → cmpVh s d n j up = h) ∧
    (∀ (v : Word) (old new : Nat) (bad : Bool) (x y z w : State), s.forwards d = false → s.holds d n = true →
      old = s.rd d (cmpFunc up) n j → new = bitsOf v.toNat 16 2 →
      bad = (old != new && (decide (2 ≤ old) || decide (2 ≤ new)) && !s.bit d PWM_CTRL.SAFE n) →
      x = (if old = 2 then s else s.wr d (cmpThr up) (bitsOf v.toNat 0 12) n j).wr d { cmpThr up with lo := 12, w := 2 } (bitsOf v.toNat 12 2) n j →
      y = setTrip d n j up false (x.wr d (cmpFunc up) new n j) →
      z = (if bad = true ∨ old = new then x
        else judgeFast d n false (if new = 0 then y.wr d (cmpOut up) (putBit (y.rd d (cmpOut up) n) j false) n else y)) →
      w = (if anyTrip s d n = true ∧ anyTrip z d n = false then z.raiseAx d n 17 2 else z) →
      exec (.acqCmpWrite d n j up v) s = .next (s.commit
        (if (old = 2 ∧ s.rd d (cmpThr up) n j ≠ bitsOf v.toNat 0 12) ∨ bad = true then w.raise d 401 3 (n * 4 + j) else w)))

/-- The detectors (R189 to R192) and the line-phase tracker (R194 to R196), with its row of a snapshot (R355). -/
def Obligations.DetectorsCloseAndTheLinePhaseIsTracked : Prop :=
  ∀ (s : State) (d : Nat) (v : Word), s.Live d →
    (∀ i, i < 16 →
      ((s.rd d DET_CFG.KIND i = 1 ∨ s.rd d DET_CFG.KIND i = 2) → s.detDue d i = true → s.bit d DET_STAT.SHED i = false →
        exec (.detWindowEnd d i) s = .next (s.commit (detClose d i s))) ∧
      ((s.rd d DET_CFG.KIND i ≠ 1 ∧ s.rd d DET_CFG.KIND i ≠ 2) ∨ s.detDue d i = false ∨ s.bit d DET_STAT.SHED i = true →
        exec (.detWindowEnd d i) s = .next (s.commit s)) ∧
      (s.bit d DET_CFG.WMODE i = false → (s.detDue d i = true ↔ 0 < (s.getDet d i).n ∧ max 1 (s.rd d DET_N.N i) ≤ (s.getDet d i).n)) ∧
      (s.bit d DET_CFG.WMODE i = true → (s.detDue d i = true ↔ 0 < (s.getDet d i).n ∧ (16777215 ≤ (s.getDet d i).n ∨
        s.bit d LPT_STAT.LOCK = true ∧ (s.getDet d i).turn < floorQ (s.lineAt d s.pt)))) ∧
      (∀ (r : DetRec) (res : Int) (x y z : State), r = s.getDet d i → res = (if s.rd d DET_CFG.KIND i = 1 then max r.hi (-r.lo) else (rmsRound r.sq r.n : Nat)) →
        x = (if s.rd d DET_CFG.KIND i = 1 then ((s.wrI d DET_A.VALUE r.hi i).wrI d DET_B.VALUE r.lo i).wr d DET_PKSTAMP.PT r.pk i
          else s.wrI d DET_A.VALUE res i) →
        y = ((x.wr d DET_STAMP.PT r.last i).wr d DET_STAT.DONE 1 i).addSat d DET_STAT.WCNT 1 i →
        z = (if 16777215 ≤ r.n then y.wr d DET_STAT.OVF 1 i else y) →
        detClose d i s = detLimit d i res ((detFlags d i r.fl z).modDet d i fun r => { above := r.above, env := r.env, turn := r.turn })) ∧
      (s.forwards d = false → ∀ r x, r ≠ 0 → x = (s.modDet d i fun r => { env := r.env, above := r.above, fresh := r.fresh }) →
        exec (.detCfgWrite d i r v) s = .next (s.commit (x.wr d DET_N.N (bitsOf v.toNat 0 24) i))) ∧
      (s.forwards d = false → ∀ x y, x = (s.modDet d i fun r => { env := r.env, above := r.above, fresh := r.fresh }) →
        y = detStale d ((((x.wr d DET_CFG.SRC (bitsOf v.toNat 0 6) i).wr d DET_CFG.TAP (bitsOf v.toNat 6 1) i).wr d DET_CFG.KIND
          (bitsOf v.toNat 8 2) i).wr d DET_CFG.WMODE (bitsOf v.toNat 10 1) i) →
        exec (.detCfgWrite d i 0 v) s = .next (s.commit
          (if bitsOf v.toNat 8 2 = 3 then y.modDet d i fun r => { r with env := 0, fresh := false } else y)))) ∧
    (∀ u, u = s.toNext (State.stepNo 3 d 0) 25000 →
      (u.bit d LPT_CTRL.EN = false ∨ (u.getLpt d).n = 0 → exec (.lptUpdate d) s = .next (s.commit u)) ∧
      (u.bit d LPT_CTRL.EN = true → (u.getLpt d).n ≠ 0 → ∃ t, exec (.lptUpdate d) s = .next t ∧ t.pt = u.pt ∧
        t.rd d LPT_STAMP.PT = u.pt % 2 ^ 64 ∧ (t.getLpt d).n = 0 ∧ (t.getLpt d).s0 = 0 ∧ (t.getLpt d).s1 = 0 ∧ (t.getLpt d).s2 = 0 ∧
        (t.getLpt d).preset = false ∧
        ((u.getLpt d).preset = true → (u.getLpt d).snap = none → (t.getLpt d).f = if u.bit d LPT_CTRL.NOM = true then 60 else 50) ∧
        (∀ x, (u.getLpt d).snap = some x → x.1 + 400000 ≤ u.pt → u.rd d PAIR_STAT.RESYNC = 2 →
          (t.getLpt d).f = x.2.2 ∧ (t.getLpt d).snap = none))) ∧
    (∀ t, (s.getLpt d).okAt = some t → s.bit d LPT_CTRL.EN = true → exec (.lptLock d) s = .next (s.commit
      (detStale d (((s.passTo (t + 50000000)).wr d LPT_STAT.LOCK 1).modLpt d fun r => { r with hold := false })))) ∧
    ((s.getLpt d).okAt = none ∨ s.bit d LPT_CTRL.EN = false → exec (.lptLock d) s = .next (s.commit s)) ∧
    (∀ ends, ends = ((s.getLpt d).lowAt.map (fun t => t + 2500000)).toList ++ ((s.getLpt d).vqAt.map (fun t => t + 12500000)).toList ++
        ((s.getLpt d).clAt.map (fun t => t + 50000000)).toList →
      (ends = [] ∨ s.bit d LPT_STAT.LOCK = false → exec (.lptUnlock d) s = .next (s.commit s)) ∧
      (∀ t ts, ends = t :: ts → s.bit d LPT_STAT.LOCK = true → exec (.lptUnlock d) s = .next (s.commit
        ((detStale d (((s.passTo (ts.foldl min t)).wr d LPT_STAT.LOCK 0).modLpt d fun r => { r with hold := true })).raise d 417 3 0)))) ∧
    (∀ u, s.forwards d = false →
      u = ((((((s.wr d LPT_CTRL.EN (bitsOf v.toNat 0 1)).wr d LPT_CTRL.SET (bitsOf v.toNat 1 1)).wr d LPT_CTRL.CONN (bitsOf v.toNat 2 1)).wr d
        LPT_CTRL.NOM (bitsOf v.toNat 3 1)).wr d LPT_CTRL.BW (bitsOf v.toNat 4 2)).wr d LPT_CTRL.ALO (bitsOf v.toNat 16 16)) →
      (bitOf v.toNat 0 = true → (s.bit d LPT_CTRL.EN = false ∨ u.rd d LPT_CTRL.SET ≠ s.rd d LPT_CTRL.SET ∨ u.rd d LPT_CTRL.CONN ≠ s.rd d LPT_CTRL.CONN ∨
          u.rd d LPT_CTRL.NOM ≠ s.rd d LPT_CTRL.NOM) →
        exec (.lptCtrlWrite d v) s = .next (s.commit
          (detStale d ((u.wr d LPT_STAT.LOCK 0).modLpt d fun r => { f := r.f, turns := r.turns, hist := r.hist })))) ∧
      (bitOf v.toNat 0 = false ∨ (s.bit d LPT_CTRL.EN = true ∧ u.rd d LPT_CTRL.SET = s.rd d LPT_CTRL.SET ∧ u.rd d LPT_CTRL.CONN = s.rd d LPT_CTRL.CONN ∧
          u.rd d LPT_CTRL.NOM = s.rd d LPT_CTRL.NOM) → exec (.lptCtrlWrite d v) s = .next (s.commit u))) ∧
    exec (.lptPhaseRead d) s = .next (s.commit
      (((s.latchWords (LPT_PHASE.PHASE.addr d 0 0 - 4) 1).latchWords (LPT_PHASE.PHASE.addr d 0 0 + 4) 3).answer
        (s.reg (LPT_PHASE.PHASE.addr d 0 0)).toNat))

/-- The PWM unit of an axis and its legs (R255 to R257, R259 to R261, R264, R266, R267). -/
def Obligations.PwmPeriodsUpdatesAndLegs : Prop :=
  ∀ (s : State) (d n j : Nat) (v : Word), s.Live d → n < 8 → j < 3 →
    (∀ t, t = s.freshPt (State.stepNo 5 d n) → s.bit d PWM_CTRL.EN n = true →
      exec (.pwmPeriodStart d n) s = .next (s.commit
        (periodStart d n ((s.pass (t - s.pt + s.toStart d n t)).occurs (State.stepNo 5 d n))))) ∧
    (s.bit d PWM_CTRL.EN n = false → exec (.pwmPeriodStart d n) s = .next (s.commit s)) ∧
    (∀ (u x y : State) (res : Leg → List (Nat × Bool) × List Bool), u = s.settleAxis d n →
      x = u.modPwm d n (fun r => { r with start := u.now8, dt := u.rd d PWM_DT.DT n, minp := u.rd d PWM_DT.MINP n }) →
      y = (if x.rd d PWM_CTRL.UPD n = 0 ∨ x.rd d PWM_CTRL.UPD n = 2 then x.eachLeg d n fun k l => { l with duty := x.shadowDuty d n k } else x) →
      res = (fun l => placeEdges (8 * u.rd d PWM_DT.DT n) (8 * u.rd d PWM_DT.MINP n) l.st (waveform (y.bit d PWM_CTRL.ALIGN n) l.duty (u.period d n))) →
      (y.bit d PWM_CTRL.SAFE n = true ∨ y.bit d PWM_CTRL.MODE n = true → periodStart d n s = y) ∧
      (y.bit d PWM_CTRL.SAFE n = false → y.bit d PWM_CTRL.MODE n = false → periodStart d n s =
        ((y.eachLeg d n fun _ l => { l with edges := (res l).1, rose := false, fell := false, sups := (res l).2 }).addSat d PWM_SUPCNT.COUNT
          ((res (y.getLeg d n 0)).2 ++ (res (y.getLeg d n 1)).2 ++ (res (y.getLeg d n 2)).2).length n).settleAxis d n)) ∧
    (∀ t u, t = s.freshPt (State.stepNo 6 d n) →
      u = (s.pass (t - s.pt + s.toStart d n (t + (s.period d n - s.period d n / 2)))).occurs (State.stepNo 6 d n) →
      s.bit d PWM_CTRL.EN n = true → (s.rd d PWM_CTRL.UPD n = 1 ∨ s.rd d PWM_CTRL.UPD n = 2) →
      exec (.pwmUpdatePoint d n) s = .next (s.commit ((u.settleAxis d n).forEach [0, 1, 2] fun k w => w.takeDuty d n k w.now8))) ∧
    (s.bit d PWM_CTRL.EN n = false ∨ (s.rd d PWM_CTRL.UPD n ≠ 1 ∧ s.rd d PWM_CTRL.UPD n ≠ 2) →
      exec (.pwmUpdatePoint d n) s = .next (s.commit s)) ∧
    (s.forwards d = false → s.holds d n = true → ∀ u x, u = s.dutiesArrive d n →
      x = u.wr d PWM_DUTY.DUTY (min (v.toNat % 2 ^ 17) 65536) n j →
      (x.rd d PWM_CTRL.UPD n ≠ 3 ∨ x.bit d PWM_CTRL.RUNNING n = false → exec (.pwmDutyWrite d n j v) s = .next (s.commit x)) ∧
      (x.rd d PWM_CTRL.UPD n = 3 → x.bit d PWM_CTRL.RUNNING n = true →
        exec (.pwmDutyWrite d n j v) s = .next (s.commit (x.takeDuty d n j (x.now8 - 8 * (x.pt - s.pt)))))) ∧
    (∀ u, u = s.settleAxis d n →
      (∀ p, (u.getLeg d n j).pend = some p →
        exec (.deadTimeExpiry d n j) s = .next (s.commit ((u.pass ((p + 7) / 8 - u.now)).settleAxis d n))) ∧
      ((u.getLeg d n j).pend = none → exec (.deadTimeExpiry d n j) s = .next (s.commit u)) ∧
      ((u.getLeg d n j).wait = none → exec (.bandMinpExpiry d n j) s = .next (s.commit u)) ∧
      (∀ w due x y, (u.getLeg d n j).wait = some w → due = ((u.getLeg d n j).onAt + 8 * (u.getPwm d n).minp + 7) / 8 →
        x = (u.pass (due - u.now)).toGrid 250 →
        y = x.modLeg d n j (fun l => if (l.wait.isSome && l.pend.isNone && decide (l.onAt + 8 * (x.getPwm d n).minp ≤ x.now8)) = true then { l with wait := none } else l) →
        (x.strobed = false → exec (.bandMinpExpiry d n j) s = .next (s.commit x)) ∧
        (x.strobed = true → y.bandActs d n = true → exactDemand y d n j = some w →
          exec (.bandMinpExpiry d n j) s = .next (s.commit (demand d n j w y))) ∧
        (x.strobed = true → (y.bandActs d n = false ∨ exactDemand y d n j ≠ some w) →
          exec (.bandMinpExpiry d n j) s = .next (s.commit y)))) ∧
    (∀ w, ((s.getLeg d n j).st = w → demand d n j w s = s.modLeg d n j fun l => { l with wait := none }) ∧
      ((s.getLeg d n j).st ≠ w → ((s.getLeg d n j).pend ≠ none ∨ s.now8 < (s.getLeg d n j).onAt + 8 * (s.getPwm d n).minp) →
        demand d n j w s = s.modLeg d n j fun l => { l with wait := some w }) ∧
      ((s.getLeg d n j).st ≠ w → (s.getLeg d n j).pend = none → (s.getLeg d n j).onAt + 8 * (s.getPwm d n).minp ≤ s.now8 →
        demand d n j w s = (s.modLeg d n j fun l => l.change w s.now8 (s.getPwm d n).dt).showLegs d n)) ∧
    (8 ≤ (s.getLeg d n j).lockRun → exec (.bandLockQualified d n j) s = .next (s.commit (s.wr d BND_FMEAS.LOCKED 1 n j))) ∧
    ((s.getLeg d n j).lockRun < 8 → exec (.bandLockQualified d n j) s = .next (s.commit s)) ∧
    (16 ≤ (s.getLeg d n j).limRun → s.bit d BND_FMEAS.HBLIM n j = false →
      exec (.bandLimit d n j) s = .next (s.commit (((s.wr d BND_FMEAS.HBLIM 1 n j).wrBit d PWM_FLAGS.BANDLIM n true).raiseAx d n 24 3))) ∧
    ((s.getLeg d n j).limRun < 16 ∨ s.bit d BND_FMEAS.HBLIM n j = true → exec (.bandLimit d n j) s = .next (s.commit s))

/-- The safe state of an axis and its control (R253, R254, R260, R268, R270). -/
def Obligations.PwmSafeStateIsLeftAndControlIsWritten : Prop :=
  ∀ (s : State) (d n : Nat) (v : Word), s.Live d → n < 8 →
    (∀ r, r = s.refreshAxis d n →
      ((r.getPwm d n).exiting = false → exec (.safeStateExit d n) s = .next (s.commit r)) ∧
      (∀ u w z, (r.getPwm d n).exiting = true → r.bit d PWM_CTRL.MODE n = false →
        u = ((r.pass (r.toStart d n r.pt)).occurs (State.stepNo 5 d n)).settleAxis d n →
        w = (u.wr d PWM_CTRL.SAFE 0 n).modPwm d n (fun x => { x with exiting := false }) →
        z = w.eachLeg d n (fun _ l =>
          { l with st := l.hiOn, seed := true, exitAt := w.now8, lastHi := none, cyc := 0, cycDur := 0,
                   pend := if (l.hiOn || l.loOn) = true then none else some (w.now8 + 8 * w.rd d PWM_DT.DT n) }) →
        exec (.safeStateExit d n) s = .next (s.commit ((periodStart d n z).showLegs d n))) ∧
      (∀ u, (r.getPwm d n).exiting = true → r.bit d PWM_CTRL.MODE n = true → u = r.toGrid 250 →
        (u.strobed = false → exec (.safeStateExit d n) s = .next (s.commit u)) ∧
        (u.strobed = true → ∀ (w : State) (lvl : Nat → Bool), w = ((u.settleAxis d n).wr d PWM_CTRL.SAFE 0 n).modPwm d n (fun x => { x with exiting := false }) →
          lvl = (fun j => decide ((w.getConv d (6 * n + 2 + w.bandSrc d n j)).y < (w.bandNow d n j).1) != bitOf (w.rd d BND_CTRL.POL n) j) →
          exec (.safeStateExit d n) s = .next (s.commit ((w.eachLeg d n fun j l =>
            { l with st := lvl j, seed := true, exitAt := w.now8, lastHi := none, cyc := 0, cycDur := 0, hiOn := l.hiOn && lvl j, loOn := l.loOn && !lvl j,
                     hiOff := if (l.hiOn && !lvl j) = true then w.now8 else l.hiOff, loOff := if (l.loOn && lvl j) = true then w.now8 else l.loOff,
                     pend := if ((lvl j && l.hiOn) || (!lvl j && l.loOn)) = true then none else some (w.now8 + 8 * (w.getPwm d n).dt) }).showLegs d n))))) ∧
    (s.forwards d = false → s.holds d n = true →
      (unsafeSetting (bitsOf v.toNat 0 12) (bitsOf v.toNat 16 6) = true → exec (.pwmSafeWrite d n v) s = .next (s.commit (s.raise d 448 3 n))) ∧
      (∀ u, unsafeSetting (bitsOf v.toNat 0 12) (bitsOf v.toNat 16 6) = false →
        u = ((((s.settleAxis d n).holdBalls (d / 2)).wr d PWM_SAFE.LVL (bitsOf v.toNat 0 12) n).wr d PWM_SAFE.ACTLOW (bitsOf v.toNat 16 6) n) →
        (u.bit d PWM_CTRL.SAFE n = true → exec (.pwmSafeWrite d n v) s = .next (s.commit (u.takeSafe d n))) ∧
        (u.bit d PWM_CTRL.SAFE n = false → exec (.pwmSafeWrite d n v) s = .next (s.commit (u.showLegs d n)))) ∧
      (s.bit d PWM_CTRL.EN n = true →
        (s.rd d PWM_CTRL.MODE n ≠ bitsOf v.toNat 1 1 ∨ s.rd d PWM_CTRL.ALIGN n ≠ bitsOf v.toNat 2 1 ∨ s.rd d PWM_CTRL.UPD n ≠ bitsOf v.toNat 4 2) →
        exec (.pwmCtrlWrite d n v) s = .next (s.commit (s.raise d 448 3 n))) ∧
      (∀ u, (s.bit d PWM_CTRL.EN n = false ∨
          (s.rd d PWM_CTRL.MODE n = bitsOf v.toNat 1 1 ∧ s.rd d PWM_CTRL.ALIGN n = bitsOf v.toNat 2 1 ∧ s.rd d PWM_CTRL.UPD n = bitsOf v.toNat 4 2)) →
        u = ((((((s.settleAxis d n).wr d PWM_CTRL.MODE (bitsOf v.toNat 1 1) n).wr d PWM_CTRL.ALIGN (bitsOf v.toNat 2 1) n).wr d PWM_CTRL.UPD
          (bitsOf v.toNat 4 2) n).wr d PWM_CTRL.EN (b2n (bitOf v.toNat 0)) n).wr d PWM_CTRL.RUNNING (b2n (bitOf v.toNat 0)) n) →
        (bitOf v.toNat 0 = true → s.bit d PWM_CTRL.EN n = false →
          exec (.pwmCtrlWrite d n v) s = .next (s.commit ((judgeFast d n true u).refreshAxis d n))) ∧
        (bitOf v.toNat 0 = false ∨ s.bit d PWM_CTRL.EN n = true →
          exec (.pwmCtrlWrite d n v) s = .next (s.commit (u.refreshAxis d n)))))

/-- The life of a law (R203, R205 to R208, R210, R212, R319). -/
def Obligations.LawsStartReleaseRunAndStop : Prop :=
  ∀ (s : State) (d n : Nat), s.Live d → n < 8 →
    (∀ (len : Nat) (u w : State), s.forwards d = false → s.holds d n = true → s.bit d LAW_CTRL.RUN n = false → u = s.wr d LAW_CTRL.LEN (len % 128) n →
      w = ((u.wr d LAW_AXSTAT.VERR (programCheck u d n).1 n).wr d LAW_AXSTAT.VSLOT (programCheck u d n).2 n) →
      ((programCheck u d n).1 ≠ 0 → exec (.lawStart d n len) s = .next (s.commit (w.raise d 432 3 n))) ∧
      ((programCheck u d n).1 = 0 → exec (.lawStart d n len) s = .next (s.commit
        (showLoad d (((w.wr d LAW_CTRL.RUN 1 n).wr d LAW_AXSTAT.PEND 1 n).modLaw d n fun x => { x with pendAt := some (s.pt + 5000), stop := false })))) ∧
      exec (.lawStop d n len) s = .next (s.commit u)) ∧
    (∀ (len : Nat) (u : State), s.forwards d = false → s.holds d n = true → s.bit d LAW_CTRL.RUN n = true →
      u = (if len % 128 = s.rd d LAW_CTRL.LEN n then s else s.raise d 432 3 n) →
      exec (.lawStart d n len) s = .next (s.commit u) ∧
      ((u.getLaw d n).run = none → exec (.lawStop d n len) s = .next (s.commit (lawHalt d n u))) ∧
      ((u.getLaw d n).run ≠ none → exec (.lawStop d n len) s = .next (s.commit (u.modLaw d n fun x => { x with stop := true })))) ∧
    (lawHalt d n s = (((tuneFail d n 6 (flushWrites d n none (fadeStop d n (showLoad d (s.wr d LAW_CTRL.RUN 0 n))))).wr d LAW_AXSTAT.RUNNING 0 n).wr d
      LAW_AXSTAT.PEND 0 n).modLaw d n fun x => { x with pendAt := none, waitAt := none, run := none, stop := false }) ∧
    (s.bit d LAW_CTRL.RUN n = false → exec (.lawRelease d n) s = .next (s.commit s)) ∧
    (∀ u, s.bit d LAW_CTRL.RUN n = true → u = (s.pass (s.nextRelease d n)).occurs (State.stepNo 7 d n) →
      (∀ t, (u.getLaw d n).pendAt = some t → u.pt < t → exec (.lawRelease d n) s = .next (s.commit u)) ∧
      (∀ x, ((u.getLaw d n).pendAt = none ∧ x = u ∨ (∃ t, (u.getLaw d n).pendAt = some t ∧ t ≤ u.pt) ∧
          x = (((u.wr d LAW_AXSTAT.PEND 0 n).wr d LAW_AXSTAT.RUNNING 1 n).wr d LAW_RUNCNT.COUNT 0 n).modLaw d n fun r =>
            { r with pendAt := none, first := true }) →
        ((x.getLaw d n).waitAt = none → (x.getLaw d n).run = none →
          exec (.lawRelease d n) s = .next (s.commit (x.modLaw d n fun r => { r with waitAt := some x.pt }))) ∧
        ((x.getLaw d n).waitAt ≠ none ∨ (x.getLaw d n).run ≠ none → exec (.lawRelease d n) s = .next (s.commit
          (((x.addSat d LAW_OVRCNT.COUNT 1 n).wrBit d LAW_FLAGS.OVR n true).raiseAx d n 20 3))))) ∧
    (∀ bad par mem ecc, runs s d = true ∨ nextRun s d ≠ some n → exec (.lawRun d n bad par mem ecc) s = .next (s.commit s)) ∧
    (∀ bad par mem ecc r u, runs s d = false → nextRun s d = some n → r = ((s.getLaw d n).waitAt).getD s.pt → u = epochAtRun d n r s →
      ((u.getLaw d n).waitAt = none → exec (.lawRun d n bad par mem ecc) s = .next (s.commit u)) ∧
      (∀ v w, (u.getLaw d n).waitAt ≠ none → v = ecc.foldl (fun s e => progEcc d (e.1 % 65536) e.2 s) (runBegin d n r u) →
        w = v.forEach (List.range (v.rd d LAW_CTRL.LEN n)) (runSlot d n bad par mem) →
        exec (.lawRun d n bad par mem ecc) s = .next (s.commit (telOffer d n r (w.rd d LAW_RUNCNT.COUNT n % 256) (w.getLaw d n).tel w)))) ∧
    (∀ r, ((runBegin d n r s).getLaw d n).run = some (r, s.pt) ∧ ((runBegin d n r s).getLaw d n).waitAt = none ∧
      (runBegin d n r s).rd d LAW_RUNCNT.COUNT n = (s.rd d LAW_RUNCNT.COUNT n + 1) % 2 ^ 32) ∧
    ((s.getLaw d n).run = none → exec (.lawRunEnd d n) s = .next (s.commit s)) ∧
    (∀ r t0 len u v w x, (s.getLaw d n).run = some (r, t0) → len = s.rd d LAW_CTRL.LEN n * s.lawCycles d + (s.getLaw d n).stolen →
      u = s.passTo (t0 + 2 * len) →
      v = ((u.wr d LAW_TIME.LAST (min len 65535) n).wr d LAW_TIME.WORST (max (min len 65535) (u.rd d LAW_TIME.WORST n)) n) →
      w = (if (v.getLaw d n).mis = true then stateCopy d n v else v) →
      x = runEndIrq d n (trcCapture d n r (tuneStep d n (fadeStep d n (w.modLaw d n fun x => { x with run := none, first := false })))) →
      ((x.getLaw d n).stop = false → exec (.lawRunEnd d n) s = .next (s.commit x)) ∧
      ((x.getLaw d n).stop = true → exec (.lawRunEnd d n) s = .next (s.commit (lawHalt d n x))))

/-- Program memory and banks (R200, R201, R204, R211, R217 to R222). -/
def Obligations.ProgramMemoryAndBanks : Prop :=
  ∀ (s : State) (d : Nat), s.Live d →
    (∀ m o wr (v : Word) st ecc, o < 65536 → o % 4 ≠ 0 → exec (.progmemAccess m d o wr v st ecc) s = .next (s.commit
      ((s.answer 0).accessFault d m wr 2 3 (d * dieSpan + progBase + o)))) ∧
    (∀ m o (v : Word) st ecc u, o < 65536 → o % 4 = 0 → u = (if st = true then stealCycles d s else s) →
      exec (.progmemAccess m d o true v st ecc) s = .next (s.commit (progWrite m d o v u)) ∧
      exec (.progmemAccess m d o false v st ecc) s = .next (s.commit (progRead m d o (progEcc d o ecc u)))) ∧
    (∀ recent busy, recent = (s.getLawDie d).steals.filter (fun t => decide (s.now < t + 12500)) →
      busy = (List.range 8).filter (fun n => (s.getLaw d n).run.isSome && decide ((s.getLaw d n).stolen < 72)) →
      (busy = [] ∨ 9 ≤ recent.length → stealCycles d s = s) ∧
      (busy ≠ [] → recent.length < 9 → stealCycles d s =
        (s.forEach busy fun n s => s.modLaw d n fun x => { x with stolen := x.stolen + 8 }).modLawDie d fun l => { l with steals := s.now :: recent })) ∧
    (∀ m o (v : Word) k n a, k = o / 4 % 32 → n = progAxis s d o → a = d * dieSpan + progBase + o →
      (0xC000 ≤ o → progWrite m d o v s = s.accessFault d m true 2 4 a) ∧
      (o < 0xC000 → s.bit d LAW_CTRL.RUN n = true → (k < 4 ∨ 20 ≤ k ∧ k < 27) → progWrite m d o v s = (s.accessFault d m true 2 5 a).raise d 432 3 n) ∧
      (o < 0xC000 → (s.bit d LAW_CTRL.RUN n = false ∨ 4 ≤ k ∧ k < 20 ∨ 27 ≤ k) → s.forwards d = false → progWrite m d o v s = progApply o v 0 d s) ∧
      (∀ e x run, o < 0xC000 → (s.bit d LAW_CTRL.RUN n = false ∨ 4 ≤ k ∧ k < 20 ∨ 27 ≤ k) → s.forwards d = true → e = s.activeOf d → x = mateOf e →
        run = (if s.bit e LAW_AXSTAT.PEND n = true then 1 else max (s.rd e LAW_RUNCNT.COUNT n) (s.rd x LAW_RUNCNT.COUNT n) + 1) →
        progWrite m d o v s = (progApply o v run e s).modFwd x fun q => q ++ [{ off := progBase + o, val := v, tick := s.pt, run := run }]) ∧
      (∀ run, (4 ≤ k ∧ k < 20 ∧ 0 < run ∧ s.bit d LAW_CTRL.RUN n = true →
          progApply o v run d s = s.modLaw d n fun x => { x with wr := x.wr ++ [(run % 2 ^ 32, o / 4, v)] }) ∧
        (k = 0 → progApply o v run d s = s.modPm d (o / 4) fun _ => v &&& 0x3F171F#32) ∧
        (0 < k → k < 27 → ¬ (4 ≤ k ∧ k < 20 ∧ 0 < run ∧ s.bit d LAW_CTRL.RUN n = true) →
          progApply o v run d s = (s.modPm d (o / 4) fun _ => v).twinPut d (o / 4)) ∧
        (27 ≤ k → progApply o v run d s = s)) ∧
      (∀ ecc, progEcc d o ecc s = if ecc = 1 then (s.inject d 1 608 5 o).raise d 608 4 o else if ecc = 2 then (s.inject d 1 608 5 o).raise d 608 5 o
        else s.inject d 1 608 5 o) ∧
      (0xC000 ≤ o → progRead m d o s = (s.answer 0).accessFault d m false 2 4 a) ∧
      (∀ u, o < 0xC000 → k = 27 → u = (s.forEach [1, 2, 3, 4] fun q s => { s with latch := s.latch.set (a + 4 * q) (s.getPm d (o / 4 + q)) 0 }) →
        progRead m d o s = u.answer (u.getPm d (o / 4)).toNat) ∧
      (o < 0xC000 → 27 < k → progRead m d o s = s.answer (s.latched a)) ∧
      (o < 0xC000 → k < 27 → progRead m d o s = s.answer (pmRead s d (o / 4)))) ∧
    (∀ n i, n < 8 → i < 96 →
      (i < s.lawSlots d → s.holds d n = true → exec (.lawHeaderRead d n i) s = .next (s.commit (progRead 0 d (s.slotWord d n i 27 * 4) s))) ∧
      (s.lawSlots d ≤ i ∨ s.holds d n = false → exec (.lawHeaderRead d n i) s = .next (s.commit s))) ∧
    (∀ n target len, n < 8 → s.forwards d = false → s.holds d n = true →
      (s.bit d LAW_BANK.FADING n = false → s.rd d LAW_BANK.ACT n = target % 2 → exec (.lawBankReq d n target len) s = .next (s.commit s)) ∧
      (s.bit d LAW_BANK.FADING n = false → s.rd d LAW_BANK.ACT n ≠ target % 2 → s.bit d LAW_CTRL.RUN n = false →
        exec (.lawBankReq d n target len) s = .next (s.commit (s.wr d LAW_BANK.ACT (target % 2) n))) ∧
      (s.bit d LAW_BANK.FADING n = false → s.rd d LAW_BANK.ACT n ≠ target % 2 → s.bit d LAW_CTRL.RUN n = true →
        exec (.lawBankReq d n target len) s = .next (s.commit
          (((s.wr d LAW_BANK.FADING 1 n).wr d LAW_FADE.REMAIN (max 1 (len % 65536)) n).modLaw d n fun x =>
            { x with fadeLen := max 1 (len % 65536), fadeK := 0, target := target % 2, fadeFrom := s.runNext d n }))) ∧
      (∀ u, s.bit d LAW_BANK.FADING n = true → u = (if s.bit d LAW_BANK.QUEUED n = true then s.wr d LAW_BANK.QOVR 1 n else s) →
        exec (.lawBankReq d n target len) s = .next (s.commit
          (((u.wr d LAW_BANK.QUEUED 1 n).wr d LAW_BANK.QTGT (target % 2) n).wr d LAW_FADE.QLEN (max 1 (len % 65536)) n))))

/-- Tune units (R274, R275) and the capture unit (R279, R282 to R284). -/
def Obligations.TuneAndCaptureUnits : Prop :=
  ∀ (s : State) (d n : Nat), s.Live d → n < 8 →
    (s.forwards d = false → s.holds d n = true →
      exec (.tuneStart d n) s = .next (s.commit (tuneCtrlWrite n (BitVec.ofNat 32 (putBit (s.reg (TUNE_CTRL.RSLOT.addr d n 0)).toNat 24 true)) d s)) ∧
      exec (.tuneAbort d n) s = .next (s.commit (tuneCtrlWrite n (BitVec.ofNat 32 (putBit (s.reg (TUNE_CTRL.RSLOT.addr d n 0)).toNat 25 true)) d s))) ∧
    (∀ (v : Word) (u x : State), u = ((((s.wr d TUNE_CTRL.RSLOT (bitsOf v.toNat 0 7) n).wr d TUNE_CTRL.PSLOT (bitsOf v.toNat 8 7) n).wr d TUNE_CTRL.NCYC
        (bitsOf v.toNat 16 4) n).wr d TUNE_CTRL.WRITE (bitsOf v.toNat 26 1) n) → x = (if bitOf v.toNat 25 = true then tuneFail d n 7 u else u) →
      (bitOf v.toNat 24 = false → tuneCtrlWrite n v d s = x) ∧
      (bitOf v.toNat 24 = true → tuneMay x d n (bitsOf v.toNat 0 7) (bitsOf v.toNat 8 7) = false →
        tuneCtrlWrite n v d s = (((x.wr d TUNE_STAT.STATE 5 n).wr d TUNE_STAT.CAUSE 8 n).raiseAx d n 26 3)) ∧
      (bitOf v.toNat 24 = true → tuneMay x d n (bitsOf v.toNat 0 7) (bitsOf v.toNat 8 7) = true →
        ((x.rd d TUNE_STAT.STATE n = 1 ∨ x.rd d TUNE_STAT.STATE n = 2 ∨ x.rd d TUNE_STAT.STATE n = 3) → tuneCtrlWrite n v d s = x) ∧
        (¬ (x.rd d TUNE_STAT.STATE n = 1 ∨ x.rd d TUNE_STAT.STATE n = 2 ∨ x.rd d TUNE_STAT.STATE n = 3) →
          tuneCtrlWrite n v d s = (((x.wr d TUNE_STAT.STATE 1 n).wr d TUNE_STAT.ACC 0 n).modTune d n fun _ =>
            { rs := bitsOf v.toNat 0 7, ps := bitsOf v.toNat 8 7, startAt := ((x.wr d TUNE_STAT.STATE 1 n).wr d TUNE_STAT.ACC 0 n).ptD d })))) ∧
    (∀ (u : State) (rs ps : Nat), tuneMay u d n rs ps = (u.bit d LAW_CTRL.RUN n && decide (rs < u.rd d LAW_CTRL.LEN n) && u.slotOp d n rs == 13 &&
      decide (ps < u.rd d LAW_CTRL.LEN n) && u.slotOp d n ps == 4)) ∧
    ((s.rd d TUNE_STAT.STATE n = 1 ∨ s.rd d TUNE_STAT.STATE n = 2 ∨ s.rd d TUNE_STAT.STATE n = 3) →
      (∀ c, tuneFail d n c s = ((s.wr d TUNE_STAT.STATE 5 n).wr d TUNE_STAT.CAUSE c n).raiseAx d n 26 3) ∧
      exec (.tuneTimeout d n) s = .next (s.commit
        (tuneFail d n 1 (s.pass ((s.getTune d n).startAt + max 1 (s.rd d TUNE_LIMIT.TMAX n) * 2500000 - s.ptD d))))) ∧
    (¬ (s.rd d TUNE_STAT.STATE n = 1 ∨ s.rd d TUNE_STAT.STATE n = 2 ∨ s.rd d TUNE_STAT.STATE n = 3) →
      (∀ c, tuneFail d n c s = s) ∧ exec (.tuneTimeout d n) s = .next (s.commit s)) ∧
    (s.bit d TRC_CTRL.RUN = true →
      exec (.trcRunWrite d false) s = .next (s.commit (s.wr d TRC_CTRL.RUN 0)) ∧ exec (.trcRunWrite d true) s = .next (s.commit s)) ∧
    (s.bit d TRC_CTRL.RUN = false → ∀ u, u = ((s.wr d TRC_CTRL.DEST (s.rd d TRC_CTRL.DEST)).wr d TRC_CTRL.FMT (s.rd d TRC_CTRL.FMT)).wr d TRC_CTRL.CEXP
        (s.rd d TRC_CTRL.CEXP) →
      exec (.trcRunWrite d false) s = .next (s.commit (u.wr d TRC_CTRL.RUN 0)) ∧
      (∀ x, x = ((((u.wr d TRC_CTRL.RUN 1).wr d TRC_STAT.ARMED 1).wr d TRC_STAT.DONE 0).modTrc d fun t =>
          { recs := t.recs.filter fun r => r.dest ≠ 0,
            wp := match (t.recs.filter fun r => r.dest ≠ 0).getLast? with | some r => (r.start + r.len) % trcSize | none => 0,
            gapD := t.gapD, dropRunD := t.dropRunD }) →
        exec (.trcRunWrite d true) s = .next (s.commit
          (if x.rd d TRC_CTRL.DEST = 0 ∨ x.rd d TRC_CTRL.DEST = 3 then x.wr d TRC_WPTR.PTR (x.getTrc d).wp else x)))) ∧
    (∀ (v : Word) (u : State), v = BitVec.ofNat 32 (putBit (s.reg (TRC_TRIG.SRC.addr d 0 0)).toNat 6 true) →
      u = (if s.bit d TRC_CTRL.RUN = false then s.setReg (TRC_TRIG.SRC.addr d 0 0) (BitVec.ofNat 32 (v.toNat - bitsOf v.toNat 6 2 * 64)) else s).wr d
        TRC_STAT.ARMED 1 →
      exec (.trcArm d) s = .next (s.commit (if bitOf v.toNat 7 = true ∧ u.rd d TRC_TRIG.SRC = 1 then trcTrigger d true u else u))) ∧
    (∀ (v : Word) (u w : State), v = BitVec.ofNat 32 (putBit (s.reg (TRC_TRIG.SRC.addr d 0 0)).toNat 7 true) →
      u = (if s.bit d TRC_CTRL.RUN = false then s.setReg (TRC_TRIG.SRC.addr d 0 0) (BitVec.ofNat 32 (v.toNat - bitsOf v.toNat 6 2 * 64)) else s) →
      w = (if bitOf v.toNat 6 = true then u.wr d TRC_STAT.ARMED 1 else u) →
      exec (.trcFire d) s = .next (s.commit (if w.rd d TRC_TRIG.SRC = 1 then trcTrigger d true w else w))) ∧
    (s.bit d TRC_STAT.ARMED = false → ∀ mark, trcTrigger d mark s = s) ∧
    (s.bit d TRC_STAT.ARMED = true → ∀ u, u = (s.wr d TRC_STAT.ARMED 0).wr d TRC_STAT.TRIGD 1 →
      (trcOnChip u d = true → u.rd d TRC_TRIG.POST = 0 → trcTrigger d true s = u.wr d TRC_STAT.DONE 1) ∧
      (trcOnChip u d = false ∨ u.rd d TRC_TRIG.POST ≠ 0 → trcTrigger d true s = u.modTrc d fun t => { t with mark := true }))

/-- The memory channels (R424 to R428) and the close of a ledger segment (R311). -/
def Obligations.MemoryChannelsTrainLoseMirrorAndScrub : Prop :=
  ∀ (s : State) (d : Nat), s.hasDie d = true → d < 2 →
    ((s.getDie d).inReset = false →
      (∀ size, s.bit d MEM_CTRL.EN = true → s.rd d GLB_PHASE.PHASE ≠ 0 → s.bit d MEM_STAT.UP = false →
        exec (.ddrTraining d true size) s = .next (s.commit (memJoin d (s.modMem d fun m => { m with size := min size 32 }))) ∧
        exec (.ddrTraining d false size) s = .next (s.commit ((s.wr d MEM_STAT.UP 0).raise d 528 3 0))) ∧
      (∀ ok size, s.bit d MEM_CTRL.EN = false ∨ s.rd d GLB_PHASE.PHASE = 0 ∨ s.bit d MEM_STAT.UP = true →
        exec (.ddrTraining d ok size) s = .next (s.commit s)) ∧
      (s.bit d MEM_STAT.UP = false → (s.getMem d).was = true → exec (.memChannelReturn d) s = .next (s.commit (memJoin d s))) ∧
      (s.bit d MEM_STAT.UP = true ∨ (s.getMem d).was = false → exec (.memChannelReturn d) s = .next (s.commit s)) ∧
      (∀ found, s.bit d MEM_STAT.UP = true →
        exec (.patrolScrub d found) s = .next (s.commit (found.foldl (fun s e => eccRead d (e.1 % 2 ^ 35) e.2 s) s))) ∧
      (∀ found, s.bit d MEM_STAT.UP = false → exec (.patrolScrub d found) s = .next (s.commit s)) ∧
      (∀ u, u = s.wr d LEDG_CTL.EN (s.rd d LEDG_CTL.EN) →
        (s.bit d LEDG_CTL.EN = true → s.dramSrv = some d → exec (.ledgClose d) s = .next (s.commit (ledgClose d u))) ∧
        (s.dramSrv ≠ some d → exec (.ledgClose d) s = .next (s.commit u)) ∧
        (s.bit d LEDG_CTL.EN = false → s.dramSrv = some d →
          exec (.ledgClose d) s = .next (s.commit { u with ledg := { u.ledg with open_ := false } })))) ∧
    (s.bit d MEM_STAT.UP = true → exec (.memChannelLoss d) s = .next (s.commit (memFail d (s.wr d MEM_STAT.UP 0)))) ∧
    (s.bit d MEM_STAT.UP = false → exec (.memChannelLoss d) s = .next (s.commit s)) ∧
    (∀ m n k, mirrorOf s = some m → s.deferOk (1 - m) = true → s.bit (1 - m) MEM_STAT.MSYNC = false →
      k = min n (s.dramCap (1 - m) - (s.getMem m).copied) →
      exec (.mirrorCopy n) s = .next (s.commit ((copyDram (1 - m) m (s.getMem m).copied k (s.pass ((k * 5 + 3) / 4))).modMem m fun x =>
        { x with copied := (s.getMem m).copied + k }))) ∧
    (∀ n, mirrorOf s = none ∨ (∃ m, mirrorOf s = some m ∧ (s.deferOk (1 - m) = false ∨ s.bit (1 - m) MEM_STAT.MSYNC = true)) →
      exec (.mirrorCopy n) s = .next (s.commit s)) ∧
    (∀ m, mirrorOf s = some m → s.dramCap m ≤ (s.getMem m).copied →
      exec .mirrorCopyComplete s = .next (s.commit ((s.wr 0 MEM_STAT.MSYNC 1).wr 1 MEM_STAT.MSYNC 1))) ∧
    (mirrorOf s = none ∨ (∃ m, mirrorOf s = some m ∧ (s.getMem m).copied < s.dramCap m) → exec .mirrorCopyComplete s = .next (s.commit s)) ∧
    (∀ a k bs ecc ch, s.dramSrv = some ch →
      exec (.dramAccess a k true bs ecc) s = .next (s.commit ((s.rangeCheck ch (a % 2 ^ 35) bs.length).putDram ch (a % 2 ^ 35) bs)) ∧
      exec (.dramAccess a k false bs ecc) s = .next (s.commit
        ((eccRead ch (a % 2 ^ 35) ecc (s.rangeCheck ch (a % 2 ^ 35) k)).answer (leNum (s.dramBytes ch (a % 2 ^ 35) k))))) ∧
    (∀ a k bs ecc, s.dramSrv = none →
      exec (.dramAccess a k true bs ecc) s = .next (s.commit s) ∧ exec (.dramAccess a k false bs ecc) s = .next (s.commit (s.answer 0))) ∧
    (∀ a ecc u, u = s.inject d 5 529 5 a →
      (ecc = 0 → eccRead d a ecc s = u) ∧
      (ecc = 1 ∨ ecc = 3 ∧ u.bit d MEM_STAT.MSYNC = true → eccRead d a ecc s = u.addSat d MEM_ECC.COR) ∧
      (ecc = 2 ∨ ecc = 3 ∧ u.bit d MEM_STAT.MSYNC = false →
        eccRead d a ecc s = ((u.addSat d MEM_ECC.UNC).wr d MEM_ECCADDR.ADDR a).raise d 529 5 a)) ∧
    (∀ c, s.dramSrv = some c → s.ledg.open_ = true → s.ledg.slot = 32768 → exec .ledgerSegmentClose s = .next (s.commit (ledgClose c s))) ∧
    (s.dramSrv = none ∨ s.ledg.open_ = false ∨ s.ledg.slot ≠ 32768 → exec .ledgerSegmentClose s = .next (s.commit s))

/-- Clocks and spine links (R20, R42, R45, R48, R49, R58, R484). -/
def Obligations.ClockMonitorHoldoverAndSpine : Prop :=
  ∀ (s : State) (d : Nat), s.Live d →
    (∀ (ref : Bool) (count : Nat) (off : Nat) (u v w : State),
      u = (if ref = true then s.wr d CLK_STAT.REFOK 1 else (s.wr d CLK_STAT.REFOK 0).modDie d fun x => { x with relock := false }) →
      off = ((count : Int) * u.flashLe d 3 0x10 4 - 156250000000).natAbs →
      v = (if ref = true ∧ u.bit d CLK_STAT.HOLDOVER = false then watchJudge d (decide (off * 10 ≤ 156250000000)) u else u) →
      w = (if (v.getDie d).holdoverAt = none then rootGood d v else v) →
      (u.bit d CLK_STAT.ROOTLOCK = false → exec (.clockMonitorWindow d ref count) s = .next (s.commit u)) ∧
      (u.bit d CLK_STAT.ROOTLOCK = true → 156250000000 < off * 100 → exec (.clockMonitorWindow d ref count) s = .next (s.commit (rootFail d v))) ∧
      (u.bit d CLK_STAT.ROOTLOCK = true → off * 100 ≤ 156250000000 → (ref = true ∨ w.bit d CLK_STAT.HOLDOVER = true) →
        exec (.clockMonitorWindow d ref count) s = .next (s.commit w)) ∧
      (u.bit d CLK_STAT.ROOTLOCK = true → off * 100 ≤ 156250000000 → ref = false → w.bit d CLK_STAT.HOLDOVER = false →
        exec (.clockMonitorWindow d ref count) s = .next (s.commit
          (((w.wr d CLK_STAT.HOLDOVER 1).modDie d fun x => { x with holdoverAt := some w.now, relock := false }).raise d 272 1 0)))) ∧
    ((s.getDie d).rootOut = false → rootFail d s = (s.modDie d fun x => { x with rootOut := true }).raise d 273 1 0 ∧ rootGood d s = s) ∧
    ((s.getDie d).rootOut = true → rootGood d s = (s.modDie d fun x => { x with rootOut := false }).raise d 273 2 0 ∧ rootFail d s = s) ∧
    (s.bit d CLK_STAT.HOLDOVER = true →
      exec (.refclkReturn d) s = .next (s.commit ((s.wr d CLK_STAT.REFOK 1).modDie d fun x => { x with relock := true }))) ∧
    (s.bit d CLK_STAT.HOLDOVER = false → exec (.refclkReturn d) s = .next (s.commit s)) ∧
    ((s.getDie d).relock = true →
      exec (.rootRelockComplete d) s = .next (s.commit (rootGood d
        (((s.wr d CLK_STAT.HOLDOVER 0).modDie d fun x => { x with relock := false, holdoverAt := none }).raise d 272 2 0)))) ∧
    ((s.getDie d).relock = false → exec (.rootRelockComplete d) s = .next (s.commit s)) ∧
    (∀ t, (s.getDie d).holdoverAt = some t →
      exec (.holdoverTimeout d) s = .next (s.commit (rootFail d (s.pass (t + 25000001 - s.now))))) ∧
    ((s.getDie d).holdoverAt = none → exec (.holdoverTimeout d) s = .next (s.commit s)) ∧
    (∀ l, l < s.links → s.linkUp l = true →
      exec (.spineLinkFail l) s = .next (s.commit ({ s with spineDown := s.spineDown.set l true false }.forEach [l, (l + 1) % s.dies] fun d s =>
        if (s.getDie d).inReset then s else s.raise d 278 1 l)) ∧
      exec (.spineLinkReturn l) s = .next (s.commit s)) ∧
    (∀ l u, l < s.links → s.linkUp l = false →
      u = ({ s with spineDown := s.spineDown.set l false false }.forEach [l, (l + 1) % s.dies] fun d s =>
        if (s.getDie d).inReset then s else s.raise d 278 2 l) →
      exec (.spineLinkReturn l) s = .next (s.commit (u.forEach [l, (l + 1) % u.dies] rootLate)) ∧
      exec (.spineLinkFail l) s = .next (s.commit s)) ∧
    (∀ m (skew : Int) u v, s.master = some m → m ≠ d → (s.getDie d).joined = true → s.reach d m = true → s.bit d CLK_STAT.ROOTLOCK = true →
      u = s.inject d 9 278 7 ((d + s.links - 1) % s.links) →
      v = ((u.wrI d CLK_SKEW.SKEW (satI 16 skew)).wr d CLK_SKEW.MAXSKEW
        (max ((u.wrI d CLK_SKEW.SKEW (satI 16 skew)).rd d CLK_SKEW.MAXSKEW) (min skew.natAbs 65535))) →
      (∀ b, b = (if v.bit d CLK_STAT.HOLDOVER = true ∨ v.bit m CLK_STAT.HOLDOVER = true then 400 else 100) →
        (skew.natAbs ≤ b → exec (.spineTimeExchange d skew) s = .next (s.commit (alignTime d v))) ∧
        (b < skew.natAbs → v.bit d CLK_STAT.PTALIGNED = true →
          exec (.spineTimeExchange d skew) s = .next (s.commit (showMaster ((v.wr d CLK_STAT.PTALIGNED 0).raise d 275 1 0)))) ∧
        (b < skew.natAbs → v.bit d CLK_STAT.PTALIGNED = false → exec (.spineTimeExchange d skew) s = .next (s.commit v)))) ∧
    (∀ skew, s.master = none ∨ (∃ m, s.master = some m ∧ (m = d ∨ s.reach d m = false)) ∨ (s.getDie d).joined = false ∨ s.bit d CLK_STAT.ROOTLOCK = false →
      exec (.spineTimeExchange d skew) s = .next (s.commit s)) ∧
    (∀ m u v w, s.master = some m → u = (if (s.getDie d).joined = true ∧ s.bit d CLK_STAT.PTALIGNED = false then s.raise d 275 2 0 else s) →
      v = (u.wr d CLK_STAT.PTALIGNED 1).modDie d (fun x => { x with ptOff := 0 }) → w = v.wr d CLK_STAT.FABLOCK (v.rd m CLK_STAT.FABLOCK) →
      alignTime d s = showMaster (if d < m then masterMoves m d w else w))

/-- Slew and step of package time (R46 to R49), with what a step restarts (R182, R434). -/
def Obligations.PackageTimeSlewsAndSteps : Prop :=
  ∀ (s : State) (d : Nat) (v : Word), s.Live d →
    (s.master = none → exec (.clkPtadjSlewWrite d v) s = .next (s.commit s) ∧ exec (.clkDostep d v) s = .next (s.commit s) ∧
      exec .slewTick s = .next (s.commit s)) ∧
    (∀ (m : Nat) (w : Word) (x y : State), s.master = some m → (w = BitVec.ofNat 32 (putBit v.toNat 16 false) ∨ w = BitVec.ofNat 32 (putBit v.toNat 16 true)) →
      x = (if bitOf w.toNat 17 = true then s.wr m CLK_PTADJ.STEPREF 0 else s) → y = (if bitOf w.toNat 18 = true then x.wr m CLK_PTADJ.REMSAT 0 else x) →
      (y.fabLock = true → (bitOf w.toNat 16 = false → exec (.clkPtadjSlewWrite d v) s = .next (s.commit (y.raise m 276 3 0))) ∧
        (bitOf w.toNat 16 = true → exec (.clkDostep d v) s = .next (s.commit (y.raise m 276 3 0)))) ∧
      (y.fabLock = false → (bitOf w.toNat 16 = false → exec (.clkPtadjSlewWrite d v) s = .next (s.commit (setRem (sgn 16 w.toNat) y))) ∧
        (∀ z, bitOf w.toNat 16 = true → z = setRem (sgn 16 w.toNat) y →
          exec (.clkDostep d v) s = .next (s.commit (askStep (z.rd d CLK_PTSTEP.VALUE) (w.toNat % 65536 != 0) z))))) ∧
    (∀ (a : Nat) (b : Bool), askStep a b s = { s with ptStep := some { tick := s.pt + 5000, val := a % 2 ^ 64, cancel := b } }) ∧
    (∀ (m : Nat) (r c : Int) (x : State), s.master = some m → c = clampI (-140737488355327) 140737488355327 r →
      x = { showRem m c s with slewFrom := max s.slewFrom (s.pt + 5000) } →
      setRem r s = if c = r then x else (x.wr m CLK_PTADJ.REMSAT 1).raise m 276 3 0) ∧
    (s.rem = 0 → exec .slewTick s = .next (s.commit s)) ∧
    (∀ m u w, s.master = some m → 0 < s.rem → u = s.passTo s.slewFrom → w = showRem m (s.rem - 1) { u with now := u.now + 1, pt := (u.pt + 2) % 2 ^ 64 } →
      exec .slewTick s = .next (s.commit { w with
        slewFrom := ((u.pt + 2) % 2 ^ 64 / 250 + 1) * 250,
        strobeAt := if (u.pt + 2) % 2 ^ 64 % 250 = 1 then some ((u.pt + 2) % 2 ^ 64) else none })) ∧
    (∀ m u w, s.master = some m → s.rem < 0 → u = s.passTo s.slewFrom → w = showRem m (s.rem + 1) { u with now := u.now + 1, pt := u.pt % 2 ^ 64 } →
      exec .slewTick s = .next (s.commit { w with slewFrom := (u.pt % 2 ^ 64 / 250 + 1) * 250, strobeAt := none })) ∧
    (s.ptStep = none → exec .ptStepTick s = .next (s.commit s)) ∧
    (∀ p u, s.ptStep = some p → u = { s.passTo p.tick with ptStep := none } →
      (u.master = none → exec .ptStepTick s = .next (s.commit u)) ∧
      (∀ m, u.master = some m → u.stepAllowed = false →
        exec .ptStepTick s = .next (s.commit (setRem (u.rem + (p.val : Int) - u.pt) ((u.wr m CLK_PTADJ.STEPREF 1).raise m 276 3 0)))) ∧
      (∀ m x y, u.master = some m → u.stepAllowed = true → x = { u with pt := p.val, slewFrom := p.val + 5000, strobeAt := none, lastAt := [] } →
        y = (if p.cancel = true then showRem m 0 x else x) →
        exec .ptStepTick s = .next (s.commit (y.forEach y.liveDies fun d s =>
          ((stkClose d 0 s).modStk d fun x => { x with frameAt := none }).forEach (List.range 64) fun c s =>
            s.modFil d c fun f => { f with stepAt := some p.val, applies := f.applies.map fun e => (e.1 + p.val - u.pt, e.2),
                                           muxes := f.muxes.map fun e => (e.1 + p.val - u.pt, e.2) })))) ∧
    (s.stepAllowed = true ↔ (∀ e, e < s.dies → s.rd e GLB_PHASE.PHASE < 5) ∨
      (∀ e, e ∈ s.liveDies → ∀ n, n < 8 → s.bit e PWM_CTRL.SAFE n = true ∨ s.owns e n = false))

/-- The CSR commands of a hart (R325, R331 to R333). -/
def Obligations.HartCsrCommandsHaveTheirEffect : Prop :=
  ∀ (s : State) (d h : Nat), s.hasDie d = true → h < 2 →
    (s.hartRuns d h = false → ∀ (v : Word) (wr steal : Bool) (ecc k : Nat), k < 16 →
      ∀ i ∈ [Instr.mptcmphWrite d h v, .mswiSet d h, .mswiClr d h, .mevtpop d h, .mlawdataAccess d h wr v steal ecc, .mlawirqAck d h,
        .msemAcquire d h k, .msemrel d h v, .mtimerCompare d h, .lrReservationTimeout d h], exec i s = .next (s.commit s)) ∧
    (s.hartRuns d h = true → (s.getHart d h).user = true → ∀ (v : Word) (wr steal : Bool) (ecc k : Nat), k < 16 →
      ∀ i ∈ [Instr.mptcmphWrite d h v, .mswiSet d h, .mswiClr d h, .mevtpop d h, .mlawdataAccess d h wr v steal ecc, .mlawirqAck d h,
        .msemAcquire d h k, .msemrel d h v], exec i s = .next (s.commit (trap d h 2 (s.free % 2 ^ 32) (s.getHart d h).pc s.drew))) ∧
    (∀ cause tval pc u m st, m = (s.getHart d h).user →
      st = putBit (putBit (putBit (putBit (csrVal s d h 0x300) 7 (bitOf (csrVal s d h 0x300) 3)) 3 false) 11 (!m)) 12 (!m) →
      u = setCsr (setCsr (setCsr (setCsr s d h 0x341 pc) d h 0x342 cause) d h 0x343 tval) d h 0x300 st →
      trap d h cause tval pc s = u.modHart d h fun x => { x with user := false, pc := csrVal u d h 0x305 / 4 * 4, resv := none }) ∧
    (s.hartRuns d h = true → (s.getHart d h).user = false →
      (∀ (v : Word) u, u = (setCsr s d h 0x7C1 v.toNat).setIrq d h 7 false →
        exec (.mptcmphWrite d h v) s = .next (s.commit
          (u.modHart d h fun x => { x with cmp := csrVal u d h 0x7C0 + 2 ^ 32 * (v.toNat % 2 ^ 32) }))) ∧
      exec (.mswiSet d h) s = .next (s.commit (s.setIrq d (1 - h) 3 true)) ∧
      exec (.mswiClr d h) s = .next (s.commit (s.setIrq d h 3 false)) ∧
      exec (.mevtpop d h) s = .next (s.commit (showEvt d (s.modFlt d fun f => { f with evq := f.evq.drop 1 }))) ∧
      (∀ wr (v : Word) steal ecc a, a = csrVal s d h 0x7C4 →
        (bitOf a 16 = false → exec (.mlawdataAccess d h wr v steal ecc) s = .next (s.commit
          (progmemAccess (2 + h) d (4 * (a % 16384)) wr v steal ecc s))) ∧
        (bitOf a 16 = true → exec (.mlawdataAccess d h wr v steal ecc) s = .next (s.commit
          (setCsr (progmemAccess (2 + h) d (4 * (a % 16384)) wr v steal ecc s) d h 0x7C4
            (a / 16384 * 16384 + (a % 16384 + 1) % 12288))))) ∧
      exec (.mlawirqAck d h) s = .next (s.commit (setCsr (s.setIrq d h 21 false) d h 0x7C6 (csrVal s d h 0x7C6 % 16))) ∧
      (∀ k, k < 16 →
        (bitOf (s.getHart d (1 - h)).sem k = true → exec (.msemAcquire d h k) s = .next (s.commit (s.answer 0))) ∧
        (bitOf (s.getHart d (1 - h)).sem k = false →
          exec (.msemAcquire d h k) s = .next (s.commit ((s.modHart d h fun x => { x with sem := putBit x.sem k true }).answer 1)))) ∧
      (∀ v : Word, exec (.msemrel d h v) s = .next (s.commit (s.modHart d h fun x =>
        { x with sem := (List.range 16).foldl (fun m k => if bitOf v.toNat k = true then putBit m k false else m) x.sem })))) ∧
    (s.hartRuns d h = true →
      (s.ptD d < (s.getHart d h).cmp → exec (.mtimerCompare d h) s = .next (s.commit ((s.pass ((s.getHart d h).cmp - s.ptD d)).setIrq d h 7 true))) ∧
      ((s.getHart d h).cmp ≤ s.ptD d → exec (.mtimerCompare d h) s = .next (s.commit (s.setIrq d h 7 true))) ∧
      (∀ w t, (s.getHart d h).resv = some (w, t) →
        exec (.lrReservationTimeout d h) s = .next (s.commit ((s.pass (t + 512 - s.now)).modHart d h fun x => { x with resv := none }))) ∧
      ((s.getHart d h).resv = none → exec (.lrReservationTimeout d h) s = .next (s.commit s)))

/-- Memory accesses of a hart (R325, R327 to R329). -/
def Obligations.HartMemoryAccessesAnswerOrTrap : Prop :=
  ∀ (s : State) (d h : Nat) (a : HartAcc), s.hasDie d = true → h < 2 → a.size = 1 ∨ a.size = 2 ∨ a.size = 4 → a.addr < 2 ^ 32 →
    (s.hartRuns d h = false → exec (.hartMemoryAccess d h a) s = .next (s.commit s)) ∧
    (s.hartRuns d h = true → ∀ (n pc : Nat) (b : HartAcc) (f : State), n = (if accAtomic a.kind = true then 4 else a.size) →
      pc = (if a.kind = .fetch then a.addr else a.pc) → b = { a with pc := pc } → f = trap d h (accFault a.kind) a.addr pc s →
      (a.fp = true → a.kind = .load ∨ a.kind = .store → fpOff s d h = true →
        exec (.hartMemoryAccess d h a) s = .next (s.commit (trap d h 2 (s.free % 2 ^ 32) a.pc s.drew))) ∧
      (accAtomic a.kind = true → a.addr % 4 ≠ 0 →
        exec (.hartMemoryAccess d h a) s = .next (s.commit (trap d h (if a.kind = .lr then 4 else 6) a.addr pc s))) ∧
      (¬ (accAtomic a.kind = true ∧ a.addr % 4 ≠ 0) → ¬ (a.fp = true ∧ (a.kind = .load ∨ a.kind = .store) ∧ fpOff s d h = true) →
        (pmpOk s d h (accUser s d h a.kind) a.addr n (accNeed a.kind) = false → exec (.hartMemoryAccess d h a) s = .next (s.commit f)) ∧
        (pmpOk s d h (accUser s d h a.kind) a.addr n (accNeed a.kind) = true →
          (hartPlace s d h a.addr = .nothing ∨ (hartPlace s d h a.addr = .tcm ∧ 0x80000 < a.addr + n) ∨
            (hartPlace s d h a.addr = .rom ∧ (accStores a.kind = true ∨ accAtomic a.kind = true ∨ accUser s d h a.kind = true)) ∨
            (accAtomic a.kind = true ∧ hartPlace s d h a.addr ≠ .tcm) → exec (.hartMemoryAccess d h a) s = .next (s.commit f)) ∧
          (hartPlace s d h a.addr = .rom → a.kind = .fetch ∨ a.kind = .load → accUser s d h a.kind = false →
            exec (.hartMemoryAccess d h a) s = .next (s.commit (readResult d h b n (s.free % 2 ^ (8 * n)) s.drew))) ∧
          (hartPlace s d h a.addr = .tcm → a.addr + n ≤ 0x80000 →
            exec (.hartMemoryAccess d h a) s = .next (s.commit (tcmAccess d h b n s))) ∧
          (∀ x, hartPlace s d h a.addr = .bus x → accAtomic a.kind = false →
            exec (.hartMemoryAccess d h a) s = .next (s.commit (winAccess d h x b n s))) ∧
          (∀ x, hartPlace s d h a.addr = .dram x → accAtomic a.kind = false →
            exec (.hartMemoryAccess d h a) s = .next (s.commit (dramHart d h x b n s)) ∧
            (s.dramSrv = none → dramHart d h x b n s = f))))) ∧
    (∀ n u, u = tcmCheck d h a.addr a.ecc s →
      (a.kind = .store → n = 4 → a.addr % 4 = 0 → tcmAccess d h a n s = tcmStore d h a.addr (leBytes a.val.toNat 4) s) ∧
      (a.kind = .store → n < 4 ∨ a.addr % 4 ≠ 0 → a.ecc ≠ 2 → tcmAccess d h a n s = tcmStore d h a.addr (leBytes a.val.toNat n) u) ∧
      (∀ op, a.kind = .amo op → a.ecc ≠ 2 → ∀ old, old = BitVec.ofNat 32 (leNum (tcmBytes u d h a.addr 4)) →
        tcmAccess d h a n s = setX d h a.rd old (tcmStore d h a.addr (leBytes (amoOp op old a.val).toNat 4) u)) ∧
      (∀ x, a.kind = .lr → a.ecc ≠ 2 → x = (u.modHart d h fun x => { x with resv := some (tcmAt h a.addr, u.now) }) →
        tcmAccess d h a n s = loadResult d h { a with fp := false } 4 (leNum (tcmBytes x d h a.addr 4)) x) ∧
      (a.kind = .load ∨ a.kind = .fetch → a.ecc ≠ 2 → tcmAccess d h a n s = readResult d h a n (leNum (tcmBytes u d h a.addr n)) u) ∧
      (a.ecc = 2 → a.kind ≠ .sc → ¬ (a.kind = .store ∧ n = 4 ∧ a.addr % 4 = 0) → n ≤ 4 →
        tcmAccess d h a n s = trap d h (accFault a.kind) a.addr a.pc u) ∧
      (a.kind = .sc → ∀ x, x = (s.modHart d h fun x => { x with resv := none }) →
        (∀ t, (s.getHart d h).resv = some (tcmAt h a.addr, t) → s.now < t + 512 →
          tcmAccess d h a n s = setX d h a.rd 0 (tcmStore d h a.addr (leBytes a.val.toNat 4) x)) ∧
        ((∀ w t, (s.getHart d h).resv = some (w, t) → w ≠ tcmAt h a.addr ∨ t + 512 ≤ s.now) → tcmAccess d h a n s = setX d h a.rd 1 x))) ∧
    (∀ n v, a.kind = .fetch → readResult d h a n v s = (s.answer v).modHart d h fun x => { x with pc := a.addr }) ∧
    (∀ n v, a.kind ≠ .fetch → a.fp = true →
      readResult d h a n v s = fpDirty d h ((s.answer v).modHart d h fun x => { x with f := x.f.set (a.rd % 32) (BitVec.ofNat 32 v) 0 })) ∧
    (fpDirty d h s = setCsr s d h 0x300 (Nat.lor (csrVal s d h 0x300) 0x80006000)) ∧ (fpOff s d h = true ↔ bitsOf (csrVal s d h 0x300) 13 2 = 0) ∧
    (∀ n v, a.kind ≠ .fetch → a.fp = false →
      readResult d h a n v s = setX d h a.rd (if a.signed = true then BitVec.ofInt 32 (sgn (8 * n) v) else BitVec.ofNat 32 v) (s.answer v)) ∧
    (∀ r v, (r % 32 = 0 → setX d h r v s = s) ∧
      (r % 32 ≠ 0 → setX d h r v s = s.modHart d h fun x => { x with x := x.x.set (r % 32) v 0 }))

/-- Register accesses (R3, R8, R10, R25, R304), forwarded writes (R26, R188) and sets not held (R27). -/
def Obligations.RegisterAccessesReachTheirWordOrFault : Prop :=
  (∀ (s : State) (f m a : Nat) (v : Word), s.Live f → m < 7 → a < 0x10000000 →
    (∀ size, busFault s f a size = none →
      exec (.registerWrite m f (.bar a) true size v 0) s = .next (s.commit (winWrite (masterAt m f (a / dieSpan)) (a / dieSpan) (a % dieSpan) v s))) ∧
    (∀ size ecc, busFault s f a size = none →
      exec (.registerWrite m f (.bar a) false size v ecc) s = .next (s.commit (winRead (masterAt m f (a / dieSpan)) (a / dieSpan) (a % dieSpan) ecc s))) ∧
    (∀ size ecc c e, busFault s f a size = some (c, e) →
      exec (.registerWrite m f (.bar a) true size v ecc) s = .next (s.commit (s.accessFault e (masterAt m f e) true (sizeCode size) c a)) ∧
      exec (.registerWrite m f (.bar a) false size v ecc) s =
        .next (s.commit ((s.answer 0).accessFault e (masterAt m f e) false (sizeCode size) c a))) ∧
    (∀ size d o b, d = a / dieSpan → o = a % dieSpan → b = o / 0x10000 → busFault s f a size =
      if s.dies ≤ d then some (1, f) else if s.reach f d = false then some (7, f) else if size ≠ 4 ∨ a % 4 ≠ 0 then some (3, d)
      else if b = 15 ∧ s.bit d HIF_ID.BONDED = false then some (4, d) else if onlyP0 o = true ∧ 2 ≤ d then some (4, d)
      else if axisBlock b = true ∧ o % 0x10000 < 0x8000 ∧ s.holds d (o % 0x10000 / 0x1000) = false then some (2, d)
      else if (0x200000 ≤ o ∧ o < 0x220000) ∨ inProg o = true ∨ b = 0x15 ∨ (0x131000 ≤ o ∧ o < 0x132000) ∨ (flashAt s d o).isSome = true ∨
        (regAt o).isSome = true then none else some (4, d))) ∧
  (∀ (s : State) (f m a size ecc : Nat) (v : Word), s.hasDie f = true → (s.getDie f).inReset = true → m < 7 → a < 0x10000000 →
    exec (.registerWrite m f (.bar a) true size v ecc) s = .next (s.commit s) ∧
    exec (.registerWrite m f (.bar a) false size v ecc) s = .next (s.commit (s.answer 0))) ∧
  (∀ (s : State) (m d o : Nat) (v : Word),
    (0x200000 ≤ o → o < 0x220000 → winWrite m d o v s = carrelWrite m d (o - 0x200000) v.toNat s) ∧
    (0x300000 ≤ o → o < 0x310000 → winWrite m d o v s = progmemAccess m d (o - 0x300000) true v false 0 s) ∧
    (∀ r n k, ¬ (0x200000 ≤ o ∧ o < 0x220000) → inProg o = false → regAt o = some (r, n, k) → forwardedAt o = false →
      winWrite m d o v s = wordWrite m o r n k v s.pt d s) ∧
    (∀ r n k, ¬ (0x200000 ≤ o ∧ o < 0x220000) → inProg o = false → regAt o = some (r, n, k) → forwardedAt o = true →
      o ≠ LAW_BANK.ACT.addr 0 n 0 →
      (s.forwards d = true → winWrite m d o v s = (wordWrite m o r n k v s.pt (s.activeOf d) s).modFwd (mateOf (s.activeOf d)) fun q =>
        q ++ [{ off := o, val := v, tick := s.pt }]) ∧
      (s.forwards d = false → s.notHeld d o = false → winWrite m d o v s = wordWrite m o r n k v s.pt d s)) ∧
    (∀ a r k, plainWrite a r k v s = s.setReg a
      ((s.reg a &&& ~~~(BitVec.ofNat 32 (r.rw.getD k 0)) &&& ~~~(BitVec.ofNat 32 (r.w1c.getD k 0) &&& v)) ||| (v &&& BitVec.ofNat 32 (r.rw.getD k 0))))) ∧
  (∀ (s : State) (d h num m f size ecc : Nat) (wr : Bool) (v : Word), s.hasDie d = true → h < 2 → num < 4096 →
    (s.hartRuns d h = false → exec (.registerWrite m f (.csr d h num) wr size v ecc) s = .next (s.commit s)) ∧
    (s.hartRuns d h = true → csrOk s d h num wr = false →
      exec (.registerWrite m f (.csr d h num) wr size v ecc) s = .next (s.commit (trap d h 2 (s.free % 2 ^ 32) (s.getHart d h).pc s.drew))) ∧
    (s.hartRuns d h = true → csrOk s d h num wr = true →
      exec (.registerWrite m f (.csr d h num) wr size v ecc) s =
        .next (s.commit (if wr = true then csrWrite d h num v.toNat s else csrRead d h num s)))) ∧
  (∀ (s : State) (d n j k c x t r len q : Nat) (v : Word) (up : Bool) (b w0 w1 : Word), s.Live d → n < 8 → j < 3 → k < 4 → c < 64 → x < 16 → t < 4 → r < 3 →
    b = BitVec.ofNat 32 (q % 2 * 256 + 512 + len % 65536 * 65536) → w0 = BitVec.ofNat 32 (len % 128 * 256) →
    w1 = BitVec.ofNat 32 (1 + len % 128 * 256) →
    ∀ (i : Instr) (off : Nat) (w : Word) (f : Nat → State → State), (i, off, w, f) ∈ ([
      (.excWrite d n r v, (excReg r).addr 0 n 0, v, excWrite n r v s.pt),
      (.trkCtrlWrite d n v, TRK_CTRL.TYPE.addr 0 n 0, v, trkCtrlWrite n v s.pt),
      (.trkRearm d n, TRK_CTRL.TYPE.addr 0 n 0, rearmWord s d n, fun e => trkRearm e n),
      (.trkSectorWrite d n v, TRK_SECTOR.SECTOR.addr 0 n 0, v, trkSectorWrite n v),
      (.trkXreq d n v, TRK_XREQ.PT.addr 0 n 0 + 4, v, trkXreq n v),
      (.tblDescWrite d n t v, TBL_DESC.ROLE.addr 0 n t, v, tblDescWrite n t v),
      (.encRawWrite d n v, ENC_RAW.COUNT.addr 0 n 0, v, encRawWrite n v),
      (.encIdxWrite d n v, ENC_IDX.MODE.addr 0 n 0, v, encIdxWrite n v),
      (.encIdxArm d n, ENC_IDX.MODE.addr 0 n 0, armWord s d n, encIdxArm n),
      (.prbStatWrite d n v, PRB_STAT.FULL.addr 0 n 0, v, prbStatWrite n),
      (.filApply d c, FIL_CFG.L3.addr 0 c 0, applyWord s d c, fun e u => filApply c s.pt e (u.wr e FIL_CFG.PEND 1 c)),
      (.filSyncGo d, FIL_SYNCCTL.GO.addr 0 0 0, 1, filSyncGo s.pt),
      (.acqCmpWrite d n k up v, (cmpThr up).addr 0 n k, v, acqCmpWrite n k up v),
      (.detCfgWrite d x r v, (if r = 0 then DET_CFG.SRC else DET_N.N).addr 0 x 0, v, detCfgWrite x r v),
      (.lptCtrlWrite d v, LPT_CTRL.EN.addr 0 0 0, v, lptCtrlWrite v),
      (.lawStart d n len, LAW_CTRL.RUN.addr 0 n 0, w1, lawCtrlWrite n w1 s.pt),
      (.lawStop d n len, LAW_CTRL.RUN.addr 0 n 0, w0, lawCtrlWrite n w0 s.pt),
      (.lawBankReq d n q len, LAW_BANK.ACT.addr 0 n 0, b, bankShared n b),
      (.pwmDutyWrite d n j v, PWM_DUTY.DUTY.addr 0 n j, v, pwmDutyReg n j v),
      (.pwmSafeWrite d n v, PWM_SAFE.LVL.addr 0 n 0, v, pwmSafeWrite n v),
      (.pwmCtrlWrite d n v, PWM_CTRL.EN.addr 0 n 0, v, pwmCtrlWrite n v),
      (.tuneStart d n, TUNE_CTRL.RSLOT.addr 0 n 0, tuneWord s d n 24, tuneCtrlWrite n (tuneWord s d n 24)),
      (.tuneAbort d n, TUNE_CTRL.RSLOT.addr 0 n 0, tuneWord s d n 25, tuneCtrlWrite n (tuneWord s d n 25))] ++
      (if hasMux c = true then [(Instr.acqMuxWrite d c v, (muxField c).1.addr 0 (muxField c).2.1 (muxField c).2.2, v, acqMuxWrite c v s.pt)] else []) :
        List (Instr × Nat × Word × (Nat → State → State))) →
      (s.forwards d = true → exec i s = .next (s.commit ((f (s.activeOf d) s).modFwd (mateOf (s.activeOf d)) fun z =>
        z ++ [{ off := off, val := w, tick := s.pt }]))) ∧
      (s.forwards d = false → s.notHeld d off = true →
        exec i s = .next (s.commit (s.drew.accessFault d (s.free % 7) true 2 2 (d * dieSpan + off)))) ∧
      (s.forwards d = false → s.notHeld d off = false → exec i s = .next (s.commit (f d s)))) ∧
  (∀ (s : State) (d : Nat), s.Live d →
    (s.getFwd d = [] → exec (.forwardedWrite d) s = .next (s.commit s)) ∧
    (∀ w q, s.getFwd d = w :: q → s.bridgeUp d = false → exec (.forwardedWrite d) s = .next (s.commit (s.modFwd d fun _ => []))) ∧
    (∀ w q u, s.getFwd d = w :: q → s.bridgeUp d = true → u = (s.inject d 8 464 7 2).modFwd d (fun _ => q) →
      (w.off = TBL_CMD.OP.off → exec (.forwardedWrite d) s = .next (s.commit (tblStart d (bitsOf w.val.toNat 0 4) (bitsOf w.val.toNat 4 5)
        (bitsOf w.val.toNat 9 5) (bitsOf w.val.toNat 16 3) (bitsOf w.val.toNat 20 2) u))) ∧
      (w.off ≠ TBL_CMD.OP.off → inProg w.off = true →
        exec (.forwardedWrite d) s = .next (s.commit (progApply (w.off - progBase) w.val w.run d u))) ∧
      (∀ r n k, w.off ≠ TBL_CMD.OP.off → inProg w.off = false → regAt w.off = some (r, n, k) →
        exec (.forwardedWrite d) s = .next (s.commit
          (if w.off = LAW_BANK.ACT.addr 0 n 0 then bankFollow n w.val d u else wordWrite 4 w.off r n k w.val w.tick d u)))))

/-- The flash controller (R460 to R468, R471, R473), the option load (R58, R461, R462) and its comparison (R18). -/
def Obligations.FlashCommandsRunAndComplete : Prop :=
  ∀ (s : State) (d a : Nat) (v : Word), s.Live d →
    (∀ (i : Instr) (op ar e : Nat) (w u : State), (i, op, ar) ∈ ([(.nvfProg d a, 1, a % 4), (.nvfErase d a, 2, a % 4), (.nvfBlank d a, 3, a % 4),
        (.nvfUnlock d, 4, 0), (.nvfRelock d, 5, 0)] : List (Instr × Nat × Nat)) →
      e = nvfRefuse s d op ar (s.rd d NVF_ADDR.ADDR) → w = (if op = 4 ∧ e ≠ 1 ∧ e ≠ 2 then clearKeys d s else s) →
      u = ((((w.wr d NVF_STAT.BUSY 1).wr d NVF_STAT.ERR 0).wr d NVF_STAT.LASTOP op).modNvf d fun _ =>
        some { op := op, area := ar, addr := s.rd d NVF_ADDR.ADDR, data := (List.range 4).flatMap fun k => leBytes (w.rd d NVF_DATA.DATA k) 4 }) →
      (e ≠ 0 → e ≠ 7 → exec i s = .next (s.commit ((w.wr d NVF_STAT.ERR e).raise d 544 3 e))) ∧
      (e = 7 → ∀ x, x = w.wr d NVF_PROT.FAILS (w.rd d NVF_PROT.FAILS + 1) →
        exec i s = .next (s.commit (((if w.rd d NVF_PROT.FAILS + 1 = 8 then (x.wr d NVF_PROT.LOCKOUT 1).raise d 548 3 0 else x).wr d
          NVF_STAT.ERR 7).raise d 544 3 7))) ∧
      (e = 0 → exec i s = .next (s.commit (if u.bit d PWR_STAT.DIP = true then u.wr d NVF_STAT.WAIT 1 else nvfStart d u)))) ∧
    (∀ op ar o, nvfRefuse s d op ar o =
      if s.bit d NVF_STAT.BUSY = true then 1 else if op = 0 ∨ 5 < op ∨ ar = 3 then 2
      else if op < 4 ∧ (areaSize ar ≤ o ∨ (op = 1 ∧ o % 16 ≠ 0)) then 3 else if op < 3 ∧ sectorProt s d ar (o / sectorSize ar) = true then 4
      else if op = 1 ∧ sectorInt s d ar (o / sectorSize ar) = true then 6 else if op = 1 ∧ unitUsed s d ar o = true then 5
      else if op = 4 ∧ s.bit d NVF_PROT.LOCKOUT = true then 8
      else if op = 4 ∧ s.bit d NVF_PROT.NOPW = false ∧ keyOf s d ≠ password s d then 7 else 0) ∧
    (∀ r u, s.getNvf d = some r → u = s.modNvf d (fun _ => some { r with started := true }) →
      (r.op = 2 → nvfStart d s = u.modMark d r.area (r.addr / sectorSize r.area) fun x =>
        { x with intent := some (u.ptD d, ((x.done.map fun y => y.2 + 1).getD 1) % 2 ^ 32), done := none, bad := false }) ∧
      (r.op = 4 → nvfStart d s = (u.wr d NVF_PROT.UNLOCKED 1).wr d NVF_PROT.FAILS
        (if u.bit d NVF_PROT.NOPW = true then u.rd d NVF_PROT.FAILS else 0)) ∧
      (r.op = 5 → nvfStart d s = u.wr d NVF_PROT.UNLOCKED 0) ∧ (r.op ≠ 2 → r.op ≠ 4 → r.op ≠ 5 → nvfStart d s = u)) ∧
    (∀ r k (fin : State → State), s.getNvf d = some r → r.started = true → s.bit d NVF_STAT.SUSP = false → k = r.addr / sectorSize r.area →
      (∀ u : State, fin u = ((((u.modNvf d fun _ => none).wr d NVF_STAT.BUSY 0).wr d NVF_STAT.DONE 1).setIrqs d 22 true)) →
      (r.op = 1 → exec (.nvfCmdComplete d) s = .next (s.commit (fin (putUnit d r.area r.addr r.data s)))) ∧
      (r.op = 2 → exec (.nvfCmdComplete d) s = .next (s.commit (fin (setInt d r.area k false ((eraseSector d r.area k s).modMark d r.area k
        fun x => { x with done := (x.intent.map Prod.snd).map fun c => ((eraseSector d r.area k s).ptD d, c), told := false }))))) ∧
      (r.op = 3 → ∀ o, o = (((List.range (sectorSize r.area / 16)).map fun u => k * sectorSize r.area + 16 * u).find? fun o => unitUsed s d r.area o) →
        exec (.nvfCmdComplete d) s = .next (s.commit (fin (match o with
          | none => s.wr d NVF_STAT.BLANK 1
          | some o => (s.wr d NVF_STAT.BLANK 0).wr d NVF_ERRADDR.ADDR o)))) ∧
      (r.op ≠ 1 → r.op ≠ 2 → r.op ≠ 3 → exec (.nvfCmdComplete d) s = .next (s.commit (fin s)))) ∧
    (s.getNvf d = none ∨ (∃ r, s.getNvf d = some r ∧ (r.started = false ∨ s.bit d NVF_STAT.SUSP = true)) →
      exec (.nvfCmdComplete d) s = .next (s.commit s)) ∧
    (∀ x, x = s.getMark d (bitsOf v.toNat 8 2) (bitsOf v.toNat 0 8) →
      (x.bad = false → exec (.nvfMarkSelect d v) s = .next (s.commit
        ((s.wr d NVF_MARK.INTENT (markUnit 0x54544E49 x.intent)).wr d NVF_MARK.DONE (markUnit 0x454E4F44 x.done)))) ∧
      (x.bad = true → exec (.nvfMarkSelect d v) s = .next (s.commit
        ((s.wr d NVF_MARK.INTENT s.free).wr d NVF_MARK.DONE (markUnit 0x454E4F44 x.done)).drew))) ∧
    (∀ ea eb ec u va vb p w x y, s.rd d GLB_PHASE.PHASE = 1 → (s.getDie d).optOk = false →
      u = classArea d 2 (classArea d 1 (classArea d 0 s)) → va = copyValid u d 0 ea → vb = copyValid u d 1 eb →
      p = (if (va && vb) = true then decide (u.flashLe d 2 8 4 < u.flashLe d 2 0x808 4) else vb) →
      w = (((u.wr d NVF_OPT.VALIDA (b2n va)).wr d NVF_OPT.VALIDB (b2n vb)).wr d NVF_OPT.COPY (b2n p)) →
      x = (if (va != vb) = true then w.raise d 550 3 (b2n p) else w) →
      y = (if calOk x d ec = true then x.wr d EXC_STAT.CALVER (x.flashLe d 3 4 2) else x.raise d 549 3 0) →
      exec (.optionAreaLoad d ea eb ec) s = .next (s.commit
        (if ((va || vb) && calOk x d ec) = true then
          trainStart d (optCompare d (optApply d ((y.modDie d fun x => { x with noPads := false }).modDie d fun x => { x with optOk := true })))
        else padsOff d y))) ∧
    (∀ ea eb ec, s.rd d GLB_PHASE.PHASE ≠ 1 ∨ (s.getDie d).optOk = true → exec (.optionAreaLoad d ea eb ec) s = .next (s.commit s)) ∧
    (∀ e (mark : Bool → Bool → Nat → State → State), e = mateOf d →
      (∀ x y k u, mark x y k u = u.modDie k fun z => { z with optMismatch := x, optClean := y }) →
      ((s.getDie e).inReset = true ∨ (s.getDie e).optOk = false → optCompare d s = s) ∧
      ((s.getDie e).inReset = false → (s.getDie e).optOk = true →
        (optDiffers s d e = true →
          optCompare d s = ((mark true false e (mark true false d (s.holdBalls (d / 2)))).raise d 551 3 0).raise e 551 3 0) ∧
        (optDiffers s d e = false → (s.getDie e).optMismatch = true → (s.getDie e).optClean = false → optCompare d s = mark true true d s) ∧
        (optDiffers s d e = false → (s.getDie e).optMismatch = true → (s.getDie e).optClean = true →
          optCompare d s = setMode e (s.getDie d).optMode (s.getDie d).optSplit (setMode d (s.getDie d).optMode (s.getDie d).optSplit
            (mark false false e (mark false false d s)))) ∧
        (optDiffers s d e = false → (s.getDie e).optMismatch = false → optCompare d s = s)))

/-- Measurement and the colophon (R476 to R479), and an answer that D3hot holds back (R379). -/
def Obligations.MeasuresExtendAndColophonsAreSigned : Prop :=
  (∀ (s : State) (d h k : Nat), s.hasDie d = true → h < 2 →
    (s.hartRuns d h = false → exec (.msrExtend d h k) s = .next (s.commit s) ∧ exec (.msrLock d h k) s = .next (s.commit s)) ∧
    (s.hartRuns d h = true →
      (bitOf (s.rd d MSR_VALID.LOCK) (6 + k % 2 - 6) = true → exec (.msrExtend d h k) s = .next (s.commit s)) ∧
      (bitOf (s.rd d MSR_VALID.LOCK) (6 + k % 2 - 6) = false → exec (.msrExtend d h k) s = .next (s.commit
        (s.wr d MSR_SLOT.DIGEST (leNum (sha384 (msrSlot s d (6 + k % 2) ++ leBytes (s.rd d MSR_EXTDATA.DATA) 48))) (6 + k % 2)))) ∧
      exec (.msrLock d h k) s = .next (s.commit (s.wrBit d MSR_VALID.LOCK (k % 2) true)))) ∧
  (∀ (s : State) (d : Nat), s.Live d →
    (s.bit d MSR_CSTAT.BUSY = true → exec (.msrCreq d) s = .next (s.commit s)) ∧
    (s.bit d MSR_CSTAT.BUSY = false → exec (.msrCreq d) s = .next (s.commit (signKick d ((s.wr d MSR_CSTAT.BUSY 1).modSignq d fun q =>
      q ++ [{ who := .creq, nonce := leBytes (s.rd d MSR_NONCE.NONCE) 32 }])))) ∧
    (∀ q rest, s.getSignq d = q :: rest →
      (q.report = none → s.bit d MSR_VALID.DONE = true →
        signKick d s = s.modSignq d fun _ => { q with report := some (colophonBody s d q.nonce) } :: rest) ∧
      (q.report ≠ none ∨ s.bit d MSR_VALID.DONE = false → signKick d s = s)) ∧
    (s.getSignq d = [] → signKick d s = s) ∧
    (∀ q rest b, s.getSignq d = q :: rest → q.report = some b → signHeld s d q.who = false →
      exec (.colophonSigned d) s = .next (s.commit
        (signKick d (colophDeliver d q.who (b ++ beBytes (Config.signature d b s.free).1 48 ++ beBytes (Config.signature d b s.free).2 48)
          (s.drew.modSignq d fun _ => rest))))) ∧
    (s.getSignq d = [] ∨ (∃ q rest, s.getSignq d = q :: rest ∧ (q.report = none ∨ signHeld s d q.who = true)) →
      exec (.colophonSigned d) s = .next (s.commit s)) ∧
    (∀ bs, colophDeliver d .creq bs s = (((s.forEach (List.range bs.length) fun i s => s.modRepByte d i fun _ => bs.getD i 0).wr d MSR_CSTAT.BUSY 0).wr d
        MSR_CSTAT.DONE 1).wr d MSR_CSTAT.LEN bs.length ∧
      colophDeliver d .gone bs s = s))

/-- The rails (R443, R444, R447, R448) and the temperature (R449, R450). -/
def Obligations.RailsWarnDipAndRise : Prop :=
  (∀ (s : State) (d r : Nat), s.hasDie d = true → railOn d r = true →
    (bitOf (s.getRails d).low r = true → exec (.railWarningCrossing d r) s = .next (s.commit s)) ∧
    (∀ u, bitOf (s.getRails d).low r = false → u = s.modRails d (fun x => { x with low := putBit x.low r true }) →
      ((u.getDie d).inReset = true → exec (.railWarningCrossing d r) s = .next (s.commit u)) ∧
      ((u.getDie d).inReset = false → ∀ v w, v = ((u.wr d PWR_STAT.DIP 1).wrBit d PWR_STAT.WARN r true).addSat d PWR_BROWN.COUNT →
        w = ((v.wr d PWR_BROWN.RAIL r).wr d PWR_LASTDIP.PT (v.ptD d)).modGov d (fun g => { g with retAt := none }) →
        exec (.railWarningCrossing d r) s = .next (s.commit (if u.bit d PWR_STAT.DIP = true then w else nvfSuspend d (w.raise d 288 1 r))))) ∧
    (∀ u v, u = s.modRails d (fun x => { x with low := putBit x.low r false }) → v = u.wrBit d PWR_STAT.WARN r false →
      ((u.getDie d).inReset = true → exec (.railWarningReturn d r) s = .next (s.commit u)) ∧
      ((u.getDie d).inReset = false → v.rd d PWR_STAT.WARN = 0 → v.bit d PWR_STAT.DIP = true → (v.getGov d).retAt = none →
        exec (.railWarningReturn d r) s = .next (s.commit (v.modGov d fun g => { g with retAt := some v.pt }))) ∧
      ((u.getDie d).inReset = false → v.rd d PWR_STAT.WARN ≠ 0 ∨ v.bit d PWR_STAT.DIP = false ∨ (v.getGov d).retAt ≠ none →
        exec (.railWarningReturn d r) s = .next (s.commit v))) ∧
    (bitOf (s.getRails d).high r = true → exec (.railHighCrossing d r) s = .next (s.commit s)) ∧
    (∀ u, bitOf (s.getRails d).high r = false → u = s.modRails d (fun x => { x with high := putBit x.high r true }) →
      ((u.getDie d).inReset = true → exec (.railHighCrossing d r) s = .next (s.commit u)) ∧
      ((u.getDie d).inReset = false → exec (.railHighCrossing d r) s = .next (s.commit ((u.wrBit d PWR_STAT.HIGH r true).raise d 289 1 r)))) ∧
    (∀ u, u = s.modRails d (fun x => { x with high := putBit x.high r false }) →
      (bitOf (s.getRails d).high r = true → (u.getDie d).inReset = false →
        exec (.railHighReturn d r) s = .next (s.commit ((u.wrBit d PWR_STAT.HIGH r false).raise d 289 2 r))) ∧
      (bitOf (s.getRails d).high r = false ∨ (u.getDie d).inReset = true → exec (.railHighReturn d r) s = .next (s.commit u)))) ∧
  (∀ (s : State) (d : Nat), s.Live d →
    (∀ t u, (s.getGov d).retAt = some t → u = ((s.passTo (t + 250000)).modGov d fun g => { g with retAt := none }) →
      exec (.dipEnd d) s = .next (s.commit (nvfResume d ((u.wr d PWR_STAT.DIP 0).raise d 288 2 (u.rd d PWR_BROWN.RAIL))))) ∧
    ((s.getGov d).retAt = none → exec (.dipEnd d) s = .next (s.commit s)) ∧
    (∀ (src : Nat) (on : Bool) (rise fall tj : Int), thermal d src on rise fall tj s =
      if on = false ∧ rise ≤ tj then (true, s.raise d src 1 0) else if on = true ∧ tj ≤ fall then (false, s.raise d src 2 0) else (on, s)) ∧
    (∀ (ts qs : List Int) (ex : List Bool) (live : List Int) (tj tw : Int) (fault : Bool) (u v w z : State),
      qs = (List.range 4).map (fun i => ts.getD i 0) → ex = excluded qs →
      live = ((qs.zip ex).filter fun x => !x.2).map (fun x => x.1) → fault = decide (live.length < 2) →
      u = s.toNext (State.stepNo 10 d 0) 2500000 →
      v = u.forEach (List.range 4) (fun i s => if ex.getD i false && !(u.getGov d).excl.getD i false then s.raise d 292 3 i else s) →
      tj = (if fault = true then max ((v.rd d PWR_TLIM.TLIM : Int) * 256) (live.foldl max (-32768)) else live.foldl max (-32768)) →
      w = ((v.wrI d PWR_TEMP.TJ (satI 16 tj)).wr d PWR_TEMP.FAULT (b2n fault)) →
      z = w.wrI d PWR_TEMP.TMAX (max (w.rdI d PWR_TEMP.TMAX) (satI 15 (tj / 2))) → tw = clampN 60 115 (z.rd d PWR_TLIM.TWARN) →
      ∀ x y : Bool × State,
        x = thermal d 290 (z.getGov d).warn (tw * 256) ((tw - 3) * 256) tj z →
        y = thermal d 291 (z.getGov d).crit (120 * 256) (110 * 256) tj x.2 →
        exec (.tempSensorRead d ts) s = .next (s.commit (y.2.modGov d fun g => { g with excl := ex, warn := x.1, crit := y.1 }))))

/-- The governors (R452, R453, R455). -/
def Obligations.GovernorsStepAndShare : Prop :=
  ∀ (s : State) (d : Nat), s.Live d →
    (∀ (p : Nat) (mv : List Nat) (u v : State) (h gain tok : Rat),
      u = (s.toNext (State.stepNo 11 d 0) 250000).forEach (List.range 8) (fun r s =>
        if railOn d r then (s.wr d PWR_RAIL.MV (min (mv.getD r 0) 65535) r).wr d PWR_RAIL.MIN (min (s.rd d PWR_RAIL.MIN r) (min (mv.getD r 0) 65535)) r
        else s) →
      v = ((u.wr d PWR_PMEAS.P (min p 65535)).wr d PWR_PMEAS.PMAX (max (u.rd d PWR_PMEAS.PMAX) (min p 65535))) →
      h = (if v.bit d PWR_TEMP.FAULT = true then 0 else
        clampQ 0 1 (((v.rd d PWR_TLIM.TLIM : Rat) - (v.rdI d PWR_TEMP.TJ : Rat) / 256) / ((max 1 (v.rd d PWR_TLIM.TSPAN) : Nat) : Rat))) →
      gain = ((v.rd d PWR_BUDGET.SHARE : Rat) - ((min p 65535 : Nat) : Rat)) →
      tok = clampQ 0 ((max 1 (v.rd d PWR_TOKEN.CAP) : Nat) : Rat) ((v.getGov d).tok + (if 0 ≤ gain then gain / 10 * h else gain / 10)) →
      ∀ w x : State, w = v.wr d PWR_TOKEN.TOK (floorQ tok).toNat →
        x = (if ((v.getGov d).deficit && tok != 0) = true then w.raise d 293 2 0 else w) →
        exec (.governorStep d p mv) s = .next (s.commit (admitTask d tok (x.modGov d fun g =>
          { g with tok := tok, zeros := if tok = 0 then min ((v.getGov d).zeros + 1) 100 else 0,
                   deficit := g.deficit && tok == 0, pSum := g.pSum + min p 65535, pN := g.pN + 1 })))) ∧
    (100 ≤ (s.getGov d).zeros → (s.getGov d).deficit = false →
      exec (.govDeficit d) s = .next (s.commit ((s.modGov d fun g => { g with deficit := true }).raise d 293 1 0))) ∧
    ((s.getGov d).deficit = true ∨ (s.getGov d).zeros < 100 → exec (.govDeficit d) s = .next (s.commit s)) ∧
    (∀ (tok : Rat) (f f' e e' : Bool) (u v w : State), f = s.bit d PWR_ADMIT.FIRM → e = s.bit d PWR_ADMIT.DEFER →
      f' = (!(decide (tok < (s.rd d PWR_LVLF.FOFF : Rat)) || s.bit d PWR_ADMIT.HOLDF) &&
        (f || decide (((max (s.rd d PWR_LVLF.FOFF) (s.rd d PWR_LVLF.FON) : Nat) : Rat) ≤ tok))) →
      e' = (f' && !(decide (tok < (s.rd d PWR_LVLD.DOFF : Rat)) || s.bit d PWR_ADMIT.HOLDD || s.bit d PWR_STAT.DIP) &&
        (e || decide (((max (s.rd d PWR_LVLD.DOFF) (s.rd d PWR_LVLD.DON) : Nat) : Rat) ≤ tok))) →
      u = ((s.wr d PWR_ADMIT.FIRM (b2n f')).wr d PWR_ADMIT.DEFER (b2n e')).wr d PWR_ADMIT.CHG 1 →
      v = (if (f && !f') = true then u.addSat d PWR_SHEDCNT.FIRM else u) →
      w = (if (e && !e') = true then v.addSat d PWR_SHEDCNT.DEFER else v).setIrqs d 23 true →
      admitTask d tok s = if (f' == f && e' == e) = true then s else if (f && !f') = true then firmShed d w
        else if (!f && f') = true then firmBack d w else w) ∧
    (∀ u, u = s.toNext (State.stepNo 12 0 0) 2500000 → u.master = none → exec .packageGovernorStep s = .next (s.commit u)) ∧
    (∀ (u : State) (m : Nat) (mean : Nat → Rat) (rest : Rat), u = s.toNext (State.stepNo 12 0 0) 2500000 → u.master = some m →
      mean = (fun e => if (u.getGov e).pN = 0 then ((u.rd e PWR_PMEAS.P : Nat) : Rat) else ((u.getGov e).pSum : Rat) / ((u.getGov e).pN : Rat)) →
      rest = (u.rd m PWR_PKGBUD.PKG : Rat) - (List.range u.dies).foldl (fun (a : Rat) e =>
        a + (if (u.dieSet m).elem e then mean e else (u.rd m PWR_PKGBUD.PKG : Rat) / ((u.dies : Nat) : Rat))) 0 →
      exec .packageGovernorStep s = .next (s.commit ((u.dieSet m).foldl (fun t e =>
        (t.near (mean e + rest / ((u.dies : Nat) : Rat))).2.modGov e fun g =>
          { g with shareIn := some (min ((t.near (mean e + rest / ((u.dies : Nat) : Rat))).2.rd e PWR_BUDGET.DIEMAX)
                     (t.near (mean e + rest / ((u.dies : Nat) : Rat))).1.toNat), pSum := 0, pN := 0 }) u))) ∧
    (∀ v, (s.getGov d).shareIn = some v →
      exec (.shareReceive d) s = .next (s.commit ((s.wr d PWR_BUDGET.SHARE v).modGov d fun g =>
        { g with shareIn := none, shareAt := s.pt }))) ∧
    ((s.getGov d).shareIn = none → exec (.shareReceive d) s = .next (s.commit s)) ∧
    (∀ u x, u = s.passTo ((s.getGov d).shareAt + 7500000) → x = u.near ((u.rd d PWR_PKGBUD.PKG : Rat) / ((u.dies : Nat) : Rat)) →
      exec (.shareTimeout d) s = .next (s.commit (x.2.wr d PWR_BUDGET.SHARE (min x.1.toNat 65535))))

/-- The collector of a die (R61, R287 to R289, R294, R295, R297, R298, R300, R305, R306, R324). -/
def Obligations.CollectorsReactReleaseAndClear : Prop :=
  ∀ (s : State) (d k : Nat), s.Live d → k < 1024 →
    (∀ (extra : List (Nat × Nat × Nat)) (u v : State) (r : State × Bool),
      u = extra.foldl (fun s m => if srcExists m.1 = true ∧ 1 ≤ m.2.1 ∧ m.2.1 ≤ 8 then s.raise d m.1 m.2.1 m.2.2 else s) s →
      v = { u with inbox := u.inbox.set d [] [] } →
      r = ((u.inbox.get d []).foldl (fun q m => placeMsg u d m q) []).foldl (fun p m =>
        if m.kind = 2 then (deassertion d (v.ptD d) m p.1, p.2)
        else ((assertion d (v.ptD d) m p.1).1, p.2 || (assertion d (v.ptD d) m p.1).2)) (v, false) →
      exec (.faultMessage d extra) s = .next (s.commit (if r.2 = true then resetDie d .sev7 (showFaultN r.1) else showFaultN r.1))) ∧
    (∀ stamp m, deassertion d stamp m s = record d m.src (2 + 32 * b2n m.inj) m.addr stamp { inj := m.inj, muted := m.muted }
      (goQuiet d m.src stamp (s.wr d FLT_SRCSTAT.LIVE 0 m.src))) ∧
    (∀ stamp m u take (f : Bool × State), u = assertFlags d m (s.modSrc d m.src fun x => { x with cfg := some (cfgWritten s d m.src) }) →
      f = (if isPlain u d m.src = true then (false, u) else firstError d m.src (m.kind % 32 + 32 * b2n m.inj) stamp u) →
      take = (!isPlain u d m.src && !m.muted && f.2.rd d FLT_SRCSTAT.STATE m.src == 0 && 3 ≤ cfgSev f.2 d m.src && reacts u d m.src) →
      (assertion d stamp m s).1 = assertEnd d stamp m take
        (assertRecord d stamp m (m.kind % 32 + 32 * b2n m.inj) f.1 take (assertReact d m take f.2))) ∧
    (s.rd d FLT_SRCSTAT.STATE k = 2 →
      exec (.quietTimerExpiry d k) s = .next (s.commit (endReaction d k 9
        ((s.passTo ((s.getSrc d k).quietAt + (s.getSrc d k).quiet * 250000)).addSat d FLT_SRCSTAT.RCNT 1 k)))) ∧
    (s.rd d FLT_SRCSTAT.STATE k ≠ 2 → exec (.quietTimerExpiry d k) s = .next (s.commit s)) ∧
    (s.rd d FLT_SRCSTAT.STATE k ≠ 0 → liveNow s d k = false → (s.getSrc d k).sev ≠ 7 →
      exec (.fltRel d k) s = .next (s.commit (endReaction d k 10 s))) ∧
    (s.rd d FLT_SRCSTAT.STATE k = 0 ∨ liveNow s d k = true ∨ (s.getSrc d k).sev = 7 → exec (.fltRel d k) s = .next (s.commit s)) ∧
    exec (.fltClr d k) s = .next (s.commit ((s.wr d FLT_SRCSTAT.RCNT 0 k).wr d FLT_SRCSTAT.OCC 0 k)) ∧
    (liveNow s d k = false →
      exec (.fltStickyClear d k) s = .next (s.commit (showFaultN ((s.wr d FLT_SRCSTAT.STICKY 0 k).modSrc d k fun x => { x with pin := false })))) ∧
    (liveNow s d k = true → exec (.fltStickyClear d k) s = .next (s.commit s)) ∧
    (s.bridgeUp d = true → (s.getPair d).heldLost = false → exec (.fltMrel d) s = .next (s.commit s)) ∧
    (s.bridgeUp d = false ∨ (s.getPair d).heldLost = true → exec (.fltMrel d) s = .next (s.commit (emuShowAll d
      (((((s.holdBalls (d / 2)).wr d FLT_REACT.MAXSAFE 0).wr d FLT_REACT.MDIESAFE 0).modPair d fun p => { p with heldLost := false }).refreshDie d)))) ∧
    exec (.evtPop d) s = .next (s.commit (showEvt d (s.modFlt d fun f => { f with evq := f.evq.drop 1 }))) ∧
    (∀ (v w : Word) (c n : Nat) (u : State) (bad : Prop), w = BitVec.ofNat 32 (putBit v.toNat 9 true) → bitOf w.toNat 9 = true →
      c = bitsOf w.toNat 0 5 → n = bitsOf w.toNat 16 16 →
      u = (((s.wr d FLT_INJ.CHK c).wr d FLT_INJ.MUTE (bitsOf w.toNat 8 1)).wr d FLT_INJ.N n) →
      (bad ↔ 12 < c ∨ n = 0 ∨ u.bit d FLT_INJSTAT.BUSY = true ∨ (c = 5 ∧ 2 ≤ d) ∨ ((c = 6 ∨ c = 7) ∧ (u.getDie d).split = true)) →
      (bad → exec (.fltInjGo d v) s = .next (s.commit (u.raise d 306 3 0))) ∧
      (¬ bad → exec (.fltInjGo d v) s = .next (s.commit
        (((u.wr d FLT_INJSTAT.LEFT n).wr d FLT_INJSTAT.BUSY 1).modFlt d fun f => { f with chk := c }))))

/-- The package side of faults (R292, R302, R303), ledger records (R308, R312, R438) and the self-test (R322, R323). -/
def Obligations.PackageFaultsAndTheLedger : Prop :=
  ∀ (s : State) (d : Nat), s.Live d →
    exec .packageSafeLine s = .next (s.commit (s.forEach s.liveDies fun d t =>
      emuShowAll d (((t.holdBalls (d / 2)).wr d FLT_REACT.PKGSAFE (b2n (safeLine s))).refreshDie d))) ∧
    (safeLine s = true ↔ ∃ e, e < s.dies ∧ ((s.getDie e).holdSafeLine = true ∨ ∃ x ∈ inForce s e, 6 ≤ x.sev)) ∧
    (∀ m q u, (s.getFlt d).pkgIn = m :: q → u = s.modFlt d (fun f => { f with pkgIn := q }) →
      (m.stamp < (u.getFlt d).pkgFrom ∨ ¬ (u.bit d FLT_PKGFIRST.VALID = false ∨ m.stamp < u.rd d FLT_PKGFIRSTPT.PT ∨
          (m.stamp = u.rd d FLT_PKGFIRSTPT.PT ∧ (u.rd d FLT_PKGFIRST.SEV < m.sev ∨
            (u.rd d FLT_PKGFIRST.SEV = m.sev ∧ m.src < u.rd d FLT_PKGFIRST.SRC)))) →
        exec (.pkgfirstMessage d) s = .next (s.commit u)) ∧
      ((u.getFlt d).pkgFrom ≤ m.stamp → (u.bit d FLT_PKGFIRST.VALID = false ∨ m.stamp < u.rd d FLT_PKGFIRSTPT.PT ∨
          (m.stamp = u.rd d FLT_PKGFIRSTPT.PT ∧ (u.rd d FLT_PKGFIRST.SEV < m.sev ∨
            (u.rd d FLT_PKGFIRST.SEV = m.sev ∧ m.src < u.rd d FLT_PKGFIRST.SRC)))) →
        exec (.pkgfirstMessage d) s = .next (s.commit (((((u.wr d FLT_PKGFIRST.SRC m.src).wr d FLT_PKGFIRST.KIND m.kind).wr d
          FLT_PKGFIRST.SEV m.sev).wr d FLT_PKGFIRST.VALID 1).wr d FLT_PKGFIRSTPT.PT m.stamp)))) ∧
    ((s.getFlt d).pkgIn = [] → exec (.pkgfirstMessage d) s = .next (s.commit s)) ∧
    exec (.fltFirstClear d) s = .next (s.commit ((s.wr d FLT_FIRST.VALID 0).wr d FLT_FIRSTCNT.COUNT 0)) ∧
    exec (.fltPkgfirstClear d) s = .next (s.commit { s with pkgClear := s.pkgClear ++ [s.pt + 5000] }) ∧
    (∀ t q u, s.pkgClear = t :: q → u = { s.passTo t with pkgClear := q } →
      exec .pkgfirstClearTick s = .next (s.commit (u.forEach u.liveDies fun d s =>
        if s.bit d FLT_PKGFIRST.VALID = true ∧ t ≤ s.rd d FLT_PKGFIRSTPT.PT then s.modFlt d fun f => { f with pkgFrom := t } else
        (((((s.wr d FLT_PKGFIRST.SRC 0).wr d FLT_PKGFIRST.KIND 0).wr d FLT_PKGFIRST.SEV 0).wr d FLT_PKGFIRST.VALID 0).wr d
          FLT_PKGFIRSTPT.PT 0).modFlt d fun f => { f with pkgFrom := t }))) ∧
    (s.pkgClear = [] → exec .pkgfirstClearTick s = .next (s.commit s)) ∧
    (∀ c e q u v, ledgRoom s = some c → s.getLedq d = e :: q → s.reach d c = true → u = lostRecord d c s →
      v = ledgWrite c e (u.modLedq d fun _ => q) →
      (ledgRoom u = none → exec (.ledgerRecordWrite d) s = .next (s.commit u)) ∧
      (ledgRoom u ≠ none → exec (.ledgerRecordWrite d) s = .next (s.commit
        (if e.msg / 65536 % 32 ≠ 2 ∧ e.msg / 65536 % 32 ≤ 8 then stkTrigger c (e.tail % 8192) e.pt v else v)))) ∧
    (s.dramSrv = none → s.getLedq d ≠ [] → exec (.ledgerRecordWrite d) s = .next (s.commit (ledgLose d (s.modLedq d fun q => q.drop 1)))) ∧
    (s.getLedq d = [] ∨ (s.dramSrv ≠ none ∧ (ledgRoom s = none ∨ ∃ c, ledgRoom s = some c ∧ s.reach d c = false)) →
      exec (.ledgerRecordWrite d) s = .next (s.commit s)) ∧
    (∀ dead, (s.getDie d).split = true → exec (.comparatorSelftest d dead) s = .next (s.commit s)) ∧
    (∀ dead fail u v, (s.getDie d).split = false →
      fail = 65535 - compareWords dead (s.getLawDie d).word ((s.getLawDie d).word ^^^ testMask (s.getLawDie d).tests) →
      u = (if 1024 ≤ (s.getLawDie d).cps then s else s.passTo ((s.getLawDie d).testAt + 2500000)) →
      v = (u.modLawDie d fun l => { l with cps := 0, testAt := u.pt, tests := l.tests + 1,
                                           fails := if fail = 0 then l.fails else min 255 (l.fails + 1) }) →
      exec (.comparatorSelftest d dead) s = .next (s.commit (if fail = 0 then v else v.raise d 434 6 fail)))

/-- Resets (R50 to R54, R446), and what they keep (R17, R53, R292, R301, R473, R487). -/
def Obligations.ResetsAndTheWatchdog : Prop :=
  (∀ (s : State) (d : Nat), s.hasDie d = true →
    exec (.powerOnReset d) s = .next (s.commit (enterReset d [.por] s)) ∧
    (∀ r, railOn d r = true → exec (.railResetCrossing d r) s = .next (s.commit (enterReset d [.por] s))) ∧
    exec .rstnReset s = .next (s.commit { s.forEach (List.range s.dies) fun d s => enterReset d [.pin] s with
      pt := 0, slewFrom := 0, strobeAt := none, lastAt := [] }) ∧
    (∀ (cs : List ResetCause) (a b c e f g z : State) (line low : Bool) (mask : Nat), a = s.holdBalls (d / 2) →
      line = ((a.getDie d).holdSafeLine || cs.contains .sev7 || (inForce a d).any fun x => x.sev == 7) →
      mask = (List.range 8).foldl (fun k n => putBit k n (a.owns d n)) 0 → low = drivesFaultN a d → b = dropDie d (leaveServices d a) →
      c = b.setReg (GLB_RSTCAUSE.POR.addr d 0 0) (BitVec.ofNat 32
        (if cs.contains .por = true then 0 else (a.reg (GLB_RSTCAUSE.POR.addr d 0 0)).toNat)) →
      e = cs.foldl (fun s c => s.wr d (causeFld c) 1) c →
      f = e.modDie d (fun x => { x with inReset := true, heldMask := mask, resetAt := some e.now, wdtEnd := wdtWindow a d }) →
      g = (if cs.contains .por = true then f else (f.wr d NVF_PROT.FAILS (a.rd d NVF_PROT.FAILS)).wr d NVF_PROT.LOCKOUT (a.rd d NVF_PROT.LOCKOUT)) →
      (cs.any isHard = true → z = (if cs.contains .por = true then g.wr d GLB_ID.PAIRMODE (heldMode a d (cs.contains .por)) else g).modMem d fun _ => {}) →
      (cs.any isHard = false → ∀ i j k, i = (keptFields.map fun f => (f, a.rd d f.1 f.2)).foldl (fun s f => s.wr d f.1.1 f.2 f.1.2)
          (g.wr d GLB_ID.PAIRMODE (heldMode a d (cs.contains .por))) →
        j = i.modDie d (fun x => { x with safeProg := (a.getDie d).safeProg, holdFaultN := low, holdSafeLine := line }) →
        k = j.forEach (List.range 8) (fun n s => s.modEnc d n fun x =>
          { x with pins := emuSafePins s d n (((List.range 8).map fun n => (a.getEnc d n).pins).getD n [.z, .z, .z]) }) →
        z = (k.modFlt d fun f => { f with pkgTake := true }).modMem d fun _ => { was := (a.getMem d).was }) →
      enterReset d cs s = showFaultN (timeFollows (holdPads d z))) ∧
    (∀ c, (s.mayRelease d = true → ∀ t, t = s.now8 + 552 → resetDie d c s = (s.holdBalls (d / 2)).modPair d fun p =>
        { p with releasing := some (s.pt + 64), swapping := false, swapTs := none, resetAfter := [c],
                 sched := p.sched ++ [(t, 0, .off), (t, 1, .off), (t, 2, .off)] }) ∧
      (s.mayRelease d = false → (s.getPair d).releasing = none → resetDie d c s = enterReset d [c] s) ∧
      (s.mayRelease d = false → (s.getPair d).releasing ≠ none → resetDie d c s = s.modPair d fun p =>
        { p with swapping := false, resetAfter := if p.resetAfter.contains c = true then p.resetAfter else p.resetAfter ++ [c] }))) ∧
  (∀ (s : State) (d : Nat), s.Live d →
    (∀ (i : Instr) (w : Word), (∃ v, i = .watchdogEnable d v ∧ w = BitVec.ofNat 32 (putBit v.toNat 16 true)) ∨
        (∃ key, i = .watchdogKick d key ∧ w = BitVec.ofNat 32 (key % 256 * 16777216 + (s.reg (GLB_WDT.TIMEOUT.addr d 0 0)).toNat % 16777216)) →
      (s.bit d GLB_WDT.LOCK = true → bitsOf w.toNat 24 8 = 0xC3 → exec i s = .next (s.commit (s.modDie d fun x => { x with wdtAt := s.now }))) ∧
      (s.bit d GLB_WDT.LOCK = true → bitsOf w.toNat 24 8 ≠ 0xC3 → exec i s = .next (s.commit (s.raise d 256 3 0))) ∧
      (s.bit d GLB_WDT.LOCK = false → ∀ u, u = (s.wr d GLB_WDT.TIMEOUT w.toNat).wr d GLB_WDT.EN (w.toNat / 65536) →
        exec i s = .next (s.commit (if bitOf w.toNat 16 = true then (u.wr d GLB_WDT.LOCK 1).modDie d fun x => { x with wdtAt := u.now } else u)))) ∧
    (∀ t due, s.bit d GLB_WDT.LOCK = true → t = max 1 (s.rd d GLB_WDT.TIMEOUT) → due = (s.getDie d).wdtAt + t * 24250 + s.free % (t * 1500 + 1) →
      exec (.watchdogExpiry d) s = .next (s.commit (resetDie d .wdt ((s.pass (due - s.now)).drew)))) ∧
    (s.bit d GLB_WDT.LOCK = false → exec (.watchdogExpiry d) s = .next (s.commit s)) ∧
    (∀ (i : Instr) (m : Nat) (w : Word), (∃ v, i = .glbSwrstSelf d m v ∧ w = BitVec.ofNat 32 (putBit v.toNat 0 true)) ∨
        (∃ v, i = .glbSwrstMate d m v ∧ w = BitVec.ofNat 32 (putBit v.toNat 1 true)) →
      (bitsOf w.toNat 8 8 ≠ 0xA5 → exec i s = .next (s.commit (s.accessFault d (m % 16) true 2 5 (GLB_SWRST.SELF.addr d 0 0)))) ∧
      (bitsOf w.toNat 8 8 = 0xA5 → ∀ u, u = (if bitOf w.toNat 1 = true then mateReset (m % 16) d s else s) →
        exec i s = .next (s.commit (if bitOf w.toNat 0 = true then resetDie d .swr u else u)))) ∧
    (∀ m (ref : Prop), (ref ↔ s.divided d = false ∧ (s.rd (mateOf d) PAIR_STAT.ROLE = 1 ∨ s.rd (mateOf d) PAIR_STAT.ROLE = 4) ∧
        (s.rd d PAIR_STAT.ROLE = 2 ∨ s.rd d PAIR_STAT.ROLE = 3) ∧ s.bit d PAIR_STAT.SEIZING = false) →
      (ref → mateReset m d s = s.accessFault d m true 2 6 (GLB_SWRST.SELF.addr d 0 0)) ∧ (¬ ref → mateReset m d s = resetDie (mateOf d) .mate s))) ∧
  (∀ (s : State) (d : Nat), s.hasDie d = true → (s.getDie d).inReset = true →
    (∀ c, coincides d c s = if (s.getDie d).resetAt = some s.now then s.wr d (causeFld c) 1 else s) ∧
    (∀ a b, (s.getDie d).wdtEnd = some (a, b) → exec (.watchdogExpiry d) s = .next (s.commit
      (if a ≤ s.now ∧ s.now ≤ b then coincides d .wdt s else s))) ∧
    ((s.getDie d).wdtEnd = none → exec (.watchdogExpiry d) s = .next (s.commit s)) ∧
    (∀ m (v : Word), exec (.glbSwrstSelf d m v) s = .next (s.commit (if bitsOf v.toNat 8 8 = 0xA5 then coincides d .swr s else s))))

/-- Leaving reset (R45, R51, R58, R301, R444), and the end of a hand-over (R52, R293, R349 to R352). -/
def Obligations.ADieLeavesReset : Prop :=
  (∀ (s : State) (d : Nat), s.hasDie d = true →
    (∀ v u w x y : State, (s.getDie d).inReset = true →
      v = s.drew.modDie d (fun x =>
        { x with inReset := false, heldMask := 0, holdSafeLine := false, upAt := s.now, ptOff := s.free, resetAt := none, wdtEnd := none }) →
      u = v.modLawDie d (fun l => { l with testAt := v.pt }) →
      w = (u.wr d PAIR_STAT.SEIZED (u.rd (mateOf d) PAIR_STAT.SEIZING)) →
      x = (if (w.getDie (mateOf d)).inReset = false ∧ w.rd (mateOf d) GLB_PHASE.PHASE = 5 ∧ w.divided d = false ∧ w.divided (mateOf d) = false
        then w.wr d PAIR_STAT.RESYNC 1 else w) →
      y = (if (s.getDie d).holdFaultN = true then x.raise d 305 3 0 else x) →
      exec (.resetExit d true true) s = .next (s.commit (showFaultN (railsAtExit d (showMem
        (y.forEach [(d + 1) % y.dies, (d + y.dies - 1) % y.dies] rootLate)))))) ∧
    (∀ rails rstn, (s.getDie d).inReset = false ∨ rails = false ∨ rstn = false → exec (.resetExit d rails rstn) s = .next (s.commit s))) ∧
  (∀ (s : State) (d m : Nat), s.Live d → m = mateOf d →
    (∀ ts p (u v w x y : State), p = s.getPair m → p.releasing = some ts → s.divided d = false → s.rd d PAIR_STAT.ROLE = 2 →
      s.bit d PAIR_STAT.READY = true → (p.swapping = true → p.released = true) → u = ((s.passTo (ts + 4)).holdBalls (d / 2)).passTo (ts + 20) →
      v = u.modPair m (fun p => { p with released := true, releasing := none, swapping := false, resetAfter := [], base := u.ptD m }) →
      w = (setRole m 2 (v.wr m PAIR_STAT.SWPEND 0)).modPair m (fun p => { p with released := false }) →
      x = w.modPair d (fun p => { p with base := w.ptD d, startAt := none }) → y = markLast m (markLast d (setRole d 1 x)) →
      (p.swapping = true → exec (.mateReleasedSeen d) s = .next (s.commit ((y.addSat d PAIR_CNT.SWAP).wr m PAIR_STAT.READY 1))) ∧
      (p.swapping = false → p.resetAfter = [] → exec (.mateReleasedSeen d) s = .next (s.commit (unready m (y.wr m FLT_REACT.TAKEREQ 1)))) ∧
      (p.swapping = false → p.resetAfter ≠ [] → exec (.mateReleasedSeen d) s = .next (s.commit (enterReset m p.resetAfter y)))) ∧
    ((s.getPair m).releasing = none ∨ s.divided d = true ∨ s.rd d PAIR_STAT.ROLE ≠ 2 ∨ s.bit d PAIR_STAT.READY = false ∨
      ((s.getPair m).swapping = true ∧ (s.getPair m).released = false) → exec (.mateReleasedSeen d) s = .next (s.commit s)) ∧
    ((s.getPair d).releasing = none → exec (.handoverDrivingCheck d) s = .next (s.commit s)) ∧
    (∀ ts u v, (s.getPair d).releasing = some ts → u = ((s.passTo (ts + 4)).holdBalls (d / 2)).passTo (ts + 40) → v = u.raise d 469 3 0 →
      (u.drivingLine m = true → exec (.handoverDrivingCheck d) s = .next (s.commit u)) ∧
      (u.drivingLine m = false → (s.getPair d).swapping = true →
        exec (.handoverDrivingCheck d) s = .next (s.commit (setPads d .full (swapMissed d v)))) ∧
      (u.drivingLine m = false → (s.getPair d).swapping = false → ∀ w,
        w = setRole d 4 (v.modPair d fun p => { p with releasing := none, released := false, resetAfter := [] }) →
        ((s.getPair d).resetAfter = [] → exec (.handoverDrivingCheck d) s = .next (s.commit w)) ∧
        ((s.getPair d).resetAfter ≠ [] → exec (.handoverDrivingCheck d) s = .next (s.commit (enterReset d (s.getPair d).resetAfter w))))))

/-- The strobe (R46) and the apply boundary (R66, R67, R69, R73). -/
def Obligations.StrobesAndApplyBoundariesKeepTheirGrids : Prop :=
  (∀ (s a u v : State) (codes : List Int),
    a = (if s.strobeAt = some s.pt then ({ s with strobeAt := none } : State).occurs 0 else s.toNext 0 250) →
    u = a.forEach a.liveDies (fun d s => dieStrobe d (fun c => satI 16 (codes.getD (d * 54 + c) 0)) s) →
    v = u.forEach u.liveDies (fun d s =>
      if 5 ≤ s.rd d GLB_PHASE.PHASE then s.forEach (List.range 8) fun n s => if s.bandRuns d n then standbyLegCopy d n s else s else s) →
    exec (.convertStrobe codes) s = .next (s.commit (v.forEach v.liveDies fun d s => safeRefresh d s))) ∧
  (∀ (s a t u : State) (ds : List Nat), a = s.toNext 64 25000 → ds = a.liveDies.filter (fun d => 5 ≤ a.rd d GLB_PHASE.PHASE) →
    t = a.forEach ds (fun d s => s.forEach (List.range 8) fun n s => excTake d n s) → u = t.forEach ds (excBoundary a) →
    exec .excApplyBoundary s = .next (s.commit (u.forEach ds fun d s => s.forEach (List.range 8) fun n s => ncoExchange d n s))) ∧
  (∀ (s : State) (k g : Nat), 0 < g → s.pt + 1 + g < 2 ^ 64 →
    (s.toNext k g).pt % g = 0 ∧ s.pt ≤ (s.toNext k g).pt ∧ (s.lastAt.get k 0 = s.pt + 1 → s.pt < (s.toNext k g).pt))

/-- Startup, phases 0 to 3 (R45, R55, R57, R58, R60, R61, R149, R406, R407). -/
def Obligations.ADieStartsUp : Prop :=
  ∀ (s : State) (d : Nat), s.Live d →
    (∀ u v, v = alignTime d { s with pt := 0, slewFrom := 0, strobeAt := none, lastAt := [], ptStep := none, ident := none } →
      u = (v.modDie d fun x => { x with joined := true }).wr d GLB_RSTCAUSE.PTRESTART 1 → startTime d s = u.raise d 277 3 0) ∧
    (∀ u, (s.getDie d).locked = false →
      u = rootGood d ((((s.modDie d fun x => { x with locked := true, noPads := false }).wr d CLK_STAT.ROOTLOCK 1).wr d GLB_PHASE.PHASE 1)) →
      exec (.rootPllLock d) s = .next (s.commit (if u.master = none then startTime d u else u))) ∧
    (∀ u, (s.getDie d).locked = false → u = padsOff d (s.pass (2500000 - (s.now - (s.getDie d).upAt) % 2500000)) →
      exec (.rootLockRetry d) s = .next (s.commit (if (u.getDie d).inReset = true ∨ (u.getDie d).locked = true ∨ anyLink u d = false ∨
        u.now < (u.getDie d).upAt + 2500000 then u else rootFail d u))) ∧
    ((s.getDie d).locked = true → exec (.rootPllLock d) s = .next (s.commit s) ∧ exec (.rootLockRetry d) s = .next (s.commit s)) ∧
    exec (.ptRealign d) s = .next (s.commit (ptAlign d s)) ∧
    ((s.getDie d).locked = false ∨ s.bit d CLK_STAT.PTALIGNED = true → ptAlign d s = s) ∧
    ((s.getDie d).locked = true → s.bit d CLK_STAT.PTALIGNED = false →
      (s.master = none → ptAlign d s = startTime d s) ∧
      (∀ m, s.master = some m → ((s.getDie d).joined = false → s.reach d m = true →
          ptAlign d s = (alignTime d s).modDie d fun x => { x with joined := true }) ∧
        ((s.getDie d).joined = true ∨ s.reach d m = false → ptAlign d s = s))) ∧
    (∀ u v, (s.getDie d).locked = true → (s.getDie d).optOk = true → (s.getDie d).trained = false → u = ptAlign d s →
      v = identTake d (u.modDie d fun x => { x with trained := true }) →
      exec (.spineTrained d) s = .next (s.commit (if u.bit d CLK_STAT.PTALIGNED = true then
        pkgFirstTake d (gmShow d (if v.rd d TRM_PORT.STATE = 1 then beatSend d 0 v else v)) else u))) ∧
    ((s.getDie d).locked = false ∨ (s.getDie d).optOk = false ∨ (s.getDie d).trained = true → exec (.spineTrained d) s = .next (s.commit s)) ∧
    ((s.getDie d).trained = true → s.rd d GLB_PHASE.PHASE = 1 → ∀ u, u = ((s.wr d GLB_PHASE.PHASE 2).modDie d fun x => { x with rcAt := some s.pt }) →
      exec (.readingCopyStart d) s = .next (s.commit (emuShowAll d (u.forEach (List.range 8) fun n t =>
        t.modEnc d n fun x => { x with mode := 1, lines := rcLines t d, mech := false, rcS := 0, rcC := 0, rcN := 0, rcSeen := 0, rcWas := false })))) ∧
    ((s.getDie d).trained = false ∨ s.rd d GLB_PHASE.PHASE ≠ 1 → exec (.readingCopyStart d) s = .next (s.commit s)) ∧
    (∀ u, s.rd d GLB_PHASE.PHASE = 2 → u = s.pass ((s.getDie d).upAt + 5000000 - s.now) →
      exec (.phase3Step d) s = .next (s.commit (u.wr d GLB_PHASE.PHASE (if (u.getDie d).measured = true then 4 else 3)))) ∧
    (s.rd d GLB_PHASE.PHASE ≠ 2 → exec (.phase3Step d) s = .next (s.commit s)) ∧
    (s.rcPhase d = true → exec (.rcTrackerUpdate d) s = .next (s.commit
      ((s.toNext (State.stepNo 13 d 0) 250000).forEach (List.range 8) fun n s => rcAxis d n s))) ∧
    (s.rcPhase d = false → exec (.rcTrackerUpdate d) s = .next (s.commit s)) ∧
    (∀ n x u v (a : Int × State), x = s.getEnc d n →
      u = s.modEnc d n (fun x => { (if rcInRange (s.getEnc d n) = true then rcLoop x (atan40 x.rcS x.rcC) else
        { x with rcSeen := 0 }) with rcS := 0, rcC := 0, rcN := 0 }) →
      v = u.wrBit d GLB_PHASE.RCVALID n (decide (2 ≤ (u.getEnc d n).rcSeen)) → a = v.near (((u.getEnc d n).rcTh : Rat) / 268435456) →
      (2 ≤ (u.getEnc d n).rcSeen → rcAxis d n s = rcEmulate d n
        (((a.2.wr d TRK_ANG.FRAC (enc 12 a.1 * 1048576) n).wr d TRK_STAMP.PT a.2.pt n).wr d TRK_STAT.ANGVALID 1 n)) ∧
      ((u.getEnc d n).rcSeen < 2 → rcAxis d n s = rcEmulate d n (v.wr d TRK_STAT.ANGVALID 0 n)))

/-- Startup, phases 3 to 5 (R18, R53, R57, R62, R335, R337, R338, R361, R362, R475, R479). -/
def Obligations.ADieEntersFullService : Prop :=
  (∀ (s : State) (d : Nat), s.Live d →
    (∀ u v, (s.getDie d).trained = true → (s.getDie d).measured = false →
      u = hartsStart d (((measure d s).modDie d fun x => { x with measured := true }).wr d MSR_VALID.DONE 1) →
      v = (if u.rd d GLB_PHASE.PHASE = 3 then u.wr d GLB_PHASE.PHASE 4 else u) →
      exec (.measuredStartComplete d) s = .next (s.commit (signKick d
        (if (!v.divided d && imagesDiffer v d) = true then (v.raise d 482 3 0).raise (mateOf d) 482 3 0 else v)))) ∧
    ((s.getDie d).trained = false ∨ (s.getDie d).measured = true → exec (.measuredStartComplete d) s = .next (s.commit s)) ∧
    (s.rd d GLB_PHASE.PHASE = 4 → (s.getDie d).imageDone = false → (s.getDie d).imageBad = false →
      (imageEnts s d = none → exec (.baseImageApply d) s = .next (s.commit ((s.modDie d fun x => { x with imageBad := true }).raise d 482 3 0))) ∧
      (∀ es f u v w, imageEnts s d = some (es, f) → u = es.foldl (fun s e => cfgEntry d e s) s →
        v = ((u.holdBalls (d / 2)).wr d CFG_CUR.F f).modDie d (fun x => { x with imageDone := true, safeProg := true }) →
        w = v.forEach (List.range 8) (fun n s => if s.bit d PWM_CTRL.SAFE n then s.takeSafe d n else s) →
        exec (.baseImageApply d) s = .next (s.commit (w.refreshDie d)))) ∧
    (s.rd d GLB_PHASE.PHASE ≠ 4 ∨ (s.getDie d).imageDone = true ∨ (s.getDie d).imageBad = true →
      exec (.baseImageApply d) s = .next (s.commit s))) ∧
  (∀ (s : State) (w : List Nat), w = waitE0 s →
    w = s.liveDies.filter (fun d => s.rd d GLB_PHASE.PHASE == 4 && (s.getDie d).imageDone && !(s.getDie d).optMismatch) ∧
    (w = [] ∨ s.master = none → exec .fullServiceEntry s = .next (s.commit s)) ∧
    (∀ m u (done : Prop), w ≠ [] → s.master = some m →
      (done ↔ ∀ d, d < s.dies → d ∈ w ∨ 5 ≤ s.rd d GLB_PHASE.PHASE ∨ (s.getDie d).optMismatch = true) →
      (done → u = s) → (¬ done → u = s.pass ((w.map fun d => (s.getDie d).upAt).foldl max 0 + 375000000 - s.now)) →
      exec .fullServiceEntry s = .next (s.commit (((u.pass 5000).forEach w dieHandOver).forEach w (firstRole w)))) ∧
    (∀ d u, u = ((s.holdBalls (d / 2)).wr d GLB_PHASE.PHASE 5).wr d GLB_PHASE.FULL 0xFF →
      dieHandOver d s = ((u.modPair d fun p => { p with fullAt := some u.pt, base := u.ptD d }).forEach (List.range 8) fun n s =>
        emuHandOver d n (trkHandOver d n (excHandOver d n s))).refreshDie d) ∧
    (∀ d m r, m = mateOf d → r = s.rd m PAIR_STAT.ROLE → firstRole w d s =
      if s.divided d = true then setRole d 5 s else if s.bit d PAIR_STAT.SEIZED = true then setRole d 3 s
      else if d % 2 = 1 ∧ m ∈ w then (setRole d 2 (s.modPair d fun p => { p with shadowAt := s.pt })).wr d PAIR_STAT.RESYNC 3
      else if (r = 1 ∨ r = 4) ∧ (s.bit d PAIR_STAT.PATHA = true ∨ s.bit d PAIR_STAT.PATHB = true) then setRole d 2 s
      else if d % 2 = 0 ∧ r ≠ 1 ∧ r ≠ 4 then setRole d 1 s
      else s.modPair d fun p => { p with startAt := some s.pt }))

/-- Role swaps (R271, R349 to R353). -/
def Obligations.SwapsAreDueAdmittedAndDone : Prop :=
  ∀ (s : State) (d : Nat), s.Live d →
    (∀ g : Bool, ((s.getPair d).swapTs ≠ none ∨ (s.getPair d).released = true ∨ s.bit d PAIR_STAT.MREADY = false → swapDue d g s = s) ∧
      ((s.getPair d).swapTs = none → (s.getPair d).released = false → s.bit d PAIR_STAT.MREADY = true →
        (g = false ∨ s.bit d PWR_ADMIT.FIRM = true → swapDue d g s =
          ((s.wr d PAIR_STAT.SWPEND 0).modPair d fun p => { p with swapTs := some (swapInstant s d), dueAt := none, lateDone := false })) ∧
        (g = true → s.bit d PWR_ADMIT.FIRM = false → s.bit d PAIR_STAT.SWPEND = true → swapDue d g s = s) ∧
        (g = true → s.bit d PWR_ADMIT.FIRM = false → s.bit d PAIR_STAT.SWPEND = false → swapDue d g s =
          (((s.wr d PAIR_STAT.SWPEND 1).addSat d PAIR_CNT.DEFER).modPair d fun p => { p with dueAt := some s.pt, lateDone := false })))) ∧
    (∀ t n, t = s.pt + 5000 → n = s.rd d PAIR_CTRL.REFAX →
      swapInstant s d = if s.bit d PWM_CTRL.EN n = true then t + s.toStart d n t else strobeAt t) ∧
    (s.divided d = true ∨ (s.rd d PAIR_STAT.ROLE ≠ 1 ∧ s.rd d PAIR_STAT.ROLE ≠ 4) → exec (.swapDue d) s = .next (s.commit s)) ∧
    (s.divided d = false → s.rd d PAIR_STAT.ROLE = 4 → exec (.swapDue d) s = .next (s.commit (swapDue d false s))) ∧
    (s.divided d = false → s.rd d PAIR_STAT.ROLE = 1 →
      (s.bit d PAIR_STAT.SWPEND = true → exec (.swapDue d) s = .next (s.commit (swapDue d true s))) ∧
      (s.bit d PAIR_STAT.SWPEND = false → s.rd d PAIR_NEXT.PT = 0 → exec (.swapDue d) s = .next (s.commit s)) ∧
      (s.bit d PAIR_STAT.SWPEND = false → s.rd d PAIR_NEXT.PT ≠ 0 →
        exec (.swapDue d) s = .next (s.commit (swapDue d true (s.passTo (s.rd d PAIR_NEXT.PT)))))) ∧
    (∀ (w : Word) (u : State), w = BitVec.ofNat 32 (putBit (s.reg (PAIR_CTRL.SWINT.addr d 0 0)).toNat 16 true) → bitOf w.toNat 16 = true →
      u = showNext d (((s.wr d PAIR_CTRL.SWINT (min (bitsOf w.toNat 0 11) 1440)).wr d PAIR_CTRL.REFAX (bitsOf w.toNat 12 3)).wr d
        PAIR_CTRL.STARTWAIT (bitsOf w.toNat 20 4)) →
      exec (.pairSwapnow d) s = .next (s.commit (if u.rd d PAIR_STAT.ROLE = 1 ∧ u.divided d = false then swapDue d true u else u))) ∧
    (∀ t u, (s.getPair d).swapTs = some t → u = s.passTo t →
      (u.bit d PAIR_STAT.MREADY = true → u.bit d PAIR_STAT.SEIZED = false →
        exec (.swapTs d) s = .next (s.commit ((setPads d .off ((u.pass 5).holdBalls (d / 2))).modPair d fun p =>
          { p with swapTs := none, releasing := some t, swapping := true, released := true }))) ∧
      (u.bit d PAIR_STAT.MREADY = false ∨ u.bit d PAIR_STAT.SEIZED = true → exec (.swapTs d) s = .next (s.commit
        (showNext d (u.modPair d fun p => { p with swapTs := none, swapping := false, releasing := none, released := false, base := u.ptD d }))))) ∧
    ((s.getPair d).swapTs = none → exec (.swapTs d) s = .next (s.commit s)) ∧
    (∀ t, (s.getPair d).dueAt = some t → (s.getPair d).lateDone = false → s.bit d PAIR_STAT.SWPEND = true → s.swapInt d ≠ 0 →
      exec (.swapLate d) s = .next (s.commit
        (((s.passTo (t + s.swapInt d + 1)).modPair d fun p => { p with lateDone := true }).raise d 470 3 0))) ∧
    ((s.getPair d).dueAt = none ∨ (s.getPair d).lateDone = true ∨ s.bit d PAIR_STAT.SWPEND = false ∨ s.swapInt d = 0 →
      exec (.swapLate d) s = .next (s.commit s))

/-- Heartbeats (R339 to R342), and what a beat brings (R26, R306, R307, R337, R345, R353). -/
def Obligations.HeartbeatsAreSentReceivedAndMissed : Prop :=
  ∀ (s : State) (d : Nat), s.Live d →
    (∀ u, u = s.toNext (State.stepNo 8 d 0) 2500 → exec (.heartbeatASend d) s = .next (s.commit (if u.rootRuns d = true then u.modPair d fun p =>
      { p with seqA := (p.seqA + 1) % 2 ^ 32, rootLive := true,
               txA := some (u.rd d PAIR_STAT.ROLE, u.bit d PAIR_STAT.READY, u.rd d PAIR_STAT.PATHA + 2 * u.rd d PAIR_STAT.PATHB) } else u))) ∧
    ((s.getPair d).rootLive = true → s.rootRuns d = true → exec (.heartbeatBSend d) s = .next (s.commit (s.modPair d fun p =>
      { p with seqB := (p.seqB + 1) % 16, rootLive := false,
               txB := some (frameB (s.rd d PAIR_STAT.ROLE) (s.bit d PAIR_STAT.READY) p.releasing.isSome (p.seqB + 1)) }))) ∧
    ((s.getPair d).rootLive = false ∨ s.rootRuns d = false → exec (.heartbeatBSend d) s = .next (s.commit s)) ∧
    (∀ role ready rel seq b, b = role % 4 + 4 * b2n ready + 8 * b2n rel + seq % 16 * 16 → frameB role ready rel seq = b + 256 * crc8 b) ∧
    (∀ (a crc : Bool) (i : Instr) (m p : PairRec) (tx : Option (Nat × Bool × Nat × Bool)) (chk : Nat) (u : State),
      m = s.getPair (mateOf d) → p = s.getPair d → i = (if a = true then .heartbeatAReceive d crc else .heartbeatBReceive d crc) →
      tx = (if a = true then m.txA.map fun x => (x.1, x.2.1, m.seqA, true)
        else m.txB.map fun w => (w % 4, bitOf w 2, bitsOf w 4 4, w / 256 == crc8 (w % 256))) →
      chk = (if a = true then 11 else 12) → u = s.inject d chk 464 7 (if a = true then 0 else 1) →
      (tx = none → exec i s = .next (s.commit s)) ∧
      (∀ r ready seq good, tx = some (r, ready, seq, good) →
        (crc = false ∨ good = false ∨ s.injLoud d chk = true → exec i s = .next (s.commit (u.addSat d PAIR_HB.CRCERR))) ∧
        (crc = true → good = true → s.injLoud d chk = false → (if a = true then p.lastA else p.lastB) = some seq →
          exec i s = .next (s.commit u)) ∧
        (∀ v ok x, crc = true → good = true → s.injLoud d chk = false → (if a = true then p.lastA else p.lastB) ≠ some seq →
          v = u.wr d (if a = true then PAIR_HB.MISSA else PAIR_HB.MISSB) 0 →
          ok = (if v.bit d (if a = true then PAIR_STAT.PATHA else PAIR_STAT.PATHB) = true then 0 else (if a = true then p.okA else p.okB) + 1) →
          x = v.modPair d (fun p => if a = true then
              { p with lastA := some seq, okA := ok, mateRole := r, mateView := (m.txA.map fun x => x.2.2).getD 0, goodA := some v.pt }
            else { p with lastB := some seq, okB := ok, mateReleasing := (m.txB.map fun w => bitOf w 3).getD false, goodB := some v.now }) →
          exec i s = .next (s.commit (firstBeat d r (mateReady d ready (if 16 ≤ ok then
            ((x.wr d (if a = true then PAIR_STAT.PATHA else PAIR_STAT.PATHB) 1).wr d PAIR_STAT.MATEOK 1).modPair d fun p => { p with lbBad := false }
            else x))))))) ∧
    (∀ (ready : Bool) (u v : State), u = s.wr d PAIR_STAT.MREADY (b2n ready) →
      v = (if u.bit d PAIR_STAT.SEIZING = true then (u.wr d PAIR_STAT.SEIZING 0).wr (mateOf d) PAIR_STAT.SEIZED 0 else u) →
      mateReady d ready s = if ready = false then u else if v.rd d PAIR_STAT.ROLE = 4 then swapDue d false v else v) ∧
    (∀ r t u, (s.getPair d).startAt = some t → u = setRole d 2 (s.modPair d fun p => { p with startAt := none, shadowAt := s.pt }) →
      (r = 1 ∨ r = 4 → firstBeat d r s = if (s.getPair (mateOf d)).fullAt = (s.getPair d).fullAt then u.wr d PAIR_STAT.RESYNC 3 else u) ∧
      (r ≠ 1 → r ≠ 4 → firstBeat d r s = s.modPair d fun p => { p with startAt := some s.pt })) ∧
    (∀ r, (s.getPair d).startAt = none → firstBeat d r s = s) ∧
    (∀ t u, t = s.freshPt (State.stepNo 9 d 0) →
      u = (s.pass (t - s.pt + (3750 - t % 2500) % 2500)).occurs (State.stepNo 9 d 0) →
      exec (.heartbeatAMiss d) s = .next (s.commit (if beatCame d u = true then u else heartbeatMiss d true u)) ∧
      (beatCame d u = true ↔ ∃ t, (u.getPair d).goodA = some t ∧ u.pt ≤ t + 1250)) ∧
    (4 ≤ s.rd d PAIR_HB.MISSB → exec (.heartbeatBMiss d) s = .next (s.commit s)) ∧
    (∀ k due, s.rd d PAIR_HB.MISSB < 4 → k = 125 + 100 * s.rd d PAIR_HB.MISSB →
      due = (s.getPair d).goodB.getD (s.getDie d).upAt + k * 97 / 4 + s.free % (k * 3 / 2 + 1) →
      exec (.heartbeatBMiss d) s = .next (s.commit (heartbeatMiss d false (s.pass (due - s.now)).drew))) ∧
    (∀ (a : Bool) (f g : Fld) (v : State), f = (if a = true then PAIR_HB.MISSA else PAIR_HB.MISSB) →
      g = (if a = true then PAIR_STAT.PATHA else PAIR_STAT.PATHB) →
      v = (s.wr d f (min (s.rd d f + 1) 4)).modPair d (fun p => if a = true then { p with okA := 0 } else { p with okB := 0 }) →
      heartbeatMiss d a s = if v.rd d f = 4 ∧ v.bit d g = true then pathLost d a v else v) ∧
    (∀ (a : Bool) (u v w : State), u = (s.wr d (if a = true then PAIR_STAT.PATHA else PAIR_STAT.PATHB) 0).addSat d
        (if a = true then PAIR_HB.LOSTA else PAIR_HB.LOSTB) →
      v = (if a = true then ((u.modPair d fun p => { p with heldLost := true }).modFwd d fun _ => []).modFwd (mateOf d) fun _ => [] else u) →
      (v.bit d (if a = true then PAIR_STAT.PATHB else PAIR_STAT.PATHA) = true → w = v.raise d 464 7 (if a = true then 0 else 1) →
        pathLost d a s = if a = true ∧ (w.rd d PAIR_STAT.ROLE = 2 ∨ w.rd d PAIR_STAT.ROLE = 3) then
          (w.wr d PAIR_STAT.READY 0).wr d PAIR_STAT.RESYNC 0 else w) ∧
      (v.bit d (if a = true then PAIR_STAT.PATHB else PAIR_STAT.PATHA) = false → w = (v.wr d PAIR_STAT.MATEOK 0).wr d PAIR_STAT.MREADY 0 →
        pathLost d a s = if w.rd d PAIR_STAT.ROLE = 1 ∨ w.rd d PAIR_STAT.ROLE = 4 ∨ w.rd d PAIR_STAT.ROLE = 5 then w.raise d 465 7 0 else w))

/-- Takeover (R337, R343 to R348), resynchronisation (R26, R354, R355) and shadow comparison (R358, R362). -/
def Obligations.TakeoverAndResynchronisation : Prop :=
  ∀ (s : State) (d : Nat), s.Live d →
    (s.maySeize d = true → (s.getPair d).lbRun = false → loopbackTest d s = s.modPair d fun p => { p with lbRun := true, lbAt := s.pt, lbBad := false }) ∧
    (s.maySeize d = false ∨ (s.getPair d).lbRun = true → loopbackTest d s = s) ∧
    exec (.loopbackTest d) s = .next (s.commit (if (s.getPair d).lbBad = true then s else loopbackTest d s)) ∧
    (∀ t, (s.getPair d).startAt = some t →
      exec (.startwaitExpiry d) s = .next (s.commit (loopbackTest d (s.passTo (t + max 1 (s.rd d PAIR_CTRL.STARTWAIT) * 2500000))))) ∧
    ((s.getPair d).startAt = none → exec (.startwaitExpiry d) s = .next (s.commit s)) ∧
    ((s.getPair d).lbBad = true → (s.getPair d).lbRun = false →
      exec (.loopbackRetry d) s = .next (s.commit (loopbackTest d (s.passTo ((s.getPair d).lbAt + 2500000))))) ∧
    ((s.getPair d).lbBad = false ∨ (s.getPair d).lbRun = true → exec (.loopbackRetry d) s = .next (s.commit s)) ∧
    ((s.getPair d).lbRun = false → ∀ ok, exec (.loopbackResult d ok) s = .next (s.commit s)) ∧
    ((s.getPair d).lbRun = true →
      exec (.loopbackResult d false) s = .next (s.commit
        (((s.modPair d fun p => { p with lbRun := false, lbBad := true }).wr d PAIR_STAT.LBFAIL 1).raise d 466 3 0)) ∧
      (∀ u, u = s.modPair d (fun p => { p with lbRun := false, lbBad := false }) →
        exec (.loopbackResult d true) s = .next (s.commit (if u.maySeize d = true then seize d u else u)))) ∧
    (∀ (t m : Nat) (h u v w x : State), m = mateOf d → h = s.holdBalls (d / 2) → t = h.now8 + 80 + h.free % 41 →
      u = h.drew.modPair m (fun p => { p with grp0 := h.driveOf m 0 0, grp1 := h.driveOf m 4 1, grp2 := h.driveOf m 0 2,
                                              sched := [(t, 0, .off), (t, 1, .off), (t, 2, .off)] }) →
      v = (markLast d (((u.wr d PAIR_STAT.SEIZING 1).wr d PAIR_STAT.RESYNC 0).addSat d PAIR_CNT.TAKE)).raise d 467 3 0 →
      w = v.modPair d (fun p => { p with base := v.ptD d, startAt := none }) →
      x = setRole d (if u.bit d PAIR_STAT.READY = true ∨ u.rd d PAIR_STAT.ROLE = 0 then 1 else 4) w →
      ∀ (k : Nat) (q : List (Nat × Nat × Drive)), k = w.now8 →
        q = [(k + 80, 0, .soft), (k + 120, 0, .full), (k + 300, 1, .soft), (k + 340, 1, .full), (k + 520, 2, .soft), (k + 560, 2, .full)] →
        seize d s = x.modPair d fun p => { p with grp0 := .off, grp1 := .off, grp2 := .off, sched := q }) ∧
    (∀ u v, u = unready d ((s.wr d PAIR_STAT.SEIZED (s.rd (mateOf d) PAIR_STAT.SEIZING)).wr d PAIR_STAT.SWPEND 0) →
      v = u.modPair d (fun p => { p with swapTs := none, dueAt := none, releasing := none, swapping := false }) →
      gotSeized d s = (setRole d 3 (markLast d v)).raise d 468 3 0) ∧
    exec (.seizeReceived d) s = .next (s.commit
      (if s.bit (mateOf d) PAIR_STAT.SEIZING = true ∧ s.bit d PAIR_STAT.SEIZED = false then gotSeized d s else s)) ∧
    exec (.mateDrivingSeen d) s = .next (s.commit (if s.divided d = false ∧ (s.rd d PAIR_STAT.ROLE = 1 ∨ s.rd d PAIR_STAT.ROLE = 4) ∧
      s.hasReleased d = false ∧ s.drivingLine (mateOf d) = true then gotSeized d s else s)) ∧
    (s.hasReleased d = true ↔ (s.getPair d).released = true ∨ ∃ ts, (s.getPair d).releasing = some ts ∧ (s.getPair d).swapping = false ∧ ts + 5 ≤ s.pt) ∧
    (∀ u, s.mayResync d = true → u = ((s.wr d PAIR_STAT.RESYNC 2).modPair d fun p => { p with snapAt := s.pt, items := [] }).modFwd d (fun _ => []) →
      snapshotStart d s = (u.modLpt d fun x => { x with snap := none }).forEach (List.range 8) fun n s =>
        (s.modTrk d n fun x => { x with snap := none }).modEnc d n fun x => { x with snap := none }) ∧
    (s.mayResync d = false → snapshotStart d s = s) ∧
    exec (.snapshotRequest d) s = .next (s.commit (if 2 ≤ s.rd d PAIR_STAT.RESYNC then s else snapshotStart d s)) ∧
    exec (.resyncRetry d) s = .next (s.commit (if s.rd d PAIR_STAT.RESYNC = 4 then snapshotStart d (s.passTo ((s.getPair d).failAt + 250000000)) else s)) ∧
    exec (.resyncTimeout d) s = .next (s.commit (if s.rd d PAIR_STAT.RESYNC = 2 then snapshotFail d (s.passTo ((s.getPair d).snapAt + 125000000)) else s)) ∧
    snapshotFail d s = ((s.wr d PAIR_STAT.RESYNC 4).modPair d fun p => { p with failAt := s.pt }).raise d 471 3 0 ∧
    (∀ (k n m : Nat) (u v : State), k < 7 → n < 8 → m = (if k = 0 ∨ k = 1 ∨ k = 5 then 0 else n) →
      u = (if s.bridgeUp d = true then s.inject d 8 464 7 2 else s) →
      (u.rd d PAIR_STAT.RESYNC ≠ 2 ∨ u.bridgeUp d = false → ∀ crc, exec (.pairSnapshotItem d k n crc) s = .next (s.commit u)) ∧
      (u.rd d PAIR_STAT.RESYNC = 2 → u.bridgeUp d = true →
        exec (.pairSnapshotItem d k n false) s = .next (s.commit (snapshotFail d u)) ∧
        (v = snapshotItem (mateOf d) d k m (if k = 0 then copyAxisSets (mateOf d) d u else u) →
          exec (.pairSnapshotItem d k n true) s = .next (s.commit (if k = 3 ∨ k = 4 then v else itemApplied d (8 * k + m) v))))) ∧
    (∀ i v w, v = s.modPair d (fun p => { p with items := if p.items.contains i = true then p.items else p.items ++ [i] }) →
      w = (v.forEach (List.range 64) fun c s => s.modFil d c fun f => { f with stepAt := some s.pt }).wr d PAIR_STAT.RESYNC 3 →
      itemApplied d i s = if v.rd d PAIR_STAT.RESYNC = 2 ∧ (snapshotAll.all fun i => (v.getPair d).items.contains i) = true then
        w.modPair d fun p => { p with shadowAt := w.pt } else v) ∧
    (∀ (k n j : Nat) (u : State) (q : Prop), k < 5 → n < 8 → j < 3 →
      (q ↔ s.bridgeUp d = true ∧ s.divided d = false ∧ (s.rd d PAIR_STAT.ROLE = 2 ∨ s.rd d PAIR_STAT.ROLE = 3) ∧
        (s.bit d PAIR_STAT.READY = true ∨ s.rd d PAIR_STAT.RESYNC = 3) ∧ shadowExceeds s d k n j = true) →
      u = (s.addSat d PAIR_CNT.SHMIS).modPair d (fun p => { p with shadowAt := (s.addSat d PAIR_CNT.SHMIS).pt }) →
      (¬ q → exec (.shadowCompare d k n j) s = .next (s.commit s)) ∧
      (q → exec (.shadowCompare d k n j) s = .next (s.commit
        (if s.bit d PAIR_STAT.READY = true then snapshotStart d ((u.wr d PAIR_STAT.READY 0).wr d PAIR_STAT.RESYNC 0) else u)))) ∧
    (s.rd d PAIR_STAT.RESYNC ≠ 3 → exec (.shadowTimeExpiry d) s = .next (s.commit s)) ∧
    (∀ u v, s.rd d PAIR_STAT.RESYNC = 3 → u = s.passTo ((s.getPair d).shadowAt + max 1 (s.rd d PAIR_SHADOW.TIME) * 2500000) →
      v = ((u.wr d PAIR_STAT.READY 1).wr d PAIR_STAT.RESYNC 0) →
      exec (.shadowTimeExpiry d) s = .next (s.commit (if imagesDiffer u d = true then u else
        (if v.rd d PAIR_STAT.ROLE = 3 then v.wr d PAIR_STAT.ROLE 2 else v).raise d 472 3 0)))

/-- The stacks (R22, R430 to R437, R440) and trace records moved on (R282). -/
def Obligations.StacksFramesRecordsAndDrives : Prop :=
  (∀ (s : State) (d : Nat), s.Live d →
    (s.bit d STK_STREAM.EN 0 = false → exec (.stacksFrame d) s = .next (s.commit (s.modStk d fun x => { x with frameAt := none }))) ∧
    (∀ u vs fl v, s.bit d STK_STREAM.EN 0 = true →
      u = (match (s.getStk d).frameAt with | some t => (s.passTo t).toGrid 250 | none => s.toGrid 250) →
      vs = ((List.range 64).filter fun c => bitOf (u.rd d STK_SLOTMASK.MASK) c).map (fun c => frameVal u d c (min (u.rd d STK_SLOTCFG.ASHIFT) 8)) →
      fl = (((List.range 64).filter fun c => bitOf (u.rd d STK_SLOTMASK.MASK) c).foldl (fun a c =>
        a ||| bitsOf (u.reg (FIL_OUT.VALUE.addr d c 0)).toNat 24 4) 0) + 16 * b2n (vs.any fun v => v.2) →
      v = stkAdd d 0 u.pt (u.pt + 1) fl (min (u.rd d STK_SLOTCFG.ASHIFT) 8) (max 1 (u.rd d STK_SLOTCFG.APER)) (u.rd d STK_SLOTMASK.MASK)
        (vs.flatMap fun v => leBytes (enc 16 v.1) 2) u →
      exec (.stacksFrame d) s = .next (s.commit (v.modStk d fun x => { x with frameAt := some (v.pt + 250 * max 1 (u.rd d STK_SLOTCFG.APER)) }))) ∧
    (∀ st r, st < 3 → (s.getStk d).cur st = some r →
      exec (.stacksRecordClose d st) s = .next (s.commit (stkClose d st (s.passTo (r.ts + 250000000))))) ∧
    (∀ st, st < 3 → (s.getStk d).cur st = none → exec (.stacksRecordClose d st) s = .next (s.commit s)) ∧
    (∀ c r (gone : State → State), stkReady s = some c → s.deferOk c = true → s.reach d c = true → (s.getStk d).staged.find? (recDue s c) = some r →
      (∀ u, gone u = u.modStk d fun x => { x with staged := x.staged.filter fun y => y.slot != r.slot }) →
      (s.bit c STK_NS.VALID r.ns = false → exec (.stacksRecordWrite d) s = .next (s.commit (stkDrop d r.stream (gone s)))) ∧
      (∀ u, s.bit c STK_NS.VALID r.ns = true → u = (if (s.getNsr c r.ns).open_ = none then segOpen c r.ns s else s) →
        ((u.getNsr c r.ns).open_ = none → exec (.stacksRecordWrite d) s = .next (s.commit (stkDrop d r.stream (gone u)))) ∧
        (∀ i slot, (u.getNsr c r.ns).open_ = some (i, slot) →
          exec (.stacksRecordWrite d) s = .next (s.commit (if 256 ≤ slot then u else gone (writeRec c d r i slot u)))))) ∧
    (stkReady s = none ∨ (∃ c, stkReady s = some c ∧ (s.deferOk c = false ∨ s.reach d c = false ∨ (s.getStk d).staged.find? (recDue s c) = none)) →
      exec (.stacksRecordWrite d) s = .next (s.commit s)) ∧
    (∀ gen width caps, d < 2 →
      (gen ≠ 0 → exec (.nvmeControllerReady d gen width caps) s = .next (s.commit
        (stkChoose (showNs d ((((s.wr d STK_STAT.RDY 1).wr d STK_STAT.GEN gen).wr d STK_STAT.WIDTH width).modMem d fun m =>
          { m with caps := caps, resets := [] }))))) ∧
      (gen = 0 → exec (.nvmeControllerReady d gen width caps) s = .next (s.commit (s.raise d 532 3 0)))) ∧
    (∀ rs u, d < 2 → s.bit d STK_STAT.RDY = true → rs = ((s.getMem d).resets.filter fun t => s.pt < t + 150000000000) ++ [s.pt] →
      u = s.modMem d (fun m => { m with resets := rs }) →
      exec (.nvmeCommandTimeout d) s = .next (s.commit
        (if 3 ≤ rs.length then (stkChoose (showNs d (u.wr d STK_STAT.RDY 0))).raise d 532 3 0 else u))) ∧
    (d < 2 → s.bit d STK_STAT.RDY = false → exec (.nvmeCommandTimeout d) s = .next (s.commit s)) ∧
    (∀ r rs bs u, (s.getTrc d).recs = r :: rs → r.dest ≠ 0 → s.deferOk d = true → (r.dest = 1 → s.dramSrv ≠ none) →
      bs = ((List.range r.len).map fun i => s.getTrcByte d ((r.start + i) % trcSize)) → u = s.modTrc d (fun x => { x with recs := rs }) →
      exec (.traceMoveOn d) s = .next (s.commit (if r.dest = 1 then trcToDram d r bs u
        else stkAdd d 1 r.tick (r.tick + 1) (r.fl + 64 * b2n r.trig) 0 0 0 bs u))) ∧
    ((s.getTrc d).recs = [] ∨ (∃ r rs, (s.getTrc d).recs = r :: rs ∧ (r.dest = 0 ∨ s.deferOk d = false ∨ (r.dest = 1 ∧ s.dramSrv = none))) →
      exec (.traceMoveOn d) s = .next (s.commit s))) ∧
  (∀ (s : State),
    (∀ c k i, k < 4 → stkReady s = some c → (s.getNsr c k).open_ = some (i, 256) → exec (.stacksSegmentClose k) s = .next (s.commit (segClose c k s))) ∧
    (∀ k, k < 4 → (∀ c i, stkReady s = some c → (s.getNsr c k).open_ ≠ some (i, 256)) → exec (.stacksSegmentClose k) s = .next (s.commit s)) ∧
    (∀ c, s.stkSrv = some c → exec .stacksIndexRebuild s = .next (s.commit (s.wr c STK_STAT.IDX 1)) ∧
      (s.rd c STK_STAT.IDX = 1 →
        exec .stacksIndexDone s = .next (s.commit ((s.forEach (List.range 4) fun k s => indexNs c k s).wr c STK_STAT.IDX 2))) ∧
      (s.rd c STK_STAT.IDX ≠ 1 → exec .stacksIndexDone s = .next (s.commit s))) ∧
    (s.stkSrv = none → exec .stacksIndexRebuild s = .next (s.commit s) ∧ exec .stacksIndexDone s = .next (s.commit s)))

/-- Staging, commit and abort (R365 to R368, R371, R372, R374, R376, R420). -/
def Obligations.ConfigurationIsStagedAndCommitted : Prop :=
  ∀ (s : State) (d : Nat) (v : Word), s.Live d →
    (∀ w m : Nat, w = (BitVec.ofNat 32 (putBit v.toNat 0 true)).toNat → m = s.rd d CFG_COMMIT.DIES →
      exec (.cfgStageGo d v) s = .next (s.commit (s.forEach (cfgReach s d m) fun e t =>
        if (bitOf w 0 && bitOf m e) = true then stageGo e ((t.wr e CFG_STAGE.USEMODE (w / 2)).wr e CFG_STAGE.MODE (w / 256))
        else (t.wr e CFG_STAGE.USEMODE (w / 2)).wr e CFG_STAGE.MODE (w / 256)))) ∧
    bitOf (BitVec.ofNat 32 (putBit v.toNat 0 true)).toNat 0 = true ∧
    (∀ e t, (3 ≤ t.rd e CFG_STAT.STATE ∧ t.rd e CFG_STAT.STATE ≤ 5 → stageGo e t = t) ∧
      (∀ u w, ¬ (3 ≤ t.rd e CFG_STAT.STATE ∧ t.rd e CFG_STAT.STATE ≤ 5) →
        u = (if t.bit e CFG_STAGE.USEMODE = true then t.wr e CFG_MSET.F (modeFolios t e (t.rd e CFG_STAGE.MODE)) else t) →
        w = ((((u.wr e CFG_STAT.STATE 1).wr e CFG_STAT.ERR 0).wr e CFG_STAT.FOLIO 0).modEpo e fun x => { x with ents := [], opened := true }) →
        stageGo e t = w.forEach (List.range w.dies) fun f s => s.modEpo f fun x => { x with seen := putBit x.seen e false })) ∧
    (s.rd d CFG_STAT.STATE ≠ 1 ∨ s.bit d PWR_ADMIT.FIRM = false → exec (.stagingComplete d) s = .next (s.commit s)) ∧
    (∀ i u, s.rd d CFG_STAT.STATE = 1 → s.bit d PWR_ADMIT.FIRM = true →
      readMode d (s.rd d CFG_MSET.F) (s.rd d CFG_LIBBASE.BASE * 4096) (s.bit d CFG_CTRL.SRC) s = (.error i, u) →
      exec (.stagingComplete d) s = .next (s.commit (if ((u.raise d 481 3 i).getEpo d).drop = true then epochClose d (u.raise d 481 3 i)
        else (((u.raise d 481 3 i).wr d CFG_STAT.STATE 6).wr d CFG_STAT.ERR 6).wr d CFG_STAT.FOLIO i))) ∧
    (∀ es u w, s.rd d CFG_STAT.STATE = 1 → s.bit d PWR_ADMIT.FIRM = true →
      readMode d (s.rd d CFG_MSET.F) (s.rd d CFG_LIBBASE.BASE * 4096) (s.bit d CFG_CTRL.SRC) s = (.ok es, u) →
      w = ((u.wr d CFG_STAGEPT.PT (u.ptD d)).modEpo d fun x => { x with ents := es, seen := putBit x.seen d true }) →
      exec (.stagingComplete d) s = .next (s.commit (if (u.getEpo d).drop = true then epochClose d u
        else w.wr d CFG_STAT.STATE (if (w.getEpo d).ep.isSome = true then 3 else 2)))) ∧
    (∀ e (t : State), epochClose e t = (t.wr e CFG_STAT.STATE 0).modEpo e fun _ => {}) ∧
    (∀ e, s.hasDie e = true →
      (s.reach d e = true → bitOf (s.getEpo e).seen e = true →
        exec (.stagedReport d e) s = .next (s.commit (s.modEpo d fun x => { x with seen := putBit x.seen e true }))) ∧
      (s.reach d e = false ∨ bitOf (s.getEpo e).seen e = false → exec (.stagedReport d e) s = .next (s.commit s))) ∧
    (∀ (w : Nat) (u : State), w = (BitVec.ofNat 32 (putBit v.toNat 0 true)).toNat →
      u = (s.forEach (cfgReach s d (bitsOf w 8 8)) fun e s => (s.wr e CFG_COMMIT.FABRIC (w / 4)).wr e CFG_COMMIT.DIES (w / 256)) →
      exec (.cfgCommit d v) s = .next (s.commit (commit d (if bitOf w 1 = true then abort d u else u)))) ∧
    (∀ (u : State) m t l, m = u.rd d CFG_COMMIT.DIES → t = u.rd d CFG_EPOCHT.T → l = (cfgReach u d m).filter (fun e => bitOf m e) →
      (∀ e, e ∈ l → (u.getEpo e).ep.isSome = true ∨ (3 ≤ u.rd e CFG_STAT.STATE ∧ u.rd e CFG_STAT.STATE ≤ 5) →
        commit d u = u.forEach (cfgReach u d m) fun e s => s.wr e CFG_STAT.ERR 1) ∧
      ((∀ e, e ∈ l → (u.getEpo e).ep = none ∧ ¬ (3 ≤ u.rd e CFG_STAT.STATE ∧ u.rd e CFG_STAT.STATE ≤ 5)) →
        ((∀ e, e ∈ l → (u.getEpo e).opened = false) → commit d u = u.forEach (cfgReach u d m) fun e s => s.wr e CFG_STAT.ERR 2) ∧
        (∀ e, e ∈ l → (u.getEpo e).opened = true →
          (t < u.pt + 5000 → commit d u = u.forEach (cfgReach u d m) fun e s => s.wr e CFG_STAT.ERR 3) ∧
          (∀ id w, u.pt + 5000 ≤ t → id = nextEpochId u d →
            w = (u.forEach l fun e s => commitDie e { t := t, id := id, dies := m, folios := 0, fabric := u.bit d CFG_COMMIT.FABRIC } s) →
            (u.bit d CFG_COMMIT.FABRIC = false ∨ epochMaster w d m = none → commit d u = w) ∧
            (∀ k, u.bit d CFG_COMMIT.FABRIC = true → epochMaster w d m = some k → commit d u = epochSend k (epochTargets w k)
              (epochPayload 1 (w.rd k CFG_CTRL.SKEWACT) id (w.ownId k) t (w.rd k CFG_MSET.F) 0) { w with epoSent := epochTargets w k }))))) ∧
    (∀ (w : Nat) (u : State), w = (BitVec.ofNat 32 ((s.reg (CFG_COMMIT.DIES.addr d 0 0)).toNat / 4 * 4 + 2)).toNat →
      u = (s.forEach (cfgReach s d (bitsOf w 8 8)) fun e s => (s.wr e CFG_COMMIT.FABRIC (w / 4)).wr e CFG_COMMIT.DIES (w / 256)) →
      exec (.cfgAbort d) s = .next (s.commit (abort d u))) ∧
    (∀ (u : State) m l h w, m = u.rd d CFG_COMMIT.DIES → l = (cfgReach u d m).filter (fun e => bitOf m e) →
      h = (l.filterMap fun e => (u.getEpo e).ep).find? (fun r => r.fabric && r.org.isNone && decide (u.pt < r.t)) →
      w = (u.forEach l fun e s => match (s.getEpo e).ep with
        | some r => if s.pt < r.t then epochClose e s else s.wr e CFG_STAT.ERR 5
        | none => if s.rd e CFG_STAT.STATE = 6 then epochClose e s else s) →
      (h = none ∨ epochMaster w d m = none → abort d u = w) ∧
      (∀ r k, h = some r → epochMaster w d m = some k → abort d u =
        epochSend k w.epoSent (epochPayload 5 0 r.id (w.ownId k) r.t r.folios 0) { w with epoSent := [] }))

/-- Epochs (R368 to R376, R420). -/
def Obligations.EpochsApplyCheckAndRevert : Prop :=
  ∀ (s : State) (d n : Nat), s.Live d → n < 8 →
    (∀ r u, (s.getEpo d).ep = some r → u = (s.passTo r.t).toGrid 250 → exec (.epochDieBoundary d) s = .next (s.commit
      (if mayApply s d u.pt = true ∧ (s.getEpo d).dieDone = false then
        tryClose r ((applyPart d none false u).modEpo d fun x => { x with dieDone := true }) else s))) ∧
    (∀ t, mayApply s d t = true ↔ (s.getEpo d).ep ≠ none ∧ (s.rd d CFG_STAT.STATE = 3 ∨ s.rd d CFG_STAT.STATE = 4) ∧
      (s.getEpo d).drop = false ∧ (bitOf (s.getEpo d).seen d = true ∨ epochChecked s d = true) ∧ ∀ tr, (s.getEpo d).tr = some tr → t < tr) ∧
    (∀ r, (s.getEpo d).ep = some r →
      ((s.getEpo d).lawAt.any (fun p => p.1 == n) = true →
        exec (.epochAxisBoundary d n) s = .next (s.commit (if lawBusy s d n = true then s else epochLaw d n s))) ∧
      (∀ u, (s.getEpo d).lawAt.any (fun p => p.1 == n) = false → u = toAxisBoundary d n r.t s →
        exec (.epochAxisBoundary d n) s = .next (s.commit
          (if s.holds d n = true ∧ mayApply s d u.pt = true ∧ bitOf (s.rd d CFG_APPLY.AXDONE) n = false ∧ mateStaged s d r = true then
            epochLawWait d n (epochPart s d (some n) true != []) (applyPart d (some n) false u) else s)))) ∧
    ((s.getEpo d).ep = none → exec (.epochDieBoundary d) s = .next (s.commit s) ∧ exec (.epochAxisBoundary d n) s = .next (s.commit s) ∧
      exec (.epochSkewCheck d) s = .next (s.commit s)) ∧
    (∀ any u, epochLawWait d n any u = if any = true ∧ lawBusy u d n = true then u.modEpo d (fun x => { x with lawAt := x.lawAt ++ [(n, u.pt)] })
      else epochLaw d n u) ∧
    (∀ u w, w = u.modEpo d (fun x => { x with lawAt := x.lawAt.filter fun p => p.1 != n }) →
      epochLaw d n u = if w.rd d CFG_STAT.STATE = 5 then partReverted d n (revertPart d (some n) true w)
        else axisApplied d n (applyPart d (some n) true w)) ∧
    (∀ r, (s.getEpo d).ep = some r → epochMaster s d r.dies ≠ some d ∨ (s.getEpo d).checked = true →
      exec (.epochSkewCheck d) s = .next (s.commit s)) ∧
    (∀ r k u l a w v, (s.getEpo d).ep = some r → epochMaster s d r.dies = some d → (s.getEpo d).checked = false →
      k = clampN 1 10000 (s.rd d CFG_SKEW.SKEW) → u = ((s.passTo (r.t + k * 2500)).modEpo d fun x => { x with checked := true }) →
      l = lateDies u d r.dies → a = ((List.range 8).find? fun e => bitOf l e).getD 0 + 256 * l →
      w = u.raise d 480 3 a → v = w.forEach ((List.range w.dies).filter fun e => bitOf l e) (lateDie d (u.rd d CFG_CTRL.SKEWACT) a) →
      (l = 0 → (u.getEpo d).refd = false → exec (.epochSkewCheck d) s = .next (s.commit (tryClose r u))) ∧
      (l ≠ 0 ∨ (u.getEpo d).refd = true →
        (u.rd d CFG_CTRL.SKEWACT = 1 → exec (.epochSkewCheck d) s = .next (s.commit (tryClose r (sendOutcome d 3 1 0 r v)))) ∧
        (∀ tr, u.rd d CFG_CTRL.SKEWACT ≠ 1 → tr = r.t + (k + max 10 (v.rd d CFG_SKEW.REVLEAD)) * 2500 →
          exec (.epochSkewCheck d) s = .next (s.commit (revertDies r l tr (sendOutcome d 2 0 tr r v)))))) ∧
    (∀ p, p < 9 → (s.getEpo d).tr = none → exec (.epochRevert d p) s = .next (s.commit s)) ∧
    (∀ tr u, (s.getEpo d).tr = some tr → u = revertStart d ((s.passTo tr).toGrid 250) → exec (.epochRevert d 8) s = .next (s.commit
      (if bitOf (s.getEpo d).rev 8 = true then s else partReverted d 8 (filsync d (s.getEpo d).fil (revertPart d none false u))))) ∧
    (∀ tr, (s.getEpo d).tr = some tr →
      ((s.getEpo d).lawAt.any (fun p => p.1 == n) = true → s.rd d CFG_STAT.STATE = 5 →
        exec (.epochRevert d n) s = .next (s.commit (if lawBusy s d n = true then s else epochLaw d n s))) ∧
      (∀ u, (s.getEpo d).lawAt.any (fun p => p.1 == n) = false ∨ s.rd d CFG_STAT.STATE ≠ 5 → u = revertStart d (toAxisBoundary d n tr s) →
        exec (.epochRevert d n) s = .next (s.commit (if bitOf (s.getEpo d).rev n = true ∨ s.holds d n = false then s
          else epochLawWait d n ((u.getEpo d).undo.any fun u => u.ax == some n && u.law) (revertPart d (some n) false u))))) ∧
    (∀ u, (takeEpoch d 1 s = (none, u) → exec (.epochCommitReceive d) s = .next (s.commit u)) ∧
      (takeEpoch d 2 s = (none, u) → exec (.epochRevertReceive d) s = .next (s.commit u)) ∧
      (takeEpoch d 3 s = (none, u) → exec (.epochApplyLateReceive d) s = .next (s.commit u)) ∧
      (takeEpoch d 4 s = (none, u) → exec (.epochRefuseReceive d) s = .next (s.commit u)) ∧
      (takeEpoch d 5 s = (none, u) → exec (.epochAbortReceive d) s = .next (s.commit u))) ∧
    (∀ p f u id o t fol, takeEpoch d 1 s = (some (p, f), u) → id = fNum p 2 2 → o = fNum p 4 2 % 4096 → t = fNum p 8 8 → fol = fNum p 16 8 →
      (u.epoSeen.elem (o, id) = true → exec (.epochCommitReceive d) s = .next (s.commit u)) ∧
      (∀ v, u.epoSeen.elem (o, id) = false → v = { u with epoSeen := (o, id) :: u.epoSeen } →
        ((v.dieSet d).any (fun e => v.rd e CFG_STAT.STATE != 0 && v.rd e CFG_STAT.STATE != 2) = true →
          exec (.epochCommitReceive d) s = .next (s.commit ((epochSend d [o] (epochPayload 4 0 id o t fol 0) v).raise d 520 3 o))) ∧
        (∀ w, (v.dieSet d).any (fun e => v.rd e CFG_STAT.STATE != 0 && v.rd e CFG_STAT.STATE != 2) = false →
          w = (v.forEach (v.dieSet d) (fabricStage fol)).forEach (v.dieSet d)
            (fun e => commitDie e { t := t, id := id, dies := 0xFF, folios := fol, org := some o }) →
          exec (.epochCommitReceive d) s = .next (s.commit (if t + clampN 1 10000 (w.rd d CFG_SKEW.SKEW) * 2500 < w.pt then
            w.forEach (v.dieSet d) (fun e s => s.modEpo e fun x => { x with seen := 0 }) else w))))) ∧
    (∀ p f u, takeEpoch d 2 s = (some (p, f), u) →
      (findEpoch u d p = none → exec (.epochRevertReceive d) s = .next (s.commit u)) ∧
      (∀ r, findEpoch u d p = some r → exec (.epochRevertReceive d) s = .next (s.commit (revertDies r 0 (fNum p 24 8)
        (if ((epochDies u r).any fun e => (u.getEpo e).tr.isSome || (u.getEpo e).drop) = true then u else relayOutcome d p u))))) ∧
    (∀ p f u, takeEpoch d 3 s = (some (p, f), u) → exec (.epochApplyLateReceive d) s = .next (s.commit (relayOutcome d p u))) ∧
    (∀ p u, relayOutcome d p u = if fNum p 4 2 % 4096 = u.ownId d then epochSend d u.epoSent p u else u) ∧
    (∀ p f u, takeEpoch d 4 s = (some (p, f), u) →
      (findEpoch u d p = none → exec (.epochRefuseReceive d) s = .next (s.commit u)) ∧
      (∀ r, findEpoch u d p = some r → exec (.epochRefuseReceive d) s = .next (s.commit (if r.org.isNone = true then
        u.forEach (epochDies u r) (fun e s => s.modEpo e fun x => { x with refd := true }) else u)))) ∧
    (∀ p f u, takeEpoch d 5 s = (some (p, f), u) →
      (findEpoch u d p = none → exec (.epochAbortReceive d) s = .next (s.commit u)) ∧
      (∀ r, findEpoch u d p = some r → exec (.epochAbortReceive d) s = .next (s.commit (abortDies (epochDies u r) u))))

/-- The rings of a function (R382 to R397); `d` is d0 or d1. -/
def Obligations.RingsDoorbellsAndInterrupts : Prop :=
  ∀ (s : State) (d r : Nat) (v : Word), s.Live d → d < 2 → r < 64 →
    (∀ (w a : Nat) (u : State), w = (BitVec.ofNat 32 (putBit v.toNat 0 true)).toNat % 2 ^ 25 → a = HIF_RCFG.EN.addr d r 0 →
      u = s.setReg a (BitVec.ofNat 32 (w / 2 * 2)) →
      (s.rd d HIF_RSTAT.STATE r = 0 →
        (ringRefuse u d r ≠ 0 → exec (.ringEnable d r v) s = .next (s.commit (ringErr d r (u.wr d HIF_RSTAT.ERR (ringRefuse u d r) r)))) ∧
        (ringRefuse u d r = 0 → exec (.ringEnable d r v) s = .next (s.commit (ringShadow d r (showShares d
          ((((((u.wr d HIF_RCFG.EN 1 r).wr d HIF_RSTAT.STATE 1 r).wr d HIF_RSTAT.ERR 0 r).wr d HIF_RIDX.HOST 0 r).wr d HIF_RIDX.DEV 0 r).modRing d r
            fun _ => {})))))) ∧
      (s.rd d HIF_RSTAT.STATE r ≠ 0 → exec (.ringEnable d r v) s = .next (s.commit
        (if w / 2 = (s.reg a).toNat % 2 ^ 25 / 2 then s else s.accessFault d d true 2 5 a)))) ∧
    (∀ u : State, ringRefuse u d r =
      if 4 < u.rd d HIF_RCFG.TYPE r ∨ 10 < u.rd d HIF_RCFG.SIZE r ∨
        (toDevice u d r = true ∧ ¬ (u.bit d HIF_RCFG.EN (u.rd d HIF_RCFG.CPLR r) = true ∧ u.rd d HIF_RCFG.TYPE (u.rd d HIF_RCFG.CPLR r) = 1)) ∨
        56 < ringAlloc u d + max 1 (u.rd d HIF_RPARM.QSIZE r) then 1
      else if u.rd d GLB_PHASE.PHASE < 4 then 6 else 0) ∧
    (∀ a : Nat, a = HIF_RCFG.EN.addr d r 0 →
      (s.rd d HIF_RSTAT.STATE r = 0 →
        exec (.ringDisable d r) s = .next (s.commit (s.setReg a (BitVec.ofNat 32 ((s.reg a).toNat % 2 ^ 25 / 2 * 2))))) ∧
      (s.rd d HIF_RSTAT.STATE r ≠ 0 → s.bit d HIF_RCFG.EN r = false → exec (.ringDisable d r) s = .next (s.commit s)) ∧
      (∀ u, s.rd d HIF_RSTAT.STATE r ≠ 0 → s.bit d HIF_RCFG.EN r = true → u = s.wr d HIF_RCFG.EN 0 r →
        exec (.ringDisable d r) s = .next (s.commit (if u.rd d HIF_RSTAT.STATE r = 1 ∧ ringBusy u d r = true then
          showShares d (ringShadow d r ((u.wr d HIF_RSTAT.STATE 3 r).modRing d r fun x => { x with share := x.share.take 1 }))
        else ringOff d r u)))) ∧
    (∀ off size x, off < 65536 → s.bit d HIF_ID.LINKUP = false → exec (.doorbell d off size x) s = .next (s.commit s)) ∧
    (∀ off size x, off < 65536 → s.bit d HIF_ID.LINKUP = true → off % 0x400 ≠ 0 ∨ size ≠ 4 →
      exec (.doorbell d off size x) s = .next (s.commit (ringErr d off s))) ∧
    (∀ x i n h e, s.bit d HIF_ID.LINKUP = true → i = x % 65536 → n = ringSize s d r → h = s.rd d HIF_RIDX.HOST r → e = s.rd d HIF_RIDX.DEV r →
      exec (.doorbell d (r * 0x400) 4 x) s = .next (s.commit
        (if s.rd d HIF_RSTAT.STATE r ≠ 1 then ringErr d r s
        else if n ≤ i then ringErr d r (ringHalt d r 2 s)
        else if toDevice s d r = false ∧ (e + n - h) % n < (i + n - h) % n then ringErr d r (ringHalt d r 3 s)
        else fwLine d r (s.wr d HIF_RIDX.HOST i r)))) ∧
    (∀ ok bs b f, b = (bs ++ List.replicate 32 0).take 32 → f = s.rd d HIF_RCFG.FWDIE r →
      (fetchable s d r = false → exec (.descriptorFetch d r ok bs) s = .next (s.commit s)) ∧
      (fetchable s d r = true →
        exec (.descriptorFetch d r false bs) s = .next (s.commit ((ringHalt d r 4 s).raise d 498 3 r)) ∧
        (s.rd d HIF_RCFG.TYPE r = 0 ∧ s.bit d HIF_RCFG.MODE r = true → exec (.descriptorFetch d r true bs) s = .next (s.commit
          (showFw f ((s.modFwq f fun q => q ++ [{ fn := d, ring := r, desc := b }]).setIrqs f 18 true)))) ∧
        (s.rd d HIF_RCFG.TYPE r ≠ 0 ∨ s.bit d HIF_RCFG.MODE r = false → exec (.descriptorFetch d r true bs) s = .next (s.commit
          (ringShadow d r ((showShares d (s.modRing d r fun x => { x with share := x.share ++ [b] })).wr d HIF_RIDX.DEV
            ((s.rd d HIF_RIDX.DEV r + 1) % ringSize s d r) r)))))) ∧
    exec (.queueShareDrain d r) s = .next (s.commit (if toDevice s d r = true then s else ringDrain d r (s.getRing d r).share.length s)) ∧
    (∀ (u : State) b bs k, ringDrain d r 0 u = u ∧ ((u.getRing d r).share = [] → ringDrain d r k u = u) ∧
      ((u.getRing d r).share = b :: bs → ringDrain d r (k + 1) u =
        if ringFree u d r = true ∧ u.fnUp d = true ∧ u.rd d HIF_RSTAT.STATE r = 1 then
          ringDrain d r k (ringPut d r b (u.modRing d r fun x => { x with share := bs })) else u)) ∧
    ((s.getRing d r).unsig ≠ 0 → ∀ u, u = s.passTo ((s.getRing d r).unsigAt + s.rd d HIF_RMOD.TIME r * 2500) →
      exec (.msixModerationTimeout d r) s = .next (s.commit (msixSend d (u.rd d HIF_RCFG.VEC r) (u.modRing d r fun x => { x with unsig := 0 })))) ∧
    ((s.getRing d r).unsig = 0 → exec (.msixModerationTimeout d r) s = .next (s.commit s)) ∧
    (∀ k on, k < 64 → exec (.msixUnmask d k on) s = .next (s.commit
      (msixFlush d (showMsix d (s.modMsix d fun m => { m with vmask := putBit m.vmask k (!on) }))))) ∧
    (∀ on, exec (.msixUnmask d 64 on) s = .next (s.commit
      (msixFlush d (showMsix d (s.modMsix d fun m => if on = true then { m with en := true, fmask := false } else { m with fmask := true }))))) ∧
    (∀ a, a = HIF_FWCTL.RING.addr d 0 0 →
      (s.bit d HIF_ID.BONDED = false → exec (.fwPop d) s = .next (s.commit (s.accessFault d 2 true 2 4 a)) ∧
        exec (.fwPost d) s = .next (s.commit (s.accessFault d 2 true 2 4 a)))) ∧
    (s.bit d HIF_ID.BONDED = true →
      (s.getFwq d = [] → exec (.fwPop d) s = .next (s.commit s)) ∧
      (∀ e q u w, s.getFwq d = e :: q → u = s.modFwq d (fun _ => q) →
        w = u.wr e.fn HIF_RIDX.DEV ((u.rd e.fn HIF_RIDX.DEV e.ring + 1) % ringSize u e.fn e.ring) e.ring →
        exec (.fwPop d) s = .next (s.commit (showFw d (fwLine e.fn e.ring (ringShadow e.fn e.ring w))))) ∧
      (∀ c q f, c = s.rd d HIF_FWCPL.CPL → q = bitsOf c 16 6 → f = bitsOf c 22 1 → exec (.fwPost d) s = .next (s.commit
        (if s.hasDie f = true ∧ s.bit f HIF_RCFG.EN q = true ∧ s.rd f HIF_RSTAT.STATE q = 1 ∧ s.rd f HIF_RCFG.TYPE q = 0 ∧
            s.bit f HIF_RCFG.MODE q = true ∧ s.rd f HIF_RCFG.FWDIE q = d then
          postCpl f q (leBytes c 2) (bitsOf c 24 8) (bitsOf c 64 64) (bitsOf c 128 64) s
        else ringErr d q s))))

/-- The PCIe link (R22, R56, R378, R379, R397, R398); `d` is d0 or d1. -/
def Obligations.TheLinkOfAFunctionAndItsLoss : Prop :=
  ∀ (s : State) (d r : Nat), s.Live d → d < 2 → r < 64 →
    (∀ gen width, gen < 4 → (width = 1 ∨ width = 2 ∨ width = 4 ∨ width = 8) →
      (gen = 0 → exec (.pcieLinkTraining d gen width) s = .next (s.commit
        (if s.bit d HIF_ID.ENABLED = true then (s.addSat d HIF_LINKCNT.DOWN).raise d 496 3 0 else s))) ∧
      (gen ≠ 0 → exec (.pcieLinkTraining d gen width) s = .next (s.commit
        (if s.bit d HIF_ID.BONDED = true ∧ s.bit d HIF_ID.ENABLED = true ∧ 1 ≤ s.rd d GLB_PHASE.PHASE then
          ((s.wr d HIF_ID.LINKUP 1).wr d HIF_ID.GEN gen).wr d HIF_ID.WIDTH width else s)))) ∧
    (∀ u v, s.bit d HIF_ID.BONDED = true → s.bit d HIF_ID.ENABLED = true → u = functionOff d s →
      v = (u.forEach (List.range 64) fun r s => (s.wr d HIF_RIDX.HOST 0 r).wr d HIF_RIDX.DEV 0 r) →
      exec (.pciePerst d) s = .next (s.commit
        (((((v.wr d HIF_ID.LINKUP 0).wr d HIF_ID.GEN 0).wr d HIF_ID.WIDTH 0).addSat d HIF_LINKCNT.PERST).raise d 500 3 0)) ∧
      (s.bit d HIF_ID.LINKUP = true →
        exec (.functionLost d 1) s = .next (s.commit
          (((((v.wr d HIF_ID.LINKUP 0).wr d HIF_ID.GEN 0).wr d HIF_ID.WIDTH 0).addSat d HIF_LINKCNT.PERST).raise d 500 3 0)) ∧
        exec (.functionLost d 2) s = .next (s.commit
          (((((v.wr d HIF_ID.LINKUP 0).wr d HIF_ID.GEN 0).wr d HIF_ID.WIDTH 0).addSat d HIF_LINKCNT.DOWN).raise d 496 3 0)) ∧
        exec (.functionLost d 3) s = .next (s.commit ((v.addSat d HIF_LINKCNT.FLR).raise d 500 3 0)) ∧
        exec (.functionLost d 4) s = .next (s.commit
          (((((u.wr d HIF_ID.LINKUP 0).wr d HIF_ID.GEN 0).wr d HIF_ID.WIDTH 0).addSat d HIF_LINKCNT.DOWN).raise d 496 3 0)))) ∧
    (s.bit d HIF_ID.BONDED = false ∨ s.bit d HIF_ID.ENABLED = false → exec (.pciePerst d) s = .next (s.commit s)) ∧
    (s.bit d HIF_ID.BONDED = false → s.configHeader d = none) ∧
    (s.bit d HIF_ID.BONDED = true → s.configHeader d = some
      { vendor := 0x1D4B, device := 0x47C1, revision := s.rd d GLB_ID.STEP, classCode := 0x118000, subVendor := s.opt d 0x024 2,
        subId := s.opt d 0x026 2, serial := s.flashLe d 3 8 8 % 2 ^ 32 + d * 2 ^ 32 }) ∧
    (∀ k, 1 ≤ k → k < 5 → s.bit d HIF_ID.BONDED = false ∨ s.bit d HIF_ID.ENABLED = false ∨ s.bit d HIF_ID.LINKUP = false →
      exec (.functionLost d k) s = .next (s.commit s)) ∧
    (∀ (t u v : State), u = keepFw (fun f => f.fn != d) (t.forEach (List.range 64) fun r s =>
        (((s.wr d HIF_RCFG.EN 0 r).wr d HIF_RSTAT.STATE 0 r).wr d HIF_RSTAT.ERR 7 r).modRing d r fun _ => {}) →
      v = u.modSignq d (fun q => q.map fun x => match x.who with | .host _ _ _ => { x with who := .gone } | _ => x) →
      functionOff d t = showMsix d (showShares d ((v.modMsix d fun _ => {}).wr d HIF_ID.D3 0))) ∧
    (s.bit d HIF_ID.LINKUP = true → exec (.d3hotChange d true) s = .next (s.commit (s.wr d HIF_ID.D3 1)) ∧
      exec (.d3hotChange d false) s = .next (s.commit (msixFlush d (((s.wr d HIF_ID.D3 0).forEach (List.range 64) fun r s =>
        if (toDevice s d r || s.rd d HIF_RSTAT.STATE r != 1) = true then s
        else ringDrain d r (s.getRing d r).share.length s).forEach (List.range 64) fun r s =>
        if (s.getRing d r).stale = true then ringShadow d r s else s)))) ∧
    (∀ on, s.bit d HIF_ID.LINKUP = false → exec (.d3hotChange d on) s = .next (s.commit s)) ∧
    exec (.pcieCompletionTimeout d r false) s = .next (s.commit
      (if fetchable s d r = true then (ringHalt d r 4 s).raise d 498 3 r else s)) ∧
    (∀ b, cmdHead s d r (fun op => op == 2 || op == 5 || op == 7) = some b →
      exec (.pcieCompletionTimeout d r true) s = .next (s.commit ((cmdDone d r 4 0 0 s).raise d 498 3 r))) ∧
    (cmdHead s d r (fun op => op == 2 || op == 5 || op == 7) = none → exec (.pcieCompletionTimeout d r true) s = .next (s.commit s))

/-- The commands of the host's rings (R26, R388 to R390, R397, R479); `d` is d0 or d1. -/
def Obligations.HostCommandsHaveTheirEffect : Prop :=
  ∀ (s : State) (d r : Nat), s.hasDie d = true → d < 2 → r < 64 →
    (∀ ok bs ecc, (cmdHead s d r (· == 0) = none → exec (.hifNop d r) s = .next (s.commit s)) ∧
      (cmdHead s d r (· == 1) = none → exec (.hifRdreg d r) s = .next (s.commit s)) ∧
      (cmdHead s d r (· == 2) = none → exec (.hifWrreg d r ok bs) s = .next (s.commit s)) ∧
      (cmdHead s d r (· == 3) = none → exec (.hifWr1 d r) s = .next (s.commit s)) ∧
      (cmdHead s d r (· == 4) = none → exec (.hifMask d r) s = .next (s.commit s)) ∧
      (cmdHead s d r (· == 5) = none → exec (.hifDmaw d r ok bs) s = .next (s.commit s)) ∧
      (cmdHead s d r (· == 6) = none → exec (.hifDmar d r ecc) s = .next (s.commit s)) ∧
      (cmdHead s d r (· == 7) = none → exec (.hifColoph d r ok bs) s = .next (s.commit s)) ∧
      (cmdHead s d r (fun op => 7 < op) = none → exec (.hifUndefinedOpcode d r) s = .next (s.commit s))) ∧
    (∀ b, cmdHead s d r (· == 0) = some b → exec (.hifNop d r) s = .next (s.commit (cmdDone d r 0 0 0 s))) ∧
    (∀ b n, n = cmdB b % 1024 + 1 →
      (cmdA b % 4 ≠ 0 ∨ 8 * dieSpan < cmdA b + 4 * n ∨ cmdAddr b % 4 ≠ 0 → ∀ ok bs,
        (cmdHead s d r (· == 1) = some b → exec (.hifRdreg d r) s = .next (s.commit (cmdDone d r 2 0 0 s))) ∧
        (cmdHead s d r (· == 2) = some b → exec (.hifWrreg d r ok bs) s = .next (s.commit (cmdDone d r 2 0 0 s)))) ∧
      (cmdA b % 4 = 0 → cmdA b + 4 * n ≤ 8 * dieSpan → cmdAddr b % 4 = 0 → ∀ bs x,
        (cmdHead s d r (· == 1) = some b → x = readWords d d (cmdA b) n s → exec (.hifRdreg d r) s = .next (s.commit
          (wordsDone d r n { x with s := putHost x.s (cmdAddr b) (x.ws.flatMap fun w => leBytes w 4) }))) ∧
        (cmdHead s d r (· == 2) = some b → exec (.hifWrreg d r true bs) s = .next (s.commit
          (wordsDone d r n (writeWords d d (cmdA b) (bytesWords bs n) s)))) ∧
        (∀ k, cmdHead s d r (· == 2) = some b → k = min n (bs.length / 4) → exec (.hifWrreg d r false bs) s = .next (s.commit
          ((cmdDone d r 4 k 0 (writeWords d d (cmdA b) (bytesWords bs k) s).s).raise d 498 3 r))))) ∧
    (∀ b, (cmdA b % 4 ≠ 0 ∨ 8 * dieSpan < cmdA b + 4 →
        (cmdHead s d r (· == 3) = some b → exec (.hifWr1 d r) s = .next (s.commit (cmdDone d r 2 0 0 s))) ∧
        (cmdHead s d r (· == 4) = some b → exec (.hifMask d r) s = .next (s.commit (cmdDone d r 2 0 0 s)))) ∧
      (cmdA b % 4 = 0 → cmdA b + 4 ≤ 8 * dieSpan →
        (cmdHead s d r (· == 3) = some b → exec (.hifWr1 d r) s = .next (s.commit (wordsDone d r 0 (writeWords d d (cmdA b) [cmdB b] s)))) ∧
        (∀ x, cmdHead s d r (· == 4) = some b → x = maskWords d d (cmdA b) [cmdB b] [cmdB b / 2 ^ 32] s →
          exec (.hifMask d r) s = .next (s.commit (wordsDone d r (x.ws.getD 0 0) x))))) ∧
    (∀ k x, wordsDone d r k x = match x.bad with | some i => cmdDone d r 3 k i x.s | none => cmdDone d r 0 k 0 x.s) ∧
    (∀ b ok bs ecc, (dmaOk b = false →
        (cmdHead s d r (· == 5) = some b → exec (.hifDmaw d r ok bs) s = .next (s.commit (cmdDone d r 2 0 0 s))) ∧
        (cmdHead s d r (· == 6) = some b → exec (.hifDmar d r ecc) s = .next (s.commit (cmdDone d r 2 0 0 s)))) ∧
      (dmaOk b = true → s.dramSrv = none ∨ (∃ c, s.dramSrv = some c ∧ s.reach d c = false) →
        (cmdHead s d r (· == 5) = some b → exec (.hifDmaw d r ok bs) s = .next (s.commit (cmdDone d r 5 0 0 s))) ∧
        (cmdHead s d r (· == 6) = some b → exec (.hifDmar d r ecc) s = .next (s.commit (cmdDone d r 5 0 0 s)))) ∧
      (∀ c, dmaOk b = true → s.dramSrv = some c → s.reach d c = true →
        (cmdHead s d r (· == 5) = some b → hitsLedger s c (cmdB b) (cmdA b) = true →
          exec (.hifDmaw d r ok bs) s = .next (s.commit (cmdDone d r 6 0 0 s))) ∧
        (cmdHead s d r (· == 5) = some b → hitsLedger s c (cmdB b) (cmdA b) = false →
          exec (.hifDmaw d r true bs) s = .next (s.commit (cmdDone d r 0 (cmdA b) 0
            (s.dramWrite (cmdB b) ((List.range (cmdA b)).map fun i => bs.getD i 0)).2)) ∧
          ∀ k, k = min (cmdA b) bs.length → exec (.hifDmaw d r false bs) s = .next (s.commit ((cmdDone d r 4 k 0
            (s.dramWrite (cmdB b) ((List.range k).map fun i => bs.getD i 0)).2).raise d 498 3 r))) ∧
        (∀ x t, cmdHead s d r (· == 6) = some b → x = s.dramRead (cmdB b) (cmdA b) → t = eccRead c (cmdB b) ecc x.2 →
          exec (.hifDmar d r ecc) s = .next (s.commit (if ecc = 2 ∨ (ecc = 3 ∧ s.bit c MEM_STAT.MSYNC = false) then cmdDone d r 5 0 0 t
            else cmdDone d r 0 (cmdA b) 0 (putHost t (cmdAddr b) (x.1.getD []))))))) ∧
    (∀ b, dmaOk b = true ↔ 64 ≤ cmdA b ∧ cmdA b ≤ 16777216 ∧ cmdA b % 64 = 0 ∧ cmdAddr b % 64 = 0 ∧ cmdB b % 64 = 0 ∧
      cmdB b + cmdA b ≤ 2 ^ 35) ∧
    (∀ b ok bs, cmdHead s d r (· == 7) = some b →
      (cmdA b < colophonLen s d ∨ cmdAddr b % 64 ≠ 0 → exec (.hifColoph d r ok bs) s = .next (s.commit (cmdDone d r 2 0 0 s))) ∧
      (colophonLen s d ≤ cmdA b → cmdAddr b % 64 = 0 →
        exec (.hifColoph d r false bs) s = .next (s.commit ((cmdDone d r 4 0 0 s).raise d 498 3 r)) ∧
        exec (.hifColoph d r true bs) s = .next (s.commit
          (signAsk d (.host r (cmdCid b) (cmdAddr b)) ((List.range 32).map fun i => bs.getD i 0) s)))) ∧
    (∀ b, cmdHead s d r (fun op => 7 < op) = some b → exec (.hifUndefinedOpcode d r) s = .next (s.commit (cmdDone d r 1 0 0 s)))

/-- Requests to the stacks (R394, R434, R438 to R440); `d` is d0 or d1. -/
def Obligations.StacksRequestsHaveTheirEffect : Prop :=
  ∀ (s : State) (d r : Nat), s.hasDie d = true → d < 2 → r < 64 →
    ((arcHead s d r (· == 1) = none → exec (.arcRead d r) s = .next (s.commit s)) ∧
      (arcHead s d r (· == 2) = none → exec (.arcProtect d r) s = .next (s.commit s)) ∧
      (arcHead s d r (· == 3) = none → exec (.arcUnprotect d r) s = .next (s.commit s)) ∧
      (arcHead s d r (· == 4) = none → exec (.arcSpan d r) s = .next (s.commit s)) ∧
      (arcHead s d r (fun op => op == 0 || 4 < op) = none → exec (.arcUndefinedOp d r) s = .next (s.commit s))) ∧
    (∀ b, arcHead s d r (fun op => op == 0 || 4 < op) = some b → exec (.arcUndefinedOp d r) s = .next (s.commit (cmdDone d r 1 0 0 s))) ∧
    (∀ b e, ((stkReady s = none ∨ ∃ c, stkReady s = some c ∧ s.reach d c = false) ∧ e = 8) ∨
        (∃ c, stkReady s = some c ∧ s.reach d c = true ∧ s.bit c STK_NS.VALID (arcNs b) = false ∧ e = 2) →
      (arcHead s d r (· == 1) = some b → exec (.arcRead d r) s = .next (s.commit (cmdDone d r e 0 0 s))) ∧
      (arcHead s d r (· == 2) = some b → exec (.arcProtect d r) s = .next (s.commit (cmdDone d r e 0 0 s))) ∧
      (arcHead s d r (· == 3) = some b → exec (.arcUnprotect d r) s = .next (s.commit (cmdDone d r e 0 0 s))) ∧
      (arcHead s d r (· == 4) = some b → exec (.arcSpan d r) s = .next (s.commit (cmdDone d r e 0 0 s)))) ∧
    (∀ b c k, stkReady s = some c → s.reach d c = true → k = arcNs b → s.bit c STK_NS.VALID k = true →
      (arcHead s d r (· == 1) = some b →
        (cmdA b = 0 ∨ 65536 < cmdA b ∨ cmdB b ≤ cmdAddr b ∨ fNum b 24 8 % 4096 ≠ 0 →
          exec (.arcRead d r) s = .next (s.commit (cmdDone d r 2 0 0 s))) ∧
        (∀ all good next bad u, ¬ (cmdA b = 0 ∨ 65536 < cmdA b ∨ cmdB b ≤ cmdAddr b ∨ fNum b 24 8 % 4096 ≠ 0) →
          all = recsInTime s c k (fun x => overlaps (stkTs x) (stkTe x) (cmdAddr b) (cmdB b)) → good = all.filter stkCrcOk →
          next = (good.drop (cmdA b)).head? →
          bad = ((match next with | some x => all.takeWhile (fun y => y != x) | none => all).filter fun x => !stkCrcOk x).length →
          u = (if bad = 0 then s else (s.addSat c STK_CNT.CRC bad).forEach (List.range bad) fun _ s => s.raise c 535 3 k) →
          exec (.arcRead d r) s = .next (s.commit (cmdDone d r 0 (good.take (cmdA b)).length
            (match next with | some x => stkTs x | none => 2 ^ 64 - 1)
            (putHost u (fNum b 24 8) ((good.take (cmdA b)).flatMap fun x => x ++ List.replicate (4096 - x.length) 0)))))) ∧
      (arcHead s d r (· == 2) = some b →
        (cmdB b ≤ cmdAddr b ∨ 64 ≤ (s.getNsr c k).wins.length → exec (.arcProtect d r) s = .next (s.commit (cmdDone d r 2 0 0 s))) ∧
        (∀ w, cmdAddr b < cmdB b → (s.getNsr c k).wins.length < 64 → w = { ts := cmdAddr b, te := cmdB b, trig := false } →
          exec (.arcProtect d r) s = .next (s.commit (cmdDone d r 0 (newlyHeld s c k w) 0
            (showWin c k (s.modNsr c k fun x => { x with wins := x.wins ++ [w] })))))) ∧
      (arcHead s d r (· == 3) = some b →
        (cmdB b ≤ cmdAddr b → exec (.arcUnprotect d r) s = .next (s.commit (cmdDone d r 2 0 0 s))) ∧
        (∀ keep u, cmdAddr b < cmdB b →
          keep = (s.getNsr c k).wins.filter (fun w => !(decide (cmdAddr b ≤ w.ts) && decide (w.te ≤ cmdB b))) →
          u = showWin c k (s.modNsr c k fun x => { x with wins := keep }) →
          exec (.arcUnprotect d r) s = .next (s.commit (cmdDone d r 0 ((s.getNsr c k).wins.length - keep.length) 0
            (if (segPick u c k).isSome = true then u.wr c STK_NS.FULL 0 k else u))))) ∧
      (arcHead s d r (· == 4) = some b →
        (∀ x xs, recsInTime s c k (fun _ => true) = x :: xs → exec (.arcSpan d r) s = .next (s.commit
          (cmdDone d r 0 (stkTs x) ((xs.foldl (fun a y => max a (stkTe y)) (stkTe x)) - 1) s))) ∧
        (recsInTime s c k (fun _ => true) = [] → exec (.arcSpan d r) s = .next (s.commit
          (cmdDone d r 0 (s.free % 2 ^ 64) (s.drew.free % 2 ^ 64) s.drew.drew)))))

/-- Teram ports (R402 to R412, R415). -/
def Obligations.TeramPortsTrainBeatAndForward : Prop :=
  ∀ (s : State) (d : Nat) (f : List Byte), s.Live d →
    (∀ x1 g u, (s.getPort d).gen2 = some g → s.rd d TRM_PORT.STATE = 1 →
      u = (((s.wr d TRM_PORT.STATE 2).wr d TRM_PORT.GEN (b2n (g && s.bit d TRM_CTRL.GENMAX))).wr d TRM_PORT.X1 (b2n x1)).modPort d
        (fun p => { p with freeAt := s.now * 5 }) →
      exec (.teramTrainingComplete d x1) s = .next (s.commit (if x1 = true then u.raise d 513 3 d else u))) ∧
    (∀ x1, (s.getPort d).gen2 = none ∨ s.rd d TRM_PORT.STATE ≠ 1 → exec (.teramTrainingComplete d x1) s = .next (s.commit s)) ∧
    (∀ u v w, s.rd d TRM_PORT.STATE = 2 → u = portDrain d (s.getPort d).q.length s → v = u.addSat d TRM_PERR.DROP (u.getPort d).q.length →
      w = ((((v.wr d TRM_PORT.STATE 0).modPort d fun p => { p with q := [], gen2 := none, downAt := v.pt }).raise d 512 7 d)) →
      exec (.teramLinkLoss d) s = .next (s.commit (if w.upstream = some d then timeLost w else w))) ∧
    (s.rd d TRM_PORT.STATE ≠ 2 → exec (.teramLinkLoss d) s = .next (s.commit s)) ∧
    (∀ u v, s.rd d TRM_PORT.STATE ≠ 2 → s.rd d GLB_PHASE.PHASE ≠ 0 → (s.getDie d).optOk = true →
      u = s.passTo ((s.getPort d).downAt + 25000000) →
      v = ((u.wr d TRM_PORT.STATE 1).modPort d fun p => { p with gen2 := none, downAt := u.pt }) →
      exec (.teramRetrain d) s = .next (s.commit (if (v.getDie d).trained = true then beatSend d 0 v else v))) ∧
    (s.rd d TRM_PORT.STATE = 2 ∨ s.rd d GLB_PHASE.PHASE = 0 ∨ (s.getDie d).optOk = false → exec (.teramRetrain d) s = .next (s.commit s)) ∧
    (∀ u, u = s.toNext (State.stepNo 14 d 0) 25000 →
      exec (.beatKeepSend d) s = .next (s.commit (if u.rd d TRM_PORT.STATE = 2 then beatSend d 1 u else u))) ∧
    (∀ u p h, u = s.inject d 10 514 7 (fClass f) → h = hopUp f → p = fPayload h →
      (s.rd d TRM_PORT.STATE ≠ 0 → exec (.helloReceive d f) s = .next (s.commit
        (if frameOk u d f = true then
          (if fClass h = 1 ∧ fByte p 0 = 0 then
            (u.wr d TRM_PORT.PEER (fNum p 2 2 % 4096 + 4096 * (fByte p 4 % 8))).modPort d (fun x => { x with gen2 := some (bitOf (fByte p 1) 0) })
          else u)
        else frameBad d (fClass f) u))) ∧
      (s.rd d TRM_PORT.STATE = 2 →
        exec (.announceReceive d f) s = .next (s.commit
          (if frameOk u d f = true then (if fClass h = 1 ∧ fByte p 0 = 2 then announceReceive d h u else u) else frameBad d (fClass f) u)) ∧
        exec (.frameForward d f) s = .next (s.commit (if frameOk u d f = true then frameHand d h u else frameBad d (fClass f) u)))) ∧
    (s.rd d TRM_PORT.STATE = 0 → exec (.helloReceive d f) s = .next (s.commit s)) ∧
    (s.rd d TRM_PORT.STATE ≠ 2 → exec (.announceReceive d f) s = .next (s.commit s) ∧ exec (.frameForward d f) s = .next (s.commit s)) ∧
    (∀ (u v : State) h p id ser seq own, p = fPayload h → id = fNum p 2 2 % 4096 → ser = fNum p 8 8 → seq = fNum p 6 2 →
      own = (u.ident.map fun i => i.serial).getD 0 →
      v = (u.forEach (u.dieSet d) fun e t =>
        let w := t.modTrm e fun x => { x with seen := (id, ser, seq, t.pt) :: seenNow t x.seen }
        if id = w.ownId e then
          if ser < own ∧ w.bit e TRM_IDSTAT.DUP = false then (w.wr e TRM_IDSTAT.DUP 1).raise e 516 3 id else w
        else knownShow e (w.modTrm e fun x => { x with known := knownTake w e d (fByte h 1 % 32) id ser (fByte p 5) seq })) →
      announceReceive d h u =
        if (seenNow u (u.getTrm d).seen).any (fun x => x.1 == id && x.2.1 == ser && x.2.2.1 == seq) = false ∧ ¬ (id = v.ownId d ∧ ser = own) then
          v.forEach (u.dieSet d) (fun e t => if e = d then t else portSend e h t) else v) ∧
    (∀ (u : State) h, (fClass h ≠ 1 → fClass h ≠ 2 → u.rd d GLB_PHASE.PHASE ≠ 5 → frameHand d h u = u) ∧
      (fClass h ≠ 1 → fClass h ≠ 2 → u.rd d GLB_PHASE.PHASE = 5 →
        (fBcast h = true → frameHand d h u = broadcast d (some d) h u) ∧
        (fBcast h = false → fDst h % 4096 = u.ownId d → frameHand d h u =
          if u.hasDie (fDst h / 4096) = true ∧ u.reach d (fDst h / 4096) = true then deliver (fDst h / 4096) h false u
          else noRoute d (fDst h % 4096) u) ∧
        (fBcast h = false → fDst h % 4096 ≠ u.ownId d → frameHand d h u = route d h u))) ∧
    (∀ w m q u, w = s.toNext (State.stepNo 15 0 0) 25000000 → q = (w.annSeq + 1) % 65536 → u = { w with annSeq := q } →
      (w.master = none → exec .announceOriginate s = .next (s.commit w)) ∧
      (w.master = some m → exec .announceOriginate s = .next (s.commit (u.forEach (u.dieSet m) fun e t =>
        portSend e (mkFrame 1 false 0 (u.node m) (beatPayload u m 2 q)) t)))) ∧
    (∀ id, (∀ k, ((s.getTrm d).known.find? fun x => x.id == id) = some k →
        exec (.knownPackageExpiry d id) s = .next (s.commit (knownShow d ((s.passTo (k.at_ + 125000000)).modTrm d fun t =>
          { t with known := t.known.filter fun x => x.id != id })))) ∧
      (((s.getTrm d).known.find? fun x => x.id == id) = none → exec (.knownPackageExpiry d id) s = .next (s.commit s)))

/-- Fabric time (R409, R414, R415) and shared angles (R417, R418). -/
def Obligations.FabricTimeAndSharedAngles : Prop :=
  ∀ (s : State) (d : Nat) (f : List Byte) (frac : Nat), s.Live d →
    (∀ u x q, u = s.toNext (State.stepNo 16 d 0) 25000 → x = departStamp d frac u → q = ((u.getTrm d).syncSeq + 1) % 65536 →
      (u.rd d TRM_PORT.STATE ≠ 2 ∨ u.bit d TRM_IDSTAT.DUP = true → exec (.timeSyncSend d frac) s = .next (s.commit u)) ∧
      (u.rd d TRM_PORT.STATE = 2 → u.bit d TRM_IDSTAT.DUP = false → exec (.timeSyncSend d frac) s = .next (s.commit (portSend d
        (mkFrame 2 false (x.2.rd d TRM_PORT.PEER) (x.2.node d) ([1, 0] ++ leBytes q 2 ++ leBytes x.1 8 ++ leBytes 0 8))
        (x.2.modTrm d fun t => { t with syncSeq := q, t1 := some x.1 }))))) ∧
    (∀ u h, s.rd d TRM_PORT.STATE = 2 → u = s.inject d 10 514 7 (fClass f) → h = hopUp f →
      exec (.timeSyncReceive d f frac) s = .next (s.commit (if frameOk u d f = true then
        (if fClass h = 2 ∧ fByte (fPayload h) 0 = 1 then timeSync d frac h u else u) else frameBad d (fClass f) u)) ∧
      exec (.timeReplyReceive d f frac) s = .next (s.commit (if frameOk u d f = true then
        (if fClass h = 2 ∧ fByte (fPayload h) 0 = 2 then timeReply d frac h u else u) else frameBad d (fClass f) u))) ∧
    (s.rd d TRM_PORT.STATE ≠ 2 → exec (.timeSyncReceive d f frac) s = .next (s.commit s) ∧
      exec (.timeReplyReceive d f frac) s = .next (s.commit s)) ∧
    (∀ (u : State) x, x = departStamp d frac u → timeSync d frac f u = if x.2.bit d TRM_IDSTAT.DUP = true then x.2 else
      portSend d (mkFrame 2 false (fSrc f) (x.2.node d)
        ([2, 0] ++ leBytes (fNum (fPayload f) 2 2) 2 ++ leBytes (stamp16 u frac) 8 ++ leBytes x.1 8)) x.2) ∧
    (∀ u : State, (u.getTrm d).t1 = none ∨ fNum (fPayload f) 2 2 ≠ (u.getTrm d).syncSeq → timeReply d frac f u = u) ∧
    (∀ (u v : State) (t1 t2 t3 : Nat) (y : Int) (w : Int × State), (u.getTrm d).t1 = some t1 → fNum (fPayload f) 2 2 = (u.getTrm d).syncSeq →
      t2 = fNum (fPayload f) 4 8 → t3 = fNum (fPayload f) 12 8 → y = (((stamp16 u frac : Int) - t1) - ((t3 : Int) - t2)) * 25 →
      v = u.modTrm d (fun t => { t with t1 := none }) → w = v.near ((y : Rat) / 2) →
      (y < 0 ∨ 20000000 < y → timeReply d frac f u = v) ∧
      (0 ≤ y → y ≤ 20000000 → ∀ (z : State) (o : Int), z = w.2.wr d TRM_LINKDLY.DLY w.1.toNat → o = (t1 : Int) * 25 + w.1 - (t2 : Int) * 25 →
        timeReply d frac f u = if z.upstream = some d then (z.wrI d TRM_TOFS.OFS (satI 32 o)).modTrm d (fun t => { t with ofs := some o }) else z)) ∧
    ((s.getTrm d).ofs = none ∨ s.master = none ∨ (∃ m, s.master = some m ∧ s.reach d m = false) →
      exec (.fabricOffsetMessage d) s = .next (s.commit s)) ∧
    (∀ (o : Int) m u ok bad v w, (s.getTrm d).ofs = some o → s.master = some m → s.reach d m = true → u = s.modTrm d (fun t => { t with ofs := none }) →
      ok = (if o.natAbs ≤ 400 then (u.getTrm m).okRun + 1 else 0) → bad = (if 1200 < o.natAbs then (u.getTrm m).badRun + 1 else 0) →
      v = u.modTrm m (fun t => { t with okRun := min ok 64, badRun := min bad 4 }) →
      w = (if v.fabLock = true then setRem (Config.fabServo o) v
        else if 10000000 < o.natAbs ∧ v.stepAllowed = true then askStep (((v.pt : Int) + 5000 - rheDiv o 400).toNat) false v
        else setRem (-(rheDiv o 400)) v) →
      exec (.fabricOffsetMessage d) s = .next (s.commit (if w.fabLock = true then (if 4 ≤ bad then timeLost w else w)
        else if 64 ≤ ok then setFabLock true w else w))) ∧
    (∀ u, takeRx d (fun f => fClass f == 3) s = (none, u) → exec (.angleReceive d) s = .next (s.commit u)) ∧
    (∀ x u p c r live locked keep v, takeRx d (fun f => fClass f == 3) s = (some x, u) → p = fPayload x.bytes → c = fByte p 0 % 64 → r = u.getChan d c →
      live = (match r.accAt with | some t => decide (u.pt ≤ t + u.tout d) | none => false) →
      locked = (if live = true then r.node else none) → keep = u.bitAt d TRM_ARXMASK.MASK c →
      v = (if x.out = true ∧ u.bit d TRM_PORT.FWDB = true then portSend d x.bytes u else u) →
      (live = true → ¬ (1 ≤ (fNum p 2 2 + 65536 - r.seq) % 65536 ∧ (fNum p 2 2 + 65536 - r.seq) % 65536 ≤ 32767) →
        exec (.angleReceive d) s = .next (s.commit u)) ∧
      ((live = false ∨ (1 ≤ (fNum p 2 2 + 65536 - r.seq) % 65536 ∧ (fNum p 2 2 + 65536 - r.seq) % 65536 ≤ 32767)) →
        (keep = true → locked ≠ none → locked ≠ some (fSrc x.bytes) → exec (.angleReceive d) s = .next (s.commit (u.raise d 514 3 c))) ∧
        (keep = false ∨ locked = none ∨ locked = some (fSrc x.bytes) → ∀ w, w = v.modChan d c (fun r =>
            { r with seq := fNum p 2 2, accAt := some v.pt, node := if keep then some (fSrc x.bytes) else r.node }) →
          (keep = false → exec (.angleReceive d) s = .next (s.commit w)) ∧
          (∀ ta late y z, keep = true → ta = nearest32 w.pt (fNum p 4 4) → late = decide (ta < w.pt) →
            y = (if late = true then w.addSat d TRM_ASTAT.LATE else w) →
            z = (if late = true ∧ r.late = false then y.raise d 518 3 c else y) →
            exec (.angleReceive d) s = .next (s.commit ((z.modChan d c fun r =>
              { r with keptAt := some z.pt, ta := ta, ang := sgn 16 (fNum p 12 2) * 1099511627776 + ((fNum p 8 4 * 256 : Nat) : Int),
                       spd := sgn 32 (fNum p 14 4), acc := sgn 32 (fNum p 18 4), angv := bitOf (fByte p 1) 0, mech := bitOf (fByte p 1) 2,
                       mechv := bitOf (fByte p 1) 3, late := late }).wrBit d TRM_ARXVALID.VALID c true)))))) ∧
    (∀ c, c < 64 →
      (∀ t, (s.getChan d c).keptAt = some t → s.bitAt d TRM_ARXVALID.VALID c = true → exec (.angleChannelTimeout d c) s = .next (s.commit
        (((((s.passTo (t + s.tout d + 1)).wrBit d TRM_ARXVALID.VALID c false).addSat d TRM_ASTAT.LOST).modChan d c fun r => { r with node := none }).raise
          d 519 3 c))) ∧
      ((s.getChan d c).keptAt = none ∨ s.bitAt d TRM_ARXVALID.VALID c = false → exec (.angleChannelTimeout d c) s = .next (s.commit s)))

/-- Mailboxes and ACCESS frames (R26, R405, R410, R421, R422). -/
def Obligations.MailboxesAndAccessFrames : Prop :=
  ∀ (s : State) (d : Nat), s.Live d →
    (∀ u, (takeRx d (fun f => fClass f == 5) s = (none, u) → exec (.eventFrameReceive d) s = .next (s.commit u)) ∧
      (takeRx d (fun b => fClass b == 6 && (accOp b < 128 && !(2 ≤ accOp b && accOp b ≤ 5))) s = (none, u) →
        exec (.accessRd d) s = .next (s.commit u)) ∧
      (takeRx d (fun b => fClass b == 6 && accOp b == 2) s = (none, u) → exec (.accessWr d) s = .next (s.commit u)) ∧
      (takeRx d (fun b => fClass b == 6 && accOp b == 3) s = (none, u) → exec (.accessMask d) s = .next (s.commit u)) ∧
      (takeRx d (fun b => fClass b == 6 && accOp b == 4) s = (none, u) → exec (.accessColoph d) s = .next (s.commit u)) ∧
      (takeRx d (fun f => fClass f == 6 && accOp f == 5) s = (none, u) → exec (.accessMsg d) s = .next (s.commit u)) ∧
      (takeRx d (fun f => fClass f == 6 && decide (128 ≤ accOp f)) s = (none, u) → exec (.accessResponseReceive d) s = .next (s.commit u))) ∧
    (∀ x u, takeRx d (fun f => fClass f == 5) s = (some x, u) → exec (.eventFrameReceive d) s = .next (s.commit
      (if (u.getTrm d).evq.length < 16 then
        (showMbox d (u.modTrm d fun t => { t with evq := t.evq ++ [fPayload x.bytes] })).raise d 521 3 (fSrc x.bytes % 4096)
      else u.addSat d TRM_PERR.DROP))) ∧
    (∀ x u b r, takeRx d (fun b => fClass b == 6 && (accOp b < 128 && !(2 ≤ accOp b && accOp b ≤ 5))) s = (some x, u) → b = x.bytes →
      r = readWords d 6 (accOff b) (accCount b) u → exec (.accessRd d) s = .next (s.commit
        (if accOp b ≠ 1 then accessAnswer d b 1 (accOff b) [] u
        else if u.bit d TRM_CTRL.RREN = false then accessAnswer d b 4 (accOff b) [] u
        else if ¬ (1 ≤ accCount b ∧ accCount b ≤ 32 ∧ b.length = 20) then accessAnswer d b 2 (accOff b) [] u
        else accDone d b (r.ws.flatMap fun w => leBytes w 4) r))) ∧
    (∀ x u b, takeRx d (fun b => fClass b == 6 && accOp b == 2) s = (some x, u) → b = x.bytes → exec (.accessWr d) s = .next (s.commit
      (if u.bit d TRM_CTRL.RWEN = false then accessAnswer d b 4 (accOff b) [] u
      else if ¬ (1 ≤ accCount b ∧ accCount b ≤ 32 ∧ b.length = 20 + 4 * accCount b) then accessAnswer d b 2 (accOff b) [] u
      else accDone d b [] (writeWords d 6 (accOff b) (bytesWords (accData b) (accCount b)) u)))) ∧
    (∀ x u b, takeRx d (fun b => fClass b == 6 && accOp b == 3) s = (some x, u) → b = x.bytes → exec (.accessMask d) s = .next (s.commit
      (if u.bit d TRM_CTRL.RWEN = false then accessAnswer d b 4 (accOff b) [] u
      else if ¬ (1 ≤ accCount b ∧ accCount b ≤ 16 ∧ b.length = 20 + 8 * accCount b) then accessAnswer d b 2 (accOff b) [] u
      else accDone d b []
        (maskWords d 6 (accOff b) (bytesWords (accData b) (accCount b)) (bytesWords ((accData b).drop (4 * accCount b)) (accCount b)) u)))) ∧
    (∀ b data x, accDone d b data x = accessAnswer d b (if x.bad.isSome = true then 3 else 0) (accOff b) data x.s) ∧
    (∀ x u b, takeRx d (fun b => fClass b == 6 && accOp b == 4) s = (some x, u) → b = x.bytes → exec (.accessColoph d) s = .next (s.commit
      (if u.bit d TRM_CTRL.RREN = false then accessAnswer d b 4 (accOff b) [] u
      else if b.length ≠ 52 then accessAnswer d b 2 (accOff b) [] u
      else if 4 ≤ teramSigns u d then accessAnswer d b 5 (accOff b) [] u
      else signAsk d (.teram b) (accData b) u))) ∧
    (∀ x u v, v = showMbox d (u.modTrm d fun t => { t with mbox := t.mbox ++ [x.bytes] }) →
      (takeRx d (fun f => fClass f == 6 && accOp f == 5) s = (some x, u) → exec (.accessMsg d) s = .next (s.commit
        (if (u.getTrm d).mbox.length < 16 then v else accessAnswer d x.bytes 5 (fNum (fPayload x.bytes) 4 4) [] u))) ∧
      (takeRx d (fun f => fClass f == 6 && decide (128 ≤ accOp f)) s = (some x, u) → exec (.accessResponseReceive d) s = .next (s.commit
        (if (u.getTrm d).mbox.length < 16 then v else u.addSat d TRM_PERR.DROP)))) ∧
    (∀ f status off data (u : State), accessAnswer d f status off data u = originate d 6 false (fSrc f)
      ([BitVec.ofNat 8 (fByte (fPayload f) 0 % 128 + 128), (fPayload f).getD 1 0, BitVec.ofNat 8 status, (fPayload f).getD 3 0] ++
        leBytes off 4 ++ data) u) ∧
    (∀ bs n, s.bit d TRM_MBOX.BUSY = false → bs = ((List.range 64).flatMap fun i => leBytes (s.rd d TRM_TXBUF.DATA i) 4) → n = fNum bs 6 2 →
      (classLen (fClass bs) n = true →
        exec (.trmSend d) s = .next (s.commit (originate d (fClass bs) (fBcast bs) (fDst bs) ((bs.take (n - 4)).drop 8) s))) ∧
      (classLen (fClass bs) n = false →
        exec (.trmSend d) s = .next (s.commit ((s.addSat d TRM_PERR.BAD).raise d 514 3 (fClass bs))))) ∧
    (s.bit d TRM_MBOX.BUSY = true → exec (.trmSend d) s = .next (s.commit s)) ∧
    exec (.trmPop d) s = .next (s.commit (showMbox d (s.modTrm d fun t => { t with mbox := t.mbox.drop 1 }))) ∧
    exec (.trmEpop d) s = .next (s.commit (showMbox d (s.modTrm d fun t => { t with evq := t.evq.drop 1 })))

/-- The step of the block (log entry 8), and the tick on an empty queue (R4, R44). -/
def Obligations.StepRunsTheFrontCommand : Prop :=
  ∀ (s : State),
    (∀ c q, s.pending = c :: q → step s = exec c { s with pending := q }) ∧
    (s.pending = [] → step s = .next { s with now := s.now + 1, pt := (s.pt + 1) % 2 ^ 64 } ∧
      ∀ d, ({ s with now := s.now + 1, pt := (s.pt + 1) % 2 ^ 64 } : State).ptD d = (s.ptD d + 1) % 2 ^ 64)

/-- The invariant of Safety.lean is kept by every step (R1, R10, R11, R25, R427). -/
def Obligations.EveryStepKeepsTheInvariant : Prop :=
  ∀ s t : State, s.Inv → step s = .next t → t.Inv

/-- What reset leaves (R485, R487, R492). -/
def Obligations.TheMachineAfterResetIsLegal : Prop :=
  State.reset.Inv ∧ State.reset.pending = [] ∧
    (∀ d, d < 8 → State.reset.rd d GLB_PHASE.PHASE = 0) ∧ State.reset.rd 0 PWR_PKGBUD.PKG = 74000 ∧
    State.reset.rd 0 FLT_SRCCFG.SEV 240 = 0 ∧ State.reset.rd 0 FLT_SRCCFG.CLASS 240 = 1 ∧ State.reset.rd 0 FLT_SRCCFG.PIN 240 = 0

/-- Every command completes where the items it names exist (R2, R23, R24). -/
def Obligations.CommandsOfTheMemberComplete : Prop :=
  ∀ (c : Instr) (s : State),
    ((∃ t, exec c s = .next t) ∨ exec c s = .fault .noSuchItem) ∧ (s.dies = 8 → c.wf = true → ∃ t, exec c s = .next t)

/-- The memories a command leaves alone. -/
def Obligations.CommandsChangeOnlyTheirMemories : Prop :=
  ∀ (c : Instr) (s t : State) (k : Mem), exec c s = .next t → k ∉ storesOf c → SameMem k s t

/-- Time, member and queue (R1, R4, R44). -/
def Obligations.TimeMemberAndQueueOfACommand : Prop :=
  ∀ (c : Instr) (s t : State), exec c s = .next t →
    s.now ≤ t.now ∧ t.dies = s.dies ∧ t.grade = s.grade ∧ t.pending = s.pending

/-- DRAM (R11, R425, R427, R428). -/
def Obligations.DramReadsBackWhatWasWritten : Prop :=
  (∀ (s : State) (a k ecc : Nat) (bs : List Byte), s.dramSrv = none →
    exec (.dramAccess a k true bs ecc) s = .next (s.commit s) ∧ exec (.dramAccess a k false bs ecc) s = .next (s.commit (s.answer 0))) ∧
  (∀ (s : State) (c a ecc : Nat), eccRead c a ecc s =
    if ecc = 1 ∨ (ecc = 3 ∧ (s.inject c 5 529 5 a).bit c MEM_STAT.MSYNC = true) then (s.inject c 5 529 5 a).addSat c MEM_ECC.COR
    else if ecc = 2 ∨ ecc = 3 then (((s.inject c 5 529 5 a).addSat c MEM_ECC.UNC).wr c MEM_ECCADDR.ADDR a).raise c 529 5 a
    else s.inject c 5 529 5 a) ∧
  ∀ (s : State) (c a k : Nat) (bs : List Byte) (ecc : Nat), s.dramSrv = some c → c < 2 → s.dramCap c ≤ 2 ^ 35 → a < 2 ^ 35 →
    (∃ t, exec (.dramAccess a k true bs ecc) s = .next t ∧
      (∀ i, i < bs.length → a + i < s.dramCap c → t.dramByte c (a + i) = bs.getD i 0) ∧
      (s.mirrored = true → ∀ i, i < bs.length → a + i < s.dramCap c → t.dramByte (1 - c) (a + i) = bs.getD i 0) ∧
      (∀ ch x, ch < 2 → x < 2 ^ 35 → (x < a ∨ a + bs.length ≤ x ∨ s.dramCap c ≤ x ∨ (ch ≠ c ∧ s.mirrored = false)) →
        t.dramByte ch x = s.dramByte ch x) ∧
      (∀ m, m ≠ .dram → SameMem m s t) ∧ t.regs = s.regs ∧
      (a + bs.length ≤ s.dramCap c → t.inbox = s.inbox) ∧
      (s.dramCap c < a + bs.length → t.inbox = (s.raise c 530 3 (a / 2 ^ 19)).inbox)) ∧
    (∃ t, exec (.dramAccess a k false bs ecc) s = .next t ∧
      (∀ u, u = (if s.dramCap c < a + k then s.raise c 530 3 (a / 2 ^ 19) else s) → t.inbox = (eccRead c a ecc u).inbox ∧
        t.regs = (eccRead c a ecc u).regs) ∧
      t.readData = leNum ((List.range k).map fun i => if a + i < s.dramCap c then s.dramByte c (a + i) else 0) ∧
      (∀ m, SameMem m s t))

/-- R10, and R3 for the windows of absent dies. -/
def Obligations.AccessesThatDoNotTakePlace : Prop :=
  (∀ (s : State) (a : Nat), s.words a 2 = (s.reg a).toNat + 2 ^ 32 * (s.reg (a + 4)).toNat) ∧
  ∀ (s : State) (m f a size ecc : Nat) (v : Word) (e r : Nat), s.Live f → m < 7 → a < 0x10000000 →
    ((s.dies ≤ a / dieSpan ∧ e = f ∧ r = 1) ∨
      (a / dieSpan < s.dies ∧ s.reach f (a / dieSpan) = true ∧ (size ≠ 4 ∨ a % 4 ≠ 0) ∧ e = a / dieSpan ∧ r = 3)) →
    (∃ t, exec (.registerWrite m f (.bar a) true size v ecc) s = .next t ∧
      t = s.accessFault e (masterAt m f e) true (sizeCode size) r a ∧ (∀ k, SameMem k s t) ∧
      (∀ b, b ∉ [FLT_AFADDR.ADDR.addr e 0 0, FLT_AFINFO.MASTER.addr e 0 0, FLT_AFPT.PT.addr e 0 0, FLT_AFPT.PT.addr e 0 0 + 4] →
        t.reg b = s.reg b)) ∧
    (∃ t, exec (.registerWrite m f (.bar a) false size v ecc) s = .next t ∧
      t = (s.answer 0).accessFault e (masterAt m f e) false (sizeCode size) r a ∧ t.readData = 0)

/-- A die in reset (R51, R53), and a die that the member lacks (R2). -/
def Obligations.ADieInResetTakesNoStep : Prop :=
  ∀ (c : Instr) (s : State) (d : Nat), dieOf c = some d → c.wf = true →
    (s.hasDie d = true → (s.getDie d).inReset = true → exec c s = .next s) ∧
    (s.hasDie d = false → exec c s = .fault .noSuchItem)

/-- R54. -/
def Obligations.AMateResetOfTheActiveDieIsRefused : Prop :=
  ∀ (s : State) (d m e : Nat) (v w : Word), s.Live d → e = mateOf d → w = BitVec.ofNat 32 (putBit v.toNat 1 true) →
    bitOf w.toNat 1 = true → bitOf w.toNat 0 = false → bitsOf w.toNat 8 8 = 0xA5 →
    (s.divided d = false → (s.rd e PAIR_STAT.ROLE = 1 ∨ s.rd e PAIR_STAT.ROLE = 4) → (s.rd d PAIR_STAT.ROLE = 2 ∨ s.rd d PAIR_STAT.ROLE = 3) →
      (s.bit d PAIR_STAT.SEIZING = false → ∃ t, exec (.glbSwrstMate d m v) s = .next t ∧
        t = s.accessFault d (m % 16) true 2 6 (GLB_SWRST.SELF.addr d 0 0) ∧ t.die = s.die ∧ ∀ k, SameMem k s t) ∧
      (s.bit d PAIR_STAT.SEIZING = true → exec (.glbSwrstMate d m v) s = .next (s.commit (resetDie e .mate s)))) ∧
    (s.divided d = true → exec (.glbSwrstMate d m v) s = .next (s.commit (resetDie e .mate s)))
end

