-- ==== Sys2Proof/Laws/Store.lean ====
section
/-!
SUPPORT. What the operations of a sparse table do: a read after a write, a write leaves other numbers alone, and every
operation keeps the canonical form.
-/

namespace Sys2Proof.Machine

@[simp] theorem Store.get_nil {α : Type} (k : Nat) (dflt : α) :
    Store.get ([] : Store α) k dflt = dflt := rfl

theorem Store.get_erase_same {α : Type} (m : Store α) (k : Nat) (dflt : α) :
    (Store.erase m k).get k dflt = dflt := by
  induction m with
  | nil => rfl
  | cons e m ih =>
    by_cases h : e.1 = k
    · simpa [Store.erase, h] using ih
    · simpa [Store.erase, h, Store.get] using ih

theorem Store.get_erase_other {α : Type} (m : Store α) (k j : Nat) (dflt : α) (h : j ≠ k) :
    (Store.erase m k).get j dflt = m.get j dflt := by
  induction m with
  | nil => rfl
  | cons e m ih =>
    by_cases h' : e.1 = k
    · have hkj : ¬ k = j := fun hj => h hj.symm
      simpa [Store.erase, h', Store.get, hkj] using ih
    · by_cases hj : e.1 = j
      · simp [Store.erase, Store.get, hj, h]
      · simpa [Store.erase, h', Store.get, hj] using ih

theorem Store.get_insert_same {α : Type} (m : Store α) (k : Nat) (v dflt : α)
    (h : ∀ e ∈ m, e.1 ≠ k) : (Store.insert m k v).get k dflt = v := by
  induction m with
  | nil => simp [Store.insert, Store.get]
  | cons e m ih =>
    have hm : ∀ e ∈ m, e.1 ≠ k := fun x hx => h x (List.mem_cons_of_mem _ hx)
    unfold Store.insert
    split
    · simp [Store.get]
    · have he : e.1 ≠ k := h e (List.mem_cons_self ..)
      simpa [Store.get, he] using ih hm

theorem Store.get_insert_other {α : Type} (m : Store α) (k j : Nat) (v dflt : α) (h : j ≠ k) :
    (Store.insert m k v).get j dflt = m.get j dflt := by
  have hk : k ≠ j := fun hkj => h hkj.symm
  induction m with
  | nil => simp [Store.insert, Store.get, hk]
  | cons e m ih =>
    unfold Store.insert
    split
    · simp [Store.get, hk]
    · by_cases hj : e.1 = j
      · simp [Store.get, hj]
      · simpa [Store.get, hj] using ih

theorem Store.mem_erase_ne {α : Type} (m : Store α) (k : Nat) : ∀ e ∈ Store.erase m k, e.1 ≠ k := by
  intro e he
  simpa using (List.mem_filter.mp he).2

/-- A read after a write at the same number gives the value written. -/
@[simp] theorem Store.get_set_same {α : Type} [DecidableEq α] (m : Store α) (k : Nat) (v dflt : α) :
    (m.set k v dflt).get k dflt = v := by
  unfold Store.set
  split
  · next h => rw [h]; exact Store.get_erase_same m k dflt
  · exact Store.get_insert_same _ k v dflt (Store.mem_erase_ne m k)

/-- A write leaves every other number alone. -/
theorem Store.get_set_other {α : Type} [DecidableEq α] (m : Store α) (k j : Nat) (v dflt dflt' : α) (h : j ≠ k) :
    (m.set k v dflt).get j dflt' = m.get j dflt' := by
  unfold Store.set
  split
  · exact Store.get_erase_other m k j dflt' h
  · rw [Store.get_insert_other _ _ _ _ _ h, Store.get_erase_other m k j dflt' h]

theorem Store.wf_cons {α : Type} [DecidableEq α] (dflt : Nat → α) (e : Nat × α) (m : Store α) :
    Store.wf dflt (e :: m) = true ↔ e.2 ≠ dflt e.1 ∧ (∀ x ∈ m, e.1 < x.1) ∧ Store.wf dflt m = true := by
  simp [Store.wf, List.all_eq_true, and_assoc]

theorem Store.wf_filter {α : Type} [DecidableEq α] (dflt : Nat → α) (p : Nat × α → Bool) (m : Store α)
    (h : Store.wf dflt m = true) : Store.wf dflt (m.filter p) = true := by
  induction m with
  | nil => rfl
  | cons e m ih =>
    obtain ⟨h1, h2, h3⟩ := (Store.wf_cons dflt e m).mp h
    by_cases hp : p e
    · simp only [List.filter_cons_of_pos hp]
      exact (Store.wf_cons dflt e _).mpr ⟨h1, fun x hx => h2 x (List.mem_of_mem_filter hx), ih h3⟩
    · simpa only [List.filter_cons_of_neg hp] using ih h3

theorem Store.mem_insert {α : Type} (m : Store α) (k : Nat) (v : α) (x : Nat × α)
    (h : x ∈ Store.insert m k v) : x = (k, v) ∨ x ∈ m := by
  induction m with
  | nil => simpa [Store.insert] using h
  | cons e m ih =>
    unfold Store.insert at h
    split at h
    · simpa [or_assoc] using h
    · rcases List.mem_cons.mp h with h | h
      · exact Or.inr (h ▸ List.mem_cons_self ..)
      · rcases ih h with h | h
        · exact Or.inl h
        · exact Or.inr (List.mem_cons_of_mem _ h)

theorem Store.wf_insert {α : Type} [DecidableEq α] (dflt : Nat → α) (m : Store α) (k : Nat) (v : α)
    (h : Store.wf dflt m = true) (hk : ∀ e ∈ m, e.1 ≠ k) (hv : v ≠ dflt k) :
    Store.wf dflt (Store.insert m k v) = true := by
  induction m with
  | nil => simp [Store.insert, Store.wf, hv]
  | cons e m ih =>
    obtain ⟨h1, h2, h3⟩ := (Store.wf_cons dflt e m).mp h
    unfold Store.insert
    split
    · next hlt =>
      refine (Store.wf_cons dflt _ _).mpr ⟨hv, ?_, h⟩
      intro x hx
      rcases List.mem_cons.mp hx with hx | hx
      · exact hx ▸ hlt
      · exact lt_trans hlt (h2 x hx)
    · next hge =>
      have hm : ∀ x ∈ m, x.1 ≠ k := fun x hx => hk x (List.mem_cons_of_mem _ hx)
      refine (Store.wf_cons dflt _ _).mpr ⟨h1, ?_, ih h3 hm⟩
      intro x hx
      rcases Store.mem_insert m k v x hx with hx | hx
      · have : e.1 ≠ k := hk e (List.mem_cons_self ..)
        rw [hx]; show e.1 < k; omega
      · exact h2 x hx

/-- A write keeps the canonical form. -/
theorem Store.wf_set {α : Type} [DecidableEq α] (dflt : Nat → α) (m : Store α) (k : Nat) (v : α)
    (h : Store.wf dflt m = true) : Store.wf dflt (m.set k v (dflt k)) = true := by
  unfold Store.set
  split
  · exact Store.wf_filter dflt _ m h
  · next hv =>
    exact Store.wf_insert dflt _ k v (Store.wf_filter dflt _ m h) (Store.mem_erase_ne m k) hv

/-- Dropping a range keeps the canonical form. -/
theorem Store.wf_drop {α : Type} [DecidableEq α] (dflt : Nat → α) (m : Store α) (lo hi : Nat)
    (h : Store.wf dflt m = true) : Store.wf dflt (m.drop lo hi) = true :=
  Store.wf_filter dflt _ m h

end Sys2Proof.Machine
end

