-- ==== Sys2Proof/Laws/Regs.lean ====
section
/-!
SUPPORT. What the register operations do: a field reads back what was written to it, a write leaves every other word alone, and writes
change nothing but the register table.
-/

namespace Sys2Proof.Machine.State

@[simp] theorem rstOf_setReg (s : State) (a b : Nat) (v : Word) : (s.setReg a v).rstOf b = s.rstOf b := rfl

@[simp] theorem reg_setReg_same (s : State) (a : Nat) (v : Word) : (s.setReg a v).reg a = v := by
  simp [reg, setReg, rstOf]

theorem reg_setReg_other (s : State) (a b : Nat) (v : Word) (h : b ≠ a) : (s.setReg a v).reg b = s.reg b := by
  simp only [reg, rstOf_setReg]
  exact Store.get_set_other _ _ _ _ _ _ h

/-- A word outside the `k` words written keeps its value. -/
theorem reg_setWords_other (k : Nat) : ∀ (s : State) (a v b : Nat), (b < a ∨ a + 4 * k ≤ b ∨ b % 4 ≠ a % 4) →
    (s.setWords a v k).reg b = s.reg b := by
  induction k with
  | zero => intros; rfl
  | succ k ih =>
    intro s a v b h
    simp only [setWords]
    rw [ih, reg_setReg_other]
    · omega
    · omega

/-- The words written read back as the number written, word by word. -/
theorem words_setWords_same (k : Nat) : ∀ (s : State) (a v : Nat), (s.setWords a v k).words a k = v % 2 ^ (32 * k) := by
  induction k with
  | zero => intro s a v; simp [words, Nat.mod_one]
  | succ k ih =>
    intro s a v
    simp only [words, setWords]
    rw [ih, reg_setWords_other k _ _ _ _ (by omega), reg_setReg_same]
    have h : 2 ^ (32 * (k + 1)) = 2 ^ 32 * 2 ^ (32 * k) := by rw [← Nat.pow_add]; congr 1; omega
    rw [h, Nat.mod_mul]
    simp [BitVec.toNat_ofNat]

/-- Writing words changes nothing but the register table. -/
theorem setWords_eq (k : Nat) : ∀ (s : State) (a v : Nat), s.setWords a v k = { s with regs := (s.setWords a v k).regs } := by
  induction k with
  | zero => intros; rfl
  | succ k ih =>
    intro s a v
    simp only [setWords]
    rw [ih]
    rfl

/-- A field write changes nothing but the register table. -/
theorem wr_eq (s : State) (d : Nat) (f : Fld) (v n i : Nat) : s.wr d f v n i = { s with regs := (s.wr d f v n i).regs } :=
  setWords_eq _ _ _ _

/-- A field reads back the low bits of what was written to it. -/
theorem rd_wr_same (s : State) (d : Nat) (f : Fld) (v n i : Nat) : (s.wr d f v n i).rd d f n i = v % 2 ^ f.w := by
  simp only [rd, wr]
  rw [words_setWords_same]
  generalize s.words (f.addr d n i) f.nw = x
  have hw : f.lo % 32 + f.w ≤ 32 * f.nw := by unfold Fld.nw; omega
  generalize f.lo % 32 = l at *
  obtain ⟨r, hr⟩ := Nat.le.dest hw
  have hl : 0 < 2 ^ l := Nat.two_pow_pos l
  have e0 : 2 ^ (32 * f.nw) = 2 ^ l * (2 ^ f.w * 2 ^ r) := by rw [← hr, Nat.pow_add, Nat.pow_add, Nat.mul_assoc]
  have e : x / 2 ^ (l + f.w) * 2 ^ (l + f.w) + v % 2 ^ f.w * 2 ^ l + x % 2 ^ l =
      x % 2 ^ l + 2 ^ l * (v % 2 ^ f.w + 2 ^ f.w * (x / 2 ^ (l + f.w))) := by
    rw [Nat.pow_add]; ring
  rw [e0, Nat.mod_mul_right_div_self, Nat.mod_mul_right_mod, e, Nat.add_mul_div_left _ _ hl, Nat.div_eq_of_lt (Nat.mod_lt _ hl),
    Nat.zero_add, Nat.add_mul_mod_self_left, Nat.mod_mod]

/-- A register word outside a field's words keeps its value. -/
theorem reg_wr_other (s : State) (d : Nat) (f : Fld) (v n i b : Nat)
    (h : b < f.addr d n i ∨ f.addr d n i + 4 * f.nw ≤ b ∨ b % 4 ≠ f.addr d n i % 4) : (s.wr d f v n i).reg b = s.reg b :=
  reg_setWords_other _ _ _ _ _ h

/-- Words read the same where every one of them does. -/
theorem words_congr (k : Nat) : ∀ (s t : State) (a : Nat), (∀ j < k, t.reg (a + 4 * j) = s.reg (a + 4 * j)) → t.words a k = s.words a k := by
  induction k with
  | zero => intros; rfl
  | succ k ih =>
    intro s t a h
    have h0 := h 0 (by omega)
    have hk : t.words (a + 4) k = s.words (a + 4) k := ih s t (a + 4) (fun j hj => by
      have := h (j + 1) (by omega)
      rwa [show a + 4 + 4 * j = a + 4 * (j + 1) by omega])
    simp only [words]
    rw [hk]
    simp only [Nat.mul_zero, Nat.add_zero] at h0
    rw [h0]

/-- A field of other words keeps its value. -/
theorem rd_wr_other (s : State) (d e : Nat) (f g : Fld) (v n i m j : Nat)
    (h : g.addr e m j + 4 * g.nw ≤ f.addr d n i ∨ f.addr d n i + 4 * f.nw ≤ g.addr e m j) :
    (s.wr d f v n i).rd e g m j = s.rd e g m j := by
  simp only [rd]
  rw [words_congr g.nw s]
  intro q hq
  apply reg_wr_other
  omega

theorem words_lt (k : Nat) : ∀ (s : State) (a : Nat), s.words a k < 2 ^ (32 * k) := by
  induction k with
  | zero => intro s a; simp [words]
  | succ k ih =>
    intro s a
    have h1 := ih s (a + 4)
    have h2 := (s.reg a).isLt
    have h : 2 ^ (32 * (k + 1)) = 2 ^ 32 * 2 ^ (32 * k) := by rw [← Nat.pow_add]; congr 1; omega
    simp only [words]
    rw [h]
    have : 2 ^ 32 * (s.words (a + 4) k + 1) ≤ 2 ^ 32 * 2 ^ (32 * k) := Nat.mul_le_mul_left _ h1
    omega

/-- Another field of the same words keeps its value. -/
theorem rd_wr_bits (s : State) (d e : Nat) (f g : Fld) (v n i m j : Nat) (ha : g.addr e m j = f.addr d n i) (hn : g.nw = f.nw)
    (hd : g.lo % 32 + g.w ≤ f.lo % 32 ∨ f.lo % 32 + f.w ≤ g.lo % 32) : (s.wr d f v n i).rd e g m j = s.rd e g m j := by
  simp only [rd, wr]
  rw [ha, hn, words_setWords_same]
  have hx := words_lt f.nw s (f.addr d n i)
  generalize s.words (f.addr d n i) f.nw = x at *
  have hw : f.lo % 32 + f.w ≤ 32 * f.nw := by unfold Fld.nw; omega
  have hg : g.lo % 32 + g.w ≤ 32 * f.nw := by rw [← hn]; unfold Fld.nw; omega
  generalize f.lo % 32 = l at *
  generalize g.lo % 32 = k at *
  generalize 32 * f.nw = N at *
  have hl : 0 < 2 ^ l := Nat.two_pow_pos l
  rcases hd with hd | hd
  · obtain ⟨r, rfl⟩ := Nat.le.dest hd
    have e : x / 2 ^ (k + g.w + r + f.w) * 2 ^ (k + g.w + r + f.w) + v % 2 ^ f.w * 2 ^ (k + g.w + r) + x % 2 ^ (k + g.w + r) =
        x % 2 ^ (k + g.w + r) +
          2 ^ k * (2 ^ g.w * (2 ^ r * (v % 2 ^ f.w + 2 ^ f.w * (x / 2 ^ (k + g.w + r + f.w))))) := by
      simp only [Nat.pow_add]; ring
    obtain ⟨q, hq⟩ := Nat.le.dest hg
    rw [e, ← hq, show 2 ^ (k + g.w + q) = 2 ^ k * (2 ^ g.w * 2 ^ q) by rw [Nat.pow_add, Nat.pow_add, Nat.mul_assoc],
      Nat.mod_mul_right_div_self, Nat.mod_mul_right_mod, Nat.add_mul_div_left _ _ (Nat.two_pow_pos k), Nat.add_mul_mod_self_left,
      show 2 ^ (k + g.w + r) = 2 ^ k * (2 ^ g.w * 2 ^ r) by rw [Nat.pow_add, Nat.pow_add, Nat.mul_assoc],
      Nat.mod_mul_right_div_self, Nat.mod_mul_right_mod]
  · obtain ⟨r, rfl⟩ := Nat.le.dest hd
    have hlow : v % 2 ^ f.w * 2 ^ l + x % 2 ^ l < 2 ^ (l + f.w) := by
      have h1 := Nat.mod_lt x hl
      have h2 := Nat.mul_le_mul_right (2 ^ l) (Nat.succ_le_of_lt (Nat.mod_lt v (Nat.two_pow_pos f.w)))
      rw [Nat.succ_mul] at h2
      rw [Nat.pow_add, Nat.mul_comm (2 ^ l)]
      omega
    have e : x / 2 ^ (l + f.w) * 2 ^ (l + f.w) + v % 2 ^ f.w * 2 ^ l + x % 2 ^ l =
        (v % 2 ^ f.w * 2 ^ l + x % 2 ^ l) + 2 ^ (l + f.w) * (x / 2 ^ (l + f.w)) := by ring
    have hy : (v % 2 ^ f.w * 2 ^ l + x % 2 ^ l) + 2 ^ (l + f.w) * (x / 2 ^ (l + f.w)) < 2 ^ N := by
      have h3 : x / 2 ^ (l + f.w) < 2 ^ (N - (l + f.w)) := by
        rw [Nat.div_lt_iff_lt_mul (Nat.two_pow_pos _), ← Nat.pow_add]
        rwa [Nat.sub_add_cancel hw]
      have h4 := Nat.mul_le_mul_left (2 ^ (l + f.w)) (Nat.succ_le_of_lt h3)
      rw [← Nat.pow_add, Nat.add_sub_cancel' hw, Nat.mul_succ] at h4
      omega
    rw [e, Nat.mod_eq_of_lt hy, Nat.pow_add 2 (l + f.w) r, ← Nat.div_div_eq_div_mul, ← Nat.div_div_eq_div_mul,
      Nat.add_mul_div_left _ _ (Nat.two_pow_pos _), Nat.div_eq_of_lt hlow, Nat.zero_add]

end Sys2Proof.Machine.State
end

