-- ==== Sys2Proof/Laws/Fields.lean ====
section
/-!
SUPPORT. Register fields do not see the updates of the records, and the records do not see the writes of register fields.
-/

namespace Sys2Proof.Machine.State

/-- Reading a field depends on the register table, the member and its grade alone. -/
theorem rd_congr {s t : State} (h1 : t.regs = s.regs) (h2 : t.dies = s.dies) (h3 : t.grade = s.grade) (d : Nat) (f : Fld) (n i : Nat) :
    t.rd d f n i = s.rd d f n i := by
  have h : ∀ a, t.reg a = s.reg a := fun a => by simp only [reg, rstOf, h1, h2, h3]
  simp only [rd]
  rw [words_congr f.nw s t _ (fun j _ => h _)]

/-- Writing a field changes the register table alone. -/
theorem wr_frame (s : State) (d : Nat) (f : Fld) (v n i : Nat) : ∃ r, s.wr d f v n i = { s with regs := r } := ⟨_, wr_eq s d f v n i⟩

@[simp] theorem dies_wr (s : State) (d : Nat) (g : Fld) (v n i : Nat) : (s.wr d g v n i).dies = s.dies := by rw [wr_eq]
@[simp] theorem grade_wr (s : State) (d : Nat) (g : Fld) (v n i : Nat) : (s.wr d g v n i).grade = s.grade := by rw [wr_eq]
@[simp] theorem now_wr (s : State) (d : Nat) (g : Fld) (v n i : Nat) : (s.wr d g v n i).now = s.now := by rw [wr_eq]
@[simp] theorem pt_wr (s : State) (d : Nat) (g : Fld) (v n i : Nat) : (s.wr d g v n i).pt = s.pt := by rw [wr_eq]
@[simp] theorem seed_wr (s : State) (d : Nat) (g : Fld) (v n i : Nat) : (s.wr d g v n i).seed = s.seed := by rw [wr_eq]
@[simp] theorem readData_wr (s : State) (d : Nat) (g : Fld) (v n i : Nat) : (s.wr d g v n i).readData = s.readData := by rw [wr_eq]
@[simp] theorem pending_wr (s : State) (d : Nat) (g : Fld) (v n i : Nat) : (s.wr d g v n i).pending = s.pending := by rw [wr_eq]
@[simp] theorem die_wr (s : State) (d : Nat) (g : Fld) (v n i : Nat) : (s.wr d g v n i).die = s.die := by rw [wr_eq]
@[simp] theorem inbox_wr (s : State) (d : Nat) (g : Fld) (v n i : Nat) : (s.wr d g v n i).inbox = s.inbox := by rw [wr_eq]
@[simp] theorem irq_wr (s : State) (d : Nat) (g : Fld) (v n i : Nat) : (s.wr d g v n i).irq = s.irq := by rw [wr_eq]
@[simp] theorem flash_wr (s : State) (d : Nat) (g : Fld) (v n i : Nat) : (s.wr d g v n i).flash = s.flash := by rw [wr_eq]
@[simp] theorem dram_wr (s : State) (d : Nat) (g : Fld) (v n i : Nat) : (s.wr d g v n i).dram = s.dram := by rw [wr_eq]
@[simp] theorem progmem_wr (s : State) (d : Nat) (g : Fld) (v n i : Nat) : (s.wr d g v n i).progmem = s.progmem := by rw [wr_eq]
@[simp] theorem hostmem_wr (s : State) (d : Nat) (g : Fld) (v n i : Nat) : (s.wr d g v n i).hostmem = s.hostmem := by rw [wr_eq]

@[simp] theorem rd_pass (s : State) (k : Nat) (ed : Nat) (g : Fld) (p q : Nat) : (s.pass k).rd ed g p q = s.rd ed g p q := rd_congr (by rfl) (by rfl) (by rfl) ed g p q
@[simp] theorem rd_drew (s : State) (ed : Nat) (g : Fld) (p q : Nat) : (s.drew).rd ed g p q = s.rd ed g p q := rd_congr (by rfl) (by rfl) (by rfl) ed g p q
@[simp] theorem rd_answer (s : State) (v : Nat) (ed : Nat) (g : Fld) (p q : Nat) : (s.answer v).rd ed g p q = s.rd ed g p q := rd_congr (by rfl) (by rfl) (by rfl) ed g p q
@[simp] theorem rd_setIrq (s : State) (x h l : Nat) (on : Bool) (ed : Nat) (g : Fld) (p q : Nat) : (s.setIrq x h l on).rd ed g p q = s.rd ed g p q := rd_congr (by rfl) (by rfl) (by rfl) ed g p q
@[simp] theorem rd_send (s : State) (x : Nat) (y : Msg) (ed : Nat) (g : Fld) (p q : Nat) : (s.send x y).rd ed g p q = s.rd ed g p q := rd_congr (by rfl) (by rfl) (by rfl) ed g p q

@[simp] theorem rd_modDie (s : State) (d : Nat) (f : Die → Die) (ed : Nat) (g : Fld) (p q : Nat) : (s.modDie d f).rd ed g p q = s.rd ed g p q := rd_congr (by rfl) (by rfl) (by rfl) ed g p q
@[simp] theorem rd_modLeg (s : State) (d n j : Nat) (f : Leg → Leg) (ed : Nat) (g : Fld) (p q : Nat) : (s.modLeg d n j f).rd ed g p q = s.rd ed g p q := rd_congr (by rfl) (by rfl) (by rfl) ed g p q
@[simp] theorem rd_modPwm (s : State) (d n : Nat) (f : PwmAx → PwmAx) (ed : Nat) (g : Fld) (p q : Nat) : (s.modPwm d n f).rd ed g p q = s.rd ed g p q := rd_congr (by rfl) (by rfl) (by rfl) ed g p q
@[simp] theorem rd_modPair (s : State) (d : Nat) (f : PairRec → PairRec) (ed : Nat) (g : Fld) (p q : Nat) : (s.modPair d f).rd ed g p q = s.rd ed g p q := rd_congr (by rfl) (by rfl) (by rfl) ed g p q
@[simp] theorem rd_modBall (s : State) (k n : Nat) (f : BallRec → BallRec) (ed : Nat) (g : Fld) (p q : Nat) : (s.modBall k n f).rd ed g p q = s.rd ed g p q := rd_congr (by rfl) (by rfl) (by rfl) ed g p q
@[simp] theorem rd_modFwd (s : State) (d : Nat) (f : List Fwd → List Fwd) (ed : Nat) (g : Fld) (p q : Nat) : (s.modFwd d f).rd ed g p q = s.rd ed g p q := rd_congr (by rfl) (by rfl) (by rfl) ed g p q
@[simp] theorem rd_modConv (s : State) (d c : Nat) (f : Conv → Conv) (ed : Nat) (g : Fld) (p q : Nat) : (s.modConv d c f).rd ed g p q = s.rd ed g p q := rd_congr (by rfl) (by rfl) (by rfl) ed g p q
@[simp] theorem rd_modExc (s : State) (d n : Nat) (f : ExcAx → ExcAx) (ed : Nat) (g : Fld) (p q : Nat) : (s.modExc d n f).rd ed g p q = s.rd ed g p q := rd_congr (by rfl) (by rfl) (by rfl) ed g p q
@[simp] theorem rd_modTrk (s : State) (d n : Nat) (f : TrkAx → TrkAx) (ed : Nat) (g : Fld) (p q : Nat) : (s.modTrk d n f).rd ed g p q = s.rd ed g p q := rd_congr (by rfl) (by rfl) (by rfl) ed g p q
@[simp] theorem rd_modSlot (s : State) (d n t : Nat) (f : TblSlot → TblSlot) (ed : Nat) (g : Fld) (p q : Nat) : (s.modSlot d n t f).rd ed g p q = s.rd ed g p q := rd_congr (by rfl) (by rfl) (by rfl) ed g p q
@[simp] theorem rd_modTcmd (s : State) (d : Nat) (f : TblCmd → TblCmd) (ed : Nat) (g : Fld) (p q : Nat) : (s.modTcmd d f).rd ed g p q = s.rd ed g p q := rd_congr (by rfl) (by rfl) (by rfl) ed g p q
@[simp] theorem rd_modEntry (s : State) (d k : Nat) (f : BitVec 16 → BitVec 16) (ed : Nat) (g : Fld) (p q : Nat) : (s.modEntry d k f).rd ed g p q = s.rd ed g p q := rd_congr (by rfl) (by rfl) (by rfl) ed g p q
@[simp] theorem rd_modEnc (s : State) (d n : Nat) (f : EncAx → EncAx) (ed : Nat) (g : Fld) (p q : Nat) : (s.modEnc d n f).rd ed g p q = s.rd ed g p q := rd_congr (by rfl) (by rfl) (by rfl) ed g p q
@[simp] theorem rd_modFil (s : State) (d c : Nat) (f : FilSlot → FilSlot) (ed : Nat) (g : Fld) (p q : Nat) : (s.modFil d c f).rd ed g p q = s.rd ed g p q := rd_congr (by rfl) (by rfl) (by rfl) ed g p q
@[simp] theorem rd_modDet (s : State) (d i : Nat) (f : DetRec → DetRec) (ed : Nat) (g : Fld) (p q : Nat) : (s.modDet d i f).rd ed g p q = s.rd ed g p q := rd_congr (by rfl) (by rfl) (by rfl) ed g p q
@[simp] theorem rd_modLpt (s : State) (d : Nat) (f : LptRec → LptRec) (ed : Nat) (g : Fld) (p q : Nat) : (s.modLpt d f).rd ed g p q = s.rd ed g p q := rd_congr (by rfl) (by rfl) (by rfl) ed g p q
@[simp] theorem rd_modSync (s : State) (d : Nat) (f : Option Nat → Option Nat) (ed : Nat) (g : Fld) (p q : Nat) : (s.modSync d f).rd ed g p q = s.rd ed g p q := rd_congr (by rfl) (by rfl) (by rfl) ed g p q
@[simp] theorem rd_modPm (s : State) (d w : Nat) (f : Word → Word) (ed : Nat) (g : Fld) (p q : Nat) : (s.modPm d w f).rd ed g p q = s.rd ed g p q := rd_congr (by rfl) (by rfl) (by rfl) ed g p q
@[simp] theorem rd_modTwin (s : State) (d w : Nat) (f : Word → Word) (ed : Nat) (g : Fld) (p q : Nat) : (s.modTwin d w f).rd ed g p q = s.rd ed g p q := rd_congr (by rfl) (by rfl) (by rfl) ed g p q
@[simp] theorem rd_modLaw (s : State) (d n : Nat) (f : LawAx → LawAx) (ed : Nat) (g : Fld) (p q : Nat) : (s.modLaw d n f).rd ed g p q = s.rd ed g p q := rd_congr (by rfl) (by rfl) (by rfl) ed g p q
@[simp] theorem rd_modLawDie (s : State) (d : Nat) (f : LawDie → LawDie) (ed : Nat) (g : Fld) (p q : Nat) : (s.modLawDie d f).rd ed g p q = s.rd ed g p q := rd_congr (by rfl) (by rfl) (by rfl) ed g p q
@[simp] theorem rd_modChan (s : State) (d c : Nat) (f : ChanRec → ChanRec) (ed : Nat) (g : Fld) (p q : Nat) : (s.modChan d c f).rd ed g p q = s.rd ed g p q := rd_congr (by rfl) (by rfl) (by rfl) ed g p q
@[simp] theorem rd_modTune (s : State) (d n : Nat) (f : TuneAx → TuneAx) (ed : Nat) (g : Fld) (p q : Nat) : (s.modTune d n f).rd ed g p q = s.rd ed g p q := rd_congr (by rfl) (by rfl) (by rfl) ed g p q
@[simp] theorem rd_modTrc (s : State) (d : Nat) (f : TrcDie → TrcDie) (ed : Nat) (g : Fld) (p q : Nat) : (s.modTrc d f).rd ed g p q = s.rd ed g p q := rd_congr (by rfl) (by rfl) (by rfl) ed g p q
@[simp] theorem rd_modTrcByte (s : State) (d o : Nat) (f : Byte → Byte) (ed : Nat) (g : Fld) (p q : Nat) : (s.modTrcByte d o f).rd ed g p q = s.rd ed g p q := rd_congr (by rfl) (by rfl) (by rfl) ed g p q
@[simp] theorem rd_modRing (s : State) (d r : Nat) (f : RingRec → RingRec) (ed : Nat) (g : Fld) (p q : Nat) : (s.modRing d r f).rd ed g p q = s.rd ed g p q := rd_congr (by rfl) (by rfl) (by rfl) ed g p q
@[simp] theorem rd_modMsix (s : State) (d : Nat) (f : MsixRec → MsixRec) (ed : Nat) (g : Fld) (p q : Nat) : (s.modMsix d f).rd ed g p q = s.rd ed g p q := rd_congr (by rfl) (by rfl) (by rfl) ed g p q
@[simp] theorem rd_modFwq (s : State) (d : Nat) (f : List FwEnt → List FwEnt) (ed : Nat) (g : Fld) (p q : Nat) : (s.modFwq d f).rd ed g p q = s.rd ed g p q := rd_congr (by rfl) (by rfl) (by rfl) ed g p q
@[simp] theorem rd_modTrm (s : State) (d : Nat) (f : TrmDie → TrmDie) (ed : Nat) (g : Fld) (p q : Nat) : (s.modTrm d f).rd ed g p q = s.rd ed g p q := rd_congr (by rfl) (by rfl) (by rfl) ed g p q
@[simp] theorem rd_modPort (s : State) (d : Nat) (f : PortRec → PortRec) (ed : Nat) (g : Fld) (p q : Nat) : (s.modPort d f).rd ed g p q = s.rd ed g p q := rd_congr (by rfl) (by rfl) (by rfl) ed g p q
@[simp] theorem rd_modStk (s : State) (d : Nat) (f : StkDie → StkDie) (ed : Nat) (g : Fld) (p q : Nat) : (s.modStk d f).rd ed g p q = s.rd ed g p q := rd_congr (by rfl) (by rfl) (by rfl) ed g p q
@[simp] theorem rd_modNsr (s : State) (c k : Nat) (f : NsRec → NsRec) (ed : Nat) (g : Fld) (p q : Nat) : (s.modNsr c k f).rd ed g p q = s.rd ed g p q := rd_congr (by rfl) (by rfl) (by rfl) ed g p q
@[simp] theorem rd_modMem (s : State) (d : Nat) (f : MemRec → MemRec) (ed : Nat) (g : Fld) (p q : Nat) : (s.modMem d f).rd ed g p q = s.rd ed g p q := rd_congr (by rfl) (by rfl) (by rfl) ed g p q
@[simp] theorem rd_modLedq (s : State) (d : Nat) (f : List LedgEnt → List LedgEnt) (ed : Nat) (g : Fld) (p q : Nat) : (s.modLedq d f).rd ed g p q = s.rd ed g p q := rd_congr (by rfl) (by rfl) (by rfl) ed g p q
@[simp] theorem rd_modNvf (s : State) (d : Nat) (f : Option NvfRun → Option NvfRun) (ed : Nat) (g : Fld) (p q : Nat) : (s.modNvf d f).rd ed g p q = s.rd ed g p q := rd_congr (by rfl) (by rfl) (by rfl) ed g p q
@[simp] theorem rd_modMark (s : State) (d a k : Nat) (f : Marker → Marker) (ed : Nat) (g : Fld) (p q : Nat) : (s.modMark d a k f).rd ed g p q = s.rd ed g p q := rd_congr (by rfl) (by rfl) (by rfl) ed g p q
@[simp] theorem rd_modSignq (s : State) (d : Nat) (f : List SignReq → List SignReq) (ed : Nat) (g : Fld) (p q : Nat) : (s.modSignq d f).rd ed g p q = s.rd ed g p q := rd_congr (by rfl) (by rfl) (by rfl) ed g p q
@[simp] theorem rd_modRepByte (s : State) (d o : Nat) (f : Byte → Byte) (ed : Nat) (g : Fld) (p q : Nat) : (s.modRepByte d o f).rd ed g p q = s.rd ed g p q := rd_congr (by rfl) (by rfl) (by rfl) ed g p q
@[simp] theorem rd_modGov (s : State) (d : Nat) (f : PwrDie → PwrDie) (ed : Nat) (g : Fld) (p q : Nat) : (s.modGov d f).rd ed g p q = s.rd ed g p q := rd_congr (by rfl) (by rfl) (by rfl) ed g p q
@[simp] theorem rd_modRails (s : State) (d : Nat) (f : RailRec → RailRec) (ed : Nat) (g : Fld) (p q : Nat) : (s.modRails d f).rd ed g p q = s.rd ed g p q := rd_congr (by rfl) (by rfl) (by rfl) ed g p q
@[simp] theorem rd_modSrc (s : State) (d k : Nat) (f : SrcRec → SrcRec) (ed : Nat) (g : Fld) (p q : Nat) : (s.modSrc d k f).rd ed g p q = s.rd ed g p q := rd_congr (by rfl) (by rfl) (by rfl) ed g p q
@[simp] theorem rd_modFlt (s : State) (d : Nat) (f : FltDie → FltDie) (ed : Nat) (g : Fld) (p q : Nat) : (s.modFlt d f).rd ed g p q = s.rd ed g p q := rd_congr (by rfl) (by rfl) (by rfl) ed g p q
@[simp] theorem rd_modHart (s : State) (d h : Nat) (f : HartRec → HartRec) (ed : Nat) (g : Fld) (p q : Nat) : (s.modHart d h f).rd ed g p q = s.rd ed g p q := rd_congr (by rfl) (by rfl) (by rfl) ed g p q
@[simp] theorem rd_modTcm (s : State) (d h o : Nat) (f : Byte → Byte) (ed : Nat) (g : Fld) (p q : Nat) : (s.modTcm d h o f).rd ed g p q = s.rd ed g p q := rd_congr (by rfl) (by rfl) (by rfl) ed g p q
@[simp] theorem rd_modEpo (s : State) (d : Nat) (f : EpoDie → EpoDie) (ed : Nat) (g : Fld) (p q : Nat) : (s.modEpo d f).rd ed g p q = s.rd ed g p q := rd_congr (by rfl) (by rfl) (by rfl) ed g p q

@[simp] theorem getDie_wr (s : State) (ed : Nat) (g : Fld) (v p q : Nat) (d : Nat) : (s.wr ed g v p q).getDie d = s.getDie d := by rw [wr_eq]; rfl
@[simp] theorem getLeg_wr (s : State) (ed : Nat) (g : Fld) (v p q : Nat) (d n j : Nat) : (s.wr ed g v p q).getLeg d n j = s.getLeg d n j := by rw [wr_eq]; rfl
@[simp] theorem getPwm_wr (s : State) (ed : Nat) (g : Fld) (v p q : Nat) (d n : Nat) : (s.wr ed g v p q).getPwm d n = s.getPwm d n := by rw [wr_eq]; rfl
@[simp] theorem getPair_wr (s : State) (ed : Nat) (g : Fld) (v p q : Nat) (d : Nat) : (s.wr ed g v p q).getPair d = s.getPair d := by rw [wr_eq]; rfl
@[simp] theorem getBall_wr (s : State) (ed : Nat) (g : Fld) (v p q : Nat) (k n : Nat) : (s.wr ed g v p q).getBall k n = s.getBall k n := by rw [wr_eq]; rfl
@[simp] theorem getFwd_wr (s : State) (ed : Nat) (g : Fld) (v p q : Nat) (d : Nat) : (s.wr ed g v p q).getFwd d = s.getFwd d := by rw [wr_eq]; rfl
@[simp] theorem getConv_wr (s : State) (ed : Nat) (g : Fld) (v p q : Nat) (d c : Nat) : (s.wr ed g v p q).getConv d c = s.getConv d c := by rw [wr_eq]; rfl
@[simp] theorem getExc_wr (s : State) (ed : Nat) (g : Fld) (v p q : Nat) (d n : Nat) : (s.wr ed g v p q).getExc d n = s.getExc d n := by rw [wr_eq]; rfl
@[simp] theorem getTrk_wr (s : State) (ed : Nat) (g : Fld) (v p q : Nat) (d n : Nat) : (s.wr ed g v p q).getTrk d n = s.getTrk d n := by rw [wr_eq]; rfl
@[simp] theorem getSlot_wr (s : State) (ed : Nat) (g : Fld) (v p q : Nat) (d n t : Nat) : (s.wr ed g v p q).getSlot d n t = s.getSlot d n t := by rw [wr_eq]; rfl
@[simp] theorem getTcmd_wr (s : State) (ed : Nat) (g : Fld) (v p q : Nat) (d : Nat) : (s.wr ed g v p q).getTcmd d = s.getTcmd d := by rw [wr_eq]; rfl
@[simp] theorem getEntry_wr (s : State) (ed : Nat) (g : Fld) (v p q : Nat) (d k : Nat) : (s.wr ed g v p q).getEntry d k = s.getEntry d k := by rw [wr_eq]; rfl
@[simp] theorem getEnc_wr (s : State) (ed : Nat) (g : Fld) (v p q : Nat) (d n : Nat) : (s.wr ed g v p q).getEnc d n = s.getEnc d n := by rw [wr_eq]; rfl
@[simp] theorem getFil_wr (s : State) (ed : Nat) (g : Fld) (v p q : Nat) (d c : Nat) : (s.wr ed g v p q).getFil d c = s.getFil d c := by rw [wr_eq]; rfl
@[simp] theorem getDet_wr (s : State) (ed : Nat) (g : Fld) (v p q : Nat) (d i : Nat) : (s.wr ed g v p q).getDet d i = s.getDet d i := by rw [wr_eq]; rfl
@[simp] theorem getLpt_wr (s : State) (ed : Nat) (g : Fld) (v p q : Nat) (d : Nat) : (s.wr ed g v p q).getLpt d = s.getLpt d := by rw [wr_eq]; rfl
@[simp] theorem getSync_wr (s : State) (ed : Nat) (g : Fld) (v p q : Nat) (d : Nat) : (s.wr ed g v p q).getSync d = s.getSync d := by rw [wr_eq]; rfl
@[simp] theorem getPm_wr (s : State) (ed : Nat) (g : Fld) (v p q : Nat) (d w : Nat) : (s.wr ed g v p q).getPm d w = s.getPm d w := by rw [wr_eq]; rfl
@[simp] theorem getTwin_wr (s : State) (ed : Nat) (g : Fld) (v p q : Nat) (d w : Nat) : (s.wr ed g v p q).getTwin d w = s.getTwin d w := by rw [wr_eq]; rfl
@[simp] theorem getLaw_wr (s : State) (ed : Nat) (g : Fld) (v p q : Nat) (d n : Nat) : (s.wr ed g v p q).getLaw d n = s.getLaw d n := by rw [wr_eq]; rfl
@[simp] theorem getLawDie_wr (s : State) (ed : Nat) (g : Fld) (v p q : Nat) (d : Nat) : (s.wr ed g v p q).getLawDie d = s.getLawDie d := by rw [wr_eq]; rfl
@[simp] theorem getChan_wr (s : State) (ed : Nat) (g : Fld) (v p q : Nat) (d c : Nat) : (s.wr ed g v p q).getChan d c = s.getChan d c := by rw [wr_eq]; rfl
@[simp] theorem getTune_wr (s : State) (ed : Nat) (g : Fld) (v p q : Nat) (d n : Nat) : (s.wr ed g v p q).getTune d n = s.getTune d n := by rw [wr_eq]; rfl
@[simp] theorem getTrc_wr (s : State) (ed : Nat) (g : Fld) (v p q : Nat) (d : Nat) : (s.wr ed g v p q).getTrc d = s.getTrc d := by rw [wr_eq]; rfl
@[simp] theorem getTrcByte_wr (s : State) (ed : Nat) (g : Fld) (v p q : Nat) (d o : Nat) : (s.wr ed g v p q).getTrcByte d o = s.getTrcByte d o := by rw [wr_eq]; rfl
@[simp] theorem getRing_wr (s : State) (ed : Nat) (g : Fld) (v p q : Nat) (d r : Nat) : (s.wr ed g v p q).getRing d r = s.getRing d r := by rw [wr_eq]; rfl
@[simp] theorem getMsix_wr (s : State) (ed : Nat) (g : Fld) (v p q : Nat) (d : Nat) : (s.wr ed g v p q).getMsix d = s.getMsix d := by rw [wr_eq]; rfl
@[simp] theorem getFwq_wr (s : State) (ed : Nat) (g : Fld) (v p q : Nat) (d : Nat) : (s.wr ed g v p q).getFwq d = s.getFwq d := by rw [wr_eq]; rfl
@[simp] theorem getTrm_wr (s : State) (ed : Nat) (g : Fld) (v p q : Nat) (d : Nat) : (s.wr ed g v p q).getTrm d = s.getTrm d := by rw [wr_eq]; rfl
@[simp] theorem getPort_wr (s : State) (ed : Nat) (g : Fld) (v p q : Nat) (d : Nat) : (s.wr ed g v p q).getPort d = s.getPort d := by rw [wr_eq]; rfl
@[simp] theorem getStk_wr (s : State) (ed : Nat) (g : Fld) (v p q : Nat) (d : Nat) : (s.wr ed g v p q).getStk d = s.getStk d := by rw [wr_eq]; rfl
@[simp] theorem getNsr_wr (s : State) (ed : Nat) (g : Fld) (v p q : Nat) (c k : Nat) : (s.wr ed g v p q).getNsr c k = s.getNsr c k := by rw [wr_eq]; rfl
@[simp] theorem getMem_wr (s : State) (ed : Nat) (g : Fld) (v p q : Nat) (d : Nat) : (s.wr ed g v p q).getMem d = s.getMem d := by rw [wr_eq]; rfl
@[simp] theorem getLedq_wr (s : State) (ed : Nat) (g : Fld) (v p q : Nat) (d : Nat) : (s.wr ed g v p q).getLedq d = s.getLedq d := by rw [wr_eq]; rfl
@[simp] theorem getNvf_wr (s : State) (ed : Nat) (g : Fld) (v p q : Nat) (d : Nat) : (s.wr ed g v p q).getNvf d = s.getNvf d := by rw [wr_eq]; rfl
@[simp] theorem getMark_wr (s : State) (ed : Nat) (g : Fld) (v p q : Nat) (d a k : Nat) : (s.wr ed g v p q).getMark d a k = s.getMark d a k := by rw [wr_eq]; rfl
@[simp] theorem getSignq_wr (s : State) (ed : Nat) (g : Fld) (v p q : Nat) (d : Nat) : (s.wr ed g v p q).getSignq d = s.getSignq d := by rw [wr_eq]; rfl
@[simp] theorem getRepByte_wr (s : State) (ed : Nat) (g : Fld) (v p q : Nat) (d o : Nat) : (s.wr ed g v p q).getRepByte d o = s.getRepByte d o := by rw [wr_eq]; rfl
@[simp] theorem getGov_wr (s : State) (ed : Nat) (g : Fld) (v p q : Nat) (d : Nat) : (s.wr ed g v p q).getGov d = s.getGov d := by rw [wr_eq]; rfl
@[simp] theorem getRails_wr (s : State) (ed : Nat) (g : Fld) (v p q : Nat) (d : Nat) : (s.wr ed g v p q).getRails d = s.getRails d := by rw [wr_eq]; rfl
@[simp] theorem getSrc_wr (s : State) (ed : Nat) (g : Fld) (v p q : Nat) (d k : Nat) : (s.wr ed g v p q).getSrc d k = s.getSrc d k := by rw [wr_eq]; rfl
@[simp] theorem getFlt_wr (s : State) (ed : Nat) (g : Fld) (v p q : Nat) (d : Nat) : (s.wr ed g v p q).getFlt d = s.getFlt d := by rw [wr_eq]; rfl
@[simp] theorem getHart_wr (s : State) (ed : Nat) (g : Fld) (v p q : Nat) (d h : Nat) : (s.wr ed g v p q).getHart d h = s.getHart d h := by rw [wr_eq]; rfl
@[simp] theorem getTcm_wr (s : State) (ed : Nat) (g : Fld) (v p q : Nat) (d h o : Nat) : (s.wr ed g v p q).getTcm d h o = s.getTcm d h o := by rw [wr_eq]; rfl
@[simp] theorem getEpo_wr (s : State) (ed : Nat) (g : Fld) (v p q : Nat) (d : Nat) : (s.wr ed g v p q).getEpo d = s.getEpo d := by rw [wr_eq]; rfl

@[simp] theorem ptD_wr (s : State) (e : Nat) (g : Fld) (v p q d : Nat) : (s.wr e g v p q).ptD d = s.ptD d := by simp [ptD]
/-- Latching words changes the latches alone. -/
theorem latchWords_frame (k : Nat) : ∀ (s : State) (a : Nat), ∃ l, s.latchWords a k = { s with latch := l } := by
  induction k with
  | zero => exact fun s _ => ⟨s.latch, rfl⟩
  | succ k ih => intro s a; obtain ⟨l, h⟩ := ih { s with latch := s.latch.set a (s.reg a) 0 } (a + 4); exact ⟨l, h⟩

@[simp] theorem reg_latchWords (s : State) (a k b : Nat) : (s.latchWords a k).reg b = s.reg b := by
  obtain ⟨l, h⟩ := latchWords_frame k s a
  rw [h]; rfl

end Sys2Proof.Machine.State
end

