-- ==== Sys2Proof/Laws/State.lean ====
section
/-!
SUPPORT. What each update of the state leaves alone, field by field, and what the record it changes reads as afterwards.
-/

namespace Sys2Proof.Machine.State

/-! setReg -/

@[simp] theorem dies_setReg (s : State) (a : Nat) (v : Word) : (s.setReg a v).dies = s.dies := rfl
@[simp] theorem grade_setReg (s : State) (a : Nat) (v : Word) : (s.setReg a v).grade = s.grade := rfl
@[simp] theorem now_setReg (s : State) (a : Nat) (v : Word) : (s.setReg a v).now = s.now := rfl
@[simp] theorem pt_setReg (s : State) (a : Nat) (v : Word) : (s.setReg a v).pt = s.pt := rfl
@[simp] theorem seed_setReg (s : State) (a : Nat) (v : Word) : (s.setReg a v).seed = s.seed := rfl
@[simp] theorem readData_setReg (s : State) (a : Nat) (v : Word) : (s.setReg a v).readData = s.readData := rfl
@[simp] theorem pending_setReg (s : State) (a : Nat) (v : Word) : (s.setReg a v).pending = s.pending := rfl
@[simp] theorem die_setReg (s : State) (a : Nat) (v : Word) : (s.setReg a v).die = s.die := rfl
@[simp] theorem inbox_setReg (s : State) (a : Nat) (v : Word) : (s.setReg a v).inbox = s.inbox := rfl
@[simp] theorem irq_setReg (s : State) (a : Nat) (v : Word) : (s.setReg a v).irq = s.irq := rfl
@[simp] theorem flash_setReg (s : State) (a : Nat) (v : Word) : (s.setReg a v).flash = s.flash := rfl
@[simp] theorem dram_setReg (s : State) (a : Nat) (v : Word) : (s.setReg a v).dram = s.dram := rfl
@[simp] theorem progmem_setReg (s : State) (a : Nat) (v : Word) : (s.setReg a v).progmem = s.progmem := rfl
@[simp] theorem hostmem_setReg (s : State) (a : Nat) (v : Word) : (s.setReg a v).hostmem = s.hostmem := rfl

/-! pass -/

@[simp] theorem dies_pass (s : State) (k : Nat) : (s.pass k).dies = s.dies := rfl
@[simp] theorem grade_pass (s : State) (k : Nat) : (s.pass k).grade = s.grade := rfl
@[simp] theorem seed_pass (s : State) (k : Nat) : (s.pass k).seed = s.seed := rfl
@[simp] theorem readData_pass (s : State) (k : Nat) : (s.pass k).readData = s.readData := rfl
@[simp] theorem pending_pass (s : State) (k : Nat) : (s.pass k).pending = s.pending := rfl
@[simp] theorem regs_pass (s : State) (k : Nat) : (s.pass k).regs = s.regs := rfl
@[simp] theorem die_pass (s : State) (k : Nat) : (s.pass k).die = s.die := rfl
@[simp] theorem inbox_pass (s : State) (k : Nat) : (s.pass k).inbox = s.inbox := rfl
@[simp] theorem irq_pass (s : State) (k : Nat) : (s.pass k).irq = s.irq := rfl
@[simp] theorem flash_pass (s : State) (k : Nat) : (s.pass k).flash = s.flash := rfl
@[simp] theorem dram_pass (s : State) (k : Nat) : (s.pass k).dram = s.dram := rfl
@[simp] theorem progmem_pass (s : State) (k : Nat) : (s.pass k).progmem = s.progmem := rfl
@[simp] theorem hostmem_pass (s : State) (k : Nat) : (s.pass k).hostmem = s.hostmem := rfl

/-! drew -/

@[simp] theorem dies_drew (s : State) : (s.drew).dies = s.dies := rfl
@[simp] theorem grade_drew (s : State) : (s.drew).grade = s.grade := rfl
@[simp] theorem now_drew (s : State) : (s.drew).now = s.now := rfl
@[simp] theorem pt_drew (s : State) : (s.drew).pt = s.pt := rfl
@[simp] theorem readData_drew (s : State) : (s.drew).readData = s.readData := rfl
@[simp] theorem pending_drew (s : State) : (s.drew).pending = s.pending := rfl
@[simp] theorem regs_drew (s : State) : (s.drew).regs = s.regs := rfl
@[simp] theorem die_drew (s : State) : (s.drew).die = s.die := rfl
@[simp] theorem inbox_drew (s : State) : (s.drew).inbox = s.inbox := rfl
@[simp] theorem irq_drew (s : State) : (s.drew).irq = s.irq := rfl
@[simp] theorem flash_drew (s : State) : (s.drew).flash = s.flash := rfl
@[simp] theorem dram_drew (s : State) : (s.drew).dram = s.dram := rfl
@[simp] theorem progmem_drew (s : State) : (s.drew).progmem = s.progmem := rfl
@[simp] theorem hostmem_drew (s : State) : (s.drew).hostmem = s.hostmem := rfl

/-! answer -/

@[simp] theorem dies_answer (s : State) (v : Nat) : (s.answer v).dies = s.dies := rfl
@[simp] theorem grade_answer (s : State) (v : Nat) : (s.answer v).grade = s.grade := rfl
@[simp] theorem now_answer (s : State) (v : Nat) : (s.answer v).now = s.now := rfl
@[simp] theorem pt_answer (s : State) (v : Nat) : (s.answer v).pt = s.pt := rfl
@[simp] theorem seed_answer (s : State) (v : Nat) : (s.answer v).seed = s.seed := rfl
@[simp] theorem pending_answer (s : State) (v : Nat) : (s.answer v).pending = s.pending := rfl
@[simp] theorem regs_answer (s : State) (v : Nat) : (s.answer v).regs = s.regs := rfl
@[simp] theorem die_answer (s : State) (v : Nat) : (s.answer v).die = s.die := rfl
@[simp] theorem inbox_answer (s : State) (v : Nat) : (s.answer v).inbox = s.inbox := rfl
@[simp] theorem irq_answer (s : State) (v : Nat) : (s.answer v).irq = s.irq := rfl
@[simp] theorem flash_answer (s : State) (v : Nat) : (s.answer v).flash = s.flash := rfl
@[simp] theorem dram_answer (s : State) (v : Nat) : (s.answer v).dram = s.dram := rfl
@[simp] theorem progmem_answer (s : State) (v : Nat) : (s.answer v).progmem = s.progmem := rfl
@[simp] theorem hostmem_answer (s : State) (v : Nat) : (s.answer v).hostmem = s.hostmem := rfl

/-! setIrq -/

@[simp] theorem dies_setIrq (s : State) (d h l : Nat) (on : Bool) : (s.setIrq d h l on).dies = s.dies := rfl
@[simp] theorem grade_setIrq (s : State) (d h l : Nat) (on : Bool) : (s.setIrq d h l on).grade = s.grade := rfl
@[simp] theorem now_setIrq (s : State) (d h l : Nat) (on : Bool) : (s.setIrq d h l on).now = s.now := rfl
@[simp] theorem pt_setIrq (s : State) (d h l : Nat) (on : Bool) : (s.setIrq d h l on).pt = s.pt := rfl
@[simp] theorem seed_setIrq (s : State) (d h l : Nat) (on : Bool) : (s.setIrq d h l on).seed = s.seed := rfl
@[simp] theorem readData_setIrq (s : State) (d h l : Nat) (on : Bool) : (s.setIrq d h l on).readData = s.readData := rfl
@[simp] theorem pending_setIrq (s : State) (d h l : Nat) (on : Bool) : (s.setIrq d h l on).pending = s.pending := rfl
@[simp] theorem regs_setIrq (s : State) (d h l : Nat) (on : Bool) : (s.setIrq d h l on).regs = s.regs := rfl
@[simp] theorem die_setIrq (s : State) (d h l : Nat) (on : Bool) : (s.setIrq d h l on).die = s.die := rfl
@[simp] theorem inbox_setIrq (s : State) (d h l : Nat) (on : Bool) : (s.setIrq d h l on).inbox = s.inbox := rfl
@[simp] theorem flash_setIrq (s : State) (d h l : Nat) (on : Bool) : (s.setIrq d h l on).flash = s.flash := rfl
@[simp] theorem dram_setIrq (s : State) (d h l : Nat) (on : Bool) : (s.setIrq d h l on).dram = s.dram := rfl
@[simp] theorem progmem_setIrq (s : State) (d h l : Nat) (on : Bool) : (s.setIrq d h l on).progmem = s.progmem := rfl
@[simp] theorem hostmem_setIrq (s : State) (d h l : Nat) (on : Bool) : (s.setIrq d h l on).hostmem = s.hostmem := rfl

/-! send -/

@[simp] theorem dies_send (s : State) (d : Nat) (m : Msg) : (s.send d m).dies = s.dies := rfl
@[simp] theorem grade_send (s : State) (d : Nat) (m : Msg) : (s.send d m).grade = s.grade := rfl
@[simp] theorem now_send (s : State) (d : Nat) (m : Msg) : (s.send d m).now = s.now := rfl
@[simp] theorem pt_send (s : State) (d : Nat) (m : Msg) : (s.send d m).pt = s.pt := rfl
@[simp] theorem seed_send (s : State) (d : Nat) (m : Msg) : (s.send d m).seed = s.seed := rfl
@[simp] theorem readData_send (s : State) (d : Nat) (m : Msg) : (s.send d m).readData = s.readData := rfl
@[simp] theorem pending_send (s : State) (d : Nat) (m : Msg) : (s.send d m).pending = s.pending := rfl
@[simp] theorem regs_send (s : State) (d : Nat) (m : Msg) : (s.send d m).regs = s.regs := rfl
@[simp] theorem die_send (s : State) (d : Nat) (m : Msg) : (s.send d m).die = s.die := rfl
@[simp] theorem irq_send (s : State) (d : Nat) (m : Msg) : (s.send d m).irq = s.irq := rfl
@[simp] theorem flash_send (s : State) (d : Nat) (m : Msg) : (s.send d m).flash = s.flash := rfl
@[simp] theorem dram_send (s : State) (d : Nat) (m : Msg) : (s.send d m).dram = s.dram := rfl
@[simp] theorem progmem_send (s : State) (d : Nat) (m : Msg) : (s.send d m).progmem = s.progmem := rfl
@[simp] theorem hostmem_send (s : State) (d : Nat) (m : Msg) : (s.send d m).hostmem = s.hostmem := rfl

/-! setFlash -/

@[simp] theorem dies_setFlash (s : State) (d area o : Nat) (v : Byte) : (s.setFlash d area o v).dies = s.dies := by unfold setFlash; rfl
@[simp] theorem grade_setFlash (s : State) (d area o : Nat) (v : Byte) : (s.setFlash d area o v).grade = s.grade := by unfold setFlash; rfl
@[simp] theorem now_setFlash (s : State) (d area o : Nat) (v : Byte) : (s.setFlash d area o v).now = s.now := by unfold setFlash; rfl
@[simp] theorem pt_setFlash (s : State) (d area o : Nat) (v : Byte) : (s.setFlash d area o v).pt = s.pt := by unfold setFlash; rfl
@[simp] theorem seed_setFlash (s : State) (d area o : Nat) (v : Byte) : (s.setFlash d area o v).seed = s.seed := by unfold setFlash; rfl
@[simp] theorem readData_setFlash (s : State) (d area o : Nat) (v : Byte) : (s.setFlash d area o v).readData = s.readData := by unfold setFlash; rfl
@[simp] theorem pending_setFlash (s : State) (d area o : Nat) (v : Byte) : (s.setFlash d area o v).pending = s.pending := by unfold setFlash; rfl
@[simp] theorem regs_setFlash (s : State) (d area o : Nat) (v : Byte) : (s.setFlash d area o v).regs = s.regs := by unfold setFlash; rfl
@[simp] theorem die_setFlash (s : State) (d area o : Nat) (v : Byte) : (s.setFlash d area o v).die = s.die := by unfold setFlash; rfl
@[simp] theorem inbox_setFlash (s : State) (d area o : Nat) (v : Byte) : (s.setFlash d area o v).inbox = s.inbox := by unfold setFlash; rfl
@[simp] theorem irq_setFlash (s : State) (d area o : Nat) (v : Byte) : (s.setFlash d area o v).irq = s.irq := by unfold setFlash; rfl
@[simp] theorem dram_setFlash (s : State) (d area o : Nat) (v : Byte) : (s.setFlash d area o v).dram = s.dram := by unfold setFlash; rfl
@[simp] theorem progmem_setFlash (s : State) (d area o : Nat) (v : Byte) : (s.setFlash d area o v).progmem = s.progmem := by unfold setFlash; rfl
@[simp] theorem hostmem_setFlash (s : State) (d area o : Nat) (v : Byte) : (s.setFlash d area o v).hostmem = s.hostmem := by unfold setFlash; rfl

/-! modDie -/

@[simp] theorem dies_modDie (s : State) (d : Nat) (f : Die → Die) : (s.modDie d f).dies = s.dies := rfl
@[simp] theorem grade_modDie (s : State) (d : Nat) (f : Die → Die) : (s.modDie d f).grade = s.grade := rfl
@[simp] theorem now_modDie (s : State) (d : Nat) (f : Die → Die) : (s.modDie d f).now = s.now := rfl
@[simp] theorem pt_modDie (s : State) (d : Nat) (f : Die → Die) : (s.modDie d f).pt = s.pt := rfl
@[simp] theorem seed_modDie (s : State) (d : Nat) (f : Die → Die) : (s.modDie d f).seed = s.seed := rfl
@[simp] theorem readData_modDie (s : State) (d : Nat) (f : Die → Die) : (s.modDie d f).readData = s.readData := rfl
@[simp] theorem pending_modDie (s : State) (d : Nat) (f : Die → Die) : (s.modDie d f).pending = s.pending := rfl
@[simp] theorem regs_modDie (s : State) (d : Nat) (f : Die → Die) : (s.modDie d f).regs = s.regs := rfl
@[simp] theorem inbox_modDie (s : State) (d : Nat) (f : Die → Die) : (s.modDie d f).inbox = s.inbox := rfl
@[simp] theorem irq_modDie (s : State) (d : Nat) (f : Die → Die) : (s.modDie d f).irq = s.irq := rfl
@[simp] theorem flash_modDie (s : State) (d : Nat) (f : Die → Die) : (s.modDie d f).flash = s.flash := rfl
@[simp] theorem dram_modDie (s : State) (d : Nat) (f : Die → Die) : (s.modDie d f).dram = s.dram := rfl
@[simp] theorem progmem_modDie (s : State) (d : Nat) (f : Die → Die) : (s.modDie d f).progmem = s.progmem := rfl
@[simp] theorem hostmem_modDie (s : State) (d : Nat) (f : Die → Die) : (s.modDie d f).hostmem = s.hostmem := rfl
@[simp] theorem getDie_modDie (s : State) (d : Nat) (f : Die → Die) : (s.modDie d f).getDie d = f (s.getDie d) := by simp [getDie, modDie]

/-! modLeg -/

@[simp] theorem dies_modLeg (s : State) (d n j : Nat) (f : Leg → Leg) : (s.modLeg d n j f).dies = s.dies := rfl
@[simp] theorem grade_modLeg (s : State) (d n j : Nat) (f : Leg → Leg) : (s.modLeg d n j f).grade = s.grade := rfl
@[simp] theorem now_modLeg (s : State) (d n j : Nat) (f : Leg → Leg) : (s.modLeg d n j f).now = s.now := rfl
@[simp] theorem pt_modLeg (s : State) (d n j : Nat) (f : Leg → Leg) : (s.modLeg d n j f).pt = s.pt := rfl
@[simp] theorem seed_modLeg (s : State) (d n j : Nat) (f : Leg → Leg) : (s.modLeg d n j f).seed = s.seed := rfl
@[simp] theorem readData_modLeg (s : State) (d n j : Nat) (f : Leg → Leg) : (s.modLeg d n j f).readData = s.readData := rfl
@[simp] theorem pending_modLeg (s : State) (d n j : Nat) (f : Leg → Leg) : (s.modLeg d n j f).pending = s.pending := rfl
@[simp] theorem regs_modLeg (s : State) (d n j : Nat) (f : Leg → Leg) : (s.modLeg d n j f).regs = s.regs := rfl
@[simp] theorem die_modLeg (s : State) (d n j : Nat) (f : Leg → Leg) : (s.modLeg d n j f).die = s.die := rfl
@[simp] theorem inbox_modLeg (s : State) (d n j : Nat) (f : Leg → Leg) : (s.modLeg d n j f).inbox = s.inbox := rfl
@[simp] theorem irq_modLeg (s : State) (d n j : Nat) (f : Leg → Leg) : (s.modLeg d n j f).irq = s.irq := rfl
@[simp] theorem flash_modLeg (s : State) (d n j : Nat) (f : Leg → Leg) : (s.modLeg d n j f).flash = s.flash := rfl
@[simp] theorem dram_modLeg (s : State) (d n j : Nat) (f : Leg → Leg) : (s.modLeg d n j f).dram = s.dram := rfl
@[simp] theorem progmem_modLeg (s : State) (d n j : Nat) (f : Leg → Leg) : (s.modLeg d n j f).progmem = s.progmem := rfl
@[simp] theorem hostmem_modLeg (s : State) (d n j : Nat) (f : Leg → Leg) : (s.modLeg d n j f).hostmem = s.hostmem := rfl
@[simp] theorem getLeg_modLeg (s : State) (d n j : Nat) (f : Leg → Leg) : (s.modLeg d n j f).getLeg d n j = f (s.getLeg d n j) := by simp [getLeg, modLeg]

/-! modPwm -/

@[simp] theorem dies_modPwm (s : State) (d n : Nat) (f : PwmAx → PwmAx) : (s.modPwm d n f).dies = s.dies := rfl
@[simp] theorem grade_modPwm (s : State) (d n : Nat) (f : PwmAx → PwmAx) : (s.modPwm d n f).grade = s.grade := rfl
@[simp] theorem now_modPwm (s : State) (d n : Nat) (f : PwmAx → PwmAx) : (s.modPwm d n f).now = s.now := rfl
@[simp] theorem pt_modPwm (s : State) (d n : Nat) (f : PwmAx → PwmAx) : (s.modPwm d n f).pt = s.pt := rfl
@[simp] theorem seed_modPwm (s : State) (d n : Nat) (f : PwmAx → PwmAx) : (s.modPwm d n f).seed = s.seed := rfl
@[simp] theorem readData_modPwm (s : State) (d n : Nat) (f : PwmAx → PwmAx) : (s.modPwm d n f).readData = s.readData := rfl
@[simp] theorem pending_modPwm (s : State) (d n : Nat) (f : PwmAx → PwmAx) : (s.modPwm d n f).pending = s.pending := rfl
@[simp] theorem regs_modPwm (s : State) (d n : Nat) (f : PwmAx → PwmAx) : (s.modPwm d n f).regs = s.regs := rfl
@[simp] theorem die_modPwm (s : State) (d n : Nat) (f : PwmAx → PwmAx) : (s.modPwm d n f).die = s.die := rfl
@[simp] theorem inbox_modPwm (s : State) (d n : Nat) (f : PwmAx → PwmAx) : (s.modPwm d n f).inbox = s.inbox := rfl
@[simp] theorem irq_modPwm (s : State) (d n : Nat) (f : PwmAx → PwmAx) : (s.modPwm d n f).irq = s.irq := rfl
@[simp] theorem flash_modPwm (s : State) (d n : Nat) (f : PwmAx → PwmAx) : (s.modPwm d n f).flash = s.flash := rfl
@[simp] theorem dram_modPwm (s : State) (d n : Nat) (f : PwmAx → PwmAx) : (s.modPwm d n f).dram = s.dram := rfl
@[simp] theorem progmem_modPwm (s : State) (d n : Nat) (f : PwmAx → PwmAx) : (s.modPwm d n f).progmem = s.progmem := rfl
@[simp] theorem hostmem_modPwm (s : State) (d n : Nat) (f : PwmAx → PwmAx) : (s.modPwm d n f).hostmem = s.hostmem := rfl
@[simp] theorem getPwm_modPwm (s : State) (d n : Nat) (f : PwmAx → PwmAx) : (s.modPwm d n f).getPwm d n = f (s.getPwm d n) := by simp [getPwm, modPwm]

/-! modPair -/

@[simp] theorem dies_modPair (s : State) (d : Nat) (f : PairRec → PairRec) : (s.modPair d f).dies = s.dies := rfl
@[simp] theorem grade_modPair (s : State) (d : Nat) (f : PairRec → PairRec) : (s.modPair d f).grade = s.grade := rfl
@[simp] theorem now_modPair (s : State) (d : Nat) (f : PairRec → PairRec) : (s.modPair d f).now = s.now := rfl
@[simp] theorem pt_modPair (s : State) (d : Nat) (f : PairRec → PairRec) : (s.modPair d f).pt = s.pt := rfl
@[simp] theorem seed_modPair (s : State) (d : Nat) (f : PairRec → PairRec) : (s.modPair d f).seed = s.seed := rfl
@[simp] theorem readData_modPair (s : State) (d : Nat) (f : PairRec → PairRec) : (s.modPair d f).readData = s.readData := rfl
@[simp] theorem pending_modPair (s : State) (d : Nat) (f : PairRec → PairRec) : (s.modPair d f).pending = s.pending := rfl
@[simp] theorem regs_modPair (s : State) (d : Nat) (f : PairRec → PairRec) : (s.modPair d f).regs = s.regs := rfl
@[simp] theorem die_modPair (s : State) (d : Nat) (f : PairRec → PairRec) : (s.modPair d f).die = s.die := rfl
@[simp] theorem inbox_modPair (s : State) (d : Nat) (f : PairRec → PairRec) : (s.modPair d f).inbox = s.inbox := rfl
@[simp] theorem irq_modPair (s : State) (d : Nat) (f : PairRec → PairRec) : (s.modPair d f).irq = s.irq := rfl
@[simp] theorem flash_modPair (s : State) (d : Nat) (f : PairRec → PairRec) : (s.modPair d f).flash = s.flash := rfl
@[simp] theorem dram_modPair (s : State) (d : Nat) (f : PairRec → PairRec) : (s.modPair d f).dram = s.dram := rfl
@[simp] theorem progmem_modPair (s : State) (d : Nat) (f : PairRec → PairRec) : (s.modPair d f).progmem = s.progmem := rfl
@[simp] theorem hostmem_modPair (s : State) (d : Nat) (f : PairRec → PairRec) : (s.modPair d f).hostmem = s.hostmem := rfl
@[simp] theorem getPair_modPair (s : State) (d : Nat) (f : PairRec → PairRec) : (s.modPair d f).getPair d = f (s.getPair d) := by simp [getPair, modPair]

/-! modBall -/

@[simp] theorem dies_modBall (s : State) (k n : Nat) (f : BallRec → BallRec) : (s.modBall k n f).dies = s.dies := rfl
@[simp] theorem grade_modBall (s : State) (k n : Nat) (f : BallRec → BallRec) : (s.modBall k n f).grade = s.grade := rfl
@[simp] theorem now_modBall (s : State) (k n : Nat) (f : BallRec → BallRec) : (s.modBall k n f).now = s.now := rfl
@[simp] theorem pt_modBall (s : State) (k n : Nat) (f : BallRec → BallRec) : (s.modBall k n f).pt = s.pt := rfl
@[simp] theorem seed_modBall (s : State) (k n : Nat) (f : BallRec → BallRec) : (s.modBall k n f).seed = s.seed := rfl
@[simp] theorem readData_modBall (s : State) (k n : Nat) (f : BallRec → BallRec) : (s.modBall k n f).readData = s.readData := rfl
@[simp] theorem pending_modBall (s : State) (k n : Nat) (f : BallRec → BallRec) : (s.modBall k n f).pending = s.pending := rfl
@[simp] theorem regs_modBall (s : State) (k n : Nat) (f : BallRec → BallRec) : (s.modBall k n f).regs = s.regs := rfl
@[simp] theorem die_modBall (s : State) (k n : Nat) (f : BallRec → BallRec) : (s.modBall k n f).die = s.die := rfl
@[simp] theorem inbox_modBall (s : State) (k n : Nat) (f : BallRec → BallRec) : (s.modBall k n f).inbox = s.inbox := rfl
@[simp] theorem irq_modBall (s : State) (k n : Nat) (f : BallRec → BallRec) : (s.modBall k n f).irq = s.irq := rfl
@[simp] theorem flash_modBall (s : State) (k n : Nat) (f : BallRec → BallRec) : (s.modBall k n f).flash = s.flash := rfl
@[simp] theorem dram_modBall (s : State) (k n : Nat) (f : BallRec → BallRec) : (s.modBall k n f).dram = s.dram := rfl
@[simp] theorem progmem_modBall (s : State) (k n : Nat) (f : BallRec → BallRec) : (s.modBall k n f).progmem = s.progmem := rfl
@[simp] theorem hostmem_modBall (s : State) (k n : Nat) (f : BallRec → BallRec) : (s.modBall k n f).hostmem = s.hostmem := rfl
@[simp] theorem getBall_modBall (s : State) (k n : Nat) (f : BallRec → BallRec) : (s.modBall k n f).getBall k n = f (s.getBall k n) := by simp [getBall, modBall]

/-! modFwd -/

@[simp] theorem dies_modFwd (s : State) (d : Nat) (f : List Fwd → List Fwd) : (s.modFwd d f).dies = s.dies := rfl
@[simp] theorem grade_modFwd (s : State) (d : Nat) (f : List Fwd → List Fwd) : (s.modFwd d f).grade = s.grade := rfl
@[simp] theorem now_modFwd (s : State) (d : Nat) (f : List Fwd → List Fwd) : (s.modFwd d f).now = s.now := rfl
@[simp] theorem pt_modFwd (s : State) (d : Nat) (f : List Fwd → List Fwd) : (s.modFwd d f).pt = s.pt := rfl
@[simp] theorem seed_modFwd (s : State) (d : Nat) (f : List Fwd → List Fwd) : (s.modFwd d f).seed = s.seed := rfl
@[simp] theorem readData_modFwd (s : State) (d : Nat) (f : List Fwd → List Fwd) : (s.modFwd d f).readData = s.readData := rfl
@[simp] theorem pending_modFwd (s : State) (d : Nat) (f : List Fwd → List Fwd) : (s.modFwd d f).pending = s.pending := rfl
@[simp] theorem regs_modFwd (s : State) (d : Nat) (f : List Fwd → List Fwd) : (s.modFwd d f).regs = s.regs := rfl
@[simp] theorem die_modFwd (s : State) (d : Nat) (f : List Fwd → List Fwd) : (s.modFwd d f).die = s.die := rfl
@[simp] theorem inbox_modFwd (s : State) (d : Nat) (f : List Fwd → List Fwd) : (s.modFwd d f).inbox = s.inbox := rfl
@[simp] theorem irq_modFwd (s : State) (d : Nat) (f : List Fwd → List Fwd) : (s.modFwd d f).irq = s.irq := rfl
@[simp] theorem flash_modFwd (s : State) (d : Nat) (f : List Fwd → List Fwd) : (s.modFwd d f).flash = s.flash := rfl
@[simp] theorem dram_modFwd (s : State) (d : Nat) (f : List Fwd → List Fwd) : (s.modFwd d f).dram = s.dram := rfl
@[simp] theorem progmem_modFwd (s : State) (d : Nat) (f : List Fwd → List Fwd) : (s.modFwd d f).progmem = s.progmem := rfl
@[simp] theorem hostmem_modFwd (s : State) (d : Nat) (f : List Fwd → List Fwd) : (s.modFwd d f).hostmem = s.hostmem := rfl
@[simp] theorem getFwd_modFwd (s : State) (d : Nat) (f : List Fwd → List Fwd) : (s.modFwd d f).getFwd d = f (s.getFwd d) := by simp [getFwd, modFwd]

/-! modConv -/

@[simp] theorem dies_modConv (s : State) (d c : Nat) (f : Conv → Conv) : (s.modConv d c f).dies = s.dies := rfl
@[simp] theorem grade_modConv (s : State) (d c : Nat) (f : Conv → Conv) : (s.modConv d c f).grade = s.grade := rfl
@[simp] theorem now_modConv (s : State) (d c : Nat) (f : Conv → Conv) : (s.modConv d c f).now = s.now := rfl
@[simp] theorem pt_modConv (s : State) (d c : Nat) (f : Conv → Conv) : (s.modConv d c f).pt = s.pt := rfl
@[simp] theorem seed_modConv (s : State) (d c : Nat) (f : Conv → Conv) : (s.modConv d c f).seed = s.seed := rfl
@[simp] theorem readData_modConv (s : State) (d c : Nat) (f : Conv → Conv) : (s.modConv d c f).readData = s.readData := rfl
@[simp] theorem pending_modConv (s : State) (d c : Nat) (f : Conv → Conv) : (s.modConv d c f).pending = s.pending := rfl
@[simp] theorem regs_modConv (s : State) (d c : Nat) (f : Conv → Conv) : (s.modConv d c f).regs = s.regs := rfl
@[simp] theorem die_modConv (s : State) (d c : Nat) (f : Conv → Conv) : (s.modConv d c f).die = s.die := rfl
@[simp] theorem inbox_modConv (s : State) (d c : Nat) (f : Conv → Conv) : (s.modConv d c f).inbox = s.inbox := rfl
@[simp] theorem irq_modConv (s : State) (d c : Nat) (f : Conv → Conv) : (s.modConv d c f).irq = s.irq := rfl
@[simp] theorem flash_modConv (s : State) (d c : Nat) (f : Conv → Conv) : (s.modConv d c f).flash = s.flash := rfl
@[simp] theorem dram_modConv (s : State) (d c : Nat) (f : Conv → Conv) : (s.modConv d c f).dram = s.dram := rfl
@[simp] theorem progmem_modConv (s : State) (d c : Nat) (f : Conv → Conv) : (s.modConv d c f).progmem = s.progmem := rfl
@[simp] theorem hostmem_modConv (s : State) (d c : Nat) (f : Conv → Conv) : (s.modConv d c f).hostmem = s.hostmem := rfl
@[simp] theorem getConv_modConv (s : State) (d c : Nat) (f : Conv → Conv) : (s.modConv d c f).getConv d c = f (s.getConv d c) := by simp [getConv, modConv]

/-! modExc -/

@[simp] theorem dies_modExc (s : State) (d n : Nat) (f : ExcAx → ExcAx) : (s.modExc d n f).dies = s.dies := rfl
@[simp] theorem grade_modExc (s : State) (d n : Nat) (f : ExcAx → ExcAx) : (s.modExc d n f).grade = s.grade := rfl
@[simp] theorem now_modExc (s : State) (d n : Nat) (f : ExcAx → ExcAx) : (s.modExc d n f).now = s.now := rfl
@[simp] theorem pt_modExc (s : State) (d n : Nat) (f : ExcAx → ExcAx) : (s.modExc d n f).pt = s.pt := rfl
@[simp] theorem seed_modExc (s : State) (d n : Nat) (f : ExcAx → ExcAx) : (s.modExc d n f).seed = s.seed := rfl
@[simp] theorem readData_modExc (s : State) (d n : Nat) (f : ExcAx → ExcAx) : (s.modExc d n f).readData = s.readData := rfl
@[simp] theorem pending_modExc (s : State) (d n : Nat) (f : ExcAx → ExcAx) : (s.modExc d n f).pending = s.pending := rfl
@[simp] theorem regs_modExc (s : State) (d n : Nat) (f : ExcAx → ExcAx) : (s.modExc d n f).regs = s.regs := rfl
@[simp] theorem die_modExc (s : State) (d n : Nat) (f : ExcAx → ExcAx) : (s.modExc d n f).die = s.die := rfl
@[simp] theorem inbox_modExc (s : State) (d n : Nat) (f : ExcAx → ExcAx) : (s.modExc d n f).inbox = s.inbox := rfl
@[simp] theorem irq_modExc (s : State) (d n : Nat) (f : ExcAx → ExcAx) : (s.modExc d n f).irq = s.irq := rfl
@[simp] theorem flash_modExc (s : State) (d n : Nat) (f : ExcAx → ExcAx) : (s.modExc d n f).flash = s.flash := rfl
@[simp] theorem dram_modExc (s : State) (d n : Nat) (f : ExcAx → ExcAx) : (s.modExc d n f).dram = s.dram := rfl
@[simp] theorem progmem_modExc (s : State) (d n : Nat) (f : ExcAx → ExcAx) : (s.modExc d n f).progmem = s.progmem := rfl
@[simp] theorem hostmem_modExc (s : State) (d n : Nat) (f : ExcAx → ExcAx) : (s.modExc d n f).hostmem = s.hostmem := rfl
@[simp] theorem getExc_modExc (s : State) (d n : Nat) (f : ExcAx → ExcAx) : (s.modExc d n f).getExc d n = f (s.getExc d n) := by simp [getExc, modExc]

/-! modTrk -/

@[simp] theorem dies_modTrk (s : State) (d n : Nat) (f : TrkAx → TrkAx) : (s.modTrk d n f).dies = s.dies := rfl
@[simp] theorem grade_modTrk (s : State) (d n : Nat) (f : TrkAx → TrkAx) : (s.modTrk d n f).grade = s.grade := rfl
@[simp] theorem now_modTrk (s : State) (d n : Nat) (f : TrkAx → TrkAx) : (s.modTrk d n f).now = s.now := rfl
@[simp] theorem pt_modTrk (s : State) (d n : Nat) (f : TrkAx → TrkAx) : (s.modTrk d n f).pt = s.pt := rfl
@[simp] theorem seed_modTrk (s : State) (d n : Nat) (f : TrkAx → TrkAx) : (s.modTrk d n f).seed = s.seed := rfl
@[simp] theorem readData_modTrk (s : State) (d n : Nat) (f : TrkAx → TrkAx) : (s.modTrk d n f).readData = s.readData := rfl
@[simp] theorem pending_modTrk (s : State) (d n : Nat) (f : TrkAx → TrkAx) : (s.modTrk d n f).pending = s.pending := rfl
@[simp] theorem regs_modTrk (s : State) (d n : Nat) (f : TrkAx → TrkAx) : (s.modTrk d n f).regs = s.regs := rfl
@[simp] theorem die_modTrk (s : State) (d n : Nat) (f : TrkAx → TrkAx) : (s.modTrk d n f).die = s.die := rfl
@[simp] theorem inbox_modTrk (s : State) (d n : Nat) (f : TrkAx → TrkAx) : (s.modTrk d n f).inbox = s.inbox := rfl
@[simp] theorem irq_modTrk (s : State) (d n : Nat) (f : TrkAx → TrkAx) : (s.modTrk d n f).irq = s.irq := rfl
@[simp] theorem flash_modTrk (s : State) (d n : Nat) (f : TrkAx → TrkAx) : (s.modTrk d n f).flash = s.flash := rfl
@[simp] theorem dram_modTrk (s : State) (d n : Nat) (f : TrkAx → TrkAx) : (s.modTrk d n f).dram = s.dram := rfl
@[simp] theorem progmem_modTrk (s : State) (d n : Nat) (f : TrkAx → TrkAx) : (s.modTrk d n f).progmem = s.progmem := rfl
@[simp] theorem hostmem_modTrk (s : State) (d n : Nat) (f : TrkAx → TrkAx) : (s.modTrk d n f).hostmem = s.hostmem := rfl
@[simp] theorem getTrk_modTrk (s : State) (d n : Nat) (f : TrkAx → TrkAx) : (s.modTrk d n f).getTrk d n = f (s.getTrk d n) := by simp [getTrk, modTrk]

/-! modSlot -/

@[simp] theorem dies_modSlot (s : State) (d n t : Nat) (f : TblSlot → TblSlot) : (s.modSlot d n t f).dies = s.dies := rfl
@[simp] theorem grade_modSlot (s : State) (d n t : Nat) (f : TblSlot → TblSlot) : (s.modSlot d n t f).grade = s.grade := rfl
@[simp] theorem now_modSlot (s : State) (d n t : Nat) (f : TblSlot → TblSlot) : (s.modSlot d n t f).now = s.now := rfl
@[simp] theorem pt_modSlot (s : State) (d n t : Nat) (f : TblSlot → TblSlot) : (s.modSlot d n t f).pt = s.pt := rfl
@[simp] theorem seed_modSlot (s : State) (d n t : Nat) (f : TblSlot → TblSlot) : (s.modSlot d n t f).seed = s.seed := rfl
@[simp] theorem readData_modSlot (s : State) (d n t : Nat) (f : TblSlot → TblSlot) : (s.modSlot d n t f).readData = s.readData := rfl
@[simp] theorem pending_modSlot (s : State) (d n t : Nat) (f : TblSlot → TblSlot) : (s.modSlot d n t f).pending = s.pending := rfl
@[simp] theorem regs_modSlot (s : State) (d n t : Nat) (f : TblSlot → TblSlot) : (s.modSlot d n t f).regs = s.regs := rfl
@[simp] theorem die_modSlot (s : State) (d n t : Nat) (f : TblSlot → TblSlot) : (s.modSlot d n t f).die = s.die := rfl
@[simp] theorem inbox_modSlot (s : State) (d n t : Nat) (f : TblSlot → TblSlot) : (s.modSlot d n t f).inbox = s.inbox := rfl
@[simp] theorem irq_modSlot (s : State) (d n t : Nat) (f : TblSlot → TblSlot) : (s.modSlot d n t f).irq = s.irq := rfl
@[simp] theorem flash_modSlot (s : State) (d n t : Nat) (f : TblSlot → TblSlot) : (s.modSlot d n t f).flash = s.flash := rfl
@[simp] theorem dram_modSlot (s : State) (d n t : Nat) (f : TblSlot → TblSlot) : (s.modSlot d n t f).dram = s.dram := rfl
@[simp] theorem progmem_modSlot (s : State) (d n t : Nat) (f : TblSlot → TblSlot) : (s.modSlot d n t f).progmem = s.progmem := rfl
@[simp] theorem hostmem_modSlot (s : State) (d n t : Nat) (f : TblSlot → TblSlot) : (s.modSlot d n t f).hostmem = s.hostmem := rfl
@[simp] theorem getSlot_modSlot (s : State) (d n t : Nat) (f : TblSlot → TblSlot) : (s.modSlot d n t f).getSlot d n t = f (s.getSlot d n t) := by simp [getSlot, modSlot]

/-! modTcmd -/

@[simp] theorem dies_modTcmd (s : State) (d : Nat) (f : TblCmd → TblCmd) : (s.modTcmd d f).dies = s.dies := rfl
@[simp] theorem grade_modTcmd (s : State) (d : Nat) (f : TblCmd → TblCmd) : (s.modTcmd d f).grade = s.grade := rfl
@[simp] theorem now_modTcmd (s : State) (d : Nat) (f : TblCmd → TblCmd) : (s.modTcmd d f).now = s.now := rfl
@[simp] theorem pt_modTcmd (s : State) (d : Nat) (f : TblCmd → TblCmd) : (s.modTcmd d f).pt = s.pt := rfl
@[simp] theorem seed_modTcmd (s : State) (d : Nat) (f : TblCmd → TblCmd) : (s.modTcmd d f).seed = s.seed := rfl
@[simp] theorem readData_modTcmd (s : State) (d : Nat) (f : TblCmd → TblCmd) : (s.modTcmd d f).readData = s.readData := rfl
@[simp] theorem pending_modTcmd (s : State) (d : Nat) (f : TblCmd → TblCmd) : (s.modTcmd d f).pending = s.pending := rfl
@[simp] theorem regs_modTcmd (s : State) (d : Nat) (f : TblCmd → TblCmd) : (s.modTcmd d f).regs = s.regs := rfl
@[simp] theorem die_modTcmd (s : State) (d : Nat) (f : TblCmd → TblCmd) : (s.modTcmd d f).die = s.die := rfl
@[simp] theorem inbox_modTcmd (s : State) (d : Nat) (f : TblCmd → TblCmd) : (s.modTcmd d f).inbox = s.inbox := rfl
@[simp] theorem irq_modTcmd (s : State) (d : Nat) (f : TblCmd → TblCmd) : (s.modTcmd d f).irq = s.irq := rfl
@[simp] theorem flash_modTcmd (s : State) (d : Nat) (f : TblCmd → TblCmd) : (s.modTcmd d f).flash = s.flash := rfl
@[simp] theorem dram_modTcmd (s : State) (d : Nat) (f : TblCmd → TblCmd) : (s.modTcmd d f).dram = s.dram := rfl
@[simp] theorem progmem_modTcmd (s : State) (d : Nat) (f : TblCmd → TblCmd) : (s.modTcmd d f).progmem = s.progmem := rfl
@[simp] theorem hostmem_modTcmd (s : State) (d : Nat) (f : TblCmd → TblCmd) : (s.modTcmd d f).hostmem = s.hostmem := rfl
@[simp] theorem getTcmd_modTcmd (s : State) (d : Nat) (f : TblCmd → TblCmd) : (s.modTcmd d f).getTcmd d = f (s.getTcmd d) := by simp [getTcmd, modTcmd]

/-! modEntry -/

@[simp] theorem dies_modEntry (s : State) (d k : Nat) (f : BitVec 16 → BitVec 16) : (s.modEntry d k f).dies = s.dies := rfl
@[simp] theorem grade_modEntry (s : State) (d k : Nat) (f : BitVec 16 → BitVec 16) : (s.modEntry d k f).grade = s.grade := rfl
@[simp] theorem now_modEntry (s : State) (d k : Nat) (f : BitVec 16 → BitVec 16) : (s.modEntry d k f).now = s.now := rfl
@[simp] theorem pt_modEntry (s : State) (d k : Nat) (f : BitVec 16 → BitVec 16) : (s.modEntry d k f).pt = s.pt := rfl
@[simp] theorem seed_modEntry (s : State) (d k : Nat) (f : BitVec 16 → BitVec 16) : (s.modEntry d k f).seed = s.seed := rfl
@[simp] theorem readData_modEntry (s : State) (d k : Nat) (f : BitVec 16 → BitVec 16) : (s.modEntry d k f).readData = s.readData := rfl
@[simp] theorem pending_modEntry (s : State) (d k : Nat) (f : BitVec 16 → BitVec 16) : (s.modEntry d k f).pending = s.pending := rfl
@[simp] theorem regs_modEntry (s : State) (d k : Nat) (f : BitVec 16 → BitVec 16) : (s.modEntry d k f).regs = s.regs := rfl
@[simp] theorem die_modEntry (s : State) (d k : Nat) (f : BitVec 16 → BitVec 16) : (s.modEntry d k f).die = s.die := rfl
@[simp] theorem inbox_modEntry (s : State) (d k : Nat) (f : BitVec 16 → BitVec 16) : (s.modEntry d k f).inbox = s.inbox := rfl
@[simp] theorem irq_modEntry (s : State) (d k : Nat) (f : BitVec 16 → BitVec 16) : (s.modEntry d k f).irq = s.irq := rfl
@[simp] theorem flash_modEntry (s : State) (d k : Nat) (f : BitVec 16 → BitVec 16) : (s.modEntry d k f).flash = s.flash := rfl
@[simp] theorem dram_modEntry (s : State) (d k : Nat) (f : BitVec 16 → BitVec 16) : (s.modEntry d k f).dram = s.dram := rfl
@[simp] theorem progmem_modEntry (s : State) (d k : Nat) (f : BitVec 16 → BitVec 16) : (s.modEntry d k f).progmem = s.progmem := rfl
@[simp] theorem hostmem_modEntry (s : State) (d k : Nat) (f : BitVec 16 → BitVec 16) : (s.modEntry d k f).hostmem = s.hostmem := rfl
@[simp] theorem getEntry_modEntry (s : State) (d k : Nat) (f : BitVec 16 → BitVec 16) : (s.modEntry d k f).getEntry d k = f (s.getEntry d k) := by simp [getEntry, modEntry]

/-! modEnc -/

@[simp] theorem dies_modEnc (s : State) (d n : Nat) (f : EncAx → EncAx) : (s.modEnc d n f).dies = s.dies := rfl
@[simp] theorem grade_modEnc (s : State) (d n : Nat) (f : EncAx → EncAx) : (s.modEnc d n f).grade = s.grade := rfl
@[simp] theorem now_modEnc (s : State) (d n : Nat) (f : EncAx → EncAx) : (s.modEnc d n f).now = s.now := rfl
@[simp] theorem pt_modEnc (s : State) (d n : Nat) (f : EncAx → EncAx) : (s.modEnc d n f).pt = s.pt := rfl
@[simp] theorem seed_modEnc (s : State) (d n : Nat) (f : EncAx → EncAx) : (s.modEnc d n f).seed = s.seed := rfl
@[simp] theorem readData_modEnc (s : State) (d n : Nat) (f : EncAx → EncAx) : (s.modEnc d n f).readData = s.readData := rfl
@[simp] theorem pending_modEnc (s : State) (d n : Nat) (f : EncAx → EncAx) : (s.modEnc d n f).pending = s.pending := rfl
@[simp] theorem regs_modEnc (s : State) (d n : Nat) (f : EncAx → EncAx) : (s.modEnc d n f).regs = s.regs := rfl
@[simp] theorem die_modEnc (s : State) (d n : Nat) (f : EncAx → EncAx) : (s.modEnc d n f).die = s.die := rfl
@[simp] theorem inbox_modEnc (s : State) (d n : Nat) (f : EncAx → EncAx) : (s.modEnc d n f).inbox = s.inbox := rfl
@[simp] theorem irq_modEnc (s : State) (d n : Nat) (f : EncAx → EncAx) : (s.modEnc d n f).irq = s.irq := rfl
@[simp] theorem flash_modEnc (s : State) (d n : Nat) (f : EncAx → EncAx) : (s.modEnc d n f).flash = s.flash := rfl
@[simp] theorem dram_modEnc (s : State) (d n : Nat) (f : EncAx → EncAx) : (s.modEnc d n f).dram = s.dram := rfl
@[simp] theorem progmem_modEnc (s : State) (d n : Nat) (f : EncAx → EncAx) : (s.modEnc d n f).progmem = s.progmem := rfl
@[simp] theorem hostmem_modEnc (s : State) (d n : Nat) (f : EncAx → EncAx) : (s.modEnc d n f).hostmem = s.hostmem := rfl
@[simp] theorem getEnc_modEnc (s : State) (d n : Nat) (f : EncAx → EncAx) : (s.modEnc d n f).getEnc d n = f (s.getEnc d n) := by simp [getEnc, modEnc]

/-! modFil -/

@[simp] theorem dies_modFil (s : State) (d c : Nat) (f : FilSlot → FilSlot) : (s.modFil d c f).dies = s.dies := rfl
@[simp] theorem grade_modFil (s : State) (d c : Nat) (f : FilSlot → FilSlot) : (s.modFil d c f).grade = s.grade := rfl
@[simp] theorem now_modFil (s : State) (d c : Nat) (f : FilSlot → FilSlot) : (s.modFil d c f).now = s.now := rfl
@[simp] theorem pt_modFil (s : State) (d c : Nat) (f : FilSlot → FilSlot) : (s.modFil d c f).pt = s.pt := rfl
@[simp] theorem seed_modFil (s : State) (d c : Nat) (f : FilSlot → FilSlot) : (s.modFil d c f).seed = s.seed := rfl
@[simp] theorem readData_modFil (s : State) (d c : Nat) (f : FilSlot → FilSlot) : (s.modFil d c f).readData = s.readData := rfl
@[simp] theorem pending_modFil (s : State) (d c : Nat) (f : FilSlot → FilSlot) : (s.modFil d c f).pending = s.pending := rfl
@[simp] theorem regs_modFil (s : State) (d c : Nat) (f : FilSlot → FilSlot) : (s.modFil d c f).regs = s.regs := rfl
@[simp] theorem die_modFil (s : State) (d c : Nat) (f : FilSlot → FilSlot) : (s.modFil d c f).die = s.die := rfl
@[simp] theorem inbox_modFil (s : State) (d c : Nat) (f : FilSlot → FilSlot) : (s.modFil d c f).inbox = s.inbox := rfl
@[simp] theorem irq_modFil (s : State) (d c : Nat) (f : FilSlot → FilSlot) : (s.modFil d c f).irq = s.irq := rfl
@[simp] theorem flash_modFil (s : State) (d c : Nat) (f : FilSlot → FilSlot) : (s.modFil d c f).flash = s.flash := rfl
@[simp] theorem dram_modFil (s : State) (d c : Nat) (f : FilSlot → FilSlot) : (s.modFil d c f).dram = s.dram := rfl
@[simp] theorem progmem_modFil (s : State) (d c : Nat) (f : FilSlot → FilSlot) : (s.modFil d c f).progmem = s.progmem := rfl
@[simp] theorem hostmem_modFil (s : State) (d c : Nat) (f : FilSlot → FilSlot) : (s.modFil d c f).hostmem = s.hostmem := rfl
@[simp] theorem getFil_modFil (s : State) (d c : Nat) (f : FilSlot → FilSlot) : (s.modFil d c f).getFil d c = f (s.getFil d c) := by simp [getFil, modFil]

/-! modDet -/

@[simp] theorem dies_modDet (s : State) (d i : Nat) (f : DetRec → DetRec) : (s.modDet d i f).dies = s.dies := rfl
@[simp] theorem grade_modDet (s : State) (d i : Nat) (f : DetRec → DetRec) : (s.modDet d i f).grade = s.grade := rfl
@[simp] theorem now_modDet (s : State) (d i : Nat) (f : DetRec → DetRec) : (s.modDet d i f).now = s.now := rfl
@[simp] theorem pt_modDet (s : State) (d i : Nat) (f : DetRec → DetRec) : (s.modDet d i f).pt = s.pt := rfl
@[simp] theorem seed_modDet (s : State) (d i : Nat) (f : DetRec → DetRec) : (s.modDet d i f).seed = s.seed := rfl
@[simp] theorem readData_modDet (s : State) (d i : Nat) (f : DetRec → DetRec) : (s.modDet d i f).readData = s.readData := rfl
@[simp] theorem pending_modDet (s : State) (d i : Nat) (f : DetRec → DetRec) : (s.modDet d i f).pending = s.pending := rfl
@[simp] theorem regs_modDet (s : State) (d i : Nat) (f : DetRec → DetRec) : (s.modDet d i f).regs = s.regs := rfl
@[simp] theorem die_modDet (s : State) (d i : Nat) (f : DetRec → DetRec) : (s.modDet d i f).die = s.die := rfl
@[simp] theorem inbox_modDet (s : State) (d i : Nat) (f : DetRec → DetRec) : (s.modDet d i f).inbox = s.inbox := rfl
@[simp] theorem irq_modDet (s : State) (d i : Nat) (f : DetRec → DetRec) : (s.modDet d i f).irq = s.irq := rfl
@[simp] theorem flash_modDet (s : State) (d i : Nat) (f : DetRec → DetRec) : (s.modDet d i f).flash = s.flash := rfl
@[simp] theorem dram_modDet (s : State) (d i : Nat) (f : DetRec → DetRec) : (s.modDet d i f).dram = s.dram := rfl
@[simp] theorem progmem_modDet (s : State) (d i : Nat) (f : DetRec → DetRec) : (s.modDet d i f).progmem = s.progmem := rfl
@[simp] theorem hostmem_modDet (s : State) (d i : Nat) (f : DetRec → DetRec) : (s.modDet d i f).hostmem = s.hostmem := rfl
@[simp] theorem getDet_modDet (s : State) (d i : Nat) (f : DetRec → DetRec) : (s.modDet d i f).getDet d i = f (s.getDet d i) := by simp [getDet, modDet]

/-! modLpt -/

@[simp] theorem dies_modLpt (s : State) (d : Nat) (f : LptRec → LptRec) : (s.modLpt d f).dies = s.dies := rfl
@[simp] theorem grade_modLpt (s : State) (d : Nat) (f : LptRec → LptRec) : (s.modLpt d f).grade = s.grade := rfl
@[simp] theorem now_modLpt (s : State) (d : Nat) (f : LptRec → LptRec) : (s.modLpt d f).now = s.now := rfl
@[simp] theorem pt_modLpt (s : State) (d : Nat) (f : LptRec → LptRec) : (s.modLpt d f).pt = s.pt := rfl
@[simp] theorem seed_modLpt (s : State) (d : Nat) (f : LptRec → LptRec) : (s.modLpt d f).seed = s.seed := rfl
@[simp] theorem readData_modLpt (s : State) (d : Nat) (f : LptRec → LptRec) : (s.modLpt d f).readData = s.readData := rfl
@[simp] theorem pending_modLpt (s : State) (d : Nat) (f : LptRec → LptRec) : (s.modLpt d f).pending = s.pending := rfl
@[simp] theorem regs_modLpt (s : State) (d : Nat) (f : LptRec → LptRec) : (s.modLpt d f).regs = s.regs := rfl
@[simp] theorem die_modLpt (s : State) (d : Nat) (f : LptRec → LptRec) : (s.modLpt d f).die = s.die := rfl
@[simp] theorem inbox_modLpt (s : State) (d : Nat) (f : LptRec → LptRec) : (s.modLpt d f).inbox = s.inbox := rfl
@[simp] theorem irq_modLpt (s : State) (d : Nat) (f : LptRec → LptRec) : (s.modLpt d f).irq = s.irq := rfl
@[simp] theorem flash_modLpt (s : State) (d : Nat) (f : LptRec → LptRec) : (s.modLpt d f).flash = s.flash := rfl
@[simp] theorem dram_modLpt (s : State) (d : Nat) (f : LptRec → LptRec) : (s.modLpt d f).dram = s.dram := rfl
@[simp] theorem progmem_modLpt (s : State) (d : Nat) (f : LptRec → LptRec) : (s.modLpt d f).progmem = s.progmem := rfl
@[simp] theorem hostmem_modLpt (s : State) (d : Nat) (f : LptRec → LptRec) : (s.modLpt d f).hostmem = s.hostmem := rfl
@[simp] theorem getLpt_modLpt (s : State) (d : Nat) (f : LptRec → LptRec) : (s.modLpt d f).getLpt d = f (s.getLpt d) := by simp [getLpt, modLpt]

/-! modSync -/

@[simp] theorem dies_modSync (s : State) (d : Nat) (f : Option Nat → Option Nat) : (s.modSync d f).dies = s.dies := rfl
@[simp] theorem grade_modSync (s : State) (d : Nat) (f : Option Nat → Option Nat) : (s.modSync d f).grade = s.grade := rfl
@[simp] theorem now_modSync (s : State) (d : Nat) (f : Option Nat → Option Nat) : (s.modSync d f).now = s.now := rfl
@[simp] theorem pt_modSync (s : State) (d : Nat) (f : Option Nat → Option Nat) : (s.modSync d f).pt = s.pt := rfl
@[simp] theorem seed_modSync (s : State) (d : Nat) (f : Option Nat → Option Nat) : (s.modSync d f).seed = s.seed := rfl
@[simp] theorem readData_modSync (s : State) (d : Nat) (f : Option Nat → Option Nat) : (s.modSync d f).readData = s.readData := rfl
@[simp] theorem pending_modSync (s : State) (d : Nat) (f : Option Nat → Option Nat) : (s.modSync d f).pending = s.pending := rfl
@[simp] theorem regs_modSync (s : State) (d : Nat) (f : Option Nat → Option Nat) : (s.modSync d f).regs = s.regs := rfl
@[simp] theorem die_modSync (s : State) (d : Nat) (f : Option Nat → Option Nat) : (s.modSync d f).die = s.die := rfl
@[simp] theorem inbox_modSync (s : State) (d : Nat) (f : Option Nat → Option Nat) : (s.modSync d f).inbox = s.inbox := rfl
@[simp] theorem irq_modSync (s : State) (d : Nat) (f : Option Nat → Option Nat) : (s.modSync d f).irq = s.irq := rfl
@[simp] theorem flash_modSync (s : State) (d : Nat) (f : Option Nat → Option Nat) : (s.modSync d f).flash = s.flash := rfl
@[simp] theorem dram_modSync (s : State) (d : Nat) (f : Option Nat → Option Nat) : (s.modSync d f).dram = s.dram := rfl
@[simp] theorem progmem_modSync (s : State) (d : Nat) (f : Option Nat → Option Nat) : (s.modSync d f).progmem = s.progmem := rfl
@[simp] theorem hostmem_modSync (s : State) (d : Nat) (f : Option Nat → Option Nat) : (s.modSync d f).hostmem = s.hostmem := rfl
@[simp] theorem getSync_modSync (s : State) (d : Nat) (f : Option Nat → Option Nat) : (s.modSync d f).getSync d = f (s.getSync d) := by simp [getSync, modSync]

/-! modPm -/

@[simp] theorem dies_modPm (s : State) (d w : Nat) (f : Word → Word) : (s.modPm d w f).dies = s.dies := rfl
@[simp] theorem grade_modPm (s : State) (d w : Nat) (f : Word → Word) : (s.modPm d w f).grade = s.grade := rfl
@[simp] theorem now_modPm (s : State) (d w : Nat) (f : Word → Word) : (s.modPm d w f).now = s.now := rfl
@[simp] theorem pt_modPm (s : State) (d w : Nat) (f : Word → Word) : (s.modPm d w f).pt = s.pt := rfl
@[simp] theorem seed_modPm (s : State) (d w : Nat) (f : Word → Word) : (s.modPm d w f).seed = s.seed := rfl
@[simp] theorem readData_modPm (s : State) (d w : Nat) (f : Word → Word) : (s.modPm d w f).readData = s.readData := rfl
@[simp] theorem pending_modPm (s : State) (d w : Nat) (f : Word → Word) : (s.modPm d w f).pending = s.pending := rfl
@[simp] theorem regs_modPm (s : State) (d w : Nat) (f : Word → Word) : (s.modPm d w f).regs = s.regs := rfl
@[simp] theorem die_modPm (s : State) (d w : Nat) (f : Word → Word) : (s.modPm d w f).die = s.die := rfl
@[simp] theorem inbox_modPm (s : State) (d w : Nat) (f : Word → Word) : (s.modPm d w f).inbox = s.inbox := rfl
@[simp] theorem irq_modPm (s : State) (d w : Nat) (f : Word → Word) : (s.modPm d w f).irq = s.irq := rfl
@[simp] theorem flash_modPm (s : State) (d w : Nat) (f : Word → Word) : (s.modPm d w f).flash = s.flash := rfl
@[simp] theorem dram_modPm (s : State) (d w : Nat) (f : Word → Word) : (s.modPm d w f).dram = s.dram := rfl
@[simp] theorem hostmem_modPm (s : State) (d w : Nat) (f : Word → Word) : (s.modPm d w f).hostmem = s.hostmem := rfl
@[simp] theorem getPm_modPm (s : State) (d w : Nat) (f : Word → Word) : (s.modPm d w f).getPm d w = f (s.getPm d w) := by simp [getPm, modPm]

/-! modTwin -/

@[simp] theorem dies_modTwin (s : State) (d w : Nat) (f : Word → Word) : (s.modTwin d w f).dies = s.dies := rfl
@[simp] theorem grade_modTwin (s : State) (d w : Nat) (f : Word → Word) : (s.modTwin d w f).grade = s.grade := rfl
@[simp] theorem now_modTwin (s : State) (d w : Nat) (f : Word → Word) : (s.modTwin d w f).now = s.now := rfl
@[simp] theorem pt_modTwin (s : State) (d w : Nat) (f : Word → Word) : (s.modTwin d w f).pt = s.pt := rfl
@[simp] theorem seed_modTwin (s : State) (d w : Nat) (f : Word → Word) : (s.modTwin d w f).seed = s.seed := rfl
@[simp] theorem readData_modTwin (s : State) (d w : Nat) (f : Word → Word) : (s.modTwin d w f).readData = s.readData := rfl
@[simp] theorem pending_modTwin (s : State) (d w : Nat) (f : Word → Word) : (s.modTwin d w f).pending = s.pending := rfl
@[simp] theorem regs_modTwin (s : State) (d w : Nat) (f : Word → Word) : (s.modTwin d w f).regs = s.regs := rfl
@[simp] theorem die_modTwin (s : State) (d w : Nat) (f : Word → Word) : (s.modTwin d w f).die = s.die := rfl
@[simp] theorem inbox_modTwin (s : State) (d w : Nat) (f : Word → Word) : (s.modTwin d w f).inbox = s.inbox := rfl
@[simp] theorem irq_modTwin (s : State) (d w : Nat) (f : Word → Word) : (s.modTwin d w f).irq = s.irq := rfl
@[simp] theorem flash_modTwin (s : State) (d w : Nat) (f : Word → Word) : (s.modTwin d w f).flash = s.flash := rfl
@[simp] theorem dram_modTwin (s : State) (d w : Nat) (f : Word → Word) : (s.modTwin d w f).dram = s.dram := rfl
@[simp] theorem progmem_modTwin (s : State) (d w : Nat) (f : Word → Word) : (s.modTwin d w f).progmem = s.progmem := rfl
@[simp] theorem hostmem_modTwin (s : State) (d w : Nat) (f : Word → Word) : (s.modTwin d w f).hostmem = s.hostmem := rfl
@[simp] theorem getTwin_modTwin (s : State) (d w : Nat) (f : Word → Word) : (s.modTwin d w f).getTwin d w = f (s.getTwin d w) := by simp [getTwin, modTwin]

/-! modLaw -/

@[simp] theorem dies_modLaw (s : State) (d n : Nat) (f : LawAx → LawAx) : (s.modLaw d n f).dies = s.dies := rfl
@[simp] theorem grade_modLaw (s : State) (d n : Nat) (f : LawAx → LawAx) : (s.modLaw d n f).grade = s.grade := rfl
@[simp] theorem now_modLaw (s : State) (d n : Nat) (f : LawAx → LawAx) : (s.modLaw d n f).now = s.now := rfl
@[simp] theorem pt_modLaw (s : State) (d n : Nat) (f : LawAx → LawAx) : (s.modLaw d n f).pt = s.pt := rfl
@[simp] theorem seed_modLaw (s : State) (d n : Nat) (f : LawAx → LawAx) : (s.modLaw d n f).seed = s.seed := rfl
@[simp] theorem readData_modLaw (s : State) (d n : Nat) (f : LawAx → LawAx) : (s.modLaw d n f).readData = s.readData := rfl
@[simp] theorem pending_modLaw (s : State) (d n : Nat) (f : LawAx → LawAx) : (s.modLaw d n f).pending = s.pending := rfl
@[simp] theorem regs_modLaw (s : State) (d n : Nat) (f : LawAx → LawAx) : (s.modLaw d n f).regs = s.regs := rfl
@[simp] theorem die_modLaw (s : State) (d n : Nat) (f : LawAx → LawAx) : (s.modLaw d n f).die = s.die := rfl
@[simp] theorem inbox_modLaw (s : State) (d n : Nat) (f : LawAx → LawAx) : (s.modLaw d n f).inbox = s.inbox := rfl
@[simp] theorem irq_modLaw (s : State) (d n : Nat) (f : LawAx → LawAx) : (s.modLaw d n f).irq = s.irq := rfl
@[simp] theorem flash_modLaw (s : State) (d n : Nat) (f : LawAx → LawAx) : (s.modLaw d n f).flash = s.flash := rfl
@[simp] theorem dram_modLaw (s : State) (d n : Nat) (f : LawAx → LawAx) : (s.modLaw d n f).dram = s.dram := rfl
@[simp] theorem progmem_modLaw (s : State) (d n : Nat) (f : LawAx → LawAx) : (s.modLaw d n f).progmem = s.progmem := rfl
@[simp] theorem hostmem_modLaw (s : State) (d n : Nat) (f : LawAx → LawAx) : (s.modLaw d n f).hostmem = s.hostmem := rfl
@[simp] theorem getLaw_modLaw (s : State) (d n : Nat) (f : LawAx → LawAx) : (s.modLaw d n f).getLaw d n = f (s.getLaw d n) := by simp [getLaw, modLaw]

/-! modLawDie -/

@[simp] theorem dies_modLawDie (s : State) (d : Nat) (f : LawDie → LawDie) : (s.modLawDie d f).dies = s.dies := rfl
@[simp] theorem grade_modLawDie (s : State) (d : Nat) (f : LawDie → LawDie) : (s.modLawDie d f).grade = s.grade := rfl
@[simp] theorem now_modLawDie (s : State) (d : Nat) (f : LawDie → LawDie) : (s.modLawDie d f).now = s.now := rfl
@[simp] theorem pt_modLawDie (s : State) (d : Nat) (f : LawDie → LawDie) : (s.modLawDie d f).pt = s.pt := rfl
@[simp] theorem seed_modLawDie (s : State) (d : Nat) (f : LawDie → LawDie) : (s.modLawDie d f).seed = s.seed := rfl
@[simp] theorem readData_modLawDie (s : State) (d : Nat) (f : LawDie → LawDie) : (s.modLawDie d f).readData = s.readData := rfl
@[simp] theorem pending_modLawDie (s : State) (d : Nat) (f : LawDie → LawDie) : (s.modLawDie d f).pending = s.pending := rfl
@[simp] theorem regs_modLawDie (s : State) (d : Nat) (f : LawDie → LawDie) : (s.modLawDie d f).regs = s.regs := rfl
@[simp] theorem die_modLawDie (s : State) (d : Nat) (f : LawDie → LawDie) : (s.modLawDie d f).die = s.die := rfl
@[simp] theorem inbox_modLawDie (s : State) (d : Nat) (f : LawDie → LawDie) : (s.modLawDie d f).inbox = s.inbox := rfl
@[simp] theorem irq_modLawDie (s : State) (d : Nat) (f : LawDie → LawDie) : (s.modLawDie d f).irq = s.irq := rfl
@[simp] theorem flash_modLawDie (s : State) (d : Nat) (f : LawDie → LawDie) : (s.modLawDie d f).flash = s.flash := rfl
@[simp] theorem dram_modLawDie (s : State) (d : Nat) (f : LawDie → LawDie) : (s.modLawDie d f).dram = s.dram := rfl
@[simp] theorem progmem_modLawDie (s : State) (d : Nat) (f : LawDie → LawDie) : (s.modLawDie d f).progmem = s.progmem := rfl
@[simp] theorem hostmem_modLawDie (s : State) (d : Nat) (f : LawDie → LawDie) : (s.modLawDie d f).hostmem = s.hostmem := rfl
@[simp] theorem getLawDie_modLawDie (s : State) (d : Nat) (f : LawDie → LawDie) : (s.modLawDie d f).getLawDie d = f (s.getLawDie d) := by simp [getLawDie, modLawDie]

/-! modChan -/

@[simp] theorem dies_modChan (s : State) (d c : Nat) (f : ChanRec → ChanRec) : (s.modChan d c f).dies = s.dies := rfl
@[simp] theorem grade_modChan (s : State) (d c : Nat) (f : ChanRec → ChanRec) : (s.modChan d c f).grade = s.grade := rfl
@[simp] theorem now_modChan (s : State) (d c : Nat) (f : ChanRec → ChanRec) : (s.modChan d c f).now = s.now := rfl
@[simp] theorem pt_modChan (s : State) (d c : Nat) (f : ChanRec → ChanRec) : (s.modChan d c f).pt = s.pt := rfl
@[simp] theorem seed_modChan (s : State) (d c : Nat) (f : ChanRec → ChanRec) : (s.modChan d c f).seed = s.seed := rfl
@[simp] theorem readData_modChan (s : State) (d c : Nat) (f : ChanRec → ChanRec) : (s.modChan d c f).readData = s.readData := rfl
@[simp] theorem pending_modChan (s : State) (d c : Nat) (f : ChanRec → ChanRec) : (s.modChan d c f).pending = s.pending := rfl
@[simp] theorem regs_modChan (s : State) (d c : Nat) (f : ChanRec → ChanRec) : (s.modChan d c f).regs = s.regs := rfl
@[simp] theorem die_modChan (s : State) (d c : Nat) (f : ChanRec → ChanRec) : (s.modChan d c f).die = s.die := rfl
@[simp] theorem inbox_modChan (s : State) (d c : Nat) (f : ChanRec → ChanRec) : (s.modChan d c f).inbox = s.inbox := rfl
@[simp] theorem irq_modChan (s : State) (d c : Nat) (f : ChanRec → ChanRec) : (s.modChan d c f).irq = s.irq := rfl
@[simp] theorem flash_modChan (s : State) (d c : Nat) (f : ChanRec → ChanRec) : (s.modChan d c f).flash = s.flash := rfl
@[simp] theorem dram_modChan (s : State) (d c : Nat) (f : ChanRec → ChanRec) : (s.modChan d c f).dram = s.dram := rfl
@[simp] theorem progmem_modChan (s : State) (d c : Nat) (f : ChanRec → ChanRec) : (s.modChan d c f).progmem = s.progmem := rfl
@[simp] theorem hostmem_modChan (s : State) (d c : Nat) (f : ChanRec → ChanRec) : (s.modChan d c f).hostmem = s.hostmem := rfl
@[simp] theorem getChan_modChan (s : State) (d c : Nat) (f : ChanRec → ChanRec) : (s.modChan d c f).getChan d c = f (s.getChan d c) := by simp [getChan, modChan]

/-! modTune -/

@[simp] theorem dies_modTune (s : State) (d n : Nat) (f : TuneAx → TuneAx) : (s.modTune d n f).dies = s.dies := rfl
@[simp] theorem grade_modTune (s : State) (d n : Nat) (f : TuneAx → TuneAx) : (s.modTune d n f).grade = s.grade := rfl
@[simp] theorem now_modTune (s : State) (d n : Nat) (f : TuneAx → TuneAx) : (s.modTune d n f).now = s.now := rfl
@[simp] theorem pt_modTune (s : State) (d n : Nat) (f : TuneAx → TuneAx) : (s.modTune d n f).pt = s.pt := rfl
@[simp] theorem seed_modTune (s : State) (d n : Nat) (f : TuneAx → TuneAx) : (s.modTune d n f).seed = s.seed := rfl
@[simp] theorem readData_modTune (s : State) (d n : Nat) (f : TuneAx → TuneAx) : (s.modTune d n f).readData = s.readData := rfl
@[simp] theorem pending_modTune (s : State) (d n : Nat) (f : TuneAx → TuneAx) : (s.modTune d n f).pending = s.pending := rfl
@[simp] theorem regs_modTune (s : State) (d n : Nat) (f : TuneAx → TuneAx) : (s.modTune d n f).regs = s.regs := rfl
@[simp] theorem die_modTune (s : State) (d n : Nat) (f : TuneAx → TuneAx) : (s.modTune d n f).die = s.die := rfl
@[simp] theorem inbox_modTune (s : State) (d n : Nat) (f : TuneAx → TuneAx) : (s.modTune d n f).inbox = s.inbox := rfl
@[simp] theorem irq_modTune (s : State) (d n : Nat) (f : TuneAx → TuneAx) : (s.modTune d n f).irq = s.irq := rfl
@[simp] theorem flash_modTune (s : State) (d n : Nat) (f : TuneAx → TuneAx) : (s.modTune d n f).flash = s.flash := rfl
@[simp] theorem dram_modTune (s : State) (d n : Nat) (f : TuneAx → TuneAx) : (s.modTune d n f).dram = s.dram := rfl
@[simp] theorem progmem_modTune (s : State) (d n : Nat) (f : TuneAx → TuneAx) : (s.modTune d n f).progmem = s.progmem := rfl
@[simp] theorem hostmem_modTune (s : State) (d n : Nat) (f : TuneAx → TuneAx) : (s.modTune d n f).hostmem = s.hostmem := rfl
@[simp] theorem getTune_modTune (s : State) (d n : Nat) (f : TuneAx → TuneAx) : (s.modTune d n f).getTune d n = f (s.getTune d n) := by simp [getTune, modTune]

/-! modTrc -/

@[simp] theorem dies_modTrc (s : State) (d : Nat) (f : TrcDie → TrcDie) : (s.modTrc d f).dies = s.dies := rfl
@[simp] theorem grade_modTrc (s : State) (d : Nat) (f : TrcDie → TrcDie) : (s.modTrc d f).grade = s.grade := rfl
@[simp] theorem now_modTrc (s : State) (d : Nat) (f : TrcDie → TrcDie) : (s.modTrc d f).now = s.now := rfl
@[simp] theorem pt_modTrc (s : State) (d : Nat) (f : TrcDie → TrcDie) : (s.modTrc d f).pt = s.pt := rfl
@[simp] theorem seed_modTrc (s : State) (d : Nat) (f : TrcDie → TrcDie) : (s.modTrc d f).seed = s.seed := rfl
@[simp] theorem readData_modTrc (s : State) (d : Nat) (f : TrcDie → TrcDie) : (s.modTrc d f).readData = s.readData := rfl
@[simp] theorem pending_modTrc (s : State) (d : Nat) (f : TrcDie → TrcDie) : (s.modTrc d f).pending = s.pending := rfl
@[simp] theorem regs_modTrc (s : State) (d : Nat) (f : TrcDie → TrcDie) : (s.modTrc d f).regs = s.regs := rfl
@[simp] theorem die_modTrc (s : State) (d : Nat) (f : TrcDie → TrcDie) : (s.modTrc d f).die = s.die := rfl
@[simp] theorem inbox_modTrc (s : State) (d : Nat) (f : TrcDie → TrcDie) : (s.modTrc d f).inbox = s.inbox := rfl
@[simp] theorem irq_modTrc (s : State) (d : Nat) (f : TrcDie → TrcDie) : (s.modTrc d f).irq = s.irq := rfl
@[simp] theorem flash_modTrc (s : State) (d : Nat) (f : TrcDie → TrcDie) : (s.modTrc d f).flash = s.flash := rfl
@[simp] theorem dram_modTrc (s : State) (d : Nat) (f : TrcDie → TrcDie) : (s.modTrc d f).dram = s.dram := rfl
@[simp] theorem progmem_modTrc (s : State) (d : Nat) (f : TrcDie → TrcDie) : (s.modTrc d f).progmem = s.progmem := rfl
@[simp] theorem hostmem_modTrc (s : State) (d : Nat) (f : TrcDie → TrcDie) : (s.modTrc d f).hostmem = s.hostmem := rfl
@[simp] theorem getTrc_modTrc (s : State) (d : Nat) (f : TrcDie → TrcDie) : (s.modTrc d f).getTrc d = f (s.getTrc d) := by simp [getTrc, modTrc]

/-! modTrcByte -/

@[simp] theorem dies_modTrcByte (s : State) (d o : Nat) (f : Byte → Byte) : (s.modTrcByte d o f).dies = s.dies := rfl
@[simp] theorem grade_modTrcByte (s : State) (d o : Nat) (f : Byte → Byte) : (s.modTrcByte d o f).grade = s.grade := rfl
@[simp] theorem now_modTrcByte (s : State) (d o : Nat) (f : Byte → Byte) : (s.modTrcByte d o f).now = s.now := rfl
@[simp] theorem pt_modTrcByte (s : State) (d o : Nat) (f : Byte → Byte) : (s.modTrcByte d o f).pt = s.pt := rfl
@[simp] theorem seed_modTrcByte (s : State) (d o : Nat) (f : Byte → Byte) : (s.modTrcByte d o f).seed = s.seed := rfl
@[simp] theorem readData_modTrcByte (s : State) (d o : Nat) (f : Byte → Byte) : (s.modTrcByte d o f).readData = s.readData := rfl
@[simp] theorem pending_modTrcByte (s : State) (d o : Nat) (f : Byte → Byte) : (s.modTrcByte d o f).pending = s.pending := rfl
@[simp] theorem regs_modTrcByte (s : State) (d o : Nat) (f : Byte → Byte) : (s.modTrcByte d o f).regs = s.regs := rfl
@[simp] theorem die_modTrcByte (s : State) (d o : Nat) (f : Byte → Byte) : (s.modTrcByte d o f).die = s.die := rfl
@[simp] theorem inbox_modTrcByte (s : State) (d o : Nat) (f : Byte → Byte) : (s.modTrcByte d o f).inbox = s.inbox := rfl
@[simp] theorem irq_modTrcByte (s : State) (d o : Nat) (f : Byte → Byte) : (s.modTrcByte d o f).irq = s.irq := rfl
@[simp] theorem flash_modTrcByte (s : State) (d o : Nat) (f : Byte → Byte) : (s.modTrcByte d o f).flash = s.flash := rfl
@[simp] theorem dram_modTrcByte (s : State) (d o : Nat) (f : Byte → Byte) : (s.modTrcByte d o f).dram = s.dram := rfl
@[simp] theorem progmem_modTrcByte (s : State) (d o : Nat) (f : Byte → Byte) : (s.modTrcByte d o f).progmem = s.progmem := rfl
@[simp] theorem hostmem_modTrcByte (s : State) (d o : Nat) (f : Byte → Byte) : (s.modTrcByte d o f).hostmem = s.hostmem := rfl
@[simp] theorem getTrcByte_modTrcByte (s : State) (d o : Nat) (f : Byte → Byte) : (s.modTrcByte d o f).getTrcByte d o = f (s.getTrcByte d o) := by simp [getTrcByte, modTrcByte]

/-! modRing -/

@[simp] theorem dies_modRing (s : State) (d r : Nat) (f : RingRec → RingRec) : (s.modRing d r f).dies = s.dies := rfl
@[simp] theorem grade_modRing (s : State) (d r : Nat) (f : RingRec → RingRec) : (s.modRing d r f).grade = s.grade := rfl
@[simp] theorem now_modRing (s : State) (d r : Nat) (f : RingRec → RingRec) : (s.modRing d r f).now = s.now := rfl
@[simp] theorem pt_modRing (s : State) (d r : Nat) (f : RingRec → RingRec) : (s.modRing d r f).pt = s.pt := rfl
@[simp] theorem seed_modRing (s : State) (d r : Nat) (f : RingRec → RingRec) : (s.modRing d r f).seed = s.seed := rfl
@[simp] theorem readData_modRing (s : State) (d r : Nat) (f : RingRec → RingRec) : (s.modRing d r f).readData = s.readData := rfl
@[simp] theorem pending_modRing (s : State) (d r : Nat) (f : RingRec → RingRec) : (s.modRing d r f).pending = s.pending := rfl
@[simp] theorem regs_modRing (s : State) (d r : Nat) (f : RingRec → RingRec) : (s.modRing d r f).regs = s.regs := rfl
@[simp] theorem die_modRing (s : State) (d r : Nat) (f : RingRec → RingRec) : (s.modRing d r f).die = s.die := rfl
@[simp] theorem inbox_modRing (s : State) (d r : Nat) (f : RingRec → RingRec) : (s.modRing d r f).inbox = s.inbox := rfl
@[simp] theorem irq_modRing (s : State) (d r : Nat) (f : RingRec → RingRec) : (s.modRing d r f).irq = s.irq := rfl
@[simp] theorem flash_modRing (s : State) (d r : Nat) (f : RingRec → RingRec) : (s.modRing d r f).flash = s.flash := rfl
@[simp] theorem dram_modRing (s : State) (d r : Nat) (f : RingRec → RingRec) : (s.modRing d r f).dram = s.dram := rfl
@[simp] theorem progmem_modRing (s : State) (d r : Nat) (f : RingRec → RingRec) : (s.modRing d r f).progmem = s.progmem := rfl
@[simp] theorem hostmem_modRing (s : State) (d r : Nat) (f : RingRec → RingRec) : (s.modRing d r f).hostmem = s.hostmem := rfl
@[simp] theorem getRing_modRing (s : State) (d r : Nat) (f : RingRec → RingRec) : (s.modRing d r f).getRing d r = f (s.getRing d r) := by simp [getRing, modRing]

/-! modMsix -/

@[simp] theorem dies_modMsix (s : State) (d : Nat) (f : MsixRec → MsixRec) : (s.modMsix d f).dies = s.dies := rfl
@[simp] theorem grade_modMsix (s : State) (d : Nat) (f : MsixRec → MsixRec) : (s.modMsix d f).grade = s.grade := rfl
@[simp] theorem now_modMsix (s : State) (d : Nat) (f : MsixRec → MsixRec) : (s.modMsix d f).now = s.now := rfl
@[simp] theorem pt_modMsix (s : State) (d : Nat) (f : MsixRec → MsixRec) : (s.modMsix d f).pt = s.pt := rfl
@[simp] theorem seed_modMsix (s : State) (d : Nat) (f : MsixRec → MsixRec) : (s.modMsix d f).seed = s.seed := rfl
@[simp] theorem readData_modMsix (s : State) (d : Nat) (f : MsixRec → MsixRec) : (s.modMsix d f).readData = s.readData := rfl
@[simp] theorem pending_modMsix (s : State) (d : Nat) (f : MsixRec → MsixRec) : (s.modMsix d f).pending = s.pending := rfl
@[simp] theorem regs_modMsix (s : State) (d : Nat) (f : MsixRec → MsixRec) : (s.modMsix d f).regs = s.regs := rfl
@[simp] theorem die_modMsix (s : State) (d : Nat) (f : MsixRec → MsixRec) : (s.modMsix d f).die = s.die := rfl
@[simp] theorem inbox_modMsix (s : State) (d : Nat) (f : MsixRec → MsixRec) : (s.modMsix d f).inbox = s.inbox := rfl
@[simp] theorem irq_modMsix (s : State) (d : Nat) (f : MsixRec → MsixRec) : (s.modMsix d f).irq = s.irq := rfl
@[simp] theorem flash_modMsix (s : State) (d : Nat) (f : MsixRec → MsixRec) : (s.modMsix d f).flash = s.flash := rfl
@[simp] theorem dram_modMsix (s : State) (d : Nat) (f : MsixRec → MsixRec) : (s.modMsix d f).dram = s.dram := rfl
@[simp] theorem progmem_modMsix (s : State) (d : Nat) (f : MsixRec → MsixRec) : (s.modMsix d f).progmem = s.progmem := rfl
@[simp] theorem hostmem_modMsix (s : State) (d : Nat) (f : MsixRec → MsixRec) : (s.modMsix d f).hostmem = s.hostmem := rfl
@[simp] theorem getMsix_modMsix (s : State) (d : Nat) (f : MsixRec → MsixRec) : (s.modMsix d f).getMsix d = f (s.getMsix d) := by simp [getMsix, modMsix]

/-! modFwq -/

@[simp] theorem dies_modFwq (s : State) (d : Nat) (f : List FwEnt → List FwEnt) : (s.modFwq d f).dies = s.dies := rfl
@[simp] theorem grade_modFwq (s : State) (d : Nat) (f : List FwEnt → List FwEnt) : (s.modFwq d f).grade = s.grade := rfl
@[simp] theorem now_modFwq (s : State) (d : Nat) (f : List FwEnt → List FwEnt) : (s.modFwq d f).now = s.now := rfl
@[simp] theorem pt_modFwq (s : State) (d : Nat) (f : List FwEnt → List FwEnt) : (s.modFwq d f).pt = s.pt := rfl
@[simp] theorem seed_modFwq (s : State) (d : Nat) (f : List FwEnt → List FwEnt) : (s.modFwq d f).seed = s.seed := rfl
@[simp] theorem readData_modFwq (s : State) (d : Nat) (f : List FwEnt → List FwEnt) : (s.modFwq d f).readData = s.readData := rfl
@[simp] theorem pending_modFwq (s : State) (d : Nat) (f : List FwEnt → List FwEnt) : (s.modFwq d f).pending = s.pending := rfl
@[simp] theorem regs_modFwq (s : State) (d : Nat) (f : List FwEnt → List FwEnt) : (s.modFwq d f).regs = s.regs := rfl
@[simp] theorem die_modFwq (s : State) (d : Nat) (f : List FwEnt → List FwEnt) : (s.modFwq d f).die = s.die := rfl
@[simp] theorem inbox_modFwq (s : State) (d : Nat) (f : List FwEnt → List FwEnt) : (s.modFwq d f).inbox = s.inbox := rfl
@[simp] theorem irq_modFwq (s : State) (d : Nat) (f : List FwEnt → List FwEnt) : (s.modFwq d f).irq = s.irq := rfl
@[simp] theorem flash_modFwq (s : State) (d : Nat) (f : List FwEnt → List FwEnt) : (s.modFwq d f).flash = s.flash := rfl
@[simp] theorem dram_modFwq (s : State) (d : Nat) (f : List FwEnt → List FwEnt) : (s.modFwq d f).dram = s.dram := rfl
@[simp] theorem progmem_modFwq (s : State) (d : Nat) (f : List FwEnt → List FwEnt) : (s.modFwq d f).progmem = s.progmem := rfl
@[simp] theorem hostmem_modFwq (s : State) (d : Nat) (f : List FwEnt → List FwEnt) : (s.modFwq d f).hostmem = s.hostmem := rfl
@[simp] theorem getFwq_modFwq (s : State) (d : Nat) (f : List FwEnt → List FwEnt) : (s.modFwq d f).getFwq d = f (s.getFwq d) := by simp [getFwq, modFwq]

/-! modTrm -/

@[simp] theorem dies_modTrm (s : State) (d : Nat) (f : TrmDie → TrmDie) : (s.modTrm d f).dies = s.dies := rfl
@[simp] theorem grade_modTrm (s : State) (d : Nat) (f : TrmDie → TrmDie) : (s.modTrm d f).grade = s.grade := rfl
@[simp] theorem now_modTrm (s : State) (d : Nat) (f : TrmDie → TrmDie) : (s.modTrm d f).now = s.now := rfl
@[simp] theorem pt_modTrm (s : State) (d : Nat) (f : TrmDie → TrmDie) : (s.modTrm d f).pt = s.pt := rfl
@[simp] theorem seed_modTrm (s : State) (d : Nat) (f : TrmDie → TrmDie) : (s.modTrm d f).seed = s.seed := rfl
@[simp] theorem readData_modTrm (s : State) (d : Nat) (f : TrmDie → TrmDie) : (s.modTrm d f).readData = s.readData := rfl
@[simp] theorem pending_modTrm (s : State) (d : Nat) (f : TrmDie → TrmDie) : (s.modTrm d f).pending = s.pending := rfl
@[simp] theorem regs_modTrm (s : State) (d : Nat) (f : TrmDie → TrmDie) : (s.modTrm d f).regs = s.regs := rfl
@[simp] theorem die_modTrm (s : State) (d : Nat) (f : TrmDie → TrmDie) : (s.modTrm d f).die = s.die := rfl
@[simp] theorem inbox_modTrm (s : State) (d : Nat) (f : TrmDie → TrmDie) : (s.modTrm d f).inbox = s.inbox := rfl
@[simp] theorem irq_modTrm (s : State) (d : Nat) (f : TrmDie → TrmDie) : (s.modTrm d f).irq = s.irq := rfl
@[simp] theorem flash_modTrm (s : State) (d : Nat) (f : TrmDie → TrmDie) : (s.modTrm d f).flash = s.flash := rfl
@[simp] theorem dram_modTrm (s : State) (d : Nat) (f : TrmDie → TrmDie) : (s.modTrm d f).dram = s.dram := rfl
@[simp] theorem progmem_modTrm (s : State) (d : Nat) (f : TrmDie → TrmDie) : (s.modTrm d f).progmem = s.progmem := rfl
@[simp] theorem hostmem_modTrm (s : State) (d : Nat) (f : TrmDie → TrmDie) : (s.modTrm d f).hostmem = s.hostmem := rfl
@[simp] theorem getTrm_modTrm (s : State) (d : Nat) (f : TrmDie → TrmDie) : (s.modTrm d f).getTrm d = f (s.getTrm d) := by simp [getTrm, modTrm]

/-! modPort -/

@[simp] theorem dies_modPort (s : State) (d : Nat) (f : PortRec → PortRec) : (s.modPort d f).dies = s.dies := rfl
@[simp] theorem grade_modPort (s : State) (d : Nat) (f : PortRec → PortRec) : (s.modPort d f).grade = s.grade := rfl
@[simp] theorem now_modPort (s : State) (d : Nat) (f : PortRec → PortRec) : (s.modPort d f).now = s.now := rfl
@[simp] theorem pt_modPort (s : State) (d : Nat) (f : PortRec → PortRec) : (s.modPort d f).pt = s.pt := rfl
@[simp] theorem seed_modPort (s : State) (d : Nat) (f : PortRec → PortRec) : (s.modPort d f).seed = s.seed := rfl
@[simp] theorem readData_modPort (s : State) (d : Nat) (f : PortRec → PortRec) : (s.modPort d f).readData = s.readData := rfl
@[simp] theorem pending_modPort (s : State) (d : Nat) (f : PortRec → PortRec) : (s.modPort d f).pending = s.pending := rfl
@[simp] theorem regs_modPort (s : State) (d : Nat) (f : PortRec → PortRec) : (s.modPort d f).regs = s.regs := rfl
@[simp] theorem die_modPort (s : State) (d : Nat) (f : PortRec → PortRec) : (s.modPort d f).die = s.die := rfl
@[simp] theorem inbox_modPort (s : State) (d : Nat) (f : PortRec → PortRec) : (s.modPort d f).inbox = s.inbox := rfl
@[simp] theorem irq_modPort (s : State) (d : Nat) (f : PortRec → PortRec) : (s.modPort d f).irq = s.irq := rfl
@[simp] theorem flash_modPort (s : State) (d : Nat) (f : PortRec → PortRec) : (s.modPort d f).flash = s.flash := rfl
@[simp] theorem dram_modPort (s : State) (d : Nat) (f : PortRec → PortRec) : (s.modPort d f).dram = s.dram := rfl
@[simp] theorem progmem_modPort (s : State) (d : Nat) (f : PortRec → PortRec) : (s.modPort d f).progmem = s.progmem := rfl
@[simp] theorem hostmem_modPort (s : State) (d : Nat) (f : PortRec → PortRec) : (s.modPort d f).hostmem = s.hostmem := rfl
@[simp] theorem getPort_modPort (s : State) (d : Nat) (f : PortRec → PortRec) : (s.modPort d f).getPort d = f (s.getPort d) := by simp [getPort, modPort]

/-! modStk -/

@[simp] theorem dies_modStk (s : State) (d : Nat) (f : StkDie → StkDie) : (s.modStk d f).dies = s.dies := rfl
@[simp] theorem grade_modStk (s : State) (d : Nat) (f : StkDie → StkDie) : (s.modStk d f).grade = s.grade := rfl
@[simp] theorem now_modStk (s : State) (d : Nat) (f : StkDie → StkDie) : (s.modStk d f).now = s.now := rfl
@[simp] theorem pt_modStk (s : State) (d : Nat) (f : StkDie → StkDie) : (s.modStk d f).pt = s.pt := rfl
@[simp] theorem seed_modStk (s : State) (d : Nat) (f : StkDie → StkDie) : (s.modStk d f).seed = s.seed := rfl
@[simp] theorem readData_modStk (s : State) (d : Nat) (f : StkDie → StkDie) : (s.modStk d f).readData = s.readData := rfl
@[simp] theorem pending_modStk (s : State) (d : Nat) (f : StkDie → StkDie) : (s.modStk d f).pending = s.pending := rfl
@[simp] theorem regs_modStk (s : State) (d : Nat) (f : StkDie → StkDie) : (s.modStk d f).regs = s.regs := rfl
@[simp] theorem die_modStk (s : State) (d : Nat) (f : StkDie → StkDie) : (s.modStk d f).die = s.die := rfl
@[simp] theorem inbox_modStk (s : State) (d : Nat) (f : StkDie → StkDie) : (s.modStk d f).inbox = s.inbox := rfl
@[simp] theorem irq_modStk (s : State) (d : Nat) (f : StkDie → StkDie) : (s.modStk d f).irq = s.irq := rfl
@[simp] theorem flash_modStk (s : State) (d : Nat) (f : StkDie → StkDie) : (s.modStk d f).flash = s.flash := rfl
@[simp] theorem dram_modStk (s : State) (d : Nat) (f : StkDie → StkDie) : (s.modStk d f).dram = s.dram := rfl
@[simp] theorem progmem_modStk (s : State) (d : Nat) (f : StkDie → StkDie) : (s.modStk d f).progmem = s.progmem := rfl
@[simp] theorem hostmem_modStk (s : State) (d : Nat) (f : StkDie → StkDie) : (s.modStk d f).hostmem = s.hostmem := rfl
@[simp] theorem getStk_modStk (s : State) (d : Nat) (f : StkDie → StkDie) : (s.modStk d f).getStk d = f (s.getStk d) := by simp [getStk, modStk]

/-! modNsr -/

@[simp] theorem dies_modNsr (s : State) (c k : Nat) (f : NsRec → NsRec) : (s.modNsr c k f).dies = s.dies := rfl
@[simp] theorem grade_modNsr (s : State) (c k : Nat) (f : NsRec → NsRec) : (s.modNsr c k f).grade = s.grade := rfl
@[simp] theorem now_modNsr (s : State) (c k : Nat) (f : NsRec → NsRec) : (s.modNsr c k f).now = s.now := rfl
@[simp] theorem pt_modNsr (s : State) (c k : Nat) (f : NsRec → NsRec) : (s.modNsr c k f).pt = s.pt := rfl
@[simp] theorem seed_modNsr (s : State) (c k : Nat) (f : NsRec → NsRec) : (s.modNsr c k f).seed = s.seed := rfl
@[simp] theorem readData_modNsr (s : State) (c k : Nat) (f : NsRec → NsRec) : (s.modNsr c k f).readData = s.readData := rfl
@[simp] theorem pending_modNsr (s : State) (c k : Nat) (f : NsRec → NsRec) : (s.modNsr c k f).pending = s.pending := rfl
@[simp] theorem regs_modNsr (s : State) (c k : Nat) (f : NsRec → NsRec) : (s.modNsr c k f).regs = s.regs := rfl
@[simp] theorem die_modNsr (s : State) (c k : Nat) (f : NsRec → NsRec) : (s.modNsr c k f).die = s.die := rfl
@[simp] theorem inbox_modNsr (s : State) (c k : Nat) (f : NsRec → NsRec) : (s.modNsr c k f).inbox = s.inbox := rfl
@[simp] theorem irq_modNsr (s : State) (c k : Nat) (f : NsRec → NsRec) : (s.modNsr c k f).irq = s.irq := rfl
@[simp] theorem flash_modNsr (s : State) (c k : Nat) (f : NsRec → NsRec) : (s.modNsr c k f).flash = s.flash := rfl
@[simp] theorem dram_modNsr (s : State) (c k : Nat) (f : NsRec → NsRec) : (s.modNsr c k f).dram = s.dram := rfl
@[simp] theorem progmem_modNsr (s : State) (c k : Nat) (f : NsRec → NsRec) : (s.modNsr c k f).progmem = s.progmem := rfl
@[simp] theorem hostmem_modNsr (s : State) (c k : Nat) (f : NsRec → NsRec) : (s.modNsr c k f).hostmem = s.hostmem := rfl
@[simp] theorem getNsr_modNsr (s : State) (c k : Nat) (f : NsRec → NsRec) : (s.modNsr c k f).getNsr c k = f (s.getNsr c k) := by simp [getNsr, modNsr]

/-! modMem -/

@[simp] theorem dies_modMem (s : State) (d : Nat) (f : MemRec → MemRec) : (s.modMem d f).dies = s.dies := rfl
@[simp] theorem grade_modMem (s : State) (d : Nat) (f : MemRec → MemRec) : (s.modMem d f).grade = s.grade := rfl
@[simp] theorem now_modMem (s : State) (d : Nat) (f : MemRec → MemRec) : (s.modMem d f).now = s.now := rfl
@[simp] theorem pt_modMem (s : State) (d : Nat) (f : MemRec → MemRec) : (s.modMem d f).pt = s.pt := rfl
@[simp] theorem seed_modMem (s : State) (d : Nat) (f : MemRec → MemRec) : (s.modMem d f).seed = s.seed := rfl
@[simp] theorem readData_modMem (s : State) (d : Nat) (f : MemRec → MemRec) : (s.modMem d f).readData = s.readData := rfl
@[simp] theorem pending_modMem (s : State) (d : Nat) (f : MemRec → MemRec) : (s.modMem d f).pending = s.pending := rfl
@[simp] theorem regs_modMem (s : State) (d : Nat) (f : MemRec → MemRec) : (s.modMem d f).regs = s.regs := rfl
@[simp] theorem die_modMem (s : State) (d : Nat) (f : MemRec → MemRec) : (s.modMem d f).die = s.die := rfl
@[simp] theorem inbox_modMem (s : State) (d : Nat) (f : MemRec → MemRec) : (s.modMem d f).inbox = s.inbox := rfl
@[simp] theorem irq_modMem (s : State) (d : Nat) (f : MemRec → MemRec) : (s.modMem d f).irq = s.irq := rfl
@[simp] theorem flash_modMem (s : State) (d : Nat) (f : MemRec → MemRec) : (s.modMem d f).flash = s.flash := rfl
@[simp] theorem dram_modMem (s : State) (d : Nat) (f : MemRec → MemRec) : (s.modMem d f).dram = s.dram := rfl
@[simp] theorem progmem_modMem (s : State) (d : Nat) (f : MemRec → MemRec) : (s.modMem d f).progmem = s.progmem := rfl
@[simp] theorem hostmem_modMem (s : State) (d : Nat) (f : MemRec → MemRec) : (s.modMem d f).hostmem = s.hostmem := rfl
@[simp] theorem getMem_modMem (s : State) (d : Nat) (f : MemRec → MemRec) : (s.modMem d f).getMem d = f (s.getMem d) := by simp [getMem, modMem]

/-! modLedq -/

@[simp] theorem dies_modLedq (s : State) (d : Nat) (f : List LedgEnt → List LedgEnt) : (s.modLedq d f).dies = s.dies := rfl
@[simp] theorem grade_modLedq (s : State) (d : Nat) (f : List LedgEnt → List LedgEnt) : (s.modLedq d f).grade = s.grade := rfl
@[simp] theorem now_modLedq (s : State) (d : Nat) (f : List LedgEnt → List LedgEnt) : (s.modLedq d f).now = s.now := rfl
@[simp] theorem pt_modLedq (s : State) (d : Nat) (f : List LedgEnt → List LedgEnt) : (s.modLedq d f).pt = s.pt := rfl
@[simp] theorem seed_modLedq (s : State) (d : Nat) (f : List LedgEnt → List LedgEnt) : (s.modLedq d f).seed = s.seed := rfl
@[simp] theorem readData_modLedq (s : State) (d : Nat) (f : List LedgEnt → List LedgEnt) : (s.modLedq d f).readData = s.readData := rfl
@[simp] theorem pending_modLedq (s : State) (d : Nat) (f : List LedgEnt → List LedgEnt) : (s.modLedq d f).pending = s.pending := rfl
@[simp] theorem regs_modLedq (s : State) (d : Nat) (f : List LedgEnt → List LedgEnt) : (s.modLedq d f).regs = s.regs := rfl
@[simp] theorem die_modLedq (s : State) (d : Nat) (f : List LedgEnt → List LedgEnt) : (s.modLedq d f).die = s.die := rfl
@[simp] theorem inbox_modLedq (s : State) (d : Nat) (f : List LedgEnt → List LedgEnt) : (s.modLedq d f).inbox = s.inbox := rfl
@[simp] theorem irq_modLedq (s : State) (d : Nat) (f : List LedgEnt → List LedgEnt) : (s.modLedq d f).irq = s.irq := rfl
@[simp] theorem flash_modLedq (s : State) (d : Nat) (f : List LedgEnt → List LedgEnt) : (s.modLedq d f).flash = s.flash := rfl
@[simp] theorem dram_modLedq (s : State) (d : Nat) (f : List LedgEnt → List LedgEnt) : (s.modLedq d f).dram = s.dram := rfl
@[simp] theorem progmem_modLedq (s : State) (d : Nat) (f : List LedgEnt → List LedgEnt) : (s.modLedq d f).progmem = s.progmem := rfl
@[simp] theorem hostmem_modLedq (s : State) (d : Nat) (f : List LedgEnt → List LedgEnt) : (s.modLedq d f).hostmem = s.hostmem := rfl
@[simp] theorem getLedq_modLedq (s : State) (d : Nat) (f : List LedgEnt → List LedgEnt) : (s.modLedq d f).getLedq d = f (s.getLedq d) := by simp [getLedq, modLedq]

/-! modNvf -/

@[simp] theorem dies_modNvf (s : State) (d : Nat) (f : Option NvfRun → Option NvfRun) : (s.modNvf d f).dies = s.dies := rfl
@[simp] theorem grade_modNvf (s : State) (d : Nat) (f : Option NvfRun → Option NvfRun) : (s.modNvf d f).grade = s.grade := rfl
@[simp] theorem now_modNvf (s : State) (d : Nat) (f : Option NvfRun → Option NvfRun) : (s.modNvf d f).now = s.now := rfl
@[simp] theorem pt_modNvf (s : State) (d : Nat) (f : Option NvfRun → Option NvfRun) : (s.modNvf d f).pt = s.pt := rfl
@[simp] theorem seed_modNvf (s : State) (d : Nat) (f : Option NvfRun → Option NvfRun) : (s.modNvf d f).seed = s.seed := rfl
@[simp] theorem readData_modNvf (s : State) (d : Nat) (f : Option NvfRun → Option NvfRun) : (s.modNvf d f).readData = s.readData := rfl
@[simp] theorem pending_modNvf (s : State) (d : Nat) (f : Option NvfRun → Option NvfRun) : (s.modNvf d f).pending = s.pending := rfl
@[simp] theorem regs_modNvf (s : State) (d : Nat) (f : Option NvfRun → Option NvfRun) : (s.modNvf d f).regs = s.regs := rfl
@[simp] theorem die_modNvf (s : State) (d : Nat) (f : Option NvfRun → Option NvfRun) : (s.modNvf d f).die = s.die := rfl
@[simp] theorem inbox_modNvf (s : State) (d : Nat) (f : Option NvfRun → Option NvfRun) : (s.modNvf d f).inbox = s.inbox := rfl
@[simp] theorem irq_modNvf (s : State) (d : Nat) (f : Option NvfRun → Option NvfRun) : (s.modNvf d f).irq = s.irq := rfl
@[simp] theorem flash_modNvf (s : State) (d : Nat) (f : Option NvfRun → Option NvfRun) : (s.modNvf d f).flash = s.flash := rfl
@[simp] theorem dram_modNvf (s : State) (d : Nat) (f : Option NvfRun → Option NvfRun) : (s.modNvf d f).dram = s.dram := rfl
@[simp] theorem progmem_modNvf (s : State) (d : Nat) (f : Option NvfRun → Option NvfRun) : (s.modNvf d f).progmem = s.progmem := rfl
@[simp] theorem hostmem_modNvf (s : State) (d : Nat) (f : Option NvfRun → Option NvfRun) : (s.modNvf d f).hostmem = s.hostmem := rfl
@[simp] theorem getNvf_modNvf (s : State) (d : Nat) (f : Option NvfRun → Option NvfRun) : (s.modNvf d f).getNvf d = f (s.getNvf d) := by simp [getNvf, modNvf]

/-! modMark -/

@[simp] theorem dies_modMark (s : State) (d a k : Nat) (f : Marker → Marker) : (s.modMark d a k f).dies = s.dies := rfl
@[simp] theorem grade_modMark (s : State) (d a k : Nat) (f : Marker → Marker) : (s.modMark d a k f).grade = s.grade := rfl
@[simp] theorem now_modMark (s : State) (d a k : Nat) (f : Marker → Marker) : (s.modMark d a k f).now = s.now := rfl
@[simp] theorem pt_modMark (s : State) (d a k : Nat) (f : Marker → Marker) : (s.modMark d a k f).pt = s.pt := rfl
@[simp] theorem seed_modMark (s : State) (d a k : Nat) (f : Marker → Marker) : (s.modMark d a k f).seed = s.seed := rfl
@[simp] theorem readData_modMark (s : State) (d a k : Nat) (f : Marker → Marker) : (s.modMark d a k f).readData = s.readData := rfl
@[simp] theorem pending_modMark (s : State) (d a k : Nat) (f : Marker → Marker) : (s.modMark d a k f).pending = s.pending := rfl
@[simp] theorem regs_modMark (s : State) (d a k : Nat) (f : Marker → Marker) : (s.modMark d a k f).regs = s.regs := rfl
@[simp] theorem die_modMark (s : State) (d a k : Nat) (f : Marker → Marker) : (s.modMark d a k f).die = s.die := rfl
@[simp] theorem inbox_modMark (s : State) (d a k : Nat) (f : Marker → Marker) : (s.modMark d a k f).inbox = s.inbox := rfl
@[simp] theorem irq_modMark (s : State) (d a k : Nat) (f : Marker → Marker) : (s.modMark d a k f).irq = s.irq := rfl
@[simp] theorem flash_modMark (s : State) (d a k : Nat) (f : Marker → Marker) : (s.modMark d a k f).flash = s.flash := rfl
@[simp] theorem dram_modMark (s : State) (d a k : Nat) (f : Marker → Marker) : (s.modMark d a k f).dram = s.dram := rfl
@[simp] theorem progmem_modMark (s : State) (d a k : Nat) (f : Marker → Marker) : (s.modMark d a k f).progmem = s.progmem := rfl
@[simp] theorem hostmem_modMark (s : State) (d a k : Nat) (f : Marker → Marker) : (s.modMark d a k f).hostmem = s.hostmem := rfl
@[simp] theorem getMark_modMark (s : State) (d a k : Nat) (f : Marker → Marker) : (s.modMark d a k f).getMark d a k = f (s.getMark d a k) := by simp [getMark, modMark]

/-! modSignq -/

@[simp] theorem dies_modSignq (s : State) (d : Nat) (f : List SignReq → List SignReq) : (s.modSignq d f).dies = s.dies := rfl
@[simp] theorem grade_modSignq (s : State) (d : Nat) (f : List SignReq → List SignReq) : (s.modSignq d f).grade = s.grade := rfl
@[simp] theorem now_modSignq (s : State) (d : Nat) (f : List SignReq → List SignReq) : (s.modSignq d f).now = s.now := rfl
@[simp] theorem pt_modSignq (s : State) (d : Nat) (f : List SignReq → List SignReq) : (s.modSignq d f).pt = s.pt := rfl
@[simp] theorem seed_modSignq (s : State) (d : Nat) (f : List SignReq → List SignReq) : (s.modSignq d f).seed = s.seed := rfl
@[simp] theorem readData_modSignq (s : State) (d : Nat) (f : List SignReq → List SignReq) : (s.modSignq d f).readData = s.readData := rfl
@[simp] theorem pending_modSignq (s : State) (d : Nat) (f : List SignReq → List SignReq) : (s.modSignq d f).pending = s.pending := rfl
@[simp] theorem regs_modSignq (s : State) (d : Nat) (f : List SignReq → List SignReq) : (s.modSignq d f).regs = s.regs := rfl
@[simp] theorem die_modSignq (s : State) (d : Nat) (f : List SignReq → List SignReq) : (s.modSignq d f).die = s.die := rfl
@[simp] theorem inbox_modSignq (s : State) (d : Nat) (f : List SignReq → List SignReq) : (s.modSignq d f).inbox = s.inbox := rfl
@[simp] theorem irq_modSignq (s : State) (d : Nat) (f : List SignReq → List SignReq) : (s.modSignq d f).irq = s.irq := rfl
@[simp] theorem flash_modSignq (s : State) (d : Nat) (f : List SignReq → List SignReq) : (s.modSignq d f).flash = s.flash := rfl
@[simp] theorem dram_modSignq (s : State) (d : Nat) (f : List SignReq → List SignReq) : (s.modSignq d f).dram = s.dram := rfl
@[simp] theorem progmem_modSignq (s : State) (d : Nat) (f : List SignReq → List SignReq) : (s.modSignq d f).progmem = s.progmem := rfl
@[simp] theorem hostmem_modSignq (s : State) (d : Nat) (f : List SignReq → List SignReq) : (s.modSignq d f).hostmem = s.hostmem := rfl
@[simp] theorem getSignq_modSignq (s : State) (d : Nat) (f : List SignReq → List SignReq) : (s.modSignq d f).getSignq d = f (s.getSignq d) := by simp [getSignq, modSignq]

/-! modRepByte -/

@[simp] theorem dies_modRepByte (s : State) (d o : Nat) (f : Byte → Byte) : (s.modRepByte d o f).dies = s.dies := rfl
@[simp] theorem grade_modRepByte (s : State) (d o : Nat) (f : Byte → Byte) : (s.modRepByte d o f).grade = s.grade := rfl
@[simp] theorem now_modRepByte (s : State) (d o : Nat) (f : Byte → Byte) : (s.modRepByte d o f).now = s.now := rfl
@[simp] theorem pt_modRepByte (s : State) (d o : Nat) (f : Byte → Byte) : (s.modRepByte d o f).pt = s.pt := rfl
@[simp] theorem seed_modRepByte (s : State) (d o : Nat) (f : Byte → Byte) : (s.modRepByte d o f).seed = s.seed := rfl
@[simp] theorem readData_modRepByte (s : State) (d o : Nat) (f : Byte → Byte) : (s.modRepByte d o f).readData = s.readData := rfl
@[simp] theorem pending_modRepByte (s : State) (d o : Nat) (f : Byte → Byte) : (s.modRepByte d o f).pending = s.pending := rfl
@[simp] theorem regs_modRepByte (s : State) (d o : Nat) (f : Byte → Byte) : (s.modRepByte d o f).regs = s.regs := rfl
@[simp] theorem die_modRepByte (s : State) (d o : Nat) (f : Byte → Byte) : (s.modRepByte d o f).die = s.die := rfl
@[simp] theorem inbox_modRepByte (s : State) (d o : Nat) (f : Byte → Byte) : (s.modRepByte d o f).inbox = s.inbox := rfl
@[simp] theorem irq_modRepByte (s : State) (d o : Nat) (f : Byte → Byte) : (s.modRepByte d o f).irq = s.irq := rfl
@[simp] theorem flash_modRepByte (s : State) (d o : Nat) (f : Byte → Byte) : (s.modRepByte d o f).flash = s.flash := rfl
@[simp] theorem dram_modRepByte (s : State) (d o : Nat) (f : Byte → Byte) : (s.modRepByte d o f).dram = s.dram := rfl
@[simp] theorem progmem_modRepByte (s : State) (d o : Nat) (f : Byte → Byte) : (s.modRepByte d o f).progmem = s.progmem := rfl
@[simp] theorem hostmem_modRepByte (s : State) (d o : Nat) (f : Byte → Byte) : (s.modRepByte d o f).hostmem = s.hostmem := rfl
@[simp] theorem getRepByte_modRepByte (s : State) (d o : Nat) (f : Byte → Byte) : (s.modRepByte d o f).getRepByte d o = f (s.getRepByte d o) := by simp [getRepByte, modRepByte]

/-! modGov -/

@[simp] theorem dies_modGov (s : State) (d : Nat) (f : PwrDie → PwrDie) : (s.modGov d f).dies = s.dies := rfl
@[simp] theorem grade_modGov (s : State) (d : Nat) (f : PwrDie → PwrDie) : (s.modGov d f).grade = s.grade := rfl
@[simp] theorem now_modGov (s : State) (d : Nat) (f : PwrDie → PwrDie) : (s.modGov d f).now = s.now := rfl
@[simp] theorem pt_modGov (s : State) (d : Nat) (f : PwrDie → PwrDie) : (s.modGov d f).pt = s.pt := rfl
@[simp] theorem seed_modGov (s : State) (d : Nat) (f : PwrDie → PwrDie) : (s.modGov d f).seed = s.seed := rfl
@[simp] theorem readData_modGov (s : State) (d : Nat) (f : PwrDie → PwrDie) : (s.modGov d f).readData = s.readData := rfl
@[simp] theorem pending_modGov (s : State) (d : Nat) (f : PwrDie → PwrDie) : (s.modGov d f).pending = s.pending := rfl
@[simp] theorem regs_modGov (s : State) (d : Nat) (f : PwrDie → PwrDie) : (s.modGov d f).regs = s.regs := rfl
@[simp] theorem die_modGov (s : State) (d : Nat) (f : PwrDie → PwrDie) : (s.modGov d f).die = s.die := rfl
@[simp] theorem inbox_modGov (s : State) (d : Nat) (f : PwrDie → PwrDie) : (s.modGov d f).inbox = s.inbox := rfl
@[simp] theorem irq_modGov (s : State) (d : Nat) (f : PwrDie → PwrDie) : (s.modGov d f).irq = s.irq := rfl
@[simp] theorem flash_modGov (s : State) (d : Nat) (f : PwrDie → PwrDie) : (s.modGov d f).flash = s.flash := rfl
@[simp] theorem dram_modGov (s : State) (d : Nat) (f : PwrDie → PwrDie) : (s.modGov d f).dram = s.dram := rfl
@[simp] theorem progmem_modGov (s : State) (d : Nat) (f : PwrDie → PwrDie) : (s.modGov d f).progmem = s.progmem := rfl
@[simp] theorem hostmem_modGov (s : State) (d : Nat) (f : PwrDie → PwrDie) : (s.modGov d f).hostmem = s.hostmem := rfl
@[simp] theorem getGov_modGov (s : State) (d : Nat) (f : PwrDie → PwrDie) : (s.modGov d f).getGov d = f (s.getGov d) := by simp [getGov, modGov]

/-! modRails -/

@[simp] theorem dies_modRails (s : State) (d : Nat) (f : RailRec → RailRec) : (s.modRails d f).dies = s.dies := rfl
@[simp] theorem grade_modRails (s : State) (d : Nat) (f : RailRec → RailRec) : (s.modRails d f).grade = s.grade := rfl
@[simp] theorem now_modRails (s : State) (d : Nat) (f : RailRec → RailRec) : (s.modRails d f).now = s.now := rfl
@[simp] theorem pt_modRails (s : State) (d : Nat) (f : RailRec → RailRec) : (s.modRails d f).pt = s.pt := rfl
@[simp] theorem seed_modRails (s : State) (d : Nat) (f : RailRec → RailRec) : (s.modRails d f).seed = s.seed := rfl
@[simp] theorem readData_modRails (s : State) (d : Nat) (f : RailRec → RailRec) : (s.modRails d f).readData = s.readData := rfl
@[simp] theorem pending_modRails (s : State) (d : Nat) (f : RailRec → RailRec) : (s.modRails d f).pending = s.pending := rfl
@[simp] theorem regs_modRails (s : State) (d : Nat) (f : RailRec → RailRec) : (s.modRails d f).regs = s.regs := rfl
@[simp] theorem die_modRails (s : State) (d : Nat) (f : RailRec → RailRec) : (s.modRails d f).die = s.die := rfl
@[simp] theorem inbox_modRails (s : State) (d : Nat) (f : RailRec → RailRec) : (s.modRails d f).inbox = s.inbox := rfl
@[simp] theorem irq_modRails (s : State) (d : Nat) (f : RailRec → RailRec) : (s.modRails d f).irq = s.irq := rfl
@[simp] theorem flash_modRails (s : State) (d : Nat) (f : RailRec → RailRec) : (s.modRails d f).flash = s.flash := rfl
@[simp] theorem dram_modRails (s : State) (d : Nat) (f : RailRec → RailRec) : (s.modRails d f).dram = s.dram := rfl
@[simp] theorem progmem_modRails (s : State) (d : Nat) (f : RailRec → RailRec) : (s.modRails d f).progmem = s.progmem := rfl
@[simp] theorem hostmem_modRails (s : State) (d : Nat) (f : RailRec → RailRec) : (s.modRails d f).hostmem = s.hostmem := rfl
@[simp] theorem getRails_modRails (s : State) (d : Nat) (f : RailRec → RailRec) : (s.modRails d f).getRails d = f (s.getRails d) := by simp [getRails, modRails]

/-! modSrc -/

@[simp] theorem dies_modSrc (s : State) (d k : Nat) (f : SrcRec → SrcRec) : (s.modSrc d k f).dies = s.dies := rfl
@[simp] theorem grade_modSrc (s : State) (d k : Nat) (f : SrcRec → SrcRec) : (s.modSrc d k f).grade = s.grade := rfl
@[simp] theorem now_modSrc (s : State) (d k : Nat) (f : SrcRec → SrcRec) : (s.modSrc d k f).now = s.now := rfl
@[simp] theorem pt_modSrc (s : State) (d k : Nat) (f : SrcRec → SrcRec) : (s.modSrc d k f).pt = s.pt := rfl
@[simp] theorem seed_modSrc (s : State) (d k : Nat) (f : SrcRec → SrcRec) : (s.modSrc d k f).seed = s.seed := rfl
@[simp] theorem readData_modSrc (s : State) (d k : Nat) (f : SrcRec → SrcRec) : (s.modSrc d k f).readData = s.readData := rfl
@[simp] theorem pending_modSrc (s : State) (d k : Nat) (f : SrcRec → SrcRec) : (s.modSrc d k f).pending = s.pending := rfl
@[simp] theorem regs_modSrc (s : State) (d k : Nat) (f : SrcRec → SrcRec) : (s.modSrc d k f).regs = s.regs := rfl
@[simp] theorem die_modSrc (s : State) (d k : Nat) (f : SrcRec → SrcRec) : (s.modSrc d k f).die = s.die := rfl
@[simp] theorem inbox_modSrc (s : State) (d k : Nat) (f : SrcRec → SrcRec) : (s.modSrc d k f).inbox = s.inbox := rfl
@[simp] theorem irq_modSrc (s : State) (d k : Nat) (f : SrcRec → SrcRec) : (s.modSrc d k f).irq = s.irq := rfl
@[simp] theorem flash_modSrc (s : State) (d k : Nat) (f : SrcRec → SrcRec) : (s.modSrc d k f).flash = s.flash := rfl
@[simp] theorem dram_modSrc (s : State) (d k : Nat) (f : SrcRec → SrcRec) : (s.modSrc d k f).dram = s.dram := rfl
@[simp] theorem progmem_modSrc (s : State) (d k : Nat) (f : SrcRec → SrcRec) : (s.modSrc d k f).progmem = s.progmem := rfl
@[simp] theorem hostmem_modSrc (s : State) (d k : Nat) (f : SrcRec → SrcRec) : (s.modSrc d k f).hostmem = s.hostmem := rfl
@[simp] theorem getSrc_modSrc (s : State) (d k : Nat) (f : SrcRec → SrcRec) : (s.modSrc d k f).getSrc d k = f (s.getSrc d k) := by simp [getSrc, modSrc]

/-! modFlt -/

@[simp] theorem dies_modFlt (s : State) (d : Nat) (f : FltDie → FltDie) : (s.modFlt d f).dies = s.dies := rfl
@[simp] theorem grade_modFlt (s : State) (d : Nat) (f : FltDie → FltDie) : (s.modFlt d f).grade = s.grade := rfl
@[simp] theorem now_modFlt (s : State) (d : Nat) (f : FltDie → FltDie) : (s.modFlt d f).now = s.now := rfl
@[simp] theorem pt_modFlt (s : State) (d : Nat) (f : FltDie → FltDie) : (s.modFlt d f).pt = s.pt := rfl
@[simp] theorem seed_modFlt (s : State) (d : Nat) (f : FltDie → FltDie) : (s.modFlt d f).seed = s.seed := rfl
@[simp] theorem readData_modFlt (s : State) (d : Nat) (f : FltDie → FltDie) : (s.modFlt d f).readData = s.readData := rfl
@[simp] theorem pending_modFlt (s : State) (d : Nat) (f : FltDie → FltDie) : (s.modFlt d f).pending = s.pending := rfl
@[simp] theorem regs_modFlt (s : State) (d : Nat) (f : FltDie → FltDie) : (s.modFlt d f).regs = s.regs := rfl
@[simp] theorem die_modFlt (s : State) (d : Nat) (f : FltDie → FltDie) : (s.modFlt d f).die = s.die := rfl
@[simp] theorem inbox_modFlt (s : State) (d : Nat) (f : FltDie → FltDie) : (s.modFlt d f).inbox = s.inbox := rfl
@[simp] theorem irq_modFlt (s : State) (d : Nat) (f : FltDie → FltDie) : (s.modFlt d f).irq = s.irq := rfl
@[simp] theorem flash_modFlt (s : State) (d : Nat) (f : FltDie → FltDie) : (s.modFlt d f).flash = s.flash := rfl
@[simp] theorem dram_modFlt (s : State) (d : Nat) (f : FltDie → FltDie) : (s.modFlt d f).dram = s.dram := rfl
@[simp] theorem progmem_modFlt (s : State) (d : Nat) (f : FltDie → FltDie) : (s.modFlt d f).progmem = s.progmem := rfl
@[simp] theorem hostmem_modFlt (s : State) (d : Nat) (f : FltDie → FltDie) : (s.modFlt d f).hostmem = s.hostmem := rfl
@[simp] theorem getFlt_modFlt (s : State) (d : Nat) (f : FltDie → FltDie) : (s.modFlt d f).getFlt d = f (s.getFlt d) := by simp [getFlt, modFlt]

/-! modHart -/

@[simp] theorem dies_modHart (s : State) (d h : Nat) (f : HartRec → HartRec) : (s.modHart d h f).dies = s.dies := rfl
@[simp] theorem grade_modHart (s : State) (d h : Nat) (f : HartRec → HartRec) : (s.modHart d h f).grade = s.grade := rfl
@[simp] theorem now_modHart (s : State) (d h : Nat) (f : HartRec → HartRec) : (s.modHart d h f).now = s.now := rfl
@[simp] theorem pt_modHart (s : State) (d h : Nat) (f : HartRec → HartRec) : (s.modHart d h f).pt = s.pt := rfl
@[simp] theorem seed_modHart (s : State) (d h : Nat) (f : HartRec → HartRec) : (s.modHart d h f).seed = s.seed := rfl
@[simp] theorem readData_modHart (s : State) (d h : Nat) (f : HartRec → HartRec) : (s.modHart d h f).readData = s.readData := rfl
@[simp] theorem pending_modHart (s : State) (d h : Nat) (f : HartRec → HartRec) : (s.modHart d h f).pending = s.pending := rfl
@[simp] theorem regs_modHart (s : State) (d h : Nat) (f : HartRec → HartRec) : (s.modHart d h f).regs = s.regs := rfl
@[simp] theorem die_modHart (s : State) (d h : Nat) (f : HartRec → HartRec) : (s.modHart d h f).die = s.die := rfl
@[simp] theorem inbox_modHart (s : State) (d h : Nat) (f : HartRec → HartRec) : (s.modHart d h f).inbox = s.inbox := rfl
@[simp] theorem irq_modHart (s : State) (d h : Nat) (f : HartRec → HartRec) : (s.modHart d h f).irq = s.irq := rfl
@[simp] theorem flash_modHart (s : State) (d h : Nat) (f : HartRec → HartRec) : (s.modHart d h f).flash = s.flash := rfl
@[simp] theorem dram_modHart (s : State) (d h : Nat) (f : HartRec → HartRec) : (s.modHart d h f).dram = s.dram := rfl
@[simp] theorem progmem_modHart (s : State) (d h : Nat) (f : HartRec → HartRec) : (s.modHart d h f).progmem = s.progmem := rfl
@[simp] theorem hostmem_modHart (s : State) (d h : Nat) (f : HartRec → HartRec) : (s.modHart d h f).hostmem = s.hostmem := rfl
@[simp] theorem getHart_modHart (s : State) (d h : Nat) (f : HartRec → HartRec) : (s.modHart d h f).getHart d h = f (s.getHart d h) := by simp [getHart, modHart]

/-! modTcm -/

@[simp] theorem dies_modTcm (s : State) (d h o : Nat) (f : Byte → Byte) : (s.modTcm d h o f).dies = s.dies := rfl
@[simp] theorem grade_modTcm (s : State) (d h o : Nat) (f : Byte → Byte) : (s.modTcm d h o f).grade = s.grade := rfl
@[simp] theorem now_modTcm (s : State) (d h o : Nat) (f : Byte → Byte) : (s.modTcm d h o f).now = s.now := rfl
@[simp] theorem pt_modTcm (s : State) (d h o : Nat) (f : Byte → Byte) : (s.modTcm d h o f).pt = s.pt := rfl
@[simp] theorem seed_modTcm (s : State) (d h o : Nat) (f : Byte → Byte) : (s.modTcm d h o f).seed = s.seed := rfl
@[simp] theorem readData_modTcm (s : State) (d h o : Nat) (f : Byte → Byte) : (s.modTcm d h o f).readData = s.readData := rfl
@[simp] theorem pending_modTcm (s : State) (d h o : Nat) (f : Byte → Byte) : (s.modTcm d h o f).pending = s.pending := rfl
@[simp] theorem regs_modTcm (s : State) (d h o : Nat) (f : Byte → Byte) : (s.modTcm d h o f).regs = s.regs := rfl
@[simp] theorem die_modTcm (s : State) (d h o : Nat) (f : Byte → Byte) : (s.modTcm d h o f).die = s.die := rfl
@[simp] theorem inbox_modTcm (s : State) (d h o : Nat) (f : Byte → Byte) : (s.modTcm d h o f).inbox = s.inbox := rfl
@[simp] theorem irq_modTcm (s : State) (d h o : Nat) (f : Byte → Byte) : (s.modTcm d h o f).irq = s.irq := rfl
@[simp] theorem flash_modTcm (s : State) (d h o : Nat) (f : Byte → Byte) : (s.modTcm d h o f).flash = s.flash := rfl
@[simp] theorem dram_modTcm (s : State) (d h o : Nat) (f : Byte → Byte) : (s.modTcm d h o f).dram = s.dram := rfl
@[simp] theorem progmem_modTcm (s : State) (d h o : Nat) (f : Byte → Byte) : (s.modTcm d h o f).progmem = s.progmem := rfl
@[simp] theorem hostmem_modTcm (s : State) (d h o : Nat) (f : Byte → Byte) : (s.modTcm d h o f).hostmem = s.hostmem := rfl
@[simp] theorem getTcm_modTcm (s : State) (d h o : Nat) (f : Byte → Byte) : (s.modTcm d h o f).getTcm d h o = f (s.getTcm d h o) := by simp [getTcm, modTcm]

/-! modEpo -/

@[simp] theorem dies_modEpo (s : State) (d : Nat) (f : EpoDie → EpoDie) : (s.modEpo d f).dies = s.dies := rfl
@[simp] theorem grade_modEpo (s : State) (d : Nat) (f : EpoDie → EpoDie) : (s.modEpo d f).grade = s.grade := rfl
@[simp] theorem now_modEpo (s : State) (d : Nat) (f : EpoDie → EpoDie) : (s.modEpo d f).now = s.now := rfl
@[simp] theorem pt_modEpo (s : State) (d : Nat) (f : EpoDie → EpoDie) : (s.modEpo d f).pt = s.pt := rfl
@[simp] theorem seed_modEpo (s : State) (d : Nat) (f : EpoDie → EpoDie) : (s.modEpo d f).seed = s.seed := rfl
@[simp] theorem readData_modEpo (s : State) (d : Nat) (f : EpoDie → EpoDie) : (s.modEpo d f).readData = s.readData := rfl
@[simp] theorem pending_modEpo (s : State) (d : Nat) (f : EpoDie → EpoDie) : (s.modEpo d f).pending = s.pending := rfl
@[simp] theorem regs_modEpo (s : State) (d : Nat) (f : EpoDie → EpoDie) : (s.modEpo d f).regs = s.regs := rfl
@[simp] theorem die_modEpo (s : State) (d : Nat) (f : EpoDie → EpoDie) : (s.modEpo d f).die = s.die := rfl
@[simp] theorem inbox_modEpo (s : State) (d : Nat) (f : EpoDie → EpoDie) : (s.modEpo d f).inbox = s.inbox := rfl
@[simp] theorem irq_modEpo (s : State) (d : Nat) (f : EpoDie → EpoDie) : (s.modEpo d f).irq = s.irq := rfl
@[simp] theorem flash_modEpo (s : State) (d : Nat) (f : EpoDie → EpoDie) : (s.modEpo d f).flash = s.flash := rfl
@[simp] theorem dram_modEpo (s : State) (d : Nat) (f : EpoDie → EpoDie) : (s.modEpo d f).dram = s.dram := rfl
@[simp] theorem progmem_modEpo (s : State) (d : Nat) (f : EpoDie → EpoDie) : (s.modEpo d f).progmem = s.progmem := rfl
@[simp] theorem hostmem_modEpo (s : State) (d : Nat) (f : EpoDie → EpoDie) : (s.modEpo d f).hostmem = s.hostmem := rfl
@[simp] theorem getEpo_modEpo (s : State) (d : Nat) (f : EpoDie → EpoDie) : (s.modEpo d f).getEpo d = f (s.getEpo d) := by simp [getEpo, modEpo]

end Sys2Proof.Machine.State
end

