-- ==== Sys2Proof/Laws/Moves.lean ====
section
/-!
SUPPORT. What the operations of the model do to a state at most: the member, the grade and the queue stay, time does not run back,
the tables keep their canonical form, and of the memories only those named may change.
-/

namespace Sys2Proof.Machine

/-- `t` comes from `s` by operations that may change, of the memories, those with `w` true alone. -/
structure Moves (w : Mem → Bool) (s t : State) : Prop where
  dies : t.dies = s.dies
  grade : t.grade = s.grade
  pending : t.pending = s.pending
  now : s.now ≤ t.now
  canon : s.canonical = true → t.canonical = true
  mems : ∀ k, w k = false → SameMem k s t

theorem Moves.refl (w : Mem → Bool) (s : State) : Moves w s s := by
  refine ⟨rfl, rfl, rfl, Nat.le_refl _, id, ?_⟩
  intro k _; cases k <;> rfl

theorem Moves.ite {w : Mem → Bool} {s a b : State} {c : Prop} [Decidable c] (ha : Moves w s a) (hb : Moves w s b) :
    Moves w s (if c then a else b) := by split <;> assumption

theorem Moves.snd {w : Mem → Bool} {s t : State} {α : Type} {p : α × State} {x : α} (e : p = (x, t)) (h : Moves w s p.2) :
    Moves w s t := by subst e; exact h

theorem Moves.fst {w : Mem → Bool} {s t : State} {α : Type} {p : State × α} {x : α} (e : p = (t, x)) (h : Moves w s p.1) :
    Moves w s t := by subst e; exact h

theorem Moves.foldl {w : Mem → Bool} {s t : State} {α : Type} {l : List α} {f : State → α → State} (h : Moves w s t)
    (hf : ∀ u x, Moves w s u → Moves w s (f u x)) : Moves w s (l.foldl f t) := by
  induction l generalizing t with
  | nil => exact h
  | cons x l ih => exact ih (hf t x h)

theorem Moves.foldr {w : Mem → Bool} {s t : State} {α : Type} {l : List α} {f : α → State → State} (h : Moves w s t)
    (hf : ∀ u x, Moves w s u → Moves w s (f x u)) : Moves w s (l.foldr f t) := by
  induction l with
  | nil => exact h
  | cons x l ih => exact hf _ x ih

/-- A fold whose accumulator holds the state beside other data. -/
theorem Moves.foldlBy {w : Mem → Bool} {s : State} {α β : Type} (g : β → State) {l : List α} {f : β → α → β} {b : β}
    (h : Moves w s (g b)) (hf : ∀ b x, Moves w s (g b) → Moves w s (g (f b x))) : Moves w s (g (l.foldl f b)) := by
  induction l generalizing b with
  | nil => exact h
  | cons x l ih => exact ih (hf b x h)

theorem Moves.repeat {w : Mem → Bool} {s t : State} {f : State → State} (n : Nat) (h : Moves w s t)
    (hf : ∀ u, Moves w s u → Moves w s (f u)) : Moves w s (Nat.repeat f n t) := by
  induction n with
  | zero => exact h
  | succ n ih => exact hf _ ih

/-- A change of any field but the memories, the register table, the time, the member and the queue. -/
theorem Moves.raw {w : Mem → Bool} {s t : State} {a_pt : Nat} {a_seed : Nat} {a_readData : Nat} {a_latch : Store Word} {a_die :
    Store Die} {a_inbox : Store (List Msg)} {a_legs : Store Leg} {a_pwm : Store PwmAx} {a_pair : Store PairRec} {a_balls : Store
    BallRec} {a_fwd : Store (List Fwd)} {a_spineDown : Store Bool} {a_irq : Store Nat} {a_conv : Store Conv} {a_exc : Store ExcAx}
    {a_trk : Store TrkAx} {a_slots : Store TblSlot} {a_tcmd : Store TblCmd} {a_carrel : Store (BitVec 16)} {a_dramSrv : Option
    Nat} {a_stkSrv : Option Nat} {a_encx : Store EncAx} {a_fil : Store FilSlot} {a_det : Store DetRec} {a_lpt : Store LptRec}
    {a_sync : Store (Option Nat)} {a_twin : Store Word} {a_law : Store LawAx} {a_lawd : Store LawDie} {a_chan : Store ChanRec}
    {a_tune : Store TuneAx} {a_trc : Store TrcDie} {a_ring : Store RingRec} {a_msix : Store MsixRec} {a_msixSent : Store Nat}
    {a_fwq : Store (List FwEnt)} {a_ptStep : Option PtStep} {a_slewFrom : Nat} {a_strobeAt : Option Nat} {a_lastAt : Store Nat}
    {a_ident : Option Ident} {a_trm : Store TrmDie} {a_port : Store PortRec} {a_annSeq : Nat} {a_stk : Store StkDie} {a_nsr :
    Store NsRec} {a_memr : Store MemRec} {a_ledg : LedgRec} {a_ledq : Store (List LedgEnt)} {a_ledlost : Store Nat} {a_nvf : Store
    (Option NvfRun)} {a_mark : Store Marker} {a_unitUsed : Store Bool} {a_signq : Store (List SignReq)} {a_gov : Store PwrDie}
    {a_rails : Store RailRec} {a_src : Store SrcRec} {a_flt : Store FltDie} {a_pkgClear : List Nat} {a_hart : Store HartRec}
    {a_epo : Store EpoDie} {a_epoSeen : List (Nat × Nat)} {a_epoSent : List Nat} (h : Moves w s t) :
        Moves w s (State.mk t.dies t.grade t.now a_pt a_seed a_readData t.pending t.regs a_latch a_die a_inbox a_legs a_pwm a_pair
    a_balls a_fwd a_spineDown a_irq a_conv a_exc a_trk a_slots a_tcmd a_carrel t.dram t.flash a_dramSrv a_stkSrv a_encx a_fil
    a_det a_lpt a_sync t.progmem a_twin a_law a_lawd a_chan a_tune a_trc t.trcbuf a_ring a_msix a_msixSent t.hostmem a_fwq
    a_ptStep a_slewFrom a_strobeAt a_lastAt a_ident a_trm a_port a_annSeq a_stk a_nsr t.drive a_memr a_ledg a_ledq a_ledlost a_nvf
    a_mark a_unitUsed a_signq t.report a_gov a_rails a_src a_flt a_pkgClear a_hart t.tcm a_epo a_epoSeen a_epoSent) :=
    ⟨h.dies, h.grade, h.pending, h.now, h.canon, h.mems⟩

theorem State.canonical_iff (s : State) : s.canonical = true ↔
    Store.wf s.rstOf s.regs = true ∧ Store.wf (fun _ => 0) s.dram = true ∧ Store.wf State.flashDflt s.flash = true ∧
      Store.wf (fun _ => 0) s.hostmem = true ∧ Store.wf (fun _ => 0) s.progmem = true ∧ Store.wf (fun _ => 0) s.trcbuf = true ∧
      Store.wf (fun _ => 0) s.tcm = true ∧ Store.wf (fun _ => 0) s.report = true ∧ Store.wf (fun _ => []) s.drive = true := by
  simp only [State.canonical, Bool.and_eq_true, and_assoc]

theorem Moves.regs {w : Mem → Bool} {s t : State} {v : Store Word} (h : Moves w s t)
    (hv : Store.wf t.rstOf t.regs = true → Store.wf t.rstOf v = true) : Moves w s { t with regs := v } := by
  refine ⟨h.dies, h.grade, h.pending, h.now, fun hc => ?_, h.mems⟩
  obtain ⟨c1, c2, c3, c4, c5, c6, c7, c8, c9⟩ := (State.canonical_iff t).mp (h.canon hc)
  exact (State.canonical_iff _).mpr ⟨hv c1, c2, c3, c4, c5, c6, c7, c8, c9⟩

theorem Moves.dram {w : Mem → Bool} {s t : State} {v : Store Byte} (h : Moves w s t) (hw : w .dram = true)
    (hv : Store.wf (fun _ => 0) t.dram = true → Store.wf (fun _ => 0) v = true) : Moves w s { t with dram := v } := by
  refine ⟨h.dies, h.grade, h.pending, h.now, fun hc => ?_, fun k hk => ?_⟩
  · obtain ⟨c1, c2, c3, c4, c5, c6, c7, c8, c9⟩ := (State.canonical_iff t).mp (h.canon hc)
    exact (State.canonical_iff _).mpr ⟨c1, hv c2, c3, c4, c5, c6, c7, c8, c9⟩
  · have hm := h.mems k hk
    cases k <;> first | exact hm | (rw [hw] at hk; cases hk)

theorem Moves.flash {w : Mem → Bool} {s t : State} {v : Store Byte} (h : Moves w s t) (hw : w .flash = true)
    (hv : Store.wf State.flashDflt t.flash = true → Store.wf State.flashDflt v = true) : Moves w s { t with flash := v } := by
  refine ⟨h.dies, h.grade, h.pending, h.now, fun hc => ?_, fun k hk => ?_⟩
  · obtain ⟨c1, c2, c3, c4, c5, c6, c7, c8, c9⟩ := (State.canonical_iff t).mp (h.canon hc)
    exact (State.canonical_iff _).mpr ⟨c1, c2, hv c3, c4, c5, c6, c7, c8, c9⟩
  · have hm := h.mems k hk
    cases k <;> first | exact hm | (rw [hw] at hk; cases hk)

theorem Moves.hostmem {w : Mem → Bool} {s t : State} {v : Store Byte} (h : Moves w s t) (hw : w .hostmem = true)
    (hv : Store.wf (fun _ => 0) t.hostmem = true → Store.wf (fun _ => 0) v = true) : Moves w s { t with hostmem := v } := by
  refine ⟨h.dies, h.grade, h.pending, h.now, fun hc => ?_, fun k hk => ?_⟩
  · obtain ⟨c1, c2, c3, c4, c5, c6, c7, c8, c9⟩ := (State.canonical_iff t).mp (h.canon hc)
    exact (State.canonical_iff _).mpr ⟨c1, c2, c3, hv c4, c5, c6, c7, c8, c9⟩
  · have hm := h.mems k hk
    cases k <;> first | exact hm | (rw [hw] at hk; cases hk)

theorem Moves.progmem {w : Mem → Bool} {s t : State} {v : Store Word} (h : Moves w s t) (hw : w .progmem = true)
    (hv : Store.wf (fun _ => 0) t.progmem = true → Store.wf (fun _ => 0) v = true) : Moves w s { t with progmem := v } := by
  refine ⟨h.dies, h.grade, h.pending, h.now, fun hc => ?_, fun k hk => ?_⟩
  · obtain ⟨c1, c2, c3, c4, c5, c6, c7, c8, c9⟩ := (State.canonical_iff t).mp (h.canon hc)
    exact (State.canonical_iff _).mpr ⟨c1, c2, c3, c4, hv c5, c6, c7, c8, c9⟩
  · have hm := h.mems k hk
    cases k <;> first | exact hm | (rw [hw] at hk; cases hk)

theorem Moves.trcbuf {w : Mem → Bool} {s t : State} {v : Store Byte} (h : Moves w s t) (hw : w .trcbuf = true)
    (hv : Store.wf (fun _ => 0) t.trcbuf = true → Store.wf (fun _ => 0) v = true) : Moves w s { t with trcbuf := v } := by
  refine ⟨h.dies, h.grade, h.pending, h.now, fun hc => ?_, fun k hk => ?_⟩
  · obtain ⟨c1, c2, c3, c4, c5, c6, c7, c8, c9⟩ := (State.canonical_iff t).mp (h.canon hc)
    exact (State.canonical_iff _).mpr ⟨c1, c2, c3, c4, c5, hv c6, c7, c8, c9⟩
  · have hm := h.mems k hk
    cases k <;> first | exact hm | (rw [hw] at hk; cases hk)

theorem Moves.tcm {w : Mem → Bool} {s t : State} {v : Store Byte} (h : Moves w s t) (hw : w .tcm = true)
    (hv : Store.wf (fun _ => 0) t.tcm = true → Store.wf (fun _ => 0) v = true) : Moves w s { t with tcm := v } := by
  refine ⟨h.dies, h.grade, h.pending, h.now, fun hc => ?_, fun k hk => ?_⟩
  · obtain ⟨c1, c2, c3, c4, c5, c6, c7, c8, c9⟩ := (State.canonical_iff t).mp (h.canon hc)
    exact (State.canonical_iff _).mpr ⟨c1, c2, c3, c4, c5, c6, hv c7, c8, c9⟩
  · have hm := h.mems k hk
    cases k <;> first | exact hm | (rw [hw] at hk; cases hk)

theorem Moves.report {w : Mem → Bool} {s t : State} {v : Store Byte} (h : Moves w s t) (hw : w .report = true)
    (hv : Store.wf (fun _ => 0) t.report = true → Store.wf (fun _ => 0) v = true) : Moves w s { t with report := v } := by
  refine ⟨h.dies, h.grade, h.pending, h.now, fun hc => ?_, fun k hk => ?_⟩
  · obtain ⟨c1, c2, c3, c4, c5, c6, c7, c8, c9⟩ := (State.canonical_iff t).mp (h.canon hc)
    exact (State.canonical_iff _).mpr ⟨c1, c2, c3, c4, c5, c6, c7, hv c8, c9⟩
  · have hm := h.mems k hk
    cases k <;> first | exact hm | (rw [hw] at hk; cases hk)

theorem Moves.drive {w : Mem → Bool} {s t : State} {v : Store (List Byte)} (h : Moves w s t) (hw : w .drive = true)
    (hv : Store.wf (fun _ => []) t.drive = true → Store.wf (fun _ => []) v = true) : Moves w s { t with drive := v } := by
  refine ⟨h.dies, h.grade, h.pending, h.now, fun hc => ?_, fun k hk => ?_⟩
  · obtain ⟨c1, c2, c3, c4, c5, c6, c7, c8, c9⟩ := (State.canonical_iff t).mp (h.canon hc)
    exact (State.canonical_iff _).mpr ⟨c1, c2, c3, c4, c5, c6, c7, c8, hv c9⟩
  · have hm := h.mems k hk
    cases k <;> first | exact hm | (rw [hw] at hk; cases hk)

end Sys2Proof.Machine
end

