-- ==== Sys2Proof/Laws/MovesOps.lean ====
section
/-!
SUPPORT. What each operation of the model does to a state at most (Laws/Moves.lean): the shared operations over registers, records, memories and time.
-/

set_option linter.unusedTactic false
set_option linter.unreachableTactic false

namespace Sys2Proof.Machine

theorem State.setReg_moves {w : Mem → Bool} {s0 s : State} (a : Nat) (v : Word) (h : Moves w s0 s) : Moves w s0 (s.setReg a v) :=
  h.regs fun hc => Store.wf_set s.rstOf s.regs a v hc

theorem State.setWords_moves {w : Mem → Bool} {s0 s : State} (a v k : Nat) (h : Moves w s0 s) : Moves w s0 (s.setWords a v k) := by
  induction k generalizing s a v with
  | zero => exact h
  | succ k ih => exact ih _ _ (State.setReg_moves _ _ h)

theorem State.wr_moves {w : Mem → Bool} {s0 : State} {s : State} (x1 : Nat) (x2 : Fld) (x3 : Nat) (x4 : Nat) (x5 : optParam
    Nat 0) (hs : Moves w s0 s) :
    Moves w s0 (State.wr s x1 x2 x3 x4 x5) := by
  unfold State.wr
  try dsimp only
  repeat'
    first
    | with_reducible assumption | intro _ | with_reducible apply State.setWords_moves | with_reducible apply Moves.ite | split
    | (with_reducible refine Moves.snd (by assumption) ?_) | (with_reducible refine Moves.fst (by assumption) ?_)

theorem State.wrI_moves {w : Mem → Bool} {s0 : State} {s : State} (x1 : Nat) (x2 : Fld) (x3 : Int) (x4 : Nat) (x5 :
    Nat) (hs : Moves w s0 s) :
    Moves w s0 (State.wrI s x1 x2 x3 x4 x5) := by
  unfold State.wrI
  try dsimp only
  repeat'
    first
    | with_reducible assumption | intro _ | with_reducible apply State.wr_moves | with_reducible apply Moves.ite | split
    | (with_reducible refine Moves.snd (by assumption) ?_) | (with_reducible refine Moves.fst (by assumption) ?_)

theorem State.wrBit_moves {w : Mem → Bool} {s0 : State} {s : State} (x1 : Nat) (x2 : Fld) (x3 : Nat) (x4 : Bool) (hs : Moves w s0 s)
    :
    Moves w s0 (State.wrBit s x1 x2 x3 x4) := by
  unfold State.wrBit
  try dsimp only
  repeat'
    first
    | with_reducible assumption | intro _ | with_reducible apply State.wr_moves | with_reducible apply Moves.ite | split
    | (with_reducible refine Moves.snd (by assumption) ?_) | (with_reducible refine Moves.fst (by assumption) ?_)

theorem State.addSat_moves {w : Mem → Bool} {s0 : State} {s : State} (x1 : Nat) (x2 : Fld) (x3 : optParam Nat 1) (x4 : Nat)
    (x5 : Nat) (hs : Moves w s0 s) :
    Moves w s0 (State.addSat s x1 x2 x3 x4 x5) := by
  unfold State.addSat
  try dsimp only
  repeat'
    first
    | with_reducible assumption | intro _ | with_reducible apply State.wr_moves | with_reducible apply Moves.ite | split
    | (with_reducible refine Moves.snd (by assumption) ?_) | (with_reducible refine Moves.fst (by assumption) ?_)

theorem State.incWrap_moves {w : Mem → Bool} {s0 : State} {s : State} (x1 : Nat) (x2 : Fld) (x3 : Nat) (x4 : optParam Nat
    0) (hs : Moves w s0 s) :
    Moves w s0 (State.incWrap s x1 x2 x3 x4) := by
  unfold State.incWrap
  try dsimp only
  repeat'
    first
    | with_reducible assumption | intro _ | with_reducible apply State.wr_moves | with_reducible apply Moves.ite | split
    | (with_reducible refine Moves.snd (by assumption) ?_) | (with_reducible refine Moves.fst (by assumption) ?_)

theorem State.modDie_moves {w : Mem → Bool} {s0 : State} {s : State} (x1 : Nat) (x2 : Die → Die) (hs : Moves w s0 s) :
    Moves w s0 (State.modDie s x1 x2) := by
  unfold State.modDie
  try dsimp only
  repeat'
    first
    | with_reducible assumption | intro _ | with_reducible apply Moves.ite | split
    | (with_reducible refine Moves.snd (by assumption) ?_) | (with_reducible refine Moves.fst (by assumption) ?_)
    | with_reducible apply Moves.raw

theorem State.modLeg_moves {w : Mem → Bool} {s0 : State} {s : State} (x1 : Nat) (x2 : Nat) (x3 : Nat) (x4 : Leg → Leg) (hs : Moves w
    s0 s) :
    Moves w s0 (State.modLeg s x1 x2 x3 x4) := by
  unfold State.modLeg
  try dsimp only
  repeat'
    first
    | with_reducible assumption | intro _ | with_reducible apply Moves.ite | split
    | (with_reducible refine Moves.snd (by assumption) ?_) | (with_reducible refine Moves.fst (by assumption) ?_)
    | with_reducible apply Moves.raw

theorem State.modPwm_moves {w : Mem → Bool} {s0 : State} {s : State} (x1 : Nat) (x2 : Nat) (x3 : PwmAx → PwmAx) (hs : Moves w s0 s)
    :
    Moves w s0 (State.modPwm s x1 x2 x3) := by
  unfold State.modPwm
  try dsimp only
  repeat'
    first
    | with_reducible assumption | intro _ | with_reducible apply Moves.ite | split
    | (with_reducible refine Moves.snd (by assumption) ?_) | (with_reducible refine Moves.fst (by assumption) ?_)
    | with_reducible apply Moves.raw

theorem State.modPair_moves {w : Mem → Bool} {s0 : State} {s : State} (x1 : Nat) (x2 : PairRec → PairRec) (hs : Moves w s0 s) :
    Moves w s0 (State.modPair s x1 x2) := by
  unfold State.modPair
  try dsimp only
  repeat'
    first
    | with_reducible assumption | intro _ | with_reducible apply Moves.ite | split
    | (with_reducible refine Moves.snd (by assumption) ?_) | (with_reducible refine Moves.fst (by assumption) ?_)
    | with_reducible apply Moves.raw

theorem State.modBall_moves {w : Mem → Bool} {s0 : State} {s : State} (x1 : Nat) (x2 : Nat) (x3 : BallRec → BallRec) (hs : Moves w
    s0 s) :
    Moves w s0 (State.modBall s x1 x2 x3) := by
  unfold State.modBall
  try dsimp only
  repeat'
    first
    | with_reducible assumption | intro _ | with_reducible apply Moves.ite | split
    | (with_reducible refine Moves.snd (by assumption) ?_) | (with_reducible refine Moves.fst (by assumption) ?_)
    | with_reducible apply Moves.raw

theorem State.modFwd_moves {w : Mem → Bool} {s0 : State} {s : State} (x1 : Nat) (x2 : List Fwd → List Fwd) (hs : Moves w s0 s) :
    Moves w s0 (State.modFwd s x1 x2) := by
  unfold State.modFwd
  try dsimp only
  repeat'
    first
    | with_reducible assumption | intro _ | with_reducible apply Moves.ite | split
    | (with_reducible refine Moves.snd (by assumption) ?_) | (with_reducible refine Moves.fst (by assumption) ?_)
    | with_reducible apply Moves.raw

theorem State.modConv_moves {w : Mem → Bool} {s0 : State} {s : State} (x1 : Nat) (x2 : Nat) (x3 : Conv → Conv) (hs : Moves w s0 s) :
    Moves w s0 (State.modConv s x1 x2 x3) := by
  unfold State.modConv
  try dsimp only
  repeat'
    first
    | with_reducible assumption | intro _ | with_reducible apply Moves.ite | split
    | (with_reducible refine Moves.snd (by assumption) ?_) | (with_reducible refine Moves.fst (by assumption) ?_)
    | with_reducible apply Moves.raw

theorem State.modExc_moves {w : Mem → Bool} {s0 : State} {s : State} (x1 : Nat) (x2 : Nat) (x3 : ExcAx → ExcAx) (hs : Moves w s0 s)
    :
    Moves w s0 (State.modExc s x1 x2 x3) := by
  unfold State.modExc
  try dsimp only
  repeat'
    first
    | with_reducible assumption | intro _ | with_reducible apply Moves.ite | split
    | (with_reducible refine Moves.snd (by assumption) ?_) | (with_reducible refine Moves.fst (by assumption) ?_)
    | with_reducible apply Moves.raw

theorem State.modTrk_moves {w : Mem → Bool} {s0 : State} {s : State} (x1 : Nat) (x2 : Nat) (x3 : TrkAx → TrkAx) (hs : Moves w s0 s)
    :
    Moves w s0 (State.modTrk s x1 x2 x3) := by
  unfold State.modTrk
  try dsimp only
  repeat'
    first
    | with_reducible assumption | intro _ | with_reducible apply Moves.ite | split
    | (with_reducible refine Moves.snd (by assumption) ?_) | (with_reducible refine Moves.fst (by assumption) ?_)
    | with_reducible apply Moves.raw

theorem State.modSlot_moves {w : Mem → Bool} {s0 : State} {s : State} (x1 : Nat) (x2 : Nat) (x3 : Nat) (x4 : TblSlot → TblSlot) (hs :
    Moves w s0 s) :
    Moves w s0 (State.modSlot s x1 x2 x3 x4) := by
  unfold State.modSlot
  try dsimp only
  repeat'
    first
    | with_reducible assumption | intro _ | with_reducible apply Moves.ite | split
    | (with_reducible refine Moves.snd (by assumption) ?_) | (with_reducible refine Moves.fst (by assumption) ?_)
    | with_reducible apply Moves.raw

theorem State.modTcmd_moves {w : Mem → Bool} {s0 : State} {s : State} (x1 : Nat) (x2 : TblCmd → TblCmd) (hs : Moves w s0 s) :
    Moves w s0 (State.modTcmd s x1 x2) := by
  unfold State.modTcmd
  try dsimp only
  repeat'
    first
    | with_reducible assumption | intro _ | with_reducible apply Moves.ite | split
    | (with_reducible refine Moves.snd (by assumption) ?_) | (with_reducible refine Moves.fst (by assumption) ?_)
    | with_reducible apply Moves.raw

theorem State.modEntry_moves {w : Mem → Bool} {s0 : State} {s : State} (x1 : Nat) (x2 : Nat) (x3 : BitVec 16 → BitVec 16) (hs :
    Moves w s0 s) :
    Moves w s0 (State.modEntry s x1 x2 x3) := by
  unfold State.modEntry
  try dsimp only
  repeat'
    first
    | with_reducible assumption | intro _ | with_reducible apply Moves.ite | split
    | (with_reducible refine Moves.snd (by assumption) ?_) | (with_reducible refine Moves.fst (by assumption) ?_)
    | with_reducible apply Moves.raw

theorem State.modEnc_moves {w : Mem → Bool} {s0 : State} {s : State} (x1 : Nat) (x2 : Nat) (x3 : EncAx → EncAx) (hs : Moves w s0 s)
    :
    Moves w s0 (State.modEnc s x1 x2 x3) := by
  unfold State.modEnc
  try dsimp only
  repeat'
    first
    | with_reducible assumption | intro _ | with_reducible apply Moves.ite | split
    | (with_reducible refine Moves.snd (by assumption) ?_) | (with_reducible refine Moves.fst (by assumption) ?_)
    | with_reducible apply Moves.raw

theorem State.modFil_moves {w : Mem → Bool} {s0 : State} {s : State} (x1 : Nat) (x2 : Nat) (x3 : FilSlot → FilSlot) (hs : Moves w s0
    s) :
    Moves w s0 (State.modFil s x1 x2 x3) := by
  unfold State.modFil
  try dsimp only
  repeat'
    first
    | with_reducible assumption | intro _ | with_reducible apply Moves.ite | split
    | (with_reducible refine Moves.snd (by assumption) ?_) | (with_reducible refine Moves.fst (by assumption) ?_)
    | with_reducible apply Moves.raw

theorem State.modDet_moves {w : Mem → Bool} {s0 : State} {s : State} (x1 : Nat) (x2 : Nat) (x3 : DetRec → DetRec) (hs : Moves w s0
    s) :
    Moves w s0 (State.modDet s x1 x2 x3) := by
  unfold State.modDet
  try dsimp only
  repeat'
    first
    | with_reducible assumption | intro _ | with_reducible apply Moves.ite | split
    | (with_reducible refine Moves.snd (by assumption) ?_) | (with_reducible refine Moves.fst (by assumption) ?_)
    | with_reducible apply Moves.raw

theorem State.modLpt_moves {w : Mem → Bool} {s0 : State} {s : State} (x1 : Nat) (x2 : LptRec → LptRec) (hs : Moves w s0 s) :
    Moves w s0 (State.modLpt s x1 x2) := by
  unfold State.modLpt
  try dsimp only
  repeat'
    first
    | with_reducible assumption | intro _ | with_reducible apply Moves.ite | split
    | (with_reducible refine Moves.snd (by assumption) ?_) | (with_reducible refine Moves.fst (by assumption) ?_)
    | with_reducible apply Moves.raw

theorem State.modSync_moves {w : Mem → Bool} {s0 : State} {s : State} (x1 : Nat) (x2 : Option Nat → Option Nat) (hs : Moves w s0 s) :
    Moves w s0 (State.modSync s x1 x2) := by
  unfold State.modSync
  try dsimp only
  repeat'
    first
    | with_reducible assumption | intro _ | with_reducible apply Moves.ite | split
    | (with_reducible refine Moves.snd (by assumption) ?_) | (with_reducible refine Moves.fst (by assumption) ?_)
    | with_reducible apply Moves.raw

theorem State.modPm_moves {w : Mem → Bool} {s0 s : State} (d a : Nat) (f : Word → Word) (h : Moves w s0 s) (hw : w .progmem = true) :
    Moves w s0 (s.modPm d a f) :=
  h.progmem hw fun hc => Store.wf_set (fun _ => 0) s.progmem _ _ hc

theorem State.modTwin_moves {w : Mem → Bool} {s0 : State} {s : State} (x1 : Nat) (x2 : Nat) (x3 : Word → Word) (hs : Moves w s0 s) :
    Moves w s0 (State.modTwin s x1 x2 x3) := by
  unfold State.modTwin
  try dsimp only
  repeat'
    first
    | with_reducible assumption | intro _ | with_reducible apply Moves.ite | split
    | (with_reducible refine Moves.snd (by assumption) ?_) | (with_reducible refine Moves.fst (by assumption) ?_)
    | with_reducible apply Moves.raw

theorem State.modLaw_moves {w : Mem → Bool} {s0 : State} {s : State} (x1 : Nat) (x2 : Nat) (x3 : LawAx → LawAx) (hs : Moves w s0 s)
    :
    Moves w s0 (State.modLaw s x1 x2 x3) := by
  unfold State.modLaw
  try dsimp only
  repeat'
    first
    | with_reducible assumption | intro _ | with_reducible apply Moves.ite | split
    | (with_reducible refine Moves.snd (by assumption) ?_) | (with_reducible refine Moves.fst (by assumption) ?_)
    | with_reducible apply Moves.raw

theorem State.modLawDie_moves {w : Mem → Bool} {s0 : State} {s : State} (x1 : Nat) (x2 : LawDie → LawDie) (hs : Moves w s0 s) :
    Moves w s0 (State.modLawDie s x1 x2) := by
  unfold State.modLawDie
  try dsimp only
  repeat'
    first
    | with_reducible assumption | intro _ | with_reducible apply Moves.ite | split
    | (with_reducible refine Moves.snd (by assumption) ?_) | (with_reducible refine Moves.fst (by assumption) ?_)
    | with_reducible apply Moves.raw

theorem State.modChan_moves {w : Mem → Bool} {s0 : State} {s : State} (x1 : Nat) (x2 : Nat) (x3 : ChanRec → ChanRec) (hs : Moves w
    s0 s) :
    Moves w s0 (State.modChan s x1 x2 x3) := by
  unfold State.modChan
  try dsimp only
  repeat'
    first
    | with_reducible assumption | intro _ | with_reducible apply Moves.ite | split
    | (with_reducible refine Moves.snd (by assumption) ?_) | (with_reducible refine Moves.fst (by assumption) ?_)
    | with_reducible apply Moves.raw

theorem State.modTune_moves {w : Mem → Bool} {s0 : State} {s : State} (x1 : Nat) (x2 : Nat) (x3 : TuneAx → TuneAx) (hs : Moves w s0
    s) :
    Moves w s0 (State.modTune s x1 x2 x3) := by
  unfold State.modTune
  try dsimp only
  repeat'
    first
    | with_reducible assumption | intro _ | with_reducible apply Moves.ite | split
    | (with_reducible refine Moves.snd (by assumption) ?_) | (with_reducible refine Moves.fst (by assumption) ?_)
    | with_reducible apply Moves.raw

theorem State.modTrc_moves {w : Mem → Bool} {s0 : State} {s : State} (x1 : Nat) (x2 : TrcDie → TrcDie) (hs : Moves w s0 s) :
    Moves w s0 (State.modTrc s x1 x2) := by
  unfold State.modTrc
  try dsimp only
  repeat'
    first
    | with_reducible assumption | intro _ | with_reducible apply Moves.ite | split
    | (with_reducible refine Moves.snd (by assumption) ?_) | (with_reducible refine Moves.fst (by assumption) ?_)
    | with_reducible apply Moves.raw

theorem State.modTrcByte_moves {w : Mem → Bool} {s0 s : State} (d a : Nat) (f : Byte → Byte) (h : Moves w s0 s)
    (hw : w .trcbuf = true) : Moves w s0 (s.modTrcByte d a f) :=
  h.trcbuf hw fun hc => Store.wf_set (fun _ => 0) s.trcbuf _ _ hc

theorem State.modRing_moves {w : Mem → Bool} {s0 : State} {s : State} (x1 : Nat) (x2 : Nat) (x3 : RingRec → RingRec) (hs : Moves w
    s0 s) :
    Moves w s0 (State.modRing s x1 x2 x3) := by
  unfold State.modRing
  try dsimp only
  repeat'
    first
    | with_reducible assumption | intro _ | with_reducible apply Moves.ite | split
    | (with_reducible refine Moves.snd (by assumption) ?_) | (with_reducible refine Moves.fst (by assumption) ?_)
    | with_reducible apply Moves.raw

theorem State.modMsix_moves {w : Mem → Bool} {s0 : State} {s : State} (x1 : Nat) (x2 : MsixRec → MsixRec) (hs : Moves w s0 s) :
    Moves w s0 (State.modMsix s x1 x2) := by
  unfold State.modMsix
  try dsimp only
  repeat'
    first
    | with_reducible assumption | intro _ | with_reducible apply Moves.ite | split
    | (with_reducible refine Moves.snd (by assumption) ?_) | (with_reducible refine Moves.fst (by assumption) ?_)
    | with_reducible apply Moves.raw

theorem State.modFwq_moves {w : Mem → Bool} {s0 : State} {s : State} (x1 : Nat) (x2 : List FwEnt → List FwEnt) (hs : Moves w s0 s)
    :
    Moves w s0 (State.modFwq s x1 x2) := by
  unfold State.modFwq
  try dsimp only
  repeat'
    first
    | with_reducible assumption | intro _ | with_reducible apply Moves.ite | split
    | (with_reducible refine Moves.snd (by assumption) ?_) | (with_reducible refine Moves.fst (by assumption) ?_)
    | with_reducible apply Moves.raw

theorem State.modTrm_moves {w : Mem → Bool} {s0 : State} {s : State} (x1 : Nat) (x2 : TrmDie → TrmDie) (hs : Moves w s0 s) :
    Moves w s0 (State.modTrm s x1 x2) := by
  unfold State.modTrm
  try dsimp only
  repeat'
    first
    | with_reducible assumption | intro _ | with_reducible apply Moves.ite | split
    | (with_reducible refine Moves.snd (by assumption) ?_) | (with_reducible refine Moves.fst (by assumption) ?_)
    | with_reducible apply Moves.raw

theorem State.modPort_moves {w : Mem → Bool} {s0 : State} {s : State} (x1 : Nat) (x2 : PortRec → PortRec) (hs : Moves w s0 s) :
    Moves w s0 (State.modPort s x1 x2) := by
  unfold State.modPort
  try dsimp only
  repeat'
    first
    | with_reducible assumption | intro _ | with_reducible apply Moves.ite | split
    | (with_reducible refine Moves.snd (by assumption) ?_) | (with_reducible refine Moves.fst (by assumption) ?_)
    | with_reducible apply Moves.raw

theorem State.modStk_moves {w : Mem → Bool} {s0 : State} {s : State} (x1 : Nat) (x2 : StkDie → StkDie) (hs : Moves w s0 s) :
    Moves w s0 (State.modStk s x1 x2) := by
  unfold State.modStk
  try dsimp only
  repeat'
    first
    | with_reducible assumption | intro _ | with_reducible apply Moves.ite | split
    | (with_reducible refine Moves.snd (by assumption) ?_) | (with_reducible refine Moves.fst (by assumption) ?_)
    | with_reducible apply Moves.raw

theorem State.modNsr_moves {w : Mem → Bool} {s0 : State} {s : State} (x1 : Nat) (x2 : Nat) (x3 : NsRec → NsRec) (hs : Moves w s0 s)
    :
    Moves w s0 (State.modNsr s x1 x2 x3) := by
  unfold State.modNsr
  try dsimp only
  repeat'
    first
    | with_reducible assumption | intro _ | with_reducible apply Moves.ite | split
    | (with_reducible refine Moves.snd (by assumption) ?_) | (with_reducible refine Moves.fst (by assumption) ?_)
    | with_reducible apply Moves.raw

theorem State.modMem_moves {w : Mem → Bool} {s0 : State} {s : State} (x1 : Nat) (x2 : MemRec → MemRec) (hs : Moves w s0 s) :
    Moves w s0 (State.modMem s x1 x2) := by
  unfold State.modMem
  try dsimp only
  repeat'
    first
    | with_reducible assumption | intro _ | with_reducible apply Moves.ite | split
    | (with_reducible refine Moves.snd (by assumption) ?_) | (with_reducible refine Moves.fst (by assumption) ?_)
    | with_reducible apply Moves.raw

theorem State.modLedq_moves {w : Mem → Bool} {s0 : State} {s : State} (x1 : Nat) (x2 : List LedgEnt → List LedgEnt) (hs : Moves w
    s0 s) :
    Moves w s0 (State.modLedq s x1 x2) := by
  unfold State.modLedq
  try dsimp only
  repeat'
    first
    | with_reducible assumption | intro _ | with_reducible apply Moves.ite | split
    | (with_reducible refine Moves.snd (by assumption) ?_) | (with_reducible refine Moves.fst (by assumption) ?_)
    | with_reducible apply Moves.raw

theorem State.modNvf_moves {w : Mem → Bool} {s0 : State} {s : State} (x1 : Nat) (x2 : Option NvfRun → Option NvfRun) (hs : Moves w
    s0 s) :
    Moves w s0 (State.modNvf s x1 x2) := by
  unfold State.modNvf
  try dsimp only
  repeat'
    first
    | with_reducible assumption | intro _ | with_reducible apply Moves.ite | split
    | (with_reducible refine Moves.snd (by assumption) ?_) | (with_reducible refine Moves.fst (by assumption) ?_)
    | with_reducible apply Moves.raw

theorem State.modMark_moves {w : Mem → Bool} {s0 : State} {s : State} (x1 : Nat) (x2 : Nat) (x3 : Nat) (x4 : Marker → Marker) (hs :
    Moves w s0 s) :
    Moves w s0 (State.modMark s x1 x2 x3 x4) := by
  unfold State.modMark
  try dsimp only
  repeat'
    first
    | with_reducible assumption | intro _ | with_reducible apply Moves.ite | split
    | (with_reducible refine Moves.snd (by assumption) ?_) | (with_reducible refine Moves.fst (by assumption) ?_)
    | with_reducible apply Moves.raw

theorem State.modSignq_moves {w : Mem → Bool} {s0 : State} {s : State} (x1 : Nat) (x2 : List SignReq → List SignReq) (hs : Moves w
    s0 s) :
    Moves w s0 (State.modSignq s x1 x2) := by
  unfold State.modSignq
  try dsimp only
  repeat'
    first
    | with_reducible assumption | intro _ | with_reducible apply Moves.ite | split
    | (with_reducible refine Moves.snd (by assumption) ?_) | (with_reducible refine Moves.fst (by assumption) ?_)
    | with_reducible apply Moves.raw

theorem State.modRepByte_moves {w : Mem → Bool} {s0 s : State} (d a : Nat) (f : Byte → Byte) (h : Moves w s0 s)
    (hw : w .report = true) : Moves w s0 (s.modRepByte d a f) :=
  h.report hw fun hc => Store.wf_set (fun _ => 0) s.report _ _ hc

theorem State.modGov_moves {w : Mem → Bool} {s0 : State} {s : State} (x1 : Nat) (x2 : PwrDie → PwrDie) (hs : Moves w s0 s) :
    Moves w s0 (State.modGov s x1 x2) := by
  unfold State.modGov
  try dsimp only
  repeat'
    first
    | with_reducible assumption | intro _ | with_reducible apply Moves.ite | split
    | (with_reducible refine Moves.snd (by assumption) ?_) | (with_reducible refine Moves.fst (by assumption) ?_)
    | with_reducible apply Moves.raw

theorem State.modRails_moves {w : Mem → Bool} {s0 : State} {s : State} (x1 : Nat) (x2 : RailRec → RailRec) (hs : Moves w s0 s) :
    Moves w s0 (State.modRails s x1 x2) := by
  unfold State.modRails
  try dsimp only
  repeat'
    first
    | with_reducible assumption | intro _ | with_reducible apply Moves.ite | split
    | (with_reducible refine Moves.snd (by assumption) ?_) | (with_reducible refine Moves.fst (by assumption) ?_)
    | with_reducible apply Moves.raw

theorem State.modSrc_moves {w : Mem → Bool} {s0 : State} {s : State} (x1 : Nat) (x2 : Nat) (x3 : SrcRec → SrcRec) (hs : Moves w s0
    s) :
    Moves w s0 (State.modSrc s x1 x2 x3) := by
  unfold State.modSrc
  try dsimp only
  repeat'
    first
    | with_reducible assumption | intro _ | with_reducible apply Moves.ite | split
    | (with_reducible refine Moves.snd (by assumption) ?_) | (with_reducible refine Moves.fst (by assumption) ?_)
    | with_reducible apply Moves.raw

theorem State.modFlt_moves {w : Mem → Bool} {s0 : State} {s : State} (x1 : Nat) (x2 : FltDie → FltDie) (hs : Moves w s0 s) :
    Moves w s0 (State.modFlt s x1 x2) := by
  unfold State.modFlt
  try dsimp only
  repeat'
    first
    | with_reducible assumption | intro _ | with_reducible apply Moves.ite | split
    | (with_reducible refine Moves.snd (by assumption) ?_) | (with_reducible refine Moves.fst (by assumption) ?_)
    | with_reducible apply Moves.raw

theorem State.modHart_moves {w : Mem → Bool} {s0 : State} {s : State} (x1 : Nat) (x2 : Nat) (x3 : HartRec → HartRec) (hs : Moves w
    s0 s) :
    Moves w s0 (State.modHart s x1 x2 x3) := by
  unfold State.modHart
  try dsimp only
  repeat'
    first
    | with_reducible assumption | intro _ | with_reducible apply Moves.ite | split
    | (with_reducible refine Moves.snd (by assumption) ?_) | (with_reducible refine Moves.fst (by assumption) ?_)
    | with_reducible apply Moves.raw

theorem State.modTcm_moves {w : Mem → Bool} {s0 s : State} (d k a : Nat) (f : Byte → Byte) (h : Moves w s0 s) (hw : w .tcm = true) :
    Moves w s0 (s.modTcm d k a f) :=
  h.tcm hw fun hc => Store.wf_set (fun _ => 0) s.tcm _ _ hc

theorem State.modEpo_moves {w : Mem → Bool} {s0 : State} {s : State} (x1 : Nat) (x2 : EpoDie → EpoDie) (hs : Moves w s0 s) :
    Moves w s0 (State.modEpo s x1 x2) := by
  unfold State.modEpo
  try dsimp only
  repeat'
    first
    | with_reducible assumption | intro _ | with_reducible apply Moves.ite | split
    | (with_reducible refine Moves.snd (by assumption) ?_) | (with_reducible refine Moves.fst (by assumption) ?_)
    | with_reducible apply Moves.raw

theorem State.drew_moves {w : Mem → Bool} {s0 : State} {s : State} (hs : Moves w s0 s) :
    Moves w s0 (State.drew s) := by
  unfold State.drew
  try dsimp only
  repeat'
    first
    | with_reducible assumption | intro _ | with_reducible apply Moves.ite | split
    | (with_reducible refine Moves.snd (by assumption) ?_) | (with_reducible refine Moves.fst (by assumption) ?_)
    | with_reducible apply Moves.raw

theorem State.pass_moves {w : Mem → Bool} {s0 s : State} (k : Nat) (h : Moves w s0 s) : Moves w s0 (s.pass k) :=
  ⟨h.dies, h.grade, h.pending, Nat.le_trans h.now (Nat.le_add_right _ _), h.canon, h.mems⟩

theorem State.passTo_moves {w : Mem → Bool} {s0 : State} {s : State} (x1 : Nat) (hs : Moves w s0 s) :
    Moves w s0 (State.passTo s x1) := by
  unfold State.passTo
  try dsimp only
  repeat'
    first
    | with_reducible assumption | intro _ | with_reducible apply State.pass_moves | with_reducible apply Moves.ite | split
    | (with_reducible refine Moves.snd (by assumption) ?_) | (with_reducible refine Moves.fst (by assumption) ?_)

theorem State.toGrid_moves {w : Mem → Bool} {s0 : State} {s : State} (x1 : Nat) (hs : Moves w s0 s) :
    Moves w s0 (State.toGrid s x1) := by
  unfold State.toGrid
  try dsimp only
  repeat'
    first
    | with_reducible assumption | intro _ | with_reducible apply State.pass_moves | with_reducible apply Moves.ite | split
    | (with_reducible refine Moves.snd (by assumption) ?_) | (with_reducible refine Moves.fst (by assumption) ?_)

theorem State.occurs_moves {w : Mem → Bool} {s0 : State} {s : State} (x1 : Nat) (hs : Moves w s0 s) :
    Moves w s0 (State.occurs s x1) := by
  unfold State.occurs
  try dsimp only
  repeat'
    first
    | with_reducible assumption | intro _ | with_reducible apply Moves.ite | split
    | (with_reducible refine Moves.snd (by assumption) ?_) | (with_reducible refine Moves.fst (by assumption) ?_)
    | with_reducible apply Moves.raw

theorem State.toNext_moves {w : Mem → Bool} {s0 : State} {s : State} (x1 : Nat) (x2 : Nat) (hs : Moves w s0 s) :
    Moves w s0 (State.toNext s x1 x2) := by
  unfold State.toNext
  try dsimp only
  repeat'
    first
    | with_reducible assumption | intro _ | with_reducible apply State.occurs_moves | with_reducible apply State.pass_moves
    | with_reducible apply Moves.ite | split | (with_reducible refine Moves.snd (by assumption) ?_)
    | (with_reducible refine Moves.fst (by assumption) ?_)

theorem State.latchWords_moves {w : Mem → Bool} {s0 s : State} (a k : Nat) (h : Moves w s0 s) : Moves w s0 (s.latchWords a k) := by
  induction k generalizing s a with
  | zero => exact h
  | succ k ih => exact ih _ (Moves.raw h)

theorem State.setFlash_moves {w : Mem → Bool} {s0 s : State} (d a o : Nat) (v : Byte) (h : Moves w s0 s) (hw : w .flash = true) :
    Moves w s0 (s.setFlash d a o v) :=
  h.flash hw fun hc => Store.wf_set State.flashDflt s.flash _ v hc

theorem State.send_moves {w : Mem → Bool} {s0 : State} {s : State} (x1 : Nat) (x2 : Msg) (hs : Moves w s0 s) :
    Moves w s0 (State.send s x1 x2) := by
  unfold State.send
  try dsimp only
  repeat'
    first
    | with_reducible assumption | intro _ | with_reducible apply Moves.ite | split
    | (with_reducible refine Moves.snd (by assumption) ?_) | (with_reducible refine Moves.fst (by assumption) ?_)
    | with_reducible apply Moves.raw

theorem State.raiseMsg_moves {w : Mem → Bool} {s0 : State} {s : State} (x1 : Nat) (x2 : Msg) (hs : Moves w s0 s) :
    Moves w s0 (State.raiseMsg s x1 x2) := by
  unfold State.raiseMsg
  try dsimp only
  repeat'
    first
    | with_reducible assumption | intro _ | with_reducible apply State.send_moves | with_reducible apply Moves.ite | split
    | (with_reducible refine Moves.snd (by assumption) ?_) | (with_reducible refine Moves.fst (by assumption) ?_)

theorem State.raise_moves {w : Mem → Bool} {s0 : State} {s : State} (x1 : Nat) (x2 : Nat) (x3 : Nat) (x4 : Nat) (hs : Moves w s0 s) :
    Moves w s0 (State.raise s x1 x2 x3 x4) := by
  unfold State.raise
  try dsimp only
  repeat'
    first
    | with_reducible assumption | intro _ | with_reducible apply State.raiseMsg_moves | with_reducible apply Moves.ite | split
    | (with_reducible refine Moves.snd (by assumption) ?_) | (with_reducible refine Moves.fst (by assumption) ?_)

theorem State.raiseAx_moves {w : Mem → Bool} {s0 : State} {s : State} (x1 : Nat) (x2 : Nat) (x3 : Nat) (x4 : Nat) (hs : Moves w s0 s) :
    Moves w s0 (State.raiseAx s x1 x2 x3 x4) := by
  unfold State.raiseAx
  try dsimp only
  repeat'
    first
    | with_reducible assumption | intro _ | with_reducible apply State.raise_moves | with_reducible apply Moves.ite | split
    | (with_reducible refine Moves.snd (by assumption) ?_) | (with_reducible refine Moves.fst (by assumption) ?_)

theorem State.inject_moves {w : Mem → Bool} {s0 : State} {s : State} (x1 : Nat) (x2 : Nat) (x3 : Nat) (x4 : Nat) (x5 : Nat) (hs : Moves w
    s0 s) :
    Moves w s0 (State.inject s x1 x2 x3 x4 x5) := by
  unfold State.inject
  try dsimp only
  repeat'
    first
    | with_reducible assumption | intro _ | with_reducible apply State.raiseMsg_moves | with_reducible apply State.wr_moves
    | with_reducible apply State.raise_moves | with_reducible apply Moves.ite | split
    | (with_reducible refine Moves.snd (by assumption) ?_) | (with_reducible refine Moves.fst (by assumption) ?_)

theorem State.accessFault_moves {w : Mem → Bool} {s0 : State} {s : State} (x1 : Nat) (x2 : Nat) (x3 : Bool) (x4 : Nat) (x5 : Nat) (x6 :
    Nat) (hs : Moves w s0 s) :
    Moves w s0 (State.accessFault s x1 x2 x3 x4 x5 x6) := by
  unfold State.accessFault
  try dsimp only
  repeat'
    first
    | with_reducible assumption | intro _ | with_reducible apply State.addSat_moves | with_reducible apply State.wr_moves
    | with_reducible apply State.send_moves | with_reducible apply Moves.ite | split
    | (with_reducible refine Moves.snd (by assumption) ?_) | (with_reducible refine Moves.fst (by assumption) ?_)

theorem State.setIrq_moves {w : Mem → Bool} {s0 : State} {s : State} (x1 : Nat) (x2 : Nat) (x3 : Nat) (x4 : Bool) (hs : Moves w s0 s)
    :
    Moves w s0 (State.setIrq s x1 x2 x3 x4) := by
  unfold State.setIrq
  try dsimp only
  repeat'
    first
    | with_reducible assumption | intro _ | with_reducible apply Moves.ite | split
    | (with_reducible refine Moves.snd (by assumption) ?_) | (with_reducible refine Moves.fst (by assumption) ?_)
    | with_reducible apply Moves.raw

theorem State.setIrqs_moves {w : Mem → Bool} {s0 : State} {s : State} (x1 : Nat) (x2 : Nat) (x3 : Bool) (hs : Moves w s0 s) :
    Moves w s0 (State.setIrqs s x1 x2 x3) := by
  unfold State.setIrqs
  try dsimp only
  repeat'
    first
    | with_reducible assumption | intro _ | with_reducible apply State.setIrq_moves | with_reducible apply Moves.ite | split
    | (with_reducible refine Moves.snd (by assumption) ?_) | (with_reducible refine Moves.fst (by assumption) ?_)

theorem State.forEach_moves {w : Mem → Bool} {s0 s : State} (l : List Nat) {f : Nat → State → State} (h : Moves w s0 s)
    (hf : ∀ k u, Moves w s0 u → Moves w s0 (f k u)) : Moves w s0 (s.forEach l f) :=
  Moves.foldl h fun u k hu => hf k u hu

theorem State.answer_moves {w : Mem → Bool} {s0 : State} {s : State} (x1 : Nat) (hs : Moves w s0 s) :
    Moves w s0 (State.answer s x1) := by
  unfold State.answer
  try dsimp only
  repeat'
    first
    | with_reducible assumption | intro _ | with_reducible apply Moves.ite | split
    | (with_reducible refine Moves.snd (by assumption) ?_) | (with_reducible refine Moves.fst (by assumption) ?_)
    | with_reducible apply Moves.raw

theorem State.near_moves {w : Mem → Bool} {s0 : State} {s : State} (x1 : Rat) (hs : Moves w s0 s) :
    Moves w s0 (State.near s x1).2 := by
  unfold State.near
  try dsimp only
  repeat'
    first
    | with_reducible assumption | intro _ | with_reducible apply State.drew_moves | with_reducible apply Moves.ite | split
    | (with_reducible refine Moves.snd (by assumption) ?_) | (with_reducible refine Moves.fst (by assumption) ?_)

theorem itemApplied_moves {w : Mem → Bool} {s0 : State} (x0 : Nat) (x1 : Nat) {s : State} (hs : Moves w s0 s) :
    Moves w s0 (itemApplied x0 x1 s) := by
  unfold itemApplied
  try dsimp only
  repeat'
    first
    | with_reducible assumption | intro _ | with_reducible apply State.modPair_moves | with_reducible apply State.forEach_moves
    | with_reducible apply State.modFil_moves | with_reducible apply State.wr_moves | with_reducible apply Moves.ite | split
    | (with_reducible refine Moves.snd (by assumption) ?_) | (with_reducible refine Moves.fst (by assumption) ?_)
    | with_reducible apply Moves.raw

theorem axisWrite_moves {w : Mem → Bool} {s0 : State} (x0 : Nat) (x1 : Nat) (x2 : Word) {x3 : Nat → State → State} {s : State} (hx3 :
    ∀ a0 u, Moves w s0 u → Moves w s0 (x3 a0 u)) (hs : Moves w s0 s) :
    Moves w s0 (axisWrite x0 x1 x2 x3 s) := by
  unfold axisWrite
  try dsimp only
  repeat'
    first
    | with_reducible assumption | intro _ | with_reducible apply State.modFwd_moves
    | with_reducible apply State.accessFault_moves | with_reducible apply State.drew_moves | with_reducible apply hx3
    | with_reducible apply Moves.ite | split | (with_reducible refine Moves.snd (by assumption) ?_)
    | (with_reducible refine Moves.fst (by assumption) ?_)

theorem State.setDramByte_moves {w : Mem → Bool} {s0 s : State} (ch a : Nat) (v : Byte) (h : Moves w s0 s) (hw : w .dram = true) :
    Moves w s0 (s.setDramByte ch a v) :=
  h.dram hw fun hc => Store.wf_set (fun _ => 0) s.dram _ v hc

theorem State.putDram_moves {w : Mem → Bool} {s0 s : State} (ch a : Nat) (bs : List Byte) (h : Moves w s0 s)
    (hw : w .dram = true) : Moves w s0 (s.putDram ch a bs) := by
  unfold State.putDram
  refine Moves.foldlBy Prod.fst h fun p b hp => ?_
  dsimp only
  split
  · split
    · exact State.setDramByte_moves _ _ _ (State.setDramByte_moves _ _ _ hp hw) hw
    · exact State.setDramByte_moves _ _ _ hp hw
  · exact hp

theorem State.rangeCheck_moves {w : Mem → Bool} {s0 : State} {s : State} (x1 : Nat) (x2 : Nat) (x3 : Nat) (hs : Moves w s0 s) :
    Moves w s0 (State.rangeCheck s x1 x2 x3) := by
  unfold State.rangeCheck
  try dsimp only
  repeat'
    first
    | with_reducible assumption | intro _ | with_reducible apply State.raise_moves | with_reducible apply Moves.ite | split
    | (with_reducible refine Moves.snd (by assumption) ?_) | (with_reducible refine Moves.fst (by assumption) ?_)

theorem State.dramRead_moves {w : Mem → Bool} {s0 : State} {s : State} (x1 : Nat) (x2 : Nat) (hs : Moves w s0 s) :
    Moves w s0 (State.dramRead s x1 x2).2 := by
  unfold State.dramRead
  try dsimp only
  repeat'
    first
    | with_reducible assumption | intro _ | with_reducible apply State.rangeCheck_moves | with_reducible apply Moves.ite | split
    | (with_reducible refine Moves.snd (by assumption) ?_) | (with_reducible refine Moves.fst (by assumption) ?_)

theorem State.dramWrite_moves {w : Mem → Bool} {s0 : State} {s : State} (x1 : Nat) (x2 : List Byte) (hs : Moves w s0 s) (hwdram :
    w .dram = true) :
    Moves w s0 (State.dramWrite s x1 x2).2 := by
  unfold State.dramWrite
  try dsimp only
  repeat'
    first
    | with_reducible assumption | intro _ | with_reducible apply State.putDram_moves
    | with_reducible apply State.rangeCheck_moves | with_reducible apply Moves.ite | split
    | (with_reducible refine Moves.snd (by assumption) ?_) | (with_reducible refine Moves.fst (by assumption) ?_)

end Sys2Proof.Machine
end

