-- ==== Sys2Proof/Laws/MovesAxis.lean ====
section
/-!
SUPPORT. What each operation of the model does to a state at most (Laws/Moves.lean): pads, PWM, excitation, tables, trackers, encoders and acquisition.
-/

set_option linter.unusedTactic false
set_option linter.unreachableTactic false

namespace Sys2Proof.Machine

theorem State.showLegs_moves {w : Mem → Bool} {s0 : State} {s : State} (x1 : Nat) (x2 : Nat) (hs : Moves w s0 s) :
    Moves w s0 (State.showLegs s x1 x2) := by
  unfold State.showLegs
  try dsimp only
  repeat'
    first
    | with_reducible assumption | intro _ | with_reducible apply State.modPwm_moves | with_reducible apply State.wr_moves
    | with_reducible apply Moves.ite | split | (with_reducible refine Moves.snd (by assumption) ?_)
    | (with_reducible refine Moves.fst (by assumption) ?_) | with_reducible apply Moves.raw

theorem State.eachLeg_moves {w : Mem → Bool} {s0 : State} {s : State} (x1 : Nat) (x2 : Nat) (x3 : Nat → Leg → Leg) (hs : Moves w s0 s)
    :
    Moves w s0 (State.eachLeg s x1 x2 x3) := by
  unfold State.eachLeg
  try dsimp only
  repeat'
    first
    | with_reducible assumption | intro _ | with_reducible apply State.modLeg_moves | with_reducible apply Moves.ite | split
    | (with_reducible refine Moves.snd (by assumption) ?_) | (with_reducible refine Moves.fst (by assumption) ?_)

theorem State.settleTo_moves {w : Mem → Bool} {s0 : State} {s : State} (x1 : Nat) (x2 : Nat) (x3 : Nat) (hs : Moves w s0 s) :
    Moves w s0 (State.settleTo s x1 x2 x3) := by
  unfold State.settleTo
  try dsimp only
  repeat'
    first
    | with_reducible assumption | intro _ | with_reducible apply State.eachLeg_moves | with_reducible apply Moves.ite | split
    | (with_reducible refine Moves.snd (by assumption) ?_) | (with_reducible refine Moves.fst (by assumption) ?_)

theorem State.takeDuty_moves {w : Mem → Bool} {s0 : State} {s : State} (x1 : Nat) (x2 : Nat) (x3 : Nat) (x4 : Nat) (hs : Moves w s0 s) :
    Moves w s0 (State.takeDuty s x1 x2 x3 x4) := by
  unfold State.takeDuty
  try dsimp only
  repeat'
    first
    | with_reducible assumption | intro _ | with_reducible apply State.settleTo_moves | with_reducible apply State.addSat_moves
    | with_reducible apply State.modLeg_moves | with_reducible apply Moves.ite | split
    | (with_reducible refine Moves.snd (by assumption) ?_) | (with_reducible refine Moves.fst (by assumption) ?_)
    | with_reducible apply Moves.raw

theorem State.dutyArrives_moves {w : Mem → Bool} {s0 : State} {s : State} (x1 : Nat) (x2 : Nat) (x3 : Nat) (x4 : Nat) (x5 : Nat) (hs :
    Moves w s0 s) :
    Moves w s0 (State.dutyArrives s x1 x2 x3 x4 x5) := by
  unfold State.dutyArrives
  try dsimp only
  repeat'
    first
    | with_reducible assumption | intro _ | with_reducible apply State.wr_moves | with_reducible apply State.takeDuty_moves
    | with_reducible apply Moves.ite | split | (with_reducible refine Moves.snd (by assumption) ?_)
    | (with_reducible refine Moves.fst (by assumption) ?_)

theorem State.dutiesArrive_moves {w : Mem → Bool} {s0 : State} {s : State} (x1 : Nat) (x2 : Nat) (hs : Moves w s0 s) :
    Moves w s0 (State.dutiesArrive s x1 x2) := by
  unfold State.dutiesArrive
  try dsimp only
  repeat'
    first
    | with_reducible assumption | intro _ | with_reducible apply State.forEach_moves | with_reducible apply State.modLeg_moves
    | with_reducible apply State.dutyArrives_moves | with_reducible apply Moves.foldl
    | (with_reducible refine Moves.foldlBy Prod.snd ?_ ?_) | (with_reducible refine Moves.foldlBy Prod.fst ?_ ?_)
    | (with_reducible refine Moves.foldlBy WordRun.s ?_ ?_) | with_reducible apply Moves.ite | split
    | (with_reducible refine Moves.snd (by assumption) ?_) | (with_reducible refine Moves.fst (by assumption) ?_)
    | with_reducible apply Moves.raw

theorem State.settleAxis_moves {w : Mem → Bool} {s0 : State} {s : State} (x1 : Nat) (x2 : Nat) (hs : Moves w s0 s) :
    Moves w s0 (State.settleAxis s x1 x2) := by
  unfold State.settleAxis
  try dsimp only
  repeat'
    first
    | with_reducible assumption | intro _ | with_reducible apply State.dutiesArrive_moves
    | with_reducible apply State.showLegs_moves | with_reducible apply State.settleTo_moves | with_reducible apply Moves.ite
    | split | (with_reducible refine Moves.snd (by assumption) ?_) | (with_reducible refine Moves.fst (by assumption) ?_)

theorem State.takeSafe_moves {w : Mem → Bool} {s0 : State} {s : State} (x1 : Nat) (x2 : Nat) (hs : Moves w s0 s) :
    Moves w s0 (State.takeSafe s x1 x2) := by
  unfold State.takeSafe
  try dsimp only
  repeat'
    first
    | with_reducible assumption | intro _ | with_reducible apply State.showLegs_moves | with_reducible apply State.eachLeg_moves
    | with_reducible apply Moves.ite | split | (with_reducible refine Moves.snd (by assumption) ?_)
    | (with_reducible refine Moves.fst (by assumption) ?_)

theorem State.refreshAxis_moves {w : Mem → Bool} {s0 : State} {s : State} (x1 : Nat) (x2 : Nat) (hs : Moves w s0 s) :
    Moves w s0 (State.refreshAxis s x1 x2) := by
  unfold State.refreshAxis
  try dsimp only
  repeat'
    first
    | with_reducible assumption | intro _ | with_reducible apply State.wr_moves | with_reducible apply State.modPwm_moves
    | with_reducible apply State.settleAxis_moves | with_reducible apply State.takeSafe_moves | with_reducible apply Moves.ite
    | split | (with_reducible refine Moves.snd (by assumption) ?_) | (with_reducible refine Moves.fst (by assumption) ?_)
    | with_reducible apply Moves.raw

theorem State.refreshDie_moves {w : Mem → Bool} {s0 : State} {s : State} (x1 : Nat) (hs : Moves w s0 s) :
    Moves w s0 (State.refreshDie s x1) := by
  unfold State.refreshDie
  try dsimp only
  repeat'
    first
    | with_reducible assumption | intro _ | with_reducible apply State.forEach_moves
    | with_reducible apply State.refreshAxis_moves | with_reducible apply Moves.ite | split
    | (with_reducible refine Moves.snd (by assumption) ?_) | (with_reducible refine Moves.fst (by assumption) ?_)

theorem State.holdBalls_moves {w : Mem → Bool} {s0 : State} {s : State} (x1 : Nat) (hs : Moves w s0 s) :
    Moves w s0 (State.holdBalls s x1) := by
  unfold State.holdBalls
  try dsimp only
  repeat'
    first
    | with_reducible assumption | intro _ | with_reducible apply State.modBall_moves | with_reducible apply State.drew_moves
    | with_reducible apply Moves.foldl | (with_reducible refine Moves.foldlBy Prod.snd ?_ ?_)
    | (with_reducible refine Moves.foldlBy Prod.fst ?_ ?_) | (with_reducible refine Moves.foldlBy WordRun.s ?_ ?_)
    | with_reducible apply Moves.ite | split | (with_reducible refine Moves.snd (by assumption) ?_)
    | (with_reducible refine Moves.fst (by assumption) ?_)

theorem setPads_moves {w : Mem → Bool} {s0 : State} (x0 : Nat) (x1 : Drive) {s : State} (hs : Moves w s0 s) :
    Moves w s0 (setPads x0 x1 s) := by
  unfold setPads
  try dsimp only
  repeat'
    first
    | with_reducible assumption | intro _ | with_reducible apply State.modPair_moves | with_reducible apply Moves.ite | split
    | (with_reducible refine Moves.snd (by assumption) ?_) | (with_reducible refine Moves.fst (by assumption) ?_)
    | with_reducible apply Moves.raw

theorem periodStart_moves {w : Mem → Bool} {s0 : State} (x0 : Nat) (x1 : Nat) {s : State} (hs : Moves w s0 s) :
    Moves w s0 (periodStart x0 x1 s) := by
  unfold periodStart
  try dsimp only
  repeat'
    first
    | with_reducible assumption | intro _ | with_reducible apply State.settleAxis_moves
    | with_reducible apply State.modPwm_moves | with_reducible apply State.eachLeg_moves
    | with_reducible apply State.addSat_moves | with_reducible apply Moves.ite | split
    | (with_reducible refine Moves.snd (by assumption) ?_) | (with_reducible refine Moves.fst (by assumption) ?_)
    | with_reducible apply Moves.raw

theorem pwmPeriodStart_moves {w : Mem → Bool} {s0 : State} (x0 : Nat) (x1 : Nat) {s : State} (hs : Moves w s0 s) :
    Moves w s0 (pwmPeriodStart x0 x1 s) := by
  unfold pwmPeriodStart
  try dsimp only
  repeat'
    first
    | with_reducible assumption | intro _ | with_reducible apply periodStart_moves | with_reducible apply State.occurs_moves
    | with_reducible apply State.pass_moves | with_reducible apply Moves.ite | split
    | (with_reducible refine Moves.snd (by assumption) ?_) | (with_reducible refine Moves.fst (by assumption) ?_)

theorem takeDuties_moves {w : Mem → Bool} {s0 : State} (x0 : Nat) (x1 : Nat) {s : State} (hs : Moves w s0 s) :
    Moves w s0 (takeDuties x0 x1 s) := by
  unfold takeDuties
  try dsimp only
  repeat'
    first
    | with_reducible assumption | intro _ | with_reducible apply State.settleAxis_moves
    | with_reducible apply State.forEach_moves | with_reducible apply State.takeDuty_moves | with_reducible apply Moves.ite
    | split | (with_reducible refine Moves.snd (by assumption) ?_) | (with_reducible refine Moves.fst (by assumption) ?_)

theorem pwmUpdatePoint_moves {w : Mem → Bool} {s0 : State} (x0 : Nat) (x1 : Nat) {s : State} (hs : Moves w s0 s) :
    Moves w s0 (pwmUpdatePoint x0 x1 s) := by
  unfold pwmUpdatePoint
  try dsimp only
  repeat'
    first
    | with_reducible assumption | intro _ | with_reducible apply takeDuties_moves | with_reducible apply State.occurs_moves
    | with_reducible apply State.pass_moves | with_reducible apply Moves.ite | split
    | (with_reducible refine Moves.snd (by assumption) ?_) | (with_reducible refine Moves.fst (by assumption) ?_)

theorem dutyWrite_moves {w : Mem → Bool} {s0 : State} (x0 : Nat) (x1 : Nat) (x2 : Nat) (x3 : Nat) (x4 : Nat) {s : State} (hs : Moves w s0
    s) :
    Moves w s0 (dutyWrite x0 x1 x2 x3 x4 s) := by
  unfold dutyWrite
  try dsimp only
  repeat'
    first
    | with_reducible assumption | intro _ | with_reducible apply State.dutiesArrive_moves
    | with_reducible apply State.modLeg_moves | with_reducible apply State.dutyArrives_moves | with_reducible apply Moves.ite
    | split | (with_reducible refine Moves.snd (by assumption) ?_) | (with_reducible refine Moves.fst (by assumption) ?_)
    | with_reducible apply Moves.raw

theorem pwmDutyReg_moves {w : Mem → Bool} {s0 : State} (x0 : Nat) (x1 : Nat) (x2 : Word) (x3 : Nat) {s : State} (hs : Moves w s0 s) :
    Moves w s0 (pwmDutyReg x0 x1 x2 x3 s) := by
  unfold pwmDutyReg
  try dsimp only
  repeat'
    first
    | with_reducible assumption | intro _ | with_reducible apply dutyWrite_moves | with_reducible apply Moves.ite | split
    | (with_reducible refine Moves.snd (by assumption) ?_) | (with_reducible refine Moves.fst (by assumption) ?_)

theorem deadTimeExpiry_moves {w : Mem → Bool} {s0 : State} (x0 : Nat) (x1 : Nat) (x2 : Nat) {s : State} (hs : Moves w s0 s) :
    Moves w s0 (deadTimeExpiry x0 x1 x2 s) := by
  unfold deadTimeExpiry
  try dsimp only
  repeat'
    first
    | with_reducible assumption | intro _ | with_reducible apply State.settleAxis_moves | with_reducible apply State.pass_moves
    | with_reducible apply Moves.ite | split | (with_reducible refine Moves.snd (by assumption) ?_)
    | (with_reducible refine Moves.fst (by assumption) ?_)

theorem judgeFast_moves {w : Mem → Bool} {s0 : State} (x0 : Nat) (x1 : Nat) (x2 : Bool) {s : State} (hs : Moves w s0 s) :
    Moves w s0 (judgeFast x0 x1 x2 s) := by
  unfold judgeFast
  try dsimp only
  repeat'
    first
    | with_reducible assumption | intro _ | with_reducible apply State.forEach_moves | with_reducible apply State.raise_moves
    | with_reducible apply State.modLeg_moves | with_reducible apply State.wr_moves | with_reducible apply Moves.ite | split
    | (with_reducible refine Moves.snd (by assumption) ?_) | (with_reducible refine Moves.fst (by assumption) ?_)
    | with_reducible apply Moves.raw

theorem demand_moves {w : Mem → Bool} {s0 : State} (x0 : Nat) (x1 : Nat) (x2 : Nat) (x3 : Bool) {s : State} (hs : Moves w s0 s) :
    Moves w s0 (demand x0 x1 x2 x3 s) := by
  unfold demand
  try dsimp only
  repeat'
    first
    | with_reducible assumption | intro _ | with_reducible apply State.modLeg_moves | with_reducible apply State.showLegs_moves
    | with_reducible apply Moves.ite | split | (with_reducible refine Moves.snd (by assumption) ?_)
    | (with_reducible refine Moves.fst (by assumption) ?_) | with_reducible apply Moves.raw

theorem demandRipe_moves {w : Mem → Bool} {s0 : State} (x0 : Nat) (x1 : Nat) (x2 : Nat) {s : State} (hs : Moves w s0 s) :
    Moves w s0 (demandRipe x0 x1 x2 s) := by
  unfold demandRipe
  try dsimp only
  repeat'
    first
    | with_reducible assumption | intro _ | with_reducible apply State.modLeg_moves | with_reducible apply Moves.ite | split
    | (with_reducible refine Moves.snd (by assumption) ?_) | (with_reducible refine Moves.fst (by assumption) ?_)
    | with_reducible apply Moves.raw

theorem bandCompare_moves {w : Mem → Bool} {s0 : State} (x0 : Nat) (x1 : Nat) {s : State} (hs : Moves w s0 s) :
    Moves w s0 (bandCompare x0 x1 s) := by
  unfold bandCompare
  try dsimp only
  repeat'
    first
    | with_reducible assumption | intro _ | with_reducible apply State.forEach_moves | with_reducible apply demandRipe_moves
    | with_reducible apply demand_moves | with_reducible apply State.addSat_moves | with_reducible apply Moves.ite | split
    | (with_reducible refine Moves.snd (by assumption) ?_) | (with_reducible refine Moves.fst (by assumption) ?_)

theorem fastAct_moves {w : Mem → Bool} {s0 : State} (x0 : Nat) (x1 : Nat) (x2 : Nat) {s : State} (hs : Moves w s0 s) :
    Moves w s0 (fastAct x0 x1 x2 s) := by
  unfold fastAct
  try dsimp only
  repeat'
    first
    | with_reducible assumption | intro _ | with_reducible apply State.forEach_moves | with_reducible apply demand_moves
    | with_reducible apply Moves.ite | split | (with_reducible refine Moves.snd (by assumption) ?_)
    | (with_reducible refine Moves.fst (by assumption) ?_)

theorem bandMinpExpiry_moves {w : Mem → Bool} {s0 : State} (x0 : Nat) (x1 : Nat) (x2 : Nat) {s : State} (hs : Moves w s0 s) :
    Moves w s0 (bandMinpExpiry x0 x1 x2 s) := by
  unfold bandMinpExpiry
  try dsimp only
  repeat'
    first
    | with_reducible assumption | intro _ | with_reducible apply State.settleAxis_moves
    | with_reducible apply State.toGrid_moves | with_reducible apply State.pass_moves | with_reducible apply demandRipe_moves
    | with_reducible apply demand_moves | with_reducible apply Moves.ite | split
    | (with_reducible refine Moves.snd (by assumption) ?_) | (with_reducible refine Moves.fst (by assumption) ?_)

theorem bandWrite_moves {w : Mem → Bool} {s0 : State} (x0 : Nat) (x1 : Nat) (x2 : Nat) (x3 : Nat) (x4 : Int) (x5 : Nat) {s : State} (hs :
    Moves w s0 s) :
    Moves w s0 (bandWrite x0 x1 x2 x3 x4 x5 s) := by
  unfold bandWrite
  try dsimp only
  repeat'
    first
    | with_reducible assumption | intro _ | with_reducible apply State.modLeg_moves | with_reducible apply State.wrI_moves
    | with_reducible apply State.wr_moves | with_reducible apply fastAct_moves | with_reducible apply Moves.ite | split
    | (with_reducible refine Moves.snd (by assumption) ?_) | (with_reducible refine Moves.fst (by assumption) ?_)
    | with_reducible apply Moves.raw

theorem bandLockQualified_moves {w : Mem → Bool} {s0 : State} (x0 : Nat) (x1 : Nat) (x2 : Nat) {s : State} (hs : Moves w s0 s) :
    Moves w s0 (bandLockQualified x0 x1 x2 s) := by
  unfold bandLockQualified
  try dsimp only
  repeat'
    first
    | with_reducible assumption | intro _ | with_reducible apply State.wr_moves | with_reducible apply Moves.ite | split
    | (with_reducible refine Moves.snd (by assumption) ?_) | (with_reducible refine Moves.fst (by assumption) ?_)

theorem bandLimit_moves {w : Mem → Bool} {s0 : State} (x0 : Nat) (x1 : Nat) (x2 : Nat) {s : State} (hs : Moves w s0 s) :
    Moves w s0 (bandLimit x0 x1 x2 s) := by
  unfold bandLimit
  try dsimp only
  repeat'
    first
    | with_reducible assumption | intro _ | with_reducible apply State.raiseAx_moves | with_reducible apply State.wrBit_moves
    | with_reducible apply State.wr_moves | with_reducible apply Moves.ite | split
    | (with_reducible refine Moves.snd (by assumption) ?_) | (with_reducible refine Moves.fst (by assumption) ?_)

theorem bandExit_moves {w : Mem → Bool} {s0 : State} (x0 : Nat) (x1 : Nat) {s : State} (hs : Moves w s0 s) :
    Moves w s0 (bandExit x0 x1 s) := by
  unfold bandExit
  try dsimp only
  repeat'
    first
    | with_reducible assumption | intro _ | with_reducible apply State.settleAxis_moves
    | with_reducible apply State.modPwm_moves | with_reducible apply State.wr_moves | with_reducible apply State.eachLeg_moves
    | with_reducible apply State.showLegs_moves | with_reducible apply Moves.ite | split
    | (with_reducible refine Moves.snd (by assumption) ?_) | (with_reducible refine Moves.fst (by assumption) ?_)
    | with_reducible apply Moves.raw

theorem pwmExit_moves {w : Mem → Bool} {s0 : State} (x0 : Nat) (x1 : Nat) {s : State} (hs : Moves w s0 s) :
    Moves w s0 (pwmExit x0 x1 s) := by
  unfold pwmExit
  try dsimp only
  repeat'
    first
    | with_reducible assumption | intro _ | with_reducible apply State.settleAxis_moves
    | with_reducible apply State.modPwm_moves | with_reducible apply State.wr_moves | with_reducible apply State.eachLeg_moves
    | with_reducible apply State.showLegs_moves | with_reducible apply periodStart_moves | with_reducible apply Moves.ite
    | split | (with_reducible refine Moves.snd (by assumption) ?_) | (with_reducible refine Moves.fst (by assumption) ?_)
    | with_reducible apply Moves.raw

theorem safeStateExit_moves {w : Mem → Bool} {s0 : State} (x0 : Nat) (x1 : Nat) {s : State} (hs : Moves w s0 s) :
    Moves w s0 (safeStateExit x0 x1 s) := by
  unfold safeStateExit
  try dsimp only
  repeat'
    first
    | with_reducible assumption | intro _ | with_reducible apply State.refreshAxis_moves
    | with_reducible apply State.toGrid_moves | with_reducible apply bandExit_moves | with_reducible apply pwmExit_moves
    | with_reducible apply State.occurs_moves | with_reducible apply State.pass_moves | with_reducible apply Moves.ite | split
    | (with_reducible refine Moves.snd (by assumption) ?_) | (with_reducible refine Moves.fst (by assumption) ?_)

theorem bandStrobe_moves {w : Mem → Bool} {s0 : State} (x0 : Nat) (x1 : Nat) {s : State} (hs : Moves w s0 s) :
    Moves w s0 (bandStrobe x0 x1 s) := by
  unfold bandStrobe
  try dsimp only
  repeat'
    first
    | with_reducible assumption | intro _ | with_reducible apply bandExit_moves | with_reducible apply bandCompare_moves
    | with_reducible apply State.settleAxis_moves | with_reducible apply Moves.ite | split
    | (with_reducible refine Moves.snd (by assumption) ?_) | (with_reducible refine Moves.fst (by assumption) ?_)

theorem pwmSafeWrite_moves {w : Mem → Bool} {s0 : State} (x0 : Nat) (x1 : Word) (x2 : Nat) {s : State} (hs : Moves w s0 s) :
    Moves w s0 (pwmSafeWrite x0 x1 x2 s) := by
  unfold pwmSafeWrite
  try dsimp only
  repeat'
    first
    | with_reducible assumption | intro _ | with_reducible apply State.raise_moves | with_reducible apply State.holdBalls_moves
    | with_reducible apply State.settleAxis_moves | with_reducible apply State.wr_moves
    | with_reducible apply State.takeSafe_moves | with_reducible apply State.showLegs_moves | with_reducible apply Moves.ite
    | split | (with_reducible refine Moves.snd (by assumption) ?_) | (with_reducible refine Moves.fst (by assumption) ?_)

theorem pwmCtrlWrite_moves {w : Mem → Bool} {s0 : State} (x0 : Nat) (x1 : Word) (x2 : Nat) {s : State} (hs : Moves w s0 s) :
    Moves w s0 (pwmCtrlWrite x0 x1 x2 s) := by
  unfold pwmCtrlWrite
  try dsimp only
  repeat'
    first
    | with_reducible assumption | intro _ | with_reducible apply State.raise_moves | with_reducible apply State.settleAxis_moves
    | with_reducible apply State.wr_moves | with_reducible apply judgeFast_moves | with_reducible apply State.refreshAxis_moves
    | with_reducible apply Moves.ite | split | (with_reducible refine Moves.snd (by assumption) ?_)
    | (with_reducible refine Moves.fst (by assumption) ?_)

theorem pwmFixedWrite_moves {w : Mem → Bool} {s0 : State} (x0 : Fld) (x1 : Nat) (x2 : Word) (x3 : Nat) {s : State} (hs : Moves w s0
    s) :
    Moves w s0 (pwmFixedWrite x0 x1 x2 x3 s) := by
  unfold pwmFixedWrite
  try dsimp only
  repeat'
    first
    | with_reducible assumption | intro _ | with_reducible apply State.raise_moves | with_reducible apply State.wr_moves
    | with_reducible apply Moves.ite | split | (with_reducible refine Moves.snd (by assumption) ?_)
    | (with_reducible refine Moves.fst (by assumption) ?_)

theorem bndCtrlWrite_moves {w : Mem → Bool} {s0 : State} (x0 : Nat) (x1 : Word) (x2 : Nat) {s : State} (hs : Moves w s0 s) :
    Moves w s0 (bndCtrlWrite x0 x1 x2 s) := by
  unfold bndCtrlWrite
  try dsimp only
  repeat'
    first
    | with_reducible assumption | intro _ | with_reducible apply State.wr_moves | with_reducible apply State.eachLeg_moves
    | with_reducible apply judgeFast_moves | with_reducible apply Moves.ite | split
    | (with_reducible refine Moves.snd (by assumption) ?_) | (with_reducible refine Moves.fst (by assumption) ?_)
    | with_reducible apply Moves.raw

theorem standbyLegCopy_moves {w : Mem → Bool} {s0 : State} (x0 : Nat) (x1 : Nat) {s : State} (hs : Moves w s0 s) :
    Moves w s0 (standbyLegCopy x0 x1 s) := by
  unfold standbyLegCopy
  try dsimp only
  repeat'
    first
    | with_reducible assumption | intro _ | with_reducible apply State.eachLeg_moves | with_reducible apply State.showLegs_moves
    | with_reducible apply Moves.ite | split | (with_reducible refine Moves.snd (by assumption) ?_)
    | (with_reducible refine Moves.fst (by assumption) ?_) | with_reducible apply Moves.raw

theorem standbyHbCopy_moves {w : Mem → Bool} {s0 : State} (x0 : Nat) (x1 : Nat) {s : State} (hs : Moves w s0 s) :
    Moves w s0 (standbyHbCopy x0 x1 s) := by
  unfold standbyHbCopy
  try dsimp only
  repeat'
    first
    | with_reducible assumption | intro _ | with_reducible apply State.forEach_moves | with_reducible apply State.wr_moves
    | with_reducible apply Moves.ite | split | (with_reducible refine Moves.snd (by assumption) ?_)
    | (with_reducible refine Moves.fst (by assumption) ?_)

theorem pwmLate_moves {w : Mem → Bool} {s0 : State} (x0 : Nat) (x1 : Nat) {s : State} (hs : Moves w s0 s) :
    Moves w s0 (pwmLate x0 x1 s) := by
  unfold pwmLate
  try dsimp only
  repeat'
    first
    | with_reducible assumption | intro _ | with_reducible apply State.raiseAx_moves | with_reducible apply State.wrBit_moves
    | with_reducible apply State.addSat_moves | with_reducible apply Moves.ite | split
    | (with_reducible refine Moves.snd (by assumption) ?_) | (with_reducible refine Moves.fst (by assumption) ?_)

theorem excStrobe_moves {w : Mem → Bool} {s0 : State} (x0 : Nat) (x1 : Nat) {s : State} (hs : Moves w s0 s) :
    Moves w s0 (excStrobe x0 x1 s) := by
  unfold excStrobe
  try dsimp only
  repeat'
    first
    | with_reducible assumption | intro _ | with_reducible apply State.modExc_moves | with_reducible apply State.near_moves
    | with_reducible apply State.wr_moves | with_reducible apply Moves.ite | split
    | (with_reducible refine Moves.snd (by assumption) ?_) | (with_reducible refine Moves.fst (by assumption) ?_)
    | with_reducible apply Moves.raw

theorem pilotAcquire_moves {w : Mem → Bool} {s0 : State} (x0 : Nat) (x1 : Nat) (x2 : Bool) {s : State} (hs : Moves w s0 s) :
    Moves w s0 (pilotAcquire x0 x1 x2 s) := by
  unfold pilotAcquire
  try dsimp only
  repeat'
    first
    | with_reducible assumption | intro _ | with_reducible apply State.wr_moves | with_reducible apply State.modExc_moves
    | with_reducible apply Moves.ite | split | (with_reducible refine Moves.snd (by assumption) ?_)
    | (with_reducible refine Moves.fst (by assumption) ?_) | with_reducible apply Moves.raw

theorem pilotUpdate_moves {w : Mem → Bool} {s0 : State} (x0 : Nat) (x1 : Nat) (x2 : Int) (x3 : Int) (x4 : Int) {s : State} (hs : Moves w
    s0 s) :
    Moves w s0 (pilotUpdate x0 x1 x2 x3 x4 s) := by
  unfold pilotUpdate
  try dsimp only
  repeat'
    first
    | with_reducible assumption | intro _ | with_reducible apply State.near_moves | with_reducible apply State.wr_moves
    | with_reducible apply State.modExc_moves | with_reducible apply pilotAcquire_moves | with_reducible apply Moves.ite | split
    | (with_reducible refine Moves.snd (by assumption) ?_) | (with_reducible refine Moves.fst (by assumption) ?_)
    | with_reducible apply Moves.raw

theorem pilotAcqTimeout_moves {w : Mem → Bool} {s0 : State} (x0 : Nat) (x1 : Nat) {s : State} (hs : Moves w s0 s) :
    Moves w s0 (pilotAcqTimeout x0 x1 s) := by
  unfold pilotAcqTimeout
  try dsimp only
  repeat'
    first
    | with_reducible assumption | intro _ | with_reducible apply State.passTo_moves | with_reducible apply State.wr_moves
    | with_reducible apply State.modExc_moves | with_reducible apply Moves.ite | split
    | (with_reducible refine Moves.snd (by assumption) ?_) | (with_reducible refine Moves.fst (by assumption) ?_)
    | with_reducible apply Moves.raw

theorem pilotAmplitudeLoss_moves {w : Mem → Bool} {s0 : State} (x0 : Nat) (x1 : Nat) {s : State} (hs : Moves w s0 s) :
    Moves w s0 (pilotAmplitudeLoss x0 x1 s) := by
  unfold pilotAmplitudeLoss
  try dsimp only
  repeat'
    first
    | with_reducible assumption | intro _ | with_reducible apply State.modExc_moves | with_reducible apply State.wr_moves
    | with_reducible apply State.passTo_moves | with_reducible apply Moves.ite | split
    | (with_reducible refine Moves.snd (by assumption) ?_) | (with_reducible refine Moves.fst (by assumption) ?_)
    | with_reducible apply Moves.raw

theorem excWrite_moves {w : Mem → Bool} {s0 : State} (x0 : Nat) (x1 : Nat) (x2 : Word) (x3 : Nat) (x4 : Nat) {s : State} (hs : Moves w
    s0 s) :
    Moves w s0 (excWrite x0 x1 x2 x3 x4 s) := by
  unfold excWrite
  try dsimp only
  repeat'
    first
    | with_reducible assumption | intro _ | with_reducible apply State.wr_moves | with_reducible apply State.modExc_moves
    | with_reducible apply State.raise_moves | with_reducible apply State.wrBit_moves | with_reducible apply Moves.ite | split
    | (with_reducible refine Moves.snd (by assumption) ?_) | (with_reducible refine Moves.fst (by assumption) ?_)
    | with_reducible apply Moves.raw

theorem excTake_moves {w : Mem → Bool} {s0 : State} (x0 : Nat) (x1 : Nat) {s : State} (hs : Moves w s0 s) :
    Moves w s0 (excTake x0 x1 s) := by
  unfold excTake
  try dsimp only
  repeat'
    first
    | with_reducible assumption | intro _ | with_reducible apply State.holdBalls_moves | with_reducible apply State.modExc_moves
    | with_reducible apply pilotAcquire_moves | with_reducible apply State.wrBit_moves | with_reducible apply State.wr_moves
    | with_reducible apply Moves.ite | split | (with_reducible refine Moves.snd (by assumption) ?_)
    | (with_reducible refine Moves.fst (by assumption) ?_) | with_reducible apply Moves.raw

theorem excGroups_moves {w : Mem → Bool} {s0 : State} (x0 : Nat) {s : State} {s2 : State} (hs : Moves w s0 s) (hs2 : Moves w s0
    s2) :
    Moves w s0 (excGroups x0 s s2) := by
  unfold excGroups
  try dsimp only
  repeat'
    first
    | with_reducible assumption | intro _ | with_reducible apply State.forEach_moves | with_reducible apply State.wr_moves
    | with_reducible apply State.modExc_moves | with_reducible apply Moves.ite | split
    | (with_reducible refine Moves.snd (by assumption) ?_) | (with_reducible refine Moves.fst (by assumption) ?_)
    | with_reducible apply Moves.raw

theorem excMirror_moves {w : Mem → Bool} {s0 : State} (x0 : Nat) (x1 : Nat) {s : State} (hs : Moves w s0 s) :
    Moves w s0 (excMirror x0 x1 s) := by
  unfold excMirror
  try dsimp only
  repeat'
    first
    | with_reducible assumption | intro _ | with_reducible apply State.modExc_moves | with_reducible apply Moves.ite | split
    | (with_reducible refine Moves.snd (by assumption) ?_) | (with_reducible refine Moves.fst (by assumption) ?_)
    | with_reducible apply Moves.raw

theorem ncoExchange_moves {w : Mem → Bool} {s0 : State} (x0 : Nat) (x1 : Nat) {s : State} (hs : Moves w s0 s) :
    Moves w s0 (ncoExchange x0 x1 s) := by
  unfold ncoExchange
  try dsimp only
  repeat'
    first
    | with_reducible assumption | intro _ | with_reducible apply State.modExc_moves | with_reducible apply State.send_moves
    | with_reducible apply State.wrBit_moves | with_reducible apply Moves.ite | split
    | (with_reducible refine Moves.snd (by assumption) ?_) | (with_reducible refine Moves.fst (by assumption) ?_)
    | with_reducible apply Moves.raw

theorem bwClamp_moves {w : Mem → Bool} {s0 : State} (x0 : Nat) (x1 : Nat) (x2 : Nat) (x3 : Bool) {s : State} (hs : Moves w s0 s) :
    Moves w s0 (bwClamp x0 x1 x2 x3 s) := by
  unfold bwClamp
  try dsimp only
  repeat'
    first
    | with_reducible assumption | intro _ | with_reducible apply State.modTrk_moves | with_reducible apply State.raiseAx_moves
    | with_reducible apply State.wr_moves | with_reducible apply Moves.ite | split
    | (with_reducible refine Moves.snd (by assumption) ?_) | (with_reducible refine Moves.fst (by assumption) ?_)
    | with_reducible apply Moves.raw

theorem excCarrier_moves {w : Mem → Bool} {s0 : State} {s : State} (x1 : Nat) (x2 : Nat) {s2 : State} (hs : Moves w s0 s) (hs2 :
    Moves w s0 s2) :
    Moves w s0 (excCarrier s x1 x2 s2) := by
  unfold excCarrier
  try dsimp only
  repeat'
    first
    | with_reducible assumption | intro _ | with_reducible apply bwClamp_moves | with_reducible apply State.modExc_moves
    | with_reducible apply Moves.ite | split | (with_reducible refine Moves.snd (by assumption) ?_)
    | (with_reducible refine Moves.fst (by assumption) ?_) | with_reducible apply Moves.raw

theorem excBoundary_moves {w : Mem → Bool} {s0 : State} {s : State} (x1 : Nat) {s2 : State} (hs : Moves w s0 s) (hs2 : Moves w s0
    s2) :
    Moves w s0 (excBoundary s x1 s2) := by
  unfold excBoundary
  try dsimp only
  repeat'
    first
    | with_reducible assumption | intro _ | with_reducible apply State.forEach_moves | with_reducible apply excMirror_moves
    | with_reducible apply excGroups_moves | with_reducible apply excCarrier_moves | with_reducible apply Moves.ite | split
    | (with_reducible refine Moves.snd (by assumption) ?_) | (with_reducible refine Moves.fst (by assumption) ?_)

theorem excApplyBoundary_moves {w : Mem → Bool} {s0 : State} {s : State} (hs : Moves w s0 s) :
    Moves w s0 (excApplyBoundary s) := by
  unfold excApplyBoundary
  try dsimp only
  repeat'
    first
    | with_reducible assumption | intro _ | with_reducible apply State.toNext_moves | with_reducible apply State.forEach_moves
    | with_reducible apply excTake_moves | with_reducible apply excBoundary_moves | with_reducible apply ncoExchange_moves
    | with_reducible apply Moves.ite | split | (with_reducible refine Moves.snd (by assumption) ?_)
    | (with_reducible refine Moves.fst (by assumption) ?_)

theorem excOverloadOnset_moves {w : Mem → Bool} {s0 : State} (x0 : Nat) (x1 : Nat) {s : State} (hs : Moves w s0 s) :
    Moves w s0 (excOverloadOnset x0 x1 s) := by
  unfold excOverloadOnset
  try dsimp only
  repeat'
    first
    | with_reducible assumption | intro _ | with_reducible apply State.modExc_moves | with_reducible apply State.wr_moves
    | with_reducible apply Moves.ite | split | (with_reducible refine Moves.snd (by assumption) ?_)
    | (with_reducible refine Moves.fst (by assumption) ?_) | with_reducible apply Moves.raw

theorem excOverloadTimeout_moves {w : Mem → Bool} {s0 : State} (x0 : Nat) (x1 : Nat) {s : State} (hs : Moves w s0 s) :
    Moves w s0 (excOverloadTimeout x0 x1 s) := by
  unfold excOverloadTimeout
  try dsimp only
  repeat'
    first
    | with_reducible assumption | intro _ | with_reducible apply State.passTo_moves | with_reducible apply State.raiseAx_moves
    | with_reducible apply Moves.ite | split | (with_reducible refine Moves.snd (by assumption) ?_)
    | (with_reducible refine Moves.fst (by assumption) ?_)

theorem excOverloadClear_moves {w : Mem → Bool} {s0 : State} (x0 : Nat) (x1 : Nat) {s : State} (hs : Moves w s0 s) :
    Moves w s0 (excOverloadClear x0 x1 s) := by
  unfold excOverloadClear
  try dsimp only
  repeat'
    first
    | with_reducible assumption | intro _ | with_reducible apply State.modExc_moves | with_reducible apply State.wr_moves
    | with_reducible apply State.raiseAx_moves | with_reducible apply Moves.ite | split
    | (with_reducible refine Moves.snd (by assumption) ?_) | (with_reducible refine Moves.fst (by assumption) ?_)
    | with_reducible apply Moves.raw

theorem clipPeriod_moves {w : Mem → Bool} {s0 : State} (x0 : Nat) (x1 : Nat) {s : State} (hs : Moves w s0 s) :
    Moves w s0 (clipPeriod x0 x1 s) := by
  unfold clipPeriod
  try dsimp only
  repeat'
    first
    | with_reducible assumption | intro _ | with_reducible apply State.wr_moves | with_reducible apply State.addSat_moves
    | with_reducible apply State.modExc_moves | with_reducible apply Moves.ite | split
    | (with_reducible refine Moves.snd (by assumption) ?_) | (with_reducible refine Moves.fst (by assumption) ?_)
    | with_reducible apply Moves.raw

theorem inputClip_moves {w : Mem → Bool} {s0 : State} (x0 : Nat) (x1 : Nat) {s : State} (hs : Moves w s0 s) :
    Moves w s0 (inputClip x0 x1 s) := by
  unfold inputClip
  try dsimp only
  repeat'
    first
    | with_reducible assumption | intro _ | with_reducible apply State.raiseAx_moves | with_reducible apply State.modExc_moves
    | with_reducible apply Moves.ite | split | (with_reducible refine Moves.snd (by assumption) ?_)
    | (with_reducible refine Moves.fst (by assumption) ?_) | with_reducible apply Moves.raw

theorem excClipWrite_moves {w : Mem → Bool} {s0 : State} (x0 : Nat) (x1 : Word) (x2 : Nat) {s : State} (hs : Moves w s0 s) :
    Moves w s0 (excClipWrite x0 x1 x2 s) := by
  unfold excClipWrite
  try dsimp only
  repeat'
    first
    | with_reducible assumption | intro _ | with_reducible apply State.wr_moves | with_reducible apply Moves.ite | split
    | (with_reducible refine Moves.snd (by assumption) ?_) | (with_reducible refine Moves.fst (by assumption) ?_)

theorem tblMiss_moves {w : Mem → Bool} {s0 : State} (x0 : Nat) (x1 : Nat) (x2 : Nat) {s : State} (hs : Moves w s0 s) :
    Moves w s0 (tblMiss x0 x1 x2 s) := by
  unfold tblMiss
  try dsimp only
  repeat'
    first
    | with_reducible assumption | intro _ | with_reducible apply State.modSlot_moves | with_reducible apply State.wr_moves
    | with_reducible apply State.raise_moves | with_reducible apply State.wrBit_moves | with_reducible apply Moves.ite | split
    | (with_reducible refine Moves.snd (by assumption) ?_) | (with_reducible refine Moves.fst (by assumption) ?_)
    | with_reducible apply Moves.raw

theorem tblRead_moves {w : Mem → Bool} {s0 : State} (x0 : Nat) (x1 : Nat) (x2 : Nat) (x3 : Rat) (x4 : Nat) {s : State} (hs : Moves w s0 s)
    :
    Moves w s0 (tblRead x0 x1 x2 x3 x4 s).2 := by
  unfold tblRead
  try dsimp only
  repeat'
    first
    | with_reducible assumption | intro _ | with_reducible apply State.addSat_moves | with_reducible apply State.raise_moves
    | with_reducible apply State.inject_moves | with_reducible apply State.wr_moves | with_reducible apply tblMiss_moves
    | with_reducible apply State.modSlot_moves | with_reducible apply Moves.ite | split
    | (with_reducible refine Moves.snd (by assumption) ?_) | (with_reducible refine Moves.fst (by assumption) ?_)
    | with_reducible apply Moves.raw

theorem correction_moves {w : Mem → Bool} {s0 : State} (x0 : Nat) (x1 : Nat) (x2 : Int) (x3 : Nat) {s : State} (hs : Moves w s0 s) :
    Moves w s0 (correction x0 x1 x2 x3 s).2 := by
  unfold correction
  try dsimp only
  repeat'
    first
    | with_reducible assumption | intro _ | with_reducible apply tblRead_moves | with_reducible apply Moves.ite | split
    | (with_reducible refine Moves.snd (by assumption) ?_) | (with_reducible refine Moves.fst (by assumption) ?_)

theorem repRead_moves {w : Mem → Bool} {s0 : State} (x0 : Nat) (x1 : Nat) (x2 : Nat) (x3 : Nat) (x4 : Option Rat) {s : State} (hs : Moves
    w s0 s) :
    Moves w s0 (repRead x0 x1 x2 x3 x4 s).2 := by
  unfold repRead
  try dsimp only
  repeat'
    first
    | with_reducible assumption | intro _ | with_reducible apply tblRead_moves | with_reducible apply Moves.ite | split
    | (with_reducible refine Moves.snd (by assumption) ?_) | (with_reducible refine Moves.fst (by assumption) ?_)

theorem learnWrite_moves {w : Mem → Bool} {s0 : State} (x0 : Nat) (x1 : Nat) (x2 : Nat) (x3 : Nat) (x4 : Rat) {s : State} (hs : Moves w s0
    s) :
    Moves w s0 (learnWrite x0 x1 x2 x3 x4 s) := by
  unfold learnWrite
  try dsimp only
  repeat'
    first
    | with_reducible assumption | intro _ | with_reducible apply State.modEntry_moves | with_reducible apply State.wr_moves
    | with_reducible apply Moves.ite | split | (with_reducible refine Moves.snd (by assumption) ?_)
    | (with_reducible refine Moves.fst (by assumption) ?_)

theorem learnBins_moves {w : Mem → Bool} {s0 : State} (x0 : Nat) (x1 : Nat) (x2 : Nat) (x3 : Nat) (x4 : Nat) (x5 : Int) {s : State} (hs :
    Moves w s0 s) :
    Moves w s0 (learnBins x0 x1 x2 x3 x4 x5 s) := by
  unfold learnBins
  try dsimp only
  repeat'
    first
    | with_reducible assumption | intro _ | with_reducible apply learnWrite_moves | with_reducible apply Moves.ite | split
    | (with_reducible refine Moves.snd (by assumption) ?_) | (with_reducible refine Moves.fst (by assumption) ?_)

theorem correctionLearn_moves {w : Mem → Bool} {s0 : State} (x0 : Nat) (x1 : Nat) (x2 : Nat) (x3 : Int) (x4 : Int) (x5 : Rat) (x6 : Rat) {s :
    State} (hs : Moves w s0 s) :
    Moves w s0 (correctionLearn x0 x1 x2 x3 x4 x5 x6 s) := by
  unfold correctionLearn
  try dsimp only
  repeat'
    first
    | with_reducible assumption | intro _ | with_reducible apply State.modSlot_moves | with_reducible apply State.wr_moves
    | with_reducible apply learnWrite_moves | with_reducible apply Moves.ite | split
    | (with_reducible refine Moves.snd (by assumption) ?_) | (with_reducible refine Moves.fst (by assumption) ?_)
    | with_reducible apply Moves.raw

theorem repLearn_moves {w : Mem → Bool} {s0 : State} (x0 : Nat) (x1 : Nat) (x2 : Nat) (x3 : Int) (x4 : Option Rat) {s : State} (hs : Moves
    w s0 s) :
    Moves w s0 (repLearn x0 x1 x2 x3 x4 s) := by
  unfold repLearn
  try dsimp only
  repeat'
    first
    | with_reducible assumption | intro _ | with_reducible apply State.wr_moves | with_reducible apply learnBins_moves
    | with_reducible apply Moves.ite | split | (with_reducible refine Moves.snd (by assumption) ?_)
    | (with_reducible refine Moves.fst (by assumption) ?_)

theorem closeRevolution_moves {w : Mem → Bool} {s0 : State} (x0 : Nat) (x1 : Nat) (x2 : Bool) {s : State} (hs : Moves w s0 s) :
    Moves w s0 (closeRevolution x0 x1 x2 s) := by
  unfold closeRevolution
  try dsimp only
  repeat'
    first
    | with_reducible assumption | intro _ | with_reducible apply State.addSat_moves | with_reducible apply State.wr_moves
    | with_reducible apply State.modSlot_moves | with_reducible apply Moves.ite | split
    | (with_reducible refine Moves.snd (by assumption) ?_) | (with_reducible refine Moves.fst (by assumption) ?_)
    | with_reducible apply Moves.raw

theorem setPage_moves {w : Mem → Bool} {s0 : State} {s : State} (x1 : Nat) (x2 : Nat) (x3 : Nat) (x4 : Nat) (x5 : Nat) (x6 : Nat) (hs :
    Moves w s0 s) :
    Moves w s0 (setPage s x1 x2 x3 x4 x5 x6) := by
  unfold setPage
  try dsimp only
  repeat'
    first
    | with_reducible assumption | intro _ | with_reducible apply State.wr_moves | with_reducible apply Moves.ite | split
    | (with_reducible refine Moves.snd (by assumption) ?_) | (with_reducible refine Moves.fst (by assumption) ?_)

theorem holdPages_moves {w : Mem → Bool} {s0 : State} {s : State} (x1 : Nat) (x2 : List Nat) (hs : Moves w s0 s) :
    Moves w s0 (holdPages s x1 x2) := by
  unfold holdPages
  try dsimp only
  repeat'
    first
    | with_reducible assumption | intro _ | with_reducible apply State.forEach_moves | with_reducible apply State.wr_moves
    | with_reducible apply Moves.ite | split | (with_reducible refine Moves.snd (by assumption) ?_)
    | (with_reducible refine Moves.fst (by assumption) ?_)

theorem mapActivate_moves {w : Mem → Bool} {s0 : State} (x0 : Nat) (x1 : Nat) (x2 : Nat) {s : State} (hs : Moves w s0 s) :
    Moves w s0 (mapActivate x0 x1 x2 s) := by
  unfold mapActivate
  try dsimp only
  repeat'
    first
    | with_reducible assumption | intro _ | with_reducible apply holdPages_moves | with_reducible apply State.wr_moves
    | with_reducible apply State.raise_moves | with_reducible apply State.modSlot_moves | with_reducible apply Moves.ite | split
    | (with_reducible refine Moves.snd (by assumption) ?_) | (with_reducible refine Moves.fst (by assumption) ?_)
    | with_reducible apply Moves.raw

theorem wrapTake_moves {w : Mem → Bool} {s0 : State} (x0 : Nat) (x1 : Nat) (x2 : Nat) {s : State} (hs : Moves w s0 s) :
    Moves w s0 (wrapTake x0 x1 x2 s) := by
  unfold wrapTake
  try dsimp only
  repeat'
    first
    | with_reducible assumption | intro _ | with_reducible apply State.addSat_moves | with_reducible apply mapActivate_moves
    | with_reducible apply State.modSlot_moves | with_reducible apply Moves.ite | split
    | (with_reducible refine Moves.snd (by assumption) ?_) | (with_reducible refine Moves.fst (by assumption) ?_)
    | with_reducible apply Moves.raw

theorem tblEffect_moves {w : Mem → Bool} {s0 : State} (x0 : Nat) (x1 : Nat) (x2 : Nat) (x3 : Nat) (x4 : Nat) (x5 : Nat) {s : State} (hs :
    Moves w s0 s) :
    Moves w s0 (tblEffect x0 x1 x2 x3 x4 x5 s) := by
  unfold tblEffect
  try dsimp only
  repeat'
    first
    | with_reducible assumption | intro _ | with_reducible apply State.modTcmd_moves | with_reducible apply State.wr_moves
    | with_reducible apply setPage_moves | with_reducible apply State.modSlot_moves | with_reducible apply Moves.ite | split
    | (with_reducible refine Moves.snd (by assumption) ?_) | (with_reducible refine Moves.fst (by assumption) ?_)
    | with_reducible apply Moves.raw

theorem tblError_moves {w : Mem → Bool} {s0 : State} (x0 : Nat) (x1 : Nat) {s : State} (hs : Moves w s0 s) :
    Moves w s0 (tblError x0 x1 s) := by
  unfold tblError
  try dsimp only
  repeat'
    first
    | with_reducible assumption | intro _ | with_reducible apply State.wr_moves | with_reducible apply State.raise_moves
    | with_reducible apply Moves.ite | split | (with_reducible refine Moves.snd (by assumption) ?_)
    | (with_reducible refine Moves.fst (by assumption) ?_)

theorem tblFinish_moves {w : Mem → Bool} {s0 : State} (x0 : Nat) {s : State} (hs : Moves w s0 s) :
    Moves w s0 (tblFinish x0 s) := by
  unfold tblFinish
  try dsimp only
  repeat'
    first
    | with_reducible assumption | intro _ | with_reducible apply State.modTcmd_moves | with_reducible apply State.setIrqs_moves
    | with_reducible apply State.wr_moves | with_reducible apply Moves.ite | split
    | (with_reducible refine Moves.snd (by assumption) ?_) | (with_reducible refine Moves.fst (by assumption) ?_)
    | with_reducible apply Moves.raw

theorem tblStart_moves {w : Mem → Bool} {s0 : State} (x0 : Nat) (x1 : Nat) (x2 : Nat) (x3 : Nat) (x4 : Nat) (x5 : Nat) {s : State} (hs :
    Moves w s0 s) :
    Moves w s0 (tblStart x0 x1 x2 x3 x4 x5 s) := by
  unfold tblStart
  try dsimp only
  repeat'
    first
    | with_reducible assumption | intro _ | with_reducible apply tblFinish_moves | with_reducible apply tblError_moves
    | with_reducible apply tblEffect_moves | with_reducible apply Moves.ite | split
    | (with_reducible refine Moves.snd (by assumption) ?_) | (with_reducible refine Moves.fst (by assumption) ?_)

theorem tblAccept_moves {w : Mem → Bool} {s0 : State} (x0 : Nat) (x1 : Nat) (x2 : Bool) {s : State} (hs : Moves w s0 s) :
    Moves w s0 (tblAccept x0 x1 x2 s) := by
  unfold tblAccept
  try dsimp only
  repeat'
    first
    | with_reducible assumption | intro _ | with_reducible apply State.wr_moves | with_reducible apply State.modTcmd_moves
    | with_reducible apply Moves.ite | split | (with_reducible refine Moves.snd (by assumption) ?_)
    | (with_reducible refine Moves.fst (by assumption) ?_) | with_reducible apply Moves.raw

theorem tblCmd_moves {w : Mem → Bool} {s0 : State} (x0 : Nat) (x1 : Nat) (x2 : Nat) (x3 : Nat) (x4 : Nat) (x5 : Nat) {s : State} (hs : Moves
    w s0 s) :
    Moves w s0 (tblCmd x0 x1 x2 x3 x4 x5 s) := by
  unfold tblCmd
  try dsimp only
  repeat'
    first
    | with_reducible assumption | intro _ | with_reducible apply State.raise_moves | with_reducible apply State.wr_moves
    | with_reducible apply tblAccept_moves | with_reducible apply State.modFwd_moves | with_reducible apply tblStart_moves
    | with_reducible apply Moves.ite | split | (with_reducible refine Moves.snd (by assumption) ?_)
    | (with_reducible refine Moves.fst (by assumption) ?_)

theorem tblUnshare_moves {w : Mem → Bool} {s0 : State} (x0 : Nat) {s : State} (hs : Moves w s0 s) :
    Moves w s0 (tblUnshare x0 s) := by
  unfold tblUnshare
  try dsimp only
  repeat'
    first
    | with_reducible assumption | intro _ | with_reducible apply State.modTcmd_moves | with_reducible apply tblFinish_moves
    | with_reducible apply Moves.ite | split | (with_reducible refine Moves.snd (by assumption) ?_)
    | (with_reducible refine Moves.fst (by assumption) ?_) | with_reducible apply Moves.raw

theorem fillPage_moves {w : Mem → Bool} {s0 : State} {s : State} (x1 : Nat) (x2 : Nat) (x3 : List Byte) (hs : Moves w s0 s) :
    Moves w s0 (fillPage s x1 x2 x3) := by
  unfold fillPage
  try dsimp only
  repeat'
    first
    | with_reducible assumption | intro _ | with_reducible apply State.forEach_moves | with_reducible apply State.modEntry_moves
    | with_reducible apply Moves.ite | split | (with_reducible refine Moves.snd (by assumption) ?_)
    | (with_reducible refine Moves.fst (by assumption) ?_)

theorem tblCmdComplete_moves {w : Mem → Bool} {s0 : State} (x0 : Nat) (x1 : Bool) {s : State} (hs : Moves w s0 s) (hwdram : w
    .dram = true) :
    Moves w s0 (tblCmdComplete x0 x1 s) := by
  unfold tblCmdComplete
  try dsimp only
  repeat'
    first
    | with_reducible assumption | intro _ | with_reducible apply State.dramRead_moves | with_reducible apply State.wr_moves
    | with_reducible apply fillPage_moves | with_reducible apply tblError_moves | with_reducible apply State.dramWrite_moves
    | with_reducible apply tblFinish_moves | with_reducible apply Moves.ite | split
    | (with_reducible refine Moves.snd (by assumption) ?_) | (with_reducible refine Moves.fst (by assumption) ?_)

theorem clearCoarse_moves {w : Mem → Bool} {s0 : State} {s : State} (x1 : Nat) (x2 : Nat) (x3 : Nat) (hs : Moves w s0 s) :
    Moves w s0 (clearCoarse s x1 x2 x3) := by
  unfold clearCoarse
  try dsimp only
  repeat'
    first
    | with_reducible assumption | intro _ | with_reducible apply State.forEach_moves | with_reducible apply State.modEntry_moves
    | with_reducible apply Moves.ite | split | (with_reducible refine Moves.snd (by assumption) ?_)
    | (with_reducible refine Moves.fst (by assumption) ?_)

theorem tblDescWrite_moves {w : Mem → Bool} {s0 : State} (x0 : Nat) (x1 : Nat) (x2 : Word) (x3 : Nat) {s : State} (hs : Moves w s0 s)
    :
    Moves w s0 (tblDescWrite x0 x1 x2 x3 s) := by
  unfold tblDescWrite
  try dsimp only
  repeat'
    first
    | with_reducible assumption | intro _ | with_reducible apply State.wr_moves | with_reducible apply clearCoarse_moves
    | with_reducible apply State.modSlot_moves | with_reducible apply State.raise_moves | with_reducible apply Moves.ite | split
    | (with_reducible refine Moves.snd (by assumption) ?_) | (with_reducible refine Moves.fst (by assumption) ?_)
    | with_reducible apply Moves.raw

theorem carrelRead_moves {w : Mem → Bool} {s0 : State} (x0 : Nat) (x1 : Nat) (x2 : Nat) {s : State} (hs : Moves w s0 s) :
    Moves w s0 (carrelRead x0 x1 x2 s) := by
  unfold carrelRead
  try dsimp only
  repeat'
    first
    | with_reducible assumption | intro _ | with_reducible apply State.answer_moves | with_reducible apply State.inject_moves
    | with_reducible apply State.addSat_moves | with_reducible apply State.raise_moves | with_reducible apply State.drew_moves
    | with_reducible apply Moves.ite | split | (with_reducible refine Moves.snd (by assumption) ?_)
    | (with_reducible refine Moves.fst (by assumption) ?_)

theorem carrelWrite_moves {w : Mem → Bool} {s0 : State} (x0 : Nat) (x1 : Nat) (x2 : Nat) (x3 : Nat) {s : State} (hs : Moves w s0 s) :
    Moves w s0 (carrelWrite x0 x1 x2 x3 s) := by
  unfold carrelWrite
  try dsimp only
  repeat'
    first
    | with_reducible assumption | intro _ | with_reducible apply State.accessFault_moves
    | with_reducible apply State.modEntry_moves | with_reducible apply Moves.ite | split
    | (with_reducible refine Moves.snd (by assumption) ?_) | (with_reducible refine Moves.fst (by assumption) ?_)

theorem trkStrobe_moves {w : Mem → Bool} {s0 : State} (x0 : Nat) (x1 : Nat) (x2 : Int) (x3 : Int) (x4 : Bool) (x5 : Bool) {s : State}
    (hs : Moves w s0 s) :
    Moves w s0 (trkStrobe x0 x1 x2 x3 x4 x5 s) := by
  unfold trkStrobe
  try dsimp only
  repeat'
    first
    | with_reducible assumption | intro _ | with_reducible apply State.modTrk_moves | with_reducible apply Moves.ite | split
    | (with_reducible refine Moves.snd (by assumption) ?_) | (with_reducible refine Moves.fst (by assumption) ?_)
    | with_reducible apply Moves.raw

theorem trkError_moves {w : Mem → Bool} {s0 : State} (x0 : Nat) (x1 : Nat) {s : State} (hs : Moves w s0 s) :
    Moves w s0 (trkError x0 x1 s).2 := by
  unfold trkError
  try dsimp only
  repeat'
    first
    | with_reducible assumption | intro _ | with_reducible apply State.drew_moves | with_reducible apply Moves.foldl
    | (with_reducible refine Moves.foldlBy Prod.snd ?_ ?_) | (with_reducible refine Moves.foldlBy Prod.fst ?_ ?_)
    | (with_reducible refine Moves.foldlBy WordRun.s ?_ ?_) | with_reducible apply Moves.ite | split
    | (with_reducible refine Moves.snd (by assumption) ?_) | (with_reducible refine Moves.fst (by assumption) ?_)

theorem trkLoop_moves {w : Mem → Bool} {s0 : State} (x0 : Nat) (x1 : Nat) (x2 : Rat) {s : State} (hs : Moves w s0 s) :
    Moves w s0 (trkLoop x0 x1 x2 s) := by
  unfold trkLoop
  try dsimp only
  repeat'
    first
    | with_reducible assumption | intro _ | with_reducible apply State.near_moves | with_reducible apply State.modTrk_moves
    | with_reducible apply Moves.ite | split | (with_reducible refine Moves.snd (by assumption) ?_)
    | (with_reducible refine Moves.fst (by assumption) ?_) | with_reducible apply Moves.raw

theorem sectorMove_moves {w : Mem → Bool} {s0 : State} (x0 : Nat) (x1 : Nat) (x2 : Int) {s : State} (hs : Moves w s0 s) :
    Moves w s0 (sectorMove x0 x1 x2 s) := by
  unfold sectorMove
  try dsimp only
  repeat'
    first
    | with_reducible assumption | intro _ | with_reducible apply State.wrI_moves | with_reducible apply State.wr_moves
    | with_reducible apply Moves.ite | split | (with_reducible refine Moves.snd (by assumption) ?_)
    | (with_reducible refine Moves.fst (by assumption) ?_)

theorem trkPublish_moves {w : Mem → Bool} {s0 : State} (x0 : Nat) (x1 : Nat) (x2 : Int) {s : State} (hs : Moves w s0 s) :
    Moves w s0 (trkPublish x0 x1 x2 s) := by
  unfold trkPublish
  try dsimp only
  repeat'
    first
    | with_reducible assumption | intro _ | with_reducible apply sectorMove_moves | with_reducible apply State.wr_moves
    | with_reducible apply State.wrI_moves | with_reducible apply State.near_moves | with_reducible apply State.modTrk_moves
    | with_reducible apply Moves.ite | split | (with_reducible refine Moves.snd (by assumption) ?_)
    | (with_reducible refine Moves.fst (by assumption) ?_) | with_reducible apply Moves.raw

theorem wrapMarks_moves {w : Mem → Bool} {s0 : State} (x0 : Nat) (x1 : Nat) {s : State} (hs : Moves w s0 s) :
    Moves w s0 (wrapMarks x0 x1 s) := by
  unfold wrapMarks
  try dsimp only
  repeat'
    first
    | with_reducible assumption | intro _ | with_reducible apply State.forEach_moves | with_reducible apply State.modSlot_moves
    | with_reducible apply Moves.ite | split | (with_reducible refine Moves.snd (by assumption) ?_)
    | (with_reducible refine Moves.fst (by assumption) ?_) | with_reducible apply Moves.raw

theorem republish_moves {w : Mem → Bool} {s0 : State} (x0 : Nat) (x1 : Nat) {s : State} (hs : Moves w s0 s) :
    Moves w s0 (republish x0 x1 s) := by
  unfold republish
  try dsimp only
  repeat'
    first
    | with_reducible assumption | intro _ | with_reducible apply correction_moves | with_reducible apply trkPublish_moves
    | with_reducible apply State.modTrk_moves | with_reducible apply Moves.ite | split
    | (with_reducible refine Moves.snd (by assumption) ?_) | (with_reducible refine Moves.fst (by assumption) ?_)
    | with_reducible apply Moves.raw

theorem tableIndexWrap_moves {w : Mem → Bool} {s0 : State} (x0 : Nat) (x1 : Nat) (x2 : Nat) {s : State} (hs : Moves w s0 s) :
    Moves w s0 (tableIndexWrap x0 x1 x2 s) := by
  unfold tableIndexWrap
  try dsimp only
  repeat'
    first
    | with_reducible assumption | intro _ | with_reducible apply wrapTake_moves | with_reducible apply closeRevolution_moves
    | with_reducible apply republish_moves | with_reducible apply correctionLearn_moves
    | with_reducible apply State.modSlot_moves | with_reducible apply Moves.ite | split
    | (with_reducible refine Moves.snd (by assumption) ?_) | (with_reducible refine Moves.fst (by assumption) ?_)
    | with_reducible apply Moves.raw

theorem sectorTake_moves {w : Mem → Bool} {s0 : State} (x0 : Nat) (x1 : Nat) {s : State} (hs : Moves w s0 s) :
    Moves w s0 (sectorTake x0 x1 s) := by
  unfold sectorTake
  try dsimp only
  repeat'
    first
    | with_reducible assumption | intro _ | with_reducible apply State.wr_moves | with_reducible apply State.modTrk_moves
    | with_reducible apply Moves.ite | split | (with_reducible refine Moves.snd (by assumption) ?_)
    | (with_reducible refine Moves.fst (by assumption) ?_) | with_reducible apply Moves.raw

theorem trkSnapTake_moves {w : Mem → Bool} {s0 : State} (x0 : Nat) (x1 : Nat) (x2 : TrkSnap) {s : State} (hs : Moves w s0 s) :
    Moves w s0 (trkSnapTake x0 x1 x2 s) := by
  unfold trkSnapTake
  try dsimp only
  repeat'
    first
    | with_reducible assumption | intro _ | with_reducible apply State.modTrk_moves | with_reducible apply State.modExc_moves
    | with_reducible apply State.wr_moves | with_reducible apply State.wrI_moves | with_reducible apply itemApplied_moves
    | with_reducible apply Moves.ite | split | (with_reducible refine Moves.snd (by assumption) ?_)
    | (with_reducible refine Moves.fst (by assumption) ?_) | with_reducible apply Moves.raw

theorem trkUpdate_moves {w : Mem → Bool} {s0 : State} (x0 : Nat) (x1 : Nat) (x2 : Nat) {s : State} (hs : Moves w s0 s) :
    Moves w s0 (trkUpdate x0 x1 x2 s) := by
  unfold trkUpdate
  try dsimp only
  repeat'
    first
    | with_reducible assumption | intro _ | with_reducible apply State.forEach_moves | with_reducible apply tableIndexWrap_moves
    | with_reducible apply trkSnapTake_moves | with_reducible apply trkError_moves | with_reducible apply State.modTrk_moves
    | with_reducible apply trkLoop_moves | with_reducible apply State.wr_moves | with_reducible apply sectorTake_moves
    | with_reducible apply correction_moves | with_reducible apply wrapMarks_moves | with_reducible apply trkPublish_moves
    | with_reducible apply State.modSlot_moves | with_reducible apply correctionLearn_moves | with_reducible apply Moves.ite
    | split | (with_reducible refine Moves.snd (by assumption) ?_) | (with_reducible refine Moves.fst (by assumption) ?_)
    | with_reducible apply Moves.raw

theorem angleAt_moves {w : Mem → Bool} {s0 : State} (x0 : Nat) (x1 : Nat) (x2 : Nat) (x3 : Nat) {s : State} (hs : Moves w s0 s) :
    Moves w s0 (angleAt x0 x1 x2 x3 s).2 := by
  unfold angleAt
  try dsimp only
  repeat'
    first
    | with_reducible assumption | intro _ | with_reducible apply State.near_moves | with_reducible apply correction_moves
    | with_reducible apply Moves.ite | split | (with_reducible refine Moves.snd (by assumption) ?_)
    | (with_reducible refine Moves.fst (by assumption) ?_)

theorem trkXreq_moves {w : Mem → Bool} {s0 : State} (x0 : Nat) (x1 : Word) (x2 : Nat) {s : State} (hs : Moves w s0 s) :
    Moves w s0 (trkXreq x0 x1 x2 s) := by
  unfold trkXreq
  try dsimp only
  repeat'
    first
    | with_reducible assumption | intro _ | with_reducible apply State.wr_moves | with_reducible apply angleAt_moves
    | with_reducible apply Moves.ite | split | (with_reducible refine Moves.snd (by assumption) ?_)
    | (with_reducible refine Moves.fst (by assumption) ?_)

theorem trkAngRead_moves {w : Mem → Bool} {s0 : State} (x0 : Nat) (x1 : Nat) {s : State} (hs : Moves w s0 s) :
    Moves w s0 (trkAngRead x0 x1 s) := by
  unfold trkAngRead
  try dsimp only
  repeat'
    first
    | with_reducible assumption | intro _ | with_reducible apply State.latchWords_moves
    | with_reducible apply State.answer_moves | with_reducible apply Moves.ite | split
    | (with_reducible refine Moves.snd (by assumption) ?_) | (with_reducible refine Moves.fst (by assumption) ?_)
    | with_reducible apply Moves.raw

theorem coastEnds_moves {w : Mem → Bool} {s0 : State} (x0 : Nat) (x1 : Nat) {s : State} (hs : Moves w s0 s) :
    Moves w s0 (coastEnds x0 x1 s) := by
  unfold coastEnds
  try dsimp only
  repeat'
    first
    | with_reducible assumption | intro _ | with_reducible apply State.wr_moves | with_reducible apply State.wrBit_moves
    | with_reducible apply State.modTrk_moves | with_reducible apply State.refreshAxis_moves
    | with_reducible apply State.raiseAx_moves | with_reducible apply Moves.ite | split
    | (with_reducible refine Moves.snd (by assumption) ?_) | (with_reducible refine Moves.fst (by assumption) ?_)
    | with_reducible apply Moves.raw

theorem rollBack_moves {w : Mem → Bool} {s0 : State} (x0 : Nat) (x1 : Nat) (x2 : Nat) {s : State} (hs : Moves w s0 s) :
    Moves w s0 (rollBack x0 x1 x2 s) := by
  unfold rollBack
  try dsimp only
  repeat'
    first
    | with_reducible assumption | intro _ | with_reducible apply State.modTrk_moves | with_reducible apply Moves.ite | split
    | (with_reducible refine Moves.snd (by assumption) ?_) | (with_reducible refine Moves.fst (by assumption) ?_)
    | with_reducible apply Moves.raw

theorem trackLoss_moves {w : Mem → Bool} {s0 : State} (x0 : Nat) (x1 : Nat) (x2 : Nat) (x3 : Option Nat) {s : State} (hs : Moves w s0 s)
    :
    Moves w s0 (trackLoss x0 x1 x2 x3 s) := by
  unfold trackLoss
  try dsimp only
  repeat'
    first
    | with_reducible assumption | intro _ | with_reducible apply State.refreshAxis_moves | with_reducible apply State.wr_moves
    | with_reducible apply State.modTrk_moves | with_reducible apply rollBack_moves | with_reducible apply State.raiseAx_moves
    | with_reducible apply State.wrBit_moves | with_reducible apply coastEnds_moves | with_reducible apply Moves.ite | split
    | (with_reducible refine Moves.snd (by assumption) ?_) | (with_reducible refine Moves.fst (by assumption) ?_)
    | with_reducible apply Moves.raw

theorem trackLockQualified_moves {w : Mem → Bool} {s0 : State} (x0 : Nat) (x1 : Nat) {s : State} (hs : Moves w s0 s) :
    Moves w s0 (trackLockQualified x0 x1 s) := by
  unfold trackLockQualified
  try dsimp only
  repeat'
    first
    | with_reducible assumption | intro _ | with_reducible apply State.wr_moves | with_reducible apply State.raiseAx_moves
    | with_reducible apply State.modTrk_moves | with_reducible apply Moves.ite | split
    | (with_reducible refine Moves.snd (by assumption) ?_) | (with_reducible refine Moves.fst (by assumption) ?_)
    | with_reducible apply Moves.raw

theorem trackOverspeed_moves {w : Mem → Bool} {s0 : State} (x0 : Nat) (x1 : Nat) {s : State} (hs : Moves w s0 s) :
    Moves w s0 (trackOverspeed x0 x1 s) := by
  unfold trackOverspeed
  try dsimp only
  repeat'
    first
    | with_reducible assumption | intro _ | with_reducible apply State.modTrk_moves | with_reducible apply trackLoss_moves
    | with_reducible apply State.raiseAx_moves | with_reducible apply State.wr_moves | with_reducible apply Moves.ite | split
    | (with_reducible refine Moves.snd (by assumption) ?_) | (with_reducible refine Moves.fst (by assumption) ?_)
    | with_reducible apply Moves.raw

theorem amplitudeWindowLoss_moves {w : Mem → Bool} {s0 : State} (x0 : Nat) (x1 : Nat) {s : State} (hs : Moves w s0 s) :
    Moves w s0 (amplitudeWindowLoss x0 x1 s) := by
  unfold amplitudeWindowLoss
  try dsimp only
  repeat'
    first
    | with_reducible assumption | intro _ | with_reducible apply trackLoss_moves | with_reducible apply Moves.ite | split
    | (with_reducible refine Moves.snd (by assumption) ?_) | (with_reducible refine Moves.fst (by assumption) ?_)

theorem freezeLoss_moves {w : Mem → Bool} {s0 : State} (x0 : Nat) (x1 : Nat) {s : State} (hs : Moves w s0 s) :
    Moves w s0 (freezeLoss x0 x1 s) := by
  unfold freezeLoss
  try dsimp only
  repeat'
    first
    | with_reducible assumption | intro _ | with_reducible apply trackLoss_moves | with_reducible apply Moves.ite | split
    | (with_reducible refine Moves.snd (by assumption) ?_) | (with_reducible refine Moves.fst (by assumption) ?_)

theorem pilotJumpLoss_moves {w : Mem → Bool} {s0 : State} (x0 : Nat) (x1 : Nat) {s : State} (hs : Moves w s0 s) :
    Moves w s0 (pilotJumpLoss x0 x1 s) := by
  unfold pilotJumpLoss
  try dsimp only
  repeat'
    first
    | with_reducible assumption | intro _ | with_reducible apply trackLoss_moves | with_reducible apply Moves.ite | split
    | (with_reducible refine Moves.snd (by assumption) ?_) | (with_reducible refine Moves.fst (by assumption) ?_)

theorem coastExpiry_moves {w : Mem → Bool} {s0 : State} (x0 : Nat) (x1 : Nat) {s : State} (hs : Moves w s0 s) :
    Moves w s0 (coastExpiry x0 x1 s) := by
  unfold coastExpiry
  try dsimp only
  repeat'
    first
    | with_reducible assumption | intro _ | with_reducible apply coastEnds_moves | with_reducible apply State.passTo_moves
    | with_reducible apply Moves.ite | split | (with_reducible refine Moves.snd (by assumption) ?_)
    | (with_reducible refine Moves.fst (by assumption) ?_)

theorem coastResume_moves {w : Mem → Bool} {s0 : State} (x0 : Nat) (x1 : Nat) {s : State} (hs : Moves w s0 s) :
    Moves w s0 (coastResume x0 x1 s) := by
  unfold coastResume
  try dsimp only
  repeat'
    first
    | with_reducible assumption | intro _ | with_reducible apply State.modTrk_moves | with_reducible apply State.wr_moves
    | with_reducible apply Moves.ite | split | (with_reducible refine Moves.snd (by assumption) ?_)
    | (with_reducible refine Moves.fst (by assumption) ?_) | with_reducible apply Moves.raw

theorem acquisitionComplete_moves {w : Mem → Bool} {s0 : State} (x0 : Nat) (x1 : Nat) {s : State} (hs : Moves w s0 s) :
    Moves w s0 (acquisitionComplete x0 x1 s) := by
  unfold acquisitionComplete
  try dsimp only
  repeat'
    first
    | with_reducible assumption | intro _ | with_reducible apply State.modTrk_moves | with_reducible apply State.wr_moves
    | with_reducible apply Moves.ite | split | (with_reducible refine Moves.snd (by assumption) ?_)
    | (with_reducible refine Moves.fst (by assumption) ?_) | with_reducible apply Moves.raw

theorem trkJudge_moves {w : Mem → Bool} {s0 : State} (x0 : Nat) (x1 : Nat) (x2 : PerRec) {s : State} (hs : Moves w s0 s) :
    Moves w s0 (trkJudge x0 x1 x2 s) := by
  unfold trkJudge
  try dsimp only
  repeat'
    first
    | with_reducible assumption | intro _ | with_reducible apply State.drew_moves | with_reducible apply State.wr_moves
    | with_reducible apply State.modTrk_moves | with_reducible apply Moves.ite | split
    | (with_reducible refine Moves.snd (by assumption) ?_) | (with_reducible refine Moves.fst (by assumption) ?_)
    | with_reducible apply Moves.raw

theorem trkPeriod_moves {w : Mem → Bool} {s0 : State} (x0 : Nat) (x1 : Nat) {s : State} (hs : Moves w s0 s) :
    Moves w s0 (trkPeriod x0 x1 s) := by
  unfold trkPeriod
  try dsimp only
  repeat'
    first
    | with_reducible assumption | intro _ | with_reducible apply trkJudge_moves | with_reducible apply Moves.ite | split
    | (with_reducible refine Moves.snd (by assumption) ?_) | (with_reducible refine Moves.fst (by assumption) ?_)

theorem carrierPeriodEnd_moves {w : Mem → Bool} {s0 : State} (x0 : Nat) (x1 : Nat) {s : State} (hs : Moves w s0 s) :
    Moves w s0 (carrierPeriodEnd x0 x1 s) := by
  unfold carrierPeriodEnd
  try dsimp only
  repeat'
    first
    | with_reducible assumption | intro _ | with_reducible apply trkPeriod_moves | with_reducible apply clipPeriod_moves
    | with_reducible apply Moves.ite | split | (with_reducible refine Moves.snd (by assumption) ?_)
    | (with_reducible refine Moves.fst (by assumption) ?_)

theorem trkRearm_moves {w : Mem → Bool} {s0 : State} (x0 : Nat) (x1 : Nat) {s : State} (hs : Moves w s0 s) :
    Moves w s0 (trkRearm x0 x1 s) := by
  unfold trkRearm
  try dsimp only
  repeat'
    first
    | with_reducible assumption | intro _ | with_reducible apply State.modTrk_moves
    | with_reducible apply State.refreshAxis_moves | with_reducible apply State.wr_moves | with_reducible apply Moves.ite
    | split | (with_reducible refine Moves.snd (by assumption) ?_) | (with_reducible refine Moves.fst (by assumption) ?_)
    | with_reducible apply Moves.raw

theorem sectorClear_moves {w : Mem → Bool} {s0 : State} (x0 : Nat) (x1 : Nat) {s : State} (hs : Moves w s0 s) :
    Moves w s0 (sectorClear x0 x1 s) := by
  unfold sectorClear
  try dsimp only
  repeat'
    first
    | with_reducible assumption | intro _ | with_reducible apply State.wr_moves | with_reducible apply Moves.ite | split
    | (with_reducible refine Moves.snd (by assumption) ?_) | (with_reducible refine Moves.fst (by assumption) ?_)

theorem trkCtrlTake_moves {w : Mem → Bool} {s0 : State} (x0 : Nat) (x1 : Nat) (x2 : Nat) {s : State} (hs : Moves w s0 s) :
    Moves w s0 (trkCtrlTake x0 x1 x2 s) := by
  unfold trkCtrlTake
  try dsimp only
  repeat'
    first
    | with_reducible assumption | intro _ | with_reducible apply State.modTrk_moves | with_reducible apply bwClamp_moves
    | with_reducible apply sectorClear_moves | with_reducible apply Moves.ite | split
    | (with_reducible refine Moves.snd (by assumption) ?_) | (with_reducible refine Moves.fst (by assumption) ?_)
    | with_reducible apply Moves.raw

theorem trkCtrlWrite_moves {w : Mem → Bool} {s0 : State} (x0 : Nat) (x1 : Word) (x2 : Nat) (x3 : Nat) {s : State} (hs : Moves w s0 s)
    :
    Moves w s0 (trkCtrlWrite x0 x1 x2 x3 s) := by
  unfold trkCtrlWrite
  try dsimp only
  repeat'
    first
    | with_reducible assumption | intro _ | with_reducible apply State.wr_moves | with_reducible apply State.raiseAx_moves
    | with_reducible apply State.modTrk_moves | with_reducible apply trkRearm_moves | with_reducible apply Moves.ite | split
    | (with_reducible refine Moves.snd (by assumption) ?_) | (with_reducible refine Moves.fst (by assumption) ?_)
    | with_reducible apply Moves.raw

theorem trkCtrlApply_moves {w : Mem → Bool} {s0 : State} (x0 : Nat) (x1 : Nat) {s : State} (hs : Moves w s0 s) :
    Moves w s0 (trkCtrlApply x0 x1 s) := by
  unfold trkCtrlApply
  try dsimp only
  repeat'
    first
    | with_reducible assumption | intro _ | with_reducible apply State.toGrid_moves | with_reducible apply State.passTo_moves
    | with_reducible apply trkCtrlTake_moves | with_reducible apply State.modTrk_moves | with_reducible apply Moves.ite | split
    | (with_reducible refine Moves.snd (by assumption) ?_) | (with_reducible refine Moves.fst (by assumption) ?_)
    | with_reducible apply Moves.raw

theorem trkSectorWrite_moves {w : Mem → Bool} {s0 : State} (x0 : Nat) (x1 : Word) (x2 : Nat) {s : State} (hs : Moves w s0 s) :
    Moves w s0 (trkSectorWrite x0 x1 x2 s) := by
  unfold trkSectorWrite
  try dsimp only
  repeat'
    first
    | with_reducible assumption | intro _ | with_reducible apply State.modTrk_moves | with_reducible apply Moves.ite | split
    | (with_reducible refine Moves.snd (by assumption) ?_) | (with_reducible refine Moves.fst (by assumption) ?_)
    | with_reducible apply Moves.raw

theorem emuShow_moves {w : Mem → Bool} {s0 : State} (x0 : Nat) (x1 : Nat) {s : State} (hs : Moves w s0 s) :
    Moves w s0 (emuShow x0 x1 s) := by
  unfold emuShow
  try dsimp only
  repeat'
    first
    | with_reducible assumption | intro _ | with_reducible apply State.modEnc_moves | with_reducible apply Moves.ite | split
    | (with_reducible refine Moves.snd (by assumption) ?_) | (with_reducible refine Moves.fst (by assumption) ?_)
    | with_reducible apply Moves.raw

theorem emuShowAll_moves {w : Mem → Bool} {s0 : State} (x0 : Nat) {s : State} (hs : Moves w s0 s) :
    Moves w s0 (emuShowAll x0 s) := by
  unfold emuShowAll
  try dsimp only
  repeat'
    first
    | with_reducible assumption | intro _ | with_reducible apply State.forEach_moves | with_reducible apply emuShow_moves
    | with_reducible apply Moves.ite | split | (with_reducible refine Moves.snd (by assumption) ?_)
    | (with_reducible refine Moves.fst (by assumption) ?_)

theorem emuPlan_moves {w : Mem → Bool} {s0 : State} (x0 : Nat) (x1 : Nat) (x2 : Bool) {s : State} (hs : Moves w s0 s) :
    Moves w s0 (emuPlan x0 x1 x2 s) := by
  unfold emuPlan
  try dsimp only
  repeat'
    first
    | with_reducible assumption | intro _ | with_reducible apply State.modEnc_moves | with_reducible apply Moves.ite | split
    | (with_reducible refine Moves.snd (by assumption) ?_) | (with_reducible refine Moves.fst (by assumption) ?_)
    | with_reducible apply Moves.raw

theorem emuGo_moves {w : Mem → Bool} {s0 : State} (x0 : Nat) (x1 : Nat) {s : State} (hs : Moves w s0 s) :
    Moves w s0 (emuGo x0 x1 s) := by
  unfold emuGo
  try dsimp only
  repeat'
    first
    | with_reducible assumption | intro _ | with_reducible apply State.modEnc_moves | with_reducible apply Moves.ite | split
    | (with_reducible refine Moves.snd (by assumption) ?_) | (with_reducible refine Moves.fst (by assumption) ?_)
    | with_reducible apply Moves.raw

theorem emuStatus_moves {w : Mem → Bool} {s0 : State} (x0 : Nat) (x1 : Nat) (x2 : Nat) {s : State} (hs : Moves w s0 s) :
    Moves w s0 (emuStatus x0 x1 x2 s) := by
  unfold emuStatus
  try dsimp only
  repeat'
    first
    | with_reducible assumption | intro _ | with_reducible apply State.wrI_moves | with_reducible apply State.wr_moves
    | with_reducible apply State.raiseAx_moves | with_reducible apply State.modEnc_moves | with_reducible apply emuShow_moves
    | with_reducible apply Moves.ite | split | (with_reducible refine Moves.snd (by assumption) ?_)
    | (with_reducible refine Moves.fst (by assumption) ?_) | with_reducible apply Moves.raw

theorem emuZsup_moves {w : Mem → Bool} {s0 : State} (x0 : Nat) (x1 : Nat) {s : State} (hs : Moves w s0 s) :
    Moves w s0 (emuZsup x0 x1 s) := by
  unfold emuZsup
  try dsimp only
  repeat'
    first
    | with_reducible assumption | intro _ | with_reducible apply State.wr_moves | with_reducible apply Moves.ite | split
    | (with_reducible refine Moves.snd (by assumption) ?_) | (with_reducible refine Moves.fst (by assumption) ?_)

theorem emuAdvance_moves {w : Mem → Bool} {s0 : State} (x0 : Nat) (x1 : Nat) (x2 : Bool) {s : State} (hs : Moves w s0 s) :
    Moves w s0 (emuAdvance x0 x1 x2 s) := by
  unfold emuAdvance
  try dsimp only
  repeat'
    first
    | with_reducible assumption | intro _ | with_reducible apply emuGo_moves | with_reducible apply emuZsup_moves
    | with_reducible apply emuPlan_moves | with_reducible apply State.wr_moves | with_reducible apply emuStatus_moves
    | with_reducible apply emuShow_moves | with_reducible apply Moves.ite | split
    | (with_reducible refine Moves.snd (by assumption) ?_) | (with_reducible refine Moves.fst (by assumption) ?_)

theorem emuCopy_moves {w : Mem → Bool} {s0 : State} (x0 : Nat) (x1 : Nat) {s : State} (hs : Moves w s0 s) :
    Moves w s0 (emuCopy x0 x1 s) := by
  unfold emuCopy
  try dsimp only
  repeat'
    first
    | with_reducible assumption | intro _ | with_reducible apply State.modEnc_moves | with_reducible apply State.wr_moves
    | with_reducible apply emuShow_moves | with_reducible apply Moves.foldl
    | (with_reducible refine Moves.foldlBy Prod.snd ?_ ?_) | (with_reducible refine Moves.foldlBy Prod.fst ?_ ?_)
    | (with_reducible refine Moves.foldlBy WordRun.s ?_ ?_) | with_reducible apply Moves.ite | split
    | (with_reducible refine Moves.snd (by assumption) ?_) | (with_reducible refine Moves.fst (by assumption) ?_)
    | with_reducible apply Moves.raw

theorem emuOverrate_moves {w : Mem → Bool} {s0 : State} (x0 : Nat) (x1 : Nat) {s : State} (hs : Moves w s0 s) :
    Moves w s0 (emuOverrate x0 x1 s) := by
  unfold emuOverrate
  try dsimp only
  repeat'
    first
    | with_reducible assumption | intro _ | with_reducible apply State.modEnc_moves | with_reducible apply State.pass_moves
    | with_reducible apply State.raiseAx_moves | with_reducible apply State.wrBit_moves | with_reducible apply Moves.ite | split
    | (with_reducible refine Moves.snd (by assumption) ?_) | (with_reducible refine Moves.fst (by assumption) ?_)
    | with_reducible apply Moves.raw

theorem emuNearest_moves {w : Mem → Bool} {s0 : State} (x0 : Nat) (x1 : Nat) (x2 : Nat) {s : State} (hs : Moves w s0 s) :
    Moves w s0 (emuNearest x0 x1 x2 s) := by
  unfold emuNearest
  try dsimp only
  repeat'
    first
    | with_reducible assumption | intro _ | with_reducible apply State.drew_moves | with_reducible apply State.modEnc_moves
    | with_reducible apply Moves.ite | split | (with_reducible refine Moves.snd (by assumption) ?_)
    | (with_reducible refine Moves.fst (by assumption) ?_) | with_reducible apply Moves.raw

theorem emuRebaseFrom_moves {w : Mem → Bool} {s0 : State} (x0 : Nat) (x1 : Nat) (x2 : Nat) {s : State} (hs : Moves w s0 s) :
    Moves w s0 (emuRebaseFrom x0 x1 x2 s) := by
  unfold emuRebaseFrom
  try dsimp only
  repeat'
    first
    | with_reducible assumption | intro _ | with_reducible apply State.modEnc_moves | with_reducible apply emuStatus_moves
    | with_reducible apply emuZsup_moves | with_reducible apply State.wr_moves | with_reducible apply emuNearest_moves
    | with_reducible apply Moves.ite | split | (with_reducible refine Moves.snd (by assumption) ?_)
    | (with_reducible refine Moves.fst (by assumption) ?_) | with_reducible apply Moves.raw

theorem emuRebaseNow_moves {w : Mem → Bool} {s0 : State} (x0 : Nat) (x1 : Nat) {s : State} (hs : Moves w s0 s) :
    Moves w s0 (emuRebaseNow x0 x1 s) := by
  unfold emuRebaseNow
  try dsimp only
  repeat'
    first
    | with_reducible assumption | intro _ | with_reducible apply emuRebaseFrom_moves | with_reducible apply Moves.ite | split
    | (with_reducible refine Moves.snd (by assumption) ?_) | (with_reducible refine Moves.fst (by assumption) ?_)

theorem emuRebase_moves {w : Mem → Bool} {s0 : State} (x0 : Nat) (x1 : Nat) {s : State} (hs : Moves w s0 s) :
    Moves w s0 (emuRebase x0 x1 s) := by
  unfold emuRebase
  try dsimp only
  repeat'
    first
    | with_reducible assumption | intro _ | with_reducible apply emuRebaseNow_moves | with_reducible apply emuGo_moves
    | with_reducible apply State.toGrid_moves | with_reducible apply Moves.ite | split
    | (with_reducible refine Moves.snd (by assumption) ?_) | (with_reducible refine Moves.fst (by assumption) ?_)

theorem emuPassthroughChange_moves {w : Mem → Bool} {s0 : State} (x0 : Nat) (x1 : Nat) {s : State} (hs : Moves w s0 s) :
    Moves w s0 (emuPassthroughChange x0 x1 s) := by
  unfold emuPassthroughChange
  try dsimp only
  repeat'
    first
    | with_reducible assumption | intro _ | with_reducible apply State.toGrid_moves | with_reducible apply State.modEnc_moves
    | with_reducible apply State.wr_moves | with_reducible apply emuShow_moves | with_reducible apply Moves.ite | split
    | (with_reducible refine Moves.snd (by assumption) ?_) | (with_reducible refine Moves.fst (by assumption) ?_)
    | with_reducible apply Moves.raw

theorem emuCtrlWrite_moves {w : Mem → Bool} {s0 : State} (x0 : Nat) (x1 : Word) (x2 : Nat) {s : State} (hs : Moves w s0 s) :
    Moves w s0 (emuCtrlWrite x0 x1 x2 s) := by
  unfold emuCtrlWrite
  try dsimp only
  repeat'
    first
    | with_reducible assumption | intro _ | with_reducible apply State.holdBalls_moves | with_reducible apply State.wr_moves
    | with_reducible apply State.modEnc_moves | with_reducible apply emuShow_moves | with_reducible apply Moves.ite | split
    | (with_reducible refine Moves.snd (by assumption) ?_) | (with_reducible refine Moves.fst (by assumption) ?_)
    | with_reducible apply Moves.raw

theorem encPut_moves {w : Mem → Bool} {s0 : State} (x0 : Nat) (x1 : Nat) (x2 : EncSample) {s : State} (hs : Moves w s0 s) :
    Moves w s0 (encPut x0 x1 x2 s) := by
  unfold encPut
  try dsimp only
  repeat'
    first
    | with_reducible assumption | intro _ | with_reducible apply State.wr_moves | with_reducible apply State.wrI_moves
    | with_reducible apply Moves.ite | split | (with_reducible refine Moves.snd (by assumption) ?_)
    | (with_reducible refine Moves.fst (by assumption) ?_)

theorem encSnap_moves {w : Mem → Bool} {s0 : State} (x0 : Nat) (x1 : Nat) (x2 : EncSnap → EncSnap) {s : State} (hs : Moves w s0 s) :
    Moves w s0 (encSnap x0 x1 x2 s) := by
  unfold encSnap
  try dsimp only
  repeat'
    first
    | with_reducible assumption | intro _ | with_reducible apply State.modEnc_moves | with_reducible apply Moves.ite | split
    | (with_reducible refine Moves.snd (by assumption) ?_) | (with_reducible refine Moves.fst (by assumption) ?_)
    | with_reducible apply Moves.raw

theorem encSnapTake_moves {w : Mem → Bool} {s0 : State} (x0 : Nat) (x1 : Nat) {s : State} (hs : Moves w s0 s) :
    Moves w s0 (encSnapTake x0 x1 s) := by
  unfold encSnapTake
  try dsimp only
  repeat'
    first
    | with_reducible assumption | intro _ | with_reducible apply encPut_moves | with_reducible apply State.modEnc_moves
    | with_reducible apply itemApplied_moves | with_reducible apply State.wr_moves | with_reducible apply Moves.ite | split
    | (with_reducible refine Moves.snd (by assumption) ?_) | (with_reducible refine Moves.fst (by assumption) ?_)
    | with_reducible apply Moves.raw

theorem encTally_moves {w : Mem → Bool} {s0 : State} (x0 : Nat) (x1 : Nat) (x2 : Bool) {s : State} (hs : Moves w s0 s) :
    Moves w s0 (encTally x0 x1 x2 s) := by
  unfold encTally
  try dsimp only
  repeat'
    first
    | with_reducible assumption | intro _ | with_reducible apply encSnap_moves | with_reducible apply State.modEnc_moves
    | with_reducible apply encPut_moves | with_reducible apply State.wrI_moves | with_reducible apply Moves.ite | split
    | (with_reducible refine Moves.snd (by assumption) ?_) | (with_reducible refine Moves.fst (by assumption) ?_)
    | with_reducible apply Moves.raw

theorem speedMode_moves {w : Mem → Bool} {s0 : State} (x0 : Nat) (x1 : Nat) (x2 : Rat) {s : State} (hs : Moves w s0 s) :
    Moves w s0 (speedMode x0 x1 x2 s) := by
  unfold speedMode
  try dsimp only
  repeat'
    first
    | with_reducible assumption | intro _ | with_reducible apply State.wr_moves | with_reducible apply Moves.ite | split
    | (with_reducible refine Moves.snd (by assumption) ?_) | (with_reducible refine Moves.fst (by assumption) ?_)

theorem setSpeed_moves {w : Mem → Bool} {s0 : State} (x0 : Nat) (x1 : Nat) (x2 : Rat) {s : State} (hs : Moves w s0 s) :
    Moves w s0 (setSpeed x0 x1 x2 s) := by
  unfold setSpeed
  try dsimp only
  repeat'
    first
    | with_reducible assumption | intro _ | with_reducible apply State.near_moves | with_reducible apply State.wrI_moves
    | with_reducible apply Moves.ite | split | (with_reducible refine Moves.snd (by assumption) ?_)
    | (with_reducible refine Moves.fst (by assumption) ?_)

theorem encCount_moves {w : Mem → Bool} {s0 : State} (x0 : Nat) (x1 : Nat) (x2 : Bool) (x3 : Nat) {s : State} (hs : Moves w s0 s) :
    Moves w s0 (encCount x0 x1 x2 x3 s) := by
  unfold encCount
  try dsimp only
  repeat'
    first
    | with_reducible assumption | intro _ | with_reducible apply encTally_moves | with_reducible apply State.modEnc_moves
    | with_reducible apply State.wr_moves | with_reducible apply speedMode_moves | with_reducible apply State.drew_moves
    | with_reducible apply State.wrI_moves | with_reducible apply setSpeed_moves | with_reducible apply Moves.ite | split
    | (with_reducible refine Moves.snd (by assumption) ?_) | (with_reducible refine Moves.fst (by assumption) ?_)
    | with_reducible apply Moves.raw

theorem indexSet_moves {w : Mem → Bool} {s0 : State} (x0 : Nat) (x1 : Nat) (x2 : Int) {s : State} (hs : Moves w s0 s) :
    Moves w s0 (indexSet x0 x1 x2 s) := by
  unfold indexSet
  try dsimp only
  repeat'
    first
    | with_reducible assumption | intro _ | with_reducible apply State.near_moves | with_reducible apply State.wr_moves
    | with_reducible apply State.wrI_moves | with_reducible apply State.modTrk_moves | with_reducible apply Moves.ite | split
    | (with_reducible refine Moves.snd (by assumption) ?_) | (with_reducible refine Moves.fst (by assumption) ?_)
    | with_reducible apply Moves.raw

theorem indexSector_moves {w : Mem → Bool} {s0 : State} (x0 : Nat) (x1 : Nat) (x2 : Nat) {s : State} (hs : Moves w s0 s) :
    Moves w s0 (indexSector x0 x1 x2 s) := by
  unfold indexSector
  try dsimp only
  repeat'
    first
    | with_reducible assumption | intro _ | with_reducible apply indexSet_moves | with_reducible apply angleAt_moves
    | with_reducible apply Moves.ite | split | (with_reducible refine Moves.snd (by assumption) ?_)
    | (with_reducible refine Moves.fst (by assumption) ?_)

theorem indexCheck_moves {w : Mem → Bool} {s0 : State} (x0 : Nat) (x1 : Nat) (x2 : Int) {s : State} (hs : Moves w s0 s) :
    Moves w s0 (indexCheck x0 x1 x2 s) := by
  unfold indexCheck
  try dsimp only
  repeat'
    first
    | with_reducible assumption | intro _ | with_reducible apply State.wr_moves | with_reducible apply State.wrI_moves
    | with_reducible apply State.raiseAx_moves | with_reducible apply State.wrBit_moves | with_reducible apply Moves.ite | split
    | (with_reducible refine Moves.snd (by assumption) ?_) | (with_reducible refine Moves.fst (by assumption) ?_)

theorem indexReset_moves {w : Mem → Bool} {s0 : State} (x0 : Nat) (x1 : Nat) (x2 : Int) {s : State} (hs : Moves w s0 s) :
    Moves w s0 (indexReset x0 x1 x2 s) := by
  unfold indexReset
  try dsimp only
  repeat'
    first
    | with_reducible assumption | intro _ | with_reducible apply State.modEnc_moves | with_reducible apply encPut_moves
    | with_reducible apply State.wr_moves | with_reducible apply Moves.ite | split
    | (with_reducible refine Moves.snd (by assumption) ?_) | (with_reducible refine Moves.fst (by assumption) ?_)
    | with_reducible apply Moves.raw

theorem indexAct_moves {w : Mem → Bool} {s0 : State} (x0 : Nat) (x1 : Nat) (x2 : Nat) {s : State} (hs : Moves w s0 s) :
    Moves w s0 (indexAct x0 x1 x2 s) := by
  unfold indexAct
  try dsimp only
  repeat'
    first
    | with_reducible assumption | intro _ | with_reducible apply indexCheck_moves | with_reducible apply indexReset_moves
    | with_reducible apply indexSector_moves | with_reducible apply encSnap_moves | with_reducible apply State.wr_moves
    | with_reducible apply Moves.ite | split | (with_reducible refine Moves.snd (by assumption) ?_)
    | (with_reducible refine Moves.fst (by assumption) ?_)

theorem encReceive_moves {w : Mem → Bool} {s0 : State} (x0 : Nat) (x1 : Nat) (x2 : Nat) {s : State} (hs : Moves w s0 s) :
    Moves w s0 (encReceive x0 x1 x2 s) := by
  unfold encReceive
  try dsimp only
  repeat'
    first
    | with_reducible assumption | intro _ | with_reducible apply State.modEnc_moves | with_reducible apply emuShow_moves
    | with_reducible apply Moves.ite | split | (with_reducible refine Moves.snd (by assumption) ?_)
    | (with_reducible refine Moves.fst (by assumption) ?_) | with_reducible apply Moves.raw

theorem encDecode_moves {w : Mem → Bool} {s0 : State} (x0 : Nat) (x1 : Nat) (x2 : Nat) (x3 : Bool) (x4 : Bool) (x5 : Nat) {s : State}
    (hs : Moves w s0 s) :
    Moves w s0 (encDecode x0 x1 x2 x3 x4 x5 s) := by
  unfold encDecode
  try dsimp only
  repeat'
    first
    | with_reducible assumption | intro _ | with_reducible apply encCount_moves | with_reducible apply State.raiseAx_moves
    | with_reducible apply State.wrBit_moves | with_reducible apply State.addSat_moves | with_reducible apply Moves.ite | split
    | (with_reducible refine Moves.snd (by assumption) ?_) | (with_reducible refine Moves.fst (by assumption) ?_)

theorem encEdgeAccept_moves {w : Mem → Bool} {s0 : State} (x0 : Nat) (x1 : Nat) (x2 : Bool) (x3 : Bool) (x4 : Bool) (x5 : Nat) {s :
    State} (hs : Moves w s0 s) :
    Moves w s0 (encEdgeAccept x0 x1 x2 x3 x4 x5 s) := by
  unfold encEdgeAccept
  try dsimp only
  repeat'
    first
    | with_reducible assumption | intro _ | with_reducible apply encReceive_moves | with_reducible apply encDecode_moves
    | with_reducible apply State.wr_moves | with_reducible apply indexAct_moves | with_reducible apply Moves.ite | split
    | (with_reducible refine Moves.snd (by assumption) ?_) | (with_reducible refine Moves.fst (by assumption) ?_)

theorem encWireDisagree_moves {w : Mem → Bool} {s0 : State} (x0 : Nat) (x1 : Nat) (x2 : Nat) (x3 : Nat) {s : State} (hs : Moves w s0 s)
    :
    Moves w s0 (encWireDisagree x0 x1 x2 x3 s) := by
  unfold encWireDisagree
  try dsimp only
  repeat'
    first
    | with_reducible assumption | intro _ | with_reducible apply State.modEnc_moves | with_reducible apply State.wr_moves
    | with_reducible apply State.raiseAx_moves | with_reducible apply State.wrBit_moves | with_reducible apply Moves.ite | split
    | (with_reducible refine Moves.snd (by assumption) ?_) | (with_reducible refine Moves.fst (by assumption) ?_)
    | with_reducible apply Moves.raw

theorem encRawWrite_moves {w : Mem → Bool} {s0 : State} (x0 : Nat) (x1 : Word) (x2 : Nat) {s : State} (hs : Moves w s0 s) :
    Moves w s0 (encRawWrite x0 x1 x2 s) := by
  unfold encRawWrite
  try dsimp only
  repeat'
    first
    | with_reducible assumption | intro _ | with_reducible apply State.modEnc_moves | with_reducible apply encSnap_moves
    | with_reducible apply State.wr_moves | with_reducible apply Moves.ite | split
    | (with_reducible refine Moves.snd (by assumption) ?_) | (with_reducible refine Moves.fst (by assumption) ?_)
    | with_reducible apply Moves.raw

theorem encSpeedWindowEnd_moves {w : Mem → Bool} {s0 : State} (x0 : Nat) (x1 : Nat) {s : State} (hs : Moves w s0 s) :
    Moves w s0 (encSpeedWindowEnd x0 x1 s) := by
  unfold encSpeedWindowEnd
  try dsimp only
  repeat'
    first
    | with_reducible assumption | intro _ | with_reducible apply State.toNext_moves | with_reducible apply State.modEnc_moves
    | with_reducible apply speedMode_moves | with_reducible apply setSpeed_moves | with_reducible apply Moves.ite | split
    | (with_reducible refine Moves.snd (by assumption) ?_) | (with_reducible refine Moves.fst (by assumption) ?_)
    | with_reducible apply Moves.raw

theorem encStopTimeout_moves {w : Mem → Bool} {s0 : State} (x0 : Nat) (x1 : Nat) {s : State} (hs : Moves w s0 s) :
    Moves w s0 (encStopTimeout x0 x1 s) := by
  unfold encStopTimeout
  try dsimp only
  repeat'
    first
    | with_reducible assumption | intro _ | with_reducible apply State.passTo_moves | with_reducible apply State.wr_moves
    | with_reducible apply Moves.ite | split | (with_reducible refine Moves.snd (by assumption) ?_)
    | (with_reducible refine Moves.fst (by assumption) ?_)

theorem encSpeedNow_moves {w : Mem → Bool} {s0 : State} (x0 : Nat) (x1 : Nat) {s : State} (hs : Moves w s0 s) :
    Moves w s0 (encSpeedNow x0 x1 s) := by
  unfold encSpeedNow
  try dsimp only
  repeat'
    first
    | with_reducible assumption | intro _ | with_reducible apply setSpeed_moves | with_reducible apply Moves.ite | split
    | (with_reducible refine Moves.snd (by assumption) ?_) | (with_reducible refine Moves.fst (by assumption) ?_)

theorem encIndex_moves {w : Mem → Bool} {s0 : State} (x0 : Nat) (x1 : Nat) (x2 : Nat) {s : State} (hs : Moves w s0 s) :
    Moves w s0 (encIndex x0 x1 x2 s) := by
  unfold encIndex
  try dsimp only
  repeat'
    first
    | with_reducible assumption | intro _ | with_reducible apply encReceive_moves | with_reducible apply indexAct_moves
    | with_reducible apply State.wr_moves | with_reducible apply Moves.ite | split
    | (with_reducible refine Moves.snd (by assumption) ?_) | (with_reducible refine Moves.fst (by assumption) ?_)

theorem encIdxArm_moves {w : Mem → Bool} {s0 : State} (x0 : Nat) (x1 : Nat) {s : State} (hs : Moves w s0 s) :
    Moves w s0 (encIdxArm x0 x1 s) := by
  unfold encIdxArm
  try dsimp only
  repeat'
    first
    | with_reducible assumption | intro _ | with_reducible apply encSnap_moves | with_reducible apply State.wr_moves
    | with_reducible apply Moves.ite | split | (with_reducible refine Moves.snd (by assumption) ?_)
    | (with_reducible refine Moves.fst (by assumption) ?_) | with_reducible apply Moves.raw

theorem encIdxWrite_moves {w : Mem → Bool} {s0 : State} (x0 : Nat) (x1 : Word) (x2 : Nat) {s : State} (hs : Moves w s0 s) :
    Moves w s0 (encIdxWrite x0 x1 x2 s) := by
  unfold encIdxWrite
  try dsimp only
  repeat'
    first
    | with_reducible assumption | intro _ | with_reducible apply encSnap_moves | with_reducible apply State.wr_moves
    | with_reducible apply encIdxArm_moves | with_reducible apply Moves.ite | split
    | (with_reducible refine Moves.snd (by assumption) ?_) | (with_reducible refine Moves.fst (by assumption) ?_)
    | with_reducible apply Moves.raw

theorem probeLatch_moves {w : Mem → Bool} {s0 : State} (x0 : Nat) (x1 : Nat) (x2 : Bool) (x3 : Nat) {s : State} (hs : Moves w s0 s) :
    Moves w s0 (probeLatch x0 x1 x2 x3 s) := by
  unfold probeLatch
  try dsimp only
  repeat'
    first
    | with_reducible assumption | intro _ | with_reducible apply State.raiseAx_moves | with_reducible apply State.addSat_moves
    | with_reducible apply State.wr_moves | with_reducible apply State.wrI_moves | with_reducible apply angleAt_moves
    | with_reducible apply Moves.ite | split | (with_reducible refine Moves.snd (by assumption) ?_)
    | (with_reducible refine Moves.fst (by assumption) ?_)

theorem probeEdge_moves {w : Mem → Bool} {s0 : State} (x0 : Nat) (x1 : Nat) (x2 : Bool) (x3 : Nat) {s : State} (hs : Moves w s0 s) :
    Moves w s0 (probeEdge x0 x1 x2 x3 s) := by
  unfold probeEdge
  try dsimp only
  repeat'
    first
    | with_reducible assumption | intro _ | with_reducible apply State.modEnc_moves | with_reducible apply probeLatch_moves
    | with_reducible apply Moves.ite | split | (with_reducible refine Moves.snd (by assumption) ?_)
    | (with_reducible refine Moves.fst (by assumption) ?_) | with_reducible apply Moves.raw

theorem prbStatWrite_moves {w : Mem → Bool} {s0 : State} (x0 : Nat) (x1 : Nat) {s : State} (hs : Moves w s0 s) :
    Moves w s0 (prbStatWrite x0 x1 s) := by
  unfold prbStatWrite
  try dsimp only
  repeat'
    first
    | with_reducible assumption | intro _ | with_reducible apply State.wr_moves | with_reducible apply Moves.ite | split
    | (with_reducible refine Moves.snd (by assumption) ?_) | (with_reducible refine Moves.fst (by assumption) ?_)

theorem detLimit_moves {w : Mem → Bool} {s0 : State} (x0 : Nat) (x1 : Nat) (x2 : Int) {s : State} (hs : Moves w s0 s) :
    Moves w s0 (detLimit x0 x1 x2 s) := by
  unfold detLimit
  try dsimp only
  repeat'
    first
    | with_reducible assumption | intro _ | with_reducible apply State.raise_moves | with_reducible apply State.modDet_moves
    | with_reducible apply Moves.ite | split | (with_reducible refine Moves.snd (by assumption) ?_)
    | (with_reducible refine Moves.fst (by assumption) ?_) | with_reducible apply Moves.raw

theorem detFlags_moves {w : Mem → Bool} {s0 : State} (x0 : Nat) (x1 : Nat) (x2 : Nat) {s : State} (hs : Moves w s0 s) :
    Moves w s0 (detFlags x0 x1 x2 s) := by
  unfold detFlags
  try dsimp only
  repeat'
    first
    | with_reducible assumption | intro _ | with_reducible apply State.wr_moves | with_reducible apply Moves.ite | split
    | (with_reducible refine Moves.snd (by assumption) ?_) | (with_reducible refine Moves.fst (by assumption) ?_)

theorem detClose_moves {w : Mem → Bool} {s0 : State} (x0 : Nat) (x1 : Nat) {s : State} (hs : Moves w s0 s) :
    Moves w s0 (detClose x0 x1 s) := by
  unfold detClose
  try dsimp only
  repeat'
    first
    | with_reducible assumption | intro _ | with_reducible apply State.wr_moves | with_reducible apply State.wrI_moves
    | with_reducible apply State.addSat_moves | with_reducible apply State.modDet_moves | with_reducible apply detFlags_moves
    | with_reducible apply detLimit_moves | with_reducible apply Moves.ite | split
    | (with_reducible refine Moves.snd (by assumption) ?_) | (with_reducible refine Moves.fst (by assumption) ?_)

theorem detStale_moves {w : Mem → Bool} {s0 : State} (x0 : Nat) {s : State} (hs : Moves w s0 s) :
    Moves w s0 (detStale x0 s) := by
  unfold detStale
  try dsimp only
  repeat'
    first
    | with_reducible assumption | intro _ | with_reducible apply State.forEach_moves | with_reducible apply State.wr_moves
    | with_reducible apply Moves.ite | split | (with_reducible refine Moves.snd (by assumption) ?_)
    | (with_reducible refine Moves.fst (by assumption) ?_)

theorem envFactor_moves {w : Mem → Bool} {s0 : State} (x0 : Nat) (x1 : Nat) {s : State} (hs : Moves w s0 s) :
    Moves w s0 (envFactor x0 x1 s).2 := by
  unfold envFactor
  try dsimp only
  repeat'
    first
    | with_reducible assumption | intro _ | with_reducible apply State.near_moves | with_reducible apply Moves.ite | split
    | (with_reducible refine Moves.snd (by assumption) ?_) | (with_reducible refine Moves.fst (by assumption) ?_)

theorem detEnvelope_moves {w : Mem → Bool} {s0 : State} (x0 : Nat) (x1 : Nat) (x2 : Int) (x3 : Nat) {s : State} (hs : Moves w s0 s) :
    Moves w s0 (detEnvelope x0 x1 x2 x3 s) := by
  unfold detEnvelope
  try dsimp only
  repeat'
    first
    | with_reducible assumption | intro _ | with_reducible apply envFactor_moves | with_reducible apply State.near_moves
    | with_reducible apply State.modDet_moves | with_reducible apply State.wrI_moves | with_reducible apply detLimit_moves
    | with_reducible apply detFlags_moves | with_reducible apply Moves.ite | split
    | (with_reducible refine Moves.snd (by assumption) ?_) | (with_reducible refine Moves.fst (by assumption) ?_)
    | with_reducible apply Moves.raw

theorem detSample_moves {w : Mem → Bool} {s0 : State} (x0 : Nat) (x1 : Nat) (x2 : Int) (x3 : Nat) (x4 : Nat) {s : State} (hs : Moves w s0
    s) :
    Moves w s0 (detSample x0 x1 x2 x3 x4 s) := by
  unfold detSample
  try dsimp only
  repeat'
    first
    | with_reducible assumption | intro _ | with_reducible apply detEnvelope_moves | with_reducible apply State.wr_moves
    | with_reducible apply detClose_moves | with_reducible apply State.modDet_moves | with_reducible apply Moves.ite | split
    | (with_reducible refine Moves.snd (by assumption) ?_) | (with_reducible refine Moves.fst (by assumption) ?_)
    | with_reducible apply Moves.raw

theorem detWindowEnd_moves {w : Mem → Bool} {s0 : State} (x0 : Nat) (x1 : Nat) {s : State} (hs : Moves w s0 s) :
    Moves w s0 (detWindowEnd x0 x1 s) := by
  unfold detWindowEnd
  try dsimp only
  repeat'
    first
    | with_reducible assumption | intro _ | with_reducible apply detClose_moves | with_reducible apply Moves.ite | split
    | (with_reducible refine Moves.snd (by assumption) ?_) | (with_reducible refine Moves.fst (by assumption) ?_)

theorem detDiscard_moves {w : Mem → Bool} {s0 : State} (x0 : Nat) (x1 : Nat) {s : State} (hs : Moves w s0 s) :
    Moves w s0 (detDiscard x0 x1 s) := by
  unfold detDiscard
  try dsimp only
  repeat'
    first
    | with_reducible assumption | intro _ | with_reducible apply State.modDet_moves | with_reducible apply Moves.ite | split
    | (with_reducible refine Moves.snd (by assumption) ?_) | (with_reducible refine Moves.fst (by assumption) ?_)

theorem detCfgWrite_moves {w : Mem → Bool} {s0 : State} (x0 : Nat) (x1 : Nat) (x2 : Word) (x3 : Nat) {s : State} (hs : Moves w s0 s) :
    Moves w s0 (detCfgWrite x0 x1 x2 x3 s) := by
  unfold detCfgWrite
  try dsimp only
  repeat'
    first
    | with_reducible assumption | intro _ | with_reducible apply detDiscard_moves | with_reducible apply State.wr_moves
    | with_reducible apply detStale_moves | with_reducible apply State.modDet_moves | with_reducible apply Moves.ite | split
    | (with_reducible refine Moves.snd (by assumption) ?_) | (with_reducible refine Moves.fst (by assumption) ?_)
    | with_reducible apply Moves.raw

theorem filDeliver_moves {w : Mem → Bool} {s0 : State} (x0 : Nat) (x1 : Nat) (x2 : Bool) {s : State} (hs : Moves w s0 s) :
    Moves w s0 (filDeliver x0 x1 x2 s) := by
  unfold filDeliver
  try dsimp only
  repeat'
    first
    | with_reducible assumption | intro _ | with_reducible apply State.wr_moves | with_reducible apply State.wrI_moves
    | with_reducible apply State.forEach_moves | with_reducible apply detSample_moves | with_reducible apply Moves.ite | split
    | (with_reducible refine Moves.snd (by assumption) ?_) | (with_reducible refine Moves.fst (by assumption) ?_)

theorem filRestart_moves {w : Mem → Bool} {s0 : State} (x0 : Nat) (x1 : Nat) (x2 : FilSet) {s : State} (hs : Moves w s0 s) :
    Moves w s0 (filRestart x0 x1 x2 s) := by
  unfold filRestart
  try dsimp only
  repeat'
    first
    | with_reducible assumption | intro _ | with_reducible apply filDeliver_moves | with_reducible apply State.wr_moves
    | with_reducible apply State.modFil_moves | with_reducible apply State.forEach_moves | with_reducible apply detDiscard_moves
    | with_reducible apply Moves.ite | split | (with_reducible refine Moves.snd (by assumption) ?_)
    | (with_reducible refine Moves.fst (by assumption) ?_) | with_reducible apply Moves.raw

theorem filStrobe_moves {w : Mem → Bool} {s0 : State} (x0 : Nat) (x1 : Nat) (x2 : Int) (x3 : Bool) (x4 : Bool) (x5 : Bool) {s : State}
    (hs : Moves w s0 s) :
    Moves w s0 (filStrobe x0 x1 x2 x3 x4 x5 s) := by
  unfold filStrobe
  try dsimp only
  repeat'
    first
    | with_reducible assumption | intro _ | with_reducible apply State.modFil_moves | with_reducible apply State.forEach_moves
    | with_reducible apply detSample_moves | with_reducible apply filRestart_moves | with_reducible apply filDeliver_moves
    | with_reducible apply Moves.ite | split | (with_reducible refine Moves.snd (by assumption) ?_)
    | (with_reducible refine Moves.fst (by assumption) ?_)

theorem filTake_moves {w : Mem → Bool} {s0 : State} (x0 : Nat) (x1 : Nat) (x2 : Bool) {s : State} (hs : Moves w s0 s) :
    Moves w s0 (filTake x0 x1 x2 s) := by
  unfold filTake
  try dsimp only
  repeat'
    first
    | with_reducible assumption | intro _ | with_reducible apply filRestart_moves | with_reducible apply State.modConv_moves
    | with_reducible apply State.modFil_moves | with_reducible apply State.wr_moves | with_reducible apply Moves.ite | split
    | (with_reducible refine Moves.snd (by assumption) ?_) | (with_reducible refine Moves.fst (by assumption) ?_)
    | with_reducible apply Moves.raw

theorem filSlotRestart_moves {w : Mem → Bool} {s0 : State} (x0 : Nat) (x1 : Nat) {s : State} (hs : Moves w s0 s) :
    Moves w s0 (filSlotRestart x0 x1 s) := by
  unfold filSlotRestart
  try dsimp only
  repeat'
    first
    | with_reducible assumption | intro _ | with_reducible apply State.toGrid_moves | with_reducible apply State.passTo_moves
    | with_reducible apply filTake_moves | with_reducible apply Moves.foldl
    | (with_reducible refine Moves.foldlBy Prod.snd ?_ ?_) | (with_reducible refine Moves.foldlBy Prod.fst ?_ ?_)
    | (with_reducible refine Moves.foldlBy WordRun.s ?_ ?_) | with_reducible apply Moves.ite | split
    | (with_reducible refine Moves.snd (by assumption) ?_) | (with_reducible refine Moves.fst (by assumption) ?_)

theorem filApply_moves {w : Mem → Bool} {s0 : State} (x0 : Nat) (x1 : Nat) (x2 : Nat) {s : State} (hs : Moves w s0 s) :
    Moves w s0 (filApply x0 x1 x2 s) := by
  unfold filApply
  try dsimp only
  repeat'
    first
    | with_reducible assumption | intro _ | with_reducible apply State.modFil_moves | with_reducible apply Moves.ite | split
    | (with_reducible refine Moves.snd (by assumption) ?_) | (with_reducible refine Moves.fst (by assumption) ?_)
    | with_reducible apply Moves.raw

theorem filPendWrite_moves {w : Mem → Bool} {s0 : State} (x0 : Nat) (x1 : Nat) (x2 : Word) (x3 : Nat) (x4 : Nat) {s : State} (hs : Moves
    w s0 s) :
    Moves w s0 (filPendWrite x0 x1 x2 x3 x4 s) := by
  unfold filPendWrite
  try dsimp only
  repeat'
    first
    | with_reducible assumption | intro _ | with_reducible apply State.wr_moves | with_reducible apply State.modFil_moves
    | with_reducible apply filApply_moves | with_reducible apply Moves.ite | split
    | (with_reducible refine Moves.snd (by assumption) ?_) | (with_reducible refine Moves.fst (by assumption) ?_)
    | with_reducible apply Moves.raw

theorem filSyncGo_moves {w : Mem → Bool} {s0 : State} (x0 : Nat) (x1 : Nat) {s : State} (hs : Moves w s0 s) :
    Moves w s0 (filSyncGo x0 x1 s) := by
  unfold filSyncGo
  try dsimp only
  repeat'
    first
    | with_reducible assumption | intro _ | with_reducible apply State.wr_moves | with_reducible apply State.modSync_moves
    | with_reducible apply State.raise_moves | with_reducible apply Moves.ite | split
    | (with_reducible refine Moves.snd (by assumption) ?_) | (with_reducible refine Moves.fst (by assumption) ?_)

theorem filSyncReset_moves {w : Mem → Bool} {s0 : State} (x0 : Nat) {s : State} (hs : Moves w s0 s) :
    Moves w s0 (filSyncReset x0 s) := by
  unfold filSyncReset
  try dsimp only
  repeat'
    first
    | with_reducible assumption | intro _ | with_reducible apply State.toGrid_moves | with_reducible apply State.passTo_moves
    | with_reducible apply State.wr_moves | with_reducible apply State.modSync_moves | with_reducible apply State.forEach_moves
    | with_reducible apply filTake_moves | with_reducible apply Moves.ite | split
    | (with_reducible refine Moves.snd (by assumption) ?_) | (with_reducible refine Moves.fst (by assumption) ?_)

theorem acqMuxWrite_moves {w : Mem → Bool} {s0 : State} (x0 : Nat) (x1 : Word) (x2 : Nat) (x3 : Nat) {s : State} (hs : Moves w s0 s) :
    Moves w s0 (acqMuxWrite x0 x1 x2 x3 s) := by
  unfold acqMuxWrite
  try dsimp only
  repeat'
    first
    | with_reducible assumption | intro _ | with_reducible apply State.wr_moves | with_reducible apply State.modFil_moves
    | with_reducible apply State.raise_moves | with_reducible apply Moves.ite | split
    | (with_reducible refine Moves.snd (by assumption) ?_) | (with_reducible refine Moves.fst (by assumption) ?_)
    | with_reducible apply Moves.raw

theorem acqSample_moves {w : Mem → Bool} {s0 : State} (x0 : Nat) (x1 : Nat) (x2 : Int) (x3 : Bool) {s : State} (hs : Moves w s0 s) :
    Moves w s0 (acqSample x0 x1 x2 x3 s) := by
  unfold acqSample
  try dsimp only
  repeat'
    first
    | with_reducible assumption | intro _ | with_reducible apply State.modConv_moves | with_reducible apply State.raiseAx_moves
    | with_reducible apply State.wr_moves | with_reducible apply State.raise_moves | with_reducible apply State.wrBit_moves
    | with_reducible apply Moves.ite | split | (with_reducible refine Moves.snd (by assumption) ?_)
    | (with_reducible refine Moves.fst (by assumption) ?_) | with_reducible apply Moves.raw

theorem filterRound_moves {w : Mem → Bool} {s0 : State} (d : Nat) {s : State} (h : Moves w s0 s) : Moves w s0 (filterRound d s) := by
  unfold filterRound
  refine filStrobe_moves _ _ _ _ _ _ ?_
  split
  all_goals
    refine filStrobe_moves _ _ _ _ _ _ (State.forEach_moves _ (State.forEach_moves _ h ?_) ?_)
    · intro c u hu
      exact filStrobe_moves _ _ _ _ _ _ hu
    · intro n u hu
      split <;> exact filStrobe_moves _ _ _ _ _ _ hu

theorem setTrip_moves {w : Mem → Bool} {s0 : State} (x0 : Nat) (x1 : Nat) (x2 : Nat) (x3 : Bool) (x4 : Bool) {s : State} (hs : Moves w
    s0 s) :
    Moves w s0 (setTrip x0 x1 x2 x3 x4 s) := by
  unfold setTrip
  try dsimp only
  repeat'
    first
    | with_reducible assumption | intro _ | with_reducible apply State.modConv_moves | with_reducible apply Moves.ite | split
    | (with_reducible refine Moves.snd (by assumption) ?_) | (with_reducible refine Moves.fst (by assumption) ?_)
    | with_reducible apply Moves.raw

theorem comparatorRise_moves {w : Mem → Bool} {s0 : State} (x0 : Nat) (x1 : Nat) (x2 : Nat) (x3 : Bool) {s : State} (hs : Moves w s0
    s) :
    Moves w s0 (comparatorRise x0 x1 x2 x3 s) := by
  unfold comparatorRise
  try dsimp only
  repeat'
    first
    | with_reducible assumption | intro _ | with_reducible apply State.wr_moves | with_reducible apply State.raiseAx_moves
    | with_reducible apply fastAct_moves | with_reducible apply State.settleAxis_moves | with_reducible apply State.wrBit_moves
    | with_reducible apply setTrip_moves | with_reducible apply State.refreshAxis_moves
    | with_reducible apply State.modPwm_moves | with_reducible apply Moves.ite | split
    | (with_reducible refine Moves.snd (by assumption) ?_) | (with_reducible refine Moves.fst (by assumption) ?_)
    | with_reducible apply Moves.raw

theorem comparatorAssert_moves {w : Mem → Bool} {s0 : State} (x0 : Nat) (x1 : Nat) (x2 : Nat) (x3 : Bool) (x4 : Int) {s : State} (hs :
    Moves w s0 s) :
    Moves w s0 (comparatorAssert x0 x1 x2 x3 x4 s) := by
  unfold comparatorAssert
  try dsimp only
  repeat'
    first
    | with_reducible assumption | intro _ | with_reducible apply comparatorRise_moves | with_reducible apply Moves.ite | split
    | (with_reducible refine Moves.snd (by assumption) ?_) | (with_reducible refine Moves.fst (by assumption) ?_)

theorem comparatorDeassert_moves {w : Mem → Bool} {s0 : State} (x0 : Nat) (x1 : Nat) (x2 : Nat) (x3 : Bool) (x4 : Int) {s : State} (hs :
    Moves w s0 s) :
    Moves w s0 (comparatorDeassert x0 x1 x2 x3 x4 s) := by
  unfold comparatorDeassert
  try dsimp only
  repeat'
    first
    | with_reducible assumption | intro _ | with_reducible apply State.settleAxis_moves | with_reducible apply setTrip_moves
    | with_reducible apply State.wr_moves | with_reducible apply fastAct_moves | with_reducible apply State.raiseAx_moves
    | with_reducible apply Moves.ite | split | (with_reducible refine Moves.snd (by assumption) ?_)
    | (with_reducible refine Moves.fst (by assumption) ?_)

theorem acqCmpWrite_moves {w : Mem → Bool} {s0 : State} (x0 : Nat) (x1 : Nat) (x2 : Bool) (x3 : Word) (x4 : Nat) {s : State} (hs :
    Moves w s0 s) :
    Moves w s0 (acqCmpWrite x0 x1 x2 x3 x4 s) := by
  unfold acqCmpWrite
  try dsimp only
  repeat'
    first
    | with_reducible assumption | intro _ | with_reducible apply State.wr_moves | with_reducible apply setTrip_moves
    | with_reducible apply judgeFast_moves | with_reducible apply State.raiseAx_moves | with_reducible apply State.raise_moves
    | with_reducible apply Moves.ite | split | (with_reducible refine Moves.snd (by assumption) ?_)
    | (with_reducible refine Moves.fst (by assumption) ?_) | with_reducible apply Moves.raw

theorem lptSample_moves {w : Mem → Bool} {s0 : State} (x0 : Nat) {s : State} (hs : Moves w s0 s) :
    Moves w s0 (lptSample x0 s) := by
  unfold lptSample
  try dsimp only
  repeat'
    first
    | with_reducible assumption | intro _ | with_reducible apply State.modLpt_moves | with_reducible apply Moves.ite | split
    | (with_reducible refine Moves.snd (by assumption) ?_) | (with_reducible refine Moves.fst (by assumption) ?_)
    | with_reducible apply Moves.raw

theorem lptUpdate_moves {w : Mem → Bool} {s0 : State} (x0 : Nat) {s : State} (hs : Moves w s0 s) :
    Moves w s0 (lptUpdate x0 s) := by
  unfold lptUpdate
  try dsimp only
  repeat'
    first
    | with_reducible assumption | intro _ | with_reducible apply State.toNext_moves | with_reducible apply State.near_moves
    | with_reducible apply State.modLpt_moves | with_reducible apply State.wr_moves | with_reducible apply State.wrI_moves
    | with_reducible apply itemApplied_moves | with_reducible apply Moves.ite | split
    | (with_reducible refine Moves.snd (by assumption) ?_) | (with_reducible refine Moves.fst (by assumption) ?_)
    | with_reducible apply Moves.raw

theorem lptLock_moves {w : Mem → Bool} {s0 : State} (x0 : Nat) {s : State} (hs : Moves w s0 s) :
    Moves w s0 (lptLock x0 s) := by
  unfold lptLock
  try dsimp only
  repeat'
    first
    | with_reducible assumption | intro _ | with_reducible apply detStale_moves | with_reducible apply State.modLpt_moves
    | with_reducible apply State.wr_moves | with_reducible apply State.passTo_moves | with_reducible apply Moves.ite | split
    | (with_reducible refine Moves.snd (by assumption) ?_) | (with_reducible refine Moves.fst (by assumption) ?_)
    | with_reducible apply Moves.raw

theorem lptUnlock_moves {w : Mem → Bool} {s0 : State} (x0 : Nat) {s : State} (hs : Moves w s0 s) :
    Moves w s0 (lptUnlock x0 s) := by
  unfold lptUnlock
  try dsimp only
  repeat'
    first
    | with_reducible assumption | intro _ | with_reducible apply State.modLpt_moves | with_reducible apply State.wr_moves
    | with_reducible apply State.passTo_moves | with_reducible apply State.raise_moves | with_reducible apply detStale_moves
    | with_reducible apply Moves.foldl | (with_reducible refine Moves.foldlBy Prod.snd ?_ ?_)
    | (with_reducible refine Moves.foldlBy Prod.fst ?_ ?_) | (with_reducible refine Moves.foldlBy WordRun.s ?_ ?_)
    | with_reducible apply Moves.ite | split | (with_reducible refine Moves.snd (by assumption) ?_)
    | (with_reducible refine Moves.fst (by assumption) ?_) | with_reducible apply Moves.raw

theorem lptCtrlWrite_moves {w : Mem → Bool} {s0 : State} (x0 : Word) (x1 : Nat) {s : State} (hs : Moves w s0 s) :
    Moves w s0 (lptCtrlWrite x0 x1 s) := by
  unfold lptCtrlWrite
  try dsimp only
  repeat'
    first
    | with_reducible assumption | intro _ | with_reducible apply State.wr_moves | with_reducible apply detStale_moves
    | with_reducible apply State.modLpt_moves | with_reducible apply Moves.ite | split
    | (with_reducible refine Moves.snd (by assumption) ?_) | (with_reducible refine Moves.fst (by assumption) ?_)

theorem lptPhaseRead_moves {w : Mem → Bool} {s0 : State} (x0 : Nat) {s : State} (hs : Moves w s0 s) :
    Moves w s0 (lptPhaseRead x0 s) := by
  unfold lptPhaseRead
  try dsimp only
  repeat'
    first
    | with_reducible assumption | intro _ | with_reducible apply State.answer_moves
    | with_reducible apply State.latchWords_moves | with_reducible apply Moves.ite | split
    | (with_reducible refine Moves.snd (by assumption) ?_) | (with_reducible refine Moves.fst (by assumption) ?_)

theorem exSample_moves {w : Mem → Bool} {s0 : State} (x0 : Nat) (x1 : Nat) (x2 : Int) {s : State} (hs : Moves w s0 s) :
    Moves w s0 (exSample x0 x1 x2 s) := by
  unfold exSample
  try dsimp only
  repeat'
    first
    | with_reducible assumption | intro _ | with_reducible apply State.modConv_moves | with_reducible apply State.modExc_moves
    | with_reducible apply Moves.ite | split | (with_reducible refine Moves.snd (by assumption) ?_)
    | (with_reducible refine Moves.fst (by assumption) ?_) | with_reducible apply Moves.raw

theorem rcStrobe_moves {w : Mem → Bool} {s0 : State} (x0 : Nat) (x1 : Nat) {s : State} (hs : Moves w s0 s) :
    Moves w s0 (rcStrobe x0 x1 s) := by
  unfold rcStrobe
  try dsimp only
  repeat'
    first
    | with_reducible assumption | intro _ | with_reducible apply State.modEnc_moves | with_reducible apply Moves.ite | split
    | (with_reducible refine Moves.snd (by assumption) ?_) | (with_reducible refine Moves.fst (by assumption) ?_)
    | with_reducible apply Moves.raw

theorem axisStrobe_moves {w : Mem → Bool} {s0 : State} (x0 : Nat) (x1 : Nat) (x2 : Nat → Int) {s : State} (hs : Moves w s0 s) :
    Moves w s0 (axisStrobe x0 x1 x2 s) := by
  unfold axisStrobe
  try dsimp only
  repeat'
    first
    | with_reducible assumption | intro _ | with_reducible apply excStrobe_moves | with_reducible apply exSample_moves
    | with_reducible apply rcStrobe_moves | with_reducible apply pilotUpdate_moves | with_reducible apply trkStrobe_moves
    | with_reducible apply Moves.ite | split | (with_reducible refine Moves.snd (by assumption) ?_)
    | (with_reducible refine Moves.fst (by assumption) ?_)

theorem dieStrobe_moves {w : Mem → Bool} {s0 : State} (x0 : Nat) (x1 : Nat → Int) {s : State} (hs : Moves w s0 s) :
    Moves w s0 (dieStrobe x0 x1 s) := by
  unfold dieStrobe
  try dsimp only
  repeat'
    first
    | with_reducible assumption | intro _ | with_reducible apply State.forEach_moves | with_reducible apply axisStrobe_moves
    | with_reducible apply acqSample_moves | with_reducible apply filterRound_moves | with_reducible apply lptSample_moves
    | with_reducible apply bandStrobe_moves | with_reducible apply Moves.ite | split
    | (with_reducible refine Moves.snd (by assumption) ?_) | (with_reducible refine Moves.fst (by assumption) ?_)

theorem safeRefresh_moves {w : Mem → Bool} {s0 : State} (x0 : Nat) {s : State} (hs : Moves w s0 s) :
    Moves w s0 (safeRefresh x0 s) := by
  unfold safeRefresh
  try dsimp only
  repeat'
    first
    | with_reducible assumption | intro _ | with_reducible apply State.modPair_moves | with_reducible apply State.wr_moves
    | with_reducible apply State.holdBalls_moves | with_reducible apply emuShowAll_moves
    | with_reducible apply State.refreshDie_moves | with_reducible apply Moves.ite | split
    | (with_reducible refine Moves.snd (by assumption) ?_) | (with_reducible refine Moves.fst (by assumption) ?_)
    | with_reducible apply Moves.raw

theorem convertStrobe_moves {w : Mem → Bool} {s0 : State} (x0 : List Int) {s : State} (hs : Moves w s0 s) :
    Moves w s0 (convertStrobe x0 s) := by
  unfold convertStrobe
  try dsimp only
  repeat'
    first
    | with_reducible assumption | intro _ | with_reducible apply State.occurs_moves | with_reducible apply State.toNext_moves
    | with_reducible apply State.forEach_moves | with_reducible apply dieStrobe_moves
    | with_reducible apply standbyLegCopy_moves | with_reducible apply safeRefresh_moves | with_reducible apply Moves.ite
    | split | (with_reducible refine Moves.snd (by assumption) ?_) | (with_reducible refine Moves.fst (by assumption) ?_)
    | with_reducible apply Moves.raw

end Sys2Proof.Machine
end

