-- ==== Sys2Proof/Laws/MovesLaw.lean ====
section
/-!
SUPPORT. What each operation of the model does to a state at most (Laws/Moves.lean): the law engine, trace, the stacks and the memory services.
-/

set_option linter.unusedTactic false
set_option linter.unreachableTactic false

namespace Sys2Proof.Machine

theorem State.twinPut_moves {w : Mem → Bool} {s0 : State} {s : State} (x1 : Nat) (x2 : Nat) (hs : Moves w s0 s) :
    Moves w s0 (State.twinPut s x1 x2) := by
  unfold State.twinPut
  try dsimp only
  repeat'
    first
    | with_reducible assumption | intro _ | with_reducible apply State.modTwin_moves | with_reducible apply Moves.ite | split
    | (with_reducible refine Moves.snd (by assumption) ?_) | (with_reducible refine Moves.fst (by assumption) ?_)

theorem State.setSw_moves {w : Mem → Bool} {s0 : State} {s : State} (x1 : Nat) (x2 : Nat) (x3 : Nat) (x4 : Nat) (x5 : Nat) (hs : Moves w
    s0 s) (hwprogmem : w .progmem = true) :
    Moves w s0 (State.setSw s x1 x2 x3 x4 x5) := by
  unfold State.setSw
  try dsimp only
  repeat'
    first
    | with_reducible assumption | intro _ | with_reducible apply State.twinPut_moves | with_reducible apply State.modPm_moves
    | with_reducible apply Moves.ite | split | (with_reducible refine Moves.snd (by assumption) ?_)
    | (with_reducible refine Moves.fst (by assumption) ?_)

theorem State.putMants_moves {w : Mem → Bool} {s0 : State} {s : State} (x1 : Nat) (x2 : Nat) (x3 : Nat) (x4 : Nat) (x5 : Nat) (x6 : List
    Int) (hs : Moves w s0 s) (hwprogmem : w .progmem = true) :
    Moves w s0 (State.putMants s x1 x2 x3 x4 x5 x6) := by
  unfold State.putMants
  try dsimp only
  repeat'
    first
    | with_reducible assumption | intro _ | with_reducible apply State.forEach_moves | with_reducible apply State.setSw_moves
    | with_reducible apply Moves.ite | split | (with_reducible refine Moves.snd (by assumption) ?_)
    | (with_reducible refine Moves.fst (by assumption) ?_)

theorem State.putVec_moves {w : Mem → Bool} {s0 : State} {s : State} (x1 : Nat) (x2 : Nat) (x3 : Nat) (x4 : Nat) (x5 : Nat) (x6 : Vec) (hs
    : Moves w s0 s) (hwprogmem : w .progmem = true) :
    Moves w s0 (State.putVec s x1 x2 x3 x4 x5 x6) := by
  unfold State.putVec
  try dsimp only
  repeat'
    first
    | with_reducible assumption | intro _ | with_reducible apply State.putMants_moves | with_reducible apply State.setSw_moves
    | with_reducible apply Moves.ite | split | (with_reducible refine Moves.snd (by assumption) ?_)
    | (with_reducible refine Moves.fst (by assumption) ?_)

theorem State.lawConfig_moves {w : Mem → Bool} {s0 : State} {s : State} (x1 : Nat) (x2 : Nat) (hs : Moves w s0 s) :
    Moves w s0 (State.lawConfig s x1 x2) := by
  unfold State.lawConfig
  try dsimp only
  repeat'
    first
    | with_reducible assumption | intro _ | with_reducible apply State.raise_moves | with_reducible apply State.modLaw_moves
    | with_reducible apply Moves.ite | split | (with_reducible refine Moves.snd (by assumption) ?_)
    | (with_reducible refine Moves.fst (by assumption) ?_) | with_reducible apply Moves.raw

theorem State.lawOverflow_moves {w : Mem → Bool} {s0 : State} {s : State} (x1 : Nat) (x2 : Nat) (hs : Moves w s0 s) :
    Moves w s0 (State.lawOverflow s x1 x2) := by
  unfold State.lawOverflow
  try dsimp only
  repeat'
    first
    | with_reducible assumption | intro _ | with_reducible apply State.wrBit_moves | with_reducible apply State.raiseAx_moves
    | with_reducible apply State.modLaw_moves | with_reducible apply Moves.ite | split
    | (with_reducible refine Moves.snd (by assumption) ?_) | (with_reducible refine Moves.fst (by assumption) ?_)
    | with_reducible apply Moves.raw

theorem State.putOut_moves {w : Mem → Bool} {s0 : State} {s : State} (x1 : Nat) (x2 : Nat) (x3 : Nat) (x4 : Vec) (hs : Moves w s0 s)
    (hwprogmem : w .progmem = true) :
    Moves w s0 (State.putOut s x1 x2 x3 x4) := by
  unfold State.putOut
  try dsimp only
  repeat'
    first
    | with_reducible assumption | intro _ | with_reducible apply State.putVec_moves
    | with_reducible apply State.lawOverflow_moves | with_reducible apply Moves.ite | split
    | (with_reducible refine Moves.snd (by assumption) ?_) | (with_reducible refine Moves.fst (by assumption) ?_)

theorem State.emit_moves {w : Mem → Bool} {s0 : State} {s : State} (x1 : Nat) (x2 : Nat) (x3 : Nat) (x4 : List Rat) (x5 : Nat) (x6 :
    Bool) (hs : Moves w s0 s) (hwprogmem : w .progmem = true) :
    Moves w s0 (State.emit s x1 x2 x3 x4 x5 x6) := by
  unfold State.emit
  try dsimp only
  repeat'
    first
    | with_reducible assumption | intro _ | with_reducible apply State.putOut_moves | with_reducible apply Moves.ite | split
    | (with_reducible refine Moves.snd (by assumption) ?_) | (with_reducible refine Moves.fst (by assumption) ?_)
    | with_reducible apply Moves.raw

theorem State.coef_moves {w : Mem → Bool} {s0 : State} {s : State} (x1 : Nat) (x2 : Nat) (x3 : Nat) (x4 : Nat) (hs : Moves w s0 s) :
    Moves w s0 (State.coef s x1 x2 x3 x4).2 := by
  unfold State.coef
  try dsimp only
  repeat'
    first
    | with_reducible assumption | intro _ | with_reducible apply State.lawConfig_moves | with_reducible apply Moves.ite | split
    | (with_reducible refine Moves.snd (by assumption) ?_) | (with_reducible refine Moves.fst (by assumption) ?_)

theorem extPut_moves {w : Mem → Bool} {s0 : State} (x0 : Nat) (x1 : Nat) (x2 : Nat) (x3 : List Rat) {s : State} (hs : Moves w s0 s)
    (hwprogmem : w .progmem = true) :
    Moves w s0 (extPut x0 x1 x2 x3 s).2 := by
  unfold extPut
  try dsimp only
  repeat'
    first
    | with_reducible assumption | intro _ | with_reducible apply State.setSw_moves | with_reducible apply State.near_moves
    | with_reducible apply Moves.foldl | (with_reducible refine Moves.foldlBy Prod.snd ?_ ?_)
    | (with_reducible refine Moves.foldlBy Prod.fst ?_ ?_) | (with_reducible refine Moves.foldlBy WordRun.s ?_ ?_)
    | with_reducible apply Moves.ite | split | (with_reducible refine Moves.snd (by assumption) ?_)
    | (with_reducible refine Moves.fst (by assumption) ?_)

theorem State.fuzz_moves {w : Mem → Bool} {s0 : State} {s : State} (x1 : Rat) (hs : Moves w s0 s) :
    Moves w s0 (State.fuzz s x1).2 := by
  unfold State.fuzz
  try dsimp only
  repeat'
    first
    | with_reducible assumption | intro _ | with_reducible apply State.drew_moves | with_reducible apply Moves.ite | split
    | (with_reducible refine Moves.snd (by assumption) ?_) | (with_reducible refine Moves.fst (by assumption) ?_)

theorem State.fuzzAll_moves {w : Mem → Bool} {s0 s : State} (l : List ℚ) (h : Moves w s0 s) : Moves w s0 (s.fuzzAll l).2 := by
  unfold State.fuzzAll
  refine Moves.foldlBy Prod.snd h fun p r hp => ?_
  exact State.fuzz_moves _ hp

theorem angleFrac_moves {w : Mem → Bool} {s0 : State} (x0 : Nat) (x1 : Nat) (x2 : Int) {s : State} (hs : Moves w s0 s) :
    Moves w s0 (angleFrac x0 x1 x2 s).2 := by
  unfold angleFrac
  try dsimp only
  repeat'
    first
    | with_reducible assumption | intro _ | with_reducible apply angleAt_moves | with_reducible apply Moves.ite | split
    | (with_reducible refine Moves.snd (by assumption) ?_) | (with_reducible refine Moves.fst (by assumption) ?_)

theorem mechPos_moves {w : Mem → Bool} {s0 : State} (x0 : Nat) (x1 : Nat) (x2 : Int) {s : State} (hs : Moves w s0 s) :
    Moves w s0 (mechPos x0 x1 x2 s).2 := by
  unfold mechPos
  try dsimp only
  repeat'
    first
    | with_reducible assumption | intro _ | with_reducible apply angleAt_moves | with_reducible apply Moves.ite | split
    | (with_reducible refine Moves.snd (by assumption) ?_) | (with_reducible refine Moves.fst (by assumption) ?_)

theorem mechFrac_moves {w : Mem → Bool} {s0 : State} (x0 : Nat) (x1 : Nat) (x2 : Int) {s : State} (hs : Moves w s0 s) :
    Moves w s0 (mechFrac x0 x1 x2 s).2 := by
  unfold mechFrac
  try dsimp only
  repeat'
    first
    | with_reducible assumption | intro _ | with_reducible apply mechPos_moves | with_reducible apply Moves.ite | split
    | (with_reducible refine Moves.snd (by assumption) ?_) | (with_reducible refine Moves.fst (by assumption) ?_)

theorem chanAngle_moves {w : Mem → Bool} {s0 : State} (x0 : Nat) (x1 : Nat) (x2 : Int) {s : State} (hs : Moves w s0 s) :
    Moves w s0 (chanAngle x0 x1 x2 s).2 := by
  unfold chanAngle
  try dsimp only
  repeat'
    first
    | with_reducible assumption | intro _ | with_reducible apply State.drew_moves | with_reducible apply State.near_moves
    | with_reducible apply Moves.ite | split | (with_reducible refine Moves.snd (by assumption) ?_)
    | (with_reducible refine Moves.fst (by assumption) ?_)

theorem tableIndexAt_moves {w : Mem → Bool} {s0 : State} (x0 : Nat) (x1 : Nat) (x2 : Nat) (x3 : Int) {s : State} (hs : Moves w s0 s) :
    Moves w s0 (tableIndexAt x0 x1 x2 x3 s).2 := by
  unfold tableIndexAt
  try dsimp only
  repeat'
    first
    | with_reducible assumption | intro _ | with_reducible apply mechFrac_moves | with_reducible apply angleFrac_moves
    | with_reducible apply Moves.ite | split | (with_reducible refine Moves.snd (by assumption) ?_)
    | (with_reducible refine Moves.fst (by assumption) ?_)

theorem srcSample_moves {w : Mem → Bool} {s0 : State} (x0 : Nat) (x1 : Nat) (x2 : Nat) {s : State} (hs : Moves w s0 s) (hwprogmem : w
    .progmem = true) :
    Moves w s0 (srcSample x0 x1 x2 s).2 := by
  unfold srcSample
  try dsimp only
  repeat'
    first
    | with_reducible assumption | intro _ | with_reducible apply State.coef_moves | with_reducible apply angleFrac_moves
    | with_reducible apply mechFrac_moves | with_reducible apply encSpeedNow_moves | with_reducible apply State.setSw_moves
    | with_reducible apply chanAngle_moves | with_reducible apply Moves.foldl
    | (with_reducible refine Moves.foldlBy Prod.snd ?_ ?_) | (with_reducible refine Moves.foldlBy Prod.fst ?_ ?_)
    | (with_reducible refine Moves.foldlBy WordRun.s ?_ ?_) | with_reducible apply Moves.ite | split
    | (with_reducible refine Moves.snd (by assumption) ?_) | (with_reducible refine Moves.fst (by assumption) ?_)

theorem opSrc_moves {w : Mem → Bool} {s0 : State} (x0 : Nat) (x1 : Nat) (x2 : Nat) {s : State} (hs : Moves w s0 s) (hwprogmem : w
    .progmem = true) :
    Moves w s0 (opSrc x0 x1 x2 s) := by
  unfold opSrc
  try dsimp only
  repeat'
    first
    | with_reducible assumption | intro _ | with_reducible apply srcSample_moves | with_reducible apply State.putOut_moves
    | with_reducible apply State.putVec_moves | with_reducible apply Moves.ite | split
    | (with_reducible refine Moves.snd (by assumption) ?_) | (with_reducible refine Moves.fst (by assumption) ?_)

theorem opXfm_moves {w : Mem → Bool} {s0 : State} (x0 : Nat) (x1 : Nat) (x2 : Nat) {s : State} (hs : Moves w s0 s) (hwprogmem : w
    .progmem = true) :
    Moves w s0 (opXfm x0 x1 x2 s) := by
  unfold opXfm
  try dsimp only
  repeat'
    first
    | with_reducible assumption | intro _ | with_reducible apply State.fuzzAll_moves | with_reducible apply State.emit_moves
    | with_reducible apply Moves.ite | split | (with_reducible refine Moves.snd (by assumption) ?_)
    | (with_reducible refine Moves.fst (by assumption) ?_)

theorem opRamp_moves {w : Mem → Bool} {s0 : State} (x0 : Nat) (x1 : Nat) (x2 : Nat) {s : State} (hs : Moves w s0 s) (hwprogmem : w
    .progmem = true) :
    Moves w s0 (opRamp x0 x1 x2 s) := by
  unfold opRamp
  try dsimp only
  repeat'
    first
    | with_reducible assumption | intro _ | with_reducible apply State.coef_moves | with_reducible apply extPut_moves
    | with_reducible apply State.emit_moves | with_reducible apply Moves.ite | split
    | (with_reducible refine Moves.snd (by assumption) ?_) | (with_reducible refine Moves.fst (by assumption) ?_)

theorem opPi_moves {w : Mem → Bool} {s0 : State} (x0 : Nat) (x1 : Nat) (x2 : Nat) {s : State} (hs : Moves w s0 s) (hwprogmem : w
    .progmem = true) :
    Moves w s0 (opPi x0 x1 x2 s) := by
  unfold opPi
  try dsimp only
  repeat'
    first
    | with_reducible assumption | intro _ | with_reducible apply State.coef_moves | with_reducible apply extPut_moves
    | with_reducible apply State.setSw_moves | with_reducible apply State.modLaw_moves | with_reducible apply State.emit_moves
    | with_reducible apply Moves.foldl | (with_reducible refine Moves.foldlBy Prod.snd ?_ ?_)
    | (with_reducible refine Moves.foldlBy Prod.fst ?_ ?_) | (with_reducible refine Moves.foldlBy WordRun.s ?_ ?_)
    | with_reducible apply Moves.ite | split | (with_reducible refine Moves.snd (by assumption) ?_)
    | (with_reducible refine Moves.fst (by assumption) ?_) | with_reducible apply Moves.raw

theorem putShort_moves {w : Mem → Bool} {s0 : State} (x0 : Nat) (x1 : Nat) (x2 : Nat) (x3 : Nat) (x4 : Vec) {s : State} (hs : Moves w s0
    s) (hwprogmem : w .progmem = true) :
    Moves w s0 (putShort x0 x1 x2 x3 x4 s) := by
  unfold putShort
  try dsimp only
  repeat'
    first
    | with_reducible assumption | intro _ | with_reducible apply State.setSw_moves | with_reducible apply State.putMants_moves
    | with_reducible apply Moves.ite | split | (with_reducible refine Moves.snd (by assumption) ?_)
    | (with_reducible refine Moves.fst (by assumption) ?_)

theorem selHandover_moves {w : Mem → Bool} {s0 : State} (x0 : Nat) (x1 : Nat) (x2 : Nat) (x3 : Nat) (x4 : Nat) (x5 : Nat → Rat) {s : State}
    (hs : Moves w s0 s) (hwprogmem : w .progmem = true) :
    Moves w s0 (selHandover x0 x1 x2 x3 x4 x5 s).2.2 := by
  unfold selHandover
  try dsimp only
  repeat'
    first
    | with_reducible assumption | intro _ | with_reducible apply extPut_moves | with_reducible apply State.setSw_moves
    | with_reducible apply State.lawOverflow_moves | with_reducible apply Moves.ite | split
    | (with_reducible refine Moves.snd (by assumption) ?_) | (with_reducible refine Moves.fst (by assumption) ?_)

theorem opSel_moves {w : Mem → Bool} {s0 : State} (x0 : Nat) (x1 : Nat) (x2 : Nat) {s : State} (hs : Moves w s0 s) (hwprogmem : w
    .progmem = true) :
    Moves w s0 (opSel x0 x1 x2 s) := by
  unfold opSel
  try dsimp only
  repeat'
    first
    | with_reducible assumption | intro _ | with_reducible apply State.lawConfig_moves | with_reducible apply State.putOut_moves
    | with_reducible apply putShort_moves | with_reducible apply State.setSw_moves | with_reducible apply selHandover_moves
    | with_reducible apply State.raiseAx_moves | with_reducible apply Moves.ite | split
    | (with_reducible refine Moves.snd (by assumption) ?_) | (with_reducible refine Moves.fst (by assumption) ?_)

theorem opFf_moves {w : Mem → Bool} {s0 : State} (x0 : Nat) (x1 : Nat) (x2 : Nat) {s : State} (hs : Moves w s0 s) (hwprogmem : w
    .progmem = true) :
    Moves w s0 (opFf x0 x1 x2 s) := by
  unfold opFf
  try dsimp only
  repeat'
    first
    | with_reducible assumption | intro _ | with_reducible apply State.coef_moves | with_reducible apply State.emit_moves
    | with_reducible apply State.putOut_moves | with_reducible apply State.fuzzAll_moves | with_reducible apply Moves.ite
    | split | (with_reducible refine Moves.snd (by assumption) ?_) | (with_reducible refine Moves.fst (by assumption) ?_)

theorem opRep_moves {w : Mem → Bool} {s0 : State} (x0 : Nat) (x1 : Nat) (x2 : Nat) (x3 : Nat) (x4 : Bool) {s : State} (hs : Moves w s0
    s) (hwprogmem : w .progmem = true) :
    Moves w s0 (opRep x0 x1 x2 x3 x4 s) := by
  unfold opRep
  try dsimp only
  repeat'
    first
    | with_reducible assumption | intro _ | with_reducible apply tableIndexAt_moves | with_reducible apply repRead_moves
    | with_reducible apply repLearn_moves | with_reducible apply State.wr_moves | with_reducible apply State.emit_moves
    | with_reducible apply Moves.ite | split | (with_reducible refine Moves.snd (by assumption) ?_)
    | (with_reducible refine Moves.fst (by assumption) ?_)

theorem opLim_moves {w : Mem → Bool} {s0 : State} (x0 : Nat) (x1 : Nat) (x2 : Nat) {s : State} (hs : Moves w s0 s) (hwprogmem : w
    .progmem = true) :
    Moves w s0 (opLim x0 x1 x2 s) := by
  unfold opLim
  try dsimp only
  repeat'
    first
    | with_reducible assumption | intro _ | with_reducible apply State.coef_moves | with_reducible apply State.emit_moves
    | with_reducible apply Moves.foldl | (with_reducible refine Moves.foldlBy Prod.snd ?_ ?_)
    | (with_reducible refine Moves.foldlBy Prod.fst ?_ ?_) | (with_reducible refine Moves.foldlBy WordRun.s ?_ ?_)
    | with_reducible apply Moves.ite | split | (with_reducible refine Moves.snd (by assumption) ?_)
    | (with_reducible refine Moves.fst (by assumption) ?_)

theorem opSum_moves {w : Mem → Bool} {s0 : State} (d n k : Nat) {s : State} (h : Moves w s0 s) (hw : w .progmem = true) :
    Moves w s0 (opSum d n k s) := by
  unfold opSum
  refine State.emit_moves _ _ _ _ _ _ (Moves.foldlBy (fun (p : List ℚ × Nat × State) => p.2.2) h fun p q hp => ?_) hw
  dsimp only
  split
  · exact hp
  · exact State.coef_moves _ _ _ _ hp

theorem opMul_moves {w : Mem → Bool} {s0 : State} (x0 : Nat) (x1 : Nat) (x2 : Nat) {s : State} (hs : Moves w s0 s) (hwprogmem : w
    .progmem = true) :
    Moves w s0 (opMul x0 x1 x2 s) := by
  unfold opMul
  try dsimp only
  repeat'
    first
    | with_reducible assumption | intro _ | with_reducible apply State.coef_moves | with_reducible apply State.emit_moves
    | with_reducible apply Moves.ite | split | (with_reducible refine Moves.snd (by assumption) ?_)
    | (with_reducible refine Moves.fst (by assumption) ?_)

theorem opHyst_moves {w : Mem → Bool} {s0 : State} (x0 : Nat) (x1 : Nat) (x2 : Nat) {s : State} (hs : Moves w s0 s) (hwprogmem : w
    .progmem = true) :
    Moves w s0 (opHyst x0 x1 x2 s) := by
  unfold opHyst
  try dsimp only
  repeat'
    first
    | with_reducible assumption | intro _ | with_reducible apply State.coef_moves | with_reducible apply State.putOut_moves
    | with_reducible apply Moves.ite | split | (with_reducible refine Moves.snd (by assumption) ?_)
    | (with_reducible refine Moves.fst (by assumption) ?_)

theorem outArrival_moves {w : Mem → Bool} {s0 : State} (x0 : Nat) (x1 : Nat) (x2 : Nat) {s : State} (hs : Moves w s0 s) :
    Moves w s0 (outArrival x0 x1 x2 s).2 := by
  unfold outArrival
  try dsimp only
  repeat'
    first
    | with_reducible assumption | intro _ | with_reducible apply State.drew_moves | with_reducible apply Moves.ite | split
    | (with_reducible refine Moves.snd (by assumption) ?_) | (with_reducible refine Moves.fst (by assumption) ?_)

theorem opOut_moves {w : Mem → Bool} {s0 : State} (x0 : Nat) (x1 : Nat) (x2 : Nat) (x3 : Bool) {s : State} (hs : Moves w s0 s)
    (hwprogmem : w .progmem = true) :
    Moves w s0 (opOut x0 x1 x2 x3 s) := by
  unfold opOut
  try dsimp only
  repeat'
    first
    | with_reducible assumption | intro _ | with_reducible apply State.coef_moves | with_reducible apply State.emit_moves
    | with_reducible apply outArrival_moves | with_reducible apply pwmLate_moves | with_reducible apply State.forEach_moves
    | with_reducible apply dutyWrite_moves | with_reducible apply State.putOut_moves | with_reducible apply standbyHbCopy_moves
    | with_reducible apply bandWrite_moves | with_reducible apply State.modLaw_moves | with_reducible apply Moves.ite | split
    | (with_reducible refine Moves.snd (by assumption) ?_) | (with_reducible refine Moves.fst (by assumption) ?_)
    | with_reducible apply Moves.raw

theorem opRelay_moves {w : Mem → Bool} {s0 : State} (x0 : Nat) (x1 : Nat) (x2 : Nat) {s : State} (hs : Moves w s0 s) (hwprogmem : w
    .progmem = true) :
    Moves w s0 (opRelay x0 x1 x2 s) := by
  unfold opRelay
  try dsimp only
  repeat'
    first
    | with_reducible assumption | intro _ | with_reducible apply State.coef_moves | with_reducible apply State.setSw_moves
    | with_reducible apply State.emit_moves | with_reducible apply Moves.ite | split
    | (with_reducible refine Moves.snd (by assumption) ?_) | (with_reducible refine Moves.fst (by assumption) ?_)

theorem opTap_moves {w : Mem → Bool} {s0 : State} (x0 : Nat) (x1 : Nat) (x2 : Nat) {s : State} (hs : Moves w s0 s) (hwprogmem : w
    .progmem = true) :
    Moves w s0 (opTap x0 x1 x2 s) := by
  unfold opTap
  try dsimp only
  repeat'
    first
    | with_reducible assumption | intro _ | with_reducible apply State.putOut_moves | with_reducible apply Moves.ite | split
    | (with_reducible refine Moves.snd (by assumption) ?_) | (with_reducible refine Moves.fst (by assumption) ?_)

theorem opNop_moves {w : Mem → Bool} {s0 : State} (x0 : Nat) (x1 : Nat) (x2 : Nat) {s : State} (hs : Moves w s0 s) (hwprogmem : w
    .progmem = true) :
    Moves w s0 (opNop x0 x1 x2 s) := by
  unfold opNop
  try dsimp only
  repeat'
    first
    | with_reducible assumption | intro _ | with_reducible apply State.putVec_moves | with_reducible apply Moves.ite | split
    | (with_reducible refine Moves.snd (by assumption) ?_) | (with_reducible refine Moves.fst (by assumption) ?_)
    | with_reducible apply Moves.raw

theorem evalSlot_moves {w : Mem → Bool} {s0 : State} (x0 : Nat) (x1 : Nat) (x2 : Nat) (x3 : Nat) (x4 : Bool) {s : State} (hs : Moves w
    s0 s) (hwprogmem : w .progmem = true) :
    Moves w s0 (evalSlot x0 x1 x2 x3 x4 s) := by
  unfold evalSlot
  try dsimp only
  repeat'
    first
    | with_reducible assumption | intro _ | with_reducible apply opSrc_moves | with_reducible apply opXfm_moves
    | with_reducible apply opRamp_moves | with_reducible apply opPi_moves | with_reducible apply opHyst_moves
    | with_reducible apply opFf_moves | with_reducible apply opRep_moves | with_reducible apply opLim_moves
    | with_reducible apply opSum_moves | with_reducible apply opMul_moves | with_reducible apply opSel_moves
    | with_reducible apply opOut_moves | with_reducible apply opRelay_moves | with_reducible apply opTap_moves
    | with_reducible apply opNop_moves | with_reducible apply Moves.ite | split
    | (with_reducible refine Moves.snd (by assumption) ?_) | (with_reducible refine Moves.fst (by assumption) ?_)

theorem showLoad_moves {w : Mem → Bool} {s0 : State} (x0 : Nat) {s : State} (hs : Moves w s0 s) :
    Moves w s0 (showLoad x0 s) := by
  unfold showLoad
  try dsimp only
  repeat'
    first
    | with_reducible assumption | intro _ | with_reducible apply State.wr_moves | with_reducible apply Moves.ite | split
    | (with_reducible refine Moves.snd (by assumption) ?_) | (with_reducible refine Moves.fst (by assumption) ?_)

theorem flushWrites_moves {w : Mem → Bool} {s0 : State} (x0 : Nat) (x1 : Nat) (x2 : Option Nat) {s : State} (hs : Moves w s0 s)
    (hwprogmem : w .progmem = true) :
    Moves w s0 (flushWrites x0 x1 x2 s) := by
  unfold flushWrites
  try dsimp only
  repeat'
    first
    | with_reducible assumption | intro _ | with_reducible apply State.modPm_moves | with_reducible apply State.modLaw_moves
    | with_reducible apply Moves.foldl | (with_reducible refine Moves.foldlBy Prod.snd ?_ ?_)
    | (with_reducible refine Moves.foldlBy Prod.fst ?_ ?_) | (with_reducible refine Moves.foldlBy WordRun.s ?_ ?_)
    | with_reducible apply Moves.ite | split | (with_reducible refine Moves.snd (by assumption) ?_)
    | (with_reducible refine Moves.fst (by assumption) ?_) | with_reducible apply Moves.raw

theorem fadeStop_moves {w : Mem → Bool} {s0 : State} (x0 : Nat) (x1 : Nat) {s : State} (hs : Moves w s0 s) :
    Moves w s0 (fadeStop x0 x1 s) := by
  unfold fadeStop
  try dsimp only
  repeat'
    first
    | with_reducible assumption | intro _ | with_reducible apply State.wr_moves | with_reducible apply State.modLaw_moves
    | with_reducible apply Moves.ite | split | (with_reducible refine Moves.snd (by assumption) ?_)
    | (with_reducible refine Moves.fst (by assumption) ?_) | with_reducible apply Moves.raw

theorem tuneFail_moves {w : Mem → Bool} {s0 : State} (x0 : Nat) (x1 : Nat) (x2 : Nat) {s : State} (hs : Moves w s0 s) :
    Moves w s0 (tuneFail x0 x1 x2 s) := by
  unfold tuneFail
  try dsimp only
  repeat'
    first
    | with_reducible assumption | intro _ | with_reducible apply State.raiseAx_moves | with_reducible apply State.wr_moves
    | with_reducible apply Moves.ite | split | (with_reducible refine Moves.snd (by assumption) ?_)
    | (with_reducible refine Moves.fst (by assumption) ?_)

theorem lawStopped_moves {w : Mem → Bool} {s0 : State} (x0 : Nat) (x1 : Nat) {s : State} (hs : Moves w s0 s) (hwprogmem : w .progmem
    = true) :
    Moves w s0 (lawStopped x0 x1 s) := by
  unfold lawStopped
  try dsimp only
  repeat'
    first
    | with_reducible assumption | intro _ | with_reducible apply tuneFail_moves | with_reducible apply flushWrites_moves
    | with_reducible apply fadeStop_moves | with_reducible apply State.wr_moves | with_reducible apply State.modLaw_moves
    | with_reducible apply Moves.ite | split | (with_reducible refine Moves.snd (by assumption) ?_)
    | (with_reducible refine Moves.fst (by assumption) ?_) | with_reducible apply Moves.raw

theorem lawHalt_moves {w : Mem → Bool} {s0 : State} (x0 : Nat) (x1 : Nat) {s : State} (hs : Moves w s0 s) (hwprogmem : w .progmem =
    true) :
    Moves w s0 (lawHalt x0 x1 s) := by
  unfold lawHalt
  try dsimp only
  repeat'
    first
    | with_reducible assumption | intro _ | with_reducible apply lawStopped_moves | with_reducible apply showLoad_moves
    | with_reducible apply State.wr_moves | with_reducible apply Moves.ite | split
    | (with_reducible refine Moves.snd (by assumption) ?_) | (with_reducible refine Moves.fst (by assumption) ?_)

theorem lawCtrlWrite_moves {w : Mem → Bool} {s0 : State} (x0 : Nat) (x1 : Word) (x2 : Nat) (x3 : Nat) {s : State} (hs : Moves w s0 s)
    (hwprogmem : w .progmem = true) :
    Moves w s0 (lawCtrlWrite x0 x1 x2 x3 s) := by
  unfold lawCtrlWrite
  try dsimp only
  repeat'
    first
    | with_reducible assumption | intro _ | with_reducible apply State.raise_moves | with_reducible apply State.wr_moves
    | with_reducible apply showLoad_moves | with_reducible apply State.modLaw_moves | with_reducible apply lawHalt_moves
    | with_reducible apply Moves.ite | split | (with_reducible refine Moves.snd (by assumption) ?_)
    | (with_reducible refine Moves.fst (by assumption) ?_) | with_reducible apply Moves.raw

theorem lawSchedWrite_moves {w : Mem → Bool} {s0 : State} (x0 : Nat) (x1 : Word) (x2 : Nat) {s : State} (hs : Moves w s0 s) :
    Moves w s0 (lawSchedWrite x0 x1 x2 s) := by
  unfold lawSchedWrite
  try dsimp only
  repeat'
    first
    | with_reducible assumption | intro _ | with_reducible apply State.raise_moves | with_reducible apply State.wr_moves
    | with_reducible apply Moves.ite | split | (with_reducible refine Moves.snd (by assumption) ?_)
    | (with_reducible refine Moves.fst (by assumption) ?_)

theorem lawRelease_moves {w : Mem → Bool} {s0 : State} (x0 : Nat) (x1 : Nat) {s : State} (hs : Moves w s0 s) :
    Moves w s0 (lawRelease x0 x1 s) := by
  unfold lawRelease
  try dsimp only
  repeat'
    first
    | with_reducible assumption | intro _ | with_reducible apply State.occurs_moves | with_reducible apply State.pass_moves
    | with_reducible apply State.wr_moves | with_reducible apply State.modLaw_moves | with_reducible apply State.raiseAx_moves
    | with_reducible apply State.wrBit_moves | with_reducible apply State.addSat_moves | with_reducible apply Moves.ite | split
    | (with_reducible refine Moves.snd (by assumption) ?_) | (with_reducible refine Moves.fst (by assumption) ?_)
    | with_reducible apply Moves.raw

theorem bankTake_moves {w : Mem → Bool} {s0 : State} (x0 : Nat) (x1 : Nat) (x2 : Nat) (x3 : Nat) (x4 : Nat) {s : State} (hs : Moves w s0
    s) :
    Moves w s0 (bankTake x0 x1 x2 x3 x4 s) := by
  unfold bankTake
  try dsimp only
  repeat'
    first
    | with_reducible assumption | intro _ | with_reducible apply State.wr_moves | with_reducible apply State.modLaw_moves
    | with_reducible apply Moves.ite | split | (with_reducible refine Moves.snd (by assumption) ?_)
    | (with_reducible refine Moves.fst (by assumption) ?_) | with_reducible apply Moves.raw

theorem lawBankWrite_moves {w : Mem → Bool} {s0 : State} (x0 : Nat) (x1 : Word) (x2 : Nat) {s : State} (hs : Moves w s0 s) :
    Moves w s0 (lawBankWrite x0 x1 x2 s) := by
  unfold lawBankWrite
  try dsimp only
  repeat'
    first
    | with_reducible assumption | intro _ | with_reducible apply State.wr_moves | with_reducible apply bankTake_moves
    | with_reducible apply Moves.ite | split | (with_reducible refine Moves.snd (by assumption) ?_)
    | (with_reducible refine Moves.fst (by assumption) ?_)

theorem bankShared_moves {w : Mem → Bool} {s0 : State} (x0 : Nat) (x1 : Word) (x2 : Nat) {s : State} (hs : Moves w s0 s) :
    Moves w s0 (bankShared x0 x1 x2 s) := by
  unfold bankShared
  try dsimp only
  repeat'
    first
    | with_reducible assumption | intro _ | with_reducible apply lawBankWrite_moves | with_reducible apply State.modLaw_moves
    | with_reducible apply Moves.ite | split | (with_reducible refine Moves.snd (by assumption) ?_)
    | (with_reducible refine Moves.fst (by assumption) ?_) | with_reducible apply Moves.raw

theorem bankFollow_moves {w : Mem → Bool} {s0 : State} (x0 : Nat) (x1 : Word) (x2 : Nat) {s : State} (hs : Moves w s0 s) :
    Moves w s0 (bankFollow x0 x1 x2 s) := by
  unfold bankFollow
  try dsimp only
  repeat'
    first
    | with_reducible assumption | intro _ | with_reducible apply lawBankWrite_moves | with_reducible apply State.modLaw_moves
    | with_reducible apply Moves.ite | split | (with_reducible refine Moves.snd (by assumption) ?_)
    | (with_reducible refine Moves.fst (by assumption) ?_) | with_reducible apply Moves.raw

theorem bankQueued_moves {w : Mem → Bool} {s0 : State} (x0 : Nat) (x1 : Nat) (x2 : Nat) {s : State} (hs : Moves w s0 s) :
    Moves w s0 (bankQueued x0 x1 x2 s) := by
  unfold bankQueued
  try dsimp only
  repeat'
    first
    | with_reducible assumption | intro _ | with_reducible apply bankTake_moves | with_reducible apply State.wr_moves
    | with_reducible apply Moves.ite | split | (with_reducible refine Moves.snd (by assumption) ?_)
    | (with_reducible refine Moves.fst (by assumption) ?_)

theorem progApply_moves {w : Mem → Bool} {s0 : State} (x0 : Nat) (x1 : Word) (x2 : Nat) (x3 : Nat) {s : State} (hs : Moves w s0 s)
    (hwprogmem : w .progmem = true) :
    Moves w s0 (progApply x0 x1 x2 x3 s) := by
  unfold progApply
  try dsimp only
  repeat'
    first
    | with_reducible assumption | intro _ | with_reducible apply State.modLaw_moves | with_reducible apply State.modPm_moves
    | with_reducible apply State.twinPut_moves | with_reducible apply Moves.ite | split
    | (with_reducible refine Moves.snd (by assumption) ?_) | (with_reducible refine Moves.fst (by assumption) ?_)
    | with_reducible apply Moves.raw

theorem progWrite_moves {w : Mem → Bool} {s0 : State} (x0 : Nat) (x1 : Nat) (x2 : Nat) (x3 : Word) {s : State} (hs : Moves w s0 s)
    (hwprogmem : w .progmem = true) :
    Moves w s0 (progWrite x0 x1 x2 x3 s) := by
  unfold progWrite
  try dsimp only
  repeat'
    first
    | with_reducible assumption | intro _ | with_reducible apply State.accessFault_moves
    | with_reducible apply State.raise_moves | with_reducible apply State.modFwd_moves | with_reducible apply progApply_moves
    | with_reducible apply Moves.ite | split | (with_reducible refine Moves.snd (by assumption) ?_)
    | (with_reducible refine Moves.fst (by assumption) ?_)

theorem progRead_moves {w : Mem → Bool} {s0 : State} (x0 : Nat) (x1 : Nat) (x2 : Nat) {s : State} (hs : Moves w s0 s) :
    Moves w s0 (progRead x0 x1 x2 s) := by
  unfold progRead
  try dsimp only
  repeat'
    first
    | with_reducible assumption | intro _ | with_reducible apply State.accessFault_moves
    | with_reducible apply State.answer_moves | with_reducible apply State.forEach_moves | with_reducible apply Moves.ite
    | split | (with_reducible refine Moves.snd (by assumption) ?_) | (with_reducible refine Moves.fst (by assumption) ?_)
    | with_reducible apply Moves.raw

theorem progEcc_moves {w : Mem → Bool} {s0 : State} (x0 : Nat) (x1 : Nat) (x2 : Nat) {s : State} (hs : Moves w s0 s) :
    Moves w s0 (progEcc x0 x1 x2 s) := by
  unfold progEcc
  try dsimp only
  repeat'
    first
    | with_reducible assumption | intro _ | with_reducible apply State.inject_moves | with_reducible apply State.raise_moves
    | with_reducible apply Moves.ite | split | (with_reducible refine Moves.snd (by assumption) ?_)
    | (with_reducible refine Moves.fst (by assumption) ?_)

theorem stealCycles_moves {w : Mem → Bool} {s0 : State} (x0 : Nat) {s : State} (hs : Moves w s0 s) :
    Moves w s0 (stealCycles x0 s) := by
  unfold stealCycles
  try dsimp only
  repeat'
    first
    | with_reducible assumption | intro _ | with_reducible apply State.modLawDie_moves
    | with_reducible apply State.forEach_moves | with_reducible apply State.modLaw_moves | with_reducible apply Moves.ite
    | split | (with_reducible refine Moves.snd (by assumption) ?_) | (with_reducible refine Moves.fst (by assumption) ?_)
    | with_reducible apply Moves.raw

theorem progmemAccess_moves {w : Mem → Bool} {s0 : State} (x0 : Nat) (x1 : Nat) (x2 : Nat) (x3 : Bool) (x4 : Word) (x5 : Bool) (x6 :
    Nat) {s : State} (hs : Moves w s0 s) (hwprogmem : w .progmem = true) :
    Moves w s0 (progmemAccess x0 x1 x2 x3 x4 x5 x6 s) := by
  unfold progmemAccess
  try dsimp only
  repeat'
    first
    | with_reducible assumption | intro _ | with_reducible apply stealCycles_moves | with_reducible apply progWrite_moves
    | with_reducible apply progRead_moves | with_reducible apply progEcc_moves | with_reducible apply Moves.ite | split
    | (with_reducible refine Moves.snd (by assumption) ?_) | (with_reducible refine Moves.fst (by assumption) ?_)

theorem tuneCtrlWrite_moves {w : Mem → Bool} {s0 : State} (x0 : Nat) (x1 : Word) (x2 : Nat) {s : State} (hs : Moves w s0 s) :
    Moves w s0 (tuneCtrlWrite x0 x1 x2 s) := by
  unfold tuneCtrlWrite
  try dsimp only
  repeat'
    first
    | with_reducible assumption | intro _ | with_reducible apply State.wr_moves | with_reducible apply tuneFail_moves
    | with_reducible apply State.raiseAx_moves | with_reducible apply State.modTune_moves | with_reducible apply Moves.ite
    | split | (with_reducible refine Moves.snd (by assumption) ?_) | (with_reducible refine Moves.fst (by assumption) ?_)

theorem tuneTimeout_moves {w : Mem → Bool} {s0 : State} (x0 : Nat) (x1 : Nat) {s : State} (hs : Moves w s0 s) :
    Moves w s0 (tuneTimeout x0 x1 s) := by
  unfold tuneTimeout
  try dsimp only
  repeat'
    first
    | with_reducible assumption | intro _ | with_reducible apply tuneFail_moves | with_reducible apply State.pass_moves
    | with_reducible apply Moves.ite | split | (with_reducible refine Moves.snd (by assumption) ?_)
    | (with_reducible refine Moves.fst (by assumption) ?_)

theorem tuneDone_moves {w : Mem → Bool} {s0 : State} (x0 : Nat) (x1 : Nat) (x2 : Nat) (x3 : Rat) (x4 : Rat) (x5 : Rat) {s : State} (hs :
    Moves w s0 s) (hwprogmem : w .progmem = true) :
    Moves w s0 (tuneDone x0 x1 x2 x3 x4 x5 s) := by
  unfold tuneDone
  try dsimp only
  repeat'
    first
    | with_reducible assumption | intro _ | with_reducible apply State.fuzz_moves | with_reducible apply State.wr_moves
    | with_reducible apply progWrite_moves | with_reducible apply State.raiseAx_moves | with_reducible apply Moves.ite | split
    | (with_reducible refine Moves.snd (by assumption) ?_) | (with_reducible refine Moves.fst (by assumption) ?_)

theorem tuneStep_moves {w : Mem → Bool} {s0 : State} (x0 : Nat) (x1 : Nat) {s : State} (hs : Moves w s0 s) (hwprogmem : w .progmem =
    true) :
    Moves w s0 (tuneStep x0 x1 s) := by
  unfold tuneStep
  try dsimp only
  repeat'
    first
    | with_reducible assumption | intro _ | with_reducible apply State.modTune_moves | with_reducible apply State.addSat_moves
    | with_reducible apply tuneFail_moves | with_reducible apply State.coef_moves | with_reducible apply tuneDone_moves
    | with_reducible apply State.wr_moves | with_reducible apply Moves.ite | split
    | (with_reducible refine Moves.snd (by assumption) ?_) | (with_reducible refine Moves.fst (by assumption) ?_)
    | with_reducible apply Moves.raw

theorem trcTrigger_moves {w : Mem → Bool} {s0 : State} (x0 : Nat) (x1 : Bool) {s : State} (hs : Moves w s0 s) :
    Moves w s0 (trcTrigger x0 x1 s) := by
  unfold trcTrigger
  try dsimp only
  repeat'
    first
    | with_reducible assumption | intro _ | with_reducible apply State.wr_moves | with_reducible apply State.modTrc_moves
    | with_reducible apply Moves.ite | split | (with_reducible refine Moves.snd (by assumption) ?_)
    | (with_reducible refine Moves.fst (by assumption) ?_) | with_reducible apply Moves.raw

theorem trcDrop_moves {w : Mem → Bool} {s0 : State} (x0 : Nat) (x1 : Nat) {s : State} (hs : Moves w s0 s) :
    Moves w s0 (trcDrop x0 x1 s) := by
  unfold trcDrop
  try dsimp only
  repeat'
    first
    | with_reducible assumption | intro _ | with_reducible apply State.addSat_moves | with_reducible apply State.raise_moves
    | with_reducible apply State.modTrc_moves | with_reducible apply Moves.ite | split
    | (with_reducible refine Moves.snd (by assumption) ?_) | (with_reducible refine Moves.fst (by assumption) ?_)
    | with_reducible apply Moves.raw

theorem trcPut_moves {w : Mem → Bool} {s0 : State} (x0 : Nat) (x1 : Nat) (x2 : Nat) (x3 : TrcRec) (x4 : List Byte) {s : State} (hs :
    Moves w s0 s) (hwtrcbuf : w .trcbuf = true) :
    Moves w s0 (trcPut x0 x1 x2 x3 x4 s) := by
  unfold trcPut
  try dsimp only
  repeat'
    first
    | with_reducible assumption | intro _ | with_reducible apply State.modTrcByte_moves
    | with_reducible apply State.modTrc_moves | with_reducible apply State.wr_moves | with_reducible apply Moves.foldl
    | (with_reducible refine Moves.foldlBy Prod.snd ?_ ?_) | (with_reducible refine Moves.foldlBy Prod.fst ?_ ?_)
    | (with_reducible refine Moves.foldlBy WordRun.s ?_ ?_) | with_reducible apply Moves.ite | split
    | (with_reducible refine Moves.snd (by assumption) ?_) | (with_reducible refine Moves.fst (by assumption) ?_)
    | with_reducible apply Moves.raw

theorem trcStore_moves {w : Mem → Bool} {s0 : State} (x0 : Nat) (x1 : Nat) (x2 : Nat) (x3 : Nat) (x4 : Bool) (x5 : Bool → Bool → List
    Byte) {s : State} (hs : Moves w s0 s) (hwtrcbuf : w .trcbuf = true) :
    Moves w s0 (trcStore x0 x1 x2 x3 x4 x5 s) := by
  unfold trcStore
  try dsimp only
  repeat'
    first
    | with_reducible assumption | intro _ | with_reducible apply trcDrop_moves | with_reducible apply trcPut_moves
    | with_reducible apply State.modTrc_moves | with_reducible apply State.wr_moves | with_reducible apply Moves.ite | split
    | (with_reducible refine Moves.snd (by assumption) ?_) | (with_reducible refine Moves.fst (by assumption) ?_)
    | with_reducible apply Moves.raw

theorem trcChannel_moves {w : Mem → Bool} {s0 : State} (x0 : Nat) (x1 : Nat) (x2 : Nat) (x3 : Nat) {s : State} (hs : Moves w s0 s)
    (hwtrcbuf : w .trcbuf = true) :
    Moves w s0 (trcChannel x0 x1 x2 x3 s) := by
  unfold trcChannel
  try dsimp only
  repeat'
    first
    | with_reducible assumption | intro _ | with_reducible apply State.modTrc_moves | with_reducible apply trcTrigger_moves
    | with_reducible apply trcStore_moves | with_reducible apply Moves.ite | split
    | (with_reducible refine Moves.snd (by assumption) ?_) | (with_reducible refine Moves.fst (by assumption) ?_)
    | with_reducible apply Moves.raw

theorem trcCapture_moves {w : Mem → Bool} {s0 : State} (x0 : Nat) (x1 : Nat) (x2 : Nat) {s : State} (hs : Moves w s0 s) (hwtrcbuf : w
    .trcbuf = true) :
    Moves w s0 (trcCapture x0 x1 x2 s) := by
  unfold trcCapture
  try dsimp only
  repeat'
    first
    | with_reducible assumption | intro _ | with_reducible apply State.forEach_moves | with_reducible apply trcChannel_moves
    | with_reducible apply Moves.ite | split | (with_reducible refine Moves.snd (by assumption) ?_)
    | (with_reducible refine Moves.fst (by assumption) ?_)

theorem trcEvent_moves {w : Mem → Bool} {s0 : State} (x0 : Nat) (x1 : Nat) {s : State} (hs : Moves w s0 s) :
    Moves w s0 (trcEvent x0 x1 s) := by
  unfold trcEvent
  try dsimp only
  repeat'
    first
    | with_reducible assumption | intro _ | with_reducible apply trcTrigger_moves | with_reducible apply Moves.ite | split
    | (with_reducible refine Moves.snd (by assumption) ?_) | (with_reducible refine Moves.fst (by assumption) ?_)

theorem trcCtrlWrite_moves {w : Mem → Bool} {s0 : State} (x0 : Word) (x1 : Nat) {s : State} (hs : Moves w s0 s) :
    Moves w s0 (trcCtrlWrite x0 x1 s) := by
  unfold trcCtrlWrite
  try dsimp only
  repeat'
    first
    | with_reducible assumption | intro _ | with_reducible apply State.raise_moves | with_reducible apply State.wr_moves
    | with_reducible apply State.modTrc_moves | with_reducible apply Moves.ite | split
    | (with_reducible refine Moves.snd (by assumption) ?_) | (with_reducible refine Moves.fst (by assumption) ?_)
    | with_reducible apply Moves.raw

theorem trcTrigWrite_moves {w : Mem → Bool} {s0 : State} (x0 : Word) (x1 : Nat) {s : State} (hs : Moves w s0 s) :
    Moves w s0 (trcTrigWrite x0 x1 s) := by
  unfold trcTrigWrite
  try dsimp only
  repeat'
    first
    | with_reducible assumption | intro _ | with_reducible apply State.setReg_moves | with_reducible apply State.raise_moves
    | with_reducible apply State.wr_moves | with_reducible apply trcTrigger_moves | with_reducible apply Moves.ite | split
    | (with_reducible refine Moves.snd (by assumption) ?_) | (with_reducible refine Moves.fst (by assumption) ?_)

theorem trcChWrite_moves {w : Mem → Bool} {s0 : State} (x0 : Nat) (x1 : Word) (x2 : Nat) {s : State} (hs : Moves w s0 s) :
    Moves w s0 (trcChWrite x0 x1 x2 s) := by
  unfold trcChWrite
  try dsimp only
  repeat'
    first
    | with_reducible assumption | intro _ | with_reducible apply State.raise_moves | with_reducible apply State.setReg_moves
    | with_reducible apply Moves.ite | split | (with_reducible refine Moves.snd (by assumption) ?_)
    | (with_reducible refine Moves.fst (by assumption) ?_)

theorem stkDrop_moves {w : Mem → Bool} {s0 : State} (x0 : Nat) (x1 : Nat) {s : State} (hs : Moves w s0 s) :
    Moves w s0 (stkDrop x0 x1 s) := by
  unfold stkDrop
  try dsimp only
  repeat'
    first
    | with_reducible assumption | intro _ | with_reducible apply State.addSat_moves | with_reducible apply State.raise_moves
    | with_reducible apply State.modStk_moves | with_reducible apply Moves.ite | split
    | (with_reducible refine Moves.snd (by assumption) ?_) | (with_reducible refine Moves.fst (by assumption) ?_)
    | with_reducible apply Moves.raw

theorem stgLeave_moves {w : Mem → Bool} {s0 : State} (x0 : Nat) {s : State} (hs : Moves w s0 s) :
    Moves w s0 (stgLeave x0 s) := by
  unfold stgLeave
  try dsimp only
  repeat'
    first
    | with_reducible assumption | intro _ | with_reducible apply State.modStk_moves | with_reducible apply Moves.ite | split
    | (with_reducible refine Moves.snd (by assumption) ?_) | (with_reducible refine Moves.fst (by assumption) ?_)
    | with_reducible apply Moves.raw

theorem stage_moves {w : Mem → Bool} {s0 : State} (x0 : Nat) (x1 : Nat) (x2 : StkRec) {s : State} (hs : Moves w s0 s) (hwdram : w
    .dram = true) :
    Moves w s0 (stage x0 x1 x2 s) := by
  unfold stage
  try dsimp only
  repeat'
    first
    | with_reducible assumption | intro _ | with_reducible apply stgLeave_moves | with_reducible apply State.putDram_moves
    | with_reducible apply State.rangeCheck_moves | with_reducible apply State.modStk_moves | with_reducible apply stkDrop_moves
    | with_reducible apply Moves.ite | split | (with_reducible refine Moves.snd (by assumption) ?_)
    | (with_reducible refine Moves.fst (by assumption) ?_) | with_reducible apply Moves.raw

theorem stkClose_moves {w : Mem → Bool} {s0 : State} (x0 : Nat) (x1 : Nat) {s : State} (hs : Moves w s0 s) (hwdram : w .dram = true)
    :
    Moves w s0 (stkClose x0 x1 s) := by
  unfold stkClose
  try dsimp only
  repeat'
    first
    | with_reducible assumption | intro _ | with_reducible apply stage_moves | with_reducible apply State.modStk_moves
    | with_reducible apply Moves.ite | split | (with_reducible refine Moves.snd (by assumption) ?_)
    | (with_reducible refine Moves.fst (by assumption) ?_)

theorem stkAdd_moves {w : Mem → Bool} {s0 : State} (x0 : Nat) (x1 : Nat) (x2 : Nat) (x3 : Nat) (x4 : Nat) (x5 : Nat) (x6 : Nat) (x7 : Nat) (x8 :
    List Byte) {s : State} (hs : Moves w s0 s) (hwdram : w .dram = true) :
    Moves w s0 (stkAdd x0 x1 x2 x3 x4 x5 x6 x7 x8 s) := by
  unfold stkAdd
  try dsimp only
  repeat'
    first
    | with_reducible assumption | intro _ | with_reducible apply stkClose_moves | with_reducible apply State.modStk_moves
    | with_reducible apply Moves.ite | split | (with_reducible refine Moves.snd (by assumption) ?_)
    | (with_reducible refine Moves.fst (by assumption) ?_) | with_reducible apply Moves.raw

theorem stacksFrame_moves {w : Mem → Bool} {s0 : State} (x0 : Nat) {s : State} (hs : Moves w s0 s) (hwdram : w .dram = true) :
    Moves w s0 (stacksFrame x0 s) := by
  unfold stacksFrame
  try dsimp only
  repeat'
    first
    | with_reducible assumption | intro _ | with_reducible apply State.modStk_moves | with_reducible apply State.toGrid_moves
    | with_reducible apply State.passTo_moves | with_reducible apply stkAdd_moves | with_reducible apply Moves.foldl
    | (with_reducible refine Moves.foldlBy Prod.snd ?_ ?_) | (with_reducible refine Moves.foldlBy Prod.fst ?_ ?_)
    | (with_reducible refine Moves.foldlBy WordRun.s ?_ ?_) | with_reducible apply Moves.ite | split
    | (with_reducible refine Moves.snd (by assumption) ?_) | (with_reducible refine Moves.fst (by assumption) ?_)
    | with_reducible apply Moves.raw

theorem putSlot_moves {w : Mem → Bool} {s0 s : State} (c k i j : Nat) (b : List Byte) (h : Moves w s0 s) (hw : w .drive = true) :
    Moves w s0 (putSlot c k i j b s) := by
  unfold putSlot
  dsimp only
  split
  · exact (h.drive hw (v := s.drive.set _ _ _) fun hc => Store.wf_set (fun _ => []) _ _ _ hc).drive hw fun hc => Store.wf_set (fun _ => []) _ _ _ hc
  · exact Moves.drive h hw fun hc => Store.wf_set (fun _ => []) _ _ _ hc

theorem showNs_moves {w : Mem → Bool} {s0 : State} (x0 : Nat) {s : State} (hs : Moves w s0 s) :
    Moves w s0 (showNs x0 s) := by
  unfold showNs
  try dsimp only
  repeat'
    first
    | with_reducible assumption | intro _ | with_reducible apply State.forEach_moves | with_reducible apply State.wr_moves
    | with_reducible apply Moves.ite | split | (with_reducible refine Moves.snd (by assumption) ?_)
    | (with_reducible refine Moves.fst (by assumption) ?_)

theorem segOpen_moves {w : Mem → Bool} {s0 : State} (c k : Nat) {s : State} (h : Moves w s0 s) (hw : w .drive = true) :
    Moves w s0 (segOpen c k s) := by
  unfold segOpen
  split
  · dsimp only
    split
    · exact State.modNsr_moves _ _ _ h
    · exact State.raise_moves _ _ _ _ (State.wr_moves _ _ _ _ _ (State.modNsr_moves _ _ _ h))
  · exact State.modNsr_moves _ _ _ (putSlot_moves _ _ _ _ _ (Moves.drive (State.wr_moves _ _ _ _ _ h) hw (v := (s.wr c STK_NS.FULL 0 k).drive.drop _ _)
      fun hc => Store.wf_drop _ _ _ _ hc) hw)

theorem segClose_moves {w : Mem → Bool} {s0 : State} (x0 : Nat) (x1 : Nat) {s : State} (hs : Moves w s0 s) (hwdrive : w .drive =
    true) :
    Moves w s0 (segClose x0 x1 s) := by
  unfold segClose
  try dsimp only
  repeat'
    first
    | with_reducible assumption | intro _ | with_reducible apply segOpen_moves | with_reducible apply State.modNsr_moves
    | with_reducible apply Moves.ite | split | (with_reducible refine Moves.snd (by assumption) ?_)
    | (with_reducible refine Moves.fst (by assumption) ?_) | with_reducible apply Moves.raw

theorem stacksSegmentClose_moves {w : Mem → Bool} {s0 : State} (x0 : Nat) {s : State} (hs : Moves w s0 s) (hwdrive : w .drive =
    true) :
    Moves w s0 (stacksSegmentClose x0 s) := by
  unfold stacksSegmentClose
  try dsimp only
  repeat'
    first
    | with_reducible assumption | intro _ | with_reducible apply segClose_moves | with_reducible apply Moves.ite | split
    | (with_reducible refine Moves.snd (by assumption) ?_) | (with_reducible refine Moves.fst (by assumption) ?_)

theorem writeRec_moves {w : Mem → Bool} {s0 : State} (x0 : Nat) (x1 : Nat) (x2 : Staged) (x3 : Nat) (x4 : Nat) {s : State} (hs : Moves w
    s0 s) (hwdrive : w .drive = true) :
    Moves w s0 (writeRec x0 x1 x2 x3 x4 s) := by
  unfold writeRec
  try dsimp only
  repeat'
    first
    | with_reducible assumption | intro _ | with_reducible apply putSlot_moves | with_reducible apply State.wr_moves
    | with_reducible apply State.modNsr_moves | with_reducible apply Moves.ite | split
    | (with_reducible refine Moves.snd (by assumption) ?_) | (with_reducible refine Moves.fst (by assumption) ?_)
    | with_reducible apply Moves.raw

theorem stacksRecordWrite_moves {w : Mem → Bool} {s0 : State} (x0 : Nat) {s : State} (hs : Moves w s0 s) (hwdrive : w .drive =
    true) :
    Moves w s0 (stacksRecordWrite x0 s) := by
  unfold stacksRecordWrite
  try dsimp only
  repeat'
    first
    | with_reducible assumption | intro _ | with_reducible apply State.modStk_moves | with_reducible apply stkDrop_moves
    | with_reducible apply segOpen_moves | with_reducible apply writeRec_moves | with_reducible apply Moves.ite | split
    | (with_reducible refine Moves.snd (by assumption) ?_) | (with_reducible refine Moves.fst (by assumption) ?_)
    | with_reducible apply Moves.raw

theorem showWin_moves {w : Mem → Bool} {s0 : State} (x0 : Nat) (x1 : Nat) {s : State} (hs : Moves w s0 s) :
    Moves w s0 (showWin x0 x1 s) := by
  unfold showWin
  try dsimp only
  repeat'
    first
    | with_reducible assumption | intro _ | with_reducible apply State.wr_moves | with_reducible apply State.modNsr_moves
    | with_reducible apply Moves.ite | split | (with_reducible refine Moves.snd (by assumption) ?_)
    | (with_reducible refine Moves.fst (by assumption) ?_) | with_reducible apply Moves.raw

theorem winTrigger_moves {w : Mem → Bool} {s0 : State} (x0 : Nat) (x1 : Nat) (x2 : Nat) (x3 : Nat) {s : State} (hs : Moves w s0 s) :
    Moves w s0 (winTrigger x0 x1 x2 x3 s) := by
  unfold winTrigger
  try dsimp only
  repeat'
    first
    | with_reducible assumption | intro _ | with_reducible apply State.raise_moves | with_reducible apply showWin_moves
    | with_reducible apply State.modNsr_moves | with_reducible apply Moves.foldl
    | (with_reducible refine Moves.foldlBy Prod.snd ?_ ?_) | (with_reducible refine Moves.foldlBy Prod.fst ?_ ?_)
    | (with_reducible refine Moves.foldlBy WordRun.s ?_ ?_) | with_reducible apply Moves.ite | split
    | (with_reducible refine Moves.snd (by assumption) ?_) | (with_reducible refine Moves.fst (by assumption) ?_)
    | with_reducible apply Moves.raw

theorem stkTrigger_moves {w : Mem → Bool} {s0 : State} (x0 : Nat) (x1 : Nat) (x2 : Nat) {s : State} (hs : Moves w s0 s) :
    Moves w s0 (stkTrigger x0 x1 x2 s) := by
  unfold stkTrigger
  try dsimp only
  repeat'
    first
    | with_reducible assumption | intro _ | with_reducible apply winTrigger_moves | with_reducible apply Moves.ite | split
    | (with_reducible refine Moves.snd (by assumption) ?_) | (with_reducible refine Moves.fst (by assumption) ?_)

theorem stkChoose_moves {w : Mem → Bool} {s0 : State} {s : State} (hs : Moves w s0 s) :
    Moves w s0 (stkChoose s) := by
  unfold stkChoose
  try dsimp only
  repeat'
    first
    | with_reducible assumption | intro _ | with_reducible apply State.wr_moves | with_reducible apply State.forEach_moves
    | with_reducible apply Moves.ite | split | (with_reducible refine Moves.snd (by assumption) ?_)
    | (with_reducible refine Moves.fst (by assumption) ?_) | with_reducible apply Moves.raw

theorem nvmeReady_moves {w : Mem → Bool} {s0 : State} (x0 : Nat) (x1 : Nat) (x2 : Nat) (x3 : List Nat) {s : State} (hs : Moves w s0 s) :
    Moves w s0 (nvmeReady x0 x1 x2 x3 s) := by
  unfold nvmeReady
  try dsimp only
  repeat'
    first
    | with_reducible assumption | intro _ | with_reducible apply State.raise_moves | with_reducible apply State.wr_moves
    | with_reducible apply stkChoose_moves | with_reducible apply showNs_moves | with_reducible apply State.modMem_moves
    | with_reducible apply Moves.ite | split | (with_reducible refine Moves.snd (by assumption) ?_)
    | (with_reducible refine Moves.fst (by assumption) ?_) | with_reducible apply Moves.raw

theorem nvmeGone_moves {w : Mem → Bool} {s0 : State} (x0 : Nat) {s : State} (hs : Moves w s0 s) :
    Moves w s0 (nvmeGone x0 s) := by
  unfold nvmeGone
  try dsimp only
  repeat'
    first
    | with_reducible assumption | intro _ | with_reducible apply stkChoose_moves | with_reducible apply showNs_moves
    | with_reducible apply State.wr_moves | with_reducible apply Moves.ite | split
    | (with_reducible refine Moves.snd (by assumption) ?_) | (with_reducible refine Moves.fst (by assumption) ?_)

theorem nvmeTimeout_moves {w : Mem → Bool} {s0 : State} (x0 : Nat) {s : State} (hs : Moves w s0 s) :
    Moves w s0 (nvmeTimeout x0 s) := by
  unfold nvmeTimeout
  try dsimp only
  repeat'
    first
    | with_reducible assumption | intro _ | with_reducible apply State.modMem_moves | with_reducible apply State.raise_moves
    | with_reducible apply nvmeGone_moves | with_reducible apply Moves.ite | split
    | (with_reducible refine Moves.snd (by assumption) ?_) | (with_reducible refine Moves.fst (by assumption) ?_)
    | with_reducible apply Moves.raw

theorem indexRebuild_moves {w : Mem → Bool} {s0 : State} {s : State} (hs : Moves w s0 s) :
    Moves w s0 (indexRebuild s) := by
  unfold indexRebuild
  try dsimp only
  repeat'
    first
    | with_reducible assumption | intro _ | with_reducible apply State.wr_moves | with_reducible apply Moves.ite | split
    | (with_reducible refine Moves.snd (by assumption) ?_) | (with_reducible refine Moves.fst (by assumption) ?_)

theorem indexNs_moves {w : Mem → Bool} {s0 : State} (x0 : Nat) (x1 : Nat) {s : State} (hs : Moves w s0 s) (hwdrive : w .drive =
    true) :
    Moves w s0 (indexNs x0 x1 s) := by
  unfold indexNs
  try dsimp only
  repeat'
    first
    | with_reducible assumption | intro _ | with_reducible apply State.modNsr_moves | with_reducible apply State.forEach_moves
    | with_reducible apply putSlot_moves | with_reducible apply Moves.foldl
    | (with_reducible refine Moves.foldlBy Prod.snd ?_ ?_) | (with_reducible refine Moves.foldlBy Prod.fst ?_ ?_)
    | (with_reducible refine Moves.foldlBy WordRun.s ?_ ?_) | with_reducible apply Moves.ite | split
    | (with_reducible refine Moves.snd (by assumption) ?_) | (with_reducible refine Moves.fst (by assumption) ?_)
    | with_reducible apply Moves.raw

theorem indexDone_moves {w : Mem → Bool} {s0 : State} {s : State} (hs : Moves w s0 s) (hwdrive : w .drive = true) :
    Moves w s0 (indexDone s) := by
  unfold indexDone
  try dsimp only
  repeat'
    first
    | with_reducible assumption | intro _ | with_reducible apply State.wr_moves | with_reducible apply State.forEach_moves
    | with_reducible apply indexNs_moves | with_reducible apply Moves.ite | split
    | (with_reducible refine Moves.snd (by assumption) ?_) | (with_reducible refine Moves.fst (by assumption) ?_)

theorem trcToDram_moves {w : Mem → Bool} {s0 : State} (x0 : Nat) (x1 : TrcRec) (x2 : List Byte) {s : State} (hs : Moves w s0 s)
    (hwdram : w .dram = true) :
    Moves w s0 (trcToDram x0 x1 x2 s) := by
  unfold trcToDram
  try dsimp only
  repeat'
    first
    | with_reducible assumption | intro _ | with_reducible apply State.addSat_moves | with_reducible apply State.raise_moves
    | with_reducible apply State.modTrc_moves | with_reducible apply State.forEach_moves
    | with_reducible apply State.putDram_moves | with_reducible apply State.rangeCheck_moves
    | with_reducible apply State.wr_moves | with_reducible apply Moves.ite | split
    | (with_reducible refine Moves.snd (by assumption) ?_) | (with_reducible refine Moves.fst (by assumption) ?_)
    | with_reducible apply Moves.raw

theorem traceMoveOn_moves {w : Mem → Bool} {s0 : State} (x0 : Nat) {s : State} (hs : Moves w s0 s) (hwdram : w .dram = true) :
    Moves w s0 (traceMoveOn x0 s) := by
  unfold traceMoveOn
  try dsimp only
  repeat'
    first
    | with_reducible assumption | intro _ | with_reducible apply State.modTrc_moves | with_reducible apply trcToDram_moves
    | with_reducible apply stkAdd_moves | with_reducible apply Moves.ite | split
    | (with_reducible refine Moves.snd (by assumption) ?_) | (with_reducible refine Moves.fst (by assumption) ?_)
    | with_reducible apply Moves.raw

theorem showLedg_moves {w : Mem → Bool} {s0 : State} (x0 : Nat) {s : State} (hs : Moves w s0 s) :
    Moves w s0 (showLedg x0 s) := by
  unfold showLedg
  try dsimp only
  repeat'
    first
    | with_reducible assumption | intro _ | with_reducible apply State.wr_moves | with_reducible apply Moves.ite | split
    | (with_reducible refine Moves.snd (by assumption) ?_) | (with_reducible refine Moves.fst (by assumption) ?_)

theorem ledgPut_moves {w : Mem → Bool} {s0 : State} (x0 : Nat) (x1 : Nat) (x2 : List Byte) {s : State} (hs : Moves w s0 s) (hwdram :
    w .dram = true) :
    Moves w s0 (ledgPut x0 x1 x2 s) := by
  unfold ledgPut
  try dsimp only
  repeat'
    first
    | with_reducible assumption | intro _ | with_reducible apply State.putDram_moves
    | with_reducible apply State.rangeCheck_moves | with_reducible apply Moves.ite | split
    | (with_reducible refine Moves.snd (by assumption) ?_) | (with_reducible refine Moves.fst (by assumption) ?_)

theorem ledgOpen_moves {w : Mem → Bool} {s0 : State} (x0 : Nat) {s : State} (hs : Moves w s0 s) (hwdram : w .dram = true) :
    Moves w s0 (ledgOpen x0 s) := by
  unfold ledgOpen
  try dsimp only
  repeat'
    first
    | with_reducible assumption | intro _ | with_reducible apply ledgPut_moves | with_reducible apply showLedg_moves
    | with_reducible apply Moves.ite | split | (with_reducible refine Moves.snd (by assumption) ?_)
    | (with_reducible refine Moves.fst (by assumption) ?_) | with_reducible apply Moves.raw

theorem zeroDram_moves {w : Mem → Bool} {s0 s : State} (c a n : Nat) (h : Moves w s0 s) (hw : w .dram = true) :
    Moves w s0 (zeroDram c a n s) := by
  unfold zeroDram
  dsimp only
  split
  · exact (h.dram hw (v := s.dram.drop _ _) fun hc => Store.wf_drop _ _ _ _ hc).dram hw fun hc => Store.wf_drop _ _ _ _ hc
  · exact Moves.dram h hw fun hc => Store.wf_drop _ _ _ _ hc

theorem ledgClose_moves {w : Mem → Bool} {s0 : State} (x0 : Nat) {s : State} (hs : Moves w s0 s) (hwdram : w .dram = true) :
    Moves w s0 (ledgClose x0 s) := by
  unfold ledgClose
  try dsimp only
  repeat'
    first
    | with_reducible assumption | intro _ | with_reducible apply zeroDram_moves | with_reducible apply ledgOpen_moves
    | with_reducible apply Moves.ite | split | (with_reducible refine Moves.snd (by assumption) ?_)
    | (with_reducible refine Moves.fst (by assumption) ?_) | with_reducible apply Moves.raw

theorem ledgWrite_moves {w : Mem → Bool} {s0 : State} (x0 : Nat) (x1 : LedgEnt) {s : State} (hs : Moves w s0 s) (hwdram : w .dram
    = true) :
    Moves w s0 (ledgWrite x0 x1 s) := by
  unfold ledgWrite
  try dsimp only
  repeat'
    first
    | with_reducible assumption | intro _ | with_reducible apply ledgPut_moves | with_reducible apply showLedg_moves
    | with_reducible apply stkAdd_moves | with_reducible apply Moves.ite | split
    | (with_reducible refine Moves.snd (by assumption) ?_) | (with_reducible refine Moves.fst (by assumption) ?_)
    | with_reducible apply Moves.raw

theorem ledgLose_moves {w : Mem → Bool} {s0 : State} (x0 : Nat) {s : State} (hs : Moves w s0 s) :
    Moves w s0 (ledgLose x0 s) := by
  unfold ledgLose
  try dsimp only
  repeat'
    first
    | with_reducible assumption | intro _ | with_reducible apply State.addSat_moves | with_reducible apply State.forEach_moves
    | with_reducible apply Moves.ite | split | (with_reducible refine Moves.snd (by assumption) ?_)
    | (with_reducible refine Moves.fst (by assumption) ?_) | with_reducible apply Moves.raw

theorem ledgQueue_moves {w : Mem → Bool} {s0 : State} (x0 : Nat) (x1 : LedgEnt) {s : State} (hs : Moves w s0 s) :
    Moves w s0 (ledgQueue x0 x1 s) := by
  unfold ledgQueue
  try dsimp only
  repeat'
    first
    | with_reducible assumption | intro _ | with_reducible apply State.modLedq_moves | with_reducible apply ledgLose_moves
    | with_reducible apply Moves.ite | split | (with_reducible refine Moves.snd (by assumption) ?_)
    | (with_reducible refine Moves.fst (by assumption) ?_)

theorem ledgerSegmentClose_moves {w : Mem → Bool} {s0 : State} {s : State} (hs : Moves w s0 s) (hwdram : w .dram = true) :
    Moves w s0 (ledgerSegmentClose s) := by
  unfold ledgerSegmentClose
  try dsimp only
  repeat'
    first
    | with_reducible assumption | intro _ | with_reducible apply ledgClose_moves | with_reducible apply Moves.ite | split
    | (with_reducible refine Moves.snd (by assumption) ?_) | (with_reducible refine Moves.fst (by assumption) ?_)

theorem ledgCtlWrite_moves {w : Mem → Bool} {s0 : State} (x0 : Word) (x1 : Nat) {s : State} (hs : Moves w s0 s) (hwdram : w .dram
    = true) :
    Moves w s0 (ledgCtlWrite x0 x1 s) := by
  unfold ledgCtlWrite
  try dsimp only
  repeat'
    first
    | with_reducible assumption | intro _ | with_reducible apply State.wr_moves | with_reducible apply ledgOpen_moves
    | with_reducible apply ledgClose_moves | with_reducible apply Moves.ite | split
    | (with_reducible refine Moves.snd (by assumption) ?_) | (with_reducible refine Moves.fst (by assumption) ?_)
    | with_reducible apply Moves.raw

theorem showMem_moves {w : Mem → Bool} {s0 : State} {s : State} (hs : Moves w s0 s) :
    Moves w s0 (showMem s) := by
  unfold showMem
  try dsimp only
  repeat'
    first
    | with_reducible assumption | intro _ | with_reducible apply State.forEach_moves | with_reducible apply State.wr_moves
    | with_reducible apply Moves.ite | split | (with_reducible refine Moves.snd (by assumption) ?_)
    | (with_reducible refine Moves.fst (by assumption) ?_)

theorem setSync_moves {w : Mem → Bool} {s0 : State} (x0 : Bool) {s : State} (hs : Moves w s0 s) :
    Moves w s0 (setSync x0 s) := by
  unfold setSync
  try dsimp only
  repeat'
    first
    | with_reducible assumption | intro _ | with_reducible apply State.wr_moves | with_reducible apply Moves.ite | split
    | (with_reducible refine Moves.snd (by assumption) ?_) | (with_reducible refine Moves.fst (by assumption) ?_)

theorem memTake_moves {w : Mem → Bool} {s0 : State} (x0 : Nat) (x1 : Bool) {s : State} (hs : Moves w s0 s) (hwdram : w .dram =
    true) :
    Moves w s0 (memTake x0 x1 s) := by
  unfold memTake
  try dsimp only
  repeat'
    first
    | with_reducible assumption | intro _ | with_reducible apply ledgOpen_moves | with_reducible apply showLedg_moves
    | with_reducible apply Moves.ite | split | (with_reducible refine Moves.snd (by assumption) ?_)
    | (with_reducible refine Moves.fst (by assumption) ?_) | with_reducible apply Moves.raw

theorem memFail_moves {w : Mem → Bool} {s0 : State} (x0 : Nat) {s : State} (hs : Moves w s0 s) (hwdram : w .dram = true) :
    Moves w s0 (memFail x0 s) := by
  unfold memFail
  try dsimp only
  repeat'
    first
    | with_reducible assumption | intro _ | with_reducible apply showMem_moves | with_reducible apply setSync_moves
    | with_reducible apply State.raise_moves | with_reducible apply memTake_moves | with_reducible apply Moves.ite | split
    | (with_reducible refine Moves.snd (by assumption) ?_) | (with_reducible refine Moves.fst (by assumption) ?_)
    | with_reducible apply Moves.raw

theorem memJoin_moves {w : Mem → Bool} {s0 : State} (x0 : Nat) {s : State} (hs : Moves w s0 s) (hwdram : w .dram = true) :
    Moves w s0 (memJoin x0 s) := by
  unfold memJoin
  try dsimp only
  repeat'
    first
    | with_reducible assumption | intro _ | with_reducible apply State.modMem_moves | with_reducible apply State.wr_moves
    | with_reducible apply setSync_moves | with_reducible apply showMem_moves | with_reducible apply memTake_moves
    | with_reducible apply Moves.ite | split | (with_reducible refine Moves.snd (by assumption) ?_)
    | (with_reducible refine Moves.fst (by assumption) ?_) | with_reducible apply Moves.raw

theorem ddrTraining_moves {w : Mem → Bool} {s0 : State} (x0 : Nat) (x1 : Bool) (x2 : Nat) {s : State} (hs : Moves w s0 s) (hwdram :
    w .dram = true) :
    Moves w s0 (ddrTraining x0 x1 x2 s) := by
  unfold ddrTraining
  try dsimp only
  repeat'
    first
    | with_reducible assumption | intro _ | with_reducible apply memJoin_moves | with_reducible apply State.modMem_moves
    | with_reducible apply State.raise_moves | with_reducible apply State.wr_moves | with_reducible apply Moves.ite | split
    | (with_reducible refine Moves.snd (by assumption) ?_) | (with_reducible refine Moves.fst (by assumption) ?_)
    | with_reducible apply Moves.raw

theorem memChannelLoss_moves {w : Mem → Bool} {s0 : State} (x0 : Nat) {s : State} (hs : Moves w s0 s) (hwdram : w .dram = true) :
    Moves w s0 (memChannelLoss x0 s) := by
  unfold memChannelLoss
  try dsimp only
  repeat'
    first
    | with_reducible assumption | intro _ | with_reducible apply memFail_moves | with_reducible apply State.wr_moves
    | with_reducible apply Moves.ite | split | (with_reducible refine Moves.snd (by assumption) ?_)
    | (with_reducible refine Moves.fst (by assumption) ?_)

theorem memChannelReturn_moves {w : Mem → Bool} {s0 : State} (x0 : Nat) {s : State} (hs : Moves w s0 s) (hwdram : w .dram = true)
    :
    Moves w s0 (memChannelReturn x0 s) := by
  unfold memChannelReturn
  try dsimp only
  repeat'
    first
    | with_reducible assumption | intro _ | with_reducible apply memJoin_moves | with_reducible apply Moves.ite | split
    | (with_reducible refine Moves.snd (by assumption) ?_) | (with_reducible refine Moves.fst (by assumption) ?_)

theorem memCtrlWrite_moves {w : Mem → Bool} {s0 : State} (x0 : Word) (x1 : Nat) {s : State} (hs : Moves w s0 s) (hwdram : w .dram
    = true) :
    Moves w s0 (memCtrlWrite x0 x1 s) := by
  unfold memCtrlWrite
  try dsimp only
  repeat'
    first
    | with_reducible assumption | intro _ | with_reducible apply State.setReg_moves | with_reducible apply State.modMem_moves
    | with_reducible apply setSync_moves | with_reducible apply memFail_moves | with_reducible apply showMem_moves
    | with_reducible apply memTake_moves | with_reducible apply Moves.ite | split
    | (with_reducible refine Moves.snd (by assumption) ?_) | (with_reducible refine Moves.fst (by assumption) ?_)
    | with_reducible apply Moves.raw

theorem copyDram_moves {w : Mem → Bool} {s0 s : State} (c e a n : Nat) (h : Moves w s0 s) (hw : w .dram = true) :
    Moves w s0 (copyDram c e a n s) := by
  unfold copyDram
  dsimp only
  exact Moves.foldl (Moves.dram h hw fun hc => Store.wf_drop _ _ _ _ hc) fun u x hu => State.setDramByte_moves _ _ _ hu hw

theorem mirrorCopy_moves {w : Mem → Bool} {s0 : State} (x0 : Nat) {s : State} (hs : Moves w s0 s) (hwdram : w .dram = true) :
    Moves w s0 (mirrorCopy x0 s) := by
  unfold mirrorCopy
  try dsimp only
  repeat'
    first
    | with_reducible assumption | intro _ | with_reducible apply State.modMem_moves | with_reducible apply copyDram_moves
    | with_reducible apply State.pass_moves | with_reducible apply Moves.ite | split
    | (with_reducible refine Moves.snd (by assumption) ?_) | (with_reducible refine Moves.fst (by assumption) ?_)
    | with_reducible apply Moves.raw

theorem mirrorDone_moves {w : Mem → Bool} {s0 : State} {s : State} (hs : Moves w s0 s) :
    Moves w s0 (mirrorDone s) := by
  unfold mirrorDone
  try dsimp only
  repeat'
    first
    | with_reducible assumption | intro _ | with_reducible apply setSync_moves | with_reducible apply Moves.ite | split
    | (with_reducible refine Moves.snd (by assumption) ?_) | (with_reducible refine Moves.fst (by assumption) ?_)

theorem eccRead_moves {w : Mem → Bool} {s0 : State} (x0 : Nat) (x1 : Nat) (x2 : Nat) {s : State} (hs : Moves w s0 s) :
    Moves w s0 (eccRead x0 x1 x2 s) := by
  unfold eccRead
  try dsimp only
  repeat'
    first
    | with_reducible assumption | intro _ | with_reducible apply State.inject_moves | with_reducible apply State.addSat_moves
    | with_reducible apply State.raise_moves | with_reducible apply State.wr_moves | with_reducible apply Moves.ite | split
    | (with_reducible refine Moves.snd (by assumption) ?_) | (with_reducible refine Moves.fst (by assumption) ?_)

theorem dramAccess_moves {w : Mem → Bool} {s0 : State} (x0 : Nat) (x1 : Nat) (x2 : Bool) (x3 : List Byte) (x4 : Nat) {s : State} (hs :
    Moves w s0 s) (hwdram : w .dram = true) :
    Moves w s0 (dramAccess x0 x1 x2 x3 x4 s) := by
  unfold dramAccess
  try dsimp only
  repeat'
    first
    | with_reducible assumption | intro _ | with_reducible apply State.dramWrite_moves | with_reducible apply State.answer_moves
    | with_reducible apply State.dramRead_moves | with_reducible apply eccRead_moves | with_reducible apply Moves.ite | split
    | (with_reducible refine Moves.snd (by assumption) ?_) | (with_reducible refine Moves.fst (by assumption) ?_)

theorem patrolScrub_moves {w : Mem → Bool} {s0 : State} (x0 : Nat) (x1 : List (Nat × Nat)) {s : State} (hs : Moves w s0 s) :
    Moves w s0 (patrolScrub x0 x1 s) := by
  unfold patrolScrub
  try dsimp only
  repeat'
    first
    | with_reducible assumption | intro _ | with_reducible apply eccRead_moves | with_reducible apply Moves.foldl
    | (with_reducible refine Moves.foldlBy Prod.snd ?_ ?_) | (with_reducible refine Moves.foldlBy Prod.fst ?_ ?_)
    | (with_reducible refine Moves.foldlBy WordRun.s ?_ ?_) | with_reducible apply Moves.ite | split
    | (with_reducible refine Moves.snd (by assumption) ?_) | (with_reducible refine Moves.fst (by assumption) ?_)

end Sys2Proof.Machine
end

