-- ==== Sys2Proof/Laws/MovesPair.lean ====
section
/-!
SUPPORT. What each operation of the model does to a state at most (Laws/Moves.lean): the pair, the host interface, clocks, Teram, flash and power.
-/

set_option linter.unusedTactic false
set_option linter.unreachableTactic false

namespace Sys2Proof.Machine

theorem showNext_moves {w : Mem → Bool} {s0 : State} (x0 : Nat) {s : State} (hs : Moves w s0 s) :
    Moves w s0 (showNext x0 s) := by
  unfold showNext
  try dsimp only
  repeat'
    first
    | with_reducible assumption | intro _ | with_reducible apply State.wr_moves | with_reducible apply Moves.ite | split
    | (with_reducible refine Moves.snd (by assumption) ?_) | (with_reducible refine Moves.fst (by assumption) ?_)

theorem setRole_moves {w : Mem → Bool} {s0 : State} (x0 : Nat) (x1 : Nat) {s : State} (hs : Moves w s0 s) :
    Moves w s0 (setRole x0 x1 s) := by
  unfold setRole
  try dsimp only
  repeat'
    first
    | with_reducible assumption | intro _ | with_reducible apply State.wr_moves | with_reducible apply State.holdBalls_moves
    | with_reducible apply setPads_moves | with_reducible apply emuShowAll_moves | with_reducible apply showNext_moves
    | with_reducible apply State.refreshDie_moves | with_reducible apply Moves.ite | split
    | (with_reducible refine Moves.snd (by assumption) ?_) | (with_reducible refine Moves.fst (by assumption) ?_)

theorem markLast_moves {w : Mem → Bool} {s0 : State} (x0 : Nat) {s : State} (hs : Moves w s0 s) :
    Moves w s0 (markLast x0 s) := by
  unfold markLast
  try dsimp only
  repeat'
    first
    | with_reducible assumption | intro _ | with_reducible apply State.wr_moves | with_reducible apply Moves.ite | split
    | (with_reducible refine Moves.snd (by assumption) ?_) | (with_reducible refine Moves.fst (by assumption) ?_)

theorem unready_moves {w : Mem → Bool} {s0 : State} (x0 : Nat) {s : State} (hs : Moves w s0 s) :
    Moves w s0 (unready x0 s) := by
  unfold unready
  try dsimp only
  repeat'
    first
    | with_reducible assumption | intro _ | with_reducible apply State.wr_moves | with_reducible apply Moves.ite | split
    | (with_reducible refine Moves.snd (by assumption) ?_) | (with_reducible refine Moves.fst (by assumption) ?_)

theorem swapDue_moves {w : Mem → Bool} {s0 : State} (x0 : Nat) (x1 : Bool) {s : State} (hs : Moves w s0 s) :
    Moves w s0 (swapDue x0 x1 s) := by
  unfold swapDue
  try dsimp only
  repeat'
    first
    | with_reducible assumption | intro _ | with_reducible apply State.modPair_moves | with_reducible apply State.wr_moves
    | with_reducible apply State.addSat_moves | with_reducible apply Moves.ite | split
    | (with_reducible refine Moves.snd (by assumption) ?_) | (with_reducible refine Moves.fst (by assumption) ?_)
    | with_reducible apply Moves.raw

theorem swapElapsed_moves {w : Mem → Bool} {s0 : State} (x0 : Nat) {s : State} (hs : Moves w s0 s) :
    Moves w s0 (swapElapsed x0 s) := by
  unfold swapElapsed
  try dsimp only
  repeat'
    first
    | with_reducible assumption | intro _ | with_reducible apply swapDue_moves | with_reducible apply State.passTo_moves
    | with_reducible apply Moves.ite | split | (with_reducible refine Moves.snd (by assumption) ?_)
    | (with_reducible refine Moves.fst (by assumption) ?_)

theorem pairCtrlWrite_moves {w : Mem → Bool} {s0 : State} (x0 : Word) (x1 : Nat) {s : State} (hs : Moves w s0 s) :
    Moves w s0 (pairCtrlWrite x0 x1 s) := by
  unfold pairCtrlWrite
  try dsimp only
  repeat'
    first
    | with_reducible assumption | intro _ | with_reducible apply State.wr_moves | with_reducible apply showNext_moves
    | with_reducible apply swapDue_moves | with_reducible apply Moves.ite | split
    | (with_reducible refine Moves.snd (by assumption) ?_) | (with_reducible refine Moves.fst (by assumption) ?_)

theorem swapMissed_moves {w : Mem → Bool} {s0 : State} (x0 : Nat) {s : State} (hs : Moves w s0 s) :
    Moves w s0 (swapMissed x0 s) := by
  unfold swapMissed
  try dsimp only
  repeat'
    first
    | with_reducible assumption | intro _ | with_reducible apply showNext_moves | with_reducible apply State.modPair_moves
    | with_reducible apply Moves.ite | split | (with_reducible refine Moves.snd (by assumption) ?_)
    | (with_reducible refine Moves.fst (by assumption) ?_) | with_reducible apply Moves.raw

theorem swapTs_moves {w : Mem → Bool} {s0 : State} (x0 : Nat) {s : State} (hs : Moves w s0 s) :
    Moves w s0 (swapTs x0 s) := by
  unfold swapTs
  try dsimp only
  repeat'
    first
    | with_reducible assumption | intro _ | with_reducible apply State.passTo_moves | with_reducible apply swapMissed_moves
    | with_reducible apply State.pass_moves | with_reducible apply setPads_moves | with_reducible apply State.holdBalls_moves
    | with_reducible apply State.modPair_moves | with_reducible apply Moves.ite | split
    | (with_reducible refine Moves.snd (by assumption) ?_) | (with_reducible refine Moves.fst (by assumption) ?_)
    | with_reducible apply Moves.raw

theorem swapLate_moves {w : Mem → Bool} {s0 : State} (x0 : Nat) {s : State} (hs : Moves w s0 s) :
    Moves w s0 (swapLate x0 s) := by
  unfold swapLate
  try dsimp only
  repeat'
    first
    | with_reducible assumption | intro _ | with_reducible apply State.raise_moves | with_reducible apply State.modPair_moves
    | with_reducible apply State.passTo_moves | with_reducible apply Moves.ite | split
    | (with_reducible refine Moves.snd (by assumption) ?_) | (with_reducible refine Moves.fst (by assumption) ?_)
    | with_reducible apply Moves.raw

theorem releaseStart_moves {w : Mem → Bool} {s0 : State} (x0 : Nat) (x1 : List ResetCause) {s : State} (hs : Moves w s0 s) :
    Moves w s0 (releaseStart x0 x1 s) := by
  unfold releaseStart
  try dsimp only
  repeat'
    first
    | with_reducible assumption | intro _ | with_reducible apply State.modPair_moves
    | with_reducible apply State.holdBalls_moves | with_reducible apply Moves.ite | split
    | (with_reducible refine Moves.snd (by assumption) ?_) | (with_reducible refine Moves.fst (by assumption) ?_)
    | with_reducible apply Moves.raw

theorem heartbeatASend_moves {w : Mem → Bool} {s0 : State} (x0 : Nat) {s : State} (hs : Moves w s0 s) :
    Moves w s0 (heartbeatASend x0 s) := by
  unfold heartbeatASend
  try dsimp only
  repeat'
    first
    | with_reducible assumption | intro _ | with_reducible apply State.toNext_moves | with_reducible apply State.modPair_moves
    | with_reducible apply Moves.ite | split | (with_reducible refine Moves.snd (by assumption) ?_)
    | (with_reducible refine Moves.fst (by assumption) ?_) | with_reducible apply Moves.raw

theorem heartbeatBSend_moves {w : Mem → Bool} {s0 : State} (x0 : Nat) {s : State} (hs : Moves w s0 s) :
    Moves w s0 (heartbeatBSend x0 s) := by
  unfold heartbeatBSend
  try dsimp only
  repeat'
    first
    | with_reducible assumption | intro _ | with_reducible apply State.modPair_moves | with_reducible apply Moves.ite | split
    | (with_reducible refine Moves.snd (by assumption) ?_) | (with_reducible refine Moves.fst (by assumption) ?_)
    | with_reducible apply Moves.raw

theorem pathAlive_moves {w : Mem → Bool} {s0 : State} (x0 : Nat) (x1 : Bool) {s : State} (hs : Moves w s0 s) :
    Moves w s0 (pathAlive x0 x1 s) := by
  unfold pathAlive
  try dsimp only
  repeat'
    first
    | with_reducible assumption | intro _ | with_reducible apply State.modPair_moves | with_reducible apply State.wr_moves
    | with_reducible apply Moves.ite | split | (with_reducible refine Moves.snd (by assumption) ?_)
    | (with_reducible refine Moves.fst (by assumption) ?_) | with_reducible apply Moves.raw

theorem mateReady_moves {w : Mem → Bool} {s0 : State} (x0 : Nat) (x1 : Bool) {s : State} (hs : Moves w s0 s) :
    Moves w s0 (mateReady x0 x1 s) := by
  unfold mateReady
  try dsimp only
  repeat'
    first
    | with_reducible assumption | intro _ | with_reducible apply State.wr_moves | with_reducible apply swapDue_moves
    | with_reducible apply Moves.ite | split | (with_reducible refine Moves.snd (by assumption) ?_)
    | (with_reducible refine Moves.fst (by assumption) ?_)

theorem firstBeat_moves {w : Mem → Bool} {s0 : State} (x0 : Nat) (x1 : Nat) {s : State} (hs : Moves w s0 s) :
    Moves w s0 (firstBeat x0 x1 s) := by
  unfold firstBeat
  try dsimp only
  repeat'
    first
    | with_reducible assumption | intro _ | with_reducible apply setRole_moves | with_reducible apply State.modPair_moves
    | with_reducible apply State.wr_moves | with_reducible apply Moves.ite | split
    | (with_reducible refine Moves.snd (by assumption) ?_) | (with_reducible refine Moves.fst (by assumption) ?_)
    | with_reducible apply Moves.raw

theorem heartbeatReceive_moves {w : Mem → Bool} {s0 : State} (x0 : Nat) (x1 : Bool) (x2 : Bool) {s : State} (hs : Moves w s0 s) :
    Moves w s0 (heartbeatReceive x0 x1 x2 s) := by
  unfold heartbeatReceive
  try dsimp only
  repeat'
    first
    | with_reducible assumption | intro _ | with_reducible apply State.inject_moves | with_reducible apply State.addSat_moves
    | with_reducible apply State.wr_moves | with_reducible apply State.modPair_moves | with_reducible apply pathAlive_moves
    | with_reducible apply firstBeat_moves | with_reducible apply mateReady_moves | with_reducible apply Moves.ite | split
    | (with_reducible refine Moves.snd (by assumption) ?_) | (with_reducible refine Moves.fst (by assumption) ?_)

theorem pathLost_moves {w : Mem → Bool} {s0 : State} (x0 : Nat) (x1 : Bool) {s : State} (hs : Moves w s0 s) :
    Moves w s0 (pathLost x0 x1 s) := by
  unfold pathLost
  try dsimp only
  repeat'
    first
    | with_reducible assumption | intro _ | with_reducible apply State.addSat_moves | with_reducible apply State.wr_moves
    | with_reducible apply State.modFwd_moves | with_reducible apply State.modPair_moves
    | with_reducible apply State.raise_moves | with_reducible apply unready_moves | with_reducible apply Moves.ite | split
    | (with_reducible refine Moves.snd (by assumption) ?_) | (with_reducible refine Moves.fst (by assumption) ?_)
    | with_reducible apply Moves.raw

theorem heartbeatMiss_moves {w : Mem → Bool} {s0 : State} (x0 : Nat) (x1 : Bool) {s : State} (hs : Moves w s0 s) :
    Moves w s0 (heartbeatMiss x0 x1 s) := by
  unfold heartbeatMiss
  try dsimp only
  repeat'
    first
    | with_reducible assumption | intro _ | with_reducible apply State.wr_moves | with_reducible apply State.modPair_moves
    | with_reducible apply pathLost_moves | with_reducible apply Moves.ite | split
    | (with_reducible refine Moves.snd (by assumption) ?_) | (with_reducible refine Moves.fst (by assumption) ?_)
    | with_reducible apply Moves.raw

theorem beatSlot_moves {w : Mem → Bool} {s0 : State} (x0 : Nat) {s : State} (hs : Moves w s0 s) :
    Moves w s0 (beatSlot x0 s) := by
  unfold beatSlot
  try dsimp only
  repeat'
    first
    | with_reducible assumption | intro _ | with_reducible apply State.occurs_moves | with_reducible apply State.pass_moves
    | with_reducible apply Moves.ite | split | (with_reducible refine Moves.snd (by assumption) ?_)
    | (with_reducible refine Moves.fst (by assumption) ?_)

theorem heartbeatAMiss_moves {w : Mem → Bool} {s0 : State} (x0 : Nat) {s : State} (hs : Moves w s0 s) :
    Moves w s0 (heartbeatAMiss x0 s) := by
  unfold heartbeatAMiss
  try dsimp only
  repeat'
    first
    | with_reducible assumption | intro _ | with_reducible apply beatSlot_moves | with_reducible apply heartbeatMiss_moves
    | with_reducible apply Moves.ite | split | (with_reducible refine Moves.snd (by assumption) ?_)
    | (with_reducible refine Moves.fst (by assumption) ?_)

theorem heartbeatBMiss_moves {w : Mem → Bool} {s0 : State} (x0 : Nat) {s : State} (hs : Moves w s0 s) :
    Moves w s0 (heartbeatBMiss x0 s) := by
  unfold heartbeatBMiss
  try dsimp only
  repeat'
    first
    | with_reducible assumption | intro _ | with_reducible apply heartbeatMiss_moves | with_reducible apply State.drew_moves
    | with_reducible apply State.pass_moves | with_reducible apply Moves.ite | split
    | (with_reducible refine Moves.snd (by assumption) ?_) | (with_reducible refine Moves.fst (by assumption) ?_)

theorem loopbackTest_moves {w : Mem → Bool} {s0 : State} (x0 : Nat) {s : State} (hs : Moves w s0 s) :
    Moves w s0 (loopbackTest x0 s) := by
  unfold loopbackTest
  try dsimp only
  repeat'
    first
    | with_reducible assumption | intro _ | with_reducible apply State.modPair_moves | with_reducible apply Moves.ite | split
    | (with_reducible refine Moves.snd (by assumption) ?_) | (with_reducible refine Moves.fst (by assumption) ?_)
    | with_reducible apply Moves.raw

theorem startwaitExpiry_moves {w : Mem → Bool} {s0 : State} (x0 : Nat) {s : State} (hs : Moves w s0 s) :
    Moves w s0 (startwaitExpiry x0 s) := by
  unfold startwaitExpiry
  try dsimp only
  repeat'
    first
    | with_reducible assumption | intro _ | with_reducible apply loopbackTest_moves | with_reducible apply State.passTo_moves
    | with_reducible apply Moves.ite | split | (with_reducible refine Moves.snd (by assumption) ?_)
    | (with_reducible refine Moves.fst (by assumption) ?_)

theorem letGo_moves {w : Mem → Bool} {s0 : State} (x0 : Nat) {s : State} (hs : Moves w s0 s) :
    Moves w s0 (letGo x0 s) := by
  unfold letGo
  try dsimp only
  repeat'
    first
    | with_reducible assumption | intro _ | with_reducible apply State.modPair_moves | with_reducible apply State.drew_moves
    | with_reducible apply Moves.ite | split | (with_reducible refine Moves.snd (by assumption) ?_)
    | (with_reducible refine Moves.fst (by assumption) ?_) | with_reducible apply Moves.raw

theorem seize_moves {w : Mem → Bool} {s0 : State} (x0 : Nat) {s : State} (hs : Moves w s0 s) :
    Moves w s0 (seize x0 s) := by
  unfold seize
  try dsimp only
  repeat'
    first
    | with_reducible assumption | intro _ | with_reducible apply letGo_moves | with_reducible apply State.holdBalls_moves
    | with_reducible apply State.addSat_moves | with_reducible apply State.wr_moves | with_reducible apply State.raise_moves
    | with_reducible apply markLast_moves | with_reducible apply State.modPair_moves | with_reducible apply setRole_moves
    | with_reducible apply Moves.ite | split | (with_reducible refine Moves.snd (by assumption) ?_)
    | (with_reducible refine Moves.fst (by assumption) ?_) | with_reducible apply Moves.raw

theorem loopbackResult_moves {w : Mem → Bool} {s0 : State} (x0 : Nat) (x1 : Bool) {s : State} (hs : Moves w s0 s) :
    Moves w s0 (loopbackResult x0 x1 s) := by
  unfold loopbackResult
  try dsimp only
  repeat'
    first
    | with_reducible assumption | intro _ | with_reducible apply State.modPair_moves | with_reducible apply State.raise_moves
    | with_reducible apply State.wr_moves | with_reducible apply seize_moves | with_reducible apply Moves.ite | split
    | (with_reducible refine Moves.snd (by assumption) ?_) | (with_reducible refine Moves.fst (by assumption) ?_)
    | with_reducible apply Moves.raw

theorem loopbackRetry_moves {w : Mem → Bool} {s0 : State} (x0 : Nat) {s : State} (hs : Moves w s0 s) :
    Moves w s0 (loopbackRetry x0 s) := by
  unfold loopbackRetry
  try dsimp only
  repeat'
    first
    | with_reducible assumption | intro _ | with_reducible apply loopbackTest_moves | with_reducible apply State.passTo_moves
    | with_reducible apply Moves.ite | split | (with_reducible refine Moves.snd (by assumption) ?_)
    | (with_reducible refine Moves.fst (by assumption) ?_)

theorem gotSeized_moves {w : Mem → Bool} {s0 : State} (x0 : Nat) {s : State} (hs : Moves w s0 s) :
    Moves w s0 (gotSeized x0 s) := by
  unfold gotSeized
  try dsimp only
  repeat'
    first
    | with_reducible assumption | intro _ | with_reducible apply unready_moves | with_reducible apply State.wr_moves
    | with_reducible apply State.modPair_moves | with_reducible apply State.raise_moves | with_reducible apply setRole_moves
    | with_reducible apply markLast_moves | with_reducible apply Moves.ite | split
    | (with_reducible refine Moves.snd (by assumption) ?_) | (with_reducible refine Moves.fst (by assumption) ?_)
    | with_reducible apply Moves.raw

theorem seizeReceived_moves {w : Mem → Bool} {s0 : State} (x0 : Nat) {s : State} (hs : Moves w s0 s) :
    Moves w s0 (seizeReceived x0 s) := by
  unfold seizeReceived
  try dsimp only
  repeat'
    first
    | with_reducible assumption | intro _ | with_reducible apply gotSeized_moves | with_reducible apply Moves.ite | split
    | (with_reducible refine Moves.snd (by assumption) ?_) | (with_reducible refine Moves.fst (by assumption) ?_)

theorem mateDrivingSeen_moves {w : Mem → Bool} {s0 : State} (x0 : Nat) {s : State} (hs : Moves w s0 s) :
    Moves w s0 (mateDrivingSeen x0 s) := by
  unfold mateDrivingSeen
  try dsimp only
  repeat'
    first
    | with_reducible assumption | intro _ | with_reducible apply gotSeized_moves | with_reducible apply Moves.ite | split
    | (with_reducible refine Moves.snd (by assumption) ?_) | (with_reducible refine Moves.fst (by assumption) ?_)

theorem snapshotStart_moves {w : Mem → Bool} {s0 : State} (x0 : Nat) {s : State} (hs : Moves w s0 s) :
    Moves w s0 (snapshotStart x0 s) := by
  unfold snapshotStart
  try dsimp only
  repeat'
    first
    | with_reducible assumption | intro _ | with_reducible apply State.modFwd_moves | with_reducible apply State.modPair_moves
    | with_reducible apply State.wr_moves | with_reducible apply State.modLpt_moves | with_reducible apply State.forEach_moves
    | with_reducible apply State.modEnc_moves | with_reducible apply State.modTrk_moves | with_reducible apply Moves.ite | split
    | (with_reducible refine Moves.snd (by assumption) ?_) | (with_reducible refine Moves.fst (by assumption) ?_)
    | with_reducible apply Moves.raw

theorem snapshotFail_moves {w : Mem → Bool} {s0 : State} (x0 : Nat) {s : State} (hs : Moves w s0 s) :
    Moves w s0 (snapshotFail x0 s) := by
  unfold snapshotFail
  try dsimp only
  repeat'
    first
    | with_reducible assumption | intro _ | with_reducible apply State.raise_moves | with_reducible apply State.modPair_moves
    | with_reducible apply State.wr_moves | with_reducible apply Moves.ite | split
    | (with_reducible refine Moves.snd (by assumption) ?_) | (with_reducible refine Moves.fst (by assumption) ?_)
    | with_reducible apply Moves.raw

theorem resyncTimeout_moves {w : Mem → Bool} {s0 : State} (x0 : Nat) {s : State} (hs : Moves w s0 s) :
    Moves w s0 (resyncTimeout x0 s) := by
  unfold resyncTimeout
  try dsimp only
  repeat'
    first
    | with_reducible assumption | intro _ | with_reducible apply snapshotFail_moves | with_reducible apply State.passTo_moves
    | with_reducible apply Moves.ite | split | (with_reducible refine Moves.snd (by assumption) ?_)
    | (with_reducible refine Moves.fst (by assumption) ?_)

theorem resyncRetry_moves {w : Mem → Bool} {s0 : State} (x0 : Nat) {s : State} (hs : Moves w s0 s) :
    Moves w s0 (resyncRetry x0 s) := by
  unfold resyncRetry
  try dsimp only
  repeat'
    first
    | with_reducible assumption | intro _ | with_reducible apply snapshotStart_moves | with_reducible apply State.passTo_moves
    | with_reducible apply Moves.ite | split | (with_reducible refine Moves.snd (by assumption) ?_)
    | (with_reducible refine Moves.fst (by assumption) ?_)

theorem copyWord_moves {w : Mem → Bool} {s0 : State} (x0 : Nat) (x1 : Nat) (x2 : Nat) (x3 : Word) {s : State} (hs : Moves w s0 s) :
    Moves w s0 (copyWord x0 x1 x2 x3 s) := by
  unfold copyWord
  try dsimp only
  repeat'
    first
    | with_reducible assumption | intro _ | with_reducible apply State.setReg_moves | with_reducible apply Moves.ite | split
    | (with_reducible refine Moves.snd (by assumption) ?_) | (with_reducible refine Moves.fst (by assumption) ?_)

theorem copyAxisSets_moves {w : Mem → Bool} {s0 : State} (x0 : Nat) (x1 : Nat) {s : State} (hs : Moves w s0 s) :
    Moves w s0 (copyAxisSets x0 x1 s) := by
  unfold copyAxisSets
  try dsimp only
  repeat'
    first
    | with_reducible assumption | intro _ | with_reducible apply State.forEach_moves | with_reducible apply copyWord_moves
    | with_reducible apply Moves.foldl | (with_reducible refine Moves.foldlBy Prod.snd ?_ ?_)
    | (with_reducible refine Moves.foldlBy Prod.fst ?_ ?_) | (with_reducible refine Moves.foldlBy WordRun.s ?_ ?_)
    | with_reducible apply Moves.ite | split | (with_reducible refine Moves.snd (by assumption) ?_)
    | (with_reducible refine Moves.fst (by assumption) ?_)

theorem copySettings_moves {w : Mem → Bool} {s0 : State} (x0 : Nat) (x1 : Nat) (x2 : Nat) {s : State} (hs : Moves w s0 s) :
    Moves w s0 (copySettings x0 x1 x2 s) := by
  unfold copySettings
  try dsimp only
  repeat'
    first
    | with_reducible assumption | intro _ | with_reducible apply State.modExc_moves | with_reducible apply State.modTrk_moves
    | with_reducible apply State.modEnc_moves | with_reducible apply copyWord_moves | with_reducible apply State.wr_moves
    | with_reducible apply State.modLaw_moves | with_reducible apply Moves.ite | split
    | (with_reducible refine Moves.snd (by assumption) ?_) | (with_reducible refine Moves.fst (by assumption) ?_)
    | with_reducible apply Moves.raw

theorem copySlots_moves {w : Mem → Bool} {s0 : State} (x0 : Nat) (x1 : Nat) (x2 : Nat) (x3 : Nat) (x4 : Nat) {s : State} (hs : Moves w s0
    s) (hwprogmem : w .progmem = true) :
    Moves w s0 (copySlots x0 x1 x2 x3 x4 s) := by
  unfold copySlots
  try dsimp only
  repeat'
    first
    | with_reducible assumption | intro _ | with_reducible apply State.forEach_moves | with_reducible apply State.setSw_moves
    | with_reducible apply Moves.ite | split | (with_reducible refine Moves.snd (by assumption) ?_)
    | (with_reducible refine Moves.fst (by assumption) ?_)

theorem copyFade_moves {w : Mem → Bool} {s0 : State} (x0 : Nat) (x1 : Nat) (x2 : Nat) {s : State} (hs : Moves w s0 s) :
    Moves w s0 (copyFade x0 x1 x2 s) := by
  unfold copyFade
  try dsimp only
  repeat'
    first
    | with_reducible assumption | intro _ | with_reducible apply copyWord_moves | with_reducible apply State.wr_moves
    | with_reducible apply State.modLaw_moves | with_reducible apply Moves.ite | split
    | (with_reducible refine Moves.snd (by assumption) ?_) | (with_reducible refine Moves.fst (by assumption) ?_)
    | with_reducible apply Moves.raw

theorem copyTracker_moves {w : Mem → Bool} {s0 : State} (x0 : Nat) (x1 : Nat) (x2 : Nat) {s : State} (hs : Moves w s0 s) :
    Moves w s0 (copyTracker x0 x1 x2 s) := by
  unfold copyTracker
  try dsimp only
  repeat'
    first
    | with_reducible assumption | intro _ | with_reducible apply State.modTrk_moves | with_reducible apply Moves.ite | split
    | (with_reducible refine Moves.snd (by assumption) ?_) | (with_reducible refine Moves.fst (by assumption) ?_)
    | with_reducible apply Moves.raw

theorem copyLpt_moves {w : Mem → Bool} {s0 : State} (x0 : Nat) (x1 : Nat) {s : State} (hs : Moves w s0 s) :
    Moves w s0 (copyLpt x0 x1 s) := by
  unfold copyLpt
  try dsimp only
  repeat'
    first
    | with_reducible assumption | intro _ | with_reducible apply State.modLpt_moves | with_reducible apply itemApplied_moves
    | with_reducible apply Moves.ite | split | (with_reducible refine Moves.snd (by assumption) ?_)
    | (with_reducible refine Moves.fst (by assumption) ?_) | with_reducible apply Moves.raw

theorem copyEncoder_moves {w : Mem → Bool} {s0 : State} (x0 : Nat) (x1 : Nat) (x2 : Nat) {s : State} (hs : Moves w s0 s) :
    Moves w s0 (copyEncoder x0 x1 x2 s) := by
  unfold copyEncoder
  try dsimp only
  repeat'
    first
    | with_reducible assumption | intro _ | with_reducible apply State.modEnc_moves | with_reducible apply Moves.ite | split
    | (with_reducible refine Moves.snd (by assumption) ?_) | (with_reducible refine Moves.fst (by assumption) ?_)
    | with_reducible apply Moves.raw

theorem copyCarrel_moves {w : Mem → Bool} {s0 : State} (x0 : Nat) (x1 : Nat) {s : State} (hs : Moves w s0 s) :
    Moves w s0 (copyCarrel x0 x1 s) := by
  unfold copyCarrel
  try dsimp only
  repeat'
    first
    | with_reducible assumption | intro _ | with_reducible apply State.forEach_moves | with_reducible apply State.modEntry_moves
    | with_reducible apply copyWord_moves | with_reducible apply State.wr_moves | with_reducible apply State.modSlot_moves
    | with_reducible apply Moves.foldl | (with_reducible refine Moves.foldlBy Prod.snd ?_ ?_)
    | (with_reducible refine Moves.foldlBy Prod.fst ?_ ?_) | (with_reducible refine Moves.foldlBy WordRun.s ?_ ?_)
    | with_reducible apply Moves.ite | split | (with_reducible refine Moves.snd (by assumption) ?_)
    | (with_reducible refine Moves.fst (by assumption) ?_) | with_reducible apply Moves.raw

theorem copyPwm_moves {w : Mem → Bool} {s0 : State} (x0 : Nat) (x1 : Nat) (x2 : Nat) {s : State} (hs : Moves w s0 s) :
    Moves w s0 (copyPwm x0 x1 x2 s) := by
  unfold copyPwm
  try dsimp only
  repeat'
    first
    | with_reducible assumption | intro _ | with_reducible apply State.forEach_moves | with_reducible apply State.wr_moves
    | with_reducible apply State.modLeg_moves | with_reducible apply Moves.ite | split
    | (with_reducible refine Moves.snd (by assumption) ?_) | (with_reducible refine Moves.fst (by assumption) ?_)
    | with_reducible apply Moves.raw

theorem snapshotItem_moves {w : Mem → Bool} {s0 : State} (x0 : Nat) (x1 : Nat) (x2 : Nat) (x3 : Nat) {s : State} (hs : Moves w s0 s)
    (hwprogmem : w .progmem = true) :
    Moves w s0 (snapshotItem x0 x1 x2 x3 s) := by
  unfold snapshotItem
  try dsimp only
  repeat'
    first
    | with_reducible assumption | intro _ | with_reducible apply State.forEach_moves | with_reducible apply copySettings_moves
    | with_reducible apply copyFade_moves | with_reducible apply copySlots_moves | with_reducible apply copyTracker_moves
    | with_reducible apply copyLpt_moves | with_reducible apply copyEncoder_moves | with_reducible apply copyCarrel_moves
    | with_reducible apply copyPwm_moves | with_reducible apply Moves.ite | split
    | (with_reducible refine Moves.snd (by assumption) ?_) | (with_reducible refine Moves.fst (by assumption) ?_)

theorem pairSnapshotItem_moves {w : Mem → Bool} {s0 : State} (x0 : Nat) (x1 : Nat) (x2 : Nat) (x3 : Bool) {s : State} (hs : Moves w s0
    s) (hwprogmem : w .progmem = true) :
    Moves w s0 (pairSnapshotItem x0 x1 x2 x3 s) := by
  unfold pairSnapshotItem
  try dsimp only
  repeat'
    first
    | with_reducible assumption | intro _ | with_reducible apply State.inject_moves | with_reducible apply snapshotFail_moves
    | with_reducible apply copyAxisSets_moves | with_reducible apply snapshotItem_moves | with_reducible apply itemApplied_moves
    | with_reducible apply Moves.ite | split | (with_reducible refine Moves.snd (by assumption) ?_)
    | (with_reducible refine Moves.fst (by assumption) ?_)

theorem shadowCompare_moves {w : Mem → Bool} {s0 : State} (x0 : Nat) (x1 : Nat) (x2 : Nat) (x3 : Nat) {s : State} (hs : Moves w s0 s) :
    Moves w s0 (shadowCompare x0 x1 x2 x3 s) := by
  unfold shadowCompare
  try dsimp only
  repeat'
    first
    | with_reducible assumption | intro _ | with_reducible apply State.modPair_moves | with_reducible apply State.addSat_moves
    | with_reducible apply snapshotStart_moves | with_reducible apply unready_moves | with_reducible apply Moves.ite | split
    | (with_reducible refine Moves.snd (by assumption) ?_) | (with_reducible refine Moves.fst (by assumption) ?_)
    | with_reducible apply Moves.raw

theorem shadowTimeExpiry_moves {w : Mem → Bool} {s0 : State} (x0 : Nat) {s : State} (hs : Moves w s0 s) :
    Moves w s0 (shadowTimeExpiry x0 s) := by
  unfold shadowTimeExpiry
  try dsimp only
  repeat'
    first
    | with_reducible assumption | intro _ | with_reducible apply State.passTo_moves | with_reducible apply State.wr_moves
    | with_reducible apply State.raise_moves | with_reducible apply Moves.ite | split
    | (with_reducible refine Moves.snd (by assumption) ?_) | (with_reducible refine Moves.fst (by assumption) ?_)

theorem putHost_moves {w : Mem → Bool} {s0 s : State} (a : Nat) (bs : List Byte) (h : Moves w s0 s) (hw : w .hostmem = true) :
    Moves w s0 (putHost s a bs) := by
  unfold putHost
  refine Moves.foldlBy Prod.fst h fun p b hp => ?_
  exact hp.hostmem hw fun hc => Store.wf_set (fun _ => 0) p.1.hostmem _ b hc

theorem msixSend_moves {w : Mem → Bool} {s0 : State} (x0 : Nat) (x1 : Nat) {s : State} (hs : Moves w s0 s) :
    Moves w s0 (msixSend x0 x1 s) := by
  unfold msixSend
  try dsimp only
  repeat'
    first
    | with_reducible assumption | intro _ | with_reducible apply State.modMsix_moves | with_reducible apply Moves.ite | split
    | (with_reducible refine Moves.snd (by assumption) ?_) | (with_reducible refine Moves.fst (by assumption) ?_)
    | with_reducible apply Moves.raw

theorem msixFlush_moves {w : Mem → Bool} {s0 : State} (x0 : Nat) {s : State} (hs : Moves w s0 s) :
    Moves w s0 (msixFlush x0 s) := by
  unfold msixFlush
  try dsimp only
  repeat'
    first
    | with_reducible assumption | intro _ | with_reducible apply State.forEach_moves | with_reducible apply msixSend_moves
    | with_reducible apply State.modMsix_moves | with_reducible apply Moves.ite | split
    | (with_reducible refine Moves.snd (by assumption) ?_) | (with_reducible refine Moves.fst (by assumption) ?_)
    | with_reducible apply Moves.raw

theorem showMsix_moves {w : Mem → Bool} {s0 : State} (x0 : Nat) {s : State} (hs : Moves w s0 s) :
    Moves w s0 (showMsix x0 s) := by
  unfold showMsix
  try dsimp only
  repeat'
    first
    | with_reducible assumption | intro _ | with_reducible apply State.wr_moves | with_reducible apply Moves.ite | split
    | (with_reducible refine Moves.snd (by assumption) ?_) | (with_reducible refine Moves.fst (by assumption) ?_)

theorem msixUnmask_moves {w : Mem → Bool} {s0 : State} (x0 : Nat) (x1 : Nat) (x2 : Bool) {s : State} (hs : Moves w s0 s) :
    Moves w s0 (msixUnmask x0 x1 x2 s) := by
  unfold msixUnmask
  try dsimp only
  repeat'
    first
    | with_reducible assumption | intro _ | with_reducible apply State.modMsix_moves | with_reducible apply msixFlush_moves
    | with_reducible apply showMsix_moves | with_reducible apply Moves.ite | split
    | (with_reducible refine Moves.snd (by assumption) ?_) | (with_reducible refine Moves.fst (by assumption) ?_)
    | with_reducible apply Moves.raw

theorem ringShadow_moves {w : Mem → Bool} {s0 : State} (x0 : Nat) (x1 : Nat) {s : State} (hs : Moves w s0 s) (hwhostmem : w .hostmem
    = true) :
    Moves w s0 (ringShadow x0 x1 s) := by
  unfold ringShadow
  try dsimp only
  repeat'
    first
    | with_reducible assumption | intro _ | with_reducible apply State.modRing_moves | with_reducible apply putHost_moves
    | with_reducible apply Moves.ite | split | (with_reducible refine Moves.snd (by assumption) ?_)
    | (with_reducible refine Moves.fst (by assumption) ?_) | with_reducible apply Moves.raw

theorem ringErr_moves {w : Mem → Bool} {s0 : State} (x0 : Nat) (x1 : Nat) {s : State} (hs : Moves w s0 s) :
    Moves w s0 (ringErr x0 x1 s) := by
  unfold ringErr
  try dsimp only
  repeat'
    first
    | with_reducible assumption | intro _ | with_reducible apply State.raise_moves | with_reducible apply Moves.ite | split
    | (with_reducible refine Moves.snd (by assumption) ?_) | (with_reducible refine Moves.fst (by assumption) ?_)

theorem ringHalt_moves {w : Mem → Bool} {s0 : State} (x0 : Nat) (x1 : Nat) (x2 : Nat) {s : State} (hs : Moves w s0 s) (hwhostmem : w
    .hostmem = true) :
    Moves w s0 (ringHalt x0 x1 x2 s) := by
  unfold ringHalt
  try dsimp only
  repeat'
    first
    | with_reducible assumption | intro _ | with_reducible apply ringShadow_moves | with_reducible apply State.wr_moves
    | with_reducible apply Moves.ite | split | (with_reducible refine Moves.snd (by assumption) ?_)
    | (with_reducible refine Moves.fst (by assumption) ?_)

theorem showShares_moves {w : Mem → Bool} {s0 : State} (x0 : Nat) {s : State} (hs : Moves w s0 s) :
    Moves w s0 (showShares x0 s) := by
  unfold showShares
  try dsimp only
  repeat'
    first
    | with_reducible assumption | intro _ | with_reducible apply State.wr_moves | with_reducible apply Moves.ite | split
    | (with_reducible refine Moves.snd (by assumption) ?_) | (with_reducible refine Moves.fst (by assumption) ?_)

theorem ringEnable_moves {w : Mem → Bool} {s0 : State} (x0 : Nat) (x1 : Nat) {s : State} (hs : Moves w s0 s) (hwhostmem : w .hostmem
    = true) :
    Moves w s0 (ringEnable x0 x1 s) := by
  unfold ringEnable
  try dsimp only
  repeat'
    first
    | with_reducible assumption | intro _ | with_reducible apply ringErr_moves | with_reducible apply State.wr_moves
    | with_reducible apply State.modRing_moves | with_reducible apply ringShadow_moves | with_reducible apply showShares_moves
    | with_reducible apply Moves.ite | split | (with_reducible refine Moves.snd (by assumption) ?_)
    | (with_reducible refine Moves.fst (by assumption) ?_)

theorem showFw_moves {w : Mem → Bool} {s0 : State} (x0 : Nat) {s : State} (hs : Moves w s0 s) :
    Moves w s0 (showFw x0 s) := by
  unfold showFw
  try dsimp only
  repeat'
    first
    | with_reducible assumption | intro _ | with_reducible apply State.wr_moves | with_reducible apply Moves.ite | split
    | (with_reducible refine Moves.snd (by assumption) ?_) | (with_reducible refine Moves.fst (by assumption) ?_)

theorem keepFw_moves {w : Mem → Bool} {s0 : State} (x0 : FwEnt → Bool) {s : State} (hs : Moves w s0 s) :
    Moves w s0 (keepFw x0 s) := by
  unfold keepFw
  try dsimp only
  repeat'
    first
    | with_reducible assumption | intro _ | with_reducible apply State.forEach_moves | with_reducible apply showFw_moves
    | with_reducible apply State.modFwq_moves | with_reducible apply Moves.ite | split
    | (with_reducible refine Moves.snd (by assumption) ?_) | (with_reducible refine Moves.fst (by assumption) ?_)

theorem ringOff_moves {w : Mem → Bool} {s0 : State} (x0 : Nat) (x1 : Nat) {s : State} (hs : Moves w s0 s) (hwhostmem : w .hostmem =
    true) :
    Moves w s0 (ringOff x0 x1 s) := by
  unfold ringOff
  try dsimp only
  repeat'
    first
    | with_reducible assumption | intro _ | with_reducible apply State.modRing_moves | with_reducible apply State.wr_moves
    | with_reducible apply keepFw_moves | with_reducible apply ringShadow_moves | with_reducible apply State.forEach_moves
    | with_reducible apply ringHalt_moves | with_reducible apply showShares_moves | with_reducible apply Moves.ite | split
    | (with_reducible refine Moves.snd (by assumption) ?_) | (with_reducible refine Moves.fst (by assumption) ?_)
    | with_reducible apply Moves.raw

theorem ringDisable_moves {w : Mem → Bool} {s0 : State} (x0 : Nat) (x1 : Nat) {s : State} (hs : Moves w s0 s) (hwhostmem : w
    .hostmem = true) :
    Moves w s0 (ringDisable x0 x1 s) := by
  unfold ringDisable
  try dsimp only
  repeat'
    first
    | with_reducible assumption | intro _ | with_reducible apply State.wr_moves | with_reducible apply showShares_moves
    | with_reducible apply ringShadow_moves | with_reducible apply State.modRing_moves | with_reducible apply ringOff_moves
    | with_reducible apply Moves.ite | split | (with_reducible refine Moves.snd (by assumption) ?_)
    | (with_reducible refine Moves.fst (by assumption) ?_) | with_reducible apply Moves.raw

theorem ringCfgWrite_moves {w : Mem → Bool} {s0 : State} (x0 : Nat) (x1 : Nat) (x2 : Word) (x3 : Nat) {s : State} (hs : Moves w s0 s)
    (hwhostmem : w .hostmem = true) :
    Moves w s0 (ringCfgWrite x0 x1 x2 x3 s) := by
  unfold ringCfgWrite
  try dsimp only
  repeat'
    first
    | with_reducible assumption | intro _ | with_reducible apply State.setReg_moves | with_reducible apply ringEnable_moves
    | with_reducible apply State.accessFault_moves | with_reducible apply ringDisable_moves | with_reducible apply Moves.ite
    | split | (with_reducible refine Moves.snd (by assumption) ?_) | (with_reducible refine Moves.fst (by assumption) ?_)

theorem ringFixedWrite_moves {w : Mem → Bool} {s0 : State} (x0 : Nat) (x1 : Nat) (x2 : Nat) (x3 : Word) (x4 : Nat) {s : State} (hs :
    Moves w s0 s) :
    Moves w s0 (ringFixedWrite x0 x1 x2 x3 x4 s) := by
  unfold ringFixedWrite
  try dsimp only
  repeat'
    first
    | with_reducible assumption | intro _ | with_reducible apply State.setReg_moves
    | with_reducible apply State.accessFault_moves | with_reducible apply Moves.ite | split
    | (with_reducible refine Moves.snd (by assumption) ?_) | (with_reducible refine Moves.fst (by assumption) ?_)

theorem ringSignal_moves {w : Mem → Bool} {s0 : State} (x0 : Nat) (x1 : Nat) {s : State} (hs : Moves w s0 s) :
    Moves w s0 (ringSignal x0 x1 s) := by
  unfold ringSignal
  try dsimp only
  repeat'
    first
    | with_reducible assumption | intro _ | with_reducible apply msixSend_moves | with_reducible apply State.modRing_moves
    | with_reducible apply Moves.ite | split | (with_reducible refine Moves.snd (by assumption) ?_)
    | (with_reducible refine Moves.fst (by assumption) ?_) | with_reducible apply Moves.raw

theorem ringPut_moves {w : Mem → Bool} {s0 : State} (x0 : Nat) (x1 : Nat) (x2 : List Byte) {s : State} (hs : Moves w s0 s)
    (hwhostmem : w .hostmem = true) :
    Moves w s0 (ringPut x0 x1 x2 s) := by
  unfold ringPut
  try dsimp only
  repeat'
    first
    | with_reducible assumption | intro _ | with_reducible apply putHost_moves | with_reducible apply State.wr_moves
    | with_reducible apply ringSignal_moves | with_reducible apply ringShadow_moves | with_reducible apply Moves.ite | split
    | (with_reducible refine Moves.snd (by assumption) ?_) | (with_reducible refine Moves.fst (by assumption) ?_)

theorem ringOffer_moves {w : Mem → Bool} {s0 : State} (x0 : Nat) (x1 : Nat) (x2 : List Byte) {s : State} (hs : Moves w s0 s)
    (hwhostmem : w .hostmem = true) :
    Moves w s0 (ringOffer x0 x1 x2 s) := by
  unfold ringOffer
  try dsimp only
  repeat'
    first
    | with_reducible assumption | intro _ | with_reducible apply State.modRing_moves | with_reducible apply ringPut_moves
    | with_reducible apply showShares_moves | with_reducible apply State.addSat_moves | with_reducible apply State.raise_moves
    | with_reducible apply Moves.ite | split | (with_reducible refine Moves.snd (by assumption) ?_)
    | (with_reducible refine Moves.fst (by assumption) ?_) | with_reducible apply Moves.raw

theorem ringDrain_moves {w : Mem → Bool} {s0 : State} (d r k : Nat) {s : State} (h : Moves w s0 s) (hw : w .hostmem = true) :
    Moves w s0 (ringDrain d r k s) := by
  induction k generalizing s with
  | zero => exact h
  | succ k ih =>
    unfold ringDrain
    split
    · exact h
    · split
      · exact ih (ringPut_moves _ _ _ (State.modRing_moves _ _ _ h) hw)
      · exact h

theorem moderation_moves {w : Mem → Bool} {s0 : State} (x0 : Nat) (x1 : Nat) {s : State} (hs : Moves w s0 s) :
    Moves w s0 (moderation x0 x1 s) := by
  unfold moderation
  try dsimp only
  repeat'
    first
    | with_reducible assumption | intro _ | with_reducible apply State.passTo_moves | with_reducible apply msixSend_moves
    | with_reducible apply State.modRing_moves | with_reducible apply Moves.ite | split
    | (with_reducible refine Moves.snd (by assumption) ?_) | (with_reducible refine Moves.fst (by assumption) ?_)
    | with_reducible apply Moves.raw

theorem evtOffer_moves {w : Mem → Bool} {s0 : State} (x0 : Nat) (x1 : Nat) (x2 : List Byte) (x3 : List Byte) {s : State} (hs : Moves
    w s0 s) (hwhostmem : w .hostmem = true) :
    Moves w s0 (evtOffer x0 x1 x2 x3 s) := by
  unfold evtOffer
  try dsimp only
  repeat'
    first
    | with_reducible assumption | intro _ | with_reducible apply State.forEach_moves | with_reducible apply ringOffer_moves
    | with_reducible apply State.modRing_moves | with_reducible apply Moves.ite | split
    | (with_reducible refine Moves.snd (by assumption) ?_) | (with_reducible refine Moves.fst (by assumption) ?_)
    | with_reducible apply Moves.raw

theorem telOffer_moves {w : Mem → Bool} {s0 : State} (x0 : Nat) (x1 : Nat) (x2 : Nat) (x3 : Nat) (x4 : List TelRec) {s : State} (hs :
    Moves w s0 s) (hwhostmem : w .hostmem = true) :
    Moves w s0 (telOffer x0 x1 x2 x3 x4 s) := by
  unfold telOffer
  try dsimp only
  repeat'
    first
    | with_reducible assumption | intro _ | with_reducible apply State.forEach_moves | with_reducible apply State.modRing_moves
    | with_reducible apply ringOffer_moves | with_reducible apply Moves.foldl
    | (with_reducible refine Moves.foldlBy Prod.snd ?_ ?_) | (with_reducible refine Moves.foldlBy Prod.fst ?_ ?_)
    | (with_reducible refine Moves.foldlBy WordRun.s ?_ ?_) | with_reducible apply Moves.ite | split
    | (with_reducible refine Moves.snd (by assumption) ?_) | (with_reducible refine Moves.fst (by assumption) ?_)
    | with_reducible apply Moves.raw

theorem fwLine_moves {w : Mem → Bool} {s0 : State} (x0 : Nat) (x1 : Nat) {s : State} (hs : Moves w s0 s) :
    Moves w s0 (fwLine x0 x1 s) := by
  unfold fwLine
  try dsimp only
  repeat'
    first
    | with_reducible assumption | intro _ | with_reducible apply State.setIrqs_moves | with_reducible apply Moves.ite | split
    | (with_reducible refine Moves.snd (by assumption) ?_) | (with_reducible refine Moves.fst (by assumption) ?_)

theorem doorbell_moves {w : Mem → Bool} {s0 : State} (x0 : Nat) (x1 : Nat) (x2 : Nat) (x3 : Nat) {s : State} (hs : Moves w s0 s)
    (hwhostmem : w .hostmem = true) :
    Moves w s0 (doorbell x0 x1 x2 x3 s) := by
  unfold doorbell
  try dsimp only
  repeat'
    first
    | with_reducible assumption | intro _ | with_reducible apply ringErr_moves | with_reducible apply ringHalt_moves
    | with_reducible apply fwLine_moves | with_reducible apply State.wr_moves | with_reducible apply Moves.ite | split
    | (with_reducible refine Moves.snd (by assumption) ?_) | (with_reducible refine Moves.fst (by assumption) ?_)

theorem descriptorFetch_moves {w : Mem → Bool} {s0 : State} (x0 : Nat) (x1 : Nat) (x2 : Bool) (x3 : List Byte) {s : State} (hs :
    Moves w s0 s) (hwhostmem : w .hostmem = true) :
    Moves w s0 (descriptorFetch x0 x1 x2 x3 s) := by
  unfold descriptorFetch
  try dsimp only
  repeat'
    first
    | with_reducible assumption | intro _ | with_reducible apply State.raise_moves | with_reducible apply ringHalt_moves
    | with_reducible apply State.modFwq_moves | with_reducible apply showFw_moves | with_reducible apply State.setIrqs_moves
    | with_reducible apply showShares_moves | with_reducible apply State.modRing_moves | with_reducible apply ringShadow_moves
    | with_reducible apply State.wr_moves | with_reducible apply Moves.ite | split
    | (with_reducible refine Moves.snd (by assumption) ?_) | (with_reducible refine Moves.fst (by assumption) ?_)
    | with_reducible apply Moves.raw

theorem postCpl_moves {w : Mem → Bool} {s0 : State} (x0 : Nat) (x1 : Nat) (x2 : List Byte) (x3 : Nat) (x4 : Nat) (x5 : Nat) {s : State}
    (hs : Moves w s0 s) (hwhostmem : w .hostmem = true) :
    Moves w s0 (postCpl x0 x1 x2 x3 x4 x5 s) := by
  unfold postCpl
  try dsimp only
  repeat'
    first
    | with_reducible assumption | intro _ | with_reducible apply ringOffer_moves | with_reducible apply Moves.ite | split
    | (with_reducible refine Moves.snd (by assumption) ?_) | (with_reducible refine Moves.fst (by assumption) ?_)

theorem fwPop_moves {w : Mem → Bool} {s0 : State} (x0 : Nat) {s : State} (hs : Moves w s0 s) (hwhostmem : w .hostmem = true) :
    Moves w s0 (fwPop x0 s) := by
  unfold fwPop
  try dsimp only
  repeat'
    first
    | with_reducible assumption | intro _ | with_reducible apply State.modFwq_moves | with_reducible apply State.wr_moves
    | with_reducible apply showFw_moves | with_reducible apply fwLine_moves | with_reducible apply ringShadow_moves
    | with_reducible apply Moves.ite | split | (with_reducible refine Moves.snd (by assumption) ?_)
    | (with_reducible refine Moves.fst (by assumption) ?_)

theorem fwPost_moves {w : Mem → Bool} {s0 : State} (x0 : Nat) {s : State} (hs : Moves w s0 s) (hwhostmem : w .hostmem = true) :
    Moves w s0 (fwPost x0 s) := by
  unfold fwPost
  try dsimp only
  repeat'
    first
    | with_reducible assumption | intro _ | with_reducible apply postCpl_moves | with_reducible apply ringErr_moves
    | with_reducible apply Moves.ite | split | (with_reducible refine Moves.snd (by assumption) ?_)
    | (with_reducible refine Moves.fst (by assumption) ?_)

theorem fwCtlWrite_moves {w : Mem → Bool} {s0 : State} (x0 : Word) (x1 : Nat) {s : State} (hs : Moves w s0 s) (hwhostmem : w
    .hostmem = true) :
    Moves w s0 (fwCtlWrite x0 x1 s) := by
  unfold fwCtlWrite
  try dsimp only
  repeat'
    first
    | with_reducible assumption | intro _ | with_reducible apply fwPost_moves | with_reducible apply fwPop_moves
    | with_reducible apply Moves.ite | split | (with_reducible refine Moves.snd (by assumption) ?_)
    | (with_reducible refine Moves.fst (by assumption) ?_)

theorem fwCmdLatch_moves {w : Mem → Bool} {s0 : State} (x0 : Nat) {s : State} (hs : Moves w s0 s) :
    Moves w s0 (fwCmdLatch x0 s) := by
  unfold fwCmdLatch
  try dsimp only
  repeat'
    first
    | with_reducible assumption | intro _ | with_reducible apply State.wr_moves | with_reducible apply State.latchWords_moves
    | with_reducible apply Moves.ite | split | (with_reducible refine Moves.snd (by assumption) ?_)
    | (with_reducible refine Moves.fst (by assumption) ?_)

theorem linkTrained_moves {w : Mem → Bool} {s0 : State} (x0 : Nat) (x1 : Nat) (x2 : Nat) {s : State} (hs : Moves w s0 s) :
    Moves w s0 (linkTrained x0 x1 x2 s) := by
  unfold linkTrained
  try dsimp only
  repeat'
    first
    | with_reducible assumption | intro _ | with_reducible apply State.wr_moves | with_reducible apply Moves.ite | split
    | (with_reducible refine Moves.snd (by assumption) ?_) | (with_reducible refine Moves.fst (by assumption) ?_)

theorem functionOff_moves {w : Mem → Bool} {s0 : State} (x0 : Nat) {s : State} (hs : Moves w s0 s) :
    Moves w s0 (functionOff x0 s) := by
  unfold functionOff
  try dsimp only
  repeat'
    first
    | with_reducible assumption | intro _ | with_reducible apply State.forEach_moves | with_reducible apply State.modRing_moves
    | with_reducible apply State.wr_moves | with_reducible apply keepFw_moves | with_reducible apply State.modSignq_moves
    | with_reducible apply showMsix_moves | with_reducible apply showShares_moves | with_reducible apply State.modMsix_moves
    | with_reducible apply Moves.ite | split | (with_reducible refine Moves.snd (by assumption) ?_)
    | (with_reducible refine Moves.fst (by assumption) ?_) | with_reducible apply Moves.raw

theorem functionLost_moves {w : Mem → Bool} {s0 : State} (x0 : Nat) (x1 : Nat) {s : State} (hs : Moves w s0 s) :
    Moves w s0 (functionLost x0 x1 s) := by
  unfold functionLost
  try dsimp only
  repeat'
    first
    | with_reducible assumption | intro _ | with_reducible apply functionOff_moves | with_reducible apply State.forEach_moves
    | with_reducible apply State.wr_moves | with_reducible apply State.addSat_moves | with_reducible apply State.raise_moves
    | with_reducible apply Moves.ite | split | (with_reducible refine Moves.snd (by assumption) ?_)
    | (with_reducible refine Moves.fst (by assumption) ?_)

theorem d3hotChange_moves {w : Mem → Bool} {s0 : State} (x0 : Nat) (x1 : Bool) {s : State} (hs : Moves w s0 s) (hwhostmem : w
    .hostmem = true) :
    Moves w s0 (d3hotChange x0 x1 s) := by
  unfold d3hotChange
  try dsimp only
  repeat'
    first
    | with_reducible assumption | intro _ | with_reducible apply State.wr_moves | with_reducible apply State.forEach_moves
    | with_reducible apply ringDrain_moves | with_reducible apply ringShadow_moves | with_reducible apply msixFlush_moves
    | with_reducible apply Moves.ite | split | (with_reducible refine Moves.snd (by assumption) ?_)
    | (with_reducible refine Moves.fst (by assumption) ?_)

theorem rootFail_moves {w : Mem → Bool} {s0 : State} (x0 : Nat) {s : State} (hs : Moves w s0 s) :
    Moves w s0 (rootFail x0 s) := by
  unfold rootFail
  try dsimp only
  repeat'
    first
    | with_reducible assumption | intro _ | with_reducible apply State.raise_moves | with_reducible apply State.modDie_moves
    | with_reducible apply Moves.ite | split | (with_reducible refine Moves.snd (by assumption) ?_)
    | (with_reducible refine Moves.fst (by assumption) ?_) | with_reducible apply Moves.raw

theorem rootGood_moves {w : Mem → Bool} {s0 : State} (x0 : Nat) {s : State} (hs : Moves w s0 s) :
    Moves w s0 (rootGood x0 s) := by
  unfold rootGood
  try dsimp only
  repeat'
    first
    | with_reducible assumption | intro _ | with_reducible apply State.raise_moves | with_reducible apply State.modDie_moves
    | with_reducible apply Moves.ite | split | (with_reducible refine Moves.snd (by assumption) ?_)
    | (with_reducible refine Moves.fst (by assumption) ?_) | with_reducible apply Moves.raw

theorem watchJudge_moves {w : Mem → Bool} {s0 : State} (x0 : Nat) (x1 : Bool) {s : State} (hs : Moves w s0 s) :
    Moves w s0 (watchJudge x0 x1 s) := by
  unfold watchJudge
  try dsimp only
  repeat'
    first
    | with_reducible assumption | intro _ | with_reducible apply State.wr_moves | with_reducible apply State.modDie_moves
    | with_reducible apply State.raise_moves | with_reducible apply Moves.ite | split
    | (with_reducible refine Moves.snd (by assumption) ?_) | (with_reducible refine Moves.fst (by assumption) ?_)
    | with_reducible apply Moves.raw

theorem clockWindow_moves {w : Mem → Bool} {s0 : State} (x0 : Nat) (x1 : Bool) (x2 : Nat) {s : State} (hs : Moves w s0 s) :
    Moves w s0 (clockWindow x0 x1 x2 s) := by
  unfold clockWindow
  try dsimp only
  repeat'
    first
    | with_reducible assumption | intro _ | with_reducible apply State.wr_moves | with_reducible apply State.modDie_moves
    | with_reducible apply watchJudge_moves | with_reducible apply rootFail_moves | with_reducible apply rootGood_moves
    | with_reducible apply State.raise_moves | with_reducible apply Moves.ite | split
    | (with_reducible refine Moves.snd (by assumption) ?_) | (with_reducible refine Moves.fst (by assumption) ?_)
    | with_reducible apply Moves.raw

theorem refclkReturn_moves {w : Mem → Bool} {s0 : State} (x0 : Nat) {s : State} (hs : Moves w s0 s) :
    Moves w s0 (refclkReturn x0 s) := by
  unfold refclkReturn
  try dsimp only
  repeat'
    first
    | with_reducible assumption | intro _ | with_reducible apply State.modDie_moves | with_reducible apply State.wr_moves
    | with_reducible apply Moves.ite | split | (with_reducible refine Moves.snd (by assumption) ?_)
    | (with_reducible refine Moves.fst (by assumption) ?_) | with_reducible apply Moves.raw

theorem rootRelocked_moves {w : Mem → Bool} {s0 : State} (x0 : Nat) {s : State} (hs : Moves w s0 s) :
    Moves w s0 (rootRelocked x0 s) := by
  unfold rootRelocked
  try dsimp only
  repeat'
    first
    | with_reducible assumption | intro _ | with_reducible apply State.modDie_moves | with_reducible apply State.wr_moves
    | with_reducible apply rootGood_moves | with_reducible apply State.raise_moves | with_reducible apply Moves.ite | split
    | (with_reducible refine Moves.snd (by assumption) ?_) | (with_reducible refine Moves.fst (by assumption) ?_)
    | with_reducible apply Moves.raw

theorem holdoverTimeout_moves {w : Mem → Bool} {s0 : State} (x0 : Nat) {s : State} (hs : Moves w s0 s) :
    Moves w s0 (holdoverTimeout x0 s) := by
  unfold holdoverTimeout
  try dsimp only
  repeat'
    first
    | with_reducible assumption | intro _ | with_reducible apply rootFail_moves | with_reducible apply State.pass_moves
    | with_reducible apply Moves.ite | split | (with_reducible refine Moves.snd (by assumption) ?_)
    | (with_reducible refine Moves.fst (by assumption) ?_)

theorem rootLate_moves {w : Mem → Bool} {s0 : State} (x0 : Nat) {s : State} (hs : Moves w s0 s) :
    Moves w s0 (rootLate x0 s) := by
  unfold rootLate
  try dsimp only
  repeat'
    first
    | with_reducible assumption | intro _ | with_reducible apply rootFail_moves | with_reducible apply Moves.ite | split
    | (with_reducible refine Moves.snd (by assumption) ?_) | (with_reducible refine Moves.fst (by assumption) ?_)

theorem spineLink_moves {w : Mem → Bool} {s0 : State} (x0 : Nat) (x1 : Bool) {s : State} (hs : Moves w s0 s) :
    Moves w s0 (spineLink x0 x1 s) := by
  unfold spineLink
  try dsimp only
  repeat'
    first
    | with_reducible assumption | intro _ | with_reducible apply State.forEach_moves | with_reducible apply State.raise_moves
    | with_reducible apply rootLate_moves | with_reducible apply Moves.ite | split
    | (with_reducible refine Moves.snd (by assumption) ?_) | (with_reducible refine Moves.fst (by assumption) ?_)
    | with_reducible apply Moves.raw

theorem showMaster_moves {w : Mem → Bool} {s0 : State} {s : State} (hs : Moves w s0 s) :
    Moves w s0 (showMaster s) := by
  unfold showMaster
  try dsimp only
  repeat'
    first
    | with_reducible assumption | intro _ | with_reducible apply State.forEach_moves | with_reducible apply State.wr_moves
    | with_reducible apply Moves.ite | split | (with_reducible refine Moves.snd (by assumption) ?_)
    | (with_reducible refine Moves.fst (by assumption) ?_)

theorem raiseMaster_moves {w : Mem → Bool} {s0 : State} (x0 : Nat) (x1 : Nat) {s : State} (hs : Moves w s0 s) :
    Moves w s0 (raiseMaster x0 x1 s) := by
  unfold raiseMaster
  try dsimp only
  repeat'
    first
    | with_reducible assumption | intro _ | with_reducible apply State.raise_moves | with_reducible apply Moves.ite | split
    | (with_reducible refine Moves.snd (by assumption) ?_) | (with_reducible refine Moves.fst (by assumption) ?_)

theorem showRem_moves {w : Mem → Bool} {s0 : State} (x0 : Nat) (x1 : Int) {s : State} (hs : Moves w s0 s) :
    Moves w s0 (showRem x0 x1 s) := by
  unfold showRem
  try dsimp only
  repeat'
    first
    | with_reducible assumption | intro _ | with_reducible apply State.wrI_moves | with_reducible apply Moves.ite | split
    | (with_reducible refine Moves.snd (by assumption) ?_) | (with_reducible refine Moves.fst (by assumption) ?_)

theorem masterMoves_moves {w : Mem → Bool} {s0 : State} (x0 : Nat) (x1 : Nat) {s : State} (hs : Moves w s0 s) :
    Moves w s0 (masterMoves x0 x1 s) := by
  unfold masterMoves
  try dsimp only
  repeat'
    first
    | with_reducible assumption | intro _ | with_reducible apply State.modTrm_moves | with_reducible apply showRem_moves
    | with_reducible apply Moves.ite | split | (with_reducible refine Moves.snd (by assumption) ?_)
    | (with_reducible refine Moves.fst (by assumption) ?_) | with_reducible apply Moves.raw

theorem alignTime_moves {w : Mem → Bool} {s0 : State} (x0 : Nat) {s : State} (hs : Moves w s0 s) :
    Moves w s0 (alignTime x0 s) := by
  unfold alignTime
  try dsimp only
  repeat'
    first
    | with_reducible assumption | intro _ | with_reducible apply State.raise_moves | with_reducible apply State.modDie_moves
    | with_reducible apply State.wr_moves | with_reducible apply masterMoves_moves | with_reducible apply showMaster_moves
    | with_reducible apply Moves.ite | split | (with_reducible refine Moves.snd (by assumption) ?_)
    | (with_reducible refine Moves.fst (by assumption) ?_) | with_reducible apply Moves.raw

theorem spineTime_moves {w : Mem → Bool} {s0 : State} (x0 : Nat) (x1 : Int) {s : State} (hs : Moves w s0 s) :
    Moves w s0 (spineTime x0 x1 s) := by
  unfold spineTime
  try dsimp only
  repeat'
    first
    | with_reducible assumption | intro _ | with_reducible apply State.inject_moves | with_reducible apply State.wr_moves
    | with_reducible apply State.wrI_moves | with_reducible apply alignTime_moves | with_reducible apply showMaster_moves
    | with_reducible apply State.raise_moves | with_reducible apply Moves.ite | split
    | (with_reducible refine Moves.snd (by assumption) ?_) | (with_reducible refine Moves.fst (by assumption) ?_)

theorem setRem_moves {w : Mem → Bool} {s0 : State} (x0 : Int) {s : State} (hs : Moves w s0 s) :
    Moves w s0 (setRem x0 s) := by
  unfold setRem
  try dsimp only
  repeat'
    first
    | with_reducible assumption | intro _ | with_reducible apply showRem_moves | with_reducible apply State.raise_moves
    | with_reducible apply State.wr_moves | with_reducible apply Moves.ite | split
    | (with_reducible refine Moves.snd (by assumption) ?_) | (with_reducible refine Moves.fst (by assumption) ?_)
    | with_reducible apply Moves.raw

theorem askStep_moves {w : Mem → Bool} {s0 : State} (x0 : Nat) (x1 : Bool) {s : State} (hs : Moves w s0 s) :
    Moves w s0 (askStep x0 x1 s) := by
  unfold askStep
  try dsimp only
  repeat'
    first
    | with_reducible assumption | intro _ | with_reducible apply Moves.ite | split
    | (with_reducible refine Moves.snd (by assumption) ?_) | (with_reducible refine Moves.fst (by assumption) ?_)
    | with_reducible apply Moves.raw

theorem ptAdjWrite_moves {w : Mem → Bool} {s0 : State} (x0 : Word) (x1 : Nat) {s : State} (hs : Moves w s0 s) :
    Moves w s0 (ptAdjWrite x0 x1 s) := by
  unfold ptAdjWrite
  try dsimp only
  repeat'
    first
    | with_reducible assumption | intro _ | with_reducible apply State.wr_moves | with_reducible apply State.raise_moves
    | with_reducible apply setRem_moves | with_reducible apply askStep_moves | with_reducible apply Moves.ite | split
    | (with_reducible refine Moves.snd (by assumption) ?_) | (with_reducible refine Moves.fst (by assumption) ?_)

theorem slewTick_moves {w : Mem → Bool} {s0 : State} {s : State} (h : Moves w s0 s) : Moves w s0 (slewTick s) := by
  unfold slewTick
  dsimp only
  split
  · exact h
  · split
    · exact h
    · have hp := State.passTo_moves s.slewFrom h
      exact Moves.raw (showRem_moves _ _ ⟨hp.dies, hp.grade, hp.pending, Nat.le_trans hp.now (Nat.le_add_right _ _), hp.canon, hp.mems⟩)

theorem ptStepTick_moves {w : Mem → Bool} {s0 : State} {s : State} (hs : Moves w s0 s) (hwdram : w .dram = true) :
    Moves w s0 (ptStepTick s) := by
  unfold ptStepTick
  try dsimp only
  repeat'
    first
    | with_reducible assumption | intro _ | with_reducible apply State.passTo_moves | with_reducible apply showRem_moves
    | with_reducible apply State.forEach_moves | with_reducible apply State.modStk_moves | with_reducible apply stkClose_moves
    | with_reducible apply State.modFil_moves | with_reducible apply setRem_moves | with_reducible apply State.raise_moves
    | with_reducible apply State.wr_moves | with_reducible apply Moves.ite | split
    | (with_reducible refine Moves.snd (by assumption) ?_) | (with_reducible refine Moves.fst (by assumption) ?_)
    | with_reducible apply Moves.raw

theorem frameBad_moves {w : Mem → Bool} {s0 : State} (x0 : Nat) (x1 : Nat) {s : State} (hs : Moves w s0 s) :
    Moves w s0 (frameBad x0 x1 s) := by
  unfold frameBad
  try dsimp only
  repeat'
    first
    | with_reducible assumption | intro _ | with_reducible apply State.raise_moves | with_reducible apply State.addSat_moves
    | with_reducible apply Moves.ite | split | (with_reducible refine Moves.snd (by assumption) ?_)
    | (with_reducible refine Moves.fst (by assumption) ?_)

theorem portDrain_moves {w : Mem → Bool} {s0 : State} (d k : Nat) {s : State} (h : Moves w s0 s) : Moves w s0 (portDrain d k s) := by
  induction k generalizing s with
  | zero => exact h
  | succ k ih =>
    unfold portDrain
    dsimp only
    split
    · exact h
    · split
      · exact h
      · exact ih (State.modPort_moves _ _ h)

theorem portSend_moves {w : Mem → Bool} {s0 : State} (x0 : Nat) (x1 : List Byte) {s : State} (hs : Moves w s0 s) :
    Moves w s0 (portSend x0 x1 s) := by
  unfold portSend
  try dsimp only
  repeat'
    first
    | with_reducible assumption | intro _ | with_reducible apply portDrain_moves | with_reducible apply State.addSat_moves
    | with_reducible apply State.modPort_moves | with_reducible apply Moves.ite | split
    | (with_reducible refine Moves.snd (by assumption) ?_) | (with_reducible refine Moves.fst (by assumption) ?_)
    | with_reducible apply Moves.raw

theorem deliver_moves {w : Mem → Bool} {s0 : State} (x0 : Nat) (x1 : List Byte) (x2 : Bool) {s : State} (hs : Moves w s0 s) :
    Moves w s0 (deliver x0 x1 x2 s) := by
  unfold deliver
  try dsimp only
  repeat'
    first
    | with_reducible assumption | intro _ | with_reducible apply State.modTrm_moves | with_reducible apply Moves.ite | split
    | (with_reducible refine Moves.snd (by assumption) ?_) | (with_reducible refine Moves.fst (by assumption) ?_)
    | with_reducible apply Moves.raw

theorem noRoute_moves {w : Mem → Bool} {s0 : State} (x0 : Nat) (x1 : Nat) {s : State} (hs : Moves w s0 s) :
    Moves w s0 (noRoute x0 x1 s) := by
  unfold noRoute
  try dsimp only
  repeat'
    first
    | with_reducible assumption | intro _ | with_reducible apply State.raise_moves | with_reducible apply Moves.ite | split
    | (with_reducible refine Moves.snd (by assumption) ?_) | (with_reducible refine Moves.fst (by assumption) ?_)

theorem route_moves {w : Mem → Bool} {s0 : State} (x0 : Nat) (x1 : List Byte) {s : State} (hs : Moves w s0 s) :
    Moves w s0 (route x0 x1 s) := by
  unfold route
  try dsimp only
  repeat'
    first
    | with_reducible assumption | intro _ | with_reducible apply noRoute_moves | with_reducible apply portSend_moves
    | with_reducible apply Moves.ite | split | (with_reducible refine Moves.snd (by assumption) ?_)
    | (with_reducible refine Moves.fst (by assumption) ?_)

theorem broadcast_moves {w : Mem → Bool} {s0 : State} (x0 : Nat) (x1 : Option Nat) (x2 : List Byte) {s : State} (hs : Moves w s0 s)
    :
    Moves w s0 (broadcast x0 x1 x2 s) := by
  unfold broadcast
  try dsimp only
  repeat'
    first
    | with_reducible assumption | intro _ | with_reducible apply State.forEach_moves | with_reducible apply deliver_moves
    | with_reducible apply portSend_moves | with_reducible apply Moves.ite | split
    | (with_reducible refine Moves.snd (by assumption) ?_) | (with_reducible refine Moves.fst (by assumption) ?_)

theorem originate_moves {w : Mem → Bool} {s0 : State} (x0 : Nat) (x1 : Nat) (x2 : Bool) (x3 : Nat) (x4 : List Byte) {s : State} (hs :
    Moves w s0 s) :
    Moves w s0 (originate x0 x1 x2 x3 x4 s) := by
  unfold originate
  try dsimp only
  repeat'
    first
    | with_reducible assumption | intro _ | with_reducible apply broadcast_moves | with_reducible apply deliver_moves
    | with_reducible apply noRoute_moves | with_reducible apply route_moves | with_reducible apply Moves.ite | split
    | (with_reducible refine Moves.snd (by assumption) ?_) | (with_reducible refine Moves.fst (by assumption) ?_)

theorem beatSend_moves {w : Mem → Bool} {s0 : State} (x0 : Nat) (x1 : Nat) {s : State} (hs : Moves w s0 s) :
    Moves w s0 (beatSend x0 x1 s) := by
  unfold beatSend
  try dsimp only
  repeat'
    first
    | with_reducible assumption | intro _ | with_reducible apply State.modTrm_moves | with_reducible apply State.modPort_moves
    | with_reducible apply portSend_moves | with_reducible apply Moves.ite | split
    | (with_reducible refine Moves.snd (by assumption) ?_) | (with_reducible refine Moves.fst (by assumption) ?_)
    | with_reducible apply Moves.raw

theorem trainStart_moves {w : Mem → Bool} {s0 : State} (x0 : Nat) {s : State} (hs : Moves w s0 s) :
    Moves w s0 (trainStart x0 s) := by
  unfold trainStart
  try dsimp only
  repeat'
    first
    | with_reducible assumption | intro _ | with_reducible apply State.modPort_moves | with_reducible apply State.wr_moves
    | with_reducible apply beatSend_moves | with_reducible apply Moves.ite | split
    | (with_reducible refine Moves.snd (by assumption) ?_) | (with_reducible refine Moves.fst (by assumption) ?_)
    | with_reducible apply Moves.raw

theorem trainingComplete_moves {w : Mem → Bool} {s0 : State} (x0 : Nat) (x1 : Bool) {s : State} (hs : Moves w s0 s) :
    Moves w s0 (trainingComplete x0 x1 s) := by
  unfold trainingComplete
  try dsimp only
  repeat'
    first
    | with_reducible assumption | intro _ | with_reducible apply State.wr_moves | with_reducible apply State.modPort_moves
    | with_reducible apply State.raise_moves | with_reducible apply Moves.ite | split
    | (with_reducible refine Moves.snd (by assumption) ?_) | (with_reducible refine Moves.fst (by assumption) ?_)
    | with_reducible apply Moves.raw

theorem setFabLock_moves {w : Mem → Bool} {s0 : State} (x0 : Bool) {s : State} (hs : Moves w s0 s) :
    Moves w s0 (setFabLock x0 s) := by
  unfold setFabLock
  try dsimp only
  repeat'
    first
    | with_reducible assumption | intro _ | with_reducible apply State.forEach_moves | with_reducible apply State.wr_moves
    | with_reducible apply Moves.ite | split | (with_reducible refine Moves.snd (by assumption) ?_)
    | (with_reducible refine Moves.fst (by assumption) ?_)

theorem timeLost_moves {w : Mem → Bool} {s0 : State} {s : State} (hs : Moves w s0 s) :
    Moves w s0 (timeLost s) := by
  unfold timeLost
  try dsimp only
  repeat'
    first
    | with_reducible assumption | intro _ | with_reducible apply State.raise_moves | with_reducible apply State.modTrm_moves
    | with_reducible apply setFabLock_moves | with_reducible apply Moves.ite | split
    | (with_reducible refine Moves.snd (by assumption) ?_) | (with_reducible refine Moves.fst (by assumption) ?_)
    | with_reducible apply Moves.raw

theorem gmShow_moves {w : Mem → Bool} {s0 : State} (x0 : Nat) {s : State} (hs : Moves w s0 s) :
    Moves w s0 (gmShow x0 s) := by
  unfold gmShow
  try dsimp only
  repeat'
    first
    | with_reducible assumption | intro _ | with_reducible apply State.wr_moves | with_reducible apply timeLost_moves
    | with_reducible apply Moves.ite | split | (with_reducible refine Moves.snd (by assumption) ?_)
    | (with_reducible refine Moves.fst (by assumption) ?_)

theorem linkLoss_moves {w : Mem → Bool} {s0 : State} (x0 : Nat) {s : State} (hs : Moves w s0 s) :
    Moves w s0 (linkLoss x0 s) := by
  unfold linkLoss
  try dsimp only
  repeat'
    first
    | with_reducible assumption | intro _ | with_reducible apply portDrain_moves | with_reducible apply State.addSat_moves
    | with_reducible apply State.modPort_moves | with_reducible apply State.wr_moves | with_reducible apply State.raise_moves
    | with_reducible apply timeLost_moves | with_reducible apply Moves.ite | split
    | (with_reducible refine Moves.snd (by assumption) ?_) | (with_reducible refine Moves.fst (by assumption) ?_)
    | with_reducible apply Moves.raw

theorem teramRetrain_moves {w : Mem → Bool} {s0 : State} (x0 : Nat) {s : State} (hs : Moves w s0 s) :
    Moves w s0 (teramRetrain x0 s) := by
  unfold teramRetrain
  try dsimp only
  repeat'
    first
    | with_reducible assumption | intro _ | with_reducible apply trainStart_moves | with_reducible apply State.passTo_moves
    | with_reducible apply Moves.ite | split | (with_reducible refine Moves.snd (by assumption) ?_)
    | (with_reducible refine Moves.fst (by assumption) ?_)

theorem beatKeepSend_moves {w : Mem → Bool} {s0 : State} (x0 : Nat) {s : State} (hs : Moves w s0 s) :
    Moves w s0 (beatKeepSend x0 s) := by
  unfold beatKeepSend
  try dsimp only
  repeat'
    first
    | with_reducible assumption | intro _ | with_reducible apply State.toNext_moves | with_reducible apply beatSend_moves
    | with_reducible apply Moves.ite | split | (with_reducible refine Moves.snd (by assumption) ?_)
    | (with_reducible refine Moves.fst (by assumption) ?_)

theorem helloReceive_moves {w : Mem → Bool} {s0 : State} (x0 : Nat) (x1 : List Byte) {s : State} (hs : Moves w s0 s) :
    Moves w s0 (helloReceive x0 x1 s) := by
  unfold helloReceive
  try dsimp only
  repeat'
    first
    | with_reducible assumption | intro _ | with_reducible apply State.wr_moves | with_reducible apply State.modPort_moves
    | with_reducible apply Moves.ite | split | (with_reducible refine Moves.snd (by assumption) ?_)
    | (with_reducible refine Moves.fst (by assumption) ?_) | with_reducible apply Moves.raw

theorem knownShow_moves {w : Mem → Bool} {s0 : State} (x0 : Nat) {s : State} (hs : Moves w s0 s) :
    Moves w s0 (knownShow x0 s) := by
  unfold knownShow
  try dsimp only
  repeat'
    first
    | with_reducible assumption | intro _ | with_reducible apply gmShow_moves | with_reducible apply State.wr_moves
    | with_reducible apply Moves.ite | split | (with_reducible refine Moves.snd (by assumption) ?_)
    | (with_reducible refine Moves.fst (by assumption) ?_)

theorem announceReceive_moves {w : Mem → Bool} {s0 : State} (x0 : Nat) (x1 : List Byte) {s : State} (hs : Moves w s0 s) :
    Moves w s0 (announceReceive x0 x1 s) := by
  unfold announceReceive
  try dsimp only
  repeat'
    first
    | with_reducible assumption | intro _ | with_reducible apply State.forEach_moves | with_reducible apply State.modTrm_moves
    | with_reducible apply State.raise_moves | with_reducible apply State.wr_moves | with_reducible apply knownShow_moves
    | with_reducible apply portSend_moves | with_reducible apply Moves.ite | split
    | (with_reducible refine Moves.snd (by assumption) ?_) | (with_reducible refine Moves.fst (by assumption) ?_)
    | with_reducible apply Moves.raw

theorem beatReceive_moves {w : Mem → Bool} {s0 : State} (x0 : Nat) (x1 : List Byte) {s : State} (hs : Moves w s0 s) :
    Moves w s0 (beatReceive x0 x1 s) := by
  unfold beatReceive
  try dsimp only
  repeat'
    first
    | with_reducible assumption | intro _ | with_reducible apply helloReceive_moves | with_reducible apply announceReceive_moves
    | with_reducible apply Moves.ite | split | (with_reducible refine Moves.snd (by assumption) ?_)
    | (with_reducible refine Moves.fst (by assumption) ?_)

theorem arrive_moves {w : Mem → Bool} {s0 : State} (x0 : Nat) (x1 : List Byte) {x2 : List Byte → State → State} {s : State} (hx2 :
    ∀ a0 u, Moves w s0 u → Moves w s0 (x2 a0 u)) (hs : Moves w s0 s) :
    Moves w s0 (arrive x0 x1 x2 s) := by
  unfold arrive
  try dsimp only
  repeat'
    first
    | with_reducible assumption | intro _ | with_reducible apply State.inject_moves | with_reducible apply frameBad_moves
    | with_reducible apply hx2 | with_reducible apply Moves.ite | split | (with_reducible refine Moves.snd (by assumption) ?_)
    | (with_reducible refine Moves.fst (by assumption) ?_)

theorem announceOriginate_moves {w : Mem → Bool} {s0 : State} {s : State} (hs : Moves w s0 s) :
    Moves w s0 (announceOriginate s) := by
  unfold announceOriginate
  try dsimp only
  repeat'
    first
    | with_reducible assumption | intro _ | with_reducible apply State.toNext_moves | with_reducible apply State.forEach_moves
    | with_reducible apply portSend_moves | with_reducible apply Moves.ite | split
    | (with_reducible refine Moves.snd (by assumption) ?_) | (with_reducible refine Moves.fst (by assumption) ?_)
    | with_reducible apply Moves.raw

theorem knownExpiry_moves {w : Mem → Bool} {s0 : State} (x0 : Nat) (x1 : Nat) {s : State} (hs : Moves w s0 s) :
    Moves w s0 (knownExpiry x0 x1 s) := by
  unfold knownExpiry
  try dsimp only
  repeat'
    first
    | with_reducible assumption | intro _ | with_reducible apply State.passTo_moves | with_reducible apply knownShow_moves
    | with_reducible apply State.modTrm_moves | with_reducible apply Moves.ite | split
    | (with_reducible refine Moves.snd (by assumption) ?_) | (with_reducible refine Moves.fst (by assumption) ?_)
    | with_reducible apply Moves.raw

theorem departStamp_moves {w : Mem → Bool} {s0 : State} (x0 : Nat) (x1 : Nat) {s : State} (hs : Moves w s0 s) :
    Moves w s0 (departStamp x0 x1 s).2 := by
  unfold departStamp
  try dsimp only
  repeat'
    first
    | with_reducible assumption | intro _ | with_reducible apply portDrain_moves | with_reducible apply State.drew_moves
    | with_reducible apply Moves.ite | split | (with_reducible refine Moves.snd (by assumption) ?_)
    | (with_reducible refine Moves.fst (by assumption) ?_)

theorem timeSyncSend_moves {w : Mem → Bool} {s0 : State} (x0 : Nat) (x1 : Nat) {s : State} (hs : Moves w s0 s) :
    Moves w s0 (timeSyncSend x0 x1 s) := by
  unfold timeSyncSend
  try dsimp only
  repeat'
    first
    | with_reducible assumption | intro _ | with_reducible apply State.toNext_moves | with_reducible apply departStamp_moves
    | with_reducible apply portSend_moves | with_reducible apply State.modTrm_moves | with_reducible apply Moves.ite | split
    | (with_reducible refine Moves.snd (by assumption) ?_) | (with_reducible refine Moves.fst (by assumption) ?_)
    | with_reducible apply Moves.raw

theorem timeSync_moves {w : Mem → Bool} {s0 : State} (x0 : Nat) (x1 : Nat) (x2 : List Byte) {s : State} (hs : Moves w s0 s) :
    Moves w s0 (timeSync x0 x1 x2 s) := by
  unfold timeSync
  try dsimp only
  repeat'
    first
    | with_reducible assumption | intro _ | with_reducible apply departStamp_moves | with_reducible apply portSend_moves
    | with_reducible apply Moves.ite | split | (with_reducible refine Moves.snd (by assumption) ?_)
    | (with_reducible refine Moves.fst (by assumption) ?_)

theorem timeReply_moves {w : Mem → Bool} {s0 : State} (x0 : Nat) (x1 : Nat) (x2 : List Byte) {s : State} (hs : Moves w s0 s) :
    Moves w s0 (timeReply x0 x1 x2 s) := by
  unfold timeReply
  try dsimp only
  repeat'
    first
    | with_reducible assumption | intro _ | with_reducible apply State.modTrm_moves | with_reducible apply State.near_moves
    | with_reducible apply State.wr_moves | with_reducible apply State.wrI_moves | with_reducible apply Moves.ite | split
    | (with_reducible refine Moves.snd (by assumption) ?_) | (with_reducible refine Moves.fst (by assumption) ?_)
    | with_reducible apply Moves.raw

theorem timeReceive_moves {w : Mem → Bool} {s0 : State} (x0 : Nat) (x1 : Nat) (x2 : List Byte) {s : State} (hs : Moves w s0 s) :
    Moves w s0 (timeReceive x0 x1 x2 s) := by
  unfold timeReceive
  try dsimp only
  repeat'
    first
    | with_reducible assumption | intro _ | with_reducible apply timeSync_moves | with_reducible apply timeReply_moves
    | with_reducible apply Moves.ite | split | (with_reducible refine Moves.snd (by assumption) ?_)
    | (with_reducible refine Moves.fst (by assumption) ?_)

theorem fabricOffset_moves {w : Mem → Bool} {s0 : State} (x0 : Nat) {s : State} (hs : Moves w s0 s) :
    Moves w s0 (fabricOffset x0 s) := by
  unfold fabricOffset
  try dsimp only
  repeat'
    first
    | with_reducible assumption | intro _ | with_reducible apply State.modTrm_moves | with_reducible apply setRem_moves
    | with_reducible apply askStep_moves | with_reducible apply timeLost_moves | with_reducible apply setFabLock_moves
    | with_reducible apply Moves.ite | split | (with_reducible refine Moves.snd (by assumption) ?_)
    | (with_reducible refine Moves.fst (by assumption) ?_) | with_reducible apply Moves.raw

theorem anglePayload_moves {w : Mem → Bool} {s0 : State} (x0 : Nat) (x1 : Nat) (x2 : Nat) (x3 : Nat) {s : State} (hs : Moves w s0 s) :
    Moves w s0 (anglePayload x0 x1 x2 x3 s).2 := by
  unfold anglePayload
  try dsimp only
  repeat'
    first
    | with_reducible assumption | intro _ | with_reducible apply State.near_moves | with_reducible apply mechPos_moves
    | with_reducible apply angleAt_moves | with_reducible apply Moves.ite | split
    | (with_reducible refine Moves.snd (by assumption) ?_) | (with_reducible refine Moves.fst (by assumption) ?_)

theorem angleSlot_moves {w : Mem → Bool} {s0 : State} (x0 : Nat) (x1 : Nat) {s : State} (hs : Moves w s0 s) :
    Moves w s0 (angleSlot x0 x1 s) := by
  unfold angleSlot
  try dsimp only
  repeat'
    first
    | with_reducible assumption | intro _ | with_reducible apply State.modTrm_moves | with_reducible apply anglePayload_moves
    | with_reducible apply originate_moves | with_reducible apply Moves.ite | split
    | (with_reducible refine Moves.snd (by assumption) ?_) | (with_reducible refine Moves.fst (by assumption) ?_)
    | with_reducible apply Moves.raw

theorem angleSend_moves {w : Mem → Bool} {s0 : State} (x0 : Nat) (x1 : Nat) {s : State} (hs : Moves w s0 s) :
    Moves w s0 (angleSend x0 x1 s) := by
  unfold angleSend
  try dsimp only
  repeat'
    first
    | with_reducible assumption | intro _ | with_reducible apply State.forEach_moves | with_reducible apply angleSlot_moves
    | with_reducible apply Moves.ite | split | (with_reducible refine Moves.snd (by assumption) ?_)
    | (with_reducible refine Moves.fst (by assumption) ?_)

theorem takeRx_moves {w : Mem → Bool} {s0 : State} (x0 : Nat) (x1 : List Byte → Bool) {s : State} (hs : Moves w s0 s) :
    Moves w s0 (takeRx x0 x1 s).2 := by
  unfold takeRx
  try dsimp only
  repeat'
    first
    | with_reducible assumption | intro _ | with_reducible apply State.modTrm_moves | with_reducible apply Moves.ite | split
    | (with_reducible refine Moves.snd (by assumption) ?_) | (with_reducible refine Moves.fst (by assumption) ?_)
    | with_reducible apply Moves.raw

theorem angleTake_moves {w : Mem → Bool} {s0 : State} (x0 : Nat) (x1 : RxFrame) {s : State} (hs : Moves w s0 s) :
    Moves w s0 (angleTake x0 x1 s) := by
  unfold angleTake
  try dsimp only
  repeat'
    first
    | with_reducible assumption | intro _ | with_reducible apply State.raise_moves | with_reducible apply portSend_moves
    | with_reducible apply State.modChan_moves | with_reducible apply State.addSat_moves
    | with_reducible apply State.wrBit_moves | with_reducible apply Moves.ite | split
    | (with_reducible refine Moves.snd (by assumption) ?_) | (with_reducible refine Moves.fst (by assumption) ?_)
    | with_reducible apply Moves.raw

theorem angleReceive_moves {w : Mem → Bool} {s0 : State} (x0 : Nat) {s : State} (hs : Moves w s0 s) :
    Moves w s0 (angleReceive x0 s) := by
  unfold angleReceive
  try dsimp only
  repeat'
    first
    | with_reducible assumption | intro _ | with_reducible apply takeRx_moves | with_reducible apply angleTake_moves
    | with_reducible apply Moves.ite | split | (with_reducible refine Moves.snd (by assumption) ?_)
    | (with_reducible refine Moves.fst (by assumption) ?_)

theorem angleTimeout_moves {w : Mem → Bool} {s0 : State} (x0 : Nat) (x1 : Nat) {s : State} (hs : Moves w s0 s) :
    Moves w s0 (angleTimeout x0 x1 s) := by
  unfold angleTimeout
  try dsimp only
  repeat'
    first
    | with_reducible assumption | intro _ | with_reducible apply State.passTo_moves | with_reducible apply State.modChan_moves
    | with_reducible apply State.addSat_moves | with_reducible apply State.wrBit_moves | with_reducible apply State.raise_moves
    | with_reducible apply Moves.ite | split | (with_reducible refine Moves.snd (by assumption) ?_)
    | (with_reducible refine Moves.fst (by assumption) ?_) | with_reducible apply Moves.raw

theorem arxMaskWrite_moves {w : Mem → Bool} {s0 : State} (x0 : Nat) (x1 : Word) (x2 : Nat) {s : State} (hs : Moves w s0 s) :
    Moves w s0 (arxMaskWrite x0 x1 x2 s) := by
  unfold arxMaskWrite
  try dsimp only
  repeat'
    first
    | with_reducible assumption | intro _ | with_reducible apply State.setReg_moves | with_reducible apply State.forEach_moves
    | with_reducible apply State.modChan_moves | with_reducible apply Moves.ite | split
    | (with_reducible refine Moves.snd (by assumption) ?_) | (with_reducible refine Moves.fst (by assumption) ?_)
    | with_reducible apply Moves.raw

theorem showBytes_moves {w : Mem → Bool} {s0 : State} (x0 : Nat) (x1 : Nat) (x2 : List Byte) {s : State} (hs : Moves w s0 s) :
    Moves w s0 (showBytes x0 x1 x2 s) := by
  unfold showBytes
  try dsimp only
  repeat'
    first
    | with_reducible assumption | intro _ | with_reducible apply State.forEach_moves | with_reducible apply State.setReg_moves
    | with_reducible apply Moves.ite | split | (with_reducible refine Moves.snd (by assumption) ?_)
    | (with_reducible refine Moves.fst (by assumption) ?_)

theorem showMbox_moves {w : Mem → Bool} {s0 : State} (x0 : Nat) {s : State} (hs : Moves w s0 s) :
    Moves w s0 (showMbox x0 s) := by
  unfold showMbox
  try dsimp only
  repeat'
    first
    | with_reducible assumption | intro _ | with_reducible apply showBytes_moves | with_reducible apply State.setIrqs_moves
    | with_reducible apply State.wr_moves | with_reducible apply Moves.ite | split
    | (with_reducible refine Moves.snd (by assumption) ?_) | (with_reducible refine Moves.fst (by assumption) ?_)

theorem mboxPut_moves {w : Mem → Bool} {s0 : State} (x0 : Nat) (x1 : List Byte) {s : State} (hs : Moves w s0 s) :
    Moves w s0 (mboxPut x0 x1 s).2 := by
  unfold mboxPut
  try dsimp only
  repeat'
    first
    | with_reducible assumption | intro _ | with_reducible apply showMbox_moves | with_reducible apply State.modTrm_moves
    | with_reducible apply Moves.ite | split | (with_reducible refine Moves.snd (by assumption) ?_)
    | (with_reducible refine Moves.fst (by assumption) ?_) | with_reducible apply Moves.raw

theorem eventSend_moves {w : Mem → Bool} {s0 : State} (x0 : Nat) (x1 : Nat) (x2 : List Byte) {s : State} (hs : Moves w s0 s) :
    Moves w s0 (eventSend x0 x1 x2 s) := by
  unfold eventSend
  try dsimp only
  repeat'
    first
    | with_reducible assumption | intro _ | with_reducible apply originate_moves | with_reducible apply Moves.ite | split
    | (with_reducible refine Moves.snd (by assumption) ?_) | (with_reducible refine Moves.fst (by assumption) ?_)

theorem eventFrameReceive_moves {w : Mem → Bool} {s0 : State} (x0 : Nat) {s : State} (hs : Moves w s0 s) :
    Moves w s0 (eventFrameReceive x0 s) := by
  unfold eventFrameReceive
  try dsimp only
  repeat'
    first
    | with_reducible assumption | intro _ | with_reducible apply takeRx_moves | with_reducible apply State.raise_moves
    | with_reducible apply showMbox_moves | with_reducible apply State.modTrm_moves | with_reducible apply State.addSat_moves
    | with_reducible apply Moves.ite | split | (with_reducible refine Moves.snd (by assumption) ?_)
    | (with_reducible refine Moves.fst (by assumption) ?_) | with_reducible apply Moves.raw

theorem accessAnswer_moves {w : Mem → Bool} {s0 : State} (x0 : Nat) (x1 : List Byte) (x2 : Nat) (x3 : Nat) (x4 : List Byte) {s :
    State} (hs : Moves w s0 s) :
    Moves w s0 (accessAnswer x0 x1 x2 x3 x4 s) := by
  unfold accessAnswer
  try dsimp only
  repeat'
    first
    | with_reducible assumption | intro _ | with_reducible apply originate_moves | with_reducible apply Moves.ite | split
    | (with_reducible refine Moves.snd (by assumption) ?_) | (with_reducible refine Moves.fst (by assumption) ?_)

theorem accessMsg_moves {w : Mem → Bool} {s0 : State} (x0 : Nat) {s : State} (hs : Moves w s0 s) :
    Moves w s0 (accessMsg x0 s) := by
  unfold accessMsg
  try dsimp only
  repeat'
    first
    | with_reducible assumption | intro _ | with_reducible apply takeRx_moves | with_reducible apply mboxPut_moves
    | with_reducible apply accessAnswer_moves | with_reducible apply Moves.ite | split
    | (with_reducible refine Moves.snd (by assumption) ?_) | (with_reducible refine Moves.fst (by assumption) ?_)

theorem accessResponse_moves {w : Mem → Bool} {s0 : State} (x0 : Nat) {s : State} (hs : Moves w s0 s) :
    Moves w s0 (accessResponse x0 s) := by
  unfold accessResponse
  try dsimp only
  repeat'
    first
    | with_reducible assumption | intro _ | with_reducible apply takeRx_moves | with_reducible apply mboxPut_moves
    | with_reducible apply State.addSat_moves | with_reducible apply Moves.ite | split
    | (with_reducible refine Moves.snd (by assumption) ?_) | (with_reducible refine Moves.fst (by assumption) ?_)

theorem trmSend_moves {w : Mem → Bool} {s0 : State} (x0 : Nat) {s : State} (hs : Moves w s0 s) :
    Moves w s0 (trmSend x0 s) := by
  unfold trmSend
  try dsimp only
  repeat'
    first
    | with_reducible assumption | intro _ | with_reducible apply frameBad_moves | with_reducible apply originate_moves
    | with_reducible apply Moves.ite | split | (with_reducible refine Moves.snd (by assumption) ?_)
    | (with_reducible refine Moves.fst (by assumption) ?_)

theorem trmPop_moves {w : Mem → Bool} {s0 : State} (x0 : Nat) {s : State} (hs : Moves w s0 s) :
    Moves w s0 (trmPop x0 s) := by
  unfold trmPop
  try dsimp only
  repeat'
    first
    | with_reducible assumption | intro _ | with_reducible apply showMbox_moves | with_reducible apply State.modTrm_moves
    | with_reducible apply Moves.ite | split | (with_reducible refine Moves.snd (by assumption) ?_)
    | (with_reducible refine Moves.fst (by assumption) ?_) | with_reducible apply Moves.raw

theorem trmEpop_moves {w : Mem → Bool} {s0 : State} (x0 : Nat) {s : State} (hs : Moves w s0 s) :
    Moves w s0 (trmEpop x0 s) := by
  unfold trmEpop
  try dsimp only
  repeat'
    first
    | with_reducible assumption | intro _ | with_reducible apply showMbox_moves | with_reducible apply State.modTrm_moves
    | with_reducible apply Moves.ite | split | (with_reducible refine Moves.snd (by assumption) ?_)
    | (with_reducible refine Moves.fst (by assumption) ?_) | with_reducible apply Moves.raw

theorem mboxWrite_moves {w : Mem → Bool} {s0 : State} (x0 : Word) (x1 : Nat) {s : State} (hs : Moves w s0 s) :
    Moves w s0 (mboxWrite x0 x1 s) := by
  unfold mboxWrite
  try dsimp only
  repeat'
    first
    | with_reducible assumption | intro _ | with_reducible apply trmSend_moves | with_reducible apply trmPop_moves
    | with_reducible apply trmEpop_moves | with_reducible apply Moves.ite | split
    | (with_reducible refine Moves.snd (by assumption) ?_) | (with_reducible refine Moves.fst (by assumption) ?_)

theorem frameHand_moves {w : Mem → Bool} {s0 : State} (x0 : Nat) (x1 : List Byte) {s : State} (hs : Moves w s0 s) :
    Moves w s0 (frameHand x0 x1 s) := by
  unfold frameHand
  try dsimp only
  repeat'
    first
    | with_reducible assumption | intro _ | with_reducible apply beatReceive_moves | with_reducible apply timeReceive_moves
    | with_reducible apply State.drew_moves | with_reducible apply broadcast_moves | with_reducible apply deliver_moves
    | with_reducible apply noRoute_moves | with_reducible apply route_moves | with_reducible apply Moves.ite | split
    | (with_reducible refine Moves.snd (by assumption) ?_) | (with_reducible refine Moves.fst (by assumption) ?_)

theorem trackerUpdate_moves {w : Mem → Bool} {s0 : State} (x0 : Nat) (x1 : Nat) (x2 : Nat) {s : State} (hs : Moves w s0 s) :
    Moves w s0 (trackerUpdate x0 x1 x2 s) := by
  unfold trackerUpdate
  try dsimp only
  repeat'
    first
    | with_reducible assumption | intro _ | with_reducible apply State.toNext_moves | with_reducible apply encSnapTake_moves
    | with_reducible apply trkUpdate_moves | with_reducible apply emuAdvance_moves | with_reducible apply emuCopy_moves
    | with_reducible apply angleSend_moves | with_reducible apply Moves.ite | split
    | (with_reducible refine Moves.snd (by assumption) ?_) | (with_reducible refine Moves.fst (by assumption) ?_)

theorem setInt_moves {w : Mem → Bool} {s0 : State} (x0 : Nat) (x1 : Nat) (x2 : Nat) (x3 : Bool) {s : State} (hs : Moves w s0 s) :
    Moves w s0 (setInt x0 x1 x2 x3 s) := by
  unfold setInt
  try dsimp only
  repeat'
    first
    | with_reducible assumption | intro _ | with_reducible apply State.wr_moves | with_reducible apply Moves.ite | split
    | (with_reducible refine Moves.snd (by assumption) ?_) | (with_reducible refine Moves.fst (by assumption) ?_)

theorem flashRead_moves {w : Mem → Bool} {s0 : State} (x0 : Nat) (x1 : Nat) (x2 : Nat) (x3 : Nat) (x4 : Nat) {s : State} (hs : Moves w s0
    s) :
    Moves w s0 (flashRead x0 x1 x2 x3 x4 s).2 := by
  unfold flashRead
  try dsimp only
  repeat'
    first
    | with_reducible assumption | intro _ | with_reducible apply State.inject_moves | with_reducible apply State.raise_moves
    | with_reducible apply State.addSat_moves | with_reducible apply Moves.ite | split
    | (with_reducible refine Moves.snd (by assumption) ?_) | (with_reducible refine Moves.fst (by assumption) ?_)

theorem flashWindow_moves {w : Mem → Bool} {s0 : State} (x0 : Nat) (x1 : Nat) (x2 : Nat) (x3 : Nat) (x4 : Nat) (x5 : Nat) {s : State} (hs :
    Moves w s0 s) :
    Moves w s0 (flashWindow x0 x1 x2 x3 x4 x5 s).2 := by
  unfold flashWindow
  try dsimp only
  repeat'
    first
    | with_reducible assumption | intro _ | with_reducible apply State.accessFault_moves
    | with_reducible apply State.raise_moves | with_reducible apply State.modMark_moves | with_reducible apply flashRead_moves
    | with_reducible apply Moves.ite | split | (with_reducible refine Moves.snd (by assumption) ?_)
    | (with_reducible refine Moves.fst (by assumption) ?_) | with_reducible apply Moves.raw

theorem nvfErr_moves {w : Mem → Bool} {s0 : State} (x0 : Nat) (x1 : Nat) {s : State} (hs : Moves w s0 s) :
    Moves w s0 (nvfErr x0 x1 s) := by
  unfold nvfErr
  try dsimp only
  repeat'
    first
    | with_reducible assumption | intro _ | with_reducible apply State.raise_moves | with_reducible apply State.wr_moves
    | with_reducible apply Moves.ite | split | (with_reducible refine Moves.snd (by assumption) ?_)
    | (with_reducible refine Moves.fst (by assumption) ?_)

theorem unlockFail_moves {w : Mem → Bool} {s0 : State} (x0 : Nat) {s : State} (hs : Moves w s0 s) :
    Moves w s0 (unlockFail x0 s) := by
  unfold unlockFail
  try dsimp only
  repeat'
    first
    | with_reducible assumption | intro _ | with_reducible apply State.wr_moves | with_reducible apply State.raise_moves
    | with_reducible apply Moves.ite | split | (with_reducible refine Moves.snd (by assumption) ?_)
    | (with_reducible refine Moves.fst (by assumption) ?_)

theorem clearKeys_moves {w : Mem → Bool} {s0 : State} (x0 : Nat) {s : State} (hs : Moves w s0 s) :
    Moves w s0 (clearKeys x0 s) := by
  unfold clearKeys
  try dsimp only
  repeat'
    first
    | with_reducible assumption | intro _ | with_reducible apply State.forEach_moves | with_reducible apply State.wr_moves
    | with_reducible apply Moves.ite | split | (with_reducible refine Moves.snd (by assumption) ?_)
    | (with_reducible refine Moves.fst (by assumption) ?_)

theorem nvfStart_moves {w : Mem → Bool} {s0 : State} (x0 : Nat) {s : State} (hs : Moves w s0 s) :
    Moves w s0 (nvfStart x0 s) := by
  unfold nvfStart
  try dsimp only
  repeat'
    first
    | with_reducible assumption | intro _ | with_reducible apply State.modNvf_moves | with_reducible apply State.modMark_moves
    | with_reducible apply State.wr_moves | with_reducible apply Moves.ite | split
    | (with_reducible refine Moves.snd (by assumption) ?_) | (with_reducible refine Moves.fst (by assumption) ?_)
    | with_reducible apply Moves.raw

theorem nvfCmd_moves {w : Mem → Bool} {s0 : State} (x0 : Nat) (x1 : Nat) (x2 : Nat) {s : State} (hs : Moves w s0 s) :
    Moves w s0 (nvfCmd x0 x1 x2 s) := by
  unfold nvfCmd
  try dsimp only
  repeat'
    first
    | with_reducible assumption | intro _ | with_reducible apply clearKeys_moves | with_reducible apply nvfErr_moves
    | with_reducible apply unlockFail_moves | with_reducible apply State.wr_moves | with_reducible apply State.modNvf_moves
    | with_reducible apply nvfStart_moves | with_reducible apply Moves.ite | split
    | (with_reducible refine Moves.snd (by assumption) ?_) | (with_reducible refine Moves.fst (by assumption) ?_)

theorem putUnit_moves {w : Mem → Bool} {s0 : State} (x0 : Nat) (x1 : Nat) (x2 : Nat) (x3 : List Byte) {s : State} (hs : Moves w s0 s)
    (hwflash : w .flash = true) :
    Moves w s0 (putUnit x0 x1 x2 x3 s) := by
  unfold putUnit
  try dsimp only
  repeat'
    first
    | with_reducible assumption | intro _ | with_reducible apply State.forEach_moves | with_reducible apply State.setFlash_moves
    | with_reducible apply Moves.ite | split | (with_reducible refine Moves.snd (by assumption) ?_)
    | (with_reducible refine Moves.fst (by assumption) ?_) | with_reducible apply Moves.raw

theorem eraseSector_moves {w : Mem → Bool} {s0 s : State} (d a k : Nat) (h : Moves w s0 s) (hw : w .flash = true) :
    Moves w s0 (eraseSector d a k s) :=
  Moves.raw (h.flash hw fun hc => Store.wf_drop State.flashDflt s.flash _ _ hc)

theorem nvfComplete_moves {w : Mem → Bool} {s0 : State} (x0 : Nat) {s : State} (hs : Moves w s0 s) (hwflash : w .flash = true) :
    Moves w s0 (nvfComplete x0 s) := by
  unfold nvfComplete
  try dsimp only
  repeat'
    first
    | with_reducible assumption | intro _ | with_reducible apply putUnit_moves | with_reducible apply eraseSector_moves
    | with_reducible apply State.modMark_moves | with_reducible apply setInt_moves | with_reducible apply State.wr_moves
    | with_reducible apply State.modNvf_moves | with_reducible apply State.setIrqs_moves | with_reducible apply Moves.ite
    | split | (with_reducible refine Moves.snd (by assumption) ?_) | (with_reducible refine Moves.fst (by assumption) ?_)
    | with_reducible apply Moves.raw

theorem nvfSuspend_moves {w : Mem → Bool} {s0 : State} (x0 : Nat) {s : State} (hs : Moves w s0 s) :
    Moves w s0 (nvfSuspend x0 s) := by
  unfold nvfSuspend
  try dsimp only
  repeat'
    first
    | with_reducible assumption | intro _ | with_reducible apply State.wr_moves | with_reducible apply Moves.ite | split
    | (with_reducible refine Moves.snd (by assumption) ?_) | (with_reducible refine Moves.fst (by assumption) ?_)

theorem nvfResume_moves {w : Mem → Bool} {s0 : State} (x0 : Nat) {s : State} (hs : Moves w s0 s) :
    Moves w s0 (nvfResume x0 s) := by
  unfold nvfResume
  try dsimp only
  repeat'
    first
    | with_reducible assumption | intro _ | with_reducible apply State.wr_moves | with_reducible apply nvfStart_moves
    | with_reducible apply Moves.ite | split | (with_reducible refine Moves.snd (by assumption) ?_)
    | (with_reducible refine Moves.fst (by assumption) ?_)

theorem nvfAbort_moves {w : Mem → Bool} {s0 : State} (x0 : Nat) {s : State} (hs : Moves w s0 s) (hwflash : w .flash = true) :
    Moves w s0 (nvfAbort x0 s) := by
  unfold nvfAbort
  try dsimp only
  repeat'
    first
    | with_reducible assumption | intro _ | with_reducible apply State.modNvf_moves | with_reducible apply putUnit_moves
    | with_reducible apply State.drew_moves | with_reducible apply Moves.ite | split
    | (with_reducible refine Moves.snd (by assumption) ?_) | (with_reducible refine Moves.fst (by assumption) ?_)

theorem markSelect_moves {w : Mem → Bool} {s0 : State} (x0 : Word) (x1 : Nat) {s : State} (hs : Moves w s0 s) :
    Moves w s0 (markSelect x0 x1 s) := by
  unfold markSelect
  try dsimp only
  repeat'
    first
    | with_reducible assumption | intro _ | with_reducible apply State.drew_moves | with_reducible apply State.wr_moves
    | with_reducible apply Moves.ite | split | (with_reducible refine Moves.snd (by assumption) ?_)
    | (with_reducible refine Moves.fst (by assumption) ?_)

theorem classArea_moves {w : Mem → Bool} {s0 : State} (x0 : Nat) (x1 : Nat) {s : State} (hs : Moves w s0 s) :
    Moves w s0 (classArea x0 x1 s) := by
  unfold classArea
  try dsimp only
  repeat'
    first
    | with_reducible assumption | intro _ | with_reducible apply State.forEach_moves | with_reducible apply State.modMark_moves
    | with_reducible apply setInt_moves | with_reducible apply State.raise_moves | with_reducible apply Moves.ite | split
    | (with_reducible refine Moves.snd (by assumption) ?_) | (with_reducible refine Moves.fst (by assumption) ?_)
    | with_reducible apply Moves.raw

theorem setMode_moves {w : Mem → Bool} {s0 : State} (x0 : Nat) (x1 : Bool) (x2 : Bool) {s : State} (hs : Moves w s0 s) :
    Moves w s0 (setMode x0 x1 x2 s) := by
  unfold setMode
  try dsimp only
  repeat'
    first
    | with_reducible assumption | intro _ | with_reducible apply State.wr_moves | with_reducible apply State.modDie_moves
    | with_reducible apply Moves.ite | split | (with_reducible refine Moves.snd (by assumption) ?_)
    | (with_reducible refine Moves.fst (by assumption) ?_) | with_reducible apply Moves.raw

theorem optApply_moves {w : Mem → Bool} {s0 : State} (x0 : Nat) {s : State} (hs : Moves w s0 s) :
    Moves w s0 (optApply x0 s) := by
  unfold optApply
  try dsimp only
  repeat'
    first
    | with_reducible assumption | intro _ | with_reducible apply State.modDie_moves | with_reducible apply setMode_moves
    | with_reducible apply State.wr_moves | with_reducible apply Moves.foldl
    | (with_reducible refine Moves.foldlBy Prod.snd ?_ ?_) | (with_reducible refine Moves.foldlBy Prod.fst ?_ ?_)
    | (with_reducible refine Moves.foldlBy WordRun.s ?_ ?_) | with_reducible apply Moves.ite | split
    | (with_reducible refine Moves.snd (by assumption) ?_) | (with_reducible refine Moves.fst (by assumption) ?_)
    | with_reducible apply Moves.raw

theorem optCompare_moves {w : Mem → Bool} {s0 : State} (x0 : Nat) {s : State} (hs : Moves w s0 s) :
    Moves w s0 (optCompare x0 s) := by
  unfold optCompare
  try dsimp only
  repeat'
    first
    | with_reducible assumption | intro _ | with_reducible apply State.modDie_moves | with_reducible apply State.holdBalls_moves
    | with_reducible apply State.raise_moves | with_reducible apply setMode_moves | with_reducible apply Moves.ite | split
    | (with_reducible refine Moves.snd (by assumption) ?_) | (with_reducible refine Moves.fst (by assumption) ?_)
    | with_reducible apply Moves.raw

theorem padsOff_moves {w : Mem → Bool} {s0 : State} (x0 : Nat) {s : State} (hs : Moves w s0 s) :
    Moves w s0 (padsOff x0 s) := by
  unfold padsOff
  try dsimp only
  repeat'
    first
    | with_reducible assumption | intro _ | with_reducible apply State.modDie_moves | with_reducible apply State.holdBalls_moves
    | with_reducible apply emuShowAll_moves | with_reducible apply State.forEach_moves
    | with_reducible apply State.takeSafe_moves | with_reducible apply Moves.ite | split
    | (with_reducible refine Moves.snd (by assumption) ?_) | (with_reducible refine Moves.fst (by assumption) ?_)
    | with_reducible apply Moves.raw

theorem optionLoad_moves {w : Mem → Bool} {s0 : State} (x0 : Nat) (x1 : Bool) (x2 : Bool) (x3 : Bool) {s : State} (hs : Moves w s0
    s) :
    Moves w s0 (optionLoad x0 x1 x2 x3 s) := by
  unfold optionLoad
  try dsimp only
  repeat'
    first
    | with_reducible assumption | intro _ | with_reducible apply classArea_moves | with_reducible apply State.wr_moves
    | with_reducible apply State.raise_moves | with_reducible apply padsOff_moves | with_reducible apply State.modDie_moves
    | with_reducible apply optApply_moves | with_reducible apply trainStart_moves | with_reducible apply optCompare_moves
    | with_reducible apply Moves.ite | split | (with_reducible refine Moves.snd (by assumption) ?_)
    | (with_reducible refine Moves.fst (by assumption) ?_) | with_reducible apply Moves.raw

theorem dipStart_moves {w : Mem → Bool} {s0 : State} (x0 : Nat) (x1 : Nat) {s : State} (hs : Moves w s0 s) :
    Moves w s0 (dipStart x0 x1 s) := by
  unfold dipStart
  try dsimp only
  repeat'
    first
    | with_reducible assumption | intro _ | with_reducible apply State.addSat_moves | with_reducible apply State.wrBit_moves
    | with_reducible apply State.wr_moves | with_reducible apply State.modGov_moves | with_reducible apply nvfSuspend_moves
    | with_reducible apply State.raise_moves | with_reducible apply Moves.ite | split
    | (with_reducible refine Moves.snd (by assumption) ?_) | (with_reducible refine Moves.fst (by assumption) ?_)
    | with_reducible apply Moves.raw

theorem railWarning_moves {w : Mem → Bool} {s0 : State} (x0 : Nat) (x1 : Nat) {s : State} (hs : Moves w s0 s) :
    Moves w s0 (railWarning x0 x1 s) := by
  unfold railWarning
  try dsimp only
  repeat'
    first
    | with_reducible assumption | intro _ | with_reducible apply State.modRails_moves | with_reducible apply dipStart_moves
    | with_reducible apply Moves.ite | split | (with_reducible refine Moves.snd (by assumption) ?_)
    | (with_reducible refine Moves.fst (by assumption) ?_) | with_reducible apply Moves.raw

theorem railWarningReturn_moves {w : Mem → Bool} {s0 : State} (x0 : Nat) (x1 : Nat) {s : State} (hs : Moves w s0 s) :
    Moves w s0 (railWarningReturn x0 x1 s) := by
  unfold railWarningReturn
  try dsimp only
  repeat'
    first
    | with_reducible assumption | intro _ | with_reducible apply State.modRails_moves | with_reducible apply State.wrBit_moves
    | with_reducible apply State.modGov_moves | with_reducible apply Moves.ite | split
    | (with_reducible refine Moves.snd (by assumption) ?_) | (with_reducible refine Moves.fst (by assumption) ?_)
    | with_reducible apply Moves.raw

theorem dipEnd_moves {w : Mem → Bool} {s0 : State} (x0 : Nat) {s : State} (hs : Moves w s0 s) :
    Moves w s0 (dipEnd x0 s) := by
  unfold dipEnd
  try dsimp only
  repeat'
    first
    | with_reducible assumption | intro _ | with_reducible apply State.modGov_moves | with_reducible apply State.passTo_moves
    | with_reducible apply nvfResume_moves | with_reducible apply State.raise_moves | with_reducible apply State.wr_moves
    | with_reducible apply Moves.ite | split | (with_reducible refine Moves.snd (by assumption) ?_)
    | (with_reducible refine Moves.fst (by assumption) ?_) | with_reducible apply Moves.raw

theorem highStart_moves {w : Mem → Bool} {s0 : State} (x0 : Nat) (x1 : Nat) {s : State} (hs : Moves w s0 s) :
    Moves w s0 (highStart x0 x1 s) := by
  unfold highStart
  try dsimp only
  repeat'
    first
    | with_reducible assumption | intro _ | with_reducible apply State.raise_moves | with_reducible apply State.wrBit_moves
    | with_reducible apply Moves.ite | split | (with_reducible refine Moves.snd (by assumption) ?_)
    | (with_reducible refine Moves.fst (by assumption) ?_)

theorem railHigh_moves {w : Mem → Bool} {s0 : State} (x0 : Nat) (x1 : Nat) {s : State} (hs : Moves w s0 s) :
    Moves w s0 (railHigh x0 x1 s) := by
  unfold railHigh
  try dsimp only
  repeat'
    first
    | with_reducible assumption | intro _ | with_reducible apply State.modRails_moves | with_reducible apply highStart_moves
    | with_reducible apply Moves.ite | split | (with_reducible refine Moves.snd (by assumption) ?_)
    | (with_reducible refine Moves.fst (by assumption) ?_) | with_reducible apply Moves.raw

theorem railHighReturn_moves {w : Mem → Bool} {s0 : State} (x0 : Nat) (x1 : Nat) {s : State} (hs : Moves w s0 s) :
    Moves w s0 (railHighReturn x0 x1 s) := by
  unfold railHighReturn
  try dsimp only
  repeat'
    first
    | with_reducible assumption | intro _ | with_reducible apply State.modRails_moves | with_reducible apply State.raise_moves
    | with_reducible apply State.wrBit_moves | with_reducible apply Moves.ite | split
    | (with_reducible refine Moves.snd (by assumption) ?_) | (with_reducible refine Moves.fst (by assumption) ?_)
    | with_reducible apply Moves.raw

theorem railsAtExit_moves {w : Mem → Bool} {s0 : State} (x0 : Nat) {s : State} (hs : Moves w s0 s) :
    Moves w s0 (railsAtExit x0 s) := by
  unfold railsAtExit
  try dsimp only
  repeat'
    first
    | with_reducible assumption | intro _ | with_reducible apply State.forEach_moves | with_reducible apply dipStart_moves
    | with_reducible apply highStart_moves | with_reducible apply Moves.ite | split
    | (with_reducible refine Moves.snd (by assumption) ?_) | (with_reducible refine Moves.fst (by assumption) ?_)

theorem thermal_moves {w : Mem → Bool} {s0 : State} (x0 : Nat) (x1 : Nat) (x2 : Bool) (x3 : Int) (x4 : Int) (x5 : Int) {s : State} (hs :
    Moves w s0 s) :
    Moves w s0 (thermal x0 x1 x2 x3 x4 x5 s).2 := by
  unfold thermal
  try dsimp only
  repeat'
    first
    | with_reducible assumption | intro _ | with_reducible apply State.raise_moves | with_reducible apply Moves.ite | split
    | (with_reducible refine Moves.snd (by assumption) ?_) | (with_reducible refine Moves.fst (by assumption) ?_)

theorem tempRead_moves {w : Mem → Bool} {s0 : State} (x0 : Nat) (x1 : List Int) {s : State} (hs : Moves w s0 s) :
    Moves w s0 (tempRead x0 x1 s) := by
  unfold tempRead
  try dsimp only
  repeat'
    first
    | with_reducible assumption | intro _ | with_reducible apply State.toNext_moves | with_reducible apply State.forEach_moves
    | with_reducible apply State.raise_moves | with_reducible apply State.wr_moves | with_reducible apply State.wrI_moves
    | with_reducible apply thermal_moves | with_reducible apply State.modGov_moves | with_reducible apply Moves.foldl
    | (with_reducible refine Moves.foldlBy Prod.snd ?_ ?_) | (with_reducible refine Moves.foldlBy Prod.fst ?_ ?_)
    | (with_reducible refine Moves.foldlBy WordRun.s ?_ ?_) | with_reducible apply Moves.ite | split
    | (with_reducible refine Moves.snd (by assumption) ?_) | (with_reducible refine Moves.fst (by assumption) ?_)
    | with_reducible apply Moves.raw

theorem firmShed_moves {w : Mem → Bool} {s0 : State} (x0 : Nat) {s : State} (hs : Moves w s0 s) :
    Moves w s0 (firmShed x0 s) := by
  unfold firmShed
  try dsimp only
  repeat'
    first
    | with_reducible assumption | intro _ | with_reducible apply State.forEach_moves | with_reducible apply State.wr_moves
    | with_reducible apply State.modSlot_moves | with_reducible apply Moves.ite | split
    | (with_reducible refine Moves.snd (by assumption) ?_) | (with_reducible refine Moves.fst (by assumption) ?_)
    | with_reducible apply Moves.raw

theorem firmBack_moves {w : Mem → Bool} {s0 : State} (x0 : Nat) {s : State} (hs : Moves w s0 s) :
    Moves w s0 (firmBack x0 s) := by
  unfold firmBack
  try dsimp only
  repeat'
    first
    | with_reducible assumption | intro _ | with_reducible apply State.forEach_moves | with_reducible apply State.modDet_moves
    | with_reducible apply detDiscard_moves | with_reducible apply State.wr_moves | with_reducible apply swapElapsed_moves
    | with_reducible apply Moves.ite | split | (with_reducible refine Moves.snd (by assumption) ?_)
    | (with_reducible refine Moves.fst (by assumption) ?_) | with_reducible apply Moves.raw

theorem admitTask_moves {w : Mem → Bool} {s0 : State} (x0 : Nat) (x1 : Rat) {s : State} (hs : Moves w s0 s) :
    Moves w s0 (admitTask x0 x1 s) := by
  unfold admitTask
  try dsimp only
  repeat'
    first
    | with_reducible assumption | intro _ | with_reducible apply State.wr_moves | with_reducible apply State.addSat_moves
    | with_reducible apply State.setIrqs_moves | with_reducible apply firmShed_moves | with_reducible apply firmBack_moves
    | with_reducible apply Moves.ite | split | (with_reducible refine Moves.snd (by assumption) ?_)
    | (with_reducible refine Moves.fst (by assumption) ?_)

theorem governorStep_moves {w : Mem → Bool} {s0 : State} (x0 : Nat) (x1 : Nat) (x2 : List Nat) {s : State} (hs : Moves w s0 s) :
    Moves w s0 (governorStep x0 x1 x2 s) := by
  unfold governorStep
  try dsimp only
  repeat'
    first
    | with_reducible assumption | intro _ | with_reducible apply State.toNext_moves | with_reducible apply State.forEach_moves
    | with_reducible apply State.wr_moves | with_reducible apply State.raise_moves | with_reducible apply State.modGov_moves
    | with_reducible apply admitTask_moves | with_reducible apply Moves.ite | split
    | (with_reducible refine Moves.snd (by assumption) ?_) | (with_reducible refine Moves.fst (by assumption) ?_)
    | with_reducible apply Moves.raw

theorem govDeficit_moves {w : Mem → Bool} {s0 : State} (x0 : Nat) {s : State} (hs : Moves w s0 s) :
    Moves w s0 (govDeficit x0 s) := by
  unfold govDeficit
  try dsimp only
  repeat'
    first
    | with_reducible assumption | intro _ | with_reducible apply State.raise_moves | with_reducible apply State.modGov_moves
    | with_reducible apply Moves.ite | split | (with_reducible refine Moves.snd (by assumption) ?_)
    | (with_reducible refine Moves.fst (by assumption) ?_) | with_reducible apply Moves.raw

theorem packageGovernor_moves {w : Mem → Bool} {s0 : State} {s : State} (hs : Moves w s0 s) :
    Moves w s0 (packageGovernor s) := by
  unfold packageGovernor
  try dsimp only
  repeat'
    first
    | with_reducible assumption | intro _ | with_reducible apply State.toNext_moves | with_reducible apply State.near_moves
    | with_reducible apply State.modGov_moves | with_reducible apply Moves.foldl
    | (with_reducible refine Moves.foldlBy Prod.snd ?_ ?_) | (with_reducible refine Moves.foldlBy Prod.fst ?_ ?_)
    | (with_reducible refine Moves.foldlBy WordRun.s ?_ ?_) | with_reducible apply Moves.ite | split
    | (with_reducible refine Moves.snd (by assumption) ?_) | (with_reducible refine Moves.fst (by assumption) ?_)
    | with_reducible apply Moves.raw

theorem shareReceive_moves {w : Mem → Bool} {s0 : State} (x0 : Nat) {s : State} (hs : Moves w s0 s) :
    Moves w s0 (shareReceive x0 s) := by
  unfold shareReceive
  try dsimp only
  repeat'
    first
    | with_reducible assumption | intro _ | with_reducible apply State.modGov_moves | with_reducible apply State.wr_moves
    | with_reducible apply Moves.ite | split | (with_reducible refine Moves.snd (by assumption) ?_)
    | (with_reducible refine Moves.fst (by assumption) ?_) | with_reducible apply Moves.raw

theorem shareTimeout_moves {w : Mem → Bool} {s0 : State} (x0 : Nat) {s : State} (hs : Moves w s0 s) :
    Moves w s0 (shareTimeout x0 s) := by
  unfold shareTimeout
  try dsimp only
  repeat'
    first
    | with_reducible assumption | intro _ | with_reducible apply State.passTo_moves | with_reducible apply State.near_moves
    | with_reducible apply State.wr_moves | with_reducible apply Moves.ite | split
    | (with_reducible refine Moves.snd (by assumption) ?_) | (with_reducible refine Moves.fst (by assumption) ?_)

theorem pkgBudWrite_moves {w : Mem → Bool} {s0 : State} (x0 : Word) (x1 : Nat) {s : State} (hs : Moves w s0 s) :
    Moves w s0 (pkgBudWrite x0 x1 s) := by
  unfold pkgBudWrite
  try dsimp only
  repeat'
    first
    | with_reducible assumption | intro _ | with_reducible apply State.forEach_moves | with_reducible apply State.wr_moves
    | with_reducible apply Moves.ite | split | (with_reducible refine Moves.snd (by assumption) ?_)
    | (with_reducible refine Moves.fst (by assumption) ?_)

end Sys2Proof.Machine
end

