-- ==== Sys2Proof/Laws/MovesFault.lean ====
section
/-!
SUPPORT. What each operation of the model does to a state at most (Laws/Moves.lean): reset, the fault collector, images, staging, the harts' registers and the register bus.
-/

set_option linter.unusedTactic false
set_option linter.unreachableTactic false

namespace Sys2Proof.Machine

theorem dropDie_moves {w : Mem → Bool} {s0 s : State} (d : Nat) (h : Moves w s0 s) (h1 : w .progmem = true)
    (h2 : w .trcbuf = true) (h3 : w .tcm = true) (h4 : w .report = true) : Moves w s0 (dropDie d s) := by
  unfold dropDie
  exact State.modPort_moves _ _ (Moves.raw ((((((h.regs (v := offDie d dieSpan s.regs) fun hc => Store.wf_drop _ _ _ _ hc).progmem h1
    (v := offDie d 16384 s.progmem) fun hc => Store.wf_drop _ _ _ _ hc).trcbuf h2
    (v := offDie d 65536 s.trcbuf) fun hc => Store.wf_drop _ _ _ _ hc).tcm h3
    (v := offDie d 524288 s.tcm) fun hc => Store.wf_drop _ _ _ _ hc).report h4
    (v := offDie d 4096 s.report) fun hc => Store.wf_drop _ _ _ _ hc)))

theorem showFaultN_moves {w : Mem → Bool} {s0 : State} {s : State} (hs : Moves w s0 s) :
    Moves w s0 (showFaultN s) := by
  unfold showFaultN
  try dsimp only
  repeat'
    first
    | with_reducible assumption | intro _ | with_reducible apply State.forEach_moves | with_reducible apply State.wr_moves
    | with_reducible apply Moves.ite | split | (with_reducible refine Moves.snd (by assumption) ?_)
    | (with_reducible refine Moves.fst (by assumption) ?_)

theorem leaveServices_moves {w : Mem → Bool} {s0 : State} (x0 : Nat) {s : State} (hs : Moves w s0 s) (hwdram : w .dram = true)
    (hwflash : w .flash = true) :
    Moves w s0 (leaveServices x0 s) := by
  unfold leaveServices
  try dsimp only
  repeat'
    first
    | with_reducible assumption | intro _ | with_reducible apply State.modPair_moves | with_reducible apply State.wr_moves
    | with_reducible apply nvfAbort_moves | with_reducible apply State.forEach_moves | with_reducible apply State.modEpo_moves
    | with_reducible apply functionOff_moves | with_reducible apply State.modDie_moves | with_reducible apply nvmeGone_moves
    | with_reducible apply memFail_moves | with_reducible apply Moves.ite | split
    | (with_reducible refine Moves.snd (by assumption) ?_) | (with_reducible refine Moves.fst (by assumption) ?_)
    | with_reducible apply Moves.raw

theorem holdPads_moves {w : Mem → Bool} {s0 : State} (x0 : Nat) {s : State} (hs : Moves w s0 s) :
    Moves w s0 (holdPads x0 s) := by
  unfold holdPads
  try dsimp only
  repeat'
    first
    | with_reducible assumption | intro _ | with_reducible apply State.forEach_moves | with_reducible apply State.eachLeg_moves
    | with_reducible apply State.showLegs_moves | with_reducible apply Moves.ite | split
    | (with_reducible refine Moves.snd (by assumption) ?_) | (with_reducible refine Moves.fst (by assumption) ?_)
    | with_reducible apply Moves.raw

theorem timeFollows_moves {w : Mem → Bool} {s0 : State} {s : State} (hs : Moves w s0 s) :
    Moves w s0 (timeFollows s) := by
  unfold timeFollows
  try dsimp only
  repeat'
    first
    | with_reducible assumption | intro _ | with_reducible apply showMaster_moves | with_reducible apply Moves.ite | split
    | (with_reducible refine Moves.snd (by assumption) ?_) | (with_reducible refine Moves.fst (by assumption) ?_)
    | with_reducible apply Moves.raw

theorem enterReset_moves {w : Mem → Bool} {s0 : State} (x0 : Nat) (x1 : List ResetCause) {s : State} (hs : Moves w s0 s) (hwdram :
    w .dram = true) (hwflash : w .flash = true) (hwprogmem : w .progmem = true) (hwtrcbuf : w .trcbuf = true) (hwtcm : w .tcm =
    true) (hwreport : w .report = true) :
    Moves w s0 (enterReset x0 x1 s) := by
  unfold enterReset
  try dsimp only
  repeat'
    first
    | with_reducible assumption | intro _ | with_reducible apply State.holdBalls_moves | with_reducible apply dropDie_moves
    | with_reducible apply leaveServices_moves | with_reducible apply State.setReg_moves | with_reducible apply State.wr_moves
    | with_reducible apply State.modDie_moves | with_reducible apply State.modMem_moves
    | with_reducible apply State.forEach_moves | with_reducible apply State.modEnc_moves
    | with_reducible apply State.modFlt_moves | with_reducible apply showFaultN_moves | with_reducible apply timeFollows_moves
    | with_reducible apply holdPads_moves | with_reducible apply Moves.foldl
    | (with_reducible refine Moves.foldlBy Prod.snd ?_ ?_) | (with_reducible refine Moves.foldlBy Prod.fst ?_ ?_)
    | (with_reducible refine Moves.foldlBy WordRun.s ?_ ?_) | with_reducible apply Moves.ite | split
    | (with_reducible refine Moves.snd (by assumption) ?_) | (with_reducible refine Moves.fst (by assumption) ?_)
    | with_reducible apply Moves.raw

theorem resetDie_moves {w : Mem → Bool} {s0 : State} (x0 : Nat) (x1 : ResetCause) {s : State} (hs : Moves w s0 s) (hwdram : w
    .dram = true) (hwflash : w .flash = true) (hwprogmem : w .progmem = true) (hwtrcbuf : w .trcbuf = true) (hwtcm : w .tcm =
    true) (hwreport : w .report = true) :
    Moves w s0 (resetDie x0 x1 s) := by
  unfold resetDie
  try dsimp only
  repeat'
    first
    | with_reducible assumption | intro _ | with_reducible apply releaseStart_moves | with_reducible apply State.modPair_moves
    | with_reducible apply enterReset_moves | with_reducible apply Moves.ite | split
    | (with_reducible refine Moves.snd (by assumption) ?_) | (with_reducible refine Moves.fst (by assumption) ?_)
    | with_reducible apply Moves.raw

theorem coincides_moves {w : Mem → Bool} {s0 : State} (x0 : Nat) (x1 : ResetCause) {s : State} (hs : Moves w s0 s) :
    Moves w s0 (coincides x0 x1 s) := by
  unfold coincides
  try dsimp only
  repeat'
    first
    | with_reducible assumption | intro _ | with_reducible apply State.wr_moves | with_reducible apply Moves.ite | split
    | (with_reducible refine Moves.snd (by assumption) ?_) | (with_reducible refine Moves.fst (by assumption) ?_)

theorem rstnReset_moves {w : Mem → Bool} {s0 : State} {s : State} (hs : Moves w s0 s) (hwdram : w .dram = true) (hwflash : w
    .flash = true) (hwprogmem : w .progmem = true) (hwtrcbuf : w .trcbuf = true) (hwtcm : w .tcm = true) (hwreport : w .report =
    true) :
    Moves w s0 (rstnReset s) := by
  unfold rstnReset
  try dsimp only
  repeat'
    first
    | with_reducible assumption | intro _ | with_reducible apply State.forEach_moves | with_reducible apply enterReset_moves
    | with_reducible apply Moves.ite | split | (with_reducible refine Moves.snd (by assumption) ?_)
    | (with_reducible refine Moves.fst (by assumption) ?_) | with_reducible apply Moves.raw

theorem wdtWrite_moves {w : Mem → Bool} {s0 : State} (x0 : Word) (x1 : Nat) {s : State} (hs : Moves w s0 s) :
    Moves w s0 (wdtWrite x0 x1 s) := by
  unfold wdtWrite
  try dsimp only
  repeat'
    first
    | with_reducible assumption | intro _ | with_reducible apply State.modDie_moves | with_reducible apply State.raise_moves
    | with_reducible apply State.wr_moves | with_reducible apply Moves.ite | split
    | (with_reducible refine Moves.snd (by assumption) ?_) | (with_reducible refine Moves.fst (by assumption) ?_)
    | with_reducible apply Moves.raw

theorem watchdogExpiry_moves {w : Mem → Bool} {s0 : State} (x0 : Nat) {s : State} (hs : Moves w s0 s) (hwdram : w .dram = true)
    (hwflash : w .flash = true) (hwprogmem : w .progmem = true) (hwtrcbuf : w .trcbuf = true) (hwtcm : w .tcm = true) (hwreport
    : w .report = true) :
    Moves w s0 (watchdogExpiry x0 s) := by
  unfold watchdogExpiry
  try dsimp only
  repeat'
    first
    | with_reducible assumption | intro _ | with_reducible apply resetDie_moves | with_reducible apply State.drew_moves
    | with_reducible apply State.pass_moves | with_reducible apply Moves.ite | split
    | (with_reducible refine Moves.snd (by assumption) ?_) | (with_reducible refine Moves.fst (by assumption) ?_)

theorem mateReset_moves {w : Mem → Bool} {s0 : State} (x0 : Nat) (x1 : Nat) {s : State} (hs : Moves w s0 s) (hwdram : w .dram =
    true) (hwflash : w .flash = true) (hwprogmem : w .progmem = true) (hwtrcbuf : w .trcbuf = true) (hwtcm : w .tcm = true)
    (hwreport : w .report = true) :
    Moves w s0 (mateReset x0 x1 s) := by
  unfold mateReset
  try dsimp only
  repeat'
    first
    | with_reducible assumption | intro _ | with_reducible apply State.accessFault_moves | with_reducible apply resetDie_moves
    | with_reducible apply Moves.ite | split | (with_reducible refine Moves.snd (by assumption) ?_)
    | (with_reducible refine Moves.fst (by assumption) ?_)

theorem swrstWrite_moves {w : Mem → Bool} {s0 : State} (x0 : Nat) (x1 : Word) (x2 : Nat) {s : State} (hs : Moves w s0 s) (hwdram : w
    .dram = true) (hwflash : w .flash = true) (hwprogmem : w .progmem = true) (hwtrcbuf : w .trcbuf = true) (hwtcm : w .tcm =
    true) (hwreport : w .report = true) :
    Moves w s0 (swrstWrite x0 x1 x2 s) := by
  unfold swrstWrite
  try dsimp only
  repeat'
    first
    | with_reducible assumption | intro _ | with_reducible apply State.accessFault_moves | with_reducible apply mateReset_moves
    | with_reducible apply resetDie_moves | with_reducible apply Moves.ite | split
    | (with_reducible refine Moves.snd (by assumption) ?_) | (with_reducible refine Moves.fst (by assumption) ?_)

theorem resetExit_moves {w : Mem → Bool} {s0 : State} (x0 : Nat) (x1 : Bool) (x2 : Bool) {s : State} (hs : Moves w s0 s) :
    Moves w s0 (resetExit x0 x1 x2 s) := by
  unfold resetExit
  try dsimp only
  repeat'
    first
    | with_reducible assumption | intro _ | with_reducible apply State.modDie_moves | with_reducible apply State.drew_moves
    | with_reducible apply State.modLawDie_moves | with_reducible apply State.wr_moves | with_reducible apply State.raise_moves
    | with_reducible apply State.forEach_moves | with_reducible apply rootLate_moves | with_reducible apply showFaultN_moves
    | with_reducible apply railsAtExit_moves | with_reducible apply showMem_moves | with_reducible apply Moves.ite | split
    | (with_reducible refine Moves.snd (by assumption) ?_) | (with_reducible refine Moves.fst (by assumption) ?_)
    | with_reducible apply Moves.raw

theorem releasedSeen_moves {w : Mem → Bool} {s0 : State} (x0 : Nat) {s : State} (hs : Moves w s0 s) (hwdram : w .dram = true)
    (hwflash : w .flash = true) (hwprogmem : w .progmem = true) (hwtrcbuf : w .trcbuf = true) (hwtcm : w .tcm = true) (hwreport
    : w .report = true) :
    Moves w s0 (releasedSeen x0 s) := by
  unfold releasedSeen
  try dsimp only
  repeat'
    first
    | with_reducible assumption | intro _ | with_reducible apply State.holdBalls_moves | with_reducible apply State.passTo_moves
    | with_reducible apply State.modPair_moves | with_reducible apply setRole_moves | with_reducible apply State.wr_moves
    | with_reducible apply markLast_moves | with_reducible apply State.addSat_moves | with_reducible apply unready_moves
    | with_reducible apply enterReset_moves | with_reducible apply Moves.ite | split
    | (with_reducible refine Moves.snd (by assumption) ?_) | (with_reducible refine Moves.fst (by assumption) ?_)
    | with_reducible apply Moves.raw

theorem handoverCheck_moves {w : Mem → Bool} {s0 : State} (x0 : Nat) {s : State} (hs : Moves w s0 s) (hwdram : w .dram = true)
    (hwflash : w .flash = true) (hwprogmem : w .progmem = true) (hwtrcbuf : w .trcbuf = true) (hwtcm : w .tcm = true) (hwreport
    : w .report = true) :
    Moves w s0 (handoverCheck x0 s) := by
  unfold handoverCheck
  try dsimp only
  repeat'
    first
    | with_reducible assumption | intro _ | with_reducible apply State.passTo_moves | with_reducible apply State.holdBalls_moves
    | with_reducible apply State.raise_moves | with_reducible apply setPads_moves | with_reducible apply swapMissed_moves
    | with_reducible apply State.modPair_moves | with_reducible apply setRole_moves | with_reducible apply enterReset_moves
    | with_reducible apply Moves.ite | split | (with_reducible refine Moves.snd (by assumption) ?_)
    | (with_reducible refine Moves.fst (by assumption) ?_) | with_reducible apply Moves.raw

theorem srcCfgWrite_moves {w : Mem → Bool} {s0 : State} (x0 : Nat) (x1 : Word) (x2 : Nat) {s : State} (hs : Moves w s0 s) :
    Moves w s0 (srcCfgWrite x0 x1 x2 s) := by
  unfold srcCfgWrite
  try dsimp only
  repeat'
    first
    | with_reducible assumption | intro _ | with_reducible apply State.setReg_moves | with_reducible apply Moves.ite | split
    | (with_reducible refine Moves.snd (by assumption) ?_) | (with_reducible refine Moves.fst (by assumption) ?_)

theorem showReact_moves {w : Mem → Bool} {s0 : State} (x0 : Nat) {s : State} (hs : Moves w s0 s) :
    Moves w s0 (showReact x0 s) := by
  unfold showReact
  try dsimp only
  repeat'
    first
    | with_reducible assumption | intro _ | with_reducible apply State.holdBalls_moves | with_reducible apply State.wr_moves
    | with_reducible apply emuShowAll_moves | with_reducible apply State.refreshDie_moves | with_reducible apply Moves.foldl
    | (with_reducible refine Moves.foldlBy Prod.snd ?_ ?_) | (with_reducible refine Moves.foldlBy Prod.fst ?_ ?_)
    | (with_reducible refine Moves.foldlBy WordRun.s ?_ ?_) | with_reducible apply Moves.ite | split
    | (with_reducible refine Moves.snd (by assumption) ?_) | (with_reducible refine Moves.fst (by assumption) ?_)

theorem packageSafe_moves {w : Mem → Bool} {s0 : State} {s : State} (hs : Moves w s0 s) :
    Moves w s0 (packageSafe s) := by
  unfold packageSafe
  try dsimp only
  repeat'
    first
    | with_reducible assumption | intro _ | with_reducible apply State.forEach_moves | with_reducible apply emuShowAll_moves
    | with_reducible apply State.refreshDie_moves | with_reducible apply State.wr_moves
    | with_reducible apply State.holdBalls_moves | with_reducible apply Moves.ite | split
    | (with_reducible refine Moves.snd (by assumption) ?_) | (with_reducible refine Moves.fst (by assumption) ?_)

theorem showEvt_moves {w : Mem → Bool} {s0 : State} (x0 : Nat) {s : State} (hs : Moves w s0 s) :
    Moves w s0 (showEvt x0 s) := by
  unfold showEvt
  try dsimp only
  repeat'
    first
    | with_reducible assumption | intro _ | with_reducible apply State.wr_moves | with_reducible apply State.setIrqs_moves
    | with_reducible apply Moves.ite | split | (with_reducible refine Moves.snd (by assumption) ?_)
    | (with_reducible refine Moves.fst (by assumption) ?_)

theorem evtPush_moves {w : Mem → Bool} {s0 : State} (x0 : Nat) (x1 : Nat) (x2 : List Byte) {s : State} (hs : Moves w s0 s) :
    Moves w s0 (evtPush x0 x1 x2 s) := by
  unfold evtPush
  try dsimp only
  repeat'
    first
    | with_reducible assumption | intro _ | with_reducible apply State.raise_moves | with_reducible apply State.addSat_moves
    | with_reducible apply showEvt_moves | with_reducible apply State.modFlt_moves | with_reducible apply State.setIrq_moves
    | with_reducible apply Moves.ite | split | (with_reducible refine Moves.snd (by assumption) ?_)
    | (with_reducible refine Moves.fst (by assumption) ?_) | with_reducible apply Moves.raw

theorem notify_moves {w : Mem → Bool} {s0 : State} (x0 : Nat) (x1 : Nat) (x2 : Nat) (x3 : Nat) (x4 : Nat) (x5 : Nat) (x6 : Tags) {s : State}
    (hs : Moves w s0 s) (hwhostmem : w .hostmem = true) :
    Moves w s0 (notify x0 x1 x2 x3 x4 x5 x6 s) := by
  unfold notify
  try dsimp only
  repeat'
    first
    | with_reducible assumption | intro _ | with_reducible apply evtPush_moves | with_reducible apply evtOffer_moves
    | with_reducible apply eventSend_moves | with_reducible apply State.forEach_moves | with_reducible apply msixSend_moves
    | with_reducible apply Moves.ite | split | (with_reducible refine Moves.snd (by assumption) ?_)
    | (with_reducible refine Moves.fst (by assumption) ?_)

theorem record_moves {w : Mem → Bool} {s0 : State} (x0 : Nat) (x1 : Nat) (x2 : Nat) (x3 : Nat) (x4 : Nat) (x5 : Tags) {s : State} (hs :
    Moves w s0 s) (hwhostmem : w .hostmem = true) :
    Moves w s0 (record x0 x1 x2 x3 x4 x5 s) := by
  unfold record
  try dsimp only
  repeat'
    first
    | with_reducible assumption | intro _ | with_reducible apply State.modSrc_moves | with_reducible apply ledgQueue_moves
    | with_reducible apply trcEvent_moves | with_reducible apply notify_moves | with_reducible apply Moves.ite | split
    | (with_reducible refine Moves.snd (by assumption) ?_) | (with_reducible refine Moves.fst (by assumption) ?_)
    | with_reducible apply Moves.raw

theorem ownKind_moves {w : Mem → Bool} {s0 : State} (x0 : Nat) (x1 : Nat) (x2 : Nat) {s : State} (hs : Moves w s0 s) (hwhostmem : w
    .hostmem = true) :
    Moves w s0 (ownKind x0 x1 x2 s) := by
  unfold ownKind
  try dsimp only
  repeat'
    first
    | with_reducible assumption | intro _ | with_reducible apply record_moves | with_reducible apply Moves.ite | split
    | (with_reducible refine Moves.snd (by assumption) ?_) | (with_reducible refine Moves.fst (by assumption) ?_)

theorem compete_moves {w : Mem → Bool} {s0 : State} (x0 : Nat) (x1 : PkgMsg) {s : State} (hs : Moves w s0 s) :
    Moves w s0 (compete x0 x1 s) := by
  unfold compete
  try dsimp only
  repeat'
    first
    | with_reducible assumption | intro _ | with_reducible apply State.wr_moves | with_reducible apply Moves.ite | split
    | (with_reducible refine Moves.snd (by assumption) ?_) | (with_reducible refine Moves.fst (by assumption) ?_)

theorem firstError_moves {w : Mem → Bool} {s0 : State} (x0 : Nat) (x1 : Nat) (x2 : Nat) (x3 : Nat) {s : State} (hs : Moves w s0 s) :
    Moves w s0 (firstError x0 x1 x2 x3 s).2 := by
  unfold firstError
  try dsimp only
  repeat'
    first
    | with_reducible assumption | intro _ | with_reducible apply State.wr_moves | with_reducible apply State.addSat_moves
    | with_reducible apply compete_moves | with_reducible apply State.forEach_moves | with_reducible apply State.modFlt_moves
    | with_reducible apply Moves.ite | split | (with_reducible refine Moves.snd (by assumption) ?_)
    | (with_reducible refine Moves.fst (by assumption) ?_) | with_reducible apply Moves.raw

theorem pkgFirstMessage_moves {w : Mem → Bool} {s0 : State} (x0 : Nat) {s : State} (hs : Moves w s0 s) :
    Moves w s0 (pkgFirstMessage x0 s) := by
  unfold pkgFirstMessage
  try dsimp only
  repeat'
    first
    | with_reducible assumption | intro _ | with_reducible apply compete_moves | with_reducible apply State.modFlt_moves
    | with_reducible apply Moves.ite | split | (with_reducible refine Moves.snd (by assumption) ?_)
    | (with_reducible refine Moves.fst (by assumption) ?_) | with_reducible apply Moves.raw

theorem firstClear_moves {w : Mem → Bool} {s0 : State} (x0 : Nat) {s : State} (hs : Moves w s0 s) :
    Moves w s0 (firstClear x0 s) := by
  unfold firstClear
  try dsimp only
  repeat'
    first
    | with_reducible assumption | intro _ | with_reducible apply State.wr_moves | with_reducible apply Moves.ite | split
    | (with_reducible refine Moves.snd (by assumption) ?_) | (with_reducible refine Moves.fst (by assumption) ?_)

theorem pkgClearAsk_moves {w : Mem → Bool} {s0 : State} {s : State} (hs : Moves w s0 s) :
    Moves w s0 (pkgClearAsk s) := by
  unfold pkgClearAsk
  try dsimp only
  repeat'
    first
    | with_reducible assumption | intro _ | with_reducible apply Moves.ite | split
    | (with_reducible refine Moves.snd (by assumption) ?_) | (with_reducible refine Moves.fst (by assumption) ?_)
    | with_reducible apply Moves.raw

theorem pkgClearTick_moves {w : Mem → Bool} {s0 : State} {s : State} (hs : Moves w s0 s) :
    Moves w s0 (pkgClearTick s) := by
  unfold pkgClearTick
  try dsimp only
  repeat'
    first
    | with_reducible assumption | intro _ | with_reducible apply State.passTo_moves | with_reducible apply State.forEach_moves
    | with_reducible apply State.modFlt_moves | with_reducible apply State.wr_moves | with_reducible apply Moves.ite | split
    | (with_reducible refine Moves.snd (by assumption) ?_) | (with_reducible refine Moves.fst (by assumption) ?_)
    | with_reducible apply Moves.raw

theorem takeover_moves {w : Mem → Bool} {s0 : State} (x0 : Nat) (x1 : Nat) {s : State} (hs : Moves w s0 s) :
    Moves w s0 (takeover x0 x1 s) := by
  unfold takeover
  try dsimp only
  repeat'
    first
    | with_reducible assumption | intro _ | with_reducible apply State.modPair_moves | with_reducible apply releaseStart_moves
    | with_reducible apply unready_moves | with_reducible apply State.modSrc_moves | with_reducible apply Moves.ite | split
    | (with_reducible refine Moves.snd (by assumption) ?_) | (with_reducible refine Moves.fst (by assumption) ?_)
    | with_reducible apply Moves.raw

theorem takeReaction_moves {w : Mem → Bool} {s0 : State} (x0 : Nat) (x1 : Nat) {s : State} (hs : Moves w s0 s) :
    Moves w s0 (takeReaction x0 x1 s) := by
  unfold takeReaction
  try dsimp only
  repeat'
    first
    | with_reducible assumption | intro _ | with_reducible apply State.modSrc_moves | with_reducible apply State.wr_moves
    | with_reducible apply takeover_moves | with_reducible apply Moves.ite | split
    | (with_reducible refine Moves.snd (by assumption) ?_) | (with_reducible refine Moves.fst (by assumption) ?_)
    | with_reducible apply Moves.raw

theorem goQuiet_moves {w : Mem → Bool} {s0 : State} (x0 : Nat) (x1 : Nat) (x2 : Nat) {s : State} (hs : Moves w s0 s) :
    Moves w s0 (goQuiet x0 x1 x2 s) := by
  unfold goQuiet
  try dsimp only
  repeat'
    first
    | with_reducible assumption | intro _ | with_reducible apply State.modSrc_moves | with_reducible apply State.wr_moves
    | with_reducible apply Moves.ite | split | (with_reducible refine Moves.snd (by assumption) ?_)
    | (with_reducible refine Moves.fst (by assumption) ?_) | with_reducible apply Moves.raw

theorem endReaction_moves {w : Mem → Bool} {s0 : State} (x0 : Nat) (x1 : Nat) (x2 : Nat) {s : State} (hs : Moves w s0 s) (hwhostmem :
    w .hostmem = true) :
    Moves w s0 (endReaction x0 x1 x2 s) := by
  unfold endReaction
  try dsimp only
  repeat'
    first
    | with_reducible assumption | intro _ | with_reducible apply State.modSrc_moves | with_reducible apply State.wr_moves
    | with_reducible apply State.modPair_moves | with_reducible apply State.modPwm_moves | with_reducible apply showReact_moves
    | with_reducible apply ownKind_moves | with_reducible apply Moves.ite | split
    | (with_reducible refine Moves.snd (by assumption) ?_) | (with_reducible refine Moves.fst (by assumption) ?_)
    | with_reducible apply Moves.raw

theorem assertFlags_moves {w : Mem → Bool} {s0 : State} (x0 : Nat) (x1 : Msg) {s : State} (hs : Moves w s0 s) :
    Moves w s0 (assertFlags x0 x1 s) := by
  unfold assertFlags
  try dsimp only
  repeat'
    first
    | with_reducible assumption | intro _ | with_reducible apply State.addSat_moves | with_reducible apply State.wr_moves
    | with_reducible apply State.modSrc_moves | with_reducible apply State.modDie_moves | with_reducible apply Moves.ite | split
    | (with_reducible refine Moves.snd (by assumption) ?_) | (with_reducible refine Moves.fst (by assumption) ?_)
    | with_reducible apply Moves.raw

theorem assertRecord_moves {w : Mem → Bool} {s0 : State} (x0 : Nat) (x1 : Nat) (x2 : Msg) (x3 : Nat) (x4 : Bool) (x5 : Bool) {s :
    State} (hs : Moves w s0 s) (hwhostmem : w .hostmem = true) :
    Moves w s0 (assertRecord x0 x1 x2 x3 x4 x5 s) := by
  unfold assertRecord
  try dsimp only
  repeat'
    first
    | with_reducible assumption | intro _ | with_reducible apply State.modSrc_moves | with_reducible apply record_moves
    | with_reducible apply Moves.ite | split | (with_reducible refine Moves.snd (by assumption) ?_)
    | (with_reducible refine Moves.fst (by assumption) ?_) | with_reducible apply Moves.raw

theorem assertReact_moves {w : Mem → Bool} {s0 : State} (x0 : Nat) (x1 : Msg) (x2 : Bool) {s : State} (hs : Moves w s0 s) :
    Moves w s0 (assertReact x0 x1 x2 s) := by
  unfold assertReact
  try dsimp only
  repeat'
    first
    | with_reducible assumption | intro _ | with_reducible apply takeReaction_moves | with_reducible apply State.wr_moves
    | with_reducible apply Moves.ite | split | (with_reducible refine Moves.snd (by assumption) ?_)
    | (with_reducible refine Moves.fst (by assumption) ?_)

theorem assertEnd_moves {w : Mem → Bool} {s0 : State} (x0 : Nat) (x1 : Nat) (x2 : Msg) (x3 : Bool) {s : State} (hs : Moves w s0 s)
    (hwhostmem : w .hostmem = true) :
    Moves w s0 (assertEnd x0 x1 x2 x3 s) := by
  unfold assertEnd
  try dsimp only
  repeat'
    first
    | with_reducible assumption | intro _ | with_reducible apply ownKind_moves | with_reducible apply goQuiet_moves
    | with_reducible apply showReact_moves | with_reducible apply Moves.ite | split
    | (with_reducible refine Moves.snd (by assumption) ?_) | (with_reducible refine Moves.fst (by assumption) ?_)

theorem assertion_moves {w : Mem → Bool} {s0 : State} (x0 : Nat) (x1 : Nat) (x2 : Msg) {s : State} (hs : Moves w s0 s) (hwhostmem :
    w .hostmem = true) :
    Moves w s0 (assertion x0 x1 x2 s).1 := by
  unfold assertion
  try dsimp only
  repeat'
    first
    | with_reducible assumption | intro _ | with_reducible apply assertFlags_moves | with_reducible apply State.modSrc_moves
    | with_reducible apply firstError_moves | with_reducible apply assertEnd_moves | with_reducible apply assertRecord_moves
    | with_reducible apply assertReact_moves | with_reducible apply Moves.ite | split
    | (with_reducible refine Moves.snd (by assumption) ?_) | (with_reducible refine Moves.fst (by assumption) ?_)
    | with_reducible apply Moves.raw

theorem deassertion_moves {w : Mem → Bool} {s0 : State} (x0 : Nat) (x1 : Nat) (x2 : Msg) {s : State} (hs : Moves w s0 s) (hwhostmem
    : w .hostmem = true) :
    Moves w s0 (deassertion x0 x1 x2 s) := by
  unfold deassertion
  try dsimp only
  repeat'
    first
    | with_reducible assumption | intro _ | with_reducible apply goQuiet_moves | with_reducible apply State.wr_moves
    | with_reducible apply record_moves | with_reducible apply Moves.ite | split
    | (with_reducible refine Moves.snd (by assumption) ?_) | (with_reducible refine Moves.fst (by assumption) ?_)

theorem collect_moves {w : Mem → Bool} {s0 : State} (x0 : Nat) {s : State} (hs : Moves w s0 s) (hwdram : w .dram = true) (hwflash
    : w .flash = true) (hwhostmem : w .hostmem = true) (hwprogmem : w .progmem = true) (hwtrcbuf : w .trcbuf = true) (hwtcm : w
    .tcm = true) (hwreport : w .report = true) :
    Moves w s0 (collect x0 s) := by
  unfold collect
  try dsimp only
  repeat'
    first
    | with_reducible assumption | intro _ | with_reducible apply deassertion_moves | with_reducible apply assertion_moves
    | with_reducible apply showFaultN_moves | with_reducible apply resetDie_moves | with_reducible apply Moves.foldl
    | (with_reducible refine Moves.foldlBy Prod.snd ?_ ?_) | (with_reducible refine Moves.foldlBy Prod.fst ?_ ?_)
    | (with_reducible refine Moves.foldlBy WordRun.s ?_ ?_) | with_reducible apply Moves.ite | split
    | (with_reducible refine Moves.snd (by assumption) ?_) | (with_reducible refine Moves.fst (by assumption) ?_)
    | with_reducible apply Moves.raw

theorem quietExpiry_moves {w : Mem → Bool} {s0 : State} (x0 : Nat) (x1 : Nat) {s : State} (hs : Moves w s0 s) (hwhostmem : w
    .hostmem = true) :
    Moves w s0 (quietExpiry x0 x1 s) := by
  unfold quietExpiry
  try dsimp only
  repeat'
    first
    | with_reducible assumption | intro _ | with_reducible apply State.passTo_moves | with_reducible apply endReaction_moves
    | with_reducible apply State.addSat_moves | with_reducible apply Moves.ite | split
    | (with_reducible refine Moves.snd (by assumption) ?_) | (with_reducible refine Moves.fst (by assumption) ?_)

theorem relSource_moves {w : Mem → Bool} {s0 : State} (x0 : Nat) (x1 : Nat) {s : State} (hs : Moves w s0 s) (hwhostmem : w .hostmem
    = true) :
    Moves w s0 (relSource x0 x1 s) := by
  unfold relSource
  try dsimp only
  repeat'
    first
    | with_reducible assumption | intro _ | with_reducible apply endReaction_moves | with_reducible apply Moves.ite | split
    | (with_reducible refine Moves.snd (by assumption) ?_) | (with_reducible refine Moves.fst (by assumption) ?_)

theorem clrSource_moves {w : Mem → Bool} {s0 : State} (x0 : Nat) (x1 : Nat) {s : State} (hs : Moves w s0 s) :
    Moves w s0 (clrSource x0 x1 s) := by
  unfold clrSource
  try dsimp only
  repeat'
    first
    | with_reducible assumption | intro _ | with_reducible apply State.wr_moves | with_reducible apply Moves.ite | split
    | (with_reducible refine Moves.snd (by assumption) ?_) | (with_reducible refine Moves.fst (by assumption) ?_)

theorem stickyClear_moves {w : Mem → Bool} {s0 : State} (x0 : Nat) (x1 : Nat) {s : State} (hs : Moves w s0 s) :
    Moves w s0 (stickyClear x0 x1 s) := by
  unfold stickyClear
  try dsimp only
  repeat'
    first
    | with_reducible assumption | intro _ | with_reducible apply showFaultN_moves | with_reducible apply State.modSrc_moves
    | with_reducible apply State.wr_moves | with_reducible apply Moves.ite | split
    | (with_reducible refine Moves.snd (by assumption) ?_) | (with_reducible refine Moves.fst (by assumption) ?_)
    | with_reducible apply Moves.raw

theorem srcStatWrite_moves {w : Mem → Bool} {s0 : State} (x0 : Nat) (x1 : Word) (x2 : Nat) {s : State} (hs : Moves w s0 s)
    (hwhostmem : w .hostmem = true) :
    Moves w s0 (srcStatWrite x0 x1 x2 s) := by
  unfold srcStatWrite
  try dsimp only
  repeat'
    first
    | with_reducible assumption | intro _ | with_reducible apply stickyClear_moves | with_reducible apply relSource_moves
    | with_reducible apply clrSource_moves | with_reducible apply Moves.ite | split
    | (with_reducible refine Moves.snd (by assumption) ?_) | (with_reducible refine Moves.fst (by assumption) ?_)

theorem mrel_moves {w : Mem → Bool} {s0 : State} (x0 : Nat) {s : State} (hs : Moves w s0 s) :
    Moves w s0 (mrel x0 s) := by
  unfold mrel
  try dsimp only
  repeat'
    first
    | with_reducible assumption | intro _ | with_reducible apply State.modPair_moves | with_reducible apply State.wr_moves
    | with_reducible apply State.holdBalls_moves | with_reducible apply emuShowAll_moves
    | with_reducible apply State.refreshDie_moves | with_reducible apply Moves.ite | split
    | (with_reducible refine Moves.snd (by assumption) ?_) | (with_reducible refine Moves.fst (by assumption) ?_)
    | with_reducible apply Moves.raw

theorem evtPop_moves {w : Mem → Bool} {s0 : State} (x0 : Nat) {s : State} (hs : Moves w s0 s) :
    Moves w s0 (evtPop x0 s) := by
  unfold evtPop
  try dsimp only
  repeat'
    first
    | with_reducible assumption | intro _ | with_reducible apply showEvt_moves | with_reducible apply State.modFlt_moves
    | with_reducible apply Moves.ite | split | (with_reducible refine Moves.snd (by assumption) ?_)
    | (with_reducible refine Moves.fst (by assumption) ?_) | with_reducible apply Moves.raw

theorem injWrite_moves {w : Mem → Bool} {s0 : State} (x0 : Word) (x1 : Nat) {s : State} (hs : Moves w s0 s) :
    Moves w s0 (injWrite x0 x1 s) := by
  unfold injWrite
  try dsimp only
  repeat'
    first
    | with_reducible assumption | intro _ | with_reducible apply State.wr_moves | with_reducible apply State.raise_moves
    | with_reducible apply State.modFlt_moves | with_reducible apply Moves.ite | split
    | (with_reducible refine Moves.snd (by assumption) ?_) | (with_reducible refine Moves.fst (by assumption) ?_)
    | with_reducible apply Moves.raw

theorem lostRecord_moves {w : Mem → Bool} {s0 : State} (x0 : Nat) (x1 : Nat) {s : State} (hs : Moves w s0 s) (hwdram : w .dram =
    true) (hwhostmem : w .hostmem = true) :
    Moves w s0 (lostRecord x0 x1 s) := by
  unfold lostRecord
  try dsimp only
  repeat'
    first
    | with_reducible assumption | intro _ | with_reducible apply ledgWrite_moves | with_reducible apply State.raise_moves
    | with_reducible apply notify_moves | with_reducible apply Moves.ite | split
    | (with_reducible refine Moves.snd (by assumption) ?_) | (with_reducible refine Moves.fst (by assumption) ?_)
    | with_reducible apply Moves.raw

theorem ledgerRecord_moves {w : Mem → Bool} {s0 : State} (x0 : Nat) {s : State} (hs : Moves w s0 s) (hwdram : w .dram = true)
    (hwhostmem : w .hostmem = true) :
    Moves w s0 (ledgerRecord x0 s) := by
  unfold ledgerRecord
  try dsimp only
  repeat'
    first
    | with_reducible assumption | intro _ | with_reducible apply ledgLose_moves | with_reducible apply State.modLedq_moves
    | with_reducible apply lostRecord_moves | with_reducible apply ledgWrite_moves | with_reducible apply stkTrigger_moves
    | with_reducible apply Moves.ite | split | (with_reducible refine Moves.snd (by assumption) ?_)
    | (with_reducible refine Moves.fst (by assumption) ?_)

theorem selfTest_moves {w : Mem → Bool} {s0 : State} (x0 : Nat) (x1 : Nat) {s : State} (hs : Moves w s0 s) :
    Moves w s0 (selfTest x0 x1 s) := by
  unfold selfTest
  try dsimp only
  repeat'
    first
    | with_reducible assumption | intro _ | with_reducible apply State.passTo_moves | with_reducible apply State.modLawDie_moves
    | with_reducible apply State.raise_moves | with_reducible apply Moves.ite | split
    | (with_reducible refine Moves.snd (by assumption) ?_) | (with_reducible refine Moves.fst (by assumption) ?_)
    | with_reducible apply Moves.raw

theorem readMode_moves {w : Mem → Bool} {s0 : State} (x0 : Nat) (x1 : Nat) (x2 : Nat) (x3 : Bool) {s : State} (hs : Moves w s0 s) :
    Moves w s0 (readMode x0 x1 x2 x3 s).2 := by
  unfold readMode
  try dsimp only
  repeat'
    first
    | with_reducible assumption | intro _ | with_reducible apply State.dramRead_moves | with_reducible apply Moves.foldl
    | (with_reducible refine Moves.foldlBy Prod.snd ?_ ?_) | (with_reducible refine Moves.foldlBy Prod.fst ?_ ?_)
    | (with_reducible refine Moves.foldlBy WordRun.s ?_ ?_) | with_reducible apply Moves.ite | split
    | (with_reducible refine Moves.snd (by assumption) ?_) | (with_reducible refine Moves.fst (by assumption) ?_)

theorem cfgSpread_moves {w : Mem → Bool} {s0 : State} (x0 : Nat) (x1 : Word) (x2 : Nat) {s : State} (hs : Moves w s0 s) :
    Moves w s0 (cfgSpread x0 x1 x2 s) := by
  unfold cfgSpread
  try dsimp only
  repeat'
    first
    | with_reducible assumption | intro _ | with_reducible apply State.forEach_moves | with_reducible apply State.setReg_moves
    | with_reducible apply Moves.ite | split | (with_reducible refine Moves.snd (by assumption) ?_)
    | (with_reducible refine Moves.fst (by assumption) ?_)

theorem stageMode_moves {w : Mem → Bool} {s0 : State} (x0 : Nat) {s : State} (hs : Moves w s0 s) :
    Moves w s0 (stageMode x0 s) := by
  unfold stageMode
  try dsimp only
  repeat'
    first
    | with_reducible assumption | intro _ | with_reducible apply State.wr_moves | with_reducible apply State.modEpo_moves
    | with_reducible apply State.forEach_moves | with_reducible apply Moves.ite | split
    | (with_reducible refine Moves.snd (by assumption) ?_) | (with_reducible refine Moves.fst (by assumption) ?_)
    | with_reducible apply Moves.raw

theorem stageGo_moves {w : Mem → Bool} {s0 : State} (x0 : Nat) {s : State} (hs : Moves w s0 s) :
    Moves w s0 (stageGo x0 s) := by
  unfold stageGo
  try dsimp only
  repeat'
    first
    | with_reducible assumption | intro _ | with_reducible apply stageMode_moves | with_reducible apply State.wr_moves
    | with_reducible apply Moves.ite | split | (with_reducible refine Moves.snd (by assumption) ?_)
    | (with_reducible refine Moves.fst (by assumption) ?_)

theorem stageWrite_moves {w : Mem → Bool} {s0 : State} (x0 : Word) (x1 : Nat) {s : State} (hs : Moves w s0 s) :
    Moves w s0 (stageWrite x0 x1 s) := by
  unfold stageWrite
  try dsimp only
  repeat'
    first
    | with_reducible assumption | intro _ | with_reducible apply State.forEach_moves | with_reducible apply State.wr_moves
    | with_reducible apply stageGo_moves | with_reducible apply Moves.ite | split
    | (with_reducible refine Moves.snd (by assumption) ?_) | (with_reducible refine Moves.fst (by assumption) ?_)

theorem epochClose_moves {w : Mem → Bool} {s0 : State} (x0 : Nat) {s : State} (hs : Moves w s0 s) :
    Moves w s0 (epochClose x0 s) := by
  unfold epochClose
  try dsimp only
  repeat'
    first
    | with_reducible assumption | intro _ | with_reducible apply State.modEpo_moves | with_reducible apply State.wr_moves
    | with_reducible apply Moves.ite | split | (with_reducible refine Moves.snd (by assumption) ?_)
    | (with_reducible refine Moves.fst (by assumption) ?_)

theorem stagingComplete_moves {w : Mem → Bool} {s0 : State} (x0 : Nat) {s : State} (hs : Moves w s0 s) :
    Moves w s0 (stagingComplete x0 s) := by
  unfold stagingComplete
  try dsimp only
  repeat'
    first
    | with_reducible assumption | intro _ | with_reducible apply readMode_moves | with_reducible apply State.raise_moves
    | with_reducible apply epochClose_moves | with_reducible apply State.wr_moves | with_reducible apply State.modEpo_moves
    | with_reducible apply Moves.ite | split | (with_reducible refine Moves.snd (by assumption) ?_)
    | (with_reducible refine Moves.fst (by assumption) ?_) | with_reducible apply Moves.raw

theorem stagedReport_moves {w : Mem → Bool} {s0 : State} (x0 : Nat) (x1 : Nat) {s : State} (hs : Moves w s0 s) :
    Moves w s0 (stagedReport x0 x1 s) := by
  unfold stagedReport
  try dsimp only
  repeat'
    first
    | with_reducible assumption | intro _ | with_reducible apply State.modEpo_moves | with_reducible apply Moves.ite | split
    | (with_reducible refine Moves.snd (by assumption) ?_) | (with_reducible refine Moves.fst (by assumption) ?_)
    | with_reducible apply Moves.raw

theorem epochSend_moves {w : Mem → Bool} {s0 : State} (x0 : Nat) (x1 : List Nat) (x2 : List Byte) {s : State} (hs : Moves w s0 s) :
    Moves w s0 (epochSend x0 x1 x2 s) := by
  unfold epochSend
  try dsimp only
  repeat'
    first
    | with_reducible assumption | intro _ | with_reducible apply State.forEach_moves | with_reducible apply originate_moves
    | with_reducible apply Moves.ite | split | (with_reducible refine Moves.snd (by assumption) ?_)
    | (with_reducible refine Moves.fst (by assumption) ?_)

theorem commitDie_moves {w : Mem → Bool} {s0 : State} (x0 : Nat) (x1 : EpoRec) {s : State} (hs : Moves w s0 s) :
    Moves w s0 (commitDie x0 x1 s) := by
  unfold commitDie
  try dsimp only
  repeat'
    first
    | with_reducible assumption | intro _ | with_reducible apply State.wr_moves | with_reducible apply State.modEpo_moves
    | with_reducible apply Moves.ite | split | (with_reducible refine Moves.snd (by assumption) ?_)
    | (with_reducible refine Moves.fst (by assumption) ?_) | with_reducible apply Moves.raw

theorem commit_moves {w : Mem → Bool} {s0 : State} (x0 : Nat) {s : State} (hs : Moves w s0 s) :
    Moves w s0 (commit x0 s) := by
  unfold commit
  try dsimp only
  repeat'
    first
    | with_reducible assumption | intro _ | with_reducible apply State.forEach_moves | with_reducible apply State.wr_moves
    | with_reducible apply commitDie_moves | with_reducible apply epochSend_moves | with_reducible apply Moves.ite | split
    | (with_reducible refine Moves.snd (by assumption) ?_) | (with_reducible refine Moves.fst (by assumption) ?_)
    | with_reducible apply Moves.raw

theorem abortDies_moves {w : Mem → Bool} {s0 : State} (x0 : List Nat) {s : State} (hs : Moves w s0 s) :
    Moves w s0 (abortDies x0 s) := by
  unfold abortDies
  try dsimp only
  repeat'
    first
    | with_reducible assumption | intro _ | with_reducible apply State.forEach_moves | with_reducible apply epochClose_moves
    | with_reducible apply State.wr_moves | with_reducible apply Moves.ite | split
    | (with_reducible refine Moves.snd (by assumption) ?_) | (with_reducible refine Moves.fst (by assumption) ?_)

theorem abort_moves {w : Mem → Bool} {s0 : State} (x0 : Nat) {s : State} (hs : Moves w s0 s) :
    Moves w s0 (abort x0 s) := by
  unfold abort
  try dsimp only
  repeat'
    first
    | with_reducible assumption | intro _ | with_reducible apply abortDies_moves | with_reducible apply epochSend_moves
    | with_reducible apply Moves.ite | split | (with_reducible refine Moves.snd (by assumption) ?_)
    | (with_reducible refine Moves.fst (by assumption) ?_) | with_reducible apply Moves.raw

theorem commitWrite_moves {w : Mem → Bool} {s0 : State} (x0 : Word) (x1 : Nat) {s : State} (hs : Moves w s0 s) :
    Moves w s0 (commitWrite x0 x1 s) := by
  unfold commitWrite
  try dsimp only
  repeat'
    first
    | with_reducible assumption | intro _ | with_reducible apply State.forEach_moves | with_reducible apply State.wr_moves
    | with_reducible apply abort_moves | with_reducible apply commit_moves | with_reducible apply Moves.ite | split
    | (with_reducible refine Moves.snd (by assumption) ?_) | (with_reducible refine Moves.fst (by assumption) ?_)

theorem setCsr_moves {w : Mem → Bool} {s0 : State} {s : State} (x1 : Nat) (x2 : Nat) (x3 : Nat) (x4 : Nat) (hs : Moves w s0 s) :
    Moves w s0 (setCsr s x1 x2 x3 x4) := by
  unfold setCsr
  try dsimp only
  repeat'
    first
    | with_reducible assumption | intro _ | with_reducible apply State.modHart_moves | with_reducible apply Moves.ite | split
    | (with_reducible refine Moves.snd (by assumption) ?_) | (with_reducible refine Moves.fst (by assumption) ?_)
    | with_reducible apply Moves.raw

theorem fpDirty_moves {w : Mem → Bool} {s0 : State} (x0 : Nat) (x1 : Nat) {s : State} (hs : Moves w s0 s) :
    Moves w s0 (fpDirty x0 x1 s) := by
  unfold fpDirty
  try dsimp only
  repeat'
    first
    | with_reducible assumption | intro _ | with_reducible apply setCsr_moves | with_reducible apply Moves.ite | split
    | (with_reducible refine Moves.snd (by assumption) ?_) | (with_reducible refine Moves.fst (by assumption) ?_)

theorem trap_moves {w : Mem → Bool} {s0 : State} (x0 : Nat) (x1 : Nat) (x2 : Nat) (x3 : Nat) (x4 : Nat) {s : State} (hs : Moves w s0 s) :
    Moves w s0 (trap x0 x1 x2 x3 x4 s) := by
  unfold trap
  try dsimp only
  repeat'
    first
    | with_reducible assumption | intro _ | with_reducible apply setCsr_moves | with_reducible apply State.modHart_moves
    | with_reducible apply Moves.ite | split | (with_reducible refine Moves.snd (by assumption) ?_)
    | (with_reducible refine Moves.fst (by assumption) ?_) | with_reducible apply Moves.raw

theorem illegal_moves {w : Mem → Bool} {s0 : State} (x0 : Nat) (x1 : Nat) {s : State} (hs : Moves w s0 s) :
    Moves w s0 (illegal x0 x1 s) := by
  unfold illegal
  try dsimp only
  repeat'
    first
    | with_reducible assumption | intro _ | with_reducible apply trap_moves | with_reducible apply State.drew_moves
    | with_reducible apply Moves.ite | split | (with_reducible refine Moves.snd (by assumption) ?_)
    | (with_reducible refine Moves.fst (by assumption) ?_)

theorem semAcquire_moves {w : Mem → Bool} {s0 : State} (x0 : Nat) (x1 : Nat) (x2 : Nat) {s : State} (hs : Moves w s0 s) :
    Moves w s0 (semAcquire x0 x1 x2 s) := by
  unfold semAcquire
  try dsimp only
  repeat'
    first
    | with_reducible assumption | intro _ | with_reducible apply State.answer_moves | with_reducible apply State.modHart_moves
    | with_reducible apply Moves.ite | split | (with_reducible refine Moves.snd (by assumption) ?_)
    | (with_reducible refine Moves.fst (by assumption) ?_) | with_reducible apply Moves.raw

theorem semRelease_moves {w : Mem → Bool} {s0 : State} (x0 : Nat) (x1 : Nat) (x2 : Nat) {s : State} (hs : Moves w s0 s) :
    Moves w s0 (semRelease x0 x1 x2 s) := by
  unfold semRelease
  try dsimp only
  repeat'
    first
    | with_reducible assumption | intro _ | with_reducible apply State.modHart_moves | with_reducible apply Moves.foldl
    | (with_reducible refine Moves.foldlBy Prod.snd ?_ ?_) | (with_reducible refine Moves.foldlBy Prod.fst ?_ ?_)
    | (with_reducible refine Moves.foldlBy WordRun.s ?_ ?_) | with_reducible apply Moves.ite | split
    | (with_reducible refine Moves.snd (by assumption) ?_) | (with_reducible refine Moves.fst (by assumption) ?_)
    | with_reducible apply Moves.raw

theorem lawData_moves {w : Mem → Bool} {s0 : State} (x0 : Nat) (x1 : Nat) (x2 : Bool) (x3 : Word) (x4 : Bool) (x5 : Nat) {s : State}
    (hs : Moves w s0 s) (hwprogmem : w .progmem = true) :
    Moves w s0 (lawData x0 x1 x2 x3 x4 x5 s) := by
  unfold lawData
  try dsimp only
  repeat'
    first
    | with_reducible assumption | intro _ | with_reducible apply progmemAccess_moves | with_reducible apply setCsr_moves
    | with_reducible apply Moves.ite | split | (with_reducible refine Moves.snd (by assumption) ?_)
    | (with_reducible refine Moves.fst (by assumption) ?_)

theorem csrRead_moves {w : Mem → Bool} {s0 : State} (x0 : Nat) (x1 : Nat) (x2 : Nat) {s : State} (hs : Moves w s0 s) (hwprogmem : w
    .progmem = true) :
    Moves w s0 (csrRead x0 x1 x2 s) := by
  unfold csrRead
  try dsimp only
  repeat'
    first
    | with_reducible assumption | intro _ | with_reducible apply State.answer_moves | with_reducible apply State.drew_moves
    | with_reducible apply lawData_moves | with_reducible apply setCsr_moves | with_reducible apply State.forEach_moves
    | with_reducible apply semAcquire_moves | with_reducible apply Moves.ite | split
    | (with_reducible refine Moves.snd (by assumption) ?_) | (with_reducible refine Moves.fst (by assumption) ?_)

theorem csrWrite_moves {w : Mem → Bool} {s0 : State} (x0 : Nat) (x1 : Nat) (x2 : Nat) (x3 : Nat) {s : State} (hs : Moves w s0 s)
    (hwprogmem : w .progmem = true) :
    Moves w s0 (csrWrite x0 x1 x2 x3 s) := by
  unfold csrWrite
  try dsimp only
  repeat'
    first
    | with_reducible assumption | intro _ | with_reducible apply fpDirty_moves | with_reducible apply setCsr_moves
    | with_reducible apply State.setIrq_moves | with_reducible apply State.modHart_moves | with_reducible apply evtPop_moves
    | with_reducible apply lawData_moves | with_reducible apply semRelease_moves | with_reducible apply Moves.ite | split
    | (with_reducible refine Moves.snd (by assumption) ?_) | (with_reducible refine Moves.fst (by assumption) ?_)
    | with_reducible apply Moves.raw

theorem csrAccess_moves {w : Mem → Bool} {s0 : State} (x0 : Nat) (x1 : Nat) (x2 : Nat) (x3 : Bool) (x4 : Word) {s : State} (hs : Moves
    w s0 s) (hwprogmem : w .progmem = true) :
    Moves w s0 (csrAccess x0 x1 x2 x3 x4 s) := by
  unfold csrAccess
  try dsimp only
  repeat'
    first
    | with_reducible assumption | intro _ | with_reducible apply illegal_moves | with_reducible apply csrWrite_moves
    | with_reducible apply csrRead_moves | with_reducible apply Moves.ite | split
    | (with_reducible refine Moves.snd (by assumption) ?_) | (with_reducible refine Moves.fst (by assumption) ?_)

theorem mtimerCompare_moves {w : Mem → Bool} {s0 : State} (x0 : Nat) (x1 : Nat) {s : State} (hs : Moves w s0 s) :
    Moves w s0 (mtimerCompare x0 x1 s) := by
  unfold mtimerCompare
  try dsimp only
  repeat'
    first
    | with_reducible assumption | intro _ | with_reducible apply State.pass_moves | with_reducible apply State.setIrq_moves
    | with_reducible apply Moves.ite | split | (with_reducible refine Moves.snd (by assumption) ?_)
    | (with_reducible refine Moves.fst (by assumption) ?_)

theorem lrTimeout_moves {w : Mem → Bool} {s0 : State} (x0 : Nat) (x1 : Nat) {s : State} (hs : Moves w s0 s) :
    Moves w s0 (lrTimeout x0 x1 s) := by
  unfold lrTimeout
  try dsimp only
  repeat'
    first
    | with_reducible assumption | intro _ | with_reducible apply State.modHart_moves | with_reducible apply State.pass_moves
    | with_reducible apply Moves.ite | split | (with_reducible refine Moves.snd (by assumption) ?_)
    | (with_reducible refine Moves.fst (by assumption) ?_) | with_reducible apply Moves.raw

theorem msrExtend_moves {w : Mem → Bool} {s0 : State} (x0 : Nat) (x1 : Nat) {s : State} (hs : Moves w s0 s) :
    Moves w s0 (msrExtend x0 x1 s) := by
  unfold msrExtend
  try dsimp only
  repeat'
    first
    | with_reducible assumption | intro _ | with_reducible apply State.wr_moves | with_reducible apply Moves.ite | split
    | (with_reducible refine Moves.snd (by assumption) ?_) | (with_reducible refine Moves.fst (by assumption) ?_)

theorem msrExtWrite_moves {w : Mem → Bool} {s0 : State} (x0 : Word) (x1 : Nat) {s : State} (hs : Moves w s0 s) :
    Moves w s0 (msrExtWrite x0 x1 s) := by
  unfold msrExtWrite
  try dsimp only
  repeat'
    first
    | with_reducible assumption | intro _ | with_reducible apply msrExtend_moves | with_reducible apply State.wrBit_moves
    | with_reducible apply Moves.ite | split | (with_reducible refine Moves.snd (by assumption) ?_)
    | (with_reducible refine Moves.fst (by assumption) ?_)

theorem signKick_moves {w : Mem → Bool} {s0 : State} (x0 : Nat) {s : State} (hs : Moves w s0 s) :
    Moves w s0 (signKick x0 s) := by
  unfold signKick
  try dsimp only
  repeat'
    first
    | with_reducible assumption | intro _ | with_reducible apply State.modSignq_moves | with_reducible apply Moves.ite | split
    | (with_reducible refine Moves.snd (by assumption) ?_) | (with_reducible refine Moves.fst (by assumption) ?_)
    | with_reducible apply Moves.raw

theorem signAsk_moves {w : Mem → Bool} {s0 : State} (x0 : Nat) (x1 : SignFor) (x2 : List Byte) {s : State} (hs : Moves w s0 s) :
    Moves w s0 (signAsk x0 x1 x2 s) := by
  unfold signAsk
  try dsimp only
  repeat'
    first
    | with_reducible assumption | intro _ | with_reducible apply signKick_moves | with_reducible apply State.modSignq_moves
    | with_reducible apply Moves.ite | split | (with_reducible refine Moves.snd (by assumption) ?_)
    | (with_reducible refine Moves.fst (by assumption) ?_)

theorem msrCreqWrite_moves {w : Mem → Bool} {s0 : State} (x0 : Word) (x1 : Nat) {s : State} (hs : Moves w s0 s) :
    Moves w s0 (msrCreqWrite x0 x1 s) := by
  unfold msrCreqWrite
  try dsimp only
  repeat'
    first
    | with_reducible assumption | intro _ | with_reducible apply signAsk_moves | with_reducible apply State.wr_moves
    | with_reducible apply Moves.ite | split | (with_reducible refine Moves.snd (by assumption) ?_)
    | (with_reducible refine Moves.fst (by assumption) ?_)

theorem cmdDone_moves {w : Mem → Bool} {s0 : State} (x0 : Nat) (x1 : Nat) (x2 : Nat) (x3 : Nat) (x4 : Nat) {s : State} (hs : Moves w s0 s)
    (hwhostmem : w .hostmem = true) :
    Moves w s0 (cmdDone x0 x1 x2 x3 x4 s) := by
  unfold cmdDone
  try dsimp only
  repeat'
    first
    | with_reducible assumption | intro _ | with_reducible apply showShares_moves | with_reducible apply State.modRing_moves
    | with_reducible apply postCpl_moves | with_reducible apply Moves.ite | split
    | (with_reducible refine Moves.snd (by assumption) ?_) | (with_reducible refine Moves.fst (by assumption) ?_)
    | with_reducible apply Moves.raw

theorem colophFrags_moves {w : Mem → Bool} {s0 : State} (d : Nat) (f : List Byte) (len k : Nat) (bs : List Byte) (o : Nat) {s : State}
    (h : Moves w s0 s) : Moves w s0 (colophFrags d f len k bs o s) := by
  induction k generalizing s bs o with
  | zero => exact h
  | succ k ih =>
    unfold colophFrags
    split
    · exact h
    · exact ih _ _ (accessAnswer_moves _ _ _ _ _ h)

theorem colophDeliver_moves {w : Mem → Bool} {s0 : State} (x0 : Nat) (x1 : SignFor) (x2 : List Byte) {s : State} (hs : Moves w s0
    s) (hwhostmem : w .hostmem = true) (hwreport : w .report = true) :
    Moves w s0 (colophDeliver x0 x1 x2 s) := by
  unfold colophDeliver
  try dsimp only
  repeat'
    first
    | with_reducible assumption | intro _ | with_reducible apply cmdDone_moves | with_reducible apply putHost_moves
    | with_reducible apply ringOff_moves | with_reducible apply colophFrags_moves | with_reducible apply State.forEach_moves
    | with_reducible apply State.modRepByte_moves | with_reducible apply State.wr_moves | with_reducible apply Moves.ite | split
    | (with_reducible refine Moves.snd (by assumption) ?_) | (with_reducible refine Moves.fst (by assumption) ?_)

theorem colophonSigned_moves {w : Mem → Bool} {s0 : State} (x0 : Nat) {s : State} (hs : Moves w s0 s) (hwhostmem : w .hostmem =
    true) (hwreport : w .report = true) :
    Moves w s0 (colophonSigned x0 s) := by
  unfold colophonSigned
  try dsimp only
  repeat'
    first
    | with_reducible assumption | intro _ | with_reducible apply signKick_moves | with_reducible apply colophDeliver_moves
    | with_reducible apply State.modSignq_moves | with_reducible apply State.drew_moves | with_reducible apply Moves.ite | split
    | (with_reducible refine Moves.snd (by assumption) ?_) | (with_reducible refine Moves.fst (by assumption) ?_)

theorem plainWrite_moves {w : Mem → Bool} {s0 : State} (x0 : Nat) (x1 : Row) (x2 : Nat) (x3 : Word) {s : State} (hs : Moves w s0 s)
    :
    Moves w s0 (plainWrite x0 x1 x2 x3 s) := by
  unfold plainWrite
  try dsimp only
  repeat'
    first
    | with_reducible assumption | intro _ | with_reducible apply State.setReg_moves | with_reducible apply Moves.ite | split
    | (with_reducible refine Moves.snd (by assumption) ?_) | (with_reducible refine Moves.fst (by assumption) ?_)

theorem baseWrite_moves {w : Mem → Bool} {s0 : State} (x0 : Nat) (x1 : Row) (x2 : Nat) (x3 : Nat) (x4 : Word) (x5 : Nat) {s : State} (hs
    : Moves w s0 s) :
    Moves w s0 (baseWrite x0 x1 x2 x3 x4 x5 s) := by
  unfold baseWrite
  try dsimp only
  repeat'
    first
    | with_reducible assumption | intro _ | with_reducible apply State.wr_moves | with_reducible apply plainWrite_moves
    | with_reducible apply Moves.foldl | (with_reducible refine Moves.foldlBy Prod.snd ?_ ?_)
    | (with_reducible refine Moves.foldlBy Prod.fst ?_ ?_) | (with_reducible refine Moves.foldlBy WordRun.s ?_ ?_)
    | with_reducible apply Moves.ite | split | (with_reducible refine Moves.snd (by assumption) ?_)
    | (with_reducible refine Moves.fst (by assumption) ?_)

theorem writeRoot_moves {w : Mem → Bool} {s0 : State} (x0 : Nat) (x1 : Nat) (x2 : Word) (x3 : Nat) {s : State} {s2 : State} (hs :
    Moves w s0 s) (hs2 : Moves w s0 s2) (hwdram : w .dram = true) (hwflash : w .flash = true) (hwprogmem : w .progmem = true)
    (hwtrcbuf : w .trcbuf = true) (hwtcm : w .tcm = true) (hwreport : w .report = true) :
    Moves w s0 (writeRoot x0 x1 x2 x3 s s2) := by
  unfold writeRoot
  try dsimp only
  repeat'
    first
    | with_reducible assumption | intro _ | with_reducible apply swrstWrite_moves | with_reducible apply wdtWrite_moves
    | with_reducible apply ptAdjWrite_moves | with_reducible apply pkgBudWrite_moves | with_reducible apply Moves.ite | split
    | (with_reducible refine Moves.snd (by assumption) ?_) | (with_reducible refine Moves.fst (by assumption) ?_)

theorem writeFlt_moves {w : Mem → Bool} {s0 : State} (x0 : Nat) (x1 : Nat) (x2 : Word) (x3 : Nat) {s : State} {s2 : State} (hs : Moves
    w s0 s) (hs2 : Moves w s0 s2) (hwdram : w .dram = true) (hwhostmem : w .hostmem = true) :
    Moves w s0 (writeFlt x0 x1 x2 x3 s s2) := by
  unfold writeFlt
  try dsimp only
  repeat'
    first
    | with_reducible assumption | intro _ | with_reducible apply srcCfgWrite_moves | with_reducible apply srcStatWrite_moves
    | with_reducible apply firstClear_moves | with_reducible apply pkgClearAsk_moves | with_reducible apply mrel_moves
    | with_reducible apply injWrite_moves | with_reducible apply evtPop_moves | with_reducible apply ledgCtlWrite_moves
    | with_reducible apply Moves.ite | split | (with_reducible refine Moves.snd (by assumption) ?_)
    | (with_reducible refine Moves.fst (by assumption) ?_)

theorem writeTrk_moves {w : Mem → Bool} {s0 : State} (x0 : Nat) (x1 : Nat) (x2 : Word) (x3 : Nat) (x4 : Nat) {s : State} {s2 : State}
    (hs : Moves w s0 s) (hs2 : Moves w s0 s2) :
    Moves w s0 (writeTrk x0 x1 x2 x3 x4 s s2) := by
  unfold writeTrk
  try dsimp only
  repeat'
    first
    | with_reducible assumption | intro _ | with_reducible apply excWrite_moves | with_reducible apply excClipWrite_moves
    | with_reducible apply trkCtrlWrite_moves | with_reducible apply trkSectorWrite_moves | with_reducible apply trkXreq_moves
    | with_reducible apply Moves.ite | split | (with_reducible refine Moves.snd (by assumption) ?_)
    | (with_reducible refine Moves.fst (by assumption) ?_)

theorem writeTbl_moves {w : Mem → Bool} {s0 : State} (x0 : Nat) (x1 : Nat) (x2 : Nat) (x3 : Word) (x4 : Nat) {s : State} {s2 : State}
    (hs : Moves w s0 s) (hs2 : Moves w s0 s2) :
    Moves w s0 (writeTbl x0 x1 x2 x3 x4 s s2) := by
  unfold writeTbl
  try dsimp only
  repeat'
    first
    | with_reducible assumption | intro _ | with_reducible apply tblDescWrite_moves | with_reducible apply tblCmd_moves
    | with_reducible apply State.setIrqs_moves | with_reducible apply Moves.ite | split
    | (with_reducible refine Moves.snd (by assumption) ?_) | (with_reducible refine Moves.fst (by assumption) ?_)

theorem writeEnc_moves {w : Mem → Bool} {s0 : State} (x0 : Nat) (x1 : Nat) (x2 : Word) (x3 : Nat) {s : State} {s2 : State} (hs : Moves
    w s0 s) (hs2 : Moves w s0 s2) :
    Moves w s0 (writeEnc x0 x1 x2 x3 s s2) := by
  unfold writeEnc
  try dsimp only
  repeat'
    first
    | with_reducible assumption | intro _ | with_reducible apply emuCtrlWrite_moves | with_reducible apply encRawWrite_moves
    | with_reducible apply encIdxWrite_moves | with_reducible apply prbStatWrite_moves | with_reducible apply emuShow_moves
    | with_reducible apply Moves.ite | split | (with_reducible refine Moves.snd (by assumption) ?_)
    | (with_reducible refine Moves.fst (by assumption) ?_)

theorem writeAcq_moves {w : Mem → Bool} {s0 : State} (x0 : Nat) (x1 : Nat) (x2 : Nat) (x3 : Word) (x4 : Nat) (x5 : Nat) {s : State} {s2 :
    State} (hs : Moves w s0 s) (hs2 : Moves w s0 s2) :
    Moves w s0 (writeAcq x0 x1 x2 x3 x4 x5 s s2) := by
  unfold writeAcq
  try dsimp only
  repeat'
    first
    | with_reducible assumption | intro _ | with_reducible apply acqMuxWrite_moves | with_reducible apply acqCmpWrite_moves
    | with_reducible apply filPendWrite_moves | with_reducible apply filSyncGo_moves | with_reducible apply detCfgWrite_moves
    | with_reducible apply lptCtrlWrite_moves | with_reducible apply Moves.ite | split
    | (with_reducible refine Moves.snd (by assumption) ?_) | (with_reducible refine Moves.fst (by assumption) ?_)

theorem writeLaw_moves {w : Mem → Bool} {s0 : State} (x0 : Nat) (x1 : Nat) (x2 : Nat) (x3 : Word) (x4 : Nat) (x5 : Nat) {s : State} {s2 :
    State} (hs : Moves w s0 s) (hs2 : Moves w s0 s2) (hwprogmem : w .progmem = true) :
    Moves w s0 (writeLaw x0 x1 x2 x3 x4 x5 s s2) := by
  unfold writeLaw
  try dsimp only
  repeat'
    first
    | with_reducible assumption | intro _ | with_reducible apply lawCtrlWrite_moves | with_reducible apply lawSchedWrite_moves
    | with_reducible apply lawBankWrite_moves | with_reducible apply pwmCtrlWrite_moves
    | with_reducible apply pwmFixedWrite_moves | with_reducible apply dutyWrite_moves | with_reducible apply pwmSafeWrite_moves
    | with_reducible apply bndCtrlWrite_moves | with_reducible apply Moves.ite | split
    | (with_reducible refine Moves.snd (by assumption) ?_) | (with_reducible refine Moves.fst (by assumption) ?_)

theorem writeCfg_moves {w : Mem → Bool} {s0 : State} (x0 : Nat) (x1 : Nat) (x2 : Word) (x3 : Word) (x4 : Nat) {s : State} {s2 : State}
    (hs : Moves w s0 s) (hs2 : Moves w s0 s2) :
    Moves w s0 (writeCfg x0 x1 x2 x3 x4 s s2) := by
  unfold writeCfg
  try dsimp only
  repeat'
    first
    | with_reducible assumption | intro _ | with_reducible apply pairCtrlWrite_moves | with_reducible apply cfgSpread_moves
    | with_reducible apply stageWrite_moves | with_reducible apply commitWrite_moves | with_reducible apply Moves.ite | split
    | (with_reducible refine Moves.snd (by assumption) ?_) | (with_reducible refine Moves.fst (by assumption) ?_)

theorem writeHif_moves {w : Mem → Bool} {s0 : State} (x0 : Nat) (x1 : Nat) (x2 : Nat) (x3 : Nat) (x4 : Word) (x5 : Word) (x6 : Nat) {s :
    State} {s2 : State} (hs : Moves w s0 s) (hs2 : Moves w s0 s2) (hwhostmem : w .hostmem = true) :
    Moves w s0 (writeHif x0 x1 x2 x3 x4 x5 x6 s s2) := by
  unfold writeHif
  try dsimp only
  repeat'
    first
    | with_reducible assumption | intro _ | with_reducible apply ringCfgWrite_moves | with_reducible apply ringFixedWrite_moves
    | with_reducible apply fwCtlWrite_moves | with_reducible apply Moves.ite | split
    | (with_reducible refine Moves.snd (by assumption) ?_) | (with_reducible refine Moves.fst (by assumption) ?_)

theorem writeMem_moves {w : Mem → Bool} {s0 : State} (x0 : Nat) (x1 : Word) (x2 : Nat) {s : State} {s2 : State} (hs : Moves w s0 s)
    (hs2 : Moves w s0 s2) (hwdram : w .dram = true) :
    Moves w s0 (writeMem x0 x1 x2 s s2) := by
  unfold writeMem
  try dsimp only
  repeat'
    first
    | with_reducible assumption | intro _ | with_reducible apply gmShow_moves | with_reducible apply arxMaskWrite_moves
    | with_reducible apply mboxWrite_moves | with_reducible apply memCtrlWrite_moves | with_reducible apply stkChoose_moves
    | with_reducible apply showNs_moves | with_reducible apply Moves.ite | split
    | (with_reducible refine Moves.snd (by assumption) ?_) | (with_reducible refine Moves.fst (by assumption) ?_)

theorem writeNvf_moves {w : Mem → Bool} {s0 : State} (x0 : Nat) (x1 : Nat) (x2 : Nat) (x3 : Word) (x4 : Nat) {s : State} {s2 : State}
    (hs : Moves w s0 s) (hs2 : Moves w s0 s2) :
    Moves w s0 (writeNvf x0 x1 x2 x3 x4 s s2) := by
  unfold writeNvf
  try dsimp only
  repeat'
    first
    | with_reducible assumption | intro _ | with_reducible apply nvfCmd_moves | with_reducible apply State.setReg_moves
    | with_reducible apply markSelect_moves | with_reducible apply msrExtWrite_moves
    | with_reducible apply State.accessFault_moves | with_reducible apply msrCreqWrite_moves | with_reducible apply Moves.ite
    | split | (with_reducible refine Moves.snd (by assumption) ?_) | (with_reducible refine Moves.fst (by assumption) ?_)

theorem writeTrc_moves {w : Mem → Bool} {s0 : State} (x0 : Nat) (x1 : Nat) (x2 : Word) (x3 : Nat) {s : State} {s2 : State} (hs : Moves
    w s0 s) (hs2 : Moves w s0 s2) :
    Moves w s0 (writeTrc x0 x1 x2 x3 s s2) := by
  unfold writeTrc
  try dsimp only
  repeat'
    first
    | with_reducible assumption | intro _ | with_reducible apply tuneCtrlWrite_moves | with_reducible apply trcCtrlWrite_moves
    | with_reducible apply trcTrigWrite_moves | with_reducible apply trcChWrite_moves | with_reducible apply Moves.ite | split
    | (with_reducible refine Moves.snd (by assumption) ?_) | (with_reducible refine Moves.fst (by assumption) ?_)

theorem wordWrite_moves {w : Mem → Bool} {s0 : State} (x0 : Nat) (x1 : Nat) (x2 : Row) (x3 : Nat) (x4 : Nat) (x5 : Word) (x6 : Nat) (x7 :
    Nat) {s : State} (hs : Moves w s0 s) (hwdram : w .dram = true) (hwflash : w .flash = true) (hwhostmem : w .hostmem = true)
    (hwprogmem : w .progmem = true) (hwtrcbuf : w .trcbuf = true) (hwtcm : w .tcm = true) (hwreport : w .report = true) :
    Moves w s0 (wordWrite x0 x1 x2 x3 x4 x5 x6 x7 s) := by
  unfold wordWrite
  try dsimp only
  repeat'
    first
    | with_reducible assumption | intro _ | with_reducible apply baseWrite_moves | with_reducible apply writeRoot_moves
    | with_reducible apply writeFlt_moves | with_reducible apply writeTrk_moves | with_reducible apply writeTbl_moves
    | with_reducible apply writeEnc_moves | with_reducible apply writeAcq_moves | with_reducible apply writeLaw_moves
    | with_reducible apply writeCfg_moves | with_reducible apply writeHif_moves | with_reducible apply writeMem_moves
    | with_reducible apply writeNvf_moves | with_reducible apply writeTrc_moves | with_reducible apply Moves.ite | split
    | (with_reducible refine Moves.snd (by assumption) ?_) | (with_reducible refine Moves.fst (by assumption) ?_)

theorem winWrite_moves {w : Mem → Bool} {s0 : State} (x0 : Nat) (x1 : Nat) (x2 : Nat) (x3 : Word) {s : State} (hs : Moves w s0 s)
    (hwdram : w .dram = true) (hwflash : w .flash = true) (hwhostmem : w .hostmem = true) (hwprogmem : w .progmem = true)
    (hwtrcbuf : w .trcbuf = true) (hwtcm : w .tcm = true) (hwreport : w .report = true) :
    Moves w s0 (winWrite x0 x1 x2 x3 s) := by
  unfold winWrite
  try dsimp only
  repeat'
    first
    | with_reducible assumption | intro _ | with_reducible apply carrelWrite_moves | with_reducible apply progmemAccess_moves
    | with_reducible apply axisWrite_moves | with_reducible apply bankShared_moves | with_reducible apply wordWrite_moves
    | with_reducible apply Moves.ite | split | (with_reducible refine Moves.snd (by assumption) ?_)
    | (with_reducible refine Moves.fst (by assumption) ?_)

theorem wordRead_moves {w : Mem → Bool} {s0 : State} (x0 : Nat) (x1 : Row) (x2 : Nat) (x3 : Nat) (x4 : Nat) {s : State} (hs : Moves w s0
    s) :
    Moves w s0 (wordRead x0 x1 x2 x3 x4 s) := by
  unfold wordRead
  try dsimp only
  repeat'
    first
    | with_reducible assumption | intro _ | with_reducible apply State.answer_moves | with_reducible apply trkAngRead_moves
    | with_reducible apply State.latchWords_moves | with_reducible apply lptPhaseRead_moves
    | with_reducible apply fwCmdLatch_moves | with_reducible apply encSpeedNow_moves
    | with_reducible apply State.dutiesArrive_moves | with_reducible apply State.setIrqs_moves
    | with_reducible apply State.wr_moves | with_reducible apply Moves.ite | split
    | (with_reducible refine Moves.snd (by assumption) ?_) | (with_reducible refine Moves.fst (by assumption) ?_)
    | with_reducible apply Moves.raw

theorem winRead_moves {w : Mem → Bool} {s0 : State} (x0 : Nat) (x1 : Nat) (x2 : Nat) (x3 : Nat) {s : State} (hs : Moves w s0 s)
    (hwprogmem : w .progmem = true) :
    Moves w s0 (winRead x0 x1 x2 x3 s) := by
  unfold winRead
  try dsimp only
  repeat'
    first
    | with_reducible assumption | intro _ | with_reducible apply carrelRead_moves | with_reducible apply progmemAccess_moves
    | with_reducible apply State.answer_moves | with_reducible apply flashWindow_moves | with_reducible apply wordRead_moves
    | with_reducible apply Moves.ite | split | (with_reducible refine Moves.snd (by assumption) ?_)
    | (with_reducible refine Moves.fst (by assumption) ?_)

theorem busWrite_moves {w : Mem → Bool} {s0 : State} (x0 : Nat) (x1 : Nat) (x2 : Nat) (x3 : Nat) (x4 : Word) {s : State} (hs : Moves w
    s0 s) (hwdram : w .dram = true) (hwflash : w .flash = true) (hwhostmem : w .hostmem = true) (hwprogmem : w .progmem = true)
    (hwtrcbuf : w .trcbuf = true) (hwtcm : w .tcm = true) (hwreport : w .report = true) :
    Moves w s0 (busWrite x0 x1 x2 x3 x4 s) := by
  unfold busWrite
  try dsimp only
  repeat'
    first
    | with_reducible assumption | intro _ | with_reducible apply State.accessFault_moves | with_reducible apply winWrite_moves
    | with_reducible apply Moves.ite | split | (with_reducible refine Moves.snd (by assumption) ?_)
    | (with_reducible refine Moves.fst (by assumption) ?_)

theorem busRead_moves {w : Mem → Bool} {s0 : State} (x0 : Nat) (x1 : Nat) (x2 : Nat) (x3 : Nat) (x4 : Nat) {s : State} (hs : Moves w s0 s)
    (hwprogmem : w .progmem = true) :
    Moves w s0 (busRead x0 x1 x2 x3 x4 s) := by
  unfold busRead
  try dsimp only
  repeat'
    first
    | with_reducible assumption | intro _ | with_reducible apply State.answer_moves
    | with_reducible apply State.accessFault_moves | with_reducible apply winRead_moves | with_reducible apply Moves.ite | split
    | (with_reducible refine Moves.snd (by assumption) ?_) | (with_reducible refine Moves.fst (by assumption) ?_)

theorem busMask_moves {w : Mem → Bool} {s0 : State} (x0 : Nat) (x1 : Nat) (x2 : Nat) (x3 : Word) (x4 : Word) {s : State} (hs : Moves w
    s0 s) (hwdram : w .dram = true) (hwflash : w .flash = true) (hwhostmem : w .hostmem = true) (hwprogmem : w .progmem = true)
    (hwtrcbuf : w .trcbuf = true) (hwtcm : w .tcm = true) (hwreport : w .report = true) :
    Moves w s0 (busMask x0 x1 x2 x3 x4 s) := by
  unfold busMask
  try dsimp only
  repeat'
    first
    | with_reducible assumption | intro _ | with_reducible apply busRead_moves | with_reducible apply State.answer_moves
    | with_reducible apply busWrite_moves | with_reducible apply Moves.ite | split
    | (with_reducible refine Moves.snd (by assumption) ?_) | (with_reducible refine Moves.fst (by assumption) ?_)

theorem forwardedApply_moves {w : Mem → Bool} {s0 : State} (x0 : Nat) {s : State} (hs : Moves w s0 s) (hwdram : w .dram = true)
    (hwflash : w .flash = true) (hwhostmem : w .hostmem = true) (hwprogmem : w .progmem = true) (hwtrcbuf : w .trcbuf = true)
    (hwtcm : w .tcm = true) (hwreport : w .report = true) :
    Moves w s0 (forwardedApply x0 s) := by
  unfold forwardedApply
  try dsimp only
  repeat'
    first
    | with_reducible assumption | intro _ | with_reducible apply State.modFwd_moves | with_reducible apply State.inject_moves
    | with_reducible apply tblStart_moves | with_reducible apply progApply_moves | with_reducible apply bankFollow_moves
    | with_reducible apply wordWrite_moves | with_reducible apply Moves.ite | split
    | (with_reducible refine Moves.snd (by assumption) ?_) | (with_reducible refine Moves.fst (by assumption) ?_)

theorem fwdDrain_moves {w : Mem → Bool} {s0 : State} {s : State} (hs : Moves w s0 s) (hwdram : w .dram = true) (hwflash : w
    .flash = true) (hwhostmem : w .hostmem = true) (hwprogmem : w .progmem = true) (hwtrcbuf : w .trcbuf = true) (hwtcm : w .tcm
    = true) (hwreport : w .report = true) :
    Moves w s0 (fwdDrain s) := by
  unfold fwdDrain
  try dsimp only
  repeat'
    first
    | with_reducible assumption | intro _ | with_reducible apply State.forEach_moves | with_reducible apply forwardedApply_moves
    | with_reducible apply Moves.ite | split | (with_reducible refine Moves.snd (by assumption) ?_)
    | (with_reducible refine Moves.fst (by assumption) ?_)

end Sys2Proof.Machine
end

