-- ==== Sys2Proof/Laws/MovesWhole.lean ====
section
/-!
SUPPORT. What each operation of the model does to a state at most (Laws/Moves.lean): harts, start, epochs, host commands, ACCESS frames and law runs.
-/

set_option linter.unusedTactic false
set_option linter.unreachableTactic false

namespace Sys2Proof.Machine

theorem tcmStore_moves {w : Mem → Bool} {s0 : State} (x0 : Nat) (x1 : Nat) (x2 : Nat) (x3 : List Byte) {s : State} (hs : Moves w s0 s)
    (hwtcm : w .tcm = true) :
    Moves w s0 (tcmStore x0 x1 x2 x3 s) := by
  unfold tcmStore
  try dsimp only
  repeat'
    first
    | with_reducible assumption | intro _ | with_reducible apply State.forEach_moves | with_reducible apply State.modTcm_moves
    | with_reducible apply State.modHart_moves | with_reducible apply Moves.ite | split
    | (with_reducible refine Moves.snd (by assumption) ?_) | (with_reducible refine Moves.fst (by assumption) ?_)
    | with_reducible apply Moves.raw

theorem tcmCheck_moves {w : Mem → Bool} {s0 : State} (x0 : Nat) (x1 : Nat) (x2 : Nat) (x3 : Nat) {s : State} (hs : Moves w s0 s) :
    Moves w s0 (tcmCheck x0 x1 x2 x3 s) := by
  unfold tcmCheck
  try dsimp only
  repeat'
    first
    | with_reducible assumption | intro _ | with_reducible apply State.inject_moves | with_reducible apply State.raise_moves
    | with_reducible apply Moves.ite | split | (with_reducible refine Moves.snd (by assumption) ?_)
    | (with_reducible refine Moves.fst (by assumption) ?_)

theorem setX_moves {w : Mem → Bool} {s0 : State} (x0 : Nat) (x1 : Nat) (x2 : Nat) (x3 : Word) {s : State} (hs : Moves w s0 s) :
    Moves w s0 (setX x0 x1 x2 x3 s) := by
  unfold setX
  try dsimp only
  repeat'
    first
    | with_reducible assumption | intro _ | with_reducible apply State.modHart_moves | with_reducible apply Moves.ite | split
    | (with_reducible refine Moves.snd (by assumption) ?_) | (with_reducible refine Moves.fst (by assumption) ?_)
    | with_reducible apply Moves.raw

theorem loadResult_moves {w : Mem → Bool} {s0 : State} (x0 : Nat) (x1 : Nat) (x2 : HartAcc) (x3 : Nat) (x4 : Nat) {s : State} (hs :
    Moves w s0 s) :
    Moves w s0 (loadResult x0 x1 x2 x3 x4 s) := by
  unfold loadResult
  try dsimp only
  repeat'
    first
    | with_reducible assumption | intro _ | with_reducible apply State.answer_moves | with_reducible apply fpDirty_moves
    | with_reducible apply State.modHart_moves | with_reducible apply setX_moves | with_reducible apply Moves.ite | split
    | (with_reducible refine Moves.snd (by assumption) ?_) | (with_reducible refine Moves.fst (by assumption) ?_)
    | with_reducible apply Moves.raw

theorem readResult_moves {w : Mem → Bool} {s0 : State} (x0 : Nat) (x1 : Nat) (x2 : HartAcc) (x3 : Nat) (x4 : Nat) {s : State} (hs :
    Moves w s0 s) :
    Moves w s0 (readResult x0 x1 x2 x3 x4 s) := by
  unfold readResult
  try dsimp only
  repeat'
    first
    | with_reducible assumption | intro _ | with_reducible apply State.modHart_moves | with_reducible apply State.answer_moves
    | with_reducible apply loadResult_moves | with_reducible apply Moves.ite | split
    | (with_reducible refine Moves.snd (by assumption) ?_) | (with_reducible refine Moves.fst (by assumption) ?_)
    | with_reducible apply Moves.raw

theorem tcmAccess_moves {w : Mem → Bool} {s0 : State} (x0 : Nat) (x1 : Nat) (x2 : HartAcc) (x3 : Nat) {s : State} (hs : Moves w s0 s)
    (hwtcm : w .tcm = true) :
    Moves w s0 (tcmAccess x0 x1 x2 x3 s) := by
  unfold tcmAccess
  try dsimp only
  repeat'
    first
    | with_reducible assumption | intro _ | with_reducible apply trap_moves | with_reducible apply tcmCheck_moves
    | with_reducible apply tcmStore_moves | with_reducible apply State.modHart_moves | with_reducible apply setX_moves
    | with_reducible apply loadResult_moves | with_reducible apply readResult_moves | with_reducible apply Moves.ite | split
    | (with_reducible refine Moves.snd (by assumption) ?_) | (with_reducible refine Moves.fst (by assumption) ?_)
    | with_reducible apply Moves.raw

theorem hartFlash_moves {w : Mem → Bool} {s0 : State} (x0 : Nat) (x1 : Nat) (x2 : Nat) (x3 : HartAcc) (x4 : Nat) (x5 : Nat) {s : State}
    (hs : Moves w s0 s) :
    Moves w s0 (hartFlash x0 x1 x2 x3 x4 x5 s) := by
  unfold hartFlash
  try dsimp only
  repeat'
    first
    | with_reducible assumption | intro _ | with_reducible apply trap_moves | with_reducible apply readResult_moves
    | with_reducible apply flashRead_moves | with_reducible apply Moves.ite | split
    | (with_reducible refine Moves.snd (by assumption) ?_) | (with_reducible refine Moves.fst (by assumption) ?_)

theorem winAccess_moves {w : Mem → Bool} {s0 : State} (x0 : Nat) (x1 : Nat) (x2 : Nat) (x3 : HartAcc) (x4 : Nat) {s : State} (hs : Moves
    w s0 s) (hwdram : w .dram = true) (hwflash : w .flash = true) (hwhostmem : w .hostmem = true) (hwprogmem : w .progmem =
    true) (hwtrcbuf : w .trcbuf = true) (hwtcm : w .tcm = true) (hwreport : w .report = true) :
    Moves w s0 (winAccess x0 x1 x2 x3 x4 s) := by
  unfold winAccess
  try dsimp only
  repeat'
    first
    | with_reducible assumption | intro _ | with_reducible apply trap_moves | with_reducible apply busWrite_moves
    | with_reducible apply hartFlash_moves | with_reducible apply busRead_moves | with_reducible apply readResult_moves
    | with_reducible apply Moves.ite | split | (with_reducible refine Moves.snd (by assumption) ?_)
    | (with_reducible refine Moves.fst (by assumption) ?_)

theorem dramHart_moves {w : Mem → Bool} {s0 : State} (x0 : Nat) (x1 : Nat) (x2 : Nat) (x3 : HartAcc) (x4 : Nat) {s : State} (hs : Moves
    w s0 s) (hwdram : w .dram = true) :
    Moves w s0 (dramHart x0 x1 x2 x3 x4 s) := by
  unfold dramHart
  try dsimp only
  repeat'
    first
    | with_reducible assumption | intro _ | with_reducible apply trap_moves | with_reducible apply dramAccess_moves
    | with_reducible apply readResult_moves | with_reducible apply Moves.ite | split
    | (with_reducible refine Moves.snd (by assumption) ?_) | (with_reducible refine Moves.fst (by assumption) ?_)

theorem hartAccess_moves {w : Mem → Bool} {s0 : State} (x0 : Nat) (x1 : Nat) (x2 : HartAcc) {s : State} (hs : Moves w s0 s) (hwdram
    : w .dram = true) (hwflash : w .flash = true) (hwhostmem : w .hostmem = true) (hwprogmem : w .progmem = true) (hwtrcbuf : w
    .trcbuf = true) (hwtcm : w .tcm = true) (hwreport : w .report = true) :
    Moves w s0 (hartAccess x0 x1 x2 s) := by
  unfold hartAccess
  try dsimp only
  repeat'
    first
    | with_reducible assumption | intro _ | with_reducible apply trap_moves | with_reducible apply State.drew_moves
    | with_reducible apply tcmAccess_moves | with_reducible apply readResult_moves | with_reducible apply winAccess_moves
    | with_reducible apply dramHart_moves | with_reducible apply Moves.ite | split
    | (with_reducible refine Moves.snd (by assumption) ?_) | (with_reducible refine Moves.fst (by assumption) ?_)
    | with_reducible apply Moves.raw

theorem startTime_moves {w : Mem → Bool} {s0 : State} (x0 : Nat) {s : State} (hs : Moves w s0 s) :
    Moves w s0 (startTime x0 s) := by
  unfold startTime
  try dsimp only
  repeat'
    first
    | with_reducible assumption | intro _ | with_reducible apply alignTime_moves | with_reducible apply State.raise_moves
    | with_reducible apply State.wr_moves | with_reducible apply State.modDie_moves | with_reducible apply Moves.ite | split
    | (with_reducible refine Moves.snd (by assumption) ?_) | (with_reducible refine Moves.fst (by assumption) ?_)
    | with_reducible apply Moves.raw

theorem ptAlign_moves {w : Mem → Bool} {s0 : State} (x0 : Nat) {s : State} (hs : Moves w s0 s) :
    Moves w s0 (ptAlign x0 s) := by
  unfold ptAlign
  try dsimp only
  repeat'
    first
    | with_reducible assumption | intro _ | with_reducible apply State.modDie_moves | with_reducible apply alignTime_moves
    | with_reducible apply startTime_moves | with_reducible apply Moves.ite | split
    | (with_reducible refine Moves.snd (by assumption) ?_) | (with_reducible refine Moves.fst (by assumption) ?_)
    | with_reducible apply Moves.raw

theorem rootPllLock_moves {w : Mem → Bool} {s0 : State} (x0 : Nat) {s : State} (hs : Moves w s0 s) :
    Moves w s0 (rootPllLock x0 s) := by
  unfold rootPllLock
  try dsimp only
  repeat'
    first
    | with_reducible assumption | intro _ | with_reducible apply State.wr_moves | with_reducible apply State.modDie_moves
    | with_reducible apply rootGood_moves | with_reducible apply startTime_moves | with_reducible apply Moves.ite | split
    | (with_reducible refine Moves.snd (by assumption) ?_) | (with_reducible refine Moves.fst (by assumption) ?_)
    | with_reducible apply Moves.raw

theorem rootRetry_moves {w : Mem → Bool} {s0 : State} (x0 : Nat) {s : State} (hs : Moves w s0 s) :
    Moves w s0 (rootRetry x0 s) := by
  unfold rootRetry
  try dsimp only
  repeat'
    first
    | with_reducible assumption | intro _ | with_reducible apply rootLate_moves | with_reducible apply padsOff_moves
    | with_reducible apply State.pass_moves | with_reducible apply Moves.ite | split
    | (with_reducible refine Moves.snd (by assumption) ?_) | (with_reducible refine Moves.fst (by assumption) ?_)

theorem identTake_moves {w : Mem → Bool} {s0 : State} (x0 : Nat) {s : State} (hs : Moves w s0 s) :
    Moves w s0 (identTake x0 s) := by
  unfold identTake
  try dsimp only
  repeat'
    first
    | with_reducible assumption | intro _ | with_reducible apply State.wr_moves | with_reducible apply State.raise_moves
    | with_reducible apply Moves.ite | split | (with_reducible refine Moves.snd (by assumption) ?_)
    | (with_reducible refine Moves.fst (by assumption) ?_) | with_reducible apply Moves.raw

theorem pkgFirstTake_moves {w : Mem → Bool} {s0 : State} (x0 : Nat) {s : State} (hs : Moves w s0 s) :
    Moves w s0 (pkgFirstTake x0 s) := by
  unfold pkgFirstTake
  try dsimp only
  repeat'
    first
    | with_reducible assumption | intro _ | with_reducible apply State.modFlt_moves | with_reducible apply State.wr_moves
    | with_reducible apply State.setReg_moves | with_reducible apply Moves.ite | split
    | (with_reducible refine Moves.snd (by assumption) ?_) | (with_reducible refine Moves.fst (by assumption) ?_)
    | with_reducible apply Moves.raw

theorem spineTrained_moves {w : Mem → Bool} {s0 : State} (x0 : Nat) {s : State} (hs : Moves w s0 s) :
    Moves w s0 (spineTrained x0 s) := by
  unfold spineTrained
  try dsimp only
  repeat'
    first
    | with_reducible assumption | intro _ | with_reducible apply ptAlign_moves | with_reducible apply identTake_moves
    | with_reducible apply State.modDie_moves | with_reducible apply beatSend_moves | with_reducible apply pkgFirstTake_moves
    | with_reducible apply gmShow_moves | with_reducible apply Moves.ite | split
    | (with_reducible refine Moves.snd (by assumption) ?_) | (with_reducible refine Moves.fst (by assumption) ?_)
    | with_reducible apply Moves.raw

theorem readingCopyStart_moves {w : Mem → Bool} {s0 : State} (x0 : Nat) {s : State} (hs : Moves w s0 s) :
    Moves w s0 (readingCopyStart x0 s) := by
  unfold readingCopyStart
  try dsimp only
  repeat'
    first
    | with_reducible assumption | intro _ | with_reducible apply State.modDie_moves | with_reducible apply State.wr_moves
    | with_reducible apply State.forEach_moves | with_reducible apply State.modEnc_moves | with_reducible apply emuShowAll_moves
    | with_reducible apply Moves.ite | split | (with_reducible refine Moves.snd (by assumption) ?_)
    | (with_reducible refine Moves.fst (by assumption) ?_) | with_reducible apply Moves.raw

theorem phase3Step_moves {w : Mem → Bool} {s0 : State} (x0 : Nat) {s : State} (hs : Moves w s0 s) :
    Moves w s0 (phase3Step x0 s) := by
  unfold phase3Step
  try dsimp only
  repeat'
    first
    | with_reducible assumption | intro _ | with_reducible apply State.pass_moves | with_reducible apply State.wr_moves
    | with_reducible apply Moves.ite | split | (with_reducible refine Moves.snd (by assumption) ?_)
    | (with_reducible refine Moves.fst (by assumption) ?_)

theorem rcEmulate_moves {w : Mem → Bool} {s0 : State} (x0 : Nat) (x1 : Nat) {s : State} (hs : Moves w s0 s) :
    Moves w s0 (rcEmulate x0 x1 s) := by
  unfold rcEmulate
  try dsimp only
  repeat'
    first
    | with_reducible assumption | intro _ | with_reducible apply State.modEnc_moves | with_reducible apply emuNearest_moves
    | with_reducible apply State.wr_moves | with_reducible apply emuShow_moves | with_reducible apply Moves.ite | split
    | (with_reducible refine Moves.snd (by assumption) ?_) | (with_reducible refine Moves.fst (by assumption) ?_)
    | with_reducible apply Moves.raw

theorem rcAxis_moves {w : Mem → Bool} {s0 : State} (x0 : Nat) (x1 : Nat) {s : State} (hs : Moves w s0 s) :
    Moves w s0 (rcAxis x0 x1 s) := by
  unfold rcAxis
  try dsimp only
  repeat'
    first
    | with_reducible assumption | intro _ | with_reducible apply State.modEnc_moves | with_reducible apply State.wrBit_moves
    | with_reducible apply State.near_moves | with_reducible apply State.wr_moves | with_reducible apply rcEmulate_moves
    | with_reducible apply Moves.ite | split | (with_reducible refine Moves.snd (by assumption) ?_)
    | (with_reducible refine Moves.fst (by assumption) ?_) | with_reducible apply Moves.raw

theorem rcUpdate_moves {w : Mem → Bool} {s0 : State} (x0 : Nat) {s : State} (hs : Moves w s0 s) :
    Moves w s0 (rcUpdate x0 s) := by
  unfold rcUpdate
  try dsimp only
  repeat'
    first
    | with_reducible assumption | intro _ | with_reducible apply State.toNext_moves | with_reducible apply State.forEach_moves
    | with_reducible apply rcAxis_moves | with_reducible apply Moves.ite | split
    | (with_reducible refine Moves.snd (by assumption) ?_) | (with_reducible refine Moves.fst (by assumption) ?_)

theorem measure_moves {w : Mem → Bool} {s0 : State} (x0 : Nat) {s : State} (hs : Moves w s0 s) :
    Moves w s0 (measure x0 s) := by
  unfold measure
  try dsimp only
  repeat'
    first
    | with_reducible assumption | intro _ | with_reducible apply State.forEach_moves | with_reducible apply State.wrBit_moves
    | with_reducible apply State.wr_moves | with_reducible apply Moves.ite | split
    | (with_reducible refine Moves.snd (by assumption) ?_) | (with_reducible refine Moves.fst (by assumption) ?_)

theorem hartsStart_moves {w : Mem → Bool} {s0 : State} (x0 : Nat) {s : State} (hs : Moves w s0 s) :
    Moves w s0 (hartsStart x0 s) := by
  unfold hartsStart
  try dsimp only
  repeat'
    first
    | with_reducible assumption | intro _ | with_reducible apply State.forEach_moves | with_reducible apply State.modHart_moves
    | with_reducible apply State.raise_moves | with_reducible apply Moves.ite | split
    | (with_reducible refine Moves.snd (by assumption) ?_) | (with_reducible refine Moves.fst (by assumption) ?_)
    | with_reducible apply Moves.raw

theorem measuredStart_moves {w : Mem → Bool} {s0 : State} (x0 : Nat) {s : State} (hs : Moves w s0 s) :
    Moves w s0 (measuredStart x0 s) := by
  unfold measuredStart
  try dsimp only
  repeat'
    first
    | with_reducible assumption | intro _ | with_reducible apply State.modDie_moves | with_reducible apply measure_moves
    | with_reducible apply hartsStart_moves | with_reducible apply State.wr_moves | with_reducible apply State.raise_moves
    | with_reducible apply signKick_moves | with_reducible apply Moves.ite | split
    | (with_reducible refine Moves.snd (by assumption) ?_) | (with_reducible refine Moves.fst (by assumption) ?_)
    | with_reducible apply Moves.raw

theorem cfgWord_moves {w : Mem → Bool} {s0 : State} (x0 : Nat) (x1 : Nat) (x2 : Word) {s : State} (hs : Moves w s0 s) (hwdram : w
    .dram = true) (hwflash : w .flash = true) (hwhostmem : w .hostmem = true) (hwprogmem : w .progmem = true) (hwtrcbuf : w
    .trcbuf = true) (hwtcm : w .tcm = true) (hwreport : w .report = true) :
    Moves w s0 (cfgWord x0 x1 x2 s) := by
  unfold cfgWord
  try dsimp only
  repeat'
    first
    | with_reducible assumption | intro _ | with_reducible apply State.drew_moves | with_reducible apply State.raise_moves
    | with_reducible apply State.accessFault_moves | with_reducible apply progApply_moves | with_reducible apply wordWrite_moves
    | with_reducible apply winWrite_moves | with_reducible apply Moves.ite | split
    | (with_reducible refine Moves.snd (by assumption) ?_) | (with_reducible refine Moves.fst (by assumption) ?_)

theorem filsync_moves {w : Mem → Bool} {s0 : State} (x0 : Nat) (x1 : Nat) {s : State} (hs : Moves w s0 s) :
    Moves w s0 (filsync x0 x1 s) := by
  unfold filsync
  try dsimp only
  repeat'
    first
    | with_reducible assumption | intro _ | with_reducible apply State.forEach_moves | with_reducible apply filTake_moves
    | with_reducible apply Moves.ite | split | (with_reducible refine Moves.snd (by assumption) ?_)
    | (with_reducible refine Moves.fst (by assumption) ?_)

theorem cfgEntry_moves {w : Mem → Bool} {s0 : State} (x0 : Nat) (x1 : CfgEnt) {s : State} (hs : Moves w s0 s) (hwdram : w .dram =
    true) (hwflash : w .flash = true) (hwhostmem : w .hostmem = true) (hwprogmem : w .progmem = true) (hwtrcbuf : w .trcbuf =
    true) (hwtcm : w .tcm = true) (hwreport : w .report = true) :
    Moves w s0 (cfgEntry x0 x1 s) := by
  unfold cfgEntry
  try dsimp only
  repeat'
    first
    | with_reducible assumption | intro _ | with_reducible apply filsync_moves | with_reducible apply cfgWord_moves
    | with_reducible apply Moves.ite | split | (with_reducible refine Moves.snd (by assumption) ?_)
    | (with_reducible refine Moves.fst (by assumption) ?_)

theorem baseImageApply_moves {w : Mem → Bool} {s0 : State} (x0 : Nat) {s : State} (hs : Moves w s0 s) (hwdram : w .dram = true)
    (hwflash : w .flash = true) (hwhostmem : w .hostmem = true) (hwprogmem : w .progmem = true) (hwtrcbuf : w .trcbuf = true)
    (hwtcm : w .tcm = true) (hwreport : w .report = true) :
    Moves w s0 (baseImageApply x0 s) := by
  unfold baseImageApply
  try dsimp only
  repeat'
    first
    | with_reducible assumption | intro _ | with_reducible apply State.raise_moves | with_reducible apply State.modDie_moves
    | with_reducible apply cfgEntry_moves | with_reducible apply State.wr_moves | with_reducible apply State.holdBalls_moves
    | with_reducible apply State.forEach_moves | with_reducible apply State.takeSafe_moves
    | with_reducible apply State.refreshDie_moves | with_reducible apply Moves.foldl
    | (with_reducible refine Moves.foldlBy Prod.snd ?_ ?_) | (with_reducible refine Moves.foldlBy Prod.fst ?_ ?_)
    | (with_reducible refine Moves.foldlBy WordRun.s ?_ ?_) | with_reducible apply Moves.ite | split
    | (with_reducible refine Moves.snd (by assumption) ?_) | (with_reducible refine Moves.fst (by assumption) ?_)
    | with_reducible apply Moves.raw

theorem trkPreset_moves {w : Mem → Bool} {s0 : State} (x0 : Nat) (x1 : Nat) {s : State} (hs : Moves w s0 s) :
    Moves w s0 (trkPreset x0 x1 s) := by
  unfold trkPreset
  try dsimp only
  repeat'
    first
    | with_reducible assumption | intro _ | with_reducible apply State.modTrk_moves | with_reducible apply correction_moves
    | with_reducible apply State.wr_moves | with_reducible apply trkPublish_moves | with_reducible apply Moves.ite | split
    | (with_reducible refine Moves.snd (by assumption) ?_) | (with_reducible refine Moves.fst (by assumption) ?_)
    | with_reducible apply Moves.raw

theorem trkAcquire_moves {w : Mem → Bool} {s0 : State} (x0 : Nat) (x1 : Nat) {s : State} (hs : Moves w s0 s) :
    Moves w s0 (trkAcquire x0 x1 s) := by
  unfold trkAcquire
  try dsimp only
  repeat'
    first
    | with_reducible assumption | intro _ | with_reducible apply State.wr_moves | with_reducible apply State.modTrk_moves
    | with_reducible apply Moves.ite | split | (with_reducible refine Moves.snd (by assumption) ?_)
    | (with_reducible refine Moves.fst (by assumption) ?_) | with_reducible apply Moves.raw

theorem trkHandOver_moves {w : Mem → Bool} {s0 : State} (x0 : Nat) (x1 : Nat) {s : State} (hs : Moves w s0 s) :
    Moves w s0 (trkHandOver x0 x1 s) := by
  unfold trkHandOver
  try dsimp only
  repeat'
    first
    | with_reducible assumption | intro _ | with_reducible apply sectorClear_moves | with_reducible apply trkCtrlTake_moves
    | with_reducible apply trkPreset_moves | with_reducible apply trkAcquire_moves | with_reducible apply Moves.ite | split
    | (with_reducible refine Moves.snd (by assumption) ?_) | (with_reducible refine Moves.fst (by assumption) ?_)

theorem excHandOver_moves {w : Mem → Bool} {s0 : State} (x0 : Nat) (x1 : Nat) {s : State} (hs : Moves w s0 s) :
    Moves w s0 (excHandOver x0 x1 s) := by
  unfold excHandOver
  try dsimp only
  repeat'
    first
    | with_reducible assumption | intro _ | with_reducible apply State.modExc_moves | with_reducible apply pilotAcquire_moves
    | with_reducible apply Moves.ite | split | (with_reducible refine Moves.snd (by assumption) ?_)
    | (with_reducible refine Moves.fst (by assumption) ?_) | with_reducible apply Moves.raw

theorem emuHandOver_moves {w : Mem → Bool} {s0 : State} (x0 : Nat) (x1 : Nat) {s : State} (hs : Moves w s0 s) :
    Moves w s0 (emuHandOver x0 x1 s) := by
  unfold emuHandOver
  try dsimp only
  repeat'
    first
    | with_reducible assumption | intro _ | with_reducible apply emuRebaseFrom_moves | with_reducible apply State.wr_moves
    | with_reducible apply emuShow_moves | with_reducible apply State.modEnc_moves | with_reducible apply Moves.ite | split
    | (with_reducible refine Moves.snd (by assumption) ?_) | (with_reducible refine Moves.fst (by assumption) ?_)
    | with_reducible apply Moves.raw

theorem dieHandOver_moves {w : Mem → Bool} {s0 : State} (x0 : Nat) {s : State} (hs : Moves w s0 s) :
    Moves w s0 (dieHandOver x0 s) := by
  unfold dieHandOver
  try dsimp only
  repeat'
    first
    | with_reducible assumption | intro _ | with_reducible apply State.wr_moves | with_reducible apply State.holdBalls_moves
    | with_reducible apply State.modPair_moves | with_reducible apply State.forEach_moves
    | with_reducible apply emuHandOver_moves | with_reducible apply trkHandOver_moves | with_reducible apply excHandOver_moves
    | with_reducible apply State.refreshDie_moves | with_reducible apply Moves.ite | split
    | (with_reducible refine Moves.snd (by assumption) ?_) | (with_reducible refine Moves.fst (by assumption) ?_)
    | with_reducible apply Moves.raw

theorem firstRole_moves {w : Mem → Bool} {s0 : State} (x0 : List Nat) (x1 : Nat) {s : State} (hs : Moves w s0 s) :
    Moves w s0 (firstRole x0 x1 s) := by
  unfold firstRole
  try dsimp only
  repeat'
    first
    | with_reducible assumption | intro _ | with_reducible apply setRole_moves | with_reducible apply State.wr_moves
    | with_reducible apply State.modPair_moves | with_reducible apply Moves.ite | split
    | (with_reducible refine Moves.snd (by assumption) ?_) | (with_reducible refine Moves.fst (by assumption) ?_)
    | with_reducible apply Moves.raw

theorem fullServiceEntry_moves {w : Mem → Bool} {s0 : State} {s : State} (hs : Moves w s0 s) :
    Moves w s0 (fullServiceEntry s) := by
  unfold fullServiceEntry
  try dsimp only
  repeat'
    first
    | with_reducible assumption | intro _ | with_reducible apply State.pass_moves | with_reducible apply State.forEach_moves
    | with_reducible apply dieHandOver_moves | with_reducible apply firstRole_moves | with_reducible apply Moves.foldl
    | (with_reducible refine Moves.foldlBy Prod.snd ?_ ?_) | (with_reducible refine Moves.foldlBy Prod.fst ?_ ?_)
    | (with_reducible refine Moves.foldlBy WordRun.s ?_ ?_) | with_reducible apply Moves.ite | split
    | (with_reducible refine Moves.snd (by assumption) ?_) | (with_reducible refine Moves.fst (by assumption) ?_)

theorem epochWord_moves {w : Mem → Bool} {s0 : State} (x0 : Nat) (x1 : Nat) (x2 : Word) {s : State} (hs : Moves w s0 s) (hwdram : w
    .dram = true) (hwflash : w .flash = true) (hwhostmem : w .hostmem = true) (hwprogmem : w .progmem = true) (hwtrcbuf : w
    .trcbuf = true) (hwtcm : w .tcm = true) (hwreport : w .report = true) :
    Moves w s0 (epochWord x0 x1 x2 s).2 := by
  unfold epochWord
  try dsimp only
  repeat'
    first
    | with_reducible assumption | intro _ | with_reducible apply cfgWord_moves | with_reducible apply State.raise_moves
    | with_reducible apply State.addSat_moves | with_reducible apply Moves.ite | split
    | (with_reducible refine Moves.snd (by assumption) ?_) | (with_reducible refine Moves.fst (by assumption) ?_)

theorem epochEntry_moves {w : Mem → Bool} {s0 : State} (x0 : Nat) (x1 : CfgEnt) {s : State} (hs : Moves w s0 s) (hwdram : w .dram
    = true) (hwflash : w .flash = true) (hwhostmem : w .hostmem = true) (hwprogmem : w .progmem = true) (hwtrcbuf : w .trcbuf =
    true) (hwtcm : w .tcm = true) (hwreport : w .report = true) :
    Moves w s0 (epochEntry x0 x1 s) := by
  unfold epochEntry
  try dsimp only
  repeat'
    first
    | with_reducible assumption | intro _ | with_reducible apply State.modEpo_moves | with_reducible apply filsync_moves
    | with_reducible apply epochWord_moves | with_reducible apply Moves.ite | split
    | (with_reducible refine Moves.snd (by assumption) ?_) | (with_reducible refine Moves.fst (by assumption) ?_)
    | with_reducible apply Moves.raw

theorem applyPart_moves {w : Mem → Bool} {s0 : State} (x0 : Nat) (x1 : Option Nat) (x2 : Bool) {s : State} (hs : Moves w s0 s)
    (hwdram : w .dram = true) (hwflash : w .flash = true) (hwhostmem : w .hostmem = true) (hwprogmem : w .progmem = true)
    (hwtrcbuf : w .trcbuf = true) (hwtcm : w .tcm = true) (hwreport : w .report = true) :
    Moves w s0 (applyPart x0 x1 x2 s) := by
  unfold applyPart
  try dsimp only
  repeat'
    first
    | with_reducible assumption | intro _ | with_reducible apply epochEntry_moves | with_reducible apply Moves.foldl
    | (with_reducible refine Moves.foldlBy Prod.snd ?_ ?_) | (with_reducible refine Moves.foldlBy Prod.fst ?_ ?_)
    | (with_reducible refine Moves.foldlBy WordRun.s ?_ ?_) | with_reducible apply Moves.ite | split
    | (with_reducible refine Moves.snd (by assumption) ?_) | (with_reducible refine Moves.fst (by assumption) ?_)

theorem revertPart_moves {w : Mem → Bool} {s0 : State} (x0 : Nat) (x1 : Option Nat) (x2 : Bool) {s : State} (hs : Moves w s0 s)
    (hwdram : w .dram = true) (hwflash : w .flash = true) (hwhostmem : w .hostmem = true) (hwprogmem : w .progmem = true)
    (hwtrcbuf : w .trcbuf = true) (hwtcm : w .tcm = true) (hwreport : w .report = true) :
    Moves w s0 (revertPart x0 x1 x2 s) := by
  unfold revertPart
  try dsimp only
  repeat'
    first
    | with_reducible assumption | intro _ | with_reducible apply epochWord_moves | with_reducible apply State.modEpo_moves
    | with_reducible apply Moves.foldl | (with_reducible refine Moves.foldlBy Prod.snd ?_ ?_)
    | (with_reducible refine Moves.foldlBy Prod.fst ?_ ?_) | (with_reducible refine Moves.foldlBy WordRun.s ?_ ?_)
    | with_reducible apply Moves.ite | split | (with_reducible refine Moves.snd (by assumption) ?_)
    | (with_reducible refine Moves.fst (by assumption) ?_) | with_reducible apply Moves.raw

theorem tryClose_moves {w : Mem → Bool} {s0 : State} (x0 : EpoRec) {s : State} (hs : Moves w s0 s) :
    Moves w s0 (tryClose x0 s) := by
  unfold tryClose
  try dsimp only
  repeat'
    first
    | with_reducible assumption | intro _ | with_reducible apply State.forEach_moves | with_reducible apply epochClose_moves
    | with_reducible apply Moves.ite | split | (with_reducible refine Moves.snd (by assumption) ?_)
    | (with_reducible refine Moves.fst (by assumption) ?_)

theorem axisApplied_moves {w : Mem → Bool} {s0 : State} (x0 : Nat) (x1 : Nat) {s : State} (hs : Moves w s0 s) :
    Moves w s0 (axisApplied x0 x1 s) := by
  unfold axisApplied
  try dsimp only
  repeat'
    first
    | with_reducible assumption | intro _ | with_reducible apply State.wrBit_moves | with_reducible apply tryClose_moves
    | with_reducible apply State.raise_moves | with_reducible apply State.wr_moves | with_reducible apply Moves.ite | split
    | (with_reducible refine Moves.snd (by assumption) ?_) | (with_reducible refine Moves.fst (by assumption) ?_)

theorem partReverted_moves {w : Mem → Bool} {s0 : State} (x0 : Nat) (x1 : Nat) {s : State} (hs : Moves w s0 s) :
    Moves w s0 (partReverted x0 x1 s) := by
  unfold partReverted
  try dsimp only
  repeat'
    first
    | with_reducible assumption | intro _ | with_reducible apply State.modEpo_moves | with_reducible apply State.wrBit_moves
    | with_reducible apply epochClose_moves | with_reducible apply State.wr_moves | with_reducible apply Moves.ite | split
    | (with_reducible refine Moves.snd (by assumption) ?_) | (with_reducible refine Moves.fst (by assumption) ?_)
    | with_reducible apply Moves.raw

theorem epochLaw_moves {w : Mem → Bool} {s0 : State} (x0 : Nat) (x1 : Nat) {s : State} (hs : Moves w s0 s) (hwdram : w .dram = true)
    (hwflash : w .flash = true) (hwhostmem : w .hostmem = true) (hwprogmem : w .progmem = true) (hwtrcbuf : w .trcbuf = true)
    (hwtcm : w .tcm = true) (hwreport : w .report = true) :
    Moves w s0 (epochLaw x0 x1 s) := by
  unfold epochLaw
  try dsimp only
  repeat'
    first
    | with_reducible assumption | intro _ | with_reducible apply State.modEpo_moves | with_reducible apply partReverted_moves
    | with_reducible apply revertPart_moves | with_reducible apply axisApplied_moves | with_reducible apply applyPart_moves
    | with_reducible apply Moves.ite | split | (with_reducible refine Moves.snd (by assumption) ?_)
    | (with_reducible refine Moves.fst (by assumption) ?_) | with_reducible apply Moves.raw

theorem epochLawWait_moves {w : Mem → Bool} {s0 : State} (x0 : Nat) (x1 : Nat) (x2 : Bool) {s : State} (hs : Moves w s0 s) (hwdram :
    w .dram = true) (hwflash : w .flash = true) (hwhostmem : w .hostmem = true) (hwprogmem : w .progmem = true) (hwtrcbuf : w
    .trcbuf = true) (hwtcm : w .tcm = true) (hwreport : w .report = true) :
    Moves w s0 (epochLawWait x0 x1 x2 s) := by
  unfold epochLawWait
  try dsimp only
  repeat'
    first
    | with_reducible assumption | intro _ | with_reducible apply State.modEpo_moves | with_reducible apply epochLaw_moves
    | with_reducible apply Moves.ite | split | (with_reducible refine Moves.snd (by assumption) ?_)
    | (with_reducible refine Moves.fst (by assumption) ?_) | with_reducible apply Moves.raw

theorem toAxisBoundary_moves {w : Mem → Bool} {s0 : State} (x0 : Nat) (x1 : Nat) (x2 : Nat) {s : State} (hs : Moves w s0 s) :
    Moves w s0 (toAxisBoundary x0 x1 x2 s) := by
  unfold toAxisBoundary
  try dsimp only
  repeat'
    first
    | with_reducible assumption | intro _ | with_reducible apply State.passTo_moves | with_reducible apply State.pass_moves
    | with_reducible apply State.toGrid_moves | with_reducible apply Moves.ite | split
    | (with_reducible refine Moves.snd (by assumption) ?_) | (with_reducible refine Moves.fst (by assumption) ?_)

theorem dieBoundary_moves {w : Mem → Bool} {s0 : State} (x0 : Nat) {s : State} (hs : Moves w s0 s) (hwdram : w .dram = true)
    (hwflash : w .flash = true) (hwhostmem : w .hostmem = true) (hwprogmem : w .progmem = true) (hwtrcbuf : w .trcbuf = true)
    (hwtcm : w .tcm = true) (hwreport : w .report = true) :
    Moves w s0 (dieBoundary x0 s) := by
  unfold dieBoundary
  try dsimp only
  repeat'
    first
    | with_reducible assumption | intro _ | with_reducible apply State.toGrid_moves | with_reducible apply State.passTo_moves
    | with_reducible apply tryClose_moves | with_reducible apply State.modEpo_moves | with_reducible apply applyPart_moves
    | with_reducible apply Moves.ite | split | (with_reducible refine Moves.snd (by assumption) ?_)
    | (with_reducible refine Moves.fst (by assumption) ?_) | with_reducible apply Moves.raw

theorem axisBoundary_moves {w : Mem → Bool} {s0 : State} (x0 : Nat) (x1 : Nat) {s : State} (hs : Moves w s0 s) (hwdram : w .dram =
    true) (hwflash : w .flash = true) (hwhostmem : w .hostmem = true) (hwprogmem : w .progmem = true) (hwtrcbuf : w .trcbuf =
    true) (hwtcm : w .tcm = true) (hwreport : w .report = true) :
    Moves w s0 (axisBoundary x0 x1 s) := by
  unfold axisBoundary
  try dsimp only
  repeat'
    first
    | with_reducible assumption | intro _ | with_reducible apply epochLaw_moves | with_reducible apply toAxisBoundary_moves
    | with_reducible apply epochLawWait_moves | with_reducible apply applyPart_moves | with_reducible apply Moves.ite | split
    | (with_reducible refine Moves.snd (by assumption) ?_) | (with_reducible refine Moves.fst (by assumption) ?_)

theorem revertDies_moves {w : Mem → Bool} {s0 : State} (x0 : EpoRec) (x1 : Nat) (x2 : Nat) {s : State} (hs : Moves w s0 s) :
    Moves w s0 (revertDies x0 x1 x2 s) := by
  unfold revertDies
  try dsimp only
  repeat'
    first
    | with_reducible assumption | intro _ | with_reducible apply State.forEach_moves | with_reducible apply State.modEpo_moves
    | with_reducible apply epochClose_moves | with_reducible apply Moves.ite | split
    | (with_reducible refine Moves.snd (by assumption) ?_) | (with_reducible refine Moves.fst (by assumption) ?_)
    | with_reducible apply Moves.raw

theorem sendOutcome_moves {w : Mem → Bool} {s0 : State} (x0 : Nat) (x1 : Nat) (x2 : Nat) (x3 : Nat) (x4 : EpoRec) {s : State} (hs :
    Moves w s0 s) :
    Moves w s0 (sendOutcome x0 x1 x2 x3 x4 s) := by
  unfold sendOutcome
  try dsimp only
  repeat'
    first
    | with_reducible assumption | intro _ | with_reducible apply epochSend_moves | with_reducible apply Moves.ite | split
    | (with_reducible refine Moves.snd (by assumption) ?_) | (with_reducible refine Moves.fst (by assumption) ?_)

theorem lateDie_moves {w : Mem → Bool} {s0 : State} (x0 : Nat) (x1 : Nat) (x2 : Nat) (x3 : Nat) {s : State} (hs : Moves w s0 s) :
    Moves w s0 (lateDie x0 x1 x2 x3 s) := by
  unfold lateDie
  try dsimp only
  repeat'
    first
    | with_reducible assumption | intro _ | with_reducible apply State.wr_moves | with_reducible apply State.raise_moves
    | with_reducible apply unready_moves | with_reducible apply Moves.ite | split
    | (with_reducible refine Moves.snd (by assumption) ?_) | (with_reducible refine Moves.fst (by assumption) ?_)

theorem skewCheck_moves {w : Mem → Bool} {s0 : State} (x0 : Nat) {s : State} (hs : Moves w s0 s) :
    Moves w s0 (skewCheck x0 s) := by
  unfold skewCheck
  try dsimp only
  repeat'
    first
    | with_reducible assumption | intro _ | with_reducible apply State.modEpo_moves | with_reducible apply State.passTo_moves
    | with_reducible apply tryClose_moves | with_reducible apply State.raise_moves | with_reducible apply State.forEach_moves
    | with_reducible apply lateDie_moves | with_reducible apply sendOutcome_moves | with_reducible apply revertDies_moves
    | with_reducible apply Moves.ite | split | (with_reducible refine Moves.snd (by assumption) ?_)
    | (with_reducible refine Moves.fst (by assumption) ?_) | with_reducible apply Moves.raw

theorem revertStart_moves {w : Mem → Bool} {s0 : State} (x0 : Nat) {s : State} (hs : Moves w s0 s) :
    Moves w s0 (revertStart x0 s) := by
  unfold revertStart
  try dsimp only
  repeat'
    first
    | with_reducible assumption | intro _ | with_reducible apply State.modEpo_moves | with_reducible apply State.wr_moves
    | with_reducible apply Moves.ite | split | (with_reducible refine Moves.snd (by assumption) ?_)
    | (with_reducible refine Moves.fst (by assumption) ?_) | with_reducible apply Moves.raw

theorem epochRevert_moves {w : Mem → Bool} {s0 : State} (x0 : Nat) (x1 : Nat) {s : State} (hs : Moves w s0 s) (hwdram : w .dram =
    true) (hwflash : w .flash = true) (hwhostmem : w .hostmem = true) (hwprogmem : w .progmem = true) (hwtrcbuf : w .trcbuf =
    true) (hwtcm : w .tcm = true) (hwreport : w .report = true) :
    Moves w s0 (epochRevert x0 x1 s) := by
  unfold epochRevert
  try dsimp only
  repeat'
    first
    | with_reducible assumption | intro _ | with_reducible apply epochLaw_moves | with_reducible apply revertStart_moves
    | with_reducible apply State.toGrid_moves | with_reducible apply State.passTo_moves
    | with_reducible apply partReverted_moves | with_reducible apply filsync_moves | with_reducible apply revertPart_moves
    | with_reducible apply toAxisBoundary_moves | with_reducible apply epochLawWait_moves | with_reducible apply Moves.ite
    | split | (with_reducible refine Moves.snd (by assumption) ?_) | (with_reducible refine Moves.fst (by assumption) ?_)

theorem takeEpoch_moves {w : Mem → Bool} {s0 : State} (x0 : Nat) (x1 : Nat) {s : State} (hs : Moves w s0 s) :
    Moves w s0 (takeEpoch x0 x1 s).2 := by
  unfold takeEpoch
  try dsimp only
  repeat'
    first
    | with_reducible assumption | intro _ | with_reducible apply takeRx_moves | with_reducible apply Moves.ite | split
    | (with_reducible refine Moves.snd (by assumption) ?_) | (with_reducible refine Moves.fst (by assumption) ?_)

theorem fabricStage_moves {w : Mem → Bool} {s0 : State} (x0 : Nat) (x1 : Nat) {s : State} (hs : Moves w s0 s) :
    Moves w s0 (fabricStage x0 x1 s) := by
  unfold fabricStage
  try dsimp only
  repeat'
    first
    | with_reducible assumption | intro _ | with_reducible apply stageMode_moves | with_reducible apply State.wr_moves
    | with_reducible apply Moves.ite | split | (with_reducible refine Moves.snd (by assumption) ?_)
    | (with_reducible refine Moves.fst (by assumption) ?_)

theorem commitReceive_moves {w : Mem → Bool} {s0 : State} (x0 : Nat) {s : State} (hs : Moves w s0 s) :
    Moves w s0 (commitReceive x0 s) := by
  unfold commitReceive
  try dsimp only
  repeat'
    first
    | with_reducible assumption | intro _ | with_reducible apply takeEpoch_moves | with_reducible apply State.raise_moves
    | with_reducible apply epochSend_moves | with_reducible apply State.forEach_moves | with_reducible apply fabricStage_moves
    | with_reducible apply commitDie_moves | with_reducible apply State.modEpo_moves | with_reducible apply Moves.ite | split
    | (with_reducible refine Moves.snd (by assumption) ?_) | (with_reducible refine Moves.fst (by assumption) ?_)
    | with_reducible apply Moves.raw

theorem relayOutcome_moves {w : Mem → Bool} {s0 : State} (x0 : Nat) (x1 : List Byte) {s : State} (hs : Moves w s0 s) :
    Moves w s0 (relayOutcome x0 x1 s) := by
  unfold relayOutcome
  try dsimp only
  repeat'
    first
    | with_reducible assumption | intro _ | with_reducible apply epochSend_moves | with_reducible apply Moves.ite | split
    | (with_reducible refine Moves.snd (by assumption) ?_) | (with_reducible refine Moves.fst (by assumption) ?_)

theorem revertReceive_moves {w : Mem → Bool} {s0 : State} (x0 : Nat) {s : State} (hs : Moves w s0 s) :
    Moves w s0 (revertReceive x0 s) := by
  unfold revertReceive
  try dsimp only
  repeat'
    first
    | with_reducible assumption | intro _ | with_reducible apply takeEpoch_moves | with_reducible apply revertDies_moves
    | with_reducible apply relayOutcome_moves | with_reducible apply Moves.ite | split
    | (with_reducible refine Moves.snd (by assumption) ?_) | (with_reducible refine Moves.fst (by assumption) ?_)

theorem applyLateReceive_moves {w : Mem → Bool} {s0 : State} (x0 : Nat) {s : State} (hs : Moves w s0 s) :
    Moves w s0 (applyLateReceive x0 s) := by
  unfold applyLateReceive
  try dsimp only
  repeat'
    first
    | with_reducible assumption | intro _ | with_reducible apply takeEpoch_moves | with_reducible apply relayOutcome_moves
    | with_reducible apply Moves.ite | split | (with_reducible refine Moves.snd (by assumption) ?_)
    | (with_reducible refine Moves.fst (by assumption) ?_)

theorem refuseReceive_moves {w : Mem → Bool} {s0 : State} (x0 : Nat) {s : State} (hs : Moves w s0 s) :
    Moves w s0 (refuseReceive x0 s) := by
  unfold refuseReceive
  try dsimp only
  repeat'
    first
    | with_reducible assumption | intro _ | with_reducible apply takeEpoch_moves | with_reducible apply State.forEach_moves
    | with_reducible apply State.modEpo_moves | with_reducible apply Moves.ite | split
    | (with_reducible refine Moves.snd (by assumption) ?_) | (with_reducible refine Moves.fst (by assumption) ?_)
    | with_reducible apply Moves.raw

theorem abortReceive_moves {w : Mem → Bool} {s0 : State} (x0 : Nat) {s : State} (hs : Moves w s0 s) :
    Moves w s0 (abortReceive x0 s) := by
  unfold abortReceive
  try dsimp only
  repeat'
    first
    | with_reducible assumption | intro _ | with_reducible apply takeEpoch_moves | with_reducible apply abortDies_moves
    | with_reducible apply Moves.ite | split | (with_reducible refine Moves.snd (by assumption) ?_)
    | (with_reducible refine Moves.fst (by assumption) ?_)

theorem WordRun.add_moves {w : Mem → Bool} {s0 : State} {x0 : WordRun} (x1 : Nat) {s : State} (x3 : Nat) (hx0 : Moves w s0 x0.s) (hs
    : Moves w s0 s) :
    Moves w s0 (WordRun.add x0 x1 s x3).s := by
  unfold WordRun.add
  try dsimp only
  repeat'
    first
    | with_reducible assumption | intro _ | with_reducible apply WordRun.both_moves | with_reducible apply Moves.ite | split
    | (with_reducible refine Moves.snd (by assumption) ?_) | (with_reducible refine Moves.fst (by assumption) ?_)

theorem readWords_moves {w : Mem → Bool} {s0 : State} (x0 : Nat) (x1 : Nat) (x2 : Nat) (x3 : Nat) {s : State} (hs : Moves w s0 s)
    (hwprogmem : w .progmem = true) :
    Moves w s0 (readWords x0 x1 x2 x3 s).s := by
  unfold readWords
  try dsimp only
  repeat'
    first
    | with_reducible assumption | intro _ | with_reducible apply busRead_moves | with_reducible apply WordRun.add_moves
    | with_reducible apply WordRun.both_moves | with_reducible apply Moves.foldl
    | (with_reducible refine Moves.foldlBy Prod.snd ?_ ?_) | (with_reducible refine Moves.foldlBy Prod.fst ?_ ?_)
    | (with_reducible refine Moves.foldlBy WordRun.s ?_ ?_) | with_reducible apply Moves.ite | split
    | (with_reducible refine Moves.snd (by assumption) ?_) | (with_reducible refine Moves.fst (by assumption) ?_)

theorem WordRun.both_moves {w : Mem → Bool} {s0 : State} {x : WordRun} (h : Moves w s0 x.s) (hwdram : w .dram = true) (hwflash :
    w .flash = true) (hwhostmem : w .hostmem = true) (hwprogmem : w .progmem = true) (hwtrcbuf : w .trcbuf = true) (hwtcm : w
    .tcm = true) (hwreport : w .report = true) :
    Moves w s0 x.both.s := fwdDrain_moves h hwdram hwflash hwhostmem hwprogmem hwtrcbuf hwtcm hwreport

theorem writeWords_moves {w : Mem → Bool} {s0 : State} (x0 : Nat) (x1 : Nat) (x2 : Nat) (x3 : List Nat) {s : State} (hs : Moves w s0 s)
    (hwdram : w .dram = true) (hwflash : w .flash = true) (hwhostmem : w .hostmem = true) (hwprogmem : w .progmem = true)
    (hwtrcbuf : w .trcbuf = true) (hwtcm : w .tcm = true) (hwreport : w .report = true) :
    Moves w s0 (writeWords x0 x1 x2 x3 s).s := by
  unfold writeWords
  try dsimp only
  repeat'
    first
    | with_reducible assumption | intro _ | with_reducible apply WordRun.add_moves | with_reducible apply busWrite_moves
    | with_reducible apply WordRun.both_moves | with_reducible apply Moves.foldl
    | (with_reducible refine Moves.foldlBy Prod.snd ?_ ?_) | (with_reducible refine Moves.foldlBy Prod.fst ?_ ?_)
    | (with_reducible refine Moves.foldlBy WordRun.s ?_ ?_) | with_reducible apply Moves.ite | split
    | (with_reducible refine Moves.snd (by assumption) ?_) | (with_reducible refine Moves.fst (by assumption) ?_)

theorem maskWords_moves {w : Mem → Bool} {s0 : State} (x0 : Nat) (x1 : Nat) (x2 : Nat) (x3 : List Nat) (x4 : List Nat) {s : State} (hs :
    Moves w s0 s) (hwdram : w .dram = true) (hwflash : w .flash = true) (hwhostmem : w .hostmem = true) (hwprogmem : w .progmem
    = true) (hwtrcbuf : w .trcbuf = true) (hwtcm : w .tcm = true) (hwreport : w .report = true) :
    Moves w s0 (maskWords x0 x1 x2 x3 x4 s).s := by
  unfold maskWords
  try dsimp only
  repeat'
    first
    | with_reducible assumption | intro _ | with_reducible apply busMask_moves | with_reducible apply WordRun.add_moves
    | with_reducible apply WordRun.both_moves | with_reducible apply Moves.foldl
    | (with_reducible refine Moves.foldlBy Prod.snd ?_ ?_) | (with_reducible refine Moves.foldlBy Prod.fst ?_ ?_)
    | (with_reducible refine Moves.foldlBy WordRun.s ?_ ?_) | with_reducible apply Moves.ite | split
    | (with_reducible refine Moves.snd (by assumption) ?_) | (with_reducible refine Moves.fst (by assumption) ?_)

theorem wordsDone_moves {w : Mem → Bool} {s0 : State} (x0 : Nat) (x1 : Nat) (x2 : Nat) {x3 : WordRun} (hx3 : Moves w s0 x3.s)
    (hwhostmem : w .hostmem = true) :
    Moves w s0 (wordsDone x0 x1 x2 x3) := by
  unfold wordsDone
  try dsimp only
  repeat'
    first
    | with_reducible assumption | intro _ | with_reducible apply cmdDone_moves | with_reducible apply Moves.ite | split
    | (with_reducible refine Moves.snd (by assumption) ?_) | (with_reducible refine Moves.fst (by assumption) ?_)

theorem hifRdreg_moves {w : Mem → Bool} {s0 : State} (x0 : Nat) (x1 : Nat) (x2 : List Byte) {s : State} (hs : Moves w s0 s)
    (hwhostmem : w .hostmem = true) (hwprogmem : w .progmem = true) :
    Moves w s0 (hifRdreg x0 x1 x2 s) := by
  unfold hifRdreg
  try dsimp only
  repeat'
    first
    | with_reducible assumption | intro _ | with_reducible apply cmdDone_moves | with_reducible apply readWords_moves
    | with_reducible apply wordsDone_moves | with_reducible apply putHost_moves | with_reducible apply Moves.ite | split
    | (with_reducible refine Moves.snd (by assumption) ?_) | (with_reducible refine Moves.fst (by assumption) ?_)
    | with_reducible apply Moves.raw

theorem hostDataFail_moves {w : Mem → Bool} {s0 : State} (x0 : Nat) (x1 : Nat) (x2 : Nat) {s : State} (hs : Moves w s0 s) (hwhostmem :
    w .hostmem = true) :
    Moves w s0 (hostDataFail x0 x1 x2 s) := by
  unfold hostDataFail
  try dsimp only
  repeat'
    first
    | with_reducible assumption | intro _ | with_reducible apply State.raise_moves | with_reducible apply cmdDone_moves
    | with_reducible apply Moves.ite | split | (with_reducible refine Moves.snd (by assumption) ?_)
    | (with_reducible refine Moves.fst (by assumption) ?_)

theorem hifWrreg_moves {w : Mem → Bool} {s0 : State} (x0 : Nat) (x1 : Nat) (x2 : Bool) (x3 : List Byte) (x4 : List Byte) {s : State}
    (hs : Moves w s0 s) (hwdram : w .dram = true) (hwflash : w .flash = true) (hwhostmem : w .hostmem = true) (hwprogmem : w
    .progmem = true) (hwtrcbuf : w .trcbuf = true) (hwtcm : w .tcm = true) (hwreport : w .report = true) :
    Moves w s0 (hifWrreg x0 x1 x2 x3 x4 s) := by
  unfold hifWrreg
  try dsimp only
  repeat'
    first
    | with_reducible assumption | intro _ | with_reducible apply cmdDone_moves | with_reducible apply writeWords_moves
    | with_reducible apply wordsDone_moves | with_reducible apply hostDataFail_moves | with_reducible apply Moves.ite | split
    | (with_reducible refine Moves.snd (by assumption) ?_) | (with_reducible refine Moves.fst (by assumption) ?_)

theorem hifWr1_moves {w : Mem → Bool} {s0 : State} (x0 : Nat) (x1 : Nat) (x2 : List Byte) {s : State} (hs : Moves w s0 s) (hwdram :
    w .dram = true) (hwflash : w .flash = true) (hwhostmem : w .hostmem = true) (hwprogmem : w .progmem = true) (hwtrcbuf : w
    .trcbuf = true) (hwtcm : w .tcm = true) (hwreport : w .report = true) :
    Moves w s0 (hifWr1 x0 x1 x2 s) := by
  unfold hifWr1
  try dsimp only
  repeat'
    first
    | with_reducible assumption | intro _ | with_reducible apply cmdDone_moves | with_reducible apply wordsDone_moves
    | with_reducible apply writeWords_moves | with_reducible apply Moves.ite | split
    | (with_reducible refine Moves.snd (by assumption) ?_) | (with_reducible refine Moves.fst (by assumption) ?_)

theorem hifMask_moves {w : Mem → Bool} {s0 : State} (x0 : Nat) (x1 : Nat) (x2 : List Byte) {s : State} (hs : Moves w s0 s) (hwdram :
    w .dram = true) (hwflash : w .flash = true) (hwhostmem : w .hostmem = true) (hwprogmem : w .progmem = true) (hwtrcbuf : w
    .trcbuf = true) (hwtcm : w .tcm = true) (hwreport : w .report = true) :
    Moves w s0 (hifMask x0 x1 x2 s) := by
  unfold hifMask
  try dsimp only
  repeat'
    first
    | with_reducible assumption | intro _ | with_reducible apply cmdDone_moves | with_reducible apply maskWords_moves
    | with_reducible apply wordsDone_moves | with_reducible apply Moves.ite | split
    | (with_reducible refine Moves.snd (by assumption) ?_) | (with_reducible refine Moves.fst (by assumption) ?_)

theorem hifDmaw_moves {w : Mem → Bool} {s0 : State} (x0 : Nat) (x1 : Nat) (x2 : Bool) (x3 : List Byte) (x4 : List Byte) {s : State}
    (hs : Moves w s0 s) (hwdram : w .dram = true) (hwhostmem : w .hostmem = true) :
    Moves w s0 (hifDmaw x0 x1 x2 x3 x4 s) := by
  unfold hifDmaw
  try dsimp only
  repeat'
    first
    | with_reducible assumption | intro _ | with_reducible apply cmdDone_moves | with_reducible apply State.dramWrite_moves
    | with_reducible apply hostDataFail_moves | with_reducible apply Moves.ite | split
    | (with_reducible refine Moves.snd (by assumption) ?_) | (with_reducible refine Moves.fst (by assumption) ?_)

theorem hifDmar_moves {w : Mem → Bool} {s0 : State} (x0 : Nat) (x1 : Nat) (x2 : Nat) (x3 : List Byte) {s : State} (hs : Moves w s0 s)
    (hwhostmem : w .hostmem = true) :
    Moves w s0 (hifDmar x0 x1 x2 x3 s) := by
  unfold hifDmar
  try dsimp only
  repeat'
    first
    | with_reducible assumption | intro _ | with_reducible apply cmdDone_moves | with_reducible apply State.dramRead_moves
    | with_reducible apply eccRead_moves | with_reducible apply putHost_moves | with_reducible apply Moves.ite | split
    | (with_reducible refine Moves.snd (by assumption) ?_) | (with_reducible refine Moves.fst (by assumption) ?_)

theorem hifColoph_moves {w : Mem → Bool} {s0 : State} (x0 : Nat) (x1 : Nat) (x2 : Bool) (x3 : List Byte) (x4 : List Byte) {s :
    State} (hs : Moves w s0 s) (hwhostmem : w .hostmem = true) :
    Moves w s0 (hifColoph x0 x1 x2 x3 x4 s) := by
  unfold hifColoph
  try dsimp only
  repeat'
    first
    | with_reducible assumption | intro _ | with_reducible apply cmdDone_moves | with_reducible apply hostDataFail_moves
    | with_reducible apply signAsk_moves | with_reducible apply Moves.ite | split
    | (with_reducible refine Moves.snd (by assumption) ?_) | (with_reducible refine Moves.fst (by assumption) ?_)

theorem completionTimeout_moves {w : Mem → Bool} {s0 : State} (x0 : Nat) (x1 : Nat) (x2 : Bool) {s : State} (hs : Moves w s0 s)
    (hwhostmem : w .hostmem = true) :
    Moves w s0 (completionTimeout x0 x1 x2 s) := by
  unfold completionTimeout
  try dsimp only
  repeat'
    first
    | with_reducible assumption | intro _ | with_reducible apply hostDataFail_moves | with_reducible apply State.raise_moves
    | with_reducible apply ringHalt_moves | with_reducible apply Moves.ite | split
    | (with_reducible refine Moves.snd (by assumption) ?_) | (with_reducible refine Moves.fst (by assumption) ?_)

theorem arcServe_moves {w : Mem → Bool} {s0 : State} (x0 : Nat) (x1 : Nat) (x2 : List Byte) {s : State} {x4 : Nat → State → State} (hs
    : Moves w s0 s) (hx4 : ∀ a0 u, Moves w s0 u → Moves w s0 (x4 a0 u)) (hwhostmem : w .hostmem = true) :
    Moves w s0 (arcServe x0 x1 x2 s x4) := by
  unfold arcServe
  try dsimp only
  repeat'
    first
    | with_reducible assumption | intro _ | with_reducible apply cmdDone_moves | with_reducible apply hx4
    | with_reducible apply Moves.ite | split | (with_reducible refine Moves.snd (by assumption) ?_)
    | (with_reducible refine Moves.fst (by assumption) ?_)

theorem arcRead_moves {w : Mem → Bool} {s0 : State} (x0 : Nat) (x1 : Nat) (x2 : List Byte) {s : State} (hs : Moves w s0 s)
    (hwhostmem : w .hostmem = true) :
    Moves w s0 (arcRead x0 x1 x2 s) := by
  unfold arcRead
  try dsimp only
  repeat'
    first
    | with_reducible assumption | intro _ | with_reducible apply arcServe_moves | with_reducible apply cmdDone_moves
    | with_reducible apply State.forEach_moves | with_reducible apply State.addSat_moves
    | with_reducible apply State.raise_moves | with_reducible apply putHost_moves | with_reducible apply Moves.ite | split
    | (with_reducible refine Moves.snd (by assumption) ?_) | (with_reducible refine Moves.fst (by assumption) ?_)

theorem arcProtect_moves {w : Mem → Bool} {s0 : State} (x0 : Nat) (x1 : Nat) (x2 : List Byte) {s : State} (hs : Moves w s0 s)
    (hwhostmem : w .hostmem = true) :
    Moves w s0 (arcProtect x0 x1 x2 s) := by
  unfold arcProtect
  try dsimp only
  repeat'
    first
    | with_reducible assumption | intro _ | with_reducible apply arcServe_moves | with_reducible apply cmdDone_moves
    | with_reducible apply showWin_moves | with_reducible apply State.modNsr_moves | with_reducible apply Moves.ite | split
    | (with_reducible refine Moves.snd (by assumption) ?_) | (with_reducible refine Moves.fst (by assumption) ?_)
    | with_reducible apply Moves.raw

theorem arcUnprotect_moves {w : Mem → Bool} {s0 : State} (x0 : Nat) (x1 : Nat) (x2 : List Byte) {s : State} (hs : Moves w s0 s)
    (hwhostmem : w .hostmem = true) :
    Moves w s0 (arcUnprotect x0 x1 x2 s) := by
  unfold arcUnprotect
  try dsimp only
  repeat'
    first
    | with_reducible assumption | intro _ | with_reducible apply arcServe_moves | with_reducible apply cmdDone_moves
    | with_reducible apply showWin_moves | with_reducible apply State.modNsr_moves | with_reducible apply State.wr_moves
    | with_reducible apply Moves.ite | split | (with_reducible refine Moves.snd (by assumption) ?_)
    | (with_reducible refine Moves.fst (by assumption) ?_) | with_reducible apply Moves.raw

theorem arcSpan_moves {w : Mem → Bool} {s0 : State} (x0 : Nat) (x1 : Nat) (x2 : List Byte) {s : State} (hs : Moves w s0 s)
    (hwhostmem : w .hostmem = true) :
    Moves w s0 (arcSpan x0 x1 x2 s) := by
  unfold arcSpan
  try dsimp only
  repeat'
    first
    | with_reducible assumption | intro _ | with_reducible apply arcServe_moves | with_reducible apply cmdDone_moves
    | with_reducible apply State.drew_moves | with_reducible apply Moves.foldl
    | (with_reducible refine Moves.foldlBy Prod.snd ?_ ?_) | (with_reducible refine Moves.foldlBy Prod.fst ?_ ?_)
    | (with_reducible refine Moves.foldlBy WordRun.s ?_ ?_) | with_reducible apply Moves.ite | split
    | (with_reducible refine Moves.snd (by assumption) ?_) | (with_reducible refine Moves.fst (by assumption) ?_)

theorem onAccess_moves {w : Mem → Bool} {s0 : State} (x0 : Nat) (x1 : Nat → Bool) {x2 : List Byte → State → State} {s : State} (hx2
    : ∀ a0 u, Moves w s0 u → Moves w s0 (x2 a0 u)) (hs : Moves w s0 s) :
    Moves w s0 (onAccess x0 x1 x2 s) := by
  unfold onAccess
  try dsimp only
  repeat'
    first
    | with_reducible assumption | intro _ | with_reducible apply takeRx_moves | with_reducible apply hx2
    | with_reducible apply Moves.ite | split | (with_reducible refine Moves.snd (by assumption) ?_)
    | (with_reducible refine Moves.fst (by assumption) ?_)

theorem accDone_moves {w : Mem → Bool} {s0 : State} (x0 : Nat) (x1 : List Byte) (x2 : List Byte) {x3 : WordRun} (hx3 : Moves w s0
    x3.s) :
    Moves w s0 (accDone x0 x1 x2 x3) := by
  unfold accDone
  try dsimp only
  repeat'
    first
    | with_reducible assumption | intro _ | with_reducible apply accessAnswer_moves | with_reducible apply Moves.ite | split
    | (with_reducible refine Moves.snd (by assumption) ?_) | (with_reducible refine Moves.fst (by assumption) ?_)

theorem accessRd_moves {w : Mem → Bool} {s0 : State} (x0 : Nat) {s : State} (hs : Moves w s0 s) (hwprogmem : w .progmem = true) :
    Moves w s0 (accessRd x0 s) := by
  unfold accessRd
  try dsimp only
  repeat'
    first
    | with_reducible assumption | intro _ | with_reducible apply onAccess_moves | with_reducible apply accessAnswer_moves
    | with_reducible apply readWords_moves | with_reducible apply accDone_moves | with_reducible apply Moves.ite | split
    | (with_reducible refine Moves.snd (by assumption) ?_) | (with_reducible refine Moves.fst (by assumption) ?_)

theorem accessWr_moves {w : Mem → Bool} {s0 : State} (x0 : Nat) {s : State} (hs : Moves w s0 s) (hwdram : w .dram = true) (hwflash
    : w .flash = true) (hwhostmem : w .hostmem = true) (hwprogmem : w .progmem = true) (hwtrcbuf : w .trcbuf = true) (hwtcm : w
    .tcm = true) (hwreport : w .report = true) :
    Moves w s0 (accessWr x0 s) := by
  unfold accessWr
  try dsimp only
  repeat'
    first
    | with_reducible assumption | intro _ | with_reducible apply onAccess_moves | with_reducible apply accessAnswer_moves
    | with_reducible apply accDone_moves | with_reducible apply writeWords_moves | with_reducible apply Moves.ite | split
    | (with_reducible refine Moves.snd (by assumption) ?_) | (with_reducible refine Moves.fst (by assumption) ?_)

theorem accessMask_moves {w : Mem → Bool} {s0 : State} (x0 : Nat) {s : State} (hs : Moves w s0 s) (hwdram : w .dram = true)
    (hwflash : w .flash = true) (hwhostmem : w .hostmem = true) (hwprogmem : w .progmem = true) (hwtrcbuf : w .trcbuf = true)
    (hwtcm : w .tcm = true) (hwreport : w .report = true) :
    Moves w s0 (accessMask x0 s) := by
  unfold accessMask
  try dsimp only
  repeat'
    first
    | with_reducible assumption | intro _ | with_reducible apply onAccess_moves | with_reducible apply accessAnswer_moves
    | with_reducible apply accDone_moves | with_reducible apply maskWords_moves | with_reducible apply Moves.ite | split
    | (with_reducible refine Moves.snd (by assumption) ?_) | (with_reducible refine Moves.fst (by assumption) ?_)

theorem accessColoph_moves {w : Mem → Bool} {s0 : State} (x0 : Nat) {s : State} (hs : Moves w s0 s) :
    Moves w s0 (accessColoph x0 s) := by
  unfold accessColoph
  try dsimp only
  repeat'
    first
    | with_reducible assumption | intro _ | with_reducible apply onAccess_moves | with_reducible apply accessAnswer_moves
    | with_reducible apply signAsk_moves | with_reducible apply Moves.ite | split
    | (with_reducible refine Moves.snd (by assumption) ?_) | (with_reducible refine Moves.fst (by assumption) ?_)

theorem compareAt_moves {w : Mem → Bool} {s0 : State} (x0 : Nat) (x1 : Nat) (x2 : Nat) (x3 : Nat) (x4 : Bool) (x5 : Bool) {s : State}
    (hs : Moves w s0 s) :
    Moves w s0 (compareAt x0 x1 x2 x3 x4 x5 s) := by
  unfold compareAt
  try dsimp only
  repeat'
    first
    | with_reducible assumption | intro _ | with_reducible apply State.modLawDie_moves | with_reducible apply State.inject_moves
    | with_reducible apply State.modLaw_moves | with_reducible apply State.raise_moves | with_reducible apply Moves.ite | split
    | (with_reducible refine Moves.snd (by assumption) ?_) | (with_reducible refine Moves.fst (by assumption) ?_)
    | with_reducible apply Moves.raw

theorem twinUpset_moves {w : Mem → Bool} {s0 : State} (x0 : Nat) (x1 : Nat) (x2 : Nat) {s : State} (hs : Moves w s0 s) :
    Moves w s0 (twinUpset x0 x1 x2 s) := by
  unfold twinUpset
  try dsimp only
  repeat'
    first
    | with_reducible assumption | intro _ | with_reducible apply State.forEach_moves | with_reducible apply State.modTwin_moves
    | with_reducible apply State.drew_moves | with_reducible apply Moves.ite | split
    | (with_reducible refine Moves.snd (by assumption) ?_) | (with_reducible refine Moves.fst (by assumption) ?_)

theorem stateCopy_moves {w : Mem → Bool} {s0 : State} (x0 : Nat) (x1 : Nat) {s : State} (hs : Moves w s0 s) :
    Moves w s0 (stateCopy x0 x1 s) := by
  unfold stateCopy
  try dsimp only
  repeat'
    first
    | with_reducible assumption | intro _ | with_reducible apply State.forEach_moves | with_reducible apply State.twinPut_moves
    | with_reducible apply Moves.ite | split | (with_reducible refine Moves.snd (by assumption) ?_)
    | (with_reducible refine Moves.fst (by assumption) ?_)

theorem runSlot_moves {w : Mem → Bool} {s0 : State} (x0 : Nat) (x1 : Nat) (x2 : List Nat) (x3 : List Nat) (x4 : List (Nat × Nat)) (x5 : Nat)
    {s : State} (hs : Moves w s0 s) (hwprogmem : w .progmem = true) :
    Moves w s0 (runSlot x0 x1 x2 x3 x4 x5 s) := by
  unfold runSlot
  try dsimp only
  repeat'
    first
    | with_reducible assumption | intro _ | with_reducible apply State.inject_moves | with_reducible apply evalSlot_moves
    | with_reducible apply compareAt_moves | with_reducible apply twinUpset_moves | with_reducible apply State.modLawDie_moves
    | with_reducible apply Moves.ite | split | (with_reducible refine Moves.snd (by assumption) ?_)
    | (with_reducible refine Moves.fst (by assumption) ?_) | with_reducible apply Moves.raw

theorem epochAtRun_moves {w : Mem → Bool} {s0 : State} (x0 : Nat) (x1 : Nat) (x2 : Nat) {s : State} (hs : Moves w s0 s) (hwdram : w
    .dram = true) (hwflash : w .flash = true) (hwhostmem : w .hostmem = true) (hwprogmem : w .progmem = true) (hwtrcbuf : w
    .trcbuf = true) (hwtcm : w .tcm = true) (hwreport : w .report = true) :
    Moves w s0 (epochAtRun x0 x1 x2 s) := by
  unfold epochAtRun
  try dsimp only
  repeat'
    first
    | with_reducible assumption | intro _ | with_reducible apply epochLaw_moves | with_reducible apply State.passTo_moves
    | with_reducible apply Moves.ite | split | (with_reducible refine Moves.snd (by assumption) ?_)
    | (with_reducible refine Moves.fst (by assumption) ?_)

theorem runBegin_moves {w : Mem → Bool} {s0 : State} (x0 : Nat) (x1 : Nat) (x2 : Nat) {s : State} (hs : Moves w s0 s) (hwprogmem : w
    .progmem = true) :
    Moves w s0 (runBegin x0 x1 x2 s) := by
  unfold runBegin
  try dsimp only
  repeat'
    first
    | with_reducible assumption | intro _ | with_reducible apply flushWrites_moves | with_reducible apply State.wr_moves
    | with_reducible apply bankQueued_moves | with_reducible apply State.modLaw_moves
    | with_reducible apply State.modLawDie_moves | with_reducible apply Moves.ite | split
    | (with_reducible refine Moves.snd (by assumption) ?_) | (with_reducible refine Moves.fst (by assumption) ?_)
    | with_reducible apply Moves.raw

theorem lawRun_moves {w : Mem → Bool} {s0 : State} (x0 : Nat) (x1 : Nat) (x2 : List Nat) (x3 : List Nat) (x4 : List (Nat × Nat)) (x5 : List
    (Nat × Nat)) {s : State} (hs : Moves w s0 s) (hwdram : w .dram = true) (hwflash : w .flash = true) (hwhostmem : w .hostmem =
    true) (hwprogmem : w .progmem = true) (hwtrcbuf : w .trcbuf = true) (hwtcm : w .tcm = true) (hwreport : w .report = true) :
    Moves w s0 (lawRun x0 x1 x2 x3 x4 x5 s) := by
  unfold lawRun
  try dsimp only
  repeat'
    first
    | with_reducible assumption | intro _ | with_reducible apply epochAtRun_moves | with_reducible apply runBegin_moves
    | with_reducible apply progEcc_moves | with_reducible apply State.forEach_moves | with_reducible apply runSlot_moves
    | with_reducible apply telOffer_moves | with_reducible apply Moves.foldl
    | (with_reducible refine Moves.foldlBy Prod.snd ?_ ?_) | (with_reducible refine Moves.foldlBy Prod.fst ?_ ?_)
    | (with_reducible refine Moves.foldlBy WordRun.s ?_ ?_) | with_reducible apply Moves.ite | split
    | (with_reducible refine Moves.snd (by assumption) ?_) | (with_reducible refine Moves.fst (by assumption) ?_)

theorem fadeStep_moves {w : Mem → Bool} {s0 : State} (x0 : Nat) (x1 : Nat) {s : State} (hs : Moves w s0 s) :
    Moves w s0 (fadeStep x0 x1 s) := by
  unfold fadeStep
  try dsimp only
  repeat'
    first
    | with_reducible assumption | intro _ | with_reducible apply bankQueued_moves | with_reducible apply fadeStop_moves
    | with_reducible apply State.wr_moves | with_reducible apply Moves.ite | split
    | (with_reducible refine Moves.snd (by assumption) ?_) | (with_reducible refine Moves.fst (by assumption) ?_)

theorem runEndIrq_moves {w : Mem → Bool} {s0 : State} (x0 : Nat) (x1 : Nat) {s : State} (hs : Moves w s0 s) :
    Moves w s0 (runEndIrq x0 x1 s) := by
  unfold runEndIrq
  try dsimp only
  repeat'
    first
    | with_reducible assumption | intro _ | with_reducible apply State.forEach_moves | with_reducible apply State.setIrq_moves
    | with_reducible apply Moves.ite | split | (with_reducible refine Moves.snd (by assumption) ?_)
    | (with_reducible refine Moves.fst (by assumption) ?_)

theorem lawRunEnd_moves {w : Mem → Bool} {s0 : State} (x0 : Nat) (x1 : Nat) {s : State} (hs : Moves w s0 s) (hwprogmem : w .progmem
    = true) (hwtrcbuf : w .trcbuf = true) :
    Moves w s0 (lawRunEnd x0 x1 s) := by
  unfold lawRunEnd
  try dsimp only
  repeat'
    first
    | with_reducible assumption | intro _ | with_reducible apply State.passTo_moves | with_reducible apply State.wr_moves
    | with_reducible apply stateCopy_moves | with_reducible apply fadeStep_moves | with_reducible apply State.modLaw_moves
    | with_reducible apply runEndIrq_moves | with_reducible apply trcCapture_moves | with_reducible apply tuneStep_moves
    | with_reducible apply lawHalt_moves | with_reducible apply Moves.ite | split
    | (with_reducible refine Moves.snd (by assumption) ?_) | (with_reducible refine Moves.fst (by assumption) ?_)
    | with_reducible apply Moves.raw

end Sys2Proof.Machine
end

