-- ==== Sys2Proof/Laws/MovesCommands.lean ====
section
/-!
SUPPORT. What the outcome of a command does to a state at most (Laws/Moves.lean), for each way in which a command reaches its die: if the
effect keeps the bounds, the next state keeps them.
-/

namespace Sys2Proof.Machine

theorem Moves.commit {w : Mem → Bool} {s t : State} (h : Moves w s t) : Moves w s (s.commit t) := by
  have e : s.commit t = t := by
    have hd := h.dies
    have hg := h.grade
    have hp := h.pending
    cases t
    simp only at hd hg hp
    subst hd hg hp
    rfl
  rw [e]
  exact h

theorem onPackage_moves {w : Mem → Bool} {s t : State} {f : State → State} (hf : ∀ u, Moves w s u → Moves w s (f u))
    (h : onPackage s f = .next t) : Moves w s t := by
  unfold onPackage at h
  cases h
  exact Moves.commit (hf _ (Moves.refl _ _))

theorem onItem_moves {w : Mem → Bool} {s t : State} {ok : Bool} {f : State → State} (hf : ∀ u, Moves w s u → Moves w s (f u))
    (h : onItem ok s f = .next t) : Moves w s t := by
  unfold onItem at h
  split at h
  · exact onPackage_moves hf h
  · cases h

theorem onDie_moves {w : Mem → Bool} {s t : State} {d : Nat} {f : State → State} (hf : ∀ u, Moves w s u → Moves w s (f u))
    (h : onDie d s f = .next t) : Moves w s t := onItem_moves hf h

theorem onLive_moves {w : Mem → Bool} {s t : State} {d : Nat} {f : State → State} (hf : ∀ u, Moves w s u → Moves w s (f u))
    (h : onLive d s f = .next t) : Moves w s t :=
  onDie_moves (fun u hu => Moves.ite hu (hf u hu)) h

theorem onAxis_moves {w : Mem → Bool} {s t : State} {d n : Nat} {f : State → State} (hf : ∀ u, Moves w s u → Moves w s (f u))
    (h : onAxis d n s f = .next t) : Moves w s t :=
  onItem_moves (fun u hu => Moves.ite hu (hf u hu)) h

theorem onPart_moves {w : Mem → Bool} {s t : State} {d k n : Nat} {f : State → State} (hf : ∀ u, Moves w s u → Moves w s (f u))
    (h : onPart d k n s f = .next t) : Moves w s t :=
  onItem_moves (fun u hu => Moves.ite hu (hf u hu)) h

theorem onHart_moves {w : Mem → Bool} {s t : State} {d n : Nat} {f : State → State} (hf : ∀ u, Moves w s u → Moves w s (f u))
    (h : onHart d n s f = .next t) : Moves w s t :=
  onItem_moves (fun u hu => Moves.ite (hf u hu) hu) h

theorem onCmd_moves {w : Mem → Bool} {s t : State} {d r op : Nat} {f : List Byte → State → State}
    (hf : ∀ b u, Moves w s u → Moves w s (f b u)) (h : onCmd d r op s f = .next t) : Moves w s t := by
  refine onItem_moves (fun u hu => ?_) h
  split
  · exact hf _ u hu
  · exact hu

theorem onArc_moves {w : Mem → Bool} {s t : State} {d r op : Nat} {f : List Byte → State → State}
    (hf : ∀ b u, Moves w s u → Moves w s (f b u)) (h : onArc d r op s f = .next t) : Moves w s t := by
  refine onItem_moves (fun u hu => ?_) h
  split
  · exact hf _ u hu
  · exact hu

end Sys2Proof.Machine
end

