-- ==== Sys2Proof/Laws/PairOps.lean ====
section
/-!
SUPPORT. Where a per-axis write goes (R26, R27): applied, forwarded with the active mate's application, or discarded.
-/

namespace Sys2Proof.Machine

/-- A die that holds the set of the axis that an offset lies in has nothing against an access to it. -/
theorem State.notHeld_of_holds {s : State} {d n off : Nat} (h : s.holds d n = true) (e : off % 0x10000 / 0x1000 = n) :
    s.notHeld d off = false := by
  subst e
  simp [State.notHeld, h]

/-- An access to a set that the die does not hold, outside block 10 (FIL), is turned away. -/
theorem State.notHeld_of_not_holds {s : State} {d n off : Nat} (h : s.holds d n = false) (e : off % 0x10000 / 0x1000 = n)
    (hn : n < 8) (hb : off / 0x10000 ≠ 10) : s.notHeld d off = true := by
  subst e
  have : off % 0x10000 < 0x8000 := by omega
  simp [State.notHeld, h, hb, this]

theorem axisWrite_applied {s : State} {d n off : Nat} {v : Word} {f : Nat → State → State} (hf : s.forwards d = false)
    (h : s.holds d n = true) (e : off % 0x10000 / 0x1000 = n) : axisWrite d off v f s = f d s := by
  simp [axisWrite, hf, State.notHeld_of_holds h e]

theorem axisWrite_forwarded {s : State} {d off : Nat} {v : Word} {f : Nat → State → State} (hf : s.forwards d = true) :
    axisWrite d off v f s =
      (f (s.activeOf d) s).modFwd (mateOf (s.activeOf d)) fun q => q ++ [{ off := off, val := v, tick := s.pt }] := by
  simp [axisWrite, hf]

theorem axisWrite_discarded {s : State} {d n off : Nat} {v : Word} {f : Nat → State → State} (hf : s.forwards d = false)
    (h : s.holds d n = false) (e : off % 0x10000 / 0x1000 = n) (hn : n < 8) (hb : off / 0x10000 ≠ 10) :
    axisWrite d off v f s = s.drew.accessFault d (s.free % 7) true 2 2 (d * dieSpan + off) := by
  simp [axisWrite, hf, State.notHeld_of_not_holds h e hn hb]

end Sys2Proof.Machine
end

