-- ==== Sys2Proof/Tests/Slice0.lean ====
section
/-!
SUPPORT. Tests: ill-formed commands that `wf` refuses, worked examples of the spec and single steps with results from the spec, and, for
each statement with hypotheses, states and operands that meet them, at the largest die, axis and item numbers.
-/

namespace Sys2Proof.Machine

set_option Elab.async false

/-- The pair bridge between die `d` and its mate is up: path A both ways. -/
def State.mated (s : State) (d : Nat) : State := (s.wr d PAIR_STAT.PATHA 1).wr (mateOf d) PAIR_STAT.PATHA 1

/-- Hart `h` of die `d` runs. -/
def State.hartOn (s : State) (d h : Nat) : State := s.modHart d h fun x => { x with run := true }

/-- The function of die `d` is up. -/
def State.fnOn (s : State) (d : Nat) : State := ((s.wr d HIF_ID.BONDED 1).wr d HIF_ID.ENABLED 1).wr d HIF_ID.LINKUP 1

/-- Ring `r` of die `d` is active with type `ty` and one descriptor in its queue share. -/
def State.ringOn (s : State) (d r ty : Nat) (b : List Byte) : State :=
  ((((s.fnOn d).wr d HIF_RCFG.TYPE ty r).wr d HIF_RCFG.EN 1 r).wr d HIF_RSTAT.STATE 1 r).modRing d r fun x => { x with share := [b] }

/-- A command descriptor: code, length or register, host address, operand. -/
def desc (op a addr b : Nat) : List Byte := leBytes op 4 ++ leBytes a 4 ++ leBytes addr 8 ++ leBytes b 8 ++ leBytes 0 8

/-- Frame `f` has come to die `d`. -/
def State.got (s : State) (d : Nat) (f : List Byte) : State := s.modTrm d fun t => { t with rxq := [{ bytes := f }] }

/-- The state after a command that answers a next state; the state itself otherwise. -/
def after (c : Instr) (s : State) : State := match exec c s with | .next t => t | _ => s

/-! Ill-formed commands, one of each kind of check: each is refused by `wf`, and none is stopped or skipped silently elsewhere. -/

theorem test_wf_items :
    (Instr.forwardedWrite 8).wf = false ∧ (Instr.rcTrackerUpdate 8).wf = false ∧ (Instr.trkRearm 0 8).wf = false ∧
    (Instr.trkRearm 7 7).wf = true ∧ (Instr.pciePerst 2).wf = false ∧ (Instr.pciePerst 1).wf = true ∧
    (Instr.ledgClose 2).wf = false ∧ (Instr.spineLinkFail 8).wf = false ∧ (Instr.stagedReport 0 8).wf = false := by decide

theorem test_wf_parts :
    (Instr.tblUnmap 0 0 4).wf = false ∧ (Instr.tblUnmap 7 7 3).wf = true ∧ (Instr.tblLoad 0 32).wf = false ∧
    (Instr.tblMap 0 31 32 0 0).wf = false ∧ (Instr.deadTimeExpiry 0 0 3).wf = false ∧ (Instr.comparatorAssert 0 0 4 ⟨true, 0⟩).wf = false ∧
    (Instr.filApply 0 64).wf = false ∧ (Instr.detWindowEnd 0 16).wf = false ∧ (Instr.detCfgWrite 0 16 0 0).wf = false ∧
    (Instr.lawHeaderRead 0 0 96).wf = false ∧ (Instr.lawHeaderRead 7 7 95).wf = true := by decide

theorem test_wf_inputs :
    (Instr.acqMuxWrite 0 1 0).wf = false ∧ (Instr.acqMuxWrite 0 2 0).wf = true ∧ (Instr.acqMuxWrite 0 48 0).wf = true ∧
    (Instr.acqMuxWrite 0 54 0).wf = false ∧ (Instr.excWrite 0 0 3 0).wf = false ∧ (Instr.excWrite 7 7 2 0).wf = true := by decide

theorem test_wf_places :
    (Instr.registerWrite 7 0 (.bar 0) true 4 0 0).wf = false ∧ (Instr.registerWrite 0 8 (.bar 0) true 4 0 0).wf = false ∧
    (Instr.registerWrite 0 0 (.bar 0x10000000) true 4 0 0).wf = false ∧ (Instr.registerWrite 6 7 (.bar 0xFFFFFFC) true 4 0 0).wf = true ∧
    (Instr.registerWrite 0 0 (.csr 0 2 0x7C0) true 4 0 0).wf = false ∧ (Instr.registerWrite 0 0 (.csr 0 1 0x1000) true 4 0 0).wf = false ∧
    (Instr.carrelWindowAccess 0 0 131072 true 0 0).wf = false ∧ (Instr.progmemAccess 0 0 65536 true 0 false 0).wf = false ∧
    (Instr.doorbell 0 65536 4 0).wf = false := by decide

theorem test_wf_harts :
    (Instr.mswiSet 0 2).wf = false ∧ (Instr.msemAcquire 0 0 16).wf = false ∧
    (Instr.hartMemoryAccess 0 0 { kind := .load, addr := 0, size := 3 }).wf = false ∧
    (Instr.hartMemoryAccess 0 0 { kind := .load, addr := 2 ^ 32 }).wf = false ∧
    (Instr.hartMemoryAccess 7 1 { kind := .load, addr := 2 ^ 32 - 1, size := 1 }).wf = true := by decide

theorem test_wf_hosts :
    (Instr.hifNop 0 64).wf = false ∧ (Instr.hifNop 2 0).wf = false ∧ (Instr.msixUnmask 0 65 true).wf = false ∧
    (Instr.msixUnmask 1 64 true).wf = true ∧ (Instr.functionLost 0 0).wf = false ∧ (Instr.functionLost 0 5).wf = false ∧
    (Instr.functionLost 1 4).wf = true ∧ (Instr.pcieLinkTraining 0 4 8).wf = false ∧ (Instr.pcieLinkTraining 0 3 3).wf = false ∧
    (Instr.angleChannelTimeout 0 64).wf = false := by decide

theorem test_wf_rails_and_sources :
    (Instr.railWarningCrossing 0 8).wf = false ∧ (Instr.railWarningCrossing 2 3).wf = false ∧ (Instr.railWarningCrossing 1 3).wf = true ∧
    (Instr.fltRel 0 1024).wf = false ∧ (Instr.fltClr 7 1023).wf = true ∧ (Instr.epochRevert 0 9).wf = false ∧
    (Instr.shadowCompare 0 5 0 0).wf = false ∧ (Instr.shadowCompare 0 4 7 3).wf = false ∧ (Instr.pairSnapshotItem 0 7 0 0).wf = false ∧
    (Instr.stacksRecordClose 0 3).wf = false ∧ (Instr.stacksSegmentClose 4).wf = false := by decide

/-! Addresses, from the worked examples of the spec (files 01, 07, 08, 12, 17, 18 and 22). -/

theorem test_addresses :
    TRK_CTRL.TYPE.addr 3 5 0 = 0x06065000 ∧ FLT_SRCSTAT.STATE.addr 3 94 0 = 0x06032178 ∧ FLT_SRCCFG.SEV.addr 3 94 0 = 0x060302F0 ∧
    FLT_PEND.STICKY.addr 3 2 0 = 0x06033008 ∧ ENC_FAULT.WIRE.addr 3 0 0 = 0x06088000 ∧ EMU_LINES.LINES.addr 0 3 0 = 0x00083004 ∧
    FIL_LEN.L1.addr 0 15 0 = 0x000A81E0 ∧ ACQ_CMPU.THR.addr 0 2 1 = 0x00092018 ∧ ACQ_CMPL.THR.addr 0 2 1 = 0x0009201C ∧
    TUNE_CTRL.RSLOT.addr 0 0 0 = 0x00140000 ∧ HIF_RCFG.EN.addr 0 2 0 = 0x000F0090 ∧ TRM_ATXCFG.EN.addr 0 0 0 = 0x00108100 ∧
    0x00300000 + State.reset.slotWord 0 0 5 4 * 4 = 0x00300290 := by decide +kernel

/-! Number formats: the example of file 09 (R214), the coefficient words of file 12 (R276), the thresholds of file 11 (R263). -/

theorem test_one_vector : encodeVec false none [3 / 2, -1 / 5] 0 = { m := [24576, -3277], e := 1, fl := 0 } := by decide +kernel

/-- −1 needs a mantissa of −16,384 in checked mode, where −32,768 has no negation; split mode has it (R213). -/
theorem test_minus_one :
    encodeVec false none [-1] 0 = { m := [-16384], e := 1, fl := 0 } ∧ encodeVec true none [-1] 0 = { m := [-32768], e := 0, fl := 0 } := by
  decide +kernel

theorem test_fixed_exponent_saturates : encodeVec false (some 0) [3 / 2] 0 = { m := [32767], e := 0, fl := 1 } := by decide +kernel

theorem test_tune_words : bfvWord false (245915 / 100000) = 0x00024EB1 ∧ bfvWord false (72428 / 100) = 0x000A5A89 := by decide +kernel

theorem test_fast_thresholds : fastThresholds 3277 2808 = (0x97C, 0x81D) := by decide

/-- CRC-32C of "123456789", the check value of its definition (R12). -/
theorem test_crc32c : crc32c [0x31, 0x32, 0x33, 0x34, 0x35, 0x36, 0x37, 0x38, 0x39] = 0xE3069283 := by decide +kernel

/-! Commands, one step each. -/

/-- The carrier increment is held between its limits (R63). -/
theorem test_exc_finc_limits : clampFinc 0 = 0xD1B71 ∧ clampFinc 0x00418937 = 0x00418937 ∧ clampFinc 0xFFFFFFFF = 0x10624DD := by decide

/-- The half-band of file 11's example: at 20.407 kHz, 2,752 codes become 2,808. -/
theorem test_band_lock :
    (bandWrite 0 1 0 0 0 86 (((State.reset.wr 0 BND_CTRL.FLOCK 1 1).wr 0 BND_LEG.HB 2752 1 0).wr 0 BND_FTGT.FT 20000 1 |>.wr 0 BND_HBLIM.HBMAX 65535 1 |>.wr 0 PWM_CTRL.SAFE 0 1
      |>.modLeg 0 1 0 fun l => { l with seed := false, cyc := 1, cycDur := 980056 })).rd 0 BND_LEG.HB 1 0 = 2808 := by decide +kernel

/-- The ratio is held to 2 (R265): 172 follows 86 at 600 kHz. -/
theorem test_band_ratio_held :
    (bandWrite 0 1 0 0 0 86 (((State.reset.wr 0 BND_CTRL.FLOCK 1 1).wr 0 BND_LEG.HB 86 1 0).wr 0 BND_FTGT.FT 20000 1 |>.wr 0 BND_HBLIM.HBMAX 65535 1 |>.wr 0 PWM_CTRL.SAFE 0 1
      |>.modLeg 0 1 0 fun l => { l with seed := false, cyc := 30, cycDur := 1000000 })).rd 0 BND_LEG.HB 1 0 = 172 := by decide +kernel

/-- The governor of file 20's example: 125 mW of headroom at h = 0.75 gain 9.375 µJ in a step, and 625 mW of deficit lose 62.5 µJ. -/
theorem test_governor :
    let s := ((((State.reset.wr 1 PWR_BUDGET.SHARE 6325).wrI 1 PWR_TEMP.TJ (95 * 256)).wr 1 PWR_TLIM.TLIM 110).wr 1 PWR_TLIM.TSPAN 20).modGov 1
      fun g => { g with tok := 5000 }
    ((after (.governorStep 1 6200 []) s).getGov 1).tok = 5000 + 75 / 8 ∧ ((after (.governorStep 1 6950 []) s).getGov 1).tok = 5000 - 125 / 2 := by
  decide +kernel

/-- The index of file 07's example: three counts too many give DIFF = 3, which is beyond TOL = 2; raw := 0 and rep moves with it. -/
theorem test_index_mismatch :
    let s := ((((({ State.reset with now := 1000, pt := 1000 } : State).wr 0 ENC_CPR.CPR 8192 5).wr 0 ENC_IDX.TOL 2 5).wr 0 ENC_IDX.MODE 1 5).wr 0 ENC_IDX.FIRST 0 5).wr 0 ENC_RAW.COUNT 8195 5
    let t := after (.encIndex 0 5 100) s
    t.rdI 0 ENC_IDXDIFF.DIFF 5 = 3 ∧ t.rd 0 ENC_RAW.COUNT 5 = 0 ∧ t.rdI 0 ENC_REP.COUNT 5 = -8195 ∧ t.bit 0 ENC_FAULT.WIRE 0 = false ∧
    bitOf (t.rd 0 ENC_FAULT.IDXMIS) 5 = true := by decide +kernel

/-- One slew tick of +1 (R47): the package time gains two ticks in one and the remainder goes to 0. -/
theorem test_slew_tick :
    let t := after .slewTick ((State.reset.wr 0 CLK_STAT.PTALIGNED 1).wr 0 CLK_PTREM.REM 1)
    t.pt = 2 ∧ t.now = 1 ∧ t.rd 0 CLK_PTREM.REM = 0 := by decide +kernel

/-- A semaphore is given once (MSEM): the other hart reads 0. -/
theorem test_semaphore :
    let s := after (.msemAcquire 7 0 15) ((State.reset.hartOn 7 0).hartOn 7 1)
    s.readData = 1 ∧ (after (.msemAcquire 7 1 15) s).readData = 0 := by decide +kernel

/-- A store of a hart reaches its memory, low byte first, here in the half that belongs to hart 0, and a load brings it back (R325). -/
theorem test_hart_store_and_load :
    let s := after (.hartMemoryAccess 7 1 { kind := .store, addr := 0x7FFF8, val := 0x11223344 }) (State.reset.hartOn 7 1)
    s.getTcm 7 0 0x3FFF8 = 0x44 ∧ ((after (.hartMemoryAccess 7 1 { kind := .load, addr := 0x7FFF8, rd := 5 }) s).getHart 7 1).x.get 5 0 = 0x11223344 := by
  decide +kernel

/-- A load from an address that nothing answers takes exception 5, with the address in mtval (R328). -/
theorem test_hart_access_fault :
    let s := after (.hartMemoryAccess 7 1 { kind := .load, addr := 0xFFFFC, pc := 0x40 }) (State.reset.hartOn 7 1)
    csrVal s 7 1 0x342 = 5 ∧ csrVal s 7 1 0x341 = 0x40 ∧ csrVal s 7 1 0x343 = 0xFFFFC := by decide +kernel

/-- A misaligned register read answers 0 and is captured by the addressed die (R10, FLT_AFINFO). -/
theorem test_misaligned_read :
    let t := after (.registerWrite 0 0 (.bar 0x02008002) false 4 0 0) State.reset
    t.readData = 0 ∧ t.rd 1 FLT_AFADDR.ADDR = 0x02008002 ∧ t.rd 1 FLT_AFINFO.REASON = 3 ∧ t.bit 1 FLT_AFINFO.VALID = true := by decide +kernel

/-- GLB_ID of a Gulyr 8 of grade I read through the window of die 3. -/
theorem test_read_identity :
    let t := after (.registerWrite 0 0 (.bar 0x06008000) false 4 0 0) State.reset
    bitsOf t.readData 0 3 = 3 ∧ bitsOf t.readData 7 1 = 0 := by decide +kernel

/-- The DRAM of the serving die reads back what was written; an unwritten byte reads 0. -/
theorem test_dram :
    let s := { (State.reset.modMem 1 fun r => { r with size := 1 }) with dramSrv := some 1 }
    let t := after (.dramAccess 0x3FFFFFFE 2 true [0xAB, 0xCD] 0) s
    t.dramBytes 1 0x3FFFFFFD 3 = [0, 0xAB, 0xCD] := by decide +kernel

/-- A program command while the flash is busy is refused with ERR = 1 (R464). -/
theorem test_flash_busy : (after (.nvfProg 7 0) (State.reset.wr 7 NVF_STAT.BUSY 1)).rd 7 NVF_STAT.ERR = 1 := by decide +kernel

/-- A doorbell for a ring that is not active leaves its index; one beyond the ring's size halts it (R386). -/
theorem test_doorbell :
    let s := State.reset.ringOn 1 63 1 []
    (after (.doorbell 1 0xFC00 4 5) (State.reset.fnOn 1)).rd 1 HIF_RIDX.HOST 63 = 0 ∧ (after (.doorbell 1 0xFC00 4 5) s).rd 1 HIF_RSTAT.STATE 63 ≠ 0 ∧
    (after (.doorbell 1 0xFC00 4 64) s).rd 1 HIF_RSTAT.STATE 63 ≠ 1 := by decide +kernel

/-- A frame with a wrong CRC is counted and goes no further (R405). -/
theorem test_bad_frame :
    let s := State.reset.wr 7 TRM_PORT.STATE 2
    (after (.frameForward 7 (List.replicate 36 3)) s).rd 7 TRM_PERR.BAD = 1 := by decide +kernel

/-- A double error of a carrel page that is not valid, and the answer for an empty page, are no data: the read answers 0 (R133). -/
theorem test_table_page_empty :
    (after (.carrelWindowAccess 0 7 131068 false 0 0) (State.reset.wr 7 TBL_PAGE.STATE 0 31)).readData = 0 := by decide +kernel

/-- An ALLOC of a free page makes it valid (R134); of one in use it is refused. -/
theorem test_table_alloc :
    (after (.tblAlloc 7 31) State.reset).rd 7 TBL_PAGE.STATE 31 = 2 ∧
    (after (.tblAlloc 7 31) (State.reset.wr 7 TBL_PAGE.STATE 2 31)).rd 7 TBL_CMDSTAT.ERR ≠ 0 := by decide +kernel

/-- With no command waiting a tick passes, and the front command runs with the rest left in the queue. -/
theorem test_queue :
    (match step State.reset with | .next t => t == { State.reset with now := 1, pt := 1 } | _ => false) = true ∧
    (match step { State.reset with pending := [.filSyncGo 7, .lptUpdate 0] } with | .next t => t.pending | _ => []) = [.lptUpdate 0] := by
  decide +kernel

/-- The memory of the machine after reset is canonical. -/
theorem test_reset_canonical : State.reset.canonical = true := by decide

/-- The decay time of a detector is 1,000 µs after reset (file 08, DET_DCY). -/
theorem test_decay_reset : State.reset.rd 7 DET_DCY.TAU 15 = 0x3E8 := by decide +kernel

/-- The premises of the base image's application: in phase 4 with no image applied yet, the image either fails its checks or gives its
entries; which of the two, the image's own words (a free value) decide. -/
theorem witness_base_image_apply :
    ∃ s : State, s.Live 7 ∧ s.rd 7 GLB_PHASE.PHASE = 4 ∧ (s.getDie 7).imageDone = false ∧ (s.getDie 7).imageBad = false ∧
      (imageEnts s 7 = none ∨ ∃ es f, imageEnts s 7 = some (es, f)) := by
  refine ⟨State.reset.wr 7 GLB_PHASE.PHASE 4, by decide +kernel, by decide +kernel, by decide +kernel, by decide +kernel, ?_⟩
  cases h : imageEnts (State.reset.wr 7 GLB_PHASE.PHASE 4) 7 with
  | none => exact .inl rfl
  | some p => exact .inr ⟨p.1, p.2, rfl⟩

/-! Witnesses: the hypotheses of each statement can be met, clause by clause. -/

theorem witness_ExcitationWriteWaitsForItsBoundary :
    (∃ (s : State) (d n : Nat) (v : Word), s.Live d ∧ n < 8 ∧ s.forwards d = false ∧ s.holds d n = true ∧ 0xD1B71 ≤ v.toNat ∧
      v.toNat ≤ 0x10624DD) ∧
    (∃ (s : State) (d n : Nat) (v : Word) (f : _), s.Live d ∧ n < 8 ∧ s.forwards d = false ∧ s.holds d n = true ∧
      (v.toNat < 0xD1B71 ∧ f = 0xD1B71 ∨ 0x10624DD < v.toNat ∧ f = 0x10624DD)) ∧
    (∃ (s : State) (d n : Nat), s.Live d ∧ n < 8 ∧ s.forwards d = false ∧ s.holds d n = true) ∧
    (∃ (s : State) (d n : Nat) (r : _) (f : _), s.Live d ∧ n < 8 ∧ s.forwards d = false ∧ s.holds d n = false ∧ (r = 0 ∧
      f = EXC_CTRL.EN ∨ r = 1 ∧ f = EXC_FINC.FINC ∨ r = 2 ∧ f = EXC_AMP.AMP)) ∧
    (∃ (s : State) (d n : Nat) (r : _) (f : _), s.Live d ∧ n < 8 ∧ s.forwards d = true ∧ (r = 0 ∧ f = EXC_CTRL.EN ∨ r = 1 ∧
      f = EXC_FINC.FINC ∨ r = 2 ∧ f = EXC_AMP.AMP)) :=
  ⟨⟨State.reset, 0, 2, 0x00FF00FF, by decide +kernel⟩,
  ⟨State.reset, 6, 5, 0x1, (0xD1B71), by decide +kernel, by decide +kernel, by decide +kernel, by decide +kernel,
    Or.inl (⟨(by decide +kernel), (by first | rfl | decide +kernel)⟩)⟩,
  ⟨State.reset, 7, 7, by decide +kernel⟩,
  ⟨((State.reset.mated 7).wr 7 GLB_ID.PAIRMODE 1), 7, 3, (0), (EXC_CTRL.EN), by decide +kernel, by decide +kernel, by decide +kernel, by decide +kernel,
    Or.inl (⟨(by first | rfl | decide +kernel), (by first | rfl | decide +kernel)⟩)⟩,
  ⟨(State.reset.mated 7), 7, 7, (0), (EXC_CTRL.EN), by decide +kernel, by decide +kernel, by decide +kernel,
    Or.inl (⟨(by first | rfl | decide +kernel), (by first | rfl | decide +kernel)⟩)⟩⟩

theorem witness_ExcitationOverloadIsTimed :
    (∃ (s : State) (d n : Nat) (t : _), s.Live d ∧ n < 8 ∧ (s.getExc d n).ovldAt = some t ∧
      (s.passTo (t + 250000)).excOverRaised d n = false) ∧
    (∃ (s : State) (d n : Nat) (t : _), s.Live d ∧ n < 8 ∧ (s.getExc d n).ovldAt = some t ∧
      (s.passTo (t + 250000)).excOverRaised d n = true) ∧
    (∃ (s : State) (d n : Nat), s.Live d ∧ n < 8 ∧ s.excOverRaised d n = true) ∧
    (∃ (s : State) (d n : Nat), s.Live d ∧ n < 8 ∧ s.excOverRaised d n = false) ∧
    (∃ (s : State) (d n : Nat), s.Live d ∧ n < 8 ∧ (s.getExc d n).ovldAt = none) :=
  ⟨⟨(State.reset.modExc 7 7 fun r => { r with ovldAt := some 5000 }), 7, 7, 5000, by decide +kernel⟩,
  ⟨(((State.reset.modExc 6 5 fun r => { r with ovldAt := some 5000 }).wrBit 6 FLT_SRCSTAT.LIVE (16 + 5) true).wr 6
    FLT_SRCSTAT.LIVE 1 (16 + 5)), 6, 5, (((((((State.reset.modExc 6 5 fun r => { r with ovldAt := some 5000 }).wrBit 6
    FLT_SRCSTAT.LIVE (16 + 5) true).wr 6 FLT_SRCSTAT.LIVE 1 (16 + 5))).getExc 6 5).ovldAt).get (by decide +kernel)), by decide +kernel⟩,
  ⟨(State.reset.wr 6 FLT_SRCSTAT.LIVE 1 (16 + 5)), 6, 5, by decide +kernel⟩,
  ⟨State.reset, 7, 7, by decide +kernel⟩,
  ⟨State.reset, 7, 7, by decide +kernel⟩⟩

theorem witness_PilotLocksAndHolds :
    (∃ (s : State) (d n : Nat) (t : _), s.Live d ∧ n < 8 ∧ (s.getExc d n).acqEnd = some t ∧
      3277 ≤ (s.passTo t).rd d EXC_PILOT.AMPL n) ∧
    (∃ (s : State) (d n : Nat) (t : _), s.Live d ∧ n < 8 ∧ (s.getExc d n).acqEnd = some t ∧
      (s.passTo t).rd d EXC_PILOT.AMPL n < 3277) ∧
    (∃ (s : State) (d n : Nat) (t : _), s.Live d ∧ n < 8 ∧ (s.getExc d n).acqEnd = none ∧ (s.getExc d n).wideEnd = some t) ∧
    (∃ (s : State) (d n : Nat) (t : _), s.Live d ∧ n < 8 ∧ (s.getExc d n).lowAt = some t ∧ s.bit d EXC_PILOT.LOCK n = true) ∧
    (∃ (s : State) (d n : Nat), s.Live d ∧ n < 8 ∧ s.bit d EXC_PILOT.LOCK n = false) :=
  ⟨⟨((State.reset.modExc 7 7 fun r => { r with acqEnd := some 5000 }).wr 7 EXC_PILOT.AMPL 3277 7), 7, 7, 5000, by decide +kernel⟩,
  ⟨(State.reset.modExc 7 7 fun r => { r with acqEnd := some 5000 }), 7, 7, 5000, by decide +kernel⟩,
  ⟨(State.reset.modExc 7 7 fun r => { r with wideEnd := some 5000 }), 7, 7, 5000, by decide +kernel⟩,
  ⟨((State.reset.modExc 7 7 fun r => { r with lowAt := some 5000 }).wr 7 EXC_PILOT.LOCK 1 7), 7, 7, 5000, by decide +kernel⟩,
  ⟨State.reset, 7, 7, by decide +kernel⟩⟩

theorem witness_InputClipIsRaisedOnceForARun :
    (∃ (s : State) (d n : Nat), s.Live d ∧ n < 8 ∧ (s.getExc d n).closed = some (false, false)) ∧
    (∃ (s : State) (d n : Nat) (a : _) (b : _), s.Live d ∧ n < 8 ∧ (s.getExc d n).closed = some (a, b) ∧ (a || b) = true) ∧
    (∃ (s : State) (d n : Nat), s.Live d ∧ n < 8 ∧ (s.getExc d n).closed = none) ∧
    (∃ (s : State) (d n : Nat), s.Live d ∧ n < 8 ∧ 0 < s.rd d EXC_CLIP.LIMIT n ∧
      s.rd d EXC_CLIP.LIMIT n ≤ (s.getExc d n).clipRun ∧ (s.getExc d n).clipDone = false) ∧
    (∃ (s : State) (d n : Nat), s.Live d ∧ n < 8 ∧
      (s.rd d EXC_CLIP.LIMIT n = 0 ∨ (s.getExc d n).clipRun < s.rd d EXC_CLIP.LIMIT n ∨ (s.getExc d n).clipDone = true)) :=
  ⟨⟨(State.reset.modExc 7 7 fun r => { r with closed := some (false, false) }), 7, 7, by decide +kernel⟩,
  ⟨(State.reset.modExc 7 7 fun r => { r with closed := some (0, 1) }), 7, 7, 0, 1, by decide +kernel⟩,
  ⟨State.reset, 7, 7, by decide +kernel⟩,
  ⟨((State.reset.wr 7 EXC_CLIP.LIMIT 1 7).modExc 7 7 fun r => { r with clipRun := 1 }), 7, 7, by decide +kernel⟩,
  ⟨State.reset, 7, 7, by decide +kernel⟩⟩

theorem witness_TrackerLossesAreDeclaredByTheirDetectors :
    (∃ (s : State) (d n : Nat), s.Live d ∧ n < 8 ∧ 8 ≤ (s.getTrk d n).ovsRun) ∧
    (∃ (s : State) (d n : Nat), s.Live d ∧ n < 8 ∧ (s.getTrk d n).ovsRun < 8) ∧
    (∃ (s : State) (d n : Nat), s.Live d ∧ n < 8 ∧ max 1 (s.rd d TRK_AMPWIN.QUAL n) ≤ (s.getTrk d n).ampRun) ∧
    (∃ (s : State) (d n : Nat), s.Live d ∧ n < 8 ∧ (s.getTrk d n).ampRun < max 1 (s.rd d TRK_AMPWIN.QUAL n)) ∧
    (∃ (s : State) (d n : Nat), s.Live d ∧ n < 8 ∧ s.bit d TRK_FRZ.FEN n = true ∧
      max 8 (s.rd d TRK_FRZ.CNT n) ≤ (s.getTrk d n).frzRun) ∧
    (∃ (s : State) (d n : Nat), s.Live d ∧ n < 8 ∧
      (s.bit d TRK_FRZ.FEN n = false ∨ (s.getTrk d n).frzRun < max 8 (s.rd d TRK_FRZ.CNT n))) ∧
    (∃ (s : State) (d n : Nat), s.Live d ∧ n < 8 ∧ 2 ≤ (s.getTrk d n).jumpRun) ∧
    (∃ (s : State) (d n : Nat), s.Live d ∧ n < 8 ∧ (s.getTrk d n).jumpRun < 2) ∧
    (∃ (s : State) (d n : Nat), s.Live d ∧ n < 8 ∧ (s.bit d TRK_STAT.COASTING n = true ∨ s.bit d TRK_STAT.ACQ n = true)) ∧
    (∃ (s : State) (d n : Nat), s.Live d ∧ n < 8 ∧ s.bit d TRK_STAT.COASTING n = false ∧ s.bit d TRK_STAT.ACQ n = false ∧
      (s.getTrk d n).rearmAt = none) ∧
    (∃ (s : State) (d n c : Nat), s.Live d ∧ n < 8 ∧ s.bit d TRK_STAT.COASTING n = false ∧ s.bit d TRK_STAT.ACQ n = false ∧
      (s.getTrk d n).rearmAt = none ∧ c ≠ 5) :=
  ⟨⟨(State.reset.modTrk 7 7 fun r => { r with ovsRun := 8 }), 7, 7, by decide +kernel⟩,
  ⟨State.reset, 7, 7, by decide +kernel⟩,
  ⟨((State.reset.wr 7 TRK_AMPWIN.QUAL 0 7).modTrk 7 7 fun r => { r with ampRun := 100000 }), 7, 7, by decide +kernel⟩,
  ⟨State.reset, 7, 7, by decide +kernel⟩,
  ⟨(State.reset.modTrk 6 5 fun r => { r with frzRun := 100000 }), 6, 5, by decide +kernel⟩,
  ⟨State.reset, 7, 7, by decide +kernel⟩,
  ⟨(State.reset.modTrk 7 7 fun r => { r with jumpRun := 2 }), 7, 7, by decide +kernel⟩,
  ⟨State.reset, 7, 7, by decide +kernel⟩,
  ⟨((State.reset.wr 7 TRK_STAT.COASTING 1 7).wr 7 TRK_STAT.ACQ 1 7), 7, 7, by decide +kernel⟩,
  ⟨State.reset, 7, 7, by decide +kernel⟩,
  ⟨State.reset, 7, 7, 1, by decide +kernel⟩⟩

theorem witness_TrackerCoastsResumesAndAcquires :
    (∃ (s : State) (d n : Nat) (e : _), s.Live d ∧ n < 8 ∧ (s.getTrk d n).coastEnd = some e ∧
      s.bit d TRK_STAT.COASTING n = true ∧ ¬ (4 ≤ (s.getTrk d n).good ∧ updOf (s.getTrk d n).goodAt < updOf e)) ∧
    (∃ (s : State) (d n : Nat) (e : _), s.Live d ∧ n < 8 ∧ (s.getTrk d n).coastEnd = some e ∧
      s.bit d TRK_STAT.COASTING n = true ∧ 4 ≤ (s.getTrk d n).good ∧ updOf (s.getTrk d n).goodAt < updOf e) ∧
    (∃ (s : State) (d n : Nat), s.Live d ∧ n < 8 ∧ s.bit d TRK_STAT.ACQ n = true ∧ 4 ≤ (s.getTrk d n).good ∧
      (s.getTrk d n).speedWait = false) ∧
    (∃ (s : State) (d n : Nat), s.Live d ∧ n < 8 ∧ 256 ≤ (s.getTrk d n).lockRun) ∧
    (∃ (s : State) (d n : Nat), s.Live d ∧ n < 8 ∧ (s.getTrk d n).lockRun < 256) ∧
    (∃ (s : State) (d n : Nat), s.Live d ∧ n < 8 ∧ (s.toNext (State.stepNo 2 d n) 1000).rd d GLB_PHASE.PHASE = 5) ∧
    (∃ (s : State) (d n : Nat), s.Live d ∧ n < 8 ∧ (s.toNext (State.stepNo 2 d n) 1000).rd d GLB_PHASE.PHASE ≠ 5) ∧
    (∃ (s : State) (d n : Nat), s.Live d ∧ n < 8 ∧ (s.getEnc d n).snap = none) ∧
    (∃ (s : State) (d : Nat) (n : Nat) (x : EncSnap), s.Live d ∧ n < 8 ∧ (s.getEnc d n).snap = some x ∧
      (s.pt < x.u + 16000 ∨ s.rd d PAIR_STAT.RESYNC ≠ 2)) ∧
    (∃ (s : State) (d : Nat) (n : Nat) (x : EncSnap), s.Live d ∧ n < 8 ∧ (s.getEnc d n).snap = some x ∧ x.u + 16000 ≤ s.pt ∧
      s.rd d PAIR_STAT.RESYNC = 2) ∧
    (∃ (s : State) (d n : Nat) (p : PerRec) (a : _) (at0 : _) (q : _), s.Live d ∧ n < 8 ∧ (s.getTrk d n).speedWait = true ∧
      (s.getTrk d n).seen = (a, at0) :: q ∧ at0 < p.to_) :=
  ⟨⟨((State.reset.modTrk 7 7 fun r => { r with coastEnd := some 5000 }).wr 7 TRK_STAT.COASTING 1 7), 7, 7, 5000, by decide +kernel⟩,
  ⟨(((State.reset.modTrk 7 7 fun r => { r with coastEnd := some 5000 }).wr 7 TRK_STAT.COASTING 1 7).modTrk 7 7 fun r =>
    { r with good := 4 }), 7, 7, 5000, by decide +kernel⟩,
  ⟨((State.reset.wr 7 TRK_STAT.ACQ 1 7).modTrk 7 7 fun r => { r with good := 4 }), 7, 7, by decide +kernel⟩,
  ⟨(State.reset.modTrk 7 7 fun r => { r with lockRun := 256 }), 7, 7, by decide +kernel⟩,
  ⟨State.reset, 7, 7, by decide +kernel⟩,
  ⟨(State.reset.wr 7 GLB_PHASE.PHASE 5), 7, 7, by decide +kernel⟩,
  ⟨State.reset, 7, 7, by decide +kernel⟩,
  ⟨State.reset, 7, 7, by decide +kernel⟩,
  ⟨(State.reset.modEnc 7 7 fun r => { r with snap := some { u := 20000 } }), 7, 7, { u := 20000 }, by decide +kernel, by decide +kernel, by decide +kernel, by decide +kernel⟩,
  ⟨({ ((State.reset.modEnc 7 7 fun r => { r with snap := some { u := 20000 } }).wr 7 PAIR_STAT.RESYNC 2) with now := 36000, pt := 36000 } : State), 7, 7, { u := 20000 }, by decide +kernel, by decide +kernel, by decide +kernel, by decide +kernel, by decide +kernel⟩,
  ⟨(State.reset.modTrk 6 5 fun r => { r with speedWait := true, seen := [(5, 3)] }), 6, 5, { to_ := 9 },
    (((((State.reset.modTrk 6 5 fun r => { r with speedWait := true, seen := [(5, 3)] })).getTrk 6 5).seen).head
    (by decide +kernel)).1, (((((State.reset.modTrk 6 5 fun r => { r with speedWait := true, seen := [(5, 3)] })).getTrk 6
    5).seen).head (by decide +kernel)).2, ((((State.reset.modTrk 6 5 fun r =>
    { r with speedWait := true, seen := [(5, 3)] })).getTrk 6 5).seen).tail, by decide +kernel⟩⟩

theorem witness_TrackerRegistersAreWrittenAndRead :
    (∃ (s : State) (d n : Nat), s.Live d ∧ n < 8 ∧ s.forwards d = false ∧ s.holds d n = true) ∧
    (∃ (s : State) (d n : Nat), s.Live d ∧ n < 8 ∧ s.forwards d = false ∧ s.holds d n = true ∧
      s.bit d TRK_STAT.ANGVALID n = false) ∧
    (∃ (s : State) (d n : Nat), s.Live d ∧ n < 8 ∧ s.forwards d = false ∧ s.holds d n = true ∧
      s.bit d TRK_STAT.ANGVALID n = true ∧ s.bit d TRK_STAT.HOLD n = true) ∧
    (∃ (s : State) (d n : Nat), s.Live d ∧ n < 8 ∧ s.forwards d = false ∧ s.holds d n = true ∧
      s.bit d TRK_STAT.ANGVALID n = true ∧ s.bit d TRK_STAT.HOLD n = false) ∧
    (∃ (s : State) (d n : Nat), s.Live d ∧ n < 8 ∧ s.holds d n = false) ∧
    (∃ (s : State) (d n : Nat) (w : _) (e : _), s.Live d ∧ n < 8 ∧ (s.getTrk d n).pendCtrl = some (w, e) ∧
      ((((s.passTo e).toGrid 1000).modTrk d n (fun x => { x with pendCtrl := none })).getTrk d n).ppm ≠ bitsOf w.toNat 8 4) ∧
    (∃ (s : State) (d n : Nat), s.Live d ∧ n < 8 ∧ (s.getTrk d n).pendCtrl = none) :=
  ⟨⟨State.reset, 7, 7, by decide +kernel⟩,
  ⟨State.reset, 7, 7, by decide +kernel⟩,
  ⟨((State.reset.wr 7 TRK_STAT.ANGVALID 1 7).wr 7 TRK_STAT.HOLD 1 7), 7, 7, by decide +kernel⟩,
  ⟨(State.reset.wr 7 TRK_STAT.ANGVALID 1 7), 7, 7, by decide +kernel⟩,
  ⟨(State.reset.wr 7 GLB_ID.PAIRMODE 1), 7, 3, by decide +kernel⟩,
  ⟨(State.reset.modTrk 6 5 fun r => { r with pendCtrl := some (0x300, 5000) }), 6, 5,
    (((((State.reset.modTrk 6 5 fun r => { r with pendCtrl := some (0x300, 5000) })).getTrk 6 5).pendCtrl).get
    (by decide +kernel)).1, (((((State.reset.modTrk 6 5 fun r => { r with pendCtrl := some (0x300, 5000) })).getTrk 6
    5).pendCtrl).get (by decide +kernel)).2, by decide +kernel⟩,
  ⟨State.reset, 7, 7, by decide +kernel⟩⟩

theorem witness_PageCommandsHaveTheirEffect :
    (∃ (s : State) (d pa pb n t b : Nat) (i : Instr) (op p q m r : Nat), s.Live d ∧ pa < 32 ∧ pb < 32 ∧ n < 8 ∧ t < 4 ∧
      (b = 0 ∨ 7 < b ∧ b < 16) ∧ (i, op, p, q, m, r) ∈ [(Instr.tblLoad d pa, 1, pa, 0, 0, 0), (.tblStore d pa, 2, pa, 0, 0, 0),
      (.tblMap d pa pb n t, 3, pa, pb, n, t), (.tblUnmap d n t, 4, 0, 0, n, t), (.tblCancel d n t, 5, 0, 0, n, t),
      (.tblFree d pa, 6, pa, 0, 0, 0), (.tblAlloc d pa, 7, pa, 0, 0, 0), (.tblCmdBadCode d b, b, 0, 0, 0, 0)] ∧
      s.bit d TBL_CMDSTAT.BUSY = true) ∧
    (∃ (s : State) (d pa pb n t b : Nat) (i : Instr) (op p q m r : Nat), s.Live d ∧ pa < 32 ∧ pb < 32 ∧ n < 8 ∧ t < 4 ∧
      (b = 0 ∨ 7 < b ∧ b < 16) ∧ (i, op, p, q, m, r) ∈ [(Instr.tblLoad d pa, 1, pa, 0, 0, 0), (.tblStore d pa, 2, pa, 0, 0, 0),
      (.tblMap d pa pb n t, 3, pa, pb, n, t), (.tblUnmap d n t, 4, 0, 0, n, t), (.tblCancel d n t, 5, 0, 0, n, t),
      (.tblFree d pa, 6, pa, 0, 0, 0), (.tblAlloc d pa, 7, pa, 0, 0, 0), (.tblCmdBadCode d b, b, 0, 0, 0, 0)] ∧
      s.bit d TBL_CMDSTAT.BUSY = false ∧ s.forwards d = false ∧
      tblCheck ((((((s.wr d TBL_CMDSTAT.BUSY 1).wr d TBL_CMDSTAT.ERR 0).wr d TBL_CMDSTAT.MATEERR 0).wr d TBL_CMDSTAT.LASTOP
      op).modTcmd d fun c => { c with own := true, share := false })) d op p q m r ≠ 0) ∧
    (∃ (s : State) (d pa pb n t b : Nat) (i : Instr) (op p q m r : Nat), s.Live d ∧ pa < 32 ∧ pb < 32 ∧ n < 8 ∧ t < 4 ∧
      (b = 0 ∨ 7 < b ∧ b < 16) ∧ (i, op, p, q, m, r) ∈ [(Instr.tblLoad d pa, 1, pa, 0, 0, 0), (.tblStore d pa, 2, pa, 0, 0, 0),
      (.tblMap d pa pb n t, 3, pa, pb, n, t), (.tblUnmap d n t, 4, 0, 0, n, t), (.tblCancel d n t, 5, 0, 0, n, t),
      (.tblFree d pa, 6, pa, 0, 0, 0), (.tblAlloc d pa, 7, pa, 0, 0, 0), (.tblCmdBadCode d b, b, 0, 0, 0, 0)] ∧
      s.bit d TBL_CMDSTAT.BUSY = false ∧ s.forwards d = false ∧
      tblCheck ((((((s.wr d TBL_CMDSTAT.BUSY 1).wr d TBL_CMDSTAT.ERR 0).wr d TBL_CMDSTAT.MATEERR 0).wr d TBL_CMDSTAT.LASTOP
      op).modTcmd d fun c => { c with own := true, share := false })) d op p q m r = 0 ∧ (op = 1 ∨ op = 2)) ∧
    (∃ (s : State) (d pa pb n t b : Nat) (i : Instr) (op p q m r : Nat), s.Live d ∧ pa < 32 ∧ pb < 32 ∧ n < 8 ∧ t < 4 ∧
      (b = 0 ∨ 7 < b ∧ b < 16) ∧ (i, op, p, q, m, r) ∈ [(Instr.tblLoad d pa, 1, pa, 0, 0, 0), (.tblStore d pa, 2, pa, 0, 0, 0),
      (.tblMap d pa pb n t, 3, pa, pb, n, t), (.tblUnmap d n t, 4, 0, 0, n, t), (.tblCancel d n t, 5, 0, 0, n, t),
      (.tblFree d pa, 6, pa, 0, 0, 0), (.tblAlloc d pa, 7, pa, 0, 0, 0), (.tblCmdBadCode d b, b, 0, 0, 0, 0)] ∧
      s.bit d TBL_CMDSTAT.BUSY = false ∧ s.forwards d = false ∧
      tblCheck ((((((s.wr d TBL_CMDSTAT.BUSY 1).wr d TBL_CMDSTAT.ERR 0).wr d TBL_CMDSTAT.MATEERR 0).wr d TBL_CMDSTAT.LASTOP
      op).modTcmd d fun c => { c with own := true, share := false })) d op p q m r = 0 ∧ op ≠ 1 ∧ op ≠ 2) ∧
    (∃ (s : State) (d pa pb n t b : Nat) (i : Instr) (op p q m r : Nat), s.Live d ∧ pa < 32 ∧ pb < 32 ∧ n < 8 ∧ t < 4 ∧
      (b = 0 ∨ 7 < b ∧ b < 16) ∧ (i, op, p, q, m, r) ∈ [(Instr.tblLoad d pa, 1, pa, 0, 0, 0), (.tblStore d pa, 2, pa, 0, 0, 0),
      (.tblMap d pa pb n t, 3, pa, pb, n, t), (.tblUnmap d n t, 4, 0, 0, n, t), (.tblCancel d n t, 5, 0, 0, n, t),
      (.tblFree d pa, 6, pa, 0, 0, 0), (.tblAlloc d pa, 7, pa, 0, 0, 0), (.tblCmdBadCode d b, b, 0, 0, 0, 0)] ∧
      s.bit d TBL_CMDSTAT.BUSY = false ∧ s.forwards d = true) ∧
    (∃ (s : State) (d pa pb n t b : Nat) (u : State) (op : Nat), s.Live d ∧ pa < 32 ∧ pb < 32 ∧ n < 8 ∧ t < 4 ∧ (b = 0 ∨ 7 < b ∧
      b < 16) ∧ (op = 3 ∨ op = 4 ∨ op = 5) ∧ u.holds d n = false) ∧
    (∃ (s : State) (d pa pb n t b : Nat) (u : State), s.Live d ∧ pa < 32 ∧ pb < 32 ∧ n < 8 ∧ t < 4 ∧ (b = 0 ∨ 7 < b ∧ b < 16) ∧
      u.holds d n = true) ∧
    (∃ (s : State) (d pa pb n t b : Nat), s.Live d ∧ pa < 32 ∧ pb < 32 ∧ n < 8 ∧ t < 4 ∧ (b = 0 ∨ 7 < b ∧ b < 16)) ∧
    (∃ (s : State) (d pa pb n t b : Nat) (u : State) (p q : Nat), s.Live d ∧ pa < 32 ∧ pb < 32 ∧ n < 8 ∧ t < 4 ∧ (b = 0 ∨ 7 < b ∧
      b < 16) ∧ (u.getSlot d n t).map = some (p, q)) ∧
    (∃ (s : State) (d pa pb n t b : Nat) (u : State), s.Live d ∧ pa < 32 ∧ pb < 32 ∧ n < 8 ∧ t < 4 ∧ (b = 0 ∨ 7 < b ∧ b < 16) ∧
      u.rd d TBL_CMDSTAT.ERR = 0 ∧ (u.getTcmd d).share = false) :=
  ⟨⟨(State.reset.wr 0 TBL_CMDSTAT.BUSY 1), 0, 7, 7, 5, 3, 0, Instr.tblLoad 0 7, 1, 7, 0, 0, 0, by decide +kernel, by decide +kernel, by decide +kernel, by decide +kernel, by decide +kernel, by decide +kernel,
    .head _, by decide +kernel⟩,
  ⟨(((State.reset.wr 7 TBL_CMDSTAT.BUSY 0).mated 7).wr 7 GLB_ID.PAIRMODE 1), 7, 0, 0, 7, 3, 0, Instr.tblLoad 7 0, 1, 0, 0, 0, 0, by decide +kernel, by decide +kernel, by decide +kernel, by decide +kernel, by decide +kernel, by decide +kernel,
    .head _, by decide +kernel⟩,
  ⟨(((State.reset.wr 0 TBL_CMDSTAT.BUSY 0).mated 0).wr 0 GLB_ID.PAIRMODE 1), 0, 7, 7, 5, 3, 0, Instr.tblLoad 0 7, 1, 7, 0, 0, 0, by decide +kernel, by decide +kernel, by decide +kernel, by decide +kernel, by decide +kernel, by decide +kernel,
    .head _, by decide +kernel⟩,
  ⟨(State.reset.wr 7 TBL_CMDSTAT.BUSY 0), 7, 31, 31, 5, 2, 15, .tblAlloc 7 31, 7, 31, 0, 0, 0, by decide +kernel, by decide +kernel, by decide +kernel, by decide +kernel, by decide +kernel, by decide +kernel,
    .tail _ (.tail _ (.tail _ (.tail _ (.tail _ (.tail _ (.head _)))))), by decide +kernel⟩,
  ⟨((State.reset.wr 0 TBL_CMDSTAT.BUSY 0).mated 0), 0, 0, 31, 7, 3, 0, Instr.tblLoad 0 0, 1, 0, 0, 0, 0, by decide +kernel, by decide +kernel, by decide +kernel, by decide +kernel, by decide +kernel, by decide +kernel,
    .head _, by decide +kernel⟩,
  ⟨(State.reset.wr 7 GLB_ID.PAIRMODE 1), 7, 3, 3, 3, 3, 0, (State.reset.wr 7 GLB_ID.PAIRMODE 1), 4, by decide +kernel⟩,
  ⟨State.reset, 7, 31, 31, 5, 2, 15, State.reset, by decide +kernel⟩,
  ⟨State.reset, 0, 7, 7, 5, 3, 0, by decide +kernel⟩,
  ⟨(State.reset.modSlot 0 5 3 fun r => { r with map := some (1, 2) }), 0, 7, 7, 5, 3, 0,
    (State.reset.modSlot 0 5 3 fun r => { r with map := some (1, 2) }),
    (((((State.reset.modSlot 0 5 3 fun r => { r with map := some (1, 2) })).getSlot 0 5 3).map).get (by decide +kernel)).1,
    (((((State.reset.modSlot 0 5 3 fun r => { r with map := some (1, 2) })).getSlot 0 5 3).map).get (by decide +kernel)).2, by decide +kernel⟩,
  ⟨((State.reset.wr 0 TBL_CMDSTAT.ERR 0).modTcmd 0 fun r => { r with share := true }), 0, 0, 0, 7, 3, 0,
    ((State.reset.wr 0 TBL_CMDSTAT.ERR 0).modTcmd 0 fun r => { r with share := false }), by decide +kernel⟩⟩

theorem witness_TablesMapAtTheirWrapAndMoveByPages :
    (∃ (s : State) (d n t : Nat) (fwd : _), s.Live d ∧ n < 8 ∧ t < 4 ∧ s.wrapDue d n t ≠ some fwd) ∧
    (∃ (s : State) (d n t : Nat) (fwd : _), s.Live d ∧ n < 8 ∧ t < 4 ∧ s.wrapDue d n t = some fwd ∧ ¬ (t = 0 ∧
      s.rd d TBL_DESC.ROLE n 0 = 1)) ∧
    (∃ (s : State) (d n : Nat) (fwd : _), s.Live d ∧ n < 8 ∧ 0 < 4 ∧ s.wrapDue d n 0 = some fwd ∧ s.rd d TBL_DESC.ROLE n 0 = 1 ∧
      (((closeRevolution d n fwd (if (s.getSlot d n 0).map.isSome = true ∨ (s.getSlot d n 0).unmap = true then republish d n
      (wrapTake d n 0 s) else (wrapTake d n 0 s))).getSlot d n 0).late = none)) ∧
    (∃ (s : State) (d n : Nat) (fwd : _) (u : _) (th : _) (c : _) (w : _) (e : _), s.Live d ∧ n < 8 ∧ 0 < 4 ∧
      s.wrapDue d n 0 = some fwd ∧ s.rd d TBL_DESC.ROLE n 0 = 1 ∧
      (((closeRevolution d n fwd (if (s.getSlot d n 0).map.isSome = true ∨ (s.getSlot d n 0).unmap = true then republish d n
      (wrapTake d n 0 s) else (wrapTake d n 0 s))).getSlot d n 0).late = some (u, th, c, w, e))) ∧
    (∃ (s : State) (d n t : Nat), s.Live d ∧ n < 8 ∧ t < 4) ∧
    (∃ (s : State) (d n t : Nat), s.Live d ∧ n < 8 ∧ t < 4 ∧ (s.getSlot d n t).map = none ∧ (s.getSlot d n t).unmap = false) ∧
    (∃ (s : State) (d n t : Nat), s.Live d ∧ n < 8 ∧ t < 4 ∧ (s.getSlot d n t).map = none ∧ (s.getSlot d n t).unmap = true) ∧
    (∃ (s : State) (d n t : Nat) (p0 : _) (p1 : _), s.Live d ∧ n < 8 ∧ t < 4 ∧ (s.getSlot d n t).map = some (p0, p1)) ∧
    (∃ (s : State) (d n t : Nat), s.Live d ∧ n < 8 ∧ t < 4 ∧ (s.getTcmd d).run = none) ∧
    (∃ (s : State) (d : Nat) (n : Nat) (t : Nat) (p : _) (ofs : _) (a : _) (bs : _) (u : _), s.Live d ∧ n < 8 ∧ t < 4 ∧
      (s.getTcmd d).run = some (true, p, ofs) ∧ a = (s.rd d TBL_LIBBASE.BASE + ofs) * 4096 % 2 ^ 35 ∧
      s.dramRead a 4096 = (some bs, u)) ∧
    (∃ (s : State) (d n t : Nat) (p : _) (ofs : _), s.Live d ∧ n < 8 ∧ t < 4 ∧ (s.getTcmd d).run = some (true, p, ofs) ∧
      (s.dramRead ((s.rd d TBL_LIBBASE.BASE + ofs) * 4096 % 2 ^ 35) 4096).1 = none) ∧
    (∃ (s : State) (d n t : Nat) (p : _) (ofs : _), s.Live d ∧ n < 8 ∧ t < 4 ∧ (s.getTcmd d).run = some (false, p, ofs) ∧
      (s.dramWrite ((s.rd d TBL_LIBBASE.BASE + ofs) * 4096 % 2 ^ 35) (pageBytes s d p)).1 = true) ∧
    (∃ (s : State) (d n t : Nat) (p : _) (ofs : _), s.Live d ∧ n < 8 ∧ t < 4 ∧ (s.getTcmd d).run = some (false, p, ofs) ∧
      (s.dramWrite ((s.rd d TBL_LIBBASE.BASE + ofs) * 4096 % 2 ^ 35) (pageBytes s d p)).1 = false) ∧
    (∃ (s : State) (d n t : Nat), s.Live d ∧ n < 8 ∧ t < 4 ∧ s.forwards d = false ∧ s.holds d n = true) ∧
    (∃ (s : State) (d n t : Nat) (o : _), s.Live d ∧ n < 8 ∧ t < 4 ∧ o < 131072 ∧ o % 4 ≠ 0) ∧
    (∃ (s : State) (d n t : Nat) (o : _), s.Live d ∧ n < 8 ∧ t < 4 ∧ o < 131072 ∧ o % 4 = 0 ∧
      ((s.rd d TBL_PAGE.STATE (o / 4096 % 32)) = 0 ∨ (s.rd d TBL_PAGE.STATE (o / 4096 % 32)) = 3)) ∧
    (∃ (s : State) (d n t : Nat) (o : _), s.Live d ∧ n < 8 ∧ t < 4 ∧ o < 131072 ∧ o % 4 = 0 ∧
      (s.rd d TBL_PAGE.STATE (o / 4096 % 32)) ≠ 0 ∧ (s.rd d TBL_PAGE.STATE (o / 4096 % 32)) ≠ 3) ∧
    (∃ (s : State) (d n t : Nat) (o : _) (b : _) (c : _), s.Live d ∧ n < 8 ∧ t < 4 ∧ o < 131072 ∧ o % 4 = 0 ∧
      (s.rd d TBL_PAGE.STATE (o / 4096 % 32)) ≠ 0 ∧ (s.rd d TBL_PAGE.STATE (o / 4096 % 32)) ≠ 3 ∧
      (entryOwner s d (o / 4 % 32768 * 2)) = some (b, c)) ∧
    (∃ (s : State) (d n t : Nat) (o : _), s.Live d ∧ n < 8 ∧ t < 4 ∧ o < 131072 ∧ o % 4 = 0 ∧
      (s.rd d TBL_PAGE.STATE (o / 4096 % 32)) ≠ 0 ∧ (s.rd d TBL_PAGE.STATE (o / 4096 % 32)) ≠ 3 ∧
      (s.rd d TBL_PAGE.STATE (o / 4096 % 32)) = 1) ∧
    (∃ (s : State) (d n t : Nat) (o : _), s.Live d ∧ n < 8 ∧ t < 4 ∧ o < 131072 ∧ o % 4 = 0 ∧
      (s.rd d TBL_PAGE.STATE (o / 4096 % 32)) ≠ 0 ∧ (s.rd d TBL_PAGE.STATE (o / 4096 % 32)) ≠ 3 ∧
      (s.rd d TBL_PAGE.STATE (o / 4096 % 32)) ≠ 1) :=
  ⟨⟨State.reset, 7, 7, 3, 1, by decide +kernel⟩,
  ⟨(State.reset.modSlot 6 5 0 fun r => { r with wrap := some true }), 6, 5, 0,
    ((((State.reset.modSlot 6 5 0 fun r => { r with wrap := some true })).wrapDue 6 5 0).get (by decide +kernel)), by decide +kernel⟩,
  ⟨((State.reset.modSlot 6 5 0 fun r => { r with wrap := some true }).wr 6 TBL_DESC.ROLE 1 5 0), 6, 5,
    (((((State.reset.modSlot 6 5 0 fun r => { r with wrap := some true }).wr 6 TBL_DESC.ROLE 1 5 0)).wrapDue 6 5 0).get
    (by decide +kernel)), by decide +kernel⟩,
  ⟨(((State.reset.modSlot 6 5 0 fun r => { r with wrap := some true }).wr 6 TBL_DESC.ROLE 1 5 0).modSlot 6 5 0 fun r =>
    { r with late := some (5000, 1, 1, 1, 1) }), 6, 5,
    ((((((State.reset.modSlot 6 5 0 fun r => { r with wrap := some true }).wr 6 TBL_DESC.ROLE 1 5 0).modSlot 6 5 0 fun r =>
    { r with late := some (5000, 1, 1, 1, 1) })).wrapDue 6 5 0).get (by decide +kernel)),
    ((((closeRevolution 6 5 (((((((State.reset.modSlot 6 5 0 fun r => { r with wrap := some true }).wr 6 TBL_DESC.ROLE 1 5
    0).modSlot 6 5 0 fun r => { r with late := some (5000, 1, 1, 1, 1) })).wrapDue 6 5 0).get (by decide +kernel))) (if
    (((((State.reset.modSlot 6 5 0 fun r => { r with wrap := some true }).wr 6 TBL_DESC.ROLE 1 5 0).modSlot 6 5 0 fun r =>
    { r with late := some (5000, 1, 1, 1, 1) })).getSlot 6 5 0).map.isSome = true ∨ (((((State.reset.modSlot 6 5 0 fun r =>
    { r with wrap := some true }).wr 6 TBL_DESC.ROLE 1 5 0).modSlot 6 5 0 fun r =>
    { r with late := some (5000, 1, 1, 1, 1) })).getSlot 6 5 0).unmap = true then republish 6 5 (wrapTake 6 5 0
    ((((State.reset.modSlot 6 5 0 fun r => { r with wrap := some true }).wr 6 TBL_DESC.ROLE 1 5 0).modSlot 6 5 0 fun r =>
    { r with late := some (5000, 1, 1, 1, 1) }))) else (wrapTake 6 5 0 ((((State.reset.modSlot 6 5 0 fun r =>
    { r with wrap := some true }).wr 6 TBL_DESC.ROLE 1 5 0).modSlot 6 5 0 fun r =>
    { r with late := some (5000, 1, 1, 1, 1) }))))).getSlot 6 5 0).late).get (by decide +kernel)).1,
    ((((closeRevolution 6 5 (((((((State.reset.modSlot 6 5 0 fun r => { r with wrap := some true }).wr 6 TBL_DESC.ROLE 1 5
    0).modSlot 6 5 0 fun r => { r with late := some (5000, 1, 1, 1, 1) })).wrapDue 6 5 0).get (by decide +kernel))) (if
    (((((State.reset.modSlot 6 5 0 fun r => { r with wrap := some true }).wr 6 TBL_DESC.ROLE 1 5 0).modSlot 6 5 0 fun r =>
    { r with late := some (5000, 1, 1, 1, 1) })).getSlot 6 5 0).map.isSome = true ∨ (((((State.reset.modSlot 6 5 0 fun r =>
    { r with wrap := some true }).wr 6 TBL_DESC.ROLE 1 5 0).modSlot 6 5 0 fun r =>
    { r with late := some (5000, 1, 1, 1, 1) })).getSlot 6 5 0).unmap = true then republish 6 5 (wrapTake 6 5 0
    ((((State.reset.modSlot 6 5 0 fun r => { r with wrap := some true }).wr 6 TBL_DESC.ROLE 1 5 0).modSlot 6 5 0 fun r =>
    { r with late := some (5000, 1, 1, 1, 1) }))) else (wrapTake 6 5 0 ((((State.reset.modSlot 6 5 0 fun r =>
    { r with wrap := some true }).wr 6 TBL_DESC.ROLE 1 5 0).modSlot 6 5 0 fun r =>
    { r with late := some (5000, 1, 1, 1, 1) }))))).getSlot 6 5 0).late).get (by decide +kernel)).2.1,
    ((((closeRevolution 6 5 (((((((State.reset.modSlot 6 5 0 fun r => { r with wrap := some true }).wr 6 TBL_DESC.ROLE 1 5
    0).modSlot 6 5 0 fun r => { r with late := some (5000, 1, 1, 1, 1) })).wrapDue 6 5 0).get (by decide +kernel))) (if
    (((((State.reset.modSlot 6 5 0 fun r => { r with wrap := some true }).wr 6 TBL_DESC.ROLE 1 5 0).modSlot 6 5 0 fun r =>
    { r with late := some (5000, 1, 1, 1, 1) })).getSlot 6 5 0).map.isSome = true ∨ (((((State.reset.modSlot 6 5 0 fun r =>
    { r with wrap := some true }).wr 6 TBL_DESC.ROLE 1 5 0).modSlot 6 5 0 fun r =>
    { r with late := some (5000, 1, 1, 1, 1) })).getSlot 6 5 0).unmap = true then republish 6 5 (wrapTake 6 5 0
    ((((State.reset.modSlot 6 5 0 fun r => { r with wrap := some true }).wr 6 TBL_DESC.ROLE 1 5 0).modSlot 6 5 0 fun r =>
    { r with late := some (5000, 1, 1, 1, 1) }))) else (wrapTake 6 5 0 ((((State.reset.modSlot 6 5 0 fun r =>
    { r with wrap := some true }).wr 6 TBL_DESC.ROLE 1 5 0).modSlot 6 5 0 fun r =>
    { r with late := some (5000, 1, 1, 1, 1) }))))).getSlot 6 5 0).late).get (by decide +kernel)).2.2.1,
    ((((closeRevolution 6 5 (((((((State.reset.modSlot 6 5 0 fun r => { r with wrap := some true }).wr 6 TBL_DESC.ROLE 1 5
    0).modSlot 6 5 0 fun r => { r with late := some (5000, 1, 1, 1, 1) })).wrapDue 6 5 0).get (by decide +kernel))) (if
    (((((State.reset.modSlot 6 5 0 fun r => { r with wrap := some true }).wr 6 TBL_DESC.ROLE 1 5 0).modSlot 6 5 0 fun r =>
    { r with late := some (5000, 1, 1, 1, 1) })).getSlot 6 5 0).map.isSome = true ∨ (((((State.reset.modSlot 6 5 0 fun r =>
    { r with wrap := some true }).wr 6 TBL_DESC.ROLE 1 5 0).modSlot 6 5 0 fun r =>
    { r with late := some (5000, 1, 1, 1, 1) })).getSlot 6 5 0).unmap = true then republish 6 5 (wrapTake 6 5 0
    ((((State.reset.modSlot 6 5 0 fun r => { r with wrap := some true }).wr 6 TBL_DESC.ROLE 1 5 0).modSlot 6 5 0 fun r =>
    { r with late := some (5000, 1, 1, 1, 1) }))) else (wrapTake 6 5 0 ((((State.reset.modSlot 6 5 0 fun r =>
    { r with wrap := some true }).wr 6 TBL_DESC.ROLE 1 5 0).modSlot 6 5 0 fun r =>
    { r with late := some (5000, 1, 1, 1, 1) }))))).getSlot 6 5 0).late).get (by decide +kernel)).2.2.2.1,
    ((((closeRevolution 6 5 (((((((State.reset.modSlot 6 5 0 fun r => { r with wrap := some true }).wr 6 TBL_DESC.ROLE 1 5
    0).modSlot 6 5 0 fun r => { r with late := some (5000, 1, 1, 1, 1) })).wrapDue 6 5 0).get (by decide +kernel))) (if
    (((((State.reset.modSlot 6 5 0 fun r => { r with wrap := some true }).wr 6 TBL_DESC.ROLE 1 5 0).modSlot 6 5 0 fun r =>
    { r with late := some (5000, 1, 1, 1, 1) })).getSlot 6 5 0).map.isSome = true ∨ (((((State.reset.modSlot 6 5 0 fun r =>
    { r with wrap := some true }).wr 6 TBL_DESC.ROLE 1 5 0).modSlot 6 5 0 fun r =>
    { r with late := some (5000, 1, 1, 1, 1) })).getSlot 6 5 0).unmap = true then republish 6 5 (wrapTake 6 5 0
    ((((State.reset.modSlot 6 5 0 fun r => { r with wrap := some true }).wr 6 TBL_DESC.ROLE 1 5 0).modSlot 6 5 0 fun r =>
    { r with late := some (5000, 1, 1, 1, 1) }))) else (wrapTake 6 5 0 ((((State.reset.modSlot 6 5 0 fun r =>
    { r with wrap := some true }).wr 6 TBL_DESC.ROLE 1 5 0).modSlot 6 5 0 fun r =>
    { r with late := some (5000, 1, 1, 1, 1) }))))).getSlot 6 5 0).late).get (by decide +kernel)).2.2.2.2, by decide +kernel⟩,
  ⟨State.reset, 7, 7, 3, by decide +kernel⟩,
  ⟨State.reset, 7, 7, 3, by decide +kernel⟩,
  ⟨(State.reset.modSlot 7 7 3 fun r => { r with unmap := true }), 7, 7, 3, by decide +kernel⟩,
  ⟨(State.reset.modSlot 7 7 3 fun r => { r with map := some (1, 1) }), 7, 7, 3, 1, 1, by decide +kernel⟩,
  ⟨State.reset, 7, 7, 3, by decide +kernel⟩,
  ⟨({ State.reset.modTcmd 7 fun r => { r with run := some (true, 31, 0) } with dramSrv := some 1 } : State), 7, 7, 3, 31, 0, _,
    _, _, by decide +kernel, by decide +kernel, by decide +kernel, by decide +kernel, rfl, rfl⟩,
  ⟨(State.reset.modTcmd 7 fun r => { r with run := some (true, 1, 1) }), 7, 7, 3, 1, 1, by decide +kernel⟩,
  ⟨(((({ (State.reset.modMem 1 fun r => { r with size := 1 }) with dramSrv := some 1 }).modTcmd 7 fun r =>
    { r with run := some (false, 31, 0) }).modTcmd 7 fun r => { r with run := some (false, 0, 0) }).wr 7 TBL_LIBBASE.BASE 5), 7,
    7, 3, 0, 0, by decide +kernel⟩,
  ⟨(State.reset.modTcmd 7 fun r => { r with run := some (false, 1, 1) }), 7, 7, 3, 1, 1, by decide +kernel⟩,
  ⟨State.reset, 7, 7, 3, by decide +kernel⟩,
  ⟨State.reset, 7, 7, 3, 131071, by decide +kernel⟩,
  ⟨(State.reset.wr 7 TBL_PAGE.STATE 0 (4 / 4096 % 32)), 7, 7, 1, 4, by decide +kernel⟩,
  ⟨(State.reset.wr 7 TBL_PAGE.STATE 2 (5000 / 4096 % 32)), 7, 3, 3, 5000, by decide +kernel⟩,
  ⟨State.reset, 7, 7, 3, 0, (((entryOwner (State.reset) 7 (0 / 4 % 32768 * 2))).get (by decide +kernel)).1,
    (((entryOwner (State.reset) 7 (0 / 4 % 32768 * 2))).get (by decide +kernel)).2, by decide +kernel⟩,
  ⟨(State.reset.wr 7 TBL_PAGE.STATE 1 (5000 / 4096 % 32)), 7, 1, 3, 5000, by decide +kernel⟩,
  ⟨(State.reset.wr 7 TBL_PAGE.STATE 2 (5000 / 4096 % 32)), 7, 3, 3, 5000, by decide +kernel⟩⟩

theorem witness_EmulatorsRebaseLimitAndPassThrough :
    (∃ (s : State) (d n : Nat) (t : _), s.Live d ∧ n < 8 ∧ (s.getEnc d n).limAt = some t ∧ (s.getEnc d n).limDone = false) ∧
    (∃ (s : State) (d n : Nat), s.Live d ∧ n < 8 ∧ ((s.getEnc d n).limAt = none ∨ (s.getEnc d n).limDone = true)) ∧
    (∃ (s : State) (d n : Nat), s.Live d ∧ n < 8 ∧ 5 ≤ s.rd d GLB_PHASE.PHASE ∧ s.emuMode d n = 1 ∧
      ((s.getEnc d n).mode ≠ 1 ∨ (s.getEnc d n).lines ≠ s.emuLines d n ∨ (s.getEnc d n).mech ≠ s.bit d EMU_CTRL.SRC n)) ∧
    (∃ (s : State) (d n : Nat), s.Live d ∧ n < 8 ∧ (s.rd d GLB_PHASE.PHASE < 5 ∨ s.emuMode d n ≠ 1 ∨ (s.getEnc d n).mode = 1 ∧
      (s.getEnc d n).lines = s.emuLines d n ∧ (s.getEnc d n).mech = s.bit d EMU_CTRL.SRC n)) ∧
    (∃ (s : State) (d n : Nat), s.Live d ∧ n < 8) ∧
    (∃ (s : State) (d n k : Nat) (o : Int), s.Live d ∧ n < 8 ∧ ((((k : Int) - (s.getEnc d n).q) % 4 = 0 ∧
      o = 0 ∨ ((k : Int) - (s.getEnc d n).q) % 4 = 1 ∧ o = 1 ∨ ((k : Int) - (s.getEnc d n).q) % 4 = 3 ∧ o = -1))) ∧
    (∃ (s : State) (d n k : Nat), s.Live d ∧ n < 8 ∧ ((k : Int) - (s.getEnc d n).q) % 4 = 2) ∧
    (∃ (s : State) (d n : Nat), s.Live d ∧ n < 8 ∧ 5 ≤ s.rd d GLB_PHASE.PHASE ∧ s.emuMode d n = 2 ∧ (s.getEnc d n).mode ≠ 2) ∧
    (∃ (s : State) (d n : Nat), s.Live d ∧ n < 8 ∧ (s.rd d GLB_PHASE.PHASE < 5 ∨ s.emuMode d n ≠ 2 ∨ (s.getEnc d n).mode = 2)) ∧
    (∃ (s : State) (d n w ago : Nat), s.Live d ∧ n < 8 ∧
      (((List.range 3).any fun i => ((fun i => bitOf w i && decide (s.rd d ENC_CFG.WIRET n < s.fabSamples d (s.ptD d -
      ((List.range 3).map (fun i => if bitOf (s.rd d ENC_STAT.WIRE n) i = true then (s.getEnc d n).wireAt.getD i 0 else s.ptD d
      - ago) : List Nat).getD i 0))) : Nat → Bool) i && !bitOf (s.getEnc d n).wireUp i) = true)) ∧
    (∃ (s : State) (d n w ago : Nat), s.Live d ∧ n < 8 ∧
      (((List.range 3).any fun i => ((fun i => bitOf w i && decide (s.rd d ENC_CFG.WIRET n < s.fabSamples d (s.ptD d -
      ((List.range 3).map (fun i => if bitOf (s.rd d ENC_STAT.WIRE n) i = true then (s.getEnc d n).wireAt.getD i 0 else s.ptD d
      - ago) : List Nat).getD i 0))) : Nat → Bool) i && !bitOf (s.getEnc d n).wireUp i) = false) ∧
      ((b2n (((fun i => bitOf w i && decide (s.rd d ENC_CFG.WIRET n < s.fabSamples d (s.ptD d - ((List.range 3).map (fun i =>
      if bitOf (s.rd d ENC_STAT.WIRE n) i = true then (s.getEnc d n).wireAt.getD i 0 else s.ptD d - ago) : List Nat).getD i
      0))) : Nat → Bool) 0) + 2 * b2n (((fun i => bitOf w i && decide (s.rd d ENC_CFG.WIRET n < s.fabSamples d (s.ptD d -
      ((List.range 3).map (fun i => if bitOf (s.rd d ENC_STAT.WIRE n) i = true then (s.getEnc d n).wireAt.getD i 0 else s.ptD d
      - ago) : List Nat).getD i 0))) : Nat → Bool) 1) + 4 * b2n (((fun i => bitOf w i && decide (s.rd d ENC_CFG.WIRET n <
      s.fabSamples d (s.ptD d - ((List.range 3).map (fun i => if bitOf (s.rd d ENC_STAT.WIRE n) i = true then (s.getEnc d
      n).wireAt.getD i 0 else s.ptD d - ago) : List Nat).getD i 0))) : Nat → Bool) 2) : Nat) = 0) ∧ (s.getEnc d n).wireUp ≠ 0) ∧
    (∃ (s : State) (d n w ago : Nat), s.Live d ∧ n < 8 ∧
      (((List.range 3).any fun i => ((fun i => bitOf w i && decide (s.rd d ENC_CFG.WIRET n < s.fabSamples d (s.ptD d -
      ((List.range 3).map (fun i => if bitOf (s.rd d ENC_STAT.WIRE n) i = true then (s.getEnc d n).wireAt.getD i 0 else s.ptD d
      - ago) : List Nat).getD i 0))) : Nat → Bool) i && !bitOf (s.getEnc d n).wireUp i) = false) ∧
      (((b2n (((fun i => bitOf w i && decide (s.rd d ENC_CFG.WIRET n < s.fabSamples d (s.ptD d - ((List.range 3).map (fun i =>
      if bitOf (s.rd d ENC_STAT.WIRE n) i = true then (s.getEnc d n).wireAt.getD i 0 else s.ptD d - ago) : List Nat).getD i
      0))) : Nat → Bool) 0) + 2 * b2n (((fun i => bitOf w i && decide (s.rd d ENC_CFG.WIRET n < s.fabSamples d (s.ptD d -
      ((List.range 3).map (fun i => if bitOf (s.rd d ENC_STAT.WIRE n) i = true then (s.getEnc d n).wireAt.getD i 0 else s.ptD d
      - ago) : List Nat).getD i 0))) : Nat → Bool) 1) + 4 * b2n (((fun i => bitOf w i && decide (s.rd d ENC_CFG.WIRET n <
      s.fabSamples d (s.ptD d - ((List.range 3).map (fun i => if bitOf (s.rd d ENC_STAT.WIRE n) i = true then (s.getEnc d
      n).wireAt.getD i 0 else s.ptD d - ago) : List Nat).getD i 0))) : Nat → Bool) 2) : Nat) ≠ 0 ∨ (s.getEnc d n).wireUp = 0))) :=
  ⟨⟨(State.reset.modEnc 7 7 fun r => { r with limAt := some 5000 }), 7, 7, 5000, by decide +kernel⟩,
  ⟨State.reset, 6, 5, by decide +kernel⟩,
  ⟨(((((State.reset.wr 7 GLB_PHASE.PHASE 5).wr 7 EMU_CTRL.MODE 1 7).wr 7 GLB_PHASE.PHASE 5).wr 7 EMU_CTRL.SRC 1 7).modEnc 7 7
    fun r => { r with mode := 1 }), 7, 7, by decide +kernel⟩,
  ⟨State.reset, 7, 7, by decide +kernel⟩,
  ⟨State.reset, 7, 7, by decide +kernel⟩,
  ⟨State.reset, 7, 7, 1, 1, by decide +kernel⟩,
  ⟨State.reset, 0, 2, 2, by decide +kernel⟩,
  ⟨((((State.reset.wr 7 GLB_PHASE.PHASE 5).wr 7 EMU_CTRL.MODE 2 7).wr 7 GLB_PHASE.PHASE 5).modEnc 7 7 fun r =>
    { r with mode := 1 }), 7, 7, by decide +kernel⟩,
  ⟨State.reset, 7, 7, by decide +kernel⟩,
  ⟨((State.reset.wr 7 ENC_CFG.WIRET 0 7).wr 7 ENC_STAT.WIRE 5 7), 7, 7, 5, 9, by decide +kernel⟩,
  ⟨(((State.reset.wr 6 ENC_CFG.WIRET 3 5).wr 6 ENC_STAT.WIRE 1 5).modEnc 6 5 fun r => { r with wireUp := 255 }), 6, 5, 9, 63, by decide +kernel⟩,
  ⟨State.reset, 7, 7, 1, 0, by decide +kernel⟩⟩

theorem witness_EncoderCountsItsEdges :
    (∃ (s : State) (d n ago : Nat) (a : _) (b : _) (z : _), s.Live d ∧ n < 8 ∧
      (encReceive d n (b2n a + 2 * b2n b + 4 * b2n z) s).fabSamples d ago ≤ (encReceive d n (b2n a + 2 * b2n b + 4 * b2n z)
      s).rd d ENC_CFG.FILT n) ∧
    (∃ (s : State) (d n ago : Nat) (a : _) (b : _) (z : _), s.Live d ∧ n < 8 ∧
      (encReceive d n (b2n a + 2 * b2n b + 4 * b2n z) s).rd d ENC_CFG.FILT n < (encReceive d n (b2n a + 2 * b2n b + 4 * b2n z)
      s).fabSamples d ago ∧ z ≠ bitOf ((encReceive d n (b2n a + 2 * b2n b + 4 * b2n z) s).rd d ENC_STAT.ABZ n) 2 ∧
      z ≠ (encDecode d n ((encReceive d n (b2n a + 2 * b2n b + 4 * b2n z) s).rd d ENC_STAT.ABZ n) a b ((encReceive d n (b2n a +
      2 * b2n b + 4 * b2n z) s).ptD d - ago) ((encReceive d n (b2n a + 2 * b2n b + 4 * b2n z) s).wr d ENC_STAT.ABZ (b2n a + 2 *
      b2n b + 4 * b2n z) n)).bit d ENC_CFG.ZINV n) ∧
    (∃ (s : State) (d n ago : Nat) (a b z : Bool), s.Live d ∧ n < 8 ∧
      (encReceive d n (b2n a + 2 * b2n b + 4 * b2n z) s).rd d ENC_CFG.FILT n < (encReceive d n (b2n a + 2 * b2n b + 4 * b2n z)
      s).fabSamples d ago ∧ (z = bitOf ((encReceive d n (b2n a + 2 * b2n b + 4 * b2n z) s).rd d ENC_STAT.ABZ n) 2 ∨ z =
      (encDecode d n ((encReceive d n (b2n a + 2 * b2n b + 4 * b2n z) s).rd d ENC_STAT.ABZ n) a b ((encReceive d n (b2n a + 2 *
      b2n b + 4 * b2n z) s).ptD d - ago) ((encReceive d n (b2n a + 2 * b2n b + 4 * b2n z) s).wr d ENC_STAT.ABZ (b2n a + 2 * b2n
      b + 4 * b2n z) n)).bit d ENC_CFG.ZINV n)) ∧
    (∃ (s : State) (d n : Nat) (old : _) (a : _) (b : _), s.Live d ∧ n < 8 ∧
      ((quadState a b (s.bit d ENC_CFG.INV n) + 4 - quadState (bitOf old 0) (bitOf old 1) (s.bit d ENC_CFG.INV n)) % 4) = 0) ∧
    (∃ (s : State) (d n : Nat) (old : _) (a : _) (b : _), s.Live d ∧ n < 8 ∧
      ((quadState a b (s.bit d ENC_CFG.INV n) + 4 - quadState (bitOf old 0) (bitOf old 1) (s.bit d ENC_CFG.INV n)) % 4) = 1) ∧
    (∃ (s : State) (d n : Nat) (old : _) (a : _) (b : _), s.Live d ∧ n < 8 ∧
      ((quadState a b (s.bit d ENC_CFG.INV n) + 4 - quadState (bitOf old 0) (bitOf old 1) (s.bit d ENC_CFG.INV n)) % 4) = 3) ∧
    (∃ (s : State) (d n : Nat) (old : _) (a : _) (b : _), s.Live d ∧ n < 8 ∧
      ((quadState a b (s.bit d ENC_CFG.INV n) + 4 - quadState (bitOf old 0) (bitOf old 1) (s.bit d ENC_CFG.INV n)) % 4) = 2) ∧
    (∃ (s : State) (d n : Nat), s.Live d ∧ n < 8 ∧ (s.getEnc d n).smp = none) ∧
    (∃ (s : State) (d n : Nat) (c : EncSample), s.Live d ∧ n < 8 ∧ c.held = false) ∧
    (∃ (s : State) (d n : Nat) (c : EncSample), s.Live d ∧ n < 8 ∧ c.held = true) ∧
    (∃ (s : State) (d n : Nat), s.Live d ∧ n < 8 ∧ bitOf (s.rd d ENC_STAT.ABZ n) 2 = ((!s.bit d ENC_CFG.ZINV n))) ∧
    (∃ (s : State) (d n ago : Nat), s.Live d ∧ n < 8 ∧ bitOf (s.rd d ENC_STAT.ABZ n) 2 ≠ ((!s.bit d ENC_CFG.ZINV n)) ∧
      (encReceive d n (putBit (s.getEnc d n).rx 2 ((!s.bit d ENC_CFG.ZINV n))) s).fabSamples d ago ≤ (encReceive d n (putBit
      (s.getEnc d n).rx 2 ((!s.bit d ENC_CFG.ZINV n))) s).rd d ENC_CFG.FILT n) ∧
    (∃ (s : State) (d n ago : Nat), s.Live d ∧ n < 8 ∧ bitOf (s.rd d ENC_STAT.ABZ n) 2 ≠ ((!s.bit d ENC_CFG.ZINV n)) ∧
      (encReceive d n (putBit (s.getEnc d n).rx 2 ((!s.bit d ENC_CFG.ZINV n))) s).rd d ENC_CFG.FILT n < (encReceive d n (putBit
      (s.getEnc d n).rx 2 ((!s.bit d ENC_CFG.ZINV n))) s).fabSamples d ago) ∧
    (∃ (s : State) (d n : Nat), s.Live d ∧ n < 8 ∧ s.rd d ENC_IDX.MODE n = 0) ∧
    (∃ (s : State) (d n : Nat), s.Live d ∧ n < 8 ∧ s.rd d ENC_IDX.MODE n ≠ 0) ∧
    (∃ (s : State) (d n : Nat), s.Live d ∧ n < 8 ∧
      (s.toNext (State.stepNo 4 d n) (s.encWin d n * 2500)).bit d ENC_STAT.SMODE n = false) ∧
    (∃ (s : State) (d n : Nat), s.Live d ∧ n < 8 ∧
      (s.toNext (State.stepNo 4 d n) (s.encWin d n * 2500)).bit d ENC_STAT.SMODE n = true) ∧
    (∃ (s : State) (d n : Nat) (t : _), s.Live d ∧ n < 8 ∧ (s.getEnc d n).stamp = some t) ∧
    (∃ (s : State) (d n : Nat), s.Live d ∧ n < 8 ∧ (s.getEnc d n).stamp = none) ∧
    (∃ (s : State) (d n ago : Nat) (rise : _), s.Live d ∧ n < 8 ∧
      ((s.getEnc d n).prb = rise ∨ s.fabSamples d ago ≤ s.rd d PRB_CTRL.FILT n)) ∧
    (∃ (s : State) (d n ago : Nat) (rise : _), s.Live d ∧ n < 8 ∧ (s.getEnc d n).prb ≠ rise ∧
      s.rd d PRB_CTRL.FILT n < s.fabSamples d ago ∧
      bitOf ((s.modEnc d n (fun x => { x with prb := rise })).rd d PRB_CTRL.EDGE n) (if rise = true then 0 else 1) = false) ∧
    (∃ (s : State) (d n ago : Nat) (rise : _), s.Live d ∧ n < 8 ∧ (s.getEnc d n).prb ≠ rise ∧
      s.rd d PRB_CTRL.FILT n < s.fabSamples d ago ∧
      bitOf ((s.modEnc d n (fun x => { x with prb := rise })).rd d PRB_CTRL.EDGE n) (if rise = true then 0 else 1) = true ∧
      (s.modEnc d n (fun x => { x with prb := rise })).bit d PRB_STAT.FULL n = true) ∧
    (∃ (s : State) (d : Nat) (n : Nat) (ago : Nat) (rise : Bool) (u : _) (c : _) (x : _) (r : _) (w : _), s.Live d ∧ n < 8 ∧
      (s.getEnc d n).prb ≠ rise ∧ s.rd d PRB_CTRL.FILT n < s.fabSamples d ago ∧
      u = s.modEnc d n (fun x => { x with prb := rise }) ∧ bitOf (u.rd d PRB_CTRL.EDGE n) (if rise = true then 0 else 1) = true ∧
      u.bit d PRB_STAT.FULL n = false ∧ c = encBefore u d n ∧
      x = ((u.wrI d PRB_RAW.COUNT c.raw n).wrI d PRB_REP.COUNT c.rep n).wr d PRB_PT.PT (u.ptD d - ago) n ∧
      angleAt d n (u.ptD d - ago) 0 x = (r, w)) :=
  ⟨⟨State.reset, 7, 7, 0, 0, 1, 1, by decide +kernel⟩,
  ⟨(((State.reset.wr 7 ENC_CFG.FILT 0 7).wr 7 ENC_STAT.ABZ 0 7).wr 7 ENC_CFG.ZINV 0 7), 7, 7, 0, 0, 0, 5, by decide +kernel⟩,
  ⟨((State.reset.wr 6 ENC_CFG.FILT 0 5).wr 6 ENC_STAT.ABZ 0 5), 6, 5, 9, false, false, false, by decide +kernel, by decide +kernel, by decide +kernel,
    Or.inl ((by first | rfl | decide +kernel))⟩,
  ⟨(State.reset.wr 7 ENC_CFG.INV 1 7), 7, 7, 0, 0, 0, by decide +kernel⟩,
  ⟨(State.reset.wr 6 ENC_CFG.INV 0 5), 6, 5, 9, 63, 7, by decide +kernel⟩,
  ⟨(State.reset.wr 0 ENC_CFG.INV 1 2), 0, 2, 2, 250, 0, by decide +kernel⟩,
  ⟨State.reset, 7, 7, 1, 0, 1, by decide +kernel⟩,
  ⟨State.reset, 7, 7, by decide +kernel⟩,
  ⟨State.reset, 7, 7, { k := 3 }, by decide +kernel⟩,
  ⟨State.reset, 6, 5, { k := 3, held := true }, by decide +kernel⟩,
  ⟨((State.reset.wr 7 ENC_CFG.ZINV 1 7).wr 7 ENC_STAT.ABZ 0 7), 7, 7, by decide +kernel⟩,
  ⟨State.reset, 7, 7, 0, by decide +kernel⟩,
  ⟨((State.reset.wr 7 ENC_STAT.ABZ 2 3).wr 7 ENC_CFG.FILT 0 3), 7, 3, 5000, by decide +kernel⟩,
  ⟨State.reset, 7, 7, by decide +kernel⟩,
  ⟨(State.reset.wr 7 ENC_IDX.MODE 1 7), 7, 7, by decide +kernel⟩,
  ⟨State.reset, 7, 7, by decide +kernel⟩,
  ⟨(State.reset.wr 7 ENC_STAT.SMODE 1 7), 7, 7, by decide +kernel⟩,
  ⟨(State.reset.modEnc 7 7 fun r => { r with stamp := some 5000 }), 7, 7, 5000, by decide +kernel⟩,
  ⟨State.reset, 7, 7, by decide +kernel⟩,
  ⟨(State.reset.wr 6 PRB_CTRL.FILT 3 5), 6, 5, 9, 63, by decide +kernel⟩,
  ⟨((State.reset.wr 1 PRB_CTRL.FILT 0 3).wr 1 PRB_CTRL.EDGE 0 3), 1, 3, 1, 63, by decide +kernel⟩,
  ⟨(((State.reset.wr 7 PRB_CTRL.FILT 0 5).wr 7 PRB_CTRL.EDGE 5 5).wr 7 PRB_STAT.FULL 1 5), 7, 5, 1, 63, by decide +kernel⟩,
  ⟨{ State.reset.wr 7 PRB_CTRL.EDGE 3 7 with now := 1000, pt := 1000 }, 7, 7, 100, true, _, _, _, _, _, by decide +kernel, by decide +kernel, by decide +kernel, by decide +kernel, rfl, by decide +kernel, by decide +kernel, rfl, rfl, rfl⟩⟩

theorem witness_EncoderRegistersAreWritten :
    (∃ (s : State) (d n : Nat), s.Live d ∧ n < 8 ∧ s.forwards d = false ∧ s.holds d n = true) ∧
    (∃ (s : State) (d n : Nat) (c : EncSample), s.Live d ∧ n < 8 ∧ s.forwards d = false ∧ s.holds d n = true ∧
      (s.getEnc d n).smp = some c ∧ c.k = s.fabSample d ∧ c.written = true) ∧
    (∃ (s : State) (d n : Nat), s.Live d ∧ n < 8 ∧ s.forwards d = false ∧ s.holds d n = true) :=
  ⟨⟨State.reset, 7, 7, by decide +kernel⟩,
  ⟨(State.reset.modEnc 6 5 fun r => { r with smp := some { k := State.reset.fabSample 6, written := true } }), 6, 5,
    (((((State.reset.modEnc 6 5 fun r => { r with smp := some { k := State.reset.fabSample 6, written := true } })).getEnc 6
    5).smp).get (by decide +kernel)), by decide +kernel⟩,
  ⟨State.reset, 7, 7, by decide +kernel⟩⟩

theorem witness_FilterSlotsApplyRestartAndSynchronise :
    (∃ (s : State) (d c : Nat), s.Live d ∧ c < 64 ∧ (s.getFil d c).dues = []) ∧
    (∃ (s : State) (d c : Nat) (t : _) (ts : _), s.Live d ∧ c < 64 ∧ (s.getFil d c).dues = t :: ts) ∧
    (∃ (s : State) (d c : Nat), s.Live d ∧ c < 64) ∧
    (∃ (s : State) (d c : Nat), s.Live d ∧ c < 64) ∧
    (∃ (s : State) (d c : Nat), s.Live d ∧ c < 64 ∧ s.forwards d = false ∧ ¬ strobeAt (s.rd d FIL_SYNCPT.PT) < s.pt + 2500) ∧
    (∃ (s : State) (d c : Nat), s.Live d ∧ c < 64 ∧ s.forwards d = false ∧ strobeAt (s.rd d FIL_SYNCPT.PT) < s.pt + 2500) ∧
    (∃ (s : State) (d c : Nat), s.Live d ∧ c < 64 ∧ s.getSync d = none) ∧
    (∃ (s : State) (d c : Nat) (e : _), s.Live d ∧ c < 64 ∧ s.getSync d = some e) ∧
    (∃ (s : State) (d c : Nat) (v : Word), s.Live d ∧ c < 64 ∧ s.forwards d = false ∧ hasMux c = true ∧
      (c < 48 → s.holds d (c / 6) = true) ∧
      muxTaken (bitsOf v.toNat 28 2) = muxTaken ((((s.wr d { (muxField c).1 with lo := 0, w := 16 } (bitsOf v.toNat 0 16)
      (muxField c).2.1 (muxField c).2.2).wr d { (muxField c).1 with lo := 16, w := 12 } (bitsOf v.toNat 16 12) (muxField c).2.1
      (muxField c).2.2)).rd d (muxField c).1 (muxField c).2.1 (muxField c).2.2)) ∧
    (∃ (s : State) (d c : Nat) (v : Word), s.Live d ∧ c < 64 ∧ s.forwards d = false ∧ hasMux c = true ∧
      (c < 48 → s.holds d (c / 6) = true) ∧
      muxTaken (bitsOf v.toNat 28 2) ≠ muxTaken ((((s.wr d { (muxField c).1 with lo := 0, w := 16 } (bitsOf v.toNat 0 16)
      (muxField c).2.1 (muxField c).2.2).wr d { (muxField c).1 with lo := 16, w := 12 } (bitsOf v.toNat 16 12) (muxField c).2.1
      (muxField c).2.2)).rd d (muxField c).1 (muxField c).2.1 (muxField c).2.2) ∧
      muxAllowed (((s.wr d { (muxField c).1 with lo := 0, w := 16 } (bitsOf v.toNat 0 16) (muxField c).2.1 (muxField c).2.2).wr
      d { (muxField c).1 with lo := 16, w := 12 } (bitsOf v.toNat 16 12) (muxField c).2.1 (muxField c).2.2)) d c = false) ∧
    (∃ (s : State) (d c : Nat) (v : Word), s.Live d ∧ c < 64 ∧ s.forwards d = false ∧ hasMux c = true ∧
      (c < 48 → s.holds d (c / 6) = true) ∧
      muxTaken (bitsOf v.toNat 28 2) ≠ muxTaken ((((s.wr d { (muxField c).1 with lo := 0, w := 16 } (bitsOf v.toNat 0 16)
      (muxField c).2.1 (muxField c).2.2).wr d { (muxField c).1 with lo := 16, w := 12 } (bitsOf v.toNat 16 12) (muxField c).2.1
      (muxField c).2.2)).rd d (muxField c).1 (muxField c).2.1 (muxField c).2.2) ∧
      muxAllowed (((s.wr d { (muxField c).1 with lo := 0, w := 16 } (bitsOf v.toNat 0 16) (muxField c).2.1 (muxField c).2.2).wr
      d { (muxField c).1 with lo := 16, w := 12 } (bitsOf v.toNat 16 12) (muxField c).2.1 (muxField c).2.2)) d c = true) :=
  ⟨⟨State.reset, 7, 63, by decide +kernel⟩,
  ⟨(State.reset.modFil 6 7 fun r => { r with stepAt := some 5000 }), 6, 7,
    (((((State.reset.modFil 6 7 fun r => { r with stepAt := some 5000 })).getFil 6 7).dues).head (by decide +kernel)),
    ((((State.reset.modFil 6 7 fun r => { r with stepAt := some 5000 })).getFil 6 7).dues).tail, by decide +kernel⟩,
  ⟨State.reset, 7, 63, by decide +kernel⟩,
  ⟨State.reset, 7, 63, by decide +kernel⟩,
  ⟨(State.reset.wr 6 FIL_SYNCPT.PT 1000000), 6, 7, by decide +kernel⟩,
  ⟨State.reset, 7, 63, by decide +kernel⟩,
  ⟨State.reset, 7, 63, by decide +kernel⟩,
  ⟨(State.reset.modSync 6 fun _ => some 5000), 6, 7,
    ((((State.reset.modSync 6 fun _ => some 5000)).getSync 6).get (by decide +kernel)), by decide +kernel⟩,
  ⟨State.reset, 6, 29, 0xc, by decide +kernel⟩,
  ⟨((State.reset.wr 6 LPT_CTRL.EN 1).wr 6 LPT_CTRL.SET 1), 6, 53, 0x20000000, by decide +kernel⟩,
  ⟨State.reset, 0, 9, 0x20000000, by decide +kernel⟩⟩

theorem witness_ComparatorsCrossTripAndClear :
    (∃ (s : State) (d n j : Nat) (up : Bool) (x : _), s.Live d ∧ n < 8 ∧ j < 4 ∧
      (bitOf (s.rd d (cmpOut up) n) j = true ∨ ¬ (if up = true then (((s.rd d (cmpThr up) n j : Int) - 2048) * 1000) < x else x
      < (((s.rd d (cmpThr up) n j : Int) - 2048) * 1000)))) ∧
    (∃ (s : State) (d n j : Nat) (up : Bool) (x : _), s.Live d ∧ n < 8 ∧ j < 4 ∧ bitOf (s.rd d (cmpOut up) n) j = false ∧
      (if up = true then (((s.rd d (cmpThr up) n j : Int) - 2048) * 1000) < x else x < (((s.rd d (cmpThr up) n j : Int) - 2048)
      * 1000)) ∧ s.rd d (cmpFunc up) n j = 0) ∧
    (∃ (s : State) (d n j : Nat) (up : Bool) (x : _), s.Live d ∧ n < 8 ∧ j < 4 ∧ bitOf (s.rd d (cmpOut up) n) j = false ∧
      (if up = true then (((s.rd d (cmpThr up) n j : Int) - 2048) * 1000) < x else x < (((s.rd d (cmpThr up) n j : Int) - 2048)
      * 1000)) ∧ s.rd d (cmpFunc up) n j = 1) ∧
    (∃ (s : State) (d n j : Nat) (up : Bool) (x : _), s.Live d ∧ n < 8 ∧ j < 4 ∧ bitOf (s.rd d (cmpOut up) n) j = false ∧
      (if up = true then (((s.rd d (cmpThr up) n j : Int) - 2048) * 1000) < x else x < (((s.rd d (cmpThr up) n j : Int) - 2048)
      * 1000)) ∧ s.rd d (cmpFunc up) n j = 2) ∧
    (∃ (s : State) (d n j : Nat) (up : Bool) (x : _), s.Live d ∧ n < 8 ∧ j < 4 ∧ bitOf (s.rd d (cmpOut up) n) j = false ∧
      (if up = true then (((s.rd d (cmpThr up) n j : Int) - 2048) * 1000) < x else x < (((s.rd d (cmpThr up) n j : Int) - 2048)
      * 1000)) ∧ s.rd d (cmpFunc up) n j = 3) ∧
    (∃ (s : State) (d n j : Nat) (up : Bool) (x : _), s.Live d ∧ n < 8 ∧ j < 4 ∧
      (bitOf (s.rd d (cmpOut up) n) j = false ∨ ¬ (if up = true then x < (((s.rd d (cmpThr up) n j : Int) - 2048) * 1000) -
      (cmpVh s d n j up) else (((s.rd d (cmpThr up) n j : Int) - 2048) * 1000) + (cmpVh s d n j up) < x))) ∧
    (∃ (s : State) (d n j : Nat) (up : Bool) (x : _), s.Live d ∧ n < 8 ∧ j < 4 ∧ bitOf (s.rd d (cmpOut up) n) j = true ∧
      (if up = true then x < (((s.rd d (cmpThr up) n j : Int) - 2048) * 1000) - (cmpVh s d n j up) else (((s.rd d (cmpThr up) n
      j : Int) - 2048) * 1000) + (cmpVh s d n j up) < x)) ∧
    (∃ (s : State) (d n j : Nat) (up : Bool) (k h : Nat), s.Live d ∧ n < 8 ∧ j < 4 ∧
      (s.rd d { cmpThr up with lo := 12, w := 2 } n j = k) ∧ (k = 0 ∧ h = 0 ∨ k = 1 ∧ h = 4096 ∨ k = 2 ∧ h = 8192 ∨ k = 3 ∧
      h = 16384)) ∧
    (∃ (s : State) (d n j : Nat), s.Live d ∧ n < 8 ∧ j < 4 ∧ s.forwards d = false ∧ s.holds d n = true) :=
  ⟨⟨((State.reset.wr 6 (cmpOut false) 1 5).wr 6 (cmpThr false) 0 5 0), 6, 5, 0, false, 15, by decide +kernel⟩,
  ⟨State.reset, 7, 7, 3, true, 1, by decide +kernel⟩,
  ⟨(State.reset.wr 7 (cmpFunc true) 1 7 3), 7, 7, 3, true, 1, by decide +kernel⟩,
  ⟨(State.reset.wr 7 (cmpFunc true) 2 7 3), 7, 7, 3, true, 1, by decide +kernel⟩,
  ⟨(State.reset.wr 7 (cmpFunc true) 3 7 3), 7, 7, 3, true, 1, by decide +kernel⟩,
  ⟨State.reset, 7, 7, 3, true, 1, by decide +kernel⟩,
  ⟨((State.reset.wr 6 (cmpOut false) 1 5).wr 6 (cmpThr false) 0 5 0), 6, 5, 0, false, 15, by decide +kernel⟩,
  ⟨(State.reset.wr 7 { cmpThr true with lo := 12, w := 2 } 1 0 3), 7, 0, 3, true, 1, 4096, by decide +kernel⟩,
  ⟨State.reset, 7, 7, 3, by decide +kernel⟩⟩

theorem witness_DetectorsCloseAndTheLinePhaseIsTracked :
    (∃ (s : State) (d : Nat) (i : _), s.Live d ∧ i < 16 ∧ (s.rd d DET_CFG.KIND i = 1 ∨ s.rd d DET_CFG.KIND i = 2) ∧
      s.detDue d i = true ∧ s.bit d DET_STAT.SHED i = false) ∧
    (∃ (s : State) (d : Nat) (i : _), s.Live d ∧ i < 16 ∧ ((s.rd d DET_CFG.KIND i ≠ 1 ∧
      s.rd d DET_CFG.KIND i ≠ 2) ∨ s.detDue d i = false ∨ s.bit d DET_STAT.SHED i = true)) ∧
    (∃ (s : State) (d : Nat) (i : _), s.Live d ∧ i < 16 ∧ s.bit d DET_CFG.WMODE i = false) ∧
    (∃ (s : State) (d : Nat) (i : _), s.Live d ∧ i < 16 ∧ s.bit d DET_CFG.WMODE i = true) ∧
    (∃ (s : State) (d : Nat) (i : _), s.Live d ∧ i < 16) ∧
    (∃ (s : State) (d : Nat) (i : _) (r : _), s.Live d ∧ i < 16 ∧ s.forwards d = false ∧ r ≠ 0) ∧
    (∃ (s : State) (d : Nat) (i : _), s.Live d ∧ i < 16 ∧ s.forwards d = false) ∧
    (∃ (s : State) (d : Nat), s.Live d ∧ ((s.toNext (State.stepNo 3 d 0) 25000).bit d LPT_CTRL.EN = false ∨ ((s.toNext
      (State.stepNo 3 d 0) 25000).getLpt d).n = 0)) ∧
    (∃ (s : State) (d : Nat), s.Live d ∧ (s.toNext (State.stepNo 3 d 0) 25000).bit d LPT_CTRL.EN = true ∧
      ((s.toNext (State.stepNo 3 d 0) 25000).getLpt d).n ≠ 0) ∧
    (∃ (s : State) (d : Nat) (t : _), s.Live d ∧ (s.getLpt d).okAt = some t ∧ s.bit d LPT_CTRL.EN = true) ∧
    (∃ (s : State) (d : Nat), s.Live d ∧ ((s.getLpt d).okAt = none ∨ s.bit d LPT_CTRL.EN = false)) ∧
    (∃ (s : State) (d : Nat), s.Live d ∧ ((((s.getLpt d).lowAt.map (fun t => t + 2500000)).toList ++ ((s.getLpt d).vqAt.map
      (fun t => t + 12500000)).toList ++ ((s.getLpt d).clAt.map (fun t => t + 50000000)).toList) = [] ∨ s.bit d LPT_STAT.LOCK =
      false)) ∧
    (∃ (s : State) (d : Nat) (t : _) (ts : _), s.Live d ∧
      (((s.getLpt d).lowAt.map (fun t => t + 2500000)).toList ++ ((s.getLpt d).vqAt.map (fun t => t + 12500000)).toList ++
      ((s.getLpt d).clAt.map (fun t => t + 50000000)).toList) = t :: ts ∧ s.bit d LPT_STAT.LOCK = true) ∧
    (∃ (s : State) (d : Nat) (v : Word), s.Live d ∧ s.forwards d = false ∧ bitOf v.toNat 0 = true ∧
      ((s.bit d LPT_CTRL.EN = false ∨ (((((((s.wr d LPT_CTRL.EN (bitsOf v.toNat 0 1)).wr d LPT_CTRL.SET (bitsOf v.toNat 1
      1)).wr d LPT_CTRL.CONN (bitsOf v.toNat 2 1)).wr d LPT_CTRL.NOM (bitsOf v.toNat 3 1)).wr d LPT_CTRL.BW (bitsOf v.toNat 4
      2)).wr d LPT_CTRL.ALO (bitsOf v.toNat 16 16))).rd d LPT_CTRL.SET ≠ s.rd d LPT_CTRL.SET ∨ (((((((s.wr d LPT_CTRL.EN
      (bitsOf v.toNat 0 1)).wr d LPT_CTRL.SET (bitsOf v.toNat 1 1)).wr d LPT_CTRL.CONN (bitsOf v.toNat 2 1)).wr d LPT_CTRL.NOM
      (bitsOf v.toNat 3 1)).wr d LPT_CTRL.BW (bitsOf v.toNat 4 2)).wr d LPT_CTRL.ALO (bitsOf v.toNat 16 16))).rd d
      LPT_CTRL.CONN ≠ s.rd d LPT_CTRL.CONN ∨ (((((((s.wr d LPT_CTRL.EN (bitsOf v.toNat 0 1)).wr d LPT_CTRL.SET (bitsOf v.toNat
      1 1)).wr d LPT_CTRL.CONN (bitsOf v.toNat 2 1)).wr d LPT_CTRL.NOM (bitsOf v.toNat 3 1)).wr d LPT_CTRL.BW (bitsOf v.toNat 4
      2)).wr d LPT_CTRL.ALO (bitsOf v.toNat 16 16))).rd d LPT_CTRL.NOM ≠ s.rd d LPT_CTRL.NOM))) ∧
    (∃ (s : State) (d : Nat) (v : Word), s.Live d ∧ s.forwards d = false ∧
      (bitOf v.toNat 0 = false ∨ (s.bit d LPT_CTRL.EN = true ∧
      (((((((s.wr d LPT_CTRL.EN (bitsOf v.toNat 0 1)).wr d LPT_CTRL.SET (bitsOf v.toNat 1 1)).wr d LPT_CTRL.CONN (bitsOf
      v.toNat 2 1)).wr d LPT_CTRL.NOM (bitsOf v.toNat 3 1)).wr d LPT_CTRL.BW (bitsOf v.toNat 4 2)).wr d LPT_CTRL.ALO (bitsOf
      v.toNat 16 16))).rd d LPT_CTRL.SET = s.rd d LPT_CTRL.SET ∧
      (((((((s.wr d LPT_CTRL.EN (bitsOf v.toNat 0 1)).wr d LPT_CTRL.SET (bitsOf v.toNat 1 1)).wr d LPT_CTRL.CONN (bitsOf
      v.toNat 2 1)).wr d LPT_CTRL.NOM (bitsOf v.toNat 3 1)).wr d LPT_CTRL.BW (bitsOf v.toNat 4 2)).wr d LPT_CTRL.ALO (bitsOf
      v.toNat 16 16))).rd d LPT_CTRL.CONN = s.rd d LPT_CTRL.CONN ∧
      (((((((s.wr d LPT_CTRL.EN (bitsOf v.toNat 0 1)).wr d LPT_CTRL.SET (bitsOf v.toNat 1 1)).wr d LPT_CTRL.CONN (bitsOf
      v.toNat 2 1)).wr d LPT_CTRL.NOM (bitsOf v.toNat 3 1)).wr d LPT_CTRL.BW (bitsOf v.toNat 4 2)).wr d LPT_CTRL.ALO (bitsOf
      v.toNat 16 16))).rd d LPT_CTRL.NOM = s.rd d LPT_CTRL.NOM))) :=
  ⟨⟨((State.reset.modDet 6 2 fun r => { r with n := 65536 }).wr 6 DET_CFG.KIND 1 2), 6, 2, by decide +kernel, by decide +kernel,
    Or.inl ((by decide +kernel)), by decide +kernel⟩,
  ⟨State.reset, 7, 15, by decide +kernel⟩,
  ⟨State.reset, 7, 15, by decide +kernel⟩,
  ⟨(State.reset.wr 7 DET_CFG.WMODE 1 15), 7, 15, by decide +kernel⟩,
  ⟨State.reset, 7, 15, by decide +kernel⟩,
  ⟨State.reset, 7, 15, 1, by decide +kernel⟩,
  ⟨State.reset, 7, 15, by decide +kernel⟩,
  ⟨State.reset, 7, by decide +kernel⟩,
  ⟨((State.reset.wr 7 LPT_CTRL.EN 1).modLpt 7 fun r => { r with n := 1 }), 7, by decide +kernel⟩,
  ⟨((State.reset.modLpt 7 fun r => { r with okAt := some 5000 }).wr 7 LPT_CTRL.EN 1), 7, 5000, by decide +kernel⟩,
  ⟨(State.reset.wr 6 LPT_CTRL.EN 1), 6, by decide +kernel⟩,
  ⟨State.reset, 7, by decide +kernel⟩,
  ⟨(((State.reset.modLpt 7 fun r => { r with lowAt := some 5000 }).wr 7 LPT_STAT.LOCK 1).wr 7 LPT_STAT.LOCK 1), 7, 2505000, [], by decide +kernel⟩,
  ⟨State.reset, 7, 0x1, by decide +kernel⟩,
  ⟨State.reset, 7, 0x0, by decide +kernel⟩⟩

theorem witness_PwmPeriodsUpdatesAndLegs :
    (∃ (s : State) (d n j : Nat), s.Live d ∧ n < 8 ∧ j < 3 ∧ s.bit d PWM_CTRL.EN n = true) ∧
    (∃ (s : State) (d n j : Nat), s.Live d ∧ n < 8 ∧ j < 3 ∧ s.bit d PWM_CTRL.EN n = false) ∧
    (∃ (s : State) (d n j : Nat), s.Live d ∧ n < 8 ∧ j < 3 ∧
      (((if ((s.settleAxis d n : State).modPwm d n (fun r =>
      { r with start := (s.settleAxis d n : State).now8, dt := (s.settleAxis d n : State).rd d PWM_DT.DT n, minp := (s.settleAxis d n : State).rd d PWM_DT.MINP n }) : State).rd d PWM_CTRL.UPD n = 0 ∨ ((s.settleAxis d n : State).modPwm d n (fun r => { r with start := (s.settleAxis d n : State).now8, dt := (s.settleAxis d n : State).rd d PWM_DT.DT n, minp := (s.settleAxis d n : State).rd d PWM_DT.MINP n }) : State).rd d PWM_CTRL.UPD n = 2 then ((s.settleAxis d n : State).modPwm d n (fun r => { r with start := (s.settleAxis d n : State).now8, dt := (s.settleAxis d n : State).rd d PWM_DT.DT n, minp := (s.settleAxis d n : State).rd d PWM_DT.MINP n }) : State).eachLeg d n fun k l => { l with duty := ((s.settleAxis d n : State).modPwm d n (fun r => { r with start := (s.settleAxis d n : State).now8, dt := (s.settleAxis d n : State).rd d PWM_DT.DT n, minp := (s.settleAxis d n : State).rd d PWM_DT.MINP n }) : State).shadowDuty d n k } else ((s.settleAxis d n : State).modPwm d n (fun r => { r with start := (s.settleAxis d n : State).now8, dt := (s.settleAxis d n : State).rd d PWM_DT.DT n, minp := (s.settleAxis d n : State).rd d PWM_DT.MINP n }) : State)) : State).bit d PWM_CTRL.SAFE n = true ∨ ((if ((s.settleAxis d n : State).modPwm d n (fun r => { r with start := (s.settleAxis d n : State).now8, dt := (s.settleAxis d n : State).rd d PWM_DT.DT n, minp := (s.settleAxis d n : State).rd d PWM_DT.MINP n }) : State).rd d PWM_CTRL.UPD n = 0 ∨ ((s.settleAxis d n : State).modPwm d n (fun r => { r with start := (s.settleAxis d n : State).now8, dt := (s.settleAxis d n : State).rd d PWM_DT.DT n, minp := (s.settleAxis d n : State).rd d PWM_DT.MINP n }) : State).rd d PWM_CTRL.UPD n = 2 then ((s.settleAxis d n : State).modPwm d n (fun r => { r with start := (s.settleAxis d n : State).now8, dt := (s.settleAxis d n : State).rd d PWM_DT.DT n, minp := (s.settleAxis d n : State).rd d PWM_DT.MINP n }) : State).eachLeg d n fun k l => { l with duty := ((s.settleAxis d n : State).modPwm d n (fun r => { r with start := (s.settleAxis d n : State).now8, dt := (s.settleAxis d n : State).rd d PWM_DT.DT n, minp := (s.settleAxis d n : State).rd d PWM_DT.MINP n }) : State).shadowDuty d n k } else ((s.settleAxis d n : State).modPwm d n (fun r => { r with start := (s.settleAxis d n : State).now8, dt := (s.settleAxis d n : State).rd d PWM_DT.DT n, minp := (s.settleAxis d n : State).rd d PWM_DT.MINP n }) : State)) : State).bit d PWM_CTRL.MODE n = true)) ∧
    (∃ (s : State) (d n j : Nat), s.Live d ∧ n < 8 ∧ j < 3 ∧
      (((if ((s.settleAxis d n : State).modPwm d n (fun r =>
      { r with start := (s.settleAxis d n : State).now8, dt := (s.settleAxis d n : State).rd d PWM_DT.DT n, minp := (s.settleAxis d n : State).rd d PWM_DT.MINP n }) : State).rd d PWM_CTRL.UPD n = 0 ∨ ((s.settleAxis d n : State).modPwm d n (fun r => { r with start := (s.settleAxis d n : State).now8, dt := (s.settleAxis d n : State).rd d PWM_DT.DT n, minp := (s.settleAxis d n : State).rd d PWM_DT.MINP n }) : State).rd d PWM_CTRL.UPD n = 2 then ((s.settleAxis d n : State).modPwm d n (fun r => { r with start := (s.settleAxis d n : State).now8, dt := (s.settleAxis d n : State).rd d PWM_DT.DT n, minp := (s.settleAxis d n : State).rd d PWM_DT.MINP n }) : State).eachLeg d n fun k l => { l with duty := ((s.settleAxis d n : State).modPwm d n (fun r => { r with start := (s.settleAxis d n : State).now8, dt := (s.settleAxis d n : State).rd d PWM_DT.DT n, minp := (s.settleAxis d n : State).rd d PWM_DT.MINP n }) : State).shadowDuty d n k } else ((s.settleAxis d n : State).modPwm d n (fun r => { r with start := (s.settleAxis d n : State).now8, dt := (s.settleAxis d n : State).rd d PWM_DT.DT n, minp := (s.settleAxis d n : State).rd d PWM_DT.MINP n }) : State)) : State).bit d PWM_CTRL.SAFE n = false) ∧ (((if ((s.settleAxis d n : State).modPwm d n (fun r => { r with start := (s.settleAxis d n : State).now8, dt := (s.settleAxis d n : State).rd d PWM_DT.DT n, minp := (s.settleAxis d n : State).rd d PWM_DT.MINP n }) : State).rd d PWM_CTRL.UPD n = 0 ∨ ((s.settleAxis d n : State).modPwm d n (fun r => { r with start := (s.settleAxis d n : State).now8, dt := (s.settleAxis d n : State).rd d PWM_DT.DT n, minp := (s.settleAxis d n : State).rd d PWM_DT.MINP n }) : State).rd d PWM_CTRL.UPD n = 2 then ((s.settleAxis d n : State).modPwm d n (fun r => { r with start := (s.settleAxis d n : State).now8, dt := (s.settleAxis d n : State).rd d PWM_DT.DT n, minp := (s.settleAxis d n : State).rd d PWM_DT.MINP n }) : State).eachLeg d n fun k l => { l with duty := ((s.settleAxis d n : State).modPwm d n (fun r => { r with start := (s.settleAxis d n : State).now8, dt := (s.settleAxis d n : State).rd d PWM_DT.DT n, minp := (s.settleAxis d n : State).rd d PWM_DT.MINP n }) : State).shadowDuty d n k } else ((s.settleAxis d n : State).modPwm d n (fun r => { r with start := (s.settleAxis d n : State).now8, dt := (s.settleAxis d n : State).rd d PWM_DT.DT n, minp := (s.settleAxis d n : State).rd d PWM_DT.MINP n }) : State)) : State).bit d PWM_CTRL.MODE n = false)) ∧
    (∃ (s : State) (d n j : Nat), s.Live d ∧ n < 8 ∧ j < 3 ∧ s.bit d PWM_CTRL.EN n = true ∧
      (s.rd d PWM_CTRL.UPD n = 1 ∨ s.rd d PWM_CTRL.UPD n = 2)) ∧
    (∃ (s : State) (d n j : Nat), s.Live d ∧ n < 8 ∧ j < 3 ∧ (s.bit d PWM_CTRL.EN n = false ∨ (s.rd d PWM_CTRL.UPD n ≠ 1 ∧
      s.rd d PWM_CTRL.UPD n ≠ 2))) ∧
    (∃ (s : State) (d n j : Nat) (v : Word), s.Live d ∧ n < 8 ∧ j < 3 ∧ s.forwards d = false ∧ s.holds d n = true ∧
      (((s.dutiesArrive d n).wr d PWM_DUTY.DUTY (min (v.toNat % 2 ^ 17) 65536) n j).rd d PWM_CTRL.UPD n ≠ 3 ∨ ((s.dutiesArrive
      d n).wr d PWM_DUTY.DUTY (min (v.toNat % 2 ^ 17) 65536) n j).bit d PWM_CTRL.RUNNING n = false)) ∧
    (∃ (s : State) (d n j : Nat) (v : Word), s.Live d ∧ n < 8 ∧ j < 3 ∧ s.forwards d = false ∧ s.holds d n = true ∧
      ((s.dutiesArrive d n).wr d PWM_DUTY.DUTY (min (v.toNat % 2 ^ 17) 65536) n j).rd d PWM_CTRL.UPD n = 3 ∧
      ((s.dutiesArrive d n).wr d PWM_DUTY.DUTY (min (v.toNat % 2 ^ 17) 65536) n j).bit d PWM_CTRL.RUNNING n = true) ∧
    (∃ (s : State) (d n j : Nat) (p : _), s.Live d ∧ n < 8 ∧ j < 3 ∧ ((s.settleAxis d n).getLeg d n j).pend = some p) ∧
    (∃ (s : State) (d n j : Nat), s.Live d ∧ n < 8 ∧ j < 3 ∧ ((s.settleAxis d n).getLeg d n j).pend = none) ∧
    (∃ (s : State) (d n j : Nat), s.Live d ∧ n < 8 ∧ j < 3 ∧ ((s.settleAxis d n).getLeg d n j).wait = none) ∧
    (∃ (s : State) (d n j : Nat) (w : _), s.Live d ∧ n < 8 ∧ j < 3 ∧ ((s.settleAxis d n).getLeg d n j).wait = some w ∧
      (((s.settleAxis d n).pass (((((s.settleAxis d n).getLeg d n j).onAt + 8 * ((s.settleAxis d n).getPwm d n).minp + 7) / 8)
      - (s.settleAxis d n).now)).toGrid 250).strobed = false) ∧
    (∃ (s : State) (d n j : Nat) (w : Bool), s.Live d ∧ n < 8 ∧ j < 3 ∧ ((s.settleAxis d n).getLeg d n j).wait = some w ∧
      (((s.settleAxis d n).pass (((((s.settleAxis d n).getLeg d n j).onAt + 8 * ((s.settleAxis d n).getPwm d n).minp + 7) / 8)
      - (s.settleAxis d n).now)).toGrid 250).strobed = true ∧
      ((((s.settleAxis d n).pass (((((s.settleAxis d n).getLeg d n j).onAt + 8 * ((s.settleAxis d n).getPwm d n).minp + 7) / 8)
      - (s.settleAxis d n).now)).toGrid 250).modLeg d n j (fun l => if (l.wait.isSome && l.pend.isNone && decide (l.onAt + 8 *
      ((((s.settleAxis d n).pass (((((s.settleAxis d n).getLeg d n j).onAt + 8 * ((s.settleAxis d n).getPwm d n).minp + 7) / 8)
      - (s.settleAxis d n).now)).toGrid 250).getPwm d n).minp ≤ (((s.settleAxis d n).pass (((((s.settleAxis d n).getLeg d n
      j).onAt + 8 * ((s.settleAxis d n).getPwm d n).minp + 7) / 8) - (s.settleAxis d n).now)).toGrid 250).now8)) = true then
      { l with wait := none } else l)).bandActs d n = true ∧
      exactDemand ((((s.settleAxis d n).pass (((((s.settleAxis d n).getLeg d n j).onAt + 8 * ((s.settleAxis d n).getPwm d
      n).minp + 7) / 8) - (s.settleAxis d n).now)).toGrid 250).modLeg d n j (fun l => if (l.wait.isSome && l.pend.isNone &&
      decide (l.onAt + 8 * ((((s.settleAxis d n).pass (((((s.settleAxis d n).getLeg d n j).onAt + 8 * ((s.settleAxis d
      n).getPwm d n).minp + 7) / 8) - (s.settleAxis d n).now)).toGrid 250).getPwm d n).minp ≤ (((s.settleAxis d n).pass
      (((((s.settleAxis d n).getLeg d n j).onAt + 8 * ((s.settleAxis d n).getPwm d n).minp + 7) / 8) - (s.settleAxis d
      n).now)).toGrid 250).now8)) = true then { l with wait := none } else l)) d n j = some w) ∧
    (∃ (s : State) (d n j : Nat) (w : Bool), s.Live d ∧ n < 8 ∧ j < 3 ∧ ((s.settleAxis d n).getLeg d n j).wait = some w ∧
      (((s.settleAxis d n).pass (((((s.settleAxis d n).getLeg d n j).onAt + 8 * ((s.settleAxis d n).getPwm d n).minp + 7) / 8)
      - (s.settleAxis d n).now)).toGrid 250).strobed = true ∧
      (((((s.settleAxis d n).pass (((((s.settleAxis d n).getLeg d n j).onAt + 8 * ((s.settleAxis d n).getPwm d n).minp + 7) /
      8) - (s.settleAxis d n).now)).toGrid 250).modLeg d n j (fun l => if (l.wait.isSome && l.pend.isNone && decide (l.onAt + 8
      * ((((s.settleAxis d n).pass (((((s.settleAxis d n).getLeg d n j).onAt + 8 * ((s.settleAxis d n).getPwm d n).minp + 7) /
      8) - (s.settleAxis d n).now)).toGrid 250).getPwm d n).minp ≤ (((s.settleAxis d n).pass (((((s.settleAxis d n).getLeg d n
      j).onAt + 8 * ((s.settleAxis d n).getPwm d n).minp + 7) / 8) - (s.settleAxis d n).now)).toGrid 250).now8)) = true then
      { l with wait := none } else l)).bandActs d n = false ∨ exactDemand ((((s.settleAxis d n).pass (((((s.settleAxis d
      n).getLeg d n j).onAt + 8 * ((s.settleAxis d n).getPwm d n).minp + 7) / 8) - (s.settleAxis d n).now)).toGrid 250).modLeg
      d n j (fun l => if (l.wait.isSome && l.pend.isNone && decide (l.onAt + 8 * ((((s.settleAxis d n).pass (((((s.settleAxis d
      n).getLeg d n j).onAt + 8 * ((s.settleAxis d n).getPwm d n).minp + 7) / 8) - (s.settleAxis d n).now)).toGrid 250).getPwm
      d n).minp ≤ (((s.settleAxis d n).pass (((((s.settleAxis d n).getLeg d n j).onAt + 8 * ((s.settleAxis d n).getPwm d
      n).minp + 7) / 8) - (s.settleAxis d n).now)).toGrid 250).now8)) = true then { l with wait := none } else l)) d n j ≠ some
      w)) ∧
    (∃ (s : State) (d n j : Nat) (w : _), s.Live d ∧ n < 8 ∧ j < 3 ∧ (s.getLeg d n j).st = w) ∧
    (∃ (s : State) (d n j : Nat) (w : _), s.Live d ∧ n < 8 ∧ j < 3 ∧ (s.getLeg d n j).st ≠ w ∧
      (((s.getLeg d n j).pend ≠ none ∨ s.now8 < (s.getLeg d n j).onAt + 8 * (s.getPwm d n).minp))) ∧
    (∃ (s : State) (d n j : Nat) (w : Bool), s.Live d ∧ n < 8 ∧ j < 3 ∧ (s.getLeg d n j).st ≠ w ∧ (s.getLeg d n j).pend = none ∧
      (s.getLeg d n j).onAt + 8 * (s.getPwm d n).minp ≤ s.now8) ∧
    (∃ (s : State) (d n j : Nat), s.Live d ∧ n < 8 ∧ j < 3 ∧ 8 ≤ (s.getLeg d n j).lockRun) ∧
    (∃ (s : State) (d n j : Nat), s.Live d ∧ n < 8 ∧ j < 3 ∧ (s.getLeg d n j).lockRun < 8) ∧
    (∃ (s : State) (d n j : Nat), s.Live d ∧ n < 8 ∧ j < 3 ∧ 16 ≤ (s.getLeg d n j).limRun ∧ s.bit d BND_FMEAS.HBLIM n j = false) ∧
    (∃ (s : State) (d n j : Nat), s.Live d ∧ n < 8 ∧ j < 3 ∧
      ((s.getLeg d n j).limRun < 16 ∨ s.bit d BND_FMEAS.HBLIM n j = true)) :=
  ⟨⟨(State.reset.wr 7 PWM_CTRL.EN 1 7), 7, 7, 2, by decide +kernel⟩,
  ⟨State.reset, 7, 7, 2, by decide +kernel⟩,
  ⟨State.reset, 7, 7, 2, by decide +kernel⟩,
  ⟨((((State.reset.wr 7 PWM_CTRL.SAFE 0 7).wr 7 PWM_DT.DT 0 7).wr 7 PWM_DT.MINP 0 7).wr 7 PWM_CTRL.UPD 5 7), 7, 7, 2, by decide +kernel⟩,
  ⟨((State.reset.wr 7 PWM_CTRL.EN 1 7).wr 7 PWM_CTRL.UPD 1 7), 7, 7, 2, by decide +kernel⟩,
  ⟨State.reset, 7, 7, 2, by decide +kernel⟩,
  ⟨State.reset, 7, 7, 2, 0x0, by decide +kernel⟩,
  ⟨((State.reset.wr 7 PWM_CTRL.UPD 3 7).wr 7 PWM_CTRL.RUNNING 1 7), 7, 7, 2, 0x0, by decide +kernel⟩,
  ⟨(State.reset.modLeg 7 7 2 fun r => { r with pend := some 1 }), 7, 7, 2, 1, by decide +kernel⟩,
  ⟨State.reset, 7, 7, 2, by decide +kernel⟩,
  ⟨State.reset, 7, 7, 2, by decide +kernel⟩,
  ⟨(State.reset.modLeg 7 7 2 fun r => { r with wait := some 1 }), 7, 7, 2, 1, by decide +kernel⟩,
  ⟨((((({ (((((((State.reset.wr 7 PWM_CTRL.MODE 1 7).modLeg 7 7 2 fun r => { r with wait := some true }).wr 7 PWM_CTRL.SAFE 0 7).wr 7 PAIR_STAT.ROLE 1).modConv 7 44 fun r => { r with y := 32767 }).modConv 7 45 fun r => { r with y := 32767 }).modConv 7 46 fun r => { r with y := 32767 }) with lastAt := State.reset.lastAt.set 0 251 0 } : State).toGrid 250).wr 7 PWM_CTRL.SAFE 0 7).wr 7 BND_CTRL.POL 7 7).wr 7 GLB_PHASE.PHASE 5), 7, 7, 2, (((((((((({ (((((((State.reset.wr 7 PWM_CTRL.MODE 1 7).modLeg 7 7 2 fun r => { r with wait := some true }).wr 7 PWM_CTRL.SAFE 0 7).wr 7 PAIR_STAT.ROLE 1).modConv 7 44 fun r => { r with y := 32767 }).modConv 7 45 fun r => { r with y := 32767 }).modConv 7 46 fun r => { r with y := 32767 }) with lastAt := State.reset.lastAt.set 0 251 0 } : State).toGrid 250).wr 7 PWM_CTRL.SAFE 0 7).wr 7 BND_CTRL.POL 7 7).wr 7 GLB_PHASE.PHASE 5)).settleAxis 7 7).getLeg 7 7 2).wait).get (by decide +kernel)), by decide +kernel⟩,
  ⟨((({ (((((((State.reset.wr 7 PWM_CTRL.MODE 1 7).modLeg 7 7 2 fun r => { r with wait := some true }).wr 7 PWM_CTRL.SAFE 0 7).wr 7 PAIR_STAT.ROLE 1).modConv 7 44 fun r => { r with y := 32767 }).modConv 7 45 fun r => { r with y := 32767 }).modConv 7 46 fun r => { r with y := 32767 }) with lastAt := State.reset.lastAt.set 0 251 0 } : State).toGrid 250).wr 7 PWM_CTRL.SAFE 0 7), 7, 7, 2, (((((((({ (((((((State.reset.wr 7 PWM_CTRL.MODE 1 7).modLeg 7 7 2 fun r => { r with wait := some true }).wr 7 PWM_CTRL.SAFE 0 7).wr 7 PAIR_STAT.ROLE 1).modConv 7 44 fun r => { r with y := 32767 }).modConv 7 45 fun r => { r with y := 32767 }).modConv 7 46 fun r => { r with y := 32767 }) with lastAt := State.reset.lastAt.set 0 251 0 } : State).toGrid 250).wr 7 PWM_CTRL.SAFE 0 7)).settleAxis 7 7).getLeg 7 7 2).wait).get (by decide +kernel)), by decide +kernel⟩,
  ⟨(State.reset.modLeg 7 7 2 fun r => { r with st := 1 }), 7, 7, 2, 1, by decide +kernel⟩,
  ⟨State.reset, 7, 7, 2, 1, by decide +kernel⟩,
  ⟨(({ ((State.reset.modLeg 0 2 1 fun r => { r with wait := some true }).modLeg 0 2 1 fun r => { r with pend := none }) with now := 100000, pt := 100000 }).modLeg 0 2 1 fun r => { r with st := true }), 0, 2, 1, false, by decide +kernel⟩,
  ⟨(State.reset.modLeg 7 7 2 fun r => { r with lockRun := 8 }), 7, 7, 2, by decide +kernel⟩,
  ⟨State.reset, 7, 7, 2, by decide +kernel⟩,
  ⟨(State.reset.modLeg 7 7 2 fun r => { r with limRun := 16 }), 7, 7, 2, by decide +kernel⟩,
  ⟨State.reset, 7, 7, 2, by decide +kernel⟩⟩

theorem witness_PwmSafeStateIsLeftAndControlIsWritten :
    (∃ (s : State) (d n : Nat), s.Live d ∧ n < 8 ∧ ((s.refreshAxis d n).getPwm d n).exiting = false) ∧
    (∃ (s : State) (d n : Nat), s.Live d ∧ n < 8 ∧ ((s.refreshAxis d n).getPwm d n).exiting = true ∧
      (s.refreshAxis d n).bit d PWM_CTRL.MODE n = false) ∧
    (∃ (s : State) (d n : Nat), s.Live d ∧ n < 8 ∧ ((s.refreshAxis d n).getPwm d n).exiting = true ∧
      (s.refreshAxis d n).bit d PWM_CTRL.MODE n = true ∧ ((s.refreshAxis d n).toGrid 250).strobed = false) ∧
    (∃ (s : State) (d n : Nat), s.Live d ∧ n < 8 ∧ ((s.refreshAxis d n).getPwm d n).exiting = true ∧
      (s.refreshAxis d n).bit d PWM_CTRL.MODE n = true ∧ ((s.refreshAxis d n).toGrid 250).strobed = true) ∧
    (∃ (s : State) (d n : Nat) (v : Word), s.Live d ∧ n < 8 ∧ s.forwards d = false ∧ s.holds d n = true ∧
      unsafeSetting (bitsOf v.toNat 0 12) (bitsOf v.toNat 16 6) = true) ∧
    (∃ (s : State) (d n : Nat) (v : Word), s.Live d ∧ n < 8 ∧ s.forwards d = false ∧ s.holds d n = true ∧
      unsafeSetting (bitsOf v.toNat 0 12) (bitsOf v.toNat 16 6) = false ∧
      (((((s.settleAxis d n).holdBalls (d / 2)).wr d PWM_SAFE.LVL (bitsOf v.toNat 0 12) n).wr d PWM_SAFE.ACTLOW (bitsOf v.toNat
      16 6) n)).bit d PWM_CTRL.SAFE n = true) ∧
    (∃ (s : State) (d n : Nat) (v : Word), s.Live d ∧ n < 8 ∧ s.forwards d = false ∧ s.holds d n = true ∧
      unsafeSetting (bitsOf v.toNat 0 12) (bitsOf v.toNat 16 6) = false ∧
      (((((s.settleAxis d n).holdBalls (d / 2)).wr d PWM_SAFE.LVL (bitsOf v.toNat 0 12) n).wr d PWM_SAFE.ACTLOW (bitsOf v.toNat
      16 6) n)).bit d PWM_CTRL.SAFE n = false) ∧
    (∃ (s : State) (d n : Nat) (v : Word), s.Live d ∧ n < 8 ∧ s.forwards d = false ∧ s.holds d n = true ∧
      s.bit d PWM_CTRL.EN n = true ∧ (s.rd d PWM_CTRL.MODE n ≠ bitsOf v.toNat 1 1 ∨ s.rd d PWM_CTRL.ALIGN n ≠ bitsOf v.toNat 2
      1 ∨ s.rd d PWM_CTRL.UPD n ≠ bitsOf v.toNat 4 2)) ∧
    (∃ (s : State) (d n : Nat) (v : Word), s.Live d ∧ n < 8 ∧ s.forwards d = false ∧ s.holds d n = true ∧
      ((s.bit d PWM_CTRL.EN n = false ∨ (s.rd d PWM_CTRL.MODE n = bitsOf v.toNat 1 1 ∧
      s.rd d PWM_CTRL.ALIGN n = bitsOf v.toNat 2 1 ∧ s.rd d PWM_CTRL.UPD n = bitsOf v.toNat 4 2))) ∧ bitOf v.toNat 0 = true ∧
      s.bit d PWM_CTRL.EN n = false) ∧
    (∃ (s : State) (d n : Nat) (v : Word), s.Live d ∧ n < 8 ∧ s.forwards d = false ∧ s.holds d n = true ∧
      ((s.bit d PWM_CTRL.EN n = false ∨ (s.rd d PWM_CTRL.MODE n = bitsOf v.toNat 1 1 ∧
      s.rd d PWM_CTRL.ALIGN n = bitsOf v.toNat 2 1 ∧ s.rd d PWM_CTRL.UPD n = bitsOf v.toNat 4 2))) ∧
      (bitOf v.toNat 0 = false ∨ s.bit d PWM_CTRL.EN n = true)) :=
  ⟨⟨State.reset, 7, 7, by decide +kernel⟩,
  ⟨((((State.reset.wr 6 PWM_CTRL.EN 1 5).wr 6 GLB_PHASE.FULL 255).wr 6 PWM_CTRL.SAFE 1 5).wr 6 GLB_PHASE.PHASE 5), 6, 5, by decide +kernel⟩,
  ⟨(((((State.reset.wr 6 PWM_CTRL.EN 1 5).wr 6 GLB_PHASE.FULL 255).wr 6 PWM_CTRL.SAFE 1 5).wr 6 GLB_PHASE.PHASE 5).wr 6
    PWM_CTRL.MODE 1 5), 6, 5, by decide +kernel⟩,
  ⟨({ ({ (((((((((State.reset.wr 0 PWM_CTRL.EN 1 1).wr 0 GLB_PHASE.FULL 255).wr 0 PWM_CTRL.SAFE 1 1).wr 0 GLB_PHASE.PHASE 5).modPwm 0 1 fun r => { r with exiting := false }).wr 0 PWM_CTRL.MODE 1 1).toGrid 250).wr 0 PAIR_STAT.ROLE 1).wr 0 PWM_CTRL.MODE 1 1) with lastAt := State.reset.lastAt.set 0 251 0 }) with lastAt := State.reset.lastAt.set 0 1 0 }), 0, 1, by decide +kernel⟩,
  ⟨(State.reset.wr 0 GLB_ID.PAIRMODE 1), 0, 2, 0x00FF00FF, by decide +kernel⟩,
  ⟨State.reset, 7, 7, 0x0, by decide +kernel⟩,
  ⟨(((State.reset.wr 7 PWM_CTRL.SAFE 0 7).mated 7).wr 7 GLB_ID.PAIRMODE 1), 7, 7, 0x0, by decide +kernel⟩,
  ⟨((((((State.reset.wr 7 PWM_CTRL.EN 1 7).wr 7 PWM_CTRL.MODE 0 7).wr 7 PWM_CTRL.ALIGN 0 7).wr 7 PWM_CTRL.UPD 5 7).mated 7).wr
    7 GLB_ID.PAIRMODE 1), 7, 7, 0x0, by decide +kernel⟩,
  ⟨State.reset, 7, 7, 0x1, by decide +kernel⟩,
  ⟨State.reset, 7, 7, 0x0, by decide +kernel⟩⟩

theorem witness_LawsStartReleaseRunAndStop :
    (∃ (s : State) (d n len : Nat), s.Live d ∧ n < 8 ∧ s.forwards d = false ∧ s.holds d n = true ∧
      s.bit d LAW_CTRL.RUN n = false ∧ (programCheck (s.wr d LAW_CTRL.LEN (len % 128) n : State) d n).1 ≠ 0) ∧
    (∃ (s : State) (d n len : Nat), s.Live d ∧ n < 8 ∧ s.forwards d = false ∧ s.holds d n = true ∧
      s.bit d LAW_CTRL.RUN n = false ∧ (programCheck (s.wr d LAW_CTRL.LEN (len % 128) n : State) d n).1 = 0) ∧
    (∃ (s : State) (d n len : Nat), s.Live d ∧ n < 8 ∧ s.forwards d = false ∧ s.holds d n = true ∧
      s.bit d LAW_CTRL.RUN n = true ∧ (((if len % 128 = s.rd d LAW_CTRL.LEN n then s else s.raise d 432 3 n) : State).getLaw d
      n).run = none) ∧
    (∃ (s : State) (d n len : Nat), s.Live d ∧ n < 8 ∧ s.forwards d = false ∧ s.holds d n = true ∧
      s.bit d LAW_CTRL.RUN n = true ∧ (((if len % 128 = s.rd d LAW_CTRL.LEN n then s else s.raise d 432 3 n) : State).getLaw d
      n).run ≠ none) ∧
    (∃ (s : State) (d n : Nat) (t : _), s.Live d ∧ n < 8 ∧ s.bit d LAW_CTRL.RUN n = true ∧
      (((s.pass (s.nextRelease d n)).occurs (State.stepNo 7 d n)).getLaw d n).pendAt = some t ∧
      ((s.pass (s.nextRelease d n)).occurs (State.stepNo 7 d n)).pt < t) ∧
    (∃ (s : State) (d n : Nat) (x : _), s.Live d ∧ n < 8 ∧ s.bit d LAW_CTRL.RUN n = true ∧
      ((((s.pass (s.nextRelease d n)).occurs (State.stepNo 7 d n)).getLaw d n).pendAt = none ∧
      x = ((s.pass (s.nextRelease d n)).occurs (State.stepNo 7 d n)) ∨ (∃ t,
      (((s.pass (s.nextRelease d n)).occurs (State.stepNo 7 d n)).getLaw d n).pendAt = some t ∧
      t ≤ ((s.pass (s.nextRelease d n)).occurs (State.stepNo 7 d n)).pt) ∧
      x = (((((s.pass (s.nextRelease d n)).occurs (State.stepNo 7 d n)).wr d LAW_AXSTAT.PEND 0 n).wr d LAW_AXSTAT.RUNNING 1
      n).wr d LAW_RUNCNT.COUNT 0 n).modLaw d n fun r => { r with pendAt := none, first := true }) ∧
      (x.getLaw d n).waitAt = none ∧ (x.getLaw d n).run = none) ∧
    (∃ (s : State) (d n : Nat) (x : _), s.Live d ∧ n < 8 ∧ s.bit d LAW_CTRL.RUN n = true ∧
      ((((s.pass (s.nextRelease d n)).occurs (State.stepNo 7 d n)).getLaw d n).pendAt = none ∧
      x = ((s.pass (s.nextRelease d n)).occurs (State.stepNo 7 d n)) ∨ (∃ t,
      (((s.pass (s.nextRelease d n)).occurs (State.stepNo 7 d n)).getLaw d n).pendAt = some t ∧
      t ≤ ((s.pass (s.nextRelease d n)).occurs (State.stepNo 7 d n)).pt) ∧
      x = (((((s.pass (s.nextRelease d n)).occurs (State.stepNo 7 d n)).wr d LAW_AXSTAT.PEND 0 n).wr d LAW_AXSTAT.RUNNING 1
      n).wr d LAW_RUNCNT.COUNT 0 n).modLaw d n fun r => { r with pendAt := none, first := true }) ∧
      ((x.getLaw d n).waitAt ≠ none ∨ (x.getLaw d n).run ≠ none)) ∧
    (∃ (s : State) (d n : Nat), s.Live d ∧ n < 8 ∧ (runs s d = true ∨ nextRun s d ≠ some n)) ∧
    (∃ (s : State) (d n : Nat), s.Live d ∧ n < 8 ∧ runs s d = false ∧ nextRun s d = some n ∧
      ((epochAtRun d n (((s.getLaw d n).waitAt).getD s.pt) s).getLaw d n).waitAt = none) ∧
    (∃ (s : State) (d n : Nat), s.Live d ∧ n < 8 ∧ runs s d = false ∧ nextRun s d = some n ∧
      ((epochAtRun d n (((s.getLaw d n).waitAt).getD s.pt) s).getLaw d n).waitAt ≠ none) ∧
    (∃ (s : State) (d n : Nat), s.Live d ∧ n < 8 ∧ (s.getLaw d n).run = none) ∧
    (∃ (s : State) (d n : Nat) (r : _) (t0 : _), s.Live d ∧ n < 8 ∧ (s.getLaw d n).run = some (r, t0) ∧
      ((runEndIrq d n (trcCapture d n r (tuneStep d n (fadeStep d n (((if (((((s.passTo (t0 + 2 * (s.rd d LAW_CTRL.LEN n *
      s.lawCycles d + (s.getLaw d n).stolen))).wr d LAW_TIME.LAST (min (s.rd d LAW_CTRL.LEN n * s.lawCycles d + (s.getLaw d
      n).stolen) 65535) n).wr d LAW_TIME.WORST (max (min (s.rd d LAW_CTRL.LEN n * s.lawCycles d + (s.getLaw d n).stolen) 65535)
      ((s.passTo (t0 + 2 * (s.rd d LAW_CTRL.LEN n * s.lawCycles d + (s.getLaw d n).stolen))).rd d LAW_TIME.WORST n)) n)).getLaw
      d n).mis = true then stateCopy d n ((((s.passTo (t0 + 2 * (s.rd d LAW_CTRL.LEN n * s.lawCycles d + (s.getLaw d
      n).stolen))).wr d LAW_TIME.LAST (min (s.rd d LAW_CTRL.LEN n * s.lawCycles d + (s.getLaw d n).stolen) 65535) n).wr d
      LAW_TIME.WORST (max (min (s.rd d LAW_CTRL.LEN n * s.lawCycles d + (s.getLaw d n).stolen) 65535) ((s.passTo (t0 + 2 *
      (s.rd d LAW_CTRL.LEN n * s.lawCycles d + (s.getLaw d n).stolen))).rd d LAW_TIME.WORST n)) n)) else ((((s.passTo (t0 + 2 *
      (s.rd d LAW_CTRL.LEN n * s.lawCycles d + (s.getLaw d n).stolen))).wr d LAW_TIME.LAST (min (s.rd d LAW_CTRL.LEN n *
      s.lawCycles d + (s.getLaw d n).stolen) 65535) n).wr d LAW_TIME.WORST (max (min (s.rd d LAW_CTRL.LEN n * s.lawCycles d +
      (s.getLaw d n).stolen) 65535) ((s.passTo (t0 + 2 * (s.rd d LAW_CTRL.LEN n * s.lawCycles d + (s.getLaw d n).stolen))).rd d
      LAW_TIME.WORST n)) n)))).modLaw d n fun x => { x with run := none, first := false }))))).getLaw d n).stop = false) ∧
    (∃ (s : State) (d n : Nat) (r : _) (t0 : _), s.Live d ∧ n < 8 ∧ (s.getLaw d n).run = some (r, t0) ∧
      ((runEndIrq d n (trcCapture d n r (tuneStep d n (fadeStep d n (((if (((((s.passTo (t0 + 2 * (s.rd d LAW_CTRL.LEN n *
      s.lawCycles d + (s.getLaw d n).stolen))).wr d LAW_TIME.LAST (min (s.rd d LAW_CTRL.LEN n * s.lawCycles d + (s.getLaw d
      n).stolen) 65535) n).wr d LAW_TIME.WORST (max (min (s.rd d LAW_CTRL.LEN n * s.lawCycles d + (s.getLaw d n).stolen) 65535)
      ((s.passTo (t0 + 2 * (s.rd d LAW_CTRL.LEN n * s.lawCycles d + (s.getLaw d n).stolen))).rd d LAW_TIME.WORST n)) n)).getLaw
      d n).mis = true then stateCopy d n ((((s.passTo (t0 + 2 * (s.rd d LAW_CTRL.LEN n * s.lawCycles d + (s.getLaw d
      n).stolen))).wr d LAW_TIME.LAST (min (s.rd d LAW_CTRL.LEN n * s.lawCycles d + (s.getLaw d n).stolen) 65535) n).wr d
      LAW_TIME.WORST (max (min (s.rd d LAW_CTRL.LEN n * s.lawCycles d + (s.getLaw d n).stolen) 65535) ((s.passTo (t0 + 2 *
      (s.rd d LAW_CTRL.LEN n * s.lawCycles d + (s.getLaw d n).stolen))).rd d LAW_TIME.WORST n)) n)) else ((((s.passTo (t0 + 2 *
      (s.rd d LAW_CTRL.LEN n * s.lawCycles d + (s.getLaw d n).stolen))).wr d LAW_TIME.LAST (min (s.rd d LAW_CTRL.LEN n *
      s.lawCycles d + (s.getLaw d n).stolen) 65535) n).wr d LAW_TIME.WORST (max (min (s.rd d LAW_CTRL.LEN n * s.lawCycles d +
      (s.getLaw d n).stolen) 65535) ((s.passTo (t0 + 2 * (s.rd d LAW_CTRL.LEN n * s.lawCycles d + (s.getLaw d n).stolen))).rd d
      LAW_TIME.WORST n)) n)))).modLaw d n fun x => { x with run := none, first := false }))))).getLaw d n).stop = true) :=
  ⟨⟨State.reset, 6, 5, 127, by decide +kernel⟩,
  ⟨State.reset, 7, 7, 1, by decide +kernel⟩,
  ⟨(State.reset.wr 7 LAW_CTRL.RUN 1 7), 7, 7, 1, by decide +kernel⟩,
  ⟨((((State.reset.wr 7 LAW_CTRL.RUN 1 7).modLaw 7 7 fun r => { r with run := some 5000 }).mated 7).wr 7 GLB_ID.PAIRMODE 1), 7,
    7, 0, by decide +kernel⟩,
  ⟨((State.reset.wr 6 LAW_CTRL.RUN 1 2).modLaw 6 2 fun r => { r with pendAt := some (2 ^ 64) }), 6, 2,
    ((((((((State.reset.wr 6 LAW_CTRL.RUN 1 2).modLaw 6 2 fun r => { r with pendAt := some (2 ^ 64) })).pass ((((State.reset.wr
    6 LAW_CTRL.RUN 1 2).modLaw 6 2 fun r => { r with pendAt := some (2 ^ 64) })).nextRelease 6 2)).occurs (State.stepNo 7 6
    2)).getLaw 6 2).pendAt).get (by decide +kernel)), by decide +kernel⟩,
  ⟨((((State.reset.wr 7 LAW_CTRL.RUN 1 7).modLaw 7 7 fun r => { r with pendAt := none }).modLaw 7 7 fun r =>
    { r with waitAt := none }).modLaw 7 7 fun r => { r with run := none }), 7, 7,
    ((((((((State.reset.wr 7 LAW_CTRL.RUN 1 7).modLaw 7 7 fun r => { r with pendAt := none }).modLaw 7 7 fun r =>
    { r with waitAt := none }).modLaw 7 7 fun r => { r with run := none })).pass ((((((State.reset.wr 7 LAW_CTRL.RUN 1
    7).modLaw 7 7 fun r => { r with pendAt := none }).modLaw 7 7 fun r => { r with waitAt := none }).modLaw 7 7 fun r =>
    { r with run := none })).nextRelease 7 7)).occurs (State.stepNo 7 7 7))), by decide +kernel, by decide +kernel, by decide +kernel,
    Or.inl (⟨(by decide +kernel), (by first | rfl | decide +kernel)⟩), by decide +kernel⟩,
  ⟨(((State.reset.wr 7 LAW_CTRL.RUN 1 7).modLaw 7 7 fun r => { r with pendAt := none }).modLaw 7 7 fun r =>
    { r with waitAt := some 5000 }), 7, 7,
    (((((((State.reset.wr 7 LAW_CTRL.RUN 1 7).modLaw 7 7 fun r => { r with pendAt := none }).modLaw 7 7 fun r =>
    { r with waitAt := some 5000 })).pass (((((State.reset.wr 7 LAW_CTRL.RUN 1 7).modLaw 7 7 fun r =>
    { r with pendAt := none }).modLaw 7 7 fun r => { r with waitAt := some 5000 })).nextRelease 7 7)).occurs (State.stepNo 7 7
    7))), by decide +kernel, by decide +kernel, by decide +kernel,
    Or.inl (⟨(by decide +kernel), (by first | rfl | decide +kernel)⟩), by decide +kernel⟩,
  ⟨State.reset, 7, 7, by decide +kernel⟩,
  ⟨(((((((((State.reset.modLaw 6 7 fun r => { r with waitAt := some 5000 }).modEpo 6 fun r => { r with lawAt := [(7, 0)] }).wr
    6 LAW_CTRL.RUN 1 7).modEpo 6 fun x =>
    { x with ents := [{ ty := 1, tgt := LAW_CTRL.RUN.addr 0 7 0, a := 0, b := 0, ax := some 7, law := true }] }).modEpo 6 fun x
    => { x with ents := [{ ty := 1, tgt := LAW_CTRL.RUN.addr 0 7 0, a := 0xFFFFFFFF, b := 0, ax := some 7, law := true }] }).modEpo 6 fun x => { x with ents := [{ ty := 2, tgt := LAW_CTRL.RUN.addr 0 7 0, a := 0, b := 0, ax := some 7, law := true }] }).modEpo 6 fun x => { x with ents := [{ ty := 2, tgt := LAW_CTRL.RUN.addr 0 7 0, a := 0xFFFFFFFF, b := 0, ax := some 7, law := true }] }).modEpo 6 fun x => { x with ents := [{ ty := 3, tgt := LAW_CTRL.RUN.addr 0 7 0, a := 0, b := 0, ax := some 7, law := true }] }).modEpo 6 fun x => { x with ents := [{ ty := 3, tgt := LAW_CTRL.RUN.addr 0 7 0, a := 0xFFFFFFFF, b := 0, ax := some 7, law := true }] }), 6, ((nextRun ((((((((((State.reset.modLaw 6 7 fun r => { r with waitAt := some 5000 }).modEpo 6 fun r => { r with lawAt := [(7, 0)] }).wr 6 LAW_CTRL.RUN 1 7).modEpo 6 fun x => { x with ents := [{ ty := 1, tgt := LAW_CTRL.RUN.addr 0 7 0, a := 0, b := 0, ax := some 7, law := true }] }).modEpo 6 fun x => { x with ents := [{ ty := 1, tgt := LAW_CTRL.RUN.addr 0 7 0, a := 0xFFFFFFFF, b := 0, ax := some 7, law := true }] }).modEpo 6 fun x => { x with ents := [{ ty := 2, tgt := LAW_CTRL.RUN.addr 0 7 0, a := 0, b := 0, ax := some 7, law := true }] }).modEpo 6 fun x => { x with ents := [{ ty := 2, tgt := LAW_CTRL.RUN.addr 0 7 0, a := 0xFFFFFFFF, b := 0, ax := some 7, law := true }] }).modEpo 6 fun x => { x with ents := [{ ty := 3, tgt := LAW_CTRL.RUN.addr 0 7 0, a := 0, b := 0, ax := some 7, law := true }] }).modEpo 6 fun x => { x with ents := [{ ty := 3, tgt := LAW_CTRL.RUN.addr 0 7 0, a := 0xFFFFFFFF, b := 0, ax := some 7, law := true }] })) 6).get (by decide +kernel)), by decide +kernel⟩,
  ⟨(State.reset.modLaw 6 7 fun r => { r with waitAt := some 5000 }), 6,
    ((nextRun ((State.reset.modLaw 6 7 fun r => { r with waitAt := some 5000 })) 6).get (by decide +kernel)), by decide +kernel⟩,
  ⟨State.reset, 7, 7, by decide +kernel⟩,
  ⟨(State.reset.modLaw 7 7 fun r => { r with run := some (1, 1) }), 7, 7, 1, 1, by decide +kernel⟩,
  ⟨(((((State.reset.modLaw 6 5 fun r => { r with run := some (5000, 5000) }).wr 6 LAW_TIME.WORST 3 5).wr 6 LAW_CTRL.RUN 1
    5).modLaw 6 5 fun r => { r with run := some (5000, 5000), stop := true }).modLaw 6 5 fun r =>
    { r with run := some (5000, 5000), mis := true }), 6, 5,
    (((((((((State.reset.modLaw 6 5 fun r => { r with run := some (5000, 5000) }).wr 6 LAW_TIME.WORST 3 5).wr 6 LAW_CTRL.RUN 1
    5).modLaw 6 5 fun r => { r with run := some (5000, 5000), stop := true }).modLaw 6 5 fun r =>
    { r with run := some (5000, 5000), mis := true })).getLaw 6 5).run).get (by decide +kernel)).1,
    (((((((((State.reset.modLaw 6 5 fun r => { r with run := some (5000, 5000) }).wr 6 LAW_TIME.WORST 3 5).wr 6 LAW_CTRL.RUN 1
    5).modLaw 6 5 fun r => { r with run := some (5000, 5000), stop := true }).modLaw 6 5 fun r =>
    { r with run := some (5000, 5000), mis := true })).getLaw 6 5).run).get (by decide +kernel)).2, by decide +kernel⟩⟩

theorem witness_ProgramMemoryAndBanks :
    (∃ (s : State) (d : Nat) (o : _), s.Live d ∧ o < 65536 ∧ o % 4 ≠ 0) ∧
    (∃ (s : State) (d : Nat) (o : _), s.Live d ∧ o < 65536 ∧ o % 4 = 0) ∧
    (∃ (s : State) (d : Nat), s.Live d ∧ (((List.range 8).filter (fun n => (s.getLaw d n).run.isSome && decide ((s.getLaw d
      n).stolen < 72))) = [] ∨ 9 ≤ ((s.getLawDie d).steals.filter (fun t => decide (s.now < t + 12500))).length)) ∧
    (∃ (s : State) (d : Nat), s.Live d ∧ ((List.range 8).filter (fun n => (s.getLaw d n).run.isSome && decide ((s.getLaw d
      n).stolen < 72))) ≠ [] ∧ ((s.getLawDie d).steals.filter (fun t => decide (s.now < t + 12500))).length < 9) ∧
    (∃ (s : State) (d : Nat) (o : _), s.Live d ∧ 0xC000 ≤ o) ∧
    (∃ (s : State) (d : Nat) (o : _), s.Live d ∧ o < 0xC000 ∧ s.bit d LAW_CTRL.RUN (progAxis s d o) = true ∧
      ((o / 4 % 32) < 4 ∨ 20 ≤ (o / 4 % 32) ∧ (o / 4 % 32) < 27)) ∧
    (∃ (s : State) (d : Nat) (o : _), s.Live d ∧ o < 0xC000 ∧
      ((s.bit d LAW_CTRL.RUN (progAxis s d o) = false ∨ 4 ≤ (o / 4 % 32) ∧ (o / 4 % 32) < 20 ∨ 27 ≤ (o / 4 % 32))) ∧
      s.forwards d = false) ∧
    (∃ (s : State) (d : Nat) (o : _), s.Live d ∧ o < 0xC000 ∧ (s.bit d LAW_CTRL.RUN (progAxis s d o) = false ∨ 4 ≤ (o / 4 % 32) ∧
      (o / 4 % 32) < 20 ∨ 27 ≤ (o / 4 % 32)) ∧ s.forwards d = true) ∧
    (∃ (s : State) (d : Nat) (o : _) (run : _), s.Live d ∧ 4 ≤ (o / 4 % 32) ∧ (o / 4 % 32) < 20 ∧ 0 < run ∧
      s.bit d LAW_CTRL.RUN (progAxis s d o) = true) ∧
    (∃ (s : State) (d : Nat) (o : _), s.Live d ∧ (o / 4 % 32) = 0) ∧
    (∃ (s : State) (d : Nat) (o : _) (run : _), s.Live d ∧ 0 < (o / 4 % 32) ∧ (o / 4 % 32) < 27 ∧ ¬ (4 ≤ (o / 4 % 32) ∧
      (o / 4 % 32) < 20 ∧ 0 < run ∧ s.bit d LAW_CTRL.RUN (progAxis s d o) = true)) ∧
    (∃ (s : State) (d : Nat) (o : _), s.Live d ∧ 27 ≤ (o / 4 % 32)) ∧
    (∃ (s : State) (d : Nat) (o : _), s.Live d ∧ o < 0xC000 ∧ (o / 4 % 32) = 27) ∧
    (∃ (s : State) (d : Nat) (o : _), s.Live d ∧ o < 0xC000 ∧ 27 < (o / 4 % 32)) ∧
    (∃ (s : State) (d : Nat) (o : _), s.Live d ∧ o < 0xC000 ∧ (o / 4 % 32) < 27) ∧
    (∃ (s : State) (d : Nat) (n : _) (i : _), s.Live d ∧ n < 8 ∧ i < 96 ∧ i < s.lawSlots d ∧ s.holds d n = true) ∧
    (∃ (s : State) (d : Nat) (n : _) (i : _), s.Live d ∧ n < 8 ∧ i < 96 ∧ (s.lawSlots d ≤ i ∨ s.holds d n = false)) ∧
    (∃ (s : State) (d : Nat) (n : _) (target : _), s.Live d ∧ n < 8 ∧ s.forwards d = false ∧ s.holds d n = true ∧
      s.bit d LAW_BANK.FADING n = false ∧ s.rd d LAW_BANK.ACT n = target % 2) ∧
    (∃ (s : State) (d : Nat) (n : _) (target : _), s.Live d ∧ n < 8 ∧ s.forwards d = false ∧ s.holds d n = true ∧
      s.bit d LAW_BANK.FADING n = false ∧ s.rd d LAW_BANK.ACT n ≠ target % 2 ∧ s.bit d LAW_CTRL.RUN n = false) ∧
    (∃ (s : State) (d : Nat) (n : _) (target : _), s.Live d ∧ n < 8 ∧ s.forwards d = false ∧ s.holds d n = true ∧
      s.bit d LAW_BANK.FADING n = false ∧ s.rd d LAW_BANK.ACT n ≠ target % 2 ∧ s.bit d LAW_CTRL.RUN n = true) ∧
    (∃ (s : State) (d : Nat) (n : _), s.Live d ∧ n < 8 ∧ s.forwards d = false ∧ s.holds d n = true ∧
      s.bit d LAW_BANK.FADING n = true) :=
  ⟨⟨State.reset, 7, 65535, by decide +kernel⟩,
  ⟨State.reset, 7, 5000, by decide +kernel⟩,
  ⟨State.reset, 7, by decide +kernel⟩,
  ⟨(State.reset.modLaw 6 7 fun r => { r with run := some (5000, 5000) }), 6, by decide +kernel⟩,
  ⟨State.reset, 7, 49153, by decide +kernel⟩,
  ⟨(State.reset.wr 6 LAW_CTRL.RUN 1 7), 6, 0xBFD0, by decide +kernel⟩,
  ⟨State.reset, 7, 49151, by decide +kernel⟩,
  ⟨(State.reset.mated 7), 7, 49151, by decide +kernel⟩,
  ⟨(State.reset.wr 6 LAW_CTRL.RUN 1 7), 6, 0xBF90, 1, by decide +kernel⟩,
  ⟨State.reset, 7, 1, by decide +kernel⟩,
  ⟨State.reset, 7, 27, 31, by decide +kernel⟩,
  ⟨State.reset, 7, 70000, by decide +kernel⟩,
  ⟨State.reset, 6, 0xBFEC, by decide +kernel⟩,
  ⟨State.reset, 7, 49151, by decide +kernel⟩,
  ⟨State.reset, 6, 2, by decide +kernel⟩,
  ⟨State.reset, 6, 5, 15, by decide +kernel⟩,
  ⟨State.reset, 7, 7, 95, by decide +kernel⟩,
  ⟨((((State.reset.wr 7 LAW_BANK.FADING 0 7).wr 7 LAW_BANK.ACT 0 7).mated 7).wr 7 GLB_ID.PAIRMODE 1), 7, 7, 0, by decide +kernel⟩,
  ⟨State.reset, 7, 7, 1, by decide +kernel⟩,
  ⟨(State.reset.wr 7 LAW_CTRL.RUN 1 7), 7, 7, 1, by decide +kernel⟩,
  ⟨(State.reset.wr 7 LAW_BANK.FADING 1 7), 7, 7, by decide +kernel⟩⟩

theorem witness_TuneAndCaptureUnits :
    (∃ (s : State) (d n : Nat), s.Live d ∧ n < 8 ∧ s.forwards d = false ∧ s.holds d n = true) ∧
    (∃ (s : State) (d n : Nat) (v : Word), s.Live d ∧ n < 8 ∧ bitOf v.toNat 24 = false) ∧
    (∃ (s : State) (d n : Nat) (v : Word), s.Live d ∧ n < 8 ∧ bitOf v.toNat 24 = true ∧
      tuneMay ((if bitOf v.toNat 25 = true then tuneFail d n 7 (((((s.wr d TUNE_CTRL.RSLOT (bitsOf v.toNat 0 7) n).wr d
      TUNE_CTRL.PSLOT (bitsOf v.toNat 8 7) n).wr d TUNE_CTRL.NCYC (bitsOf v.toNat 16 4) n).wr d TUNE_CTRL.WRITE (bitsOf v.toNat
      26 1) n) : State) else (((((s.wr d TUNE_CTRL.RSLOT (bitsOf v.toNat 0 7) n).wr d TUNE_CTRL.PSLOT (bitsOf v.toNat 8 7)
      n).wr d TUNE_CTRL.NCYC (bitsOf v.toNat 16 4) n).wr d TUNE_CTRL.WRITE (bitsOf v.toNat 26 1) n) : State)) : State) d n
      (bitsOf v.toNat 0 7) (bitsOf v.toNat 8 7) = false) ∧
    (∃ (s : State) (d n : Nat) (v : Word), s.Live d ∧ n < 8 ∧ bitOf v.toNat 24 = true ∧
      tuneMay ((if bitOf v.toNat 25 = true then tuneFail d n 7 (((((s.wr d TUNE_CTRL.RSLOT (bitsOf v.toNat 0 7) n).wr d
      TUNE_CTRL.PSLOT (bitsOf v.toNat 8 7) n).wr d TUNE_CTRL.NCYC (bitsOf v.toNat 16 4) n).wr d TUNE_CTRL.WRITE (bitsOf v.toNat
      26 1) n) : State) else (((((s.wr d TUNE_CTRL.RSLOT (bitsOf v.toNat 0 7) n).wr d TUNE_CTRL.PSLOT (bitsOf v.toNat 8 7)
      n).wr d TUNE_CTRL.NCYC (bitsOf v.toNat 16 4) n).wr d TUNE_CTRL.WRITE (bitsOf v.toNat 26 1) n) : State)) : State) d n
      (bitsOf v.toNat 0 7) (bitsOf v.toNat 8 7) = true ∧
      (((if bitOf v.toNat 25 = true then tuneFail d n 7 (((((s.wr d TUNE_CTRL.RSLOT (bitsOf v.toNat 0 7) n).wr d
      TUNE_CTRL.PSLOT (bitsOf v.toNat 8 7) n).wr d TUNE_CTRL.NCYC (bitsOf v.toNat 16 4) n).wr d TUNE_CTRL.WRITE (bitsOf v.toNat
      26 1) n) : State) else (((((s.wr d TUNE_CTRL.RSLOT (bitsOf v.toNat 0 7) n).wr d TUNE_CTRL.PSLOT (bitsOf v.toNat 8 7)
      n).wr d TUNE_CTRL.NCYC (bitsOf v.toNat 16 4) n).wr d TUNE_CTRL.WRITE (bitsOf v.toNat 26 1) n) : State)) : State).rd d
      TUNE_STAT.STATE n = 1 ∨ ((if bitOf v.toNat 25 = true then tuneFail d n 7 (((((s.wr d TUNE_CTRL.RSLOT (bitsOf v.toNat 0 7)
      n).wr d TUNE_CTRL.PSLOT (bitsOf v.toNat 8 7) n).wr d TUNE_CTRL.NCYC (bitsOf v.toNat 16 4) n).wr d TUNE_CTRL.WRITE (bitsOf
      v.toNat 26 1) n) : State) else (((((s.wr d TUNE_CTRL.RSLOT (bitsOf v.toNat 0 7) n).wr d TUNE_CTRL.PSLOT (bitsOf v.toNat 8
      7) n).wr d TUNE_CTRL.NCYC (bitsOf v.toNat 16 4) n).wr d TUNE_CTRL.WRITE (bitsOf v.toNat 26 1) n) : State)) : State).rd d
      TUNE_STAT.STATE n = 2 ∨ ((if bitOf v.toNat 25 = true then tuneFail d n 7 (((((s.wr d TUNE_CTRL.RSLOT (bitsOf v.toNat 0 7)
      n).wr d TUNE_CTRL.PSLOT (bitsOf v.toNat 8 7) n).wr d TUNE_CTRL.NCYC (bitsOf v.toNat 16 4) n).wr d TUNE_CTRL.WRITE (bitsOf
      v.toNat 26 1) n) : State) else (((((s.wr d TUNE_CTRL.RSLOT (bitsOf v.toNat 0 7) n).wr d TUNE_CTRL.PSLOT (bitsOf v.toNat 8
      7) n).wr d TUNE_CTRL.NCYC (bitsOf v.toNat 16 4) n).wr d TUNE_CTRL.WRITE (bitsOf v.toNat 26 1) n) : State)) : State).rd d
      TUNE_STAT.STATE n = 3)) ∧
    (∃ (s : State) (d n : Nat) (v : Word), s.Live d ∧ n < 8 ∧ bitOf v.toNat 24 = true ∧
      tuneMay ((if bitOf v.toNat 25 = true then tuneFail d n 7 (((((s.wr d TUNE_CTRL.RSLOT (bitsOf v.toNat 0 7) n).wr d
      TUNE_CTRL.PSLOT (bitsOf v.toNat 8 7) n).wr d TUNE_CTRL.NCYC (bitsOf v.toNat 16 4) n).wr d TUNE_CTRL.WRITE (bitsOf v.toNat
      26 1) n) : State) else (((((s.wr d TUNE_CTRL.RSLOT (bitsOf v.toNat 0 7) n).wr d TUNE_CTRL.PSLOT (bitsOf v.toNat 8 7)
      n).wr d TUNE_CTRL.NCYC (bitsOf v.toNat 16 4) n).wr d TUNE_CTRL.WRITE (bitsOf v.toNat 26 1) n) : State)) : State) d n
      (bitsOf v.toNat 0 7) (bitsOf v.toNat 8 7) = true ∧
      (¬ (((if bitOf v.toNat 25 = true then tuneFail d n 7 (((((s.wr d TUNE_CTRL.RSLOT (bitsOf v.toNat 0 7) n).wr d
      TUNE_CTRL.PSLOT (bitsOf v.toNat 8 7) n).wr d TUNE_CTRL.NCYC (bitsOf v.toNat 16 4) n).wr d TUNE_CTRL.WRITE (bitsOf v.toNat
      26 1) n) : State) else (((((s.wr d TUNE_CTRL.RSLOT (bitsOf v.toNat 0 7) n).wr d TUNE_CTRL.PSLOT (bitsOf v.toNat 8 7)
      n).wr d TUNE_CTRL.NCYC (bitsOf v.toNat 16 4) n).wr d TUNE_CTRL.WRITE (bitsOf v.toNat 26 1) n) : State)) : State).rd d
      TUNE_STAT.STATE n = 1 ∨ ((if bitOf v.toNat 25 = true then tuneFail d n 7 (((((s.wr d TUNE_CTRL.RSLOT (bitsOf v.toNat 0 7)
      n).wr d TUNE_CTRL.PSLOT (bitsOf v.toNat 8 7) n).wr d TUNE_CTRL.NCYC (bitsOf v.toNat 16 4) n).wr d TUNE_CTRL.WRITE (bitsOf
      v.toNat 26 1) n) : State) else (((((s.wr d TUNE_CTRL.RSLOT (bitsOf v.toNat 0 7) n).wr d TUNE_CTRL.PSLOT (bitsOf v.toNat 8
      7) n).wr d TUNE_CTRL.NCYC (bitsOf v.toNat 16 4) n).wr d TUNE_CTRL.WRITE (bitsOf v.toNat 26 1) n) : State)) : State).rd d
      TUNE_STAT.STATE n = 2 ∨ ((if bitOf v.toNat 25 = true then tuneFail d n 7 (((((s.wr d TUNE_CTRL.RSLOT (bitsOf v.toNat 0 7)
      n).wr d TUNE_CTRL.PSLOT (bitsOf v.toNat 8 7) n).wr d TUNE_CTRL.NCYC (bitsOf v.toNat 16 4) n).wr d TUNE_CTRL.WRITE (bitsOf
      v.toNat 26 1) n) : State) else (((((s.wr d TUNE_CTRL.RSLOT (bitsOf v.toNat 0 7) n).wr d TUNE_CTRL.PSLOT (bitsOf v.toNat 8
      7) n).wr d TUNE_CTRL.NCYC (bitsOf v.toNat 16 4) n).wr d TUNE_CTRL.WRITE (bitsOf v.toNat 26 1) n) : State)) : State).rd d
      TUNE_STAT.STATE n = 3))) ∧
    (∃ (s : State) (d n : Nat), s.Live d ∧ n < 8 ∧
      (s.rd d TUNE_STAT.STATE n = 1 ∨ s.rd d TUNE_STAT.STATE n = 2 ∨ s.rd d TUNE_STAT.STATE n = 3)) ∧
    (∃ (s : State) (d n : Nat), s.Live d ∧ n < 8 ∧
      (¬ (s.rd d TUNE_STAT.STATE n = 1 ∨ s.rd d TUNE_STAT.STATE n = 2 ∨ s.rd d TUNE_STAT.STATE n = 3))) ∧
    (∃ (s : State) (d n : Nat), s.Live d ∧ n < 8 ∧ s.bit d TRC_CTRL.RUN = true) ∧
    (∃ (s : State) (d n : Nat), s.Live d ∧ n < 8 ∧ s.bit d TRC_CTRL.RUN = false) ∧
    (∃ (s : State) (d n : Nat), s.Live d ∧ n < 8) ∧
    (∃ (s : State) (d n : Nat), s.Live d ∧ n < 8) ∧
    (∃ (s : State) (d n : Nat), s.Live d ∧ n < 8 ∧ s.bit d TRC_STAT.ARMED = false) ∧
    (∃ (s : State) (d n : Nat), s.Live d ∧ n < 8 ∧ s.bit d TRC_STAT.ARMED = true ∧
      trcOnChip ((s.wr d TRC_STAT.ARMED 0).wr d TRC_STAT.TRIGD 1) d = true ∧
      ((s.wr d TRC_STAT.ARMED 0).wr d TRC_STAT.TRIGD 1).rd d TRC_TRIG.POST = 0) ∧
    (∃ (s : State) (d n : Nat), s.Live d ∧ n < 8 ∧ s.bit d TRC_STAT.ARMED = true ∧
      (trcOnChip ((s.wr d TRC_STAT.ARMED 0).wr d TRC_STAT.TRIGD 1) d = false ∨ ((s.wr d TRC_STAT.ARMED 0).wr d TRC_STAT.TRIGD
      1).rd d TRC_TRIG.POST ≠ 0)) :=
  ⟨⟨State.reset, 7, 7, by decide +kernel⟩,
  ⟨State.reset, 7, 7, 0x0, by decide +kernel⟩,
  ⟨State.reset, 7, 7, 0x1000000, by decide +kernel⟩,
  ⟨((((((State.reset.wr 7 LAW_CTRL.RUN 1 7).wr 7 LAW_CTRL.LEN 2 7).setSw 7 7 0 0 4).setSw 7 7 1 0 13).wr 7 TUNE_STAT.STATE 1
    7).wr 7 TUNE_CTRL.NCYC 4 7), 7, 7, 0x01000001, by decide +kernel⟩,
  ⟨((((((State.reset.wr 7 LAW_CTRL.RUN 1 7).wr 7 LAW_CTRL.LEN 2 7).setSw 7 7 0 0 4).setSw 7 7 1 0 13).wr 7 TUNE_STAT.STATE 4
    7).wr 7 TUNE_CTRL.NCYC 4 7), 7, 7, 0x01000001, by decide +kernel⟩,
  ⟨(State.reset.wr 7 TUNE_STAT.STATE 1 7), 7, 7, by decide +kernel⟩,
  ⟨State.reset, 7, 7, by decide +kernel⟩,
  ⟨(State.reset.wr 7 TRC_CTRL.RUN 1), 7, 7, by decide +kernel⟩,
  ⟨State.reset, 7, 7, by decide +kernel⟩,
  ⟨State.reset, 7, 7, by decide +kernel⟩,
  ⟨State.reset, 7, 7, by decide +kernel⟩,
  ⟨State.reset, 7, 7, by decide +kernel⟩,
  ⟨((State.reset.wr 7 TRC_STAT.ARMED 1).wr 7 TRC_TRIG.POST 0), 7, 7, by decide +kernel⟩,
  ⟨(State.reset.wr 7 TRC_STAT.ARMED 1), 7, 7, by decide +kernel⟩⟩

theorem witness_MemoryChannelsTrainLoseMirrorAndScrub :
    (∃ (s : State) (d : Nat), s.hasDie d = true ∧ d < 2 ∧ (s.getDie d).inReset = false ∧ s.bit d MEM_CTRL.EN = true ∧
      s.rd d GLB_PHASE.PHASE ≠ 0 ∧ s.bit d MEM_STAT.UP = false) ∧
    (∃ (s : State) (d : Nat), s.hasDie d = true ∧ d < 2 ∧ (s.getDie d).inReset = false ∧
      (s.bit d MEM_CTRL.EN = false ∨ s.rd d GLB_PHASE.PHASE = 0 ∨ s.bit d MEM_STAT.UP = true)) ∧
    (∃ (s : State) (d : Nat), s.hasDie d = true ∧ d < 2 ∧ (s.getDie d).inReset = false ∧ s.bit d MEM_STAT.UP = false ∧
      (s.getMem d).was = true) ∧
    (∃ (s : State) (d : Nat), s.hasDie d = true ∧ d < 2 ∧ (s.getDie d).inReset = false ∧
      (s.bit d MEM_STAT.UP = true ∨ (s.getMem d).was = false)) ∧
    (∃ (s : State) (d : Nat), s.hasDie d = true ∧ d < 2 ∧ (s.getDie d).inReset = false ∧ s.bit d MEM_STAT.UP = true) ∧
    (∃ (s : State) (d : Nat), s.hasDie d = true ∧ d < 2 ∧ (s.getDie d).inReset = false ∧ s.bit d LEDG_CTL.EN = true ∧
      s.dramSrv = some d) ∧
    (∃ (s : State) (d : Nat), s.hasDie d = true ∧ d < 2 ∧ (s.getDie d).inReset = false ∧ s.dramSrv ≠ some d) ∧
    (∃ (s : State) (d : Nat), s.hasDie d = true ∧ d < 2 ∧ (s.getDie d).inReset = false ∧ s.bit d LEDG_CTL.EN = false ∧
      s.dramSrv = some d) ∧
    (∃ (s : State) (d : Nat) (m : _), s.hasDie d = true ∧ d < 2 ∧ mirrorOf s = some m ∧ s.deferOk (1 - m) = true ∧
      s.bit (1 - m) MEM_STAT.MSYNC = false) ∧
    (∃ (s : State) (d : Nat), s.hasDie d = true ∧ d < 2 ∧ (mirrorOf s = none ∨ (∃ m, mirrorOf s = some m ∧
      (s.deferOk (1 - m) = false ∨ s.bit (1 - m) MEM_STAT.MSYNC = true)))) ∧
    (∃ (s : State) (d : Nat) (m : _), s.hasDie d = true ∧ d < 2 ∧ mirrorOf s = some m ∧ s.dramCap m ≤ (s.getMem m).copied) ∧
    (∃ (s : State) (d : Nat), s.hasDie d = true ∧ d < 2 ∧ (mirrorOf s = none ∨ (∃ m, mirrorOf s = some m ∧
      (s.getMem m).copied < s.dramCap m))) ∧
    (∃ (s : State) (d : Nat) (ch : _), s.hasDie d = true ∧ d < 2 ∧ s.dramSrv = some ch) ∧
    (∃ (s : State) (d : Nat), s.hasDie d = true ∧ d < 2 ∧ s.dramSrv = none) ∧
    (∃ (s : State) (d : Nat), s.hasDie d = true ∧ d < 2) ∧
    (∃ (s : State) (d : Nat) (a : _) (ecc : _), s.hasDie d = true ∧ d < 2 ∧ (ecc = 1 ∨ ecc = 3 ∧
      (s.inject d 5 529 5 a).bit d MEM_STAT.MSYNC = true)) ∧
    (∃ (s : State) (d : Nat) (a : _) (ecc : _), s.hasDie d = true ∧ d < 2 ∧ (ecc = 2 ∨ ecc = 3 ∧
      (s.inject d 5 529 5 a).bit d MEM_STAT.MSYNC = false)) ∧
    (∃ (s : State) (d : Nat) (c : _), s.hasDie d = true ∧ d < 2 ∧ s.dramSrv = some c ∧ s.ledg.open_ = true ∧
      s.ledg.slot = 32768) ∧
    (∃ (s : State) (d : Nat), s.hasDie d = true ∧ d < 2 ∧ (s.dramSrv = none ∨ s.ledg.open_ = false ∨ s.ledg.slot ≠ 32768)) :=
  ⟨⟨((State.reset.wr 1 MEM_CTRL.EN 1).wr 1 GLB_PHASE.PHASE 1), 1, by decide +kernel⟩,
  ⟨State.reset, 1, by decide +kernel⟩,
  ⟨(State.reset.modMem 1 fun r => { r with was := true }), 1, by decide +kernel⟩,
  ⟨State.reset, 1, by decide +kernel⟩,
  ⟨(State.reset.wr 1 MEM_STAT.UP 1), 1, by decide +kernel⟩,
  ⟨(({ State.reset with dramSrv := some 1 } : State).wr 1 LEDG_CTL.EN 1),
    ((((({ State.reset with dramSrv := some 1 } : State).wr 1 LEDG_CTL.EN 1)).dramSrv).get (by decide +kernel)), by decide +kernel⟩,
  ⟨State.reset, 1, by decide +kernel⟩,
  ⟨({ State.reset with dramSrv := some 1 } : State),
    (((({ State.reset with dramSrv := some 1 } : State)).dramSrv).get (by decide +kernel)), by decide +kernel⟩,
  ⟨((({ ((((State.reset.wr 0 MEM_CTRL.MIRROR 1).wr 1 MEM_CTRL.MIRROR 1).wr 0 MEM_STAT.UP 1).wr 1 MEM_STAT.UP 1) with dramSrv := some 1 }).wr 1 PWR_ADMIT.DEFER 1).wr 1 MEM_STAT.MSYNC 0), 0, ((mirrorOf (((({ ((((State.reset.wr 0 MEM_CTRL.MIRROR 1).wr 1 MEM_CTRL.MIRROR 1).wr 0 MEM_STAT.UP 1).wr 1 MEM_STAT.UP 1) with dramSrv := some 1 }).wr 1 PWR_ADMIT.DEFER 1).wr 1 MEM_STAT.MSYNC 0))).get (by decide +kernel)), by decide +kernel⟩,
  ⟨State.reset, 1, by decide +kernel⟩,
  ⟨({ ((((State.reset.wr 0 MEM_CTRL.MIRROR 1).wr 1 MEM_CTRL.MIRROR 1).wr 0 MEM_STAT.UP 1).wr 1 MEM_STAT.UP 1) with dramSrv := some 1 }), 0, ((mirrorOf (({ ((((State.reset.wr 0 MEM_CTRL.MIRROR 1).wr 1 MEM_CTRL.MIRROR 1).wr 0 MEM_STAT.UP 1).wr 1 MEM_STAT.UP 1) with dramSrv := some 1 }))).get (by decide +kernel)), by decide +kernel⟩,
  ⟨State.reset, 1, by decide +kernel⟩,
  ⟨({ State.reset with dramSrv := some 1 } : State), 0,
    (((({ State.reset with dramSrv := some 1 } : State)).dramSrv).get (by decide +kernel)), by decide +kernel⟩,
  ⟨State.reset, 1, by decide +kernel⟩,
  ⟨State.reset, 1, by decide +kernel⟩,
  ⟨State.reset, 0, 0, (1), by decide +kernel, by decide +kernel,
    Or.inl ((by first | rfl | decide +kernel))⟩,
  ⟨State.reset, 0, 0, (2), by decide +kernel, by decide +kernel,
    Or.inl ((by first | rfl | decide +kernel))⟩,
  ⟨({ State.reset with dramSrv := some 1, ledg := { open_ := true, slot := 32768 } } : State), 0,
    (((({ State.reset with dramSrv := some 1, ledg := { open_ := true, slot := 32768 } } : State)).dramSrv).get
    (by decide +kernel)), by decide +kernel⟩,
  ⟨State.reset, 1, by decide +kernel⟩⟩

theorem witness_ClockMonitorHoldoverAndSpine :
    (∃ (s : State) (d : Nat) (ref : Bool), s.Live d ∧
      ((if ref = true then s.wr d CLK_STAT.REFOK 1 else (s.wr d CLK_STAT.REFOK 0).modDie d fun x =>
      { x with relock := false }) : State).bit d CLK_STAT.ROOTLOCK = false) ∧
    (∃ (s : State) (d : Nat) (ref : Bool) (count : Nat), s.Live d ∧
      ((if ref = true then s.wr d CLK_STAT.REFOK 1 else (s.wr d CLK_STAT.REFOK 0).modDie d fun x =>
      { x with relock := false }) : State).bit d CLK_STAT.ROOTLOCK = true ∧
      156250000000 < (((count : Int) * ((if ref = true then s.wr d CLK_STAT.REFOK 1 else (s.wr d CLK_STAT.REFOK 0).modDie d fun
      x => { x with relock := false }) : State).flashLe d 3 0x10 4 - 156250000000).natAbs : Nat) * 100) ∧
    (∃ (s : State) (d : Nat) (ref : Bool) (count : Nat), s.Live d ∧
      ((if ref = true then s.wr d CLK_STAT.REFOK 1 else (s.wr d CLK_STAT.REFOK 0).modDie d fun x =>
      { x with relock := false }) : State).bit d CLK_STAT.ROOTLOCK = true ∧
      (((count : Int) * ((if ref = true then s.wr d CLK_STAT.REFOK 1 else (s.wr d CLK_STAT.REFOK 0).modDie d fun x =>
      { x with relock := false }) : State).flashLe d 3 0x10 4 - 156250000000).natAbs : Nat) * 100 ≤ 156250000000 ∧
      (ref = true ∨ ((if (((if ref = true ∧
      ((if ref = true then s.wr d CLK_STAT.REFOK 1 else (s.wr d CLK_STAT.REFOK 0).modDie d fun x =>
      { x with relock := false }) : State).bit d CLK_STAT.HOLDOVER = false then watchJudge d (decide ((((count : Int) * ((if
      ref = true then s.wr d CLK_STAT.REFOK 1 else (s.wr d CLK_STAT.REFOK 0).modDie d fun x => { x with relock := false }) :
      State).flashLe d 3 0x10 4 - 156250000000).natAbs : Nat) * 10 ≤ 156250000000)) ((if ref = true then s.wr d CLK_STAT.REFOK
      1 else (s.wr d CLK_STAT.REFOK 0).modDie d fun x => { x with relock := false }) : State) else ((if ref = true then s.wr d
      CLK_STAT.REFOK 1 else (s.wr d CLK_STAT.REFOK 0).modDie d fun x => { x with relock := false }) : State)) : State).getDie
      d).holdoverAt = none then rootGood d ((if ref = true ∧
      ((if ref = true then s.wr d CLK_STAT.REFOK 1 else (s.wr d CLK_STAT.REFOK 0).modDie d fun x =>
      { x with relock := false }) : State).bit d CLK_STAT.HOLDOVER = false then watchJudge d (decide ((((count : Int) * ((if
      ref = true then s.wr d CLK_STAT.REFOK 1 else (s.wr d CLK_STAT.REFOK 0).modDie d fun x => { x with relock := false }) :
      State).flashLe d 3 0x10 4 - 156250000000).natAbs : Nat) * 10 ≤ 156250000000)) ((if ref = true then s.wr d CLK_STAT.REFOK
      1 else (s.wr d CLK_STAT.REFOK 0).modDie d fun x => { x with relock := false }) : State) else ((if ref = true then s.wr d
      CLK_STAT.REFOK 1 else (s.wr d CLK_STAT.REFOK 0).modDie d fun x => { x with relock := false }) : State)) : State) else
      ((if ref = true ∧ ((if ref = true then s.wr d CLK_STAT.REFOK 1 else (s.wr d CLK_STAT.REFOK 0).modDie d fun x =>
      { x with relock := false }) : State).bit d CLK_STAT.HOLDOVER = false then watchJudge d (decide ((((count : Int) * ((if
      ref = true then s.wr d CLK_STAT.REFOK 1 else (s.wr d CLK_STAT.REFOK 0).modDie d fun x => { x with relock := false }) :
      State).flashLe d 3 0x10 4 - 156250000000).natAbs : Nat) * 10 ≤ 156250000000)) ((if ref = true then s.wr d CLK_STAT.REFOK
      1 else (s.wr d CLK_STAT.REFOK 0).modDie d fun x => { x with relock := false }) : State) else ((if ref = true then s.wr d
      CLK_STAT.REFOK 1 else (s.wr d CLK_STAT.REFOK 0).modDie d fun x => { x with relock := false }) : State)) : State)) :
      State).bit d CLK_STAT.HOLDOVER = true)) ∧
    (∃ (s : State) (d count : Nat), s.Live d ∧
      ((if false = true then s.wr d CLK_STAT.REFOK 1 else (s.wr d CLK_STAT.REFOK 0).modDie d fun x =>
      { x with relock := false }) : State).bit d CLK_STAT.ROOTLOCK = true ∧
      (((count : Int) * ((if false = true then s.wr d CLK_STAT.REFOK 1 else (s.wr d CLK_STAT.REFOK 0).modDie d fun x =>
      { x with relock := false }) : State).flashLe d 3 0x10 4 - 156250000000).natAbs : Nat) * 100 ≤ 156250000000 ∧
      ((if (((if false = true ∧ ((if false = true then s.wr d CLK_STAT.REFOK 1 else (s.wr d CLK_STAT.REFOK 0).modDie d fun x =>
      { x with relock := false }) : State).bit d CLK_STAT.HOLDOVER = false then watchJudge d (decide ((((count : Int) * ((if
      false = true then s.wr d CLK_STAT.REFOK 1 else (s.wr d CLK_STAT.REFOK 0).modDie d fun x => { x with relock := false }) :
      State).flashLe d 3 0x10 4 - 156250000000).natAbs : Nat) * 10 ≤ 156250000000)) ((if false = true then s.wr d
      CLK_STAT.REFOK 1 else (s.wr d CLK_STAT.REFOK 0).modDie d fun x => { x with relock := false }) : State) else ((if false =
      true then s.wr d CLK_STAT.REFOK 1 else (s.wr d CLK_STAT.REFOK 0).modDie d fun x => { x with relock := false }) :
      State)) : State).getDie d).holdoverAt = none then rootGood d ((if false = true ∧
      ((if false = true then s.wr d CLK_STAT.REFOK 1 else (s.wr d CLK_STAT.REFOK 0).modDie d fun x =>
      { x with relock := false }) : State).bit d CLK_STAT.HOLDOVER = false then watchJudge d (decide ((((count : Int) * ((if
      false = true then s.wr d CLK_STAT.REFOK 1 else (s.wr d CLK_STAT.REFOK 0).modDie d fun x => { x with relock := false }) :
      State).flashLe d 3 0x10 4 - 156250000000).natAbs : Nat) * 10 ≤ 156250000000)) ((if false = true then s.wr d
      CLK_STAT.REFOK 1 else (s.wr d CLK_STAT.REFOK 0).modDie d fun x => { x with relock := false }) : State) else ((if false =
      true then s.wr d CLK_STAT.REFOK 1 else (s.wr d CLK_STAT.REFOK 0).modDie d fun x => { x with relock := false }) :
      State)) : State) else ((if false = true ∧
      ((if false = true then s.wr d CLK_STAT.REFOK 1 else (s.wr d CLK_STAT.REFOK 0).modDie d fun x =>
      { x with relock := false }) : State).bit d CLK_STAT.HOLDOVER = false then watchJudge d (decide ((((count : Int) * ((if
      false = true then s.wr d CLK_STAT.REFOK 1 else (s.wr d CLK_STAT.REFOK 0).modDie d fun x => { x with relock := false }) :
      State).flashLe d 3 0x10 4 - 156250000000).natAbs : Nat) * 10 ≤ 156250000000)) ((if false = true then s.wr d
      CLK_STAT.REFOK 1 else (s.wr d CLK_STAT.REFOK 0).modDie d fun x => { x with relock := false }) : State) else ((if false =
      true then s.wr d CLK_STAT.REFOK 1 else (s.wr d CLK_STAT.REFOK 0).modDie d fun x => { x with relock := false }) :
      State)) : State)) : State).bit d CLK_STAT.HOLDOVER = false) ∧
    (∃ (s : State) (d : Nat), s.Live d ∧ (s.getDie d).rootOut = false) ∧
    (∃ (s : State) (d : Nat), s.Live d ∧ (s.getDie d).rootOut = true) ∧
    (∃ (s : State) (d : Nat), s.Live d ∧ s.bit d CLK_STAT.HOLDOVER = true) ∧
    (∃ (s : State) (d : Nat), s.Live d ∧ s.bit d CLK_STAT.HOLDOVER = false) ∧
    (∃ (s : State) (d : Nat), s.Live d ∧ (s.getDie d).relock = true) ∧
    (∃ (s : State) (d : Nat), s.Live d ∧ (s.getDie d).relock = false) ∧
    (∃ (s : State) (d : Nat) (t : _), s.Live d ∧ (s.getDie d).holdoverAt = some t) ∧
    (∃ (s : State) (d : Nat), s.Live d ∧ (s.getDie d).holdoverAt = none) ∧
    (∃ (s : State) (d : Nat) (l : _), s.Live d ∧ l < s.links ∧ s.linkUp l = true) ∧
    (∃ (s : State) (d : Nat) (l : _), s.Live d ∧ l < s.links ∧ s.linkUp l = false) ∧
    (∃ (s : State) (d : Nat) (m : _) (skew : Int), s.Live d ∧ s.master = some m ∧ m ≠ d ∧ (s.getDie d).joined = true ∧
      s.reach d m = true ∧ s.bit d CLK_STAT.ROOTLOCK = true ∧
      (skew.natAbs ≤ ((if ((((s.inject d 9 278 7 ((d + s.links - 1) % s.links)).wrI d CLK_SKEW.SKEW (satI 16 skew)).wr d
      CLK_SKEW.MAXSKEW (max (((s.inject d 9 278 7 ((d + s.links - 1) % s.links)).wrI d CLK_SKEW.SKEW (satI 16 skew)).rd d
      CLK_SKEW.MAXSKEW) (min skew.natAbs 65535)))).bit d CLK_STAT.HOLDOVER = true ∨ ((((s.inject d 9 278 7 ((d + s.links - 1) %
      s.links)).wrI d CLK_SKEW.SKEW (satI 16 skew)).wr d CLK_SKEW.MAXSKEW (max (((s.inject d 9 278 7 ((d + s.links - 1) %
      s.links)).wrI d CLK_SKEW.SKEW (satI 16 skew)).rd d CLK_SKEW.MAXSKEW) (min skew.natAbs 65535)))).bit m CLK_STAT.HOLDOVER =
      true then 400 else 100)))) ∧
    (∃ (s : State) (d : Nat) (m : _) (skew : Int), s.Live d ∧ s.master = some m ∧ m ≠ d ∧ (s.getDie d).joined = true ∧
      s.reach d m = true ∧ s.bit d CLK_STAT.ROOTLOCK = true ∧
      (((if ((((s.inject d 9 278 7 ((d + s.links - 1) % s.links)).wrI d CLK_SKEW.SKEW (satI 16 skew)).wr d CLK_SKEW.MAXSKEW
      (max (((s.inject d 9 278 7 ((d + s.links - 1) % s.links)).wrI d CLK_SKEW.SKEW (satI 16 skew)).rd d CLK_SKEW.MAXSKEW) (min
      skew.natAbs 65535)))).bit d CLK_STAT.HOLDOVER = true ∨ ((((s.inject d 9 278 7 ((d + s.links - 1) % s.links)).wrI d
      CLK_SKEW.SKEW (satI 16 skew)).wr d CLK_SKEW.MAXSKEW (max (((s.inject d 9 278 7 ((d + s.links - 1) % s.links)).wrI d
      CLK_SKEW.SKEW (satI 16 skew)).rd d CLK_SKEW.MAXSKEW) (min skew.natAbs 65535)))).bit m CLK_STAT.HOLDOVER = true then 400
      else 100)) < skew.natAbs) ∧ ((((s.inject d 9 278 7 ((d + s.links - 1) % s.links)).wrI d CLK_SKEW.SKEW (satI 16 skew)).wr
      d CLK_SKEW.MAXSKEW (max (((s.inject d 9 278 7 ((d + s.links - 1) % s.links)).wrI d CLK_SKEW.SKEW (satI 16 skew)).rd d
      CLK_SKEW.MAXSKEW) (min skew.natAbs 65535)))).bit d CLK_STAT.PTALIGNED = true) ∧
    (∃ (s : State) (d : Nat) (m : _) (skew : Int), s.Live d ∧ s.master = some m ∧ m ≠ d ∧ (s.getDie d).joined = true ∧
      s.reach d m = true ∧ s.bit d CLK_STAT.ROOTLOCK = true ∧
      (((if ((((s.inject d 9 278 7 ((d + s.links - 1) % s.links)).wrI d CLK_SKEW.SKEW (satI 16 skew)).wr d CLK_SKEW.MAXSKEW
      (max (((s.inject d 9 278 7 ((d + s.links - 1) % s.links)).wrI d CLK_SKEW.SKEW (satI 16 skew)).rd d CLK_SKEW.MAXSKEW) (min
      skew.natAbs 65535)))).bit d CLK_STAT.HOLDOVER = true ∨ ((((s.inject d 9 278 7 ((d + s.links - 1) % s.links)).wrI d
      CLK_SKEW.SKEW (satI 16 skew)).wr d CLK_SKEW.MAXSKEW (max (((s.inject d 9 278 7 ((d + s.links - 1) % s.links)).wrI d
      CLK_SKEW.SKEW (satI 16 skew)).rd d CLK_SKEW.MAXSKEW) (min skew.natAbs 65535)))).bit m CLK_STAT.HOLDOVER = true then 400
      else 100)) < skew.natAbs) ∧ ((((s.inject d 9 278 7 ((d + s.links - 1) % s.links)).wrI d CLK_SKEW.SKEW (satI 16 skew)).wr
      d CLK_SKEW.MAXSKEW (max (((s.inject d 9 278 7 ((d + s.links - 1) % s.links)).wrI d CLK_SKEW.SKEW (satI 16 skew)).rd d
      CLK_SKEW.MAXSKEW) (min skew.natAbs 65535)))).bit d CLK_STAT.PTALIGNED = false) ∧
    (∃ (s : State) (d : Nat), s.Live d ∧ (s.master = none ∨ (∃ m, s.master = some m ∧
      (m = d ∨ s.reach d m = false)) ∨ (s.getDie d).joined = false ∨ s.bit d CLK_STAT.ROOTLOCK = false)) ∧
    (∃ (s : State) (d : Nat) (m : _), s.Live d ∧ s.master = some m) :=
  ⟨⟨State.reset, 7, true, by decide +kernel⟩,
  ⟨(State.reset.wr 7 CLK_STAT.ROOTLOCK 1), 7, true, 1, by decide +kernel⟩,
  ⟨((((({ (State.reset.wr 7 CLK_STAT.ROOTLOCK 1) with flash := (((State.reset.flash.set (State.flashKey 7 3 16) 0x90 0xFF).set (State.flashKey 7 3 17) 0x2F 0xFF).set (State.flashKey 7 3 18) 0x50 0xFF).set (State.flashKey 7 3 19) 0x09 0xFF } : State).wr 7 CLK_STAT.ROOTLOCK 1).wr 7 CLK_STAT.HOLDOVER 0).wr 7 CLK_STAT.HOLDOVER 1).wr 7 CLK_STAT.HOLDOVER 0), 7, true, 1000, by decide +kernel⟩,
  ⟨((((({ (State.reset.wr 7 CLK_STAT.ROOTLOCK 1) with flash := (((State.reset.flash.set (State.flashKey 7 3 16) 0x90 0xFF).set (State.flashKey 7 3 17) 0x2F 0xFF).set (State.flashKey 7 3 18) 0x50 0xFF).set (State.flashKey 7 3 19) 0x09 0xFF } : State).wr 7 CLK_STAT.ROOTLOCK 1).wr 7 CLK_STAT.HOLDOVER 0).wr 7 CLK_STAT.HOLDOVER 1).wr 7 CLK_STAT.HOLDOVER 0), 7, 1000, by decide +kernel⟩,
  ⟨State.reset, 7, by decide +kernel⟩,
  ⟨(State.reset.modDie 7 fun r => { r with rootOut := true }), 7, by decide +kernel⟩,
  ⟨(State.reset.wr 7 CLK_STAT.HOLDOVER 1), 7, by decide +kernel⟩,
  ⟨State.reset, 7, by decide +kernel⟩,
  ⟨(State.reset.modDie 7 fun r => { r with relock := true }), 7, by decide +kernel⟩,
  ⟨State.reset, 7, by decide +kernel⟩,
  ⟨(State.reset.modDie 7 fun r => { r with holdoverAt := some 5000 }), 7, 5000, by decide +kernel⟩,
  ⟨State.reset, 7, by decide +kernel⟩,
  ⟨State.reset, 7, 1, by decide +kernel⟩,
  ⟨({ State.reset with spineDown := [(6, true), (7, true)] }), 0, 7, by decide +kernel⟩,
  ⟨(((((State.reset.modDie 7 fun r => { r with joined := true }).wr 7 CLK_STAT.ROOTLOCK 1).wr 7 CLK_STAT.HOLDOVER 1).wr 7
    CLK_SKEW.MAXSKEW 5).wr 0 CLK_STAT.PTALIGNED 1), 7,
    ((((((((State.reset.modDie 7 fun r => { r with joined := true }).wr 7 CLK_STAT.ROOTLOCK 1).wr 7 CLK_STAT.HOLDOVER 1).wr 7
    CLK_SKEW.MAXSKEW 5).wr 0 CLK_STAT.PTALIGNED 1)).master).get (by decide +kernel)), 0, by decide +kernel⟩,
  ⟨((((((State.reset.modDie 1 fun r => { r with joined := true }).wr 1 CLK_STAT.ROOTLOCK 1).wr 1 CLK_STAT.HOLDOVER 1).wr 1
    CLK_SKEW.MAXSKEW 0).wr 1 CLK_STAT.PTALIGNED 1).wr 0 CLK_STAT.PTALIGNED 1), 1,
    (((((((((State.reset.modDie 1 fun r => { r with joined := true }).wr 1 CLK_STAT.ROOTLOCK 1).wr 1 CLK_STAT.HOLDOVER 1).wr 1
    CLK_SKEW.MAXSKEW 0).wr 1 CLK_STAT.PTALIGNED 1).wr 0 CLK_STAT.PTALIGNED 1)).master).get (by decide +kernel)), -65535, by decide +kernel⟩,
  ⟨((((((State.reset.modDie 1 fun r => { r with joined := true }).wr 1 CLK_STAT.ROOTLOCK 1).wr 1 CLK_STAT.HOLDOVER 1).wr 1
    CLK_SKEW.MAXSKEW 0).wr 1 CLK_STAT.PTALIGNED 0).wr 0 CLK_STAT.PTALIGNED 1), 1,
    (((((((((State.reset.modDie 1 fun r => { r with joined := true }).wr 1 CLK_STAT.ROOTLOCK 1).wr 1 CLK_STAT.HOLDOVER 1).wr 1
    CLK_SKEW.MAXSKEW 0).wr 1 CLK_STAT.PTALIGNED 0).wr 0 CLK_STAT.PTALIGNED 1)).master).get (by decide +kernel)), -65535, by decide +kernel⟩,
  ⟨State.reset, 7, by decide +kernel⟩,
  ⟨(State.reset.wr 0 CLK_STAT.PTALIGNED 1), 7, ((((State.reset.wr 0 CLK_STAT.PTALIGNED 1)).master).get (by decide +kernel)), by decide +kernel⟩⟩

theorem witness_PackageTimeSlewsAndSteps :
    (∃ (s : State) (d : Nat), s.Live d ∧ s.master = none) ∧
    (∃ (s : State) (d : Nat) (v : Word) (m : Nat) (w : Word), s.Live d ∧ s.master = some m ∧
      (w = BitVec.ofNat 32 (putBit v.toNat 16 false) ∨ w = BitVec.ofNat 32 (putBit v.toNat 16 true)) ∧
      ((if bitOf w.toNat 18 = true then ((if bitOf w.toNat 17 = true then s.wr m CLK_PTADJ.STEPREF 0 else s) : State).wr m
      CLK_PTADJ.REMSAT 0 else ((if bitOf w.toNat 17 = true then s.wr m CLK_PTADJ.STEPREF 0 else s) : State)) : State).fabLock =
      true ∧ bitOf w.toNat 16 = false) ∧
    (∃ (s : State) (d : Nat) (v : Word) (m : Nat) (w : Word), s.Live d ∧ s.master = some m ∧
      (w = BitVec.ofNat 32 (putBit v.toNat 16 false) ∨ w = BitVec.ofNat 32 (putBit v.toNat 16 true)) ∧
      ((if bitOf w.toNat 18 = true then ((if bitOf w.toNat 17 = true then s.wr m CLK_PTADJ.STEPREF 0 else s) : State).wr m
      CLK_PTADJ.REMSAT 0 else ((if bitOf w.toNat 17 = true then s.wr m CLK_PTADJ.STEPREF 0 else s) : State)) : State).fabLock =
      true ∧ bitOf w.toNat 16 = true) ∧
    (∃ (s : State) (d : Nat) (v : Word) (m : Nat) (w : Word), s.Live d ∧ s.master = some m ∧
      (w = BitVec.ofNat 32 (putBit v.toNat 16 false) ∨ w = BitVec.ofNat 32 (putBit v.toNat 16 true)) ∧
      ((if bitOf w.toNat 18 = true then ((if bitOf w.toNat 17 = true then s.wr m CLK_PTADJ.STEPREF 0 else s) : State).wr m
      CLK_PTADJ.REMSAT 0 else ((if bitOf w.toNat 17 = true then s.wr m CLK_PTADJ.STEPREF 0 else s) : State)) : State).fabLock =
      false ∧ bitOf w.toNat 16 = false) ∧
    (∃ (s : State) (d : Nat) (v : Word) (m : Nat) (w : Word), s.Live d ∧ s.master = some m ∧
      (w = BitVec.ofNat 32 (putBit v.toNat 16 false) ∨ w = BitVec.ofNat 32 (putBit v.toNat 16 true)) ∧
      ((if bitOf w.toNat 18 = true then ((if bitOf w.toNat 17 = true then s.wr m CLK_PTADJ.STEPREF 0 else s) : State).wr m
      CLK_PTADJ.REMSAT 0 else ((if bitOf w.toNat 17 = true then s.wr m CLK_PTADJ.STEPREF 0 else s) : State)) : State).fabLock =
      false ∧ bitOf w.toNat 16 = true) ∧
    (∃ (s : State) (d m : Nat), s.Live d ∧ s.master = some m) ∧
    (∃ (s : State) (d : Nat), s.Live d ∧ s.rem = 0) ∧
    (∃ (s : State) (d : Nat) (m : _), s.Live d ∧ s.master = some m ∧ 0 < s.rem) ∧
    (∃ (s : State) (d : Nat) (m : _), s.Live d ∧ s.master = some m ∧ s.rem < 0) ∧
    (∃ (s : State) (d : Nat), s.Live d ∧ s.ptStep = none) ∧
    (∃ (s : State) (d : Nat) (p : _), s.Live d ∧ s.ptStep = some p ∧ ({ s.passTo p.tick with ptStep := none }).master = none) ∧
    (∃ (s : State) (d : Nat) (p : PtStep) (m : _), s.Live d ∧ s.ptStep = some p ∧
      ({ s.passTo p.tick with ptStep := none }).master = some m ∧ ({ s.passTo p.tick with ptStep := none }).stepAllowed = false) ∧
    (∃ (s : State) (d : Nat) (p : PtStep) (m : _), s.Live d ∧ s.ptStep = some p ∧
      ({ s.passTo p.tick with ptStep := none }).master = some m ∧ ({ s.passTo p.tick with ptStep := none }).stepAllowed = true) :=
  ⟨⟨State.reset, 7, by decide +kernel⟩,
  ⟨((State.reset.wr 0 CLK_STAT.PTALIGNED 1).wr 0 CLK_STAT.FABLOCK 1), 6, 0x200,
    (((((State.reset.wr 0 CLK_STAT.PTALIGNED 1).wr 0 CLK_STAT.FABLOCK 1)).master).get (by decide +kernel)),
    (BitVec.ofNat 32 (putBit (0x200 : Word).toNat 16 false) : Word), by decide +kernel, by decide +kernel,
    Or.inl ((by first | rfl | decide +kernel)), by decide +kernel⟩,
  ⟨((State.reset.wr 0 CLK_STAT.PTALIGNED 1).wr 0 CLK_STAT.FABLOCK 1), 6, 0x200,
    (((((State.reset.wr 0 CLK_STAT.PTALIGNED 1).wr 0 CLK_STAT.FABLOCK 1)).master).get (by decide +kernel)),
    (BitVec.ofNat 32 (putBit (0x200 : Word).toNat 16 true) : Word), by decide +kernel, by decide +kernel,
    Or.inr ((by first | rfl | decide +kernel)), by decide +kernel⟩,
  ⟨(State.reset.wr 0 CLK_STAT.PTALIGNED 1), 6, 0x200,
    ((((State.reset.wr 0 CLK_STAT.PTALIGNED 1)).master).get (by decide +kernel)),
    (BitVec.ofNat 32 (putBit (0x200 : Word).toNat 16 false) : Word), by decide +kernel, by decide +kernel,
    Or.inl ((by first | rfl | decide +kernel)), by decide +kernel⟩,
  ⟨(State.reset.wr 0 CLK_STAT.PTALIGNED 1), 6, 0x200,
    ((((State.reset.wr 0 CLK_STAT.PTALIGNED 1)).master).get (by decide +kernel)),
    (BitVec.ofNat 32 (putBit (0x200 : Word).toNat 16 true) : Word), by decide +kernel, by decide +kernel,
    Or.inr ((by first | rfl | decide +kernel)), by decide +kernel⟩,
  ⟨(State.reset.wr 0 CLK_STAT.PTALIGNED 1), 7, ((((State.reset.wr 0 CLK_STAT.PTALIGNED 1)).master).get (by decide +kernel)), by decide +kernel⟩,
  ⟨State.reset, 7, by decide +kernel⟩,
  ⟨((State.reset.wr 0 CLK_STAT.PTALIGNED 1).wr 0 CLK_PTREM.REM 1), 6,
    (((((State.reset.wr 0 CLK_STAT.PTALIGNED 1).wr 0 CLK_PTREM.REM 1)).master).get (by decide +kernel)), by decide +kernel⟩,
  ⟨((State.reset.wr 0 CLK_STAT.PTALIGNED 1).wrI 0 CLK_PTREM.REM (-1)), 6,
    (((((State.reset.wr 0 CLK_STAT.PTALIGNED 1).wrI 0 CLK_PTREM.REM (-1))).master).get (by decide +kernel)), by decide +kernel⟩,
  ⟨State.reset, 7, by decide +kernel⟩,
  ⟨({ State.reset with ptStep := some { tick := 5000, val := 7, cancel := false } } : State), 6,
    (((({ State.reset with ptStep := some { tick := 5000, val := 7, cancel := false } } : State)).ptStep).get
    (by decide +kernel)), by decide +kernel⟩,
  ⟨(((((({ State.reset with ptStep := some { tick := 5000, val := 7, cancel := false } } : State).wr 0 CLK_STAT.PTALIGNED 1).wr
    0 CLK_STAT.PTALIGNED 1).wr 0 GLB_PHASE.PHASE 5).wr 0 PAIR_STAT.ROLE 1).wr 0 PWM_CTRL.SAFE 0 0), 7,
    { tick := 5000, val := 7, cancel := false }, 0, by decide +kernel⟩,
  ⟨(({ State.reset with ptStep := some { tick := 5000, val := 7, cancel := false } } : State).wr 0 CLK_STAT.PTALIGNED 1), 6,
    { tick := 5000, val := 7, cancel := false }, 0, by decide +kernel⟩⟩

theorem witness_HartCsrCommandsHaveTheirEffect :
    (∃ (s : State) (d h k : Nat), s.hasDie d = true ∧ h < 2 ∧ s.hartRuns d h = false ∧ k < 16) ∧
    (∃ (s : State) (d h k : Nat), s.hasDie d = true ∧ h < 2 ∧ s.hartRuns d h = true ∧ (s.getHart d h).user = true ∧ k < 16) ∧
    (∃ (s : State) (d h : Nat), s.hasDie d = true ∧ h < 2) ∧
    (∃ (s : State) (d h : Nat), s.hasDie d = true ∧ h < 2 ∧ s.hartRuns d h = true ∧ (s.getHart d h).user = false) ∧
    (∃ (s : State) (d h : Nat), s.hasDie d = true ∧ h < 2 ∧ s.hartRuns d h = true ∧ (s.getHart d h).user = false ∧
      bitOf (csrVal s d h 0x7C4) 16 = false) ∧
    (∃ (s : State) (d h : Nat), s.hasDie d = true ∧ h < 2 ∧ s.hartRuns d h = true ∧ (s.getHart d h).user = false ∧
      bitOf (csrVal s d h 0x7C4) 16 = true) ∧
    (∃ (s : State) (d h : Nat) (k : _), s.hasDie d = true ∧ h < 2 ∧ s.hartRuns d h = true ∧ (s.getHart d h).user = false ∧
      k < 16 ∧ bitOf (s.getHart d (1 - h)).sem k = true) ∧
    (∃ (s : State) (d h : Nat) (k : _), s.hasDie d = true ∧ h < 2 ∧ s.hartRuns d h = true ∧ (s.getHart d h).user = false ∧
      k < 16 ∧ bitOf (s.getHart d (1 - h)).sem k = false) ∧
    (∃ (s : State) (d h : Nat), s.hasDie d = true ∧ h < 2 ∧ s.hartRuns d h = true ∧ s.ptD d < (s.getHart d h).cmp) ∧
    (∃ (s : State) (d h : Nat), s.hasDie d = true ∧ h < 2 ∧ s.hartRuns d h = true ∧ (s.getHart d h).cmp ≤ s.ptD d) ∧
    (∃ (s : State) (d h : Nat) (w : _) (t : _), s.hasDie d = true ∧ h < 2 ∧ s.hartRuns d h = true ∧
      (s.getHart d h).resv = some (w, t)) ∧
    (∃ (s : State) (d h : Nat), s.hasDie d = true ∧ h < 2 ∧ s.hartRuns d h = true ∧ (s.getHart d h).resv = none) :=
  ⟨⟨State.reset, 6, 0, 2, by decide +kernel⟩,
  ⟨((State.reset.modHart 7 1 fun r => { r with user := true }).modHart 7 1 fun r => { r with run := true }), 7, 1, 15, by decide +kernel⟩,
  ⟨State.reset, 7, 1, by decide +kernel⟩,
  ⟨(State.reset.modHart 7 1 fun r => { r with run := true }), 7, 1, by decide +kernel⟩,
  ⟨(State.reset.modHart 7 1 fun r => { r with run := true }), 7, 1, by decide +kernel⟩,
  ⟨((State.reset.modHart 6 0 fun r => { r with run := true }).modHart 6 0 fun r =>
    { r with run := true, csr := r.csr.set 0x7C4 0x10000 (csrDflt 0x7C4) }), 6, 0, by decide +kernel⟩,
  ⟨(((State.reset.modHart 1 1 fun r => { r with user := false }).modHart 1 (1 - 1) fun r => { r with sem := 255 }).modHart 1 1
    fun r => { r with run := true }), 1, 1, 1, by decide +kernel⟩,
  ⟨((State.reset.modHart 7 (1 - 1) fun r => { r with sem := 255 }).modHart 7 1 fun r => { r with run := true }), 7, 1, 15, by decide +kernel⟩,
  ⟨(State.reset.modHart 7 1 fun r => { r with run := true }), 7, 1, by decide +kernel⟩,
  ⟨((({ (State.reset.modHart 7 1 fun r => { r with run := true }) with now := 100, pt := 100 }).modHart 7 1 fun r =>
    { r with run := true }).modHart 7 1 fun r => { r with cmp := 0 }), 7, 1, by decide +kernel⟩,
  ⟨((State.reset.modHart 6 0 fun r => { r with run := true }).modHart 6 0 fun x => { x with run := true, resv := some (0, 0) }),
    6, 0, ((((((State.reset.modHart 6 0 fun r => { r with run := true }).modHart 6 0 fun x =>
    { x with run := true, resv := some (0, 0) })).getHart 6 0).resv).get (by decide +kernel)).1,
    ((((((State.reset.modHart 6 0 fun r => { r with run := true }).modHart 6 0 fun x =>
    { x with run := true, resv := some (0, 0) })).getHart 6 0).resv).get (by decide +kernel)).2, by decide +kernel⟩,
  ⟨((State.reset.modHart 7 1 fun r => { r with resv := none }).modHart 7 1 fun r => { r with run := true }), 7, 1, by decide +kernel⟩⟩

theorem witness_HartMemoryAccessesAnswerOrTrap :
    (∃ (s : State) (d h : Nat) (a : HartAcc), s.hasDie d = true ∧ h < 2 ∧ (a.size = 1 ∨ a.size = 2 ∨ a.size = 4) ∧
      a.addr < 2 ^ 32 ∧ s.hartRuns d h = false) ∧
    (∃ (s : State) (d : Nat) (h : Nat) (a : HartAcc) (n : Nat) (pc : Nat) (b : HartAcc) (f : State), s.hasDie d = true ∧ h < 2 ∧
      (a.size = 1 ∨ a.size = 2 ∨ a.size = 4) ∧ a.addr < 2 ^ 32 ∧ s.hartRuns d h = true ∧
      n = (if accAtomic a.kind = true then 4 else a.size) ∧ pc = (if a.kind = .fetch then a.addr else a.pc) ∧
      b = { a with pc := pc } ∧ f = trap d h (accFault a.kind) a.addr pc s ∧ a.fp = true ∧ (a.kind = .load ∨ a.kind = .store) ∧
      fpOff s d h = true) ∧
    (∃ (s : State) (d h : Nat) (a : HartAcc), s.hasDie d = true ∧ h < 2 ∧ (a.size = 1 ∨ a.size = 2 ∨ a.size = 4) ∧
      a.addr < 2 ^ 32 ∧ s.hartRuns d h = true ∧ accAtomic a.kind = true ∧ a.addr % 4 ≠ 0) ∧
    (∃ (s : State) (d : Nat) (h : Nat) (a : HartAcc) (n : Nat) (pc : Nat) (b : HartAcc) (f : State), s.hasDie d = true ∧ h < 2 ∧
      (a.size = 1 ∨ a.size = 2 ∨ a.size = 4) ∧ a.addr < 2 ^ 32 ∧ s.hartRuns d h = true ∧
      n = (if accAtomic a.kind = true then 4 else a.size) ∧ pc = (if a.kind = .fetch then a.addr else a.pc) ∧
      b = { a with pc := pc } ∧ f = trap d h (accFault a.kind) a.addr pc s ∧ ¬ (accAtomic a.kind = true ∧ a.addr % 4 ≠ 0) ∧
      (¬ (a.fp = true ∧ (a.kind = .load ∨ a.kind = .store) ∧ fpOff s d h = true)) ∧
      pmpOk s d h (accUser s d h a.kind) a.addr n (accNeed a.kind) = false) ∧
    (∃ (s : State) (d h : Nat) (a : HartAcc), s.hasDie d = true ∧ h < 2 ∧ (a.size = 1 ∨ a.size = 2 ∨ a.size = 4) ∧
      a.addr < 2 ^ 32 ∧ s.hartRuns d h = true ∧ ¬ (accAtomic a.kind = true ∧ a.addr % 4 ≠ 0) ∧ (¬ (a.fp = true ∧
      (a.kind = .load ∨ a.kind = .store) ∧ fpOff s d h = true)) ∧
      pmpOk s d h (accUser s d h a.kind) a.addr ((if accAtomic a.kind = true then 4 else a.size) : Nat) (accNeed a.kind) = true ∧
      (hartPlace s d h a.addr = .nothing ∨ (hartPlace s d h a.addr = .tcm ∧
      0x80000 < a.addr + ((if accAtomic a.kind = true then 4 else a.size) : Nat)) ∨ (hartPlace s d h a.addr = .rom ∧
      (accStores a.kind = true ∨ accAtomic a.kind = true ∨ accUser s d h a.kind = true)) ∨ (accAtomic a.kind = true ∧
      hartPlace s d h a.addr ≠ .tcm))) ∧
    (∃ (s : State) (d h : Nat) (a : HartAcc), s.hasDie d = true ∧ h < 2 ∧ (a.size = 1 ∨ a.size = 2 ∨ a.size = 4) ∧
      a.addr < 2 ^ 32 ∧ s.hartRuns d h = true ∧ ¬ (accAtomic a.kind = true ∧ a.addr % 4 ≠ 0) ∧ (¬ (a.fp = true ∧
      (a.kind = .load ∨ a.kind = .store) ∧ fpOff s d h = true)) ∧
      pmpOk s d h (accUser s d h a.kind) a.addr ((if accAtomic a.kind = true then 4 else a.size) : Nat) (accNeed a.kind) = true ∧
      hartPlace s d h a.addr = .rom ∧ (a.kind = .fetch ∨ a.kind = .load) ∧ accUser s d h a.kind = false) ∧
    (∃ (s : State) (d : Nat) (h : Nat) (a : HartAcc) (n : Nat) (pc : Nat) (b : HartAcc) (f : State), s.hasDie d = true ∧ h < 2 ∧
      (a.size = 1 ∨ a.size = 2 ∨ a.size = 4) ∧ a.addr < 2 ^ 32 ∧ s.hartRuns d h = true ∧
      n = (if accAtomic a.kind = true then 4 else a.size) ∧ pc = (if a.kind = .fetch then a.addr else a.pc) ∧
      b = { a with pc := pc } ∧ f = trap d h (accFault a.kind) a.addr pc s ∧ ¬ (accAtomic a.kind = true ∧ a.addr % 4 ≠ 0) ∧
      (¬ (a.fp = true ∧ (a.kind = .load ∨ a.kind = .store) ∧ fpOff s d h = true)) ∧
      pmpOk s d h (accUser s d h a.kind) a.addr n (accNeed a.kind) = true ∧ hartPlace s d h a.addr = .tcm ∧
      a.addr + n ≤ 0x80000) ∧
    (∃ (s : State) (d : Nat) (h : Nat) (a : HartAcc) (n : Nat) (pc : Nat) (b : HartAcc) (f : State) (x : Nat),
      s.hasDie d = true ∧ h < 2 ∧ (a.size = 1 ∨ a.size = 2 ∨ a.size = 4) ∧ a.addr < 2 ^ 32 ∧ s.hartRuns d h = true ∧
      n = (if accAtomic a.kind = true then 4 else a.size) ∧ pc = (if a.kind = .fetch then a.addr else a.pc) ∧
      b = { a with pc := pc } ∧ f = trap d h (accFault a.kind) a.addr pc s ∧ ¬ (accAtomic a.kind = true ∧ a.addr % 4 ≠ 0) ∧
      (¬ (a.fp = true ∧ (a.kind = .load ∨ a.kind = .store) ∧ fpOff s d h = true)) ∧
      pmpOk s d h (accUser s d h a.kind) a.addr n (accNeed a.kind) = true ∧ hartPlace s d h a.addr = .bus x ∧
      accAtomic a.kind = false) ∧
    (∃ (s : State) (d : Nat) (h : Nat) (a : HartAcc) (n : Nat) (pc : Nat) (b : HartAcc) (f : State) (x : Nat),
      s.hasDie d = true ∧ h < 2 ∧ (a.size = 1 ∨ a.size = 2 ∨ a.size = 4) ∧ a.addr < 2 ^ 32 ∧ s.hartRuns d h = true ∧
      n = (if accAtomic a.kind = true then 4 else a.size) ∧ pc = (if a.kind = .fetch then a.addr else a.pc) ∧
      b = { a with pc := pc } ∧ f = trap d h (accFault a.kind) a.addr pc s ∧ ¬ (accAtomic a.kind = true ∧ a.addr % 4 ≠ 0) ∧
      (¬ (a.fp = true ∧ (a.kind = .load ∨ a.kind = .store) ∧ fpOff s d h = true)) ∧
      pmpOk s d h (accUser s d h a.kind) a.addr n (accNeed a.kind) = true ∧ hartPlace s d h a.addr = .dram x ∧
      accAtomic a.kind = false ∧ s.dramSrv = none) ∧
    (∃ (s : State) (d h : Nat) (a : HartAcc), s.hasDie d = true ∧ h < 2 ∧ (a.size = 1 ∨ a.size = 2 ∨ a.size = 4) ∧
      a.addr < 2 ^ 32 ∧ a.kind = .store ∧ a.addr % 4 = 0) ∧
    (∃ (s : State) (d h : Nat) (a : HartAcc) (n : _), s.hasDie d = true ∧ h < 2 ∧ (a.size = 1 ∨ a.size = 2 ∨ a.size = 4) ∧
      a.addr < 2 ^ 32 ∧ a.kind = .store ∧ (n < 4 ∨ a.addr % 4 ≠ 0) ∧ a.ecc ≠ 2) ∧
    (∃ (s : State) (d h : Nat) (a : HartAcc) (op : _), s.hasDie d = true ∧ h < 2 ∧ (a.size = 1 ∨ a.size = 2 ∨ a.size = 4) ∧
      a.addr < 2 ^ 32 ∧ a.kind = .amo op ∧ a.ecc ≠ 2) ∧
    (∃ (s : State) (d h : Nat) (a : HartAcc), s.hasDie d = true ∧ h < 2 ∧ (a.size = 1 ∨ a.size = 2 ∨ a.size = 4) ∧
      a.addr < 2 ^ 32 ∧ a.kind = .lr ∧ a.ecc ≠ 2) ∧
    (∃ (s : State) (d h : Nat) (a : HartAcc), s.hasDie d = true ∧ h < 2 ∧ (a.size = 1 ∨ a.size = 2 ∨ a.size = 4) ∧
      a.addr < 2 ^ 32 ∧ (a.kind = .load ∨ a.kind = .fetch) ∧ a.ecc ≠ 2) ∧
    (∃ (s : State) (d h : Nat) (a : HartAcc) (n : _), s.hasDie d = true ∧ h < 2 ∧ (a.size = 1 ∨ a.size = 2 ∨ a.size = 4) ∧
      a.addr < 2 ^ 32 ∧ a.ecc = 2 ∧ a.kind ≠ .sc ∧ ¬ (a.kind = .store ∧ n = 4 ∧ a.addr % 4 = 0) ∧ n ≤ 4) ∧
    (∃ (s : State) (d h : Nat) (a : HartAcc) (t : _), s.hasDie d = true ∧ h < 2 ∧ (a.size = 1 ∨ a.size = 2 ∨ a.size = 4) ∧
      a.addr < 2 ^ 32 ∧ a.kind = .sc ∧ (s.getHart d h).resv = some (tcmAt h a.addr, t) ∧ s.now < t + 512) ∧
    (∃ (s : State) (d h : Nat) (a : HartAcc), s.hasDie d = true ∧ h < 2 ∧ (a.size = 1 ∨ a.size = 2 ∨ a.size = 4) ∧
      a.addr < 2 ^ 32 ∧ a.kind = .sc ∧ (∀ w t, (s.getHart d h).resv = some (w, t) → w ≠ tcmAt h a.addr ∨ t + 512 ≤ s.now)) ∧
    (∃ (s : State) (d h : Nat) (a : HartAcc), s.hasDie d = true ∧ h < 2 ∧ (a.size = 1 ∨ a.size = 2 ∨ a.size = 4) ∧
      a.addr < 2 ^ 32 ∧ a.kind = .fetch) ∧
    (∃ (s : State) (d h : Nat) (a : HartAcc), s.hasDie d = true ∧ h < 2 ∧ (a.size = 1 ∨ a.size = 2 ∨ a.size = 4) ∧
      a.addr < 2 ^ 32 ∧ a.kind ≠ .fetch ∧ a.fp = true) ∧
    (∃ (s : State) (d h : Nat) (a : HartAcc), s.hasDie d = true ∧ h < 2 ∧ (a.size = 1 ∨ a.size = 2 ∨ a.size = 4) ∧
      a.addr < 2 ^ 32 ∧ a.kind ≠ .fetch ∧ a.fp = false) ∧
    (∃ (s : State) (d h : Nat) (a : HartAcc) (r : _), s.hasDie d = true ∧ h < 2 ∧ (a.size = 1 ∨ a.size = 2 ∨ a.size = 4) ∧
      a.addr < 2 ^ 32 ∧ r % 32 = 0) ∧
    (∃ (s : State) (d h : Nat) (a : HartAcc) (r : _), s.hasDie d = true ∧ h < 2 ∧ (a.size = 1 ∨ a.size = 2 ∨ a.size = 4) ∧
      a.addr < 2 ^ 32 ∧ r % 32 ≠ 0) :=
  ⟨⟨State.reset, 6, 0, { kind := .fetch, addr := 0xFFFF0000, size := 4, ecc := 2 }, by decide +kernel⟩,
  ⟨(State.reset.modHart 7 1 fun r => { r with run := true }), 7, 1, { kind := .load, addr := 0x7FFFC, size := 4, fp := true },
    _, _, _, _, by decide +kernel, by decide +kernel, by decide +kernel, by decide +kernel, by decide +kernel, rfl, rfl, rfl,
    rfl, by decide +kernel, by decide +kernel, by decide +kernel⟩,
  ⟨(State.reset.modHart 1 1 fun r => { r with run := true }), 1, 1, { kind := .lr, addr := 0x7FFFE, size := 1, ecc := 1 }, by decide +kernel⟩,
  ⟨(State.reset.modHart 7 1 fun r => { r with run := true, user := true }), 7, 1, { kind := .load, addr := 0x7FFFC, size := 4 },
    _, _, _, _, by decide +kernel, by decide +kernel, by decide +kernel, by decide +kernel, by decide +kernel, rfl, rfl, rfl,
    rfl, by decide +kernel, by decide +kernel, by decide +kernel⟩,
  ⟨(State.reset.modHart 7 1 fun r => { r with run := true }), 7, 1, { kind := .sc, addr := 0x80000, size := 4, ecc := 0 }, by decide +kernel⟩,
  ⟨(State.reset.modHart 7 1 fun r => { r with run := true }), 7, 1, { kind := .load, addr := 0x80000, size := 4, ecc := 2 }, by decide +kernel⟩,
  ⟨(State.reset.modHart 7 1 fun r => { r with run := true }), 7, 1, { kind := .load, addr := 0x7FFFC, size := 4 }, _, _, _, _, by decide +kernel, by decide +kernel, by decide +kernel, by decide +kernel, by decide +kernel, rfl, rfl, rfl, rfl, by decide +kernel, by decide +kernel, by decide +kernel, by decide +kernel, by decide +kernel⟩,
  ⟨(State.reset.modHart 7 1 fun r => { r with run := true }), 7, 1, { kind := .load, addr := 0x2FFFFFFC, size := 4 }, _, _, _,
    _, 0xFFFFFFC, by decide +kernel, by decide +kernel, by decide +kernel, by decide +kernel, by decide +kernel, rfl, rfl, rfl,
    rfl, by decide +kernel, by decide +kernel, by decide +kernel, by decide +kernel, by decide +kernel⟩,
  ⟨(State.reset.modHart 7 1 fun r => { r with run := true }), 7, 1, { kind := .load, addr := 0xFFFFFFFC, size := 4 }, _, _, _,
    _, (match hartPlace (State.reset.modHart 7 1 fun r => { r with run := true }) 7 1 0xFFFFFFFC with | .dram w => w | _ => 0), by decide +kernel, by decide +kernel, by decide +kernel, by decide +kernel, by decide +kernel, rfl, rfl, rfl, rfl, by decide +kernel, by decide +kernel, by decide +kernel, by decide +kernel, by decide +kernel, by decide +kernel⟩,
  ⟨State.reset, 7, 1, { kind := .store, addr := 0x80000, size := 4, ecc := 2 }, by decide +kernel⟩,
  ⟨State.reset, 1, 1, { kind := .store, addr := 0x7FFFE, size := 1, ecc := 1 }, 9, by decide +kernel⟩,
  ⟨(State.reset.modHart 0 0 fun r => { r with run := true }), 0, 0, { kind := .amo .add, addr := 0x80000, size := 1, ecc := 1 },
    (match ({ kind := .amo .add, addr := 0x80000, size := 1, ecc := 1 } : HartAcc).kind with | .amo w => w | _ => .swap), by decide +kernel⟩,
  ⟨State.reset, 0, 0, { kind := .lr, addr := 0x7FFFC, size := 1, ecc := 1 }, by decide +kernel⟩,
  ⟨State.reset, 7, 1, { kind := .load, addr := 0x7FFFC, size := 4, ecc := 0 }, by decide +kernel⟩,
  ⟨State.reset, 6, 0, { kind := .lr, addr := 0x40000000, size := 4, ecc := 2 }, 3, by decide +kernel⟩,
  ⟨(((State.reset.modHart 7 1 fun r => { r with run := true }).modHart 7 1 fun x =>
    { x with run := true, resv := some (tcmAt 1 0x7FFF8, 0) }).modHart 7 1 fun r =>
    { r with resv := some (tcmAt 1 ({ kind := .sc, addr := 0x80000, size := 4, ecc := 0 } : HartAcc).addr, 0) }), 7, 1,
    { kind := .sc, addr := 0x80000, size := 4, ecc := 0 }, 0, by decide +kernel⟩,
  ⟨(State.reset.modHart 7 1 fun r => { r with run := true }), 7, 1, { kind := .sc, addr := 0x80000, size := 4, ecc := 0 }, by decide +kernel, by decide +kernel, by decide +kernel, by decide +kernel, by decide +kernel,
    fun _ _ h => absurd (show (Option.isSome _ : Bool) = true from congrArg Option.isSome h) (by decide +kernel)⟩,
  ⟨State.reset, 6, 0, { kind := .fetch, addr := 0xFFFF0000, size := 4, ecc := 2 }, by decide +kernel⟩,
  ⟨(State.reset.modHart 6 0 fun r => { r with run := true }), 6, 0,
    { kind := .load, addr := 0x7FFF8, size := 4, ecc := 0, fp := true }, by decide +kernel⟩,
  ⟨State.reset, 7, 1, { kind := .load, addr := 0x80000, size := 4, ecc := 2 }, by decide +kernel⟩,
  ⟨State.reset, 7, 1, { kind := .load, addr := 0x7FFFC, size := 4, ecc := 0 }, 0, by decide +kernel⟩,
  ⟨State.reset, 6, 0, { kind := .fetch, addr := 0xFFFF0000, size := 4, ecc := 2 }, 15, by decide +kernel⟩⟩

theorem witness_RegisterAccessesReachTheirWordOrFault :
    (∃ (s : State) (f m a size : Nat), s.Live f ∧ m < 7 ∧ a < 0x10000000 ∧ busFault s f a size = none) ∧
    (∃ (s : State) (f m a : Nat) (size : _) (c : _) (e : _), s.Live f ∧ m < 7 ∧ a < 0x10000000 ∧ busFault s f a size = some (c,
      e)) ∧
    (∃ (s : State) (f m a : Nat), s.Live f ∧ m < 7 ∧ a < 0x10000000) ∧
    (∃ (s : State) (f m a : Nat), s.hasDie f = true ∧ (s.getDie f).inReset = true ∧ m < 7 ∧ a < 0x10000000) ∧
    (∃ (o : Nat), 0x200000 ≤ o ∧ o < 0x220000) ∧
    (∃ (o : Nat), 0x300000 ≤ o ∧ o < 0x310000) ∧
    (∃ (o : Nat) (r : _) (n : _) (k : _), ¬ (0x200000 ≤ o ∧ o < 0x220000) ∧ inProg o = false ∧ regAt o = some (r, n, k) ∧
      forwardedAt o = false) ∧
    (∃ (s : State) (d o : Nat) (r : _) (n : _) (k : _), ¬ (0x200000 ≤ o ∧ o < 0x220000) ∧ inProg o = false ∧ regAt o = some (r,
      n, k) ∧ forwardedAt o = true ∧ o ≠ LAW_BANK.ACT.addr 0 n 0 ∧ s.forwards d = true) ∧
    (∃ (s : State) (d o : Nat) (r : _) (n : _) (k : _), ¬ (0x200000 ≤ o ∧ o < 0x220000) ∧ inProg o = false ∧ regAt o = some (r,
      n, k) ∧ forwardedAt o = true ∧ o ≠ LAW_BANK.ACT.addr 0 n 0 ∧ s.forwards d = false ∧ s.notHeld d o = false) ∧
    (∃ (s : State) (d h num : Nat), s.hasDie d = true ∧ h < 2 ∧ num < 4096 ∧ s.hartRuns d h = false) ∧
    (∃ (s : State) (d h num : Nat) (wr : Bool), s.hasDie d = true ∧ h < 2 ∧ num < 4096 ∧ s.hartRuns d h = true ∧
      csrOk s d h num wr = false) ∧
    (∃ (s : State) (d h num : Nat) (wr : Bool), s.hasDie d = true ∧ h < 2 ∧ num < 4096 ∧ s.hartRuns d h = true ∧
      csrOk s d h num wr = true) ∧
    (∃ (s : State) (d n j k c x t r len q : Nat) (v : Word) (up : Bool) (i : Instr) (off : Nat) (w : Word) (f : Nat → State →
      State), s.Live d ∧ n < 8 ∧ j < 3 ∧ k < 4 ∧ c < 64 ∧ x < 16 ∧ t < 4 ∧ r < 3 ∧ ((i, off, w, f) ∈ ([ (.excWrite d n r v,
      (excReg r).addr 0 n 0, v, excWrite n r v s.pt), (.trkCtrlWrite d n v, TRK_CTRL.TYPE.addr 0 n 0, v, trkCtrlWrite n v s.pt),
      (.trkRearm d n, TRK_CTRL.TYPE.addr 0 n 0, rearmWord s d n, fun e => trkRearm e n), (.trkSectorWrite d n v,
      TRK_SECTOR.SECTOR.addr 0 n 0, v, trkSectorWrite n v), (.trkXreq d n v, TRK_XREQ.PT.addr 0 n 0 + 4, v, trkXreq n v),
      (.tblDescWrite d n t v, TBL_DESC.ROLE.addr 0 n t, v, tblDescWrite n t v), (.encRawWrite d n v, ENC_RAW.COUNT.addr 0 n 0,
      v, encRawWrite n v), (.encIdxWrite d n v, ENC_IDX.MODE.addr 0 n 0, v, encIdxWrite n v), (.encIdxArm d n,
      ENC_IDX.MODE.addr 0 n 0, armWord s d n, encIdxArm n), (.prbStatWrite d n v, PRB_STAT.FULL.addr 0 n 0, v, prbStatWrite n),
      (.filApply d c, FIL_CFG.L3.addr 0 c 0, applyWord s d c, fun e u => filApply c s.pt e (u.wr e FIL_CFG.PEND 1 c)),
      (.filSyncGo d, FIL_SYNCCTL.GO.addr 0 0 0, 1, filSyncGo s.pt), (.acqCmpWrite d n k up v, (cmpThr up).addr 0 n k, v,
      acqCmpWrite n k up v), (.detCfgWrite d x r v, (if r = 0 then DET_CFG.SRC else DET_N.N).addr 0 x 0, v, detCfgWrite x r v),
      (.lptCtrlWrite d v, LPT_CTRL.EN.addr 0 0 0, v, lptCtrlWrite v), (.lawStart d n len, LAW_CTRL.RUN.addr 0 n 0,
      (BitVec.ofNat 32 (1 + len % 128 * 256) : Word), lawCtrlWrite n (BitVec.ofNat 32 (1 + len % 128 * 256) : Word) s.pt),
      (.lawStop d n len, LAW_CTRL.RUN.addr 0 n 0, (BitVec.ofNat 32 (len % 128 * 256) : Word),
      lawCtrlWrite n (BitVec.ofNat 32 (len % 128 * 256) : Word) s.pt), (.lawBankReq d n q len, LAW_BANK.ACT.addr 0 n 0,
      (BitVec.ofNat 32 (q % 2 * 256 + 512 + len % 65536 * 65536) : Word),
      bankShared n (BitVec.ofNat 32 (q % 2 * 256 + 512 + len % 65536 * 65536) : Word)), (.pwmDutyWrite d n j v,
      PWM_DUTY.DUTY.addr 0 n j, v, pwmDutyReg n j v), (.pwmSafeWrite d n v, PWM_SAFE.LVL.addr 0 n 0, v, pwmSafeWrite n v),
      (.pwmCtrlWrite d n v, PWM_CTRL.EN.addr 0 n 0, v, pwmCtrlWrite n v), (.tuneStart d n, TUNE_CTRL.RSLOT.addr 0 n 0,
      tuneWord s d n 24, tuneCtrlWrite n (tuneWord s d n 24)), (.tuneAbort d n, TUNE_CTRL.RSLOT.addr 0 n 0, tuneWord s d n 25,
      tuneCtrlWrite n (tuneWord s d n 25))] ++ (if hasMux c = true then [(Instr.acqMuxWrite d c v,
      (muxField c).1.addr 0 (muxField c).2.1 (muxField c).2.2, v,
      acqMuxWrite c v s.pt)] else []) : List (Instr × Nat × Word × (Nat → State → State)))) ∧ s.forwards d = true) ∧
    (∃ (s : State) (d n j k c x t r len q : Nat) (v : Word) (up : Bool) (i : Instr) (off : Nat) (w : Word) (f : Nat → State →
      State), s.Live d ∧ n < 8 ∧ j < 3 ∧ k < 4 ∧ c < 64 ∧ x < 16 ∧ t < 4 ∧ r < 3 ∧ ((i, off, w, f) ∈ ([ (.excWrite d n r v,
      (excReg r).addr 0 n 0, v, excWrite n r v s.pt), (.trkCtrlWrite d n v, TRK_CTRL.TYPE.addr 0 n 0, v, trkCtrlWrite n v s.pt),
      (.trkRearm d n, TRK_CTRL.TYPE.addr 0 n 0, rearmWord s d n, fun e => trkRearm e n), (.trkSectorWrite d n v,
      TRK_SECTOR.SECTOR.addr 0 n 0, v, trkSectorWrite n v), (.trkXreq d n v, TRK_XREQ.PT.addr 0 n 0 + 4, v, trkXreq n v),
      (.tblDescWrite d n t v, TBL_DESC.ROLE.addr 0 n t, v, tblDescWrite n t v), (.encRawWrite d n v, ENC_RAW.COUNT.addr 0 n 0,
      v, encRawWrite n v), (.encIdxWrite d n v, ENC_IDX.MODE.addr 0 n 0, v, encIdxWrite n v), (.encIdxArm d n,
      ENC_IDX.MODE.addr 0 n 0, armWord s d n, encIdxArm n), (.prbStatWrite d n v, PRB_STAT.FULL.addr 0 n 0, v, prbStatWrite n),
      (.filApply d c, FIL_CFG.L3.addr 0 c 0, applyWord s d c, fun e u => filApply c s.pt e (u.wr e FIL_CFG.PEND 1 c)),
      (.filSyncGo d, FIL_SYNCCTL.GO.addr 0 0 0, 1, filSyncGo s.pt), (.acqCmpWrite d n k up v, (cmpThr up).addr 0 n k, v,
      acqCmpWrite n k up v), (.detCfgWrite d x r v, (if r = 0 then DET_CFG.SRC else DET_N.N).addr 0 x 0, v, detCfgWrite x r v),
      (.lptCtrlWrite d v, LPT_CTRL.EN.addr 0 0 0, v, lptCtrlWrite v), (.lawStart d n len, LAW_CTRL.RUN.addr 0 n 0,
      (BitVec.ofNat 32 (1 + len % 128 * 256) : Word), lawCtrlWrite n (BitVec.ofNat 32 (1 + len % 128 * 256) : Word) s.pt),
      (.lawStop d n len, LAW_CTRL.RUN.addr 0 n 0, (BitVec.ofNat 32 (len % 128 * 256) : Word),
      lawCtrlWrite n (BitVec.ofNat 32 (len % 128 * 256) : Word) s.pt), (.lawBankReq d n q len, LAW_BANK.ACT.addr 0 n 0,
      (BitVec.ofNat 32 (q % 2 * 256 + 512 + len % 65536 * 65536) : Word),
      bankShared n (BitVec.ofNat 32 (q % 2 * 256 + 512 + len % 65536 * 65536) : Word)), (.pwmDutyWrite d n j v,
      PWM_DUTY.DUTY.addr 0 n j, v, pwmDutyReg n j v), (.pwmSafeWrite d n v, PWM_SAFE.LVL.addr 0 n 0, v, pwmSafeWrite n v),
      (.pwmCtrlWrite d n v, PWM_CTRL.EN.addr 0 n 0, v, pwmCtrlWrite n v), (.tuneStart d n, TUNE_CTRL.RSLOT.addr 0 n 0,
      tuneWord s d n 24, tuneCtrlWrite n (tuneWord s d n 24)), (.tuneAbort d n, TUNE_CTRL.RSLOT.addr 0 n 0, tuneWord s d n 25,
      tuneCtrlWrite n (tuneWord s d n 25))] ++ (if hasMux c = true then [(Instr.acqMuxWrite d c v,
      (muxField c).1.addr 0 (muxField c).2.1 (muxField c).2.2, v,
      acqMuxWrite c v s.pt)] else []) : List (Instr × Nat × Word × (Nat → State → State)))) ∧ s.forwards d = false ∧
      s.notHeld d off = true) ∧
    (∃ (s : State) (d n j k c x t r len q : Nat) (v : Word) (up : Bool) (i : Instr) (off : Nat) (w : Word) (f : Nat → State →
      State), s.Live d ∧ n < 8 ∧ j < 3 ∧ k < 4 ∧ c < 64 ∧ x < 16 ∧ t < 4 ∧ r < 3 ∧ ((i, off, w, f) ∈ ([ (.excWrite d n r v,
      (excReg r).addr 0 n 0, v, excWrite n r v s.pt), (.trkCtrlWrite d n v, TRK_CTRL.TYPE.addr 0 n 0, v, trkCtrlWrite n v s.pt),
      (.trkRearm d n, TRK_CTRL.TYPE.addr 0 n 0, rearmWord s d n, fun e => trkRearm e n), (.trkSectorWrite d n v,
      TRK_SECTOR.SECTOR.addr 0 n 0, v, trkSectorWrite n v), (.trkXreq d n v, TRK_XREQ.PT.addr 0 n 0 + 4, v, trkXreq n v),
      (.tblDescWrite d n t v, TBL_DESC.ROLE.addr 0 n t, v, tblDescWrite n t v), (.encRawWrite d n v, ENC_RAW.COUNT.addr 0 n 0,
      v, encRawWrite n v), (.encIdxWrite d n v, ENC_IDX.MODE.addr 0 n 0, v, encIdxWrite n v), (.encIdxArm d n,
      ENC_IDX.MODE.addr 0 n 0, armWord s d n, encIdxArm n), (.prbStatWrite d n v, PRB_STAT.FULL.addr 0 n 0, v, prbStatWrite n),
      (.filApply d c, FIL_CFG.L3.addr 0 c 0, applyWord s d c, fun e u => filApply c s.pt e (u.wr e FIL_CFG.PEND 1 c)),
      (.filSyncGo d, FIL_SYNCCTL.GO.addr 0 0 0, 1, filSyncGo s.pt), (.acqCmpWrite d n k up v, (cmpThr up).addr 0 n k, v,
      acqCmpWrite n k up v), (.detCfgWrite d x r v, (if r = 0 then DET_CFG.SRC else DET_N.N).addr 0 x 0, v, detCfgWrite x r v),
      (.lptCtrlWrite d v, LPT_CTRL.EN.addr 0 0 0, v, lptCtrlWrite v), (.lawStart d n len, LAW_CTRL.RUN.addr 0 n 0,
      (BitVec.ofNat 32 (1 + len % 128 * 256) : Word), lawCtrlWrite n (BitVec.ofNat 32 (1 + len % 128 * 256) : Word) s.pt),
      (.lawStop d n len, LAW_CTRL.RUN.addr 0 n 0, (BitVec.ofNat 32 (len % 128 * 256) : Word),
      lawCtrlWrite n (BitVec.ofNat 32 (len % 128 * 256) : Word) s.pt), (.lawBankReq d n q len, LAW_BANK.ACT.addr 0 n 0,
      (BitVec.ofNat 32 (q % 2 * 256 + 512 + len % 65536 * 65536) : Word),
      bankShared n (BitVec.ofNat 32 (q % 2 * 256 + 512 + len % 65536 * 65536) : Word)), (.pwmDutyWrite d n j v,
      PWM_DUTY.DUTY.addr 0 n j, v, pwmDutyReg n j v), (.pwmSafeWrite d n v, PWM_SAFE.LVL.addr 0 n 0, v, pwmSafeWrite n v),
      (.pwmCtrlWrite d n v, PWM_CTRL.EN.addr 0 n 0, v, pwmCtrlWrite n v), (.tuneStart d n, TUNE_CTRL.RSLOT.addr 0 n 0,
      tuneWord s d n 24, tuneCtrlWrite n (tuneWord s d n 24)), (.tuneAbort d n, TUNE_CTRL.RSLOT.addr 0 n 0, tuneWord s d n 25,
      tuneCtrlWrite n (tuneWord s d n 25))] ++ (if hasMux c = true then [(Instr.acqMuxWrite d c v,
      (muxField c).1.addr 0 (muxField c).2.1 (muxField c).2.2, v,
      acqMuxWrite c v s.pt)] else []) : List (Instr × Nat × Word × (Nat → State → State)))) ∧ s.forwards d = false ∧
      s.notHeld d off = false) ∧
    (∃ (s : State) (d : Nat), s.Live d ∧ s.getFwd d = []) ∧
    (∃ (s : State) (d : Nat) (w : _) (q : _), s.Live d ∧ s.getFwd d = w :: q ∧ s.bridgeUp d = false) ∧
    (∃ (s : State) (d : Nat) (w : _) (q : _), s.Live d ∧ s.getFwd d = w :: q ∧ s.bridgeUp d = true ∧ w.off = TBL_CMD.OP.off) ∧
    (∃ (s : State) (d : Nat) (w : _) (q : _), s.Live d ∧ s.getFwd d = w :: q ∧ s.bridgeUp d = true ∧ w.off ≠ TBL_CMD.OP.off ∧
      inProg w.off = true) ∧
    (∃ (s : State) (d : Nat) (w : _) (q : _) (r : _) (n : _) (k : _), s.Live d ∧ s.getFwd d = w :: q ∧ s.bridgeUp d = true ∧
      w.off ≠ TBL_CMD.OP.off ∧ inProg w.off = false ∧ regAt w.off = some (r, n, k)) :=
  ⟨⟨State.reset, 7, 6, 7 * dieSpan + GLB_WDT.TIMEOUT.off, 4, by decide +kernel⟩,
  ⟨State.reset, 3, 5, 250, 63, ((busFault (State.reset) 3 250 63).get (by decide +kernel)).1,
    ((busFault (State.reset) 3 250 63).get (by decide +kernel)).2, by decide +kernel⟩,
  ⟨State.reset, 1, 6, 268435455, by decide +kernel⟩,
  ⟨(State.reset.modDie 1 fun r => { r with inReset := true }), 1, 6, 268435455, by decide +kernel⟩,
  ⟨2228223, by decide +kernel⟩,
  ⟨3211263, by decide +kernel⟩,
  ⟨GLB_WDT.TIMEOUT.off, ((regAt (GLB_WDT.TIMEOUT.off)).get (by decide +kernel)).1,
    ((regAt (GLB_WDT.TIMEOUT.off)).get (by decide +kernel)).2.1, ((regAt (GLB_WDT.TIMEOUT.off)).get (by decide +kernel)).2.2, by decide +kernel⟩,
  ⟨(State.reset.mated 7), 7, 0x57000, ((regAt 0x57000).get (by decide +kernel)).1,
    ((regAt 0x57000).get (by decide +kernel)).2.1, ((regAt 0x57000).get (by decide +kernel)).2.2, by decide +kernel⟩,
  ⟨((State.reset.mated 7).wr 7 GLB_ID.PAIRMODE 1), 7, 0x57000, ((regAt 0x57000).get (by decide +kernel)).1,
    ((regAt 0x57000).get (by decide +kernel)).2.1, ((regAt 0x57000).get (by decide +kernel)).2.2, by decide +kernel⟩,
  ⟨State.reset, 7, 1, 4095, by decide +kernel⟩,
  ⟨(State.reset.modHart 7 1 fun r => { r with run := true }), 7, 1, 63, true, by decide +kernel⟩,
  ⟨(State.reset.modHart 6 0 fun r => { r with run := true }), 6, 0, 0x7C0, false, by decide +kernel⟩,
  ⟨(State.reset.mated 7), 7, 7, 2, 1, 3, 1, 0, 1, 0, 0, 0, true, .excWrite 7 7 1 (0 : Word), (excReg 1).addr 0 7 0, (0 : Word),
    excWrite 7 1 (0 : Word) ((State.reset.mated 7)).pt, by decide +kernel, by decide +kernel, by decide +kernel, by decide +kernel, by decide +kernel, by decide +kernel, by decide +kernel, by decide +kernel,
    List.mem_append_left _ (.head _), by decide +kernel⟩,
  ⟨((((State.reset.mated 6).wr 6 GLB_ID.PAIRMODE 1).wr 7 GLB_ID.PAIRMODE 1).wr 6 GLB_ID.PAIRMODE 1), 6, 5, 1, 2, 9, 0, 3, 2, 0,
    0, 0, true, .excWrite 6 5 2 (0 : Word), (excReg 2).addr 0 5 0, (0 : Word),
    excWrite 5 2 (0 : Word) (((((State.reset.mated 6).wr 6 GLB_ID.PAIRMODE 1).wr 7 GLB_ID.PAIRMODE 1).wr 6 GLB_ID.PAIRMODE 1)).pt, by decide +kernel, by decide +kernel, by decide +kernel, by decide +kernel, by decide +kernel, by decide +kernel, by decide +kernel, by decide +kernel,
    List.mem_append_left _ (.head _), by decide +kernel⟩,
  ⟨((((State.reset.mated 7).wr 7 GLB_ID.PAIRMODE 1).wr 7 GLB_ID.PAIRMODE 1).wr 7 GLB_ID.PAIRMODE 1), 7, 7, 1, 3, 5, 8, 1, 2, 0,
    0, 0, true, .excWrite 7 7 2 (0 : Word), (excReg 2).addr 0 7 0, (0 : Word),
    excWrite 7 2 (0 : Word) (((((State.reset.mated 7).wr 7 GLB_ID.PAIRMODE 1).wr 7 GLB_ID.PAIRMODE 1).wr 7 GLB_ID.PAIRMODE 1)).pt, by decide +kernel, by decide +kernel, by decide +kernel, by decide +kernel, by decide +kernel, by decide +kernel, by decide +kernel, by decide +kernel,
    List.mem_append_left _ (.head _), by decide +kernel⟩,
  ⟨State.reset, 7, by decide +kernel⟩,
  ⟨(State.reset.modFwd 6 fun _ => [{ off := 0x57000, val := 1, tick := 0 }]), 6,
    ((((State.reset.modFwd 6 fun _ => [{ off := 0x57000, val := 1, tick := 0 }])).getFwd 6).head (by decide +kernel)),
    (((State.reset.modFwd 6 fun _ => [{ off := 0x57000, val := 1, tick := 0 }])).getFwd 6).tail, by decide +kernel⟩,
  ⟨((State.reset.modFwd 6 fun _ => [{ off := TBL_CMD.OP.off, val := 1, tick := 0 }]).mated 6), 6,
    (((((State.reset.modFwd 6 fun _ => [{ off := TBL_CMD.OP.off, val := 1, tick := 0 }]).mated 6)).getFwd 6).head
    (by decide +kernel)), ((((State.reset.modFwd 6 fun _ => [{ off := TBL_CMD.OP.off, val := 1, tick := 0 }]).mated 6)).getFwd
    6).tail, by decide +kernel⟩,
  ⟨((State.reset.modFwd 6 fun _ => [{ off := 0x300000, val := 1, tick := 0 }]).mated 6), 6,
    (((((State.reset.modFwd 6 fun _ => [{ off := 0x300000, val := 1, tick := 0 }]).mated 6)).getFwd 6).head
    (by decide +kernel)), ((((State.reset.modFwd 6 fun _ => [{ off := 0x300000, val := 1, tick := 0 }]).mated 6)).getFwd 6).tail, by decide +kernel⟩,
  ⟨((State.reset.modFwd 6 fun _ => [{ off := 0x57000, val := 1, tick := 0 }]).mated 6), 6,
    (((((State.reset.modFwd 6 fun _ => [{ off := 0x57000, val := 1, tick := 0 }]).mated 6)).getFwd 6).head (by decide +kernel)),
    ((((State.reset.modFwd 6 fun _ => [{ off := 0x57000, val := 1, tick := 0 }]).mated 6)).getFwd 6).tail,
    ((regAt ((((((State.reset.modFwd 6 fun _ => [{ off := 0x57000, val := 1, tick := 0 }]).mated 6)).getFwd 6).head
    (by decide +kernel))).off).get (by decide +kernel)).1,
    ((regAt ((((((State.reset.modFwd 6 fun _ => [{ off := 0x57000, val := 1, tick := 0 }]).mated 6)).getFwd 6).head
    (by decide +kernel))).off).get (by decide +kernel)).2.1,
    ((regAt ((((((State.reset.modFwd 6 fun _ => [{ off := 0x57000, val := 1, tick := 0 }]).mated 6)).getFwd 6).head
    (by decide +kernel))).off).get (by decide +kernel)).2.2, by decide +kernel⟩⟩

theorem witness_FlashCommandsRunAndComplete :
    (∃ (s : State) (d a : Nat) (i : Instr) (op ar : Nat), s.Live d ∧ (i, op, ar) ∈ ([(.nvfProg d a, 1, a % 4), (.nvfErase d a,
      2, a % 4), (.nvfBlank d a, 3, a % 4), (.nvfUnlock d, 4, 0), (.nvfRelock d, 5, 0)] : List (Instr × Nat × Nat)) ∧
      (nvfRefuse s d op ar (s.rd d NVF_ADDR.ADDR) : Nat) ≠ 0 ∧ (nvfRefuse s d op ar (s.rd d NVF_ADDR.ADDR) : Nat) ≠ 7) ∧
    (∃ (s : State) (d a : Nat) (i : Instr) (op ar : Nat), s.Live d ∧ (i, op, ar) ∈ ([(.nvfProg d a, 1, a % 4), (.nvfErase d a,
      2, a % 4), (.nvfBlank d a, 3, a % 4), (.nvfUnlock d, 4, 0), (.nvfRelock d, 5, 0)] : List (Instr × Nat × Nat)) ∧
      (nvfRefuse s d op ar (s.rd d NVF_ADDR.ADDR) : Nat) = 7) ∧
    (∃ (s : State) (d a : Nat) (i : Instr) (op ar : Nat), s.Live d ∧ (i, op, ar) ∈ ([(.nvfProg d a, 1, a % 4), (.nvfErase d a,
      2, a % 4), (.nvfBlank d a, 3, a % 4), (.nvfUnlock d, 4, 0), (.nvfRelock d, 5, 0)] : List (Instr × Nat × Nat)) ∧
      (nvfRefuse s d op ar (s.rd d NVF_ADDR.ADDR) : Nat) = 0) ∧
    (∃ (s : State) (d : Nat) (r : _), s.Live d ∧ s.getNvf d = some r ∧ r.op = 2) ∧
    (∃ (s : State) (d : Nat) (r : _), s.Live d ∧ s.getNvf d = some r ∧ r.op = 4) ∧
    (∃ (s : State) (d : Nat) (r : _), s.Live d ∧ s.getNvf d = some r ∧ r.op = 5) ∧
    (∃ (s : State) (d : Nat) (r : _), s.Live d ∧ s.getNvf d = some r ∧ r.op ≠ 2 ∧ r.op ≠ 4 ∧ r.op ≠ 5) ∧
    (∃ (s : State) (d : Nat) (r : _), s.Live d ∧ s.getNvf d = some r ∧ r.started = true ∧ s.bit d NVF_STAT.SUSP = false ∧
      r.op = 1) ∧
    (∃ (s : State) (d : Nat) (r : _), s.Live d ∧ s.getNvf d = some r ∧ r.started = true ∧ s.bit d NVF_STAT.SUSP = false ∧
      r.op = 2) ∧
    (∃ (s : State) (d : Nat) (r : _), s.Live d ∧ s.getNvf d = some r ∧ r.started = true ∧ s.bit d NVF_STAT.SUSP = false ∧
      r.op = 3) ∧
    (∃ (s : State) (d : Nat) (r : _), s.Live d ∧ s.getNvf d = some r ∧ r.started = true ∧ s.bit d NVF_STAT.SUSP = false ∧
      r.op ≠ 1 ∧ r.op ≠ 2 ∧ r.op ≠ 3) ∧
    (∃ (s : State) (d : Nat), s.Live d ∧ (s.getNvf d = none ∨ (∃ r, s.getNvf d = some r ∧
      (r.started = false ∨ s.bit d NVF_STAT.SUSP = true)))) ∧
    (∃ (s : State) (d : Nat) (v : Word), s.Live d ∧ (s.getMark d (bitsOf v.toNat 8 2) (bitsOf v.toNat 0 8)).bad = false) ∧
    (∃ (s : State) (d : Nat) (v : Word), s.Live d ∧ (s.getMark d (bitsOf v.toNat 8 2) (bitsOf v.toNat 0 8)).bad = true) ∧
    (∃ (s : State) (d : Nat), s.Live d ∧ s.rd d GLB_PHASE.PHASE = 1 ∧ (s.getDie d).optOk = false) ∧
    (∃ (s : State) (d : Nat), s.Live d ∧ (s.rd d GLB_PHASE.PHASE ≠ 1 ∨ (s.getDie d).optOk = true)) ∧
    (∃ (s : State) (d : Nat), s.Live d ∧ ((s.getDie (mateOf d)).inReset = true ∨ (s.getDie (mateOf d)).optOk = false)) ∧
    (∃ (s : State) (d : Nat), s.Live d ∧ (s.getDie (mateOf d)).inReset = false ∧ (s.getDie (mateOf d)).optOk = true ∧
      optDiffers s d (mateOf d) = true) ∧
    (∃ (s : State) (d : Nat), s.Live d ∧ (s.getDie (mateOf d)).inReset = false ∧ (s.getDie (mateOf d)).optOk = true ∧
      optDiffers s d (mateOf d) = false ∧ (s.getDie (mateOf d)).optMismatch = true ∧ (s.getDie (mateOf d)).optClean = false) ∧
    (∃ (s : State) (d : Nat), s.Live d ∧ (s.getDie (mateOf d)).inReset = false ∧ (s.getDie (mateOf d)).optOk = true ∧
      optDiffers s d (mateOf d) = false ∧ (s.getDie (mateOf d)).optMismatch = true ∧ (s.getDie (mateOf d)).optClean = true) ∧
    (∃ (s : State) (d : Nat), s.Live d ∧ (s.getDie (mateOf d)).inReset = false ∧ (s.getDie (mateOf d)).optOk = true ∧
      optDiffers s d (mateOf d) = false ∧ (s.getDie (mateOf d)).optMismatch = false) :=
  ⟨⟨State.reset, 6, 63, .nvfProg 6 63, 1, 63 % 4, by decide +kernel,
    .head _, by decide +kernel⟩,
  ⟨(State.reset.wr 6 NVF_ADDR.ADDR 1), 6, 0, .nvfUnlock 6, 4, 0, by decide +kernel,
    .tail _ (.tail _ (.tail _ (.head _))), by decide +kernel⟩,
  ⟨State.reset, 6, 5000, .nvfProg 6 5000, 1, 5000 % 4, by decide +kernel,
    .head _, by decide +kernel⟩,
  ⟨(State.reset.modNvf 6 fun _ => some { op := 2, area := 0, addr := 0, started := true }), 6,
    ((((State.reset.modNvf 6 fun _ => some { op := 2, area := 0, addr := 0, started := true })).getNvf 6).get
    (by decide +kernel)), by decide +kernel⟩,
  ⟨(State.reset.modNvf 6 fun _ => some { op := 4, area := 0, addr := 0, started := true }), 6,
    ((((State.reset.modNvf 6 fun _ => some { op := 4, area := 0, addr := 0, started := true })).getNvf 6).get
    (by decide +kernel)), by decide +kernel⟩,
  ⟨(State.reset.modNvf 6 fun _ => some { op := 5, area := 0, addr := 0, started := true }), 6,
    ((((State.reset.modNvf 6 fun _ => some { op := 5, area := 0, addr := 0, started := true })).getNvf 6).get
    (by decide +kernel)), by decide +kernel⟩,
  ⟨(State.reset.modNvf 6 fun _ => some { op := 1, area := 0, addr := 0, started := true }), 6,
    ((((State.reset.modNvf 6 fun _ => some { op := 1, area := 0, addr := 0, started := true })).getNvf 6).get
    (by decide +kernel)), by decide +kernel⟩,
  ⟨((State.reset.modNvf 7 fun _ => some { op := 1, area := 0, addr := 0, started := true }).wr 7 NVF_STAT.SUSP 0), 7,
    (((((State.reset.modNvf 7 fun _ => some { op := 1, area := 0, addr := 0, started := true }).wr 7 NVF_STAT.SUSP 0)).getNvf
    7).get (by decide +kernel)), by decide +kernel⟩,
  ⟨((State.reset.modNvf 7 fun _ => some { op := 2, area := 0, addr := 0, started := true }).wr 7 NVF_STAT.SUSP 0), 7,
    (((((State.reset.modNvf 7 fun _ => some { op := 2, area := 0, addr := 0, started := true }).wr 7 NVF_STAT.SUSP 0)).getNvf
    7).get (by decide +kernel)), by decide +kernel⟩,
  ⟨((State.reset.modNvf 7 fun _ => some { op := 3, area := 0, addr := 0, started := true }).wr 7 NVF_STAT.SUSP 0), 7,
    (((((State.reset.modNvf 7 fun _ => some { op := 3, area := 0, addr := 0, started := true }).wr 7 NVF_STAT.SUSP 0)).getNvf
    7).get (by decide +kernel)), by decide +kernel⟩,
  ⟨((State.reset.modNvf 7 fun _ => some { op := 4, area := 0, addr := 0, started := true }).wr 7 NVF_STAT.SUSP 0), 7,
    (((((State.reset.modNvf 7 fun _ => some { op := 4, area := 0, addr := 0, started := true }).wr 7 NVF_STAT.SUSP 0)).getNvf
    7).get (by decide +kernel)), by decide +kernel⟩,
  ⟨State.reset, 7, by decide +kernel⟩,
  ⟨State.reset, 7, 0x0, by decide +kernel⟩,
  ⟨(State.reset.modMark 6 0 0 fun r => { r with bad := true }), 6, 0, by decide +kernel⟩,
  ⟨(State.reset.wr 7 GLB_PHASE.PHASE 1), 7, by decide +kernel⟩,
  ⟨State.reset, 7, by decide +kernel⟩,
  ⟨(State.reset.modDie (mateOf 6) fun r => { r with inReset := false }), 6, by decide +kernel⟩,
  ⟨((((State.reset.modDie (mateOf 7) fun r => { r with inReset := false }).modDie (mateOf 7) fun r =>
    { r with optOk := true, inReset := false }).modDie 7 fun x => { x with optOk := true }).modDie 6 fun x =>
    { x with optOk := true, optMode := 1 }), 7, by decide +kernel⟩,
  ⟨(((State.reset.modDie (mateOf 7) fun r => { r with optOk := true }).modDie (mateOf 7) fun r => { r with optMismatch := true }).modDie (mateOf 7) fun r => { r with optClean := false }), 7, by decide +kernel⟩,
  ⟨(((State.reset.modDie (mateOf 7) fun r => { r with optOk := true }).modDie (mateOf 7) fun r => { r with optMismatch := true }).modDie (mateOf 7) fun r => { r with optClean := true }), 7, by decide +kernel⟩,
  ⟨((State.reset.modDie (mateOf 7) fun r => { r with optOk := true }).modDie (mateOf 7) fun r => { r with optMismatch := false }), 7, by decide +kernel⟩⟩

theorem witness_MeasuresExtendAndColophonsAreSigned :
    (∃ (s : State) (d h : Nat), s.hasDie d = true ∧ h < 2 ∧ s.hartRuns d h = false) ∧
    (∃ (s : State) (d h k : Nat), s.hasDie d = true ∧ h < 2 ∧ s.hartRuns d h = true ∧
      bitOf (s.rd d MSR_VALID.LOCK) (6 + k % 2 - 6) = true) ∧
    (∃ (s : State) (d h k : Nat), s.hasDie d = true ∧ h < 2 ∧ s.hartRuns d h = true ∧
      bitOf (s.rd d MSR_VALID.LOCK) (6 + k % 2 - 6) = false) ∧
    (∃ (s : State) (d : Nat), s.Live d ∧ s.bit d MSR_CSTAT.BUSY = true) ∧
    (∃ (s : State) (d : Nat), s.Live d ∧ s.bit d MSR_CSTAT.BUSY = false) ∧
    (∃ (s : State) (d : Nat) (q : _) (rest : _), s.Live d ∧ s.getSignq d = q :: rest ∧ q.report = none ∧
      s.bit d MSR_VALID.DONE = true) ∧
    (∃ (s : State) (d : Nat) (q : _) (rest : _), s.Live d ∧ s.getSignq d = q :: rest ∧
      (q.report ≠ none ∨ s.bit d MSR_VALID.DONE = false)) ∧
    (∃ (s : State) (d : Nat), s.Live d ∧ s.getSignq d = []) ∧
    (∃ (s : State) (d : Nat) (q : _) (rest : _) (b : _), s.Live d ∧ s.getSignq d = q :: rest ∧ q.report = some b ∧
      signHeld s d q.who = false) ∧
    (∃ (s : State) (d : Nat), s.Live d ∧ (s.getSignq d = [] ∨ (∃ q rest, s.getSignq d = q :: rest ∧
      (q.report = none ∨ signHeld s d q.who = true)))) :=
  ⟨⟨State.reset, 7, 1, by decide +kernel⟩,
  ⟨((State.reset.wr 7 MSR_VALID.LOCK 2).modHart 7 1 fun r => { r with run := true }), 7, 1, 31, by decide +kernel⟩,
  ⟨((State.reset.wr 7 MSR_VALID.LOCK 0).modHart 7 1 fun r => { r with run := true }), 7, 1, 0, by decide +kernel⟩,
  ⟨(State.reset.wr 7 MSR_CSTAT.BUSY 1), 7, by decide +kernel⟩,
  ⟨State.reset, 7, by decide +kernel⟩,
  ⟨(((State.reset.modSignq 7 fun _ => [{ who := .creq, nonce := [], report := none }]).wr 7 MSR_VALID.DONE 1).wr 7
    MSR_VALID.DONE 1), 7, ((((((State.reset.modSignq 7 fun _ => [{ who := .creq, nonce := [], report := none }]).wr 7
    MSR_VALID.DONE 1).wr 7 MSR_VALID.DONE 1)).getSignq 7).head (by decide +kernel)),
    (((((State.reset.modSignq 7 fun _ => [{ who := .creq, nonce := [], report := none }]).wr 7 MSR_VALID.DONE 1).wr 7
    MSR_VALID.DONE 1)).getSignq 7).tail, by decide +kernel⟩,
  ⟨((State.reset.modSignq 6 fun _ => [{ who := .creq, nonce := [], report := some [] }]).wr 6 MSR_VALID.DONE 1), 6,
    (((((State.reset.modSignq 6 fun _ => [{ who := .creq, nonce := [], report := some [] }]).wr 6 MSR_VALID.DONE 1)).getSignq
    6).head (by decide +kernel)), ((((State.reset.modSignq 6 fun _ => [{ who := .creq, nonce := [], report := some [] }]).wr 6
    MSR_VALID.DONE 1)).getSignq 6).tail, by decide +kernel⟩,
  ⟨State.reset, 7, by decide +kernel⟩,
  ⟨(State.reset.modSignq 6 fun _ => [{ who := .creq, nonce := [], report := some [] }]), 6,
    ((((State.reset.modSignq 6 fun _ => [{ who := .creq, nonce := [], report := some [] }])).getSignq 6).head
    (by decide +kernel)), (((State.reset.modSignq 6 fun _ => [{ who := .creq, nonce := [], report := some [] }])).getSignq
    6).tail, (((((((State.reset.modSignq 6 fun _ => [{ who := .creq, nonce := [], report := some [] }])).getSignq 6).head
    (by decide +kernel))).report).get (by decide +kernel)), by decide +kernel⟩,
  ⟨State.reset, 6, by decide +kernel,
    Or.inl ((by decide +kernel))⟩⟩

theorem witness_RailsWarnDipAndRise :
    (∃ (s : State) (d r : Nat), s.hasDie d = true ∧ railOn d r = true ∧ bitOf (s.getRails d).low r = true) ∧
    (∃ (s : State) (d r : Nat), s.hasDie d = true ∧ railOn d r = true ∧ bitOf (s.getRails d).low r = false ∧
      ((s.modRails d (fun x => { x with low := putBit x.low r true })).getDie d).inReset = true) ∧
    (∃ (s : State) (d r : Nat), s.hasDie d = true ∧ railOn d r = true ∧ bitOf (s.getRails d).low r = false ∧
      ((s.modRails d (fun x => { x with low := putBit x.low r true })).getDie d).inReset = false) ∧
    (∃ (s : State) (d r : Nat), s.hasDie d = true ∧ railOn d r = true ∧
      ((s.modRails d (fun x => { x with low := putBit x.low r false })).getDie d).inReset = true) ∧
    (∃ (s : State) (d r : Nat), s.hasDie d = true ∧ railOn d r = true ∧
      ((s.modRails d (fun x => { x with low := putBit x.low r false })).getDie d).inReset = false ∧
      ((s.modRails d (fun x => { x with low := putBit x.low r false })).wrBit d PWR_STAT.WARN r false).rd d PWR_STAT.WARN = 0 ∧
      ((s.modRails d (fun x => { x with low := putBit x.low r false })).wrBit d PWR_STAT.WARN r false).bit d PWR_STAT.DIP =
      true ∧ (((s.modRails d (fun x => { x with low := putBit x.low r false })).wrBit d PWR_STAT.WARN r false).getGov d).retAt
      = none) ∧
    (∃ (s : State) (d r : Nat), s.hasDie d = true ∧ railOn d r = true ∧
      ((s.modRails d (fun x => { x with low := putBit x.low r false })).getDie d).inReset = false ∧
      (((s.modRails d (fun x => { x with low := putBit x.low r false })).wrBit d PWR_STAT.WARN r false).rd d PWR_STAT.WARN ≠ 0
      ∨ ((s.modRails d (fun x => { x with low := putBit x.low r false })).wrBit d PWR_STAT.WARN r false).bit d PWR_STAT.DIP =
      false ∨ (((s.modRails d (fun x => { x with low := putBit x.low r false })).wrBit d PWR_STAT.WARN r false).getGov d).retAt
      ≠ none)) ∧
    (∃ (s : State) (d r : Nat), s.hasDie d = true ∧ railOn d r = true ∧ bitOf (s.getRails d).high r = false ∧
      ((s.modRails d (fun x => { x with high := putBit x.high r true })).getDie d).inReset = true) ∧
    (∃ (s : State) (d r : Nat), s.hasDie d = true ∧ railOn d r = true ∧ bitOf (s.getRails d).high r = false ∧
      ((s.modRails d (fun x => { x with high := putBit x.high r true })).getDie d).inReset = false) ∧
    (∃ (s : State) (d r : Nat), s.hasDie d = true ∧ railOn d r = true ∧ bitOf (s.getRails d).high r = true ∧
      ((s.modRails d (fun x => { x with high := putBit x.high r false })).getDie d).inReset = false) ∧
    (∃ (s : State) (d r : Nat), s.hasDie d = true ∧ railOn d r = true ∧
      (bitOf (s.getRails d).high r = false ∨ ((s.modRails d (fun x => { x with high := putBit x.high r false })).getDie
      d).inReset = true)) ∧
    (∃ (s : State) (d : Nat) (t : _), s.Live d ∧ (s.getGov d).retAt = some t) ∧
    (∃ (s : State) (d : Nat), s.Live d ∧ (s.getGov d).retAt = none) ∧
    (∃ (s : State) (d : Nat), s.Live d) :=
  ⟨⟨(State.reset.modRails 7 fun r => { r with low := 255 }), 7, 0, by decide +kernel⟩,
  ⟨(State.reset.modDie 7 fun r => { r with inReset := true }), 7, 1, by decide +kernel⟩,
  ⟨State.reset, 7, 1, by decide +kernel⟩,
  ⟨(State.reset.modDie 7 fun r => { r with inReset := true }), 7, 1, by decide +kernel⟩,
  ⟨(State.reset.wr 7 PWR_STAT.DIP 1), 7, 1, by decide +kernel⟩,
  ⟨State.reset, 7, 1, by decide +kernel⟩,
  ⟨(State.reset.modDie 7 fun r => { r with inReset := true }), 7, 1, by decide +kernel⟩,
  ⟨State.reset, 7, 1, by decide +kernel⟩,
  ⟨((State.reset.modRails 7 fun r => { r with high := 255 }).modDie 7 fun r => { r with inReset := false }), 7, 0, by decide +kernel⟩,
  ⟨State.reset, 7, 1, by decide +kernel⟩,
  ⟨(State.reset.modGov 7 fun r => { r with retAt := some 5000 }), 7, 5000, by decide +kernel⟩,
  ⟨State.reset, 7, by decide +kernel⟩,
  ⟨State.reset, 7, by decide +kernel⟩⟩

theorem witness_GovernorsStepAndShare :
    (∃ (s : State) (d : Nat), s.Live d) ∧
    (∃ (s : State) (d : Nat), s.Live d ∧ 100 ≤ (s.getGov d).zeros ∧ (s.getGov d).deficit = false) ∧
    (∃ (s : State) (d : Nat), s.Live d ∧ ((s.getGov d).deficit = true ∨ (s.getGov d).zeros < 100)) ∧
    (∃ (s : State) (d : Nat), s.Live d) ∧
    (∃ (s : State) (d : Nat), s.Live d ∧ (s.toNext (State.stepNo 12 0 0) 2500000).master = none) ∧
    (∃ (s : State) (d m : Nat), s.Live d ∧ (s.toNext (State.stepNo 12 0 0) 2500000 : State).master = some m) ∧
    (∃ (s : State) (d : Nat) (v : _), s.Live d ∧ (s.getGov d).shareIn = some v) ∧
    (∃ (s : State) (d : Nat), s.Live d ∧ (s.getGov d).shareIn = none) ∧
    (∃ (s : State) (d : Nat), s.Live d) :=
  ⟨⟨State.reset, 6, by decide +kernel⟩,
  ⟨(State.reset.modGov 7 fun r => { r with zeros := 100 }), 7, by decide +kernel⟩,
  ⟨(State.reset.modGov 6 fun r => { r with deficit := false }), 6, by decide +kernel⟩,
  ⟨State.reset, 6, by decide +kernel⟩,
  ⟨State.reset, 7, by decide +kernel⟩,
  ⟨(State.reset.wr 0 CLK_STAT.PTALIGNED 1), 7,
    (((((State.reset.wr 0 CLK_STAT.PTALIGNED 1)).toNext (State.stepNo 12 0 0) 2500000 : State).master).get (by decide +kernel)), by decide +kernel⟩,
  ⟨(State.reset.modGov 7 fun r => { r with shareIn := some 1 }), 7, 1, by decide +kernel⟩,
  ⟨State.reset, 7, by decide +kernel⟩,
  ⟨State.reset, 6, by decide +kernel⟩⟩

theorem witness_CollectorsReactReleaseAndClear :
    (∃ (s : State) (d k : Nat), s.Live d ∧ k < 1024) ∧
    (∃ (s : State) (d k : Nat), s.Live d ∧ k < 1024) ∧
    (∃ (s : State) (d k : Nat), s.Live d ∧ k < 1024 ∧ s.rd d FLT_SRCSTAT.STATE k = 2) ∧
    (∃ (s : State) (d k : Nat), s.Live d ∧ k < 1024 ∧ s.rd d FLT_SRCSTAT.STATE k ≠ 2) ∧
    (∃ (s : State) (d k : Nat), s.Live d ∧ k < 1024 ∧ s.rd d FLT_SRCSTAT.STATE k ≠ 0 ∧ liveNow s d k = false ∧
      (s.getSrc d k).sev ≠ 7) ∧
    (∃ (s : State) (d k : Nat), s.Live d ∧ k < 1024 ∧
      (s.rd d FLT_SRCSTAT.STATE k = 0 ∨ liveNow s d k = true ∨ (s.getSrc d k).sev = 7)) ∧
    (∃ (s : State) (d k : Nat), s.Live d ∧ k < 1024 ∧ liveNow s d k = true) ∧
    (∃ (s : State) (d k : Nat), s.Live d ∧ k < 1024 ∧ s.bridgeUp d = true ∧ (s.getPair d).heldLost = false) ∧
    (∃ (s : State) (d k : Nat), s.Live d ∧ k < 1024 ∧ (s.bridgeUp d = false ∨ (s.getPair d).heldLost = true)) ∧
    (∃ (s : State) (d k : Nat) (v : Word), s.Live d ∧ k < 1024 ∧
      bitOf (BitVec.ofNat 32 (putBit v.toNat 9 true) : Word).toNat 9 = true ∧
      (12 < (bitsOf (BitVec.ofNat 32 (putBit v.toNat 9 true) : Word).toNat 0 5 : Nat) ∨ (bitsOf (BitVec.ofNat 32 (putBit
      v.toNat 9 true) : Word).toNat 16 16 : Nat) = 0 ∨ ((((s.wr d FLT_INJ.CHK (bitsOf (BitVec.ofNat 32 (putBit v.toNat 9
      true) : Word).toNat 0 5 : Nat)).wr d FLT_INJ.MUTE (bitsOf (BitVec.ofNat 32 (putBit v.toNat 9 true) : Word).toNat 8 1)).wr
      d FLT_INJ.N (bitsOf (BitVec.ofNat 32 (putBit v.toNat 9 true) : Word).toNat 16 16 : Nat)) : State).bit d FLT_INJSTAT.BUSY
      = true ∨ ((bitsOf (BitVec.ofNat 32 (putBit v.toNat 9 true) : Word).toNat 0 5 : Nat) = 5 ∧
      2 ≤ d) ∨ (((bitsOf (BitVec.ofNat 32 (putBit v.toNat 9 true) : Word).toNat 0 5 : Nat) = 6 ∨ (bitsOf (BitVec.ofNat 32
      (putBit v.toNat 9 true) : Word).toNat 0 5 : Nat) = 7) ∧
      (((((s.wr d FLT_INJ.CHK (bitsOf (BitVec.ofNat 32 (putBit v.toNat 9 true) : Word).toNat 0 5 : Nat)).wr d FLT_INJ.MUTE
      (bitsOf (BitVec.ofNat 32 (putBit v.toNat 9 true) : Word).toNat 8 1)).wr d FLT_INJ.N (bitsOf (BitVec.ofNat 32 (putBit
      v.toNat 9 true) : Word).toNat 16 16 : Nat)) : State).getDie d).split = true))) ∧
    (∃ (s : State) (d k : Nat) (v : Word), s.Live d ∧ k < 1024 ∧
      bitOf (BitVec.ofNat 32 (putBit v.toNat 9 true) : Word).toNat 9 = true ∧
      (¬ (12 < (bitsOf (BitVec.ofNat 32 (putBit v.toNat 9 true) : Word).toNat 0 5 : Nat) ∨ (bitsOf (BitVec.ofNat 32 (putBit
      v.toNat 9 true) : Word).toNat 16 16 : Nat) = 0 ∨ ((((s.wr d FLT_INJ.CHK (bitsOf (BitVec.ofNat 32 (putBit v.toNat 9
      true) : Word).toNat 0 5 : Nat)).wr d FLT_INJ.MUTE (bitsOf (BitVec.ofNat 32 (putBit v.toNat 9 true) : Word).toNat 8 1)).wr
      d FLT_INJ.N (bitsOf (BitVec.ofNat 32 (putBit v.toNat 9 true) : Word).toNat 16 16 : Nat)) : State).bit d FLT_INJSTAT.BUSY
      = true ∨ ((bitsOf (BitVec.ofNat 32 (putBit v.toNat 9 true) : Word).toNat 0 5 : Nat) = 5 ∧
      2 ≤ d) ∨ (((bitsOf (BitVec.ofNat 32 (putBit v.toNat 9 true) : Word).toNat 0 5 : Nat) = 6 ∨ (bitsOf (BitVec.ofNat 32
      (putBit v.toNat 9 true) : Word).toNat 0 5 : Nat) = 7) ∧
      (((((s.wr d FLT_INJ.CHK (bitsOf (BitVec.ofNat 32 (putBit v.toNat 9 true) : Word).toNat 0 5 : Nat)).wr d FLT_INJ.MUTE
      (bitsOf (BitVec.ofNat 32 (putBit v.toNat 9 true) : Word).toNat 8 1)).wr d FLT_INJ.N (bitsOf (BitVec.ofNat 32 (putBit
      v.toNat 9 true) : Word).toNat 16 16 : Nat)) : State).getDie d).split = true)))) :=
  ⟨⟨State.reset, 7, 1023, by decide +kernel⟩,
  ⟨State.reset, 7, 1023, by decide +kernel⟩,
  ⟨(State.reset.wr 7 FLT_SRCSTAT.STATE 2 1023), 7, 1023, by decide +kernel⟩,
  ⟨State.reset, 7, 1023, by decide +kernel⟩,
  ⟨(State.reset.wr 7 FLT_SRCSTAT.STATE 1 1023), 7, 1023, by decide +kernel⟩,
  ⟨State.reset, 7, 1023, by decide +kernel⟩,
  ⟨(State.reset.wr 6 FLT_SRCSTAT.LIVE 1 250), 6, 250, by decide +kernel⟩,
  ⟨(State.reset.mated 7), 7, 1023, by decide +kernel⟩,
  ⟨State.reset, 7, 1023, by decide +kernel⟩,
  ⟨(State.reset.modDie 7 fun r => { r with split := true }), 7, 1023, 0xA500, by decide +kernel⟩,
  ⟨(State.reset.modDie 6 fun r => { r with split := true }), 6, 250, 0xA5000000, by decide +kernel⟩⟩

theorem witness_PackageFaultsAndTheLedger :
    (∃ (s : State) (d : Nat) (m : _) (q : _), s.Live d ∧ (s.getFlt d).pkgIn = m :: q ∧
      (m.stamp < ((s.modFlt d (fun f => { f with pkgIn := q })).getFlt d).pkgFrom ∨ ¬ ((s.modFlt d (fun f =>
      { f with pkgIn := q })).bit d FLT_PKGFIRST.VALID = false ∨ m.stamp < (s.modFlt d (fun f => { f with pkgIn := q })).rd d
      FLT_PKGFIRSTPT.PT ∨ (m.stamp = (s.modFlt d (fun f => { f with pkgIn := q })).rd d FLT_PKGFIRSTPT.PT ∧
      ((s.modFlt d (fun f => { f with pkgIn := q })).rd d FLT_PKGFIRST.SEV < m.sev ∨ ((s.modFlt d (fun f =>
      { f with pkgIn := q })).rd d FLT_PKGFIRST.SEV = m.sev ∧
      m.src < (s.modFlt d (fun f => { f with pkgIn := q })).rd d FLT_PKGFIRST.SRC)))))) ∧
    (∃ (s : State) (d : Nat) (m : _) (q : _), s.Live d ∧ (s.getFlt d).pkgIn = m :: q ∧
      ((s.modFlt d (fun f => { f with pkgIn := q })).getFlt d).pkgFrom ≤ m.stamp ∧
      ((s.modFlt d (fun f => { f with pkgIn := q })).bit d FLT_PKGFIRST.VALID = false ∨ m.stamp < (s.modFlt d (fun f =>
      { f with pkgIn := q })).rd d FLT_PKGFIRSTPT.PT ∨ (m.stamp = (s.modFlt d (fun f => { f with pkgIn := q })).rd d
      FLT_PKGFIRSTPT.PT ∧ ((s.modFlt d (fun f => { f with pkgIn := q })).rd d FLT_PKGFIRST.SEV < m.sev ∨ ((s.modFlt d (fun f =>
      { f with pkgIn := q })).rd d FLT_PKGFIRST.SEV = m.sev ∧
      m.src < (s.modFlt d (fun f => { f with pkgIn := q })).rd d FLT_PKGFIRST.SRC))))) ∧
    (∃ (s : State) (d : Nat), s.Live d ∧ (s.getFlt d).pkgIn = []) ∧
    (∃ (s : State) (d : Nat) (t : _) (q : _), s.Live d ∧ s.pkgClear = t :: q) ∧
    (∃ (s : State) (d : Nat), s.Live d ∧ s.pkgClear = []) ∧
    (∃ (s : State) (d : Nat) (c : _) (e : _) (q : _), s.Live d ∧ ledgRoom s = some c ∧ s.getLedq d = e :: q ∧
      s.reach d c = true ∧ ledgRoom (lostRecord d c s) = none) ∧
    (∃ (s : State) (d : Nat) (c : _) (e : _) (q : _), s.Live d ∧ ledgRoom s = some c ∧ s.getLedq d = e :: q ∧
      s.reach d c = true ∧ ledgRoom (lostRecord d c s) ≠ none) ∧
    (∃ (s : State) (d : Nat), s.Live d ∧ s.dramSrv = none ∧ s.getLedq d ≠ []) ∧
    (∃ (s : State) (d : Nat), s.Live d ∧ (s.getLedq d = [] ∨ (s.dramSrv ≠ none ∧ (ledgRoom s = none ∨ ∃ c, ledgRoom s = some c ∧
      s.reach d c = false)))) ∧
    (∃ (s : State) (d : Nat), s.Live d ∧ (s.getDie d).split = true) ∧
    (∃ (s : State) (d : Nat), s.Live d ∧ (s.getDie d).split = false) :=
  ⟨⟨(((State.reset.modFlt 6 fun x => { x with pkgIn := [{ src := 1, kind := 1, sev := 5, stamp := 9 }], pkgFrom := 10 }).wr 6
    FLT_PKGFIRST.SEV 3).wr 6 FLT_PKGFIRST.SRC 1), 6,
    (((((((State.reset.modFlt 6 fun x => { x with pkgIn := [{ src := 1, kind := 1, sev := 5, stamp := 9 }], pkgFrom := 10 }).wr
    6 FLT_PKGFIRST.SEV 3).wr 6 FLT_PKGFIRST.SRC 1)).getFlt 6).pkgIn).head (by decide +kernel)),
    ((((((State.reset.modFlt 6 fun x => { x with pkgIn := [{ src := 1, kind := 1, sev := 5, stamp := 9 }], pkgFrom := 10 }).wr
    6 FLT_PKGFIRST.SEV 3).wr 6 FLT_PKGFIRST.SRC 1)).getFlt 6).pkgIn).tail, by decide +kernel⟩,
  ⟨(((State.reset.modFlt 6 fun x => { x with pkgIn := [{ src := 1, kind := 1, sev := 5, stamp := 9 }] }).wr 6 FLT_PKGFIRST.SEV
    3).wr 6 FLT_PKGFIRST.SRC 1), 6, (((((((State.reset.modFlt 6 fun x =>
    { x with pkgIn := [{ src := 1, kind := 1, sev := 5, stamp := 9 }] }).wr 6 FLT_PKGFIRST.SEV 3).wr 6 FLT_PKGFIRST.SRC
    1)).getFlt 6).pkgIn).head (by decide +kernel)),
    ((((((State.reset.modFlt 6 fun x => { x with pkgIn := [{ src := 1, kind := 1, sev := 5, stamp := 9 }] }).wr 6
    FLT_PKGFIRST.SEV 3).wr 6 FLT_PKGFIRST.SRC 1)).getFlt 6).pkgIn).tail, by decide +kernel⟩,
  ⟨State.reset, 7, by decide +kernel⟩,
  ⟨({ State.reset with pkgClear := [5000] } : State), 6,
    (((({ State.reset with pkgClear := [5000] } : State)).pkgClear).head (by decide +kernel)),
    ((({ State.reset with pkgClear := [5000] } : State)).pkgClear).tail, by decide +kernel⟩,
  ⟨State.reset, 7, by decide +kernel⟩,
  ⟨({ ({ ((State.reset.modLedq 0 fun _ => [{ pt := 9, msg := 131072, tail := 0, rep := 0, detail := 0 }]).wr 1 LEDG_CTL.EN 1) with dramSrv := some 1, ledg := { open_ := true, slot := 32767 }, ledlost := State.reset.ledlost.set 0 3 0 } : State) with spineDown := [(6, true), (7, true)] } : State), 0, ((ledgRoom (({ ({ ((State.reset.modLedq 0 fun _ => [{ pt := 9, msg := 131072, tail := 0, rep := 0, detail := 0 }]).wr 1 LEDG_CTL.EN 1) with dramSrv := some 1, ledg := { open_ := true, slot := 32767 }, ledlost := State.reset.ledlost.set 0 3 0 } : State) with spineDown := [(6, true), (7, true)] } : State))).get (by decide +kernel)), (((({ ({ ((State.reset.modLedq 0 fun _ => [{ pt := 9, msg := 131072, tail := 0, rep := 0, detail := 0 }]).wr 1 LEDG_CTL.EN 1) with dramSrv := some 1, ledg := { open_ := true, slot := 32767 }, ledlost := State.reset.ledlost.set 0 3 0 } : State) with spineDown := [(6, true), (7, true)] } : State)).getLedq 0).head (by decide +kernel)), ((({ ({ ((State.reset.modLedq 0 fun _ => [{ pt := 9, msg := 131072, tail := 0, rep := 0, detail := 0 }]).wr 1 LEDG_CTL.EN 1) with dramSrv := some 1, ledg := { open_ := true, slot := 32767 }, ledlost := State.reset.ledlost.set 0 3 0 } : State) with spineDown := [(6, true), (7, true)] } : State)).getLedq 0).tail, by decide +kernel⟩,
  ⟨({ ({ ((State.reset.modLedq 0 fun _ => [{ pt := 9, msg := 131072, tail := 0, rep := 0, detail := 0 }]).wr 1 LEDG_CTL.EN 1) with dramSrv := some 1, ledg := { open_ := true, slot := 3 } } : State) with spineDown := [(6, true), (7, true)] } : State), 0, ((ledgRoom (({ ({ ((State.reset.modLedq 0 fun _ => [{ pt := 9, msg := 131072, tail := 0, rep := 0, detail := 0 }]).wr 1 LEDG_CTL.EN 1) with dramSrv := some 1, ledg := { open_ := true, slot := 3 } } : State) with spineDown := [(6, true), (7, true)] } : State))).get (by decide +kernel)), (((({ ({ ((State.reset.modLedq 0 fun _ => [{ pt := 9, msg := 131072, tail := 0, rep := 0, detail := 0 }]).wr 1 LEDG_CTL.EN 1) with dramSrv := some 1, ledg := { open_ := true, slot := 3 } } : State) with spineDown := [(6, true), (7, true)] } : State)).getLedq 0).head (by decide +kernel)), ((({ ({ ((State.reset.modLedq 0 fun _ => [{ pt := 9, msg := 131072, tail := 0, rep := 0, detail := 0 }]).wr 1 LEDG_CTL.EN 1) with dramSrv := some 1, ledg := { open_ := true, slot := 3 } } : State) with spineDown := [(6, true), (7, true)] } : State)).getLedq 0).tail, by decide +kernel⟩,
  ⟨(State.reset.modLedq 6 fun _ => [{ pt := 9, msg := 131072, tail := 0, rep := 0, detail := 0 }]), 6, by decide +kernel⟩,
  ⟨State.reset, 7, by decide +kernel⟩,
  ⟨(State.reset.modDie 7 fun r => { r with split := true }), 7, by decide +kernel⟩,
  ⟨State.reset, 7, by decide +kernel⟩⟩

theorem witness_ResetsAndTheWatchdog :
    (∃ (s : State) (d : Nat) (r : _), s.hasDie d = true ∧ railOn d r = true) ∧
    (∃ (s : State) (d : Nat) (cs : List ResetCause) (a : State) (b : State) (c : State) (e : State) (f : State) (g : State)
      (z : State) (line : Bool) (low : Bool) (mask : Nat), s.hasDie d = true ∧ a = s.holdBalls (d / 2) ∧
      line = ((a.getDie d).holdSafeLine || cs.contains .sev7 || (inForce a d).any fun x => x.sev == 7) ∧
      mask = (List.range 8).foldl (fun k n => putBit k n (a.owns d n)) 0 ∧ low = drivesFaultN a d ∧
      b = dropDie d (leaveServices d a) ∧ c = b.setReg (GLB_RSTCAUSE.POR.addr d 0 0) (BitVec.ofNat 32 (if cs.contains .por =
      true then 0 else (a.reg (GLB_RSTCAUSE.POR.addr d 0 0)).toNat)) ∧ e = cs.foldl (fun s c => s.wr d (causeFld c) 1) c ∧
      f = e.modDie d (fun x => { x with inReset := true, heldMask := mask, resetAt := some e.now, wdtEnd := wdtWindow a d }) ∧
      g = (if cs.contains .por = true then f else (f.wr d NVF_PROT.FAILS (a.rd d NVF_PROT.FAILS)).wr d NVF_PROT.LOCKOUT (a.rd d
      NVF_PROT.LOCKOUT)) ∧ ((cs.any isHard = true → z = (if cs.contains .por = true then g.wr d GLB_ID.PAIRMODE (heldMode a d
      (cs.contains .por)) else g).modMem d fun _ => {})) ∧ ((cs.any isHard = false → ∀ i j k, i = (keptFields.map fun f => (f,
      a.rd d f.1 f.2)).foldl (fun s f => s.wr d f.1.1 f.2 f.1.2) (g.wr d GLB_ID.PAIRMODE (heldMode a d (cs.contains .por))) → j
      = i.modDie d (fun x => { x with safeProg := (a.getDie d).safeProg, holdFaultN := low, holdSafeLine := line }) → k =
      j.forEach (List.range 8) (fun n s => s.modEnc d n fun x =>
      { x with pins := emuSafePins s d n (((List.range 8).map fun n => (a.getEnc d n).pins).getD n [.z, .z, .z]) }) → z =
      (k.modFlt d fun f => { f with pkgTake := true }).modMem d fun _ => { was := (a.getMem d).was }))) ∧
    (∃ (s : State) (d : Nat), s.hasDie d = true ∧ s.mayRelease d = true) ∧
    (∃ (s : State) (d : Nat), s.hasDie d = true ∧ s.mayRelease d = false ∧ (s.getPair d).releasing = none) ∧
    (∃ (s : State) (d : Nat), s.hasDie d = true ∧ s.mayRelease d = false ∧ (s.getPair d).releasing ≠ none) ∧
    (∃ (s : State) (d : Nat) (i : Instr) (w : Word), s.Live d ∧ ((∃ v, i = .watchdogEnable d v ∧
      w = BitVec.ofNat 32 (putBit v.toNat 16 true)) ∨ (∃ key, i = .watchdogKick d key ∧
      w = BitVec.ofNat 32 (key % 256 * 16777216 + (s.reg (GLB_WDT.TIMEOUT.addr d 0 0)).toNat % 16777216))) ∧
      s.bit d GLB_WDT.LOCK = true ∧ bitsOf w.toNat 24 8 = 0xC3) ∧
    (∃ (s : State) (d : Nat) (i : Instr) (w : Word), s.Live d ∧ ((∃ v, i = .watchdogEnable d v ∧
      w = BitVec.ofNat 32 (putBit v.toNat 16 true)) ∨ (∃ key, i = .watchdogKick d key ∧
      w = BitVec.ofNat 32 (key % 256 * 16777216 + (s.reg (GLB_WDT.TIMEOUT.addr d 0 0)).toNat % 16777216))) ∧
      s.bit d GLB_WDT.LOCK = true ∧ bitsOf w.toNat 24 8 ≠ 0xC3) ∧
    (∃ (s : State) (d : Nat) (i : Instr) (w : Word), s.Live d ∧ ((∃ v, i = .watchdogEnable d v ∧
      w = BitVec.ofNat 32 (putBit v.toNat 16 true)) ∨ (∃ key, i = .watchdogKick d key ∧
      w = BitVec.ofNat 32 (key % 256 * 16777216 + (s.reg (GLB_WDT.TIMEOUT.addr d 0 0)).toNat % 16777216))) ∧
      s.bit d GLB_WDT.LOCK = false) ∧
    (∃ (s : State) (d : Nat), s.Live d ∧ s.bit d GLB_WDT.LOCK = true) ∧
    (∃ (s : State) (d : Nat) (i : Instr) (m : Nat) (w : Word), s.Live d ∧ ((∃ v, i = .glbSwrstSelf d m v ∧
      w = BitVec.ofNat 32 (putBit v.toNat 0 true)) ∨ (∃ v, i = .glbSwrstMate d m v ∧
      w = BitVec.ofNat 32 (putBit v.toNat 1 true))) ∧ bitsOf w.toNat 8 8 ≠ 0xA5) ∧
    (∃ (s : State) (d : Nat) (i : Instr) (m : Nat) (w : Word), s.Live d ∧ ((∃ v, i = .glbSwrstSelf d m v ∧
      w = BitVec.ofNat 32 (putBit v.toNat 0 true)) ∨ (∃ v, i = .glbSwrstMate d m v ∧
      w = BitVec.ofNat 32 (putBit v.toNat 1 true))) ∧ bitsOf w.toNat 8 8 = 0xA5) ∧
    (∃ (s : State) (d : Nat), s.Live d ∧ (s.divided d = false ∧
      (s.rd (mateOf d) PAIR_STAT.ROLE = 1 ∨ s.rd (mateOf d) PAIR_STAT.ROLE = 4) ∧
      (s.rd d PAIR_STAT.ROLE = 2 ∨ s.rd d PAIR_STAT.ROLE = 3) ∧ s.bit d PAIR_STAT.SEIZING = false)) ∧
    (∃ (s : State) (d : Nat), s.Live d ∧ (¬ (s.divided d = false ∧
      (s.rd (mateOf d) PAIR_STAT.ROLE = 1 ∨ s.rd (mateOf d) PAIR_STAT.ROLE = 4) ∧
      (s.rd d PAIR_STAT.ROLE = 2 ∨ s.rd d PAIR_STAT.ROLE = 3) ∧ s.bit d PAIR_STAT.SEIZING = false))) ∧
    (∃ (s : State) (d : Nat) (a : _) (b : _), s.hasDie d = true ∧ (s.getDie d).inReset = true ∧ (s.getDie d).wdtEnd = some (a,
      b)) ∧
    (∃ (s : State) (d : Nat), s.hasDie d = true ∧ (s.getDie d).inReset = true ∧ (s.getDie d).wdtEnd = none) :=
  ⟨⟨State.reset, 7, 1, by decide +kernel⟩,
  ⟨State.reset, 7, [.por], _, _, _, _, _, _, _, _, _, _, by decide +kernel, rfl, rfl, rfl, rfl, rfl, rfl, rfl, rfl, rfl,
    fun _ => rfl, fun h => absurd h (by decide)⟩,
  ⟨((State.reset.wr 6 PAIR_STAT.ROLE 1).wr 6 PAIR_STAT.MREADY 1), 6, by decide +kernel⟩,
  ⟨State.reset, 7, by decide +kernel⟩,
  ⟨(State.reset.modPair 7 fun r => { r with releasing := some 5000 }), 7, by decide +kernel⟩,
  ⟨(State.reset.wr 7 GLB_WDT.LOCK 1), 7, (.watchdogKick 7 195 : Instr),
    (BitVec.ofNat 32 (195 % 256 * 16777216 + (((State.reset.wr 7 GLB_WDT.LOCK 1)).reg (GLB_WDT.TIMEOUT.addr 7 0 0)).toNat %
    16777216) : Word), by decide +kernel,
    Or.inr (⟨195, (by first | rfl | decide +kernel), (by first | rfl | decide +kernel)⟩), by decide +kernel⟩,
  ⟨(State.reset.wr 7 GLB_WDT.LOCK 1), 7, (.watchdogEnable 7 (0x0 : Word) : Instr),
    (BitVec.ofNat 32 (putBit (0x0 : Word).toNat 16 true) : Word), by decide +kernel,
    Or.inl (⟨(0x0 : Word), (by first | rfl | decide +kernel), (by first | rfl | decide +kernel)⟩), by decide +kernel⟩,
  ⟨(State.reset.wr 7 GLB_WDT.LOCK 0), 7, (.watchdogEnable 7 (0 : Word) : Instr),
    (BitVec.ofNat 32 (putBit (0 : Word).toNat 16 true) : Word), by decide +kernel,
    Or.inl (⟨(0 : Word), (by first | rfl | decide +kernel), (by first | rfl | decide +kernel)⟩), by decide +kernel⟩,
  ⟨(State.reset.wr 7 GLB_WDT.LOCK 1), 7, by decide +kernel⟩,
  ⟨State.reset, 6, (.glbSwrstSelf 6 0 (0xFFFFFFFF : Word) : Instr), 0,
    (BitVec.ofNat 32 (putBit (0xFFFFFFFF : Word).toNat 0 true) : Word), by decide +kernel,
    Or.inl (⟨(0xFFFFFFFF : Word), (by first | rfl | decide +kernel), (by first | rfl | decide +kernel)⟩), by decide +kernel⟩,
  ⟨State.reset, 1, (.glbSwrstSelf 1 0 (0xA500 : Word) : Instr), 0, (BitVec.ofNat 32 (putBit (0xA500 : Word).toNat 0 true) : Word), by decide +kernel,
    Or.inl (⟨(0xA500 : Word), (by first | rfl | decide +kernel), (by first | rfl | decide +kernel)⟩), by decide +kernel⟩,
  ⟨(((State.reset.wr 7 PAIR_STAT.SEIZING 0).wr (mateOf 7) PAIR_STAT.ROLE 1).wr 7 PAIR_STAT.ROLE 2), 7, by decide +kernel⟩,
  ⟨(((State.reset.wr 6 PAIR_STAT.SEIZING 1).wr (mateOf 6) PAIR_STAT.ROLE 5).wr 6 PAIR_STAT.ROLE 5), 6, by decide +kernel⟩,
  ⟨((State.reset.modDie 7 fun r => { r with inReset := true }).modDie 7 fun r => { r with wdtEnd := some (0, 1) }), 7, 0, 1, by decide +kernel⟩,
  ⟨(State.reset.modDie 7 fun r => { r with inReset := true }), 7, by decide +kernel⟩⟩

theorem witness_ADieLeavesReset :
    (∃ (s : State) (d : Nat), s.hasDie d = true ∧ (s.getDie d).inReset = true) ∧
    (∃ (s : State) (d : Nat) (rails : _) (rstn : _), s.hasDie d = true ∧
      ((s.getDie d).inReset = false ∨ rails = false ∨ rstn = false)) ∧
    (∃ (s : State) (d : Nat) (ts : _), s.Live d ∧ (s.getPair (mateOf d : Nat)).releasing = some ts ∧ s.divided d = false ∧
      s.rd d PAIR_STAT.ROLE = 2 ∧ s.bit d PAIR_STAT.READY = true ∧
      ((s.getPair (mateOf d : Nat)).swapping = true → (s.getPair (mateOf d : Nat)).released = true) ∧
      (s.getPair (mateOf d : Nat)).swapping = true) ∧
    (∃ (s : State) (d : Nat) (ts : _), s.Live d ∧ (s.getPair (mateOf d : Nat)).releasing = some ts ∧ s.divided d = false ∧
      s.rd d PAIR_STAT.ROLE = 2 ∧ s.bit d PAIR_STAT.READY = true ∧
      (((s.getPair (mateOf d : Nat)).swapping = true → (s.getPair (mateOf d : Nat)).released = true)) ∧
      (s.getPair (mateOf d : Nat)).swapping = false ∧ (s.getPair (mateOf d : Nat)).resetAfter = []) ∧
    (∃ (s : State) (d : Nat) (ts : _), s.Live d ∧ (s.getPair (mateOf d : Nat)).releasing = some ts ∧ s.divided d = false ∧
      s.rd d PAIR_STAT.ROLE = 2 ∧ s.bit d PAIR_STAT.READY = true ∧
      ((s.getPair (mateOf d : Nat)).swapping = true → (s.getPair (mateOf d : Nat)).released = true) ∧
      (s.getPair (mateOf d : Nat)).swapping = false ∧ (s.getPair (mateOf d : Nat)).resetAfter ≠ []) ∧
    (∃ (s : State) (d : Nat), s.Live d ∧ ((s.getPair (mateOf d : Nat)).releasing = none ∨ s.divided d = true ∨ s.rd d
      PAIR_STAT.ROLE ≠ 2 ∨ s.bit d PAIR_STAT.READY = false ∨ ((s.getPair (mateOf d : Nat)).swapping = true ∧
      (s.getPair (mateOf d : Nat)).released = false))) ∧
    (∃ (s : State) (d : Nat), s.Live d ∧ (s.getPair d).releasing = none) ∧
    (∃ (s : State) (d : Nat) (ts : _), s.Live d ∧ (s.getPair d).releasing = some ts ∧
      (((s.passTo (ts + 4)).holdBalls (d / 2)).passTo (ts + 40)).drivingLine (mateOf d : Nat) = true) ∧
    (∃ (s : State) (d : Nat) (ts : _), s.Live d ∧ (s.getPair d).releasing = some ts ∧
      (((s.passTo (ts + 4)).holdBalls (d / 2)).passTo (ts + 40)).drivingLine (mateOf d : Nat) = false ∧
      (s.getPair d).swapping = true) ∧
    (∃ (s : State) (d : Nat) (ts : _), s.Live d ∧ (s.getPair d).releasing = some ts ∧
      (((s.passTo (ts + 4)).holdBalls (d / 2)).passTo (ts + 40)).drivingLine (mateOf d : Nat) = false ∧
      (s.getPair d).swapping = false ∧ (s.getPair d).resetAfter = []) ∧
    (∃ (s : State) (d : Nat) (ts : _), s.Live d ∧ (s.getPair d).releasing = some ts ∧
      (((s.passTo (ts + 4)).holdBalls (d / 2)).passTo (ts + 40)).drivingLine (mateOf d : Nat) = false ∧
      (s.getPair d).swapping = false ∧ (s.getPair d).resetAfter ≠ []) :=
  ⟨⟨(State.reset.modDie 7 fun r => { r with inReset := true }), 7, by decide +kernel⟩,
  ⟨(State.reset.modDie 7 fun r => { r with inReset := false ∨ 1 = false ∨ 1 = false }), 7, 1, 1, by decide +kernel⟩,
  ⟨(((((State.reset.modPair (mateOf 7) fun r => { r with releasing := some 5000, swapping := true, released := true }).wr 7
    PAIR_STAT.ROLE 2).wr 7 PAIR_STAT.READY 1).wr 7 PAIR_STAT.READY 1).modPair (mateOf 7 : Nat) fun r =>
    { r with swapping := true }), 7, (((((((((State.reset.modPair (mateOf 7) fun r =>
    { r with releasing := some 5000, swapping := true, released := true }).wr 7 PAIR_STAT.ROLE 2).wr 7 PAIR_STAT.READY 1).wr 7
    PAIR_STAT.READY 1).modPair (mateOf 7 : Nat) fun r => { r with swapping := true })).getPair (mateOf 7 : Nat)).releasing).get
    (by decide +kernel)), by decide +kernel⟩,
  ⟨(((State.reset.modPair (mateOf 7 : Nat) fun r => { r with releasing := some 1 }).wr 7 PAIR_STAT.ROLE 2).wr 7 PAIR_STAT.READY
    1), 7, 1, by decide +kernel⟩,
  ⟨(((((State.reset.modPair (mateOf 6) fun r => { r with releasing := some 5000, resetAfter := [.wdt] }).wr 6 PAIR_STAT.ROLE
    2).wr 6 PAIR_STAT.READY 1).wr 6 PAIR_STAT.READY 1).modPair (mateOf 6 : Nat) fun r => { r with swapping := false }), 6,
    (((((((((State.reset.modPair (mateOf 6) fun r => { r with releasing := some 5000, resetAfter := [.wdt] }).wr 6
    PAIR_STAT.ROLE 2).wr 6 PAIR_STAT.READY 1).wr 6 PAIR_STAT.READY 1).modPair (mateOf 6 : Nat) fun r =>
    { r with swapping := false })).getPair (mateOf 6 : Nat)).releasing).get (by decide +kernel)), by decide +kernel⟩,
  ⟨(State.reset.wr 6 PAIR_STAT.READY 1), 6, by decide +kernel⟩,
  ⟨State.reset, 7, by decide +kernel⟩,
  ⟨(State.reset.modPair 7 fun r => { r with releasing := some 1 }), 7, 1, by decide +kernel⟩,
  ⟨(((((State.reset.modPair 7 fun r => { r with releasing := some 5000, swapping := true }).modPair 7 fun r =>
    { r with swapping := true }).modDie (mateOf 7) fun x => { x with inReset := true }).wr 7 PAIR_STAT.ROLE 1).modPair (mateOf
    7) fun r => { r with released := true }), 7,
    (((((((((State.reset.modPair 7 fun r => { r with releasing := some 5000, swapping := true }).modPair 7 fun r =>
    { r with swapping := true }).modDie (mateOf 7) fun x => { x with inReset := true }).wr 7 PAIR_STAT.ROLE 1).modPair (mateOf
    7) fun r => { r with released := true })).getPair 7).releasing).get (by decide +kernel)), by decide +kernel⟩,
  ⟨((State.reset.modPair 0 fun r => { r with releasing := some 5000 }).modPair 0 fun r => { r with swapping := false }), 0,
    ((((((State.reset.modPair 0 fun r => { r with releasing := some 5000 }).modPair 0 fun r =>
    { r with swapping := false })).getPair 0).releasing).get (by decide +kernel)), by decide +kernel⟩,
  ⟨((State.reset.modPair 0 fun r => { r with releasing := some 5000, resetAfter := [.wdt] }).modPair 0 fun r =>
    { r with swapping := false }), 0, ((((((State.reset.modPair 0 fun r =>
    { r with releasing := some 5000, resetAfter := [.wdt] }).modPair 0 fun r => { r with swapping := false })).getPair
    0).releasing).get (by decide +kernel)), by decide +kernel⟩⟩

theorem witness_StrobesAndApplyBoundariesKeepTheirGrids : ∃ (s : State) (k g : Nat), 0 < g ∧ s.pt + 1 + g < 2 ^ 64 ∧
  s.lastAt.get k 0 = s.pt + 1 :=
  ⟨({ State.reset with lastAt := State.reset.lastAt.set 7 (State.reset.pt + 1) 0 }), 7, 250, by decide +kernel⟩

theorem witness_ADieStartsUp :
    (∃ (s : State) (d : Nat), s.Live d) ∧
    (∃ (s : State) (d : Nat), s.Live d ∧ (s.getDie d).locked = false) ∧
    (∃ (s : State) (d : Nat), s.Live d ∧ (s.getDie d).locked = false) ∧
    (∃ (s : State) (d : Nat), s.Live d ∧ ((s.getDie d).locked = false ∨ s.bit d CLK_STAT.PTALIGNED = true)) ∧
    (∃ (s : State) (d : Nat), s.Live d ∧ (s.getDie d).locked = true ∧ s.bit d CLK_STAT.PTALIGNED = false ∧ s.master = none) ∧
    (∃ (s : State) (d : Nat) (m : _), s.Live d ∧ (s.getDie d).locked = true ∧ s.bit d CLK_STAT.PTALIGNED = false ∧
      s.master = some m ∧ (s.getDie d).joined = false ∧ s.reach d m = true) ∧
    (∃ (s : State) (d : Nat) (m : _), s.Live d ∧ (s.getDie d).locked = true ∧ s.bit d CLK_STAT.PTALIGNED = false ∧
      s.master = some m ∧ ((s.getDie d).joined = true ∨ s.reach d m = false)) ∧
    (∃ (s : State) (d : Nat), s.Live d ∧ (s.getDie d).locked = true ∧ (s.getDie d).optOk = true ∧ (s.getDie d).trained = false) ∧
    (∃ (s : State) (d : Nat), s.Live d ∧ ((s.getDie d).locked = false ∨ (s.getDie d).optOk = false ∨ (s.getDie d).trained =
      true)) ∧
    (∃ (s : State) (d : Nat), s.Live d ∧ (s.getDie d).trained = true ∧ s.rd d GLB_PHASE.PHASE = 1) ∧
    (∃ (s : State) (d : Nat), s.Live d ∧ ((s.getDie d).trained = false ∨ s.rd d GLB_PHASE.PHASE ≠ 1)) ∧
    (∃ (s : State) (d : Nat), s.Live d ∧ s.rd d GLB_PHASE.PHASE = 2) ∧
    (∃ (s : State) (d : Nat), s.Live d ∧ s.rd d GLB_PHASE.PHASE ≠ 2) ∧
    (∃ (s : State) (d : Nat), s.Live d ∧ s.rcPhase d = true) ∧
    (∃ (s : State) (d : Nat), s.Live d ∧ s.rcPhase d = false) ∧
    (∃ (s : State) (d : Nat) (n : _), s.Live d ∧
      2 ≤ ((s.modEnc d n (fun x =>
      { (if rcInRange (s.getEnc d n) = true then rcLoop x (atan40 x.rcS x.rcC) else { x with rcSeen := 0 }) with rcS := 0, rcC := 0, rcN := 0 })).getEnc d n).rcSeen) ∧
    (∃ (s : State) (d : Nat) (n : _), s.Live d ∧
      ((s.modEnc d n (fun x =>
      { (if rcInRange (s.getEnc d n) = true then rcLoop x (atan40 x.rcS x.rcC) else { x with rcSeen := 0 }) with rcS := 0, rcC := 0, rcN := 0 })).getEnc d n).rcSeen < 2) :=
  ⟨⟨State.reset, 7, by decide +kernel⟩,
  ⟨State.reset, 7, by decide +kernel⟩,
  ⟨State.reset, 7, by decide +kernel⟩,
  ⟨(State.reset.wr 6 CLK_STAT.PTALIGNED 0), 6, by decide +kernel⟩,
  ⟨(State.reset.modDie 7 fun r => { r with locked := true }), 7, by decide +kernel⟩,
  ⟨(((((State.reset.modDie 7 fun r => { r with locked := true, joined := false }).wr 7 CLK_STAT.PTALIGNED 0).wr 7
    CLK_STAT.PTALIGNED 0).modDie 7 fun r => { r with joined := false }).wr 0 CLK_STAT.PTALIGNED 1), 7,
    ((((((((State.reset.modDie 7 fun r => { r with locked := true, joined := false }).wr 7 CLK_STAT.PTALIGNED 0).wr 7
    CLK_STAT.PTALIGNED 0).modDie 7 fun r => { r with joined := false }).wr 0 CLK_STAT.PTALIGNED 1)).master).get
    (by decide +kernel)), by decide +kernel⟩,
  ⟨((((State.reset.modDie 7 fun r => { r with locked := true }).wr 7 CLK_STAT.PTALIGNED 0).modDie 7 fun r =>
    { r with joined := true }).wr 0 CLK_STAT.PTALIGNED 1), 7,
    (((((((State.reset.modDie 7 fun r => { r with locked := true }).wr 7 CLK_STAT.PTALIGNED 0).modDie 7 fun r =>
    { r with joined := true }).wr 0 CLK_STAT.PTALIGNED 1)).master).get (by decide +kernel)), by decide +kernel, by decide +kernel, by decide +kernel, by decide +kernel,
    Or.inl ((by decide +kernel))⟩,
  ⟨((State.reset.modDie 7 fun r => { r with locked := true }).modDie 7 fun r => { r with optOk := true }), 7, by decide +kernel⟩,
  ⟨(State.reset.modDie 6 fun r => { r with locked := false }), 6, by decide +kernel⟩,
  ⟨((State.reset.modDie 7 fun r => { r with trained := true }).wr 7 GLB_PHASE.PHASE 1), 7, by decide +kernel⟩,
  ⟨(State.reset.wr 6 GLB_PHASE.PHASE 2), 6, by decide +kernel⟩,
  ⟨(State.reset.wr 7 GLB_PHASE.PHASE 2), 7, by decide +kernel⟩,
  ⟨State.reset, 7, by decide +kernel⟩,
  ⟨((State.reset.wr 7 GLB_PHASE.PHASE 2).modDie 7 fun r => { r with rcAt := some 0 }), 7, by decide +kernel⟩,
  ⟨State.reset, 7, by decide +kernel⟩,
  ⟨(((((State.reset.modEnc 7 7 fun r => { r with rcSeen := 5, rcS := 1000000000000, rcC := 0, rcN := 1000 }).modEnc 7 7 fun r
    => { r with e := 7 }).modEnc 7 7 fun r => { r with rcS := 10000000000000, rcN := 1000 }).modEnc 7 7 fun r =>
    { r with rcS := 100000, rcN := 1000 }).modEnc 7 7 fun r => { r with rcS := 8796093022208, rcN := 1 }), 7, 7, by decide +kernel⟩,
  ⟨State.reset, 7, 1, by decide +kernel⟩⟩

theorem witness_ADieEntersFullService :
    (∃ (s : State) (d : Nat), s.Live d ∧ (s.getDie d).trained = true ∧ (s.getDie d).measured = false) ∧
    (∃ (s : State) (d : Nat), s.Live d ∧ ((s.getDie d).trained = false ∨ (s.getDie d).measured = true)) ∧
    (∃ (s : State) (d : Nat), s.Live d ∧ (s.rd d GLB_PHASE.PHASE ≠ 4 ∨ (s.getDie d).imageDone = true ∨ (s.getDie d).imageBad =
      true)) ∧
    (∃ (s : State), ((waitE0 s : List Nat) = [] ∨ s.master = none)) ∧
    (∃ (s : State) (w : List Nat) (m : Nat) (u : State) (done : Prop), w = waitE0 s ∧ w ≠ [] ∧ s.master = some m ∧ ((done ↔ ∀ d,
      d < s.dies → d ∈ w ∨ 5 ≤ s.rd d GLB_PHASE.PHASE ∨ (s.getDie d).optMismatch = true)) ∧ ((done → u = s)) ∧
      ((¬ done → u = s.pass ((w.map fun d => (s.getDie d).upAt).foldl max 0 + 375000000 - s.now)))) :=
  ⟨⟨(State.reset.modDie 7 fun r => { r with trained := true }), 7, by decide +kernel⟩,
  ⟨(State.reset.modDie 6 fun r => { r with trained := false }), 6, by decide +kernel⟩,
  ⟨State.reset, 7, by decide +kernel⟩,
  ⟨State.reset, by decide +kernel⟩,
  ⟨({ ((((State.reset.wr 0 CLK_STAT.PTALIGNED 1).wr 0 GLB_PHASE.PHASE 4).wr 1 GLB_PHASE.PHASE 4).modDie 0 fun x => { x with imageDone := true }).modDie 1 fun x => { x with imageDone := true } with dies := 2 } : State), _, 0, ({ ((((State.reset.wr 0 CLK_STAT.PTALIGNED 1).wr 0 GLB_PHASE.PHASE 4).wr 1 GLB_PHASE.PHASE 4).modDie 0 fun x => { x with imageDone := true }).modDie 1 fun x => { x with imageDone := true } with dies := 2 } : State), _, rfl, by decide +kernel, by decide +kernel, Iff.rfl, fun _ => rfl, fun h => absurd (by decide +kernel) h⟩⟩

theorem witness_SwapsAreDueAdmittedAndDone :
    (∃ (s : State) (d : Nat), s.Live d ∧ ((s.getPair d).swapTs ≠ none ∨ (s.getPair d).released = true ∨ s.bit d
      PAIR_STAT.MREADY = false)) ∧
    (∃ (s : State) (d : Nat), s.Live d ∧ (s.getPair d).swapTs = none ∧ (s.getPair d).released = false ∧
      s.bit d PAIR_STAT.MREADY = true) ∧
    (∃ (s : State) (d : Nat), s.Live d ∧ (s.getPair d).swapTs = none ∧ (s.getPair d).released = false ∧
      s.bit d PAIR_STAT.MREADY = true ∧ s.bit d PWR_ADMIT.FIRM = false ∧ s.bit d PAIR_STAT.SWPEND = true) ∧
    (∃ (s : State) (d : Nat), s.Live d ∧ (s.getPair d).swapTs = none ∧ (s.getPair d).released = false ∧
      s.bit d PAIR_STAT.MREADY = true ∧ s.bit d PWR_ADMIT.FIRM = false ∧ s.bit d PAIR_STAT.SWPEND = false) ∧
    (∃ (s : State) (d : Nat), s.Live d) ∧
    (∃ (s : State) (d : Nat), s.Live d ∧ (s.divided d = true ∨ (s.rd d PAIR_STAT.ROLE ≠ 1 ∧ s.rd d PAIR_STAT.ROLE ≠ 4))) ∧
    (∃ (s : State) (d : Nat), s.Live d ∧ s.divided d = false ∧ s.rd d PAIR_STAT.ROLE = 4) ∧
    (∃ (s : State) (d : Nat), s.Live d ∧ s.divided d = false ∧ s.rd d PAIR_STAT.ROLE = 1 ∧ s.bit d PAIR_STAT.SWPEND = true) ∧
    (∃ (s : State) (d : Nat), s.Live d ∧ s.divided d = false ∧ s.rd d PAIR_STAT.ROLE = 1 ∧ s.bit d PAIR_STAT.SWPEND = false ∧
      s.rd d PAIR_NEXT.PT = 0) ∧
    (∃ (s : State) (d : Nat), s.Live d ∧ s.divided d = false ∧ s.rd d PAIR_STAT.ROLE = 1 ∧ s.bit d PAIR_STAT.SWPEND = false ∧
      s.rd d PAIR_NEXT.PT ≠ 0) ∧
    (∃ (s : State) (d : Nat), s.Live d ∧ bitOf (BitVec.ofNat 32 (putBit (s.reg (PAIR_CTRL.SWINT.addr d 0 0)).toNat 16 true) :
      Word).toNat 16 = true) ∧
    (∃ (s : State) (d : Nat) (t : _), s.Live d ∧ (s.getPair d).swapTs = some t ∧ (s.passTo t).bit d PAIR_STAT.MREADY = true ∧
      (s.passTo t).bit d PAIR_STAT.SEIZED = false) ∧
    (∃ (s : State) (d : Nat) (t : _), s.Live d ∧ (s.getPair d).swapTs = some t ∧
      ((s.passTo t).bit d PAIR_STAT.MREADY = false ∨ (s.passTo t).bit d PAIR_STAT.SEIZED = true)) ∧
    (∃ (s : State) (d : Nat) (t : _), s.Live d ∧ (s.getPair d).dueAt = some t ∧ (s.getPair d).lateDone = false ∧
      s.bit d PAIR_STAT.SWPEND = true ∧ s.swapInt d ≠ 0) ∧
    (∃ (s : State) (d : Nat), s.Live d ∧ ((s.getPair d).dueAt = none ∨ (s.getPair d).lateDone = true ∨ s.bit d PAIR_STAT.SWPEND
      = false ∨ s.swapInt d = 0)) :=
  ⟨⟨State.reset, 7, by decide +kernel⟩,
  ⟨(State.reset.wr 7 PAIR_STAT.MREADY 1), 7, by decide +kernel⟩,
  ⟨(((State.reset.wr 0 PAIR_STAT.MREADY 1).wr 0 PWR_ADMIT.FIRM 0).wr 0 PAIR_STAT.SWPEND 1), 0, by decide +kernel⟩,
  ⟨(((State.reset.wr 0 PAIR_STAT.MREADY 1).wr 0 PWR_ADMIT.FIRM 0).wr 0 PAIR_STAT.SWPEND 0), 0, by decide +kernel⟩,
  ⟨State.reset, 7, by decide +kernel⟩,
  ⟨State.reset, 7, by decide +kernel⟩,
  ⟨(State.reset.wr 7 PAIR_STAT.ROLE 4), 7, by decide +kernel⟩,
  ⟨((State.reset.wr 7 PAIR_STAT.ROLE 1).wr 7 PAIR_STAT.SWPEND 1), 7, by decide +kernel⟩,
  ⟨(State.reset.wr 7 PAIR_STAT.ROLE 1), 7, by decide +kernel⟩,
  ⟨((State.reset.wr 7 PAIR_STAT.ROLE 1).wr 7 PAIR_NEXT.PT 1), 7, by decide +kernel⟩,
  ⟨State.reset, 7, by decide +kernel⟩,
  ⟨((State.reset.modPair 7 fun r => { r with swapTs := some 5000 }).wr 7 PAIR_STAT.MREADY 1), 7, 5000, by decide +kernel⟩,
  ⟨(State.reset.modPair 7 fun r => { r with swapTs := some 5000 }), 7, 5000, by decide +kernel⟩,
  ⟨((State.reset.modPair 7 fun r => { r with dueAt := some 5000 }).wr 7 PAIR_STAT.SWPEND 1), 7, 5000, by decide +kernel⟩,
  ⟨(State.reset.wr 6 PAIR_STAT.SWPEND 1), 6, by decide +kernel⟩⟩

theorem witness_HeartbeatsAreSentReceivedAndMissed :
    (∃ (s : State) (d : Nat), s.Live d) ∧
    (∃ (s : State) (d : Nat), s.Live d ∧ (s.getPair d).rootLive = true ∧ s.rootRuns d = true) ∧
    (∃ (s : State) (d : Nat), s.Live d ∧ ((s.getPair d).rootLive = false ∨ s.rootRuns d = false)) ∧
    (∃ (s : State) (d : Nat), s.Live d) ∧
    (∃ (s : State) (d : Nat) (a : Bool), s.Live d ∧ ((if a = true then (s.getPair (mateOf d) : PairRec).txA.map fun x => (x.1,
      x.2.1, (s.getPair (mateOf d) : PairRec).seqA, true) else (s.getPair (mateOf d) : PairRec).txB.map fun w => (w % 4,
      bitOf w 2, bitsOf w 4 4, w / 256 == crc8 (w % 256))) : Option (Nat × Bool × Nat × Bool)) = none) ∧
    (∃ (s : State) (d : Nat) (a : Bool) (crc : Bool) (i : Instr) (m : PairRec) (p : PairRec) (tx : Option (Nat × Bool × Nat ×
      Bool)) (chk : Nat) (u : State) (r : Nat) (ready : Bool) (seq : Nat) (good : Bool), s.Live d ∧ m = s.getPair (mateOf d) ∧
      p = s.getPair d ∧ i = (if a = true then .heartbeatAReceive d crc else .heartbeatBReceive d crc) ∧
      tx = (if a = true then m.txA.map fun x => (x.1, x.2.1, m.seqA, true) else m.txB.map fun w => (w % 4, bitOf w 2,
      bitsOf w 4 4, w / 256 == crc8 (w % 256))) ∧ chk = (if a = true then 11 else 12) ∧
      u = s.inject d chk 464 7 (if a = true then 0 else 1) ∧ tx = some (r, ready, seq, good) ∧
      (crc = false ∨ good = false ∨ s.injLoud d chk = true)) ∧
    (∃ (s : State) (d : Nat) (a : Bool) (crc : Bool) (i : Instr) (m : PairRec) (p : PairRec) (tx : Option (Nat × Bool × Nat ×
      Bool)) (chk : Nat) (u : State) (r : Nat) (ready : Bool) (seq : Nat) (good : Bool), s.Live d ∧ m = s.getPair (mateOf d) ∧
      p = s.getPair d ∧ i = (if a = true then .heartbeatAReceive d crc else .heartbeatBReceive d crc) ∧
      tx = (if a = true then m.txA.map fun x => (x.1, x.2.1, m.seqA, true) else m.txB.map fun w => (w % 4, bitOf w 2,
      bitsOf w 4 4, w / 256 == crc8 (w % 256))) ∧ chk = (if a = true then 11 else 12) ∧
      u = s.inject d chk 464 7 (if a = true then 0 else 1) ∧ tx = some (r, ready, seq, good) ∧ crc = true ∧ good = true ∧
      s.injLoud d chk = false ∧ (if a = true then p.lastA else p.lastB) = some seq) ∧
    (∃ (s : State) (d : Nat) (a : Bool) (crc : Bool) (i : Instr) (m : PairRec) (p : PairRec) (tx : Option (Nat × Bool × Nat ×
      Bool)) (chk : Nat) (u : State) (r : Nat) (ready : Bool) (seq : Nat) (good : Bool) (v : State) (ok : Nat) (x : State),
      s.Live d ∧ m = s.getPair (mateOf d) ∧ p = s.getPair d ∧
      i = (if a = true then .heartbeatAReceive d crc else .heartbeatBReceive d crc) ∧
      tx = (if a = true then m.txA.map fun x => (x.1, x.2.1, m.seqA, true) else m.txB.map fun w => (w % 4, bitOf w 2,
      bitsOf w 4 4, w / 256 == crc8 (w % 256))) ∧ chk = (if a = true then 11 else 12) ∧
      u = s.inject d chk 464 7 (if a = true then 0 else 1) ∧ tx = some (r, ready, seq, good) ∧ crc = true ∧ good = true ∧
      s.injLoud d chk = false ∧ (if a = true then p.lastA else p.lastB) ≠ some seq ∧
      v = u.wr d (if a = true then PAIR_HB.MISSA else PAIR_HB.MISSB) 0 ∧
      ok = (if v.bit d (if a = true then PAIR_STAT.PATHA else PAIR_STAT.PATHB) = true then 0 else (if a = true then p.okA else
      p.okB) + 1) ∧ x = v.modPair d (fun p => if a = true then
      { p with lastA := some seq, okA := ok, mateRole := r, mateView := (m.txA.map fun x => x.2.2).getD 0, goodA := some v.pt }
      else { p with lastB := some seq, okB := ok, mateReleasing := (m.txB.map fun w => bitOf w 3).getD false, goodB := some v.now })) ∧
    (∃ (s : State) (d : Nat), s.Live d) ∧
    (∃ (s : State) (d : Nat) (r : _) (t : _), s.Live d ∧ (s.getPair d).startAt = some t ∧ (r = 1 ∨ r = 4)) ∧
    (∃ (s : State) (d : Nat) (r : _) (t : _), s.Live d ∧ (s.getPair d).startAt = some t ∧ r ≠ 1 ∧ r ≠ 4) ∧
    (∃ (s : State) (d : Nat), s.Live d ∧ (s.getPair d).startAt = none) ∧
    (∃ (s : State) (d : Nat), s.Live d) ∧
    (∃ (s : State) (d : Nat), s.Live d ∧ 4 ≤ s.rd d PAIR_HB.MISSB) ∧
    (∃ (s : State) (d : Nat), s.Live d ∧ s.rd d PAIR_HB.MISSB < 4) ∧
    (∃ (s : State) (d : Nat), s.Live d) ∧
    (∃ (s : State) (d : Nat) (a : Bool), s.Live d ∧
      ((if a = true then ((((s.wr d (if a = true then PAIR_STAT.PATHA else PAIR_STAT.PATHB) 0).addSat d (if a = true then
      PAIR_HB.LOSTA else PAIR_HB.LOSTB) : State).modPair d fun p => { p with heldLost := true }).modFwd d fun _ => []).modFwd
      (mateOf d) fun _ => [] else ((s.wr d (if a = true then PAIR_STAT.PATHA else PAIR_STAT.PATHB) 0).addSat d (if a = true
      then PAIR_HB.LOSTA else PAIR_HB.LOSTB) : State)) : State).bit d (if a = true then PAIR_STAT.PATHB else PAIR_STAT.PATHA) =
      true) ∧
    (∃ (s : State) (d : Nat) (a : Bool), s.Live d ∧
      ((if a = true then ((((s.wr d (if a = true then PAIR_STAT.PATHA else PAIR_STAT.PATHB) 0).addSat d (if a = true then
      PAIR_HB.LOSTA else PAIR_HB.LOSTB) : State).modPair d fun p => { p with heldLost := true }).modFwd d fun _ => []).modFwd
      (mateOf d) fun _ => [] else ((s.wr d (if a = true then PAIR_STAT.PATHA else PAIR_STAT.PATHB) 0).addSat d (if a = true
      then PAIR_HB.LOSTA else PAIR_HB.LOSTB) : State)) : State).bit d (if a = true then PAIR_STAT.PATHB else PAIR_STAT.PATHA) =
      false) :=
  ⟨⟨State.reset, 7, by decide +kernel⟩,
  ⟨(((State.reset.wr 7 CLK_STAT.ROOTLOCK 1).modPair 7 fun r => { r with rootLive := false }).modPair 7 fun r =>
    { r with rootLive := true }), 7, by decide +kernel⟩,
  ⟨(State.reset.modPair 6 fun r => { r with rootLive := false }), 6, by decide +kernel⟩,
  ⟨State.reset, 7, by decide +kernel⟩,
  ⟨State.reset, 7, true, by decide +kernel⟩,
  ⟨(State.reset.modPair 6 fun r => { r with txA := some (1, true, 3), seqA := 5 }), 7, true, false, _, _, _, _, _, _, 1, true,
    5, true, by decide +kernel, rfl, rfl, rfl, rfl, rfl, rfl, by decide +kernel, by decide +kernel⟩,
  ⟨((State.reset.modPair 6 fun r => { r with txB := some (frameB 1 true false 5) }).modPair 7 fun r =>
    { r with lastB := some 5 }), 7, false, true, _, _, _, _, _, _, 1, true, 5, true, by decide +kernel, rfl, rfl, rfl, rfl, rfl,
    rfl, by decide +kernel, by decide +kernel, by decide +kernel, by decide +kernel, by decide +kernel⟩,
  ⟨(State.reset.modPair 6 fun r => { r with txA := some (1, true, 3), seqA := 5 }), 7, true, true, _, _, _, _, _, _, 1, true, 5,
    true, _, _, _, by decide +kernel, rfl, rfl, rfl, rfl, rfl, rfl, by decide +kernel, by decide +kernel, by decide +kernel, by decide +kernel, by decide +kernel, rfl, rfl, rfl⟩,
  ⟨State.reset, 7, by decide +kernel⟩,
  ⟨(State.reset.modPair 7 fun r => { r with startAt := some 5000 }), 7, (1),
    (((((State.reset.modPair 7 fun r => { r with startAt := some 5000 })).getPair 7).startAt).get (by decide +kernel)), by decide +kernel, by decide +kernel,
    Or.inl ((by first | rfl | decide +kernel))⟩,
  ⟨(State.reset.modPair 6 fun r => { r with startAt := some 5000 }), 6, 5000,
    (((((State.reset.modPair 6 fun r => { r with startAt := some 5000 })).getPair 6).startAt).get (by decide +kernel)), by decide +kernel⟩,
  ⟨State.reset, 7, by decide +kernel⟩,
  ⟨State.reset, 7, by decide +kernel⟩,
  ⟨(State.reset.wr 7 PAIR_HB.MISSB 4), 7, by decide +kernel⟩,
  ⟨State.reset, 7, by decide +kernel⟩,
  ⟨State.reset, 7, by decide +kernel⟩,
  ⟨((State.reset.wr 6 PAIR_STAT.PATHA 1).wr 6 PAIR_STAT.PATHB 1), 6, false, by decide +kernel⟩,
  ⟨State.reset, 7, true, by decide +kernel⟩⟩

theorem witness_TakeoverAndResynchronisation :
    (∃ (s : State) (d : Nat), s.Live d ∧ s.maySeize d = true ∧ (s.getPair d).lbRun = false) ∧
    (∃ (s : State) (d : Nat), s.Live d ∧ (s.maySeize d = false ∨ (s.getPair d).lbRun = true)) ∧
    (∃ (s : State) (d : Nat) (t : _), s.Live d ∧ (s.getPair d).startAt = some t) ∧
    (∃ (s : State) (d : Nat), s.Live d ∧ (s.getPair d).startAt = none) ∧
    (∃ (s : State) (d : Nat), s.Live d ∧ (s.getPair d).lbBad = true ∧ (s.getPair d).lbRun = false) ∧
    (∃ (s : State) (d : Nat), s.Live d ∧ ((s.getPair d).lbBad = false ∨ (s.getPair d).lbRun = true)) ∧
    (∃ (s : State) (d : Nat), s.Live d ∧ (s.getPair d).lbRun = true) ∧
    (∃ (s : State) (d : Nat), s.Live d) ∧
    (∃ (s : State) (d : Nat), s.Live d) ∧
    (∃ (s : State) (d : Nat), s.Live d ∧ s.mayResync d = true) ∧
    (∃ (s : State) (d : Nat), s.Live d ∧ s.mayResync d = false) ∧
    (∃ (s : State) (d k n : Nat), s.Live d ∧ k < 7 ∧ n < 8 ∧
      (((if s.bridgeUp d = true then s.inject d 8 464 7 2 else s) : State).rd d PAIR_STAT.RESYNC ≠ 2 ∨ ((if s.bridgeUp d = true
      then s.inject d 8 464 7 2 else s) : State).bridgeUp d = false)) ∧
    (∃ (s : State) (d k n : Nat), s.Live d ∧ k < 7 ∧ n < 8 ∧
      ((if s.bridgeUp d = true then s.inject d 8 464 7 2 else s) : State).rd d PAIR_STAT.RESYNC = 2 ∧
      ((if s.bridgeUp d = true then s.inject d 8 464 7 2 else s) : State).bridgeUp d = true) ∧
    (∃ (s : State) (d : Nat), s.Live d) ∧
    (∃ (s : State) (d k n j : Nat), s.Live d ∧ k < 5 ∧ n < 8 ∧ j < 3 ∧ (¬ (s.bridgeUp d = true ∧ s.divided d = false ∧
      (s.rd d PAIR_STAT.ROLE = 2 ∨ s.rd d PAIR_STAT.ROLE = 3) ∧ (s.bit d PAIR_STAT.READY = true ∨ s.rd d PAIR_STAT.RESYNC = 3) ∧
      shadowExceeds s d k n j = true))) ∧
    (∃ (s : State) (d k n j : Nat), s.Live d ∧ k < 5 ∧ n < 8 ∧ j < 3 ∧ (s.bridgeUp d = true ∧ s.divided d = false ∧
      (s.rd d PAIR_STAT.ROLE = 2 ∨ s.rd d PAIR_STAT.ROLE = 3) ∧ (s.bit d PAIR_STAT.READY = true ∨ s.rd d PAIR_STAT.RESYNC = 3) ∧
      shadowExceeds s d k n j = true)) ∧
    (∃ (s : State) (d : Nat), s.Live d ∧ s.rd d PAIR_STAT.RESYNC ≠ 3) ∧
    (∃ (s : State) (d : Nat), s.Live d ∧ s.rd d PAIR_STAT.RESYNC = 3) :=
  ⟨⟨(((State.reset.wr 6 PAIR_STAT.ROLE 2).modPair 6 fun r => { r with lbRun := false }).modPair 6 fun r =>
    { r with heldLost := true }), 6, by decide +kernel⟩,
  ⟨State.reset, 7, by decide +kernel⟩,
  ⟨(State.reset.modPair 7 fun r => { r with startAt := some 5000 }), 7, 5000, by decide +kernel⟩,
  ⟨State.reset, 7, by decide +kernel⟩,
  ⟨(State.reset.modPair 7 fun r => { r with lbBad := true }), 7, by decide +kernel⟩,
  ⟨(State.reset.modPair 6 fun r => { r with lbBad := false }), 6, by decide +kernel⟩,
  ⟨(State.reset.modPair 7 fun r => { r with lbRun := true }), 7, by decide +kernel⟩,
  ⟨State.reset, 7, by decide +kernel⟩,
  ⟨State.reset, 7, by decide +kernel⟩,
  ⟨((((State.reset.wr 6 PAIR_STAT.ROLE 3).wr 6 GLB_PHASE.PHASE 5).wr 6 PAIR_STAT.PATHA 1).wr 6 PAIR_STAT.PATHB 1), 6, by decide +kernel⟩,
  ⟨State.reset, 7, by decide +kernel⟩,
  ⟨State.reset, 7, 6, 7, by decide +kernel⟩,
  ⟨((State.reset.wr 7 PAIR_STAT.RESYNC 2).mated 7), 7, 6, 7, by decide +kernel⟩,
  ⟨State.reset, 7, by decide +kernel⟩,
  ⟨(((((State.reset.wr 6 PAIR_STAT.READY 1).wr 6 PAIR_STAT.ROLE 2).wr 6 PAIR_STAT.RESYNC 3).mated 6).wr 6 GLB_ID.PAIRMODE 1), 6,
    2, 3, 1, by decide +kernel⟩,
  ⟨(((((((((State.reset.mated 6).wr 6 PAIR_STAT.ROLE 2).wr 6 PAIR_STAT.READY 1).wr (mateOf 6) PWM_CTRL.EN 1 7).wr (mateOf 6)
    PWM_DUTY.DUTY 0x7FFFFFFF 7 2).wr (mateOf 6) LAW_CTRL.RUN 1 7).wr 6 PAIR_STAT.READY 1).wr 6 PAIR_STAT.ROLE 2).wr 6
    PAIR_STAT.RESYNC 1), 6, 4, 7, 2, by decide +kernel⟩,
  ⟨State.reset, 7, by decide +kernel⟩,
  ⟨(State.reset.wr 7 PAIR_STAT.RESYNC 3), 7, by decide +kernel⟩⟩

theorem witness_StacksFramesRecordsAndDrives :
    (∃ (s : State) (d : Nat), s.Live d ∧ s.bit d STK_STREAM.EN 0 = false) ∧
    (∃ (s : State) (d : Nat), s.Live d ∧ s.bit d STK_STREAM.EN 0 = true) ∧
    (∃ (s : State) (d : Nat) (st : _) (r : _), s.Live d ∧ st < 3 ∧ (s.getStk d).cur st = some r) ∧
    (∃ (s : State) (d : Nat) (st : _), s.Live d ∧ st < 3 ∧ (s.getStk d).cur st = none) ∧
    (∃ (s : State) (d : Nat) (c : _) (r : _), s.Live d ∧ stkReady s = some c ∧ s.deferOk c = true ∧ s.reach d c = true ∧
      (s.getStk d).staged.find? (recDue s c) = some r ∧ s.bit c STK_NS.VALID r.ns = false) ∧
    (∃ (s : State) (d : Nat) (c : _) (r : _), s.Live d ∧ stkReady s = some c ∧ s.deferOk c = true ∧ s.reach d c = true ∧
      (s.getStk d).staged.find? (recDue s c) = some r ∧ s.bit c STK_NS.VALID r.ns = true ∧
      (((if (s.getNsr c r.ns).open_ = none then segOpen c r.ns s else s)).getNsr c r.ns).open_ = none) ∧
    (∃ (s : State) (d : Nat) (c : _) (r : _) (i : _) (slot : _), s.Live d ∧ stkReady s = some c ∧ s.deferOk c = true ∧
      s.reach d c = true ∧ (s.getStk d).staged.find? (recDue s c) = some r ∧ s.bit c STK_NS.VALID r.ns = true ∧
      (((if (s.getNsr c r.ns).open_ = none then segOpen c r.ns s else s)).getNsr c r.ns).open_ = some (i, slot)) ∧
    (∃ (s : State) (d : Nat), s.Live d ∧ (stkReady s = none ∨ (∃ c, stkReady s = some c ∧
      (s.deferOk c = false ∨ s.reach d c = false ∨ (s.getStk d).staged.find? (recDue s c) = none)))) ∧
    (∃ (s : State) (d : Nat) (gen : _), s.Live d ∧ d < 2 ∧ gen ≠ 0) ∧
    (∃ (s : State) (d : Nat), s.Live d ∧ d < 2) ∧
    (∃ (s : State) (d : Nat), s.Live d ∧ d < 2 ∧ s.bit d STK_STAT.RDY = true) ∧
    (∃ (s : State) (d : Nat), s.Live d ∧ d < 2 ∧ s.bit d STK_STAT.RDY = false) ∧
    (∃ (s : State) (d : Nat) (r : _) (rs : _), s.Live d ∧ (s.getTrc d).recs = r :: rs ∧ r.dest ≠ 0 ∧ s.deferOk d = true ∧
      (r.dest = 1 → s.dramSrv ≠ none)) ∧
    (∃ (s : State) (d : Nat), s.Live d ∧ ((s.getTrc d).recs = [] ∨ (∃ r rs, (s.getTrc d).recs = r :: rs ∧
      (r.dest = 0 ∨ s.deferOk d = false ∨ (r.dest = 1 ∧ s.dramSrv = none))))) ∧
    (∃ (s : State) (c : _) (k : _) (i : _), k < 4 ∧ stkReady s = some c ∧ (s.getNsr c k).open_ = some (i, 256)) ∧
    (∃ (s : State) (k : _), k < 4 ∧ (∀ c i, stkReady s = some c → (s.getNsr c k).open_ ≠ some (i, 256))) ∧
    (∃ (s : State) (c : _), s.stkSrv = some c ∧ s.rd c STK_STAT.IDX = 1) ∧
    (∃ (s : State) (c : _), s.stkSrv = some c ∧ s.rd c STK_STAT.IDX ≠ 1) ∧
    (∃ (s : State), s.stkSrv = none) :=
  ⟨⟨State.reset, 7, by decide +kernel⟩,
  ⟨(State.reset.wr 7 STK_STREAM.EN 1 0), 7, by decide +kernel⟩,
  ⟨(State.reset.modStk 6 fun r => { r with rec0 := some {}, rec1 := some {}, rec2 := some {} }), 6, 2,
    (((((State.reset.modStk 6 fun r => { r with rec0 := some {}, rec1 := some {}, rec2 := some {} })).getStk 6).cur 2).get
    (by decide +kernel)), by decide +kernel⟩,
  ⟨State.reset, 7, 2, by decide +kernel⟩,
  ⟨(({ ({ ({ (((State.reset.wr 1 STK_STAT.IDX 2).wr 1 PWR_ADMIT.DEFER 1).modStk 7 fun r => { r with staged := [{ slot := 0, stream := 0, ns := 3, ts := 0, te := 9 }] }) with stkSrv := some 1 } : State) with stkSrv := some 1 } : State) with stkSrv := some 1 } : State).wr 1 STK_STAT.IDX 2), 7, ((stkReady ((({ ({ ({ (((State.reset.wr 1 STK_STAT.IDX 2).wr 1 PWR_ADMIT.DEFER 1).modStk 7 fun r => { r with staged := [{ slot := 0, stream := 0, ns := 3, ts := 0, te := 9 }] }) with stkSrv := some 1 } : State) with stkSrv := some 1 } : State) with stkSrv := some 1 } : State).wr 1 STK_STAT.IDX 2))).get (by decide +kernel)), (((((({ ({ ({ (((State.reset.wr 1 STK_STAT.IDX 2).wr 1 PWR_ADMIT.DEFER 1).modStk 7 fun r => { r with staged := [{ slot := 0, stream := 0, ns := 3, ts := 0, te := 9 }] }) with stkSrv := some 1 } : State) with stkSrv := some 1 } : State) with stkSrv := some 1 } : State).wr 1 STK_STAT.IDX 2)).getStk 7).staged.find? (recDue ((({ ({ ({ (((State.reset.wr 1 STK_STAT.IDX 2).wr 1 PWR_ADMIT.DEFER 1).modStk 7 fun r => { r with staged := [{ slot := 0, stream := 0, ns := 3, ts := 0, te := 9 }] }) with stkSrv := some 1 } : State) with stkSrv := some 1 } : State) with stkSrv := some 1 } : State).wr 1 STK_STAT.IDX 2)) (((stkReady ((({ ({ ({ (((State.reset.wr 1 STK_STAT.IDX 2).wr 1 PWR_ADMIT.DEFER 1).modStk 7 fun r => { r with staged := [{ slot := 0, stream := 0, ns := 3, ts := 0, te := 9 }] }) with stkSrv := some 1 } : State) with stkSrv := some 1 } : State) with stkSrv := some 1 } : State).wr 1 STK_STAT.IDX 2))).get (by decide +kernel))))).get (by decide +kernel)), by decide +kernel⟩,
  ⟨(({ ({ (({ (((State.reset.wr 1 STK_STAT.IDX 2).wr 1 PWR_ADMIT.DEFER 1).modStk 7 fun r => { r with staged := [{ slot := 0, stream := 0, ns := 3, ts := 0, te := 9 }] }) with stkSrv := some 1 } : State).wr 1 STK_NS.VALID 1 3) with stkSrv := some 1 } : State) with stkSrv := some 1 } : State).wr 1 STK_STAT.IDX 2), 7, ((stkReady ((({ ({ (({ (((State.reset.wr 1 STK_STAT.IDX 2).wr 1 PWR_ADMIT.DEFER 1).modStk 7 fun r => { r with staged := [{ slot := 0, stream := 0, ns := 3, ts := 0, te := 9 }] }) with stkSrv := some 1 } : State).wr 1 STK_NS.VALID 1 3) with stkSrv := some 1 } : State) with stkSrv := some 1 } : State).wr 1 STK_STAT.IDX 2))).get (by decide +kernel)), (((((({ ({ (({ (((State.reset.wr 1 STK_STAT.IDX 2).wr 1 PWR_ADMIT.DEFER 1).modStk 7 fun r => { r with staged := [{ slot := 0, stream := 0, ns := 3, ts := 0, te := 9 }] }) with stkSrv := some 1 } : State).wr 1 STK_NS.VALID 1 3) with stkSrv := some 1 } : State) with stkSrv := some 1 } : State).wr 1 STK_STAT.IDX 2)).getStk 7).staged.find? (recDue ((({ ({ (({ (((State.reset.wr 1 STK_STAT.IDX 2).wr 1 PWR_ADMIT.DEFER 1).modStk 7 fun r => { r with staged := [{ slot := 0, stream := 0, ns := 3, ts := 0, te := 9 }] }) with stkSrv := some 1 } : State).wr 1 STK_NS.VALID 1 3) with stkSrv := some 1 } : State) with stkSrv := some 1 } : State).wr 1 STK_STAT.IDX 2)) (((stkReady ((({ ({ (({ (((State.reset.wr 1 STK_STAT.IDX 2).wr 1 PWR_ADMIT.DEFER 1).modStk 7 fun r => { r with staged := [{ slot := 0, stream := 0, ns := 3, ts := 0, te := 9 }] }) with stkSrv := some 1 } : State).wr 1 STK_NS.VALID 1 3) with stkSrv := some 1 } : State) with stkSrv := some 1 } : State).wr 1 STK_STAT.IDX 2))).get (by decide +kernel))))).get (by decide +kernel)), by decide +kernel⟩,
  ⟨(({ ({ ((({ (((State.reset.wr 1 STK_STAT.IDX 2).wr 1 PWR_ADMIT.DEFER 1).modStk 7 fun r => { r with staged := [{ slot := 0, stream := 0, ns := 3, ts := 0, te := 9 }] }) with stkSrv := some 1 } : State).wr 1 STK_NS.VALID 1 3).modNsr 1 3 fun r => { r with open_ := some (5, 255) }) with stkSrv := some 1 } : State) with stkSrv := some 1 } : State).wr 1 STK_STAT.IDX 2), 7, ((stkReady ((({ ({ ((({ (((State.reset.wr 1 STK_STAT.IDX 2).wr 1 PWR_ADMIT.DEFER 1).modStk 7 fun r => { r with staged := [{ slot := 0, stream := 0, ns := 3, ts := 0, te := 9 }] }) with stkSrv := some 1 } : State).wr 1 STK_NS.VALID 1 3).modNsr 1 3 fun r => { r with open_ := some (5, 255) }) with stkSrv := some 1 } : State) with stkSrv := some 1 } : State).wr 1 STK_STAT.IDX 2))).get (by decide +kernel)), (((((({ ({ ((({ (((State.reset.wr 1 STK_STAT.IDX 2).wr 1 PWR_ADMIT.DEFER 1).modStk 7 fun r => { r with staged := [{ slot := 0, stream := 0, ns := 3, ts := 0, te := 9 }] }) with stkSrv := some 1 } : State).wr 1 STK_NS.VALID 1 3).modNsr 1 3 fun r => { r with open_ := some (5, 255) }) with stkSrv := some 1 } : State) with stkSrv := some 1 } : State).wr 1 STK_STAT.IDX 2)).getStk 7).staged.find? (recDue ((({ ({ ((({ (((State.reset.wr 1 STK_STAT.IDX 2).wr 1 PWR_ADMIT.DEFER 1).modStk 7 fun r => { r with staged := [{ slot := 0, stream := 0, ns := 3, ts := 0, te := 9 }] }) with stkSrv := some 1 } : State).wr 1 STK_NS.VALID 1 3).modNsr 1 3 fun r => { r with open_ := some (5, 255) }) with stkSrv := some 1 } : State) with stkSrv := some 1 } : State).wr 1 STK_STAT.IDX 2)) (((stkReady ((({ ({ ((({ (((State.reset.wr 1 STK_STAT.IDX 2).wr 1 PWR_ADMIT.DEFER 1).modStk 7 fun r => { r with staged := [{ slot := 0, stream := 0, ns := 3, ts := 0, te := 9 }] }) with stkSrv := some 1 } : State).wr 1 STK_NS.VALID 1 3).modNsr 1 3 fun r => { r with open_ := some (5, 255) }) with stkSrv := some 1 } : State) with stkSrv := some 1 } : State).wr 1 STK_STAT.IDX 2))).get (by decide +kernel))))).get (by decide +kernel)), (((((if (((({ ({ ((({ (((State.reset.wr 1 STK_STAT.IDX 2).wr 1 PWR_ADMIT.DEFER 1).modStk 7 fun r => { r with staged := [{ slot := 0, stream := 0, ns := 3, ts := 0, te := 9 }] }) with stkSrv := some 1 } : State).wr 1 STK_NS.VALID 1 3).modNsr 1 3 fun r => { r with open_ := some (5, 255) }) with stkSrv := some 1 } : State) with stkSrv := some 1 } : State).wr 1 STK_STAT.IDX 2)).getNsr (((stkReady ((({ ({ ((({ (((State.reset.wr 1 STK_STAT.IDX 2).wr 1 PWR_ADMIT.DEFER 1).modStk 7 fun r => { r with staged := [{ slot := 0, stream := 0, ns := 3, ts := 0, te := 9 }] }) with stkSrv := some 1 } : State).wr 1 STK_NS.VALID 1 3).modNsr 1 3 fun r => { r with open_ := some (5, 255) }) with stkSrv := some 1 } : State) with stkSrv := some 1 } : State).wr 1 STK_STAT.IDX 2))).get (by decide +kernel))) ((((((({ ({ ((({ (((State.reset.wr 1 STK_STAT.IDX 2).wr 1 PWR_ADMIT.DEFER 1).modStk 7 fun r => { r with staged := [{ slot := 0, stream := 0, ns := 3, ts := 0, te := 9 }] }) with stkSrv := some 1 } : State).wr 1 STK_NS.VALID 1 3).modNsr 1 3 fun r => { r with open_ := some (5, 255) }) with stkSrv := some 1 } : State) with stkSrv := some 1 } : State).wr 1 STK_STAT.IDX 2)).getStk 7).staged.find? (recDue ((({ ({ ((({ (((State.reset.wr 1 STK_STAT.IDX 2).wr 1 PWR_ADMIT.DEFER 1).modStk 7 fun r => { r with staged := [{ slot := 0, stream := 0, ns := 3, ts := 0, te := 9 }] }) with stkSrv := some 1 } : State).wr 1 STK_NS.VALID 1 3).modNsr 1 3 fun r => { r with open_ := some (5, 255) }) with stkSrv := some 1 } : State) with stkSrv := some 1 } : State).wr 1 STK_STAT.IDX 2)) (((stkReady ((({ ({ ((({ (((State.reset.wr 1 STK_STAT.IDX 2).wr 1 PWR_ADMIT.DEFER 1).modStk 7 fun r => { r with staged := [{ slot := 0, stream := 0, ns := 3, ts := 0, te := 9 }] }) with stkSrv := some 1 } : State).wr 1 STK_NS.VALID 1 3).modNsr 1 3 fun r => { r with open_ := some (5, 255) }) with stkSrv := some 1 } : State) with stkSrv := some 1 } : State).wr 1 STK_STAT.IDX 2))).get (by decide +kernel))))).get (by decide +kernel))).ns).open_ = none then segOpen (((stkReady ((({ ({ ((({ (((State.reset.wr 1 STK_STAT.IDX 2).wr 1 PWR_ADMIT.DEFER 1).modStk 7 fun r => { r with staged := [{ slot := 0, stream := 0, ns := 3, ts := 0, te := 9 }] }) with stkSrv := some 1 } : State).wr 1 STK_NS.VALID 1 3).modNsr 1 3 fun r => { r with open_ := some (5, 255) }) with stkSrv := some 1 } : State) with stkSrv := some 1 } : State).wr 1 STK_STAT.IDX 2))).get (by decide +kernel))) ((((((({ ({ ((({ (((State.reset.wr 1 STK_STAT.IDX 2).wr 1 PWR_ADMIT.DEFER 1).modStk 7 fun r => { r with staged := [{ slot := 0, stream := 0, ns := 3, ts := 0, te := 9 }] }) with stkSrv := some 1 } : State).wr 1 STK_NS.VALID 1 3).modNsr 1 3 fun r => { r with open_ := some (5, 255) }) with stkSrv := some 1 } : State) with stkSrv := some 1 } : State).wr 1 STK_STAT.IDX 2)).getStk 7).staged.find? (recDue ((({ ({ ((({ (((State.reset.wr 1 STK_STAT.IDX 2).wr 1 PWR_ADMIT.DEFER 1).modStk 7 fun r => { r with staged := [{ slot := 0, stream := 0, ns := 3, ts := 0, te := 9 }] }) with stkSrv := some 1 } : State).wr 1 STK_NS.VALID 1 3).modNsr 1 3 fun r => { r with open_ := some (5, 255) }) with stkSrv := some 1 } : State) with stkSrv := some 1 } : State).wr 1 STK_STAT.IDX 2)) (((stkReady ((({ ({ ((({ (((State.reset.wr 1 STK_STAT.IDX 2).wr 1 PWR_ADMIT.DEFER 1).modStk 7 fun r => { r with staged := [{ slot := 0, stream := 0, ns := 3, ts := 0, te := 9 }] }) with stkSrv := some 1 } : State).wr 1 STK_NS.VALID 1 3).modNsr 1 3 fun r => { r with open_ := some (5, 255) }) with stkSrv := some 1 } : State) with stkSrv := some 1 } : State).wr 1 STK_STAT.IDX 2))).get (by decide +kernel))))).get (by decide +kernel))).ns ((({ ({ ((({ (((State.reset.wr 1 STK_STAT.IDX 2).wr 1 PWR_ADMIT.DEFER 1).modStk 7 fun r => { r with staged := [{ slot := 0, stream := 0, ns := 3, ts := 0, te := 9 }] }) with stkSrv := some 1 } : State).wr 1 STK_NS.VALID 1 3).modNsr 1 3 fun r => { r with open_ := some (5, 255) }) with stkSrv := some 1 } : State) with stkSrv := some 1 } : State).wr 1 STK_STAT.IDX 2)) else ((({ ({ ((({ (((State.reset.wr 1 STK_STAT.IDX 2).wr 1 PWR_ADMIT.DEFER 1).modStk 7 fun r => { r with staged := [{ slot := 0, stream := 0, ns := 3, ts := 0, te := 9 }] }) with stkSrv := some 1 } : State).wr 1 STK_NS.VALID 1 3).modNsr 1 3 fun r => { r with open_ := some (5, 255) }) with stkSrv := some 1 } : State) with stkSrv := some 1 } : State).wr 1 STK_STAT.IDX 2)))).getNsr (((stkReady ((({ ({ ((({ (((State.reset.wr 1 STK_STAT.IDX 2).wr 1 PWR_ADMIT.DEFER 1).modStk 7 fun r => { r with staged := [{ slot := 0, stream := 0, ns := 3, ts := 0, te := 9 }] }) with stkSrv := some 1 } : State).wr 1 STK_NS.VALID 1 3).modNsr 1 3 fun r => { r with open_ := some (5, 255) }) with stkSrv := some 1 } : State) with stkSrv := some 1 } : State).wr 1 STK_STAT.IDX 2))).get (by decide +kernel))) ((((((({ ({ ((({ (((State.reset.wr 1 STK_STAT.IDX 2).wr 1 PWR_ADMIT.DEFER 1).modStk 7 fun r => { r with staged := [{ slot := 0, stream := 0, ns := 3, ts := 0, te := 9 }] }) with stkSrv := some 1 } : State).wr 1 STK_NS.VALID 1 3).modNsr 1 3 fun r => { r with open_ := some (5, 255) }) with stkSrv := some 1 } : State) with stkSrv := some 1 } : State).wr 1 STK_STAT.IDX 2)).getStk 7).staged.find? (recDue ((({ ({ ((({ (((State.reset.wr 1 STK_STAT.IDX 2).wr 1 PWR_ADMIT.DEFER 1).modStk 7 fun r => { r with staged := [{ slot := 0, stream := 0, ns := 3, ts := 0, te := 9 }] }) with stkSrv := some 1 } : State).wr 1 STK_NS.VALID 1 3).modNsr 1 3 fun r => { r with open_ := some (5, 255) }) with stkSrv := some 1 } : State) with stkSrv := some 1 } : State).wr 1 STK_STAT.IDX 2)) (((stkReady ((({ ({ ((({ (((State.reset.wr 1 STK_STAT.IDX 2).wr 1 PWR_ADMIT.DEFER 1).modStk 7 fun r => { r with staged := [{ slot := 0, stream := 0, ns := 3, ts := 0, te := 9 }] }) with stkSrv := some 1 } : State).wr 1 STK_NS.VALID 1 3).modNsr 1 3 fun r => { r with open_ := some (5, 255) }) with stkSrv := some 1 } : State) with stkSrv := some 1 } : State).wr 1 STK_STAT.IDX 2))).get (by decide +kernel))))).get (by decide +kernel))).ns).open_).get (by decide +kernel)).1, (((((if (((({ ({ ((({ (((State.reset.wr 1 STK_STAT.IDX 2).wr 1 PWR_ADMIT.DEFER 1).modStk 7 fun r => { r with staged := [{ slot := 0, stream := 0, ns := 3, ts := 0, te := 9 }] }) with stkSrv := some 1 } : State).wr 1 STK_NS.VALID 1 3).modNsr 1 3 fun r => { r with open_ := some (5, 255) }) with stkSrv := some 1 } : State) with stkSrv := some 1 } : State).wr 1 STK_STAT.IDX 2)).getNsr (((stkReady ((({ ({ ((({ (((State.reset.wr 1 STK_STAT.IDX 2).wr 1 PWR_ADMIT.DEFER 1).modStk 7 fun r => { r with staged := [{ slot := 0, stream := 0, ns := 3, ts := 0, te := 9 }] }) with stkSrv := some 1 } : State).wr 1 STK_NS.VALID 1 3).modNsr 1 3 fun r => { r with open_ := some (5, 255) }) with stkSrv := some 1 } : State) with stkSrv := some 1 } : State).wr 1 STK_STAT.IDX 2))).get (by decide +kernel))) ((((((({ ({ ((({ (((State.reset.wr 1 STK_STAT.IDX 2).wr 1 PWR_ADMIT.DEFER 1).modStk 7 fun r => { r with staged := [{ slot := 0, stream := 0, ns := 3, ts := 0, te := 9 }] }) with stkSrv := some 1 } : State).wr 1 STK_NS.VALID 1 3).modNsr 1 3 fun r => { r with open_ := some (5, 255) }) with stkSrv := some 1 } : State) with stkSrv := some 1 } : State).wr 1 STK_STAT.IDX 2)).getStk 7).staged.find? (recDue ((({ ({ ((({ (((State.reset.wr 1 STK_STAT.IDX 2).wr 1 PWR_ADMIT.DEFER 1).modStk 7 fun r => { r with staged := [{ slot := 0, stream := 0, ns := 3, ts := 0, te := 9 }] }) with stkSrv := some 1 } : State).wr 1 STK_NS.VALID 1 3).modNsr 1 3 fun r => { r with open_ := some (5, 255) }) with stkSrv := some 1 } : State) with stkSrv := some 1 } : State).wr 1 STK_STAT.IDX 2)) (((stkReady ((({ ({ ((({ (((State.reset.wr 1 STK_STAT.IDX 2).wr 1 PWR_ADMIT.DEFER 1).modStk 7 fun r => { r with staged := [{ slot := 0, stream := 0, ns := 3, ts := 0, te := 9 }] }) with stkSrv := some 1 } : State).wr 1 STK_NS.VALID 1 3).modNsr 1 3 fun r => { r with open_ := some (5, 255) }) with stkSrv := some 1 } : State) with stkSrv := some 1 } : State).wr 1 STK_STAT.IDX 2))).get (by decide +kernel))))).get (by decide +kernel))).ns).open_ = none then segOpen (((stkReady ((({ ({ ((({ (((State.reset.wr 1 STK_STAT.IDX 2).wr 1 PWR_ADMIT.DEFER 1).modStk 7 fun r => { r with staged := [{ slot := 0, stream := 0, ns := 3, ts := 0, te := 9 }] }) with stkSrv := some 1 } : State).wr 1 STK_NS.VALID 1 3).modNsr 1 3 fun r => { r with open_ := some (5, 255) }) with stkSrv := some 1 } : State) with stkSrv := some 1 } : State).wr 1 STK_STAT.IDX 2))).get (by decide +kernel))) ((((((({ ({ ((({ (((State.reset.wr 1 STK_STAT.IDX 2).wr 1 PWR_ADMIT.DEFER 1).modStk 7 fun r => { r with staged := [{ slot := 0, stream := 0, ns := 3, ts := 0, te := 9 }] }) with stkSrv := some 1 } : State).wr 1 STK_NS.VALID 1 3).modNsr 1 3 fun r => { r with open_ := some (5, 255) }) with stkSrv := some 1 } : State) with stkSrv := some 1 } : State).wr 1 STK_STAT.IDX 2)).getStk 7).staged.find? (recDue ((({ ({ ((({ (((State.reset.wr 1 STK_STAT.IDX 2).wr 1 PWR_ADMIT.DEFER 1).modStk 7 fun r => { r with staged := [{ slot := 0, stream := 0, ns := 3, ts := 0, te := 9 }] }) with stkSrv := some 1 } : State).wr 1 STK_NS.VALID 1 3).modNsr 1 3 fun r => { r with open_ := some (5, 255) }) with stkSrv := some 1 } : State) with stkSrv := some 1 } : State).wr 1 STK_STAT.IDX 2)) (((stkReady ((({ ({ ((({ (((State.reset.wr 1 STK_STAT.IDX 2).wr 1 PWR_ADMIT.DEFER 1).modStk 7 fun r => { r with staged := [{ slot := 0, stream := 0, ns := 3, ts := 0, te := 9 }] }) with stkSrv := some 1 } : State).wr 1 STK_NS.VALID 1 3).modNsr 1 3 fun r => { r with open_ := some (5, 255) }) with stkSrv := some 1 } : State) with stkSrv := some 1 } : State).wr 1 STK_STAT.IDX 2))).get (by decide +kernel))))).get (by decide +kernel))).ns ((({ ({ ((({ (((State.reset.wr 1 STK_STAT.IDX 2).wr 1 PWR_ADMIT.DEFER 1).modStk 7 fun r => { r with staged := [{ slot := 0, stream := 0, ns := 3, ts := 0, te := 9 }] }) with stkSrv := some 1 } : State).wr 1 STK_NS.VALID 1 3).modNsr 1 3 fun r => { r with open_ := some (5, 255) }) with stkSrv := some 1 } : State) with stkSrv := some 1 } : State).wr 1 STK_STAT.IDX 2)) else ((({ ({ ((({ (((State.reset.wr 1 STK_STAT.IDX 2).wr 1 PWR_ADMIT.DEFER 1).modStk 7 fun r => { r with staged := [{ slot := 0, stream := 0, ns := 3, ts := 0, te := 9 }] }) with stkSrv := some 1 } : State).wr 1 STK_NS.VALID 1 3).modNsr 1 3 fun r => { r with open_ := some (5, 255) }) with stkSrv := some 1 } : State) with stkSrv := some 1 } : State).wr 1 STK_STAT.IDX 2)))).getNsr (((stkReady ((({ ({ ((({ (((State.reset.wr 1 STK_STAT.IDX 2).wr 1 PWR_ADMIT.DEFER 1).modStk 7 fun r => { r with staged := [{ slot := 0, stream := 0, ns := 3, ts := 0, te := 9 }] }) with stkSrv := some 1 } : State).wr 1 STK_NS.VALID 1 3).modNsr 1 3 fun r => { r with open_ := some (5, 255) }) with stkSrv := some 1 } : State) with stkSrv := some 1 } : State).wr 1 STK_STAT.IDX 2))).get (by decide +kernel))) ((((((({ ({ ((({ (((State.reset.wr 1 STK_STAT.IDX 2).wr 1 PWR_ADMIT.DEFER 1).modStk 7 fun r => { r with staged := [{ slot := 0, stream := 0, ns := 3, ts := 0, te := 9 }] }) with stkSrv := some 1 } : State).wr 1 STK_NS.VALID 1 3).modNsr 1 3 fun r => { r with open_ := some (5, 255) }) with stkSrv := some 1 } : State) with stkSrv := some 1 } : State).wr 1 STK_STAT.IDX 2)).getStk 7).staged.find? (recDue ((({ ({ ((({ (((State.reset.wr 1 STK_STAT.IDX 2).wr 1 PWR_ADMIT.DEFER 1).modStk 7 fun r => { r with staged := [{ slot := 0, stream := 0, ns := 3, ts := 0, te := 9 }] }) with stkSrv := some 1 } : State).wr 1 STK_NS.VALID 1 3).modNsr 1 3 fun r => { r with open_ := some (5, 255) }) with stkSrv := some 1 } : State) with stkSrv := some 1 } : State).wr 1 STK_STAT.IDX 2)) (((stkReady ((({ ({ ((({ (((State.reset.wr 1 STK_STAT.IDX 2).wr 1 PWR_ADMIT.DEFER 1).modStk 7 fun r => { r with staged := [{ slot := 0, stream := 0, ns := 3, ts := 0, te := 9 }] }) with stkSrv := some 1 } : State).wr 1 STK_NS.VALID 1 3).modNsr 1 3 fun r => { r with open_ := some (5, 255) }) with stkSrv := some 1 } : State) with stkSrv := some 1 } : State).wr 1 STK_STAT.IDX 2))).get (by decide +kernel))))).get (by decide +kernel))).ns).open_).get (by decide +kernel)).2, by decide +kernel⟩,
  ⟨State.reset, 7, by decide +kernel⟩,
  ⟨State.reset, 1, 1, by decide +kernel⟩,
  ⟨State.reset, 1, by decide +kernel⟩,
  ⟨(State.reset.wr 1 STK_STAT.RDY 1), 1, by decide +kernel⟩,
  ⟨State.reset, 1, by decide +kernel⟩,
  ⟨({ ((State.reset.modTrc 6 fun x => { x with recs := [{ len := 64, dest := 1, ch := 7 }] }).wr 6 PWR_ADMIT.DEFER 1) with dramSrv := some 1 } : State), 6, ((((({ ((State.reset.modTrc 6 fun x => { x with recs := [{ len := 64, dest := 1, ch := 7 }] }).wr 6 PWR_ADMIT.DEFER 1) with dramSrv := some 1 } : State)).getTrc 6).recs).head (by decide +kernel)), (((({ ((State.reset.modTrc 6 fun x => { x with recs := [{ len := 64, dest := 1, ch := 7 }] }).wr 6 PWR_ADMIT.DEFER 1) with dramSrv := some 1 } : State)).getTrc 6).recs).tail, by decide +kernel⟩,
  ⟨State.reset, 6, by decide +kernel,
    Or.inl ((by decide +kernel))⟩,
  ⟨(({ ({ ({ ((State.reset.wr 1 STK_STAT.IDX 2).modNsr 1 3 fun r => { r with open_ := some (5, 256) }) with stkSrv := some 1 }) with stkSrv := some 1 }) with stkSrv := some 1 }).wr 1 STK_STAT.IDX 2), ((stkReady ((({ ({ ({ ((State.reset.wr 1 STK_STAT.IDX 2).modNsr 1 3 fun r => { r with open_ := some (5, 256) }) with stkSrv := some 1 }) with stkSrv := some 1 }) with stkSrv := some 1 }).wr 1 STK_STAT.IDX 2))).get (by decide +kernel)), 3, 5, by decide +kernel⟩,
  ⟨State.reset, 0, by decide +kernel,
    fun _ _ h => absurd (show (Option.isSome _ : Bool) = true from congrArg Option.isSome h) (by decide +kernel)⟩,
  ⟨(({ State.reset with stkSrv := some 1 } : State).wr 1 STK_STAT.IDX 1),
    ((((({ State.reset with stkSrv := some 1 } : State).wr 1 STK_STAT.IDX 1)).stkSrv).get (by decide +kernel)), by decide +kernel⟩,
  ⟨({ State.reset with stkSrv := some 1 } : State),
    (((({ State.reset with stkSrv := some 1 } : State)).stkSrv).get (by decide +kernel)), by decide +kernel⟩,
  ⟨State.reset, by decide +kernel⟩⟩

theorem witness_ConfigurationIsStagedAndCommitted :
    (∃ (s : State) (d : Nat), s.Live d) ∧
    (∃ (s : State) (d : Nat) (e : _) (t : State), s.Live d ∧ 3 ≤ t.rd e CFG_STAT.STATE ∧ t.rd e CFG_STAT.STATE ≤ 5) ∧
    (∃ (s : State) (d : Nat) (e : _) (t : State), s.Live d ∧ ¬ (3 ≤ t.rd e CFG_STAT.STATE ∧ t.rd e CFG_STAT.STATE ≤ 5)) ∧
    (∃ (s : State) (d : Nat), s.Live d ∧ (s.rd d CFG_STAT.STATE ≠ 1 ∨ s.bit d PWR_ADMIT.FIRM = false)) ∧
    (∃ (s : State) (d : Nat) (i : _), s.Live d ∧ s.rd d CFG_STAT.STATE = 1 ∧ s.bit d PWR_ADMIT.FIRM = true ∧
      (readMode d (s.rd d CFG_MSET.F) (s.rd d CFG_LIBBASE.BASE * 4096) (s.bit d CFG_CTRL.SRC) s).1 = .error i) ∧
    (∃ (s : State) (d : Nat) (es : _), s.Live d ∧ s.rd d CFG_STAT.STATE = 1 ∧ s.bit d PWR_ADMIT.FIRM = true ∧
      (readMode d (s.rd d CFG_MSET.F) (s.rd d CFG_LIBBASE.BASE * 4096) (s.bit d CFG_CTRL.SRC) s).1 = .ok es) ∧
    (∃ (s : State) (d : Nat) (e : _), s.Live d ∧ s.hasDie e = true ∧ s.reach d e = true ∧ bitOf (s.getEpo e).seen e = true) ∧
    (∃ (s : State) (d : Nat) (e : _), s.Live d ∧ s.hasDie e = true ∧ (s.reach d e = false ∨ bitOf (s.getEpo e).seen e = false)) ∧
    (∃ (s : State) (d : Nat), s.Live d) ∧
    (∃ (s : State) (d : Nat) (u : State) (e : _), s.Live d ∧
      e ∈ ((cfgReach u d (u.rd d CFG_COMMIT.DIES)).filter (fun e => bitOf (u.rd d CFG_COMMIT.DIES) e)) ∧
      ((u.getEpo e).ep.isSome = true ∨ (3 ≤ u.rd e CFG_STAT.STATE ∧ u.rd e CFG_STAT.STATE ≤ 5))) ∧
    (∃ (s : State) (d : Nat) (u : State), s.Live d ∧ (∀ e,
      e ∈ ((cfgReach u d (u.rd d CFG_COMMIT.DIES)).filter (fun e => bitOf (u.rd d CFG_COMMIT.DIES) e)) → (u.getEpo e).ep = none ∧
      ¬ (3 ≤ u.rd e CFG_STAT.STATE ∧ u.rd e CFG_STAT.STATE ≤ 5)) ∧ (∀ e,
      e ∈ ((cfgReach u d (u.rd d CFG_COMMIT.DIES)).filter (fun e => bitOf (u.rd d CFG_COMMIT.DIES) e)) → (u.getEpo e).opened =
      false)) ∧
    (∃ (s : State) (d : Nat) (u : State) (e : _), s.Live d ∧ (∀ e,
      e ∈ ((cfgReach u d (u.rd d CFG_COMMIT.DIES)).filter (fun e => bitOf (u.rd d CFG_COMMIT.DIES) e)) → (u.getEpo e).ep = none ∧
      ¬ (3 ≤ u.rd e CFG_STAT.STATE ∧ u.rd e CFG_STAT.STATE ≤ 5)) ∧
      e ∈ ((cfgReach u d (u.rd d CFG_COMMIT.DIES)).filter (fun e => bitOf (u.rd d CFG_COMMIT.DIES) e)) ∧
      (u.getEpo e).opened = true ∧ (u.rd d CFG_EPOCHT.T) < u.pt + 5000) ∧
    (∃ (s : State) (d : Nat) (u : State) (e : _), s.Live d ∧ (∀ e,
      e ∈ ((cfgReach u d (u.rd d CFG_COMMIT.DIES)).filter (fun e => bitOf (u.rd d CFG_COMMIT.DIES) e)) → (u.getEpo e).ep = none ∧
      ¬ (3 ≤ u.rd e CFG_STAT.STATE ∧ u.rd e CFG_STAT.STATE ≤ 5)) ∧
      e ∈ ((cfgReach u d (u.rd d CFG_COMMIT.DIES)).filter (fun e => bitOf (u.rd d CFG_COMMIT.DIES) e)) ∧
      (u.getEpo e).opened = true ∧ u.pt + 5000 ≤ (u.rd d CFG_EPOCHT.T) ∧
      (u.bit d CFG_COMMIT.FABRIC = false ∨ epochMaster ((u.forEach ((cfgReach u d (u.rd d CFG_COMMIT.DIES)).filter (fun e =>
      bitOf (u.rd d CFG_COMMIT.DIES) e)) fun e s => commitDie e
      { t := (u.rd d CFG_EPOCHT.T), id := (nextEpochId u d), dies := (u.rd d CFG_COMMIT.DIES), folios := 0, fabric := u.bit d CFG_COMMIT.FABRIC } s)) d (u.rd d CFG_COMMIT.DIES) = none)) ∧
    (∃ (s : State) (d : Nat) (u : State) (e : _) (k : _), s.Live d ∧ (∀ e,
      e ∈ ((cfgReach u d (u.rd d CFG_COMMIT.DIES)).filter (fun e => bitOf (u.rd d CFG_COMMIT.DIES) e)) → (u.getEpo e).ep = none ∧
      ¬ (3 ≤ u.rd e CFG_STAT.STATE ∧ u.rd e CFG_STAT.STATE ≤ 5)) ∧
      e ∈ ((cfgReach u d (u.rd d CFG_COMMIT.DIES)).filter (fun e => bitOf (u.rd d CFG_COMMIT.DIES) e)) ∧
      (u.getEpo e).opened = true ∧ u.pt + 5000 ≤ (u.rd d CFG_EPOCHT.T) ∧ u.bit d CFG_COMMIT.FABRIC = true ∧
      epochMaster ((u.forEach ((cfgReach u d (u.rd d CFG_COMMIT.DIES)).filter (fun e => bitOf (u.rd d CFG_COMMIT.DIES) e)) fun
      e s => commitDie e { t := (u.rd d CFG_EPOCHT.T), id := (nextEpochId u d), dies := (u.rd d CFG_COMMIT.DIES), folios := 0, fabric := u.bit d CFG_COMMIT.FABRIC } s)) d (u.rd d CFG_COMMIT.DIES) = some k) ∧
    (∃ (s : State) (d : Nat), s.Live d) ∧
    (∃ (s : State) (d : Nat) (u : State), s.Live d ∧
      (((((cfgReach u d (u.rd d CFG_COMMIT.DIES)).filter (fun e => bitOf (u.rd d CFG_COMMIT.DIES) e)).filterMap fun e => (u.getEpo e).ep).find? (fun r => r.fabric && r.org.isNone && decide (u.pt < r.t))) = none ∨ epochMaster ((u.forEach ((cfgReach u d (u.rd d CFG_COMMIT.DIES)).filter (fun e => bitOf (u.rd d CFG_COMMIT.DIES) e)) fun e s => match (s.getEpo e).ep with | some r => if s.pt < r.t then epochClose e s else s.wr e CFG_STAT.ERR 5 | none => if s.rd e CFG_STAT.STATE = 6 then epochClose e s else s)) d (u.rd d CFG_COMMIT.DIES) = none)) ∧
    (∃ (s : State) (d : Nat) (u : State) (r : _) (k : _), s.Live d ∧
      ((((cfgReach u d (u.rd d CFG_COMMIT.DIES)).filter (fun e => bitOf (u.rd d CFG_COMMIT.DIES) e)).filterMap fun e => (u.getEpo e).ep).find? (fun r => r.fabric && r.org.isNone && decide (u.pt < r.t))) = some r ∧ epochMaster ((u.forEach ((cfgReach u d (u.rd d CFG_COMMIT.DIES)).filter (fun e => bitOf (u.rd d CFG_COMMIT.DIES) e)) fun e s => match (s.getEpo e).ep with | some r => if s.pt < r.t then epochClose e s else s.wr e CFG_STAT.ERR 5 | none => if s.rd e CFG_STAT.STATE = 6 then epochClose e s else s)) d (u.rd d CFG_COMMIT.DIES) = some k) :=
  ⟨⟨State.reset, 7, by decide +kernel⟩,
  ⟨(State.reset.wr 0 CFG_STAT.STATE 3), 7, 0, (State.reset.wr 0 CFG_STAT.STATE 3), by decide +kernel⟩,
  ⟨(State.reset.wr 63 CFG_STAT.STATE 5), 6, 63, State.reset, by decide +kernel⟩,
  ⟨State.reset, 7, by decide +kernel⟩,
  ⟨(((((State.reset.wr 7 CFG_STAT.STATE 1).wr 7 PWR_ADMIT.FIRM 1).wr 7 CFG_CTRL.SRC 1).wr 7 CFG_MSET.F 0).wr 7 CFG_LIBBASE.BASE
    5), 7, 0, by decide +kernel⟩,
  ⟨((((State.reset.wr 7 CFG_STAT.STATE 1).wr 7 PWR_ADMIT.FIRM 1).wr 7 CFG_CTRL.SRC 0).wr 7 CFG_LIBBASE.BASE 3), 7,
    (match (readMode 7 ((((((State.reset.wr 7 CFG_STAT.STATE 1).wr 7 PWR_ADMIT.FIRM 1).wr 7 CFG_CTRL.SRC 0).wr 7 CFG_LIBBASE.BASE 3)).rd 7 CFG_MSET.F) ((((((State.reset.wr 7 CFG_STAT.STATE 1).wr 7 PWR_ADMIT.FIRM 1).wr 7 CFG_CTRL.SRC 0).wr 7 CFG_LIBBASE.BASE 3)).rd 7 CFG_LIBBASE.BASE * 4096) ((((((State.reset.wr 7 CFG_STAT.STATE 1).wr 7 PWR_ADMIT.FIRM 1).wr 7 CFG_CTRL.SRC 0).wr 7 CFG_LIBBASE.BASE 3)).bit 7 CFG_CTRL.SRC) (((((State.reset.wr 7 CFG_STAT.STATE 1).wr 7 PWR_ADMIT.FIRM 1).wr 7 CFG_CTRL.SRC 0).wr 7 CFG_LIBBASE.BASE 3))).1 with | .ok w => w | _ => []), by decide +kernel⟩,
  ⟨({ (State.reset.modEpo 0 fun r => { r with seen := 255 }) with spineDown := [(6, true), (7, true)] }), 6, 0, by decide +kernel⟩,
  ⟨({ State.reset with spineDown := [(6, true), (7, true)] }), 7, 0, by decide +kernel, by decide +kernel,
    Or.inl ((by decide +kernel))⟩,
  ⟨State.reset, 7, by decide +kernel⟩,
  ⟨((State.reset.wr 7 CFG_COMMIT.DIES 0).wr 0 CFG_STAT.STATE 3), 7,
    ((State.reset.wr 7 CFG_COMMIT.DIES 1).wr 0 CFG_STAT.STATE 5), 0, by decide +kernel⟩,
  ⟨(State.reset.wr 6 CFG_COMMIT.DIES 1), 6, State.reset, by decide +kernel⟩,
  ⟨((((State.reset.wr 0 CFG_COMMIT.DIES 1).wr 3 CFG_STAT.STATE 5).modEpo 3 fun r => { r with opened := false }).wr 0
    CFG_EPOCHT.T 1), 0, (((State.reset.modEpo 3 fun r => { r with ep := none }).modEpo 3 fun r => { r with opened := true }).wr
    0 CFG_EPOCHT.T 0), 3, by decide +kernel⟩,
  ⟨((((((((State.reset.wr 7 CFG_COMMIT.DIES 128).wr 7 CFG_EPOCHT.T 5000000).wr 7 CFG_COMMIT.DIES 0).wr 7 CFG_STAT.STATE
    3).modEpo 7 fun r => { r with ep := none }).modEpo 7 fun r => { r with opened := true }).wr 7 CFG_EPOCHT.T 3).wr 7
    CFG_COMMIT.FABRIC 0), 7, (((((((State.reset.wr 7 CFG_COMMIT.DIES 128).wr 7 CFG_EPOCHT.T 5000000).modEpo 7 fun r =>
    { r with ep := none }).modEpo 7 fun r => { r with opened := true }).wr 7 CFG_EPOCHT.T 5000).wr 7 CFG_COMMIT.FABRIC
    0).modEpo 7 fun r => { r with opened := true }), 7, by decide +kernel⟩,
  ⟨((((((((State.reset.wr 7 CFG_COMMIT.DIES 128).wr 7 CFG_EPOCHT.T 5000000).wr 7 CFG_COMMIT.DIES 1).wr 7 CFG_STAT.STATE
    3).modEpo 7 fun r => { r with ep := none }).modEpo 7 fun r => { r with opened := true }).wr 7 CFG_EPOCHT.T 5000).wr 7
    CFG_COMMIT.FABRIC 1), 7, ((((((((State.reset.wr 7 CFG_COMMIT.DIES 128).wr 7 CFG_EPOCHT.T 5000000).wr 7 CFG_STAT.STATE
    1).modEpo 7 fun r => { r with opened := false }).wr 7 CFG_EPOCHT.T 5000).wr 7 CFG_COMMIT.FABRIC 1).modEpo 7 fun r =>
    { r with opened := true }).wr 7 CFG_COMMIT.FABRIC 1), 7,
    ((epochMaster (((((((((((State.reset.wr 7 CFG_COMMIT.DIES 128).wr 7 CFG_EPOCHT.T 5000000).wr 7 CFG_STAT.STATE 1).modEpo 7
    fun r => { r with opened := false }).wr 7 CFG_EPOCHT.T 5000).wr 7 CFG_COMMIT.FABRIC 1).modEpo 7 fun r =>
    { r with opened := true }).wr 7 CFG_COMMIT.FABRIC 1)).forEach ((cfgReach (((((((((State.reset.wr 7 CFG_COMMIT.DIES 128).wr
    7 CFG_EPOCHT.T 5000000).wr 7 CFG_STAT.STATE 1).modEpo 7 fun r => { r with opened := false }).wr 7 CFG_EPOCHT.T 5000).wr 7
    CFG_COMMIT.FABRIC 1).modEpo 7 fun r => { r with opened := true }).wr 7 CFG_COMMIT.FABRIC 1)) 7 ((((((((((State.reset.wr 7
    CFG_COMMIT.DIES 128).wr 7 CFG_EPOCHT.T 5000000).wr 7 CFG_STAT.STATE 1).modEpo 7 fun r => { r with opened := false }).wr 7
    CFG_EPOCHT.T 5000).wr 7 CFG_COMMIT.FABRIC 1).modEpo 7 fun r => { r with opened := true }).wr 7 CFG_COMMIT.FABRIC 1)).rd 7
    CFG_COMMIT.DIES)).filter (fun e => bitOf ((((((((((State.reset.wr 7 CFG_COMMIT.DIES 128).wr 7 CFG_EPOCHT.T 5000000).wr 7
    CFG_STAT.STATE 1).modEpo 7 fun r => { r with opened := false }).wr 7 CFG_EPOCHT.T 5000).wr 7 CFG_COMMIT.FABRIC 1).modEpo 7
    fun r => { r with opened := true }).wr 7 CFG_COMMIT.FABRIC 1)).rd 7 CFG_COMMIT.DIES) e)) fun e s => commitDie e
    { t := ((((((((((State.reset.wr 7 CFG_COMMIT.DIES 128).wr 7 CFG_EPOCHT.T 5000000).wr 7 CFG_STAT.STATE 1).modEpo 7 fun r => { r with opened := false }).wr 7 CFG_EPOCHT.T 5000).wr 7 CFG_COMMIT.FABRIC 1).modEpo 7 fun r => { r with opened := true }).wr 7 CFG_COMMIT.FABRIC 1)).rd 7 CFG_EPOCHT.T), id := (nextEpochId (((((((((State.reset.wr 7 CFG_COMMIT.DIES 128).wr 7 CFG_EPOCHT.T 5000000).wr 7 CFG_STAT.STATE 1).modEpo 7 fun r => { r with opened := false }).wr 7 CFG_EPOCHT.T 5000).wr 7 CFG_COMMIT.FABRIC 1).modEpo 7 fun r => { r with opened := true }).wr 7 CFG_COMMIT.FABRIC 1)) 7), dies := ((((((((((State.reset.wr 7 CFG_COMMIT.DIES 128).wr 7 CFG_EPOCHT.T 5000000).wr 7 CFG_STAT.STATE 1).modEpo 7 fun r => { r with opened := false }).wr 7 CFG_EPOCHT.T 5000).wr 7 CFG_COMMIT.FABRIC 1).modEpo 7 fun r => { r with opened := true }).wr 7 CFG_COMMIT.FABRIC 1)).rd 7 CFG_COMMIT.DIES), folios := 0, fabric := (((((((((State.reset.wr 7 CFG_COMMIT.DIES 128).wr 7 CFG_EPOCHT.T 5000000).wr 7 CFG_STAT.STATE 1).modEpo 7 fun r => { r with opened := false }).wr 7 CFG_EPOCHT.T 5000).wr 7 CFG_COMMIT.FABRIC 1).modEpo 7 fun r => { r with opened := true }).wr 7 CFG_COMMIT.FABRIC 1)).bit 7 CFG_COMMIT.FABRIC } s)) 7 ((((((((((State.reset.wr 7 CFG_COMMIT.DIES 128).wr 7 CFG_EPOCHT.T 5000000).wr 7 CFG_STAT.STATE 1).modEpo 7 fun r => { r with opened := false }).wr 7 CFG_EPOCHT.T 5000).wr 7 CFG_COMMIT.FABRIC 1).modEpo 7 fun r => { r with opened := true }).wr 7 CFG_COMMIT.FABRIC 1)).rd 7 CFG_COMMIT.DIES)).get (by decide +kernel)), by decide +kernel⟩,
  ⟨State.reset, 7, by decide +kernel⟩,
  ⟨(State.reset.wr 6 CFG_COMMIT.DIES 1), 6, State.reset, by decide +kernel⟩,
  ⟨(((State.reset.wr 7 CFG_COMMIT.DIES 128).modEpo 7 fun r => { r with ep := some { t := 50000000, id := 1, dies := 128, folios := 0, fabric := true } }).wr 7 CFG_COMMIT.DIES 1), 7, ((State.reset.wr 7 CFG_COMMIT.DIES 128).modEpo 7 fun r => { r with ep := some { t := 50000000, id := 1, dies := 128, folios := 0, fabric := true } }), ((((((cfgReach (((State.reset.wr 7 CFG_COMMIT.DIES 128).modEpo 7 fun r => { r with ep := some { t := 50000000, id := 1, dies := 128, folios := 0, fabric := true } })) 7 ((((State.reset.wr 7 CFG_COMMIT.DIES 128).modEpo 7 fun r => { r with ep := some { t := 50000000, id := 1, dies := 128, folios := 0, fabric := true } })).rd 7 CFG_COMMIT.DIES)).filter (fun e => bitOf ((((State.reset.wr 7 CFG_COMMIT.DIES 128).modEpo 7 fun r => { r with ep := some { t := 50000000, id := 1, dies := 128, folios := 0, fabric := true } })).rd 7 CFG_COMMIT.DIES) e)).filterMap fun e => ((((State.reset.wr 7 CFG_COMMIT.DIES 128).modEpo 7 fun r => { r with ep := some { t := 50000000, id := 1, dies := 128, folios := 0, fabric := true } })).getEpo e).ep).find? (fun r => r.fabric && r.org.isNone && decide ((((State.reset.wr 7 CFG_COMMIT.DIES 128).modEpo 7 fun r => { r with ep := some { t := 50000000, id := 1, dies := 128, folios := 0, fabric := true } })).pt < r.t)))).get (by decide +kernel)), ((epochMaster (((((State.reset.wr 7 CFG_COMMIT.DIES 128).modEpo 7 fun r => { r with ep := some { t := 50000000, id := 1, dies := 128, folios := 0, fabric := true } })).forEach ((cfgReach (((State.reset.wr 7 CFG_COMMIT.DIES 128).modEpo 7 fun r => { r with ep := some { t := 50000000, id := 1, dies := 128, folios := 0, fabric := true } })) 7 ((((State.reset.wr 7 CFG_COMMIT.DIES 128).modEpo 7 fun r => { r with ep := some { t := 50000000, id := 1, dies := 128, folios := 0, fabric := true } })).rd 7 CFG_COMMIT.DIES)).filter (fun e => bitOf ((((State.reset.wr 7 CFG_COMMIT.DIES 128).modEpo 7 fun r => { r with ep := some { t := 50000000, id := 1, dies := 128, folios := 0, fabric := true } })).rd 7 CFG_COMMIT.DIES) e)) fun e s => match (s.getEpo e).ep with | some r => if s.pt < r.t then epochClose e s else s.wr e CFG_STAT.ERR 5 | none => if s.rd e CFG_STAT.STATE = 6 then epochClose e s else s)) 7 ((((State.reset.wr 7 CFG_COMMIT.DIES 128).modEpo 7 fun r => { r with ep := some { t := 50000000, id := 1, dies := 128, folios := 0, fabric := true } })).rd 7 CFG_COMMIT.DIES)).get (by decide +kernel)), by decide +kernel⟩⟩

theorem witness_EpochsApplyCheckAndRevert :
    (∃ (s : State) (d n : Nat) (r : _), s.Live d ∧ n < 8 ∧ (s.getEpo d).ep = some r) ∧
    (∃ (s : State) (d n : Nat) (r : _), s.Live d ∧ n < 8 ∧ (s.getEpo d).ep = some r ∧
      (s.getEpo d).lawAt.any (fun p => p.1 == n) = true) ∧
    (∃ (s : State) (d n : Nat) (r : _), s.Live d ∧ n < 8 ∧ (s.getEpo d).ep = some r ∧
      (s.getEpo d).lawAt.any (fun p => p.1 == n) = false) ∧
    (∃ (s : State) (d n : Nat), s.Live d ∧ n < 8 ∧ (s.getEpo d).ep = none) ∧
    (∃ (s : State) (d n : Nat), s.Live d ∧ n < 8) ∧
    (∃ (s : State) (d n : Nat) (r : _), s.Live d ∧ n < 8 ∧ (s.getEpo d).ep = some r ∧
      (epochMaster s d r.dies ≠ some d ∨ (s.getEpo d).checked = true)) ∧
    (∃ (s : State) (d n : Nat) (r : _), s.Live d ∧ n < 8 ∧ (s.getEpo d).ep = some r ∧ epochMaster s d r.dies = some d ∧
      (s.getEpo d).checked = false ∧ (lateDies (((s.passTo (r.t + (clampN 1 10000 (s.rd d CFG_SKEW.SKEW)) * 2500)).modEpo d fun
      x => { x with checked := true })) d r.dies) = 0 ∧
      ((((s.passTo (r.t + (clampN 1 10000 (s.rd d CFG_SKEW.SKEW)) * 2500)).modEpo d fun x =>
      { x with checked := true })).getEpo d).refd = false) ∧
    (∃ (s : State) (d n : Nat) (r : _), s.Live d ∧ n < 8 ∧ (s.getEpo d).ep = some r ∧ epochMaster s d r.dies = some d ∧
      (s.getEpo d).checked = false ∧ ((lateDies (((s.passTo (r.t + (clampN 1 10000 (s.rd d CFG_SKEW.SKEW)) * 2500)).modEpo d
      fun x => { x with checked := true })) d r.dies) ≠ 0 ∨ ((((s.passTo (r.t + (clampN 1 10000 (s.rd d CFG_SKEW.SKEW)) *
      2500)).modEpo d fun x => { x with checked := true })).getEpo d).refd = true) ∧
      (((s.passTo (r.t + (clampN 1 10000 (s.rd d CFG_SKEW.SKEW)) * 2500)).modEpo d fun x => { x with checked := true })).rd d
      CFG_CTRL.SKEWACT = 1) ∧
    (∃ (s : State) (d n : Nat) (r : _), s.Live d ∧ n < 8 ∧ (s.getEpo d).ep = some r ∧ epochMaster s d r.dies = some d ∧
      (s.getEpo d).checked = false ∧ ((lateDies (((s.passTo (r.t + (clampN 1 10000 (s.rd d CFG_SKEW.SKEW)) * 2500)).modEpo d
      fun x => { x with checked := true })) d r.dies) ≠ 0 ∨ ((((s.passTo (r.t + (clampN 1 10000 (s.rd d CFG_SKEW.SKEW)) *
      2500)).modEpo d fun x => { x with checked := true })).getEpo d).refd = true) ∧
      (((s.passTo (r.t + (clampN 1 10000 (s.rd d CFG_SKEW.SKEW)) * 2500)).modEpo d fun x => { x with checked := true })).rd d
      CFG_CTRL.SKEWACT ≠ 1) ∧
    (∃ (s : State) (d n : Nat) (p : _), s.Live d ∧ n < 8 ∧ p < 9 ∧ (s.getEpo d).tr = none) ∧
    (∃ (s : State) (d n : Nat) (tr : _), s.Live d ∧ n < 8 ∧ (s.getEpo d).tr = some tr) ∧
    (∃ (s : State) (d n : Nat) (tr : _), s.Live d ∧ n < 8 ∧ (s.getEpo d).tr = some tr ∧
      (s.getEpo d).lawAt.any (fun p => p.1 == n) = true ∧ s.rd d CFG_STAT.STATE = 5) ∧
    (∃ (s : State) (d n : Nat) (tr : _), s.Live d ∧ n < 8 ∧ (s.getEpo d).tr = some tr ∧
      ((s.getEpo d).lawAt.any (fun p => p.1 == n) = false ∨ s.rd d CFG_STAT.STATE ≠ 5)) ∧
    (∃ (s : State) (d n : Nat), s.Live d ∧ n < 8 ∧ (takeEpoch d 1 s).1 = none) ∧
    (∃ (s : State) (d n : Nat), s.Live d ∧ n < 8 ∧ (takeEpoch d 2 s).1 = none) ∧
    (∃ (s : State) (d n : Nat), s.Live d ∧ n < 8 ∧ (takeEpoch d 3 s).1 = none) ∧
    (∃ (s : State) (d n : Nat), s.Live d ∧ n < 8 ∧ (takeEpoch d 4 s).1 = none) ∧
    (∃ (s : State) (d n : Nat), s.Live d ∧ n < 8 ∧ (takeEpoch d 5 s).1 = none) ∧
    (∃ (s : State) (d n : Nat) (p : List Byte) (f : _), s.Live d ∧ n < 8 ∧ (takeEpoch d 1 s).1 = some (p, f) ∧
      (takeEpoch d 1 s).2.epoSeen.elem ((fNum p 4 2 % 4096), (fNum p 2 2)) = true) ∧
    (∃ (s : State) (d n : Nat) (p : List Byte) (f : _), s.Live d ∧ n < 8 ∧ (takeEpoch d 1 s).1 = some (p, f) ∧
      (takeEpoch d 1 s).2.epoSeen.elem ((fNum p 4 2 % 4096), (fNum p 2 2)) = false ∧
      (({ (takeEpoch d 1 s).2 with epoSeen := ((fNum p 4 2 % 4096), (fNum p 2 2)) :: (takeEpoch d 1 s).2.epoSeen }).dieSet
      d).any (fun e => ({ (takeEpoch d 1 s).2 with epoSeen := ((fNum p 4 2 % 4096), (fNum p 2 2)) :: (takeEpoch d 1 s).2.epoSeen }).rd e CFG_STAT.STATE != 0 && ({ (takeEpoch d 1 s).2 with epoSeen := ((fNum p 4 2 % 4096), (fNum p 2 2)) :: (takeEpoch d 1 s).2.epoSeen }).rd e CFG_STAT.STATE != 2) = true) ∧
    (∃ (s : State) (d n : Nat) (p : List Byte) (f : _), s.Live d ∧ n < 8 ∧ (takeEpoch d 1 s).1 = some (p, f) ∧
      (takeEpoch d 1 s).2.epoSeen.elem ((fNum p 4 2 % 4096), (fNum p 2 2)) = false ∧
      (({ (takeEpoch d 1 s).2 with epoSeen := ((fNum p 4 2 % 4096), (fNum p 2 2)) :: (takeEpoch d 1 s).2.epoSeen }).dieSet
      d).any (fun e => ({ (takeEpoch d 1 s).2 with epoSeen := ((fNum p 4 2 % 4096), (fNum p 2 2)) :: (takeEpoch d 1 s).2.epoSeen }).rd e CFG_STAT.STATE != 0 && ({ (takeEpoch d 1 s).2 with epoSeen := ((fNum p 4 2 % 4096), (fNum p 2 2)) :: (takeEpoch d 1 s).2.epoSeen }).rd e CFG_STAT.STATE != 2) = false) ∧
    (∃ (s : State) (d n : Nat) (p : _) (f : _), s.Live d ∧ n < 8 ∧ (takeEpoch d 2 s).1 = some (p, f) ∧
      findEpoch (takeEpoch d 2 s).2 d p = none) ∧
    (∃ (s : State) (d n : Nat) (p : _) (f : _) (r : _), s.Live d ∧ n < 8 ∧ (takeEpoch d 2 s).1 = some (p, f) ∧
      findEpoch (takeEpoch d 2 s).2 d p = some r) ∧
    (∃ (s : State) (d n : Nat) (p : _) (f : _), s.Live d ∧ n < 8 ∧ (takeEpoch d 3 s).1 = some (p, f)) ∧
    (∃ (s : State) (d n : Nat) (p : _) (f : _), s.Live d ∧ n < 8 ∧ (takeEpoch d 4 s).1 = some (p, f) ∧
      findEpoch (takeEpoch d 4 s).2 d p = none) ∧
    (∃ (s : State) (d n : Nat) (p : _) (f : _) (r : _), s.Live d ∧ n < 8 ∧ (takeEpoch d 4 s).1 = some (p, f) ∧
      findEpoch (takeEpoch d 4 s).2 d p = some r) ∧
    (∃ (s : State) (d n : Nat) (p : _) (f : _), s.Live d ∧ n < 8 ∧ (takeEpoch d 5 s).1 = some (p, f) ∧
      findEpoch (takeEpoch d 5 s).2 d p = none) ∧
    (∃ (s : State) (d n : Nat) (p : _) (f : _) (r : _), s.Live d ∧ n < 8 ∧ (takeEpoch d 5 s).1 = some (p, f) ∧
      findEpoch (takeEpoch d 5 s).2 d p = some r) :=
  ⟨⟨((State.reset.modEpo 6 fun x => { x with seen := 128, ep := some { t := 5000, id := 1, dies := 128, folios := 0 } }).wr 6
    CFG_STAT.STATE 3), 6, 5, ((((((State.reset.modEpo 6 fun x =>
    { x with seen := 128, ep := some { t := 5000, id := 1, dies := 128, folios := 0 } }).wr 6 CFG_STAT.STATE 3)).getEpo
    6).ep).get (by decide +kernel)), by decide +kernel⟩,
  ⟨(((State.reset.modEpo 6 fun x => { x with seen := 128, ep := some { t := 5000, id := 1, dies := 128, folios := 0 } }).wr 6
    CFG_STAT.STATE 3).modEpo 6 fun r => { r with lawAt := [(5, 0)] }), 6, 5,
    (((((((State.reset.modEpo 6 fun x =>
    { x with seen := 128, ep := some { t := 5000, id := 1, dies := 128, folios := 0 } }).wr 6 CFG_STAT.STATE 3).modEpo 6 fun r
    => { r with lawAt := [(5, 0)] })).getEpo 6).ep).get (by decide +kernel)), by decide +kernel⟩,
  ⟨((State.reset.modEpo 6 fun x => { x with seen := 128, ep := some { t := 5000, id := 1, dies := 128, folios := 0 } }).wr 6
    CFG_STAT.STATE 3), 6, 5, ((((((State.reset.modEpo 6 fun x =>
    { x with seen := 128, ep := some { t := 5000, id := 1, dies := 128, folios := 0 } }).wr 6 CFG_STAT.STATE 3)).getEpo
    6).ep).get (by decide +kernel)), by decide +kernel⟩,
  ⟨State.reset, 7, 7, by decide +kernel⟩,
  ⟨State.reset, 7, 7, by decide +kernel⟩,
  ⟨((State.reset.modEpo 6 fun x => { x with seen := 128, ep := some { t := 5000, id := 1, dies := 128, folios := 0 } }).wr 6
    CFG_STAT.STATE 3), 6, 5, ((((((State.reset.modEpo 6 fun x =>
    { x with seen := 128, ep := some { t := 5000, id := 1, dies := 128, folios := 0 } }).wr 6 CFG_STAT.STATE 3)).getEpo
    6).ep).get (by decide +kernel)), by decide +kernel⟩,
  ⟨((((State.reset.modEpo 7 fun x => { x with seen := 128, ep := some { t := 5000, id := 1, dies := 128, folios := 0 } }).wr 7
    CFG_STAT.STATE 3).modEpo 7 fun r => { r with checked := false }).wr 7 CFG_SKEW.SKEW 5), 7, 3,
    ((((((((State.reset.modEpo 7 fun x =>
    { x with seen := 128, ep := some { t := 5000, id := 1, dies := 128, folios := 0 } }).wr 7 CFG_STAT.STATE 3).modEpo 7 fun r
    => { r with checked := false }).wr 7 CFG_SKEW.SKEW 5)).getEpo 7).ep).get (by decide +kernel)), by decide +kernel⟩,
  ⟨((((((((State.reset.modEpo 7 fun x =>
    { x with seen := 128, ep := some { t := 5000, id := 1, dies := 128, folios := 0 } }).wr 7 CFG_STAT.STATE 3).wr 7
    CFG_CTRL.SKEWACT 1).wr 7 CFG_SKEW.SKEW 3).modEpo 7 fun r => { r with refd := false }).wr 7 CFG_CTRL.SKEWACT 1).modEpo 7 fun
    r => { r with refd := true }).wr 7 CFG_STAT.STATE 6), 7, 5,
    ((((((((((((State.reset.modEpo 7 fun x =>
    { x with seen := 128, ep := some { t := 5000, id := 1, dies := 128, folios := 0 } }).wr 7 CFG_STAT.STATE 3).wr 7
    CFG_CTRL.SKEWACT 1).wr 7 CFG_SKEW.SKEW 3).modEpo 7 fun r => { r with refd := false }).wr 7 CFG_CTRL.SKEWACT 1).modEpo 7 fun
    r => { r with refd := true }).wr 7 CFG_STAT.STATE 6)).getEpo 7).ep).get (by decide +kernel)), by decide +kernel⟩,
  ⟨((((((((State.reset.modEpo 7 fun x =>
    { x with seen := 128, ep := some { t := 5000, id := 1, dies := 128, folios := 0 } }).wr 7 CFG_STAT.STATE 3).wr 7
    CFG_CTRL.SKEWACT 0).wr 7 CFG_SKEW.SKEW 0).modEpo 7 fun r => { r with refd := false }).wr 7 CFG_CTRL.SKEWACT 0).modEpo 7 fun
    r => { r with refd := true }).wr 7 CFG_STAT.STATE 6), 7, 7,
    ((((((((((((State.reset.modEpo 7 fun x =>
    { x with seen := 128, ep := some { t := 5000, id := 1, dies := 128, folios := 0 } }).wr 7 CFG_STAT.STATE 3).wr 7
    CFG_CTRL.SKEWACT 0).wr 7 CFG_SKEW.SKEW 0).modEpo 7 fun r => { r with refd := false }).wr 7 CFG_CTRL.SKEWACT 0).modEpo 7 fun
    r => { r with refd := true }).wr 7 CFG_STAT.STATE 6)).getEpo 7).ep).get (by decide +kernel)), by decide +kernel⟩,
  ⟨State.reset, 7, 7, 8, by decide +kernel⟩,
  ⟨(State.reset.modEpo 7 fun r => { r with tr := some 1 }), 7, 7, 1, by decide +kernel⟩,
  ⟨((State.reset.wr 6 CFG_STAT.STATE 5).modEpo 6 fun r => { r with tr := some 9, lawAt := [(5, 0)] }), 6, 5,
    ((((((State.reset.wr 6 CFG_STAT.STATE 5).modEpo 6 fun r => { r with tr := some 9, lawAt := [(5, 0)] })).getEpo 6).tr).get
    (by decide +kernel)), by decide +kernel⟩,
  ⟨(State.reset.modEpo 7 fun r => { r with tr := some 1 }), 7, 7, 1, by decide +kernel⟩,
  ⟨State.reset, 7, 7, by decide +kernel⟩,
  ⟨State.reset, 7, 7, by decide +kernel⟩,
  ⟨State.reset, 7, 7, by decide +kernel⟩,
  ⟨State.reset, 7, 7, by decide +kernel⟩,
  ⟨State.reset, 7, 7, by decide +kernel⟩,
  ⟨({ (State.reset.got 6 (mkFrame 4 false 0 0 (1 :: 0 :: 1 :: List.replicate 33 0))) with epoSeen := [(0, 1)] }), 6, 5,
    (((takeEpoch 6 1 (({ (State.reset.got 6 (mkFrame 4 false 0 0 (1 :: 0 :: 1 :: List.replicate 33 0))) with epoSeen := [(0, 1)] }))).1).get (by decide +kernel)).1, (((takeEpoch 6 1 (({ (State.reset.got 6 (mkFrame 4 false 0 0 (1 :: 0 :: 1 :: List.replicate 33 0))) with epoSeen := [(0, 1)] }))).1).get (by decide +kernel)).2, by decide +kernel⟩,
  ⟨((State.reset.got 6 (mkFrame 4 false 0 0 (1 :: 0 :: 1 :: List.replicate 33 0))).wr 6 CFG_STAT.STATE 3), 6, 5,
    (((takeEpoch 6 1 (((State.reset.got 6 (mkFrame 4 false 0 0 (1 :: 0 :: 1 :: List.replicate 33 0))).wr 6 CFG_STAT.STATE
    3))).1).get (by decide +kernel)).1, (((takeEpoch 6 1 (((State.reset.got 6 (mkFrame 4 false 0 0 (1 :: 0 :: 1 ::
    List.replicate 33 0))).wr 6 CFG_STAT.STATE 3))).1).get (by decide +kernel)).2, by decide +kernel⟩,
  ⟨(State.reset.got 6 (mkFrame 4 false 0 0 (1 :: 0 :: 1 :: List.replicate 33 0))), 6, 5,
    (((takeEpoch 6 1 ((State.reset.got 6 (mkFrame 4 false 0 0 (1 :: 0 :: 1 :: List.replicate 33 0))))).1).get
    (by decide +kernel)).1, (((takeEpoch 6 1 ((State.reset.got 6 (mkFrame 4 false 0 0 (1 :: 0 :: 1 :: List.replicate 33
    0))))).1).get (by decide +kernel)).2, by decide +kernel⟩,
  ⟨(State.reset.got 6 (mkFrame 4 false 0 0 (2 :: 0 :: 1 :: List.replicate 33 0))), 6, 5,
    (((takeEpoch 6 2 ((State.reset.got 6 (mkFrame 4 false 0 0 (2 :: 0 :: 1 :: List.replicate 33 0))))).1).get
    (by decide +kernel)).1, (((takeEpoch 6 2 ((State.reset.got 6 (mkFrame 4 false 0 0 (2 :: 0 :: 1 :: List.replicate 33
    0))))).1).get (by decide +kernel)).2, by decide +kernel⟩,
  ⟨((State.reset.got 6 (mkFrame 4 false 0 0 (2 :: 0 :: 1 :: List.replicate 33 0))).modEpo 6 fun x =>
    { x with seen := 128, ep := some { t := 5000, id := 1, dies := 128, folios := 0 } }), 6, 5,
    (((takeEpoch 6 2 (((State.reset.got 6 (mkFrame 4 false 0 0 (2 :: 0 :: 1 :: List.replicate 33 0))).modEpo 6 fun x =>
    { x with seen := 128, ep := some { t := 5000, id := 1, dies := 128, folios := 0 } }))).1).get (by decide +kernel)).1,
    (((takeEpoch 6 2 (((State.reset.got 6 (mkFrame 4 false 0 0 (2 :: 0 :: 1 :: List.replicate 33 0))).modEpo 6 fun x =>
    { x with seen := 128, ep := some { t := 5000, id := 1, dies := 128, folios := 0 } }))).1).get (by decide +kernel)).2,
    ((findEpoch (takeEpoch 6 2 (((State.reset.got 6 (mkFrame 4 false 0 0 (2 :: 0 :: 1 :: List.replicate 33 0))).modEpo 6 fun x
    => { x with seen := 128, ep := some { t := 5000, id := 1, dies := 128, folios := 0 } }))).2 6 ((((takeEpoch 6 2
    (((State.reset.got 6 (mkFrame 4 false 0 0 (2 :: 0 :: 1 :: List.replicate 33 0))).modEpo 6 fun x =>
    { x with seen := 128, ep := some { t := 5000, id := 1, dies := 128, folios := 0 } }))).1).get (by decide +kernel)).1)).get
    (by decide +kernel)), by decide +kernel⟩,
  ⟨(State.reset.got 6 (mkFrame 4 false 0 0 (3 :: 0 :: 1 :: List.replicate 33 0))), 6, 5,
    (((takeEpoch 6 3 ((State.reset.got 6 (mkFrame 4 false 0 0 (3 :: 0 :: 1 :: List.replicate 33 0))))).1).get
    (by decide +kernel)).1, (((takeEpoch 6 3 ((State.reset.got 6 (mkFrame 4 false 0 0 (3 :: 0 :: 1 :: List.replicate 33
    0))))).1).get (by decide +kernel)).2, by decide +kernel⟩,
  ⟨(State.reset.got 6 (mkFrame 4 false 0 0 (4 :: 0 :: 1 :: List.replicate 33 0))), 6, 5,
    (((takeEpoch 6 4 ((State.reset.got 6 (mkFrame 4 false 0 0 (4 :: 0 :: 1 :: List.replicate 33 0))))).1).get
    (by decide +kernel)).1, (((takeEpoch 6 4 ((State.reset.got 6 (mkFrame 4 false 0 0 (4 :: 0 :: 1 :: List.replicate 33
    0))))).1).get (by decide +kernel)).2, by decide +kernel⟩,
  ⟨((State.reset.got 6 (mkFrame 4 false 0 0 (4 :: 0 :: 1 :: List.replicate 33 0))).modEpo 6 fun x =>
    { x with seen := 128, ep := some { t := 5000, id := 1, dies := 128, folios := 0 } }), 6, 5,
    (((takeEpoch 6 4 (((State.reset.got 6 (mkFrame 4 false 0 0 (4 :: 0 :: 1 :: List.replicate 33 0))).modEpo 6 fun x =>
    { x with seen := 128, ep := some { t := 5000, id := 1, dies := 128, folios := 0 } }))).1).get (by decide +kernel)).1,
    (((takeEpoch 6 4 (((State.reset.got 6 (mkFrame 4 false 0 0 (4 :: 0 :: 1 :: List.replicate 33 0))).modEpo 6 fun x =>
    { x with seen := 128, ep := some { t := 5000, id := 1, dies := 128, folios := 0 } }))).1).get (by decide +kernel)).2,
    ((findEpoch (takeEpoch 6 4 (((State.reset.got 6 (mkFrame 4 false 0 0 (4 :: 0 :: 1 :: List.replicate 33 0))).modEpo 6 fun x
    => { x with seen := 128, ep := some { t := 5000, id := 1, dies := 128, folios := 0 } }))).2 6 ((((takeEpoch 6 4
    (((State.reset.got 6 (mkFrame 4 false 0 0 (4 :: 0 :: 1 :: List.replicate 33 0))).modEpo 6 fun x =>
    { x with seen := 128, ep := some { t := 5000, id := 1, dies := 128, folios := 0 } }))).1).get (by decide +kernel)).1)).get
    (by decide +kernel)), by decide +kernel⟩,
  ⟨(State.reset.got 6 (mkFrame 4 false 0 0 (5 :: 0 :: 1 :: List.replicate 33 0))), 6, 5,
    (((takeEpoch 6 5 ((State.reset.got 6 (mkFrame 4 false 0 0 (5 :: 0 :: 1 :: List.replicate 33 0))))).1).get
    (by decide +kernel)).1, (((takeEpoch 6 5 ((State.reset.got 6 (mkFrame 4 false 0 0 (5 :: 0 :: 1 :: List.replicate 33
    0))))).1).get (by decide +kernel)).2, by decide +kernel⟩,
  ⟨((State.reset.got 6 (mkFrame 4 false 0 0 (5 :: 0 :: 1 :: List.replicate 33 0))).modEpo 6 fun x =>
    { x with seen := 128, ep := some { t := 5000, id := 1, dies := 128, folios := 0 } }), 6, 5,
    (((takeEpoch 6 5 (((State.reset.got 6 (mkFrame 4 false 0 0 (5 :: 0 :: 1 :: List.replicate 33 0))).modEpo 6 fun x =>
    { x with seen := 128, ep := some { t := 5000, id := 1, dies := 128, folios := 0 } }))).1).get (by decide +kernel)).1,
    (((takeEpoch 6 5 (((State.reset.got 6 (mkFrame 4 false 0 0 (5 :: 0 :: 1 :: List.replicate 33 0))).modEpo 6 fun x =>
    { x with seen := 128, ep := some { t := 5000, id := 1, dies := 128, folios := 0 } }))).1).get (by decide +kernel)).2,
    ((findEpoch (takeEpoch 6 5 (((State.reset.got 6 (mkFrame 4 false 0 0 (5 :: 0 :: 1 :: List.replicate 33 0))).modEpo 6 fun x
    => { x with seen := 128, ep := some { t := 5000, id := 1, dies := 128, folios := 0 } }))).2 6 ((((takeEpoch 6 5
    (((State.reset.got 6 (mkFrame 4 false 0 0 (5 :: 0 :: 1 :: List.replicate 33 0))).modEpo 6 fun x =>
    { x with seen := 128, ep := some { t := 5000, id := 1, dies := 128, folios := 0 } }))).1).get (by decide +kernel)).1)).get
    (by decide +kernel)), by decide +kernel⟩⟩

theorem witness_RingsDoorbellsAndInterrupts :
    (∃ (s : State) (d r : Nat) (v : Word), s.Live d ∧ d < 2 ∧ r < 64 ∧ s.rd d HIF_RSTAT.STATE r = 0 ∧
      ringRefuse (s.setReg (HIF_RCFG.EN.addr d r 0 : Nat) (BitVec.ofNat 32 (((BitVec.ofNat 32 (putBit v.toNat 0 true)).toNat %
      2 ^ 25 : Nat) / 2 * 2)) : State) d r ≠ 0) ∧
    (∃ (s : State) (d r : Nat) (v : Word), s.Live d ∧ d < 2 ∧ r < 64 ∧ s.rd d HIF_RSTAT.STATE r = 0 ∧
      ringRefuse (s.setReg (HIF_RCFG.EN.addr d r 0 : Nat) (BitVec.ofNat 32 (((BitVec.ofNat 32 (putBit v.toNat 0 true)).toNat %
      2 ^ 25 : Nat) / 2 * 2)) : State) d r = 0) ∧
    (∃ (s : State) (d r : Nat), s.Live d ∧ d < 2 ∧ r < 64 ∧ s.rd d HIF_RSTAT.STATE r ≠ 0) ∧
    (∃ (s : State) (d r : Nat), s.Live d ∧ d < 2 ∧ r < 64 ∧ s.rd d HIF_RSTAT.STATE r ≠ 0 ∧ s.bit d HIF_RCFG.EN r = false) ∧
    (∃ (s : State) (d r : Nat), s.Live d ∧ d < 2 ∧ r < 64 ∧ s.rd d HIF_RSTAT.STATE r ≠ 0 ∧ s.bit d HIF_RCFG.EN r = true) ∧
    (∃ (s : State) (d r : Nat) (off : _), s.Live d ∧ d < 2 ∧ r < 64 ∧ off < 65536 ∧ s.bit d HIF_ID.LINKUP = false) ∧
    (∃ (s : State) (d r : Nat) (off : _) (size : _), s.Live d ∧ d < 2 ∧ r < 64 ∧ off < 65536 ∧ s.bit d HIF_ID.LINKUP = true ∧
      (off % 0x400 ≠ 0 ∨ size ≠ 4)) ∧
    (∃ (s : State) (d r : Nat), s.Live d ∧ d < 2 ∧ r < 64 ∧ s.bit d HIF_ID.LINKUP = true) ∧
    (∃ (s : State) (d r : Nat), s.Live d ∧ d < 2 ∧ r < 64 ∧ fetchable s d r = false) ∧
    (∃ (s : State) (d r : Nat), s.Live d ∧ d < 2 ∧ r < 64 ∧ fetchable s d r = true ∧ s.rd d HIF_RCFG.TYPE r = 0 ∧
      s.bit d HIF_RCFG.MODE r = true) ∧
    (∃ (s : State) (d r : Nat), s.Live d ∧ d < 2 ∧ r < 64 ∧ fetchable s d r = true ∧
      (s.rd d HIF_RCFG.TYPE r ≠ 0 ∨ s.bit d HIF_RCFG.MODE r = false)) ∧
    (∃ (s : State) (d r : Nat) (u : State), s.Live d ∧ d < 2 ∧ r < 64 ∧ (u.getRing d r).share = []) ∧
    (∃ (s : State) (d r : Nat) (u : State) (b : _) (bs : _), s.Live d ∧ d < 2 ∧ r < 64 ∧ (u.getRing d r).share = b :: bs) ∧
    (∃ (s : State) (d r : Nat), s.Live d ∧ d < 2 ∧ r < 64 ∧ (s.getRing d r).unsig ≠ 0) ∧
    (∃ (s : State) (d r : Nat), s.Live d ∧ d < 2 ∧ r < 64 ∧ (s.getRing d r).unsig = 0) ∧
    (∃ (s : State) (d r : Nat) (k : _), s.Live d ∧ d < 2 ∧ r < 64 ∧ k < 64) ∧
    (∃ (s : State) (d r : Nat), s.Live d ∧ d < 2 ∧ r < 64 ∧ s.bit d HIF_ID.BONDED = false) ∧
    (∃ (s : State) (d r : Nat), s.Live d ∧ d < 2 ∧ r < 64 ∧ s.bit d HIF_ID.BONDED = true ∧ s.getFwq d = []) ∧
    (∃ (s : State) (d r : Nat) (e : _) (q : _), s.Live d ∧ d < 2 ∧ r < 64 ∧ s.bit d HIF_ID.BONDED = true ∧ s.getFwq d = e :: q) ∧
    (∃ (s : State) (d r : Nat), s.Live d ∧ d < 2 ∧ r < 64 ∧ s.bit d HIF_ID.BONDED = true) :=
  ⟨⟨State.reset, 1, 63, 0x0, by decide +kernel⟩,
  ⟨((State.reset.wr 1 GLB_PHASE.PHASE 5).wr 1 HIF_RSTAT.STATE 0 63), 1, 63, 2, by decide +kernel⟩,
  ⟨(State.reset.wr 1 HIF_RSTAT.STATE 1 63), 1, 63, by decide +kernel⟩,
  ⟨(State.reset.wr 1 HIF_RSTAT.STATE 1 63), 1, 63, by decide +kernel⟩,
  ⟨((State.reset.wr 1 HIF_RSTAT.STATE 1 63).wr 1 HIF_RCFG.EN 1 63), 1, 63, by decide +kernel⟩,
  ⟨State.reset, 1, 63, 65535, by decide +kernel⟩,
  ⟨(State.reset.wr 1 HIF_ID.LINKUP 1), 1, 63, 65535, 4, by decide +kernel⟩,
  ⟨(State.reset.wr 1 HIF_ID.LINKUP 1), 1, 63, by decide +kernel⟩,
  ⟨State.reset, 1, 63, by decide +kernel⟩,
  ⟨((((((((State.reset.fnOn 1).wr 1 HIF_RCFG.EN 1 63).wr 1 HIF_RSTAT.STATE 1 63).wr 1 HIF_RIDX.HOST 1 63).modRing 1 63 fun x =>
    { x with share := [] }).wr 1 HIF_RCFG.MODE 1 63).wr 1 HIF_RCFG.TYPE 0 63).fnOn 1), 1, 63, by decide +kernel⟩,
  ⟨((((((((State.reset.fnOn 1).wr 1 HIF_RCFG.EN 1 63).wr 1 HIF_RSTAT.STATE 1 63).wr 1 HIF_RIDX.HOST 1 63).modRing 1 63 fun x =>
    { x with share := [] }).wr 1 HIF_RCFG.MODE 0 63).wr 1 HIF_RCFG.TYPE 0 63).fnOn 1), 1, 63, by decide +kernel⟩,
  ⟨State.reset, 0, 7, State.reset, by decide +kernel⟩,
  ⟨(State.reset.ringOn 0 7 1 []), 0, 7, (State.reset.ringOn 0 7 1 []),
    (((((State.reset.ringOn 0 7 1 [])).getRing 0 7).share).head (by decide +kernel)),
    ((((State.reset.ringOn 0 7 1 [])).getRing 0 7).share).tail, by decide +kernel⟩,
  ⟨(State.reset.modRing 1 63 fun r => { r with unsig := 1 }), 1, 63, by decide +kernel⟩,
  ⟨State.reset, 1, 63, by decide +kernel⟩,
  ⟨State.reset, 1, 63, 63, by decide +kernel⟩,
  ⟨(State.reset.wr 1 HIF_ID.BONDED 0), 1, 63, by decide +kernel⟩,
  ⟨(State.reset.wr 1 HIF_ID.BONDED 1), 1, 63, by decide +kernel⟩,
  ⟨((State.reset.wr 0 HIF_ID.BONDED 1).modFwq 0 fun _ => [{ fn := 0, ring := 0, desc := [] }]), 0, 7,
    (((((State.reset.wr 0 HIF_ID.BONDED 1).modFwq 0 fun _ => [{ fn := 0, ring := 0, desc := [] }])).getFwq 0).head
    (by decide +kernel)), ((((State.reset.wr 0 HIF_ID.BONDED 1).modFwq 0 fun _ => [{ fn := 0, ring := 0, desc := [] }])).getFwq
    0).tail, by decide +kernel⟩,
  ⟨(State.reset.wr 1 HIF_ID.BONDED 1), 1, 63, by decide +kernel⟩⟩

theorem witness_TheLinkOfAFunctionAndItsLoss :
    (∃ (s : State) (d r : Nat) (width : _), s.Live d ∧ d < 2 ∧ r < 64 ∧ 0 < 4 ∧
      ((width = 1 ∨ width = 2 ∨ width = 4 ∨ width = 8))) ∧
    (∃ (s : State) (d r : Nat) (gen : _) (width : _), s.Live d ∧ d < 2 ∧ r < 64 ∧ gen < 4 ∧
      ((width = 1 ∨ width = 2 ∨ width = 4 ∨ width = 8)) ∧ gen ≠ 0) ∧
    (∃ (s : State) (d r : Nat), s.Live d ∧ d < 2 ∧ r < 64 ∧ s.bit d HIF_ID.BONDED = true ∧ s.bit d HIF_ID.ENABLED = true ∧
      s.bit d HIF_ID.LINKUP = true) ∧
    (∃ (s : State) (d r : Nat), s.Live d ∧ d < 2 ∧ r < 64 ∧ (s.bit d HIF_ID.BONDED = false ∨ s.bit d HIF_ID.ENABLED = false)) ∧
    (∃ (s : State) (d r : Nat), s.Live d ∧ d < 2 ∧ r < 64 ∧ s.bit d HIF_ID.BONDED = false) ∧
    (∃ (s : State) (d r : Nat) (k : _), s.Live d ∧ d < 2 ∧ r < 64 ∧ 1 ≤ k ∧ k < 5 ∧
      (s.bit d HIF_ID.BONDED = false ∨ s.bit d HIF_ID.ENABLED = false ∨ s.bit d HIF_ID.LINKUP = false)) ∧
    (∃ (s : State) (d r : Nat), s.Live d ∧ d < 2 ∧ r < 64) ∧
    (∃ (s : State) (d r : Nat), s.Live d ∧ d < 2 ∧ r < 64 ∧ s.bit d HIF_ID.LINKUP = false) ∧
    (∃ (s : State) (d r : Nat) (b : _), s.Live d ∧ d < 2 ∧ r < 64 ∧
      cmdHead s d r (fun op => op == 2 || op == 5 || op == 7) = some b) ∧
    (∃ (s : State) (d r : Nat), s.Live d ∧ d < 2 ∧ r < 64 ∧ cmdHead s d r (fun op => op == 2 || op == 5 || op == 7) = none) :=
  ⟨⟨State.reset, 1, 63, 1, by decide +kernel⟩,
  ⟨State.reset, 1, 63, 3, 1, by decide +kernel⟩,
  ⟨(((State.reset.wr 1 HIF_ID.BONDED 1).wr 1 HIF_ID.ENABLED 1).wr 1 HIF_ID.LINKUP 1), 1, 63, by decide +kernel⟩,
  ⟨State.reset, 1, 63, by decide +kernel⟩,
  ⟨(State.reset.wr 1 HIF_ID.BONDED 0), 1, 63, by decide +kernel⟩,
  ⟨State.reset, 1, 63, 4, by decide +kernel⟩,
  ⟨State.reset, 1, 63, by decide +kernel⟩,
  ⟨State.reset, 1, 63, by decide +kernel⟩,
  ⟨(State.reset.ringOn 0 63 0 (desc 2 0xFFFFFFC 0 0)), 0, 63,
    ((cmdHead ((State.reset.ringOn 0 63 0 (desc 2 0xFFFFFFC 0 0))) 0 63 (fun op => op == 2 || op == 5 || op == 7)).get
    (by decide +kernel)), by decide +kernel⟩,
  ⟨State.reset, 1, 63, by decide +kernel⟩⟩

theorem witness_HostCommandsHaveTheirEffect :
    (∃ (s : State) (d r : Nat), s.hasDie d = true ∧ d < 2 ∧ r < 64 ∧ cmdHead s d r (· == 0) = none) ∧
    (∃ (s : State) (d r : Nat), s.hasDie d = true ∧ d < 2 ∧ r < 64 ∧ cmdHead s d r (· == 1) = none) ∧
    (∃ (s : State) (d r : Nat), s.hasDie d = true ∧ d < 2 ∧ r < 64 ∧ cmdHead s d r (· == 2) = none) ∧
    (∃ (s : State) (d r : Nat), s.hasDie d = true ∧ d < 2 ∧ r < 64 ∧ cmdHead s d r (· == 3) = none) ∧
    (∃ (s : State) (d r : Nat), s.hasDie d = true ∧ d < 2 ∧ r < 64 ∧ cmdHead s d r (· == 4) = none) ∧
    (∃ (s : State) (d r : Nat), s.hasDie d = true ∧ d < 2 ∧ r < 64 ∧ cmdHead s d r (· == 5) = none) ∧
    (∃ (s : State) (d r : Nat), s.hasDie d = true ∧ d < 2 ∧ r < 64 ∧ cmdHead s d r (· == 6) = none) ∧
    (∃ (s : State) (d r : Nat), s.hasDie d = true ∧ d < 2 ∧ r < 64 ∧ cmdHead s d r (· == 7) = none) ∧
    (∃ (s : State) (d r : Nat), s.hasDie d = true ∧ d < 2 ∧ r < 64 ∧ cmdHead s d r (fun op => 7 < op) = none) ∧
    (∃ (s : State) (d r : Nat) (b : _), s.hasDie d = true ∧ d < 2 ∧ r < 64 ∧ cmdHead s d r (· == 0) = some b) ∧
    (∃ (s : State) (d r : Nat) (b : _), s.hasDie d = true ∧ d < 2 ∧ r < 64 ∧
      (cmdA b % 4 ≠ 0 ∨ 8 * dieSpan < cmdA b + 4 * (cmdB b % 1024 + 1) ∨ cmdAddr b % 4 ≠ 0) ∧ cmdHead s d r (· == 1) = some b) ∧
    (∃ (s : State) (d r : Nat) (b : _), s.hasDie d = true ∧ d < 2 ∧ r < 64 ∧
      (cmdA b % 4 ≠ 0 ∨ 8 * dieSpan < cmdA b + 4 * (cmdB b % 1024 + 1) ∨ cmdAddr b % 4 ≠ 0) ∧ cmdHead s d r (· == 2) = some b) ∧
    (∃ (s : State) (d r : Nat) (b : _), s.hasDie d = true ∧ d < 2 ∧ r < 64 ∧ cmdA b % 4 = 0 ∧
      cmdA b + 4 * (cmdB b % 1024 + 1) ≤ 8 * dieSpan ∧ cmdAddr b % 4 = 0 ∧ cmdHead s d r (· == 1) = some b) ∧
    (∃ (s : State) (d r : Nat) (b : _), s.hasDie d = true ∧ d < 2 ∧ r < 64 ∧ cmdA b % 4 = 0 ∧
      cmdA b + 4 * (cmdB b % 1024 + 1) ≤ 8 * dieSpan ∧ cmdAddr b % 4 = 0 ∧ cmdHead s d r (· == 2) = some b) ∧
    (∃ (s : State) (d r : Nat) (b : _), s.hasDie d = true ∧ d < 2 ∧ r < 64 ∧ (cmdA b % 4 ≠ 0 ∨ 8 * dieSpan < cmdA b + 4) ∧
      cmdHead s d r (· == 3) = some b) ∧
    (∃ (s : State) (d r : Nat) (b : _), s.hasDie d = true ∧ d < 2 ∧ r < 64 ∧ (cmdA b % 4 ≠ 0 ∨ 8 * dieSpan < cmdA b + 4) ∧
      cmdHead s d r (· == 4) = some b) ∧
    (∃ (s : State) (d r : Nat) (b : _), s.hasDie d = true ∧ d < 2 ∧ r < 64 ∧ cmdA b % 4 = 0 ∧ cmdA b + 4 ≤ 8 * dieSpan ∧
      cmdHead s d r (· == 3) = some b) ∧
    (∃ (s : State) (d r : Nat) (b : _), s.hasDie d = true ∧ d < 2 ∧ r < 64 ∧ cmdA b % 4 = 0 ∧ cmdA b + 4 ≤ 8 * dieSpan ∧
      cmdHead s d r (· == 4) = some b) ∧
    (∃ (s : State) (d r : Nat) (b : _), s.hasDie d = true ∧ d < 2 ∧ r < 64 ∧ dmaOk b = false ∧ cmdHead s d r (· == 5) = some b) ∧
    (∃ (s : State) (d r : Nat) (b : _), s.hasDie d = true ∧ d < 2 ∧ r < 64 ∧ dmaOk b = false ∧ cmdHead s d r (· == 6) = some b) ∧
    (∃ (s : State) (d r : Nat) (b : _), s.hasDie d = true ∧ d < 2 ∧ r < 64 ∧ dmaOk b = true ∧ (s.dramSrv = none ∨ (∃ c,
      s.dramSrv = some c ∧ s.reach d c = false)) ∧ cmdHead s d r (· == 5) = some b) ∧
    (∃ (s : State) (d r : Nat) (b : _), s.hasDie d = true ∧ d < 2 ∧ r < 64 ∧ dmaOk b = true ∧ (s.dramSrv = none ∨ (∃ c,
      s.dramSrv = some c ∧ s.reach d c = false)) ∧ cmdHead s d r (· == 6) = some b) ∧
    (∃ (s : State) (d r : Nat) (b : _) (c : _), s.hasDie d = true ∧ d < 2 ∧ r < 64 ∧ dmaOk b = true ∧ s.dramSrv = some c ∧
      s.reach d c = true ∧ cmdHead s d r (· == 5) = some b ∧ hitsLedger s c (cmdB b) (cmdA b) = true) ∧
    (∃ (s : State) (d r : Nat) (b : _) (c : _), s.hasDie d = true ∧ d < 2 ∧ r < 64 ∧ dmaOk b = true ∧ s.dramSrv = some c ∧
      s.reach d c = true ∧ cmdHead s d r (· == 5) = some b ∧ hitsLedger s c (cmdB b) (cmdA b) = false) ∧
    (∃ (s : State) (d r : Nat) (b : _) (c : _), s.hasDie d = true ∧ d < 2 ∧ r < 64 ∧ dmaOk b = true ∧ s.dramSrv = some c ∧
      s.reach d c = true ∧ cmdHead s d r (· == 6) = some b) ∧
    (∃ (s : State) (d r : Nat) (b : _), s.hasDie d = true ∧ d < 2 ∧ r < 64 ∧ cmdHead s d r (· == 7) = some b ∧
      (cmdA b < colophonLen s d ∨ cmdAddr b % 64 ≠ 0)) ∧
    (∃ (s : State) (d r : Nat) (b : _), s.hasDie d = true ∧ d < 2 ∧ r < 64 ∧ cmdHead s d r (· == 7) = some b ∧
      colophonLen s d ≤ cmdA b ∧ cmdAddr b % 64 = 0) ∧
    (∃ (s : State) (d r : Nat) (b : _), s.hasDie d = true ∧ d < 2 ∧ r < 64 ∧ cmdHead s d r (fun op => 7 < op) = some b) :=
  ⟨⟨State.reset, 1, 63, by decide +kernel⟩,
  ⟨State.reset, 1, 63, by decide +kernel⟩,
  ⟨State.reset, 1, 63, by decide +kernel⟩,
  ⟨State.reset, 1, 63, by decide +kernel⟩,
  ⟨State.reset, 1, 63, by decide +kernel⟩,
  ⟨State.reset, 1, 63, by decide +kernel⟩,
  ⟨State.reset, 1, 63, by decide +kernel⟩,
  ⟨State.reset, 1, 63, by decide +kernel⟩,
  ⟨State.reset, 1, 63, by decide +kernel⟩,
  ⟨(State.reset.ringOn 0 7 0 (desc 0 0 0 0)), 0, 7,
    ((cmdHead ((State.reset.ringOn 0 7 0 (desc 0 0 0 0))) 0 7 (· == 0)).get (by decide +kernel)), by decide +kernel⟩,
  ⟨(State.reset.ringOn 0 7 0 (desc 1 1 0 0)), 0, 7,
    ((cmdHead ((State.reset.ringOn 0 7 0 (desc 1 1 0 0))) 0 7 (· == 1)).get (by decide +kernel)), by decide +kernel⟩,
  ⟨(State.reset.ringOn 0 7 0 (desc 2 1 0 0)), 0, 7,
    ((cmdHead ((State.reset.ringOn 0 7 0 (desc 2 1 0 0))) 0 7 (· == 2)).get (by decide +kernel)), by decide +kernel⟩,
  ⟨(State.reset.ringOn 0 7 0 (desc 1 0 0 0)), 0, 7,
    ((cmdHead ((State.reset.ringOn 0 7 0 (desc 1 0 0 0))) 0 7 (· == 1)).get (by decide +kernel)), by decide +kernel⟩,
  ⟨(State.reset.ringOn 0 7 0 (desc 2 0xFFFFFFC 0 0)), 0, 7,
    ((cmdHead ((State.reset.ringOn 0 7 0 (desc 2 0xFFFFFFC 0 0))) 0 7 (· == 2)).get (by decide +kernel)), by decide +kernel⟩,
  ⟨(State.reset.ringOn 0 7 0 (desc 3 0x10000000 0 0)), 0, 7,
    ((cmdHead ((State.reset.ringOn 0 7 0 (desc 3 0x10000000 0 0))) 0 7 (· == 3)).get (by decide +kernel)), by decide +kernel⟩,
  ⟨(State.reset.ringOn 0 7 0 (desc 4 0x10000000 0 0)), 0, 7,
    ((cmdHead ((State.reset.ringOn 0 7 0 (desc 4 0x10000000 0 0))) 0 7 (· == 4)).get (by decide +kernel)), by decide +kernel⟩,
  ⟨(State.reset.ringOn 0 7 0 (desc 3 0xFFFFFFC 0 0)), 0, 7,
    ((cmdHead ((State.reset.ringOn 0 7 0 (desc 3 0xFFFFFFC 0 0))) 0 7 (· == 3)).get (by decide +kernel)), by decide +kernel⟩,
  ⟨(State.reset.ringOn 0 7 0 (desc 4 0xFFFFFFC 0 0)), 0, 7,
    ((cmdHead ((State.reset.ringOn 0 7 0 (desc 4 0xFFFFFFC 0 0))) 0 7 (· == 4)).get (by decide +kernel)), by decide +kernel⟩,
  ⟨(State.reset.ringOn 0 63 0 (desc 5 0 0 0)), 0, 63,
    ((cmdHead ((State.reset.ringOn 0 63 0 (desc 5 0 0 0))) 0 63 (· == 5)).get (by decide +kernel)), by decide +kernel⟩,
  ⟨(State.reset.ringOn 0 63 0 (desc 6 0 0 0)), 0, 63,
    ((cmdHead ((State.reset.ringOn 0 63 0 (desc 6 0 0 0))) 0 63 (· == 6)).get (by decide +kernel)), by decide +kernel⟩,
  ⟨(State.reset.ringOn 0 63 0 (desc 5 64 0 0)), 0, 63,
    ((cmdHead ((State.reset.ringOn 0 63 0 (desc 5 64 0 0))) 0 63 (· == 5)).get (by decide +kernel)), by decide +kernel, by decide +kernel, by decide +kernel, by decide +kernel,
    Or.inl ((by decide +kernel)), by decide +kernel⟩,
  ⟨(State.reset.ringOn 0 63 0 (desc 6 64 0 0)), 0, 63,
    ((cmdHead ((State.reset.ringOn 0 63 0 (desc 6 64 0 0))) 0 63 (· == 6)).get (by decide +kernel)), by decide +kernel, by decide +kernel, by decide +kernel, by decide +kernel,
    Or.inl ((by decide +kernel)), by decide +kernel⟩,
  ⟨({ ((({ (State.reset.ringOn 1 5 0 (desc 5 64 0 0)) with dramSrv := some 1 } : State).fnOn 1).wr 1 LEDG_CTL.EN 1) with ledg := { open_ := true, slot := 0 } } : State), 1, 5, ((cmdHead (({ ((({ (State.reset.ringOn 1 5 0 (desc 5 64 0 0)) with dramSrv := some 1 } : State).fnOn 1).wr 1 LEDG_CTL.EN 1) with ledg := { open_ := true, slot := 0 } } : State)) 1 5 (· == 5)).get (by decide +kernel)), (((({ ((({ (State.reset.ringOn 1 5 0 (desc 5 64 0 0)) with dramSrv := some 1 } : State).fnOn 1).wr 1 LEDG_CTL.EN 1) with ledg := { open_ := true, slot := 0 } } : State)).dramSrv).get (by decide +kernel)), by decide +kernel⟩,
  ⟨({ (State.reset.ringOn 0 63 0 (desc 5 64 0 0x100000000)) with dramSrv := some 1 } : State), 0, 63,
    ((cmdHead (({ (State.reset.ringOn 0 63 0 (desc 5 64 0 0x100000000)) with dramSrv := some 1 } : State)) 0 63 (· == 5)).get
    (by decide +kernel)), (((({ (State.reset.ringOn 0 63 0 (desc 5 64 0 0x100000000)) with dramSrv := some 1 } :
    State)).dramSrv).get (by decide +kernel)), by decide +kernel⟩,
  ⟨({ (State.reset.ringOn 0 63 0 (desc 6 64 0 0)) with dramSrv := some 1 } : State), 0, 63,
    ((cmdHead (({ (State.reset.ringOn 0 63 0 (desc 6 64 0 0)) with dramSrv := some 1 } : State)) 0 63 (· == 6)).get
    (by decide +kernel)), (((({ (State.reset.ringOn 0 63 0 (desc 6 64 0 0)) with dramSrv := some 1 } : State)).dramSrv).get
    (by decide +kernel)), by decide +kernel⟩,
  ⟨(State.reset.ringOn 0 63 0 (desc 7 16 0 0)), 0, 63,
    ((cmdHead ((State.reset.ringOn 0 63 0 (desc 7 16 0 0))) 0 63 (· == 7)).get (by decide +kernel)), by decide +kernel⟩,
  ⟨(State.reset.ringOn 0 63 0 (desc 7 16777216 64 0)), 0, 63,
    ((cmdHead ((State.reset.ringOn 0 63 0 (desc 7 16777216 64 0))) 0 63 (· == 7)).get (by decide +kernel)), by decide +kernel⟩,
  ⟨(State.reset.ringOn 0 63 0 (desc 8 0 0 0)), 0, 63,
    ((cmdHead ((State.reset.ringOn 0 63 0 (desc 8 0 0 0))) 0 63 (fun op => 7 < op)).get (by decide +kernel)), by decide +kernel⟩⟩

theorem witness_StacksRequestsHaveTheirEffect :
    (∃ (s : State) (d r : Nat), s.hasDie d = true ∧ d < 2 ∧ r < 64 ∧ arcHead s d r (· == 1) = none) ∧
    (∃ (s : State) (d r : Nat), s.hasDie d = true ∧ d < 2 ∧ r < 64 ∧ arcHead s d r (· == 2) = none) ∧
    (∃ (s : State) (d r : Nat), s.hasDie d = true ∧ d < 2 ∧ r < 64 ∧ arcHead s d r (· == 3) = none) ∧
    (∃ (s : State) (d r : Nat), s.hasDie d = true ∧ d < 2 ∧ r < 64 ∧ arcHead s d r (· == 4) = none) ∧
    (∃ (s : State) (d r : Nat), s.hasDie d = true ∧ d < 2 ∧ r < 64 ∧ arcHead s d r (fun op => op == 0 || 4 < op) = none) ∧
    (∃ (s : State) (d r : Nat) (b : _), s.hasDie d = true ∧ d < 2 ∧ r < 64 ∧
      arcHead s d r (fun op => op == 0 || 4 < op) = some b) ∧
    (∃ (s : State) (d r : Nat) (b : _) (e : _), s.hasDie d = true ∧ d < 2 ∧ r < 64 ∧ (((stkReady s = none ∨ ∃ c,
      stkReady s = some c ∧ s.reach d c = false) ∧ e = 8) ∨ (∃ c, stkReady s = some c ∧ s.reach d c = true ∧
      s.bit c STK_NS.VALID (arcNs b) = false ∧ e = 2)) ∧ arcHead s d r (· == 1) = some b) ∧
    (∃ (s : State) (d r : Nat) (b : _) (e : _), s.hasDie d = true ∧ d < 2 ∧ r < 64 ∧ (((stkReady s = none ∨ ∃ c,
      stkReady s = some c ∧ s.reach d c = false) ∧ e = 8) ∨ (∃ c, stkReady s = some c ∧ s.reach d c = true ∧
      s.bit c STK_NS.VALID (arcNs b) = false ∧ e = 2)) ∧ arcHead s d r (· == 2) = some b) ∧
    (∃ (s : State) (d r : Nat) (b : _) (e : _), s.hasDie d = true ∧ d < 2 ∧ r < 64 ∧ (((stkReady s = none ∨ ∃ c,
      stkReady s = some c ∧ s.reach d c = false) ∧ e = 8) ∨ (∃ c, stkReady s = some c ∧ s.reach d c = true ∧
      s.bit c STK_NS.VALID (arcNs b) = false ∧ e = 2)) ∧ arcHead s d r (· == 3) = some b) ∧
    (∃ (s : State) (d r : Nat) (b : _) (e : _), s.hasDie d = true ∧ d < 2 ∧ r < 64 ∧ (((stkReady s = none ∨ ∃ c,
      stkReady s = some c ∧ s.reach d c = false) ∧ e = 8) ∨ (∃ c, stkReady s = some c ∧ s.reach d c = true ∧
      s.bit c STK_NS.VALID (arcNs b) = false ∧ e = 2)) ∧ arcHead s d r (· == 4) = some b) ∧
    (∃ (s : State) (d r : Nat) (b : _) (c : _), s.hasDie d = true ∧ d < 2 ∧ r < 64 ∧ stkReady s = some c ∧ s.reach d c = true ∧
      s.bit c STK_NS.VALID (arcNs b) = true ∧ arcHead s d r (· == 1) = some b ∧
      (cmdA b = 0 ∨ 65536 < cmdA b ∨ cmdB b ≤ cmdAddr b ∨ fNum b 24 8 % 4096 ≠ 0)) ∧
    (∃ (s : State) (d r : Nat) (b : List Byte) (c : _), s.hasDie d = true ∧ d < 2 ∧ r < 64 ∧ stkReady s = some c ∧
      s.reach d c = true ∧ s.bit c STK_NS.VALID (arcNs b) = true ∧ arcHead s d r (· == 1) = some b ∧
      (¬ (cmdA b = 0 ∨ 65536 < cmdA b ∨ cmdB b ≤ cmdAddr b ∨ fNum b 24 8 % 4096 ≠ 0))) ∧
    (∃ (s : State) (d r : Nat) (b : _) (c : _), s.hasDie d = true ∧ d < 2 ∧ r < 64 ∧ stkReady s = some c ∧ s.reach d c = true ∧
      s.bit c STK_NS.VALID (arcNs b) = true ∧ arcHead s d r (· == 2) = some b ∧
      (cmdB b ≤ cmdAddr b ∨ 64 ≤ (s.getNsr c (arcNs b)).wins.length)) ∧
    (∃ (s : State) (d r : Nat) (b : _) (c : _), s.hasDie d = true ∧ d < 2 ∧ r < 64 ∧ stkReady s = some c ∧ s.reach d c = true ∧
      s.bit c STK_NS.VALID (arcNs b) = true ∧ arcHead s d r (· == 2) = some b ∧ cmdAddr b < cmdB b ∧
      (s.getNsr c (arcNs b)).wins.length < 64) ∧
    (∃ (s : State) (d r : Nat) (b : _) (c : _), s.hasDie d = true ∧ d < 2 ∧ r < 64 ∧ stkReady s = some c ∧ s.reach d c = true ∧
      s.bit c STK_NS.VALID (arcNs b) = true ∧ arcHead s d r (· == 3) = some b ∧ cmdB b ≤ cmdAddr b) ∧
    (∃ (s : State) (d r : Nat) (b : _) (c : _), s.hasDie d = true ∧ d < 2 ∧ r < 64 ∧ stkReady s = some c ∧ s.reach d c = true ∧
      s.bit c STK_NS.VALID (arcNs b) = true ∧ arcHead s d r (· == 3) = some b ∧ cmdAddr b < cmdB b) ∧
    (∃ (s : State) (d r : Nat) (b : _) (c : _) (x : _) (xs : _), s.hasDie d = true ∧ d < 2 ∧ r < 64 ∧ stkReady s = some c ∧
      s.reach d c = true ∧ s.bit c STK_NS.VALID (arcNs b) = true ∧ arcHead s d r (· == 4) = some b ∧
      recsInTime s c (arcNs b) (fun _ => true) = x :: xs) ∧
    (∃ (s : State) (d r : Nat) (b : _) (c : _), s.hasDie d = true ∧ d < 2 ∧ r < 64 ∧ stkReady s = some c ∧ s.reach d c = true ∧
      s.bit c STK_NS.VALID (arcNs b) = true ∧ arcHead s d r (· == 4) = some b ∧ recsInTime s c (arcNs b) (fun _ => true) = []) :=
  ⟨⟨State.reset, 1, 63, by decide +kernel⟩,
  ⟨State.reset, 1, 63, by decide +kernel⟩,
  ⟨State.reset, 1, 63, by decide +kernel⟩,
  ⟨State.reset, 1, 63, by decide +kernel⟩,
  ⟨State.reset, 1, 63, by decide +kernel⟩,
  ⟨(State.reset.ringOn 0 7 4 (desc 0 0 0 0)), 0, 7,
    ((arcHead ((State.reset.ringOn 0 7 4 (desc 0 0 0 0))) 0 7 (fun op => op == 0 || 4 < op)).get (by decide +kernel)), by decide +kernel⟩,
  ⟨(({ (State.reset.ringOn 0 7 4 (desc 1 0 0 0)) with spineDown := [(0, true), (1, true), (5, true), (6, true), (7, true)] }).fnOn 0), 0, 7, ((arcHead ((({ (State.reset.ringOn 0 7 4 (desc 1 0 0 0)) with spineDown := [(0, true), (1, true), (5, true), (6, true), (7, true)] }).fnOn 0)) 0 7 (· == 1)).get (by decide +kernel)), (8), by decide +kernel, by decide +kernel, by decide +kernel,
    Or.inl (⟨(by decide +kernel), (by first | rfl | decide +kernel)⟩), by decide +kernel⟩,
  ⟨(({ (State.reset.ringOn 0 7 4 (desc 2 0 0 0)) with spineDown := [(0, true), (1, true), (5, true), (6, true), (7, true)] }).fnOn 0), 0, 7, ((arcHead ((({ (State.reset.ringOn 0 7 4 (desc 2 0 0 0)) with spineDown := [(0, true), (1, true), (5, true), (6, true), (7, true)] }).fnOn 0)) 0 7 (· == 2)).get (by decide +kernel)), (8), by decide +kernel, by decide +kernel, by decide +kernel,
    Or.inl (⟨(by decide +kernel), (by first | rfl | decide +kernel)⟩), by decide +kernel⟩,
  ⟨(({ (State.reset.ringOn 0 7 4 (desc 3 0 0 0)) with spineDown := [(0, true), (1, true), (5, true), (6, true), (7, true)] }).fnOn 0), 0, 7, ((arcHead ((({ (State.reset.ringOn 0 7 4 (desc 3 0 0 0)) with spineDown := [(0, true), (1, true), (5, true), (6, true), (7, true)] }).fnOn 0)) 0 7 (· == 3)).get (by decide +kernel)), (8), by decide +kernel, by decide +kernel, by decide +kernel,
    Or.inl (⟨(by decide +kernel), (by first | rfl | decide +kernel)⟩), by decide +kernel⟩,
  ⟨(({ (State.reset.ringOn 0 7 4 (desc 4 0 0 0)) with spineDown := [(0, true), (1, true), (5, true), (6, true), (7, true)] }).fnOn 0), 0, 7, ((arcHead ((({ (State.reset.ringOn 0 7 4 (desc 4 0 0 0)) with spineDown := [(0, true), (1, true), (5, true), (6, true), (7, true)] }).fnOn 0)) 0 7 (· == 4)).get (by decide +kernel)), (8), by decide +kernel, by decide +kernel, by decide +kernel,
    Or.inl (⟨(by decide +kernel), (by first | rfl | decide +kernel)⟩), by decide +kernel⟩,
  ⟨(({ (({ ({ ((({ ((State.reset.wr 1 STK_STAT.IDX 2).wr 1 STK_NS.VALID 1 3) with stkSrv := some 1 }).wr 1 PWR_ADMIT.DEFER 1).ringOn 1 3 4 (desc 0x301 0 0 0)) with stkSrv := some 1 }) with stkSrv := some 1 }).wr 1 STK_STAT.IDX 2) with spineDown := [(0, true), (1, true), (5, true), (6, true), (7, true)] }).fnOn 1), 1, 3, ((arcHead ((({ (({ ({ ((({ ((State.reset.wr 1 STK_STAT.IDX 2).wr 1 STK_NS.VALID 1 3) with stkSrv := some 1 }).wr 1 PWR_ADMIT.DEFER 1).ringOn 1 3 4 (desc 0x301 0 0 0)) with stkSrv := some 1 }) with stkSrv := some 1 }).wr 1 STK_STAT.IDX 2) with spineDown := [(0, true), (1, true), (5, true), (6, true), (7, true)] }).fnOn 1)) 1 3 (· == 1)).get (by decide +kernel)), ((stkReady ((({ (({ ({ ((({ ((State.reset.wr 1 STK_STAT.IDX 2).wr 1 STK_NS.VALID 1 3) with stkSrv := some 1 }).wr 1 PWR_ADMIT.DEFER 1).ringOn 1 3 4 (desc 0x301 0 0 0)) with stkSrv := some 1 }) with stkSrv := some 1 }).wr 1 STK_STAT.IDX 2) with spineDown := [(0, true), (1, true), (5, true), (6, true), (7, true)] }).fnOn 1))).get (by decide +kernel)), by decide +kernel, by decide +kernel, by decide +kernel, by decide +kernel, by decide +kernel, by decide +kernel, by decide +kernel,
    Or.inl ((by decide +kernel))⟩,
  ⟨(({ (({ ({ ((({ ((State.reset.wr 1 STK_STAT.IDX 2).wr 1 STK_NS.VALID 1 3) with stkSrv := some 1 }).wr 1 PWR_ADMIT.DEFER 1).ringOn 1 3 4 (desc 0x301 4096 0 1)) with stkSrv := some 1 }) with stkSrv := some 1 }).wr 1 STK_STAT.IDX 2) with spineDown := [(0, true), (1, true), (5, true), (6, true), (7, true)] }).fnOn 1), 1, 3, ((arcHead ((({ (({ ({ ((({ ((State.reset.wr 1 STK_STAT.IDX 2).wr 1 STK_NS.VALID 1 3) with stkSrv := some 1 }).wr 1 PWR_ADMIT.DEFER 1).ringOn 1 3 4 (desc 0x301 4096 0 1)) with stkSrv := some 1 }) with stkSrv := some 1 }).wr 1 STK_STAT.IDX 2) with spineDown := [(0, true), (1, true), (5, true), (6, true), (7, true)] }).fnOn 1)) 1 3 (· == 1)).get (by decide +kernel)), ((stkReady ((({ (({ ({ ((({ ((State.reset.wr 1 STK_STAT.IDX 2).wr 1 STK_NS.VALID 1 3) with stkSrv := some 1 }).wr 1 PWR_ADMIT.DEFER 1).ringOn 1 3 4 (desc 0x301 4096 0 1)) with stkSrv := some 1 }) with stkSrv := some 1 }).wr 1 STK_STAT.IDX 2) with spineDown := [(0, true), (1, true), (5, true), (6, true), (7, true)] }).fnOn 1))).get (by decide +kernel)), by decide +kernel⟩,
  ⟨(({ (({ ({ ((({ ((State.reset.wr 1 STK_STAT.IDX 2).wr 1 STK_NS.VALID 1 3) with stkSrv := some 1 }).wr 1 PWR_ADMIT.DEFER 1).ringOn 1 3 4 (desc 0x302 0 0 0)) with stkSrv := some 1 }) with stkSrv := some 1 }).wr 1 STK_STAT.IDX 2) with spineDown := [(0, true), (1, true), (5, true), (6, true), (7, true)] }).fnOn 1), 1, 3, ((arcHead ((({ (({ ({ ((({ ((State.reset.wr 1 STK_STAT.IDX 2).wr 1 STK_NS.VALID 1 3) with stkSrv := some 1 }).wr 1 PWR_ADMIT.DEFER 1).ringOn 1 3 4 (desc 0x302 0 0 0)) with stkSrv := some 1 }) with stkSrv := some 1 }).wr 1 STK_STAT.IDX 2) with spineDown := [(0, true), (1, true), (5, true), (6, true), (7, true)] }).fnOn 1)) 1 3 (· == 2)).get (by decide +kernel)), ((stkReady ((({ (({ ({ ((({ ((State.reset.wr 1 STK_STAT.IDX 2).wr 1 STK_NS.VALID 1 3) with stkSrv := some 1 }).wr 1 PWR_ADMIT.DEFER 1).ringOn 1 3 4 (desc 0x302 0 0 0)) with stkSrv := some 1 }) with stkSrv := some 1 }).wr 1 STK_STAT.IDX 2) with spineDown := [(0, true), (1, true), (5, true), (6, true), (7, true)] }).fnOn 1))).get (by decide +kernel)), by decide +kernel⟩,
  ⟨(({ (({ ({ ((({ ((State.reset.wr 1 STK_STAT.IDX 2).wr 1 STK_NS.VALID 1 3) with stkSrv := some 1 }).wr 1 PWR_ADMIT.DEFER 1).ringOn 1 3 4 (desc 0x302 0 0 1)) with stkSrv := some 1 }) with stkSrv := some 1 }).wr 1 STK_STAT.IDX 2) with spineDown := [(0, true), (1, true), (5, true), (6, true), (7, true)] }).fnOn 1), 1, 3, ((arcHead ((({ (({ ({ ((({ ((State.reset.wr 1 STK_STAT.IDX 2).wr 1 STK_NS.VALID 1 3) with stkSrv := some 1 }).wr 1 PWR_ADMIT.DEFER 1).ringOn 1 3 4 (desc 0x302 0 0 1)) with stkSrv := some 1 }) with stkSrv := some 1 }).wr 1 STK_STAT.IDX 2) with spineDown := [(0, true), (1, true), (5, true), (6, true), (7, true)] }).fnOn 1)) 1 3 (· == 2)).get (by decide +kernel)), ((stkReady ((({ (({ ({ ((({ ((State.reset.wr 1 STK_STAT.IDX 2).wr 1 STK_NS.VALID 1 3) with stkSrv := some 1 }).wr 1 PWR_ADMIT.DEFER 1).ringOn 1 3 4 (desc 0x302 0 0 1)) with stkSrv := some 1 }) with stkSrv := some 1 }).wr 1 STK_STAT.IDX 2) with spineDown := [(0, true), (1, true), (5, true), (6, true), (7, true)] }).fnOn 1))).get (by decide +kernel)), by decide +kernel⟩,
  ⟨(({ (({ ({ ((({ ((State.reset.wr 1 STK_STAT.IDX 2).wr 1 STK_NS.VALID 1 3) with stkSrv := some 1 }).wr 1 PWR_ADMIT.DEFER 1).ringOn 1 3 4 (desc 0x303 0 0 0)) with stkSrv := some 1 }) with stkSrv := some 1 }).wr 1 STK_STAT.IDX 2) with spineDown := [(0, true), (1, true), (5, true), (6, true), (7, true)] }).fnOn 1), 1, 3, ((arcHead ((({ (({ ({ ((({ ((State.reset.wr 1 STK_STAT.IDX 2).wr 1 STK_NS.VALID 1 3) with stkSrv := some 1 }).wr 1 PWR_ADMIT.DEFER 1).ringOn 1 3 4 (desc 0x303 0 0 0)) with stkSrv := some 1 }) with stkSrv := some 1 }).wr 1 STK_STAT.IDX 2) with spineDown := [(0, true), (1, true), (5, true), (6, true), (7, true)] }).fnOn 1)) 1 3 (· == 3)).get (by decide +kernel)), ((stkReady ((({ (({ ({ ((({ ((State.reset.wr 1 STK_STAT.IDX 2).wr 1 STK_NS.VALID 1 3) with stkSrv := some 1 }).wr 1 PWR_ADMIT.DEFER 1).ringOn 1 3 4 (desc 0x303 0 0 0)) with stkSrv := some 1 }) with stkSrv := some 1 }).wr 1 STK_STAT.IDX 2) with spineDown := [(0, true), (1, true), (5, true), (6, true), (7, true)] }).fnOn 1))).get (by decide +kernel)), by decide +kernel⟩,
  ⟨(({ (({ ({ ((({ ((State.reset.wr 1 STK_STAT.IDX 2).wr 1 STK_NS.VALID 1 3) with stkSrv := some 1 }).wr 1 PWR_ADMIT.DEFER 1).ringOn 1 3 4 (desc 0x303 0 0 1)) with stkSrv := some 1 }) with stkSrv := some 1 }).wr 1 STK_STAT.IDX 2) with spineDown := [(0, true), (1, true), (5, true), (6, true), (7, true)] }).fnOn 1), 1, 3, ((arcHead ((({ (({ ({ ((({ ((State.reset.wr 1 STK_STAT.IDX 2).wr 1 STK_NS.VALID 1 3) with stkSrv := some 1 }).wr 1 PWR_ADMIT.DEFER 1).ringOn 1 3 4 (desc 0x303 0 0 1)) with stkSrv := some 1 }) with stkSrv := some 1 }).wr 1 STK_STAT.IDX 2) with spineDown := [(0, true), (1, true), (5, true), (6, true), (7, true)] }).fnOn 1)) 1 3 (· == 3)).get (by decide +kernel)), ((stkReady ((({ (({ ({ ((({ ((State.reset.wr 1 STK_STAT.IDX 2).wr 1 STK_NS.VALID 1 3) with stkSrv := some 1 }).wr 1 PWR_ADMIT.DEFER 1).ringOn 1 3 4 (desc 0x303 0 0 1)) with stkSrv := some 1 }) with stkSrv := some 1 }).wr 1 STK_STAT.IDX 2) with spineDown := [(0, true), (1, true), (5, true), (6, true), (7, true)] }).fnOn 1))).get (by decide +kernel)), by decide +kernel⟩,
  ⟨(({ ({ ((({ ((State.reset.wr 1 STK_STAT.IDX 2).wr 1 STK_NS.VALID 1 3) with stkSrv := some 1 }).wr 1 PWR_ADMIT.DEFER 1).ringOn 1 7 4 (desc 0x304 0 0 1)) with drive := [(7 * 2 ^ 31 + 1, [0x53, 0x54, 0x4B, 0x52])] }) with spineDown := [(0, true), (1, true), (5, true), (6, true), (7, true)] }).fnOn 1), 1, 7, ((arcHead ((({ ({ ((({ ((State.reset.wr 1 STK_STAT.IDX 2).wr 1 STK_NS.VALID 1 3) with stkSrv := some 1 }).wr 1 PWR_ADMIT.DEFER 1).ringOn 1 7 4 (desc 0x304 0 0 1)) with drive := [(7 * 2 ^ 31 + 1, [0x53, 0x54, 0x4B, 0x52])] }) with spineDown := [(0, true), (1, true), (5, true), (6, true), (7, true)] }).fnOn 1)) 1 7 (· == 4)).get (by decide +kernel)), ((stkReady ((({ ({ ((({ ((State.reset.wr 1 STK_STAT.IDX 2).wr 1 STK_NS.VALID 1 3) with stkSrv := some 1 }).wr 1 PWR_ADMIT.DEFER 1).ringOn 1 7 4 (desc 0x304 0 0 1)) with drive := [(7 * 2 ^ 31 + 1, [0x53, 0x54, 0x4B, 0x52])] }) with spineDown := [(0, true), (1, true), (5, true), (6, true), (7, true)] }).fnOn 1))).get (by decide +kernel)), ((recsInTime ((({ ({ ((({ ((State.reset.wr 1 STK_STAT.IDX 2).wr 1 STK_NS.VALID 1 3) with stkSrv := some 1 }).wr 1 PWR_ADMIT.DEFER 1).ringOn 1 7 4 (desc 0x304 0 0 1)) with drive := [(7 * 2 ^ 31 + 1, [0x53, 0x54, 0x4B, 0x52])] }) with spineDown := [(0, true), (1, true), (5, true), (6, true), (7, true)] }).fnOn 1)) (((stkReady ((({ ({ ((({ ((State.reset.wr 1 STK_STAT.IDX 2).wr 1 STK_NS.VALID 1 3) with stkSrv := some 1 }).wr 1 PWR_ADMIT.DEFER 1).ringOn 1 7 4 (desc 0x304 0 0 1)) with drive := [(7 * 2 ^ 31 + 1, [0x53, 0x54, 0x4B, 0x52])] }) with spineDown := [(0, true), (1, true), (5, true), (6, true), (7, true)] }).fnOn 1))).get (by decide +kernel))) (arcNs (((arcHead ((({ ({ ((({ ((State.reset.wr 1 STK_STAT.IDX 2).wr 1 STK_NS.VALID 1 3) with stkSrv := some 1 }).wr 1 PWR_ADMIT.DEFER 1).ringOn 1 7 4 (desc 0x304 0 0 1)) with drive := [(7 * 2 ^ 31 + 1, [0x53, 0x54, 0x4B, 0x52])] }) with spineDown := [(0, true), (1, true), (5, true), (6, true), (7, true)] }).fnOn 1)) 1 7 (· == 4)).get (by decide +kernel)))) (fun _ => true)).head (by decide +kernel)), (recsInTime ((({ ({ ((({ ((State.reset.wr 1 STK_STAT.IDX 2).wr 1 STK_NS.VALID 1 3) with stkSrv := some 1 }).wr 1 PWR_ADMIT.DEFER 1).ringOn 1 7 4 (desc 0x304 0 0 1)) with drive := [(7 * 2 ^ 31 + 1, [0x53, 0x54, 0x4B, 0x52])] }) with spineDown := [(0, true), (1, true), (5, true), (6, true), (7, true)] }).fnOn 1)) (((stkReady ((({ ({ ((({ ((State.reset.wr 1 STK_STAT.IDX 2).wr 1 STK_NS.VALID 1 3) with stkSrv := some 1 }).wr 1 PWR_ADMIT.DEFER 1).ringOn 1 7 4 (desc 0x304 0 0 1)) with drive := [(7 * 2 ^ 31 + 1, [0x53, 0x54, 0x4B, 0x52])] }) with spineDown := [(0, true), (1, true), (5, true), (6, true), (7, true)] }).fnOn 1))).get (by decide +kernel))) (arcNs (((arcHead ((({ ({ ((({ ((State.reset.wr 1 STK_STAT.IDX 2).wr 1 STK_NS.VALID 1 3) with stkSrv := some 1 }).wr 1 PWR_ADMIT.DEFER 1).ringOn 1 7 4 (desc 0x304 0 0 1)) with drive := [(7 * 2 ^ 31 + 1, [0x53, 0x54, 0x4B, 0x52])] }) with spineDown := [(0, true), (1, true), (5, true), (6, true), (7, true)] }).fnOn 1)) 1 7 (· == 4)).get (by decide +kernel)))) (fun _ => true)).tail, by decide +kernel⟩,
  ⟨(({ (({ ({ ((({ ((State.reset.wr 1 STK_STAT.IDX 2).wr 1 STK_NS.VALID 1 3) with stkSrv := some 1 }).wr 1 PWR_ADMIT.DEFER 1).ringOn 1 3 4 (desc 0x304 0 0 1)) with stkSrv := some 1 }) with stkSrv := some 1 }).wr 1 STK_STAT.IDX 2) with spineDown := [(0, true), (1, true), (5, true), (6, true), (7, true)] }).fnOn 1), 1, 3, ((arcHead ((({ (({ ({ ((({ ((State.reset.wr 1 STK_STAT.IDX 2).wr 1 STK_NS.VALID 1 3) with stkSrv := some 1 }).wr 1 PWR_ADMIT.DEFER 1).ringOn 1 3 4 (desc 0x304 0 0 1)) with stkSrv := some 1 }) with stkSrv := some 1 }).wr 1 STK_STAT.IDX 2) with spineDown := [(0, true), (1, true), (5, true), (6, true), (7, true)] }).fnOn 1)) 1 3 (· == 4)).get (by decide +kernel)), ((stkReady ((({ (({ ({ ((({ ((State.reset.wr 1 STK_STAT.IDX 2).wr 1 STK_NS.VALID 1 3) with stkSrv := some 1 }).wr 1 PWR_ADMIT.DEFER 1).ringOn 1 3 4 (desc 0x304 0 0 1)) with stkSrv := some 1 }) with stkSrv := some 1 }).wr 1 STK_STAT.IDX 2) with spineDown := [(0, true), (1, true), (5, true), (6, true), (7, true)] }).fnOn 1))).get (by decide +kernel)), by decide +kernel⟩⟩

theorem witness_TeramPortsTrainBeatAndForward :
    (∃ (s : State) (d : Nat) (g : _), s.Live d ∧ (s.getPort d).gen2 = some g ∧ s.rd d TRM_PORT.STATE = 1) ∧
    (∃ (s : State) (d : Nat), s.Live d ∧ ((s.getPort d).gen2 = none ∨ s.rd d TRM_PORT.STATE ≠ 1)) ∧
    (∃ (s : State) (d : Nat), s.Live d ∧ s.rd d TRM_PORT.STATE = 2) ∧
    (∃ (s : State) (d : Nat), s.Live d ∧ s.rd d TRM_PORT.STATE ≠ 2 ∧ s.rd d GLB_PHASE.PHASE ≠ 0 ∧ (s.getDie d).optOk = true) ∧
    (∃ (s : State) (d : Nat), s.Live d ∧ (s.rd d TRM_PORT.STATE = 2 ∨ s.rd d GLB_PHASE.PHASE = 0 ∨ (s.getDie d).optOk = false)) ∧
    (∃ (s : State) (d : Nat), s.Live d) ∧
    (∃ (s : State) (d : Nat), s.Live d ∧ s.rd d TRM_PORT.STATE ≠ 0) ∧
    (∃ (s : State) (d : Nat), s.Live d ∧ s.rd d TRM_PORT.STATE = 2) ∧
    (∃ (s : State) (d : Nat), s.Live d ∧ s.rd d TRM_PORT.STATE = 0) ∧
    (∃ (s : State) (d : Nat), s.Live d) ∧
    (∃ (s : State) (d : Nat) (u : State) (h : List Byte), s.Live d ∧ fClass h ≠ 1 ∧ fClass h ≠ 2 ∧ u.rd d GLB_PHASE.PHASE ≠ 5) ∧
    (∃ (s : State) (d : Nat) (u : State) (h : List Byte), s.Live d ∧ fClass h ≠ 1 ∧ fClass h ≠ 2 ∧ u.rd d GLB_PHASE.PHASE = 5 ∧
      fBcast h = true) ∧
    (∃ (s : State) (d : Nat) (u : State) (h : List Byte), s.Live d ∧ fClass h ≠ 1 ∧ fClass h ≠ 2 ∧ u.rd d GLB_PHASE.PHASE = 5 ∧
      fBcast h = false ∧ fDst h % 4096 = u.ownId d) ∧
    (∃ (s : State) (d : Nat) (u : State) (h : List Byte), s.Live d ∧ fClass h ≠ 1 ∧ fClass h ≠ 2 ∧ u.rd d GLB_PHASE.PHASE = 5 ∧
      fBcast h = false ∧ fDst h % 4096 ≠ u.ownId d) ∧
    (∃ (s : State) (d : Nat), s.Live d ∧ (s.toNext (State.stepNo 15 0 0) 25000000).master = none) ∧
    (∃ (s : State) (d : Nat) (m : _), s.Live d ∧ (s.toNext (State.stepNo 15 0 0) 25000000).master = some m) ∧
    (∃ (s : State) (d : Nat) (id : _) (k : _), s.Live d ∧ ((s.getTrm d).known.find? fun x => x.id == id) = some k) ∧
    (∃ (s : State) (d : Nat) (id : _), s.Live d ∧ ((s.getTrm d).known.find? fun x => x.id == id) = none) :=
  ⟨⟨((State.reset.modPort 7 fun r => { r with gen2 := some 1 }).wr 7 TRM_PORT.STATE 1), 7, 1, by decide +kernel⟩,
  ⟨(State.reset.wr 6 TRM_PORT.STATE 2), 6, by decide +kernel⟩,
  ⟨(State.reset.wr 7 TRM_PORT.STATE 2), 7, by decide +kernel⟩,
  ⟨((State.reset.wr 7 GLB_PHASE.PHASE 1).modDie 7 fun r => { r with optOk := true }), 7, by decide +kernel⟩,
  ⟨State.reset, 7, by decide +kernel⟩,
  ⟨State.reset, 7, by decide +kernel⟩,
  ⟨(State.reset.wr 7 TRM_PORT.STATE 1), 7, by decide +kernel⟩,
  ⟨(State.reset.wr 7 TRM_PORT.STATE 2), 7, by decide +kernel⟩,
  ⟨State.reset, 7, by decide +kernel⟩,
  ⟨State.reset, 7, by decide +kernel⟩,
  ⟨(State.reset.wr 6 GLB_PHASE.PHASE 2), 6, State.reset, (List.replicate 32 0), by decide +kernel⟩,
  ⟨((State.reset.wr 6 GLB_PHASE.PHASE 5).wr 6 GLB_PHASE.PHASE 2), 6, (State.reset.wr 6 GLB_PHASE.PHASE 5),
    mkFrame 5 true 0 0 (List.replicate 28 0), by decide +kernel⟩,
  ⟨(State.reset.wr 7 GLB_PHASE.PHASE 5), 7, (State.reset.wr 7 GLB_PHASE.PHASE 5), [], by decide +kernel⟩,
  ⟨((State.reset.wr 6 GLB_PHASE.PHASE 5).wr 6 GLB_PHASE.PHASE 2), 6, (State.reset.wr 6 GLB_PHASE.PHASE 5),
    mkFrame 3 false 9 0 (List.replicate 24 0), by decide +kernel⟩,
  ⟨State.reset, 7, by decide +kernel⟩,
  ⟨(State.reset.wr 0 CLK_STAT.PTALIGNED 1), 7,
    (((((State.reset.wr 0 CLK_STAT.PTALIGNED 1)).toNext (State.stepNo 15 0 0) 25000000).master).get (by decide +kernel)), by decide +kernel⟩,
  ⟨(State.reset.modTrm 6 fun x =>
    { x with known := [{ id := 5, serial := 1, prio := 0, hops := 1, port := 7, seq := 0, at_ := 0 }] }), 6, 5,
    ((((((State.reset.modTrm 6 fun x =>
    { x with known := [{ id := 5, serial := 1, prio := 0, hops := 1, port := 7, seq := 0, at_ := 0 }] })).getTrm 6).known.find?
    fun x => x.id == 5)).get (by decide +kernel)), by decide +kernel⟩,
  ⟨State.reset, 7, 1, by decide +kernel⟩⟩

theorem witness_FabricTimeAndSharedAngles :
    (∃ (s : State) (d : Nat), s.Live d ∧ ((s.toNext (State.stepNo 16 d 0) 25000).rd d TRM_PORT.STATE ≠ 2 ∨ (s.toNext
      (State.stepNo 16 d 0) 25000).bit d TRM_IDSTAT.DUP = true)) ∧
    (∃ (s : State) (d : Nat), s.Live d ∧ (s.toNext (State.stepNo 16 d 0) 25000).rd d TRM_PORT.STATE = 2 ∧
      (s.toNext (State.stepNo 16 d 0) 25000).bit d TRM_IDSTAT.DUP = false) ∧
    (∃ (s : State) (d : Nat), s.Live d ∧ s.rd d TRM_PORT.STATE = 2) ∧
    (∃ (s : State) (d : Nat), s.Live d ∧ s.rd d TRM_PORT.STATE ≠ 2) ∧
    (∃ (s : State) (d : Nat) (f : List Byte) (u : State), s.Live d ∧
      ((u.getTrm d).t1 = none ∨ fNum (fPayload f) 2 2 ≠ (u.getTrm d).syncSeq)) ∧
    (∃ (s : State) (d : Nat) (f : List Byte) (frac : Nat) (u : State) (t1 : Nat), s.Live d ∧ (u.getTrm d).t1 = some t1 ∧
      fNum (fPayload f) 2 2 = (u.getTrm d).syncSeq ∧
      (((((stamp16 u frac : Int) - t1) - (((fNum (fPayload f) 12 8 : Nat) : Int) - (fNum (fPayload f) 4 8 : Nat))) * 25 : Int)
      < 0 ∨ 20000000 < ((((stamp16 u frac : Int) - t1) - (((fNum (fPayload f) 12 8 : Nat) : Int) - (fNum (fPayload f) 4 8 :
      Nat))) * 25 : Int))) ∧
    (∃ (s : State) (d : Nat) (f : List Byte) (frac : Nat) (u : State) (t1 : Nat), s.Live d ∧ (u.getTrm d).t1 = some t1 ∧
      fNum (fPayload f) 2 2 = (u.getTrm d).syncSeq ∧
      0 ≤ ((((stamp16 u frac : Int) - t1) - (((fNum (fPayload f) 12 8 : Nat) : Int) - (fNum (fPayload f) 4 8 : Nat))) * 25 :
      Int) ∧ ((((stamp16 u frac : Int) - t1) - (((fNum (fPayload f) 12 8 : Nat) : Int) - (fNum (fPayload f) 4 8 : Nat))) * 25 :
      Int) ≤ 20000000) ∧
    (∃ (s : State) (d : Nat), s.Live d ∧ ((s.getTrm d).ofs = none ∨ s.master = none ∨ (∃ m, s.master = some m ∧
      s.reach d m = false))) ∧
    (∃ (s : State) (d : Nat) (o : Int) (m : _), s.Live d ∧ (s.getTrm d).ofs = some o ∧ s.master = some m ∧ s.reach d m = true) ∧
    (∃ (s : State) (d : Nat), s.Live d ∧ (takeRx d (fun f => fClass f == 3) s).1 = none) ∧
    (∃ (s : State) (d : Nat) (x : _), s.Live d ∧ (takeRx d (fun f => fClass f == 3) s).1 = some x ∧
      ((match ((takeRx d (fun f => fClass f == 3) s).2.getChan d (fByte (fPayload x.bytes) 0 % 64)).accAt with | some t => decide ((takeRx d (fun f => fClass f == 3) s).2.pt ≤ t + (takeRx d (fun f => fClass f == 3) s).2.tout d) | none => false)) = true ∧ ¬ (1 ≤ (fNum (fPayload x.bytes) 2 2 + 65536 - ((takeRx d (fun f => fClass f == 3) s).2.getChan d (fByte (fPayload x.bytes) 0 % 64)).seq) % 65536 ∧ (fNum (fPayload x.bytes) 2 2 + 65536 - ((takeRx d (fun f => fClass f == 3) s).2.getChan d (fByte (fPayload x.bytes) 0 % 64)).seq) % 65536 ≤ 32767)) ∧
    (∃ (s : State) (d : Nat) (x : _), s.Live d ∧ (takeRx d (fun f => fClass f == 3) s).1 = some x ∧
      (((match ((takeRx d (fun f => fClass f == 3) s).2.getChan d (fByte (fPayload x.bytes) 0 % 64)).accAt with | some t => decide ((takeRx d (fun f => fClass f == 3) s).2.pt ≤ t + (takeRx d (fun f => fClass f == 3) s).2.tout d) | none => false)) = false ∨ (1 ≤ (fNum (fPayload x.bytes) 2 2 + 65536 - ((takeRx d (fun f => fClass f == 3) s).2.getChan d (fByte (fPayload x.bytes) 0 % 64)).seq) % 65536 ∧ (fNum (fPayload x.bytes) 2 2 + 65536 - ((takeRx d (fun f => fClass f == 3) s).2.getChan d (fByte (fPayload x.bytes) 0 % 64)).seq) % 65536 ≤ 32767)) ∧ ((takeRx d (fun f => fClass f == 3) s).2.bitAt d TRM_ARXMASK.MASK (fByte (fPayload x.bytes) 0 % 64)) = true ∧ ((if ((match ((takeRx d (fun f => fClass f == 3) s).2.getChan d (fByte (fPayload x.bytes) 0 % 64)).accAt with | some t => decide ((takeRx d (fun f => fClass f == 3) s).2.pt ≤ t + (takeRx d (fun f => fClass f == 3) s).2.tout d) | none => false)) = true then ((takeRx d (fun f => fClass f == 3) s).2.getChan d (fByte (fPayload x.bytes) 0 % 64)).node else none)) ≠ none ∧ ((if ((match ((takeRx d (fun f => fClass f == 3) s).2.getChan d (fByte (fPayload x.bytes) 0 % 64)).accAt with | some t => decide ((takeRx d (fun f => fClass f == 3) s).2.pt ≤ t + (takeRx d (fun f => fClass f == 3) s).2.tout d) | none => false)) = true then ((takeRx d (fun f => fClass f == 3) s).2.getChan d (fByte (fPayload x.bytes) 0 % 64)).node else none)) ≠ some (fSrc x.bytes)) ∧
    (∃ (s : State) (d : Nat) (x : _), s.Live d ∧ (takeRx d (fun f => fClass f == 3) s).1 = some x ∧
      (((match ((takeRx d (fun f => fClass f == 3) s).2.getChan d (fByte (fPayload x.bytes) 0 % 64)).accAt with | some t => decide ((takeRx d (fun f => fClass f == 3) s).2.pt ≤ t + (takeRx d (fun f => fClass f == 3) s).2.tout d) | none => false)) = false ∨ (1 ≤ (fNum (fPayload x.bytes) 2 2 + 65536 - ((takeRx d (fun f => fClass f == 3) s).2.getChan d (fByte (fPayload x.bytes) 0 % 64)).seq) % 65536 ∧ (fNum (fPayload x.bytes) 2 2 + 65536 - ((takeRx d (fun f => fClass f == 3) s).2.getChan d (fByte (fPayload x.bytes) 0 % 64)).seq) % 65536 ≤ 32767)) ∧ (((takeRx d (fun f => fClass f == 3) s).2.bitAt d TRM_ARXMASK.MASK (fByte (fPayload x.bytes) 0 % 64)) = false ∨ ((if ((match ((takeRx d (fun f => fClass f == 3) s).2.getChan d (fByte (fPayload x.bytes) 0 % 64)).accAt with | some t => decide ((takeRx d (fun f => fClass f == 3) s).2.pt ≤ t + (takeRx d (fun f => fClass f == 3) s).2.tout d) | none => false)) = true then ((takeRx d (fun f => fClass f == 3) s).2.getChan d (fByte (fPayload x.bytes) 0 % 64)).node else none)) = none ∨ ((if ((match ((takeRx d (fun f => fClass f == 3) s).2.getChan d (fByte (fPayload x.bytes) 0 % 64)).accAt with | some t => decide ((takeRx d (fun f => fClass f == 3) s).2.pt ≤ t + (takeRx d (fun f => fClass f == 3) s).2.tout d) | none => false)) = true then ((takeRx d (fun f => fClass f == 3) s).2.getChan d (fByte (fPayload x.bytes) 0 % 64)).node else none)) = some (fSrc x.bytes)) ∧ ((takeRx d (fun f => fClass f == 3) s).2.bitAt d TRM_ARXMASK.MASK (fByte (fPayload x.bytes) 0 % 64)) = false) ∧
    (∃ (s : State) (d : Nat) (x : _), s.Live d ∧ (takeRx d (fun f => fClass f == 3) s).1 = some x ∧
      (((match ((takeRx d (fun f => fClass f == 3) s).2.getChan d (fByte (fPayload x.bytes) 0 % 64)).accAt with | some t => decide ((takeRx d (fun f => fClass f == 3) s).2.pt ≤ t + (takeRx d (fun f => fClass f == 3) s).2.tout d) | none => false)) = false ∨ (1 ≤ (fNum (fPayload x.bytes) 2 2 + 65536 - ((takeRx d (fun f => fClass f == 3) s).2.getChan d (fByte (fPayload x.bytes) 0 % 64)).seq) % 65536 ∧ (fNum (fPayload x.bytes) 2 2 + 65536 - ((takeRx d (fun f => fClass f == 3) s).2.getChan d (fByte (fPayload x.bytes) 0 % 64)).seq) % 65536 ≤ 32767)) ∧ (((takeRx d (fun f => fClass f == 3) s).2.bitAt d TRM_ARXMASK.MASK (fByte (fPayload x.bytes) 0 % 64)) = false ∨ ((if ((match ((takeRx d (fun f => fClass f == 3) s).2.getChan d (fByte (fPayload x.bytes) 0 % 64)).accAt with | some t => decide ((takeRx d (fun f => fClass f == 3) s).2.pt ≤ t + (takeRx d (fun f => fClass f == 3) s).2.tout d) | none => false)) = true then ((takeRx d (fun f => fClass f == 3) s).2.getChan d (fByte (fPayload x.bytes) 0 % 64)).node else none)) = none ∨ ((if ((match ((takeRx d (fun f => fClass f == 3) s).2.getChan d (fByte (fPayload x.bytes) 0 % 64)).accAt with | some t => decide ((takeRx d (fun f => fClass f == 3) s).2.pt ≤ t + (takeRx d (fun f => fClass f == 3) s).2.tout d) | none => false)) = true then ((takeRx d (fun f => fClass f == 3) s).2.getChan d (fByte (fPayload x.bytes) 0 % 64)).node else none)) = some (fSrc x.bytes)) ∧ ((takeRx d (fun f => fClass f == 3) s).2.bitAt d TRM_ARXMASK.MASK (fByte (fPayload x.bytes) 0 % 64)) = true) ∧
    (∃ (s : State) (d : Nat) (c : _) (t : _), s.Live d ∧ c < 64 ∧ (s.getChan d c).keptAt = some t ∧
      s.bitAt d TRM_ARXVALID.VALID c = true) ∧
    (∃ (s : State) (d : Nat) (c : _), s.Live d ∧ c < 64 ∧
      ((s.getChan d c).keptAt = none ∨ s.bitAt d TRM_ARXVALID.VALID c = false)) :=
  ⟨⟨State.reset, 7, by decide +kernel⟩,
  ⟨(State.reset.wr 7 TRM_PORT.STATE 2), 7, by decide +kernel⟩,
  ⟨(State.reset.wr 7 TRM_PORT.STATE 2), 7, by decide +kernel⟩,
  ⟨State.reset, 7, by decide +kernel⟩,
  ⟨State.reset, 6, (List.replicate 32 0), State.reset, by decide +kernel⟩,
  ⟨(State.reset.modTrm 6 fun x => { x with t1 := some 100000000000, syncSeq := 0 }), 6,
    mkFrame 2 false 0 0 (List.replicate 24 0), 0,
    (State.reset.modTrm 6 fun x => { x with t1 := some 100000000000, syncSeq := 0 }),
    (((((State.reset.modTrm 6 fun x => { x with t1 := some 100000000000, syncSeq := 0 })).getTrm 6).t1).get (by decide +kernel)), by decide +kernel⟩,
  ⟨(State.reset.modTrm 6 fun x => { x with t1 := some 0, syncSeq := 0 }), 6, mkFrame 2 false 0 0 (List.replicate 24 0), 0,
    (State.reset.modTrm 6 fun x => { x with t1 := some 0, syncSeq := 0 }),
    (((((State.reset.modTrm 6 fun x => { x with t1 := some 0, syncSeq := 0 })).getTrm 6).t1).get (by decide +kernel)), by decide +kernel⟩,
  ⟨State.reset, 6, by decide +kernel,
    Or.inl ((by decide +kernel))⟩,
  ⟨((State.reset.wr 0 CLK_STAT.PTALIGNED 1).modTrm 0 fun x => { x with ofs := some 5 }), 0,
    ((((((State.reset.wr 0 CLK_STAT.PTALIGNED 1).modTrm 0 fun x => { x with ofs := some 5 })).getTrm 0).ofs).get
    (by decide +kernel)), (((((State.reset.wr 0 CLK_STAT.PTALIGNED 1).modTrm 0 fun x => { x with ofs := some 5 })).master).get
    (by decide +kernel)), by decide +kernel⟩,
  ⟨State.reset, 7, by decide +kernel⟩,
  ⟨(((((State.reset.got 7 (mkFrame 3 false 0 0 (List.replicate 24 0))).modChan 7 0 fun x => { x with accAt := some 0 }).wrBit 7
    TRM_ARXVALID.VALID 0 true).wr 7 TRM_ARXVALID.VALID 255).wr 7 TRM_ARXVALID.VALID 1), 7,
    (((takeRx 7 (fun f => fClass f == 3) ((((((State.reset.got 7 (mkFrame 3 false 0 0 (List.replicate 24 0))).modChan 7 0 fun x
    => { x with accAt := some 0 }).wrBit 7 TRM_ARXVALID.VALID 0 true).wr 7 TRM_ARXVALID.VALID 255).wr 7 TRM_ARXVALID.VALID
    1))).1).get (by decide +kernel)), by decide +kernel⟩,
  ⟨(((((((State.reset.got 0 (mkFrame 3 false 0 0 (List.replicate 24 0))).wrBit 0 TRM_ARXMASK.MASK 0 true).modChan 0 0 fun x =>
    { x with accAt := some 0 }).wrBit 0 TRM_ARXVALID.VALID 0 true).wr 0 TRM_ARXVALID.VALID 255).wr 0 TRM_ARXVALID.VALID
    1).modChan 0 0 fun x => { x with accAt := some 0, node := some 5, seq := 65535 }), 0,
    (((takeRx 0 (fun f => fClass f == 3) ((((((((State.reset.got 0 (mkFrame 3 false 0 0 (List.replicate 24 0))).wrBit 0
    TRM_ARXMASK.MASK 0 true).modChan 0 0 fun x => { x with accAt := some 0 }).wrBit 0 TRM_ARXVALID.VALID 0 true).wr 0
    TRM_ARXVALID.VALID 255).wr 0 TRM_ARXVALID.VALID 1).modChan 0 0 fun x =>
    { x with accAt := some 0, node := some 5, seq := 65535 }))).1).get (by decide +kernel)), by decide +kernel⟩,
  ⟨(State.reset.got 6 (mkFrame 3 false 0 0 (List.replicate 24 0))), 6,
    (((takeRx 6 (fun f => fClass f == 3) ((State.reset.got 6 (mkFrame 3 false 0 0 (List.replicate 24 0))))).1).get
    (by decide +kernel)), by decide +kernel⟩,
  ⟨((((State.reset.got 6 (mkFrame 3 false 0 0 (List.replicate 24 0))).wrBit 6 TRM_ARXMASK.MASK 0 true).modChan 6 0 fun x =>
    { x with accAt := some 0, node := some 5, seq := 65535 }).modChan 6 0 fun x =>
    { x with accAt := some 0, node := none, seq := 65535 }), 6,
    (((takeRx 6 (fun f => fClass f == 3) (((((State.reset.got 6 (mkFrame 3 false 0 0 (List.replicate 24 0))).wrBit 6
    TRM_ARXMASK.MASK 0 true).modChan 6 0 fun x => { x with accAt := some 0, node := some 5, seq := 65535 }).modChan 6 0 fun x
    => { x with accAt := some 0, node := none, seq := 65535 }))).1).get (by decide +kernel)), by decide +kernel⟩,
  ⟨((State.reset.modChan 6 7 fun x => { x with keptAt := some 5000 }).wrBit 6 TRM_ARXVALID.VALID 7 true), 6, 7,
    ((((((State.reset.modChan 6 7 fun x => { x with keptAt := some 5000 }).wrBit 6 TRM_ARXVALID.VALID 7 true)).getChan 6
    7).keptAt).get (by decide +kernel)), by decide +kernel⟩,
  ⟨State.reset, 6, 7, by decide +kernel, by decide +kernel,
    Or.inl ((by decide +kernel))⟩⟩

theorem witness_MailboxesAndAccessFrames :
    (∃ (s : State) (d : Nat), s.Live d ∧ (takeRx d (fun f => fClass f == 5) s).1 = none) ∧
    (∃ (s : State) (d : Nat), s.Live d ∧ (takeRx d (fun b => fClass b == 6 && (accOp b < 128 && !(2 ≤ accOp b && accOp b ≤ 5)))
      s).1 = none) ∧
    (∃ (s : State) (d : Nat), s.Live d ∧ (takeRx d (fun b => fClass b == 6 && accOp b == 2) s).1 = none) ∧
    (∃ (s : State) (d : Nat), s.Live d ∧ (takeRx d (fun b => fClass b == 6 && accOp b == 3) s).1 = none) ∧
    (∃ (s : State) (d : Nat), s.Live d ∧ (takeRx d (fun b => fClass b == 6 && accOp b == 4) s).1 = none) ∧
    (∃ (s : State) (d : Nat), s.Live d ∧ (takeRx d (fun f => fClass f == 6 && accOp f == 5) s).1 = none) ∧
    (∃ (s : State) (d : Nat), s.Live d ∧ (takeRx d (fun f => fClass f == 6 && decide (128 ≤ accOp f)) s).1 = none) ∧
    (∃ (s : State) (d : Nat) (x : _), s.Live d ∧ (takeRx d (fun f => fClass f == 5) s).1 = some x) ∧
    (∃ (s : State) (d : Nat) (x : _), s.Live d ∧
      (takeRx d (fun b => fClass b == 6 && (accOp b < 128 && !(2 ≤ accOp b && accOp b ≤ 5))) s).1 = some x) ∧
    (∃ (s : State) (d : Nat) (x : _), s.Live d ∧ (takeRx d (fun b => fClass b == 6 && accOp b == 2) s).1 = some x) ∧
    (∃ (s : State) (d : Nat) (x : _), s.Live d ∧ (takeRx d (fun b => fClass b == 6 && accOp b == 3) s).1 = some x) ∧
    (∃ (s : State) (d : Nat) (x : _), s.Live d ∧ (takeRx d (fun b => fClass b == 6 && accOp b == 4) s).1 = some x) ∧
    (∃ (s : State) (d : Nat) (x : _), s.Live d ∧ (takeRx d (fun f => fClass f == 6 && accOp f == 5) s).1 = some x) ∧
    (∃ (s : State) (d : Nat) (x : _), s.Live d ∧ (takeRx d (fun f => fClass f == 6 && decide (128 ≤ accOp f)) s).1 = some x) ∧
    (∃ (s : State) (d : Nat), s.Live d ∧ s.bit d TRM_MBOX.BUSY = false ∧
      classLen (fClass (((List.range 64).flatMap fun i => leBytes (s.rd d TRM_TXBUF.DATA i) 4))) (fNum (((List.range
      64).flatMap fun i => leBytes (s.rd d TRM_TXBUF.DATA i) 4)) 6 2) = true) ∧
    (∃ (s : State) (d : Nat), s.Live d ∧ s.bit d TRM_MBOX.BUSY = false ∧
      classLen (fClass (((List.range 64).flatMap fun i => leBytes (s.rd d TRM_TXBUF.DATA i) 4))) (fNum (((List.range
      64).flatMap fun i => leBytes (s.rd d TRM_TXBUF.DATA i) 4)) 6 2) = false) ∧
    (∃ (s : State) (d : Nat), s.Live d ∧ s.bit d TRM_MBOX.BUSY = true) :=
  ⟨⟨State.reset, 7, by decide +kernel⟩,
  ⟨State.reset, 7, by decide +kernel⟩,
  ⟨State.reset, 7, by decide +kernel⟩,
  ⟨State.reset, 7, by decide +kernel⟩,
  ⟨State.reset, 7, by decide +kernel⟩,
  ⟨State.reset, 7, by decide +kernel⟩,
  ⟨State.reset, 7, by decide +kernel⟩,
  ⟨(State.reset.got 6 (mkFrame 5 false 0 0 (List.replicate 28 0))), 6,
    (((takeRx 6 (fun f => fClass f == 5) ((State.reset.got 6 (mkFrame 5 false 0 0 (List.replicate 28 0))))).1).get
    (by decide +kernel)), by decide +kernel⟩,
  ⟨(State.reset.got 6 (mkFrame 6 false 0 0 (1 :: 0 :: 0 :: 32 :: List.replicate 4 0))), 6,
    (((takeRx 6 (fun b => fClass b == 6 && (accOp b < 128 && !(2 ≤ accOp b && accOp b ≤ 5))) ((State.reset.got 6 (mkFrame 6
    false 0 0 (1 :: 0 :: 0 :: 32 :: List.replicate 4 0))))).1).get (by decide +kernel)), by decide +kernel⟩,
  ⟨(State.reset.got 6 (mkFrame 6 false 0 0 (2 :: 0 :: 0 :: 1 :: List.replicate 8 0))), 6,
    (((takeRx 6 (fun b => fClass b == 6 && accOp b == 2) ((State.reset.got 6 (mkFrame 6 false 0 0 (2 :: 0 :: 0 :: 1 ::
    List.replicate 8 0))))).1).get (by decide +kernel)), by decide +kernel⟩,
  ⟨(State.reset.got 6 (mkFrame 6 false 0 0 (3 :: 0 :: 0 :: 1 :: List.replicate 12 0))), 6,
    (((takeRx 6 (fun b => fClass b == 6 && accOp b == 3) ((State.reset.got 6 (mkFrame 6 false 0 0 (3 :: 0 :: 0 :: 1 ::
    List.replicate 12 0))))).1).get (by decide +kernel)), by decide +kernel⟩,
  ⟨(State.reset.got 6 (mkFrame 6 false 0 0 (4 :: 0 :: 0 :: 0 :: List.replicate 36 0))), 6,
    (((takeRx 6 (fun b => fClass b == 6 && accOp b == 4) ((State.reset.got 6 (mkFrame 6 false 0 0 (4 :: 0 :: 0 :: 0 ::
    List.replicate 36 0))))).1).get (by decide +kernel)), by decide +kernel⟩,
  ⟨(State.reset.got 6 (mkFrame 6 false 0 0 (5 :: 0 :: 0 :: 0 :: List.replicate 4 0))), 6,
    (((takeRx 6 (fun f => fClass f == 6 && accOp f == 5) ((State.reset.got 6 (mkFrame 6 false 0 0 (5 :: 0 :: 0 :: 0 ::
    List.replicate 4 0))))).1).get (by decide +kernel)), by decide +kernel⟩,
  ⟨(State.reset.got 6 (mkFrame 6 false 0 0 (128 :: 0 :: 0 :: 0 :: List.replicate 4 0))), 6,
    (((takeRx 6 (fun f => fClass f == 6 && decide (128 ≤ accOp f)) ((State.reset.got 6 (mkFrame 6 false 0 0 (128 :: 0 :: 0 ::
    0 :: List.replicate 4 0))))).1).get (by decide +kernel)), by decide +kernel⟩,
  ⟨(((State.reset.wr 7 TRM_TXBUF.DATA 5 0).wr 7 TRM_TXBUF.DATA 0x280000 1).wr 7 TRM_MBOX.BUSY 0), 7, by decide +kernel⟩,
  ⟨State.reset, 7, by decide +kernel⟩,
  ⟨(State.reset.wr 7 TRM_MBOX.BUSY 1), 7, by decide +kernel⟩⟩

theorem witness_StepRunsTheFrontCommand :
    (∃ (s : State) (c : Instr) (q : List Instr), s.pending = c :: q) ∧
    (∃ (s : State), s.pending = []) :=
  ⟨⟨{ State.reset with  pending := [.filSyncGo 7]  }, .filSyncGo 7, [], by decide +kernel⟩,
  ⟨State.reset, by decide +kernel⟩⟩

theorem witness_EveryStepKeepsTheInvariant : ∃ (s t : State), s.Inv ∧ step s = .next t :=
  ⟨State.reset, _,
    by unfold State.Inv; decide +kernel,
    rfl⟩

theorem witness_TheMachineAfterResetIsLegal : ∃ (d : _), d < 8 :=
  ⟨7, by decide +kernel⟩

theorem witness_CommandsOfTheMemberComplete : ∃ (c : Instr) (s : State), s.dies = 8 ∧ c.wf = true :=
  ⟨.filSyncGo 7, State.reset, by decide +kernel⟩

theorem witness_CommandsChangeOnlyTheirMemories : ∃ (c : Instr) (s t : State) (k : Mem), exec c s = .next t ∧ k ∉ storesOf c :=
  ⟨.filSyncGo 7, State.reset, _, .dram,
    rfl, by decide +kernel⟩

theorem witness_TimeMemberAndQueueOfACommand : ∃ (c : Instr) (s t : State), exec c s = .next t :=
  ⟨.filSyncGo 7, State.reset, _,
    rfl⟩

theorem witness_DramReadsBackWhatWasWritten :
    (∃ (s : State), s.dramSrv = none) ∧
    (∃ (s : State) (c a : Nat), s.dramSrv = some c ∧ c < 2 ∧ s.dramCap c ≤ 2 ^ 35 ∧ a < 2 ^ 35) :=
  ⟨⟨State.reset, by decide +kernel⟩,
  ⟨{ ((((((State.reset.modMem 1 fun r => { r with size := 1 }).modMem 0 fun r => { r with size := 1 }).wr 0 MEM_CTRL.MIRROR 1).wr 1 MEM_CTRL.MIRROR 1).wr 0 MEM_STAT.UP 1).wr 1 MEM_STAT.UP 1) with  dramSrv := some 1  }, 1, 2 ^ 30 - 1, by decide +kernel⟩⟩

theorem witness_AccessesThatDoNotTakePlace : ∃ (s : State) (m f a size e r : Nat), s.Live f ∧ m < 7 ∧ a < 0x10000000 ∧
  ((s.dies ≤ a / dieSpan ∧ e = f ∧ r = 1) ∨ (a / dieSpan < s.dies ∧ s.reach f (a / dieSpan) = true ∧ (size ≠ 4 ∨ a % 4 ≠ 0) ∧
  e = a / dieSpan ∧ r = 3)) :=
  ⟨State.reset, 6, 7, 0xFFFFFFE, 4, 7, 3, by decide +kernel, by decide +kernel, by decide +kernel, by decide +kernel⟩

theorem witness_ADieInResetTakesNoStep :
    (∃ (c : Instr) (s : State) (d : Nat), dieOf c = some d ∧ c.wf = true ∧ s.hasDie d = true ∧ (s.getDie d).inReset = true) ∧
    (∃ (c : Instr) (s : State) (d : Nat), dieOf c = some d ∧ c.wf = true ∧ s.hasDie d = false) :=
  ⟨⟨.filSyncGo 7, (State.reset.modDie 7 fun x => { x with inReset := true }), 7, by decide +kernel⟩,
  ⟨.filSyncGo 7, { State.reset with  dies := 4  }, 7, by decide +kernel⟩⟩

theorem witness_AMateResetOfTheActiveDieIsRefused :
    (∃ (s : State) (d : Nat) (v : Word), s.Live d ∧ bitOf (BitVec.ofNat 32 (putBit v.toNat 1 true) : Word).toNat 1 = true ∧
      bitOf (BitVec.ofNat 32 (putBit v.toNat 1 true) : Word).toNat 0 = false ∧
      bitsOf (BitVec.ofNat 32 (putBit v.toNat 1 true) : Word).toNat 8 8 = 0xA5 ∧ s.divided d = false ∧
      (s.rd (mateOf d : Nat) PAIR_STAT.ROLE = 1 ∨ s.rd (mateOf d : Nat) PAIR_STAT.ROLE = 4) ∧
      (s.rd d PAIR_STAT.ROLE = 2 ∨ s.rd d PAIR_STAT.ROLE = 3) ∧ s.bit d PAIR_STAT.SEIZING = false) ∧
    (∃ (s : State) (d : Nat) (v : Word), s.Live d ∧ bitOf (BitVec.ofNat 32 (putBit v.toNat 1 true) : Word).toNat 1 = true ∧
      bitOf (BitVec.ofNat 32 (putBit v.toNat 1 true) : Word).toNat 0 = false ∧
      bitsOf (BitVec.ofNat 32 (putBit v.toNat 1 true) : Word).toNat 8 8 = 0xA5 ∧ s.divided d = false ∧
      (s.rd (mateOf d : Nat) PAIR_STAT.ROLE = 1 ∨ s.rd (mateOf d : Nat) PAIR_STAT.ROLE = 4) ∧
      (s.rd d PAIR_STAT.ROLE = 2 ∨ s.rd d PAIR_STAT.ROLE = 3) ∧ s.bit d PAIR_STAT.SEIZING = true) ∧
    (∃ (s : State) (d : Nat) (v : Word), s.Live d ∧ bitOf (BitVec.ofNat 32 (putBit v.toNat 1 true) : Word).toNat 1 = true ∧
      bitOf (BitVec.ofNat 32 (putBit v.toNat 1 true) : Word).toNat 0 = false ∧
      bitsOf (BitVec.ofNat 32 (putBit v.toNat 1 true) : Word).toNat 8 8 = 0xA5 ∧ s.divided d = true) :=
  ⟨⟨(((State.reset.wr (mateOf 7) PAIR_STAT.ROLE 4).wr 7 PAIR_STAT.ROLE 3).wr (mateOf 7 : Nat) PAIR_STAT.ROLE 1), 7, 0xA500, by decide +kernel⟩,
  ⟨(((((State.reset.wr (mateOf 7) PAIR_STAT.ROLE 4).wr 7 PAIR_STAT.ROLE 3).wr (mateOf 7 : Nat) PAIR_STAT.ROLE 1).wr 7
    PAIR_STAT.ROLE 2).wr 7 PAIR_STAT.SEIZING 1), 7, 0xA500, by decide +kernel⟩,
  ⟨(State.reset.wr 1 GLB_ID.PAIRMODE 1), 1, 0xA500, by decide +kernel⟩⟩

end Sys2Proof.Machine
end

section
/-!
The outcome of a command and of a step: what `onItem` answers, and what a step does with the queue.
-/

namespace Sys2Proof.Machine

@[simp] theorem State.commit_self (s : State) : s.commit s = s := rfl

/-- An effect that keeps the member, the grade and the queue is what the command leaves. -/
theorem Moves.commit_eq {w : Mem → Bool} {s t : State} (h : Moves w s t) : s.commit t = t := by
  obtain ⟨hdies, hgrade, hpending, -, -, -⟩ := h
  simp only [State.commit, ← hdies, ← hgrade, ← hpending]

/-- Whatever keeps member, grade, queue and canonical tables keeps the invariant. -/
theorem Moves.inv {w : Mem → Bool} {s t : State} (h : Moves w s t) (hs : s.Inv) : t.Inv := by
  obtain ⟨hdies, hgrade, hpending, hcanon⟩ := hs
  exact ⟨h.dies ▸ hdies, h.grade ▸ hgrade, h.pending ▸ hpending, h.canon hcanon⟩

/-- A legal machine stays legal when its front command is taken from the queue. -/
theorem State.Inv.tail {s : State} {c : Instr} {q : List Instr} (h : s.Inv) (hq : s.pending = c :: q) :
    ({ s with pending := q } : State).Inv := by
  obtain ⟨hdies, hgrade, hpending, hcanon⟩ := h
  exact ⟨hdies, hgrade, fun x hx => hpending x (hq ▸ List.mem_cons_of_mem c hx), hcanon⟩

theorem step_of_pending_nil {s : State} (h : s.pending = []) : step s = .next (s.pass 1) := by
  unfold step
  split
  · rfl
  · next hq => rw [h] at hq; cases hq

theorem step_of_pending_cons {s : State} {c : Instr} {q : List Instr} (h : s.pending = c :: q) :
    step s = exec c { s with pending := q } := by
  unfold step
  split
  · next hq => rw [h] at hq; cases hq
  · next hq => rw [h] at hq; cases hq; rfl

/-- Every die's count advances by one with the tick (R44, R45). -/
theorem State.ptD_pass_one (s : State) (d : Nat) : (s.pass 1).ptD d = (s.ptD d + 1) % 2 ^ 64 := by
  simp only [State.ptD, State.pass, State.getDie, enc]
  generalize (s.die.get d {}).ptOff = o
  omega

theorem onItem_next {ok : Bool} {s : State} {f : State → State} (h : ok = true) : onItem ok s f = .next (s.commit (f s)) := if_pos h

theorem onItem_missing {ok : Bool} {s : State} {f : State → State} (h : ok = false) : onItem ok s f = .fault .noSuchItem := by
  subst h; rfl

theorem onItem_notRefused (ok : Bool) (s : State) (f : State → State) :
    (∃ t, onItem ok s f = .next t) ∨ onItem ok s f = .fault .noSuchItem := by
  cases ok with
  | true => exact .inl ⟨_, rfl⟩
  | false => exact .inr rfl

/-- An event of a die out of reset has its effect. -/
theorem onItem_live {s : State} {d : Nat} {ok : Bool} {f : State → State} (hr : (s.getDie d).inReset = false) (hok : ok = true) :
    onItem ok s (fun u => if (u.getDie d).inReset then u else f u) = .next (s.commit (f s)) := by
  rw [onItem_next hok, if_neg (by simp [hr])]

theorem onLive_live {s : State} {d : Nat} {f : State → State} (hl : s.Live d) : onLive d s f = .next (s.commit (f s)) :=
  onItem_live hl.2 hl.1

theorem onAxis_live {s : State} {d n : Nat} {f : State → State} (hl : s.Live d) (hn : n < 8) :
    onAxis d n s f = .next (s.commit (f s)) :=
  onItem_live hl.2 (by simp [hl.1, hn])

theorem onPart_live {s : State} {d k cnt : Nat} {f : State → State} (hl : s.Live d) (hk : k < cnt) :
    onPart d k cnt s f = .next (s.commit (f s)) :=
  onItem_live hl.2 (by simp [hl.1, hk])

end Sys2Proof.Machine
end

section
/-!
What each command does to a state at most: the laws of its effect, carried to its outcome.
-/

namespace Sys2Proof.Machine

/-- A command that completes keeps the member, the grade, the queue and the canonical tables, does not turn time back, and changes no
memory but those that `storesOf` names. -/
theorem exec_moves {c : Instr} {s t : State} (h : exec c s = .next t) : Moves (fun k => decide (k ∈ storesOf c)) s t := by
  cases c with
  | registerWrite _ _ p =>
    cases p with
    | bar =>
      exact onItem_moves (fun _ hu => Moves.ite (busWrite_moves _ _ _ _ _ hu rfl rfl rfl rfl rfl rfl rfl)
        (busRead_moves _ _ _ _ _ hu rfl)) h
    | csr => exact onItem_moves (fun _ hu => csrAccess_moves _ _ _ _ _ hu rfl) h
  | forwardedWrite => exact onLive_moves (fun _ hu => forwardedApply_moves _ hu rfl rfl rfl rfl rfl rfl rfl) h
  | spineLinkFail => exact onItem_moves (fun _ hu => spineLink_moves _ _ hu) h
  | spineLinkReturn => exact onItem_moves (fun _ hu => spineLink_moves _ _ hu) h
  | clockMonitorWindow => exact onLive_moves (fun _ hu => clockWindow_moves _ _ _ hu) h
  | refclkReturn => exact onLive_moves (fun _ hu => refclkReturn_moves _ hu) h
  | rootRelockComplete => exact onLive_moves (fun _ hu => rootRelocked_moves _ hu) h
  | holdoverTimeout => exact onLive_moves (fun _ hu => holdoverTimeout_moves _ hu) h
  | spineTimeExchange => exact onLive_moves (fun _ hu => Moves.ite (spineTime_moves _ _ hu) hu) h
  | convertStrobe => exact onPackage_moves (fun _ hu => convertStrobe_moves _ hu) h
  | slewTick => exact onPackage_moves (fun _ hu => slewTick_moves hu) h
  | clkDostep => exact onLive_moves (fun _ hu => ptAdjWrite_moves _ _ hu) h
  | ptStepTick => exact onPackage_moves (fun _ hu => ptStepTick_moves hu rfl) h
  | clkPtadjSlewWrite => exact onLive_moves (fun _ hu => ptAdjWrite_moves _ _ hu) h
  | powerOnReset => exact onDie_moves (fun _ hu => enterReset_moves _ _ hu rfl rfl rfl rfl rfl rfl) h
  | rstnReset => exact onPackage_moves (fun _ hu => rstnReset_moves hu rfl rfl rfl rfl rfl rfl) h
  | watchdogExpiry d =>
    refine onDie_moves (fun u hu => Moves.ite ?_ (watchdogExpiry_moves _ hu rfl rfl rfl rfl rfl rfl)) h
    cases (u.getDie d).wdtEnd with
    | none => exact hu
    | some p => exact Moves.ite (coincides_moves _ _ hu) hu
  | glbSwrstSelf =>
    exact onDie_moves (fun _ hu => Moves.ite (Moves.ite (coincides_moves _ _ hu) hu)
      (swrstWrite_moves _ _ _ hu rfl rfl rfl rfl rfl rfl)) h
  | glbSwrstMate => exact onLive_moves (fun _ hu => swrstWrite_moves _ _ _ hu rfl rfl rfl rfl rfl rfl) h
  | resetExit => exact onDie_moves (fun _ hu => resetExit_moves _ _ _ hu) h
  | ptRealign => exact onLive_moves (fun _ hu => ptAlign_moves _ hu) h
  | pciePerst => exact onItem_moves (fun _ hu => Moves.ite hu (functionLost_moves _ _ hu)) h
  | rootPllLock => exact onLive_moves (fun _ hu => rootPllLock_moves _ hu) h
  | rootLockRetry => exact onLive_moves (fun _ hu => rootRetry_moves _ hu) h
  | optionAreaLoad => exact onLive_moves (fun _ hu => optionLoad_moves _ _ _ _ hu) h
  | spineTrained => exact onLive_moves (fun _ hu => spineTrained_moves _ hu) h
  | readingCopyStart => exact onLive_moves (fun _ hu => readingCopyStart_moves _ hu) h
  | phase3Step => exact onLive_moves (fun _ hu => phase3Step_moves _ hu) h
  | rcTrackerUpdate => exact onLive_moves (fun _ hu => rcUpdate_moves _ hu) h
  | measuredStartComplete => exact onLive_moves (fun _ hu => measuredStart_moves _ hu) h
  | baseImageApply => exact onLive_moves (fun _ hu => baseImageApply_moves _ hu rfl rfl rfl rfl rfl rfl rfl) h
  | fullServiceEntry => exact onPackage_moves (fun _ hu => fullServiceEntry_moves hu) h
  | watchdogEnable => exact onLive_moves (fun _ hu => wdtWrite_moves _ _ hu) h
  | watchdogKick => exact onLive_moves (fun _ hu => wdtWrite_moves _ _ hu) h
  | excWrite =>
    exact onItem_moves (fun _ hu => Moves.ite hu (axisWrite_moves _ _ _ (fun _ _ hv => excWrite_moves _ _ _ _ _ hv) hu)) h
  | excApplyBoundary => exact onPackage_moves (fun _ hu => excApplyBoundary_moves hu) h
  | excOverloadOnset => exact onAxis_moves (fun _ hu => excOverloadOnset_moves _ _ hu) h
  | excOverloadTimeout => exact onAxis_moves (fun _ hu => excOverloadTimeout_moves _ _ hu) h
  | carrierPeriodEnd => exact onAxis_moves (fun _ hu => carrierPeriodEnd_moves _ _ hu) h
  | inputClip => exact onAxis_moves (fun _ hu => inputClip_moves _ _ hu) h
  | pilotAcqTimeout => exact onAxis_moves (fun _ hu => pilotAcqTimeout_moves _ _ hu) h
  | pilotAmplitudeLoss => exact onAxis_moves (fun _ hu => pilotAmplitudeLoss_moves _ _ hu) h
  | trackerUpdate => exact onAxis_moves (fun _ hu => trackerUpdate_moves _ _ _ hu) h
  | trackLockQualified => exact onAxis_moves (fun _ hu => trackLockQualified_moves _ _ hu) h
  | trackOverspeed => exact onAxis_moves (fun _ hu => trackOverspeed_moves _ _ hu) h
  | amplitudeWindowLoss => exact onAxis_moves (fun _ hu => amplitudeWindowLoss_moves _ _ hu) h
  | freezeLoss => exact onAxis_moves (fun _ hu => freezeLoss_moves _ _ hu) h
  | pilotJumpLoss => exact onAxis_moves (fun _ hu => pilotJumpLoss_moves _ _ hu) h
  | coastExpiry => exact onAxis_moves (fun _ hu => coastExpiry_moves _ _ hu) h
  | acquisitionComplete => exact onAxis_moves (fun _ hu => acquisitionComplete_moves _ _ hu) h
  | coastResume => exact onAxis_moves (fun _ hu => coastResume_moves _ _ hu) h
  | trkCtrlWrite => exact onAxis_moves (fun _ hu => axisWrite_moves _ _ _ (fun _ _ hv => trkCtrlWrite_moves _ _ _ _ hv) hu) h
  | trkCtrlApply => exact onAxis_moves (fun _ hu => trkCtrlApply_moves _ _ hu) h
  | trkSectorWrite => exact onAxis_moves (fun _ hu => axisWrite_moves _ _ _ (fun _ _ hv => trkSectorWrite_moves _ _ _ hv) hu) h
  | trkXreq => exact onAxis_moves (fun _ hu => axisWrite_moves _ _ _ (fun _ _ hv => trkXreq_moves _ _ _ hv) hu) h
  | trkRearm => exact onAxis_moves (fun _ hu => axisWrite_moves _ _ _ (fun _ _ hv => trkRearm_moves _ _ hv) hu) h
  | trkAngRead =>
    exact onAxis_moves (fun _ hu => Moves.ite (trkAngRead_moves _ _ hu) (State.accessFault_moves _ _ _ _ _ _
      (State.answer_moves _ (State.drew_moves hu)))) h
  | tableIndexWrap => exact onPart_moves (fun _ hu => Moves.ite (tableIndexWrap_moves _ _ _ hu) hu) h
  | tblLoad => exact onPart_moves (fun _ hu => tblCmd_moves _ _ _ _ _ _ hu) h
  | tblStore => exact onPart_moves (fun _ hu => tblCmd_moves _ _ _ _ _ _ hu) h
  | tblMap => exact onItem_moves (fun _ hu => Moves.ite hu (tblCmd_moves _ _ _ _ _ _ hu)) h
  | tblUnmap => exact onItem_moves (fun _ hu => Moves.ite hu (tblCmd_moves _ _ _ _ _ _ hu)) h
  | tblCancel => exact onItem_moves (fun _ hu => Moves.ite hu (tblCmd_moves _ _ _ _ _ _ hu)) h
  | tblFree => exact onPart_moves (fun _ hu => tblCmd_moves _ _ _ _ _ _ hu) h
  | tblAlloc => exact onPart_moves (fun _ hu => tblCmd_moves _ _ _ _ _ _ hu) h
  | tblCmdBadCode => exact onLive_moves (fun _ hu => Moves.ite (tblCmd_moves _ _ _ _ _ _ hu) hu) h
  | tblCmdComplete => exact onLive_moves (fun _ hu => tblCmdComplete_moves _ _ hu rfl) h
  | tblDescWrite =>
    exact onItem_moves (fun _ hu => Moves.ite hu (axisWrite_moves _ _ _ (fun _ _ hv => tblDescWrite_moves _ _ _ _ hv) hu)) h
  | carrelWindowAccess =>
    exact onItem_moves (fun _ hu => Moves.ite hu (Moves.ite (State.accessFault_moves _ _ _ _ _ _
      (State.answer_moves _ hu)) (Moves.ite (carrelWrite_moves _ _ _ _ hu) (carrelRead_moves _ _ _ hu)))) h
  | emuOverrate => exact onAxis_moves (fun _ hu => emuOverrate_moves _ _ hu) h
  | emuRebase => exact onAxis_moves (fun _ hu => emuRebase_moves _ _ hu) h
  | emuPassthroughChange => exact onAxis_moves (fun _ hu => emuPassthroughChange_moves _ _ hu) h
  | encEdgeAccept => exact onAxis_moves (fun _ hu => encEdgeAccept_moves _ _ _ _ _ _ hu) h
  | encWireDisagree => exact onAxis_moves (fun _ hu => encWireDisagree_moves _ _ _ _ hu) h
  | encIndex => exact onAxis_moves (fun _ hu => encIndex_moves _ _ _ hu) h
  | probeEdge => exact onAxis_moves (fun _ hu => probeEdge_moves _ _ _ _ hu) h
  | encRawWrite => exact onAxis_moves (fun _ hu => axisWrite_moves _ _ _ (fun _ _ hv => encRawWrite_moves _ _ _ hv) hu) h
  | encIdxWrite => exact onAxis_moves (fun _ hu => axisWrite_moves _ _ _ (fun _ _ hv => encIdxWrite_moves _ _ _ hv) hu) h
  | encIdxArm => exact onAxis_moves (fun _ hu => axisWrite_moves _ _ _ (fun _ _ hv => encIdxArm_moves _ _ hv) hu) h
  | prbStatWrite => exact onAxis_moves (fun _ hu => axisWrite_moves _ _ _ (fun _ _ hv => prbStatWrite_moves _ _ hv) hu) h
  | encSpeedWindowEnd => exact onAxis_moves (fun _ hu => encSpeedWindowEnd_moves _ _ hu) h
  | encStopTimeout => exact onAxis_moves (fun _ hu => encStopTimeout_moves _ _ hu) h
  | acqMuxWrite =>
    exact onItem_moves (fun _ hu => Moves.ite hu (axisWrite_moves _ _ _ (fun _ _ hv => acqMuxWrite_moves _ _ _ _ hv) hu)) h
  | filSlotRestart => exact onPart_moves (fun _ hu => filSlotRestart_moves _ _ hu) h
  | comparatorAssert => exact onItem_moves (fun _ hu => Moves.ite hu (comparatorAssert_moves _ _ _ _ _ hu)) h
  | comparatorDeassert => exact onItem_moves (fun _ hu => Moves.ite hu (comparatorDeassert_moves _ _ _ _ _ hu)) h
  | acqCmpWrite =>
    exact onItem_moves (fun _ hu => Moves.ite hu (axisWrite_moves _ _ _ (fun _ _ hv => acqCmpWrite_moves _ _ _ _ _ hv) hu)) h
  | filApply =>
    exact onPart_moves (fun _ hu => axisWrite_moves _ _ _ (fun _ _ hv => filApply_moves _ _ _ (State.wr_moves _ _ _ _ _ hv)) hu) h
  | filSyncGo => exact onLive_moves (fun _ hu => axisWrite_moves _ _ _ (fun _ _ hv => filSyncGo_moves _ _ hv) hu) h
  | filSyncReset => exact onLive_moves (fun _ hu => filSyncReset_moves _ hu) h
  | detWindowEnd => exact onPart_moves (fun _ hu => detWindowEnd_moves _ _ hu) h
  | detCfgWrite => exact onPart_moves (fun _ hu => axisWrite_moves _ _ _ (fun _ _ hv => detCfgWrite_moves _ _ _ _ hv) hu) h
  | lptUpdate => exact onLive_moves (fun _ hu => lptUpdate_moves _ hu) h
  | lptLock => exact onLive_moves (fun _ hu => lptLock_moves _ hu) h
  | lptUnlock => exact onLive_moves (fun _ hu => lptUnlock_moves _ hu) h
  | lptCtrlWrite => exact onLive_moves (fun _ hu => axisWrite_moves _ _ _ (fun _ _ hv => lptCtrlWrite_moves _ _ hv) hu) h
  | lptPhaseRead => exact onLive_moves (fun _ hu => lptPhaseRead_moves _ hu) h
  | lawStart => exact onAxis_moves (fun _ hu => axisWrite_moves _ _ _ (fun _ _ hv => lawCtrlWrite_moves _ _ _ _ hv rfl) hu) h
  | lawRelease => exact onAxis_moves (fun _ hu => lawRelease_moves _ _ hu) h
  | lawRun => exact onAxis_moves (fun _ hu => lawRun_moves _ _ _ _ _ _ hu rfl rfl rfl rfl rfl rfl rfl) h
  | lawRunEnd => exact onAxis_moves (fun _ hu => lawRunEnd_moves _ _ hu rfl rfl) h
  | lawStop => exact onAxis_moves (fun _ hu => axisWrite_moves _ _ _ (fun _ _ hv => lawCtrlWrite_moves _ _ _ _ hv rfl) hu) h
  | progmemAccess =>
    exact onItem_moves (fun _ hu => Moves.ite hu (Moves.ite (State.accessFault_moves _ _ _ _ _ _
      (State.answer_moves _ hu)) (progmemAccess_moves _ _ _ _ _ _ _ hu rfl))) h
  | lawBankReq => exact onAxis_moves (fun _ hu => axisWrite_moves _ _ _ (fun _ _ hv => bankShared_moves _ _ _ hv) hu) h
  | lawHeaderRead => exact onItem_moves (fun _ hu => Moves.ite hu (progRead_moves _ _ _ hu)) h
  | pwmPeriodStart => exact onAxis_moves (fun _ hu => pwmPeriodStart_moves _ _ hu) h
  | pwmUpdatePoint => exact onAxis_moves (fun _ hu => pwmUpdatePoint_moves _ _ hu) h
  | pwmDutyWrite =>
    exact onItem_moves (fun _ hu => Moves.ite hu (axisWrite_moves _ _ _ (fun _ _ hv => pwmDutyReg_moves _ _ _ _ hv) hu)) h
  | deadTimeExpiry => exact onPart_moves (fun _ hu => Moves.ite (deadTimeExpiry_moves _ _ _ hu) hu) h
  | bandMinpExpiry => exact onPart_moves (fun _ hu => Moves.ite (bandMinpExpiry_moves _ _ _ hu) hu) h
  | bandLockQualified => exact onPart_moves (fun _ hu => Moves.ite (bandLockQualified_moves _ _ _ hu) hu) h
  | bandLimit => exact onPart_moves (fun _ hu => Moves.ite (bandLimit_moves _ _ _ hu) hu) h
  | safeStateExit => exact onAxis_moves (fun _ hu => safeStateExit_moves _ _ hu) h
  | pwmSafeWrite => exact onAxis_moves (fun _ hu => axisWrite_moves _ _ _ (fun _ _ hv => pwmSafeWrite_moves _ _ _ hv) hu) h
  | pwmCtrlWrite => exact onAxis_moves (fun _ hu => axisWrite_moves _ _ _ (fun _ _ hv => pwmCtrlWrite_moves _ _ _ hv) hu) h
  | tuneStart => exact onAxis_moves (fun _ hu => axisWrite_moves _ _ _ (fun _ _ hv => tuneCtrlWrite_moves _ _ _ hv) hu) h
  | tuneAbort => exact onAxis_moves (fun _ hu => axisWrite_moves _ _ _ (fun _ _ hv => tuneCtrlWrite_moves _ _ _ hv) hu) h
  | tuneTimeout => exact onAxis_moves (fun _ hu => tuneTimeout_moves _ _ hu) h
  | trcRunWrite => exact onLive_moves (fun _ hu => trcCtrlWrite_moves _ _ hu) h
  | trcArm => exact onLive_moves (fun _ hu => trcTrigWrite_moves _ _ hu) h
  | trcFire => exact onLive_moves (fun _ hu => trcTrigWrite_moves _ _ hu) h
  | traceMoveOn => exact onLive_moves (fun _ hu => traceMoveOn_moves _ hu rfl) h
  | faultMessage =>
    exact onLive_moves (fun _ hu => collect_moves _ (Moves.foldl hu fun _ _ hv => Moves.ite
      (State.raise_moves _ _ _ _ hv) hv) rfl rfl rfl rfl rfl rfl rfl) h
  | packageSafeLine => exact onPackage_moves (fun _ hu => packageSafe_moves hu) h
  | quietTimerExpiry => exact onPart_moves (fun _ hu => quietExpiry_moves _ _ hu rfl) h
  | fltRel => exact onPart_moves (fun _ hu => relSource_moves _ _ hu rfl) h
  | fltClr => exact onPart_moves (fun _ hu => clrSource_moves _ _ hu) h
  | fltStickyClear => exact onPart_moves (fun _ hu => stickyClear_moves _ _ hu) h
  | fltMrel => exact onLive_moves (fun _ hu => mrel_moves _ hu) h
  | fltFirstClear => exact onLive_moves (fun _ hu => firstClear_moves _ hu) h
  | pkgfirstMessage => exact onLive_moves (fun _ hu => pkgFirstMessage_moves _ hu) h
  | fltPkgfirstClear => exact onLive_moves (fun _ hu => pkgClearAsk_moves hu) h
  | pkgfirstClearTick => exact onPackage_moves (fun _ hu => pkgClearTick_moves hu) h
  | evtPop => exact onLive_moves (fun _ hu => evtPop_moves _ hu) h
  | fltInjGo => exact onLive_moves (fun _ hu => injWrite_moves _ _ hu) h
  | ledgerRecordWrite => exact onLive_moves (fun _ hu => ledgerRecord_moves _ hu rfl rfl) h
  | ledgerSegmentClose => exact onPackage_moves (fun _ hu => ledgerSegmentClose_moves hu rfl) h
  | ledgClose => exact onItem_moves (fun _ hu => Moves.ite hu (ledgCtlWrite_moves _ _ hu rfl)) h
  | comparatorSelftest => exact onLive_moves (fun _ hu => selfTest_moves _ _ hu) h
  | hartMemoryAccess => exact onItem_moves (fun _ hu => Moves.ite (hartAccess_moves _ _ _ hu rfl rfl rfl rfl rfl rfl rfl) hu) h
  | lrReservationTimeout => exact onHart_moves (fun _ hu => lrTimeout_moves _ _ hu) h
  | mtimerCompare => exact onHart_moves (fun _ hu => mtimerCompare_moves _ _ hu) h
  | mptcmphWrite => exact onHart_moves (fun _ hu => csrAccess_moves _ _ _ _ _ hu rfl) h
  | mswiSet => exact onHart_moves (fun _ hu => csrAccess_moves _ _ _ _ _ hu rfl) h
  | mswiClr => exact onHart_moves (fun _ hu => csrAccess_moves _ _ _ _ _ hu rfl) h
  | mevtpop => exact onHart_moves (fun _ hu => csrAccess_moves _ _ _ _ _ hu rfl) h
  | mlawdataAccess => exact onHart_moves (fun _ hu => Moves.ite (lawData_moves _ _ _ _ _ _ hu rfl) (illegal_moves _ _ hu)) h
  | mlawirqAck => exact onHart_moves (fun _ hu => csrAccess_moves _ _ _ _ _ hu rfl) h
  | msemAcquire => exact onItem_moves (fun _ hu => csrAccess_moves _ _ _ _ _ hu rfl) h
  | msemrel => exact onHart_moves (fun _ hu => csrAccess_moves _ _ _ _ _ hu rfl) h
  | heartbeatASend => exact onLive_moves (fun _ hu => heartbeatASend_moves _ hu) h
  | heartbeatAReceive => exact onLive_moves (fun _ hu => heartbeatReceive_moves _ _ _ hu) h
  | heartbeatAMiss => exact onLive_moves (fun _ hu => heartbeatAMiss_moves _ hu) h
  | heartbeatBSend => exact onLive_moves (fun _ hu => heartbeatBSend_moves _ hu) h
  | heartbeatBReceive => exact onLive_moves (fun _ hu => heartbeatReceive_moves _ _ _ hu) h
  | heartbeatBMiss => exact onLive_moves (fun _ hu => heartbeatBMiss_moves _ hu) h
  | startwaitExpiry => exact onLive_moves (fun _ hu => startwaitExpiry_moves _ hu) h
  | loopbackTest => exact onLive_moves (fun _ hu => Moves.ite hu (loopbackTest_moves _ hu)) h
  | loopbackResult => exact onLive_moves (fun _ hu => loopbackResult_moves _ _ hu) h
  | loopbackRetry => exact onLive_moves (fun _ hu => loopbackRetry_moves _ hu) h
  | seizeReceived => exact onLive_moves (fun _ hu => seizeReceived_moves _ hu) h
  | mateDrivingSeen => exact onLive_moves (fun _ hu => mateDrivingSeen_moves _ hu) h
  | mateReleasedSeen => exact onLive_moves (fun _ hu => releasedSeen_moves _ hu rfl rfl rfl rfl rfl rfl) h
  | handoverDrivingCheck => exact onLive_moves (fun _ hu => handoverCheck_moves _ hu rfl rfl rfl rfl rfl rfl) h
  | swapDue => exact onLive_moves (fun _ hu => swapElapsed_moves _ hu) h
  | pairSwapnow => exact onLive_moves (fun _ hu => pairCtrlWrite_moves _ _ hu) h
  | swapTs => exact onLive_moves (fun _ hu => swapTs_moves _ hu) h
  | swapLate => exact onLive_moves (fun _ hu => swapLate_moves _ hu) h
  | snapshotRequest => exact onLive_moves (fun _ hu => Moves.ite hu (snapshotStart_moves _ hu)) h
  | pairSnapshotItem => exact onItem_moves (fun _ hu => Moves.ite hu (pairSnapshotItem_moves _ _ _ _ hu rfl)) h
  | resyncTimeout => exact onLive_moves (fun _ hu => resyncTimeout_moves _ hu) h
  | resyncRetry => exact onLive_moves (fun _ hu => resyncRetry_moves _ hu) h
  | shadowCompare => exact onItem_moves (fun _ hu => Moves.ite hu (shadowCompare_moves _ _ _ _ hu)) h
  | shadowTimeExpiry => exact onLive_moves (fun _ hu => shadowTimeExpiry_moves _ hu) h
  | cfgStageGo => exact onLive_moves (fun _ hu => stageWrite_moves _ _ hu) h
  | stagingComplete => exact onLive_moves (fun _ hu => stagingComplete_moves _ hu) h
  | stagedReport => exact onItem_moves (fun _ hu => Moves.ite hu (stagedReport_moves _ _ hu)) h
  | cfgCommit => exact onLive_moves (fun _ hu => commitWrite_moves _ _ hu) h
  | cfgAbort => exact onLive_moves (fun _ hu => commitWrite_moves _ _ hu) h
  | epochDieBoundary => exact onLive_moves (fun _ hu => dieBoundary_moves _ hu rfl rfl rfl rfl rfl rfl rfl) h
  | epochAxisBoundary => exact onAxis_moves (fun _ hu => axisBoundary_moves _ _ hu rfl rfl rfl rfl rfl rfl rfl) h
  | epochSkewCheck => exact onLive_moves (fun _ hu => skewCheck_moves _ hu) h
  | epochRevert => exact onItem_moves (fun _ hu => Moves.ite hu (epochRevert_moves _ _ hu rfl rfl rfl rfl rfl rfl rfl)) h
  | pcieLinkTraining =>
    exact onItem_moves (fun _ hu => Moves.ite hu (Moves.ite (Moves.ite (State.raise_moves _ _ _ _
      (State.addSat_moves _ _ _ _ _ hu)) hu) (linkTrained_moves _ _ _ hu))) h
  | doorbell => exact onItem_moves (fun _ hu => Moves.ite hu (doorbell_moves _ _ _ _ hu rfl)) h
  | ringEnable => exact onItem_moves (fun _ hu => Moves.ite hu (ringCfgWrite_moves _ _ _ _ hu rfl)) h
  | ringDisable => exact onItem_moves (fun _ hu => Moves.ite hu (ringCfgWrite_moves _ _ _ _ hu rfl)) h
  | descriptorFetch => exact onItem_moves (fun _ hu => Moves.ite hu (descriptorFetch_moves _ _ _ _ hu rfl)) h
  | hifNop => exact onCmd_moves (fun _ _ hu => cmdDone_moves _ _ _ _ _ hu rfl) h
  | hifRdreg => exact onCmd_moves (fun _ _ hu => hifRdreg_moves _ _ _ hu rfl rfl) h
  | hifWrreg => exact onCmd_moves (fun _ _ hu => hifWrreg_moves _ _ _ _ _ hu rfl rfl rfl rfl rfl rfl rfl) h
  | hifWr1 => exact onCmd_moves (fun _ _ hu => hifWr1_moves _ _ _ hu rfl rfl rfl rfl rfl rfl rfl) h
  | hifMask => exact onCmd_moves (fun _ _ hu => hifMask_moves _ _ _ hu rfl rfl rfl rfl rfl rfl rfl) h
  | hifDmaw => exact onCmd_moves (fun _ _ hu => hifDmaw_moves _ _ _ _ _ hu rfl rfl) h
  | hifDmar => exact onCmd_moves (fun _ _ hu => hifDmar_moves _ _ _ _ hu rfl) h
  | hifColoph => exact onCmd_moves (fun _ _ hu => hifColoph_moves _ _ _ _ _ hu rfl) h
  | hifUndefinedOpcode d r =>
    refine onItem_moves (fun u hu => ?_) h
    cases cmdHead u d r (fun op => 7 < op) with
    | none => exact hu
    | some _ => exact cmdDone_moves _ _ _ _ _ hu rfl
  | fwPop => exact onLive_moves (fun _ hu => Moves.ite (fwCtlWrite_moves _ _ hu rfl) (State.accessFault_moves _ _ _ _ _ _ hu)) h
  | fwPost => exact onLive_moves (fun _ hu => Moves.ite (fwCtlWrite_moves _ _ hu rfl) (State.accessFault_moves _ _ _ _ _ _ hu)) h
  | arcRead => exact onArc_moves (fun _ _ hu => arcRead_moves _ _ _ hu rfl) h
  | arcProtect => exact onArc_moves (fun _ _ hu => arcProtect_moves _ _ _ hu rfl) h
  | arcUnprotect => exact onArc_moves (fun _ _ hu => arcUnprotect_moves _ _ _ hu rfl) h
  | arcSpan => exact onArc_moves (fun _ _ hu => arcSpan_moves _ _ _ hu rfl) h
  | arcUndefinedOp d r =>
    refine onItem_moves (fun u hu => ?_) h
    cases arcHead u d r (fun op => op == 0 || 4 < op) with
    | none => exact hu
    | some _ => exact cmdDone_moves _ _ _ _ _ hu rfl
  | queueShareDrain => exact onItem_moves (fun _ hu => Moves.ite hu (ringDrain_moves _ _ _ hu rfl)) h
  | msixModerationTimeout => exact onItem_moves (fun _ hu => Moves.ite hu (moderation_moves _ _ hu)) h
  | msixUnmask => exact onItem_moves (fun _ hu => Moves.ite hu (msixUnmask_moves _ _ _ hu)) h
  | functionLost => exact onItem_moves (fun _ hu => Moves.ite hu (functionLost_moves _ _ hu)) h
  | d3hotChange => exact onItem_moves (fun _ hu => Moves.ite hu (d3hotChange_moves _ _ hu rfl)) h
  | teramTrainingComplete => exact onLive_moves (fun _ hu => trainingComplete_moves _ _ hu) h
  | teramLinkLoss => exact onLive_moves (fun _ hu => linkLoss_moves _ hu) h
  | teramRetrain => exact onLive_moves (fun _ hu => teramRetrain_moves _ hu) h
  | beatKeepSend => exact onLive_moves (fun _ hu => beatKeepSend_moves _ hu) h
  | helloReceive =>
    exact onLive_moves (fun _ hu => Moves.ite (arrive_moves _ _ (fun _ _ hv => Moves.ite (helloReceive_moves _ _ hv) hv) hu) hu) h
  | announceOriginate => exact onPackage_moves (fun _ hu => announceOriginate_moves hu) h
  | announceReceive =>
    exact onLive_moves (fun _ hu => Moves.ite (arrive_moves _ _ (fun _ _ hv => Moves.ite
      (announceReceive_moves _ _ hv) hv) hu) hu) h
  | knownPackageExpiry => exact onLive_moves (fun _ hu => knownExpiry_moves _ _ hu) h
  | frameForward => exact onLive_moves (fun _ hu => Moves.ite (arrive_moves _ _ (fun _ _ hv => frameHand_moves _ _ hv) hu) hu) h
  | timeSyncSend => exact onLive_moves (fun _ hu => timeSyncSend_moves _ _ hu) h
  | timeSyncReceive =>
    exact onLive_moves (fun _ hu => Moves.ite (arrive_moves _ _ (fun _ _ hv => Moves.ite (timeSync_moves _ _ _ hv) hv) hu) hu) h
  | timeReplyReceive =>
    exact onLive_moves (fun _ hu => Moves.ite (arrive_moves _ _ (fun _ _ hv => Moves.ite (timeReply_moves _ _ _ hv) hv) hu) hu) h
  | fabricOffsetMessage => exact onLive_moves (fun _ hu => fabricOffset_moves _ hu) h
  | angleReceive => exact onLive_moves (fun _ hu => angleReceive_moves _ hu) h
  | angleChannelTimeout => exact onPart_moves (fun _ hu => angleTimeout_moves _ _ hu) h
  | epochCommitReceive => exact onLive_moves (fun _ hu => commitReceive_moves _ hu) h
  | epochRevertReceive => exact onLive_moves (fun _ hu => revertReceive_moves _ hu) h
  | epochApplyLateReceive => exact onLive_moves (fun _ hu => applyLateReceive_moves _ hu) h
  | epochRefuseReceive => exact onLive_moves (fun _ hu => refuseReceive_moves _ hu) h
  | epochAbortReceive => exact onLive_moves (fun _ hu => abortReceive_moves _ hu) h
  | eventFrameReceive => exact onLive_moves (fun _ hu => eventFrameReceive_moves _ hu) h
  | accessRd => exact onLive_moves (fun _ hu => accessRd_moves _ hu rfl) h
  | accessWr => exact onLive_moves (fun _ hu => accessWr_moves _ hu rfl rfl rfl rfl rfl rfl rfl) h
  | accessMask => exact onLive_moves (fun _ hu => accessMask_moves _ hu rfl rfl rfl rfl rfl rfl rfl) h
  | accessColoph => exact onLive_moves (fun _ hu => accessColoph_moves _ hu) h
  | accessMsg => exact onLive_moves (fun _ hu => accessMsg_moves _ hu) h
  | accessResponseReceive => exact onLive_moves (fun _ hu => accessResponse_moves _ hu) h
  | trmSend => exact onLive_moves (fun _ hu => trmSend_moves _ hu) h
  | trmPop => exact onLive_moves (fun _ hu => trmPop_moves _ hu) h
  | trmEpop => exact onLive_moves (fun _ hu => trmEpop_moves _ hu) h
  | ddrTraining => exact onItem_moves (fun _ hu => Moves.ite hu (ddrTraining_moves _ _ _ hu rfl)) h
  | memChannelLoss => exact onItem_moves (fun _ hu => memChannelLoss_moves _ hu rfl) h
  | mirrorCopy => exact onPackage_moves (fun _ hu => mirrorCopy_moves _ hu rfl) h
  | mirrorCopyComplete => exact onPackage_moves (fun _ hu => mirrorDone_moves hu) h
  | dramAccess => exact onPackage_moves (fun _ hu => dramAccess_moves _ _ _ _ _ hu rfl) h
  | patrolScrub => exact onItem_moves (fun _ hu => Moves.ite hu (patrolScrub_moves _ _ hu)) h
  | nvmeCommandTimeout => exact onItem_moves (fun _ hu => Moves.ite hu (nvmeTimeout_moves _ hu)) h
  | stacksFrame => exact onLive_moves (fun _ hu => stacksFrame_moves _ hu rfl) h
  | stacksRecordClose d st =>
    refine onPart_moves (fun u hu => ?_) h
    cases (u.getStk d).cur st with
    | none => exact hu
    | some r => exact stkClose_moves _ _ (State.passTo_moves _ hu) rfl
  | stacksRecordWrite => exact onLive_moves (fun _ hu => stacksRecordWrite_moves _ hu rfl) h
  | stacksSegmentClose => exact onItem_moves (fun _ hu => stacksSegmentClose_moves _ hu rfl) h
  | stacksIndexRebuild => exact onPackage_moves (fun _ hu => indexRebuild_moves hu) h
  | stacksIndexDone => exact onPackage_moves (fun _ hu => indexDone_moves hu rfl) h
  | railWarningCrossing => exact onItem_moves (fun _ hu => railWarning_moves _ _ hu) h
  | railWarningReturn => exact onItem_moves (fun _ hu => railWarningReturn_moves _ _ hu) h
  | dipEnd => exact onLive_moves (fun _ hu => dipEnd_moves _ hu) h
  | railHighCrossing => exact onItem_moves (fun _ hu => railHigh_moves _ _ hu) h
  | railResetCrossing => exact onItem_moves (fun _ hu => enterReset_moves _ _ hu rfl rfl rfl rfl rfl rfl) h
  | tempSensorRead => exact onLive_moves (fun _ hu => tempRead_moves _ _ hu) h
  | governorStep => exact onLive_moves (fun _ hu => governorStep_moves _ _ _ hu) h
  | govDeficit => exact onLive_moves (fun _ hu => govDeficit_moves _ hu) h
  | packageGovernorStep => exact onPackage_moves (fun _ hu => packageGovernor_moves hu) h
  | shareReceive => exact onLive_moves (fun _ hu => shareReceive_moves _ hu) h
  | shareTimeout => exact onLive_moves (fun _ hu => shareTimeout_moves _ hu) h
  | nvfProg => exact onLive_moves (fun _ hu => nvfCmd_moves _ _ _ hu) h
  | nvfErase => exact onLive_moves (fun _ hu => nvfCmd_moves _ _ _ hu) h
  | nvfBlank => exact onLive_moves (fun _ hu => nvfCmd_moves _ _ _ hu) h
  | nvfUnlock => exact onLive_moves (fun _ hu => nvfCmd_moves _ _ _ hu) h
  | nvfRelock => exact onLive_moves (fun _ hu => nvfCmd_moves _ _ _ hu) h
  | nvfCmdComplete => exact onLive_moves (fun _ hu => nvfComplete_moves _ hu rfl) h
  | nvfMarkSelect => exact onLive_moves (fun _ hu => markSelect_moves _ _ hu) h
  | msrExtend => exact onHart_moves (fun _ hu => msrExtWrite_moves _ _ hu) h
  | msrLock => exact onHart_moves (fun _ hu => msrExtWrite_moves _ _ hu) h
  | msrCreq => exact onLive_moves (fun _ hu => msrCreqWrite_moves _ _ hu) h
  | colophonSigned => exact onLive_moves (fun _ hu => colophonSigned_moves _ hu rfl rfl) h
  | excOverloadClear => exact onAxis_moves (fun _ hu => excOverloadClear_moves _ _ hu) h
  | railHighReturn => exact onItem_moves (fun _ hu => railHighReturn_moves _ _ hu) h
  | memChannelReturn => exact onItem_moves (fun _ hu => Moves.ite hu (memChannelReturn_moves _ hu rfl)) h
  | nvmeControllerReady => exact onItem_moves (fun _ hu => Moves.ite hu (nvmeReady_moves _ _ _ _ hu)) h
  | pcieCompletionTimeout => exact onItem_moves (fun _ hu => Moves.ite hu (completionTimeout_moves _ _ _ hu rfl)) h

end Sys2Proof.Machine
end

section
/-!
Which commands complete, and which are stopped or pass without effect: the item that a command names, against `Instr.wf` and `dieOf`.
-/

namespace Sys2Proof.Machine

/-- What the outcome `o` of command `c` on state `s` owes to the operands of the command. -/
structure Answers (c : Instr) (s : State) (o : Host.Outcome State Fault Refusal) : Prop where
  /-- It completes or is stopped by name. -/
  notRefused : (∃ t, o = .next t) ∨ o = .fault .noSuchItem
  /-- With 8 dies, every item that a well-formed command names is there. -/
  completes : s.dies = 8 → c.wf = true → ∃ t, o = .next t
  /-- A die in reset takes no step (R51). -/
  inReset : ∀ d, dieOf c = some d → c.wf = true → s.hasDie d = true → (s.getDie d).inReset = true → o = .next s
  /-- A die that the member lacks stops the command (R2). -/
  missing : ∀ d, dieOf c = some d → c.wf = true → s.hasDie d = false → o = .fault .noSuchItem

/-- A command that is no event of a single die. -/
theorem onItem_answers {c : Instr} {s : State} {ok : Bool} {f : State → State} (hd : dieOf c = none)
    (hok : s.dies = 8 → c.wf = true → ok = true) : Answers c s (onItem ok s f) where
  notRefused := onItem_notRefused ok s f
  completes h8 hw := ⟨_, onItem_next (hok h8 hw)⟩
  inReset d h := by rw [hd] at h; cases h
  missing d h := by rw [hd] at h; cases h

/-- An event of die `d`, whose other operands name items that every die has. -/
theorem onPresent_answers {c : Instr} {s : State} {d : Nat} {ok : Bool} {f : State → State} (hd : dieOf c = some d)
    (hok : c.wf = true → d < 8 ∧ ok = s.hasDie d) (hf : (s.getDie d).inReset = true → f s = s) : Answers c s (onItem ok s f) where
  notRefused := onItem_notRefused ok s f
  completes h8 hw := by
    obtain ⟨hlt, hok⟩ := hok hw
    exact ⟨_, onItem_next (by rw [hok, State.hasDie, h8]; exact decide_eq_true hlt)⟩
  inReset e he hw hdie hr := by
    obtain rfl : d = e := Option.some.inj (hd.symm.trans he)
    rw [onItem_next ((hok hw).2.trans hdie), hf hr, State.commit_self]
  missing e he hw hdie := by
    obtain rfl : d = e := Option.some.inj (hd.symm.trans he)
    exact onItem_missing ((hok hw).2.trans hdie)

theorem onLive_answers {c : Instr} {s : State} {d : Nat} {f : State → State} (hd : dieOf c = some d) (hw : c.wf = true → d < 8) :
    Answers c s (onLive d s f) := onPresent_answers hd (fun h => ⟨hw h, rfl⟩) fun h => if_pos h

theorem onAxis_answers {c : Instr} {s : State} {d n : Nat} {f : State → State} (hd : dieOf c = some d)
    (hw : c.wf = true → d < 8 ∧ n < 8) : Answers c s (onAxis d n s f) :=
  onPresent_answers hd (fun h => ⟨(hw h).1, by simp [(hw h).2]⟩) fun h => if_pos h

theorem onPart_answers {c : Instr} {s : State} {d k cnt : Nat} {f : State → State} (hd : dieOf c = some d)
    (hw : c.wf = true → d < 8 ∧ k < cnt) : Answers c s (onPart d k cnt s f) :=
  onPresent_answers hd (fun h => ⟨(hw h).1, by simp [(hw h).2]⟩) fun h => if_pos h

/-- Every command answers as its operands say: the cases are the ways in which a command reaches its item. -/
theorem exec_answers (c : Instr) (s : State) : Answers c s (exec c s) := by
  cases c with
  -- commands about the package
  | convertStrobe | slewTick | ptStepTick | rstnReset | fullServiceEntry | excApplyBoundary | packageSafeLine
  | pkgfirstClearTick | ledgerSegmentClose | announceOriginate | mirrorCopy | mirrorCopyComplete | dramAccess
  | stacksIndexRebuild | stacksIndexDone | packageGovernorStep =>
    exact onItem_answers rfl fun _ _ => rfl
  -- events of one die
  | forwardedWrite | clockMonitorWindow | refclkReturn | rootRelockComplete | holdoverTimeout | spineTimeExchange | clkDostep
  | clkPtadjSlewWrite | glbSwrstMate | ptRealign | rootPllLock | rootLockRetry | optionAreaLoad | spineTrained
  | readingCopyStart | phase3Step | rcTrackerUpdate | measuredStartComplete | baseImageApply | watchdogEnable | watchdogKick
  | tblCmdBadCode | tblCmdComplete | filSyncGo | filSyncReset | lptUpdate | lptLock | lptUnlock | lptCtrlWrite | lptPhaseRead
  | trcRunWrite | trcArm | trcFire | traceMoveOn | faultMessage | fltMrel | fltFirstClear | pkgfirstMessage | fltPkgfirstClear
  | evtPop | fltInjGo | ledgerRecordWrite | comparatorSelftest | heartbeatASend | heartbeatAReceive | heartbeatAMiss
  | heartbeatBSend | heartbeatBReceive | heartbeatBMiss | startwaitExpiry | loopbackTest | loopbackResult | loopbackRetry
  | seizeReceived | mateDrivingSeen | mateReleasedSeen | handoverDrivingCheck | swapDue | pairSwapnow | swapTs | swapLate
  | snapshotRequest | resyncTimeout | resyncRetry | shadowTimeExpiry | cfgStageGo | stagingComplete | cfgCommit | cfgAbort
  | epochDieBoundary | epochSkewCheck | fwPop | fwPost | teramTrainingComplete | teramLinkLoss | teramRetrain | beatKeepSend
  | helloReceive | announceReceive | knownPackageExpiry | frameForward | timeSyncSend | timeSyncReceive | timeReplyReceive
  | fabricOffsetMessage | angleReceive | epochCommitReceive | epochRevertReceive | epochApplyLateReceive | epochRefuseReceive
  | epochAbortReceive | eventFrameReceive | accessRd | accessWr | accessMask | accessColoph | accessMsg | accessResponseReceive
  | trmSend | trmPop | trmEpop | stacksFrame | stacksRecordWrite | dipEnd | tempSensorRead | governorStep | govDeficit
  | shareReceive | shareTimeout | nvfProg | nvfErase | nvfBlank | nvfUnlock | nvfRelock | nvfCmdComplete | nvfMarkSelect
  | msrCreq | colophonSigned =>
    exact onLive_answers rfl (by simp [Instr.wf])
  -- events of an axis
  | excOverloadOnset | excOverloadTimeout | carrierPeriodEnd | inputClip | pilotAcqTimeout | pilotAmplitudeLoss | trackerUpdate
  | trackLockQualified | trackOverspeed | amplitudeWindowLoss | freezeLoss | pilotJumpLoss | coastExpiry | acquisitionComplete
  | coastResume | trkCtrlWrite | trkCtrlApply | trkSectorWrite | trkXreq | trkRearm | trkAngRead | emuOverrate | emuRebase
  | emuPassthroughChange | encEdgeAccept | encWireDisagree | encIndex | probeEdge | encRawWrite | encIdxWrite | encIdxArm
  | prbStatWrite | encSpeedWindowEnd | encStopTimeout | lawStart | lawRelease | lawRun | lawRunEnd | lawStop | lawBankReq
  | pwmPeriodStart | pwmUpdatePoint | safeStateExit | pwmSafeWrite | pwmCtrlWrite | tuneStart | tuneAbort | tuneTimeout
  | epochAxisBoundary | excOverloadClear =>
    exact onAxis_answers rfl (by simp +contextual [Instr.wf])
  -- events of a numbered item of a die
  | tblLoad | tblStore | tblFree | tblAlloc | filSlotRestart | filApply | angleChannelTimeout | detWindowEnd | detCfgWrite
  | quietTimerExpiry | fltRel | fltClr | fltStickyClear | stacksRecordClose =>
    exact onPart_answers rfl (by simp +contextual [Instr.wf])
  | tableIndexWrap | deadTimeExpiry | bandMinpExpiry | bandLockQualified | bandLimit =>
    exact onPart_answers rfl (by simp [Instr.wf]; omega)
  -- events with further operands, on any die and on d0 and d1 alone
  | excWrite | tblDescWrite | carrelWindowAccess | comparatorAssert | comparatorDeassert | acqCmpWrite | progmemAccess
  | pwmDutyWrite | pairSnapshotItem | shadowCompare | epochRevert =>
    exact onPresent_answers rfl (by simp +contextual [Instr.wf]) fun h => if_pos h
  | pciePerst | ledgClose | ddrTraining | patrolScrub | nvmeCommandTimeout | memChannelReturn | nvmeControllerReady
  | pcieLinkTraining | ringEnable | ringDisable | descriptorFetch | msixModerationTimeout | pcieCompletionTimeout | msixUnmask
  | functionLost =>
    exact onPresent_answers rfl (by simp +contextual [Instr.wf]; omega) fun h => if_pos h
  | tblMap | tblUnmap | tblCancel =>
    exact onPresent_answers rfl (by simp +contextual [Instr.wf, tblNums]) fun h => if_pos h
  | acqMuxWrite =>
    exact onPresent_answers rfl (by simp +contextual [Instr.wf, hasMux]) fun h => if_pos h
  | lawHeaderRead =>
    exact onPresent_answers rfl (by simp +contextual [Instr.wf]) fun h => if_pos (by simp [h])
  | doorbell | queueShareDrain | d3hotChange =>
    exact onPresent_answers rfl (by simp +contextual [Instr.wf]; omega) fun h => if_pos (by simp [h])
  -- commands about a die that `dieOf` does not name
  | powerOnReset | watchdogExpiry | glbSwrstSelf | resetExit
  | lrReservationTimeout | mtimerCompare | mptcmphWrite | mswiSet | mswiClr | mevtpop | mlawdataAccess | mlawirqAck | msemrel
  | msrExtend | msrLock | msemAcquire | stagedReport =>
    exact onItem_answers rfl (by simp +contextual [Instr.wf, State.hasDie])
  | hartMemoryAccess =>
    exact onItem_answers rfl (by simp +contextual [Instr.wf, HartAcc.wf, State.hasDie])
  | hifNop | hifRdreg | hifWrreg | hifWr1 | hifMask | hifDmaw | hifDmar | hifColoph | arcRead | arcProtect | arcUnprotect
  | arcSpan | hifUndefinedOpcode | arcUndefinedOp | memChannelLoss =>
    exact onItem_answers rfl (by simp +contextual [Instr.wf, State.hasDie]; omega)
  | railWarningCrossing | railWarningReturn | railHighCrossing | railResetCrossing | railHighReturn =>
    exact onItem_answers rfl (by simp +contextual [Instr.wf, State.hasDie, railOn])
  -- commands about an item of the package
  | spineLinkFail | spineLinkReturn =>
    exact onItem_answers rfl (by simp +contextual [Instr.wf, State.links])
  | stacksSegmentClose =>
    exact onItem_answers rfl (by simp [Instr.wf])
  | registerWrite _ _ p =>
    cases p with
    | bar => exact onItem_answers rfl (by simp +contextual [Instr.wf, RegPlace.wf, State.hasDie])
    | csr => exact onItem_answers rfl (by simp +contextual [Instr.wf, RegPlace.wf, State.hasDie])

end Sys2Proof.Machine
end

section
/-!
Accesses through the bus (R3, R10, R304) and to the CSRs of a hart (R332), and what the capture of an access fault writes.
-/

namespace Sys2Proof.Machine

namespace State

/-- A field of one word leaves every other word alone. -/
theorem reg_wr_of_ne {s : State} {d : Nat} {f : Fld} {v n i b : Nat} (hw : f.nw = 1) (hb : b ≠ f.addr d n i) :
    (s.wr d f v n i).reg b = s.reg b :=
  reg_wr_other _ _ _ _ _ _ _ (by rw [hw]; omega)

theorem reg_wr_of_ne_two {s : State} {d : Nat} {f : Fld} {v n i b : Nat} (hw : f.nw = 2) (hb : b ≠ f.addr d n i)
    (hb' : b ≠ f.addr d n i + 4) : (s.wr d f v n i).reg b = s.reg b :=
  reg_wr_other _ _ _ _ _ _ _ (by rw [hw]; omega)

@[simp] theorem reg_send (s : State) (d : Nat) (m : Msg) (b : Nat) : (s.send d m).reg b = s.reg b := rfl

/-- Fields whose registers lie at one place have one address. -/
theorem addr_eq_of_register {f g : Fld} (h : (f.off, f.ax, f.ix, f.lo / 32) = (g.off, g.ax, g.ix, g.lo / 32)) (d n i : Nat) :
    f.addr d n i = g.addr d n i := by
  simp only [Prod.mk.injEq] at h
  obtain ⟨hoff, hax, hix, hlo⟩ := h
  rw [Fld.addr, Fld.addr, hoff, hax, hix, hlo]

/-- An access fault writes no register word but those of the fault capture. -/
theorem reg_accessFault {s : State} {d m size reason addr b : Nat} {wr : Bool}
    (hb : b ∉ [FLT_AFADDR.ADDR.addr d 0 0, FLT_AFINFO.MASTER.addr d 0 0, FLT_AFPT.PT.addr d 0 0, FLT_AFPT.PT.addr d 0 0 + 4]) :
    (s.accessFault d m wr size reason addr).reg b = s.reg b := by
  simp only [List.mem_cons, List.not_mem_nil, or_false, not_or] at hb
  obtain ⟨haddr, hinfo, hpt, hpt'⟩ := hb
  have hfield : ∀ (u : State) (f : Fld) (v : Nat), f.nw = 1 →
      (f.off, f.ax, f.ix, f.lo / 32) = (FLT_AFINFO.MASTER.off, FLT_AFINFO.MASTER.ax, FLT_AFINFO.MASTER.ix, 0) →
      (u.wr d f v).reg b = u.reg b := fun _ _ _ hw hf =>
    reg_wr_of_ne hw fun h => hinfo (h.trans (addr_eq_of_register hf d 0 0))
  unfold accessFault
  simp only [reg_send]
  split
  · rw [addSat, hfield _ FLT_AFINFO.MORE _ rfl rfl]
  · rw [hfield _ FLT_AFINFO.VALID _ rfl rfl, hfield _ FLT_AFINFO.REASON _ rfl rfl, hfield _ FLT_AFINFO.SIZE _ rfl rfl,
      hfield _ FLT_AFINFO.WR _ rfl rfl, hfield _ FLT_AFINFO.MASTER _ rfl rfl, reg_wr_of_ne_two rfl hpt hpt', reg_wr_of_ne rfl haddr]

@[simp] theorem readData_accessFault (s : State) (d m size reason addr : Nat) (wr : Bool) :
    (s.accessFault d m wr size reason addr).readData = s.readData := by
  unfold accessFault addSat
  simp only [readData_send]
  split <;> simp

end State

theorem exec_registerWrite_bar {s : State} {m f a size ecc : Nat} {wr : Bool} {v : Word} (hf : s.hasDie f = true) (hm : m < 7)
    (ha : a < 0x10000000) : exec (.registerWrite m f (.bar a) wr size v ecc) s =
      .next (s.commit (if wr then busWrite f m a size v s else busRead f m a size ecc s)) :=
  onItem_next (by simp [hf, hm, ha])

/-! The two kinds of access: stopped, reaching their place, or made through a die in reset. -/

theorem busWrite_stopped {s : State} {m f a size c e : Nat} {v : Word} (hr : (s.getDie f).inReset = false)
    (h : busFault s f a size = some (c, e)) :
    busWrite f m a size v s = s.accessFault e (masterAt m f e) true (sizeCode size) c a := by
  simp [busWrite, hr, h]

theorem busRead_stopped {s : State} {m f a size c e ecc : Nat} (hr : (s.getDie f).inReset = false)
    (h : busFault s f a size = some (c, e)) :
    busRead f m a size ecc s = (s.answer 0).accessFault e (masterAt m f e) false (sizeCode size) c a := by
  simp [busRead, hr, h]

theorem busWrite_reached {s : State} {m f a size : Nat} {v : Word} (hr : (s.getDie f).inReset = false)
    (h : busFault s f a size = none) :
    busWrite f m a size v s = winWrite (masterAt m f (a / dieSpan)) (a / dieSpan) (a % dieSpan) v s := by
  simp [busWrite, hr, h]

theorem busRead_reached {s : State} {m f a size ecc : Nat} (hr : (s.getDie f).inReset = false)
    (h : busFault s f a size = none) :
    busRead f m a size ecc s = winRead (masterAt m f (a / dieSpan)) (a / dieSpan) (a % dieSpan) ecc s := by
  simp [busRead, hr, h]

theorem busFault_absent {s : State} {f a size : Nat} (h : s.dies ≤ a / dieSpan) : busFault s f a size = some (1, f) := by
  simp [busFault, h]

theorem busFault_misaligned {s : State} {f a size : Nat} (hd : a / dieSpan < s.dies) (hr : s.reach f (a / dieSpan) = true)
    (h : size ≠ 4 ∨ a % 4 ≠ 0) : busFault s f a size = some (3, a / dieSpan) := by
  simp only [busFault, Nat.not_le.mpr hd, hr, h, if_true, if_false, Bool.not_true, Bool.false_eq_true]

theorem busWrite_inReset {s : State} {m f a size : Nat} {v : Word} (hr : (s.getDie f).inReset = true) :
    busWrite f m a size v s = s := by
  simp [busWrite, hr]

theorem busRead_inReset {s : State} {m f a size ecc : Nat} (hr : (s.getDie f).inReset = true) :
    busRead f m a size ecc s = s.answer 0 := by
  simp [busRead, hr]

theorem winWrite_carrel {s : State} {m d o : Nat} {v : Word} (hlo : 0x200000 ≤ o) (hhi : o < 0x220000) :
    winWrite m d o v s = carrelWrite m d (o - 0x200000) v.toNat s := if_pos ⟨hlo, hhi⟩

theorem winWrite_prog {s : State} {m d o : Nat} {v : Word} (hlo : 0x300000 ≤ o) (hhi : o < 0x310000) :
    winWrite m d o v s = progmemAccess m d (o - 0x300000) true v false 0 s := by
  have hcarrel : ¬ (0x200000 ≤ o ∧ o < 0x220000) := by omega
  have hprog : inProg o = true := by simp [inProg, hlo, hhi]
  rw [winWrite, if_neg hcarrel, if_pos hprog, progBase]

theorem winWrite_word {s : State} {m d o n k : Nat} {r : Row} {v : Word} (hc : ¬ (0x200000 ≤ o ∧ o < 0x220000))
    (hp : inProg o = false) (hreg : regAt o = some (r, n, k)) (hfw : forwardedAt o = false) :
    winWrite m d o v s = wordWrite m o r n k v s.pt d s := by
  simp [winWrite, hc, hp, hreg, hfw]

theorem winWrite_shared {s : State} {m d o n k : Nat} {r : Row} {v : Word} (hc : ¬ (0x200000 ≤ o ∧ o < 0x220000))
    (hp : inProg o = false) (hreg : regAt o = some (r, n, k)) (hfw : forwardedAt o = true) (ho : o ≠ LAW_BANK.ACT.addr 0 n 0) :
    winWrite m d o v s = axisWrite d o v (wordWrite m o r n k v s.pt) s := by
  simp [winWrite, hc, hp, hreg, hfw, ho]

theorem exec_registerWrite_csr {s : State} {d h num m f size ecc : Nat} {wr : Bool} {v : Word} (hd : s.hasDie d = true) (hh : h < 2)
    (hnum : num < 4096) : exec (.registerWrite m f (.csr d h num) wr size v ecc) s = .next (s.commit (csrAccess d h num wr v s)) :=
  onItem_next (by simp [hd, hh, hnum])

theorem csrAccess_stopped {s : State} {d h num : Nat} {wr : Bool} {v : Word} (hr : s.hartRuns d h = false) :
    csrAccess d h num wr v s = s := by
  simp [csrAccess, hr]

theorem csrAccess_illegal {s : State} {d h num : Nat} {wr : Bool} {v : Word} (hr : s.hartRuns d h = true)
    (hok : csrOk s d h num wr = false) : csrAccess d h num wr v s = trap d h 2 (s.free % 2 ^ 32) (s.getHart d h).pc s.drew := by
  simp [csrAccess, hr, hok, illegal]

theorem csrAccess_legal {s : State} {d h num : Nat} {wr : Bool} {v : Word} (hr : s.hartRuns d h = true)
    (hok : csrOk s d h num wr = true) :
    csrAccess d h num wr v s = if wr = true then csrWrite d h num v.toNat s else csrRead d h num s := by
  simp [csrAccess, hr, hok]

end Sys2Proof.Machine
end

section
/-!
Writes that a pair shares (R26, R27): the three places of a write, and the next write forwarded to a mate.
-/

namespace Sys2Proof.Machine

/-- A write that applies to the addressed die alone. -/
theorem axisWrite_here {s : State} {d off : Nat} {v : Word} {f : Nat → State → State} (hf : s.forwards d = false)
    (hn : s.notHeld d off = false) : axisWrite d off v f s = f d s := by
  simp [axisWrite, hf, hn]

theorem axisWrite_notHeld {s : State} {d off : Nat} {v : Word} {f : Nat → State → State} (hf : s.forwards d = false)
    (hn : s.notHeld d off = true) :
    axisWrite d off v f s = s.drew.accessFault d (s.free % 7) true 2 2 (d * dieSpan + off) := by
  simp [axisWrite, hf, hn]

/-- Where the write of a register of a pair goes: `o` is the outcome of a command that writes `w` at offset `off` through die `d`
with effect `f` (R26, R27). -/
def PairWrite (s : State) (d off : Nat) (w : Word) (f : Nat → State → State) (o : Host.Outcome State Fault Refusal) : Prop :=
  (s.forwards d = true → o = .next (s.commit ((f (s.activeOf d) s).modFwd (mateOf (s.activeOf d)) fun z =>
    z ++ [{ off := off, val := w, tick := s.pt }]))) ∧
  (s.forwards d = false → s.notHeld d off = true →
    o = .next (s.commit (s.drew.accessFault d (s.free % 7) true 2 2 (d * dieSpan + off)))) ∧
  (s.forwards d = false → s.notHeld d off = false → o = .next (s.commit (f d s)))

theorem pairWrite_of_axisWrite {s : State} {d off : Nat} {w : Word} {f : Nat → State → State} {o : Host.Outcome State Fault Refusal}
    (h : o = .next (s.commit (axisWrite d off w f s))) : PairWrite s d off w f o := by
  refine ⟨fun hf => ?_, fun hf hn => ?_, fun hf hn => ?_⟩
  · rw [h, axisWrite_forwarded hf]
  · rw [h, axisWrite_notHeld hf hn]
  · rw [h, axisWrite_here hf hn]

/-- A property of every entry of a table of commands, offsets, words and effects holds of each. -/
theorem pairWrite_of_forall {s : State} {d : Nat} {l : List (Instr × Nat × Word × (Nat → State → State))}
    (h : l.Forall fun z => PairWrite s d z.2.1 z.2.2.1 z.2.2.2 (exec z.1 s)) (i : Instr) (off : Nat) (w : Word)
    (f : Nat → State → State) (hmem : (i, off, w, f) ∈ l) : PairWrite s d off w f (exec i s) :=
  List.forall_iff_forall_mem.mp h _ hmem

section
variable {s : State} {d n k cnt off : Nat} {ok : Bool} {w : Word} {f : Nat → State → State} {g : State → State}

theorem onItem_pairWrite (hl : s.Live d) (hok : ok = true) (hg : g s = axisWrite d off w f s) :
    PairWrite s d off w f (onItem ok s fun u => if (u.getDie d).inReset then u else g u) :=
  pairWrite_of_axisWrite (by rw [onItem_live hl.2 hok, hg])

theorem onAxis_pairWrite (hl : s.Live d) (hn : n < 8) (hg : g s = axisWrite d off w f s) :
    PairWrite s d off w f (onAxis d n s g) := pairWrite_of_axisWrite (by rw [onAxis_live hl hn, hg])

theorem onLive_pairWrite (hl : s.Live d) (hg : g s = axisWrite d off w f s) :
    PairWrite s d off w f (onLive d s g) := pairWrite_of_axisWrite (by rw [onLive_live hl, hg])

theorem onPart_pairWrite (hl : s.Live d) (hk : k < cnt) (hg : g s = axisWrite d off w f s) :
    PairWrite s d off w f (onPart d k cnt s g) := pairWrite_of_axisWrite (by rw [onPart_live hl hk, hg])

end

/-! The next write forwarded to a mate, by what its offset names. -/

theorem forwardedApply_nil {s : State} {d : Nat} (h : s.getFwd d = []) : forwardedApply d s = s := by
  simp [forwardedApply, h]

theorem forwardedApply_down {s : State} {d : Nat} {w : Fwd} {q : List Fwd} (h : s.getFwd d = w :: q) (hb : s.bridgeUp d = false) :
    forwardedApply d s = s.modFwd d fun _ => [] := by
  simp [forwardedApply, h, hb]

section
variable {s : State} {d : Nat} {w : Fwd} {q : List Fwd}

theorem forwardedApply_table (h : s.getFwd d = w :: q) (hb : s.bridgeUp d = true) (ho : w.off = TBL_CMD.OP.off) :
    forwardedApply d s = tblStart d (bitsOf w.val.toNat 0 4) (bitsOf w.val.toNat 4 5) (bitsOf w.val.toNat 9 5)
      (bitsOf w.val.toNat 16 3) (bitsOf w.val.toNat 20 2) ((s.inject d 8 464 7 2).modFwd d fun _ => q) := by
  simp [forwardedApply, h, hb, ho]

theorem forwardedApply_program (h : s.getFwd d = w :: q) (hb : s.bridgeUp d = true) (ho : w.off ≠ TBL_CMD.OP.off)
    (hp : inProg w.off = true) :
    forwardedApply d s = progApply (w.off - progBase) w.val w.run d ((s.inject d 8 464 7 2).modFwd d fun _ => q) := by
  simp [forwardedApply, h, hb, ho, hp]

theorem forwardedApply_word {r : Row} {n k : Nat} (h : s.getFwd d = w :: q) (hb : s.bridgeUp d = true)
    (ho : w.off ≠ TBL_CMD.OP.off) (hp : inProg w.off = false) (hreg : regAt w.off = some (r, n, k)) :
    forwardedApply d s = if w.off = LAW_BANK.ACT.addr 0 n 0
      then bankFollow n w.val d ((s.inject d 8 464 7 2).modFwd d fun _ => q)
      else wordWrite 4 w.off r n k w.val w.tick d ((s.inject d 8 464 7 2).modFwd d fun _ => q) := by
  simp [forwardedApply, h, hb, ho, hp, hreg]

end

end Sys2Proof.Machine
end

section
/-!
The statements about the machine as a whole, the register accesses and the accesses that do not take place.
-/

namespace Sys2Proof.Machine

/-- Settles O52: the step passes a tick or carries out the front command, and both keep what `Moves` says. -/
theorem everyStepKeepsTheInvariant : Obligations.EveryStepKeepsTheInvariant := by
  intro s t hs h
  cases hq : s.pending with
  | nil =>
    rw [step_of_pending_nil hq] at h
    cases h
    exact (State.pass_moves (w := fun _ => false) 1 (Moves.refl _ s)).inv hs
  | cons c q =>
    rw [step_of_pending_cons hq] at h
    exact (exec_moves h).inv (hs.tail hq)

/-- Settles O54: every command is an `onItem`, and a well-formed one names items that 8 dies have. -/
theorem commandsOfTheMemberComplete : Obligations.CommandsOfTheMemberComplete :=
  fun c s => ⟨(exec_answers c s).notRefused, (exec_answers c s).completes⟩

/-- Settles O56, from what an effect does at most. -/
theorem timeMemberAndQueueOfACommand : Obligations.TimeMemberAndQueueOfACommand := by
  intro c s t h
  obtain ⟨hdies, hgrade, hpending, hnow, -, -⟩ := exec_moves h
  exact ⟨hnow, hdies, hgrade, hpending⟩

/-- Settles O59: every command of `dieOf` first asks whether its die is there and out of reset. -/
theorem aDieInResetTakesNoStep : Obligations.ADieInResetTakesNoStep :=
  fun c s d hd hw => ⟨(exec_answers c s).inReset d hd hw, (exec_answers c s).missing d hd hw⟩

/-- Settles O51, by the two cases of the queue. -/
theorem stepRunsTheFrontCommand : Obligations.StepRunsTheFrontCommand :=
  fun s => ⟨fun _ _ h => step_of_pending_cons h, fun h => ⟨step_of_pending_nil h, s.ptD_pass_one⟩⟩

/-- Settles O53: the tables are empty, so every register word reads as its reset value. -/
theorem theMachineAfterResetIsLegal : Obligations.TheMachineAfterResetIsLegal := by
  refine ⟨⟨by decide, by decide, by simp [State.reset], by decide⟩, rfl, ?phase, ?budget, ?sev, ?cls, ?pin⟩
  case phase =>
    intro d hd
    interval_cases d <;> decide
  all_goals decide

/-- Settles O58: the access is stopped with reason 1 or 3, and its capture writes the registers of R304 alone. -/
theorem accessesThatDoNotTakePlace : Obligations.AccessesThatDoNotTakePlace := by
  refine ⟨fun s a => by simp [State.words], fun s m f a size ecc v e r hl hm ha hwhy => ?_⟩
  obtain ⟨hf, hr⟩ := hl
  have hstop : busFault s f a size = some (r, e) := by
    rcases hwhy with ⟨habs, rfl, rfl⟩ | ⟨hd, hreach, hsize, rfl, rfl⟩
    · exact busFault_absent habs
    · exact busFault_misaligned hd hreach hsize
  constructor
  · have hmoves : Moves (fun _ => false) s (s.accessFault e (masterAt m f e) true (sizeCode size) r a) :=
      State.accessFault_moves _ _ _ _ _ _ (Moves.refl _ s)
    refine ⟨_, (exec_registerWrite_bar hf hm ha).trans ?_, rfl, fun k => hmoves.mems k rfl, fun b hb => State.reg_accessFault hb⟩
    rw [if_pos rfl, busWrite_stopped hr hstop, hmoves.commit_eq]
  · have hmoves : Moves (fun _ => false) s ((s.answer 0).accessFault e (masterAt m f e) false (sizeCode size) r a) :=
      State.accessFault_moves _ _ _ _ _ _ (State.answer_moves _ (Moves.refl _ s))
    refine ⟨_, (exec_registerWrite_bar hf hm ha).trans ?_, rfl, State.readData_accessFault _ _ _ _ _ _ _⟩
    rw [if_neg Bool.false_ne_true, busRead_stopped hr hstop, hmoves.commit_eq]

/-- Settles O26: each clause reads off the law of the operation that the access runs. -/
theorem registerAccessesReachTheirWordOrFault : Obligations.RegisterAccessesReachTheirWordOrFault := by
  refine ⟨?bus, ?throughReset, ?window, ?csr, ?pairWrites, ?forwarded⟩
  case bus =>
    intro s f m a v hl hm ha
    obtain ⟨hf, hr⟩ := hl
    refine ⟨fun size h => ?_, fun size ecc h => ?_, fun size ecc c e h => ⟨?_, ?_⟩, ?_⟩
    · rw [exec_registerWrite_bar hf hm ha, if_pos rfl, busWrite_reached hr h]
    · rw [exec_registerWrite_bar hf hm ha, if_neg Bool.false_ne_true, busRead_reached hr h]
    · rw [exec_registerWrite_bar hf hm ha, if_pos rfl, busWrite_stopped hr h]
    · rw [exec_registerWrite_bar hf hm ha, if_neg Bool.false_ne_true, busRead_stopped hr h]
    · rintro size d o b rfl rfl rfl
      simp only [busFault, Bool.not_eq_true']
  case throughReset =>
    intro s f m a size ecc v hf hr hm ha
    constructor
    · rw [exec_registerWrite_bar hf hm ha, if_pos rfl, busWrite_inReset hr]
    · rw [exec_registerWrite_bar hf hm ha, if_neg Bool.false_ne_true, busRead_inReset hr]
  case window =>
    intro s m d o v
    refine ⟨winWrite_carrel, winWrite_prog, fun r n k hc hp hreg hfw => winWrite_word hc hp hreg hfw,
      fun r n k hc hp hreg hfw ho => ⟨fun h => ?_, fun h hn => ?_⟩, fun a r k => rfl⟩
    · rw [winWrite_shared hc hp hreg hfw ho, axisWrite_forwarded h]
    · rw [winWrite_shared hc hp hreg hfw ho, axisWrite_here h hn]
  case csr =>
    intro s d h num m f size ecc wr v hd hh hnum
    refine ⟨fun hr => ?_, fun hr hok => ?_, fun hr hok => ?_⟩
    · rw [exec_registerWrite_csr hd hh hnum, csrAccess_stopped hr]
    · rw [exec_registerWrite_csr hd hh hnum, csrAccess_illegal hr hok]
    · rw [exec_registerWrite_csr hd hh hnum, csrAccess_legal hr hok]
  case pairWrites =>
    intro s d n j k c x t r len q v up b w0 w1 hl hn hj hk hc hx ht hr hb hw0 hw1 i off w f hmem
    subst hb hw0 hw1
    change PairWrite s d off w f (exec i s)
    revert i off w f
    refine pairWrite_of_forall (List.forall_append.mpr ⟨?shared, ?mux⟩)
    case shared =>
      have onSet {off : Nat} {w : Word} {f : Nat → State → State} {g : State → State} (hg : g s = axisWrite d off w f s) :
          PairWrite s d off w f (onAxis d n s g) := onAxis_pairWrite hl hn hg
      exact ⟨onItem_pairWrite hl (by simp [hl.1, hn, hr]) rfl, onSet rfl, onSet rfl, onSet rfl, onSet rfl,
        onItem_pairWrite hl (by simp [hl.1, hn, ht]) rfl, onSet rfl, onSet rfl, onSet rfl, onSet rfl, onPart_pairWrite hl hc rfl,
        onLive_pairWrite hl rfl, onItem_pairWrite hl (by simp [hl.1, hn, hk]) rfl, onPart_pairWrite hl hx rfl, onLive_pairWrite hl rfl,
        onSet rfl, onSet rfl, onSet rfl, onItem_pairWrite hl (by simp [hl.1, hn, hj]) rfl, onSet rfl, onSet rfl, onSet rfl, onSet rfl⟩
    case mux =>
      split
      · next hmux => exact onItem_pairWrite hl (by simp [hl.1, hmux]) rfl
      · trivial
  case forwarded =>
    intro s d hl
    refine ⟨fun h => ?_, fun w q h hb => ?_, fun w q u h hb hu => ⟨fun ho => ?_, fun ho hp => ?_, fun r n k ho hp hreg => ?_⟩⟩
    all_goals refine (onLive_live hl).trans ?_
    · rw [forwardedApply_nil h]
    · rw [forwardedApply_down h hb]
    · rw [forwardedApply_table h hb ho, hu]
    · rw [forwardedApply_program h hb ho hp, hu]
    · rw [forwardedApply_word h hb ho hp hreg, hu]

end Sys2Proof.Machine
end

section
/-!
Commands that have their effect on an item of a die out of reset, in the form the statements ask for.
-/

namespace Sys2Proof.Machine

/-- The outcome of an event of a live die whose effect is known. -/
theorem onLive_eq {s t : State} {d : Nat} {f : State → State} (hl : s.Live d) (h : f s = t) :
    onLive d s f = .next (s.commit t) := (onLive_live hl).trans (by rw [h])

theorem onAxis_eq {s t : State} {d n : Nat} {f : State → State} (hl : s.Live d) (hn : n < 8) (h : f s = t) :
    onAxis d n s f = .next (s.commit t) := (onAxis_live hl hn).trans (by rw [h])

theorem onPart_eq {s t : State} {d k cnt : Nat} {f : State → State} (hl : s.Live d) (hk : k < cnt) (h : f s = t) :
    onPart d k cnt s f = .next (s.commit t) := (onPart_live hl hk).trans (by rw [h])

/-- The same of an item whose command asks first whether its die is in reset. -/
theorem onItem_live_eq {s t : State} {d : Nat} {ok : Bool} {f : State → State} (hl : s.Live d) (hok : ok = true) (h : f s = t) :
    onItem ok s (fun u => if (u.getDie d).inReset then u else f u) = .next (s.commit t) := (onItem_live hl.2 hok).trans (by rw [h])

theorem onItem_eq {s t : State} {ok : Bool} {f : State → State} (hok : ok = true) (h : f s = t) :
    onItem ok s f = .next (s.commit t) := (onItem_next hok).trans (by rw [h])

end Sys2Proof.Machine
end

section
/-!
Frames that a die takes (R410, R421, R422): events, ACCESS requests, responses, and the mailbox.
-/

namespace Sys2Proof.Machine

section
variable {s u : State} {d : Nat} {x : RxFrame}

theorem onAccess_none {p : Nat → Bool} {f : List Byte → State → State}
    (h : takeRx d (fun b => fClass b == 6 && p (accOp b)) s = (none, u)) : onAccess d p f s = u := by
  simp only [onAccess, h]

theorem onAccess_some {p : Nat → Bool} {f : List Byte → State → State}
    (h : takeRx d (fun b => fClass b == 6 && p (accOp b)) s = (some x, u)) : onAccess d p f s = f x.bytes u := by
  simp only [onAccess, h]

theorem eventFrameReceive_none (h : takeRx d (fun f => fClass f == 5) s = (none, u)) : eventFrameReceive d s = u := by
  simp only [eventFrameReceive, h]

theorem eventFrameReceive_some (h : takeRx d (fun f => fClass f == 5) s = (some x, u)) : eventFrameReceive d s =
    if (u.getTrm d).evq.length < 16 then
      (showMbox d (u.modTrm d fun t => { t with evq := t.evq ++ [fPayload x.bytes] })).raise d 521 3 (fSrc x.bytes % 4096)
    else u.addSat d TRM_PERR.DROP := by
  simp only [eventFrameReceive, h]

theorem accessMsg_none (h : takeRx d (fun f => fClass f == 6 && accOp f == 5) s = (none, u)) : accessMsg d s = u := by
  simp only [accessMsg, h]

/-- A frame joins a mailbox of fewer than 16 (R421). -/
theorem mboxPut_eq (b : List Byte) (s : State) (d : Nat) : mboxPut d b s = if (s.getTrm d).mbox.length < 16
    then (true, showMbox d (s.modTrm d fun t => { t with mbox := t.mbox ++ [b] })) else (false, s) := rfl

theorem accessMsg_some (h : takeRx d (fun f => fClass f == 6 && accOp f == 5) s = (some x, u)) : accessMsg d s =
    if (u.getTrm d).mbox.length < 16 then showMbox d (u.modTrm d fun t => { t with mbox := t.mbox ++ [x.bytes] })
    else accessAnswer d x.bytes 5 (fNum (fPayload x.bytes) 4 4) [] u := by
  simp only [accessMsg, h, mboxPut_eq]
  split <;> rfl

theorem accessResponse_none (h : takeRx d (fun f => fClass f == 6 && decide (128 ≤ accOp f)) s = (none, u)) :
    accessResponse d s = u := by
  simp only [accessResponse, h]

theorem accessResponse_some (h : takeRx d (fun f => fClass f == 6 && decide (128 ≤ accOp f)) s = (some x, u)) :
    accessResponse d s = if (u.getTrm d).mbox.length < 16
      then showMbox d (u.modTrm d fun t => { t with mbox := t.mbox ++ [x.bytes] }) else u.addSat d TRM_PERR.DROP := by
  simp only [accessResponse, h, mboxPut_eq]
  split <;> rfl

end

/-- COUNT or the length is not one that the OP allows (R422). -/
theorem accOk_eq_false_iff (b : List Byte) (most k : Nat) : accOk b most k = false ↔
    ¬ (1 ≤ accCount b ∧ accCount b ≤ most ∧ b.length = 20 + k * accCount b) := by
  rw [← Bool.not_eq_true, accOk]
  simp only [Bool.and_eq_true, decide_eq_true_eq, and_assoc]

/-- SEND of a frame whose class and length R405 knows, and of one that it does not (R422). -/
theorem trmSend_known {s : State} {d n : Nat} {bs : List Byte} (hbusy : s.bit d TRM_MBOX.BUSY = false)
    (hbs : bs = (List.range 64).flatMap fun i => leBytes (s.rd d TRM_TXBUF.DATA i) 4) (hn : n = fNum bs 6 2)
    (hlen : classLen (fClass bs) n = true) :
    trmSend d s = originate d (fClass bs) (fBcast bs) (fDst bs) ((bs.take (n - 4)).drop 8) s := by
  subst hn hbs
  simp [trmSend, hbusy, hlen]

theorem trmSend_unknown {s : State} {d n : Nat} {bs : List Byte} (hbusy : s.bit d TRM_MBOX.BUSY = false)
    (hbs : bs = (List.range 64).flatMap fun i => leBytes (s.rd d TRM_TXBUF.DATA i) 4) (hn : n = fNum bs 6 2)
    (hlen : classLen (fClass bs) n = false) : trmSend d s = frameBad d (fClass bs) s := by
  subst hn hbs
  simp [trmSend, hbusy, hlen]

theorem trmSend_busy {s : State} {d : Nat} (hbusy : s.bit d TRM_MBOX.BUSY = true) : trmSend d s = s := by
  simp [trmSend, hbusy]

/-- Settles O50: what is taken from the receive queue says which branch of the command runs. -/
theorem mailboxesAndAccessFrames : Obligations.MailboxesAndAccessFrames := by
  intro s d hl
  refine ⟨fun u => ⟨?_, ?_, ?_, ?_, ?_, ?_, ?_⟩, fun x u h => onLive_eq hl (eventFrameReceive_some h), ?rd, ?wr, ?mask,
    fun _ _ _ => rfl, ?coloph, ?put, fun _ _ _ _ _ => rfl, ?send, fun h => onLive_eq hl (trmSend_busy h), onLive_live hl, onLive_live hl⟩
  · exact fun h => onLive_eq hl (eventFrameReceive_none h)
  · exact fun h => onLive_eq hl (onAccess_none h)
  · exact fun h => onLive_eq hl (onAccess_none h)
  · exact fun h => onLive_eq hl (onAccess_none h)
  · exact fun h => onLive_eq hl (onAccess_none h)
  · exact fun h => onLive_eq hl (accessMsg_none h)
  · exact fun h => onLive_eq hl (accessResponse_none h)
  case rd =>
    rintro x u b r h rfl rfl
    refine onLive_eq hl ((onAccess_some h).trans ?_)
    simp only [Bool.not_eq_true', accOk_eq_false_iff, Nat.zero_mul, Nat.add_zero]
  case wr =>
    rintro x u b h rfl
    refine onLive_eq hl ((onAccess_some h).trans ?_)
    simp only [Bool.not_eq_true', accOk_eq_false_iff]
  case mask =>
    rintro x u b h rfl
    refine onLive_eq hl ((onAccess_some h).trans ?_)
    simp only [Bool.not_eq_true', accOk_eq_false_iff]
  case coloph =>
    rintro x u b h rfl
    refine onLive_eq hl ((onAccess_some h).trans ?_)
    simp only [Bool.not_eq_true']
  case put =>
    rintro x u v rfl
    exact ⟨fun h => onLive_eq hl (accessMsg_some h), fun h => onLive_eq hl (accessResponse_some h)⟩
  case send =>
    exact fun bs n hbusy hbs hn => ⟨fun h => onLive_eq hl (trmSend_known hbusy hbs hn h), fun h => onLive_eq hl (trmSend_unknown hbusy hbs hn h)⟩

end Sys2Proof.Machine
end

section
/-!
The commands of the host's rings (R388 to R390): which descriptor starts, and the branches of each command.
-/

namespace Sys2Proof.Machine

section
variable {s t : State} {d r op n : Nat} {b : List Byte} {f : List Byte → State → State}

/-- A function has rings where the member has its die. -/
theorem onCmd_item (hd : s.hasDie d = true) (hd2 : d < 2) (hr : r < 64) : (d < 2 && s.hasDie d && r < 64 : Bool) = true := by
  simp [hd, hd2, hr]

theorem onCmd_none (hi : (d < 2 && s.hasDie d && r < 64 : Bool) = true) (h : cmdHead s d r (· == op) = none) :
    onCmd d r op s f = .next (s.commit s) := onItem_eq hi (by simp only [h])

theorem onCmd_some (hi : (d < 2 && s.hasDie d && r < 64 : Bool) = true) (h : cmdHead s d r (· == op) = some b) (e : f b s = t) :
    onCmd d r op s f = .next (s.commit t) := onItem_eq hi (by simp only [h, e])

/-- The register range of a command leaves BAR0, or its offset is not a multiple of 4. -/
theorem barOk_eq_false_iff (a n : Nat) : barOk a n = false ↔ a % 4 ≠ 0 ∨ 8 * dieSpan < a + 4 * n := by
  simp only [barOk, Bool.and_eq_false_iff, beq_eq_false_iff_ne, decide_eq_false_iff_not, not_le]

theorem barOk_of_range {a : Nat} (ha : a % 4 = 0) (hn : a + 4 * n ≤ 8 * dieSpan) : barOk a n = true := by
  simp [barOk, ha, hn]

theorem dmaOk_iff (b : List Byte) : dmaOk b = true ↔ 64 ≤ cmdA b ∧ cmdA b ≤ 16777216 ∧ cmdA b % 64 = 0 ∧ cmdAddr b % 64 = 0 ∧
    cmdB b % 64 = 0 ∧ cmdB b + cmdA b ≤ 2 ^ 35 := by
  simp only [dmaOk, Bool.and_eq_true, decide_eq_true_eq, beq_iff_eq, and_assoc]

/-- RDREG and WRREG with an offset, a length or a host address that R389 does not allow. -/
theorem not_barOk_or_unaligned (n : Nat) (h : cmdA b % 4 ≠ 0 ∨ 8 * dieSpan < cmdA b + 4 * n ∨ cmdAddr b % 4 ≠ 0) :
    (!barOk (cmdA b) n) = true ∨ cmdAddr b % 4 ≠ 0 := by
  rw [Bool.not_eq_true', barOk_eq_false_iff, or_assoc]
  exact h

theorem barOk_and_aligned_of_range (ha : cmdA b % 4 = 0) (hn : cmdA b + 4 * n ≤ 8 * dieSpan) (haddr : cmdAddr b % 4 = 0) :
    ¬ ((!barOk (cmdA b) n) = true ∨ cmdAddr b % 4 ≠ 0) := by
  simp [barOk_of_range ha hn, haddr]

theorem hifRdreg_bad (h : cmdA b % 4 ≠ 0 ∨ 8 * dieSpan < cmdA b + 4 * (cmdB b % 1024 + 1) ∨ cmdAddr b % 4 ≠ 0) :
    hifRdreg d r b s = cmdDone d r 2 0 0 s := if_pos (not_barOk_or_unaligned _ h)

theorem hifRdreg_ok (ha : cmdA b % 4 = 0) (hn : cmdA b + 4 * (cmdB b % 1024 + 1) ≤ 8 * dieSpan) (haddr : cmdAddr b % 4 = 0) :
    hifRdreg d r b s = wordsDone d r (cmdB b % 1024 + 1)
      { readWords d d (cmdA b) (cmdB b % 1024 + 1) s with
        s := putHost (readWords d d (cmdA b) (cmdB b % 1024 + 1) s).s (cmdAddr b)
          ((readWords d d (cmdA b) (cmdB b % 1024 + 1) s).ws.flatMap fun w => leBytes w 4) } :=
  if_neg (barOk_and_aligned_of_range ha hn haddr)

theorem hifWrreg_bad (ok : Bool) (bs : List Byte)
    (h : cmdA b % 4 ≠ 0 ∨ 8 * dieSpan < cmdA b + 4 * (cmdB b % 1024 + 1) ∨ cmdAddr b % 4 ≠ 0) :
    hifWrreg d r ok bs b s = cmdDone d r 2 0 0 s := if_pos (not_barOk_or_unaligned _ h)

/-- WRREG writes the words that the host buffer returned: all of them, or those before its failure. -/
theorem hifWrreg_ok (bs : List Byte) (ha : cmdA b % 4 = 0) (hn : cmdA b + 4 * (cmdB b % 1024 + 1) ≤ 8 * dieSpan)
    (haddr : cmdAddr b % 4 = 0) : hifWrreg d r true bs b s = wordsDone d r (cmdB b % 1024 + 1)
      (writeWords d d (cmdA b) (bytesWords bs (cmdB b % 1024 + 1)) s) := if_neg (barOk_and_aligned_of_range ha hn haddr)

theorem hifWrreg_fail (bs : List Byte) (ha : cmdA b % 4 = 0) (hn : cmdA b + 4 * (cmdB b % 1024 + 1) ≤ 8 * dieSpan)
    (haddr : cmdAddr b % 4 = 0) : hifWrreg d r false bs b s = hostDataFail d r (min (cmdB b % 1024 + 1) (bs.length / 4))
      (writeWords d d (cmdA b) (bytesWords bs (min (cmdB b % 1024 + 1) (bs.length / 4))) s).s := if_neg (barOk_and_aligned_of_range ha hn haddr)

theorem hifWr1_bad (h : cmdA b % 4 ≠ 0 ∨ 8 * dieSpan < cmdA b + 4) : hifWr1 d r b s = cmdDone d r 2 0 0 s :=
  if_pos (by rwa [Bool.not_eq_true', barOk_eq_false_iff])

theorem hifWr1_ok (ha : cmdA b % 4 = 0) (hn : cmdA b + 4 ≤ 8 * dieSpan) :
    hifWr1 d r b s = wordsDone d r 0 (writeWords d d (cmdA b) [cmdB b] s) :=
  if_neg (by simp [barOk_of_range (n := 1) ha hn])

theorem hifMask_bad (h : cmdA b % 4 ≠ 0 ∨ 8 * dieSpan < cmdA b + 4) : hifMask d r b s = cmdDone d r 2 0 0 s :=
  if_pos (by rwa [Bool.not_eq_true', barOk_eq_false_iff])

theorem hifMask_ok (ha : cmdA b % 4 = 0) (hn : cmdA b + 4 ≤ 8 * dieSpan) :
    hifMask d r b s = wordsDone d r ((maskWords d d (cmdA b) [cmdB b] [cmdB b / 2 ^ 32] s).ws.getD 0 0)
      (maskWords d d (cmdA b) [cmdB b] [cmdB b / 2 ^ 32] s) :=
  if_neg (by simp [barOk_of_range (n := 1) ha hn])

/-! DMA (R389) -/

theorem hifDmaw_bad (ok : Bool) (bs : List Byte) (h : dmaOk b = false) : hifDmaw d r ok bs b s = cmdDone d r 2 0 0 s := by
  simp [hifDmaw, h]

theorem hifDmar_bad (ecc : Nat) (h : dmaOk b = false) : hifDmar d r ecc b s = cmdDone d r 2 0 0 s := by
  simp [hifDmar, h]

theorem hifDmaw_away (ok : Bool) (bs : List Byte) (h : dmaOk b = true)
    (hs : s.dramSrv = none ∨ ∃ c, s.dramSrv = some c ∧ s.reach d c = false) : hifDmaw d r ok bs b s = cmdDone d r 5 0 0 s := by
  rcases hs with hs | ⟨c, hs, hc⟩
  · simp [hifDmaw, h, hs]
  · simp [hifDmaw, h, hs, hc]

theorem hifDmar_away (ecc : Nat) (h : dmaOk b = true)
    (hs : s.dramSrv = none ∨ ∃ c, s.dramSrv = some c ∧ s.reach d c = false) : hifDmar d r ecc b s = cmdDone d r 5 0 0 s := by
  rcases hs with hs | ⟨c, hs, hc⟩
  · simp [hifDmar, h, hs]
  · simp [hifDmar, h, hs, hc]

variable {c : Nat} (h : dmaOk b = true) (hs : s.dramSrv = some c) (hc : s.reach d c = true)
include h hs hc

theorem hifDmaw_ledger (ok : Bool) (bs : List Byte) (hl : hitsLedger s c (cmdB b) (cmdA b) = true) :
    hifDmaw d r ok bs b s = cmdDone d r 6 0 0 s := by
  simp [hifDmaw, h, hs, hc, hl]

theorem hifDmaw_ok (bs : List Byte) (hl : hitsLedger s c (cmdB b) (cmdA b) = false) : hifDmaw d r true bs b s =
    cmdDone d r 0 (cmdA b) 0 (s.dramWrite (cmdB b) ((List.range (cmdA b)).map fun i => bs.getD i 0)).2 := by
  simp [hifDmaw, h, hs, hc, hl]

theorem hifDmaw_fail (bs : List Byte) (hl : hitsLedger s c (cmdB b) (cmdA b) = false) : hifDmaw d r false bs b s =
    hostDataFail d r (min (cmdA b) bs.length)
      (s.dramWrite (cmdB b) ((List.range (min (cmdA b) bs.length)).map fun i => bs.getD i 0)).2 := by
  simp [hifDmaw, h, hs, hc, hl]

theorem hifDmar_read (ecc : Nat) : hifDmar d r ecc b s =
    if ecc = 2 ∨ (ecc = 3 ∧ s.bit c MEM_STAT.MSYNC = false)
      then cmdDone d r 5 0 0 (eccRead c (cmdB b) ecc (s.dramRead (cmdB b) (cmdA b)).2)
      else cmdDone d r 0 (cmdA b) 0 (putHost (eccRead c (cmdB b) ecc (s.dramRead (cmdB b) (cmdA b)).2) (cmdAddr b)
        ((s.dramRead (cmdB b) (cmdA b)).1.getD [])) := by
  simp [hifDmar, h, hs, hc]

end

/-! COLOPH (R389) -/

section
variable {s : State} {d r : Nat} {b : List Byte}

theorem hifColoph_bad (ok : Bool) (bs : List Byte) (h : cmdA b < colophonLen s d ∨ cmdAddr b % 64 ≠ 0) :
    hifColoph d r ok bs b s = cmdDone d r 2 0 0 s := if_pos h

variable (hlen : colophonLen s d ≤ cmdA b) (haddr : cmdAddr b % 64 = 0)
include hlen haddr

theorem hifColoph_fail (bs : List Byte) : hifColoph d r false bs b s = hostDataFail d r 0 s := by
  simp [hifColoph, Nat.not_lt.mpr hlen, haddr]

theorem hifColoph_ok (bs : List Byte) : hifColoph d r true bs b s =
    signAsk d (.host r (cmdCid b) (cmdAddr b)) ((List.range 32).map fun i => bs.getD i 0) s := by
  simp [hifColoph, Nat.not_lt.mpr hlen, haddr]

end

/-- Settles O46: the head descriptor says which command starts, and its operands which branch of it runs. -/
theorem hostCommandsHaveTheirEffect : Obligations.HostCommandsHaveTheirEffect := by
  intro s d r hd hd2 hr
  have hi := onCmd_item hd hd2 hr
  refine ⟨fun ok bs ecc => ⟨onCmd_none hi, onCmd_none hi, onCmd_none hi, onCmd_none hi, onCmd_none hi, onCmd_none hi, onCmd_none hi,
    onCmd_none hi, fun h => onItem_eq hi (by simp only [h])⟩, fun b h => onCmd_some hi h rfl, ?block, ?word, fun _ _ => rfl, ?dma,
    dmaOk_iff, ?coloph, fun b h => onItem_eq hi (by simp only [h])⟩
  case block =>
    rintro b n rfl
    refine ⟨fun hbad ok bs => ⟨fun h => onCmd_some hi h (hifRdreg_bad hbad), fun h => onCmd_some hi h (hifWrreg_bad ok bs hbad)⟩,
      fun ha hn haddr bs x => ⟨fun h hx => onCmd_some hi h ?_, fun h => onCmd_some hi h (hifWrreg_ok bs ha hn haddr),
        fun k h hk => onCmd_some hi h ?_⟩⟩
    · rw [hifRdreg_ok ha hn haddr, hx]
    · rw [hifWrreg_fail bs ha hn haddr, hk, hostDataFail]
  case word =>
    intro b
    refine ⟨fun hbad => ⟨fun h => onCmd_some hi h (hifWr1_bad hbad), fun h => onCmd_some hi h (hifMask_bad hbad)⟩,
      fun ha hn => ⟨fun h => onCmd_some hi h (hifWr1_ok ha hn), fun x h hx => onCmd_some hi h ?_⟩⟩
    rw [hifMask_ok ha hn, hx]
  case dma =>
    intro b ok bs ecc
    refine ⟨fun hbad => ⟨fun h => onCmd_some hi h (hifDmaw_bad ok bs hbad), fun h => onCmd_some hi h (hifDmar_bad ecc hbad)⟩,
      fun hok hs => ⟨fun h => onCmd_some hi h (hifDmaw_away ok bs hok hs), fun h => onCmd_some hi h (hifDmar_away ecc hok hs)⟩,
      fun c hok hs hc => ⟨fun h hl => onCmd_some hi h (hifDmaw_ledger hok hs hc ok bs hl), fun h hl =>
        ⟨onCmd_some hi h (hifDmaw_ok hok hs hc bs hl), fun k hk => onCmd_some hi h ?_⟩, fun x t h hx ht => onCmd_some hi h ?_⟩⟩
    · rw [hifDmaw_fail hok hs hc bs hl, hk, hostDataFail]
    · rw [hifDmar_read hok hs hc, ht, hx]
  case coloph =>
    intro b ok bs h
    exact ⟨fun hbad => onCmd_some hi h (hifColoph_bad ok bs hbad), fun hlen haddr =>
      ⟨onCmd_some hi h (hifColoph_fail hlen haddr bs), onCmd_some hi h (hifColoph_ok hlen haddr bs)⟩⟩

end Sys2Proof.Machine
end

section
/-!
The link of a function and its loss (R378, R379, R397, R398).
-/

namespace Sys2Proof.Machine

section
variable {s : State} {d r gen width : Nat}

theorem linkTrained_eq (d gen width : Nat) (s : State) : linkTrained d gen width s =
    if s.bit d HIF_ID.BONDED = true ∧ s.bit d HIF_ID.ENABLED = true ∧ 1 ≤ s.rd d GLB_PHASE.PHASE then
      ((s.wr d HIF_ID.LINKUP 1).wr d HIF_ID.GEN gen).wr d HIF_ID.WIDTH width else s := by
  simp only [linkTrained, Bool.and_eq_true, decide_eq_true_eq, and_assoc]

/-- A loss that finds no function, or none with a link, changes nothing. -/
theorem functionLost_off {cause : Nat} (h : s.bit d HIF_ID.BONDED = false ∨ s.bit d HIF_ID.ENABLED = false) :
    functionLost d cause s = s := by
  rcases h with h | h <;> simp [functionLost, h]

theorem functionLost_down {cause : Nat} (hc : 1 ≤ cause) (h : s.bit d HIF_ID.LINKUP = false) : functionLost d cause s = s := by
  simp [functionLost, h, Nat.one_le_iff_ne_zero.mp hc]

/-- What a loss of cause `cause` does to a function that it finds (R398). -/
theorem functionLost_found {cause : Nat} (hb : s.bit d HIF_ID.BONDED = true) (he : s.bit d HIF_ID.ENABLED = true)
    (hup : cause = 0 ∨ s.bit d HIF_ID.LINKUP = true) : functionLost d cause s =
      let s := functionOff d s
      let s := if cause = 4 then s else s.forEach (List.range 64) fun r s => (s.wr d HIF_RIDX.HOST 0 r).wr d HIF_RIDX.DEV 0 r
      let s := if cause = 3 then s else ((s.wr d HIF_ID.LINKUP 0).wr d HIF_ID.GEN 0).wr d HIF_ID.WIDTH 0
      let s := if cause = 3 then s.addSat d HIF_LINKCNT.FLR else if cause < 2 then s.addSat d HIF_LINKCNT.PERST
        else s.addSat d HIF_LINKCNT.DOWN
      if cause = 2 ∨ cause = 4 then s.raise d 496 3 0 else s.raise d 500 3 0 := by
  refine if_neg ?_
  rcases hup with rfl | hup
  · simp [hb, he]
  · simp [hb, he, hup]

theorem configHeader_none (h : s.bit d HIF_ID.BONDED = false) : s.configHeader d = none := by
  simp [State.configHeader, h]

theorem configHeader_some (h : s.bit d HIF_ID.BONDED = true) : s.configHeader d = some
    { vendor := 0x1D4B, device := 0x47C1, revision := s.rd d GLB_ID.STEP, classCode := 0x118000, subVendor := s.opt d 0x024 2,
      subId := s.opt d 0x026 2, serial := s.flashLe d 3 8 8 % 2 ^ 32 + d * 2 ^ 32 } := if_pos h

theorem execD3hotChange_up (hl : s.Live d) (hd2 : d < 2) (h : s.bit d HIF_ID.LINKUP = true) (on : Bool) :
    execD3hotChange d on s = .next (s.commit (d3hotChange d on s)) :=
  (onItem_next (by simp [hl.1, hd2])).trans (by simp [hl.2, h])

theorem execD3hotChange_down (hl : s.Live d) (hd2 : d < 2) (h : s.bit d HIF_ID.LINKUP = false) (on : Bool) :
    execD3hotChange d on s = .next (s.commit s) :=
  (onItem_next (by simp [hl.1, hd2])).trans (by simp [h])

theorem d3hotChange_on (d : Nat) (s : State) : d3hotChange d true s = s.wr d HIF_ID.D3 1 := rfl

/-- At its return from D3hot the function sends what has waited (R379, R395). -/
theorem d3hotChange_off (d : Nat) (s : State) : d3hotChange d false s =
    msixFlush d (((s.wr d HIF_ID.D3 0).forEach (List.range 64) fun r s =>
      if toDevice s d r || s.rd d HIF_RSTAT.STATE r != 1 then s else ringDrain d r (s.getRing d r).share.length s).forEach
        (List.range 64) fun r s => if (s.getRing d r).stale then ringShadow d r s else s) := by
  simp only [d3hotChange, b2n, Bool.false_eq_true, if_false]

end

/-- Settles O45: the losses differ in what `functionLost` does by their cause; the rest is the branch that the state takes. -/
theorem theLinkOfAFunctionAndItsLoss : Obligations.TheLinkOfAFunctionAndItsLoss := by
  intro s d r hl hd2 hr
  have hfn : (d < 2 && s.hasDie d : Bool) = true := by simp [hl.1, hd2]
  have hring : (d < 2 && s.hasDie d && r < 64 : Bool) = true := by simp [hl.1, hd2, hr]
  have lost {k : Nat} {t : State} (h1 : 1 ≤ k) (h5 : k < 5) (h : functionLost d k s = t) :
      exec (.functionLost d k) s = .next (s.commit t) := onItem_live_eq hl (by simp [hl.1, hd2, h1, h5]) h
  refine ⟨?training, ?found, fun h => onItem_live_eq hl hfn (functionLost_off h), configHeader_none, configHeader_some, ?notFound,
    ?off, ?d3hot, fun on h => execD3hotChange_down hl hd2 h on, onItem_live hl.2 hring, fun b h => ?data, fun h => ?noData⟩
  case training =>
    intro gen width hg hw
    have hok : (d < 2 && s.hasDie d && gen < 4 && [1, 2, 4, 8].contains width : Bool) = true := by
      simpa [hl.1, hd2, hg] using hw
    refine ⟨fun h => onItem_live_eq hl hok ?_, fun h => onItem_live_eq hl hok ?_⟩
    · exact if_pos h
    · exact (if_neg h).trans (linkTrained_eq d gen width s)
  case found =>
    rintro u v hb he rfl rfl
    have found {k : Nat} := functionLost_found (cause := k) hb he
    refine ⟨onItem_live_eq hl hfn ?_, fun hup => ⟨lost (by decide) (by decide) ?_, lost (by decide) (by decide) ?_,
      lost (by decide) (by decide) ?_, lost (by decide) (by decide) ?_⟩⟩
    · simp [found (.inl rfl)]
    · simp [found (.inr hup)]
    · simp [found (.inr hup)]
    · simp [found (.inr hup)]
    · simp [found (.inr hup)]
  case notFound =>
    rintro k h1 h5 (h | h | h)
    · exact lost h1 h5 (functionLost_off (.inl h))
    · exact lost h1 h5 (functionLost_off (.inr h))
    · exact lost h1 h5 (functionLost_down h1 h)
  case off =>
    rintro t u v rfl rfl
    rfl
  case d3hot =>
    refine fun h => ⟨(execD3hotChange_up hl hd2 h true).trans ?_, (execD3hotChange_up hl hd2 h false).trans ?_⟩
    · rw [d3hotChange_on]
    · rw [d3hotChange_off]
  case data => exact onItem_live_eq hl hring (by simp only [completionTimeout, h, if_true, hostDataFail])
  case noData => exact onItem_live_eq hl hring (by simp only [completionTimeout, h, if_true])

end Sys2Proof.Machine
end

section
/-!
The registers of a tracker (R91, R92, R95, R99, R100, R111): what a write waits for, what it takes, and the coherent read of TRK_ANG.
-/

namespace Sys2Proof.Machine

/-! What a read of a low word latches -/

theorem State.latch_latchWords_other (k : Nat) : ∀ (s : State) (a b : Nat), b < a →
    (s.latchWords a k).latch.get b 0 = s.latch.get b 0 := by
  induction k with
  | zero => intros; rfl
  | succ k ih =>
    intro s a b h
    rw [State.latchWords, ih _ _ _ (by omega)]
    exact Store.get_set_other _ _ _ _ _ _ (by omega)

/-- Each latched word is the register word as it stood. -/
theorem State.latch_latchWords (k : Nat) : ∀ (s : State) (a j : Nat), j < k →
    (s.latchWords a k).latch.get (a + 4 * j) 0 = s.reg (a + 4 * j) := by
  induction k with
  | zero => intro s a j h; omega
  | succ k ih =>
    intro s a j h
    rw [State.latchWords]
    cases j with
    | zero =>
      rw [State.latch_latchWords_other k _ _ _ (by omega)]
      exact Store.get_set_same _ _ _ _
    | succ j =>
      rw [show a + 4 * (j + 1) = a + 4 + 4 * j by omega, ih _ _ _ (by omega)]
      rfl

section
variable {s : State} {d n : Nat}

theorem readData_trkAngRead (s : State) (d n : Nat) : (trkAngRead d n s).readData = (s.reg (TRK_ANG.FRAC.addr d n 0)).toNat := by
  obtain ⟨l, h⟩ := State.latchWords_frame 6 s (TRK_ANG.FRAC.addr d n 0 + 4)
  simp only [trkAngRead, State.answer, h]
  rfl

theorem regs_trkAngRead (s : State) (d n : Nat) : (trkAngRead d n s).regs = s.regs := by
  obtain ⟨l, h⟩ := State.latchWords_frame 6 s (TRK_ANG.FRAC.addr d n 0 + 4)
  simp [trkAngRead, State.answer, h]

theorem latch_trkAngRead {k : Nat} (hk : k < 6) : (trkAngRead d n s).latch.get (TRK_ANG.FRAC.addr d n 0 + 4 + 4 * k) 0 =
    s.reg (TRK_ANG.FRAC.addr d n 0 + 4 + 4 * k) :=
  (Store.get_set_other _ _ _ _ _ _ (by omega)).trans (State.latch_latchWords 6 s _ k hk)

/-- TRK_STAT is latched as the latest set has it. -/
theorem latch_trkAngRead_stat {p : Pub} {q : List Pub} (h : (s.getTrk d n).hist = p :: q) :
    (trkAngRead d n s).latch.get (TRK_ANG.FRAC.addr d n 0 - 4) 0 = BitVec.ofNat 32 p.stat := by
  simp [trkAngRead, State.answer, h]

theorem commit_trkAngRead (s : State) (d n : Nat) : s.commit (trkAngRead d n s) = trkAngRead d n s := by
  obtain ⟨l, h⟩ := State.latchWords_frame 6 s (TRK_ANG.FRAC.addr d n 0 + 4)
  simp [trkAngRead, State.answer, State.commit, h]

/-! The word that a write of TRK_CTRL holds -/

@[simp] theorem State.fincOf_modTrk (s : State) (d n e m : Nat) (f : TrkAx → TrkAx) :
    (s.modTrk d n f).fincOf e m = s.fincOf e m := rfl

@[simp] theorem State.getTrk_raiseAx (s : State) (d n t k e m : Nat) : (s.raiseAx d n t k).getTrk e m = s.getTrk e m := by
  simp only [State.raiseAx, State.raise, State.raiseMsg]
  split <;> rfl

/-- The bandwidth in force is the limit for the code written (R91). -/
theorem getTrk_bwClamp (d n code : Nat) (w : Bool) (s : State) :
    (bwClamp d n code w s).getTrk d n = { s.getTrk d n with bw := bwLimit (s.fincOf d n) code, code := code } := by
  simp only [bwClamp, State.getTrk_wr]
  split <;> simp

@[simp] theorem getTrk_sectorClear (s : State) (d n e m : Nat) : (sectorClear d n s).getTrk e m = s.getTrk e m := by
  simp [sectorClear]

theorem getTrk_trkCtrlTake (d n w : Nat) (s : State) : ∃ x : TrkAx, (trkCtrlTake d n w s).getTrk d n = x ∧ x.typ3 = bitOf w 0 ∧
    x.ppm = bitsOf w 8 4 ∧ x.code = bitsOf w 4 4 ∧ x.bw = bwLimit (s.fincOf d n) (bitsOf w 4 4) := by
  simp only [trkCtrlTake]
  split <;> simp [getTrk_bwClamp]

theorem sectorClear_fields (s : State) (d n : Nat) : (sectorClear d n s).rd d TRK_SECTOR.SECTOR n = 0 ∧
    (sectorClear d n s).rd d TRK_SECTOR.MTURNS n = 0 ∧ (sectorClear d n s).bit d TRK_STAT.MECHVALID n = false := by
  have hstat : TRK_STAT.MECHVALID.addr d n 0 + 4 * TRK_STAT.MECHVALID.nw ≤ TRK_SECTOR.SECTOR.addr d n 0 := by
    simp [Fld.addr, Fld.nw, TRK_STAT.MECHVALID, TRK_SECTOR.SECTOR]
    omega
  refine ⟨?_, ?_, ?_⟩
  · rw [sectorClear, State.rd_wr_other _ _ _ _ TRK_SECTOR.SECTOR _ _ _ _ _ (.inr hstat),
      State.rd_wr_bits _ _ _ TRK_SECTOR.MTURNS TRK_SECTOR.SECTOR _ _ _ _ _ rfl rfl (by decide), State.rd_wr_same, Nat.zero_mod]
  · rw [sectorClear, State.rd_wr_other _ _ _ _ TRK_SECTOR.MTURNS _ _ _ _ _ (.inr hstat), State.rd_wr_same, Nat.zero_mod]
  · rw [sectorClear, State.bit, State.rd_wr_same]
    rfl

/-- A change of P leaves no sector, no turns and MECHVALID 0 (R99). -/
theorem trkCtrlTake_sectors {w : Nat} (h : (s.getTrk d n).ppm ≠ bitsOf w 8 4) : (trkCtrlTake d n w s).rd d TRK_SECTOR.SECTOR n = 0 ∧
    (trkCtrlTake d n w s).rd d TRK_SECTOR.MTURNS n = 0 ∧ (trkCtrlTake d n w s).bit d TRK_STAT.MECHVALID n = false := by
  obtain ⟨u, hu⟩ : ∃ u, trkCtrlTake d n w s = sectorClear d n u := ⟨_, if_neg h⟩
  rw [hu]
  exact sectorClear_fields u d n

theorem trkCtrlApply_none (h : (s.getTrk d n).pendCtrl = none) : trkCtrlApply d n s = s := by
  simp only [trkCtrlApply, h]

theorem trkCtrlApply_some {w : Word} {e : Nat} (h : (s.getTrk d n).pendCtrl = some (w, e)) : trkCtrlApply d n s =
    trkCtrlTake d n w.toNat (((s.passTo e).toGrid 1000).modTrk d n fun x => { x with pendCtrl := none }) := by
  simp only [trkCtrlApply, h]

theorem trkRearm_invalid (h : s.bit d TRK_STAT.ANGVALID n = false) : trkRearm d n s = s := by
  simp [trkRearm, h]

theorem trkRearm_held (h : s.bit d TRK_STAT.ANGVALID n = true) (hh : s.bit d TRK_STAT.HOLD n = true) :
    trkRearm d n s = ((s.modTrk d n fun t => { t with rearmAt := some s.pt }).wr d TRK_STAT.HOLD 0 n).refreshAxis d n := by
  simp [trkRearm, h, hh]

theorem trkRearm_free (h : s.bit d TRK_STAT.ANGVALID n = true) (hh : s.bit d TRK_STAT.HOLD n = false) :
    trkRearm d n s = (s.wr d TRK_STAT.HOLD 0 n).refreshAxis d n := by
  simp [trkRearm, h, hh]

/-- A write of TRK_CTRL (R92, R108, R111): what acts at once, what waits, and a REARM. -/
theorem trkCtrlWrite_eq {v : Word} {t : Nat} {u x y : State}
    (hu : u = (((((s.wr d TRK_CTRL.COASTOK (bitsOf v.toNat 16 1) n).wr d TRK_CTRL.COAST (min (bitsOf v.toNat 24 8) 200) n).wr d
      TRK_CTRL.TYPE (bitsOf v.toNat 0 1) n).wr d TRK_CTRL.BW (bitsOf v.toNat 4 4) n).wr d TRK_CTRL.PPM1 (bitsOf v.toNat 8 4) n))
    (hx : x = if 200 < bitsOf v.toNat 24 8 then u.raiseAx d n 6 3 else u)
    (hy : y = if s.rd d TRK_CTRL.TYPE n ≠ bitsOf v.toNat 0 1 ∨ s.rd d TRK_CTRL.BW n ≠ bitsOf v.toNat 4 4 ∨
      s.rd d TRK_CTRL.PPM1 n ≠ bitsOf v.toNat 8 4 then x.modTrk d n fun r => { r with pendCtrl := some (v, t + 5000) } else x) :
    trkCtrlWrite n v t d s = if bitOf v.toNat 17 = true then trkRearm d n y else y := by
  subst hu hx hy
  simp only [trkCtrlWrite, Bool.or_eq_true, bne_iff_ne, or_assoc]

end

/-- The words of a field of a register set lie in the set of their axis (R25). -/
theorem Fld.addr_axis (f : Fld) {n k : Nat} (hax : f.ax = 0x1000) (ho : f.off % 0x10000 + 4 * (f.lo / 32) + k < 0x1000) (hn : n < 8) :
    (f.addr 0 n 0 + k) % 0x10000 / 0x1000 = n := by
  rw [Fld.addr, hax]
  omega

/-- Settles O7: on a die that holds the set each write is its effect; the held word passes through `trkCtrlTake`. -/
theorem trackerRegistersAreWrittenAndRead : Obligations.TrackerRegistersAreWrittenAndRead := by
  intro s d n v hl hn
  refine ⟨fun hf hh => ?written, fun hh => ⟨trkAngRead d n s, ?_, readData_trkAngRead s d n, regs_trkAngRead s d n,
    fun k hk => latch_trkAngRead hk, fun p q => latch_trkAngRead_stat⟩, fun hh => onAxis_eq hl hn (by simp [hh]), ?apply,
    fun h => onAxis_eq hl hn (trkCtrlApply_none h)⟩
  case written =>
    have rearm {t : State} (h : trkRearm d n s = t) : exec (.trkRearm d n) s = .next (s.commit t) :=
      onAxis_eq hl hn ((axisWrite_applied hf hh (Fld.addr_axis TRK_CTRL.TYPE (k := 0) rfl (by decide) hn)).trans h)
    refine ⟨fun u x y hu hx hy => onAxis_eq hl hn ?_, fun h => rearm (trkRearm_invalid h), fun h hh => rearm (trkRearm_held h hh),
      fun h hh => rearm (trkRearm_free h hh), onAxis_eq hl hn ?_, onAxis_eq hl hn ?_⟩
    · exact (axisWrite_applied hf hh (Fld.addr_axis TRK_CTRL.TYPE (k := 0) rfl (by decide) hn)).trans (trkCtrlWrite_eq hu hx hy)
    · exact axisWrite_applied hf hh (Fld.addr_axis TRK_SECTOR.SECTOR (k := 0) rfl (by decide) hn)
    · exact axisWrite_applied hf hh (Fld.addr_axis TRK_XREQ.PT rfl (by decide) hn)
  case apply =>
    rintro w e u x h rfl rfl
    obtain ⟨y, hy, htyp, hppm, hcode, hbw⟩ := getTrk_trkCtrlTake d n w.toNat
      (((s.passTo e).toGrid 1000).modTrk d n fun x => { x with pendCtrl := none })
    rw [hy]
    exact ⟨onAxis_eq hl hn (trkCtrlApply_some h), htyp, hppm, hcode, hbw, trkCtrlTake_sectors⟩
  · rw [← commit_trkAngRead]
    exact onAxis_eq hl hn (if_pos hh)

end Sys2Proof.Machine
end

section
/-!
The clock monitor and holdover (R42), the spine links (R20, R58) and the time exchange (R45, R48, R49).
-/

namespace Sys2Proof.Machine

section
variable {s : State} {d : Nat}

theorem rootFail_once (h : (s.getDie d).rootOut = true) : rootFail d s = s := if_pos h

theorem rootFail_first (h : (s.getDie d).rootOut = false) :
    rootFail d s = (s.modDie d fun x => { x with rootOut := true }).raise d 273 1 0 := if_neg (by simp [h])

theorem rootGood_again (h : (s.getDie d).rootOut = true) :
    rootGood d s = (s.modDie d fun x => { x with rootOut := false }).raise d 273 2 0 := if_pos h

theorem rootGood_still (h : (s.getDie d).rootOut = false) : rootGood d s = s := if_neg (by simp [h])

/-- What a window of the monitor shows and judges before it looks at the 1 % bound (R42): REFOK, and the end of a relock. -/
def windowShown (d : Nat) (ref : Bool) (s : State) : State :=
  if ref = true then s.wr d CLK_STAT.REFOK 1 else (s.wr d CLK_STAT.REFOK 0).modDie d fun x => { x with relock := false }

/-- How far a window of `count` lies from 1,000 watch cycles, in the unit of R42. -/
def windowOff (d count : Nat) (s : State) : Nat := ((count : Int) * s.flashLe d 3 0x10 4 - 156250000000).natAbs

/-- The watch oscillator is judged only against a root locked to the reference. -/
def windowJudged (d : Nat) (ref : Bool) (off : Nat) (s : State) : State :=
  if ref = true ∧ s.bit d CLK_STAT.HOLDOVER = false then watchJudge d (decide (off * 10 ≤ 156250000000)) s else s

/-- A root within 1 % is good again, unless the die is in holdover. -/
def windowGood (d : Nat) (s : State) : State := if (s.getDie d).holdoverAt = none then rootGood d s else s

/-- The window of the monitor, step by step. -/
theorem clockWindow_eq (d : Nat) (ref : Bool) (count : Nat) (s : State) : clockWindow d ref count s =
    if (windowShown d ref s).bit d CLK_STAT.ROOTLOCK = false then windowShown d ref s
    else
      let off := windowOff d count (windowShown d ref s)
      let v := windowJudged d ref off (windowShown d ref s)
      if 156250000000 < off * 100 then rootFail d v
      else if ref = false ∧ (windowGood d v).bit d CLK_STAT.HOLDOVER = false then
        (((windowGood d v).wr d CLK_STAT.HOLDOVER 1).modDie d fun x =>
          { x with holdoverAt := some (windowGood d v).now, relock := false }).raise d 272 1 0
      else windowGood d v := by
  have hgood (v : State) : (if (v.getDie d).holdoverAt.isSome then v else rootGood d v) = windowGood d v := by
    cases h : (v.getDie d).holdoverAt <;> simp [windowGood, h]
  cases ref <;>
    simp only [clockWindow, hgood, windowShown, windowOff, windowJudged, b2n, Bool.not_eq_true', Bool.false_and,
      Bool.true_and, Bool.not_true, Bool.not_false, Bool.false_eq_true, Bool.true_eq_false, if_true, if_false, false_and, true_and]

theorem clockWindow_unlocked {ref : Bool} {count : Nat} {u : State} (hu : u = windowShown d ref s)
    (h : u.bit d CLK_STAT.ROOTLOCK = false) : clockWindow d ref count s = u := by
  subst hu
  rw [clockWindow_eq, if_pos h]

section
variable {ref : Bool} {count off : Nat} {u v w : State} (hu : u = windowShown d ref s) (hoff : off = windowOff d count u)
  (hv : v = windowJudged d ref off u) (hw : w = windowGood d v) (h : u.bit d CLK_STAT.ROOTLOCK = true)
include hu hoff hv h

theorem clockWindow_failed (hfar : 156250000000 < off * 100) : clockWindow d ref count s = rootFail d v := by
  subst hu hoff hv
  rw [clockWindow_eq, if_neg (by simp [h])]
  exact if_pos hfar

include hw

theorem clockWindow_good (hnear : off * 100 ≤ 156250000000) (href : ref = true ∨ w.bit d CLK_STAT.HOLDOVER = true) :
    clockWindow d ref count s = w := by
  subst hu hoff hv hw
  rw [clockWindow_eq, if_neg (by simp [h])]
  refine (if_neg (Nat.not_lt.mpr hnear)).trans (if_neg ?_)
  rintro ⟨rfl, hh⟩
  simp [hh] at href

theorem clockWindow_holdover (hnear : off * 100 ≤ 156250000000) (href : ref = false) (hh : w.bit d CLK_STAT.HOLDOVER = false) :
    clockWindow d ref count s =
      ((w.wr d CLK_STAT.HOLDOVER 1).modDie d fun x => { x with holdoverAt := some w.now, relock := false }).raise d 272 1 0 := by
  subst hu hoff hv hw
  rw [clockWindow_eq, if_neg (by simp [h])]
  exact (if_neg (Nat.not_lt.mpr hnear)).trans (if_pos ⟨href, hh⟩)

end

/-! Spine links -/

theorem spineLink_same {l : Nat} {up : Bool} (h : s.linkUp l = up) : spineLink l up s = s := if_pos h

theorem spineLink_down {l : Nat} (h : s.linkUp l = true) : spineLink l false s =
    { s with spineDown := s.spineDown.set l true false }.forEach [l, (l + 1) % s.dies] fun d s =>
      if (s.getDie d).inReset then s else s.raise d 278 1 l := by
  simp [spineLink, h]

theorem spineLink_up {l : Nat} {u : State} (h : s.linkUp l = false)
    (hu : u = { s with spineDown := s.spineDown.set l false false }.forEach [l, (l + 1) % s.dies] fun d s =>
      if (s.getDie d).inReset then s else s.raise d 278 2 l) :
    spineLink l true s = u.forEach [l, (l + 1) % u.dies] rootLate := by
  simp [spineLink, h, hu]

/-! The time exchange -/

/-- An exchange that finds no other die as master in reach, or no locked root, changes nothing. -/
theorem spineTime_idle {skew : Int} (h : s.master = none ∨ (∃ m, s.master = some m ∧ (m = d ∨ s.reach d m = false)) ∨
    s.bit d CLK_STAT.ROOTLOCK = false) : spineTime d skew s = s := by
  rcases hm : s.master with _ | m
  · simp only [spineTime, hm]
  · simp only [spineTime, hm]
    refine if_pos ?_
    rcases h with h | ⟨k, hk, h⟩ | h
    · simp [hm] at h
    · obtain rfl : m = k := by simpa [hm] using hk
      simpa using h.imp_right .inl
    · simp [h]

/-- The skew of a die, as an exchange records it (R45). -/
theorem rd_maxskew_wrI (s : State) (d : Nat) (v : Int) : (s.wrI d CLK_SKEW.SKEW v).rd d CLK_SKEW.MAXSKEW = s.rd d CLK_SKEW.MAXSKEW :=
  State.rd_wr_bits _ _ _ _ _ _ _ _ _ _ rfl rfl (by decide)

theorem spineTime_found {m : Nat} {skew : Int} {u v : State} (hm : s.master = some m) (hmd : m ≠ d) (hr : s.reach d m = true)
    (hlock : s.bit d CLK_STAT.ROOTLOCK = true) (hu : u = s.inject d 9 278 7 ((d + s.links - 1) % s.links))
    (hv : v = (u.wrI d CLK_SKEW.SKEW (satI 16 skew)).wr d CLK_SKEW.MAXSKEW
      (max ((u.wrI d CLK_SKEW.SKEW (satI 16 skew)).rd d CLK_SKEW.MAXSKEW) (min skew.natAbs 65535))) :
    spineTime d skew s =
      if skew.natAbs ≤ (if v.bit d CLK_STAT.HOLDOVER = true ∨ v.bit m CLK_STAT.HOLDOVER = true then 400 else 100) then alignTime d v
      else if v.bit d CLK_STAT.PTALIGNED then showMaster ((v.wr d CLK_STAT.PTALIGNED 0).raise d 275 1 0) else v := by
  subst hu hv
  simp [spineTime, hm, hmd, hr, hlock, rd_maxskew_wrI]

theorem alignTime_some {m : Nat} {u v w : State} (hm : s.master = some m)
    (hu : u = if (s.getDie d).joined = true ∧ s.bit d CLK_STAT.PTALIGNED = false then s.raise d 275 2 0 else s)
    (hv : v = (u.wr d CLK_STAT.PTALIGNED 1).modDie d fun x => { x with ptOff := 0 })
    (hw : w = v.wr d CLK_STAT.FABLOCK (v.rd m CLK_STAT.FABLOCK)) :
    alignTime d s = showMaster (if d < m then masterMoves m d w else w) := by
  subst hu hv hw
  simp only [alignTime, hm, Bool.and_eq_true, Bool.not_eq_true']

end

/-- Settles O22: each command is one branch of its operation, and the window of the monitor is taken step by step. -/
theorem clockMonitorHoldoverAndSpine : Obligations.ClockMonitorHoldoverAndSpine := by
  intro s d hl
  refine ⟨?window, fun h => ⟨rootFail_first h, rootGood_still h⟩, fun h => ⟨rootGood_again h, rootFail_once h⟩,
    fun h => onLive_eq hl (if_pos h), fun h => onLive_eq hl (if_neg (by simp [h])), fun h => onLive_eq hl (if_pos h),
    fun h => onLive_eq hl (if_neg (by simp [h])), fun t h => onLive_eq hl (by simp only [holdoverTimeout, h]),
    fun h => onLive_eq hl (by simp only [holdoverTimeout, h]), ?fails, ?returns, ?exchange, ?idle, fun m u v w => alignTime_some⟩
  case window =>
    intro ref count off u v w hu hoff hv hw
    exact ⟨fun h => onLive_eq hl (clockWindow_unlocked hu h), fun h hfar => onLive_eq hl (clockWindow_failed hu hoff hv h hfar),
      fun h hnear href => onLive_eq hl (clockWindow_good hu hoff hv hw h hnear href),
      fun h hnear href hh => onLive_eq hl (clockWindow_holdover hu hoff hv hw h hnear href hh)⟩
  case fails =>
    intro l hlinks hup
    exact ⟨onItem_eq (by simpa using hlinks) (spineLink_down hup), onItem_eq (by simpa using hlinks) (spineLink_same hup)⟩
  case returns =>
    intro l u hlinks hdown hu
    exact ⟨onItem_eq (by simpa using hlinks) (spineLink_up hdown hu), onItem_eq (by simpa using hlinks) (spineLink_same hdown)⟩
  case exchange =>
    intro m skew u v hm hmd hj hr hlock hu hv b hb
    have found := spineTime_found hm hmd hr hlock hu hv
    rw [← hb] at found
    refine ⟨fun h => onLive_eq hl ?_, fun h ha => onLive_eq hl ?_, fun h ha => onLive_eq hl ?_⟩
    · rw [if_pos hj, found, if_pos h]
    · rw [if_pos hj, found, if_neg (Nat.not_le.mpr h), if_pos ha]
    · rw [if_pos hj, found, if_neg (Nat.not_le.mpr h), if_neg (by simp [ha])]
  case idle =>
    rintro skew (h | h | h | h)
    · exact onLive_eq hl ((ite_eq_right_iff).mpr fun _ => spineTime_idle (.inl h))
    · exact onLive_eq hl ((ite_eq_right_iff).mpr fun _ => spineTime_idle (.inr (.inl h)))
    · exact onLive_eq hl (if_neg (by simp [h]))
    · exact onLive_eq hl ((ite_eq_right_iff).mpr fun _ => spineTime_idle (.inr (.inr h)))

end Sys2Proof.Machine
end

section
/-!
Flash commands (R464 to R473) and the load of the option area (R18, R461, R462).
-/

namespace Sys2Proof.Machine

section
variable {s : State} {d : Nat}

/-! A command is refused or accepted -/

/-- The commands by the code and area that they write to NVF_CMD. -/
theorem exec_nvfCmd {i : Instr} {a op ar : Nat} (hl : s.Live d) (h : (i, op, ar) ∈ ([(.nvfProg d a, 1, a % 4), (.nvfErase d a, 2, a % 4),
    (.nvfBlank d a, 3, a % 4), (.nvfUnlock d, 4, 0), (.nvfRelock d, 5, 0)] : List (Instr × Nat × Nat))) :
    exec i s = .next (s.commit (nvfCmd op ar d s)) := by
  have hall : ([(.nvfProg d a, 1, a % 4), (.nvfErase d a, 2, a % 4), (.nvfBlank d a, 3, a % 4), (.nvfUnlock d, 4, 0),
      (.nvfRelock d, 5, 0)] : List (Instr × Nat × Nat)).Forall fun z => exec z.1 s = .next (s.commit (nvfCmd z.2.1 z.2.2 d s)) :=
    ⟨onLive_live hl, onLive_live hl, onLive_live hl, onLive_live hl, onLive_live hl⟩
  exact List.forall_iff_forall_mem.mp hall _ h

/-- The refusals in the order of R464. -/
theorem nvfRefuse_eq (s : State) (d op ar o : Nat) : nvfRefuse s d op ar o =
    if s.bit d NVF_STAT.BUSY = true then 1 else if op = 0 ∨ 5 < op ∨ ar = 3 then 2
    else if op < 4 ∧ (areaSize ar ≤ o ∨ (op = 1 ∧ o % 16 ≠ 0)) then 3 else if op < 3 ∧ sectorProt s d ar (o / sectorSize ar) = true then 4
    else if op = 1 ∧ sectorInt s d ar (o / sectorSize ar) = true then 6 else if op = 1 ∧ unitUsed s d ar o = true then 5
    else if op = 4 ∧ s.bit d NVF_PROT.LOCKOUT = true then 8
    else if op = 4 ∧ s.bit d NVF_PROT.NOPW = false ∧ keyOf s d ≠ password s d then 7 else 0 := by
  simp only [nvfRefuse, Bool.and_eq_true, decide_eq_true_eq, beq_iff_eq, Bool.not_eq_true', bne_iff_ne, and_assoc]

section
variable {op ar e : Nat} {w u : State} (he : e = nvfRefuse s d op ar (s.rd d NVF_ADDR.ADDR))
  (hw : w = if op = 4 ∧ e ≠ 1 ∧ e ≠ 2 then clearKeys d s else s)
include he hw

theorem nvfCmd_refused (h0 : e ≠ 0) (h7 : e ≠ 7) : nvfCmd op ar d s = (w.wr d NVF_STAT.ERR e).raise d 544 3 e := by
  subst he hw
  simp only [nvfCmd, if_pos h0, if_neg h7, nvfErr]

theorem nvfCmd_wrongPassword (h7 : e = 7) : nvfCmd op ar d s = nvfErr d 7 (unlockFail d w) := by
  subst hw
  simp only [nvfCmd, ← he, h7, if_true, ne_eq, OfNat.ofNat_ne_zero, not_false_eq_true]

theorem nvfCmd_accepted (hu : u = ((((w.wr d NVF_STAT.BUSY 1).wr d NVF_STAT.ERR 0).wr d NVF_STAT.LASTOP op).modNvf d fun _ =>
      some { op := op, area := ar, addr := s.rd d NVF_ADDR.ADDR, data := (List.range 4).flatMap fun k => leBytes (w.rd d NVF_DATA.DATA k) 4 }))
    (h0 : e = 0) : nvfCmd op ar d s = if u.bit d PWR_STAT.DIP = true then u.wr d NVF_STAT.WAIT 1 else nvfStart d u := by
  subst hw hu
  simp only [nvfCmd, ← he, h0, ne_eq, not_true_eq_false, if_false]

end

/-! A command starts and completes -/

section
variable {r : NvfRun} (h : s.getNvf d = some r)
include h

theorem nvfStart_some : nvfStart d s =
    let u := s.modNvf d fun _ => some { r with started := true }
    match r.op with
    | 2 => u.modMark d r.area (r.addr / sectorSize r.area) fun x =>
        { x with intent := some (u.ptD d, ((x.done.map fun y => y.2 + 1).getD 1) % 2 ^ 32), done := none, bad := false }
    | 4 => (u.wr d NVF_PROT.UNLOCKED 1).wr d NVF_PROT.FAILS (if u.bit d NVF_PROT.NOPW then u.rd d NVF_PROT.FAILS else 0)
    | 5 => u.wr d NVF_PROT.UNLOCKED 0
    | _ => u := by
  simp only [nvfStart, h] <;> rfl

/-- What the end of a started command leaves of its target, before it shows itself done (R466). -/
def nvfEffect (d : Nat) (r : NvfRun) (s : State) : State :=
  let k := r.addr / sectorSize r.area
  match r.op with
  | 1 => putUnit d r.area r.addr r.data s
  | 2 =>
    setInt d r.area k false ((eraseSector d r.area k s).modMark d r.area k fun x =>
      { x with done := (x.intent.map Prod.snd).map fun c => ((eraseSector d r.area k s).ptD d, c), told := false })
  | 3 =>
    match ((List.range (sectorSize r.area / 16)).map fun u => k * sectorSize r.area + 16 * u).find? fun o => unitUsed s d r.area o with
    | none => s.wr d NVF_STAT.BLANK 1
    | some o => (s.wr d NVF_STAT.BLANK 0).wr d NVF_ERRADDR.ADDR o
  | _ => s

theorem nvfComplete_started (hs : r.started = true) (hsusp : s.bit d NVF_STAT.SUSP = false) : nvfComplete d s =
    ((((nvfEffect d r s).modNvf d fun _ => none).wr d NVF_STAT.BUSY 0).wr d NVF_STAT.DONE 1).setIrqs d 22 true := by
  simp only [nvfComplete, h, hs, hsusp] <;> rfl

theorem nvfComplete_waits (hs : r.started = false ∨ s.bit d NVF_STAT.SUSP = true) : nvfComplete d s = s := by
  rcases hs with hs | hs <;> simp [nvfComplete, h, hs]

end

theorem nvfComplete_none (h : s.getNvf d = none) : nvfComplete d s = s := by
  simp only [nvfComplete, h]

/-! The erase markers and the option area -/

theorem markSelect_good {v : Word} {x : Marker} (hx : x = s.getMark d (bitsOf v.toNat 8 2) (bitsOf v.toNat 0 8)) (h : x.bad = false) :
    markSelect v d s = (s.wr d NVF_MARK.INTENT (markUnit 0x54544E49 x.intent)).wr d NVF_MARK.DONE (markUnit 0x454E4F44 x.done) := by
  subst hx
  simp [markSelect, h]

theorem markSelect_bad {v : Word} {x : Marker} (hx : x = s.getMark d (bitsOf v.toNat 8 2) (bitsOf v.toNat 0 8)) (h : x.bad = true) :
    markSelect v d s = ((s.wr d NVF_MARK.INTENT s.free).wr d NVF_MARK.DONE (markUnit 0x454E4F44 x.done)).drew := by
  subst hx
  simp [markSelect, h]

theorem optionLoad_idle (ea eb ec : Bool) (h : s.rd d GLB_PHASE.PHASE ≠ 1 ∨ (s.getDie d).optOk = true) : optionLoad d ea eb ec s = s :=
  if_pos (by simpa using h)

theorem optionLoad_runs {ea eb ec va vb p : Bool} {u w x y : State} (hphase : s.rd d GLB_PHASE.PHASE = 1)
    (hopt : (s.getDie d).optOk = false) (hu : u = classArea d 2 (classArea d 1 (classArea d 0 s))) (hva : va = copyValid u d 0 ea)
    (hvb : vb = copyValid u d 1 eb) (hp : p = if (va && vb) = true then decide (u.flashLe d 2 8 4 < u.flashLe d 2 0x808 4) else vb)
    (hw : w = ((u.wr d NVF_OPT.VALIDA (b2n va)).wr d NVF_OPT.VALIDB (b2n vb)).wr d NVF_OPT.COPY (b2n p))
    (hx : x = if (va != vb) = true then w.raise d 550 3 (b2n p) else w)
    (hy : y = if calOk x d ec = true then x.wr d EXC_STAT.CALVER (x.flashLe d 3 4 2) else x.raise d 549 3 0) :
    optionLoad d ea eb ec s = if ((va || vb) && calOk x d ec) = true then
        trainStart d (optCompare d (optApply d ((y.modDie d fun x => { x with noPads := false }).modDie d fun x => { x with optOk := true })))
      else padsOff d y := by
  have hrun : ¬ ((decide (s.rd d GLB_PHASE.PHASE ≠ 1) || (s.getDie d).optOk) = true) := by simp [hphase, hopt]
  have hboth (b c : Bool) (t e : State) : (if (!b || !c) = true then e else t) = if (b && c) = true then t else e := by
    cases b <;> cases c <;> rfl
  simp only [optionLoad, if_neg hrun, hboth, ← hu, ← hva, ← hvb, ← hp, ← hw, ← hx, ← hy]

/-- A die's mark of a mismatch, and of a reset since (R18). -/
def optMark (bad clean : Bool) (d : Nat) (s : State) : State := s.modDie d fun z => { z with optMismatch := bad, optClean := clean }

theorem optCompare_unloaded {e : Nat} (he : e = mateOf d) (h : (s.getDie e).inReset = true ∨ (s.getDie e).optOk = false) :
    optCompare d s = s := by
  subst he
  rcases h with h | h <;> simp [optCompare, h]

/-- The comparison with a mate that has loaded its options (R18): by whether they differ, and by what stood marked. -/
theorem optCompare_loaded {e : Nat} (he : e = mateOf d) (hr : (s.getDie e).inReset = false) (ho : (s.getDie e).optOk = true) :
    optCompare d s =
      if optDiffers s d e then
        ((optMark true false e (optMark true false d (s.holdBalls (d / 2)))).raise d 551 3 0).raise e 551 3 0
      else if (s.getDie e).optMismatch && !(s.getDie e).optClean then optMark true true d s
      else if (s.getDie e).optMismatch then
        setMode e (s.getDie d).optMode (s.getDie d).optSplit (setMode d (s.getDie d).optMode (s.getDie d).optSplit
          (optMark false false e (optMark false false d s)))
      else s := by
  subst he
  simp only [optCompare, hr, ho, optMark, Bool.not_true, Bool.or_false, Bool.false_eq_true, if_false]

end

/-- Settles O27: each command runs its operation, and each clause is one branch of it. -/
theorem flashCommandsRunAndComplete : Obligations.FlashCommandsRunAndComplete := by
  intro s d a v hl
  refine ⟨?command, nvfRefuse_eq s d, ?start, ?complete, ?notComplete, fun x hx => ⟨fun h => onLive_eq hl (markSelect_good hx h),
    fun h => onLive_eq hl (markSelect_bad hx h)⟩, ?load, fun ea eb ec h => onLive_eq hl (optionLoad_idle ea eb ec h), ?compare⟩
  case command =>
    intro i op ar e w u hi he hw hu
    rw [exec_nvfCmd hl hi]
    refine ⟨fun h0 h7 => by rw [nvfCmd_refused he hw h0 h7], fun h7 x hx => ?_, fun h0 => by rw [nvfCmd_accepted he hw hu h0]⟩
    rw [nvfCmd_wrongPassword he hw h7, hx]
    rfl
  case start =>
    rintro r u h rfl
    rw [nvfStart_some h]
    refine ⟨fun hop => by simp only [hop], fun hop => by simp only [hop], fun hop => by simp only [hop], fun h2 h4 h5 => ?_⟩
    split
    · exact absurd ‹_› h2
    · exact absurd ‹_› h4
    · exact absurd ‹_› h5
    · rfl
  case complete =>
    intro r k fin h hs hsusp hk hfin
    have hdone {t : State} (ht : nvfEffect d r s = t) : exec (.nvfCmdComplete d) s = .next (s.commit (fin t)) := by
      refine onLive_eq hl ?_
      rw [nvfComplete_started h hs hsusp, ht, hfin]
    subst hk
    refine ⟨fun hop => hdone ?_, fun hop => hdone ?_, fun hop o ho => hdone ?_, fun h1 h2 h3 => hdone ?_⟩
    · simp only [nvfEffect, hop]
    · simp only [nvfEffect, hop]
    · subst ho
      simp only [nvfEffect, hop] <;> rfl
    · unfold nvfEffect
      split
      · exact absurd ‹_› h1
      · exact absurd ‹_› h2
      · exact absurd ‹_› h3
      · rfl
  case notComplete =>
    rintro (h | ⟨r, h, hs⟩)
    · exact onLive_eq hl (nvfComplete_none h)
    · exact onLive_eq hl (nvfComplete_waits h hs)
  case load =>
    intro ea eb ec u va vb p w x y hphase hopt hu hva hvb hp hw hx hy
    exact onLive_eq hl (optionLoad_runs hphase hopt hu hva hvb hp hw hx hy)
  case compare =>
    intro e mark he hmark
    refine ⟨optCompare_unloaded he, fun hr ho => ?_⟩
    rw [optCompare_loaded he hr ho]
    refine ⟨fun h => ?_, fun h hm hc => ?_, fun h hm hc => ?_, fun h hm => ?_⟩
    · simp only [h, if_true, hmark, optMark]
    · simp [h, hm, hc, hmark, optMark]
    · simp [h, hm, hc, hmark, optMark]
    · simp [h, hm]

end Sys2Proof.Machine
end

section
/-!
Resets of a die and of the package, and the watchdog (R50 to R54, R292, R301, R487).
-/

namespace Sys2Proof.Machine

/-! Entering reset -/

section
variable {s a b c e f g : State} {d mask : Nat} {line low : Bool} {cs : List ResetCause}
  (ha : a = s.holdBalls (d / 2))
  (hmask : mask = (List.range 8).foldl (fun k n => putBit k n (a.owns d n)) 0)
  (hb : b = dropDie d (leaveServices d a))
  (hc : c = b.setReg (GLB_RSTCAUSE.POR.addr d 0 0) (BitVec.ofNat 32
    (if cs.contains .por = true then 0 else (a.reg (GLB_RSTCAUSE.POR.addr d 0 0)).toNat)))
  (he : e = cs.foldl (fun s c => s.wr d (causeFld c) 1) c)
  (hf : f = e.modDie d fun x => { x with inReset := true, heldMask := mask, resetAt := some e.now, wdtEnd := wdtWindow a d })
  (hg : g = if cs.contains .por = true then f
    else (f.wr d NVF_PROT.FAILS (a.rd d NVF_PROT.FAILS)).wr d NVF_PROT.LOCKOUT (a.rd d NVF_PROT.LOCKOUT))
include ha hmask hb hc he hf hg

/-- Power-on and RSTn forget the trained memory, and power-on takes its mode from the mate (R17). -/
theorem enterReset_hard (h : cs.any isHard = true) : enterReset d cs s = showFaultN (timeFollows (holdPads d
    ((if cs.contains .por = true then g.wr d GLB_ID.PAIRMODE (heldMode a d (cs.contains .por)) else g).modMem d fun _ => {}))) := by
  simp only [enterReset, h, ← ha, ← hmask, ← hb, ← hc, ← he, ← hf, ← hg, if_true]

/-- Every other cause keeps what R487 names. -/
theorem enterReset_soft {i j k : State} (h : cs.any isHard = false)
    (hline : line = ((a.getDie d).holdSafeLine || cs.contains .sev7 || (inForce a d).any fun x => x.sev == 7))
    (hlow : low = drivesFaultN a d)
    (hi : i = (keptFields.map fun f => (f, a.rd d f.1 f.2)).foldl (fun s f => s.wr d f.1.1 f.2 f.1.2)
      (g.wr d GLB_ID.PAIRMODE (heldMode a d (cs.contains .por))))
    (hj : j = i.modDie d fun x => { x with safeProg := (a.getDie d).safeProg, holdFaultN := low, holdSafeLine := line })
    (hk : k = j.forEach (List.range 8) fun n s => s.modEnc d n fun x =>
      { x with pins := emuSafePins s d n (((List.range 8).map fun n => (a.getEnc d n).pins).getD n [.z, .z, .z]) }) :
    enterReset d cs s = showFaultN (timeFollows (holdPads d
      ((k.modFlt d fun f => { f with pkgTake := true }).modMem d fun _ => { was := (a.getMem d).was }))) := by
  simp only [enterReset, h, ← ha, ← hline, ← hmask, ← hlow, ← hb, ← hc, ← he, ← hf, ← hg, ← hi, ← hj, ← hk, Bool.false_eq_true,
    if_false]

end

section
variable {s : State} {d : Nat}

theorem rstnReset_eq (s : State) : rstnReset s = { s.forEach (List.range s.dies) fun d s => enterReset d [.pin] s with
    pt := 0, slewFrom := 0, strobeAt := none, lastAt := [] } := rfl

/-- The three ways of a reset by an event (R52): a release first, into a release in progress, or at once. -/
theorem resetDie_release {c : ResetCause} (h : s.mayRelease d = true) : resetDie d c s = releaseStart d [c] s := if_pos h

theorem resetDie_now {c : ResetCause} (h : s.mayRelease d = false) (hr : (s.getPair d).releasing = none) :
    resetDie d c s = enterReset d [c] s := by
  simp [resetDie, h, hr]

theorem resetDie_joins {c : ResetCause} (h : s.mayRelease d = false) (hr : (s.getPair d).releasing ≠ none) :
    resetDie d c s = s.modPair d fun p =>
      { p with swapping := false, resetAfter := if p.resetAfter.contains c = true then p.resetAfter else p.resetAfter ++ [c] } := by
  obtain ⟨t, ht⟩ := Option.ne_none_iff_exists'.mp hr
  simp only [resetDie, h, ht, Bool.false_eq_true, if_false, Option.isSome_some, if_true]

/-! The watchdog -/

theorem wdtWrite_kick {v : Word} (h : s.bit d GLB_WDT.LOCK = true) (hk : bitsOf v.toNat 24 8 = 0xC3) :
    wdtWrite v d s = s.modDie d fun x => { x with wdtAt := s.now } := by
  simp only [wdtWrite, h, hk, if_true]

theorem wdtWrite_badKey {v : Word} (h : s.bit d GLB_WDT.LOCK = true) (hk : bitsOf v.toNat 24 8 ≠ 0xC3) :
    wdtWrite v d s = s.raise d 256 3 0 := by
  simp only [wdtWrite, h, hk, if_true, if_false]

theorem wdtWrite_stopped {v : Word} {u : State} (h : s.bit d GLB_WDT.LOCK = false)
    (hu : u = (s.wr d GLB_WDT.TIMEOUT v.toNat).wr d GLB_WDT.EN (v.toNat / 65536)) : wdtWrite v d s =
      if bitOf v.toNat 16 = true then (u.wr d GLB_WDT.LOCK 1).modDie d fun x => { x with wdtAt := u.now } else u := by
  subst hu
  simp only [wdtWrite, h, Bool.false_eq_true, if_false, State.now_wr]

theorem watchdogExpiry_due {t due : Nat} (h : s.bit d GLB_WDT.LOCK = true) (ht : t = max 1 (s.rd d GLB_WDT.TIMEOUT))
    (hdue : due = (s.getDie d).wdtAt + t * 24250 + s.free % (t * 1500 + 1)) :
    watchdogExpiry d s = resetDie d .wdt ((s.pass (due - s.now)).drew) := by
  simp only [watchdogExpiry, h, if_true, ← ht, ← hdue]

theorem watchdogExpiry_stopped (h : s.bit d GLB_WDT.LOCK = false) : watchdogExpiry d s = s := if_neg (by simp [h])

/-! Software resets -/

theorem swrstWrite_badKey {m : Nat} {v : Word} (h : bitsOf v.toNat 8 8 ≠ 0xA5) :
    swrstWrite m v d s = s.accessFault d m true 2 5 (GLB_SWRST.SELF.addr d 0 0) := if_pos h

theorem swrstWrite_key {m : Nat} {v : Word} {u : State} (h : bitsOf v.toNat 8 8 = 0xA5)
    (hu : u = if bitOf v.toNat 1 = true then mateReset m d s else s) :
    swrstWrite m v d s = if bitOf v.toNat 0 = true then resetDie d .swr u else u := by
  subst hu
  exact if_neg (not_not.mpr h)

/-- A mate reset is refused where a standby that has not seized asks it of the active die (R54). -/
theorem mateReset_eq (m d : Nat) (s : State) : mateReset m d s =
    if s.divided d = false ∧ (s.rd (mateOf d) PAIR_STAT.ROLE = 1 ∨ s.rd (mateOf d) PAIR_STAT.ROLE = 4) ∧
        (s.rd d PAIR_STAT.ROLE = 2 ∨ s.rd d PAIR_STAT.ROLE = 3) ∧ s.bit d PAIR_STAT.SEIZING = false then
      s.accessFault d m true 2 6 (GLB_SWRST.SELF.addr d 0 0)
    else resetDie (mateOf d) .mate s := by
  simp only [mateReset, Bool.and_eq_true, Bool.or_eq_true, Bool.not_eq_true', beq_iff_eq, and_assoc]

/-! A die that has just been reset (R51) -/

theorem execWatchdogExpiry_live (hl : s.Live d) : execWatchdogExpiry d s = .next (s.commit (watchdogExpiry d s)) :=
  onItem_eq hl.1 (if_neg (by simp [hl.2]))

theorem execWatchdogExpiry_inReset (hd : s.hasDie d = true) (hr : (s.getDie d).inReset = true) : execWatchdogExpiry d s =
    .next (s.commit (match (s.getDie d).wdtEnd with
      | some (a, b) => if a ≤ s.now ∧ s.now ≤ b then coincides d .wdt s else s
      | none => s)) :=
  onItem_eq hd (if_pos hr)

theorem execGlbSwrstSelf_live (hl : s.Live d) (m : Nat) (v : Word) : execGlbSwrstSelf d m v s =
    .next (s.commit (swrstWrite (m % 16) (BitVec.ofNat 32 (putBit v.toNat 0 true)) d s)) :=
  onItem_eq hl.1 (if_neg (by simp [hl.2]))

end

/-- Settles O33: a reset is taken stage by stage, and the rest is the branch that key, role and release take. -/
theorem resetsAndTheWatchdog : Obligations.ResetsAndTheWatchdog := by
  refine ⟨fun s d hd => ⟨onItem_eq hd rfl, fun r hr => onItem_eq (by simp [hd, hr]) rfl, ?rstn, ?enter, fun c => ⟨?release,
    resetDie_now, resetDie_joins⟩⟩, fun s d hl => ⟨?wdt, fun t due h ht hdue => ?expiry, fun h => ?stopped, ?swrst, ?mate⟩,
    fun s d hd hr => ⟨fun c => rfl, fun a b h => ?window, fun h => ?noWindow, fun m v => onItem_eq hd (if_pos hr)⟩⟩
  case rstn =>
    rw [← rstnReset_eq]
    rfl
  case enter =>
    intro cs a b c e f g z line low mask ha hline hmask hlow hb hc he hf hg hhard hsoft
    cases h : cs.any isHard with
    | true => rw [enterReset_hard ha hmask hb hc he hf hg h, hhard h]
    | false => rw [enterReset_soft ha hmask hb hc he hf hg h hline hlow rfl rfl rfl, hsoft h _ _ _ rfl rfl rfl]
  case release =>
    rintro h t rfl
    exact resetDie_release h
  case wdt =>
    intro i w hi
    have hexec : exec i s = .next (s.commit (wdtWrite w d s)) := by
      rcases hi with ⟨v, rfl, rfl⟩ | ⟨key, rfl, rfl⟩
      · exact onLive_live hl
      · exact onLive_live hl
    rw [hexec]
    exact ⟨fun h hk => by rw [wdtWrite_kick h hk], fun h hk => by rw [wdtWrite_badKey h hk], fun h u hu => by rw [wdtWrite_stopped h hu]⟩
  case expiry => exact (execWatchdogExpiry_live hl).trans (by rw [watchdogExpiry_due h ht hdue])
  case stopped => exact (execWatchdogExpiry_live hl).trans (by rw [watchdogExpiry_stopped h])
  case swrst =>
    intro i m w hi
    have hexec : exec i s = .next (s.commit (swrstWrite (m % 16) w d s)) := by
      rcases hi with ⟨v, rfl, rfl⟩ | ⟨v, rfl, rfl⟩
      · exact execGlbSwrstSelf_live hl m v
      · exact onLive_live hl
    rw [hexec]
    exact ⟨fun h => by rw [swrstWrite_badKey h], fun h u hu => by rw [swrstWrite_key h hu]⟩
  case mate =>
    intro m ref href
    rw [mateReset_eq]
    exact ⟨fun h => if_pos (href.mp h), fun h => if_neg fun hc => h (href.mpr hc)⟩
  case window => exact (execWatchdogExpiry_inReset hd hr).trans (by rw [h])
  case noWindow => exact (execWatchdogExpiry_inReset hd hr).trans (by rw [h])

end Sys2Proof.Machine
end

section
/-!
The measured start, the base image, and the entry into full service (R361, R475, R479, R62, R335 to R338).
-/

namespace Sys2Proof.Machine

section
variable {s u v w : State} {d : Nat}

theorem measuredStart_idle (h : (s.getDie d).trained = false ∨ (s.getDie d).measured = true) : measuredStart d s = s := by
  rcases h with h | h <;> simp [measuredStart, h]

theorem measuredStart_runs (ht : (s.getDie d).trained = true) (hm : (s.getDie d).measured = false)
    (hu : u = hartsStart d (((measure d s).modDie d fun x => { x with measured := true }).wr d MSR_VALID.DONE 1))
    (hv : v = if u.rd d GLB_PHASE.PHASE = 3 then u.wr d GLB_PHASE.PHASE 4 else u) : measuredStart d s = signKick d
      (if (!v.divided d && imagesDiffer v d) = true then (v.raise d 482 3 0).raise (mateOf d) 482 3 0 else v) := by
  simp only [measuredStart, ht, hm, ← hu, ← hv, Bool.not_true, Bool.or_false, Bool.false_eq_true, if_false]

theorem baseImageApply_idle (h : s.rd d GLB_PHASE.PHASE ≠ 4 ∨ (s.getDie d).imageDone = true ∨ (s.getDie d).imageBad = true) :
    baseImageApply d s = s := if_pos h

section
variable (hphase : s.rd d GLB_PHASE.PHASE = 4) (hdone : (s.getDie d).imageDone = false) (hbad : (s.getDie d).imageBad = false)
include hphase hdone hbad

theorem baseImageApply_fails (h : imageEnts s d = none) :
    baseImageApply d s = (s.modDie d fun x => { x with imageBad := true }).raise d 482 3 0 := by
  simp [baseImageApply, hphase, hdone, hbad, h]

theorem baseImageApply_good {es : List CfgEnt} {f : Nat} (h : imageEnts s d = some (es, f))
    (hu : u = es.foldl (fun s e => cfgEntry d e s) s)
    (hv : v = ((u.holdBalls (d / 2)).wr d CFG_CUR.F f).modDie d fun x => { x with imageDone := true, safeProg := true })
    (hw : w = v.forEach (List.range 8) fun n s => if s.bit d PWM_CTRL.SAFE n then s.takeSafe d n else s) :
    baseImageApply d s = w.refreshDie d := by
  have hrun : ¬ (s.rd d GLB_PHASE.PHASE ≠ 4 ∨ (s.getDie d).imageDone = true ∨ (s.getDie d).imageBad = true) := by
    simp [hphase, hdone, hbad]
  simp only [baseImageApply, if_neg hrun, h, ← hu, ← hv, ← hw]

end

/-! Full service -/

theorem dieHandOver_eq (hu : u = ((s.holdBalls (d / 2)).wr d GLB_PHASE.PHASE 5).wr d GLB_PHASE.FULL 0xFF) :
    dieHandOver d s = ((u.modPair d fun p => { p with fullAt := some u.pt, base := u.ptD d }).forEach (List.range 8) fun n s =>
      emuHandOver d n (trkHandOver d n (excHandOver d n s))).refreshDie d := by
  simp only [dieHandOver, ← hu]

theorem firstRole_eq {l : List Nat} {m r : Nat} (hm : m = mateOf d) (hr : r = s.rd m PAIR_STAT.ROLE) : firstRole l d s =
    if s.divided d = true then setRole d 5 s else if s.bit d PAIR_STAT.SEIZED = true then setRole d 3 s
    else if d % 2 = 1 ∧ m ∈ l then (setRole d 2 (s.modPair d fun p => { p with shadowAt := s.pt })).wr d PAIR_STAT.RESYNC 3
    else if (r = 1 ∨ r = 4) ∧ (s.bit d PAIR_STAT.PATHA = true ∨ s.bit d PAIR_STAT.PATHB = true) then setRole d 2 s
    else if d % 2 = 0 ∧ r ≠ 1 ∧ r ≠ 4 then setRole d 1 s
    else s.modPair d fun p => { p with startAt := some s.pt } := by
  simp only [firstRole, ← hm, ← hr, List.elem_eq_mem, decide_eq_true_eq, Bool.or_eq_true]

variable {l : List Nat} (hl : l = waitE0 s)
include hl

theorem fullServiceEntry_idle (h : l = [] ∨ s.master = none) : fullServiceEntry s = s :=
  if_pos (by simpa [← hl] using h)

/-- The entry waits for the dies that have not finished, at most until 150 ms after power-good (R361). -/
theorem fullServiceEntry_runs {m : Nat} {done : Prop} (hne : l ≠ []) (hm : s.master = some m)
    (hiff : done ↔ ∀ d, d < s.dies → d ∈ l ∨ 5 ≤ s.rd d GLB_PHASE.PHASE ∨ (s.getDie d).optMismatch = true)
    (hnow : done → u = s) (hlate : ¬ done → u = s.pass ((l.map fun d => (s.getDie d).upAt).foldl max 0 + 375000000 - s.now)) :
    fullServiceEntry s = ((u.pass 5000).forEach l dieHandOver).forEach l (firstRole l) := by
  have hall : ((List.range s.dies).all fun d => l.elem d || decide (5 ≤ s.rd d GLB_PHASE.PHASE) || (s.getDie d).optMismatch) = true ↔
      done := by
    rw [hiff]
    simp [or_assoc]
  have hrun : ¬ (l = [] ∨ s.master.isNone = true) := by simp [hne, hm]
  have hu : u = if ((List.range s.dies).all fun d => l.elem d || decide (5 ≤ s.rd d GLB_PHASE.PHASE) || (s.getDie d).optMismatch) = true
      then s else s.pass ((l.map fun d => (s.getDie d).upAt).foldl max 0 + 375000000 - s.now) := by
    split
    · next h => exact hnow (hall.mp h)
    · next h => exact hlate fun hd => h (hall.mpr hd)
  simp only [fullServiceEntry, ← hl, if_neg hrun, ← hu]

end

/-- Settles O37: the operations take their steps in the statement's order. -/
theorem aDieEntersFullService : Obligations.ADieEntersFullService := by
  refine ⟨fun s d hl => ⟨fun u v ht hm hu hv => onLive_eq hl (measuredStart_runs ht hm hu hv), fun h => onLive_eq hl (measuredStart_idle h),
    fun hphase hdone hbad => ⟨fun h => onLive_eq hl (baseImageApply_fails hphase hdone hbad h), fun es f u v w h hu hv hw =>
      onLive_eq hl (baseImageApply_good hphase hdone hbad h hu hv hw)⟩, fun h => onLive_eq hl (baseImageApply_idle h)⟩,
    fun s w hw => ⟨hw, fun h => ?idle, fun m u done hne hm hiff hnow hlate => ?runs, fun d u => dieHandOver_eq, fun d m r => firstRole_eq⟩⟩
  case idle => exact onItem_eq (ok := true) rfl (fullServiceEntry_idle hw h)
  case runs => exact onItem_eq (ok := true) rfl (fullServiceEntry_runs hw hne hm hiff hnow hlate)

end Sys2Proof.Machine
end

section
/-!
Heartbeats on both paths of a pair (R337, R339 to R342, R345, R353).
-/

namespace Sys2Proof.Machine

section
variable {s u v w : State} {d : Nat}

/-! Sending -/

theorem heartbeatASend_eq (hu : u = s.toNext (State.stepNo 8 d 0) 2500) : heartbeatASend d s = if u.rootRuns d = true then u.modPair d fun p =>
      { p with seqA := (p.seqA + 1) % 2 ^ 32, rootLive := true,
               txA := some (u.rd d PAIR_STAT.ROLE, u.bit d PAIR_STAT.READY, u.rd d PAIR_STAT.PATHA + 2 * u.rd d PAIR_STAT.PATHB) }
    else u := by
  subst hu
  rfl

theorem heartbeatBSend_live (hp : (s.getPair d).rootLive = true) (hr : s.rootRuns d = true) : heartbeatBSend d s = s.modPair d fun p =>
    { p with seqB := (p.seqB + 1) % 16, rootLive := false,
             txB := some (frameB (s.rd d PAIR_STAT.ROLE) (s.bit d PAIR_STAT.READY) p.releasing.isSome (p.seqB + 1)) } :=
  if_pos (by simp [hp, hr])

theorem heartbeatBSend_idle (h : (s.getPair d).rootLive = false ∨ s.rootRuns d = false) : heartbeatBSend d s = s :=
  if_neg (by rcases h with h | h <;> simp [h])

/-! Receiving -/

theorem heartbeatReceive_none {a crc : Bool} (h : beatOf (s.getPair (mateOf d)) a = none) : heartbeatReceive d a crc s = s := by
  simp only [heartbeatReceive, h]

section
variable {a crc ready good : Bool} {r seq chk : Nat}
  (h : beatOf (s.getPair (mateOf d)) a = some (r, ready, seq, good)) (hchk : chk = if a = true then 11 else 12)
  (hu : u = s.inject d chk 464 7 (if a = true then 0 else 1))
include h hchk hu

/-- A beat is turned away for its CRC or by a loud injection (R307). -/
theorem heartbeatReceive_bad (hbad : crc = false ∨ good = false ∨ s.injLoud d chk = true) :
    heartbeatReceive d a crc s = u.addSat d PAIR_HB.CRCERR := by
  simp only [heartbeatReceive, h, ← hchk, ← hu]
  exact if_pos (by simpa [or_assoc] using hbad)

variable (hcrc : crc = true) (hgood : good = true) (hloud : s.injLoud d chk = false)
include hcrc hgood hloud

theorem heartbeatReceive_repeat (hlast : (if a = true then (s.getPair d).lastA else (s.getPair d).lastB) = some seq) :
    heartbeatReceive d a crc s = u := by
  simp only [heartbeatReceive, h, ← hchk, ← hu, hlast]
  simp [hcrc, hgood, hloud]

/-- A valid beat ends the misses, is kept, and may bring its path up. -/
theorem heartbeatReceive_valid {ok : Nat} {x : State}
    (hlast : (if a = true then (s.getPair d).lastA else (s.getPair d).lastB) ≠ some seq)
    (hv : v = u.wr d (if a = true then PAIR_HB.MISSA else PAIR_HB.MISSB) 0)
    (hok : ok = if v.bit d (if a = true then PAIR_STAT.PATHA else PAIR_STAT.PATHB) = true then 0
      else (if a = true then (s.getPair d).okA else (s.getPair d).okB) + 1)
    (hx : x = v.modPair d fun p => p.heard (s.getPair (mateOf d)) a r seq ok v.pt v.now) :
    heartbeatReceive d a crc s = firstBeat d r (mateReady d ready (if 16 ≤ ok then pathAlive d a x else x)) := by
  have hloud' : ¬ ((!crc || !good || s.injLoud d chk) = true) := by simp [hcrc, hgood, hloud]
  simp only [heartbeatReceive, h, ← hchk, ← hu, if_neg hloud', if_neg hlast, ← hv, ← hok, ← hx]

end

theorem mateReady_eq {ready : Bool} (hu : u = s.wr d PAIR_STAT.MREADY (b2n ready))
    (hv : v = if u.bit d PAIR_STAT.SEIZING = true then (u.wr d PAIR_STAT.SEIZING 0).wr (mateOf d) PAIR_STAT.SEIZED 0 else u) :
    mateReady d ready s = if ready = false then u else if v.rd d PAIR_STAT.ROLE = 4 then swapDue d false v else v := by
  simp only [mateReady, ← hu, ← hv, Bool.not_eq_true']

theorem firstBeat_none (r : Nat) (h : (s.getPair d).startAt = none) : firstBeat d r s = s := by
  simp only [firstBeat, h]

section
variable {t r : Nat} (h : (s.getPair d).startAt = some t)
include h

/-- A die that waited becomes standby of an active mate, in step with it where both entered full service at one tick (R337). -/
theorem firstBeat_active (hu : u = setRole d 2 (s.modPair d fun p => { p with startAt := none, shadowAt := s.pt })) (hr : r = 1 ∨ r = 4) :
    firstBeat d r s = if (s.getPair (mateOf d)).fullAt = (s.getPair d).fullAt then u.wr d PAIR_STAT.RESYNC 3 else u := by
  simp only [firstBeat, h, if_pos hr, ← hu, beq_iff_eq]

theorem firstBeat_waits (h1 : r ≠ 1) (h4 : r ≠ 4) : firstBeat d r s = s.modPair d fun p => { p with startAt := some s.pt } := by
  simp only [firstBeat, h]
  exact if_neg (by simp [h1, h4])

end

/-! Missing -/

theorem beatCame_iff (d : Nat) (s : State) : beatCame d s = true ↔ ∃ t, (s.getPair d).goodA = some t ∧ s.pt ≤ t + 1250 := by
  unfold beatCame
  split
  · next t h => simp [h]
  · next h => simp [h]

theorem heartbeatAMiss_eq {t : Nat} (ht : t = s.freshPt (State.stepNo 9 d 0))
    (hu : u = (s.pass (t - s.pt + (3750 - t % 2500) % 2500)).occurs (State.stepNo 9 d 0)) :
    heartbeatAMiss d s = if beatCame d u = true then u else heartbeatMiss d true u := by
  subst ht hu
  rfl

theorem heartbeatBMiss_lost (h : 4 ≤ s.rd d PAIR_HB.MISSB) : heartbeatBMiss d s = s := if_pos h

theorem heartbeatBMiss_due {k due : Nat} (h : s.rd d PAIR_HB.MISSB < 4) (hk : k = 125 + 100 * s.rd d PAIR_HB.MISSB)
    (hdue : due = (s.getPair d).goodB.getD (s.getDie d).upAt + k * 97 / 4 + s.free % (k * 3 / 2 + 1)) :
    heartbeatBMiss d s = heartbeatMiss d false (s.pass (due - s.now)).drew := by
  subst hk hdue
  exact if_neg (Nat.not_le.mpr h)

theorem heartbeatMiss_eq {a : Bool} {f g : Fld} (hf : f = if a = true then PAIR_HB.MISSA else PAIR_HB.MISSB)
    (hg : g = if a = true then PAIR_STAT.PATHA else PAIR_STAT.PATHB)
    (hv : v = (s.wr d f (min (s.rd d f + 1) 4)).modPair d fun p => if a = true then { p with okA := 0 } else { p with okB := 0 }) :
    heartbeatMiss d a s = if v.rd d f = 4 ∧ v.bit d g = true then pathLost d a v else v := by
  simp only [heartbeatMiss, ← hf, ← hg, ← hv]

section
variable {a : Bool}
  (hu : u = (s.wr d (if a = true then PAIR_STAT.PATHA else PAIR_STAT.PATHB) 0).addSat d
    (if a = true then PAIR_HB.LOSTA else PAIR_HB.LOSTB))
  (hv : v = if a = true then ((u.modPair d fun p => { p with heldLost := true }).modFwd d fun _ => []).modFwd (mateOf d) fun _ => [] else u)
include hu hv

theorem pathLost_one (h : v.bit d (if a = true then PAIR_STAT.PATHB else PAIR_STAT.PATHA) = true)
    (hw : w = v.raise d 464 7 (if a = true then 0 else 1)) :
    pathLost d a s = if a = true ∧ (w.rd d PAIR_STAT.ROLE = 2 ∨ w.rd d PAIR_STAT.ROLE = 3) then
      (w.wr d PAIR_STAT.READY 0).wr d PAIR_STAT.RESYNC 0 else w := by
  simp only [pathLost, ← hu, ← hv, h, if_true, ← hw, unready, Bool.and_eq_true, Bool.or_eq_true, beq_iff_eq]

theorem pathLost_both (h : v.bit d (if a = true then PAIR_STAT.PATHB else PAIR_STAT.PATHA) = false)
    (hw : w = (v.wr d PAIR_STAT.MATEOK 0).wr d PAIR_STAT.MREADY 0) :
    pathLost d a s = if w.rd d PAIR_STAT.ROLE = 1 ∨ w.rd d PAIR_STAT.ROLE = 4 ∨ w.rd d PAIR_STAT.ROLE = 5 then w.raise d 465 7 0 else w := by
  simp only [pathLost, ← hu, ← hv, h, Bool.false_eq_true, if_false, ← hw]

end

end

/-- Settles O39: a beat is sent, taken or missed in the steps of its operation. -/
theorem heartbeatsAreSentReceivedAndMissed : Obligations.HeartbeatsAreSentReceivedAndMissed := by
  intro s d hl
  refine ⟨fun u hu => onLive_eq hl (heartbeatASend_eq hu), fun hp hr => onLive_eq hl (heartbeatBSend_live hp hr),
    fun h => onLive_eq hl (heartbeatBSend_idle h), fun role ready rel seq b hb => ?frame, ?receive, fun ready u v => mateReady_eq,
    fun r t u h hu => ⟨firstBeat_active h hu, firstBeat_waits h⟩, firstBeat_none,
    fun t u ht hu => ⟨onLive_eq hl (heartbeatAMiss_eq ht hu), beatCame_iff d u⟩, fun h => onLive_eq hl (heartbeatBMiss_lost h),
    fun k due h hk hdue => onLive_eq hl (heartbeatBMiss_due h hk hdue), fun a f g v => heartbeatMiss_eq,
    fun a u v w hu hv => ⟨pathLost_one hu hv, pathLost_both hu hv⟩⟩
  case frame =>
    subst hb
    rfl
  case receive =>
    rintro a crc i m p tx chk u rfl rfl hi htx hchk hu
    have hexec {t : State} (h : heartbeatReceive d a crc s = t) : exec i s = .next (s.commit t) := by
      subst hi
      cases a with
      | true => exact onLive_eq hl h
      | false => exact onLive_eq hl h
    have hbeat : beatOf (s.getPair (mateOf d)) a = tx := htx.symm
    refine ⟨fun h => hexec (heartbeatReceive_none (hbeat.trans h)), fun r ready seq good h => ?_⟩
    have h := hbeat.trans h
    refine ⟨fun hbad => hexec (heartbeatReceive_bad h hchk hu hbad),
      fun hcrc hgood hloud hlast => hexec (heartbeatReceive_repeat h hchk hu hcrc hgood hloud hlast),
      fun v ok x hcrc hgood hloud hlast hv hok hx => hexec ?_⟩
    exact heartbeatReceive_valid h hchk hu hcrc hgood hloud hlast hv hok hx

end Sys2Proof.Machine
end

section
/-!
Takeover (R337, R343 to R348), resynchronisation (R26, R354, R355) and the shadow comparison (R358, R362).
-/

namespace Sys2Proof.Machine

section
variable {s u v w x h : State} {d : Nat}

/-! The loopback test -/

theorem loopbackTest_begins (hmay : s.maySeize d = true) (hrun : (s.getPair d).lbRun = false) :
    loopbackTest d s = s.modPair d fun p => { p with lbRun := true, lbAt := s.pt, lbBad := false } := if_pos (by simp [hmay, hrun])

theorem loopbackTest_idle (h : s.maySeize d = false ∨ (s.getPair d).lbRun = true) : loopbackTest d s = s :=
  if_neg (by rcases h with h | h <;> simp [h])

theorem startwaitExpiry_some {t : Nat} (h : (s.getPair d).startAt = some t) :
    startwaitExpiry d s = loopbackTest d (s.passTo (t + max 1 (s.rd d PAIR_CTRL.STARTWAIT) * 2500000)) := by
  simp only [startwaitExpiry, h]

theorem startwaitExpiry_none (h : (s.getPair d).startAt = none) : startwaitExpiry d s = s := by
  simp only [startwaitExpiry, h]

theorem loopbackRetry_failed (hbad : (s.getPair d).lbBad = true) (hrun : (s.getPair d).lbRun = false) :
    loopbackRetry d s = loopbackTest d (s.passTo ((s.getPair d).lbAt + 2500000)) := if_pos (by simp [hbad, hrun])

theorem loopbackRetry_idle (h : (s.getPair d).lbBad = false ∨ (s.getPair d).lbRun = true) : loopbackRetry d s = s :=
  if_neg (by rcases h with h | h <;> simp [h])

theorem loopbackResult_idle (ok : Bool) (h : (s.getPair d).lbRun = false) : loopbackResult d ok s = s := if_pos (by simp [h])

theorem loopbackResult_failed (h : (s.getPair d).lbRun = true) : loopbackResult d false s =
    ((s.modPair d fun p => { p with lbRun := false, lbBad := true }).wr d PAIR_STAT.LBFAIL 1).raise d 466 3 0 :=
  if_neg (by simp [h])

theorem loopbackResult_passed (h : (s.getPair d).lbRun = true) (hu : u = s.modPair d fun p => { p with lbRun := false, lbBad := false }) :
    loopbackResult d true s = if u.maySeize d = true then seize d u else u := by
  simp only [loopbackResult, h, Bool.not_true, Bool.false_eq_true, if_false, ← hu]

/-! The seize -/

/-- The pads of the mate let go, and the die takes its role and its groups' instants (R345, R346). -/
theorem seize_eq {t m k : Nat} {q : List (Nat × Nat × Drive)} (hm : m = mateOf d) (hh : h = s.holdBalls (d / 2))
    (ht : t = h.now8 + 80 + h.free % 41)
    (hu : u = h.drew.modPair m fun p => { p with grp0 := h.driveOf m 0 0, grp1 := h.driveOf m 4 1, grp2 := h.driveOf m 0 2,
                                                 sched := [(t, 0, .off), (t, 1, .off), (t, 2, .off)] })
    (hv : v = (markLast d (((u.wr d PAIR_STAT.SEIZING 1).wr d PAIR_STAT.RESYNC 0).addSat d PAIR_CNT.TAKE)).raise d 467 3 0)
    (hw : w = v.modPair d fun p => { p with base := v.ptD d, startAt := none })
    (hx : x = setRole d (if u.bit d PAIR_STAT.READY = true ∨ u.rd d PAIR_STAT.ROLE = 0 then 1 else 4) w) (hk : k = w.now8)
    (hq : q = seizeSched k) :
    seize d s = x.modPair d fun p => { p with grp0 := .off, grp1 := .off, grp2 := .off, sched := q } := by
  have hlet : letGo (mateOf d) (s.holdBalls (d / 2)) = u := by rw [hu, ht, hh, hm]; rfl
  simp only [seize, hlet, ← hv, ← hw, Bool.or_eq_true, beq_iff_eq, ← hx, hq, hk]

theorem gotSeized_eq (hu : u = unready d ((s.wr d PAIR_STAT.SEIZED (s.rd (mateOf d) PAIR_STAT.SEIZING)).wr d PAIR_STAT.SWPEND 0))
    (hv : v = u.modPair d fun p => { p with swapTs := none, dueAt := none, releasing := none, swapping := false }) :
    gotSeized d s = (setRole d 3 (markLast d v)).raise d 468 3 0 := by
  simp only [gotSeized, ← hu, ← hv]

theorem seizeReceived_eq (d : Nat) (s : State) : seizeReceived d s =
    if s.bit (mateOf d) PAIR_STAT.SEIZING = true ∧ s.bit d PAIR_STAT.SEIZED = false then gotSeized d s else s := by
  simp only [seizeReceived, Bool.and_eq_true, Bool.not_eq_true']

theorem mateDrivingSeen_eq (d : Nat) (s : State) : mateDrivingSeen d s =
    if s.divided d = false ∧ (s.rd d PAIR_STAT.ROLE = 1 ∨ s.rd d PAIR_STAT.ROLE = 4) ∧ s.hasReleased d = false ∧
      s.drivingLine (mateOf d) = true then gotSeized d s else s := by
  simp only [mateDrivingSeen, Bool.and_eq_true, Bool.or_eq_true, Bool.not_eq_true', beq_iff_eq, and_assoc]

theorem hasReleased_iff (s : State) (d : Nat) : s.hasReleased d = true ↔ (s.getPair d).released = true ∨
    ∃ ts, (s.getPair d).releasing = some ts ∧ (s.getPair d).swapping = false ∧ ts + 5 ≤ s.pt := by
  cases h : (s.getPair d).releasing <;> simp [State.hasReleased, h]

/-! The snapshot -/

theorem snapshotStart_may (h : s.mayResync d = true)
    (hu : u = ((s.wr d PAIR_STAT.RESYNC 2).modPair d fun p => { p with snapAt := s.pt, items := [] }).modFwd d fun _ => []) :
    snapshotStart d s = (u.modLpt d fun x => { x with snap := none }).forEach (List.range 8) fun n s =>
      (s.modTrk d n fun x => { x with snap := none }).modEnc d n fun x => { x with snap := none } := by
  simp only [snapshotStart, h, if_true, ← hu]

theorem snapshotStart_mayNot (h : s.mayResync d = false) : snapshotStart d s = s := if_neg (by simp [h])

section
variable {k n : Nat} (hu : u = if s.bridgeUp d = true then s.inject d 8 464 7 2 else s)
include hu

theorem pairSnapshotItem_ignored (crc : Bool) (h : u.rd d PAIR_STAT.RESYNC ≠ 2 ∨ u.bridgeUp d = false) :
    pairSnapshotItem d k n crc s = u := by
  simp only [pairSnapshotItem, ← hu]
  exact if_pos (by simpa using h)

variable (hsync : u.rd d PAIR_STAT.RESYNC = 2) (hup : u.bridgeUp d = true)
include hsync hup

theorem pairSnapshotItem_bad : pairSnapshotItem d k n false s = snapshotFail d u := by
  simp only [pairSnapshotItem, ← hu, hsync, hup]
  rfl

/-- A good item is copied, and noted at once but for those of rows 3 and 4, which wait for their update (R355). -/
theorem pairSnapshotItem_good {m : Nat} (hm : m = if k = 0 ∨ k = 1 ∨ k = 5 then 0 else n)
    (hv : v = snapshotItem (mateOf d) d k m (if k = 0 then copyAxisSets (mateOf d) d u else u)) :
    pairSnapshotItem d k n true s = if k = 3 ∨ k = 4 then v else itemApplied d (8 * k + m) v := by
  have hrun : ¬ (u.rd d PAIR_STAT.RESYNC ≠ 2 ∨ (!u.bridgeUp d) = true) := by simp [hsync, hup]
  simp only [pairSnapshotItem, ← hu, if_neg hrun, Bool.not_true, Bool.false_eq_true, if_false, ← hm, ← hv]

end

/-- The last item applied restarts the filters and begins the comparison (R355, R358). -/
theorem itemApplied_eq {i : Nat}
    (hv : v = s.modPair d fun p => { p with items := if p.items.contains i = true then p.items else p.items ++ [i] })
    (hw : w = (v.forEach (List.range 64) fun c s => s.modFil d c fun f => { f with stepAt := some s.pt }).wr d PAIR_STAT.RESYNC 3) :
    itemApplied d i s = if v.rd d PAIR_STAT.RESYNC = 2 ∧ (snapshotAll.all fun i => (v.getPair d).items.contains i) = true then
      w.modPair d fun p => { p with shadowAt := w.pt } else v := by
  simp only [itemApplied, ← hv, hw, State.pt_wr]

/-! The shadow comparison -/

/-- What a value that the mate sends must meet to count as an exceedance (R358). -/
theorem shadowCompare_eq {k n j : Nat} {q : Prop}
    (hq : q ↔ s.bridgeUp d = true ∧ s.divided d = false ∧ (s.rd d PAIR_STAT.ROLE = 2 ∨ s.rd d PAIR_STAT.ROLE = 3) ∧
      (s.bit d PAIR_STAT.READY = true ∨ s.rd d PAIR_STAT.RESYNC = 3) ∧ shadowExceeds s d k n j = true)
    (hu : u = (s.addSat d PAIR_CNT.SHMIS).modPair d fun p => { p with shadowAt := (s.addSat d PAIR_CNT.SHMIS).pt }) :
    (¬ q → shadowCompare d k n j s = s) ∧
    (q → shadowCompare d k n j s = if s.bit d PAIR_STAT.READY = true
      then snapshotStart d ((u.wr d PAIR_STAT.READY 0).wr d PAIR_STAT.RESYNC 0) else u) := by
  have hcond : (s.bridgeUp d && !s.divided d && (s.rd d PAIR_STAT.ROLE == 2 || s.rd d PAIR_STAT.ROLE == 3) &&
      (s.bit d PAIR_STAT.READY || s.rd d PAIR_STAT.RESYNC == 3) && shadowExceeds s d k n j) = true ↔ q := by
    rw [hq]
    simp only [Bool.and_eq_true, Bool.or_eq_true, Bool.not_eq_true', beq_iff_eq, and_assoc]
  have hpt : (s.addSat d PAIR_CNT.SHMIS).pt = s.pt := State.pt_wr _ _ _ _ _ _
  rw [hpt] at hu
  refine ⟨fun h => if_neg fun hc => h (hcond.mp hc), fun h => ?_⟩
  simp only [shadowCompare, if_pos (hcond.mpr h), ← hu, unready]

theorem shadowTimeExpiry_idle (h : s.rd d PAIR_STAT.RESYNC ≠ 3) : shadowTimeExpiry d s = s := if_neg h

theorem shadowTimeExpiry_ends (h : s.rd d PAIR_STAT.RESYNC = 3)
    (hu : u = s.passTo ((s.getPair d).shadowAt + max 1 (s.rd d PAIR_SHADOW.TIME) * 2500000))
    (hv : v = (u.wr d PAIR_STAT.READY 1).wr d PAIR_STAT.RESYNC 0) : shadowTimeExpiry d s = if imagesDiffer u d = true then u else
      (if v.rd d PAIR_STAT.ROLE = 3 then v.wr d PAIR_STAT.ROLE 2 else v).raise d 472 3 0 := by
  simp only [shadowTimeExpiry, h, if_true, ← hu, ← hv]

end

/-- Settles O40: each command is its operation, and the seize, the snapshot and the comparison are taken in their steps. -/
theorem takeoverAndResynchronisation : Obligations.TakeoverAndResynchronisation := by
  intro s d hl
  refine ⟨loopbackTest_begins, loopbackTest_idle, onLive_live hl, fun t h => onLive_eq hl (startwaitExpiry_some h),
    fun h => onLive_eq hl (startwaitExpiry_none h), fun hbad hrun => onLive_eq hl (loopbackRetry_failed hbad hrun),
    fun h => onLive_eq hl (loopbackRetry_idle h), fun h ok => onLive_eq hl (loopbackResult_idle ok h),
    fun h => ⟨onLive_eq hl (loopbackResult_failed h), fun u hu => onLive_eq hl (loopbackResult_passed h hu)⟩,
    fun t m h u v w x hm hh ht hu hv hw hx k q hk hq => seize_eq hm hh ht hu hv hw hx hk hq, fun u v => gotSeized_eq,
    onLive_eq hl (seizeReceived_eq d s), onLive_eq hl (mateDrivingSeen_eq d s), hasReleased_iff s d, fun u => snapshotStart_may,
    snapshotStart_mayNot, onLive_live hl, onLive_live hl, onLive_live hl, rfl, ?item, ?applied, ?compare,
    fun h => onLive_eq hl (shadowTimeExpiry_idle h), fun u v h hu hv => onLive_eq hl (shadowTimeExpiry_ends h hu hv)⟩
  case item =>
    intro k n m u v hk hn hm hu
    have hexec {crc : Bool} {t : State} (h : pairSnapshotItem d k n crc s = t) :
        exec (.pairSnapshotItem d k n crc) s = .next (s.commit t) := onItem_live_eq hl (by simp [hl.1, hk, hn]) h
    exact ⟨fun h crc => hexec (pairSnapshotItem_ignored hu crc h), fun hsync hup =>
      ⟨hexec (pairSnapshotItem_bad hu hsync hup), fun hv => hexec (pairSnapshotItem_good hu hsync hup hm hv)⟩⟩
  case applied =>
    intro i v w hv hw
    exact itemApplied_eq hv hw
  case compare =>
    intro k n j u q hk hn hj hq hu
    have hexec {t : State} (h : shadowCompare d k n j s = t) : exec (.shadowCompare d k n j) s = .next (s.commit t) :=
      onItem_live_eq hl (by simp [hl.1, hk, hn, hj]) h
    obtain ⟨hidle, hcount⟩ := shadowCompare_eq hq hu
    exact ⟨fun h => hexec (hidle h), fun h => hexec (hcount h)⟩

end Sys2Proof.Machine
end

section
/-!
The stacks (R22, R430 to R437, R440) and trace records moved on (R282).
-/

namespace Sys2Proof.Machine

section
variable {s u v : State} {d : Nat}

/-! Frames and records of a die -/

theorem stacksFrame_off (h : s.bit d STK_STREAM.EN 0 = false) :
    stacksFrame d s = s.modStk d fun x => { x with frameAt := none } := if_pos (by simp [h])

/-- The frame of a strobe: the masked slots with their flags join the record of stream 0 (R434). -/
theorem stacksFrame_on {vs : List (Int × Bool)} {fl : Nat} (h : s.bit d STK_STREAM.EN 0 = true)
    (hu : u = (s.getStk d).frameAt.elim (s.toGrid 250) fun t => (s.passTo t).toGrid 250)
    (hvs : vs = ((List.range 64).filter fun c => bitOf (u.rd d STK_SLOTMASK.MASK) c).map fun c =>
      frameVal u d c (min (u.rd d STK_SLOTCFG.ASHIFT) 8))
    (hfl : fl = (((List.range 64).filter fun c => bitOf (u.rd d STK_SLOTMASK.MASK) c).foldl (fun a c =>
      a ||| bitsOf (u.reg (FIL_OUT.VALUE.addr d c 0)).toNat 24 4) 0) + 16 * b2n (vs.any fun v => v.2))
    (hv : v = stkAdd d 0 u.pt (u.pt + 1) fl (min (u.rd d STK_SLOTCFG.ASHIFT) 8) (max 1 (u.rd d STK_SLOTCFG.APER))
      (u.rd d STK_SLOTMASK.MASK) (vs.flatMap fun v => leBytes (enc 16 v.1) 2) u) :
    stacksFrame d s = v.modStk d fun x => { x with frameAt := some (v.pt + 250 * max 1 (u.rd d STK_SLOTCFG.APER)) } := by
  have hrun : ¬ ((!s.bit d STK_STREAM.EN 0) = true) := by simp [h]
  cases ht : (s.getStk d).frameAt with
  | none =>
    replace hu : u = s.toGrid 250 := by rw [hu, ht]; rfl
    simp only [stacksFrame, if_neg hrun, ht, ← hu, ← hvs, ← hfl, ← hv]
  | some t =>
    replace hu : u = (s.passTo t).toGrid 250 := by rw [hu, ht]; rfl
    simp only [stacksFrame, if_neg hrun, ht, ← hu, ← hvs, ← hfl, ← hv]

/-! Drives -/

theorem stacksSegmentClose_full {c k i : Nat} (hc : stkReady s = some c) (h : (s.getNsr c k).open_ = some (i, 256)) :
    stacksSegmentClose k s = segClose c k s := by
  simp only [stacksSegmentClose, hc, h]

theorem stacksSegmentClose_idle {k : Nat} (h : ∀ c i, stkReady s = some c → (s.getNsr c k).open_ ≠ some (i, 256)) :
    stacksSegmentClose k s = s := by
  unfold stacksSegmentClose
  split
  · rfl
  · next c hc =>
    split
    · next i hi => exact absurd hi (h c i hc)
    · rfl

/-- A record that has been dealt with leaves staging. -/
def unstage (d : Nat) (r : Staged) (s : State) : State :=
  s.modStk d fun x => { x with staged := x.staged.filter fun y => y.slot != r.slot }

/-- No server, no admission, no server in reach, or no record that is due (R433, R437). -/
theorem stacksRecordWrite_idle (h : stkReady s = none ∨ ∃ c, stkReady s = some c ∧
    (s.deferOk c = false ∨ s.reach d c = false ∨ (s.getStk d).staged.find? (recDue s c) = none)) : stacksRecordWrite d s = s := by
  rcases h with h | ⟨c, hc, h⟩
  · simp only [stacksRecordWrite, h]
  · simp only [stacksRecordWrite, hc]
    rcases h with h | h | h
    · exact if_pos (by simp [h])
    · exact if_pos (by simp [h])
    · rw [h]
      exact ite_self _

section
variable {c : Nat} {r : Staged} (hc : stkReady s = some c) (hok : s.deferOk c = true) (hr : s.reach d c = true)
  (hfind : (s.getStk d).staged.find? (recDue s c) = some r)
include hc hok hr hfind

theorem stacksRecordWrite_due : stacksRecordWrite d s =
    if s.bit c STK_NS.VALID r.ns = false then stkDrop d r.stream (unstage d r s)
    else
      let u := if (s.getNsr c r.ns).open_.isNone then segOpen c r.ns s else s
      match (u.getNsr c r.ns).open_ with
      | none => stkDrop d r.stream (unstage d r u)
      | some (i, slot) => if 256 ≤ slot then u else unstage d r (writeRec c d r i slot u) := by
  simp only [stacksRecordWrite, hc, hok, hr, hfind, Bool.not_true, Bool.or_false, Bool.false_eq_true, if_false, Bool.not_eq_true']
    <;> rfl

theorem stacksRecordWrite_invalid (hv : s.bit c STK_NS.VALID r.ns = false) :
    stacksRecordWrite d s = stkDrop d r.stream (unstage d r s) := by
  rw [stacksRecordWrite_due hc hok hr hfind, if_pos hv]

variable (hv : s.bit c STK_NS.VALID r.ns = true) (hu : u = if (s.getNsr c r.ns).open_ = none then segOpen c r.ns s else s)
include hv hu

theorem stacksRecordWrite_noSegment (h : (u.getNsr c r.ns).open_ = none) :
    stacksRecordWrite d s = stkDrop d r.stream (unstage d r u) := by
  rw [stacksRecordWrite_due hc hok hr hfind, if_neg (by simp [hv])]
  simp only [Option.isNone_iff_eq_none, ← hu, h]

theorem stacksRecordWrite_segment {i slot : Nat} (h : (u.getNsr c r.ns).open_ = some (i, slot)) :
    stacksRecordWrite d s = if 256 ≤ slot then u else unstage d r (writeRec c d r i slot u) := by
  rw [stacksRecordWrite_due hc hok hr hfind, if_neg (by simp [hv])]
  simp only [Option.isNone_iff_eq_none, ← hu, h]

end

/-! The controller and the index -/

theorem nvmeReady_linked {gen width : Nat} {caps : List Nat} (h : gen ≠ 0) : nvmeReady d gen width caps s =
    stkChoose (showNs d ((((s.wr d STK_STAT.RDY 1).wr d STK_STAT.GEN gen).wr d STK_STAT.WIDTH width).modMem d fun m =>
      { m with caps := caps, resets := [] })) := if_neg h

theorem nvmeReady_noPartner {gen width : Nat} {caps : List Nat} (h : gen = 0) : nvmeReady d gen width caps s = s.raise d 532 3 0 :=
  if_pos h

theorem nvmeTimeout_ready {rs : List Nat} (h : s.bit d STK_STAT.RDY = true)
    (hrs : rs = ((s.getMem d).resets.filter fun t => s.pt < t + 150000000000) ++ [s.pt])
    (hu : u = s.modMem d fun m => { m with resets := rs }) :
    nvmeTimeout d s = if 3 ≤ rs.length then (stkChoose (showNs d (u.wr d STK_STAT.RDY 0))).raise d 532 3 0 else u := by
  simp only [nvmeTimeout, h, Bool.not_true, Bool.false_eq_true, if_false, ← hrs, ← hu, nvmeGone]

theorem nvmeTimeout_notReady (h : s.bit d STK_STAT.RDY = false) : nvmeTimeout d s = s := if_pos (by simp [h])

theorem indexDone_rebuilt {c : Nat} (h : s.stkSrv = some c) (hidx : s.rd c STK_STAT.IDX = 1) :
    indexDone s = (s.forEach (List.range 4) fun k s => indexNs c k s).wr c STK_STAT.IDX 2 := by
  simp only [indexDone, h, hidx, if_true]

theorem indexDone_idle {c : Nat} (h : s.stkSrv = some c) (hidx : s.rd c STK_STAT.IDX ≠ 1) : indexDone s = s := by
  simp only [indexDone, h, hidx, if_false]

theorem indexDone_none (h : s.stkSrv = none) : indexDone s = s := by
  simp only [indexDone, h]

theorem indexRebuild_some {c : Nat} (h : s.stkSrv = some c) : indexRebuild s = s.wr c STK_STAT.IDX 1 := by
  simp only [indexRebuild, h]

theorem indexRebuild_none (h : s.stkSrv = none) : indexRebuild s = s := by
  simp only [indexRebuild, h]

/-! Trace records -/

theorem traceMoveOn_takes {r : TrcRec} {rs : List TrcRec} {bs : List Byte} (h : (s.getTrc d).recs = r :: rs) (hdest : r.dest ≠ 0)
    (hok : s.deferOk d = true) (hdram : r.dest = 1 → s.dramSrv ≠ none)
    (hbs : bs = (List.range r.len).map fun i => s.getTrcByte d ((r.start + i) % trcSize))
    (hu : u = s.modTrc d fun x => { x with recs := rs }) : traceMoveOn d s = if r.dest = 1 then trcToDram d r bs u
      else stkAdd d 1 r.tick (r.tick + 1) (r.fl + 64 * b2n r.trig) 0 0 0 bs u := by
  have hstays : ¬ (r.dest = 0 ∨ (!s.deferOk d) = true) := by simp [hdest, hok]
  have hserved : ¬ (r.dest = 1 ∧ s.dramSrv = none) := fun ⟨h1, hn⟩ => hdram h1 hn
  simp only [traceMoveOn, h, if_neg hstays, if_neg hserved, ← hbs, ← hu]

theorem traceMoveOn_stays (h : (s.getTrc d).recs = [] ∨ ∃ r rs, (s.getTrc d).recs = r :: rs ∧
    (r.dest = 0 ∨ s.deferOk d = false ∨ (r.dest = 1 ∧ s.dramSrv = none))) : traceMoveOn d s = s := by
  rcases h with h | ⟨r, rs, h, hwhy⟩
  · simp only [traceMoveOn, h]
  · simp only [traceMoveOn, h]
    rcases hwhy with hwhy | hwhy | hwhy
    · exact if_pos (.inl hwhy)
    · exact if_pos (.inr (by simp [hwhy]))
    · rw [if_pos hwhy]
      exact ite_self _

end

/-- Settles O41: each command is one branch of its operation. -/
theorem stacksFramesRecordsAndDrives : Obligations.StacksFramesRecordsAndDrives := by
  refine ⟨fun s d hl => ⟨fun h => onLive_eq hl (stacksFrame_off h), fun u vs fl v h hu hvs hfl hv => onLive_eq hl ?frame, ?close,
    fun st hst h => onPart_eq hl hst (by simp only [h]), ?write, fun h => onLive_eq hl (stacksRecordWrite_idle h), ?ready,
    fun rs u hd2 h hrs hu => onItem_live_eq hl (by simp [hl.1, hd2]) (nvmeTimeout_ready h hrs hu),
    fun hd2 h => onItem_live_eq hl (by simp [hl.1, hd2]) (nvmeTimeout_notReady h),
    fun r rs bs u h hdest hok hdram hbs hu => onLive_eq hl (traceMoveOn_takes h hdest hok hdram hbs hu),
    fun h => onLive_eq hl (traceMoveOn_stays h)⟩,
    fun s => ⟨fun c k i hk hc h => onItem_eq (by simpa using hk) (stacksSegmentClose_full hc h),
      fun k hk h => onItem_eq (by simpa using hk) (stacksSegmentClose_idle h), ?index, fun h => ⟨?noRebuild, ?noDone⟩⟩⟩
  case frame => exact stacksFrame_on h (hu.trans (by cases (s.getStk d).frameAt <;> rfl)) hvs hfl hv
  case close => exact fun st r hst h => onPart_eq hl hst (by simp only [h])
  case write =>
    intro c r gone hc hok hr hfind hgone
    obtain rfl : gone = unstage d r := funext hgone
    refine ⟨fun hv => onLive_eq hl (stacksRecordWrite_invalid hc hok hr hfind hv), fun u hv hu => ⟨fun h => onLive_eq hl ?_,
      fun i slot h => onLive_eq hl ?_⟩⟩
    · exact stacksRecordWrite_noSegment hc hok hr hfind hv hu h
    · exact stacksRecordWrite_segment hc hok hr hfind hv hu h
  case ready =>
    intro gen width caps hd2
    exact ⟨fun h => onItem_live_eq hl (by simp [hl.1, hd2]) (nvmeReady_linked h),
      fun h => onItem_live_eq hl (by simp [hl.1, hd2]) (nvmeReady_noPartner h)⟩
  case index =>
    intro c h
    exact ⟨onItem_eq (ok := true) rfl (indexRebuild_some h), fun hidx => onItem_eq (ok := true) rfl (indexDone_rebuilt h hidx),
      fun hidx => onItem_eq (ok := true) rfl (indexDone_idle h hidx)⟩
  case noRebuild => exact onItem_eq (ok := true) rfl (indexRebuild_none h)
  case noDone => exact onItem_eq (ok := true) rfl (indexDone_none h)

end Sys2Proof.Machine
end

section
/-!
Slew and step of package time (R46 to R49), with what a step restarts (R182, R434).
-/

namespace Sys2Proof.Machine

/-- The outcome of a command about the package whose effect is known. -/
theorem onPackage_eq {s t : State} {f : State → State} (h : f s = t) : onPackage s f = .next (s.commit t) := by
  rw [onPackage, h]

/-! A bit put into a word reads back -/

theorem bitOf_eq_testBit (v k : Nat) : bitOf v k = v.testBit k := by
  rw [bitOf, Nat.testBit_eq_decide_div_mod_eq]
  rfl

theorem bitOf_putBit (v k : Nat) (b : Bool) : bitOf (putBit v k b) k = b := by
  unfold putBit
  split
  · next h => exact eq_of_beq h
  · next h =>
    simp only [bitOf_eq_testBit, beq_iff_eq] at h ⊢
    cases b with
    | true =>
      rw [if_pos rfl, Nat.add_comm, Nat.testBit_two_pow_add_eq]
      simpa using h
    | false =>
      have hset : v.testBit k = true := by simpa using h
      have hadd : 2 ^ k + (v - 2 ^ k) = v := Nat.add_sub_of_le (Nat.ge_two_pow_of_testBit hset)
      have hflip := Nat.testBit_two_pow_add_eq (v - 2 ^ k) k
      rw [hadd, hset] at hflip
      simpa using hflip.symm

theorem bitOf_ofNat {v k : Nat} (hk : k < 32) : bitOf (BitVec.ofNat 32 v).toNat k = bitOf v k := by
  rw [bitOf_eq_testBit, bitOf_eq_testBit, BitVec.toNat_ofNat, Nat.testBit_mod_two_pow, decide_eq_true hk, Bool.true_and]

theorem bitOf_ofNat_putBit (v : Nat) {k : Nat} (hk : k < 32) (b : Bool) : bitOf (BitVec.ofNat 32 (putBit v k b)).toNat k = b := by
  rw [bitOf_ofNat hk, bitOf_putBit]

/-! The writes of CLK_PTADJ -/

section
variable {s u w x y z : State} {d m : Nat}

theorem ptAdjWrite_none (v : Word) (h : s.master = none) : ptAdjWrite v d s = s := by
  simp only [ptAdjWrite, h]

section
variable {v : Word} (hm : s.master = some m) (hx : x = if bitOf v.toNat 17 = true then s.wr m CLK_PTADJ.STEPREF 0 else s)
  (hy : y = if bitOf v.toNat 18 = true then x.wr m CLK_PTADJ.REMSAT 0 else x)
include hm hx hy

theorem ptAdjWrite_locked (h : y.fabLock = true) : ptAdjWrite v d s = y.raise m 276 3 0 := by
  simp only [ptAdjWrite, hm, ← hx, ← hy, h, if_true]

theorem ptAdjWrite_unlocked (h : y.fabLock = false) (hz : z = setRem (sgn 16 v.toNat) y) : ptAdjWrite v d s =
    if bitOf v.toNat 16 = true then askStep (z.rd d CLK_PTSTEP.VALUE) (v.toNat % 65536 != 0) z else z := by
  simp only [ptAdjWrite, hm, ← hx, ← hy, h, Bool.false_eq_true, if_false, ← hz]

end

theorem setRem_some {r c : Int} (hm : s.master = some m) (hc : c = clampI (-140737488355327) 140737488355327 r)
    (hx : x = { showRem m c s with slewFrom := max s.slewFrom (s.pt + 5000) }) :
    setRem r s = if c = r then x else (x.wr m CLK_PTADJ.REMSAT 1).raise m 276 3 0 := by
  simp only [setRem, hm, ← hc, ← hx]

/-! A slew tick -/

theorem slewTick_none (h : s.master = none) : slewTick s = s := by
  simp only [slewTick, h]

theorem slewTick_zero (h : s.rem = 0) : slewTick s = s := by
  unfold slewTick
  split
  · rfl
  · exact if_pos h

/-- A gain takes package time two ticks on in one root tick, and may leap over a multiple of 250 (R46, R47). -/
theorem slewTick_gain (hm : s.master = some m) (hr : 0 < s.rem) (hu : u = s.passTo s.slewFrom)
    (hw : w = showRem m (s.rem - 1) { u with now := u.now + 1, pt := (u.pt + 2) % 2 ^ 64 }) : slewTick s =
      { w with slewFrom := ((u.pt + 2) % 2 ^ 64 / 250 + 1) * 250,
               strobeAt := if (u.pt + 2) % 2 ^ 64 % 250 = 1 then some ((u.pt + 2) % 2 ^ 64) else none } := by
  simp only [slewTick, hm, if_neg hr.ne', ← hu, hr, if_true, decide_true, Bool.true_and, beq_iff_eq, hw]

/-- A loss holds package time for one root tick, and passes no multiple of 250. -/
theorem slewTick_loss (hm : s.master = some m) (hr : s.rem < 0) (hu : u = s.passTo s.slewFrom)
    (hw : w = showRem m (s.rem + 1) { u with now := u.now + 1, pt := u.pt % 2 ^ 64 }) :
    slewTick s = { w with slewFrom := (u.pt % 2 ^ 64 / 250 + 1) * 250, strobeAt := none } := by
  have hpos : ¬ 0 < s.rem := hr.asymm
  simp only [slewTick, hm, if_neg hr.ne, ← hu, hpos, if_false, decide_false, Bool.false_and, Bool.false_eq_true, hw]

/-! The step -/

theorem ptStepTick_none (h : s.ptStep = none) : ptStepTick s = s := by
  simp only [ptStepTick, h]

section
variable {p : PtStep} (h : s.ptStep = some p) (hu : u = { s.passTo p.tick with ptStep := none })
include h hu

theorem ptStepTick_noMaster (hm : u.master = none) : ptStepTick s = u := by
  simp only [ptStepTick, h, ← hu, hm]

theorem ptStepTick_refused (hm : u.master = some m) (ha : u.stepAllowed = false) :
    ptStepTick s = setRem (u.rem + (p.val : Int) - u.pt) ((u.wr m CLK_PTADJ.STEPREF 1).raise m 276 3 0) := by
  have hpt : (s.passTo p.tick).pt = u.pt := by rw [hu]
  simp only [ptStepTick, h, ← hu, hm, ha, Bool.false_eq_true, if_false]
  rw [hpt]

/-- Every die loads the step's value; its stream-0 record ends and its filter slots restart (R47, R182, R434). -/
theorem ptStepTick_taken (hm : u.master = some m) (ha : u.stepAllowed = true)
    (hx : x = { u with pt := p.val, slewFrom := p.val + 5000, strobeAt := none, lastAt := [] })
    (hy : y = if p.cancel = true then showRem m 0 x else x) : ptStepTick s =
      y.forEach y.liveDies fun d s =>
        ((stkClose d 0 s).modStk d fun x => { x with frameAt := none }).forEach (List.range 64) fun c s =>
          s.modFil d c fun f => { f with stepAt := some p.val, applies := f.applies.map fun e => (e.1 + p.val - u.pt, e.2),
                                         muxes := f.muxes.map fun e => (e.1 + p.val - u.pt, e.2) } := by
  have hpt : (s.passTo p.tick).pt = u.pt := by rw [hu]
  have hloaded : x = { s.passTo p.tick with ptStep := none, pt := p.val, slewFrom := p.val + 5000, strobeAt := none, lastAt := [] } := by
    rw [hx, hu]
  simp only [ptStepTick, h, ← hu, hm, ha, if_true, ← hloaded, ← hy]
  simp only [hpt]

end

/-- A step is allowed below phase 5, or where every output of a running die is safe (R47). -/
theorem stepAllowed_iff (s : State) : s.stepAllowed = true ↔ (∀ e, e < s.dies → s.rd e GLB_PHASE.PHASE < 5) ∨
    (∀ e, e ∈ s.liveDies → ∀ n, n < 8 → s.bit e PWM_CTRL.SAFE n = true ∨ s.owns e n = false) := by
  simp only [State.stepAllowed, Bool.or_eq_true, List.all_eq_true, List.mem_range, decide_eq_true_eq, Bool.not_eq_true']

end

/-- Settles O23: the writes, the slew tick and the step each take the branch that master, lock, remainder and step give. -/
theorem packageTimeSlewsAndSteps : Obligations.PackageTimeSlewsAndSteps := by
  intro s d v hl
  refine ⟨fun h => ⟨onLive_eq hl (ptAdjWrite_none _ h), onLive_eq hl (ptAdjWrite_none _ h), onPackage_eq (slewTick_none h)⟩,
    ?writes, fun a b => rfl, fun m r c x => setRem_some, fun h => onPackage_eq (slewTick_zero h),
    fun m u w hm hr hu hw => onPackage_eq (slewTick_gain hm hr hu hw),
    fun m u w hm hr hu hw => onPackage_eq (slewTick_loss hm hr hu hw),
    fun h => onPackage_eq (ptStepTick_none h), fun p u h hu => ⟨fun hm => onPackage_eq (ptStepTick_noMaster h hu hm),
      fun m hm ha => onPackage_eq (ptStepTick_refused h hu hm ha),
      fun m x y hm ha hx hy => onPackage_eq (ptStepTick_taken h hu hm ha hx hy)⟩, stepAllowed_iff s⟩
  case writes =>
    intro m w x y hm hword hx hy
    have hbit (b : Bool) (hw : bitOf w.toNat 16 = b) : BitVec.ofNat 32 (putBit v.toNat 16 b) = w := by
      rcases hword with rfl | rfl
      · rw [← hw, bitOf_ofNat_putBit _ (by decide)]
      · rw [← hw, bitOf_ofNat_putBit _ (by decide)]
    have hslew {t : State} (hw : bitOf w.toNat 16 = false) (h : ptAdjWrite w d s = t) :
        exec (.clkPtadjSlewWrite d v) s = .next (s.commit t) := onLive_eq hl ((congrArg (ptAdjWrite · d s) (hbit false hw)).trans h)
    have hstep {t : State} (hw : bitOf w.toNat 16 = true) (h : ptAdjWrite w d s = t) :
        exec (.clkDostep d v) s = .next (s.commit t) := onLive_eq hl ((congrArg (ptAdjWrite · d s) (hbit true hw)).trans h)
    refine ⟨fun h => ⟨fun hw => hslew hw (ptAdjWrite_locked hm hx hy h), fun hw => hstep hw (ptAdjWrite_locked hm hx hy h)⟩,
      fun h => ⟨fun hw => hslew hw ?_, fun z hw hz => hstep hw ?_⟩⟩
    · rw [ptAdjWrite_unlocked hm hx hy h rfl, if_neg (by simp [hw])]
    · rw [ptAdjWrite_unlocked hm hx hy h hz, if_pos hw]

end Sys2Proof.Machine
end

section
/-!
The collector of a die (R61, R287 to R289, R294, R295, R297, R298, R300, R305, R306, R324).
-/

namespace Sys2Proof.Machine

section
variable {s u v : State} {d k : Nat}

/-! A message at the collector -/

/-- The messages that wait are taken in their order with one stamp (R289); a severity 7 among them resets the die (R300). -/
theorem collect_eq {r : State × Bool} (hv : v = { s with inbox := s.inbox.set d [] [] })
    (hr : r = ((s.inbox.get d []).foldl (fun q m => placeMsg s d m q) []).foldl (fun p m =>
      if m.kind = 2 then (deassertion d (v.ptD d) m p.1, p.2)
      else ((assertion d (v.ptD d) m p.1).1, p.2 || (assertion d (v.ptD d) m p.1).2)) (v, false)) :
    collect d s = if r.2 = true then resetDie d .sev7 (showFaultN r.1) else showFaultN r.1 := by
  subst hv hr
  rfl

theorem assertion_fst {stamp : Nat} {m : Msg} {take : Bool} {f : Bool × State}
    (hu : u = assertFlags d m (s.modSrc d m.src fun x => { x with cfg := some (cfgWritten s d m.src) }))
    (hf : f = if isPlain u d m.src = true then (false, u) else firstError d m.src (m.kind % 32 + 32 * b2n m.inj) stamp u)
    (htake : take = (!isPlain u d m.src && !m.muted && f.2.rd d FLT_SRCSTAT.STATE m.src == 0 && 3 ≤ cfgSev f.2 d m.src && reacts u d m.src)) :
    (assertion d stamp m s).1 = assertEnd d stamp m take
      (assertRecord d stamp m (m.kind % 32 + 32 * b2n m.inj) f.1 take (assertReact d m take f.2)) := by
  subst hu hf htake
  rfl

/-! Release, recovery and acknowledgement -/

theorem quietExpiry_recovers (h : s.rd d FLT_SRCSTAT.STATE k = 2) : quietExpiry d k s = endReaction d k 9
    ((s.passTo ((s.getSrc d k).quietAt + (s.getSrc d k).quiet * 250000)).addSat d FLT_SRCSTAT.RCNT 1 k) := if_pos h

theorem quietExpiry_idle (h : s.rd d FLT_SRCSTAT.STATE k ≠ 2) : quietExpiry d k s = s := if_neg h

theorem relSource_ends (hstate : s.rd d FLT_SRCSTAT.STATE k ≠ 0) (hlive : liveNow s d k = false) (hsev : (s.getSrc d k).sev ≠ 7) :
    relSource d k s = endReaction d k 10 s := if_neg (by simp [hstate, hlive, hsev])

theorem relSource_ignored (h : s.rd d FLT_SRCSTAT.STATE k = 0 ∨ liveNow s d k = true ∨ (s.getSrc d k).sev = 7) :
    relSource d k s = s := if_pos h

theorem stickyClear_clears (h : liveNow s d k = false) :
    stickyClear d k s = showFaultN ((s.wr d FLT_SRCSTAT.STICKY 0 k).modSrc d k fun x => { x with pin := false }) := if_neg (by simp [h])

theorem stickyClear_live (h : liveNow s d k = true) : stickyClear d k s = s := if_pos h

theorem mrel_reached (hup : s.bridgeUp d = true) (hlost : (s.getPair d).heldLost = false) : mrel d s = s := if_pos (by simp [hup, hlost])

theorem mrel_releases (h : s.bridgeUp d = false ∨ (s.getPair d).heldLost = true) : mrel d s = emuShowAll d
    (((((s.holdBalls (d / 2)).wr d FLT_REACT.MAXSAFE 0).wr d FLT_REACT.MDIESAFE 0).modPair d fun p => { p with heldLost := false }).refreshDie d) :=
  if_neg (by rcases h with h | h <;> simp [h])

/-! Injection -/

/-- A write with GO set is refused with flt-config or arms its checker (R306, R324). -/
theorem injWrite_go {w : Word} {c n : Nat} {bad : Prop} [Decidable bad] (hgo : bitOf w.toNat 9 = true) (hc : c = bitsOf w.toNat 0 5)
    (hn : n = bitsOf w.toNat 16 16) (hu : u = ((s.wr d FLT_INJ.CHK c).wr d FLT_INJ.MUTE (bitsOf w.toNat 8 1)).wr d FLT_INJ.N n)
    (hbad : bad ↔ 12 < c ∨ n = 0 ∨ u.bit d FLT_INJSTAT.BUSY = true ∨ (c = 5 ∧ 2 ≤ d) ∨ ((c = 6 ∨ c = 7) ∧ (u.getDie d).split = true)) :
    injWrite w d s = if bad then u.raise d 306 3 0
      else ((u.wr d FLT_INJSTAT.LEFT n).wr d FLT_INJSTAT.BUSY 1).modFlt d fun f => { f with chk := c } := by
  simp only [injWrite, hgo, Bool.not_true, Bool.false_eq_true, if_false, ← hc, ← hn, ← hu, hbad]

end

/-- Settles O31: the collector takes each message in its steps, and every other command is one branch of its operation. -/
theorem collectorsReactReleaseAndClear : Obligations.CollectorsReactReleaseAndClear := by
  intro s d k hl hk
  refine ⟨fun extra u v r hu hv hr => onLive_eq hl (by rw [← hu, collect_eq hv hr]), fun stamp m => rfl,
    fun stamp m u take f => assertion_fst, fun h => onPart_eq hl hk (quietExpiry_recovers h), fun h => onPart_eq hl hk (quietExpiry_idle h),
    fun hstate hlive hsev => onPart_eq hl hk (relSource_ends hstate hlive hsev), fun h => onPart_eq hl hk (relSource_ignored h),
    onPart_live hl hk, fun h => onPart_eq hl hk (stickyClear_clears h), fun h => onPart_eq hl hk (stickyClear_live h),
    fun hup hlost => onLive_eq hl (mrel_reached hup hlost), fun h => onLive_eq hl (mrel_releases h), onLive_live hl, ?inject⟩
  case inject =>
    rintro v w c n u bad rfl hgo hc hn hu hbad
    classical
    have hwrite := injWrite_go hgo hc hn hu hbad
    exact ⟨fun h => onLive_eq hl (hwrite.trans (if_pos h)), fun h => onLive_eq hl (hwrite.trans (if_neg h))⟩

end Sys2Proof.Machine
end

section
/-!
Leaving reset (R45, R51, R58, R301, R444), the end of a hand-over (R52, R293, R349 to R352), and a mate reset (R54).
-/

namespace Sys2Proof.Machine

section
variable {s u v w x y : State} {d m : Nat}

/-! Leaving reset -/

theorem resetExit_stays {rails rstn : Bool} (h : (s.getDie d).inReset = false ∨ rails = false ∨ rstn = false) :
    resetExit d rails rstn s = s := if_pos (by rcases h with h | h | h <;> simp [h])

theorem resetExit_leaves (h : (s.getDie d).inReset = true)
    (hv : v = s.drew.modDie d fun x =>
      { x with inReset := false, heldMask := 0, holdSafeLine := false, upAt := s.now, ptOff := s.free, resetAt := none, wdtEnd := none })
    (hu : u = v.modLawDie d fun l => { l with testAt := v.pt }) (hw : w = u.wr d PAIR_STAT.SEIZED (u.rd (mateOf d) PAIR_STAT.SEIZING))
    (hx : x = if (w.getDie (mateOf d)).inReset = false ∧ w.rd (mateOf d) GLB_PHASE.PHASE = 5 ∧ w.divided d = false ∧
      w.divided (mateOf d) = false then w.wr d PAIR_STAT.RESYNC 1 else w)
    (hy : y = if (s.getDie d).holdFaultN = true then x.raise d 305 3 0 else x) : resetExit d true true s =
      showFaultN (railsAtExit d (showMem (y.forEach [(d + 1) % y.dies, (d + y.dies - 1) % y.dies] rootLate))) := by
  have hwait : x = if (!(w.getDie (mateOf d)).inReset && w.rd (mateOf d) GLB_PHASE.PHASE == 5 && !w.divided d &&
      !w.divided (mateOf d)) = true then w.wr d PAIR_STAT.RESYNC 1 else w := by
    simp only [hx, Bool.and_eq_true, Bool.not_eq_true', beq_iff_eq, and_assoc]
  simp only [resetExit, h, Bool.not_true, Bool.or_false, Bool.false_eq_true, if_false, ← hv, ← hu, ← hw, ← hwait, ← hy]

/-! The mate's release seen -/

section
variable (hm : m = mateOf d)
include hm

theorem releasedSeen_idle (h : (s.getPair m).releasing = none ∨ s.divided d = true ∨ s.rd d PAIR_STAT.ROLE ≠ 2 ∨
    s.bit d PAIR_STAT.READY = false ∨ ((s.getPair m).swapping = true ∧ (s.getPair m).released = false)) : releasedSeen d s = s := by
  subst hm
  cases hts : (s.getPair (mateOf d)).releasing with
  | none => simp only [releasedSeen, hts]
  | some ts =>
    simp only [releasedSeen, hts]
    exact if_pos (by simpa [hts, or_assoc] using h)

/-- A ready standby takes over at Ts + 8 ns, and the release ends as what it was for (R293, R350, R351, R52). -/
theorem releasedSeen_takes {ts : Nat} {p : PairRec} (hp : p = s.getPair m) (hts : p.releasing = some ts) (hdiv : s.divided d = false)
    (hrole : s.rd d PAIR_STAT.ROLE = 2) (hready : s.bit d PAIR_STAT.READY = true) (hswap : p.swapping = true → p.released = true)
    (hu : u = ((s.passTo (ts + 4)).holdBalls (d / 2)).passTo (ts + 20))
    (hv : v = u.modPair m fun p => { p with released := true, releasing := none, swapping := false, resetAfter := [], base := u.ptD m })
    (hw : w = (setRole m 2 (v.wr m PAIR_STAT.SWPEND 0)).modPair m fun p => { p with released := false })
    (hx : x = w.modPair d fun p => { p with base := w.ptD d, startAt := none }) (hy : y = markLast m (markLast d (setRole d 1 x))) :
    releasedSeen d s = if p.swapping = true then (y.addSat d PAIR_CNT.SWAP).wr m PAIR_STAT.READY 1
      else if p.resetAfter = [] then unready m (y.wr m FLT_REACT.TAKEREQ 1) else enterReset m p.resetAfter y := by
  subst hm
  have hruns : ¬ ((s.divided d || s.rd d PAIR_STAT.ROLE != 2 || !s.bit d PAIR_STAT.READY || (p.swapping && !p.released)) = true) := by
    simpa [hdiv, hrole, hready] using hswap
  simp only [releasedSeen, ← hp, hts, if_neg hruns, ← hu, ← hv, ← hw, ← hx, ← hy]
  cases p.resetAfter <;> rfl

end

/-! The driving check -/

theorem handoverCheck_none (h : (s.getPair d).releasing = none) : handoverCheck d s = s := by
  simp only [handoverCheck, h]

section
variable {ts : Nat} (hm : m = mateOf d) (h : (s.getPair d).releasing = some ts)
  (hu : u = ((s.passTo (ts + 4)).holdBalls (d / 2)).passTo (ts + 40))
include hm h hu

theorem handoverCheck_drives (hdrives : u.drivingLine m = true) : handoverCheck d s = u := by
  subst hm
  simp only [handoverCheck, h, ← hu, hdrives, if_true]

variable (hsilent : u.drivingLine m = false) (hv : v = u.raise d 469 3 0)
include hsilent hv

theorem handoverCheck_swapMissed (hswap : (s.getPair d).swapping = true) : handoverCheck d s = setPads d .full (swapMissed d v) := by
  subst hm
  simp only [handoverCheck, h, ← hu, hsilent, ← hv, hswap, Bool.false_eq_true, if_false, if_true]

theorem handoverCheck_alone (hswap : (s.getPair d).swapping = false)
    (hw : w = setRole d 4 (v.modPair d fun p => { p with releasing := none, released := false, resetAfter := [] })) :
    handoverCheck d s = if (s.getPair d).resetAfter = [] then w else enterReset d (s.getPair d).resetAfter w := by
  subst hm
  simp only [handoverCheck, h, ← hu, hsilent, ← hv, hswap, Bool.false_eq_true, if_false, ← hw]
  cases (s.getPair d).resetAfter <;> rfl

end

end

/-- Settles O34: a reset is left in its steps, and a release ends in the branch that says what it was for. -/
theorem aDieLeavesReset : Obligations.ADieLeavesReset := by
  refine ⟨fun s d hd => ⟨fun v u w x y h hv hu hw hx hy => onItem_eq hd (resetExit_leaves h hv hu hw hx hy),
    fun rails rstn h => onItem_eq hd (resetExit_stays h)⟩, fun s d m hl hm => ⟨?takes, fun h => onLive_eq hl (releasedSeen_idle hm h),
    fun h => onLive_eq hl (handoverCheck_none h), ?check⟩⟩
  case takes =>
    intro ts p u v w x y hp hts hdiv hrole hready hswap hu hv hw hx hy
    have seen := releasedSeen_takes hm hp hts hdiv hrole hready hswap hu hv hw hx hy
    refine ⟨fun h => onLive_eq hl ?_, fun h hnone => onLive_eq hl ?_, fun h hcause => onLive_eq hl ?_⟩
    · rw [seen, if_pos h]
    · rw [seen, if_neg (by simp [h]), if_pos hnone]
    · rw [seen, if_neg (by simp [h]), if_neg hcause]
  case check =>
    intro ts u v h hu hv
    refine ⟨fun hdrives => onLive_eq hl (handoverCheck_drives hm h hu hdrives),
      fun hsilent hswap => onLive_eq hl (handoverCheck_swapMissed hm h hu hsilent hv hswap), fun hsilent hswap w hw => ?_⟩
    have alone := handoverCheck_alone hm h hu hsilent hv hswap hw
    exact ⟨fun hnone => onLive_eq hl (alone.trans (if_pos hnone)), fun hcause => onLive_eq hl (alone.trans (if_neg hcause))⟩

/-! A mate reset (R54) -/

/-- An access fault resets no die: the records of the dies stand. -/
theorem State.die_accessFault (s : State) (d m size reason addr : Nat) (wr : Bool) :
    (s.accessFault d m wr size reason addr).die = s.die := by
  unfold State.accessFault State.addSat
  simp only [State.die_send]
  split
  · simp
  · simp

theorem exec_glbSwrstMate {s : State} {d : Nat} (hl : s.Live d) (m : Nat) {v w : Word} (hw : w = BitVec.ofNat 32 (putBit v.toNat 1 true))
    (hmate : bitOf w.toNat 1 = true) (hself : bitOf w.toNat 0 = false) (hkey : bitsOf w.toNat 8 8 = 0xA5) :
    exec (.glbSwrstMate d m v) s = .next (s.commit (mateReset (m % 16) d s)) := by
  refine onLive_eq hl ?_
  rw [← hw, swrstWrite_key hkey rfl, if_pos hmate, if_neg (by simp [hself])]

/-- Settles O60: with the right key the write is the mate reset, refused in the one case of R54. -/
theorem aMateResetOfTheActiveDieIsRefused : Obligations.AMateResetOfTheActiveDieIsRefused := by
  intro s d m e v w hl he hw hmate hself hkey
  subst he
  rw [exec_glbSwrstMate hl m hw hmate hself hkey, mateReset_eq]
  refine ⟨fun hdiv hactive hstandby => ⟨fun hseize => ?_, fun hseize => ?_⟩, fun hdiv => ?_⟩
  · have hmoves : Moves (fun _ => false) s (s.accessFault d (m % 16) true 2 6 (GLB_SWRST.SELF.addr d 0 0)) :=
      State.accessFault_moves _ _ _ _ _ _ (Moves.refl _ s)
    refine ⟨_, ?_, rfl, State.die_accessFault _ _ _ _ _ _ _, fun k => hmoves.mems k rfl⟩
    rw [if_pos ⟨hdiv, hactive, hstandby, hseize⟩, hmoves.commit_eq]
  · rw [if_neg (by simp [hseize])]
  · rw [if_neg (by simp [hdiv])]

end Sys2Proof.Machine
end

section
/-!
The convert strobe (R46) and the excitation's apply boundary (R66, R67, R69, R73) on their grids.
-/

namespace Sys2Proof.Machine

section
variable {s a t u v : State}

/-- The strobe, once the instant `a` that it falls on is reached. -/
theorem convertStrobe_eq (codes : List Int)
    (ha : a = if s.strobeAt = some s.pt then ({ s with strobeAt := none } : State).occurs 0 else s.toNext 0 250)
    (hu : u = a.forEach a.liveDies fun d s => dieStrobe d (fun c => satI 16 (codes.getD (d * 54 + c) 0)) s)
    (hv : v = u.forEach u.liveDies fun d s =>
      if 5 ≤ s.rd d GLB_PHASE.PHASE then s.forEach (List.range 8) fun n s => if s.bandRuns d n then standbyLegCopy d n s else s else s) :
    convertStrobe codes s = v.forEach v.liveDies fun d s => safeRefresh d s := by
  simp only [convertStrobe, ← ha, ← hu, ← hv]

/-- The boundary on the dies `ds` in full service: what pends, then the chains, then the comparison of accumulators. -/
theorem excApplyBoundary_eq {ds : List Nat} (ha : a = s.toNext 64 25000) (hds : ds = a.liveDies.filter fun d => 5 ≤ a.rd d GLB_PHASE.PHASE)
    (ht : t = a.forEach ds fun d s => s.forEach (List.range 8) fun n s => excTake d n s) (hu : u = t.forEach ds (excBoundary a)) :
    excApplyBoundary s = u.forEach ds fun d s => s.forEach (List.range 8) fun n s => ncoExchange d n s := by
  simp only [excApplyBoundary, ← ha, ← hds, ← ht, ← hu]

/-! The grid of a recurring step -/

theorem pt_toNext (s : State) (k g : Nat) :
    (s.toNext k g).pt = (s.pt + (s.freshPt k - s.pt + (g - s.freshPt k % g) % g)) % 2 ^ 64 := rfl

/-- The first tick on which a recurring step may fall is the present one, or the next where the step took place on this one. -/
theorem freshPt_cases (s : State) (k : Nat) :
    (s.lastAt.get k 0 = s.pt + 1 ∧ s.freshPt k = s.pt + 1) ∨ (s.lastAt.get k 0 ≠ s.pt + 1 ∧ s.freshPt k = s.pt) := by
  by_cases h : s.lastAt.get k 0 = s.pt + 1
  · exact .inl ⟨h, if_pos h⟩
  · exact .inr ⟨h, if_neg h⟩

theorem add_sub_mod_self_mod (t : Nat) {g : Nat} (hg : 0 < g) : (t + (g - t % g) % g) % g = 0 := by
  rw [Nat.add_mod_mod, ← Nat.add_sub_assoc (Nat.mod_lt t hg).le, Nat.add_comm, Nat.add_sub_assoc (Nat.mod_le t g), Nat.add_mod_left,
    Nat.sub_mod_eq_zero_of_mod_eq (Nat.mod_mod t g).symm]

/-- Where package time does not wrap, a step falls on the first multiple of its grid from its first tick on. -/
theorem pt_toNext_of_lt (k : Nat) {g : Nat} (hg : 0 < g) (h : s.pt + 1 + g < 2 ^ 64) :
    (s.toNext k g).pt = s.freshPt k + (g - s.freshPt k % g) % g := by
  have hwait : (g - s.freshPt k % g) % g < g := Nat.mod_lt _ hg
  rw [pt_toNext, Nat.mod_eq_of_lt]
  · rcases freshPt_cases s k with ⟨-, hf⟩ | ⟨-, hf⟩ <;> omega
  · rcases freshPt_cases s k with ⟨-, hf⟩ | ⟨-, hf⟩ <;> omega

theorem toNext_keepsGrid (k : Nat) {g : Nat} (hg : 0 < g) (h : s.pt + 1 + g < 2 ^ 64) : (s.toNext k g).pt % g = 0 ∧
    s.pt ≤ (s.toNext k g).pt ∧ (s.lastAt.get k 0 = s.pt + 1 → s.pt < (s.toNext k g).pt) := by
  rw [pt_toNext_of_lt k hg h]
  refine ⟨add_sub_mod_self_mod _ hg, ?_, fun hlast => ?_⟩
  · rcases freshPt_cases s k with ⟨-, hf⟩ | ⟨-, hf⟩ <;> omega
  · rcases freshPt_cases s k with ⟨-, hf⟩ | ⟨hne, -⟩
    · omega
    · exact absurd hlast hne

end

/-- Settles O35: the two steps in their order, and the arithmetic of their grids. -/
theorem strobesAndApplyBoundariesKeepTheirGrids : Obligations.StrobesAndApplyBoundariesKeepTheirGrids :=
  ⟨fun _ _ _ _ codes ha hu hv => onPackage_eq (convertStrobe_eq codes ha hu hv),
    fun _ _ _ _ _ ha hds ht hu => onPackage_eq (excApplyBoundary_eq ha hds ht hu), fun _ k _ hg h => toNext_keepsGrid k hg h⟩

end Sys2Proof.Machine
end

section
/-!
Startup, phases 0 to 3 (R45, R55, R57, R58, R60, R61, R149, R406, R407).
-/

namespace Sys2Proof.Machine

section
variable {s u v : State} {d : Nat}

/-! Root lock and time -/

theorem startTime_eq (hv : v = alignTime d { s with pt := 0, slewFrom := 0, strobeAt := none, lastAt := [], ptStep := none, ident := none })
    (hu : u = (v.modDie d fun x => { x with joined := true }).wr d GLB_RSTCAUSE.PTRESTART 1) : startTime d s = u.raise d 277 3 0 := by
  simp only [startTime, ← hv, ← hu]

theorem rootPllLock_locks (h : (s.getDie d).locked = false)
    (hu : u = rootGood d ((((s.modDie d fun x => { x with locked := true, noPads := false }).wr d CLK_STAT.ROOTLOCK 1).wr d GLB_PHASE.PHASE 1))) :
    rootPllLock d s = if u.master = none then startTime d u else u := by
  simp only [rootPllLock, h, Bool.false_eq_true, if_false, ← hu, Option.isNone_iff_eq_none]

theorem rootPllLock_locked (h : (s.getDie d).locked = true) : rootPllLock d s = s := if_pos h

theorem rootLate_eq (d : Nat) (u : State) : rootLate d u = if (u.getDie d).inReset = true ∨ (u.getDie d).locked = true ∨
    anyLink u d = false ∨ u.now < (u.getDie d).upAt + 2500000 then u else rootFail d u := by
  simp only [rootLate, Bool.or_eq_true, Bool.not_eq_true', decide_eq_true_eq, or_assoc]

theorem rootRetry_waits (h : (s.getDie d).locked = false)
    (hu : u = padsOff d (s.pass (2500000 - (s.now - (s.getDie d).upAt) % 2500000))) : rootRetry d s = rootLate d u := by
  simp only [rootRetry, h, Bool.false_eq_true, if_false, ← hu]

theorem rootRetry_locked (h : (s.getDie d).locked = true) : rootRetry d s = s := if_pos h

theorem ptAlign_idle (h : (s.getDie d).locked = false ∨ s.bit d CLK_STAT.PTALIGNED = true) : ptAlign d s = s :=
  if_pos (by rcases h with h | h <;> simp [h])

section
variable (hlock : (s.getDie d).locked = true) (hunaligned : s.bit d CLK_STAT.PTALIGNED = false)
include hlock hunaligned

theorem ptAlign_noMaster (h : s.master = none) : ptAlign d s = startTime d s := by
  simp only [ptAlign, hlock, hunaligned, Bool.not_true, Bool.or_false, Bool.false_eq_true, if_false, h]

/-- A die that has not joined takes the time of a master in its reach; one that has joined waits for a measurement (R45, R55). -/
theorem ptAlign_master {m : Nat} (h : s.master = some m) : ptAlign d s = if (s.getDie d).joined = true then s
    else if s.reach d m = true then (alignTime d s).modDie d fun x => { x with joined := true } else s := by
  simp only [ptAlign, hlock, hunaligned, Bool.not_true, Bool.or_false, Bool.false_eq_true, if_false, h]

end

theorem spineTrained_idle (h : (s.getDie d).locked = false ∨ (s.getDie d).optOk = false ∨ (s.getDie d).trained = true) :
    spineTrained d s = s := if_pos (by rcases h with h | h | h <;> simp [h])

theorem spineTrained_trains (hlock : (s.getDie d).locked = true) (hopt : (s.getDie d).optOk = true) (hnew : (s.getDie d).trained = false)
    (hu : u = ptAlign d s) (hv : v = identTake d (u.modDie d fun x => { x with trained := true })) :
    spineTrained d s = if u.bit d CLK_STAT.PTALIGNED = true then
      pkgFirstTake d (gmShow d (if v.rd d TRM_PORT.STATE = 1 then beatSend d 0 v else v)) else u := by
  have hruns : ¬ ((!(s.getDie d).locked || !(s.getDie d).optOk || (s.getDie d).trained) = true) := by simp [hlock, hopt, hnew]
  simp only [spineTrained, if_neg hruns, ← hu, ← hv]
  cases u.bit d CLK_STAT.PTALIGNED <;> rfl

/-! The reading copy -/

theorem readingCopyStart_idle (h : (s.getDie d).trained = false ∨ s.rd d GLB_PHASE.PHASE ≠ 1) : readingCopyStart d s = s :=
  if_pos (by simpa using h)

theorem readingCopyStart_starts (ht : (s.getDie d).trained = true) (hphase : s.rd d GLB_PHASE.PHASE = 1)
    (hu : u = (s.wr d GLB_PHASE.PHASE 2).modDie d fun x => { x with rcAt := some s.pt }) :
    readingCopyStart d s = emuShowAll d (u.forEach (List.range 8) fun n t => t.modEnc d n fun x =>
      { x with mode := 1, lines := rcLines t d, mech := false, rcS := 0, rcC := 0, rcN := 0, rcSeen := 0, rcWas := false }) := by
  have hruns : ¬ ((!(s.getDie d).trained || s.rd d GLB_PHASE.PHASE != 1) = true) := by simp [ht, hphase]
  simp only [readingCopyStart, if_neg hruns, ← hu]

theorem phase3Step_idle (h : s.rd d GLB_PHASE.PHASE ≠ 2) : phase3Step d s = s := if_pos h

theorem phase3Step_passes (h : s.rd d GLB_PHASE.PHASE = 2) (hu : u = s.pass ((s.getDie d).upAt + 5000000 - s.now)) :
    phase3Step d s = u.wr d GLB_PHASE.PHASE (if (u.getDie d).measured = true then 4 else 3) := by
  simp only [phase3Step, h, ne_eq, not_true_eq_false, if_false, ← hu]

theorem rcUpdate_runs (h : s.rcPhase d = true) : rcUpdate d s =
    (s.toNext (State.stepNo 13 d 0) 250000).forEach (List.range 8) fun n s => rcAxis d n s := if_pos h

theorem rcUpdate_idle (h : s.rcPhase d = false) : rcUpdate d s = s := if_neg (by simp [h])

section
variable {n : Nat} {a : Int × State}
  (hu : u = s.modEnc d n fun x => { (if rcInRange (s.getEnc d n) = true then rcLoop x (atan40 x.rcS x.rcC) else
    { x with rcSeen := 0 }) with rcS := 0, rcC := 0, rcN := 0 })
  (hv : v = u.wrBit d GLB_PHASE.RCVALID n (decide (2 ≤ (u.getEnc d n).rcSeen)))
include hu hv

/-- From the second vector in range on, the angle is valid and shown with its stamp (R60). -/
theorem rcAxis_valid (ha : a = v.near (((u.getEnc d n).rcTh : Rat) / 268435456)) (h : 2 ≤ (u.getEnc d n).rcSeen) : rcAxis d n s =
    rcEmulate d n (((a.2.wr d TRK_ANG.FRAC (enc 12 a.1 * 1048576) n).wr d TRK_STAMP.PT a.2.pt n).wr d TRK_STAT.ANGVALID 1 n) := by
  rw [decide_eq_true h] at hv
  simp only [rcAxis, ← hu, decide_eq_true h, ← hv, if_true, ← ha, b2n]

theorem rcAxis_invalid (h : (u.getEnc d n).rcSeen < 2) : rcAxis d n s = rcEmulate d n (v.wr d TRK_STAT.ANGVALID 0 n) := by
  have hnot : decide (2 ≤ (u.getEnc d n).rcSeen) = false := decide_eq_false (Nat.not_le.mpr h)
  rw [hnot] at hv
  simp only [rcAxis, ← hu, hnot, ← hv, Bool.false_eq_true, if_false, b2n]

end

end

/-- Settles O36: each command is one branch of its operation, and an axis of the reading copy takes its steps. -/
theorem aDieStartsUp : Obligations.ADieStartsUp := by
  intro s d hl
  refine ⟨fun u v => startTime_eq, fun u h hu => onLive_eq hl (rootPllLock_locks h hu),
    fun u h hu => onLive_eq hl ((rootRetry_waits h hu).trans (rootLate_eq d u)),
    fun h => ⟨onLive_eq hl (rootPllLock_locked h), onLive_eq hl (rootRetry_locked h)⟩, onLive_live hl, ptAlign_idle,
    fun hlock hunaligned => ⟨ptAlign_noMaster hlock hunaligned, ?align⟩,
    fun u v hlock hopt hnew hu hv => onLive_eq hl (spineTrained_trains hlock hopt hnew hu hv),
    fun h => onLive_eq hl (spineTrained_idle h), fun ht hphase u hu => onLive_eq hl (readingCopyStart_starts ht hphase hu),
    fun h => onLive_eq hl (readingCopyStart_idle h), fun u h hu => onLive_eq hl (phase3Step_passes h hu),
    fun h => onLive_eq hl (phase3Step_idle h), fun h => onLive_eq hl (rcUpdate_runs h), fun h => onLive_eq hl (rcUpdate_idle h),
    fun n x u v a hx hu hv ha => ⟨rcAxis_valid hu hv ha, rcAxis_invalid hu hv⟩⟩
  case align =>
    intro m hm
    rw [ptAlign_master hlock hunaligned hm]
    refine ⟨fun hj hr => ?_, fun h => ?_⟩
    · rw [if_neg (by simp [hj]), if_pos hr]
    · rcases h with hj | hr
      · exact if_pos hj
      · simp [hr]

end Sys2Proof.Machine
end

section
/-!
The excitation front end (R63 to R85): writes that wait for their apply boundary, driver overload, the pilot's lock, and clipping.
-/

namespace Sys2Proof.Machine

section
variable {s : State} {d n r t f : Nat} {v : Word}

/-! Writes held for an apply boundary -/

theorem applyBoundary_eq (t : Nat) : applyBoundary t = (t + 49999) / 25000 * 25000 := by
  simp only [applyBoundary, Nat.add_assoc, Nat.reduceAdd]

theorem clampFinc_inRange (hlo : 0xD1B71 ≤ f) (hhi : f ≤ 0x10624DD) : clampFinc f = f := by
  rw [clampFinc, clampN, if_neg (Nat.not_lt.mpr hlo), if_neg (Nat.not_lt.mpr hhi)]

/-- Outside the range the nearer bound is taken, which is not the value written (R63). -/
theorem clampFinc_outside {w : Nat} (h : w < 0xD1B71 ∧ f = 0xD1B71 ∨ 0x10624DD < w ∧ f = 0x10624DD) : clampFinc w = f ∧ f ≠ w := by
  rw [clampFinc, clampN]
  obtain ⟨hlo, rfl⟩ | ⟨hhi, rfl⟩ := h
  · exact ⟨if_pos hlo, by omega⟩
  · exact ⟨by rw [if_neg (by omega), if_pos hhi], by omega⟩

/-- EXC_CTRL (R66): its settings and the clearing of CLAMP. -/
theorem excWrite_ctrl {u : State} (hu : u = ((((s.wr d EXC_CTRL.EN (bitsOf v.toNat 0 1) n).wr d EXC_CTRL.DRIVE (bitsOf v.toNat 1 1) n).wr d
      EXC_CTRL.GROUP (bitsOf v.toNat 4 3) n).wr d EXC_CTRL.PILOTBW (bitsOf v.toNat 8 2) n)) :
    excWrite n 0 v t d s = ((((if bitOf v.toNat 25 = true then u.wr d EXC_CTRL.CLAMP 0 n else u).modExc d n fun x =>
      { x with pendCtrl := some ((t + 49999) / 25000 * 25000) }).wr d EXC_CTRL.PEND 1 n).wrBit d EXC_STAT.PEND n true) := by
  simp only [excWrite, applyBoundary_eq, ← hu]

theorem excWrite_finc_inRange (hlo : 0xD1B71 ≤ v.toNat) (hhi : v.toNat ≤ 0x10624DD) : excWrite n 1 v t d s =
    ((((s.wr d EXC_FINC.FINC v.toNat n).modExc d n fun x => { x with pendFinc := some ((t + 49999) / 25000 * 25000) }).wr d
      EXC_CTRL.PEND 1 n).wrBit d EXC_STAT.PEND n true) := by
  simp only [excWrite, applyBoundary_eq, clampFinc_inRange hlo hhi, if_true]

theorem excWrite_finc_outside (h : v.toNat < 0xD1B71 ∧ f = 0xD1B71 ∨ 0x10624DD < v.toNat ∧ f = 0x10624DD) : excWrite n 1 v t d s =
    ((((((s.wr d EXC_FINC.FINC f n).modExc d n fun x => { x with pendFinc := some ((t + 49999) / 25000 * 25000) }).wr d
      EXC_CTRL.CLAMP 1 n).raise d 336 3 n).wr d EXC_CTRL.PEND 1 n).wrBit d EXC_STAT.PEND n true) := by
  obtain ⟨hclamp, hne⟩ := clampFinc_outside h
  simp only [excWrite, applyBoundary_eq, hclamp, if_neg hne]

theorem excWrite_amp : excWrite n 2 v t d s =
    ((((s.wr d EXC_AMP.AMP (v.toNat % 32768) n).modExc d n fun x => { x with pendAmp := some ((t + 49999) / 25000 * 25000) }).wr d
      EXC_CTRL.PEND 1 n).wrBit d EXC_STAT.PEND n true) := by
  simp only [excWrite, applyBoundary_eq, bitsOf, Nat.pow_zero, Nat.div_one, Nat.reducePow]

/-- The three write commands name the registers EXC_CTRL, EXC_FINC and EXC_AMP. -/
theorem eq_excReg {g : Fld} (h : r = 0 ∧ g = EXC_CTRL.EN ∨ r = 1 ∧ g = EXC_FINC.FINC ∨ r = 2 ∧ g = EXC_AMP.AMP) :
    r < 3 ∧ g = excReg r := by
  obtain ⟨rfl, rfl⟩ | ⟨rfl, rfl⟩ | ⟨rfl, rfl⟩ := h <;> exact ⟨by decide, rfl⟩

/-- The register of a write command lies in block 5 of the window, one register set per axis (R25). -/
theorem excReg_place (r : Nat) :
    (excReg r).ax = 0x1000 ∧ (excReg r).lo = 0 ∧ 0x50000 ≤ (excReg r).off ∧ (excReg r).off < 0x51000 := by
  unfold excReg
  split <;> decide

theorem excReg_addr_block (r : Nat) (hn : n < 8) :
    (excReg r).addr 0 n 0 / 0x10000 = 5 ∧ (excReg r).addr 0 n 0 % 0x10000 / 0x1000 = n := by
  obtain ⟨hax, hlo, hmin, hmax⟩ := excReg_place r
  rw [Fld.addr, hax, hlo]
  omega

theorem exec_excWrite_eq {u : State} (hl : s.Live d) (hn : n < 8) (hr : r < 3)
    (h : axisWrite d ((excReg r).addr 0 n 0) v (excWrite n r v s.pt) s = u) : exec (.excWrite d n r v) s = .next (s.commit u) :=
  onItem_live_eq hl (by simp [hl.1, hn, hr]) h

theorem exec_excWrite_applied {u : State} (hl : s.Live d) (hn : n < 8) (hr : r < 3) (hf : s.forwards d = false)
    (hh : s.holds d n = true) (h : excWrite n r v s.pt d s = u) : exec (.excWrite d n r v) s = .next (s.commit u) :=
  exec_excWrite_eq hl hn hr ((axisWrite_applied hf hh (excReg_addr_block r hn).2).trans h)

/-! Driver overload -/

section
variable (hat : (s.getExc d n).ovldAt = some t)
include hat

theorem excOverloadTimeout_raises (h : (s.passTo (t + 250000)).excOverRaised d n = false) :
    excOverloadTimeout d n s = (s.passTo (t + 250000)).raiseAx d n 2 1 := by
  simp only [excOverloadTimeout, hat, h, Bool.false_eq_true, if_false]

theorem excOverloadTimeout_raised (h : (s.passTo (t + 250000)).excOverRaised d n = true) :
    excOverloadTimeout d n s = s.passTo (t + 250000) := by
  simp only [excOverloadTimeout, hat, h, if_true]

end

theorem excOverloadTimeout_none (h : (s.getExc d n).ovldAt = none) : excOverloadTimeout d n s = s := by
  simp only [excOverloadTimeout, h]

theorem excOverloadClear_ends (h : s.excOverRaised d n = true) : excOverloadClear d n s =
    ((s.wr d EXC_CTRL.OVLD 0 n).modExc d n fun x => { x with ovldAt := none }).raiseAx d n 2 2 := if_pos h

theorem excOverloadClear_notRaised (h : s.excOverRaised d n = false) : excOverloadClear d n s =
    (s.wr d EXC_CTRL.OVLD 0 n).modExc d n fun x => { x with ovldAt := none } := if_neg (by simp [h])

/-! The pilot -/

theorem pilotAcqTimeout_locks (hend : (s.getExc d n).acqEnd = some t) (h : 3277 ≤ (s.passTo t).rd d EXC_PILOT.AMPL n) :
    pilotAcqTimeout d n s = ((s.passTo t).modExc d n fun x => { x with acqEnd := none, wideEnd := none }).wr d EXC_PILOT.LOCK 1 n := by
  simp only [pilotAcqTimeout, hend, h, if_true]

theorem pilotAcqTimeout_low (hend : (s.getExc d n).acqEnd = some t) (h : (s.passTo t).rd d EXC_PILOT.AMPL n < 3277) :
    pilotAcqTimeout d n s = s.passTo t := by
  simp only [pilotAcqTimeout, hend, if_neg (Nat.not_le.mpr h)]

theorem pilotAcqTimeout_wide (hacq : (s.getExc d n).acqEnd = none) (hend : (s.getExc d n).wideEnd = some t) :
    pilotAcqTimeout d n s = (s.passTo t).modExc d n fun x => { x with wideEnd := none } := by
  simp only [pilotAcqTimeout, hacq, hend]

theorem pilotAmplitudeLoss_locked (hlow : (s.getExc d n).lowAt = some t) (h : s.bit d EXC_PILOT.LOCK n = true) :
    pilotAmplitudeLoss d n s =
      ((s.passTo (t + 2500000)).wr d EXC_PILOT.LOCK 0 n).modExc d n fun x => { x with held := true, acqEnd := none } := by
  simp only [pilotAmplitudeLoss, hlow, h, if_true]

theorem pilotAmplitudeLoss_unlocked (h : s.bit d EXC_PILOT.LOCK n = false) : pilotAmplitudeLoss d n s = s := by
  unfold pilotAmplitudeLoss
  split
  · exact if_neg (by simp [h])
  · rfl

/-! Clipping -/

theorem clipPeriod_clean (h : (s.getExc d n).closed = some (false, false)) : clipPeriod d n s =
    ((s.wr d EXC_CLIP.SCLIP 0 n).wr d EXC_CLIP.CCLIP 0 n).modExc d n fun x =>
      { x with closed := none, clipRun := 0, clipDone := false } := by
  simp only [clipPeriod, h, Bool.or_self, Bool.false_eq_true, if_false, Bool.and_false, b2n]

theorem clipPeriod_clipped {a b : Bool} (h : (s.getExc d n).closed = some (a, b)) (hab : (a || b) = true) : clipPeriod d n s =
    (((s.wr d EXC_CLIP.SCLIP (b2n a) n).wr d EXC_CLIP.CCLIP (b2n b) n).addSat d EXC_CLIP.COUNT 1 n).modExc d n fun x =>
      { x with closed := none, clipRun := x.clipRun + 1 } := by
  simp only [clipPeriod, h, hab, if_true, Bool.and_true]

theorem clipPeriod_none (h : (s.getExc d n).closed = none) : clipPeriod d n s = s := by
  simp only [clipPeriod, h]

theorem inputClip_eq (d n : Nat) (s : State) : inputClip d n s =
    if 0 < s.rd d EXC_CLIP.LIMIT n ∧ s.rd d EXC_CLIP.LIMIT n ≤ (s.getExc d n).clipRun ∧ (s.getExc d n).clipDone = false then
      (s.modExc d n fun x => { x with clipDone := true }).raiseAx d n 0 3 else s := by
  simp only [inputClip, Bool.not_eq_true']

theorem inputClip_idle (h : s.rd d EXC_CLIP.LIMIT n = 0 ∨ (s.getExc d n).clipRun < s.rd d EXC_CLIP.LIMIT n ∨
    (s.getExc d n).clipDone = true) : inputClip d n s = s := by
  rw [inputClip_eq, if_neg]
  rintro ⟨hpos, hrun, hdone⟩
  obtain h | h | h := h
  · omega
  · omega
  · simp [hdone] at h

end

/-- Settles O1: a write goes where R26 and R27 send it, and where it is applied its register says what it holds. -/
theorem excitationWriteWaitsForItsBoundary : Obligations.ExcitationWriteWaitsForItsBoundary := by
  intro s d n v hl hn
  refine ⟨fun hf hh hlo hhi => exec_excWrite_applied hl hn (by decide) hf hh (excWrite_finc_inRange hlo hhi),
    fun hf hh f h => exec_excWrite_applied hl hn (by decide) hf hh (excWrite_finc_outside h),
    fun hf hh => exec_excWrite_applied hl hn (by decide) hf hh excWrite_amp,
    fun hf hh u hu => exec_excWrite_applied hl hn (by decide) hf hh (excWrite_ctrl hu), fun hf hh r g h => ?discarded,
    fun hf r g h => ?forwarded⟩
  case discarded =>
    obtain ⟨hr, rfl⟩ := eq_excReg h
    obtain ⟨hblock, haxis⟩ := excReg_addr_block r hn
    exact exec_excWrite_eq hl hn hr (axisWrite_discarded hf hh haxis hn (by omega))
  case forwarded =>
    obtain ⟨hr, rfl⟩ := eq_excReg h
    exact exec_excWrite_eq hl hn hr (axisWrite_forwarded hf)

/-- Settles O2: the onset is its effect, timeout and clear each take the branch that the held tick and the standing fault give. -/
theorem excitationOverloadIsTimed : Obligations.ExcitationOverloadIsTimed := fun _ _ _ hl hn =>
  ⟨onAxis_live hl hn, fun _ hat h => onAxis_eq hl hn (excOverloadTimeout_raises hat h),
    fun _ hat h => onAxis_eq hl hn (excOverloadTimeout_raised hat h), fun h => onAxis_eq hl hn (excOverloadClear_ends h),
    fun h => onAxis_eq hl hn (excOverloadClear_notRaised h), fun h => onAxis_eq hl hn (excOverloadTimeout_none h)⟩

/-- Settles O3: the acquisition's end, the wide window's end and the loss are the branches of two operations. -/
theorem pilotLocksAndHolds : Obligations.PilotLocksAndHolds := fun _ _ _ hl hn =>
  ⟨fun _ hend h => onAxis_eq hl hn (pilotAcqTimeout_locks hend h), fun _ hend h => onAxis_eq hl hn (pilotAcqTimeout_low hend h),
    fun _ hacq hend => onAxis_eq hl hn (pilotAcqTimeout_wide hacq hend),
    fun _ hlow h => onAxis_eq hl hn (pilotAmplitudeLoss_locked hlow h), fun h => onAxis_eq hl hn (pilotAmplitudeLoss_unlocked h)⟩

/-- Settles O4: the clip record is formed first and the tracker then judges the period; the report is one branch of its operation. -/
theorem inputClipIsRaisedOnceForARun : Obligations.InputClipIsRaisedOnceForARun := by
  intro s d n hl hn
  have judged {u : State} (h : clipPeriod d n s = u) : exec (.carrierPeriodEnd d n) s = .next (s.commit (trkPeriod d n u)) :=
    onAxis_eq hl hn (congrArg (trkPeriod d n) h)
  exact ⟨fun h => judged (clipPeriod_clean h), fun a b h hab => judged (clipPeriod_clipped h hab), fun h => judged (clipPeriod_none h),
    fun hpos hrun hdone => onAxis_eq hl hn ((inputClip_eq d n s).trans (if_pos ⟨hpos, hrun, hdone⟩)),
    fun h => onAxis_eq hl hn (inputClip_idle h)⟩

end Sys2Proof.Machine
end

section
/-!
The loss of a tracked signal (R93, R94, R103 to R111): its detectors and its declaration, the coast and how it ends, the acquisition,
the lock, and the update that all of them are counted by.
-/

namespace Sys2Proof.Machine

section
variable {s : State} {d n e : Nat}

/-! The detectors -/

theorem trackOverspeed_declares {lim : Rat} (hlim : lim = if s.carrierHz d n / 2 < 5000 then s.carrierHz d n / 2 else 5000)
    (h : 8 ≤ (s.getTrk d n).ovsRun) : trackOverspeed d n s = trackLoss d n 5 none
      (((s.modTrk d n fun t => { t with w := clampQ (-lim) lim t.w, ovsRun := 0 }).wr d TRK_STAT.OVERSPD 1 n).raiseAx d n 5 3) := by
  rw [hlim]
  exact if_pos h

theorem trackOverspeed_short (h : (s.getTrk d n).ovsRun < 8) : trackOverspeed d n s = s := if_neg (Nat.not_le.mpr h)

theorem amplitudeWindowLoss_declares (h : max 1 (s.rd d TRK_AMPWIN.QUAL n) ≤ (s.getTrk d n).ampRun) :
    amplitudeWindowLoss d n s = trackLoss d n (if (s.getTrk d n).ampLow = true then 1 else 2) none s := if_pos h

theorem amplitudeWindowLoss_short (h : (s.getTrk d n).ampRun < max 1 (s.rd d TRK_AMPWIN.QUAL n)) : amplitudeWindowLoss d n s = s :=
  if_neg (Nat.not_le.mpr h)

theorem freezeLoss_declares (hen : s.bit d TRK_FRZ.FEN n = true) (h : max 8 (s.rd d TRK_FRZ.CNT n) ≤ (s.getTrk d n).frzRun) :
    freezeLoss d n s = trackLoss d n 3 (some (s.getTrk d n).frzAt) s :=
  if_pos (by rw [hen, State.frzCnt, decide_eq_true h, Bool.and_self])

theorem freezeLoss_idle (h : s.bit d TRK_FRZ.FEN n = false ∨ (s.getTrk d n).frzRun < max 8 (s.rd d TRK_FRZ.CNT n)) :
    freezeLoss d n s = s := by
  refine if_neg ?_
  obtain hoff | hshort := h
  · simp [hoff]
  · rw [State.frzCnt, decide_eq_false (Nat.not_le.mpr hshort), Bool.and_false]
    exact Bool.false_ne_true

theorem pilotJumpLoss_declares (h : 2 ≤ (s.getTrk d n).jumpRun) :
    pilotJumpLoss d n s = trackLoss d n 4 (some (s.getTrk d n).jumpAt) s := if_pos h

theorem pilotJumpLoss_short (h : (s.getTrk d n).jumpRun < 2) : pilotJumpLoss d n s = s := if_neg (Nat.not_le.mpr h)

/-! The declaration of a loss -/

/-- A loss in force keeps its cause. -/
theorem trackLoss_inForce {c : Nat} {b : Option Nat} (h : s.bit d TRK_STAT.COASTING n = true ∨ s.bit d TRK_STAT.ACQ n = true) :
    trackLoss d n c b s = s := if_pos (by simpa using h)

section
variable {c : Nat} {b : Option Nat} {r u : State} (hcoast : s.bit d TRK_STAT.COASTING n = false)
  (hacq : s.bit d TRK_STAT.ACQ n = false) (hrearm : (s.getTrk d n).rearmAt = none)
  (hr : r = (match b with | some t => rollBack d n t s | none => s))
  (hu : u = ((((((r.wr d TRK_STAT.CAUSE c n).wr d TRK_STAT.ANGVALID 0 n).wr d TRK_STAT.LOCK 0 n).wrBit d TRK_LOSS.LOSS n true).raiseAx
    d n 3 3).modTrk d n fun t => { t with lockRun := 0, good := 0, seen := [], speedWait := false, reacq := false, e := 0 }))
include hcoast hacq hrearm hr hu

/-- Overspeed leaves no angle to coast on: the acquisition begins at once (R108). -/
theorem trackLoss_overspeed (hc : c = 5) :
    trackLoss d n c b s = ((u.wr d TRK_STAT.HOLD 1 n).wr d TRK_STAT.ACQ 1 n).refreshAxis d n := by
  subst hr hu
  cases b <;> simp only [trackLoss, hcoast, hacq, hrearm, Bool.or_self, Bool.false_eq_true, if_false, if_pos hc]

/-- Every other cause starts a coast, which a coast time of 0 ends at once (R107, R108). -/
theorem trackLoss_coasts {k : Nat} {v w : State} (hc : c ≠ 5) (hk : k = u.coastTicks d n)
    (hv : v = (u.wr d TRK_STAT.COASTING 1 n).modTrk d n fun t => { t with coastEnd := some (u.pt + k) })
    (hw : w = if v.bit d TRK_CTRL.COASTOK n = true then v else (v.wr d TRK_STAT.HOLD 1 n).refreshAxis d n) :
    trackLoss d n c b s = if k = 0 then coastEnds d n w else w := by
  subst hr hu hk hv hw
  cases b <;> simp only [trackLoss, hcoast, hacq, hrearm, Bool.or_self, Bool.false_eq_true, if_false, if_neg hc]

end

/-! The end of a coast -/

theorem coastExpiry_ends (he : (s.getTrk d n).coastEnd = some e) (hcoast : s.bit d TRK_STAT.COASTING n = true)
    (h : ¬ (4 ≤ (s.getTrk d n).good ∧ updOf (s.getTrk d n).goodAt < updOf e)) :
    coastExpiry d n s = coastEnds d n (s.passTo e) := by
  simp only [coastExpiry, he, hcoast, TrkAx.resumes, decide_eq_false h, Bool.not_false, Bool.and_self, if_true]

theorem coastResume_ends (he : (s.getTrk d n).coastEnd = some e) (hcoast : s.bit d TRK_STAT.COASTING n = true)
    (hgood : 4 ≤ (s.getTrk d n).good) (hupd : updOf (s.getTrk d n).goodAt < updOf e) : coastResume d n s =
      (s.wr d TRK_STAT.COASTING 0 n).modTrk d n fun t => { t with coastEnd := none, good := 0, lockRun := 0 } := by
  simp only [coastResume, he, hcoast, TrkAx.resumes, decide_eq_true (And.intro hgood hupd), Bool.and_self, if_true]

/-! Acquisition and lock -/

theorem acquisitionComplete_presets (hacq : s.bit d TRK_STAT.ACQ n = true) (hgood : 4 ≤ (s.getTrk d n).good)
    (hwait : (s.getTrk d n).speedWait = false) : acquisitionComplete d n s =
      (s.modTrk d n fun t =>
        { t with th := sgn 56 (enc 56 (t.th + wrapDiff 40 (atan40 (s.getTrk d n).lastS (s.getTrk d n).lastC) t.th)), speedWait := true,
                 seen := [], good := 0, sectHold := true, reacq := true, lockRun := 0 }).wr d TRK_STAT.MECHVALID 0 n :=
  if_pos (by simp [hacq, hgood, hwait])

/-- The period after the first one seen presets the speed: the judgement ends with the preset, whatever it has measured (R109). -/
theorem trkJudge_presets {p : PerRec} {a : Int} {at0 : Nat} {q : List (Int × Nat)} (hwait : (s.getTrk d n).speedWait = true)
    (hseen : (s.getTrk d n).seen = (a, at0) :: q) (h : at0 < p.to_) :
    ∃ r : State, trkJudge d n p s = (r.modTrk d n fun t =>
      { t with w := (wrapDiff 40 (atan40 p.sS p.sC) a : Rat) / 1099511627776 / ((((p.to_ - at0 : Nat) : Rat)) * 4 / 10000000000),
               a := 0, af := 0, speedWait := false, seen := [], lockRun := 0 }).wr d TRK_STAT.ACQ 0 n := by
  have hdt : (((p.to_ - at0 : Nat) : Rat)) * 4 / 10000000000 ≠ 0 := by
    have hpos : 0 < ((p.to_ - at0 : Nat) : Rat) := Nat.cast_pos.mpr (Nat.sub_pos_of_lt h)
    positivity
  simp only [trkJudge, hwait, hseen, if_true, if_neg hdt]
  exact ⟨_, rfl⟩

theorem trackLockQualified_locks {u : State} (hu : u = (s.wr d TRK_STAT.LOCK 1 n).wr d TRK_STAT.ANGVALID 1 n)
    (h : 256 ≤ (s.getTrk d n).lockRun) : trackLockQualified d n s =
      if (s.getTrk d n).reacq = true then (u.modTrk d n fun t => { t with reacq := false }).raiseAx d n 7 3 else u := by
  rw [hu]
  exact if_pos h

theorem trackLockQualified_short (h : (s.getTrk d n).lockRun < 256) : trackLockQualified d n s = s := if_neg (Nat.not_le.mpr h)

/-! The update -/

theorem trackerUpdate_inService {ecc : Nat} {u v : State} (hu : u = s.toNext (State.stepNo 2 d n) 1000)
    (hphase : u.rd d GLB_PHASE.PHASE = 5) (hv : v = encSnapTake d n (trkUpdate d n ecc u)) : trackerUpdate d n ecc s =
      if v.holds d n = true then angleSend d n (emuCopy d n (emuAdvance d n (u.getTrk d n).pendSect.isSome v)) else v := by
  simp only [trackerUpdate, ← hu, hphase, ne_eq, not_true_eq_false, if_false, ← hv, Bool.not_eq_true']
  cases v.holds d n <;> rfl

theorem trackerUpdate_beforeService {ecc : Nat} {u : State} (hu : u = s.toNext (State.stepNo 2 d n) 1000)
    (hphase : u.rd d GLB_PHASE.PHASE ≠ 5) : trackerUpdate d n ecc s = u := by
  simp only [trackerUpdate, ← hu, if_pos hphase]

theorem encSnapTake_none (h : (s.getEnc d n).snap = none) : encSnapTake d n s = s := by
  simp only [encSnapTake, h]

section
variable {x : EncSnap} (hx : (s.getEnc d n).snap = some x)
include hx

theorem encSnapTake_waits (h : s.pt < x.u + 16000 ∨ s.rd d PAIR_STAT.RESYNC ≠ 2) : encSnapTake d n s = s := by
  simp only [encSnapTake, hx, if_pos h]

/-- From update U + 16 on, the row's counts and index state are the registers' (R355). -/
theorem encSnapTake_applies (hdue : x.u + 16000 ≤ s.pt) (hsync : s.rd d PAIR_STAT.RESYNC = 2) : encSnapTake d n s =
    itemApplied d (32 + n) (((encPut d n x.c (s.modEnc d n fun y => { y with snap := none })).wr d ENC_IDX.ARMED (b2n x.armed) n).wr d
      ENC_IDX.FIRST (b2n x.first) n) := by
  simp only [encSnapTake, hx, if_neg (show ¬ (s.pt < x.u + 16000 ∨ s.rd d PAIR_STAT.RESYNC ≠ 2) by omega)]

end

end

/-- Settles O5: each detector is one branch of its operation, and a declaration with no loss in force is a coast or an overspeed's
acquisition. -/
theorem trackerLossesAreDeclaredByTheirDetectors : Obligations.TrackerLossesAreDeclaredByTheirDetectors := by
  intro s d n hl hn
  exact ⟨fun _ hlim h => onAxis_eq hl hn (trackOverspeed_declares hlim h), fun h => onAxis_eq hl hn (trackOverspeed_short h),
    fun h => onAxis_eq hl hn (amplitudeWindowLoss_declares h), fun h => onAxis_eq hl hn (amplitudeWindowLoss_short h),
    fun hen h => onAxis_eq hl hn (freezeLoss_declares hen h), fun h => onAxis_eq hl hn (freezeLoss_idle h),
    fun h => onAxis_eq hl hn (pilotJumpLoss_declares h), fun h => onAxis_eq hl hn (pilotJumpLoss_short h),
    fun _ _ h => trackLoss_inForce h,
    fun hcoast hacq hrearm _ _ _ _ hr hu => ⟨trackLoss_overspeed hcoast hacq hrearm hr hu,
      fun hc _ _ _ => trackLoss_coasts hcoast hacq hrearm hr hu hc⟩⟩

/-- Settles O6: each command is one branch of its operation, a due encoder row is applied, and a judgement that presets the speed ends
with the preset. -/
theorem trackerCoastsResumesAndAcquires : Obligations.TrackerCoastsResumesAndAcquires := by
  intro s d n hl hn
  refine ⟨fun _ he hcoast h => onAxis_eq hl hn (coastExpiry_ends he hcoast h),
    fun _ he hcoast hgood hupd => onAxis_eq hl hn (coastResume_ends he hcoast hgood hupd),
    fun hacq hgood hwait => onAxis_eq hl hn (acquisitionComplete_presets hacq hgood hwait),
    fun _ hu h => onAxis_eq hl hn (trackLockQualified_locks hu h), fun h => onAxis_eq hl hn (trackLockQualified_short h),
    fun _ _ _ hu hphase hv => onAxis_eq hl hn (trackerUpdate_inService hu hphase hv),
    fun _ _ hu hphase => onAxis_eq hl hn (trackerUpdate_beforeService hu hphase), encSnapTake_none,
    fun _ hx => ⟨encSnapTake_waits hx, encSnapTake_applies hx⟩, ?preset⟩
  case preset =>
    rintro p u a at0 q rfl hwait hseen hlt
    obtain ⟨r, hr⟩ := trkJudge_presets hwait hseen hlt
    rw [hr, State.getTrk_wr, State.getTrk_modTrk]
    exact ⟨by rw [State.bit, State.rd_wr_same]; rfl, rfl, rfl⟩

end Sys2Proof.Machine
end

section
/-!
Page commands of the carrel (R134, R136, R137): a command accepted or discarded, its refusals, its effects and its end.
-/

namespace Sys2Proof.Machine

section
variable {s : State} {d n t pa pb op : Nat}

/-- The page commands, each with the operands of the word that it writes to TBL_CMD: OP, PA, PB, AXIS, TABLE (R134). -/
def pageCommands (d pa pb n t b : Nat) : List (Instr × Nat × Nat × Nat × Nat × Nat) :=
  [(.tblLoad d pa, 1, pa, 0, 0, 0), (.tblStore d pa, 2, pa, 0, 0, 0), (.tblMap d pa pb n t, 3, pa, pb, n, t),
    (.tblUnmap d n t, 4, 0, 0, n, t), (.tblCancel d n t, 5, 0, 0, n, t), (.tblFree d pa, 6, pa, 0, 0, 0),
    (.tblAlloc d pa, 7, pa, 0, 0, 0), (.tblCmdBadCode d b, b, 0, 0, 0, 0)]

/-- Each of them is a write of TBL_CMD. -/
theorem exec_pageCommand {b p q m r : Nat} {i : Instr} (hl : s.Live d) (hpa : pa < 32) (hpb : pb < 32) (hn : n < 8) (ht : t < 4)
    (hb : b = 0 ∨ 7 < b ∧ b < 16) (h : (i, op, p, q, m, r) ∈ pageCommands d pa pb n t b) :
    exec i s = .next (s.commit (tblCmd d op p q m r s)) := by
  have hall : (pageCommands d pa pb n t b).Forall fun (i, op, p, q, m, r) => exec i s = .next (s.commit (tblCmd d op p q m r s)) :=
    ⟨onPart_live hl hpa, onPart_live hl hpa, onItem_live hl.2 (by simp [hl.1, tblNums, hpa, hpb, hn, ht]),
      onItem_live hl.2 (by simp [hl.1, tblNums, hn, ht]), onItem_live hl.2 (by simp [hl.1, tblNums, hn, ht]),
      onPart_live hl hpa, onPart_live hl hpa, onLive_eq hl (if_pos hb)⟩
  exact List.forall_iff_forall_mem.mp hall _ h

/-! A write of TBL_CMD -/

section
variable {p q m r : Nat}

theorem tblCmd_busy (h : s.bit d TBL_CMDSTAT.BUSY = true) : tblCmd d op p q m r s =
    ((s.wr d TBL_CMDSTAT.ERR 1).wr d TBL_CMDSTAT.MATEERR 0).raise d 368 3 1 := if_pos h

theorem tblCmd_alone {u : State} (h : s.bit d TBL_CMDSTAT.BUSY = false) (hf : s.forwards d = false)
    (hu : u = ((((s.wr d TBL_CMDSTAT.BUSY 1).wr d TBL_CMDSTAT.ERR 0).wr d TBL_CMDSTAT.MATEERR 0).wr d TBL_CMDSTAT.LASTOP op).modTcmd d
      fun c => { c with own := true, share := false }) : tblCmd d op p q m r s = tblStart d op p q m r u := by
  simp only [tblCmd, h, hf, Bool.false_eq_true, if_false, tblAccept, ← hu]

/-- Accepting a command passes no time, so what is queued for the mate bears the tick of the write. -/
@[simp] theorem pt_tblAccept (d op : Nat) (share : Bool) (s : State) : (tblAccept d op share s).pt = s.pt := by
  simp only [tblAccept, State.pt_modTcmd, State.pt_wr]

theorem tblCmd_shared {a : Nat} (h : s.bit d TBL_CMDSTAT.BUSY = false) (hf : s.forwards d = true) (ha : a = s.activeOf d) :
    tblCmd d op p q m r s = tblStart a op p q m r (((tblAccept (mateOf a) op true (tblAccept a op true s)).modFwd (mateOf a) fun w =>
      w ++ [{ off := 0x7800C, val := BitVec.ofNat 32 (s.rd d TBL_CMDOFS.OFS), tick := s.pt },
        { off := 0x78008, val := BitVec.ofNat 32 (op + p * 16 + q * 512 + m * 65536 + r * 1048576), tick := s.pt }]).wr a
      TBL_CMDOFS.OFS (s.rd d TBL_CMDOFS.OFS)) := by
  simp only [tblCmd, h, hf, ← ha, pt_tblAccept, tblWord, Bool.false_eq_true, if_false, if_true]

theorem tblStart_refused (h : tblCheck s d op p q m r ≠ 0) :
    tblStart d op p q m r s = tblFinish d (tblError d (tblCheck s d op p q m r) s) := if_pos h

theorem tblStart_transfers (h : tblCheck s d op p q m r = 0) (hop : op = 1 ∨ op = 2) :
    tblStart d op p q m r s = tblEffect d op p q m r s := by
  simp only [tblStart, h, ne_eq, not_true_eq_false, if_false, if_pos hop]

theorem tblStart_ends (h : tblCheck s d op p q m r = 0) (h1 : op ≠ 1) (h2 : op ≠ 2) :
    tblStart d op p q m r s = tblFinish d (tblEffect d op p q m r s) := by
  simp only [tblStart, h, ne_eq, not_true_eq_false, if_false, h1, h2, or_self]

end

/-! Refusals -/

theorem tblCheck_undefined (s : State) (d pa pb n t : Nat) (h : op = 0 ∨ 7 < op) : tblCheck s d op pa pb n t = 2 := if_pos h

theorem tblCheck_notHeld (h : op = 3 ∨ op = 4 ∨ op = 5) (hh : s.holds d n = false) : tblCheck s d op pa pb n t = 6 := by
  obtain rfl | rfl | rfl := h <;> exact if_pos (by simp [hh])

section
variable (hh : s.holds d n = true)
include hh

theorem tblCheck_map : tblCheck s d 3 pa pb n t =
    if s.tblBins d n t ≤ s.coarseBins d then 5 else if s.tblBins d n t = 4096 ∧ pa = pb then 5
    else if s.bit d TBL_RES.PEND n t = true then 4
    else if s.rd d TBL_PAGE.STATE pa = 2 ∧ (s.tblBins d n t = 4096 → s.rd d TBL_PAGE.STATE pb = 2) then 0 else 3 := by
  simp [tblCheck, hh, imp_iff_not_or]

theorem tblCheck_unmap : tblCheck s d 4 pa pb n t =
    if s.bit d TBL_RES.ACTIVE n t = true ∧ s.bit d TBL_RES.PEND n t = false then 0 else 4 := by
  simp [tblCheck, hh]

theorem tblCheck_cancel : tblCheck s d 5 pa pb n t = if (s.getSlot d n t).map = none then 4 else 0 := by
  cases hmap : (s.getSlot d n t).map <;> simp [tblCheck, hh, hmap]

end

/-! Effects -/

theorem tblEffect_map {v : State} (hv : v = if s.tblBins d n t = 4096 then setPage (setPage s d pa 4 n t 0) d pb 4 n t 1
      else setPage s d pa 4 n t 0) :
    tblEffect d 3 pa pb n t s = (v.wr d TBL_RES.PEND 1 n t).modSlot d n t fun x => { x with map := some (pa, pb) } := by
  simp only [tblEffect, beq_iff_eq, ← hv]

theorem tblEffect_cancel {v : State} {p q : Nat} (h : (s.getSlot d n t).map = some (p, q)) (hv : v = s.wr d TBL_PAGE.STATE 2 p) :
    tblEffect d 5 pa pb n t s = ((if v.tblBins d n t = 4096 then v.wr d TBL_PAGE.STATE 2 q else v).wr d TBL_RES.PEND 0 n t).modSlot d n t
      fun x => { x with map := none } := by
  simp only [tblEffect, h, ← hv]

/-! Error and end of a command that no mate shares -/

theorem tblError_unshared (e : Nat) (h0 : s.rd d TBL_CMDSTAT.ERR = 0) (h : (s.getTcmd d).share = false) :
    tblError d e s = ((s.wr d TBL_CMDSTAT.ERR e).wr d TBL_CMDSTAT.MATEERR 0).raise d 368 3 e := by
  simp only [tblError, h0, if_true, State.getTcmd_wr, h, Bool.false_eq_true, false_and, if_false]

theorem tblFinish_unshared (h : (s.getTcmd d).share = false) : tblFinish d s =
    ((((s.modTcmd d fun c => { c with own := false, run := none }).wr d TBL_CMDSTAT.BUSY 0).wr d TBL_CMDSTAT.DONE 1).setIrqs d 17
      true).modTcmd d fun c => { c with share := false } := by
  simp only [tblFinish, State.getTcmd_modTcmd, h, Bool.false_eq_true, if_false]

end

/-- Settles O8: each command is a write of TBL_CMD, whose three branches are the shared, the refused and the accepted command. -/
theorem pageCommandsHaveTheirEffect : Obligations.PageCommandsHaveTheirEffect := by
  intro s d pa pb n t b hl hpa hpb hn ht hb
  refine ⟨fun i op p q m r hi => ?command, fun u => tblCheck_undefined u d _ _ _ _ (hb.imp_right And.left),
    fun u op hop => tblCheck_notHeld hop, fun _ => rfl, fun _ => rfl, fun _ => tblCheck_map, fun _ => tblCheck_unmap,
    fun _ => tblCheck_cancel, fun _ => rfl, fun _ => rfl, fun _ => rfl, fun _ => rfl, fun _ _ => tblEffect_map, fun _ => rfl,
    fun _ _ _ _ => tblEffect_cancel, fun _ => rfl, fun _ => rfl, fun _ e => tblError_unshared e, fun _ => tblFinish_unshared⟩
  case command =>
    rw [exec_pageCommand hl hpa hpb hn ht hb hi]
    refine ⟨fun h => by rw [tblCmd_busy h], ?alone, fun h hf a u ha hu => by rw [tblCmd_shared h hf ha, hu]⟩
    intro h hf u hu
    rw [tblCmd_alone h hf hu]
    exact ⟨fun hc => by rw [tblStart_refused hc], fun hc hop => by rw [tblStart_transfers hc hop],
      fun hc h1 h2 => by rw [tblStart_ends hc h1 h2]⟩

end Sys2Proof.Machine
end

section
/-!
Tables and their pages (R114, R122, R123, R129, R132, R134, R136, R138, R140, R141): the index wrap, the end of a LOAD or STORE,
TBL_DESC and the carrel window.
-/

namespace Sys2Proof.Machine

section
variable {s : State} {d n t : Nat}

/-! The index wrap -/

theorem exec_tableIndexWrap {fwd : Bool} (hl : s.Live d) (hn : n < 8) (ht : t < 4) :
    exec (.tableIndexWrap d n t fwd) s = .next (s.commit (if s.wrapDue d n t = some fwd then tableIndexWrap d n t s else s)) :=
  onPart_eq hl (by omega) (by simp only [ht, true_and])

/-- The correction of a held sample of update `u`: that of the newest set where it was published for `u`, else the `c` held with it (R124,
R138). -/
def sampleCorrection (s : State) (d n u : Nat) (c : Int) : Int :=
  match (s.getTrk d n).hist with
  | p :: _ => if p.u = u then wrapDiff 40 p.th p.ang / 65536 else c
  | [] => c

section
variable {fwd : Bool} (hdue : s.wrapDue d n t = some fwd)
include hdue

/-- A table that corrects no angle only takes the wrap (R138, R141). -/
theorem tableIndexWrap_plain (h : ¬ (t = 0 ∧ s.rd d TBL_DESC.ROLE n 0 = 1)) : tableIndexWrap d n t s = wrapTake d n t s := by
  simp only [tableIndexWrap, hdue, decide_eq_false h, Bool.not_false, if_true]

section
variable {x y : State} (h : t = 0 ∧ s.rd d TBL_DESC.ROLE n 0 = 1) (hx : x = wrapTake d n t s)
  (hy : y = closeRevolution d n fwd
    (if (s.getSlot d n t).map.isSome = true ∨ (s.getSlot d n t).unmap = true then republish d n x else x))
include h hx hy

theorem tableIndexWrap_noSample (hlate : (y.getSlot d n 0).late = none) : tableIndexWrap d n t s = y := by
  simp only [tableIndexWrap, hdue, decide_eq_true h, Bool.not_true, Bool.false_eq_true, if_false, Bool.or_eq_true, ← hx, ← hy, hlate]

/-- The held sample enters the revolution that opens at its update (R124). -/
theorem tableIndexWrap_sample {u : Nat} {th c : Int} {w e : Rat} (hlate : (y.getSlot d n 0).late = some (u, th, c, w, e)) :
    tableIndexWrap d n t s =
      correctionLearn d n u th (sampleCorrection y d n u c) w e (y.modSlot d n 0 fun r => { r with late := none }) := by
  simp only [tableIndexWrap, hdue, decide_eq_true h, Bool.not_true, Bool.false_eq_true, if_false, Bool.or_eq_true, ← hx, ← hy, hlate,
    sampleCorrection] <;> rfl

end

end

/-- The revolution that opens begins at the update of the latest set, and the mean speeds move up by one (R122, R123). -/
theorem getSlot_closeRevolution (d n : Nat) (fwd : Bool) (s : State) :
    ((closeRevolution d n fwd s).getSlot d n 0).u0 = some (s.rd d TRK_STAMP.PT n) ∧
      ((closeRevolution d n fwd s).getSlot d n 0).w2 = (s.getSlot d n 0).w1 := by
  simp only [closeRevolution, State.getSlot_wr, State.getSlot_modSlot, and_self]

/-! A pending MAP or UNMAP at the wrap -/

theorem mapActivate_none (hm : (s.getSlot d n t).map = none) (hu : (s.getSlot d n t).unmap = false) : mapActivate d n t s = s := by
  simp only [mapActivate, hm, hu, Bool.false_eq_true, if_false]

theorem mapActivate_unmap (hm : (s.getSlot d n t).map = none) (hu : (s.getSlot d n t).unmap = true) : mapActivate d n t s =
    ((((holdPages s d (activePages s d n t)).wr d TBL_RES.ACTIVE 0 n t).wr d TBL_RES.PEND 0 n t).modSlot d n t fun x =>
      { x with unmap := false }).raise d (80 + n) 3 n := by
  simp only [mapActivate, hm, hu, if_true]

theorem mapActivate_map {p q : Nat} {u : State} (hm : (s.getSlot d n t).map = some (p, q))
    (hu : u = ((holdPages s d (activePages s d n t)).wr d TBL_PAGE.STATE 5 p).wr d TBL_RES.PAGE0 p n t) : mapActivate d n t s =
      ((((if u.tblBins d n t = 4096 then (u.wr d TBL_PAGE.STATE 5 q).wr d TBL_RES.PAGE1 q n t else u).wr d TBL_RES.ACTIVE 1 n t).wr d
        TBL_RES.PEND 0 n t).modSlot d n t fun x => { x with map := none }).raise d (80 + n) 3 n := by
  simp only [mapActivate, hm, ← hu]

/-! The end of a LOAD or STORE -/

theorem tblCmdComplete_none {bad : Bool} (h : (s.getTcmd d).run = none) : tblCmdComplete d bad s = s := by
  simp only [tblCmdComplete, h]

section
variable {p ofs a : Nat} {bs : List Byte} {u : State} (h : (s.getTcmd d).run = some (true, p, ofs))
include h

theorem tblCmdComplete_loaded (ha : a = (s.rd d TBL_LIBBASE.BASE + ofs) * 4096 % 2 ^ 35) (hr : s.dramRead a 4096 = (some bs, u)) :
    tblCmdComplete d false s = tblFinish d ((fillPage u d p bs).wr d TBL_PAGE.STATE 2 p) := by
  simp only [tblCmdComplete, h, ← ha, hr]

theorem tblCmdComplete_loadUnserved (ha : a = (s.rd d TBL_LIBBASE.BASE + ofs) * 4096 % 2 ^ 35) (hr : s.dramRead a 4096 = (none, u)) :
    tblCmdComplete d false s = tblFinish d ((tblError d 7 u).wr d TBL_PAGE.STATE 0 p) := by
  simp only [tblCmdComplete, h, ← ha, hr]

theorem tblCmdComplete_loadBad : tblCmdComplete d true s = tblFinish d ((tblError d 7 s).wr d TBL_PAGE.STATE 0 p) := by
  simp only [tblCmdComplete, h]

end

section
variable {p ofs a : Nat} {u : State} (h : (s.getTcmd d).run = some (false, p, ofs))
include h

theorem tblCmdComplete_stored (ha : a = (s.rd d TBL_LIBBASE.BASE + ofs) * 4096 % 2 ^ 35)
    (hw : s.dramWrite a (pageBytes s d p) = (true, u)) : tblCmdComplete d false s = tblFinish d u := by
  simp only [tblCmdComplete, h, ← ha, hw]

theorem tblCmdComplete_storeUnserved (ha : a = (s.rd d TBL_LIBBASE.BASE + ofs) * 4096 % 2 ^ 35)
    (hw : s.dramWrite a (pageBytes s d p) = (false, u)) : tblCmdComplete d false s = tblFinish d (tblError d 7 u) := by
  simp only [tblCmdComplete, h, ← ha, hw]

theorem tblCmdComplete_storeBad : tblCmdComplete d true s = tblFinish d (tblError d 7 s) := by
  simp only [tblCmdComplete, h]

end

/-! TBL_DESC -/

section
variable {v : Word} {fixed rb sb bb : Bool} {role src : Nat} {x y z : State}
  (hfixed : fixed = (s.bit d TBL_RES.ACTIVE n t || s.bit d TBL_RES.PEND n t))
  (hrb : rb = ((bitsOf v.toNat 0 2 == 1 && t != 0) || (fixed && bitsOf v.toNat 0 2 != s.rd d TBL_DESC.ROLE n t)))
  (hrole : role = if rb = true then s.rd d TBL_DESC.ROLE n t else bitsOf v.toNat 0 2)
  (hsb : sb = ((role == 1 && (bitsOf v.toNat 2 2 == 1 || bitsOf v.toNat 2 2 == 2)) ||
    (fixed && bitsOf v.toNat 2 2 != s.rd d TBL_DESC.SRC n t)))
  (hsrc : src = if sb = true then s.rd d TBL_DESC.SRC n t else bitsOf v.toNat 2 2)
  (hbb : bb = (fixed && bitsOf v.toNat 4 3 != s.rd d TBL_DESC.BINS n t))
  (hx : x = if bb = true then (s.wr d TBL_DESC.ROLE role n t).wr d TBL_DESC.SRC src n t
    else ((s.wr d TBL_DESC.ROLE role n t).wr d TBL_DESC.SRC src n t).wr d TBL_DESC.BINS (bitsOf v.toNat 4 3) n t)
  (hy : y = (((x.wr d TBL_DESC.APPLY (bitsOf v.toNat 8 1) n t).wr d TBL_DESC.LEARN (bitsOf v.toNat 9 1) n t).wr d TBL_DESC.LEAD
    (bitsOf v.toNat 16 6) n t).wr d TBL_DESC.EXP (bitsOf v.toNat 24 6) n t)
  (hz : z = if role ≠ s.rd d TBL_DESC.ROLE n t ∨ src ≠ s.rd d TBL_DESC.SRC n t then
      (if role ≠ s.rd d TBL_DESC.ROLE n t then ((clearCoarse y d n t).wr d TBL_RES.MISS 0 n t).modSlot d n t (fun _ => {})
        else clearCoarse y d n t).modSlot d n t fun r =>
          { r with wrap := none, turn := floorQ ((clearCoarse y d n t).lineAt d (clearCoarse y d n t).pt) }
    else y)
include hfixed hrb hrole hsb hsrc hbb hx hy hz

/-- The fields are taken or kept (`y`), the coarse copy and the record follow ROLE and SRC (`z`), and a refused field is reported. -/
theorem tblDescWrite_eq : tblDescWrite n t v d s =
    if rb = true ∨ sb = true ∨ bb = true then
      (if s.bit d TBL_DESC.APPLY n t = false ∧ bitOf v.toNat 8 = true then z.modSlot d n t fun r => { r with missed := false } else z).raise
        d 368 3 n
    else if s.bit d TBL_DESC.APPLY n t = false ∧ bitOf v.toNat 8 = true then z.modSlot d n t fun r => { r with missed := false } else z := by
  by_cases hclear : role ≠ s.rd d TBL_DESC.ROLE n t ∨ src ≠ s.rd d TBL_DESC.SRC n t
  · rw [if_pos hclear] at hz
    simp only [tblDescWrite, ← hfixed, ← hrb, ← hrole, ← hsb, ← hsrc, ← hbb, ← hx, ← hy, if_pos hclear, ← hz, Bool.or_eq_true,
      Bool.and_eq_true, Bool.not_eq_true', or_assoc]
  · rw [if_neg hclear] at hz
    simp only [tblDescWrite, ← hfixed, ← hrb, ← hrole, ← hsb, ← hsrc, ← hbb, ← hx, ← hy, if_neg hclear, ← hz, Bool.or_eq_true,
      Bool.and_eq_true, Bool.not_eq_true', or_assoc]

end

/-- The register of a write of TBL_DESC lies in the register set of its axis (R25). -/
theorem addr_tblDesc_axis (hn : n < 8) (ht : t < 4) : TBL_DESC.ROLE.addr 0 n t % 0x10000 / 0x1000 = n := by
  simp only [Fld.addr, TBL_DESC.ROLE]
  omega

/-! The carrel window -/

section
variable {m o ecc st k a : Nat} {v : Word}

theorem exec_carrelWindowAccess {wr : Bool} {u : State} (hl : s.Live d) (ho : o < 131072) (hal : o % 4 = 0)
    (h : (if wr then carrelWrite m d o v.toNat s else carrelRead d o ecc s) = u) :
    exec (.carrelWindowAccess m d o wr v ecc) s = .next (s.commit u) :=
  onItem_live_eq hl (by simp [hl.1, ho]) ((if_neg (by simp [hal])).trans h)

theorem exec_carrelWindowAccess_misaligned {wr : Bool} (hl : s.Live d) (ho : o < 131072) (hal : o % 4 ≠ 0) :
    exec (.carrelWindowAccess m d o wr v ecc) s =
      .next (s.commit ((s.answer 0).accessFault d m wr 2 3 (d * dieSpan + 0x200000 + o))) :=
  onItem_live_eq hl (by simp [hl.1, ho]) (if_pos hal)

section
variable (hst : st = s.rd d TBL_PAGE.STATE (o / 4096 % 32))
include hst

theorem carrelWrite_closed (v : Nat) (h : st = 0 ∨ st = 3) :
    carrelWrite m d o v s = s.accessFault d m true 2 5 (d * dieSpan + 0x200000 + o % 131072) := by
  subst hst
  exact if_pos h

theorem carrelRead_closed (h : st = 0 ∨ st = 3) : carrelRead d o ecc s = s.answer 0 := by
  subst hst
  exact if_pos h

section
variable (h0 : st ≠ 0) (h3 : st ≠ 3) (hk : k = o / 4 % 32768 * 2)
include h0 h3 hk

theorem carrelWrite_open (v : Nat) : carrelWrite m d o v s =
    (s.modEntry d k fun _ => BitVec.ofNat 16 v).modEntry d (k + 1) fun _ => BitVec.ofNat 16 (v / 65536) := by
  simp only [carrelWrite, ← hst, h0, h3, or_self, if_false, ← hk]

section
variable {w : Option (Nat × Nat)} {u x : State} (hw : w = entryOwner s d k) (ha : a = (w.getD (0, 0)).1)
  (hu : u = s.inject d 0 (72 + a) 5 (eccAddr a k))
include hw ha hu

theorem carrelRead_clean : carrelRead d o 0 s = u.answer ((u.getEntry d k).toNat + 65536 * (u.getEntry d (k + 1)).toNat) := by
  simp only [carrelRead, ← hst, h0, h3, or_self, if_false, ← hk, ← hw, ← ha, ← hu, OfNat.zero_ne_ofNat]

theorem carrelRead_corrected {b c : Nat} (hown : w = some (b, c)) (hx : x = u.addSat d TBL_MISSCNT.ECC 1 b c) :
    carrelRead d o 1 s = x.answer ((x.getEntry d k).toNat + 65536 * (x.getEntry d (k + 1)).toNat) := by
  simp only [carrelRead, ← hst, h0, h3, or_self, if_false, ← hk, ← hw, ← ha, ← hu]
  simp only [hown, ← hx, OfNat.one_ne_ofNat, if_false]

/-- An uncorrectable error is reported; the word is 0 in a fixed page and free elsewhere (R131). -/
theorem carrelRead_uncorrectable (hx : x = u.raise d (72 + a) 5 (eccAddr a k)) :
    carrelRead d o 2 s = if st = 1 then x.answer 0 else (x.answer (x.free % 2 ^ 32)).drew := by
  simp only [carrelRead, ← hst, h0, h3, or_self, if_false, ← hk, ← hw, ← ha, ← hu, if_true, ← hx]

end

end

end

end

end

/-- Settles O9: each clause is one branch of the operation that its command runs. -/
theorem tablesMapAtTheirWrapAndMoveByPages : Obligations.TablesMapAtTheirWrapAndMoveByPages := by
  intro s d n t hl hn ht
  have wrapped {fwd : Bool} {u : State} (hdue : s.wrapDue d n t = some fwd) (h : tableIndexWrap d n t s = u) :
      exec (.tableIndexWrap d n t fwd) s = .next (s.commit u) := by
    rw [exec_tableIndexWrap hl hn ht, if_pos hdue, h]
  refine ⟨fun fwd hdue => by rw [exec_tableIndexWrap hl hn ht, if_neg hdue],
    fun fwd hdue h => wrapped hdue (tableIndexWrap_plain hdue h), ?correcting, fun fwd => getSlot_closeRevolution d n fwd s, ?take,
    mapActivate_none, mapActivate_unmap, fun p0 p1 u hm hu => mapActivate_map hm hu, fun h bad => onLive_eq hl (tblCmdComplete_none h),
    ?load, ?store, ?desc, fun m o wr v ecc ho hal => exec_carrelWindowAccess_misaligned hl ho hal, ?carrel⟩
  case correcting =>
    intro fwd x y hdue h0 hrole hx hy
    exact ⟨fun hlate => wrapped hdue (tableIndexWrap_noSample hdue ⟨h0, hrole⟩ hx hy hlate),
      fun u th c w e hlate => ⟨sampleCorrection y d n u c, wrapped hdue (tableIndexWrap_sample hdue ⟨h0, hrole⟩ hx hy hlate)⟩⟩
  case take =>
    rintro u k rfl rfl
    rfl
  case load =>
    intro p ofs a h ha
    exact ⟨fun bs u hr => onLive_eq hl (tblCmdComplete_loaded h ha hr), fun u hr => onLive_eq hl (tblCmdComplete_loadUnserved h ha hr),
      onLive_eq hl (tblCmdComplete_loadBad h)⟩
  case store =>
    intro p ofs a h ha
    exact ⟨fun u hw => onLive_eq hl (tblCmdComplete_stored h ha hw), fun u hw => onLive_eq hl (tblCmdComplete_storeUnserved h ha hw),
      onLive_eq hl (tblCmdComplete_storeBad h)⟩
  case desc =>
    intro v fixed rb sb bb role src x y z hf hh hfixed hrb hrole hsb hsrc hbb hx hy hz
    exact onItem_live_eq hl (by simp [hl.1, hn, ht])
      ((axisWrite_applied hf hh (addr_tblDesc_axis hn ht)).trans (tblDescWrite_eq hfixed hrb hrole hsb hsrc hbb hx hy hz))
  case carrel =>
    intro m o v ecc st k ho hal hst hk
    have access {wr : Bool} {u : State} (h : (if wr then carrelWrite m d o v.toNat s else carrelRead d o ecc s) = u) :
        exec (.carrelWindowAccess m d o wr v ecc) s = .next (s.commit u) := exec_carrelWindowAccess hl ho hal h
    refine ⟨fun h => access (carrelWrite_closed hst _ h), fun h0 h3 => access (carrelWrite_open hst h0 h3 hk _),
      fun h => access (carrelRead_closed hst h), fun h0 h3 w a u hw ha hu => ⟨?_, ?_, ?_, ?_⟩⟩
    · rintro rfl
      exact access (carrelRead_clean hst h0 h3 hk hw ha hu)
    · rintro b c x rfl hown hx
      exact access (carrelRead_corrected hst h0 h3 hk hw ha hu hown hx)
    · rintro x rfl h1 hx
      exact access ((carrelRead_uncorrectable hst h0 h3 hk hw ha hu hx).trans (if_pos h1))
    · rintro x rfl h1 hx
      exact access ((carrelRead_uncorrectable hst h0 h3 hk hw ha hu hx).trans (if_neg h1))

end Sys2Proof.Machine
end

section
/-!
The emulator (R146, R149, R150, R152) and the wires of an encoder input (R155).
-/

namespace Sys2Proof.Machine

section
variable {s : State} {d n : Nat}

/-! The rate limit -/

theorem emuOverrate_raises {t : Nat} (hlim : (s.getEnc d n).limAt = some t) (hdone : (s.getEnc d n).limDone = false) :
    emuOverrate d n s = (((s.pass (t / 8 + 25000 - s.now)).modEnc d n fun x => { x with limDone := true }).wrBit d
      ENC_FAULT.OVERRATE n true).raiseAx d n 14 3 := by
  simp only [emuOverrate, hlim, hdone, Bool.false_eq_true, if_false]

theorem emuOverrate_idle (h : (s.getEnc d n).limAt = none ∨ (s.getEnc d n).limDone = true) : emuOverrate d n s = s := by
  cases hlim : (s.getEnc d n).limAt with
  | none => simp only [emuOverrate, hlim]
  | some t =>
    have hdone : (s.getEnc d n).limDone = true := h.resolve_left (by simp [hlim])
    simp only [emuOverrate, hlim, hdone, if_true]

/-! The rebase -/

theorem emuRebaseDue_iff : emuRebaseDue s d n = true ↔ s.emuMode d n = 1 ∧
    ((s.getEnc d n).mode ≠ 1 ∨ (s.getEnc d n).lines ≠ s.emuLines d n ∨ (s.getEnc d n).mech ≠ s.bit d EMU_CTRL.SRC n) := by
  simp [emuRebaseDue, or_assoc]

theorem emuRebase_due {u : State} (hphase : 5 ≤ s.rd d GLB_PHASE.PHASE) (hmode : s.emuMode d n = 1)
    (h : (s.getEnc d n).mode ≠ 1 ∨ (s.getEnc d n).lines ≠ s.emuLines d n ∨ (s.getEnc d n).mech ≠ s.bit d EMU_CTRL.SRC n)
    (hu : u = emuGo d n (s.toGrid 1000)) : emuRebase d n s = emuRebaseFrom d n (emuPinState u d n) u := by
  rw [hu]
  exact if_pos ⟨hphase, emuRebaseDue_iff.mpr ⟨hmode, h⟩⟩

theorem emuRebase_idle (h : s.rd d GLB_PHASE.PHASE < 5 ∨ s.emuMode d n ≠ 1 ∨
      (s.getEnc d n).mode = 1 ∧ (s.getEnc d n).lines = s.emuLines d n ∧ (s.getEnc d n).mech = s.bit d EMU_CTRL.SRC n) :
    emuRebase d n s = s := by
  refine if_neg ?_
  rintro ⟨hphase, hdue⟩
  obtain ⟨hmode, hset⟩ := emuRebaseDue_iff.mp hdue
  obtain hlt | hne | ⟨hin, hlines, hmech⟩ := h
  · omega
  · exact hne hmode
  · simp [hin, hlines, hmech] at hset

/-- No more than one count lies between q and the state kept: e has one nearest value. -/
theorem emuNearest_unique {k : Nat} {o : Int} (h : ((k : Int) - (s.getEnc d n).q) % 4 = 0 ∧ o = 0 ∨
      ((k : Int) - (s.getEnc d n).q) % 4 = 1 ∧ o = 1 ∨ ((k : Int) - (s.getEnc d n).q) % 4 = 3 ∧ o = -1) :
    emuNearest d n k s = s.modEnc d n fun x => { x with e := sgn 48 (enc 48 (x.q + o)) } := by
  obtain ⟨hc, rfl⟩ | ⟨hc, rfl⟩ | ⟨hc, rfl⟩ := h <;> rw [emuNearest, hc] <;> rfl

/-- Two counts lie between q and the state kept: the side is free (R150). -/
theorem emuNearest_tie {k : Nat} (hc : ((k : Int) - (s.getEnc d n).q) % 4 = 2) : emuNearest d n k s =
    s.drew.modEnc d n fun x => { x with e := sgn 48 (enc 48 (x.q + if s.free % 2 = 0 then 2 else -2)) } := by
  rw [emuNearest, hc]
  rfl

/-! Pass-through -/

theorem emuPassthroughChange_takes (hphase : 5 ≤ s.rd d GLB_PHASE.PHASE) (hmode : s.emuMode d n = 2) (hin : (s.getEnc d n).mode ≠ 2) :
    emuPassthroughChange d n s = emuShow d n
      (((((s.toGrid 1000).modEnc d n fun x => { x with mode := 2, limAt := none, limDone := false, catching := false }).wr d
        EMU_STAT.PASS 1 n).wr d EMU_STAT.LIMIT 0 n).wr d EMU_STAT.BACKLOG 0 n) := if_pos ⟨hphase, hmode, hin⟩

theorem emuPassthroughChange_idle (h : s.rd d GLB_PHASE.PHASE < 5 ∨ s.emuMode d n ≠ 2 ∨ (s.getEnc d n).mode = 2) :
    emuPassthroughChange d n s = s := if_neg (by omega)

/-! The wires of the pairs -/

section
variable {w ago up : Nat} {since : List Nat} {past : Nat → Bool} {u : State}
  (hsince : since = (List.range 3).map fun i =>
    if bitOf (s.rd d ENC_STAT.WIRE n) i = true then (s.getEnc d n).wireAt.getD i 0 else s.ptD d - ago)
  (hpast : past = fun i => bitOf w i && decide (s.rd d ENC_CFG.WIRET n < s.fabSamples d (s.ptD d - since.getD i 0)))
  (hup : up = b2n (past 0) + 2 * b2n (past 1) + 4 * b2n (past 2))
  (hu : u = (s.wr d ENC_STAT.WIRE w n).modEnc d n fun x => { x with wireAt := since, wireUp := up })
include hsince hpast hup hu

theorem encWireDisagree_eq : encWireDisagree d n w ago s =
    if ((List.range 3).any fun i => past i && !bitOf (s.getEnc d n).wireUp i) = true then
      (u.wrBit d ENC_FAULT.WIRE n true).raiseAx d n 11 1
    else if up = 0 ∧ (s.getEnc d n).wireUp ≠ 0 then u.raiseAx d n 11 2 else u := by
  subst hsince hpast hup hu
  rfl

theorem encWireDisagree_begins (h : ((List.range 3).any fun i => past i && !bitOf (s.getEnc d n).wireUp i) = true) :
    encWireDisagree d n w ago s = (u.wrBit d ENC_FAULT.WIRE n true).raiseAx d n 11 1 := by
  rw [encWireDisagree_eq hsince hpast hup hu, if_pos h]

theorem encWireDisagree_ends (h : ((List.range 3).any fun i => past i && !bitOf (s.getEnc d n).wireUp i) = false) (hnone : up = 0)
    (hwas : (s.getEnc d n).wireUp ≠ 0) : encWireDisagree d n w ago s = u.raiseAx d n 11 2 := by
  rw [encWireDisagree_eq hsince hpast hup hu, h, if_neg Bool.false_ne_true, if_pos ⟨hnone, hwas⟩]

theorem encWireDisagree_goesOn (h : ((List.range 3).any fun i => past i && !bitOf (s.getEnc d n).wireUp i) = false)
    (hsame : up ≠ 0 ∨ (s.getEnc d n).wireUp = 0) : encWireDisagree d n w ago s = u := by
  rw [encWireDisagree_eq hsince hpast hup hu, h, if_neg Bool.false_ne_true, if_neg (by omega)]

end

end

/-- Settles O10: each command is one branch of its operation, and a rebase puts e on the count nearest q. -/
theorem emulatorsRebaseLimitAndPassThrough : Obligations.EmulatorsRebaseLimitAndPassThrough := by
  intro s d n hl hn
  refine ⟨fun t hlim hdone => onAxis_eq hl hn (emuOverrate_raises hlim hdone), fun h => onAxis_eq hl hn (emuOverrate_idle h),
    fun hphase hmode h u hu => onAxis_eq hl hn (emuRebase_due hphase hmode h hu), fun h => onAxis_eq hl hn (emuRebase_idle h),
    ?rebase, fun k o => emuNearest_unique, fun k => emuNearest_tie,
    fun hphase hmode hin => onAxis_eq hl hn (emuPassthroughChange_takes hphase hmode hin),
    fun h => onAxis_eq hl hn (emuPassthroughChange_idle h), fun w ago since past up u hsince hpast hup hu =>
      ⟨fun h => onAxis_eq hl hn (encWireDisagree_begins hsince hpast hup hu h),
        fun h hnone hwas => onAxis_eq hl hn (encWireDisagree_ends hsince hpast hup hu h hnone hwas),
        fun h hsame => onAxis_eq hl hn (encWireDisagree_goesOn hsince hpast hup hu h hsame)⟩⟩
  case rebase =>
    rintro k x y z rfl rfl rfl
    rfl

end Sys2Proof.Machine
end

section
/-!
An encoder input: its edges, its counts, its index and its speed (R156, R158 to R164), the writes of its registers, and its probe (R166
to R168).
-/

namespace Sys2Proof.Machine

section
variable {s u x : State} {d n ago old : Nat}

/-! Levels -/

section
variable {a b z : Bool} {v st : Nat} (hv : v = b2n a + 2 * b2n b + 4 * b2n z) (hu : u = encReceive d n v s)
include hv hu

theorem encEdgeAccept_short (h : u.fabSamples d ago ≤ u.rd d ENC_CFG.FILT n) : encEdgeAccept d n a b z ago s = u := by
  subst hv hu
  exact if_pos h

/-- Past the filter the edge is decoded, and a step of Z to its active level is an index. -/
theorem encEdgeAccept_accepted (h : u.rd d ENC_CFG.FILT n < u.fabSamples d ago) (hold : old = u.rd d ENC_STAT.ABZ n)
    (hst : st = u.ptD d - ago) (hx : x = encDecode d n old a b st (u.wr d ENC_STAT.ABZ v n)) : encEdgeAccept d n a b z ago s =
      if z ≠ bitOf old 2 ∧ z ≠ x.bit d ENC_CFG.ZINV n then indexAct d n st x else x := by
  subst hv hu hold hst hx
  simp only [encEdgeAccept, if_neg (Nat.not_le.mpr h), Bool.and_eq_true, bne_iff_ne]

end

theorem encDecode_eq {a b : Bool} {st k : Nat}
    (hk : k = (quadState a b (s.bit d ENC_CFG.INV n) + 4 - quadState (bitOf old 0) (bitOf old 1) (s.bit d ENC_CFG.INV n)) % 4) :
    (k = 0 → encDecode d n old a b st s = s) ∧ (k = 1 → encDecode d n old a b st s = encCount d n true st s) ∧
      (k = 3 → encDecode d n old a b st s = encCount d n false st s) ∧
      (k = 2 → encDecode d n old a b st s = ((s.addSat d ENC_STAT.ILLCNT 1 n).wrBit d ENC_FAULT.ILL n true).raiseAx d n 12 3) := by
  refine ⟨?_, ?_, ?_, ?_⟩ <;> intro h <;> simp only [encDecode, ← hk, h]

/-! Counts -/

/-- The counts of a sample are the registers', where no index and no write of ENC_RAW fell in it. -/
theorem encBefore_none (h : (s.getEnc d n).smp = none) : encBefore s d n = encRegs s d n := by
  simp only [encBefore, h]

theorem encBefore_sample {c : EncSample} (h : (s.getEnc d n).smp = some c) (hk : c.k = s.fabSample d) : encBefore s d n = c := by
  simp only [encBefore, h, if_pos hk]

/-! A snapshot that waits has no part in the registers and in the counts of the present sample. -/

@[simp] theorem rd_encSnap (f : EncSnap → EncSnap) (e : Nat) (g : Fld) (p q : Nat) : (encSnap d n f s).rd e g p q = s.rd e g p q :=
  State.rd_modEnc s d n _ e g p q

@[simp] theorem smp_encSnap (f : EncSnap → EncSnap) : ((encSnap d n f s).getEnc d n).smp = (s.getEnc d n).smp := by
  rw [encSnap, State.getEnc_modEnc]

@[simp] theorem fabSample_encSnap (f : EncSnap → EncSnap) : (encSnap d n f s).fabSample d = s.fabSample d := rfl

@[simp] theorem encBefore_encSnap (f : EncSnap → EncSnap) : encBefore (encSnap d n f s) d n = encBefore s d n := by
  simp only [encBefore, encRegs, State.rdI, State.bit, rd_encSnap, smp_encSnap, fabSample_encSnap]

/-- A count changes the counts of a sample alone, not what an index or a write did to it. -/
@[simp] theorem EncSample.count_written (c : EncSample) (fwd : Bool) : (c.count fwd).written = c.written := by
  simp only [EncSample.count]
  split <;> split <;> rfl

@[simp] theorem EncSample.count_reset (c : EncSample) (fwd : Bool) : (c.count fwd).reset = c.reset := by
  simp only [EncSample.count]
  split <;> split <;> rfl

theorem encTally_plain {fwd : Bool} (h : (s.getEnc d n).smp = none) : encTally d n fwd s =
    encPut d n ((encRegs s d n).count fwd) (encSnap d n (fun x => { x with c := x.c.count fwd }) s) := by
  have hwritten : (encRegs s d n).written = false := rfl
  have hreset : (encRegs s d n).reset = none := rfl
  simp only [encTally, encBefore_encSnap, encBefore_none h, EncSample.count_written, EncSample.count_reset, hwritten, hreset,
    Bool.false_eq_true, if_false]

/-- A count of a sample in which ENC_RAW was written is absorbed (R160). -/
theorem encTally_written {fwd : Bool} {c : EncSample} (h : (s.getEnc d n).smp = some c) (hk : c.k = s.fabSample d)
    (hw : c.written = true) : encTally d n fwd s =
      (encSnap d n (fun x => { x with c := x.c.count fwd }) s).modEnc d n fun x => { x with smp := some (c.count fwd) } := by
  simp only [encTally, encBefore_encSnap, encBefore_sample h hk, EncSample.count_written, hw, if_true]

section
variable {c : EncSample} {v : Int} (hv : v = if c.back = true then -1 else 1)
include hv

/-- A step in the direction of DIR: a held step absorbs the reported count of it (R159). -/
theorem EncSample.count_onward : c.count (!c.back) =
    if c.held = true then { c with raw := c.raw + v, held := false } else { c with raw := c.raw + v, rep := c.rep + v } := by
  subst hv
  cases hb : c.back <;> simp [EncSample.count, hb]

/-- A step against it: the first one is held, the next one turns DIR round (R159). -/
theorem EncSample.count_back : c.count c.back =
    if c.held = true then { c with raw := c.raw - v, rep := c.rep - v, back := !c.back, held := false }
    else { c with raw := c.raw - v, held := true } := by
  subst hv
  cases hb : c.back <;> simp [EncSample.count, hb, ← Int.sub_eq_add_neg]

end

/-! Index -/

theorem encIndex_stands (h : bitOf (s.rd d ENC_STAT.ABZ n) 2 = !s.bit d ENC_CFG.ZINV n) : encIndex d n ago s = s := if_pos h

section
variable {z : Bool} (hz : z = !s.bit d ENC_CFG.ZINV n) (hold : old = s.rd d ENC_STAT.ABZ n)
  (hu : u = encReceive d n (putBit (s.getEnc d n).rx 2 z) s) (h : bitOf old 2 ≠ z)
include hz hold hu h

theorem encIndex_short (hf : u.fabSamples d ago ≤ u.rd d ENC_CFG.FILT n) : encIndex d n ago s = u := by
  subst hz hold hu
  exact (if_neg h).trans (if_pos hf)

theorem encIndex_accepted (hf : u.rd d ENC_CFG.FILT n < u.fabSamples d ago) : encIndex d n ago s =
    indexAct d n (u.ptD d - ago) (u.wr d ENC_STAT.ABZ (putBit old 2 z) n) := by
  subst hz hold hu
  exact (if_neg h).trans (if_neg (Nat.not_le.mpr hf))

end

theorem indexAct_off {st : Nat} (h : s.rd d ENC_IDX.MODE n = 0) : indexAct d n st s =
    indexSector d n st (encSnap d n (fun x => x.index 0 (indexRef s d n)) (s.wr d ENC_IDX.FIRST 0 n)) := by
  simp only [indexAct, h, if_true]

theorem indexAct_checked {st : Nat} (h : s.rd d ENC_IDX.MODE n ≠ 0)
    (hx : x = indexCheck d n (indexDiff (encBefore s d n).raw (indexRef s d n) (s.rd d ENC_CPR.CPR n)) s) : indexAct d n st s =
      indexSector d n st (encSnap d n (fun x => x.index (s.rd d ENC_IDX.MODE n) (indexRef s d n))
        ((if s.rd d ENC_IDX.MODE n = 1 ∨ s.rd d ENC_IDX.MODE n = 2 ∧ x.bit d ENC_IDX.ARMED n = true then indexReset d n (indexRef s d n) x
          else x).wr d ENC_IDX.FIRST 0 n)) := by
  simp only [indexAct, if_neg h, ← hx]

/-! Speed -/

section
variable (hu : u = s.toNext (State.stepNo 4 d n) (s.encWin d n * 2500))
  (hx : x = u.modEnc d n fun r => { r with sum := 0, counts := u.bit d ENC_STAT.SMODE n })
include hu hx

theorem encSpeedWindowEnd_period (h : u.bit d ENC_STAT.SMODE n = false) : encSpeedWindowEnd d n s = x := by
  subst hu hx
  simp only [encSpeedWindowEnd, h, Bool.false_eq_true, if_false]

theorem encSpeedWindowEnd_count {v : Rat} (h : u.bit d ENC_STAT.SMODE n = true)
    (hv : v = if x.bit d ENC_STAT.STOPPED n = true then 0 else ((u.getEnc d n).sum : Rat) * 1000000 / (s.encWin d n : Nat)) :
    encSpeedWindowEnd d n s = speedMode d n (absQ v) (setSpeed d n v x) := by
  subst hu hx hv
  simp only [encSpeedWindowEnd, h, if_true]

end

theorem encStopTimeout_some {t : Nat} (h : (s.getEnc d n).stamp = some t) : encStopTimeout d n s =
    ((s.passTo (t + s.encStop d n * 2500)).wr d ENC_SPD.SPD 0 n).wr d ENC_STAT.STOPPED 1 n := by
  simp only [encStopTimeout, h]

theorem encStopTimeout_none (h : (s.getEnc d n).stamp = none) : encStopTimeout d n s =
    (s.wr d ENC_SPD.SPD 0 n).wr d ENC_STAT.STOPPED 1 n := by
  simp only [encStopTimeout, h]

/-! Probe -/

theorem probeLatch_full {rise : Bool} {st : Nat} (h : s.bit d PRB_STAT.FULL n = true) :
    probeLatch d n rise st s = (s.addSat d PRB_STAT.OVR 1 n).raiseAx d n 16 3 := if_pos h

theorem probeLatch_free {rise : Bool} {st : Nat} {c : EncSample} {r : AngleAt} {w : State} (h : s.bit d PRB_STAT.FULL n = false)
    (hc : c = encBefore s d n) (hx : x = ((s.wrI d PRB_RAW.COUNT c.raw n).wrI d PRB_REP.COUNT c.rep n).wr d PRB_PT.PT st n)
    (hr : angleAt d n st 0 x = (r, w)) : probeLatch d n rise st s =
      ((((w.wr d PRB_ANG.FRAC (ang48 r.ang).1 n).wr d PRB_ANG.TURNS (ang48 r.ang).2 n).wr d PRB_STAT.FULL 1 n).wr d PRB_STAT.RISE
        (b2n rise) n).wr d PRB_STAT.ANGV (b2n (bitOf r.stat 0)) n := by
  subst hc hx
  simp only [probeLatch, h, Bool.false_eq_true, if_false, hr]

theorem probeEdge_ignored {rise : Bool} (h : (s.getEnc d n).prb = rise ∨ s.fabSamples d ago ≤ s.rd d PRB_CTRL.FILT n) :
    probeEdge d n rise ago s = s := if_pos h

/-- An accepted edge sets the level, and is latched where EDGE selects it. -/
theorem probeEdge_accepted {rise : Bool} (hprb : (s.getEnc d n).prb ≠ rise) (hf : s.rd d PRB_CTRL.FILT n < s.fabSamples d ago)
    (hu : u = s.modEnc d n fun x => { x with prb := rise }) : probeEdge d n rise ago s =
      if bitOf (u.rd d PRB_CTRL.EDGE n) (if rise = true then 0 else 1) = true then probeLatch d n rise (u.ptD d - ago) u else u := by
  subst hu
  exact if_neg (not_or.mpr ⟨hprb, Nat.not_le.mpr hf⟩)

/-! Writes of the registers -/

/-- A write of a register of the encoder's set on a die that holds the set is its effect (R26). -/
theorem axisWrite_encSet {v : Word} {f : Nat → State → State} {g : Fld} (hf : s.forwards d = false) (hh : s.holds d n = true)
    (hax : g.ax = 0x1000) (ho : g.off % 0x10000 + 4 * (g.lo / 32) < 0x1000) (hn : n < 8) :
    axisWrite d (g.addr 0 n 0) v f s = f d s :=
  axisWrite_applied hf hh (by simpa only [Nat.add_zero] using Fld.addr_axis g (k := 0) hax ho hn)

end

/-- Settles O11: each command is one branch of its operation, and a count or an index acts on the counts of its sample. -/
theorem encoderCountsItsEdges : Obligations.EncoderCountsItsEdges := by
  intro s d n ago hl hn
  refine ⟨fun a b z v u hv hu => ⟨fun h => onAxis_eq hl hn (encEdgeAccept_short hv hu h), ?edge⟩, fun old a b st k => encDecode_eq,
    fun f => rfl, fun fwd => encTally_plain, ?count, fun z old u hz hold hu => ⟨?stands,
      fun h hf => onAxis_eq hl hn (encIndex_short hz hold hu h hf), fun h hf => onAxis_eq hl hn (encIndex_accepted hz hold hu h hf)⟩,
    fun x mode ref => rfl, fun st => ⟨indexAct_off, fun x => indexAct_checked⟩, fun u x hu hx =>
      ⟨fun h => onAxis_eq hl hn (encSpeedWindowEnd_period hu hx h), fun v h hv => onAxis_eq hl hn (encSpeedWindowEnd_count hu hx h hv)⟩,
    fun t h => onAxis_eq hl hn (encStopTimeout_some h), fun h => onAxis_eq hl hn (encStopTimeout_none h),
    fun rise h => onAxis_eq hl hn (probeEdge_ignored h), ?probe⟩
  case edge =>
    intro h old st x hold hst hx
    have accepted := encEdgeAccept_accepted hv hu h hold hst hx
    exact ⟨fun hstep hact => onAxis_eq hl hn (accepted.trans (if_pos ⟨hstep, hact⟩)),
      fun hnot => onAxis_eq hl hn (accepted.trans (if_neg fun h => hnot.elim h.1 h.2))⟩
  case count =>
    intro c v hv
    rw [EncSample.count_onward hv, EncSample.count_back hv]
    exact ⟨fun h => if_neg (by simp [h]), fun h => if_pos h, fun h => if_neg (by simp [h]), fun h => if_pos h⟩
  case stands =>
    subst hz hold
    exact fun h => onAxis_eq hl hn (encIndex_stands h)
  case probe =>
    intro rise u hprb hf hu
    have accepted := probeEdge_accepted hprb hf hu
    have latched (hsel : bitOf (u.rd d PRB_CTRL.EDGE n) (if rise = true then 0 else 1) = true) {t : State}
        (h : probeLatch d n rise (u.ptD d - ago) u = t) : exec (.probeEdge d n rise ago) s = .next (s.commit t) :=
      onAxis_eq hl hn ((accepted.trans (if_pos hsel)).trans h)
    exact ⟨fun hsel => onAxis_eq hl hn (accepted.trans (if_neg (by simp [hsel]))), fun hsel hfull => latched hsel (probeLatch_full hfull),
      fun c x r w hsel hfree hc hx hr => latched hsel (probeLatch_free hfree hc hx hr)⟩

/-- Settles O12: on a die that holds the set each write is its effect, and a count of a sample written to is absorbed. -/
theorem encoderRegistersAreWritten : Obligations.EncoderRegistersAreWritten := by
  intro s d n v hl hn hf hh
  refine ⟨?raw, fun fwd c => encTally_written, ?idx, onAxis_eq hl hn (axisWrite_encSet hf hh rfl (by decide) hn),
    onAxis_eq hl hn (axisWrite_encSet hf hh rfl (by decide) hn)⟩
  case raw =>
    rintro c q rfl rfl
    exact onAxis_eq hl hn (axisWrite_encSet hf hh rfl (by decide) hn)
  case idx =>
    rintro x y z rfl rfl rfl
    exact onAxis_eq hl hn (axisWrite_encSet hf hh rfl (by decide) hn)

end Sys2Proof.Machine
end

section
/-!
The filter slots' restarts, the synchronising reset and the converters' input select (R171, R182, R185 to R187).
-/

namespace Sys2Proof.Machine

section
variable {s u : State} {d c : Nat} {v : Word}

/-! Where the registers lie -/

/-- A write of a register that lies behind the register sets of its block is its effect, on either mate (R25, R27). -/
theorem axisWrite_behindSets {f : Nat → State → State} {g : Fld} {n : Nat} (hf : s.forwards d = false) (hset : 0x8000 ≤ g.off % 0x10000)
    (hblock : g.off % 0x10000 + n * g.ax + 4 * (g.lo / 32) < 0x10000) : axisWrite d (g.addr 0 n 0) v f s = f d s := by
  refine axisWrite_here hf ?_
  have haddr : 0x8000 ≤ g.addr 0 n 0 % 0x10000 := by
    rw [Fld.addr]
    omega
  rw [State.notHeld, decide_eq_false (Nat.not_lt.mpr haddr), Bool.and_false, Bool.false_and]

/-- The trim register of a phase converter lies in its axis's set, that of a line converter behind the sets. -/
theorem axisWrite_muxField {f : Nat → State → State} (hf : s.forwards d = false) (hmux : hasMux c = true)
    (hh : c < 48 → s.holds d (c / 6) = true) :
    axisWrite d ((muxField c).1.addr 0 (muxField c).2.1 (muxField c).2.2) v f s = f d s := by
  unfold muxField
  unfold hasMux at hmux
  split at hmux
  next hc =>
    rw [if_pos hc]
    refine axisWrite_applied hf (hh hc) ?_
    simp only [Fld.addr, ACQ_PTRIM.MUX]
    omega
  next hc =>
    rw [if_neg hc]
    have hlt : c < 54 := of_decide_eq_true hmux
    exact axisWrite_behindSets (g := ACQ_LTRIM.MUX) hf (by decide) (by simp only [ACQ_LTRIM.MUX]; omega)

/-! Restarts -/

/-- What the detectors leave alone: package time and the records of the filter slots. -/
def filView (s : State) : Nat × Store FilSlot := (s.pt, s.fil)

theorem pt_of_filView (h : filView s = filView u) : s.pt = u.pt := congrArg Prod.fst h

theorem getFil_of_filView (h : filView s = filView u) (d c : Nat) : s.getFil d c = u.getFil d c :=
  congrArg (fun x : Nat × Store FilSlot => x.2.get (d * 64 + c) {}) h

/-- What each turn of a loop leaves as it was, the loop leaves as it was. -/
theorem State.forEach_keeps {α : Type} (g : State → α) {f : Nat → State → State} (h : ∀ k t, g (f k t) = g t) (l : List Nat) (s : State) :
    g (s.forEach l f) = g s := by
  unfold State.forEach
  induction l generalizing s with
  | nil => rfl
  | cons k l ih => exact (ih (f k s)).trans (h k s)

theorem State.near_cases (s : State) (x : Rat) : (s.near x).2 = s ∨ (s.near x).2 = s.drew := by
  unfold State.near
  split
  · exact .inl rfl
  · exact .inr rfl

theorem State.raise_cases (s : State) (d src kind addr : Nat) : s.raise d src kind addr = s ∨ ∃ m, s.raise d src kind addr = s.send d m := by
  unfold State.raise State.raiseMsg
  split
  · exact .inl rfl
  · exact .inr ⟨_, rfl⟩

@[simp] theorem filView_wr (s : State) (d : Nat) (g : Fld) (v n i : Nat) : filView (s.wr d g v n i) = filView s := by
  rw [State.wr_eq]
  rfl

@[simp] theorem filView_modDet (s : State) (d i : Nat) (f : DetRec → DetRec) : filView (s.modDet d i f) = filView s :=
  Prod.ext rfl rfl

@[simp] theorem filView_near (s : State) (x : Rat) : filView (s.near x).2 = filView s := by
  rcases s.near_cases x with h | h <;> rw [h]
  rfl

@[simp] theorem filView_raise (s : State) (d src kind addr : Nat) : filView (s.raise d src kind addr) = filView s := by
  rcases s.raise_cases d src kind addr with h | ⟨m, h⟩ <;> rw [h]
  rfl

@[simp] theorem filView_detLimit (d i : Nat) (res : Int) (s : State) : filView (detLimit d i res s) = filView s := by
  unfold detLimit
  split
  · dsimp only
    split <;> simp
  · rfl

@[simp] theorem filView_detFlags (d i fl : Nat) (s : State) : filView (detFlags d i fl s) = filView s := by simp [detFlags]

@[simp] theorem filView_detClose (d i : Nat) (s : State) : filView (detClose d i s) = filView s := by
  unfold detClose State.addSat State.wrI
  dsimp only
  split <;> split <;> simp

@[simp] theorem filView_envFactor (dt tau : Nat) (s : State) : filView (envFactor dt tau s).2 = filView s := by
  unfold envFactor
  dsimp only
  split <;> simp

@[simp] theorem filView_detEnvelope (d i : Nat) (x : Int) (fl : Nat) (s : State) : filView (detEnvelope d i x fl s) = filView s := by
  unfold detEnvelope State.wrI
  dsimp only
  split <;> simp

@[simp] theorem filView_detSample (d i : Nat) (x : Int) (fl st : Nat) (s : State) : filView (detSample d i x fl st s) = filView s := by
  unfold detSample
  dsimp only
  split
  · rfl
  split
  · simp
  · split <;> simp

/-- The delivery of an output reaches the registers and the detectors, not the slot. -/
@[simp] theorem filView_filDeliver (d c : Nat) (uns : Bool) (s : State) : filView (filDeliver d c uns s) = filView s := by
  unfold filDeliver State.wrI
  dsimp only
  rw [State.forEach_keeps filView fun k t => by split <;> simp]
  split <;> simp

theorem getFil_filRestart (d c : Nat) (new : FilSet) (s : State) : (filRestart d c new s).getFil d c =
    { s.getFil d c with cur := new, h1 := [], h2 := [], h3 := [], k := 0, clip := none, sup := none, nv := none, fresh := false,
                        restAt := some s.pt } := by
  have hdeliver := filView_filDeliver d c true s
  unfold filRestart
  dsimp only
  rw [getFil_of_filView (State.forEach_keeps filView (fun k t => by split <;> simp [detDiscard]) _ _), State.getFil_modFil, State.getFil_wr, State.pt_wr,
    getFil_of_filView hdeliver, pt_of_filView hdeliver]

theorem filSlotRestart_idle (h : (s.getFil d c).dues = []) : filSlotRestart d c s = s := by
  simp only [filSlotRestart, h]

theorem filSlotRestart_due {t : Nat} {ts : List Nat} (h : (s.getFil d c).dues = t :: ts)
    (hu : u = (s.passTo (ts.foldl min t)).toGrid 250) : filSlotRestart d c s = filTake d c (u.syncsAt d c u.pt) u := by
  simp only [filSlotRestart, h, ← hu]

/-! The synchronising reset -/

theorem filSyncGo_inTime {t : Nat} (h : ¬ strobeAt (s.rd d FIL_SYNCPT.PT) < t + 2500) :
    filSyncGo t d s = (s.wr d FIL_SYNCCTL.PEND 1).modSync d fun _ => some (strobeAt (s.rd d FIL_SYNCPT.PT)) := if_neg h

theorem filSyncGo_late {t : Nat} (h : strobeAt (s.rd d FIL_SYNCPT.PT) < t + 2500) : filSyncGo t d s =
    (((s.wr d FIL_SYNCCTL.PEND 1).wr d FIL_SYNCCTL.LATE 1).raise d 416 3 0).modSync d fun _ => some (strobeAt (t + 2500)) := if_pos h

theorem filSyncReset_idle (h : s.getSync d = none) : filSyncReset d s = s := by
  simp only [filSyncReset, h]

theorem filSyncReset_armed {e : Nat} (h : s.getSync d = some e)
    (hu : u = (((s.passTo e).toGrid 250).modSync d fun _ => none).wr d FIL_SYNCCTL.PEND 0) :
    filSyncReset d s = u.forEach (List.range 64) fun k w =>
      if (w.bitAt d FIL_SYNCMASK.MASK k && (w.getFil d k).restAt != some w.pt) = true then filTake d k true w else w := by
  simp only [filSyncReset, h, ← hu]

/-! The multiplexer -/

section
variable {t : Nat} {m : Fld × Nat × Nat} (hm : m = muxField c)
  (hu : u = (s.wr d { m.1 with lo := 0, w := 16 } (bitsOf v.toNat 0 16) m.2.1 m.2.2).wr d { m.1 with lo := 16, w := 12 }
    (bitsOf v.toNat 16 12) m.2.1 m.2.2)
include hm hu

theorem acqMuxWrite_same (h : muxTaken (bitsOf v.toNat 28 2) = muxTaken (u.rd d m.1 m.2.1 m.2.2)) :
    acqMuxWrite c v t d s = u.wr d m.1 (bitsOf v.toNat 28 2) m.2.1 m.2.2 := by
  subst hm hu
  exact if_pos h

theorem acqMuxWrite_other (h : muxTaken (bitsOf v.toNat 28 2) ≠ muxTaken (u.rd d m.1 m.2.1 m.2.2)) :
    acqMuxWrite c v t d s = if muxAllowed u d c = true then (u.wr d m.1 (bitsOf v.toNat 28 2) m.2.1 m.2.2).modFil d c fun f =>
      { f with muxes := f.muxes ++ [(t + 2500, bitsOf v.toNat 28 2)] } else u.raise d 401 3 c := by
  subst hm hu
  exact if_neg h

end

theorem exec_acqMuxWrite_applied {t : State} (hl : s.Live d) (hf : s.forwards d = false) (hmux : hasMux c = true)
    (hh : c < 48 → s.holds d (c / 6) = true) (h : acqMuxWrite c v s.pt d s = t) :
    exec (.acqMuxWrite d c v) s = .next (s.commit t) :=
  onItem_live_eq hl (by simp [hl.1, hmux]) ((axisWrite_muxField hf hmux hh).trans h)

end

/-- Settles O13: each command is one branch of its operation, and the delivery of the last output leaves the slot for its restart. -/
theorem filterSlotsApplyRestartAndSynchronise : Obligations.FilterSlotsApplyRestartAndSynchronise := by
  intro s d c v hl hc
  refine ⟨fun hf => onPart_eq hl hc (axisWrite_behindSets hf (by decide) (by simp only [FIL_CFG.L3]; omega)),
    fun h => onPart_eq hl hc (filSlotRestart_idle h), fun t ts u h hu => onPart_eq hl hc (filSlotRestart_due h hu), ?take, ?restart,
    fun hf h => onLive_eq hl ((axisWrite_behindSets hf (by decide) (by decide)).trans (filSyncGo_inTime h)),
    fun hf h => onLive_eq hl ((axisWrite_behindSets hf (by decide) (by decide)).trans (filSyncGo_late h)),
    fun h => onLive_eq hl (filSyncReset_idle h), fun e u h hu => onLive_eq hl (filSyncReset_armed h hu), ?mux, rfl⟩
  case take =>
    rintro sync dirty new due x y z rfl rfl rfl rfl rfl rfl
    rfl
  case restart =>
    rintro new x rfl
    rw [getFil_filRestart]
    exact ⟨rfl, rfl, rfl, rfl, rfl, rfl⟩
  case mux =>
    intro m u hf hmux hh hm hu
    have written {t : State} (h : acqMuxWrite c v s.pt d s = t) := exec_acqMuxWrite_applied hl hf hmux hh h
    exact ⟨fun h => written (acqMuxWrite_same hm hu h),
      fun h hno => written ((acqMuxWrite_other hm hu h).trans (if_neg (by simp [hno]))),
      fun h hyes => written ((acqMuxWrite_other hm hu h).trans (if_pos hyes))⟩

end Sys2Proof.Machine
end

section
/-!
The window comparators of an axis (R173 to R177, R263): rise and fall of an output, and the writes of ACQ_CMPU and ACQ_CMPL.
-/

namespace Sys2Proof.Machine

section
variable {s u y z w : State} {d n j : Nat} {up : Bool} {x th h : Int}

/-! Thresholds -/

theorem cmpRises_iff (hth : th = ((s.rd d (cmpThr up) n j : Int) - 2048) * 1000) :
    cmpRises s d n j up x = true ↔ if up = true then th < x else x < th := by
  subst hth
  cases up <;> exact decide_eq_true_iff

theorem cmpFalls_iff (hth : th = ((s.rd d (cmpThr up) n j : Int) - 2048) * 1000) (hh : h = cmpVh s d n j up) :
    cmpFalls s d n j up x = true ↔ if up = true then x < th - h else th + h < x := by
  subst hth hh
  cases up <;> exact decide_eq_true_iff

/-- HYS codes 0, 4, 8 and 16 mV, in 2^-10 mV (R173). -/
theorem cmpVh_eq {k v : Nat} (hk : s.rd d { cmpThr up with lo := 12, w := 2 } n j = k)
    (hv : k = 0 ∧ v = 0 ∨ k = 1 ∧ v = 4096 ∨ k = 2 ∧ v = 8192 ∨ k = 3 ∧ v = 16384) : cmpVh s d n j up = v := by
  rw [cmpVh, hk]
  obtain ⟨rfl, rfl⟩ | ⟨rfl, rfl⟩ | ⟨rfl, rfl⟩ | ⟨rfl, rfl⟩ := hv <;> rfl

/-! The output rises -/

section
variable (hth : th = ((s.rd d (cmpThr up) n j : Int) - 2048) * 1000)
include hth

theorem comparatorAssert_stays (hx : bitOf (s.rd d (cmpOut up) n) j = true ∨ ¬ (if up = true then th < x else x < th)) :
    comparatorAssert d n j up x s = s := by
  rw [← cmpRises_iff hth] at hx
  exact if_pos (by simpa using hx)

theorem comparatorAssert_rises (hlow : bitOf (s.rd d (cmpOut up) n) j = false) (hx : if up = true then th < x else x < th) :
    comparatorAssert d n j up x s = comparatorRise d n j up s := by
  rw [← cmpRises_iff hth] at hx
  exact if_neg (by simp [hlow, hx])

end

theorem comparatorRise_none (hf : s.rd d (cmpFunc up) n j = 0) : comparatorRise d n j up s = s := by
  simp only [comparatorRise, hf]

theorem comparatorRise_cross {f : Fld} (hf : s.rd d (cmpFunc up) n j = 1)
    (hu : u = s.wr d (cmpOut up) (putBit (s.rd d (cmpOut up) n) j true) n)
    (hcross : f = if up = true then ACQ_PSTAT.CROSSU else ACQ_PSTAT.CROSSL) :
    comparatorRise d n j up s = (u.wr d f (putBit (s.rd d f n) j true) n).raiseAx d n 19 3 := by
  subst hu hcross
  simp only [comparatorRise, hf]

theorem comparatorRise_fast (hf : s.rd d (cmpFunc up) n j = 2) (hw : w = s.settleAxis d n) :
    comparatorRise d n j up s = fastAct d n j (w.wr d (cmpOut up) (putBit (w.rd d (cmpOut up) n) j true) n) := by
  subst hw
  simp only [comparatorRise, hf]

theorem comparatorRise_trip (hf : s.rd d (cmpFunc up) n j = 3)
    (hu : u = s.wr d (cmpOut up) (putBit (s.rd d (cmpOut up) n) j true) n)
    (hy : y = (setTrip d n j up true u).wrBit d (if up = true then ACQ_TRIPU.TRIP else ACQ_TRIPL.TRIP) (4 * n + j) true)
    (hz : z = if y.owns d n = true then (y.modPwm d n fun r => { r with trip := true }).refreshAxis d n else y) :
    comparatorRise d n j up s = if anyTrip s d n = true then z else z.raiseAx d n 17 1 := by
  subst hu hy hz
  simp only [comparatorRise, hf]

theorem exec_comparatorAssert_eq (hl : s.Live d) (hn : n < 8) (hj : j < 4) (hu : comparatorAssert d n j up x s = u) :
    exec (.comparatorAssert d n j ⟨up, x⟩) s = .next (s.commit u) := onItem_live_eq hl (by simp [hl.1, hn, hj]) hu

/-! The output falls -/

section
variable (hth : th = ((s.rd d (cmpThr up) n j : Int) - 2048) * 1000) (hh : h = cmpVh s d n j up)
include hth hh

theorem comparatorDeassert_stays (hx : bitOf (s.rd d (cmpOut up) n) j = false ∨ ¬ (if up = true then x < th - h else th + h < x)) :
    comparatorDeassert d n j up x s = s := by
  rw [← cmpFalls_iff hth hh] at hx
  exact if_pos (by simpa using hx)

/-- The output falls, and the last trip of the axis to fall ends the condition of acq-trip (R288). -/
theorem comparatorDeassert_falls (hhigh : bitOf (s.rd d (cmpOut up) n) j = true) (hx : if up = true then x < th - h else th + h < x)
    (hw : w = s.settleAxis d n) (hy : y = setTrip d n j up false (w.wr d (cmpOut up) (putBit (w.rd d (cmpOut up) n) j false) n))
    (hz : z = if y.rd d (cmpFunc up) n j = 2 then fastAct d n j y else y) : comparatorDeassert d n j up x s =
      if anyTrip s d n = true ∧ anyTrip z d n = false then z.raiseAx d n 17 2 else z := by
  rw [← cmpFalls_iff hth hh] at hx
  subst hw hy hz
  simp only [comparatorDeassert, hhigh, hx, Bool.not_true, Bool.or_false, Bool.false_eq_true, if_false, Bool.and_eq_true,
    Bool.not_eq_true']

end

theorem exec_comparatorDeassert_eq (hl : s.Live d) (hn : n < 8) (hj : j < 4) (hu : comparatorDeassert d n j up x s = u) :
    exec (.comparatorDeassert d n j ⟨up, x⟩) s = .next (s.commit u) := onItem_live_eq hl (by simp [hl.1, hn, hj]) hu

/-! A write of the register -/

theorem acqCmpWrite_eq {v : Word} {old new : Nat} {bad : Bool} (hold : old = s.rd d (cmpFunc up) n j) (hnew : new = bitsOf v.toNat 16 2)
    (hbad : bad = (old != new && (decide (2 ≤ old) || decide (2 ≤ new)) && !s.bit d PWM_CTRL.SAFE n))
    (hu : u = (if old = 2 then s else s.wr d (cmpThr up) (bitsOf v.toNat 0 12) n j).wr d { cmpThr up with lo := 12, w := 2 }
      (bitsOf v.toNat 12 2) n j)
    (hy : y = setTrip d n j up false (u.wr d (cmpFunc up) new n j))
    (hz : z = if bad = true ∨ old = new then u
      else judgeFast d n false (if new = 0 then y.wr d (cmpOut up) (putBit (y.rd d (cmpOut up) n) j false) n else y))
    (hw : w = if anyTrip s d n = true ∧ anyTrip z d n = false then z.raiseAx d n 17 2 else z) :
    acqCmpWrite n j up v d s = if (old = 2 ∧ s.rd d (cmpThr up) n j ≠ bitsOf v.toNat 0 12) ∨ bad = true then
      w.raise d 401 3 (n * 4 + j) else w := by
  subst hold hnew hbad hu hy hz hw
  simp only [acqCmpWrite, Bool.or_eq_true, Bool.and_eq_true, beq_iff_eq, bne_iff_ne, Bool.not_eq_true']

/-- ACQ_CMPU and ACQ_CMPL of every axis lie in its set (R25). -/
theorem axisWrite_cmpThr {v : Word} {f : Nat → State → State} (hf : s.forwards d = false) (hh : s.holds d n = true) (hn : n < 8)
    (hj : j < 4) : axisWrite d ((cmpThr up).addr 0 n j) v f s = f d s := by
  refine axisWrite_applied hf hh ?_
  cases up
  · simp only [cmpThr, Fld.addr, ACQ_CMPL.THR, Bool.false_eq_true, if_false]
    omega
  · simp only [cmpThr, Fld.addr, ACQ_CMPU.THR, if_true]
    omega

theorem exec_acqCmpWrite_applied {v : Word} (hl : s.Live d) (hn : n < 8) (hj : j < 4) (hf : s.forwards d = false)
    (hh : s.holds d n = true) (hu : acqCmpWrite n j up v d s = u) : exec (.acqCmpWrite d n j up v) s = .next (s.commit u) :=
  onItem_live_eq hl (by simp [hl.1, hn, hj]) ((axisWrite_cmpThr hf hh hn hj).trans hu)

end

/-- Settles O14: a crossing leads to one branch of the rise by FUNC, a return past the hysteresis to the fall. -/
theorem comparatorsCrossTripAndClear : Obligations.ComparatorsCrossTripAndClear := by
  intro s d n j up hl hn hj
  refine ⟨fun x th hth => ⟨fun h => exec_comparatorAssert_eq hl hn hj (comparatorAssert_stays hth h), ?rise⟩,
    fun x th h hth hh => ⟨fun hx => exec_comparatorDeassert_eq hl hn hj (comparatorDeassert_stays hth hh hx),
      fun hhigh hx w y z hw hy hz => exec_comparatorDeassert_eq hl hn hj (comparatorDeassert_falls hth hh hhigh hx hw hy hz)⟩,
    fun k h => cmpVh_eq, fun v old new bad x y z w hf hh hold hnew hbad hx hy hz hw =>
      exec_acqCmpWrite_applied hl hn hj hf hh (acqCmpWrite_eq hold hnew hbad hx hy hz hw)⟩
  case rise =>
    intro hlow hx u hu
    have risen {t : State} (h : comparatorRise d n j up s = t) : exec (.comparatorAssert d n j ⟨up, x⟩) s = .next (s.commit t) :=
      exec_comparatorAssert_eq hl hn hj ((comparatorAssert_rises hth hlow hx).trans h)
    exact ⟨fun hf => risen (comparatorRise_none hf), fun f hcross hf => risen (comparatorRise_cross hf hu hcross),
      fun w hf hw => risen (comparatorRise_fast hf hw), fun y z hf hy hz => risen (comparatorRise_trip hf hu hy hz)⟩

end Sys2Proof.Machine
end

section
/-!
The detectors (R189 to R192), and the line-phase tracker (R194 to R196) with its row of a snapshot (R355).
-/

namespace Sys2Proof.Machine

section
variable {s u x y z : State} {d i : Nat} {v : Word}

/-! The window of a detector -/

theorem detWindowEnd_closes (hk : s.rd d DET_CFG.KIND i = 1 ∨ s.rd d DET_CFG.KIND i = 2) (hdue : s.detDue d i = true)
    (hshed : s.bit d DET_STAT.SHED i = false) : detWindowEnd d i s = detClose d i s := if_pos ⟨hk, hdue, by simp [hshed]⟩

theorem detWindowEnd_idle (h : (s.rd d DET_CFG.KIND i ≠ 1 ∧ s.rd d DET_CFG.KIND i ≠ 2) ∨ s.detDue d i = false ∨
    s.bit d DET_STAT.SHED i = true) : detWindowEnd d i s = s := by
  refine if_neg ?_
  rintro ⟨hk, hdue, hshed⟩
  obtain ⟨h1, h2⟩ | hnot | hs := h
  · exact hk.elim h1 h2
  · simp [hnot] at hdue
  · simp [hs] at hshed

theorem detDue_samples (h : s.bit d DET_CFG.WMODE i = false) :
    s.detDue d i = true ↔ 0 < (s.getDet d i).n ∧ max 1 (s.rd d DET_N.N i) ≤ (s.getDet d i).n := by
  simp only [State.detDue, h, Bool.false_eq_true, if_false, Bool.and_eq_true, decide_eq_true_iff]

theorem detDue_line (h : s.bit d DET_CFG.WMODE i = true) : s.detDue d i = true ↔ 0 < (s.getDet d i).n ∧
    (16777215 ≤ (s.getDet d i).n ∨ s.bit d LPT_STAT.LOCK = true ∧ (s.getDet d i).turn < floorQ (s.lineAt d s.pt)) := by
  simp only [State.detDue, h, if_true, Bool.and_eq_true, Bool.or_eq_true, decide_eq_true_iff]

theorem detClose_eq {r : DetRec} {res : Int} (hr : r = s.getDet d i)
    (hres : res = if s.rd d DET_CFG.KIND i = 1 then max r.hi (-r.lo) else (rmsRound r.sq r.n : Nat))
    (hx : x = if s.rd d DET_CFG.KIND i = 1 then ((s.wrI d DET_A.VALUE r.hi i).wrI d DET_B.VALUE r.lo i).wr d DET_PKSTAMP.PT r.pk i
      else s.wrI d DET_A.VALUE res i)
    (hy : y = ((x.wr d DET_STAMP.PT r.last i).wr d DET_STAT.DONE 1 i).addSat d DET_STAT.WCNT 1 i)
    (hz : z = if 16777215 ≤ r.n then y.wr d DET_STAT.OVF 1 i else y) :
    detClose d i s = detLimit d i res ((detFlags d i r.fl z).modDet d i fun r => { above := r.above, env := r.env, turn := r.turn }) := by
  subst hr hres hx hy hz
  simp only [detClose, beq_iff_eq]

/-! The registers of a detector -/

theorem axisWrite_detReg {r : Nat} {f : Nat → State → State} (hf : s.forwards d = false) (hi : i < 16) :
    axisWrite d ((if r = 0 then DET_CFG.SRC else DET_N.N).addr 0 i 0) v f s = f d s := by
  split
  · exact axisWrite_behindSets (g := DET_CFG.SRC) hf (by decide) (by simp only [DET_CFG.SRC]; omega)
  · exact axisWrite_behindSets (g := DET_N.N) hf (by decide) (by simp only [DET_N.N]; omega)

theorem detCfgWrite_n {r : Nat} (hr : r ≠ 0) (hx : x = s.modDet d i fun r => { env := r.env, above := r.above, fresh := r.fresh }) :
    detCfgWrite i r v d s = x.wr d DET_N.N (bitsOf v.toNat 0 24) i := by
  subst hx
  exact if_neg hr

theorem detCfgWrite_cfg (hx : x = s.modDet d i fun r => { env := r.env, above := r.above, fresh := r.fresh })
    (hy : y = detStale d ((((x.wr d DET_CFG.SRC (bitsOf v.toNat 0 6) i).wr d DET_CFG.TAP (bitsOf v.toNat 6 1) i).wr d DET_CFG.KIND
      (bitsOf v.toNat 8 2) i).wr d DET_CFG.WMODE (bitsOf v.toNat 10 1) i)) :
    detCfgWrite i 0 v d s = if bitsOf v.toNat 8 2 = 3 then y.modDet d i fun r => { r with env := 0, fresh := false } else y := by
  subst hx hy
  simp only [detCfgWrite, detDiscard, if_true]

/-! The update of the line-phase tracker -/

theorem lptUpdate_idle (hu : u = s.toNext (State.stepNo 3 d 0) 25000) (h : u.bit d LPT_CTRL.EN = false ∨ (u.getLpt d).n = 0) :
    lptUpdate d s = u := by
  subst hu
  exact if_pos (by simpa using h)

/-- What an update leaves behind that its readings rest on: its tick, the record of the tracker, and the stamp. -/
def lptView (d : Nat) (s : State) : Nat × LptRec × Nat := (s.pt, s.getLpt d, s.rd d LPT_STAMP.PT)

/-- A word that is not LPT_STAMP's. -/
theorem lptView_wr {g : Fld} {a : Nat} (hw : g.nw = 1)
    (ho : g.off + 4 * (g.lo / 32) + 4 ≤ LPT_STAMP.PT.off ∨ LPT_STAMP.PT.off + 8 ≤ g.off + 4 * (g.lo / 32)) :
    lptView d (s.wr d g a) = lptView d s := by
  have hne : LPT_STAMP.PT.addr d 0 0 + 4 * LPT_STAMP.PT.nw ≤ g.addr d 0 0 ∨ g.addr d 0 0 + 4 * g.nw ≤ LPT_STAMP.PT.addr d 0 0 := by
    rw [hw, show LPT_STAMP.PT.nw = 2 from rfl, Fld.addr, Fld.addr, show LPT_STAMP.PT.lo = 0 from rfl]
    omega
  rw [lptView, State.pt_wr, State.getLpt_wr, State.rd_wr_other _ _ _ _ _ _ _ _ _ _ hne, lptView]

/-- The readings of an update bear its tick as their stamp (R196). -/
theorem lptView_readings (ph clamped low ampl : Nat) (fr : Int) :
    lptView d ((((((s.wr d LPT_PHASE.PHASE ph).wrI d LPT_FREQ.FREQ fr).wr d LPT_STAMP.PT s.pt).wr d LPT_STAT.FCLAMP clamped).wr d LPT_STAT.ALOW
      low).wr d LPT_STAT.AMPL ampl) = (s.pt, s.getLpt d, s.pt % 2 ^ 64) := by
  rw [lptView_wr rfl (by decide), lptView_wr rfl (by decide), lptView_wr rfl (by decide)]
  simp only [lptView, State.rd_wr_same, State.wrI, State.pt_wr, State.getLpt_wr]
  rfl

theorem lptView_modPair (f : PairRec → PairRec) : lptView d (s.modPair d f) = lptView d s := by
  rw [lptView, State.pt_modPair, State.rd_modPair]
  rfl

theorem lptView_modFil (c : Nat) (f : FilSlot → FilSlot) : lptView d (s.modFil d c f) = lptView d s := by
  rw [lptView, State.pt_modFil, State.rd_modFil]
  rfl

/-- The last item of a snapshot begins the comparison, which reaches the pair and the filters alone (R355, R358). -/
theorem lptView_itemApplied (i : Nat) : lptView d (itemApplied d i s) = lptView d s := by
  rw [itemApplied_eq rfl rfl]
  split
  · rw [lptView_modPair, lptView_wr rfl (by decide), State.forEach_keeps (lptView d) fun c t => lptView_modFil c _, lptView_modPair]
  · exact lptView_modPair _

@[simp] theorem State.pt_near (q : Rat) : (s.near q).2.pt = s.pt := by
  obtain h | h := s.near_cases q <;> rw [h]
  rfl

@[simp] theorem State.getLpt_near (q : Rat) : (s.near q).2.getLpt d = s.getLpt d := by
  obtain h | h := s.near_cases q <;> rw [h]
  rfl

theorem State.near_keeps {q : Rat} {k : Int} {t : State} (h : s.near q = (k, t)) : t.pt = s.pt ∧ t.getLpt d = s.getLpt d := by
  obtain rfl : (s.near q).2 = t := congrArg Prod.snd h
  exact ⟨s.pt_near q, s.getLpt_near q⟩

/-- θ and f of the snapshot, where they are due at an update at the present tick (R355). -/
def lptDue (d : Nat) (s : State) : Option (Nat × Int × Rat) :=
  (s.getLpt d).snap.filter fun x => decide (x.1 + 400000 ≤ s.pt) && s.rd d PAIR_STAT.RESYNC == 2

theorem lptDue_none (h : (s.getLpt d).snap = none) : lptDue d s = none := by
  rw [lptDue, h, Option.filter_none]

theorem lptDue_some {q : Nat × Int × Rat} (h : (s.getLpt d).snap = some q) (ht : q.1 + 400000 ≤ s.pt) (hr : s.rd d PAIR_STAT.RESYNC = 2) :
    lptDue d s = some q := by
  rw [lptDue, h, Option.filter_some_pos (by simp [ht, hr])]

/-- The sums are taken in and cleared, and a preset and a due snapshot are used up. -/
def LptRec.Taken (due : Bool) (r : LptRec) : Prop :=
  r.n = 0 ∧ r.s0 = 0 ∧ r.s1 = 0 ∧ r.s2 = 0 ∧ r.preset = false ∧ (due = true → r.snap = none)

/-- An update takes its tick as the stamp, and its frequency is the snapshot's where that is due, or else the preset one at the first update
of an acquisition (R194, R195, R355). -/
theorem lptUpdate_takes (hu : u = s.toNext (State.stepNo 3 d 0) 25000) (hen : u.bit d LPT_CTRL.EN = true) (hn : (u.getLpt d).n ≠ 0) :
    ∃ r, lptView d (lptUpdate d s) = (u.pt, r, u.pt % 2 ^ 64) ∧ r.Taken (lptDue d u).isSome ∧ (∀ x, lptDue d u = some x → r.f = x.2.2) ∧
      (lptDue d u = none → (u.getLpt d).preset = true → r.f = if u.bit d LPT_CTRL.NOM = true then 60 else 50) := by
  have hruns : ¬ ((!u.bit d LPT_CTRL.EN || (u.getLpt d).n == 0) = true) := by simp [hen, hn]
  unfold lptUpdate
  extract_lets S r m bw tenUs pre due
  have hS : S = u := hu.symm
  clear_value S
  subst hS
  rw [if_neg hruns]
  have hdue : lptDue d S = due := rfl
  clear_value due
  rw [hdue]
  split
  next al be hvec =>
  extract_lets a2 a vqAt
  split
  next th f v hmove =>
  -- the three sources of phase and frequency: snapshot, preset, loop
  obtain ⟨hpt, hf⟩ : v.pt = S.pt ∧ (∀ x, due = some x → f = x.2.2) ∧
      (due = none → (S.getLpt d).preset = true → f = if S.bit d LPT_CTRL.NOM = true then 60 else 50) := by
    cases due with
    | some x =>
      cases hmove
      exact ⟨S.pt_near _, fun y hy => by rw [Option.some.inj hy], nofun⟩
    | none =>
      dsimp only at hmove
      split at hmove
      next hp =>
        cases hmove
        exact ⟨rfl, nofun, fun _ _ => rfl⟩
      next hp =>
        refine ⟨?_, nofun, fun _ h => absurd h hp⟩
        split at hmove <;> cases hmove <;> simp
  clear hmove
  -- the record of the sums, then the readings, each state known from here on by what is read of it
  extract_lets vq clamped alo low ok w
  have hw : w.pt = S.pt ∧ (w.getLpt d).Taken due.isSome :=
    ⟨hpt, by rw [v.getLpt_modLpt]; exact ⟨rfl, rfl, rfl, rfl, rfl, fun h => if_pos h⟩⟩
  clear_value w
  split
  next ph w1 h1 =>
  split
  next fr w2 h2 =>
  split
  next am w3 h3 =>
  extract_lets k w4 w5 w6 w7
  obtain ⟨hpt1, hrec1⟩ := w.near_keeps (d := d) h1
  obtain ⟨hpt2, hrec2⟩ := w1.near_keeps (d := d) h2
  obtain ⟨hpt3, hrec3⟩ := w2.near_keeps (d := d) h3
  obtain ⟨hpt4, htaken, hf4⟩ : w4.pt = S.pt ∧ (w4.getLpt d).Taken due.isSome ∧ (w4.getLpt d).f = f := by
    rw [w3.getLpt_modLpt, hrec3, hrec2, hrec1]
    exact ⟨by rw [State.pt_modLpt, hpt3, hpt2, hpt1, hw.1], hw.2, rfl⟩
  clear_value w4
  have hview : lptView d w6 = (S.pt, w4.getLpt d, S.pt % 2 ^ 64) := by
    rw [← hpt4]
    exact lptView_readings _ _ _ _ _
  clear_value w6
  simp only [lptView, Prod.mk.injEq] at hview
  obtain ⟨hpt6, hrec6, hstamp6⟩ := hview
  have hlast : lptView d w7 = (S.pt, w7.getLpt d, S.pt % 2 ^ 64) := by
    rw [lptView, State.pt_modLpt, State.rd_modLpt, hpt6, hstamp6]
  refine ⟨w7.getLpt d, ?_, ?_⟩
  · split
    · rw [lptView_itemApplied, hlast]
    · exact hlast
  · rw [State.getLpt_modLpt, hrec6]
    exact ⟨htaken, fun x hx => hf4.trans (hf.1 x hx), fun h hp => hf4.trans (hf.2 h hp)⟩

/-! Lock, and its loss -/

theorem lptLock_locks {t : Nat} (h : (s.getLpt d).okAt = some t) (hen : s.bit d LPT_CTRL.EN = true) : lptLock d s =
    detStale d (((s.passTo (t + 50000000)).wr d LPT_STAT.LOCK 1).modLpt d fun r => { r with hold := false }) := by
  simp only [lptLock, h, hen, if_true]

theorem lptLock_idle (h : (s.getLpt d).okAt = none ∨ s.bit d LPT_CTRL.EN = false) : lptLock d s = s := by
  unfold lptLock
  split
  next t hok => exact if_neg (by simpa [hok] using h)
  next => rfl

section
variable {ends : List Nat} (hends : ends = ((s.getLpt d).lowAt.map (fun t => t + 2500000)).toList ++
  ((s.getLpt d).vqAt.map (fun t => t + 12500000)).toList ++ ((s.getLpt d).clAt.map (fun t => t + 50000000)).toList)
include hends

/-- Each of the three conditions that lasts has its end; the earliest of the ends counts. -/
theorem lptUnlock_eq : lptUnlock d s = ends.head?.elim s fun t => if s.bit d LPT_STAT.LOCK = true then
    (detStale d (((s.passTo (ends.tail.foldl min t)).wr d LPT_STAT.LOCK 0).modLpt d fun r => { r with hold := true })).raise d 417 3 0
    else s := by
  unfold lptUnlock
  extract_lets r add
  have hadd (k : Nat) (o : Option Nat) : add k o = (o.map fun t => t + k).toList := by cases o <;> rfl
  rw [hadd, hadd, hadd, ← hends]
  cases ends <;> rfl

theorem lptUnlock_idle (h : ends = [] ∨ s.bit d LPT_STAT.LOCK = false) : lptUnlock d s = s := by
  rw [lptUnlock_eq hends]
  obtain rfl | hlock := h
  · rfl
  · cases ends.head? with
    | none => rfl
    | some t => exact if_neg (by simp [hlock])

theorem lptUnlock_loses {t : Nat} {ts : List Nat} (h : ends = t :: ts) (hlock : s.bit d LPT_STAT.LOCK = true) : lptUnlock d s =
    (detStale d (((s.passTo (ts.foldl min t)).wr d LPT_STAT.LOCK 0).modLpt d fun r => { r with hold := true })).raise d 417 3 0 := by
  rw [lptUnlock_eq hends, h]
  exact if_pos hlock

end

/-! A write of LPT_CTRL -/

/-- A new acquisition begins where the tracker is enabled, and was not or tracked another input (R195, R196). -/
theorem lptCtrlWrite_eq
    (hu : u = ((((((s.wr d LPT_CTRL.EN (bitsOf v.toNat 0 1)).wr d LPT_CTRL.SET (bitsOf v.toNat 1 1)).wr d LPT_CTRL.CONN
      (bitsOf v.toNat 2 1)).wr d LPT_CTRL.NOM (bitsOf v.toNat 3 1)).wr d LPT_CTRL.BW (bitsOf v.toNat 4 2)).wr d LPT_CTRL.ALO
        (bitsOf v.toNat 16 16))) :
    lptCtrlWrite v d s = if bitOf v.toNat 0 = true ∧ (s.bit d LPT_CTRL.EN = false ∨ ¬ (u.rd d LPT_CTRL.SET = s.rd d LPT_CTRL.SET ∧
        u.rd d LPT_CTRL.CONN = s.rd d LPT_CTRL.CONN ∧ u.rd d LPT_CTRL.NOM = s.rd d LPT_CTRL.NOM)) then
      detStale d ((u.wr d LPT_STAT.LOCK 0).modLpt d fun r => { f := r.f, turns := r.turns, hist := r.hist }) else u := by
  subst hu
  simp only [lptCtrlWrite, Bool.and_eq_true, Bool.or_eq_true, Bool.not_eq_true', decide_eq_true_iff, ne_eq, Prod.mk.injEq]

end

/-- Settles O15: each command is one branch of its operation; what an update keeps of itself follows from `lptUpdate_takes`. -/
theorem detectorsCloseAndTheLinePhaseIsTracked : Obligations.DetectorsCloseAndTheLinePhaseIsTracked := by
  intro s d v hl
  refine ⟨fun i hi => ⟨fun hk hdue hshed => onPart_eq hl hi (detWindowEnd_closes hk hdue hshed),
      fun h => onPart_eq hl hi (detWindowEnd_idle h), detDue_samples, detDue_line, fun r res x y z => detClose_eq,
      fun hf r x hr hx => onPart_eq hl hi ((axisWrite_detReg hf hi).trans (detCfgWrite_n hr hx)),
      fun hf x y hx hy => onPart_eq hl hi ((axisWrite_detReg (r := 0) hf hi).trans (detCfgWrite_cfg hx hy))⟩,
    fun u hu => ⟨fun h => onLive_eq hl (lptUpdate_idle hu h), ?update⟩, fun t h hen => onLive_eq hl (lptLock_locks h hen),
    fun h => onLive_eq hl (lptLock_idle h), fun ends hends => ⟨fun h => onLive_eq hl (lptUnlock_idle hends h),
      fun t ts h hlock => onLive_eq hl (lptUnlock_loses hends h hlock)⟩, fun u hf hu => ?ctrl, onLive_live hl⟩
  case update =>
    intro hen hn
    obtain ⟨r, hview, ⟨hn', h0, h1, h2, hpreset, hused⟩, hsnap, hnom⟩ := lptUpdate_takes hu hen hn
    have hmoves : Moves (fun _ => true) s (lptUpdate d s) := lptUpdate_moves d (Moves.refl _ s)
    simp only [lptView, Prod.mk.injEq] at hview
    obtain ⟨hpt, rfl, hstamp⟩ := hview
    refine ⟨lptUpdate d s, (onLive_live hl).trans (by rw [hmoves.commit_eq]), hpt, hstamp, hn', h0, h1, h2, hpreset,
      fun hp h => hnom (lptDue_none h) hp, fun x h ht hr => ?_⟩
    have hdue := lptDue_some h ht hr
    exact ⟨hsnap x hdue, hused (by rw [hdue]; rfl)⟩
  case ctrl =>
    have written {t : State} (h : lptCtrlWrite v d s = t) : exec (.lptCtrlWrite d v) s = .next (s.commit t) :=
      onLive_eq hl ((axisWrite_behindSets hf (by decide) (by decide)).trans h)
    refine ⟨fun hen h => written ((lptCtrlWrite_eq hu).trans (if_pos ⟨hen, by simpa only [not_and_or] using h⟩)),
      fun h => written ((lptCtrlWrite_eq hu).trans (if_neg ?_))⟩
    rintro ⟨hen, hnew⟩
    obtain hoff | ⟨hon, hsame⟩ := h
    · simp [hoff] at hen
    · exact hnew.elim (by simp [hon]) fun hne => hne hsame

end Sys2Proof.Machine
end

section
/-!
What a command leaves alone of the memories.
-/

namespace Sys2Proof.Machine

/-- Settles O55, from what an effect does at most. -/
theorem commandsChangeOnlyTheirMemories : Obligations.CommandsChangeOnlyTheirMemories :=
  fun _ _ _ k h hk => (exec_moves h).mems k (decide_eq_false hk)

end Sys2Proof.Machine
end

section
/-!
The law engine: the check at a start, releases, runs and their end (R205 to R212, R217, R221).
-/

namespace Sys2Proof.Machine

section
variable {s u v w x : State} {d n : Nat}

/-- A field of one word in the law engine's register set of an axis (R25). -/
def Fld.inLawSet (f : Fld) : Bool :=
  f.ax == 0x1000 && f.nw == 1 && f.off % 4 == 0 && decide (0xb0000 ≤ f.off) && decide (f.off + 4 * (f.lo / 32) + 4 ≤ 0xb1000)

theorem Fld.inLawSet_iff (f : Fld) : f.inLawSet = true ↔
    f.ax = 0x1000 ∧ f.nw = 1 ∧ f.off % 4 = 0 ∧ 0xb0000 ≤ f.off ∧ f.off + 4 * (f.lo / 32) + 4 ≤ 0xb1000 := by
  simp [Fld.inLawSet, and_assoc]

/-! Writes of LAW_CTRL -/

/-- The word that LAW_START writes: LEN, and RUN = 1 in bit 0. -/
theorem lawStartWord_fields (len : Nat) : bitsOf (BitVec.ofNat 32 (1 + len % 128 * 256)).toNat 8 7 = len % 128 ∧
    bitOf (BitVec.ofNat 32 (1 + len % 128 * 256)).toNat 0 = true := by
  simp only [bitsOf, bitOf, BitVec.toNat_ofNat, beq_iff_eq]
  omega

/-- The word that LAW_STOP writes: LEN, and RUN = 0. -/
theorem lawStopWord_fields (len : Nat) : bitsOf (BitVec.ofNat 32 (len % 128 * 256)).toNat 8 7 = len % 128 ∧
    bitOf (BitVec.ofNat 32 (len % 128 * 256)).toNat 0 = false := by
  simp only [bitsOf, bitOf, BitVec.toNat_ofNat, beq_eq_false_iff_ne]
  omega

section
variable {c : Word} {t len : Nat}

/-- RUN := 1 while no program runs takes LEN and checks the program (R205, R206). -/
theorem lawCtrlWrite_checks (hrun : s.bit d LAW_CTRL.RUN n = false) (hc : bitsOf c.toNat 8 7 = len ∧ bitOf c.toNat 0 = true)
    (hu : u = s.wr d LAW_CTRL.LEN len n)
    (hw : w = (u.wr d LAW_AXSTAT.VERR (programCheck u d n).1 n).wr d LAW_AXSTAT.VSLOT (programCheck u d n).2 n) :
    lawCtrlWrite n c t d s =
      if (programCheck u d n).1 ≠ 0 then w.raise d 432 3 n
      else showLoad d (((w.wr d LAW_CTRL.RUN 1 n).wr d LAW_AXSTAT.PEND 1 n).modLaw d n fun x =>
        { x with pendAt := some (t + 5000), stop := false }) := by
  obtain ⟨rfl, hstart⟩ := hc
  subst hu hw
  simp only [lawCtrlWrite, hrun, hstart, Bool.false_eq_true, if_false, if_true]

/-- RUN := 0 while no program runs takes LEN alone. -/
theorem lawCtrlWrite_takesLen (hrun : s.bit d LAW_CTRL.RUN n = false) (hc : bitsOf c.toNat 8 7 = len ∧ bitOf c.toNat 0 = false)
    (hu : u = s.wr d LAW_CTRL.LEN len n) : lawCtrlWrite n c t d s = u := by
  obtain ⟨rfl, hstop⟩ := hc
  subst hu
  simp only [lawCtrlWrite, hrun, hstop, Bool.false_eq_true, if_false]

/-- RUN := 1 while the program runs starts nothing, and LEN stays (log entry 25). -/
theorem lawCtrlWrite_again (hrun : s.bit d LAW_CTRL.RUN n = true) (hc : bitsOf c.toNat 8 7 = len ∧ bitOf c.toNat 0 = true)
    (hu : u = if len = s.rd d LAW_CTRL.LEN n then s else s.raise d 432 3 n) : lawCtrlWrite n c t d s = u := by
  obtain ⟨rfl, hstart⟩ := hc
  subst hu
  simp only [lawCtrlWrite, hrun, hstart, if_true]

/-- RUN := 0 stops the program at once, or at the end of the run in progress (R207). -/
theorem lawCtrlWrite_stops (hrun : s.bit d LAW_CTRL.RUN n = true) (hc : bitsOf c.toNat 8 7 = len ∧ bitOf c.toNat 0 = false)
    (hu : u = if len = s.rd d LAW_CTRL.LEN n then s else s.raise d 432 3 n) :
    lawCtrlWrite n c t d s =
      if (u.getLaw d n).run.isSome = true then u.modLaw d n fun x => { x with stop := true } else lawHalt d n u := by
  obtain ⟨rfl, hstop⟩ := hc
  subst hu
  simp only [lawCtrlWrite, hrun, hstop, Bool.false_eq_true, if_false, if_true]

end

/-- LAW_START and LAW_STOP on a die that holds the set of the axis. -/
theorem exec_lawStart_applied {len : Nat} {t : State} (hl : s.Live d) (hn : n < 8) (hf : s.forwards d = false) (hh : s.holds d n = true)
    (h : lawCtrlWrite n (BitVec.ofNat 32 (1 + len % 128 * 256)) s.pt d s = t) : exec (.lawStart d n len) s = .next (s.commit t) :=
  onAxis_eq hl hn ((axisWrite_applied hf hh (Fld.addr_axis LAW_CTRL.RUN (k := 0) rfl (by decide) hn)).trans h)

theorem exec_lawStop_applied {len : Nat} {t : State} (hl : s.Live d) (hn : n < 8) (hf : s.forwards d = false) (hh : s.holds d n = true)
    (h : lawCtrlWrite n (BitVec.ofNat 32 (len % 128 * 256)) s.pt d s = t) : exec (.lawStop d n len) s = .next (s.commit t) :=
  onAxis_eq hl hn ((axisWrite_applied hf hh (Fld.addr_axis LAW_CTRL.RUN (k := 0) rfl (by decide) hn)).trans h)

/-! Releases (R206, R208, R212) -/

theorem lawRelease_stopped (h : s.bit d LAW_CTRL.RUN n = false) : lawRelease d n s = s := by
  simp [lawRelease, h]

section
variable (hrun : s.bit d LAW_CTRL.RUN n = true) (hu : u = (s.pass (s.nextRelease d n)).occurs (State.stepNo 7 d n))
include hrun hu

/-- A start held for later stays. -/
theorem lawRelease_held {t : Nat} (hp : (u.getLaw d n).pendAt = some t) (ht : u.pt < t) : lawRelease d n s = u := by
  simp [lawRelease, hrun, ← hu, hp, ht]

/-- A release that no start holds back, once a start that is due has been made. -/
theorem lawRelease_made
    (hx : (u.getLaw d n).pendAt = none ∧ x = u ∨ (∃ t, (u.getLaw d n).pendAt = some t ∧ t ≤ u.pt) ∧
      x = (((u.wr d LAW_AXSTAT.PEND 0 n).wr d LAW_AXSTAT.RUNNING 1 n).wr d LAW_RUNCNT.COUNT 0 n).modLaw d n fun r =>
        { r with pendAt := none, first := true }) :
    lawRelease d n s =
      if ((x.getLaw d n).waitAt.isSome || (x.getLaw d n).run.isSome) = true then
        ((x.addSat d LAW_OVRCNT.COUNT 1 n).wrBit d LAW_FLAGS.OVR n true).raiseAx d n 20 3
      else x.modLaw d n fun r => { r with waitAt := some x.pt } := by
  obtain ⟨hp, rfl⟩ | ⟨⟨t, hp, ht⟩, rfl⟩ := hx
  · simp only [lawRelease, hrun, ← hu, hp, Bool.not_true, Bool.false_eq_true, if_false]
  · simp only [lawRelease, hrun, ← hu, hp, Nat.not_lt.mpr ht, Bool.not_true, Bool.false_eq_true, if_false, State.getLaw_modLaw,
      State.getLaw_wr]

end

/-! Runs (R203, R210) -/

section
variable {bad par : List Nat} {mem ecc : List (Nat × Nat)} {r : Nat}

theorem lawRun_idle (h : runs s d = true ∨ nextRun s d ≠ some n) : lawRun d n bad par mem ecc s = s :=
  if_pos (by simpa using h)

section
variable (hidle : runs s d = false) (hnext : nextRun s d = some n) (hr : r = ((s.getLaw d n).waitAt).getD s.pt)
  (hu : u = epochAtRun d n r s)
include hidle hnext hr hu

/-- The entries of an epoch have taken the waiting run away. -/
theorem lawRun_gone (h : (u.getLaw d n).waitAt = none) : lawRun d n bad par mem ecc s = u := by
  simp [lawRun, hidle, hnext, ← hr, ← hu, h]

theorem lawRun_evaluates (h : (u.getLaw d n).waitAt ≠ none)
    (hv : v = ecc.foldl (fun s e => progEcc d (e.1 % 65536) e.2 s) (runBegin d n r u))
    (hw : w = v.forEach (List.range (v.rd d LAW_CTRL.LEN n)) (runSlot d n bad par mem)) :
    lawRun d n bad par mem ecc s = telOffer d n r (w.rd d LAW_RUNCNT.COUNT n % 256) (w.getLaw d n).tel w := by
  subst hv hw
  simp [lawRun, hidle, hnext, ← hr, ← hu, h]

end

end

/-! The beginning of a run: its record and its number (R206) -/

/-- What the steps before a run's record leave as it was: package time and the number of the run. -/
def runView (d n : Nat) (s : State) : Nat × Nat := (s.pt, s.rd d LAW_RUNCNT.COUNT n)

/-- A word of the law set other than LAW_RUNCNT. -/
theorem runView_wr {f : Fld} {a : Nat} (hf : f.inLawSet = true) (ho : f.off + 4 * (f.lo / 32) ≠ LAW_RUNCNT.COUNT.off) :
    runView d n (s.wr d f a n) = runView d n s := by
  obtain ⟨hax, hw, hword, -, -⟩ := f.inLawSet_iff.mp hf
  have hne : LAW_RUNCNT.COUNT.addr d n 0 + 4 * LAW_RUNCNT.COUNT.nw ≤ f.addr d n 0 ∨
      f.addr d n 0 + 4 * f.nw ≤ LAW_RUNCNT.COUNT.addr d n 0 := by
    rw [hw, show LAW_RUNCNT.COUNT.nw = 1 from rfl, Fld.addr, Fld.addr, hax]
    simp only [LAW_RUNCNT.COUNT] at ho ⊢
    omega
  rw [runView, State.pt_wr, State.rd_wr_other _ _ _ _ _ _ _ _ _ _ hne, runView]

theorem runView_modLaw (f : LawAx → LawAx) : runView d n (s.modLaw d n f) = runView d n s := by
  rw [runView, State.rd_modLaw]
  rfl

theorem runView_flushWrites (c : Option Nat) : runView d n (flushWrites d n c s) = runView d n s := by
  have hfold (ws : List (Nat × Nat × Word)) (t : State) :
      runView d n (ws.foldl (fun s w => s.modPm d w.2.1 fun _ => w.2.2) t) = runView d n t := by
    induction ws generalizing t with
    | nil => rfl
    | cons a ws ih =>
      rw [List.foldl_cons, ih, runView, State.rd_modPm]
      rfl
  rw [flushWrites, runView_modLaw, hfold]

theorem runView_bankTake (target len first : Nat) : runView d n (bankTake d n target len first s) = runView d n s := by
  unfold bankTake
  split
  · rfl
  · split
    · exact runView_wr rfl (by decide)
    · rw [runView_modLaw, runView_wr rfl (by decide), runView_wr rfl (by decide)]

theorem runView_bankQueued (first : Nat) : runView d n (bankQueued d n first s) = runView d n s := by
  unfold bankQueued
  split
  · rw [runView_bankTake, runView_wr rfl (by decide), runView_wr rfl (by decide), runView_wr rfl (by decide)]
  · rfl

/-- A run starts at the present tick under the next number. -/
theorem runBegin_starts (d n r : Nat) (s : State) : ((runBegin d n r s).getLaw d n).run = some (r, s.pt) ∧
    ((runBegin d n r s).getLaw d n).waitAt = none ∧
    (runBegin d n r s).rd d LAW_RUNCNT.COUNT n = (s.rd d LAW_RUNCNT.COUNT n + 1) % 2 ^ 32 := by
  unfold runBegin
  extract_lets c t t' up m
  have ht : runView d n t' = (s.pt, c) := by
    have hnum : runView d n t = (s.pt, c) := by
      rw [runView_flushWrites, runView, State.pt_wr, State.rd_wr_same]
      exact congrArg (Prod.mk s.pt) (Nat.mod_mod _ _)
    rw [← hnum]
    exact (apply_ite (runView d n) _ _ _).trans (by rw [runView_bankQueued, ite_self])
  obtain ⟨hpt, hcount⟩ := Prod.mk.inj ht
  have hlaw : (m.modLawDie d fun l => { l with last := m.stream d n }).getLaw d n = m.getLaw d n := rfl
  rw [hlaw, State.getLaw_modLaw, State.rd_modLawDie, State.rd_modLaw, hcount]
  exact ⟨by rw [hpt], rfl, rfl⟩

/-! The end of a run (R211, R212, R319) -/

theorem lawRunEnd_none (h : (s.getLaw d n).run = none) : lawRunEnd d n s = s := by
  simp only [lawRunEnd, h]

theorem lawRunEnd_ends {r t len : Nat} (h : (s.getLaw d n).run = some (r, t))
    (hlen : len = s.rd d LAW_CTRL.LEN n * s.lawCycles d + (s.getLaw d n).stolen) (hu : u = s.passTo (t + 2 * len))
    (hv : v = (u.wr d LAW_TIME.LAST (min len 65535) n).wr d LAW_TIME.WORST (max (min len 65535) (u.rd d LAW_TIME.WORST n)) n)
    (hw : w = if (v.getLaw d n).mis = true then stateCopy d n v else v)
    (hx : x = runEndIrq d n (trcCapture d n r (tuneStep d n (fadeStep d n (w.modLaw d n fun x =>
      { x with run := none, first := false }))))) :
    lawRunEnd d n s = if (x.getLaw d n).stop = true then lawHalt d n x else x := by
  subst hlen hu hv hw hx
  simp only [lawRunEnd, h]

end

/-- Settles O18: each command is one branch of its operation; a run's record and number are those of `runBegin_starts`. -/
theorem lawsStartReleaseRunAndStop : Obligations.LawsStartReleaseRunAndStop := by
  intro s d n hl hn
  refine ⟨fun len u w hf hh hrun hu hw => ?stopped, fun len u hf hh hrun hu => ?running, rfl,
    fun h => onAxis_eq hl hn (lawRelease_stopped h),
    fun u hrun hu => ⟨fun t hp ht => onAxis_eq hl hn (lawRelease_held hrun hu hp ht), ?made⟩,
    fun bad par mem ecc h => onAxis_eq hl hn (lawRun_idle h), fun bad par mem ecc r u hidle hnext hr hu =>
      ⟨fun h => onAxis_eq hl hn (lawRun_gone hidle hnext hr hu h),
        fun v w h hv hw => onAxis_eq hl hn (lawRun_evaluates hidle hnext hr hu h hv hw)⟩,
    fun r => runBegin_starts d n r s, fun h => onAxis_eq hl hn (lawRunEnd_none h), ?ends⟩
  case stopped =>
    have start := lawCtrlWrite_checks (t := s.pt) hrun (lawStartWord_fields len) hu hw
    exact ⟨fun h => exec_lawStart_applied hl hn hf hh (start.trans (if_pos h)),
      fun h => exec_lawStart_applied hl hn hf hh (start.trans (if_neg (not_not.mpr h))),
      exec_lawStop_applied hl hn hf hh (lawCtrlWrite_takesLen hrun (lawStopWord_fields len) hu)⟩
  case running =>
    have stop := lawCtrlWrite_stops (t := s.pt) hrun (lawStopWord_fields len) hu
    exact ⟨exec_lawStart_applied hl hn hf hh (lawCtrlWrite_again hrun (lawStartWord_fields len) hu),
      fun h => exec_lawStop_applied hl hn hf hh (stop.trans (if_neg (by simp [h]))),
      fun h => exec_lawStop_applied hl hn hf hh (stop.trans (if_pos (Option.isSome_iff_ne_none.mpr h)))⟩
  case made =>
    intro x hx
    have h := lawRelease_made hrun hu hx
    exact ⟨fun hw hr => onAxis_eq hl hn (h.trans (if_neg (by simp [hw, hr]))),
      fun hbusy => onAxis_eq hl hn (h.trans (if_pos (by simpa only [Bool.or_eq_true, Option.isSome_iff_ne_none] using hbusy)))⟩
  case ends =>
    intro r t len u v w x hrun hlen hu hv hw hx
    have h := lawRunEnd_ends hrun hlen hu hv hw hx
    exact ⟨fun hs => onAxis_eq hl hn (h.trans (if_neg (Bool.eq_false_iff.mp hs))), fun hs => onAxis_eq hl hn (h.trans (if_pos hs))⟩

end Sys2Proof.Machine
end

section
/-!
Program memory, the cycles its accesses take from a run, and the coefficient banks (R200, R201, R204, R211, R217 to R222).
-/

namespace Sys2Proof.Machine

section
variable {s u : State} {d n : Nat}

/-! Writes (R200, R201, R204) -/

section
variable {m o k a : Nat} {v : Word} (hk : k = o / 4 % 32) (hn : n = progAxis s d o) (ha : a = d * dieSpan + progBase + o)

include ha in
theorem progWrite_beyond (ho : 0xC000 ≤ o) : progWrite m d o v s = s.accessFault d m true 2 4 a := by
  subst ha
  exact if_pos ho

include ha in
theorem progRead_beyond (ho : 0xC000 ≤ o) : progRead m d o s = (s.answer 0).accessFault d m false 2 4 a := by
  subst ha
  exact if_pos ho

include hk hn ha in
/-- The descriptor and the state of a slot are fixed while the program runs (R201). -/
theorem progWrite_fixed (ho : o < 0xC000) (hrun : s.bit d LAW_CTRL.RUN n = true) (hw : k < 4 ∨ 20 ≤ k ∧ k < 27) :
    progWrite m d o v s = (s.accessFault d m true 2 5 a).raise d 432 3 n := by
  subst hk hn ha
  simp [progWrite, Nat.not_le.mpr ho, hrun, hw]

section
variable (ho : o < 0xC000) (hfree : s.bit d LAW_CTRL.RUN n = false ∨ 4 ≤ k ∧ k < 20 ∨ 27 ≤ k)
include hk hn ho hfree

/-- A write that no running program forbids goes to the die, or to both mates of a pair. -/
theorem progWrite_taken : progWrite m d o v s =
    if s.forwards d = true then
      let e := s.activeOf d
      let x := mateOf e
      let run := if s.bit e LAW_AXSTAT.PEND n = true then 1 else max (s.rd e LAW_RUNCNT.COUNT n) (s.rd x LAW_RUNCNT.COUNT n) + 1
      (progApply o v run e s).modFwd x fun q => q ++ [{ off := progBase + o, val := v, tick := s.pt, run := run }]
    else progApply o v 0 d s := by
  have hallowed : (s.bit d LAW_CTRL.RUN n && (decide (k < 4) || (decide (20 ≤ k) && decide (k < 27)))) = false := by
    obtain hstopped | hword := hfree
    · rw [hstopped, Bool.false_and]
    · simp only [Bool.and_eq_false_iff, Bool.or_eq_false_iff, decide_eq_false_iff_not]
      omega
  subst hk hn
  simp only [progWrite, Nat.not_le.mpr ho, hallowed, Bool.false_eq_true, if_false]

theorem progWrite_alone (hf : s.forwards d = false) : progWrite m d o v s = progApply o v 0 d s :=
  (progWrite_taken hk hn ho hfree).trans (if_neg (by simp [hf]))

theorem progWrite_shared {e x run : Nat} (hf : s.forwards d = true) (he : e = s.activeOf d) (hx : x = mateOf e)
    (hr : run = if s.bit e LAW_AXSTAT.PEND n = true then 1 else max (s.rd e LAW_RUNCNT.COUNT n) (s.rd x LAW_RUNCNT.COUNT n) + 1) :
    progWrite m d o v s = (progApply o v run e s).modFwd x fun q => q ++ [{ off := progBase + o, val := v, tick := s.pt, run := run }] := by
  subst he hx hr
  exact (progWrite_taken hk hn ho hfree).trans (if_pos hf)

end

/-! What a write leaves in the memory, by the place of its word in the slot -/

section
variable {run : Nat}
include hk hn

/-- A coefficient that is given a run waits for it (R217). -/
theorem progApply_waits (h : 4 ≤ k ∧ k < 20 ∧ 0 < run ∧ s.bit d LAW_CTRL.RUN n = true) :
    progApply o v run d s = s.modLaw d n fun x => { x with wr := x.wr ++ [(run % 2 ^ 32, o / 4, v)] } := by
  subst hk hn
  exact if_pos h

theorem progApply_word (hpos : 0 < k) (hlt : k < 27) (h : ¬ (4 ≤ k ∧ k < 20 ∧ 0 < run ∧ s.bit d LAW_CTRL.RUN n = true)) :
    progApply o v run d s = (s.modPm d (o / 4) fun _ => v).twinPut d (o / 4) := by
  subst hk hn
  simp only [progApply, if_neg h, if_neg hpos.ne', if_pos hlt]

end

section
variable {run : Nat}
include hk

theorem progApply_descriptor (h : k = 0) : progApply o v run d s = s.modPm d (o / 4) fun _ => v &&& 0x3F171F#32 := by
  have h0 : o / 4 % 32 = 0 := hk.symm.trans h
  simp [progApply, h0]

/-- A header word is not written. -/
theorem progApply_header (h : 27 ≤ k) : progApply o v run d s = s := by
  subst hk
  have hcoef : ¬ (4 ≤ o / 4 % 32 ∧ o / 4 % 32 < 20 ∧ 0 < run ∧ s.bit d LAW_CTRL.RUN (progAxis s d o) = true) := by omega
  simp only [progApply, if_neg hcoef, if_neg (show o / 4 % 32 ≠ 0 by omega), if_neg (Nat.not_lt.mpr h)]

/-! Reads (R201, R216) -/

section
variable (ho : o < 0xC000)
include ho

theorem progRead_header (ha : a = d * dieSpan + progBase + o) (h : k = 27)
    (hu : u = s.forEach [1, 2, 3, 4] fun q s => { s with latch := s.latch.set (a + 4 * q) (s.getPm d (o / 4 + q)) 0 }) :
    progRead m d o s = u.answer (u.getPm d (o / 4)).toNat := by
  subst ha hu
  simp only [progRead, if_neg (Nat.not_le.mpr ho), if_pos (hk.symm.trans h)]

theorem progRead_mantissa (ha : a = d * dieSpan + progBase + o) (h : 27 < k) : progRead m d o s = s.answer (s.latched a) := by
  subst hk ha
  simp only [progRead, if_neg (Nat.not_le.mpr ho), if_neg h.ne', if_pos (Nat.succ_le_of_lt h)]

theorem progRead_word (h : k < 27) : progRead m d o s = s.answer (pmRead s d (o / 4)) := by
  subst hk
  simp only [progRead, if_neg (Nat.not_le.mpr ho), if_neg h.ne, if_neg (show ¬ 28 ≤ o / 4 % 32 by omega)]

end

end

end

/-! Cycles taken from the runs in progress (R211) -/

section
variable {recent busy : List Nat} (hrecent : recent = (s.getLawDie d).steals.filter fun t => decide (s.now < t + 12500))
  (hbusy : busy = (List.range 8).filter fun n => (s.getLaw d n).run.isSome && decide ((s.getLaw d n).stolen < 72))
include hrecent hbusy

theorem stealCycles_none (h : busy = [] ∨ 9 ≤ recent.length) : stealCycles d s = s := by
  subst hrecent hbusy
  exact if_pos h

theorem stealCycles_taken (hb : busy ≠ []) (hr : recent.length < 9) : stealCycles d s =
    (s.forEach busy fun n s => s.modLaw d n fun x => { x with stolen := x.stolen + 8 }).modLawDie d fun l =>
      { l with steals := s.now :: recent } := by
  subst hrecent hbusy
  exact if_neg (not_or.mpr ⟨hb, Nat.not_le.mpr hr⟩)

end

/-! The commands -/

section
variable {m o ecc : Nat} {v : Word} {wr st : Bool}

/-- An access of program memory on a die out of reset. -/
theorem exec_progmemAccess (hl : s.Live d) (ho : o < 65536) : exec (.progmemAccess m d o wr v st ecc) s = .next (s.commit
    (if o % 4 ≠ 0 then (s.answer 0).accessFault d m wr 2 3 (d * dieSpan + progBase + o) else progmemAccess m d o wr v st ecc s)) :=
  onItem_live hl.2 (by simp [hl.1, ho])

theorem exec_progmemAccess_misaligned (hl : s.Live d) (ho : o < 65536) (h : o % 4 ≠ 0) : exec (.progmemAccess m d o wr v st ecc) s =
    .next (s.commit ((s.answer 0).accessFault d m wr 2 3 (d * dieSpan + progBase + o))) := by
  rw [exec_progmemAccess hl ho, if_pos h]

theorem exec_progmemAccess_aligned (hl : s.Live d) (ho : o < 65536) (h : o % 4 = 0) (hu : u = if st = true then stealCycles d s else s) :
    exec (.progmemAccess m d o wr v st ecc) s =
      .next (s.commit (if wr = true then progWrite m d o v u else progRead m d o (progEcc d o ecc u))) := by
  rw [exec_progmemAccess hl ho, if_neg (not_not.mpr h), progmemAccess, hu]

end

section
variable {i : Nat} (hl : s.Live d) (hn : n < 8) (hi : i < 96)
include hl hn hi

theorem exec_lawHeaderRead_eq {t : State}
    (h : (if s.lawSlots d ≤ i ∨ s.holds d n = false then s else progRead 0 d (s.slotWord d n i 27 * 4) s) = t) :
    exec (.lawHeaderRead d n i) s = .next (s.commit t) :=
  onItem_eq (by simp [hl.1, hn, hi]) (by simpa [hl.2] using h)

end

/-! Bank requests (R218 to R221) -/

/-- A write in a law set leaves the fields of one word alone that lie outside the block of the law sets. -/
theorem State.rd_wr_lawSet {f g : Fld} {a e : Nat} (hn : n < 8) (hf : f.inLawSet = true) (hg : g.nw = 1 ∧
    g.off + 4 * (g.lo / 32) < dieSpan ∧ (g.off + 4 * (g.lo / 32) + 4 ≤ 0xb0000 ∨ 0xb8000 ≤ g.off)) :
    (s.wr d f a n).rd e g = s.rd e g := by
  obtain ⟨hax, hfw, -, hlo, hhi⟩ := f.inLawSet_iff.mp hf
  obtain ⟨hgw, hspan, hout⟩ := hg
  refine State.rd_wr_other _ _ _ _ _ _ _ _ _ _ ?_
  rw [hfw, hgw, Fld.addr, Fld.addr, hax]
  unfold dieSpan at *
  omega

/-- Whether a die's writes go on to its mate does not rest on the law sets (R26). -/
theorem State.forwards_wr_lawSet {f : Fld} {a : Nat} (hn : n < 8) (hf : f.inLawSet = true) (e : Nat) :
    (s.wr d f a n).forwards e = s.forwards e := by
  simp only [State.forwards, State.divided, State.bridgeUp, State.bit, State.getDie_wr,
    State.rd_wr_lawSet (g := GLB_ID.PAIRMODE) hn hf (by decide), State.rd_wr_lawSet (g := PAIR_STAT.PATHA) hn hf (by decide),
    State.rd_wr_lawSet (g := PAIR_STAT.RESYNC) hn hf (by decide)]

theorem State.forwards_modLaw (f : LawAx → LawAx) (e : Nat) : (s.modLaw d n f).forwards e = s.forwards e := rfl

theorem forwards_bankTake (hn : n < 8) (target len first e : Nat) : (bankTake d n target len first s).forwards e = s.forwards e := by
  unfold bankTake
  split
  · rfl
  · split
    · exact State.forwards_wr_lawSet hn rfl e
    · rw [State.forwards_modLaw, State.forwards_wr_lawSet hn rfl, State.forwards_wr_lawSet hn rfl]

theorem bankTake_inForce {target len first : Nat} (h : s.rd d LAW_BANK.ACT n = target) : bankTake d n target len first s = s := if_pos h

theorem bankTake_stopped {target len first : Nat} (h : s.rd d LAW_BANK.ACT n ≠ target) (hrun : s.bit d LAW_CTRL.RUN n = false) :
    bankTake d n target len first s = s.wr d LAW_BANK.ACT target n := by
  simp [bankTake, h, hrun]

theorem bankTake_fades {target len first : Nat} (h : s.rd d LAW_BANK.ACT n ≠ target) (hrun : s.bit d LAW_CTRL.RUN n = true) :
    bankTake d n target len first s = ((s.wr d LAW_BANK.FADING 1 n).wr d LAW_FADE.REMAIN (max 1 len) n).modLaw d n fun x =>
      { x with fadeLen := max 1 len, fadeK := 0, target := target, fadeFrom := first } := by
  simp only [bankTake, h, hrun, Bool.not_true, Bool.false_eq_true, if_false]

/-- The word that LAW_BANK_REQ writes: REQ with its target and length, QOVR left as it is. -/
def bankReqWord (target len : Nat) : Word := BitVec.ofNat 32 (target % 2 * 256 + 512 + len % 65536 * 65536)

theorem bankReqWord_fields (target len : Nat) : bitOf (bankReqWord target len).toNat 3 = false ∧
    bitOf (bankReqWord target len).toNat 9 = true ∧ bitsOf (bankReqWord target len).toNat 8 1 = target % 2 ∧
    bitsOf (bankReqWord target len).toNat 16 16 = len % 65536 := by
  simp only [bankReqWord, bitOf, bitsOf, BitVec.toNat_ofNat, beq_iff_eq, beq_eq_false_iff_ne]
  omega

theorem lawBankWrite_takes (target len : Nat) (h : s.bit d LAW_BANK.FADING n = false) :
    lawBankWrite n (bankReqWord target len) d s = bankTake d n (target % 2) (len % 65536) (s.runNext d n) s := by
  obtain ⟨hqovr, hreq, htarget, hlen⟩ := bankReqWord_fields target len
  simp only [lawBankWrite, hqovr, hreq, htarget, hlen, h, Bool.not_true, Bool.false_eq_true, if_false]

theorem lawBankWrite_queues (target len : Nat) (h : s.bit d LAW_BANK.FADING n = true)
    (hu : u = if s.bit d LAW_BANK.QUEUED n = true then s.wr d LAW_BANK.QOVR 1 n else s) :
    lawBankWrite n (bankReqWord target len) d s =
      ((u.wr d LAW_BANK.QUEUED 1 n).wr d LAW_BANK.QTGT (target % 2) n).wr d LAW_FADE.QLEN (max 1 (len % 65536)) n := by
  obtain ⟨hqovr, hreq, htarget, hlen⟩ := bankReqWord_fields target len
  subst hu
  simp only [lawBankWrite, hqovr, hreq, htarget, hlen, h, Bool.not_true, Bool.false_eq_true, if_false, if_true]

section
variable {target len : Nat} {t : State} (hl : s.Live d) (hn : n < 8) (hf : s.forwards d = false) (hh : s.holds d n = true)
include hl hn hf hh

theorem exec_lawBankReq_applied (h : bankShared n (bankReqWord target len) d s = t) :
    exec (.lawBankReq d n target len) s = .next (s.commit t) :=
  onAxis_eq hl hn ((axisWrite_applied hf hh (Fld.addr_axis LAW_BANK.ACT (k := 0) rfl (by decide) hn)).trans h)

/-- A die alone chooses the first run of a fade itself (R221). -/
theorem exec_lawBankReq_takes (hfade : s.bit d LAW_BANK.FADING n = false)
    (h : bankTake d n (target % 2) (len % 65536) (s.runNext d n) s = t) : exec (.lawBankReq d n target len) s = .next (s.commit t) := by
  refine exec_lawBankReq_applied hl hn hf hh ?_
  have hwrite := (lawBankWrite_takes target len hfade).trans h
  have hfwd : t.forwards d = false := by rw [← h, forwards_bankTake hn, hf]
  simp [bankShared, hwrite, hfwd]

theorem exec_lawBankReq_queues (hfade : s.bit d LAW_BANK.FADING n = true)
    (hu : u = if s.bit d LAW_BANK.QUEUED n = true then s.wr d LAW_BANK.QOVR 1 n else s) :
    exec (.lawBankReq d n target len) s = .next (s.commit
      (((u.wr d LAW_BANK.QUEUED 1 n).wr d LAW_BANK.QTGT (target % 2) n).wr d LAW_FADE.QLEN (max 1 (len % 65536)) n)) := by
  refine exec_lawBankReq_applied hl hn hf hh ?_
  simp only [bankShared, lawBankWrite_queues target len hfade hu, hfade, Bool.true_or, if_true]

end

end

/-- Settles O19: an access is one branch of its operation, by the place of its word; a request on a die alone takes or queues the bank. -/
theorem programMemoryAndBanks : Obligations.ProgramMemoryAndBanks := by
  intro s d hl
  refine ⟨fun m o wr v st ecc ho h => exec_progmemAccess_misaligned hl ho h,
    fun m o v st ecc u ho h hu => ⟨exec_progmemAccess_aligned hl ho h hu, exec_progmemAccess_aligned hl ho h hu⟩,
    fun recent busy hrecent hbusy => ⟨stealCycles_none hrecent hbusy, stealCycles_taken hrecent hbusy⟩, ?word, ?header, ?bank⟩
  case word =>
    intro m o v k n a hk hn ha
    exact ⟨progWrite_beyond ha, progWrite_fixed hk hn ha, progWrite_alone hk hn,
      fun e x run ho hfree hf he hx hr => progWrite_shared hk hn ho hfree hf he hx hr,
      fun run => ⟨progApply_waits hk hn, progApply_descriptor hk, progApply_word hk hn, progApply_header hk⟩, fun ecc => rfl,
      progRead_beyond ha, fun u ho h hu => progRead_header hk ho ha h hu, fun ho h => progRead_mantissa hk ho ha h,
      fun ho h => progRead_word hk ho h⟩
  case header =>
    intro n i hn hi
    exact ⟨fun hslot hh => exec_lawHeaderRead_eq hl hn hi (if_neg (by simp [hslot, hh])),
      fun h => exec_lawHeaderRead_eq hl hn hi (if_pos h)⟩
  case bank =>
    intro n target len hn hf hh
    exact ⟨fun hfade hact => exec_lawBankReq_takes hl hn hf hh hfade (bankTake_inForce hact),
      fun hfade hact hrun => exec_lawBankReq_takes hl hn hf hh hfade (bankTake_stopped hact hrun),
      fun hfade hact hrun => exec_lawBankReq_takes hl hn hf hh hfade (bankTake_fades hact hrun),
      fun u hfade hu => exec_lawBankReq_queues hl hn hf hh hfade hu⟩

end Sys2Proof.Machine
end

section
/-!
The PWM timer of an axis and the legs of its band unit (R255 to R257, R259 to R261, R264, R266).
-/

namespace Sys2Proof.Machine

section
variable {s u x y t : State} {d n j : Nat} {v : Word}

/-- The outcome of an event of a leg of a live die whose effect is known. -/
theorem onLeg_eq {f : State → State} (hl : s.Live d) (hn : n < 8) (hj : j < 3) (h : f s = t) :
    onPart d (n * 3 + j) 24 s (fun s => if j < 3 then f s else s) = .next (s.commit t) :=
  onPart_eq hl (by omega) ((if_pos hj).trans h)

/-! Periods and update points (R255 to R257) -/

theorem pwmPeriodStart_runs {k : Nat} (hk : k = s.freshPt (State.stepNo 5 d n)) (hen : s.bit d PWM_CTRL.EN n = true) :
    pwmPeriodStart d n s = periodStart d n ((s.pass (k - s.pt + s.toStart d n k)).occurs (State.stepNo 5 d n)) := by
  subst hk
  exact if_pos hen

theorem pwmPeriodStart_stopped (hen : s.bit d PWM_CTRL.EN n = false) : pwmPeriodStart d n s = s := if_neg (by simp [hen])

theorem pwmUpdatePoint_runs {k : Nat} (hk : k = s.freshPt (State.stepNo 6 d n))
    (hu : u = (s.pass (k - s.pt + s.toStart d n (k + (s.period d n - s.period d n / 2)))).occurs (State.stepNo 6 d n))
    (hen : s.bit d PWM_CTRL.EN n = true) (hupd : s.rd d PWM_CTRL.UPD n = 1 ∨ s.rd d PWM_CTRL.UPD n = 2) :
    pwmUpdatePoint d n s = (u.settleAxis d n).forEach [0, 1, 2] fun k w => w.takeDuty d n k w.now8 := by
  subst hk hu
  exact if_pos (by simpa [hen] using hupd)

theorem pwmUpdatePoint_idle
    (h : s.bit d PWM_CTRL.EN n = false ∨ (s.rd d PWM_CTRL.UPD n ≠ 1 ∧ s.rd d PWM_CTRL.UPD n ≠ 2)) : pwmUpdatePoint d n s = s :=
  if_neg (by rcases h with h | h <;> simp [h])

section
variable {res : Leg → List (Nat × Bool) × List Bool} (hu : u = s.settleAxis d n)
  (hx : x = u.modPwm d n fun r => { r with start := u.now8, dt := u.rd d PWM_DT.DT n, minp := u.rd d PWM_DT.MINP n })
  (hy : y = if x.rd d PWM_CTRL.UPD n = 0 ∨ x.rd d PWM_CTRL.UPD n = 2 then
    x.eachLeg d n fun k l => { l with duty := x.shadowDuty d n k } else x)
include hu hx hy

/-- In the safe state and in band mode no edge is placed. -/
theorem periodStart_noEdges (h : y.bit d PWM_CTRL.SAFE n = true ∨ y.bit d PWM_CTRL.MODE n = true) : periodStart d n s = y := by
  have hheld : (y.bit d PWM_CTRL.SAFE n || y.bit d PWM_CTRL.MODE n) = true := by simpa using h
  subst hu hx hy
  exact if_pos hheld

/-- Outside the safe state in PWM mode each leg takes the edges placed for it, and the suppressed pulses count (R256, R260). -/
theorem periodStart_edges
    (hres : res = fun l => placeEdges (8 * u.rd d PWM_DT.DT n) (8 * u.rd d PWM_DT.MINP n) l.st
      (waveform (y.bit d PWM_CTRL.ALIGN n) l.duty (u.period d n)))
    (hsafe : y.bit d PWM_CTRL.SAFE n = false) (hmode : y.bit d PWM_CTRL.MODE n = false) :
    periodStart d n s =
      ((y.eachLeg d n fun _ l => { l with edges := (res l).1, rose := false, fell := false, sups := (res l).2 }).addSat d PWM_SUPCNT.COUNT
        ((res (y.getLeg d n 0)).2 ++ (res (y.getLeg d n 1)).2 ++ (res (y.getLeg d n 2)).2).length n).settleAxis d n := by
  have hfree : ¬ (y.bit d PWM_CTRL.SAFE n || y.bit d PWM_CTRL.MODE n) = true := by simp [hsafe, hmode]
  subst hu hx hy hres
  exact if_neg hfree

end

/-! A write of PWM_DUTY (R257) -/

theorem pt_settleTo (t8 : Nat) : (s.settleTo d n t8).pt = s.pt := by
  simp only [State.settleTo, State.eachLeg, State.pt_modLeg]

theorem pt_takeDuty (k t8 : Nat) : (s.takeDuty d n k t8).pt = s.pt := by
  unfold State.takeDuty
  extract_lets w r l z
  have hw : w.pt = s.pt := pt_settleTo t8
  split
  · rw [State.addSat, State.pt_wr, State.pt_modLeg, hw]
  · rw [State.pt_modLeg, hw]

theorem pt_dutyArrives (k t a : Nat) : (s.dutyArrives d n k t a).pt = s.pt := by
  unfold State.dutyArrives
  extract_lets w
  split
  · rw [pt_takeDuty, State.pt_wr]
  · exact State.pt_wr ..

theorem pt_dutiesArrive : (s.dutiesArrive d n).pt = s.pt := by
  have hfold (k : Nat) (l : List (Nat × Nat)) (t : State) : (l.foldl (fun s e => s.dutyArrives d n k e.1 e.2) t).pt = t.pt := by
    induction l generalizing t with
    | nil => rfl
    | cons e l ih => rw [List.foldl_cons, ih, pt_dutyArrives]
  unfold State.dutiesArrive
  refine State.forEach_keeps State.pt (fun k t => ?_) _ _
  dsimp only
  split
  · rfl
  · rw [hfold, State.pt_modLeg]

/-- The duties under way arrive first; the new one has arrived at once, and is taken under UPD 3 with the timer running. -/
theorem pwmDutyReg_eq (hu : u = s.dutiesArrive d n) (hx : x = u.wr d PWM_DUTY.DUTY (min (v.toNat % 2 ^ 17) 65536) n j) :
    pwmDutyReg n j v d s = if x.rd d PWM_CTRL.UPD n = 3 ∧ x.bit d PWM_CTRL.RUNNING n = true then
      x.takeDuty d n j (x.now8 - 8 * (x.pt - s.pt)) else x := by
  subst hu hx
  rw [pwmDutyReg, dutyWrite, pt_dutiesArrive, if_neg (Nat.lt_irrefl _)]
  rfl

theorem exec_pwmDutyWrite_applied (hl : s.Live d) (hn : n < 8) (hj : j < 3) (hf : s.forwards d = false) (hh : s.holds d n = true)
    (h : pwmDutyReg n j v d s = t) : exec (.pwmDutyWrite d n j v) s = .next (s.commit t) := by
  have hset : PWM_DUTY.DUTY.addr 0 n j % 0x10000 / 0x1000 = n := by
    simp only [Fld.addr, PWM_DUTY.DUTY]
    omega
  exact onItem_live_eq hl (by simp [hl.1, hn, hj]) ((axisWrite_applied hf hh hset).trans h)

/-! Dead time, and demands that wait for MINP (R259 to R261, R264) -/

section
variable (hu : u = s.settleAxis d n)
include hu

theorem deadTimeExpiry_pending {p : Nat} (h : (u.getLeg d n j).pend = some p) :
    deadTimeExpiry d n j s = (u.pass ((p + 7) / 8 - u.now)).settleAxis d n := by
  simp only [deadTimeExpiry, ← hu, h]

theorem deadTimeExpiry_none (h : (u.getLeg d n j).pend = none) : deadTimeExpiry d n j s = u := by
  simp only [deadTimeExpiry, ← hu, h]

theorem bandMinpExpiry_none (h : (u.getLeg d n j).wait = none) : bandMinpExpiry d n j s = u := by
  simp only [bandMinpExpiry, ← hu, h]

/-- A demand that waits passes to the strobe after its MINP, where the exact path decides once the sample has come. -/
theorem bandMinpExpiry_waits {w : Bool} {due : Nat} (h : (u.getLeg d n j).wait = some w)
    (hdue : due = ((u.getLeg d n j).onAt + 8 * (u.getPwm d n).minp + 7) / 8) (hx : x = (u.pass (due - u.now)).toGrid 250)
    (hy : y = demandRipe d n j x) :
    bandMinpExpiry d n j s = if x.strobed = true then
      if y.bandActs d n = true ∧ exactDemand y d n j = some w then demand d n j w y else y else x := by
  subst hdue hx hy
  simp only [bandMinpExpiry, ← hu, h, Bool.not_eq_true', Bool.and_eq_true, beq_iff_eq]
  cases State.strobed _ <;> rfl

end

theorem demand_same {w : Bool} (h : (s.getLeg d n j).st = w) : demand d n j w s = s.modLeg d n j fun l => { l with wait := none } :=
  if_pos h

section
variable {w : Bool} (h : (s.getLeg d n j).st ≠ w)
include h

theorem demand_waits (hheld : (s.getLeg d n j).pend ≠ none ∨ s.now8 < (s.getLeg d n j).onAt + 8 * (s.getPwm d n).minp) :
    demand d n j w s = s.modLeg d n j fun l => { l with wait := some w } :=
  (if_neg h).trans (if_pos (hheld.imp_left Option.isSome_iff_ne_none.mpr))

theorem demand_taken (hpend : (s.getLeg d n j).pend = none) (hheld : (s.getLeg d n j).onAt + 8 * (s.getPwm d n).minp ≤ s.now8) :
    demand d n j w s = (s.modLeg d n j fun l => l.change w s.now8 (s.getPwm d n).dt).showLegs d n :=
  (if_neg h).trans (if_neg (by simp [hpend, hheld]))

end

/-! Lock and limit of a leg (R266) -/

theorem bandLockQualified_locks (h : 8 ≤ (s.getLeg d n j).lockRun) : bandLockQualified d n j s = s.wr d BND_FMEAS.LOCKED 1 n j := if_pos h

theorem bandLockQualified_idle (h : (s.getLeg d n j).lockRun < 8) : bandLockQualified d n j s = s := if_neg (Nat.not_le.mpr h)

theorem bandLimit_limits (h : 16 ≤ (s.getLeg d n j).limRun) (hlow : s.bit d BND_FMEAS.HBLIM n j = false) :
    bandLimit d n j s = ((s.wr d BND_FMEAS.HBLIM 1 n j).wrBit d PWM_FLAGS.BANDLIM n true).raiseAx d n 24 3 :=
  if_pos ⟨h, by simp [hlow]⟩

theorem bandLimit_idle (h : (s.getLeg d n j).limRun < 16 ∨ s.bit d BND_FMEAS.HBLIM n j = true) : bandLimit d n j s = s :=
  if_neg (by rcases h with h | h <;> simp [h])

end

/-- Settles O16: each command is one branch of its operation; a duty written has arrived at once, since those under way pass no time. -/
theorem pwmPeriodsUpdatesAndLegs : Obligations.PwmPeriodsUpdatesAndLegs := by
  intro s d n j v hl hn hj
  refine ⟨fun t ht hen => onAxis_eq hl hn (pwmPeriodStart_runs ht hen), fun hen => onAxis_eq hl hn (pwmPeriodStart_stopped hen),
    fun u x y res hu hx hy hres => ⟨periodStart_noEdges hu hx hy, periodStart_edges hu hx hy hres⟩,
    fun t u ht hu hen hupd => onAxis_eq hl hn (pwmUpdatePoint_runs ht hu hen hupd), fun h => onAxis_eq hl hn (pwmUpdatePoint_idle h),
    ?duty, ?expiry, fun w => ⟨demand_same, demand_waits, demand_taken⟩, fun h => onLeg_eq hl hn hj (bandLockQualified_locks h),
    fun h => onLeg_eq hl hn hj (bandLockQualified_idle h), fun h hlow => onLeg_eq hl hn hj (bandLimit_limits h hlow),
    fun h => onLeg_eq hl hn hj (bandLimit_idle h)⟩
  case duty =>
    intro hf hh u x hu hx
    have h := pwmDutyReg_eq hu hx
    exact ⟨fun hlater => exec_pwmDutyWrite_applied hl hn hj hf hh (h.trans (if_neg (by rcases hlater with h | h <;> simp [h]))),
      fun hupd hrun => exec_pwmDutyWrite_applied hl hn hj hf hh (h.trans (if_pos ⟨hupd, hrun⟩))⟩
  case expiry =>
    intro u hu
    refine ⟨fun p h => onLeg_eq hl hn hj (deadTimeExpiry_pending hu h), fun h => onLeg_eq hl hn hj (deadTimeExpiry_none hu h),
      fun h => onLeg_eq hl hn hj (bandMinpExpiry_none hu h), fun w due x y hw hdue hx hy => ?_⟩
    have h := bandMinpExpiry_waits hu hw hdue hx hy
    exact ⟨fun hs => onLeg_eq hl hn hj (h.trans (if_neg (by simp [hs]))),
      fun hs hacts hdem => onLeg_eq hl hn hj (h.trans ((if_pos hs).trans (if_pos ⟨hacts, hdem⟩))),
      fun hs hno => onLeg_eq hl hn hj (h.trans ((if_pos hs).trans (if_neg (by rcases hno with h | h <;> simp [h]))))⟩

end Sys2Proof.Machine
end

section
/-!
The exit of an axis from its safe state, and the writes of PWM_SAFE and PWM_CTRL (R253, R254, R260, R268, R270).
-/

namespace Sys2Proof.Machine

section
variable {s t r u w z : State} {d n : Nat} {v : Word}

/-! The exit (R270) -/

/-- In PWM mode each leg goes on from the switch that the safe state holds on, or from low with the dead time ahead. -/
theorem pwmExit_eq (hu : u = s.settleAxis d n) (hw : w = (u.wr d PWM_CTRL.SAFE 0 n).modPwm d n fun x => { x with exiting := false })
    (hz : z = w.eachLeg d n fun _ l =>
      { l with st := l.hiOn, seed := true, exitAt := w.now8, lastHi := none, cyc := 0, cycDur := 0,
               pend := if (l.hiOn || l.loOn) = true then none else some (w.now8 + 8 * w.rd d PWM_DT.DT n) }) :
    pwmExit d n s = (periodStart d n z).showLegs d n := by
  subst hu hw hz
  rfl

/-- In band mode each leg takes the level that its sample and reference give, and a switch that turns on does so after DT. -/
theorem bandExit_eq {lvl : Nat → Bool}
    (hw : w = ((s.settleAxis d n).wr d PWM_CTRL.SAFE 0 n).modPwm d n fun x => { x with exiting := false })
    (hlvl : lvl = fun j => decide ((w.getConv d (6 * n + 2 + w.bandSrc d n j)).y < (w.bandNow d n j).1) !=
      bitOf (w.rd d BND_CTRL.POL n) j) :
    bandExit d n s = (w.eachLeg d n fun j l =>
      { l with st := lvl j, seed := true, exitAt := w.now8, lastHi := none, cyc := 0, cycDur := 0,
               hiOn := l.hiOn && lvl j, loOn := l.loOn && !lvl j,
               hiOff := if (l.hiOn && !lvl j) = true then w.now8 else l.hiOff,
               loOff := if (l.loOn && lvl j) = true then w.now8 else l.loOff,
               pend := if ((lvl j && l.hiOn) || (!lvl j && l.loOn)) = true then none
                 else some (w.now8 + 8 * (w.getPwm d n).dt) }).showLegs d n := by
  subst hw hlvl
  rfl

section
variable (hr : r = s.refreshAxis d n)
include hr

theorem safeStateExit_stays (h : (r.getPwm d n).exiting = false) : safeStateExit d n s = r := by
  simp only [safeStateExit, ← hr, h, Bool.not_false, if_true]

variable (hexit : (r.getPwm d n).exiting = true)
include hexit

theorem safeStateExit_pwm (hmode : r.bit d PWM_CTRL.MODE n = false) :
    safeStateExit d n s = pwmExit d n ((r.pass (r.toStart d n r.pt)).occurs (State.stepNo 5 d n)) := by
  simp only [safeStateExit, ← hr, hexit, hmode, Bool.not_true, Bool.false_eq_true, if_false]

theorem safeStateExit_band (hmode : r.bit d PWM_CTRL.MODE n = true) (hu : u = r.toGrid 250) :
    safeStateExit d n s = if u.strobed = true then bandExit d n u else u := by
  simp only [safeStateExit, ← hr, hexit, hmode, Bool.not_true, Bool.false_eq_true, if_false, if_true, ← hu]

end

/-! A write of PWM_SAFE (R268) -/

theorem pwmSafeWrite_refused (h : unsafeSetting (bitsOf v.toNat 0 12) (bitsOf v.toNat 16 6) = true) :
    pwmSafeWrite n v d s = s.raise d 448 3 n := if_pos h

theorem pwmSafeWrite_taken (h : unsafeSetting (bitsOf v.toNat 0 12) (bitsOf v.toNat 16 6) = false)
    (hu : u = (((s.settleAxis d n).holdBalls (d / 2)).wr d PWM_SAFE.LVL (bitsOf v.toNat 0 12) n).wr d PWM_SAFE.ACTLOW
      (bitsOf v.toNat 16 6) n) :
    pwmSafeWrite n v d s = if u.bit d PWM_CTRL.SAFE n = true then u.takeSafe d n else u.showLegs d n := by
  subst hu
  exact if_neg (Bool.eq_false_iff.mp h)

theorem exec_pwmSafeWrite_applied (hl : s.Live d) (hn : n < 8) (hf : s.forwards d = false) (hh : s.holds d n = true)
    (h : pwmSafeWrite n v d s = t) : exec (.pwmSafeWrite d n v) s = .next (s.commit t) :=
  onAxis_eq hl hn ((axisWrite_applied hf hh (Fld.addr_axis PWM_SAFE.LVL (k := 0) rfl (by decide) hn)).trans h)

/-! A write of PWM_CTRL (R253, R254) -/

theorem pwmFixed_iff : pwmFixed d n v s = true ↔ s.rd d PWM_CTRL.MODE n ≠ bitsOf v.toNat 1 1 ∨
    s.rd d PWM_CTRL.ALIGN n ≠ bitsOf v.toNat 2 1 ∨ s.rd d PWM_CTRL.UPD n ≠ bitsOf v.toNat 4 2 := by
  simp only [pwmFixed, Bool.or_eq_true, bne_iff_ne, or_assoc]

theorem pwmFixed_eq_false_iff : pwmFixed d n v s = false ↔ s.rd d PWM_CTRL.MODE n = bitsOf v.toNat 1 1 ∧
    s.rd d PWM_CTRL.ALIGN n = bitsOf v.toNat 2 1 ∧ s.rd d PWM_CTRL.UPD n = bitsOf v.toNat 4 2 := by
  rw [← Bool.not_eq_true, pwmFixed_iff]
  simp only [not_or, not_not]

theorem pwmCtrlWrite_refused (hen : s.bit d PWM_CTRL.EN n = true) (h : pwmFixed d n v s = true) :
    pwmCtrlWrite n v d s = s.raise d 448 3 n := if_pos (by simp [hen, h])

/-- An EN that comes on has the fast path judged. -/
theorem pwmCtrlWrite_taken (h : s.bit d PWM_CTRL.EN n = false ∨ pwmFixed d n v s = false)
    (hu : u = (((((s.settleAxis d n).wr d PWM_CTRL.MODE (bitsOf v.toNat 1 1) n).wr d PWM_CTRL.ALIGN (bitsOf v.toNat 2 1) n).wr d
      PWM_CTRL.UPD (bitsOf v.toNat 4 2) n).wr d PWM_CTRL.EN (b2n (bitOf v.toNat 0)) n).wr d PWM_CTRL.RUNNING (b2n (bitOf v.toNat 0)) n) :
    pwmCtrlWrite n v d s =
      (if bitOf v.toNat 0 = true ∧ s.bit d PWM_CTRL.EN n = false then judgeFast d n true u else u).refreshAxis d n := by
  subst hu
  have hfree : (s.bit d PWM_CTRL.EN n && pwmFixed d n v s) = false := Bool.and_eq_false_iff.mpr h
  simp only [pwmCtrlWrite, hfree, Bool.false_eq_true, if_false, Bool.and_eq_true, Bool.not_eq_true']

theorem exec_pwmCtrlWrite_applied (hl : s.Live d) (hn : n < 8) (hf : s.forwards d = false) (hh : s.holds d n = true)
    (h : pwmCtrlWrite n v d s = t) : exec (.pwmCtrlWrite d n v) s = .next (s.commit t) :=
  onAxis_eq hl hn ((axisWrite_applied hf hh (Fld.addr_axis PWM_CTRL.EN (k := 0) rfl (by decide) hn)).trans h)

end

/-- Settles O17: the exit is one of its three branches by the causes judged afresh, and each write is refused or taken. -/
theorem pwmSafeStateIsLeftAndControlIsWritten : Obligations.PwmSafeStateIsLeftAndControlIsWritten := by
  intro s d n v hl hn
  refine ⟨fun r hr => ⟨fun h => onAxis_eq hl hn (safeStateExit_stays hr h), fun u w z hexit hmode hu hw hz =>
      onAxis_eq hl hn ((safeStateExit_pwm hr hexit hmode).trans (pwmExit_eq hu hw hz)), ?band⟩, ?writes⟩
  case band =>
    intro u hexit hmode hu
    have h := safeStateExit_band hr hexit hmode hu
    exact ⟨fun hs => onAxis_eq hl hn (h.trans (if_neg (by simp [hs]))),
      fun hs w lvl hw hlvl => onAxis_eq hl hn (h.trans ((if_pos hs).trans (bandExit_eq hw hlvl)))⟩
  case writes =>
    intro hf hh
    refine ⟨fun h => exec_pwmSafeWrite_applied hl hn hf hh (pwmSafeWrite_refused h), fun u h hu => ?safe,
      fun hen h => exec_pwmCtrlWrite_applied hl hn hf hh (pwmCtrlWrite_refused hen (pwmFixed_iff.mpr h)), fun u h hu => ?ctrl⟩
    case safe =>
      have h := pwmSafeWrite_taken h hu
      exact ⟨fun hs => exec_pwmSafeWrite_applied hl hn hf hh (h.trans (if_pos hs)),
        fun hs => exec_pwmSafeWrite_applied hl hn hf hh (h.trans (if_neg (by simp [hs])))⟩
    case ctrl =>
      have h := pwmCtrlWrite_taken (h.imp_right pwmFixed_eq_false_iff.mpr) hu
      exact ⟨fun hon hwas => exec_pwmCtrlWrite_applied hl hn hf hh (h.trans (by rw [if_pos ⟨hon, hwas⟩])),
        fun hno => exec_pwmCtrlWrite_applied hl hn hf hh (h.trans (by rw [if_neg (by rcases hno with h | h <;> simp [h])]))⟩

end Sys2Proof.Machine
end

section
/-!
Role swaps: due, admitted or deferred, made or missed, and late (R271, R349 to R353).
-/

namespace Sys2Proof.Machine

section
variable {s u : State} {d t : Nat} {g : Bool} {w : Word}

/-! A swap that falls due (R351, R353) -/

theorem swapDue_unable (h : (s.getPair d).swapTs ≠ none ∨ (s.getPair d).released = true ∨ s.bit d PAIR_STAT.MREADY = false) :
    swapDue d g s = s := by
  rw [← Option.isSome_iff_ne_none] at h
  exact if_pos (by simpa only [Bool.or_eq_true, Bool.not_eq_true', or_assoc] using h)

section
variable (hts : (s.getPair d).swapTs = none) (hrel : (s.getPair d).released = false) (hready : s.bit d PAIR_STAT.MREADY = true)
include hts hrel hready

theorem swapDue_admitted (h : g = false ∨ s.bit d PWR_ADMIT.FIRM = true) : swapDue d g s =
    (s.wr d PAIR_STAT.SWPEND 0).modPair d fun p => { p with swapTs := some (swapInstant s d), dueAt := none, lateDone := false } :=
  (if_neg (by simp [hts, hrel, hready])).trans (if_pos (by simpa using h))

/-- Without admission the swap waits, and a wait that has begun goes on. -/
theorem swapDue_deferred (hgov : g = true) (hfirm : s.bit d PWR_ADMIT.FIRM = false) : swapDue d g s =
    if s.bit d PAIR_STAT.SWPEND = true then s
    else ((s.wr d PAIR_STAT.SWPEND 1).addSat d PAIR_CNT.DEFER).modPair d fun p => { p with dueAt := some s.pt, lateDone := false } :=
  (if_neg (by simp [hts, hrel, hready])).trans (if_neg (by simp [hgov, hfirm]))

end

/-! SWAP_DUE and PAIR_SWAPNOW (R351) -/

theorem swapElapsed_idle (h : s.divided d = true ∨ (s.rd d PAIR_STAT.ROLE ≠ 1 ∧ s.rd d PAIR_STAT.ROLE ≠ 4)) : swapElapsed d s = s := by
  rcases h with h | ⟨h1, h4⟩
  · simp [swapElapsed, h]
  · simp [swapElapsed, h1, h4]

theorem swapElapsed_safe (hdiv : s.divided d = false) (hrole : s.rd d PAIR_STAT.ROLE = 4) : swapElapsed d s = swapDue d false s := by
  simp [swapElapsed, hdiv, hrole]

theorem swapElapsed_active (hdiv : s.divided d = false) (hrole : s.rd d PAIR_STAT.ROLE = 1) : swapElapsed d s =
    if s.bit d PAIR_STAT.SWPEND = true then swapDue d true s
    else if s.rd d PAIR_NEXT.PT = 0 then s else swapDue d true (s.passTo (s.rd d PAIR_NEXT.PT)) := by
  simp [swapElapsed, hdiv, hrole]

theorem pairCtrlWrite_swapnow (hnow : bitOf w.toNat 16 = true)
    (hu : u = showNext d (((s.wr d PAIR_CTRL.SWINT (min (bitsOf w.toNat 0 11) 1440)).wr d PAIR_CTRL.REFAX (bitsOf w.toNat 12 3)).wr d
      PAIR_CTRL.STARTWAIT (bitsOf w.toNat 20 4))) :
    pairCtrlWrite w d s = if u.rd d PAIR_STAT.ROLE = 1 ∧ u.divided d = false then swapDue d true u else u := by
  subst hu
  simp only [pairCtrlWrite, hnow, Bool.true_and, Bool.and_eq_true, beq_iff_eq, Bool.not_eq_true']

/-! Ts (R350, R352) -/

theorem swapTs_none (h : (s.getPair d).swapTs = none) : swapTs d s = s := by
  simp only [swapTs, h]

section
variable (hts : (s.getPair d).swapTs = some t) (hu : u = s.passTo t)
include hts hu

theorem swapTs_made (hready : u.bit d PAIR_STAT.MREADY = true) (hseized : u.bit d PAIR_STAT.SEIZED = false) : swapTs d s =
    (setPads d .off ((u.pass 5).holdBalls (d / 2))).modPair d fun p =>
      { p with swapTs := none, releasing := some t, swapping := true, released := true } := by
  simp only [swapTs, hts, ← hu, hready, hseized, Bool.not_true, Bool.or_false, Bool.false_eq_true, if_false]

/-- The next interval counts from the swap not made (log entry 30). -/
theorem swapTs_missed (h : u.bit d PAIR_STAT.MREADY = false ∨ u.bit d PAIR_STAT.SEIZED = true) : swapTs d s =
    showNext d (u.modPair d fun p =>
      { p with swapTs := none, swapping := false, releasing := none, released := false, base := u.ptD d }) := by
  simp only [swapTs, hts, ← hu]
  exact if_pos (by simpa using h)

end

/-! A swap deferred for longer than an interval (R353) -/

theorem swapLate_reported (hdue : (s.getPair d).dueAt = some t) (hlate : (s.getPair d).lateDone = false)
    (hpend : s.bit d PAIR_STAT.SWPEND = true) (hint : s.swapInt d ≠ 0) : swapLate d s =
    ((s.passTo (t + s.swapInt d + 1)).modPair d fun p => { p with lateDone := true }).raise d 470 3 0 := by
  simp only [swapLate, hdue]
  exact if_neg (by simp [hlate, hpend, hint])

theorem swapLate_idle (h : (s.getPair d).dueAt = none ∨ (s.getPair d).lateDone = true ∨ s.bit d PAIR_STAT.SWPEND = false ∨
    s.swapInt d = 0) : swapLate d s = s := by
  cases hdue : (s.getPair d).dueAt with
  | none => simp only [swapLate, hdue]
  | some t =>
    simp only [swapLate, hdue]
    exact if_pos (by simpa [hdue, or_assoc] using h)

end

/-- Settles O38: a swap that falls due is one branch of `swapDue`, and each command is one branch of its operation. -/
theorem swapsAreDueAdmittedAndDone : Obligations.SwapsAreDueAdmittedAndDone := by
  intro s d hl
  refine ⟨fun g => ⟨swapDue_unable, fun hts hrel hready => ⟨swapDue_admitted hts hrel hready, fun hgov hfirm hpend => ?waits,
      fun hgov hfirm hpend => ?begins⟩⟩, ?instant, fun h => onLive_eq hl (swapElapsed_idle h),
    fun hdiv hrole => onLive_eq hl (swapElapsed_safe hdiv hrole), ?active, fun w u hw hnow hu => ?now,
    fun t u hts hu => ⟨fun hready hseized => onLive_eq hl (swapTs_made hts hu hready hseized),
      fun h => onLive_eq hl (swapTs_missed hts hu h)⟩, fun h => onLive_eq hl (swapTs_none h),
    fun t hdue hlate hpend hint => onLive_eq hl (swapLate_reported hdue hlate hpend hint), fun h => onLive_eq hl (swapLate_idle h)⟩
  case waits => exact (swapDue_deferred hts hrel hready hgov hfirm).trans (if_pos hpend)
  case begins => exact (swapDue_deferred hts hrel hready hgov hfirm).trans (if_neg (Bool.eq_false_iff.mp hpend))
  case instant =>
    rintro t n rfl rfl
    rfl
  case active =>
    intro hdiv hrole
    have h := swapElapsed_active hdiv hrole
    exact ⟨fun hpend => onLive_eq hl (h.trans (if_pos hpend)),
      fun hpend hnext => onLive_eq hl (h.trans ((if_neg (Bool.eq_false_iff.mp hpend)).trans (if_pos hnext))),
      fun hpend hnext => onLive_eq hl (h.trans ((if_neg (Bool.eq_false_iff.mp hpend)).trans (if_neg hnext)))⟩
  case now =>
    subst hw
    exact onLive_eq hl (pairCtrlWrite_swapnow hnow hu)

end Sys2Proof.Machine
end

section
/-!
The tune units (R274, R275) and the capture unit of a die (R279, R282 to R284).
-/

namespace Sys2Proof.Machine

/-! The other fields of a word into which a bit is put -/

theorem putBit_div (v k : Nat) (b : Bool) : putBit v k b / 2 ^ (k + 1) = v / 2 ^ (k + 1) := by
  have hp := Nat.two_pow_pos k
  rw [Nat.pow_succ, ← Nat.div_div_eq_div_mul, ← Nat.div_div_eq_div_mul]
  unfold putBit bitOf
  split
  · rfl
  · next h =>
    cases b with
    | true =>
      have hclear : v / 2 ^ k % 2 ≠ 1 := by simpa using h
      rw [if_pos rfl, Nat.add_div_right _ hp]
      omega
    | false =>
      have hset : v / 2 ^ k % 2 = 1 := by simpa using h
      have hsub : (v - 2 ^ k) / 2 ^ k = v / 2 ^ k - 1 := by simpa using Nat.sub_mul_div v (2 ^ k) 1
      rw [if_neg Bool.false_ne_true, hsub]
      generalize v / 2 ^ k = q at hset ⊢
      omega

theorem putBit_mod (v k : Nat) (b : Bool) : putBit v k b % 2 ^ k = v % 2 ^ k := by
  unfold putBit
  split
  · rfl
  · next h =>
    cases b with
    | true => rw [if_pos rfl, Nat.add_mod_right]
    | false =>
      have hset : v.testBit k = true := by simpa [bitOf_eq_testBit] using h
      rw [if_neg Bool.false_ne_true, ← Nat.mod_eq_sub_mod (Nat.ge_two_pow_of_testBit hset)]

theorem bitsOf_eq_of_mod_eq {x y k lo w : Nat} (h : x % 2 ^ k = y % 2 ^ k) (hk : lo + w ≤ k) : bitsOf x lo w = bitsOf y lo w := by
  have hcut (z : Nat) : bitsOf z lo w = z % 2 ^ k % 2 ^ (lo + w) / 2 ^ lo := by
    rw [bitsOf, Nat.mod_mod_of_dvd _ (Nat.pow_dvd_pow 2 hk), Nat.pow_add, Nat.mod_mul_right_div_self]
  rw [hcut, hcut, h]

theorem bitsOf_eq_of_div_eq {x y k lo w : Nat} (h : x / 2 ^ k = y / 2 ^ k) (hk : k ≤ lo) : bitsOf x lo w = bitsOf y lo w := by
  obtain ⟨r, rfl⟩ := Nat.le.dest hk
  simp only [bitsOf, Nat.pow_add, ← Nat.div_div_eq_div_mul, h]

theorem bitsOf_putBit_other {k lo w : Nat} (v : Nat) (b : Bool) (h : lo + w ≤ k ∨ k < lo) :
    bitsOf (putBit v k b) lo w = bitsOf v lo w :=
  h.elim (bitsOf_eq_of_mod_eq (putBit_mod v k b)) (bitsOf_eq_of_div_eq (putBit_div v k b))

theorem bitsOf_ofNat_putBit_other {k lo w : Nat} (v : Nat) (b : Bool) (hw : lo + w ≤ 32) (h : lo + w ≤ k ∨ k < lo) :
    bitsOf (BitVec.ofNat 32 (putBit v k b)).toNat lo w = bitsOf v lo w := by
  rw [BitVec.toNat_ofNat, bitsOf_eq_of_mod_eq (Nat.mod_mod _ _) hw, bitsOf_putBit_other v b h]

/-- A field of one register word is its bits of that word. -/
theorem State.rd_eq_bitsOf (s : State) (d : Nat) {f : Fld} (hf : f.nw = 1) :
    s.rd d f = bitsOf (s.reg (f.addr d 0 0)).toNat (f.lo % 32) f.w := by
  simp [State.rd, hf, State.words, bitsOf]

section
variable {s u w x : State} {d n : Nat} {v : Word}

/-! Tunes (R274, R275) -/

/-- A tune is in progress in STATE 1 to 3. -/
def tuning (s : State) (d n : Nat) : Prop := s.rd d TUNE_STAT.STATE n = 1 ∨ s.rd d TUNE_STAT.STATE n = 2 ∨ s.rd d TUNE_STAT.STATE n = 3

theorem tuneFail_tuning (h : tuning s d n) (c : Nat) :
    tuneFail d n c s = ((s.wr d TUNE_STAT.STATE 5 n).wr d TUNE_STAT.CAUSE c n).raiseAx d n 26 3 := if_pos h

theorem tuneFail_idle (h : ¬ tuning s d n) (c : Nat) : tuneFail d n c s = s := if_neg h

theorem tuneTimeout_tuning (h : tuning s d n) :
    tuneTimeout d n s = tuneFail d n 1 (s.pass ((s.getTune d n).startAt + max 1 (s.rd d TUNE_LIMIT.TMAX n) * 2500000 - s.ptD d)) :=
  if_pos h

theorem tuneTimeout_idle (h : ¬ tuning s d n) : tuneTimeout d n s = s := if_neg h

section
variable (hu : u = (((s.wr d TUNE_CTRL.RSLOT (bitsOf v.toNat 0 7) n).wr d TUNE_CTRL.PSLOT (bitsOf v.toNat 8 7) n).wr d TUNE_CTRL.NCYC
    (bitsOf v.toNat 16 4) n).wr d TUNE_CTRL.WRITE (bitsOf v.toNat 26 1) n)
  (hx : x = if bitOf v.toNat 25 = true then tuneFail d n 7 u else u)
include hu hx

theorem tuneCtrlWrite_noStart (hs : bitOf v.toNat 24 = false) : tuneCtrlWrite n v d s = x := by
  simp only [tuneCtrlWrite, ← hu, ← hx, hs, Bool.not_false, if_true]

theorem tuneCtrlWrite_refused (hs : bitOf v.toNat 24 = true) (hmay : tuneMay x d n (bitsOf v.toNat 0 7) (bitsOf v.toNat 8 7) = false) :
    tuneCtrlWrite n v d s = ((x.wr d TUNE_STAT.STATE 5 n).wr d TUNE_STAT.CAUSE 8 n).raiseAx d n 26 3 := by
  simp only [tuneCtrlWrite, ← hu, ← hx, hs, hmay, Bool.not_true, Bool.not_false, Bool.false_eq_true, if_false, if_true]

section
variable (hs : bitOf v.toNat 24 = true) (hmay : tuneMay x d n (bitsOf v.toNat 0 7) (bitsOf v.toNat 8 7) = true)
include hs hmay

/-- A START in progress is ignored (log entry 25). -/
theorem tuneCtrlWrite_goesOn (h : tuning x d n) : tuneCtrlWrite n v d s = x := by
  simp only [tuneCtrlWrite, ← hu, ← hx, hs, hmay, Bool.not_true, Bool.false_eq_true, if_false]
  exact if_pos h

theorem tuneCtrlWrite_begins (h : ¬ tuning x d n) (hw : w = (x.wr d TUNE_STAT.STATE 1 n).wr d TUNE_STAT.ACC 0 n) :
    tuneCtrlWrite n v d s =
      w.modTune d n fun _ => { rs := bitsOf v.toNat 0 7, ps := bitsOf v.toNat 8 7, startAt := w.ptD d } := by
  subst hw
  simp only [tuneCtrlWrite, ← hu, ← hx, hs, hmay, Bool.not_true, Bool.false_eq_true, if_false]
  exact if_neg h

end

end

/-- A write of TUNE_CTRL lies in its axis's set. -/
theorem axisWrite_tuneCtrl {f : Nat → State → State} (hn : n < 8) (hf : s.forwards d = false) (hh : s.holds d n = true) :
    axisWrite d (TUNE_CTRL.RSLOT.addr 0 n 0) v f s = f d s :=
  axisWrite_applied hf hh (Fld.addr_axis TUNE_CTRL.RSLOT (k := 0) rfl (by decide) hn)

/-! RUN of the capture unit (R279, R282, R284) -/

/-- The word that TRC_RUN_WRITE writes names RUN and has every setting as it stands. -/
theorem trcRunWord_fields {run : Bool} (hv : v = BitVec.ofNat 32 (putBit (s.reg (TRC_CTRL.RUN.addr d 0 0)).toNat 8 run)) :
    bitOf v.toNat 8 = run ∧ bitsOf v.toNat 0 2 = s.rd d TRC_CTRL.DEST ∧ bitsOf v.toNat 2 1 = s.rd d TRC_CTRL.FMT ∧
      bitsOf v.toNat 16 6 = s.rd d TRC_CTRL.CEXP := by
  subst hv
  have hfield (f : Fld) (hf : f.nw = 1) (hw : f.lo % 32 + f.w ≤ 32) (h : f.lo % 32 + f.w ≤ 8 ∨ 8 < f.lo % 32)
      (ha : f.addr d 0 0 = TRC_CTRL.RUN.addr d 0 0) :
      bitsOf (BitVec.ofNat 32 (putBit (s.reg (TRC_CTRL.RUN.addr d 0 0)).toNat 8 run)).toNat (f.lo % 32) f.w = s.rd d f := by
    rw [bitsOf_ofNat_putBit_other _ _ hw h, State.rd_eq_bitsOf s d hf, ha]
  exact ⟨bitOf_ofNat_putBit _ (by decide) run, hfield TRC_CTRL.DEST rfl (by decide) (by decide) rfl,
    hfield TRC_CTRL.FMT rfl (by decide) (by decide) rfl, hfield TRC_CTRL.CEXP rfl (by decide) (by decide) rfl⟩

section
variable {run : Bool} (hv : v = BitVec.ofNat 32 (putBit (s.reg (TRC_CTRL.RUN.addr d 0 0)).toNat 8 run))
include hv

theorem trcCtrlWrite_running (hrun : s.bit d TRC_CTRL.RUN = true) :
    trcCtrlWrite v d s = if run = true then s else s.wr d TRC_CTRL.RUN 0 := by
  obtain ⟨hbit, hdest, hfmt, hcexp⟩ := trcRunWord_fields hv
  cases run <;> simp [trcCtrlWrite, hrun, hbit, hdest, hfmt, hcexp]

section
variable (hrun : s.bit d TRC_CTRL.RUN = false)
  (hu : u = ((s.wr d TRC_CTRL.DEST (s.rd d TRC_CTRL.DEST)).wr d TRC_CTRL.FMT (s.rd d TRC_CTRL.FMT)).wr d TRC_CTRL.CEXP (s.rd d TRC_CTRL.CEXP))
include hrun hu

theorem trcCtrlWrite_stopped (hoff : run = false) : trcCtrlWrite v d s = u.wr d TRC_CTRL.RUN 0 := by
  obtain ⟨hbit, hdest, hfmt, hcexp⟩ := trcRunWord_fields hv
  subst hoff
  simp only [trcCtrlWrite, hrun, hbit, hdest, hfmt, hcexp, ← hu, Bool.false_and, Bool.not_false, Bool.false_eq_true, if_false, if_true]

/-- The capture starts afresh behind the records that still wait to be moved on (log entry 28). -/
theorem trcCtrlWrite_starts (hon : run = true)
    (hx : x = (((u.wr d TRC_CTRL.RUN 1).wr d TRC_STAT.ARMED 1).wr d TRC_STAT.DONE 0).modTrc d fun t =>
      { recs := t.recs.filter fun r => r.dest ≠ 0,
        wp := match (t.recs.filter fun r => r.dest ≠ 0).getLast? with | some r => (r.start + r.len) % trcSize | none => 0,
        gapD := t.gapD, dropRunD := t.dropRunD }) :
    trcCtrlWrite v d s =
      if x.rd d TRC_CTRL.DEST = 0 ∨ x.rd d TRC_CTRL.DEST = 3 then x.wr d TRC_WPTR.PTR (x.getTrc d).wp else x := by
  obtain ⟨hbit, hdest, hfmt, hcexp⟩ := trcRunWord_fields hv
  subst hon hx
  simp only [trcCtrlWrite, hrun, hbit, hdest, hfmt, hcexp, ← hu, Bool.not_false, Bool.and_true, Bool.false_eq_true, if_false, if_true,
    trcOnChip, Bool.or_eq_true, beq_iff_eq] <;> rfl

end

end

/-! ARM and FIRE (R283, R284) -/

/-- The settings of TRC_TRIG are its word without ARM and FIRE. -/
theorem trcSettings_eq (v : Word) : v.toNat - bitsOf v.toNat 6 2 * 64 = bitsOf v.toNat 0 6 + 256 * bitsOf v.toNat 8 24 := by
  have := v.isLt
  simp only [bitsOf]
  omega

/-- A word that differs from TRC_TRIG in ARM or FIRE alone has its settings. -/
theorem trcSettings_putBit {k : Nat} (hk : k = 6 ∨ k = 7) (y : Word) (hv : v = BitVec.ofNat 32 (putBit y.toNat k true)) :
    v.toNat - bitsOf v.toNat 6 2 * 64 = y.toNat - bitsOf y.toNat 6 2 * 64 := by
  subst hv
  rw [trcSettings_eq, trcSettings_eq, bitsOf_ofNat_putBit_other _ _ (by decide) (by omega),
    bitsOf_ofNat_putBit_other _ _ (by decide) (by omega)]

theorem bitsOf_armFire_ne_zero {k : Nat} (hk : k = 6 ∨ k = 7) (h : bitOf v.toNat k = true) : bitsOf v.toNat 6 2 ≠ 0 := by
  simp only [bitOf, bitsOf, beq_iff_eq] at h ⊢
  rcases hk with rfl | rfl <;> omega

/-- With the settings as they stand nothing is reported; with RUN = 0 they are stored without ARM and FIRE. -/
theorem trcTrigWrite_eq {k : Nat} (hk : k = 6 ∨ k = 7)
    (hv : v = BitVec.ofNat 32 (putBit (s.reg (TRC_TRIG.SRC.addr d 0 0)).toNat k true))
    (hu : u = if s.bit d TRC_CTRL.RUN = false then
      s.setReg (TRC_TRIG.SRC.addr d 0 0) (BitVec.ofNat 32 (v.toNat - bitsOf v.toNat 6 2 * 64)) else s)
    (hw : w = if bitOf v.toNat 6 = true then u.wr d TRC_STAT.ARMED 1 else u) :
    trcTrigWrite v d s = if bitOf v.toNat 7 = true ∧ w.rd d TRC_TRIG.SRC = 1 then trcTrigger d true w else w := by
  have hset := trcSettings_putBit hk _ hv
  have hbits : bitsOf v.toNat 6 2 ≠ 0 :=
    bitsOf_armFire_ne_zero hk (hv ▸ bitOf_ofNat_putBit _ (by omega) true)
  subst hu hw
  simp only [trcTrigWrite, hset, bne_iff_ne.mpr hbits, Bool.not_eq_true', decide_true, Bool.and_true, if_true]

/-! The trigger (R283) -/

theorem trcTrigger_unarmed (h : s.bit d TRC_STAT.ARMED = false) (mark : Bool) : trcTrigger d mark s = s := if_neg (by simp [h])

section
variable (h : s.bit d TRC_STAT.ARMED = true) (hu : u = (s.wr d TRC_STAT.ARMED 0).wr d TRC_STAT.TRIGD 1)
include h hu

/-- POST = 0 ends the capture of the on-chip buffer at once (log entry 28). -/
theorem trcTrigger_ends (hchip : trcOnChip u d = true) (hpost : u.rd d TRC_TRIG.POST = 0) :
    trcTrigger d true s = u.wr d TRC_STAT.DONE 1 := by
  subst hu
  simp [trcTrigger, h, hchip, hpost]

theorem trcTrigger_marks (hgo : trcOnChip u d = false ∨ u.rd d TRC_TRIG.POST ≠ 0) :
    trcTrigger d true s = u.modTrc d fun t => { t with mark := true } := by
  have hnot : (true && trcOnChip u d && u.rd d TRC_TRIG.POST == 0) = false := by simpa [imp_iff_not_or] using hgo
  simp only [trcTrigger, h, if_true, ← hu, hnot, Bool.false_eq_true, if_false, Bool.or_true]

end

end

/-- Settles O20: each command is a write of its control word, and each write is one branch of its operation. -/
theorem tuneAndCaptureUnits : Obligations.TuneAndCaptureUnits := by
  intro s d n hl hn
  refine ⟨fun hf hh => ⟨onAxis_eq hl hn (axisWrite_tuneCtrl hn hf hh), onAxis_eq hl hn (axisWrite_tuneCtrl hn hf hh)⟩,
    fun v u x hu hx => ⟨tuneCtrlWrite_noStart hu hx, tuneCtrlWrite_refused hu hx, fun hs hmay =>
      ⟨tuneCtrlWrite_goesOn hu hx hs hmay, fun h => tuneCtrlWrite_begins hu hx hs hmay h rfl⟩⟩,
    fun _ _ _ => rfl, fun h => ⟨tuneFail_tuning h, onAxis_eq hl hn (tuneTimeout_tuning h)⟩,
    fun h => ⟨tuneFail_idle h, onAxis_eq hl hn (tuneTimeout_idle h)⟩,
    fun hrun => ⟨onLive_eq hl (trcCtrlWrite_running rfl hrun), onLive_eq hl (trcCtrlWrite_running rfl hrun)⟩,
    fun hrun u hu => ⟨onLive_eq hl (trcCtrlWrite_stopped rfl hrun hu rfl),
      fun x hx => onLive_eq hl (trcCtrlWrite_starts rfl hrun hu rfl hx)⟩,
    fun v u hv hu => onLive_eq hl ?arm, fun v u w hv hu hw => onLive_eq hl ?fire, trcTrigger_unarmed,
    fun h u hu => ⟨trcTrigger_ends h hu, trcTrigger_marks h hu⟩⟩
  case arm =>
    have harm : bitOf v.toNat 6 = true := hv ▸ bitOf_ofNat_putBit _ (by decide) true
    rw [← hv]
    exact trcTrigWrite_eq (.inl rfl) hv rfl (hu.trans (if_pos harm).symm)
  case fire =>
    have hfire : bitOf v.toNat 7 = true := hv ▸ bitOf_ofNat_putBit _ (by decide) true
    rw [← hv, trcTrigWrite_eq (.inr rfl) hv hu hw]
    simp only [hfire, true_and]

end Sys2Proof.Machine
end

section
/-!
The memory channels (R424 to R428) and the close of a ledger segment (R311).
-/

namespace Sys2Proof.Machine

/-- A one-bit field reads as its truth value. -/
theorem State.rd_eq_b2n_bit (s : State) (d : Nat) {f : Fld} (hf : f.w = 1) (n i : Nat) : s.rd d f n i = b2n (s.bit d f n i) := by
  have hlt : s.rd d f n i < 2 := by
    have := Nat.mod_lt (s.words (f.addr d n i) f.nw / 2 ^ (f.lo % 32)) (Nat.two_pow_pos f.w)
    simpa only [State.rd, hf] using this
  simp only [State.bit, b2n, beq_iff_eq]
  split <;> omega

section
variable {s u : State} {d : Nat}

/-! Training, loss and return (R424 to R426) -/

theorem ddrTraining_idle {ok : Bool} {size : Nat}
    (h : s.bit d MEM_CTRL.EN = false ∨ s.rd d GLB_PHASE.PHASE = 0 ∨ s.bit d MEM_STAT.UP = true) : ddrTraining d ok size s = s :=
  if_pos (by simpa [or_assoc] using h)

theorem ddrTraining_runs (hen : s.bit d MEM_CTRL.EN = true) (hphase : s.rd d GLB_PHASE.PHASE ≠ 0) (hup : s.bit d MEM_STAT.UP = false)
    (ok : Bool) (size : Nat) : ddrTraining d ok size s =
      if ok = true then memJoin d (s.modMem d fun m => { m with size := min size 32 }) else (s.wr d MEM_STAT.UP 0).raise d 528 3 0 :=
  if_neg (by simp [hen, hphase, hup])

theorem memChannelReturn_joins (hup : s.bit d MEM_STAT.UP = false) (hwas : (s.getMem d).was = true) :
    memChannelReturn d s = memJoin d s := if_pos (by simp [hup, hwas])

theorem memChannelReturn_idle (h : s.bit d MEM_STAT.UP = true ∨ (s.getMem d).was = false) : memChannelReturn d s = s :=
  if_neg (by rcases h with h | h <;> simp [h])

theorem memChannelLoss_up (h : s.bit d MEM_STAT.UP = true) : memChannelLoss d s = memFail d (s.wr d MEM_STAT.UP 0) := if_pos h

theorem memChannelLoss_down (h : s.bit d MEM_STAT.UP = false) : memChannelLoss d s = s := if_neg (by simp [h])

theorem patrolScrub_up (found : List (Nat × Nat)) (h : s.bit d MEM_STAT.UP = true) :
    patrolScrub d found s = found.foldl (fun s e => eccRead d (e.1 % 2 ^ 35) e.2 s) s := if_pos h

theorem patrolScrub_down (found : List (Nat × Nat)) (h : s.bit d MEM_STAT.UP = false) : patrolScrub d found s = s := if_neg (by simp [h])

/-! The ledger's segments (R311) -/

/-- The word that LEDG_CLOSE writes names EN as it stands, and CLOSE. -/
theorem ledgCloseWord_fields {v : Word} (hv : v = BitVec.ofNat 32 (s.rd d LEDG_CTL.EN + 2)) :
    v.toNat % 2 = s.rd d LEDG_CTL.EN ∧ bitOf v.toNat 0 = s.bit d LEDG_CTL.EN ∧ bitOf v.toNat 1 = true := by
  subst hv
  rw [s.rd_eq_b2n_bit d rfl]
  cases s.bit d LEDG_CTL.EN <;> decide

/-- EN is written as it stands, and only the serving die's open segment closes. -/
theorem ledgClose_eq (hu : u = s.wr d LEDG_CTL.EN (s.rd d LEDG_CTL.EN)) :
    ledgCtlWrite (BitVec.ofNat 32 (s.rd d LEDG_CTL.EN + 2)) d s =
      if s.dramSrv ≠ some d then u
      else if s.bit d LEDG_CTL.EN = true then ledgClose d u else { u with ledg := { u.ledg with open_ := false } } := by
  obtain ⟨hword, hen, hclose⟩ := ledgCloseWord_fields (s := s) (d := d) rfl
  have hsrv : u.dramSrv = s.dramSrv := by rw [hu, State.wr_eq]
  simp only [ledgCtlWrite, hword, hen, hclose, ← hu, hsrv]
  cases s.bit d LEDG_CTL.EN <;> simp

theorem ledgerSegmentClose_full {c : Nat} (hc : s.dramSrv = some c) (hopen : s.ledg.open_ = true) (hslot : s.ledg.slot = 32768) :
    ledgerSegmentClose s = ledgClose c s := by
  simp [ledgerSegmentClose, hc, hopen, hslot]

theorem ledgerSegmentClose_idle (h : s.dramSrv = none ∨ s.ledg.open_ = false ∨ s.ledg.slot ≠ 32768) : ledgerSegmentClose s = s := by
  cases hc : s.dramSrv with
  | none => simp only [ledgerSegmentClose, hc]
  | some c =>
    simp only [ledgerSegmentClose, hc]
    exact if_neg (by rcases h with h | h | h <;> simp_all)

/-! The mirror (R425) -/

theorem mirrorCopy_copies {m n k : Nat} (hm : mirrorOf s = some m) (hdefer : s.deferOk (1 - m) = true)
    (hsync : s.bit (1 - m) MEM_STAT.MSYNC = false) (hk : k = min n (s.dramCap (1 - m) - (s.getMem m).copied)) :
    mirrorCopy n s = (copyDram (1 - m) m (s.getMem m).copied k (s.pass ((k * 5 + 3) / 4))).modMem m fun x =>
      { x with copied := (s.getMem m).copied + k } := by
  subst hk
  simp only [mirrorCopy, hm]
  exact if_neg (by simp [hdefer, hsync])

theorem mirrorCopy_idle (n : Nat) (h : mirrorOf s = none ∨ ∃ m, mirrorOf s = some m ∧
    (s.deferOk (1 - m) = false ∨ s.bit (1 - m) MEM_STAT.MSYNC = true)) : mirrorCopy n s = s := by
  rcases h with hm | ⟨m, hm, h⟩
  · simp only [mirrorCopy, hm]
  · simp only [mirrorCopy, hm]
    exact if_pos (by simpa using h)

theorem mirrorDone_copied {m : Nat} (hm : mirrorOf s = some m) (h : s.dramCap m ≤ (s.getMem m).copied) :
    mirrorDone s = (s.wr 0 MEM_STAT.MSYNC 1).wr 1 MEM_STAT.MSYNC 1 := by
  simp only [mirrorDone, hm, if_pos h]
  rfl

theorem mirrorDone_idle (h : mirrorOf s = none ∨ ∃ m, mirrorOf s = some m ∧ (s.getMem m).copied < s.dramCap m) : mirrorDone s = s := by
  rcases h with hm | ⟨m, hm, h⟩
  · simp only [mirrorDone, hm]
  · simp only [mirrorDone, hm, if_neg (Nat.not_le.mpr h)]

/-! Accesses and their code (R427, R428) -/

section
variable {a k ecc : Nat} {bs : List Byte}

theorem dramAccess_write {c : Nat} (hc : s.dramSrv = some c) :
    dramAccess a k true bs ecc s = (s.rangeCheck c a bs.length).putDram c a bs := by
  simp [dramAccess, State.dramWrite, hc]

theorem dramAccess_read {c : Nat} (hc : s.dramSrv = some c) :
    dramAccess a k false bs ecc s = (eccRead c a ecc (s.rangeCheck c a k)).answer (leNum (s.dramBytes c a k)) := by
  simp [dramAccess, State.dramRead, hc]

theorem dramAccess_unserved (wr : Bool) (hc : s.dramSrv = none) :
    dramAccess a k wr bs ecc s = if wr = true then s else s.answer 0 := by
  simp [dramAccess, State.dramWrite, hc]

section
variable (hu : u = s.inject d 5 529 5 a)
include hu

theorem eccRead_good : eccRead d a 0 s = u := by
  subst hu
  rfl

theorem eccRead_corrected (h : ecc = 1 ∨ ecc = 3 ∧ u.bit d MEM_STAT.MSYNC = true) : eccRead d a ecc s = u.addSat d MEM_ECC.COR := by
  subst hu
  exact if_pos h

theorem eccRead_uncorrected (h : ecc = 2 ∨ ecc = 3 ∧ u.bit d MEM_STAT.MSYNC = false) :
    eccRead d a ecc s = ((u.addSat d MEM_ECC.UNC).wr d MEM_ECCADDR.ADDR a).raise d 529 5 a := by
  subst hu
  exact (if_neg (by rcases h with rfl | ⟨rfl, h⟩ <;> simp [*])).trans (if_pos (h.imp_right And.left))

end

end

end

/-- Settles O21: each command is one branch of its operation. -/
theorem memoryChannelsTrainLoseMirrorAndScrub : Obligations.MemoryChannelsTrainLoseMirrorAndScrub := by
  intro s d hd hd2
  have hitem : (d < 2 && s.hasDie d : Bool) = true := by simp [hd, hd2]
  refine ⟨fun hr => ?running, fun h => onItem_eq hitem (memChannelLoss_up h), fun h => onItem_eq hitem (memChannelLoss_down h),
    fun m n k hm hdefer hsync hk => onPackage_eq (mirrorCopy_copies hm hdefer hsync hk), fun n h => onPackage_eq (mirrorCopy_idle n h),
    fun m hm h => onPackage_eq (mirrorDone_copied hm h), fun h => onPackage_eq (mirrorDone_idle h),
    fun a k bs ecc c hc => ⟨onPackage_eq (dramAccess_write hc), onPackage_eq (dramAccess_read hc)⟩,
    fun a k bs ecc hc => ⟨onPackage_eq (dramAccess_unserved true hc), onPackage_eq (dramAccess_unserved false hc)⟩,
    fun a ecc u hu => ⟨fun h => h ▸ eccRead_good hu, eccRead_corrected hu, eccRead_uncorrected hu⟩,
    fun c hc hopen hslot => onPackage_eq (ledgerSegmentClose_full hc hopen hslot), fun h => onPackage_eq (ledgerSegmentClose_idle h)⟩
  case running =>
    have hl : s.Live d := ⟨hd, hr⟩
    refine ⟨fun size hen hphase hup => ⟨onItem_live_eq hl hitem (ddrTraining_runs hen hphase hup true size),
        onItem_live_eq hl hitem (ddrTraining_runs hen hphase hup false size)⟩, fun ok size h => onItem_live_eq hl hitem (ddrTraining_idle h),
      fun hup hwas => onItem_live_eq hl hitem (memChannelReturn_joins hup hwas), fun h => onItem_live_eq hl hitem (memChannelReturn_idle h),
      fun found h => onItem_live_eq hl hitem (patrolScrub_up found h), fun found h => onItem_live_eq hl hitem (patrolScrub_down found h),
      fun u hu => ?close⟩
    have h := ledgClose_eq hu
    exact ⟨fun hen hsrv => onItem_live_eq hl hitem (h.trans (by simp [hen, hsrv])), fun hsrv => onItem_live_eq hl hitem (h.trans (if_pos hsrv)),
      fun hen hsrv => onItem_live_eq hl hitem (h.trans (by simp [hen, hsrv]))⟩

end Sys2Proof.Machine
end

section
/-!
The package side of faults (R292, R302, R303), ledger records (R308, R312, R438) and the self-test (R322, R323).
-/

namespace Sys2Proof.Machine

section
variable {s u v : State} {d : Nat}

theorem safeLine_iff (s : State) : safeLine s = true ↔
    ∃ e, e < s.dies ∧ ((s.getDie e).holdSafeLine = true ∨ ∃ x ∈ inForce s e, 6 ≤ x.sev) := by
  simp [safeLine]

/-! Package first errors (R303) -/

/-- Message `m` is better than the package first error that die `d` holds: earlier, or as early and of a higher severity, or as severe
and of a lower source. -/
abbrev beatsHeld (s : State) (d : Nat) (m : PkgMsg) : Prop :=
  s.bit d FLT_PKGFIRST.VALID = false ∨ m.stamp < s.rd d FLT_PKGFIRSTPT.PT ∨ (m.stamp = s.rd d FLT_PKGFIRSTPT.PT ∧
    (s.rd d FLT_PKGFIRST.SEV < m.sev ∨ (s.rd d FLT_PKGFIRST.SEV = m.sev ∧ m.src < s.rd d FLT_PKGFIRST.SRC)))

theorem compete_eq (m : PkgMsg) (d : Nat) (s : State) : compete d m s =
    if m.stamp < (s.getFlt d).pkgFrom ∨ ¬ beatsHeld s d m then s
    else ((((s.wr d FLT_PKGFIRST.SRC m.src).wr d FLT_PKGFIRST.KIND m.kind).wr d FLT_PKGFIRST.SEV m.sev).wr d FLT_PKGFIRST.VALID 1).wr d
      FLT_PKGFIRSTPT.PT m.stamp := by
  simp only [compete, beatsHeld, Bool.or_eq_true, Bool.and_eq_true, Bool.not_eq_true', decide_eq_true_eq, beq_iff_eq,
    ← Bool.not_eq_true, or_assoc]

theorem pkgFirstMessage_takes {m : PkgMsg} {q : List PkgMsg} (h : (s.getFlt d).pkgIn = m :: q)
    (hu : u = s.modFlt d fun f => { f with pkgIn := q }) : pkgFirstMessage d s = compete d m u := by
  simp only [pkgFirstMessage, h, hu]

theorem pkgFirstMessage_none (h : (s.getFlt d).pkgIn = []) : pkgFirstMessage d s = s := by
  simp only [pkgFirstMessage, h]

theorem pkgClearTick_announced {t : Nat} {q : List Nat} (h : s.pkgClear = t :: q) (hu : u = { s.passTo t with pkgClear := q }) :
    pkgClearTick s = u.forEach u.liveDies fun d s =>
      if s.bit d FLT_PKGFIRST.VALID = true ∧ t ≤ s.rd d FLT_PKGFIRSTPT.PT then s.modFlt d fun f => { f with pkgFrom := t } else
      (((((s.wr d FLT_PKGFIRST.SRC 0).wr d FLT_PKGFIRST.KIND 0).wr d FLT_PKGFIRST.SEV 0).wr d FLT_PKGFIRST.VALID 0).wr d
        FLT_PKGFIRSTPT.PT 0).modFlt d fun f => { f with pkgFrom := t } := by
  subst hu
  simp only [pkgClearTick, h, Bool.and_eq_true, decide_eq_true_eq]

theorem pkgClearTick_none (h : s.pkgClear = []) : pkgClearTick s = s := by
  simp only [pkgClearTick, h]

/-! Ledger records (R308, R312, R438) -/

theorem ledgRoom_srv {c : Nat} (h : ledgRoom s = some c) : s.dramSrv = some c := (Option.filter_eq_some_iff.mp h).1

theorem ledgerRecord_unserved (hsrv : s.dramSrv = none) (hq : s.getLedq d ≠ []) :
    ledgerRecord d s = ledgLose d (s.modLedq d fun q => q.drop 1) := if_pos (by simp [hsrv, hq])

/-- An assertion written can open a protected window (R438). -/
theorem ledgerRecord_reaches {c : Nat} {e : LedgEnt} {q : List LedgEnt} (hc : ledgRoom s = some c) (hq : s.getLedq d = e :: q)
    (hr : s.reach d c = true) (hu : u = lostRecord d c s) (hv : v = ledgWrite c e (u.modLedq d fun _ => q)) : ledgerRecord d s =
      if ledgRoom u = none then u
      else if e.msg / 65536 % 32 ≠ 2 ∧ e.msg / 65536 % 32 ≤ 8 then stkTrigger c (e.tail % 8192) e.pt v else v := by
  simp only [ledgerRecord, ledgRoom_srv hc, hc, hq, hr, reduceCtorEq, decide_false, Bool.false_and, Bool.not_true,
    Bool.false_eq_true, if_false, ← hu, ← hv]
  cases ledgRoom u with
  | none => rw [if_pos rfl]
  | some _ => rw [if_neg (Option.some_ne_none _)]

theorem ledgerRecord_idle (h : s.getLedq d = [] ∨ (s.dramSrv ≠ none ∧ (ledgRoom s = none ∨ ∃ c, ledgRoom s = some c ∧ s.reach d c = false))) :
    ledgerRecord d s = s := by
  rcases h with hq | ⟨hsrv, hc | ⟨c, hc, hr⟩⟩
  · cases hc : ledgRoom s <;> simp [ledgerRecord, hq, hc]
  · simp [ledgerRecord, hsrv, hc]
  · cases hq : s.getLedq d <;> simp [ledgerRecord, hsrv, hc, hq, hr]

/-! The self-test of the comparators (R322, R323) -/

theorem selfTest_split (dead : Nat) (h : (s.getDie d).split = true) : selfTest d dead s = s := if_pos h

theorem selfTest_runs {dead fail : Nat} (h : (s.getDie d).split = false)
    (hfail : fail = 65535 - compareWords dead (s.getLawDie d).word ((s.getLawDie d).word ^^^ testMask (s.getLawDie d).tests))
    (hu : u = if 1024 ≤ (s.getLawDie d).cps then s else s.passTo ((s.getLawDie d).testAt + 2500000))
    (hv : v = u.modLawDie d fun l =>
      { l with cps := 0, testAt := u.pt, tests := l.tests + 1, fails := if fail = 0 then l.fails else min 255 (l.fails + 1) }) :
    selfTest d dead s = if fail = 0 then v else v.raise d 434 6 fail := by
  subst hfail hu hv
  exact if_neg (by simp [h])

end

/-- Settles O32: each command is one branch of its operation. -/
theorem packageFaultsAndTheLedger : Obligations.PackageFaultsAndTheLedger := by
  intro s d hl
  refine ⟨rfl, safeLine_iff s, fun m q u hq hu => ?first, fun h => onLive_eq hl (pkgFirstMessage_none h), onLive_live hl, onLive_live hl,
    fun t q u h hu => onPackage_eq (pkgClearTick_announced h hu), fun h => onPackage_eq (pkgClearTick_none h),
    fun c e q u v hc hq hr hu hv => ?record, fun hsrv hq => onLive_eq hl (ledgerRecord_unserved hsrv hq),
    fun h => onLive_eq hl (ledgerRecord_idle h), fun dead h => onLive_eq hl (selfTest_split dead h),
    fun dead fail u v h hfail hu hv => onLive_eq hl (selfTest_runs h hfail hu hv)⟩
  case first =>
    have h := (pkgFirstMessage_takes hq hu).trans (compete_eq m d u)
    exact ⟨fun hdrop => onLive_eq hl (h.trans (if_pos hdrop)),
      fun hfrom hbeats => onLive_eq hl (h.trans (if_neg (not_or.mpr ⟨Nat.not_lt.mpr hfrom, not_not.mpr hbeats⟩)))⟩
  case record =>
    have h := ledgerRecord_reaches hc hq hr hu hv
    exact ⟨fun hroom => onLive_eq hl (h.trans (if_pos hroom)), fun hroom => onLive_eq hl (h.trans (if_neg hroom))⟩

end Sys2Proof.Machine
end

section
/-!
The CSR commands of a hart (R325, R331 to R333).
-/

namespace Sys2Proof.Machine

section
variable {s t u : State} {d h : Nat}

/-! Commands of a hart -/

theorem onHart_stopped (hd : s.hasDie d = true) (hh : h < 2) (hr : s.hartRuns d h = false) (f : State → State) :
    onHart d h s f = .next (s.commit s) :=
  onItem_eq (by simp [hd, hh]) (if_neg (by simp [hr]))

theorem onHart_eq {f : State → State} (hd : s.hasDie d = true) (hh : h < 2) (hr : s.hartRuns d h = true) (he : f s = t) :
    onHart d h s f = .next (s.commit t) :=
  onItem_eq (by simp [hd, hh]) ((if_pos hr).trans he)

/-! Which accesses to CSRs are legal -/

/-- CSRs 0x700 to 0x7FF and 0xF00 to 0xFFF are the machine mode's. -/
theorem csrOk_user {num : Nat} (hu : (s.getHart d h).user = true) (hnum : num / 256 % 4 = 3) (wr : Bool) : csrOk s d h num wr = false := by
  simp [csrOk, hu, hnum]

theorem csrOk_machine {num : Nat} {wr : Bool} (hu : (s.getHart d h).user = false) (hex : csrExists num = true) (hnum : 3 < num)
    (hwr : wr = false ∨ num / 1024 ≠ 3) : csrOk s d h num wr = true := by
  simpa [csrOk, hu, hex, hnum] using hwr

/-! What a CSR command does in machine mode -/

section
variable (hr : s.hartRuns d h = true) (hu : (s.getHart d h).user = false)
include hr hu

theorem csrAccess_write {num : Nat} {v : Word} (hex : csrExists num = true) (hnum : 3 < num ∧ num / 1024 ≠ 3) :
    csrAccess d h num true v s = csrWrite d h num v.toNat s := by
  rw [csrAccess_legal hr (csrOk_machine hu hex hnum.1 (.inr hnum.2)), if_pos rfl]

theorem csrAccess_sem {k : Nat} (hk : k < 16) : csrAccess d h (0xFD0 + k) false 0 s = semAcquire d h k s := by
  have hok : csrOk s d h (0xFD0 + k) false = true := csrOk_machine hu (by simp [csrExists, vendorCsr]; omega) (by omega) (.inl rfl)
  have hread : csrRead d h (0xFD0 + k) s = semAcquire d h k s := by
    interval_cases k <;> rfl
  rw [csrAccess_legal hr hok, if_neg Bool.false_ne_true, hread]

end

theorem csrWrite_mlawirqAck (s : State) (d h : Nat) {v : Word} (hv : v = BitVec.ofNat 32 (csrVal s d h 0x7C6 % 16 + 16)) :
    csrWrite d h 0x7C6 v.toNat s = setCsr (s.setIrq d h 21 false) d h 0x7C6 (csrVal s d h 0x7C6 % 16) := by
  have hnat : v.toNat = csrVal s d h 0x7C6 % 16 + 16 := by rw [hv, BitVec.toNat_ofNat]; omega
  have hack : bitOf v.toNat 4 = true := by simp only [bitOf, hnat, beq_iff_eq]; omega
  have hrest : v.toNat % 16 = csrVal s d h 0x7C6 % 16 := by omega
  rw [show csrWrite d h 0x7C6 v.toNat s = setCsr (if bitOf v.toNat 4 = true then s.setIrq d h 21 false else s) d h 0x7C6 (v.toNat % 16) from rfl,
    if_pos hack, hrest]

theorem semAcquire_eq (d h k : Nat) (s : State) : semAcquire d h k s =
    if bitOf (s.getHart d (1 - h)).sem k = true then s.answer 0 else (s.modHart d h fun x => { x with sem := putBit x.sem k true }).answer 1 := rfl

theorem lawData_eq {wr steal : Bool} {v : Word} {ecc a : Nat} (ha : a = csrVal s d h 0x7C4) : lawData d h wr v steal ecc s =
    if bitOf a 16 = true then setCsr (progmemAccess (2 + h) d (4 * (a % 16384)) wr v steal ecc s) d h 0x7C4
      (a / 16384 * 16384 + (a % 16384 + 1) % 12288)
    else progmemAccess (2 + h) d (4 * (a % 16384)) wr v steal ecc s := by
  subst ha
  rfl

theorem trap_eq {cause tval pc st : Nat} {m : Bool} (hm : m = (s.getHart d h).user)
    (hst : st = putBit (putBit (putBit (putBit (csrVal s d h 0x300) 7 (bitOf (csrVal s d h 0x300) 3)) 3 false) 11 (!m)) 12 (!m))
    (hu : u = setCsr (setCsr (setCsr (setCsr s d h 0x341 pc) d h 0x342 cause) d h 0x343 tval) d h 0x300 st) :
    trap d h cause tval pc s = u.modHart d h fun x => { x with user := false, pc := csrVal u d h 0x305 / 4 * 4, resv := none } := by
  subst hm hst hu
  rfl

/-! The timer compare and the end of a reservation (R325, R331) -/

theorem mtimerCompare_eq (d h : Nat) (s : State) : mtimerCompare d h s =
    (if s.ptD d < (s.getHart d h).cmp then s.pass ((s.getHart d h).cmp - s.ptD d) else s).setIrq d h 7 true := rfl

theorem lrTimeout_held {w x : Nat} (hresv : (s.getHart d h).resv = some (w, x)) :
    lrTimeout d h s = (s.pass (x + 512 - s.now)).modHart d h fun x => { x with resv := none } := by
  simp only [lrTimeout, hresv]

theorem lrTimeout_none (hresv : (s.getHart d h).resv = none) : lrTimeout d h s = s := by
  simp only [lrTimeout, hresv]

end

/-- Settles O24: outside machine mode every command stops or traps, and in it each is the access of its CSR. -/
theorem hartCsrCommandsHaveTheirEffect : Obligations.HartCsrCommandsHaveTheirEffect := by
  intro s d h hd hh
  refine ⟨fun hr v wr steal ecc k hk => List.forall_iff_forall_mem.mp ?stopped, fun hr hu v wr steal ecc k hk =>
    List.forall_iff_forall_mem.mp ?user, fun cause tval pc u m st hm hst hu => trap_eq hm hst hu, fun hr hu => ?machine, fun hr => ?timers⟩
  case stopped =>
    have hstop := onHart_stopped hd hh hr
    exact ⟨hstop _, hstop _, hstop _, hstop _, hstop _, hstop _, onItem_eq (by simp [hd, hh, hk]) (csrAccess_stopped hr), hstop _,
      hstop _, hstop _⟩
  case user =>
    have hill {num : Nat} {wr : Bool} {v : Word} (hnum : num / 256 % 4 = 3) :=
      csrAccess_illegal (v := v) hr (csrOk_user hu hnum wr)
    have hcmd {num : Nat} {wr : Bool} {v : Word} (hnum : num / 256 % 4 = 3) := onHart_eq hd hh hr (hill (wr := wr) (v := v) hnum)
    exact ⟨hcmd rfl, hcmd rfl, hcmd rfl, hcmd rfl,
      onHart_eq hd hh hr (if_neg (by simp [csrOk_user hu])), onHart_eq hd hh hr (hill rfl),
      onItem_eq (by simp [hd, hh, hk]) (hill (by omega)), hcmd rfl⟩
  case machine =>
    have hcmd {num : Nat} {v : Word} {t : State} (hex : csrExists num = true) (hnum : 3 < num ∧ num / 1024 ≠ 3)
        (he : csrWrite d h num v.toNat s = t) := onHart_eq hd hh hr ((csrAccess_write hr hu hex hnum).trans he)
    have hsem {k : Nat} (hk : k < 16) := (csrAccess_sem hr hu hk).trans (semAcquire_eq d h k s)
    refine ⟨fun v u hset => hcmd rfl (by decide) (by subst hset; rfl), hcmd rfl (by decide) rfl, hcmd rfl (by decide) rfl,
      hcmd rfl (by decide) rfl, fun wr v steal ecc a ha => ?data,
      onHart_eq hd hh hr ((csrAccess_write hr hu rfl (by decide)).trans (csrWrite_mlawirqAck s d h rfl)), fun k hk =>
        ⟨fun hheld => onItem_eq (by simp [hd, hh, hk]) ((hsem hk).trans (if_pos hheld)),
          fun hfree => onItem_eq (by simp [hd, hh, hk]) ((hsem hk).trans (if_neg (by simp [hfree])))⟩,
      fun v => hcmd rfl (by decide) rfl⟩
    case data =>
      have hok := csrOk_machine (num := 0x7C5) (wr := wr) hu rfl (by decide) (.inr (by decide))
      have hdata := lawData_eq (wr := wr) (steal := steal) (v := v) (ecc := ecc) ha
      exact ⟨fun hinc => onHart_eq hd hh hr ((if_pos hok).trans (hdata.trans (if_neg (by simp [hinc])))),
        fun hinc => onHart_eq hd hh hr ((if_pos hok).trans (hdata.trans (if_pos hinc)))⟩
  case timers =>
    have htimer := mtimerCompare_eq d h s
    exact ⟨fun hahead => onHart_eq hd hh hr (htimer.trans (by rw [if_pos hahead])),
      fun hpast => onHart_eq hd hh hr (htimer.trans (by rw [if_neg (Nat.not_lt.mpr hpast)])),
      fun w t hresv => onHart_eq hd hh hr (lrTimeout_held hresv), fun hresv => onHart_eq hd hh hr (lrTimeout_none hresv)⟩

end Sys2Proof.Machine
end

section
/-!
Memory accesses of a hart (R325, R327 to R329).
-/

namespace Sys2Proof.Machine

/-- What an access of `n` bytes that physical memory protection lets pass does at its place (R325, R327, R328). -/
def placeAccess (d h : Nat) (a : HartAcc) (n : Nat) (p : HartPlace) (s : State) : State :=
  match p with
  | .tcm => if a.addr + n ≤ 0x80000 then tcmAccess d h a n s else trap d h (accFault a.kind) a.addr a.pc s
  | .nothing => trap d h (accFault a.kind) a.addr a.pc s
  | .rom =>
    if accStores a.kind = true ∨ accAtomic a.kind = true ∨ accUser s d h a.kind = true then trap d h (accFault a.kind) a.addr a.pc s
    else readResult d h a n (s.free % 2 ^ (8 * n)) s.drew
  | .bus x => if accAtomic a.kind = true then trap d h (accFault a.kind) a.addr a.pc s else winAccess d h x a n s
  | .dram x => if accAtomic a.kind = true then trap d h (accFault a.kind) a.addr a.pc s else dramHart d h x a n s

theorem accFp_iff (a : HartAcc) : accFp a = true ↔ a.fp = true ∧ (a.kind = .load ∨ a.kind = .store) := by
  cases hk : a.kind <;> simp [accFp, hk]

theorem accFp_of_atomic {a : HartAcc} (h : accAtomic a.kind = true) : accFp a = false := by
  cases hk : a.kind <;> simp_all [accFp, accAtomic]

theorem not_stores_of_read {k : AccKind} (h : k = .fetch ∨ k = .load) : accStores k = false ∧ accAtomic k = false := by
  rcases h with rfl | rfl <;> decide

section
variable {s : State} {d h n pc : Nat} {a b : HartAcc} (hn : n = if accAtomic a.kind = true then 4 else a.size)
  (hpc : pc = if a.kind = .fetch then a.addr else a.pc) (hb : b = { a with pc := pc })
include hn hpc hb

/-- An access in its order: the floating-point unit, the alignment, physical memory protection, and the place. -/
theorem hartAccess_eq : hartAccess d h a s =
    if (accFp a && fpOff s d h) = true then trap d h 2 (s.free % 2 ^ 32) pc s.drew
    else if accAtomic a.kind = true ∧ a.addr % 4 ≠ 0 then trap d h (if a.kind = .lr then 4 else 6) a.addr pc s
    else if pmpOk s d h (accUser s d h a.kind) a.addr n (accNeed a.kind) = false then trap d h (accFault a.kind) a.addr pc s
    else placeAccess d h b n (hartPlace s d h a.addr) s := by
  have hacc : (if a.kind = .fetch then { a with pc := a.addr } else a) = b := by
    subst hb hpc
    split <;> rfl
  have hkind : b.kind = a.kind := by rw [hb]
  have haddr : b.addr = a.addr := by rw [hb]
  have hbpc : b.pc = pc := by rw [hb]
  have hfp : accFp b = accFp a := by rw [hb]; rfl
  simp only [hartAccess, hacc, ← hpc, hkind, haddr, hbpc, hfp, ← hn, Bool.not_eq_true']
  cases hartPlace s d h a.addr <;> simp only [placeAccess, hkind, haddr, hbpc, Bool.or_eq_true, or_assoc]

theorem hartAccess_fpOff (hfp : a.fp = true) (hkind : a.kind = .load ∨ a.kind = .store) (hoff : fpOff s d h = true) :
    hartAccess d h a s = trap d h 2 (s.free % 2 ^ 32) a.pc s.drew := by
  have hacc : (accFp a && fpOff s d h) = true := by simp [(accFp_iff a).mpr ⟨hfp, hkind⟩, hoff]
  have hfetch : a.kind ≠ .fetch := by rcases hkind with h | h <;> simp [h]
  rw [hartAccess_eq hn hpc hb, if_pos hacc, hpc, if_neg hfetch]

theorem hartAccess_misaligned (hatomic : accAtomic a.kind = true) (haddr : a.addr % 4 ≠ 0) :
    hartAccess d h a s = trap d h (if a.kind = .lr then 4 else 6) a.addr pc s := by
  rw [hartAccess_eq hn hpc hb, if_neg (by simp [accFp_of_atomic hatomic]), if_pos ⟨hatomic, haddr⟩]

theorem hartAccess_protected (halign : ¬ (accAtomic a.kind = true ∧ a.addr % 4 ≠ 0))
    (hfp : ¬ (a.fp = true ∧ (a.kind = .load ∨ a.kind = .store) ∧ fpOff s d h = true)) : hartAccess d h a s =
      if pmpOk s d h (accUser s d h a.kind) a.addr n (accNeed a.kind) = false then trap d h (accFault a.kind) a.addr pc s
      else placeAccess d h b n (hartPlace s d h a.addr) s := by
  rw [hartAccess_eq hn hpc hb, if_neg (by rwa [Bool.and_eq_true, accFp_iff, and_assoc]), if_neg halign]

end

section
variable {s u : State} {d h n v : Nat} {a : HartAcc} {p : HartPlace}

/-- Where nothing lies, past the end of the SRAM, at the boot ROM other than by a machine-mode read, and by an atomic outside the SRAM. -/
theorem placeAccess_faults (hp : p = .nothing ∨ (p = .tcm ∧ 0x80000 < a.addr + n) ∨
    (p = .rom ∧ (accStores a.kind = true ∨ accAtomic a.kind = true ∨ accUser s d h a.kind = true)) ∨ (accAtomic a.kind = true ∧ p ≠ .tcm)) :
    placeAccess d h a n p s = trap d h (accFault a.kind) a.addr a.pc s := by
  rcases hp with rfl | ⟨rfl, hend⟩ | ⟨rfl, hrom⟩ | ⟨hatomic, hne⟩
  · rfl
  · exact if_neg (Nat.not_le.mpr hend)
  · exact if_pos hrom
  · cases p with
    | tcm => exact absurd rfl hne
    | rom => exact if_pos (.inr (.inl hatomic))
    | bus _ => exact if_pos hatomic
    | dram _ => exact if_pos hatomic
    | nothing => rfl

/-! The tightly-coupled SRAM (R325, R328, R329) -/

theorem tcmAccess_storeWord (hk : a.kind = .store) (hn : n = 4) (ha : a.addr % 4 = 0) :
    tcmAccess d h a n s = tcmStore d h a.addr (leBytes a.val.toNat 4) s := by
  simp only [tcmAccess, hk]
  exact if_neg (by simp [hn, ha])

section
variable (hk : a.kind = .sc) (hu : u = s.modHart d h fun x => { x with resv := none })
include hk hu

/-- SC under the hart's own reservation, less than 512 ticks old. -/
theorem tcmAccess_sc_stores {t : Nat} (hresv : (s.getHart d h).resv = some (tcmAt h a.addr, t)) (hnow : s.now < t + 512) :
    tcmAccess d h a n s = setX d h a.rd 0 (tcmStore d h a.addr (leBytes a.val.toNat 4) u) := by
  subst hu
  simp [tcmAccess, hk, hresv, hnow]

theorem tcmAccess_sc_fails (hnone : ∀ w t, (s.getHart d h).resv = some (w, t) → w ≠ tcmAt h a.addr ∨ t + 512 ≤ s.now) :
    tcmAccess d h a n s = setX d h a.rd 1 u := by
  subst hu
  cases hresv : (s.getHart d h).resv with
  | none => simp [tcmAccess, hk, hresv]
  | some x =>
    have hlost : ¬ (x.1 = tcmAt h a.addr ∧ s.now < x.2 + 512) := by
      rcases hnone x.1 x.2 hresv with h | h
      · exact fun h' => h h'.1
      · exact fun h' => Nat.not_le.mpr h'.2 h
    simp [tcmAccess, hk, hresv, hlost]

end

section
variable (hu : u = tcmCheck d h a.addr a.ecc s)
include hu

theorem tcmAccess_storePart (hk : a.kind = .store) (hpart : n < 4 ∨ a.addr % 4 ≠ 0) : tcmAccess d h a n s =
    if a.ecc = 2 then trap d h (accFault a.kind) a.addr a.pc u else tcmStore d h a.addr (leBytes a.val.toNat n) u := by
  subst hu
  simp only [tcmAccess, hk]
  exact if_pos hpart

theorem tcmAccess_amo {op : AmoOp} {old : Word} (hk : a.kind = .amo op) (hold : old = BitVec.ofNat 32 (leNum (tcmBytes u d h a.addr 4))) :
    tcmAccess d h a n s = if a.ecc = 2 then trap d h (accFault a.kind) a.addr a.pc u
      else setX d h a.rd old (tcmStore d h a.addr (leBytes (amoOp op old a.val).toNat 4) u) := by
  subst hu hold
  simp only [tcmAccess, hk]

theorem tcmAccess_lr {x : State} (hk : a.kind = .lr) (hx : x = u.modHart d h fun x => { x with resv := some (tcmAt h a.addr, u.now) }) :
    tcmAccess d h a n s = if a.ecc = 2 then trap d h (accFault a.kind) a.addr a.pc u
      else loadResult d h { a with fp := false } 4 (leNum (tcmBytes x d h a.addr 4)) x := by
  subst hu hx
  simp only [tcmAccess, hk]

theorem tcmAccess_read (hk : a.kind = .load ∨ a.kind = .fetch) : tcmAccess d h a n s =
    if a.ecc = 2 then trap d h (accFault a.kind) a.addr a.pc u else readResult d h a n (leNum (tcmBytes u d h a.addr n)) u := by
  subst hu
  rcases hk with hk | hk <;> simp only [tcmAccess, hk]

theorem tcmAccess_uncorrectable (hecc : a.ecc = 2) (hsc : a.kind ≠ .sc) (hword : ¬ (a.kind = .store ∧ n = 4 ∧ a.addr % 4 = 0))
    (hn : n ≤ 4) : tcmAccess d h a n s = trap d h (accFault a.kind) a.addr a.pc u := by
  cases hk : a.kind with
  | sc => exact absurd hk hsc
  | store => rw [tcmAccess_storePart hu hk (by simp only [hk, true_and] at hword; omega), if_pos hecc, hk]
  | amo op => rw [tcmAccess_amo hu hk rfl, if_pos hecc, hk]
  | lr => rw [tcmAccess_lr hu hk rfl, if_pos hecc, hk]
  | load => rw [tcmAccess_read hu (.inl hk), if_pos hecc, hk]
  | fetch => rw [tcmAccess_read hu (.inr hk), if_pos hecc, hk]

end

/-! Results -/

theorem readResult_fetch (hk : a.kind = .fetch) : readResult d h a n v s = (s.answer v).modHart d h fun x => { x with pc := a.addr } :=
  if_pos hk

theorem readResult_load (hk : a.kind ≠ .fetch) : readResult d h a n v s =
    if a.fp = true then
      fpDirty d h ((s.answer v).modHart d h fun x => { x with f := x.f.set (a.rd % 32) (BitVec.ofNat 32 v) 0 })
    else setX d h a.rd (if a.signed = true then BitVec.ofInt 32 (sgn (8 * n) v) else BitVec.ofNat 32 v) (s.answer v) := if_neg hk

end

/-- Settles O25: an access runs its checks in their order, then what lies at its place serves it; the SRAM serves each kind in its way. -/
theorem hartMemoryAccessesAnswerOrTrap : Obligations.HartMemoryAccessesAnswerOrTrap := by
  intro s d h a hd hh hsize haddr
  have hitem : (s.hasDie d && decide (h < 2) && [1, 2, 4].elem a.size && decide (a.addr < 2 ^ 32) : Bool) = true := by
    rcases hsize with hs | hs | hs <;> simpa [hd, hh, hs] using haddr
  refine ⟨fun hr => onItem_eq hitem (if_neg (by simp [hr])), fun hr n pc b f hn hpc hb hf => ?access, fun n u hu => ?sram,
    fun n v hk => readResult_fetch hk, fun n v hk hfp => (readResult_load hk).trans (if_pos hfp), rfl, beq_iff_eq,
    fun n v hk hfp => (readResult_load hk).trans (if_neg (by simp [hfp])), fun r v => ⟨fun h0 => if_pos h0, fun h0 => if_neg h0⟩⟩
  case access =>
    have hrun {t : State} (he : hartAccess d h a s = t) : exec (.hartMemoryAccess d h a) s = .next (s.commit t) :=
      onItem_eq hitem ((if_pos hr).trans he)
    refine ⟨fun hfp hk hoff => hrun (hartAccess_fpOff hn hpc hb hfp hk hoff), fun hat hmis => hrun (hartAccess_misaligned hn hpc hb hat hmis),
      fun halign hfp => ?_⟩
    have hprot := hartAccess_protected hn hpc hb halign hfp
    refine ⟨fun hdeny => hrun (by rw [hprot, if_pos hdeny, hf]), fun hpass => ?_⟩
    have hplace {p : HartPlace} {t : State} (hp : hartPlace s d h a.addr = p) (he : placeAccess d h b n p s = t) :
        exec (.hartMemoryAccess d h a) s = .next (s.commit t) :=
      hrun (by rw [hprot, if_neg (by simp [hpass]), hp, he])
    subst hb hf
    refine ⟨fun h => hplace rfl (placeAccess_faults h), fun hp hk hu => hplace hp (if_neg ?_), fun hp hend => hplace hp (if_pos hend),
      fun x hp hat => hplace hp (if_neg (by simp [hat])), fun x hp hat => ⟨hplace hp (if_neg (by simp [hat])), fun hsrv => ?_⟩⟩
    · simp [not_stores_of_read hk, hu]
    · simp only [dramHart, hsrv]
  case sram =>
    refine ⟨tcmAccess_storeWord, fun hk hpart hecc => (tcmAccess_storePart hu hk hpart).trans (if_neg hecc),
      fun op hk hecc old hold => (tcmAccess_amo hu hk hold).trans (if_neg hecc),
      fun x hk hecc hx => (tcmAccess_lr hu hk hx).trans (if_neg hecc), fun hk hecc => (tcmAccess_read hu hk).trans (if_neg hecc),
      tcmAccess_uncorrectable hu, fun hk x hx => ⟨fun t => tcmAccess_sc_stores hk hx, tcmAccess_sc_fails hk hx⟩⟩

end Sys2Proof.Machine
end

section
/-!
Measurement and the colophon (R476 to R479), and an answer that D3hot holds back (R379).
-/

namespace Sys2Proof.Machine

section
variable {s : State} {d : Nat}

/-! Extension and lock of the firmware's measurements (R476) -/

/-- The word of MSR_EXTEND names its register, and GO alone. -/
theorem msrExtendWord_fields (k : Nat) : bitsOf (BitVec.ofNat 32 (1 + k % 2 * 2)).toNat 1 1 = k % 2 ∧
    bitOf (BitVec.ofNat 32 (1 + k % 2 * 2)).toNat 0 = true ∧ bitOf (BitVec.ofNat 32 (1 + k % 2 * 2)).toNat 2 = false := by
  rcases Nat.mod_two_eq_zero_or_one k with h | h <;> rw [h] <;> decide

/-- The word of MSR_LOCK names its register, and LOCK alone. -/
theorem msrLockWord_fields (k : Nat) : bitsOf (BitVec.ofNat 32 (4 + k % 2 * 2)).toNat 1 1 = k % 2 ∧
    bitOf (BitVec.ofNat 32 (4 + k % 2 * 2)).toNat 0 = false ∧ bitOf (BitVec.ofNat 32 (4 + k % 2 * 2)).toNat 2 = true := by
  rcases Nat.mod_two_eq_zero_or_one k with h | h <;> rw [h] <;> decide

theorem msrExtWrite_extend (k : Nat) : msrExtWrite (BitVec.ofNat 32 (1 + k % 2 * 2)) d s = msrExtend d (6 + k % 2) s := by
  obtain ⟨hk, hgo, hlock⟩ := msrExtendWord_fields k
  simp only [msrExtWrite, hk, hgo, hlock, Bool.false_eq_true, if_false, if_true]

theorem msrExtWrite_lock (k : Nat) : msrExtWrite (BitVec.ofNat 32 (4 + k % 2 * 2)) d s = s.wrBit d MSR_VALID.LOCK (k % 2) true := by
  obtain ⟨hk, hgo, hlock⟩ := msrLockWord_fields k
  simp only [msrExtWrite, hk, hgo, hlock, Bool.false_eq_true, if_false, if_true]

theorem msrExtend_locked {k : Nat} (h : bitOf (s.rd d MSR_VALID.LOCK) (k - 6) = true) : msrExtend d k s = s := if_pos h

theorem msrExtend_unlocked {k : Nat} (h : bitOf (s.rd d MSR_VALID.LOCK) (k - 6) = false) : msrExtend d k s =
    s.wr d MSR_SLOT.DIGEST (leNum (sha384 (msrSlot s d k ++ leBytes (s.rd d MSR_EXTDATA.DATA) 48))) k := if_neg (by simp [h])

/-! The signer (R477 to R479) -/

theorem msrCreqWrite_busy (h : s.bit d MSR_CSTAT.BUSY = true) : msrCreqWrite 1 d s = s := if_pos (by simp [h])

theorem msrCreqWrite_asks (h : s.bit d MSR_CSTAT.BUSY = false) : msrCreqWrite 1 d s = signKick d ((s.wr d MSR_CSTAT.BUSY 1).modSignq d fun q =>
    q ++ [{ who := .creq, nonce := leBytes (s.rd d MSR_NONCE.NONCE) 32 }]) :=
  if_neg (by rw [h]; decide)

theorem signKick_none (h : s.getSignq d = []) : signKick d s = s := by
  simp only [signKick, h]

section
variable {q : SignReq} {rest : List SignReq} (h : s.getSignq d = q :: rest)
include h

theorem signKick_begins (hnew : q.report = none) (hdone : s.bit d MSR_VALID.DONE = true) :
    signKick d s = s.modSignq d fun _ => { q with report := some (colophonBody s d q.nonce) } :: rest := by
  simp only [signKick, h, hnew, hdone]
  rfl

theorem signKick_waits (hwait : q.report ≠ none ∨ s.bit d MSR_VALID.DONE = false) : signKick d s = s := by
  simp only [signKick, h]
  exact if_pos (by simpa [Option.isSome_iff_ne_none] using hwait)

/-- A report that is formed is signed, delivered, and the next request begun. -/
theorem colophonSigned_delivers {b : List Byte} (hb : q.report = some b) (hheld : signHeld s d q.who = false) : colophonSigned d s =
    signKick d (colophDeliver d q.who (b ++ beBytes (Config.signature d b s.free).1 48 ++ beBytes (Config.signature d b s.free).2 48)
      (s.drew.modSignq d fun _ => rest)) := by
  simp only [colophonSigned, h, hb, hheld, Bool.false_eq_true, if_false]

theorem colophonSigned_waits (hwait : q.report = none ∨ signHeld s d q.who = true) : colophonSigned d s = s := by
  cases hb : q.report with
  | none => simp only [colophonSigned, h, hb]
  | some b =>
    have hheld := hwait.resolve_left (by simp [hb])
    simp only [colophonSigned, h, hb, hheld, if_true]

end

theorem colophonSigned_none (h : s.getSignq d = []) : colophonSigned d s = s := by
  simp only [colophonSigned, h]

end

/-- Settles O28: the two commands of MSR_EXT are writes of one word each, and the signer takes the branch that its queue gives. -/
theorem measuresExtendAndColophonsAreSigned : Obligations.MeasuresExtendAndColophonsAreSigned := by
  refine ⟨fun s d h k hd hh => ⟨fun hr => ⟨onHart_stopped hd hh hr _, onHart_stopped hd hh hr _⟩, fun hr => ⟨fun hlock => ?_, fun hlock => ?_,
    onHart_eq hd hh hr (msrExtWrite_lock k)⟩⟩, fun s d hl => ?signer⟩
  · exact onHart_eq hd hh hr ((msrExtWrite_extend k).trans (msrExtend_locked hlock))
  · exact onHart_eq hd hh hr ((msrExtWrite_extend k).trans (msrExtend_unlocked hlock))
  case signer =>
    refine ⟨fun h => onLive_eq hl (msrCreqWrite_busy h), fun h => onLive_eq hl (msrCreqWrite_asks h),
      fun q rest h => ⟨signKick_begins h, signKick_waits h⟩, signKick_none,
      fun q rest b h hb hheld => onLive_eq hl (colophonSigned_delivers h hb hheld), ?_, fun _ => ⟨rfl, rfl⟩⟩
    rintro (h | ⟨q, rest, h, hwait⟩)
    · exact onLive_eq hl (colophonSigned_none h)
    · exact onLive_eq hl (colophonSigned_waits h hwait)

end Sys2Proof.Machine
end

section
/-!
The rails (R443, R444, R447, R448) and the temperature (R449, R450).
-/

namespace Sys2Proof.Machine

section
variable {s u v w : State} {d r : Nat}

/-! The warning threshold (R444, R447, R448) -/

theorem dipStart_eq (hv : v = ((u.wr d PWR_STAT.DIP 1).wrBit d PWR_STAT.WARN r true).addSat d PWR_BROWN.COUNT)
    (hw : w = ((v.wr d PWR_BROWN.RAIL r).wr d PWR_LASTDIP.PT (v.ptD d)).modGov d fun g => { g with retAt := none }) :
    dipStart d r u = if u.bit d PWR_STAT.DIP = true then w else nvfSuspend d (w.raise d 288 1 r) := by
  subst hv hw
  rfl

theorem railWarning_low (h : bitOf (s.getRails d).low r = true) : railWarning d r s = s := if_pos h

theorem railWarning_falls (h : bitOf (s.getRails d).low r = false) (hu : u = s.modRails d fun x => { x with low := putBit x.low r true }) :
    railWarning d r s = if (u.getDie d).inReset = true then u else dipStart d r u := by
  subst hu
  exact if_neg (by simp [h])

/-- The last warning that ends in a dip begins the count to its end. -/
theorem railWarningReturn_eq (hu : u = s.modRails d fun x => { x with low := putBit x.low r false })
    (hv : v = u.wrBit d PWR_STAT.WARN r false) : railWarningReturn d r s =
      if (u.getDie d).inReset = true then u
      else if v.rd d PWR_STAT.WARN = 0 ∧ v.bit d PWR_STAT.DIP = true ∧ (v.getGov d).retAt = none then
        v.modGov d fun g => { g with retAt := some v.pt }
      else v := by
  subst hu hv
  rfl

theorem dipEnd_some {t : Nat} (h : (s.getGov d).retAt = some t)
    (hu : u = (s.passTo (t + 250000)).modGov d fun g => { g with retAt := none }) :
    dipEnd d s = nvfResume d ((u.wr d PWR_STAT.DIP 0).raise d 288 2 (u.rd d PWR_BROWN.RAIL)) := by
  subst hu
  simp only [dipEnd, h]

theorem dipEnd_none (h : (s.getGov d).retAt = none) : dipEnd d s = s := by
  simp only [dipEnd, h]

/-! The high threshold (R444) -/

theorem railHigh_high (h : bitOf (s.getRails d).high r = true) : railHigh d r s = s := if_pos h

theorem railHigh_rises (h : bitOf (s.getRails d).high r = false) (hu : u = s.modRails d fun x => { x with high := putBit x.high r true }) :
    railHigh d r s = if (u.getDie d).inReset = true then u else (u.wrBit d PWR_STAT.HIGH r true).raise d 289 1 r := by
  subst hu
  exact if_neg (by simp [h])

theorem railHighReturn_eq (hu : u = s.modRails d fun x => { x with high := putBit x.high r false }) : railHighReturn d r s =
    if (u.getDie d).inReset = true ∨ bitOf (s.getRails d).high r = false then u
    else (u.wrBit d PWR_STAT.HIGH r false).raise d 289 2 r := by
  subst hu
  simp only [railHighReturn, Bool.or_eq_true, Bool.not_eq_true']

/-! The temperature (R449, R450) -/

theorem thermal_eq (d src : Nat) (on : Bool) (rise fall tj : Int) (s : State) : thermal d src on rise fall tj s =
    if on = false ∧ rise ≤ tj then (true, s.raise d src 1 0) else if on = true ∧ tj ≤ fall then (false, s.raise d src 2 0) else (on, s) := by
  simp only [thermal, Bool.and_eq_true, Bool.not_eq_true', decide_eq_true_eq]

end

/-- Settles O29: a crossing or a return is one branch of its operation, and a reading takes its steps. -/
theorem railsWarnDipAndRise : Obligations.RailsWarnDipAndRise := by
  refine ⟨fun s d r hd hon => ?rail, fun s d hl => ⟨fun t u ht hu => onLive_eq hl (dipEnd_some ht hu), fun h => onLive_eq hl (dipEnd_none h),
    fun src on rise fall tj => thermal_eq d src on rise fall tj s, ?read⟩⟩
  case rail =>
    have hitem : (s.hasDie d && railOn d r : Bool) = true := by simp [hd, hon]
    refine ⟨fun h => onItem_eq hitem (railWarning_low h), fun u h hu => ?falls, fun u v hu hv => ?returns,
      fun h => onItem_eq hitem (railHigh_high h), fun u h hu => ?rises, fun u hu => ?highReturns⟩
    case falls =>
      have h := railWarning_falls h hu
      exact ⟨fun hr => onItem_eq hitem (h.trans (if_pos hr)), fun hr v w hv hw =>
        onItem_eq hitem (h.trans ((if_neg (by simp [hr])).trans (dipStart_eq hv hw)))⟩
    case returns =>
      have h := railWarningReturn_eq hu hv
      have hrun (hr : (u.getDie d).inReset = false) := h.trans (if_neg (by simp [hr]))
      refine ⟨fun hr => onItem_eq hitem (h.trans (if_pos hr)),
        fun hr hwarn hdip hret => onItem_eq hitem ((hrun hr).trans (if_pos ⟨hwarn, hdip, hret⟩)),
        fun hr hno => onItem_eq hitem ((hrun hr).trans (if_neg ?_))⟩
      rintro ⟨hwarn, hdip, hret⟩
      simp [hwarn, hdip, hret] at hno
    case rises =>
      have h := railHigh_rises h hu
      exact ⟨fun hr => onItem_eq hitem (h.trans (if_pos hr)), fun hr => onItem_eq hitem (h.trans (if_neg (by simp [hr])))⟩
    case highReturns =>
      have h := railHighReturn_eq (r := r) hu
      exact ⟨fun hhigh hr => onItem_eq hitem (h.trans (if_neg (by simp [hhigh, hr]))),
        fun hno => onItem_eq hitem (h.trans (if_pos hno.symm))⟩
  case read =>
    intro ts qs ex live tj tw fault u v w z hqs hex hlive hfault hu hv htj hw hz htw x y hx hy
    refine onLive_eq hl ?_
    subst hqs hex hlive hfault hu hv htj hw hz htw hx hy
    simp only [tempRead, decide_eq_true_eq]

end Sys2Proof.Machine
end

section
/-!
The governors (R452, R453, R455).
-/

namespace Sys2Proof.Machine

section
variable {s u : State} {d : Nat}

theorem govDeficit_begins (hz : 100 ≤ (s.getGov d).zeros) (hd : (s.getGov d).deficit = false) :
    govDeficit d s = (s.modGov d fun g => { g with deficit := true }).raise d 293 1 0 := if_pos ⟨hz, by simp [hd]⟩

theorem govDeficit_idle (h : (s.getGov d).deficit = true ∨ (s.getGov d).zeros < 100) : govDeficit d s = s :=
  if_neg (by rcases h with h | h <;> simp [h])

/-! The package governor and the share (R455) -/

theorem packageGovernor_noMaster (hu : u = s.toNext (State.stepNo 12 0 0) 2500000) (hm : u.master = none) : packageGovernor s = u := by
  subst hu
  simp only [packageGovernor, hm]

theorem packageGovernor_shares {m : Nat} {mean : Nat → Rat} {rest : Rat} (hu : u = s.toNext (State.stepNo 12 0 0) 2500000)
    (hm : u.master = some m)
    (hmean : mean = fun e => if (u.getGov e).pN = 0 then ((u.rd e PWR_PMEAS.P : Nat) : Rat) else ((u.getGov e).pSum : Rat) / ((u.getGov e).pN : Rat))
    (hrest : rest = (u.rd m PWR_PKGBUD.PKG : Rat) - (List.range u.dies).foldl (fun (a : Rat) e =>
      a + (if (u.dieSet m).elem e then mean e else (u.rd m PWR_PKGBUD.PKG : Rat) / ((u.dies : Nat) : Rat))) 0) :
    packageGovernor s = (u.dieSet m).foldl (fun t e =>
      (t.near (mean e + rest / ((u.dies : Nat) : Rat))).2.modGov e fun g =>
        { g with shareIn := some (min ((t.near (mean e + rest / ((u.dies : Nat) : Rat))).2.rd e PWR_BUDGET.DIEMAX)
                   (t.near (mean e + rest / ((u.dies : Nat) : Rat))).1.toNat), pSum := 0, pN := 0 }) u := by
  subst hmean hrest hu
  simp only [packageGovernor, hm]

theorem shareReceive_some {v : Nat} (h : (s.getGov d).shareIn = some v) : shareReceive d s =
    (s.wr d PWR_BUDGET.SHARE v).modGov d fun g => { g with shareIn := none, shareAt := s.pt } := by
  simp only [shareReceive, h]

theorem shareReceive_none (h : (s.getGov d).shareIn = none) : shareReceive d s = s := by
  simp only [shareReceive, h]

end

/-- Settles O30: the step and the admission take their steps, and the rest is one branch of each operation. -/
theorem governorsStepAndShare : Obligations.GovernorsStepAndShare := by
  intro s d hl
  refine ⟨?step, fun hz hd => onLive_eq hl (govDeficit_begins hz hd), fun h => onLive_eq hl (govDeficit_idle h), ?admission,
    fun u hu hm => onPackage_eq (packageGovernor_noMaster hu hm),
    fun u m mean rest hu hm hmean hrest => onPackage_eq (packageGovernor_shares hu hm hmean hrest),
    fun v h => onLive_eq hl (shareReceive_some h), fun h => onLive_eq hl (shareReceive_none h), ?timeout⟩
  case step =>
    intro p mv u v h gain tok hu hv hh hgain htok w x hw hx
    refine onLive_eq hl ?_
    subst hu hv hh hgain htok hw hx
    simp only [governorStep]
  case admission =>
    intro tok f f' e e' u v w hf he hf' he' hu hv hw
    subst hf he hf' he' hu hv hw
    simp only [admitTask]
  case timeout =>
    rintro u x rfl rfl
    exact onLive_live hl

end Sys2Proof.Machine
end

section
/-!
Staging, commit and abort (R365 to R368, R371, R372, R374, R376, R420).
-/

namespace Sys2Proof.Machine

section
variable {s u w : State} {d e : Nat}

/-! Staging (R365 to R367, R371, R372, R376) -/

theorem stageGo_ignored (h : 3 ≤ s.rd e CFG_STAT.STATE ∧ s.rd e CFG_STAT.STATE ≤ 5) : stageGo e s = s := if_pos h

theorem stageGo_starts (h : ¬ (3 ≤ s.rd e CFG_STAT.STATE ∧ s.rd e CFG_STAT.STATE ≤ 5))
    (hu : u = if s.bit e CFG_STAGE.USEMODE = true then s.wr e CFG_MSET.F (modeFolios s e (s.rd e CFG_STAGE.MODE)) else s)
    (hw : w = (((u.wr e CFG_STAT.STATE 1).wr e CFG_STAT.ERR 0).wr e CFG_STAT.FOLIO 0).modEpo e fun x => { x with ents := [], opened := true }) :
    stageGo e s = w.forEach (List.range w.dies) fun f s => s.modEpo f fun x => { x with seen := putBit x.seen e false } := by
  subst hu hw
  exact if_neg h

theorem stagingComplete_idle (h : s.rd d CFG_STAT.STATE ≠ 1 ∨ s.bit d PWR_ADMIT.FIRM = false) : stagingComplete d s = s :=
  if_pos (by simpa using h)

section
variable (hstate : s.rd d CFG_STAT.STATE = 1) (hfirm : s.bit d PWR_ADMIT.FIRM = true)
include hstate hfirm

theorem stagingComplete_fails {i : Nat}
    (hread : readMode d (s.rd d CFG_MSET.F) (s.rd d CFG_LIBBASE.BASE * 4096) (s.bit d CFG_CTRL.SRC) s = (.error i, u)) :
    stagingComplete d s = if ((u.raise d 481 3 i).getEpo d).drop = true then epochClose d (u.raise d 481 3 i)
      else (((u.raise d 481 3 i).wr d CFG_STAT.STATE 6).wr d CFG_STAT.ERR 6).wr d CFG_STAT.FOLIO i := by
  simp only [stagingComplete, hread]
  exact if_neg (by simp [hstate, hfirm])

theorem stagingComplete_holds {es : List CfgEnt}
    (hread : readMode d (s.rd d CFG_MSET.F) (s.rd d CFG_LIBBASE.BASE * 4096) (s.bit d CFG_CTRL.SRC) s = (.ok es, u))
    (hw : w = (u.wr d CFG_STAGEPT.PT (u.ptD d)).modEpo d fun x => { x with ents := es, seen := putBit x.seen d true }) :
    stagingComplete d s = if (u.getEpo d).drop = true then epochClose d u
      else w.wr d CFG_STAT.STATE (if (w.getEpo d).ep.isSome = true then 3 else 2) := by
  subst hw
  simp only [stagingComplete, hread]
  exact if_neg (by simp [hstate, hfirm])

end

theorem stagedReport_told (hr : s.reach d e = true) (hseen : bitOf (s.getEpo e).seen e = true) :
    stagedReport d e s = s.modEpo d fun x => { x with seen := putBit x.seen e true } := if_pos (by simp [hr, hseen])

theorem stagedReport_idle (h : s.reach d e = false ∨ bitOf (s.getEpo e).seen e = false) : stagedReport d e s = s :=
  if_neg (by rcases h with h | h <;> simp [h])

/-! The commit (R368, R375) -/

/-- Die `e` cannot take a commit: it holds an epoch, or is committed, applied or reverting. -/
abbrev commitHeld (s : State) (e : Nat) : Prop :=
  (s.getEpo e).ep.isSome = true ∨ (3 ≤ s.rd e CFG_STAT.STATE ∧ s.rd e CFG_STAT.STATE ≤ 5)

theorem commitRefuse_held {l : List Nat} (t : Nat) (he : e ∈ l) (h : commitHeld s e) : commitRefuse s l t = 1 :=
  if_pos (List.any_eq_true.mpr ⟨e, he, by simpa using h⟩)

section
variable {l : List Nat} (hfree : ∀ e, e ∈ l → ¬ commitHeld s e)
include hfree

theorem commitRefuse_unopened (t : Nat) (hno : ∀ e, e ∈ l → (s.getEpo e).opened = false) : commitRefuse s l t = 2 :=
  (if_neg (by simpa using hfree)).trans (if_pos (by simpa using hno))

theorem commitRefuse_opened (t : Nat) (he : e ∈ l) (hopen : (s.getEpo e).opened = true) :
    commitRefuse s l t = if t < s.pt + 5000 then 3 else 0 :=
  (if_neg (by simpa using hfree)).trans (if_neg (by simpa using ⟨e, he, hopen⟩))

end

section
variable {m t : Nat} {l : List Nat} (hm : m = s.rd d CFG_COMMIT.DIES) (ht : t = s.rd d CFG_EPOCHT.T)
  (hl : l = (cfgReach s d m).filter fun e => bitOf m e)
include hm ht hl

theorem commit_refused {why : Nat} (h : commitRefuse s l t = why) (hwhy : why ≠ 0) :
    commit d s = s.forEach (cfgReach s d m) fun e s => s.wr e CFG_STAT.ERR why := by
  subst hm ht hl h
  exact if_pos hwhy

section
variable {id : Nat} (h : commitRefuse s l t = 0) (hid : id = nextEpochId s d)
  (hw : w = s.forEach l fun e x => commitDie e { t := t, id := id, dies := m, folios := 0, fabric := s.bit d CFG_COMMIT.FABRIC } x)
include h hid hw

theorem commit_alone (hno : s.bit d CFG_COMMIT.FABRIC = false ∨ epochMaster w d m = none) : commit d s = w := by
  simp only [commit, ← hm, ← ht, ← hl, h, ne_eq, not_true_eq_false, if_false, ← hid, ← hw]
  split
  · next hk hfab => rcases hno with h | h <;> simp_all
  · rfl

theorem commit_fabric {k : Nat} (hfab : s.bit d CFG_COMMIT.FABRIC = true) (hk : epochMaster w d m = some k) : commit d s =
    epochSend k (epochTargets w k) (epochPayload 1 (w.rd k CFG_CTRL.SKEWACT) id (w.ownId k) t (w.rd k CFG_MSET.F) 0)
      { w with epoSent := epochTargets w k } := by
  simp only [commit, ← hm, ← ht, ← hl, h, ne_eq, not_true_eq_false, if_false, ← hid, ← hw]
  simp only [hk, hfab]

end

end

/-! The abort (R374, R420) -/

section
variable {m : Nat} {l : List Nat} {h : Option EpoRec} (hm : m = s.rd d CFG_COMMIT.DIES) (hl : l = (cfgReach s d m).filter fun e => bitOf m e)
  (hh : h = (l.filterMap fun e => (s.getEpo e).ep).find? fun r => r.fabric && r.org.isNone && decide (s.pt < r.t)) (hw : w = abortDies l s)
include hm hl hh hw

theorem abort_alone (hno : h = none ∨ epochMaster w d m = none) : abort d s = w := by
  subst hm hl hh hw
  simp only [abort]
  split
  · next hheld hk => rcases hno with h | h <;> simp_all
  · rfl

/-- An epoch of the fabric that was begun here is withdrawn in the packages it was sent to. -/
theorem abort_fabric {r : EpoRec} {k : Nat} (hr : h = some r) (hk : epochMaster w d m = some k) :
    abort d s = epochSend k w.epoSent (epochPayload 5 0 r.id (w.ownId k) r.t r.folios 0) { w with epoSent := [] } := by
  subst hm hl hh hw
  simp only [abort, hr, hk]

end

/-! The words of CFG_COMMIT -/

theorem commitWrite_eq {v : Word} {n : Nat} (hn : n = v.toNat)
    (hu : u = s.forEach (cfgReach s d (bitsOf n 8 8)) fun e s => (s.wr e CFG_COMMIT.FABRIC (n / 4)).wr e CFG_COMMIT.DIES (n / 256))
    (hw : w = if bitOf n 1 = true then abort d u else u) : commitWrite v d s = if bitOf n 0 = true then commit d w else w := by
  subst hn hu hw
  rfl

/-- CFG_ABORT writes ABORT alone, with DIES and FABRIC as they stand. -/
theorem cfgAbortWord_fields (v : Word) : bitOf (BitVec.ofNat 32 (v.toNat / 4 * 4 + 2)).toNat 1 = true ∧
    bitOf (BitVec.ofNat 32 (v.toNat / 4 * 4 + 2)).toNat 0 = false := by
  rw [bitOf_ofNat (by decide), bitOf_ofNat (by decide)]
  simp only [bitOf, beq_iff_eq, beq_eq_false_iff_ne]
  omega

end

/-- Settles O42: each command is one branch of its operation, by the state of the dies reached. -/
theorem configurationIsStagedAndCommitted : Obligations.ConfigurationIsStagedAndCommitted := by
  intro s d v hl
  refine ⟨?stage, bitOf_ofNat_putBit _ (by decide) true, fun e t => ⟨stageGo_ignored, fun u w => stageGo_starts⟩,
    fun h => onLive_eq hl (stagingComplete_idle h), fun i u hstate hfirm hread => onLive_eq hl (stagingComplete_fails hstate hfirm hread),
    fun es u w hstate hfirm hread hw => onLive_eq hl (stagingComplete_holds hstate hfirm hread hw), fun e t => rfl,
    fun e he => ⟨fun hr hseen => onItem_live_eq hl (by simp [hl.1, he]) (stagedReport_told hr hseen),
      fun h => onItem_live_eq hl (by simp [hl.1, he]) (stagedReport_idle h)⟩, ?commit, ?refusals, ?abort, ?withdrawal⟩
  case stage =>
    rintro w m rfl rfl
    exact onLive_live hl
  case commit =>
    intro w u hw hu
    have hgo : bitOf w 0 = true := hw ▸ bitOf_ofNat_putBit _ (by decide) true
    exact onLive_eq hl ((commitWrite_eq hw hu rfl).trans (if_pos hgo))
  case refusals =>
    intro u m t l hm ht hlist
    refine ⟨fun e he hheld => commit_refused hm ht hlist (commitRefuse_held t he hheld) (by decide), fun hfree => ?_⟩
    have hfree' (e : Nat) (he : e ∈ l) : ¬ commitHeld u e := by
      obtain ⟨hep, hstate⟩ := hfree e he
      simp [commitHeld, hep, hstate]
    refine ⟨fun hno => commit_refused hm ht hlist (commitRefuse_unopened hfree' t hno) (by decide), fun e he hopen => ?_⟩
    have hwhy := commitRefuse_opened hfree' t he hopen
    refine ⟨fun hsoon => commit_refused hm ht hlist (hwhy.trans (if_pos hsoon)) (by decide), fun id w hlate hid hw => ?_⟩
    have h0 := hwhy.trans (if_neg (Nat.not_lt.mpr hlate))
    exact ⟨commit_alone hm ht hlist h0 hid hw, fun k => commit_fabric hm ht hlist h0 hid hw⟩
  case abort =>
    intro w u hw hu
    obtain ⟨habort, hgo⟩ := cfgAbortWord_fields (s.reg (CFG_COMMIT.DIES.addr d 0 0))
    rw [← hw] at habort hgo
    exact onLive_eq hl ((commitWrite_eq hw hu (if_pos habort).symm).trans (if_neg (by simp [hgo])))
  case withdrawal =>
    intro u m l h w hm hlist hh hw
    have hdies : w = abortDies l u := hw
    exact ⟨abort_alone hm hlist hh hdies, fun r k => abort_fabric hm hlist hh hdies⟩

end Sys2Proof.Machine
end

section
/-!
Epochs: their boundaries, skew check and reversion, and the frames that carry them (R368 to R376, R420).
-/

namespace Sys2Proof.Machine

section
variable {s u v w : State} {d n : Nat}

/-! The boundaries (R368 to R372) -/

theorem mayApply_iff (s : State) (d t : Nat) : mayApply s d t = true ↔
    (s.getEpo d).ep ≠ none ∧ (s.rd d CFG_STAT.STATE = 3 ∨ s.rd d CFG_STAT.STATE = 4) ∧ (s.getEpo d).drop = false ∧
      (bitOf (s.getEpo d).seen d = true ∨ epochChecked s d = true) ∧ ∀ tr, (s.getEpo d).tr = some tr → t < tr := by
  cases htr : (s.getEpo d).tr <;> simp [mayApply, htr, Option.isSome_iff_ne_none, and_assoc]

theorem dieBoundary_held {r : EpoRec} (hr : (s.getEpo d).ep = some r) (hu : u = (s.passTo r.t).toGrid 250) : dieBoundary d s =
    if mayApply s d u.pt = true ∧ (s.getEpo d).dieDone = false then
      tryClose r ((applyPart d none false u).modEpo d fun x => { x with dieDone := true })
    else s := by
  subst hu
  simp only [dieBoundary, hr]
  rw [← ite_not]
  simp

theorem axisBoundary_waits {r : EpoRec} (hr : (s.getEpo d).ep = some r) (hlaw : (s.getEpo d).lawAt.any (fun p => p.1 == n) = true) :
    axisBoundary d n s = if lawBusy s d n = true then s else epochLaw d n s := by
  simp only [axisBoundary, hr, hlaw, if_true]

theorem axisBoundary_held {r : EpoRec} (hr : (s.getEpo d).ep = some r) (hlaw : (s.getEpo d).lawAt.any (fun p => p.1 == n) = false)
    (hu : u = toAxisBoundary d n r.t s) : axisBoundary d n s =
      if s.holds d n = true ∧ mayApply s d u.pt = true ∧ bitOf (s.rd d CFG_APPLY.AXDONE) n = false ∧ mateStaged s d r = true then
        epochLawWait d n (epochPart s d (some n) true != []) (applyPart d (some n) false u)
      else s := by
  subst hu
  simp only [axisBoundary, hr, hlaw, Bool.false_eq_true, if_false]
  rw [← ite_not]
  simp [or_assoc]

section
variable (h : (s.getEpo d).ep = none)
include h

theorem dieBoundary_none : dieBoundary d s = s := by simp only [dieBoundary, h]

theorem axisBoundary_none : axisBoundary d n s = s := by simp only [axisBoundary, h]

theorem skewCheck_none : skewCheck d s = s := by simp only [skewCheck, h]

end

theorem epochLawWait_eq (any : Bool) : epochLawWait d n any u =
    if any = true ∧ lawBusy u d n = true then u.modEpo d (fun x => { x with lawAt := x.lawAt ++ [(n, u.pt)] }) else epochLaw d n u := by
  simp only [epochLawWait, Bool.and_eq_true]

theorem epochLaw_eq (hw : w = u.modEpo d fun x => { x with lawAt := x.lawAt.filter fun p => p.1 != n }) : epochLaw d n u =
    if w.rd d CFG_STAT.STATE = 5 then partReverted d n (revertPart d (some n) true w)
    else axisApplied d n (applyPart d (some n) true w) := by
  subst hw
  rfl

/-! The skew check (R371, R372) -/

theorem skewCheck_idle {r : EpoRec} (hr : (s.getEpo d).ep = some r)
    (h : epochMaster s d r.dies ≠ some d ∨ (s.getEpo d).checked = true) : skewCheck d s = s := by
  simp only [skewCheck, hr]
  exact if_pos h

section
variable {r : EpoRec} {k l a : Nat} (hr : (s.getEpo d).ep = some r) (hmaster : epochMaster s d r.dies = some d)
  (hfirst : (s.getEpo d).checked = false) (hk : k = clampN 1 10000 (s.rd d CFG_SKEW.SKEW))
  (hu : u = (s.passTo (r.t + k * 2500)).modEpo d fun x => { x with checked := true }) (hl : l = lateDies u d r.dies)
include hr hmaster hfirst hk hu hl

theorem skewCheck_inTime (hnone : l = 0) (href : (u.getEpo d).refd = false) : skewCheck d s = tryClose r u := by
  subst hk hu hl
  simp only [skewCheck, hr]
  exact (if_neg (by simp [hmaster, hfirst])).trans (if_pos ⟨hnone, by simpa using href⟩)

/-- Under SKEWACT 1 the late dies are left behind, else the dies of the epoch revert at Tr. -/
theorem skewCheck_late (ha : a = ((List.range 8).find? fun e => bitOf l e).getD 0 + 256 * l) (hw : w = u.raise d 480 3 a)
    (hv : v = w.forEach ((List.range w.dies).filter fun e => bitOf l e) (lateDie d (u.rd d CFG_CTRL.SKEWACT) a))
    (hlate : l ≠ 0 ∨ (u.getEpo d).refd = true) : skewCheck d s =
      if u.rd d CFG_CTRL.SKEWACT = 1 then tryClose r (sendOutcome d 3 1 0 r v)
      else revertDies r l (r.t + (k + max 10 (v.rd d CFG_SKEW.REVLEAD)) * 2500)
        (sendOutcome d 2 0 (r.t + (k + max 10 (v.rd d CFG_SKEW.REVLEAD)) * 2500) r v) := by
  subst hk hu hl ha hw hv
  simp only [skewCheck, hr]
  exact (if_neg (by simp [hmaster, hfirst])).trans (if_neg (by simpa [imp_iff_not_or] using hlate))

end

/-! The reversion (R373, R376) -/

theorem epochRevert_none (p : Nat) (h : (s.getEpo d).tr = none) : epochRevert d p s = s := by
  simp only [epochRevert, h]

section
variable {tr : Nat} (htr : (s.getEpo d).tr = some tr)
include htr

theorem epochRevert_die (hu : u = revertStart d ((s.passTo tr).toGrid 250)) : epochRevert d 8 s =
    if bitOf (s.getEpo d).rev 8 = true then s else partReverted d 8 (filsync d (s.getEpo d).fil (revertPart d none false u)) := by
  subst hu
  simp [epochRevert, htr]

section
variable (hn : n < 8)
include hn

theorem epochRevert_waits (hlaw : (s.getEpo d).lawAt.any (fun p => p.1 == n) = true) (hstate : s.rd d CFG_STAT.STATE = 5) :
    epochRevert d n s = if lawBusy s d n = true then s else epochLaw d n s := by
  simp only [epochRevert, htr]
  exact if_pos (by simp only [hn, hlaw, hstate]; rfl)

theorem epochRevert_axis (hlaw : (s.getEpo d).lawAt.any (fun p => p.1 == n) = false ∨ s.rd d CFG_STAT.STATE ≠ 5)
    (hu : u = revertStart d (toAxisBoundary d n tr s)) : epochRevert d n s =
      if bitOf (s.getEpo d).rev n = true ∨ s.holds d n = false then s
      else epochLawWait d n ((u.getEpo d).undo.any fun u => u.ax == some n && u.law) (revertPart d (some n) false u) := by
  subst hu
  have hnot : ((s.getEpo d).lawAt.any (fun p => p.1 == n) && s.rd d CFG_STAT.STATE == 5) = false := by
    rcases hlaw with h | h <;> simp [h]
  simp only [epochRevert, htr, hn, decide_true, Bool.true_and, hnot, Nat.ne_of_lt hn, Bool.false_eq_true, if_false, Bool.or_eq_true,
    Bool.not_eq_true']

end

end

/-! The frames (R375, R420) -/

section
variable {p : List Byte} {f : Nat}

theorem commitReceive_none (h : takeEpoch d 1 s = (none, u)) : commitReceive d s = u := by simp only [commitReceive, h]

theorem revertReceive_none (h : takeEpoch d 2 s = (none, u)) : revertReceive d s = u := by simp only [revertReceive, h]

theorem applyLateReceive_none (h : takeEpoch d 3 s = (none, u)) : applyLateReceive d s = u := by simp only [applyLateReceive, h]

theorem refuseReceive_none (h : takeEpoch d 4 s = (none, u)) : refuseReceive d s = u := by simp only [refuseReceive, h]

theorem abortReceive_none (h : takeEpoch d 5 s = (none, u)) : abortReceive d s = u := by simp only [abortReceive, h]

section
variable {id o t fol : Nat} (h : takeEpoch d 1 s = (some (p, f), u)) (hid : id = fNum p 2 2) (ho : o = fNum p 4 2 % 4096)
include h hid ho

theorem commitReceive_seen (hseen : u.epoSeen.elem (o, id) = true) : commitReceive d s = u := by
  subst hid ho
  simp only [commitReceive, h]
  exact if_pos hseen

section
variable (ht : t = fNum p 8 8) (hfol : fol = fNum p 16 8) (hnew : u.epoSeen.elem (o, id) = false) (hv : v = { u with epoSeen := (o, id) :: u.epoSeen })
include ht hfol hnew hv

theorem commitReceive_refused (hbusy : ((v.dieSet d).any fun e => v.rd e CFG_STAT.STATE != 0 && v.rd e CFG_STAT.STATE != 2) = true) :
    commitReceive d s = (epochSend d [o] (epochPayload 4 0 id o t fol 0) v).raise d 520 3 o := by
  subst hid ho ht hfol hv
  simp only [commitReceive, h]
  exact (if_neg (Bool.eq_false_iff.mp hnew)).trans (if_pos hbusy)

theorem commitReceive_held (hfree : ((v.dieSet d).any fun e => v.rd e CFG_STAT.STATE != 0 && v.rd e CFG_STAT.STATE != 2) = false)
    (hw : w = (v.forEach (v.dieSet d) (fabricStage fol)).forEach (v.dieSet d)
      fun e => commitDie e { t := t, id := id, dies := 0xFF, folios := fol, org := some o }) :
    commitReceive d s = if t + clampN 1 10000 (w.rd d CFG_SKEW.SKEW) * 2500 < w.pt then
      w.forEach (v.dieSet d) (fun e s => s.modEpo e fun x => { x with seen := 0 }) else w := by
  subst hid ho ht hfol hv hw
  simp only [commitReceive, h]
  exact (if_neg (Bool.eq_false_iff.mp hnew)).trans (if_neg (Bool.eq_false_iff.mp hfree))

end

end

theorem revertReceive_some (h : takeEpoch d 2 s = (some (p, f), u)) : (findEpoch u d p = none → revertReceive d s = u) ∧
    ∀ r, findEpoch u d p = some r → revertReceive d s = revertDies r 0 (fNum p 24 8)
      (if ((epochDies u r).any fun e => (u.getEpo e).tr.isSome || (u.getEpo e).drop) = true then u else relayOutcome d p u) :=
  ⟨fun hf => by simp only [revertReceive, h, hf], fun r hf => by simp only [revertReceive, h, hf]⟩

theorem applyLateReceive_some (h : takeEpoch d 3 s = (some (p, f), u)) : applyLateReceive d s = relayOutcome d p u := by
  simp only [applyLateReceive, h]

theorem refuseReceive_some (h : takeEpoch d 4 s = (some (p, f), u)) : (findEpoch u d p = none → refuseReceive d s = u) ∧
    ∀ r, findEpoch u d p = some r → refuseReceive d s =
      if r.org.isNone = true then u.forEach (epochDies u r) (fun e s => s.modEpo e fun x => { x with refd := true }) else u :=
  ⟨fun hf => by simp only [refuseReceive, h, hf], fun r hf => by simp only [refuseReceive, h, hf]⟩

theorem abortReceive_some (h : takeEpoch d 5 s = (some (p, f), u)) : (findEpoch u d p = none → abortReceive d s = u) ∧
    ∀ r, findEpoch u d p = some r → abortReceive d s = abortDies (epochDies u r) u :=
  ⟨fun hf => by simp only [abortReceive, h, hf], fun r hf => by simp only [abortReceive, h, hf]⟩

end

end

/-- Settles O43: each command is one branch of its operation, by the epoch that the die holds or the frame that it takes. -/
theorem epochsApplyCheckAndRevert : Obligations.EpochsApplyCheckAndRevert := by
  intro s d n hl hn
  refine ⟨fun r u hr hu => onLive_eq hl (dieBoundary_held hr hu), mayApply_iff s d,
    fun r hr => ⟨fun hlaw => onAxis_eq hl hn (axisBoundary_waits hr hlaw), fun u hlaw hu => onAxis_eq hl hn (axisBoundary_held hr hlaw hu)⟩,
    fun h => ⟨onLive_eq hl (dieBoundary_none h), onAxis_eq hl hn (axisBoundary_none h), onLive_eq hl (skewCheck_none h)⟩,
    fun any u => epochLawWait_eq any, fun u w => epochLaw_eq, fun r hr h => onLive_eq hl (skewCheck_idle hr h), ?skew,
    fun p hp h => onItem_live_eq hl (by simp [hl.1, hp]) (epochRevert_none p h),
    fun tr u htr hu => onItem_live_eq hl (by simp [hl.1]) (epochRevert_die htr hu),
    fun tr htr => ⟨fun hlaw hstate => onItem_live_eq hl (by simp [hl.1]; omega) (epochRevert_waits htr hn hlaw hstate),
      fun u hlaw hu => onItem_live_eq hl (by simp [hl.1]; omega) (epochRevert_axis htr hn hlaw hu)⟩,
    fun u => ⟨fun h => onLive_eq hl (commitReceive_none h), fun h => onLive_eq hl (revertReceive_none h),
      fun h => onLive_eq hl (applyLateReceive_none h), fun h => onLive_eq hl (refuseReceive_none h), fun h => onLive_eq hl (abortReceive_none h)⟩,
    fun p f u id o t fol h hid ho ht hfol => ⟨fun hseen => onLive_eq hl (commitReceive_seen h hid ho hseen), fun v hnew hv =>
      ⟨fun hbusy => onLive_eq hl (commitReceive_refused h hid ho ht hfol hnew hv hbusy),
        fun w hfree hw => onLive_eq hl (commitReceive_held h hid ho ht hfol hnew hv hfree hw)⟩⟩,
    fun p f u h => ⟨fun hf => onLive_eq hl ((revertReceive_some h).1 hf), fun r hf => onLive_eq hl ((revertReceive_some h).2 r hf)⟩,
    fun p f u h => onLive_eq hl (applyLateReceive_some h), fun _ _ => rfl,
    fun p f u h => ⟨fun hf => onLive_eq hl ((refuseReceive_some h).1 hf), fun r hf => onLive_eq hl ((refuseReceive_some h).2 r hf)⟩,
    fun p f u h => ⟨fun hf => onLive_eq hl ((abortReceive_some h).1 hf), fun r hf => onLive_eq hl ((abortReceive_some h).2 r hf)⟩⟩
  case skew =>
    intro r k u l a w v hr hmaster hfirst hk hu hlate ha hw hv
    refine ⟨fun hnone href => onLive_eq hl (skewCheck_inTime hr hmaster hfirst hk hu hlate hnone href), fun hbad => ?_⟩
    have h := skewCheck_late hr hmaster hfirst hk hu hlate ha hw hv hbad
    refine ⟨fun hact => onLive_eq hl (h.trans (if_pos hact)), fun tr hact htr => onLive_eq hl ?_⟩
    rw [h, if_neg hact, htr]

end Sys2Proof.Machine
end

section
/-!
The rings of a function: their control, doorbells, descriptors, messages, and the firmware's queue (R382 to R397).
-/

namespace Sys2Proof.Machine

section
variable {s u w : State} {d r : Nat}

/-! Enable and disable (R387) -/

/-- A word that differs from HIF_RCFG in EN alone has its settings. -/
theorem ringCfgWord_fields (x : Word) (b : Bool) : bitOf ((BitVec.ofNat 32 (putBit x.toNat 0 b)).toNat % 2 ^ 25) 0 = b ∧
    (BitVec.ofNat 32 (putBit x.toNat 0 b)).toNat % 2 ^ 25 / 2 = x.toNat % 2 ^ 25 / 2 := by
  have hbit := bitOf_putBit x.toNat 0 b
  have hdiv := putBit_div x.toNat 0 b
  generalize putBit x.toNat 0 b = y at hbit hdiv ⊢
  simp only [BitVec.toNat_ofNat, bitOf, zero_add, pow_one, pow_zero, Nat.div_one] at hbit hdiv ⊢
  have hparity : y % 2 ^ 32 % 2 ^ 25 % 2 = y % 2 := by omega
  exact ⟨hparity ▸ hbit, by omega⟩

section
variable {v : Word} {n a m : Nat} (hn : n = v.toNat % 2 ^ 25) (ha : a = HIF_RCFG.EN.addr d r 0)
include hn ha

theorem ringCfgWrite_off (hstate : s.rd d HIF_RSTAT.STATE r = 0) (hu : u = s.setReg a (BitVec.ofNat 32 (n / 2 * 2))) :
    ringCfgWrite m r v d s = if bitOf n 0 = true then ringEnable d r u else u := by
  subst hn ha hu
  exact if_pos (by simp [hstate])

/-- On a ring not off the settings cannot change, and EN can be cleared. -/
theorem ringCfgWrite_on (hstate : s.rd d HIF_RSTAT.STATE r ≠ 0) : ringCfgWrite m r v d s =
    if n / 2 ≠ (s.reg a).toNat % 2 ^ 25 / 2 then s.accessFault d m true 2 5 a
    else if bitOf n 0 = false ∧ s.bit d HIF_RCFG.EN r = true then ringDisable d r s else s := by
  subst hn ha
  simp only [ringCfgWrite, beq_eq_false_iff_ne.mpr hstate, Bool.false_eq_true, if_false, Bool.and_eq_true, Bool.not_eq_true']

end

theorem ringEnable_refused (h : ringRefuse u d r ≠ 0) : ringEnable d r u = ringErr d r (u.wr d HIF_RSTAT.ERR (ringRefuse u d r) r) :=
  if_pos h

theorem ringEnable_runs (h : ringRefuse u d r = 0) : ringEnable d r u = ringShadow d r (showShares d
    ((((((u.wr d HIF_RCFG.EN 1 r).wr d HIF_RSTAT.STATE 1 r).wr d HIF_RSTAT.ERR 0 r).wr d HIF_RIDX.HOST 0 r).wr d HIF_RIDX.DEV 0 r).modRing d r
      fun _ => {})) := if_neg (not_not.mpr h)

theorem ringRefuse_eq (u : State) (d r : Nat) : ringRefuse u d r =
    if 4 < u.rd d HIF_RCFG.TYPE r ∨ 10 < u.rd d HIF_RCFG.SIZE r ∨
      (toDevice u d r = true ∧ ¬ (u.bit d HIF_RCFG.EN (u.rd d HIF_RCFG.CPLR r) = true ∧ u.rd d HIF_RCFG.TYPE (u.rd d HIF_RCFG.CPLR r) = 1)) ∨
      56 < ringAlloc u d + max 1 (u.rd d HIF_RPARM.QSIZE r) then 1
    else if u.rd d GLB_PHASE.PHASE < 4 then 6 else 0 := by
  simp only [ringRefuse, ite_or, Bool.and_eq_true, Bool.not_eq_true', ← Bool.not_eq_true, beq_iff_eq]

theorem ringDisable_eq (hu : u = s.wr d HIF_RCFG.EN 0 r) : ringDisable d r s =
    if u.rd d HIF_RSTAT.STATE r = 1 ∧ ringBusy u d r = true then
      showShares d (ringShadow d r ((u.wr d HIF_RSTAT.STATE 3 r).modRing d r fun x => { x with share := x.share.take 1 }))
    else ringOff d r u := by
  subst hu
  rfl

/-! Doorbells (R385) -/

section
variable {off size x : Nat}

theorem execDoorbell_up (hl : s.Live d) (hd2 : d < 2) (hoff : off < 65536) (h : s.bit d HIF_ID.LINKUP = true) :
    execDoorbell d off size x s = .next (s.commit (doorbell d off size x s)) :=
  (onItem_next (by simp [hl.1, hd2, hoff])).trans (by simp [hl.2, h])

theorem execDoorbell_down (hl : s.Live d) (hd2 : d < 2) (hoff : off < 65536) (h : s.bit d HIF_ID.LINKUP = false) :
    execDoorbell d off size x s = .next (s.commit s) :=
  (onItem_next (by simp [hl.1, hd2, hoff])).trans (by simp [h])

theorem doorbell_misplaced (h : off % 0x400 ≠ 0 ∨ size ≠ 4) : doorbell d off size x s = ringErr d off s := if_pos h

theorem doorbell_eq {i n h e : Nat} (hr : r < 64) (hi : i = x % 65536) (hn : n = ringSize s d r) (hh : h = s.rd d HIF_RIDX.HOST r)
    (he : e = s.rd d HIF_RIDX.DEV r) : doorbell d (r * 0x400) 4 x s =
      if s.rd d HIF_RSTAT.STATE r ≠ 1 then ringErr d r s
      else if n ≤ i then ringErr d r (ringHalt d r 2 s)
      else if toDevice s d r = false ∧ (e + n - h) % n < (i + n - h) % n then ringErr d r (ringHalt d r 3 s)
      else fwLine d r (s.wr d HIF_RIDX.HOST i r) := by
  subst hi hn hh he
  have hplace : ¬ (r * 0x400 % 0x400 ≠ 0 ∨ 4 ≠ 4) := by omega
  have hring : r * 0x400 / 0x400 % 64 = r := by omega
  simp only [doorbell, if_neg hplace, hring, Bool.and_eq_true, Bool.not_eq_true', decide_eq_true_eq]

end

/-! Descriptors (R384, R391, R395) -/

section
variable {ok : Bool} {bs b : List Byte}

theorem descriptorFetch_idle (h : fetchable s d r = false) : descriptorFetch d r ok bs s = s := if_pos (by simp [h])

section
variable (h : fetchable s d r = true)
include h

theorem descriptorFetch_fails : descriptorFetch d r false bs s = (ringHalt d r 4 s).raise d 498 3 r := by
  simp only [descriptorFetch, h, Bool.not_true, Bool.false_eq_true, if_false, Bool.not_false, if_true]

section
variable (hb : b = (bs ++ List.replicate 32 0).take 32)
include hb

theorem descriptorFetch_firmware {f : Nat} (hf : f = s.rd d HIF_RCFG.FWDIE r) (htype : s.rd d HIF_RCFG.TYPE r = 0)
    (hmode : s.bit d HIF_RCFG.MODE r = true) : descriptorFetch d r true bs s =
      showFw f ((s.modFwq f fun q => q ++ [{ fn := d, ring := r, desc := b }]).setIrqs f 18 true) := by
  subst hb hf
  simp only [descriptorFetch, h, htype, hmode, beq_self_eq_true, Bool.not_true, Bool.and_true, Bool.false_eq_true, if_false, if_true]

theorem descriptorFetch_hardware (hw : s.rd d HIF_RCFG.TYPE r ≠ 0 ∨ s.bit d HIF_RCFG.MODE r = false) : descriptorFetch d r true bs s =
    ringShadow d r ((showShares d (s.modRing d r fun x => { x with share := x.share ++ [b] })).wr d HIF_RIDX.DEV
      ((s.rd d HIF_RIDX.DEV r + 1) % ringSize s d r) r) := by
  subst hb
  have hfw : (s.rd d HIF_RCFG.TYPE r == 0 && s.bit d HIF_RCFG.MODE r) = false := by rcases hw with h | h <;> simp [h]
  simp only [descriptorFetch, h, hfw, Bool.not_true, Bool.false_eq_true, if_false]

end

end

theorem execQueueShareDrain_eq (hl : s.Live d) (hitem : (d < 2 && s.hasDie d && r < 64 : Bool) = true) : execQueueShareDrain d r s =
    .next (s.commit (if toDevice s d r = true then s else ringDrain d r (s.getRing d r).share.length s)) :=
  (onItem_next hitem).trans (by simp only [hl.2, Bool.false_or])

theorem ringDrain_nil (k : Nat) (h : (u.getRing d r).share = []) : ringDrain d r k u = u := by
  cases k <;> simp only [ringDrain, h]

theorem ringDrain_cons {bs : List (List Byte)} (k : Nat) (h : (u.getRing d r).share = b :: bs) : ringDrain d r (k + 1) u =
    if ringFree u d r = true ∧ u.fnUp d = true ∧ u.rd d HIF_RSTAT.STATE r = 1 then
      ringDrain d r k (ringPut d r b (u.modRing d r fun x => { x with share := bs }))
    else u := by
  simp only [ringDrain, h, Bool.and_eq_true, beq_iff_eq, and_assoc]

end

/-! Messages (R382, R396) -/

theorem moderation_due (h : (s.getRing d r).unsig ≠ 0) (hu : u = s.passTo ((s.getRing d r).unsigAt + s.rd d HIF_RMOD.TIME r * 2500)) :
    moderation d r s = msixSend d (u.rd d HIF_RCFG.VEC r) (u.modRing d r fun x => { x with unsig := 0 }) := by
  subst hu
  exact if_neg h

theorem moderation_idle (h : (s.getRing d r).unsig = 0) : moderation d r s = s := if_pos h

theorem msixUnmask_vector {k : Nat} (hk : k < 64) (on : Bool) : msixUnmask d k on s =
    msixFlush d (showMsix d (s.modMsix d fun m => { m with vmask := putBit m.vmask k (!on) })) := by
  simp only [msixUnmask, hk, if_true]

theorem msixUnmask_function (on : Bool) : msixUnmask d 64 on s =
    msixFlush d (showMsix d (s.modMsix d fun m => if on = true then { m with en := true, fmask := false } else { m with fmask := true })) := by
  simp only [msixUnmask, Nat.lt_irrefl, if_false]

/-! The firmware's queue (R391) -/

theorem fwCtlWrite_pop (d : Nat) (s : State) : fwCtlWrite 0x100#32 d s = fwPop d s := rfl

theorem fwCtlWrite_post (d : Nat) (s : State) : fwCtlWrite 0x200#32 d s = fwPost d s := rfl

theorem fwPop_nil (h : s.getFwq d = []) : fwPop d s = s := by
  simp only [fwPop, h]

theorem fwPop_cons {e : FwEnt} {q : List FwEnt} (h : s.getFwq d = e :: q) (hu : u = s.modFwq d fun _ => q)
    (hw : w = u.wr e.fn HIF_RIDX.DEV ((u.rd e.fn HIF_RIDX.DEV e.ring + 1) % ringSize u e.fn e.ring) e.ring) :
    fwPop d s = showFw d (fwLine e.fn e.ring (ringShadow e.fn e.ring w)) := by
  subst hu hw
  simp only [fwPop, h]

theorem fwPost_eq {c q f : Nat} (hc : c = s.rd d HIF_FWCPL.CPL) (hq : q = bitsOf c 16 6) (hf : f = bitsOf c 22 1) : fwPost d s =
    if s.hasDie f = true ∧ s.bit f HIF_RCFG.EN q = true ∧ s.rd f HIF_RSTAT.STATE q = 1 ∧ s.rd f HIF_RCFG.TYPE q = 0 ∧
        s.bit f HIF_RCFG.MODE q = true ∧ s.rd f HIF_RCFG.FWDIE q = d then
      postCpl f q (leBytes c 2) (bitsOf c 24 8) (bitsOf c 64 64) (bitsOf c 128 64) s
    else ringErr d q s := by
  subst hf hq hc
  simp only [fwPost, Bool.and_eq_true, beq_iff_eq, and_assoc]

end

/-- Settles O44: a control word is written to a ring off or not off, and every other command is one branch of its operation. -/
theorem ringsDoorbellsAndInterrupts : Obligations.RingsDoorbellsAndInterrupts := by
  intro s d r v hl hd2 hr
  have hitem : (d < 2 && s.hasDie d && r < 64 : Bool) = true := by simp [hl.1, hd2, hr]
  have hvec {k : Nat} (hk : k < 65) : (d < 2 && s.hasDie d && k < 65 : Bool) = true := by simp [hl.1, hd2, hk]
  refine ⟨fun w a u hw ha hu => ?enable, fun u => ringRefuse_eq u d r, fun a ha => ?disable,
    fun off size x hoff h => execDoorbell_down hl hd2 hoff h,
    fun off size x hoff h hbad => (execDoorbell_up hl hd2 hoff h).trans (by rw [doorbell_misplaced hbad]),
    fun x i n h e hup hi hn hh he => (execDoorbell_up hl hd2 (by omega) hup).trans (by rw [doorbell_eq hr hi hn hh he]),
    fun ok bs b f hb hf => ⟨fun h => onItem_live_eq hl hitem (descriptorFetch_idle h), fun h =>
      ⟨onItem_live_eq hl hitem (descriptorFetch_fails h),
        fun ⟨htype, hmode⟩ => onItem_live_eq hl hitem (descriptorFetch_firmware h hb hf htype hmode),
        fun hhw => onItem_live_eq hl hitem (descriptorFetch_hardware h hb hhw)⟩⟩,
    execQueueShareDrain_eq hl hitem, fun u b bs k => ⟨rfl, ringDrain_nil k, ringDrain_cons k⟩,
    fun h u hu => onItem_live_eq hl hitem (moderation_due h hu), fun h => onItem_live_eq hl hitem (moderation_idle h),
    fun k on hk => onItem_live_eq hl (hvec (by omega)) (msixUnmask_vector hk on),
    fun on => onItem_live_eq hl (hvec (by decide)) (msixUnmask_function on), fun a ha hb => ?unbonded, fun hb => ?firmware⟩
  case enable =>
    obtain ⟨hen, -⟩ := ringCfgWord_fields v true
    rw [← hw] at hen
    refine ⟨fun hoff => ?_, fun hon => ?_⟩
    · have h := (ringCfgWrite_off (m := d) hw ha hoff hu).trans (if_pos hen)
      exact ⟨fun hbad => onItem_live_eq hl hitem (h.trans (ringEnable_refused hbad)),
        fun hgood => onItem_live_eq hl hitem (h.trans (ringEnable_runs hgood))⟩
    · refine onItem_live_eq hl hitem ((ringCfgWrite_on (m := d) hw ha hon).trans ?_)
      rw [ite_not, if_neg (c := bitOf w 0 = false ∧ _) (by simp [hen])]
  case disable =>
    obtain ⟨hen, hrest⟩ := ringCfgWord_fields (s.reg (HIF_RCFG.EN.addr d r 0)) false
    have hon (hstate : s.rd d HIF_RSTAT.STATE r ≠ 0) :=
      (ringCfgWrite_on (m := d) rfl rfl hstate).trans (if_neg (not_not.mpr hrest))
    subst ha
    refine ⟨fun hoff => onItem_live_eq hl hitem ((ringCfgWrite_off (m := d) rfl rfl hoff rfl).trans ?_),
      fun hstate hclear => onItem_live_eq hl hitem ((hon hstate).trans (if_neg (by simp [hclear]))),
      fun u hstate hset hu => onItem_live_eq hl hitem ((hon hstate).trans ((if_pos ⟨hen, hset⟩).trans (ringDisable_eq hu)))⟩
    rw [if_neg (Bool.eq_false_iff.mp hen), hrest]
  case unbonded =>
    subst ha
    exact ⟨onLive_eq hl (if_neg (by simp [hb])), onLive_eq hl (if_neg (by simp [hb]))⟩
  case firmware =>
    have hpop {t : State} (h : fwPop d s = t) : exec (.fwPop d) s = .next (s.commit t) :=
      onLive_eq hl ((if_pos hb).trans ((fwCtlWrite_pop d s).trans h))
    exact ⟨fun h => hpop (fwPop_nil h), fun e q u w h hu hw => hpop (fwPop_cons h hu hw),
      fun c q f hc hq hf => onLive_eq hl ((if_pos hb).trans ((fwCtlWrite_post d s).trans (fwPost_eq hc hq hf)))⟩

end Sys2Proof.Machine
end

section
/-!
Requests to the stacks (R394, R434, R438 to R440).
-/

namespace Sys2Proof.Machine

section
variable {s t u : State} {d r op c k : Nat} {b : List Byte} {f : List Byte → State → State}

/-! Which request starts, and who serves it (R394, R440) -/

theorem onArc_none (hi : (d < 2 && s.hasDie d && r < 64 : Bool) = true) (h : arcHead s d r (· == op) = none) :
    onArc d r op s f = .next (s.commit s) := onItem_eq hi (by simp only [h])

theorem onArc_some (hi : (d < 2 && s.hasDie d && r < 64 : Bool) = true) (h : arcHead s d r (· == op) = some b) (e : f b s = t) :
    onArc d r op s f = .next (s.commit t) := onItem_eq hi (by simp only [h, e])

theorem arcServe_unserved {f : Nat → State → State} (h : stkReady s = none ∨ ∃ c, stkReady s = some c ∧ s.reach d c = false) :
    arcServe d r b s f = cmdDone d r 8 0 0 s := by
  rcases h with h | ⟨c, h, hr⟩
  · simp only [arcServe, h]
  · simp only [arcServe, h, hr, Bool.not_false, if_true]

theorem arcServe_reached {f : Nat → State → State} (hc : stkReady s = some c) (hr : s.reach d c = true) :
    arcServe d r b s f = if s.bit c STK_NS.VALID (arcNs b) = false then cmdDone d r 2 0 0 s else f c s := by
  simp only [arcServe, hc, hr, Bool.not_true, Bool.false_eq_true, if_false, Bool.not_eq_true']

/-- A request that no die serves ends with STATUS 8, one to a namespace that is not valid with 2. -/
theorem arcServe_ends {f : Nat → State → State} {e : Nat}
    (h : ((stkReady s = none ∨ ∃ c, stkReady s = some c ∧ s.reach d c = false) ∧ e = 8) ∨
      ∃ c, stkReady s = some c ∧ s.reach d c = true ∧ s.bit c STK_NS.VALID (arcNs b) = false ∧ e = 2) :
    arcServe d r b s f = cmdDone d r e 0 0 s := by
  rcases h with ⟨h, rfl⟩ | ⟨c, hc, hr, hv, rfl⟩
  · exact arcServe_unserved h
  · exact (arcServe_reached hc hr).trans (if_pos hv)

/-! What each request does on a valid namespace (R394, R438, R439) -/

theorem arcServe_serves {f : Nat → State → State} (hc : stkReady s = some c) (hr : s.reach d c = true)
    (hv : s.bit c STK_NS.VALID (arcNs b) = true) : arcServe d r b s f = f c s :=
  (arcServe_reached hc hr).trans (if_neg (by simp [hv]))

section
variable (hc : stkReady s = some c) (hr : s.reach d c = true) (hk : k = arcNs b) (hv : s.bit c STK_NS.VALID k = true)
include hc hr hk hv

theorem arcRead_invalid (h : cmdA b = 0 ∨ 65536 < cmdA b ∨ cmdB b ≤ cmdAddr b ∨ fNum b 24 8 % 4096 ≠ 0) :
    arcRead d r b s = cmdDone d r 2 0 0 s := by
  subst hk
  simp only [arcRead, arcServe_serves hc hr hv]
  exact if_pos h

/-- The records before the first one left over that fail their CRC are counted and reported; the good ones go to the host. -/
theorem arcRead_reads {all good : List (List Byte)} {next : Option (List Byte)} {bad : Nat}
    (h : ¬ (cmdA b = 0 ∨ 65536 < cmdA b ∨ cmdB b ≤ cmdAddr b ∨ fNum b 24 8 % 4096 ≠ 0))
    (hall : all = recsInTime s c k fun x => overlaps (stkTs x) (stkTe x) (cmdAddr b) (cmdB b)) (hgood : good = all.filter stkCrcOk)
    (hnext : next = (good.drop (cmdA b)).head?)
    (hbad : bad = ((match next with | some x => all.takeWhile (fun y => y != x) | none => all).filter fun x => !stkCrcOk x).length)
    (hu : u = if bad = 0 then s else (s.addSat c STK_CNT.CRC bad).forEach (List.range bad) fun _ s => s.raise c 535 3 k) :
    arcRead d r b s = cmdDone d r 0 (good.take (cmdA b)).length (match next with | some x => stkTs x | none => 2 ^ 64 - 1)
      (putHost u (fNum b 24 8) ((good.take (cmdA b)).flatMap fun x => x ++ List.replicate (4096 - x.length) 0)) := by
  subst hk hall hgood hnext hbad hu
  simp only [arcRead, arcServe_serves hc hr hv]
  exact if_neg h

theorem arcProtect_refused (h : cmdB b ≤ cmdAddr b ∨ 64 ≤ (s.getNsr c k).wins.length) : arcProtect d r b s = cmdDone d r 2 0 0 s := by
  subst hk
  simp only [arcProtect, arcServe_serves hc hr hv]
  exact if_pos h

theorem arcProtect_adds {w : Win} (hrange : cmdAddr b < cmdB b) (hroom : (s.getNsr c k).wins.length < 64)
    (hw : w = { ts := cmdAddr b, te := cmdB b, trig := false }) : arcProtect d r b s =
      cmdDone d r 0 (newlyHeld s c k w) 0 (showWin c k (s.modNsr c k fun x => { x with wins := x.wins ++ [w] })) := by
  subst hk hw
  simp only [arcProtect, arcServe_serves hc hr hv]
  exact if_neg (by omega)

theorem arcUnprotect_refused (h : cmdB b ≤ cmdAddr b) : arcUnprotect d r b s = cmdDone d r 2 0 0 s := by
  subst hk
  simp only [arcUnprotect, arcServe_serves hc hr hv]
  exact if_pos h

theorem arcUnprotect_removes {keep : List Win} (hrange : cmdAddr b < cmdB b)
    (hkeep : keep = (s.getNsr c k).wins.filter fun w => !(decide (cmdAddr b ≤ w.ts) && decide (w.te ≤ cmdB b)))
    (hu : u = showWin c k (s.modNsr c k fun x => { x with wins := keep })) : arcUnprotect d r b s =
      cmdDone d r 0 ((s.getNsr c k).wins.length - keep.length) 0 (if (segPick u c k).isSome = true then u.wr c STK_NS.FULL 0 k else u) := by
  subst hk hkeep hu
  simp only [arcUnprotect, arcServe_serves hc hr hv]
  exact if_neg (Nat.not_le.mpr hrange)

theorem arcSpan_held {x : List Byte} {xs : List (List Byte)} (h : recsInTime s c k (fun _ => true) = x :: xs) :
    arcSpan d r b s = cmdDone d r 0 (stkTs x) ((xs.foldl (fun a y => max a (stkTe y)) (stkTe x)) - 1) s := by
  subst hk
  simp only [arcSpan, arcServe_serves hc hr hv, h]

/-- With nothing held the first tick and the last are free values (log entry 4). -/
theorem arcSpan_empty (h : recsInTime s c k (fun _ => true) = []) :
    arcSpan d r b s = cmdDone d r 0 (s.free % 2 ^ 64) (s.drew.free % 2 ^ 64) s.drew.drew := by
  subst hk
  simp only [arcSpan, arcServe_serves hc hr hv, h]

end

end

/-- Settles O47: the head descriptor says which request starts, and service, namespace and operands which branch of it runs. -/
theorem stacksRequestsHaveTheirEffect : Obligations.StacksRequestsHaveTheirEffect := by
  intro s d r hd hd2 hr64
  have hi := onCmd_item hd hd2 hr64
  refine ⟨⟨onArc_none hi, onArc_none hi, onArc_none hi, onArc_none hi, fun h => onItem_eq hi (by simp only [h])⟩,
    fun b h => onItem_eq hi (by simp only [h]), fun b e hends => ?ends, fun b c k hc hr hk hv => ⟨fun h => ?read, fun h => ?protect,
      fun h => ?unprotect, fun h => ?span⟩⟩
  case ends =>
    exact ⟨fun h => onArc_some hi h (by simp only [arcRead, arcServe_ends hends]),
      fun h => onArc_some hi h (by simp only [arcProtect, arcServe_ends hends]),
      fun h => onArc_some hi h (by simp only [arcUnprotect, arcServe_ends hends]), fun h => onArc_some hi h (arcServe_ends hends)⟩
  case read =>
    exact ⟨fun hbad => onArc_some hi h (arcRead_invalid hc hr hk hv hbad), fun all good next bad u hok hall hgood hnext hbad hu =>
      onArc_some hi h (arcRead_reads hc hr hk hv hok hall hgood hnext hbad hu)⟩
  case protect =>
    exact ⟨fun hbad => onArc_some hi h (arcProtect_refused hc hr hk hv hbad),
      fun w hrange hroom hw => onArc_some hi h (arcProtect_adds hc hr hk hv hrange hroom hw)⟩
  case unprotect =>
    exact ⟨fun hbad => onArc_some hi h (arcUnprotect_refused hc hr hk hv hbad),
      fun keep u hrange hkeep hu => onArc_some hi h (arcUnprotect_removes hc hr hk hv hrange hkeep hu)⟩
  case span =>
    exact ⟨fun x xs hrec => onArc_some hi h (arcSpan_held hc hr hk hv hrec), fun hrec => onArc_some hi h (arcSpan_empty hc hr hk hv hrec)⟩

end Sys2Proof.Machine
end

section
/-!
The ports of the Teram fabric: training, link loss, beats, what an arriving frame does, and the table of known packages (R402 to R415).
-/

namespace Sys2Proof.Machine

section
variable {s u v w : State} {d : Nat}

/-! Training, loss of the link, retraining (R402, R403) -/

theorem trainingComplete_trained {g : Bool} (x1 : Bool) (hg : (s.getPort d).gen2 = some g) (hst : s.rd d TRM_PORT.STATE = 1)
    (hu : u = (((s.wr d TRM_PORT.STATE 2).wr d TRM_PORT.GEN (b2n (g && s.bit d TRM_CTRL.GENMAX))).wr d TRM_PORT.X1 (b2n x1)).modPort d
      (fun p => { p with freeAt := s.now * 5 })) :
    trainingComplete d x1 s = if x1 = true then u.raise d 513 3 d else u := by
  subst hu
  simp only [trainingComplete, hg, hst, ne_eq, not_true_eq_false, if_false]
  rfl

theorem trainingComplete_idle (x1 : Bool) (h : (s.getPort d).gen2 = none ∨ s.rd d TRM_PORT.STATE ≠ 1) : trainingComplete d x1 s = s := by
  unfold trainingComplete
  split
  next => rfl
  next g hg => exact if_pos (h.resolve_left (by simp [hg]))

theorem linkLoss_up (hst : s.rd d TRM_PORT.STATE = 2) (hu : u = portDrain d (s.getPort d).q.length s)
    (hv : v = u.addSat d TRM_PERR.DROP (u.getPort d).q.length)
    (hw : w = ((v.wr d TRM_PORT.STATE 0).modPort d fun p => { p with q := [], gen2 := none, downAt := v.pt }).raise d 512 7 d) :
    linkLoss d s = if w.upstream = some d then timeLost w else w := by
  subst hw hv hu
  simp only [linkLoss, hst, ne_eq, not_true_eq_false, if_false]

theorem linkLoss_down (h : s.rd d TRM_PORT.STATE ≠ 2) : linkLoss d s = s := if_pos h

theorem teramRetrain_down (hst : s.rd d TRM_PORT.STATE ≠ 2) (hph : s.rd d GLB_PHASE.PHASE ≠ 0) (hopt : (s.getDie d).optOk = true)
    (hu : u = s.passTo ((s.getPort d).downAt + 25000000))
    (hv : v = (u.wr d TRM_PORT.STATE 1).modPort d fun p => { p with gen2 := none, downAt := u.pt }) :
    teramRetrain d s = if (v.getDie d).trained = true then beatSend d 0 v else v := by
  subst hv hu
  exact if_pos ⟨hst, hph, hopt⟩

theorem teramRetrain_idle (h : s.rd d TRM_PORT.STATE = 2 ∨ s.rd d GLB_PHASE.PHASE = 0 ∨ (s.getDie d).optOk = false) :
    teramRetrain d s = s := if_neg fun ⟨hst, hph, hopt⟩ => by simp_all

/-! A frame at the port (R405) -/

theorem arrive_eq {f h : List Byte} {g : List Byte → State → State} (hu : u = s.inject d 10 514 7 (fClass f)) (hh : h = hopUp f) :
    arrive d f g s = if frameOk u d f = true then g h u else frameBad d (fClass f) u := by
  subst hu hh; rfl

theorem helloReceive_eq {h p : List Byte} (hp : p = fPayload h) : helloReceive d h u =
    (u.wr d TRM_PORT.PEER (fNum p 2 2 % 4096 + 4096 * (fByte p 4 % 8))).modPort d (fun x => { x with gen2 := some (bitOf (fByte p 1) 0) }) := by
  subst hp; rfl

theorem execHelloReceive_hears {f h p : List Byte} (hl : s.Live d) (hst : s.rd d TRM_PORT.STATE ≠ 0)
    (hu : u = s.inject d 10 514 7 (fClass f)) (hh : h = hopUp f) (hp : p = fPayload h) :
    execHelloReceive d f s = .next (s.commit (if frameOk u d f = true then
      (if fClass h = 1 ∧ fByte p 0 = 0 then
        (u.wr d TRM_PORT.PEER (fNum p 2 2 % 4096 + 4096 * (fByte p 4 % 8))).modPort d (fun x => { x with gen2 := some (bitOf (fByte p 1) 0) })
      else u) else frameBad d (fClass f) u)) := by
  have hhear : s.hears d = true := bne_iff_ne.mpr hst
  refine onLive_eq hl ((if_pos hhear).trans ((arrive_eq hu hh).trans ?_))
  rw [helloReceive_eq hp, hp]

theorem execHelloReceive_down {f : List Byte} (hl : s.Live d) (hst : s.rd d TRM_PORT.STATE = 0) :
    execHelloReceive d f s = .next (s.commit s) :=
  onLive_eq hl (if_neg (by simp [State.hears, hst]))

/-- What a live die does with a frame that only a port that is up takes: `g` is the reading of its class and kind. -/
theorem onLive_arrive_up {f h : List Byte} {g : List Byte → State → State} (hl : s.Live d) (hst : s.rd d TRM_PORT.STATE = 2)
    (hu : u = s.inject d 10 514 7 (fClass f)) (hh : h = hopUp f) :
    onLive d s (fun x => if x.rd d TRM_PORT.STATE = 2 then arrive d f g x else x) =
      .next (s.commit (if frameOk u d f = true then g h u else frameBad d (fClass f) u)) :=
  onLive_eq hl ((if_pos hst).trans (arrive_eq hu hh))

theorem onLive_arrive_down {f : List Byte} {g : List Byte → State → State} (hl : s.Live d) (hst : s.rd d TRM_PORT.STATE ≠ 2) :
    onLive d s (fun x => if x.rd d TRM_PORT.STATE = 2 then arrive d f g x else x) = .next (s.commit s) := onLive_eq hl (if_neg hst)

/-! ANNOUNCE and the table of known packages (R408, R409) -/

theorem announceReceive_eq {h p : List Byte} {id ser seq own : Nat} (hp : p = fPayload h) (hid : id = fNum p 2 2 % 4096)
    (hser : ser = fNum p 8 8) (hseq : seq = fNum p 6 2) (hown : own = (u.ident.map fun i => i.serial).getD 0)
    (hv : v = (u.forEach (u.dieSet d) fun e t =>
      let w := t.modTrm e fun x => { x with seen := (id, ser, seq, t.pt) :: seenNow t x.seen }
      if id = w.ownId e then
        if ser < own ∧ w.bit e TRM_IDSTAT.DUP = false then (w.wr e TRM_IDSTAT.DUP 1).raise e 516 3 id else w
      else knownShow e (w.modTrm e fun x => { x with known := knownTake w e d (fByte h 1 % 32) id ser (fByte p 5) seq }))) :
    announceReceive d h u =
      if (seenNow u (u.getTrm d).seen).any (fun x => x.1 == id && x.2.1 == ser && x.2.2.1 == seq) = false ∧ ¬ (id = v.ownId d ∧ ser = own) then
        v.forEach (u.dieSet d) (fun e t => if e = d then t else portSend e h t) else v := by
  subst hv hown hseq hser hid hp
  simp only [announceReceive, Bool.and_eq_true, Bool.not_eq_true', ← Bool.not_eq_true, beq_iff_eq]

theorem announceOriginate_none (hw : w = s.toNext (State.stepNo 15 0 0) 25000000) (hm : w.master = none) : announceOriginate s = w := by
  subst hw
  simp only [announceOriginate, hm]

theorem announceOriginate_master {m q : Nat} (hw : w = s.toNext (State.stepNo 15 0 0) 25000000) (hq : q = (w.annSeq + 1) % 65536)
    (hu : u = { w with annSeq := q }) (hm : w.master = some m) :
    announceOriginate s = u.forEach (u.dieSet m) fun e t => portSend e (mkFrame 1 false 0 (u.node m) (beatPayload u m 2 q)) t := by
  subst hu hq hw
  simp only [announceOriginate, hm]

theorem knownExpiry_known {id : Nat} {k : Known} (h : ((s.getTrm d).known.find? fun x => x.id == id) = some k) :
    knownExpiry d id s = knownShow d ((s.passTo (k.at_ + 125000000)).modTrm d fun t =>
      { t with known := t.known.filter fun x => x.id != id }) := by
  simp only [knownExpiry, h]

theorem knownExpiry_unknown {id : Nat} (h : ((s.getTrm d).known.find? fun x => x.id == id) = none) : knownExpiry d id s = s := by
  simp only [knownExpiry, h]

/-! Forwarding (R410 to R412) -/

section
variable {h : List Byte} (h1 : fClass h ≠ 1) (h2 : fClass h ≠ 2)
include h1 h2

theorem frameHand_eq : frameHand d h u =
    if u.rd d GLB_PHASE.PHASE ≠ 5 then u
    else if fBcast h = true then broadcast d (some d) h u
    else if fDst h % 4096 = u.ownId d then
      if u.hasDie (fDst h / 4096) = true ∧ u.reach d (fDst h / 4096) = true then deliver (fDst h / 4096) h false u
      else noRoute d (fDst h % 4096) u
    else route d h u := by
  unfold frameHand
  split
  next h1' => exact absurd h1' h1
  next h2' => exact absurd h2' h2
  next => simp only [Bool.and_eq_true]

theorem frameHand_early (hph : u.rd d GLB_PHASE.PHASE ≠ 5) : frameHand d h u = u := (frameHand_eq h1 h2).trans (if_pos hph)

variable (hph : u.rd d GLB_PHASE.PHASE = 5)
include hph

theorem frameHand_bcast (hb : fBcast h = true) : frameHand d h u = broadcast d (some d) h u := by
  rw [frameHand_eq h1 h2, if_neg (not_not.mpr hph), if_pos hb]

theorem frameHand_own (hb : fBcast h = false) (hid : fDst h % 4096 = u.ownId d) : frameHand d h u =
    if u.hasDie (fDst h / 4096) = true ∧ u.reach d (fDst h / 4096) = true then deliver (fDst h / 4096) h false u
    else noRoute d (fDst h % 4096) u := by
  rw [frameHand_eq h1 h2, if_neg (not_not.mpr hph), if_neg (Bool.eq_false_iff.mp hb), if_pos hid]

theorem frameHand_other (hb : fBcast h = false) (hid : fDst h % 4096 ≠ u.ownId d) : frameHand d h u = route d h u := by
  rw [frameHand_eq h1 h2, if_neg (not_not.mpr hph), if_neg (Bool.eq_false_iff.mp hb), if_neg hid]

end

end

/-- Settles O48: a port's own steps change its state as written, an arriving frame passes the check of R405 before its class and
kind are read, and what is left of it is handed on by its class, phase and destination. -/
theorem teramPortsTrainBeatAndForward : Obligations.TeramPortsTrainBeatAndForward := by
  intro s d f hl
  refine ⟨fun x1 g u hg hst hu => onLive_eq hl (trainingComplete_trained x1 hg hst hu),
    fun x1 h => onLive_eq hl (trainingComplete_idle x1 h),
    fun u v w hst hu hv hw => onLive_eq hl (linkLoss_up hst hu hv hw),
    fun h => onLive_eq hl (linkLoss_down h),
    fun u v hst hph hopt hu hv => onLive_eq hl (teramRetrain_down hst hph hopt hu hv),
    fun h => onLive_eq hl (teramRetrain_idle h),
    fun u hu => onLive_eq hl (by subst hu; rfl),
    fun u p h hu hh hp => ⟨fun hst => execHelloReceive_hears hl hst hu hh hp, fun hst => ⟨?announce, onLive_arrive_up hl hst hu hh⟩⟩,
    fun hst => execHelloReceive_down hl hst,
    fun hst => ⟨onLive_arrive_down hl hst, onLive_arrive_down hl hst⟩,
    fun u v h p id ser seq own hp hid hser hseq hown hv => announceReceive_eq hp hid hser hseq hown hv,
    fun u h => ⟨frameHand_early, fun h1 h2 hph => ⟨frameHand_bcast h1 h2 hph, frameHand_own h1 h2 hph, frameHand_other h1 h2 hph⟩⟩,
    fun w m q u hw hq hu => ⟨fun hm => onPackage_eq (announceOriginate_none hw hm),
      fun hm => onPackage_eq (announceOriginate_master hw hq hu hm)⟩,
    fun id => ⟨fun k hk => onLive_eq hl (knownExpiry_known hk), fun hk => onLive_eq hl (knownExpiry_unknown hk)⟩⟩
  case announce =>
    subst hp
    exact onLive_arrive_up hl hst hu hh

end Sys2Proof.Machine
end

section
/-!
The fabric's time on a link and at the time master, and the shared angles (R409, R414 to R418).
-/

namespace Sys2Proof.Machine

section
variable {s u v w : State} {d frac : Nat} {f : List Byte}

/-! Time on a link (R414) -/

theorem timeSyncSend_silent (hu : u = s.toNext (State.stepNo 16 d 0) 25000)
    (h : u.rd d TRM_PORT.STATE ≠ 2 ∨ u.bit d TRM_IDSTAT.DUP = true) : timeSyncSend d frac s = u := by
  subst hu
  exact if_pos (by simpa using h)

theorem timeSyncSend_sends {x : Nat × State} {q : Nat} (hu : u = s.toNext (State.stepNo 16 d 0) 25000) (hx : x = departStamp d frac u)
    (hq : q = ((u.getTrm d).syncSeq + 1) % 65536) (hst : u.rd d TRM_PORT.STATE = 2) (hdup : u.bit d TRM_IDSTAT.DUP = false) :
    timeSyncSend d frac s = portSend d
      (mkFrame 2 false (x.2.rd d TRM_PORT.PEER) (x.2.node d) ([1, 0] ++ leBytes q 2 ++ leBytes x.1 8 ++ leBytes 0 8))
      (x.2.modTrm d fun t => { t with syncSeq := q, t1 := some x.1 }) := by
  subst hq hx hu
  exact if_neg (by simp [hst, hdup])

theorem timeSync_eq {x : Nat × State} (hx : x = departStamp d frac u) : timeSync d frac f u =
    if x.2.bit d TRM_IDSTAT.DUP = true then x.2 else
      portSend d (mkFrame 2 false (fSrc f) (x.2.node d)
        ([2, 0] ++ leBytes (fNum (fPayload f) 2 2) 2 ++ leBytes (stamp16 u frac) 8 ++ leBytes x.1 8)) x.2 := by
  subst hx; rfl

theorem timeReply_ignored (h : (u.getTrm d).t1 = none ∨ fNum (fPayload f) 2 2 ≠ (u.getTrm d).syncSeq) : timeReply d frac f u = u := by
  cases ht1 : (u.getTrm d).t1 with
  | none => simp only [timeReply, ht1]
  | some t1 =>
    simp only [timeReply, ht1]
    exact if_pos (h.resolve_left (by simp [ht1]))

section
variable {t1 t2 t3 : Nat} {y : Int} (ht1 : (u.getTrm d).t1 = some t1) (hseq : fNum (fPayload f) 2 2 = (u.getTrm d).syncSeq)
  (ht2 : t2 = fNum (fPayload f) 4 8) (ht3 : t3 = fNum (fPayload f) 12 8)
  (hy : y = (((stamp16 u frac : Int) - t1) - ((t3 : Int) - t2)) * 25) (hv : v = u.modTrm d (fun t => { t with t1 := none }))
include ht1 hseq ht2 ht3 hy hv

theorem timeReply_outside (h : y < 0 ∨ 20000000 < y) : timeReply d frac f u = v := by
  subst hv hy ht3 ht2
  simp only [timeReply, ht1, hseq, ne_eq, not_true_eq_false, if_false]
  exact if_pos h

theorem timeReply_taken {w : Int × State} {z : State} {o : Int} (hw : w = v.near ((y : Rat) / 2)) (hlo : 0 ≤ y) (hhi : y ≤ 20000000)
    (hz : z = w.2.wr d TRM_LINKDLY.DLY w.1.toNat) (ho : o = (t1 : Int) * 25 + w.1 - (t2 : Int) * 25) : timeReply d frac f u =
      if z.upstream = some d then (z.wrI d TRM_TOFS.OFS (satI 32 o)).modTrm d (fun t => { t with ofs := some o }) else z := by
  subst ho hz hw hv hy ht3 ht2
  simp only [timeReply, ht1, hseq, ne_eq, not_true_eq_false, if_false]
  exact if_neg (by omega)

end

/-! The offset at the time master (R415) -/

theorem fabricOffset_none (h : (s.getTrm d).ofs = none ∨ s.master = none ∨ ∃ m, s.master = some m ∧ s.reach d m = false) :
    fabricOffset d s = s := by
  unfold fabricOffset
  split
  next o m ho hm =>
    have hreach : s.reach d m = false := by simpa [ho, hm] using h
    exact if_pos (by simp [hreach])
  next => rfl

theorem fabricOffset_judged {o : Int} {m ok bad : Nat} (ho : (s.getTrm d).ofs = some o) (hm : s.master = some m)
    (hreach : s.reach d m = true) (hu : u = s.modTrm d (fun t => { t with ofs := none }))
    (hok : ok = if o.natAbs ≤ 400 then (u.getTrm m).okRun + 1 else 0)
    (hbad : bad = if 1200 < o.natAbs then (u.getTrm m).badRun + 1 else 0)
    (hv : v = u.modTrm m (fun t => { t with okRun := min ok 64, badRun := min bad 4 }))
    (hw : w = if v.fabLock = true then setRem (Config.fabServo o) v
      else if 10000000 < o.natAbs ∧ v.stepAllowed = true then askStep (((v.pt : Int) + 5000 - rheDiv o 400).toNat) false v
      else setRem (-(rheDiv o 400)) v) :
    fabricOffset d s = if w.fabLock = true then (if 4 ≤ bad then timeLost w else w) else if 64 ≤ ok then setFabLock true w else w := by
  subst hw hv hbad hok hu
  simp only [fabricOffset, ho, hm, hreach, Bool.not_true, Bool.false_eq_true, if_false, Bool.and_eq_true, decide_eq_true_eq]

/-! Shared angles (R417, R418) -/

theorem angleReceive_none (h : takeRx d (fun f => fClass f == 3) s = (none, u)) : angleReceive d s = u := by
  simp only [angleReceive, h]

theorem angleReceive_some {x : RxFrame} (h : takeRx d (fun f => fClass f == 3) s = (some x, u)) : angleReceive d s = angleTake d x u := by
  simp only [angleReceive, h]

/-- The model's test for a sample that is not newer than the last one of a live channel, as a proposition. -/
theorem notNewer_iff (live : Bool) (dist : Nat) :
    (!(!live || (decide (1 ≤ dist) && decide (dist ≤ 32767)))) = true ↔ ¬ (live = false ∨ (1 ≤ dist ∧ dist ≤ 32767)) := by
  simp only [Bool.not_eq_true', Bool.eq_false_iff, ne_eq, Bool.or_eq_true, Bool.and_eq_true, decide_eq_true_eq]

/-- The model's test for a sample from a source other than the one a kept channel is locked to, as a proposition. -/
theorem foreign_iff (keep : Bool) (locked : Option Nat) (src : Nat) :
    (keep && locked.isSome && locked != some src) = true ↔ ¬ (keep = false ∨ locked = none ∨ locked = some src) := by
  simp [Option.isSome_iff_ne_none, and_assoc]

section
variable {x : RxFrame} {p : List Byte} {c dist : Nat} {r : ChanRec} {live keep : Bool} {locked : Option Nat}
  (hp : p = fPayload x.bytes) (hc : c = fByte p 0 % 64) (hr : r = u.getChan d c)
  (hlive : live = match r.accAt with | some t => decide (u.pt ≤ t + u.tout d) | none => false)
  (hdist : dist = (fNum p 2 2 + 65536 - r.seq) % 65536)
include hp hc hr hlive hdist

theorem angleTake_old (hl : live = true) (hold : ¬ (1 ≤ dist ∧ dist ≤ 32767)) : angleTake d x u = u := by
  have hnot := (notNewer_iff live dist).mpr (not_or.mpr ⟨by simp [hl], hold⟩)
  subst hdist hlive hr hc hp
  exact if_pos hnot

variable (hlocked : locked = if live = true then r.node else none) (hkeep : keep = u.bitAt d TRM_ARXMASK.MASK c)
  (hnew : live = false ∨ (1 ≤ dist ∧ dist ≤ 32767))
include hlocked hkeep hnew

theorem angleTake_foreign (hk : keep = true) (hsome : locked ≠ none) (hsrc : locked ≠ some (fSrc x.bytes)) :
    angleTake d x u = u.raise d 514 3 c := by
  have hnewer := mt (notNewer_iff live dist).mp (not_not.mpr hnew)
  have hforeign := (foreign_iff keep locked (fSrc x.bytes)).mpr (by simp [hk, hsome, hsrc])
  subst hkeep hlocked hdist hlive hr hc hp
  exact (if_neg hnewer).trans (if_pos hforeign)

variable (hown : keep = false ∨ locked = none ∨ locked = some (fSrc x.bytes))
  (hv : v = if x.out = true ∧ u.bit d TRM_PORT.FWDB = true then portSend d x.bytes u else u)
  (hw : w = v.modChan d c (fun r => { r with seq := fNum p 2 2, accAt := some v.pt, node := if keep then some (fSrc x.bytes) else r.node }))
include hown hv hw

theorem angleTake_passed (hk : keep = false) : angleTake d x u = w := by
  have hnewer := mt (notNewer_iff live dist).mp (not_not.mpr hnew)
  have hforeign := mt (foreign_iff keep locked (fSrc x.bytes)).mp (not_not.mpr hown)
  simp only [← Bool.and_eq_true] at hv
  subst hw hv hkeep hlocked hdist hlive hr hc hp
  exact (if_neg hnewer).trans ((if_neg hforeign).trans (if_pos (by rw [hk]; rfl)))

theorem angleTake_kept {ta : Nat} {late : Bool} {y z : State} (hk : keep = true) (hta : ta = nearest32 w.pt (fNum p 4 4))
    (hlate : late = decide (ta < w.pt)) (hy : y = if late = true then w.addSat d TRM_ASTAT.LATE else w)
    (hz : z = if late = true ∧ r.late = false then y.raise d 518 3 c else y) :
    angleTake d x u = (z.modChan d c fun r =>
      { r with keptAt := some z.pt, ta := ta, ang := sgn 16 (fNum p 12 2) * 1099511627776 + ((fNum p 8 4 * 256 : Nat) : Int),
               spd := sgn 32 (fNum p 14 4), acc := sgn 32 (fNum p 18 4), angv := bitOf (fByte p 1) 0, mech := bitOf (fByte p 1) 2,
               mechv := bitOf (fByte p 1) 3, late := late }).wrBit d TRM_ARXVALID.VALID c true := by
  have hnewer := mt (notNewer_iff live dist).mp (not_not.mpr hnew)
  have hforeign := mt (foreign_iff keep locked (fSrc x.bytes)).mp (not_not.mpr hown)
  simp only [← Bool.and_eq_true, ← Bool.not_eq_true'] at hv hz
  subst hz hy hlate hta hw hv hkeep hlocked hdist hlive hr hc hp
  exact (if_neg hnewer).trans ((if_neg hforeign).trans (if_neg (by rw [hk]; decide)))

end

theorem angleTimeout_valid {c t : Nat} (hk : (s.getChan d c).keptAt = some t) (hv : s.bitAt d TRM_ARXVALID.VALID c = true) :
    angleTimeout d c s =
      ((((s.passTo (t + s.tout d + 1)).wrBit d TRM_ARXVALID.VALID c false).addSat d TRM_ASTAT.LOST).modChan d c fun r =>
        { r with node := none }).raise d 519 3 c := by
  simp only [angleTimeout, hk, hv, if_true]

theorem angleTimeout_idle {c : Nat} (h : (s.getChan d c).keptAt = none ∨ s.bitAt d TRM_ARXVALID.VALID c = false) :
    angleTimeout d c s = s := by
  unfold angleTimeout
  split
  next t hk => exact if_neg (by simpa [hk] using h)
  next => rfl

end

/-- Settles O49: the link's time frames, the offset's judging at the time master, and an angle sample's judging are read off their
definitions, one clause per branch; the sample's two Boolean tests are restated as propositions first. -/
theorem fabricTimeAndSharedAngles : Obligations.FabricTimeAndSharedAngles := by
  intro s d f frac hl
  refine ⟨fun u x q hu hx hq => ⟨fun h => onLive_eq hl (timeSyncSend_silent hu h),
      fun hst hdup => onLive_eq hl (timeSyncSend_sends hu hx hq hst hdup)⟩,
    fun u h hst hu hh => ⟨onLive_arrive_up hl hst hu hh, onLive_arrive_up hl hst hu hh⟩,
    fun hst => ⟨onLive_arrive_down hl hst, onLive_arrive_down hl hst⟩,
    fun u x hx => timeSync_eq hx,
    fun u h => timeReply_ignored h,
    fun u v t1 t2 t3 y w ht1 hseq ht2 ht3 hy hv hw => ⟨timeReply_outside ht1 hseq ht2 ht3 hy hv,
      fun hlo hhi z o hz ho => timeReply_taken ht1 hseq ht2 ht3 hy hv hw hlo hhi hz ho⟩,
    fun h => onLive_eq hl (fabricOffset_none h),
    fun o m u ok bad v w ho hm hreach hu hok hbad hv hw =>
      onLive_eq hl (fabricOffset_judged ho hm hreach hu hok hbad hv hw),
    fun u h => onLive_eq hl (angleReceive_none h),
    ?sample,
    fun c hc => ⟨fun t hk hv => onPart_eq hl hc (angleTimeout_valid hk hv), fun h => onPart_eq hl hc (angleTimeout_idle h)⟩⟩
  case sample =>
    intro x u p c r live locked keep v htake hp hc hr hlive hlocked hkeep hv
    have hexec : ∀ {t : State}, angleTake d x u = t → exec (.angleReceive d) s = .next (s.commit t) := fun h =>
      onLive_eq hl ((angleReceive_some htake).trans h)
    exact ⟨fun hl hold => hexec (angleTake_old hp hc hr hlive rfl hl hold), fun hnew =>
      ⟨fun hk hsome hsrc => hexec (angleTake_foreign hp hc hr hlive rfl hlocked hkeep hnew hk hsome hsrc),
        fun hown w hw => ⟨fun hk => hexec (angleTake_passed hp hc hr hlive rfl hlocked hkeep hnew hown hv hw hk),
          fun ta late y z hk hta hlate hy hz =>
            hexec (angleTake_kept hp hc hr hlive rfl hlocked hkeep hnew hown hv hw hk hta hlate hy hz)⟩⟩⟩

end Sys2Proof.Machine
end
